-- ==== Sys2Proof/Word.lean ====
section
/-! DEFINITION. The bit-vector types of the Caura CM9240 and the names for its numbered units. -/

namespace Sys2Proof

/-- One byte of device memory or of a payload. -/
abbrev Byte := BitVec 8
/-- One 64-bit page register. -/
abbrev W64 := BitVec 64
/-- One 64-byte line of Basecamp; byte `i` is bits `[8i+7:8i]` (spec/11 R245). -/
abbrev Line := BitVec 512
/-- A partition (03 R56). -/
abbrev Part := Fin 16
/-- A head (02 R29). -/
abbrev Head := Fin 16
/-- A session index (14 R312). -/
abbrev Session := Fin 8
/-- A job ring of a partition (07 R156). -/
abbrev Ring := Fin 64
/-- A PC instance, E-die × 64 + PC within the die (10 R243). -/
abbrev PcId := Fin 1024
/-- A global cluster, die × 16 + cluster (01). -/
abbrev Cluster := Fin 256
/-- A Scree slot (05 R120). -/
abbrev Slot := Fin 8
/-- A Belay group (12 R269). -/
abbrev Group := Fin 4
/-- An engine die. -/
abbrev Die := Fin 16
/-- A port die. -/
abbrev PortDie := Fin 4
/-- A multi-function pin (16 R348). -/
abbrev Pin := Fin 64
/-- A task class (09 R211). -/
abbrev TaskClass := Fin 16

end Sys2Proof
end

