-- ==== Sys2Proof/Syntax.lean ====
section
/-! DEFINITION. The commands of the block: one constructor of `Instr` for each row of
spec/opcode_table.json, with the operands the rule of its row names. The table gives no operand
fields; the operands are what the environment supplies with the request, message or moment. -/

namespace Sys2Proof

/-- The block types of Table 15.3 (15 R334). -/
inductive Blk where
  | id | port | part | ext | dir | tier | cmp | job | qos | pc | store | ras | cairn | belay
  | pwr | pin | role | pitch
  deriving DecidableEq, Repr

/-- Who writes a register (14, Views and roles): a host through a partition's BAR0, or the
fabric-manager view under a session. -/
inductive View where
  | host (p : Part) (h : Head)
  | fm (ses : Session)
  deriving DecidableEq, Repr

/-- Who ends a freeze (10 R235): Efirazu, or an installer session. -/
inductive Actor where
  | efirazu
  | session (ses : Session)
  deriving DecidableEq, Repr

/-- MetaValue of a CXL.mem request (04 R84, Table 4.3). -/
inductive Meta where
  | invalid | any | shared
  deriving DecidableEq, Repr

/-- The answer of a snooped host (04 Table 4.3). -/
inductive BiResp where
  | i | s | e
  deriving DecidableEq, Repr

/-- Back-invalidate snoops (04 Table 4.3). -/
inductive Snp where
  | inv | data | cur
  deriving DecidableEq, Repr

/-- Bit errors that physics left on the line being read: symbol number (0 to 71, data bytes first,
then check bytes; 11 R245) and the byte that is XORed to it. -/
abbrev Upset := List (Nat × Byte)

/-- Supply rails (16 Table 16.3). -/
inductive Rail where
  | vinL | vinD | vddSd | vddIo | vddAux
  deriving DecidableEq, Repr

/-- What wakes the package (13 R296); the codes are those of PWR.STATUS.LAST_WAKE. -/
inductive WakeCause where
  | head | mctp | belay | slot | lease | temperature | target
  deriving DecidableEq, Repr

/-- What the boot ROMs and Efirazu find at start-up (13 R302 to R304). -/
structure BootReport where
  /-- the complex on P-die 0 passes its self-test (01 R12) -/
  complex0Ok : Bool
  /-- boot image slot 0 authenticates and passes its self-test (R303) -/
  slot0Ok : Bool
  /-- boot image slot 1 authenticates and passes its self-test (R303) -/
  slot1Ok : Bool
  /-- both copies of the settings record fail their CRC (15 R329) -/
  settingsLost : Bool
  /-- PCs whose stored training record fails its CRC, names another package or another level (R304) -/
  recBad : List PcId
  /-- first temperature read of every PC not listed in `temps`, in °C -/
  temp : Nat
  /-- first temperature reads, in °C -/
  temps : List (PcId × Nat)
  /-- PCs that fail full training (R304) -/
  trainFail : List PcId
  deriving DecidableEq, Repr

/-- Errors of Table 2.9 that are AER correctable (02 R53). -/
inductive LinkErr where
  | receiverError | badFlit | badDllp | replay | replayTimeout | replayRollover | cxlMemCrc
  deriving DecidableEq, Repr

/-- Errors of a received TLP or of the protocol (02 R53, Table 2.9). -/
inductive TlpErr where
  | malformed | flowControl | receiverOverflow | dataLinkProtocol
  | unsupportedNonPosted | unsupportedPosted | unexpectedLd
  deriving DecidableEq, Repr

/-- Configuration fields with a meaning of their own (02 R36 to R51). -/
inductive CfgField where
  | enableRelaxedOrdering | tag10Enable | tag14Enable | memorySpaceEnable | romEnable
  | functionMask | completionTimeoutUs | cxlResetMemClrEnable | linkControl | linkControl2 | flexBusControl
  | powerState | aerUncStatus | aerUncMask | aerUncSeverity | aerCorStatus | aerCorMask | other (offset : Nat)
  deriving DecidableEq, Repr

/-- How a completion of a bus-master read arrives (02 R47). -/
inductive Cpl where
  | ok (data : List Byte) | unsupportedRequest | completerAbort | poisoned
  deriving DecidableEq, Repr

/-- The CXL event logs of a partition (02 Table 2.10). -/
inductive EvLog where
  | dynamicCapacity | informational | warning | failure | fatal
  deriving DecidableEq, Repr

/-- An extent named by a command: base and length in 256 MiB granules. -/
abbrev GranRange := Nat × Nat

/-- What a candidate image says of itself once its last chunk is in (14 R321). -/
structure ImageInfo where
  signatureOk : Bool
  svn : Nat
  pairLevel : Nat
  /-- the image says that MIN_SVN rises to its SVN at commit -/
  raisesMin : Bool
  deriving DecidableEq, Repr

/-- What Identify reports of an SSD (05 Table 5.6). -/
structure SsdInfo where
  /-- the form factor is E3.S -/
  e3s : Bool
  /-- CMIC reports multiple ports, and multiple controllers -/
  multiPort : Bool
  multiController : Bool
  /-- NMIC: the namespace is shared -/
  sharedNamespace : Bool
  /-- lanes per port, and the trained rate in GT/s -/
  lanes : Nat
  rate : Nat
  /-- NSID 1 is present and active -/
  nsid1 : Bool
  lbaBytes : Nat
  metadataBytes : Nat
  /-- DLFEAT: deallocated LBAs read as zeroes -/
  deallocatedZero : Bool
  /-- I/O queue pairs per controller, and their depth -/
  queuePairs : Nat
  queueDepth : Nat
  /-- MDTS in bytes; `none` for no limit -/
  mdts : Option Nat
  /-- size of NSID 1 in LBAs -/
  lbas : Nat
  deriving DecidableEq, Repr

/-- Why an SSD fails (05 R121); surprise removal, paths, timeouts, SMART. -/
inductive SsdFailCause where
  | removal | timeouts | critical | paths
  deriving DecidableEq, Repr

/-- SSD path A or B (05 R120). -/
inductive Path where
  | a | b
  deriving DecidableEq, Repr

/-- Why a step waits (08 R196). -/
inductive ParkCause where
  | fill | frame | staging
  deriving DecidableEq, Repr

/-- Where an uncorrectable SRAM word lies (11 Table 11.1). -/
inductive SramSite where
  | stepMemory (p : Part) (ring : Ring) (idx step : Nat)
  | blockCache (block : Nat)
  | bufferRead (p : Part) (h : Head) (dpa : Nat)
  | metadataCache (c : Cluster)
  | partitionIo (p : Part)
  | cairnRing (inUse : Bool)
  | spillRing
  /-- a single-bit error, corrected in place -/
  | corrected
  deriving DecidableEq, Repr

/-- The twin's answer while pairing (12 R266, R267). -/
structure TwinInfo where
  pairEn : Bool
  tiered : Bool
  pitchLen : Nat
  rank : Bool
  protoLevel : Nat
  keysOk : Bool
  fromCold : Bool
  /-- the twin has served writes alone -/
  servedAlone : Bool
  /-- PITCH_SYNC_OUT of the lead is wired to PITCH_SYNC_IN of the second -/
  syncWired : Bool
  /-- the twin's PITCH.COUNT -/
  count : Nat
  /-- the twin was fenced and not reset since (R286) -/
  fencedNoReset : Bool
  /-- capacity in granules that the twin would export alone (00 Table 0.2) -/
  capGran : Nat
  /-- the twin holds an accepted image of this level (14 R322) -/
  fwAcceptedLevel : Option Nat
  deriving DecidableEq, Repr

/-- A partition in the configuration of a resync: STATE, heads on the source, LEASE_MS, lease left in TIMEBASE_IN
cycles, epoch, open offers (12 R286). -/
structure CfgPart where
  part : Nat
  state : Nat
  heads : Nat
  leaseMs : Nat
  left : Nat
  epoch : Nat
  offers : List (List GranRange)
  deriving DecidableEq, Repr

/-- An extent in the configuration of a resync; holders with EXT.STATE codes. -/
structure CfgExt where
  base : Nat
  len : Nat
  attr : Nat
  tag : Nat
  holders : List (Nat × Nat)
  sanitising : Bool
  publisherGone : Bool
  epoch : Nat
  unreadable : Bool
  deriving DecidableEq, Repr

/-- A saved block: number, bytes, poisoned lines. -/
abbrev CfgBlock := Nat × List Byte × List Nat

/-- A snapshot extent in the configuration of a resync: newest version, older live versions, draft, versions held by
partition. -/
structure CfgSnap where
  base : Nat
  newest : Nat
  old : List (Nat × List CfgBlock)
  draft : Option (List CfgBlock)
  opens : List (Nat × Nat)
  deriving DecidableEq, Repr

/-- A block-index entry, and a segment header, in the configuration of a resync. -/
structure CfgIdx where
  block : Nat
  kind : Nat
  rank : Nat
  clen : Nat
  tslot : Bool
  deriving DecidableEq, Repr

structure CfgSeg where
  seg : Nat
  coded : BitVec 64
  table0 : Option (List Nat)
  table1 : Option (List Nat)
  elem : Nat
  tile : Nat
  use0 : Nat
  use1 : Nat
  deriving DecidableEq, Repr

/-- A page register in the configuration of a resync. -/
structure CfgReg where
  blk : Blk
  inst : Nat
  off : Nat
  value : Nat
  deriving DecidableEq, Repr

/-- Journal state whole, as a resync's first phase sends it (12 R286). -/
structure PairConfig where
  full : Bool
  /-- the 64 MiB segments that will be copied -/
  segs : List Nat
  parts : List CfgPart
  exts : List CfgExt
  regs : List CfgReg
  snaps : List CfgSnap
  /-- pinned blocks and the partitions that pin them -/
  pins : List (Nat × List Nat)
  index : List CfgIdx
  headers : List CfgSeg
  /-- partitions that hold a master key -/
  keys : Nat
  nextSeq : Nat
  deriving DecidableEq, Repr

/-- State changes that travel in the journal (12 R274). `fromLead` tells at which package the change arose. -/
inductive JBody where
  /-- a page register of the QOS, DIR (reserve) or BELAY page -/
  | reg (blk : Blk) (inst off : Nat) (value : W64)
  | bind (fromLead : Bool) (p : Part) (heads : BitVec 16)
  | extAdd (p : Part) (exts : List GranRange) (attr : BitVec 32) (tag : Nat) (join : Bool)
  | extAccept (p : Part) (exts : List GranRange)
  | extRequest (p : Part) (exts : List GranRange)
  | extRelease (p : Part) (exts : List GranRange)
  | extForce (p : Part) (exts : List GranRange)
  | setAttr (base : Nat) (mask attr : BitVec 32)
  | reclaim (p : Part)
  | revive (p : Part)
  | leaseRenew (fromLead : Bool) (p : Part)
  | leaseExpire (p : Part)
  /-- a granule has been sanitised at one package (03 R69) -/
  | sanitised (fromLead : Bool) (gran : Nat)
  | hint (fromLead : Bool) (p : Part) (op : Nat) (base len : Nat)
  /-- the sharers that a line has on the heads of one package, the lead's or the second's; `pass` where the second takes
  over what the lead tracked for it (04 R90; 12 R287) -/
  | dirLine (ofLead pass : Bool) (line : Nat) (exclusive : Bool) (sharers : List Nat)
  | blockForm (block : Nat) (source : List Byte) (kind : Nat) (form : List Byte) (table : Option (Bool × List Nat))
  | snap (fromLead : Bool) (p : Part) (op : Nat) (base : Nat) (version : BitVec 32)
  | jobDesc (fromLead : Bool) (p : Part) (ring : Ring) (idx seq : Nat) (desc : List Byte)
  | rung (n : Nat)
  | wake
  /-- the accepted image's level changes at one package (14 R322) -/
  | fwLevel (fromLead : Bool) (level : Option Nat)
  | config (c : PairConfig)
  deriving DecidableEq, Repr

/-- Channel 1 and channel 2 write traffic (12 R273). -/
inductive MirrorMsg where
  /-- a line the lead has accepted, in the lead's order -/
  | write (id : Nat) (p : Part) (dpa : Nat) (data : Line) (mask : BitVec 64)
  /-- the twin's home PC has accepted the write `id` -/
  | accept (id : Nat)
  /-- a write that entered the second, on a head where a host sent it, and is forwarded to the lead -/
  | forward (id : Nat) (p : Part) (dpa : Nat) (data : Line) (mask : BitVec 64) (via : Option Head) (mv : Meta)
  /-- host data that the twin staged for an operand of job `seq` (12 R277) -/
  | staging (seq operand : Nat) (data : List Byte)
  deriving DecidableEq, Repr

/-- A request that the twin forwards, or the twin's answer to one of ours (12 R268, R280). -/
inductive FwdMsg where
  /-- `via` is the head of a host read that the receiver's directory is to track (12 R287) -/
  | read (id : Nat) (p : Part) (dpa : Nat) (upset : Upset) (via : Option Head) (mv : Meta)
  | write (id : Nat) (p : Part) (dpa : Nat) (data : Line) (mask : BitVec 64)
  | block (id : Nat) (block : Nat)
  /-- snoop one of the receiver's sharers of a line, and the sharer's answer (04 R90) -/
  | snoop (line : Nat) (kind : Snp) (sharer : Nat)
  | snooped (line sharer : Nat) (resp : BiResp)
  /-- a MemClnEvct on a head of the sender -/
  | cleanEvict (p : Part) (h : Head) (dpa : Nat)
  /-- the sender has discarded the blocks of a hint that came from the receiver's ring (05 R107) -/
  | discarded (p : Part) (base len : Nat)
  | readAnswer (id : Nat) (data : Option Line)
  | writeAnswer (id : Nat)
  | blockAnswer (block : Nat) (data : Option (List Byte))
  deriving DecidableEq, Repr

/-- A journal message on channel 0 (12 R274). -/
inductive JMsg where
  | entry (num : Nat) (body : JBody)
  | ack (num : Nat)
  deriving DecidableEq, Repr

/-- A command or address parity error reported by a DRAM with the command's fields (10 R234). -/
structure ParityErr where
  rank : Nat
  bank : Nat
  row : Nat
  column : Nat
  deriving DecidableEq, Repr

/-- The target of a plain register write (15 R330, R332; 02 R41, R43). -/
inductive RegTarget where
  | bar0 (offset : Nat)
  | bar2 (offset : Nat) (bytes : List Byte)
  | rom (offset : Nat)
  deriving DecidableEq, Repr

/-- A Cairn record as the twin streams it (11 R257, R261). -/
structure TwinRecord where
  timestamp : Nat
  block : Nat
  inst : Nat
  event : Nat
  coalesced : Nat
  severity : Nat
  partition : Option Nat
  payload : List Byte
  deriving DecidableEq, Repr

/-- A candidate of the compactor (06 R150, R151). -/
structure Candidate where
  /-- the 8,192 bytes of the block as the compactor read them -/
  source : List Byte
  /-- the stored form -/
  form : List Byte
  deriving DecidableEq, Repr

/-- The root of a requester's certificate chain (14 R311). -/
inductive ChainRoot where
  /-- a root whose SHA-384 hash is given -/
  | hash (h : BitVec 384) (installerClaim : Bool)
  /-- the Luallaune maker root -/
  | maker
  deriving DecidableEq, Repr

/-- The transport of a session (14 R310, R312). -/
inductive Transport where
  | i3c (bus : Fin 2)
  | head (h : Head)
  deriving DecidableEq, Repr

/-- The commands of the block, in the order of spec/opcode_table.json. -/
inductive Instr where
  -- resets, rails, start-up, power ladder
  | coldPowerOn (makerEn : Bool)
  | powerGood (report : BootReport)
  | basecampFillDone (parityFail : List PcId) (bankFail : List (Cluster × Fin 4))
  | memActive (ms : Nat)
  | twinNoAnswer
  | pkgRst
  | warmReset (ses : Session)
  | settingsRecordWrite
  | railFault (rail : Rail)
  | thermtripRegulatorOff
  | flowLost
  | flowRestored
  | rungEntry
  | targetWrite (ses : Session) (n : Fin 8)
  | wake (cause : WakeCause)
  | rungExitDone (us : Nat)
  | clusterReset (ses : Session) (c : Cluster)
  | clusterResetDone (bankFail : List (Fin 4))
  -- timebase
  | pitchBoundary (late : Bool) (tbCycles : Nat)
  | timebaseStop
  | tbRestored
  | pitchSyncPulse (offsetNs : Int)
  | pitchMarkerFlit (count : Nat) (offsetNs : Int)
  | complexTakeover
  -- PC controllers
  | tempRead (pc : PcId) (reading : Option Nat)
  | refreshDue (pc : PcId) (rank : Fin 2)
  | pcCommandIssue (pc : PcId) (parity : Option ParityErr)
  | openTimeout (pc : PcId) (bankq : Fin 32)
  | ageMax (pc : PcId) (entry : Nat)
  | rankPowerDown (pc : PcId) (rank : Fin 2)
  -- host memory
  | hostMemRead (h : Head) (p : Part) (dpa : Nat) (mv : Meta) (upset : Upset)
  | hostMemWrite (h : Head) (p : Part) (dpa : Nat) (data : Line) (mask : BitVec 64) (mv : Meta)
  | partialWriteMerge (dpa : Nat) (upset : Upset)
  | cleanEviction (h : Head) (p : Part) (dpa : Nat)
  | birsp (h : Head) (p : Part) (dpa : Nat) (resp : BiResp)
  | biconflict (h : Head) (p : Part) (dpa : Nat)
  | biTimeout (h : Head) (p : Part) (dpa : Nat)
  -- heads
  | linkTrained (h : Head) (rate : Fin 7) (width : Nat) (cxl flit256 partner128 : Bool)
  | eqFail128 (h : Head)
  | laneFailure (h : Head) (lanes : BitVec 16)
  | linkDown (h : Head) (forRung unacked : Bool)
  | perstAssert (h : Head)
  | perstDeassert (h : Head)
  | retrain (ses : Session) (h : Head)
  | linkError (h : Head) (kind : LinkErr)
  | tlpError (h : Head) (kind : TlpErr) (p : Part)
  | viralReceived (h : Head)
  | configWrite (h : Head) (p : Part) (field : CfgField) (value : Nat)
  | busMasterEnableClear (h : Head) (p : Part)
  | busMasterEnableSet (h : Head) (p : Part)
  | flr (h : Head) (p : Part)
  | flrComplete (p : Part)
  | cxlReset (h : Head) (p : Part)
  | cxlResetComplete (p : Part)
  | msixUnmask (p : Part) (vec : Fin 256)
  | completionReceived (p : Part) (tag : Nat) (cpl : Cpl)
  | completionTimeout (p : Part) (tag : Nat)
  | tagLimitWrite (h : Head) (p : Part) (limit : BitVec 11)
  -- fabric manager
  | identify (ses : Session)
  | getLdInfo (ses : Session)
  | getLdAllocations (ses : Session) (start count : Nat)
  | setLdAllocations (ses : Session)
  | getMultiHeadedInfo (ses : Session)
  | getHeadInfo (ses : Session) (start count : Nat)
  | getDcdInfo (ses : Session)
  | getHostDcRegionConfiguration (ses : Session) (p : Part)
  | getDcRegionExtentLists (ses : Session) (p : Part) (start count : Nat)
  | setDcRegionConfiguration (ses : Session) (p : Part) (region blockSize base length : Nat)
  | initiateDynamicCapacityAdd (ses : Session) (p : Part) (shared : Bool) (tag : Nat)
      (exts : List GranRange)
  | initiateDynamicCapacityRelease (ses : Session) (p : Part) (forced : Bool)
      (exts : List GranRange)
  | setQosAllocatedBw (ses : Session) (start : Nat) (fractions : List Nat)
  | getQosAllocatedBw (ses : Session) (start count : Nat)
  | getQosBwLimit (ses : Session) (start count : Nat)
  | setQosBwLimit (ses : Session) (start : Nat) (limits : List Nat)
  | getQosStatus (ses : Session)
  | getQosControl (ses : Session)
  | setQosControl (ses : Session) (values : W64)
  | bindPartition (ses : Session) (payload : List Byte)
  | bindTakesEffect (p : Part)
  | getPartitionState (ses : Session) (payload : List Byte)
  | initiateExtentAdd (ses : Session) (payload : List Byte)
  | setExtentAttributes (ses : Session) (payload : List Byte)
  | forceExtentRelease (ses : Session) (payload : List Byte)
  | renewLease (ses : Session) (payload : List Byte)
  | reclaimPartition (ses : Session) (payload : List Byte)
  | revivePartition (ses : Session) (payload : List Byte)
  | fmCommandUnsupported (ses : Session) (opcode : Nat)
  | readPageRegister (ses : Session) (blk inst off count : Nat)
  | writePageRegister (ses : Session) (blk inst off rsvd : Nat) (value : W64)
  | stageImage (ses : Session) (offset : Nat) (chunk : List Byte) (last : Option ImageInfo)
  -- mailbox, lease, sanitising
  | addDynamicCapacityResponse (h : Head) (p : Part) (exts : List GranRange)
  | releaseDynamicCapacity (h : Head) (p : Part) (exts : List GranRange)
  | dcReportMailbox (h : Head) (p : Part)
  | getPoisonList (h : Head) (p : Part)
  | injectPoison (ses : Session) (p : Part) (dpa : Nat)
  | clearPoison (h : Head) (p : Part) (dpa : Nat) (data : Line)
  | mailboxUnsupported (h : Head) (p : Part) (opcode : Nat)
  | leaseRenew (h : Head) (p : Part)
  | leaseLow (p : Part)
  | leaseExpiry (p : Part)
  | sanitiseComplete (gran : Nat)
  -- snapshots
  | snapOpen (h : Head) (p : Part) (base : BitVec 21) (version : BitVec 32)
  | snapClose (h : Head) (p : Part) (base : BitVec 21)
  | snapDraft (h : Head) (p : Part) (base : BitVec 21)
  | snapCommit (h : Head) (p : Part) (base : BitVec 21)
  | snapCommitEffect (p : Part)
  | snapAbandon (h : Head) (p : Part) (base : BitVec 21)
  | reserveWrite (ses : Session) (granules : BitVec 21)
  -- hints and the Scree tier
  | hintEnable (h : Head) (p : Part) (on : Bool)
  | hintProducer (h : Head) (p : Part) (producer : BitVec 32)
  | hintFetchDone (p : Part) (cpl : Cpl)
  | prefetch (p : Part)
  | hintPin (p : Part)
  | unpin (p : Part)
  | cold (p : Part)
  | discard (p : Part)
  | hintCompact (p : Part)
  | fillComplete (block : Nat) (ok : Bool)
  | ioTimeout (slot : Slot) (cmd : Nat)
  | evictionStart (c : Cluster)
  | evictionComplete (block : Nat)
  | ssdInsert (slot : Slot)
  | slotDebounceEnd (slot : Slot)
  | powerFault (slot : Slot)
  | ssdAdmit (slot : Slot) (info : SsdInfo)
  | attnButton (slot : Slot)
  | button (ses : Session) (slot : Slot)
  | buttonWaitEnd (slot : Slot)
  | ssdFail (slot : Slot) (cause : SsdFailCause)
  | ssdAsyncEvent (slot : Slot) (reliability readOnly : Bool)
  | pathLost (slot : Slot) (path : Path)
  | pathReturn (slot : Slot) (path : Path)
  | pathsDownTimeout (slot : Slot)
  | rebuildDone
  -- compression
  | blockDecode (block : Nat)
  | compactorCommit (block : Nat) (kind : Nat) (form : Candidate) (table : Option (Bool × List Nat))
  -- jobs and steps
  | doorbell (h : Head) (p : Part) (ring : Ring) (producer : BitVec 32) (relaxed : Bool)
  | descriptorFetch (p : Part) (ring : Ring) (cpl : Cpl)
  | jobStart (p : Part) (ring : Ring) (idx : Nat)
  | stepGenerate (p : Part) (ring : Ring) (idx : Nat) (homes : List Cluster) (remoteOk : Bool)
  | stepStart (core : Nat) (granules : Nat) (wait : Option ParkCause)
  | stepResume (p : Part) (ring : Ring) (idx step : Nat)
  | stepOverrun (p : Part) (ring : Ring) (idx step : Nat)
  | watchdogTrip (p : Part) (ring : Ring) (idx step : Nat)
  | stepCommit (p : Part) (ring : Ring) (idx step : Nat) (quick : Bool)
  | steal (core : Nat)
  | jobComplete (p : Part) (ring : Ring) (idx : Nat)
  | ringEnable (h : Head) (p : Part) (ring : Ring) (on : Bool)
  -- operators
  | fill (p : Part) (ring : Ring) (idx : Nat)
  | copy (p : Part) (ring : Ring) (idx : Nat)
  | gather (p : Part) (ring : Ring) (idx : Nat)
  | scatter (p : Part) (ring : Ring) (idx : Nat)
  | compare (p : Part) (ring : Ring) (idx : Nat)
  | search (p : Part) (ring : Ring) (idx : Nat)
  | hashBuild (p : Part) (ring : Ring) (idx : Nat)
  | hashProbe (p : Part) (ring : Ring) (idx : Nat)
  | intersect (p : Part) (ring : Ring) (idx : Nat)
  | union (p : Part) (ring : Ring) (idx : Nat)
  | difference (p : Part) (ring : Ring) (idx : Nat)
  | count (p : Part) (ring : Ring) (idx : Nat)
  | dedup (p : Part) (ring : Ring) (idx : Nat)
  | sort (p : Part) (ring : Ring) (idx : Nat)
  | neighborGather (p : Part) (ring : Ring) (idx : Nat)
  | bitmap (p : Part) (ring : Ring) (idx : Nat)
  | reduce (p : Part) (ring : Ring) (idx : Nat)
  | segmentReduce (p : Part) (ring : Ring) (idx : Nat)
  | windowOpen (p : Part) (ring : Ring) (idx : Nat)
  | accumulate (p : Part) (ring : Ring) (idx : Nat)
  | windowCommit (p : Part) (ring : Ring) (idx : Nat)
  | map (p : Part) (ring : Ring) (idx : Nat)
  | compact (p : Part) (ring : Ring) (idx : Nat)
  | expand (p : Part) (ring : Ring) (idx : Nat)
  | verify (p : Part) (ring : Ring) (idx : Nat)
  -- regulation
  | queueHoldRelease (pc : PcId)
  | guarWrite (ses : Session) (p : Part) (gbs : BitVec 15)
  | reclaimStart (ses : Session) (cls : TaskClass) (on : Bool)
  | reclaimDone (cls : TaskClass)
  -- freeze, retrain, training, store test
  | freezeHold (pc : PcId)
  | resume (actor : Actor) (pc : PcId)
  | retireRow (actor : Actor) (pc : PcId)
  | retireRowDone (pc : PcId)
  | fail (actor : Actor) (pc : PcId)
  | pcRetrainEnd (pc : PcId) (finished : Bool)
  | trainRun (ses : Session) (pc : PcId) (value : W64)
  | trainDone (pc : PcId) (lanes : W64) (mismatches firstFail : BitVec 32)
  | quiesce (ses : Session) (pc : PcId) (on : Bool)
  | storeRegionTestDone (c : Cluster) (pass : Bool)
  -- scrubbing, retirement, Cairn
  | scrubLine (pc : PcId) (upset : Upset)
  | sramUe (site : SramSite)
  | autoRetire (seq : Nat)
  | retireBlock (ses : Session) (pc : PcId) (rank : Fin 2) (bank : Fin 16) (row : BitVec 16)
  | retireRowCmd (ses : Session) (pc : PcId) (rank : Fin 2) (bank : Fin 16) (row : BitVec 16)
  | retireBank (ses : Session) (pc : PcId) (rank : Fin 2) (bank : Fin 16)
  | retirePc (ses : Session) (pc : PcId)
  | retired
  | cairnExpressCommit (block inst : Nat) (late : Bool)
  | readSeqWrite (ses : Session) (seq : BitVec 40)
  | cairnStreamReceive (rec : TwinRecord)
  -- the pair
  | pairing (twin : TwinInfo)
  | heartbeatReceived (group : Group) (count : Nat)
  | heartbeatMiss
  | leaving
  | leave (ses : Session)
  | swap (ses : Session)
  | approve (ses : Session)
  | belayRetrain (from' : Option Session)
  | groupDown (g : Group)
  | renew (ses : Session)
  | witnessWaitExpiry
  | witnessLapsed
  | mirroredWrite (msg : MirrorMsg)
  | forwardedRequest (msg : FwdMsg)
  | journalEntry (msg : JMsg)
  | journalApply
  | digestReceived (seq step : Nat) (digest : W64)
  | digestTimeout (seq step : Nat)
  | resyncSegmentDone (seg : Nat) (blocks : List CfgBlock)
  | resyncDone
  | dieLost (d : Die)
  | portDieLost (d : PortDie)
  -- sessions
  | getVersion (ses : Session)
  | getCapabilities (ses : Session)
  | negotiateAlgorithms (ses : Session)
  | getDigests (ses : Session)
  | getCertificate (ses : Session)
  | challenge (ses : Session)
  | getMeasurements (ses : Session)
  | keyExchange (transport : Transport) (root : ChainRoot)
  | finish (ses : Session)
  | heartbeat (ses : Session)
  | keyUpdate (ses : Session)
  | endSession (ses : Session)
  | spdmUnsupported (ses : Session) (code : Nat)
  | sessionTimeout (ses : Session)
  | anchorCommit (ses : Session)
  | anchorClear (ses : Session)
  | ideKm (h : Head)
  | ideFail (h : Head)
  | fwAccept (ses : Session)
  | fwRevoke (ses : Session)
  -- pages and pins
  | blockReset (view : View) (blk : Blk) (inst : Nat)
  | blockResetDone (blk : Blk) (inst : Nat)
  | lock (ses : Session) (blk : Blk) (inst : Nat)
  | evtStatusClear (view : View) (blk : Blk) (inst : Nat) (bits : W64)
  | evtForce (ses : Session) (blk : Blk) (inst : Nat) (bits : W64)
  | registerWrite (view : View) (target : RegTarget) (widthBytes : Nat) (value : W64)
  | mfpFuncWrite (ses : Session) (pin : Pin) (func : Fin 16)
  | mfpParkEnd (pin : Pin)
  -- rows added at the end of the table
  | timebaseInReturn
  | rungEntered
  | railRemoved (rail : Rail)
  | railRestored (rail : Rail)
  | mfpInputChange (pin : Pin) (level : Bool)
  | pwrgdAsserted (slot : Slot)
  | deallocateComplete (slot : Slot) (cmd : Nat)
  | rebuildWriteComplete (c : Cluster)
  | pcRetrainStart (pc : PcId)
  | logicSensorRead (celsius : Nat)
  | groupUp (g : Group) (half : Bool)
  | l1Entry (h : Head)
  | stripeLockExpiry (c : Cluster) (stripe : Nat)
  | snapCommandDone (p : Part)
  | disable (ses : Session) (h : Head) (on : Bool)
  | hdmDecoderCommit (h : Head) (p : Part) (base len : Nat) (bi : Bool)
  | clearEventRecords (h : Head) (p : Part) (log : EvLog) (count : Nat)
  | setEventInterruptPolicy (h : Head) (p : Part) (log : EvLog) (vector : Option (Fin 256))
  deriving DecidableEq, Repr

end Sys2Proof
end

