-- ==== Sys2Proof/Decode.lean ====
section
/-! DEFINITION. Decoding a table word. spec/opcode_table.json gives no row of this block any bits: a command
is a request, a message or a moment, not a word. So no word spells a command. -/

namespace Sys2Proof

/-- The command that a word of `nbits` bits spells by the table's bits: none, for the table gives no row
bits. -/
def decodeTableWord (_nbits _w : Nat) : Option Instr := none

end Sys2Proof
end

