-- ==== Sys2Proof/Machine/Num.lean ====
section
/-! DEFINITION. Number formats (07 R166 to R168), the one rounding of every conversion (R167; 06 R134), exact
values and the arithmetic of R187. The bit layouts of the IEEE 754 and OCP types, which R166 names, are
PRESUMED from those standards (log 12). -/

namespace Sys2Proof.Machine

/-- An exact value: NaN, an infinity, or (−1)^neg · m · 2^e. -/
inductive FV where
  | nan
  | inf (neg : Bool)
  | fin (neg : Bool) (m : Nat) (e : Int)
  deriving DecidableEq, Repr

/-- Which encodings a float format spends on specials. -/
inductive Special where
  /-- infinities and NaNs in the top exponent (IEEE 754, BF16, E5M2) -/
  | ieee
  /-- one NaN magnitude, no infinity (E4M3) -/
  | nanOnly
  /-- none (FP6, FP4) -/
  | none
  deriving DecidableEq, Repr

/-- A float format: exponent bits, mantissa bits, specials. -/
structure Fmt where
  eb : Nat
  mb : Nat
  sp : Special
  deriving DecidableEq, Repr

def fmtF64 : Fmt := ⟨11, 52, .ieee⟩
def fmtF32 : Fmt := ⟨8, 23, .ieee⟩
def fmtBf16 : Fmt := ⟨8, 7, .ieee⟩
def fmtF16 : Fmt := ⟨5, 10, .ieee⟩
def fmtE4m3 : Fmt := ⟨4, 3, .nanOnly⟩
def fmtE5m2 : Fmt := ⟨5, 2, .ieee⟩
def fmtE3m2 : Fmt := ⟨3, 2, .none⟩
def fmtE2m3 : Fmt := ⟨2, 3, .none⟩
def fmtE2m1 : Fmt := ⟨2, 1, .none⟩

/-- Bits of a value. -/
def fmtBits (f : Fmt) : Nat := 1 + f.eb + f.mb

def fmtBias (f : Fmt) : Nat := 2 ^ (f.eb - 1) - 1

/-- Bit pattern of the largest finite magnitude. -/
def fmtMax (f : Fmt) : Nat :=
  match f.sp with
  | .ieee => (2 ^ f.eb - 1) * 2 ^ f.mb - 1
  | .nanOnly => 2 ^ (f.eb + f.mb) - 2
  | .none => 2 ^ (f.eb + f.mb) - 1

/-- The canonical quiet NaN (R167); a format without NaN gives +0. -/
def fmtNan (f : Fmt) : Nat :=
  match f.sp with
  | .ieee => (2 ^ f.eb - 1) * 2 ^ f.mb + 2 ^ (f.mb - 1)
  | .nanOnly => 2 ^ (f.eb + f.mb) - 1
  | .none => 0

/-- The value of a bit pattern. -/
def fmtDecode (f : Fmt) (b : Nat) : FV :=
  let neg := b.testBit (f.eb + f.mb)
  let ex := b / 2 ^ f.mb % 2 ^ f.eb
  let mt := b % 2 ^ f.mb
  let special :=
    match f.sp with
    | .ieee => decide (ex = 2 ^ f.eb - 1)
    | .nanOnly => decide (ex = 2 ^ f.eb - 1) && decide (mt = 2 ^ f.mb - 1)
    | .none => false
  if special then
    (if f.sp = .ieee ∧ mt = 0 then .inf neg else .nan)
  else if ex = 0 then .fin neg mt (1 - (fmtBias f : Int) - f.mb)
  else .fin neg (mt + 2 ^ f.mb) ((ex : Int) - fmtBias f - f.mb)

/-- n / d rounded to nearest, ties to even. -/
def roundHalfEven (n d : Nat) : Nat :=
  let q := n / d
  let r := n % d
  if d < 2 * r ∨ (2 * r = d ∧ q % 2 = 1) then q + 1 else q

/-- num · 2^e / den as a pair of naturals. -/
def scaleFrac (num den : Nat) (e : Int) : Nat × Nat :=
  if 0 ≤ e then (num * 2 ^ e.toNat, den) else (num, den * 2 ^ (-e).toNat)

/-- ⌊log2 (num / den)⌋ for positive num and den. -/
def floorLog2 (num den : Nat) : Int :=
  let k : Int := (Nat.log2 num : Int) - Nat.log2 den
  let (n, d) := scaleFrac num den (-k)
  if n < d then k - 1 else k

/-- Round (−1)^neg · num/den · 2^e once to a format (R167): the bits, and whether it saturated. -/
def fmtRound (f : Fmt) (neg : Bool) (num den : Nat) (e : Int) : Nat × Bool :=
  let sgn := if neg then 2 ^ (f.eb + f.mb) else 0
  if num = 0 then (sgn, false)
  else
    let k := floorLog2 num den + e
    let emin : Int := 1 - (fmtBias f : Int)
    let qe := max (k - f.mb) (emin - f.mb)
    let (n, d) := scaleFrac num den (e - qe)
    let r := roundHalfEven n d
    let bits := ((qe + f.mb + fmtBias f - 1).toNat) * 2 ^ f.mb + r
    if bits ≤ fmtMax f then (sgn + bits, false)
    else
      match f.sp with
      | .ieee => (sgn + (2 ^ f.eb - 1) * 2 ^ f.mb, false)
      | _ => (sgn + fmtMax f, true)

/-- Convert an exact value to a format (R167). -/
def fmtOf (f : Fmt) : FV → Nat × Bool
  | .nan => (fmtNan f, decide (f.sp = .none))
  | .inf neg =>
    let sgn := if neg then 2 ^ (f.eb + f.mb) else 0
    match f.sp with
    | .ieee => (sgn + (2 ^ f.eb - 1) * 2 ^ f.mb, false)
    | _ => (sgn + fmtMax f, true)
  | .fin neg m e => fmtRound f neg m 1 e

/-- The nearest integer of num/den · 2^e, ties to even. -/
def nearestNat (num den : Nat) (e : Int) : Nat :=
  let (n, d) := scaleFrac num den e
  roundHalfEven n d

/-- Signed integer of a sign and magnitude. -/
def signed (neg : Bool) (m : Nat) : Int := if neg then -(m : Int) else m

/-- Clamp to a range; the flag tells that it did. -/
def clampInt (lo hi x : Int) : Int × Bool :=
  if x < lo then (lo, true) else if hi < x then (hi, true) else (x, false)

/-! ### Operand types (07 Table 7.5) -/

/-- The float format of a type code. -/
def typeFmt (t : Nat) : Option Fmt :=
  match t with
  | 0x01 => some fmtF32
  | 0x02 => some fmtBf16
  | 0x03 => some fmtF16
  | 0x04 => some fmtE4m3
  | 0x05 => some fmtE5m2
  | 0x06 => some fmtF64
  | 0x07 => some fmtE2m1
  | _ => none

/-- Width and signedness of an integer type code. -/
def typeInt (t : Nat) : Option (Nat × Bool) :=
  if 0x10 ≤ t ∧ t ≤ 0x13 then some (8 * 2 ^ (t - 0x10), true)
  else if 0x14 ≤ t ∧ t ≤ 0x17 then some (8 * 2 ^ (t - 0x14), false)
  else none

/-- Element format of an MX type: `none` inside is MXINT8. -/
def typeMx (t : Nat) : Option (Option Fmt) :=
  match t with
  | 0x08 => some (some fmtE4m3)
  | 0x09 => some (some fmtE5m2)
  | 0x0A => some (some fmtE3m2)
  | 0x0B => some (some fmtE2m3)
  | 0x0C => some (some fmtE2m1)
  | 0x0D => some none
  | _ => none

/-- Bits of one element, scales apart; 0 for an undefined code. -/
def typeBits (t : Nat) : Nat :=
  match typeFmt t, typeInt t, typeMx t with
  | some f, _, _ => fmtBits f
  | none, some (w, _), _ => w
  | none, none, some (some f) => fmtBits f
  | none, none, some none => 8
  | none, none, none => if t = 0x18 then 64 else if t = 0x20 then 1 else 0

/-- A code of Table 7.5 other than 0x00. -/
def typeDefined (t : Nat) : Bool := decide (typeBits t ≠ 0)

/-- Arithmetic types. -/
def typeArith (t : Nat) : Bool :=
  decide (1 ≤ t ∧ t ≤ 6) || (typeInt t).isSome

/-- Storage types: FP4 and the MX types. -/
def typeStorage (t : Nat) : Bool := decide (t = 7) || (typeMx t).isSome

def typeIsFloat (t : Nat) : Bool := (typeFmt t).isSome || (typeMx t).isSome

/-- emax of R168. -/
def mxEmax (t : Nat) : Int :=
  match t with
  | 0x08 => 8
  | 0x09 => 15
  | 0x0A => 4
  | 0x0B => 2
  | 0x0C => 2
  | 0x0D => 6
  | _ => 0

/-- The signed value of the low `w` bits. -/
def sext (w b : Nat) : Int := if b.testBit (w - 1) then (b % 2 ^ w : Int) - 2 ^ w else (b % 2 ^ w : Nat)

/-- The low `w` bits of an integer. -/
def lowBits (w : Nat) (x : Int) : Nat := (x % (2 : Int) ^ w).toNat

/-- The value of an integer type's bits. -/
def intDecode (w : Nat) (sgn : Bool) (b : Nat) : Int := if sgn then sext w b else (b % 2 ^ w : Nat)

/-- Range of an integer type. -/
def intRange (w : Nat) (sgn : Bool) : Int × Int :=
  if sgn then (-(2 : Int) ^ (w - 1), (2 : Int) ^ (w - 1) - 1) else (0, (2 : Int) ^ w - 1)

/-- The exact value of an integer. -/
def fvInt (x : Int) : FV := .fin (decide (x < 0)) x.natAbs 0

/-- Exact value of an element of a non-MX type. -/
def typeValue (t b : Nat) : FV :=
  match typeFmt t, typeInt t with
  | some f, _ => fmtDecode f b
  | none, some (w, sg) => fvInt (intDecode w sg b)
  | none, none => fvInt (b % 2 ^ typeBits t : Nat)

/-- Convert an exact value to a non-MX type: bits and CONVERT_SAT (R167). -/
def typeOf (t : Nat) (v : FV) : Nat × Bool :=
  match typeFmt t, typeInt t with
  | some f, _ => fmtOf f v
  | none, some (w, sg) =>
    let (lo, hi) := intRange w sg
    match v with
    | .nan => (0, true)
    | .inf neg => (lowBits w (if neg then lo else hi), true)
    | .fin neg m e =>
      let (x, c) := clampInt lo hi (signed neg (nearestNat m 1 e))
      (lowBits w x, c)
  | none, none => (0, false)

/-- Convert between non-MX types; equal types copy the bits (R167). -/
def typeConv (src dst b : Nat) : Nat × Bool :=
  if src = dst then (b % 2 ^ typeBits src, false) else typeOf dst (typeValue src b)

/-! ### Order and exact sums -/

/-- Least significant bit of the long form used here, 2^−1088: fine enough for every addend (R178). -/
def longLsb : Nat := 1088

/-- A finite value in units of 2^−1088. -/
def fvFix (neg : Bool) (m : Nat) (e : Int) : Int :=
  signed neg (let s := e + longLsb; if 0 ≤ s then m * 2 ^ s.toNat else m / 2 ^ (-s).toNat)

/-- The long form of R178: accumulator, flags, count. -/
structure LongForm where
  acc : Int := 0
  nan : Bool := false
  pinf : Bool := false
  ninf : Bool := false
  nonNegZero : Bool := false
  n : Nat := 0
  deriving DecidableEq, Repr

/-- Add one addend. -/
def longAdd (l : LongForm) (v : FV) : LongForm :=
  match v with
  | .nan => { l with nan := true, nonNegZero := true, n := l.n + 1 }
  | .inf false => { l with pinf := true, nonNegZero := true, n := l.n + 1 }
  | .inf true => { l with ninf := true, nonNegZero := true, n := l.n + 1 }
  | .fin neg m e =>
    { l with acc := l.acc + fvFix neg m e, nonNegZero := l.nonNegZero || !(neg && decide (m = 0)),
             n := l.n + 1 }

/-- Combine two long forms (R178). -/
def longJoin (a b : LongForm) : LongForm :=
  ⟨a.acc + b.acc, a.nan || b.nan, a.pinf || b.pinf, a.ninf || b.ninf, a.nonNegZero || b.nonNegZero,
    a.n + b.n⟩

/-- The result of R177 in a type: bits, OVERFLOW, CONVERT_SAT. `ints` tells that the addends are integers;
`div` divides the sum (MEAN). -/
def longResult (l : LongForm) (t : Nat) (ints : Bool) (div : Nat) : Nat × Bool × Bool :=
  let d := max div 1
  match typeInt t with
  | some (w, sg) =>
    let (lo, hi) := intRange w sg
    if l.nan || (l.pinf && l.ninf) then (0, false, true)
    else if l.pinf then (lowBits w hi, false, true)
    else if l.ninf then (lowBits w lo, false, true)
    else
      let q := signed (decide (l.acc < 0)) (nearestNat l.acc.natAbs d (-(longLsb : Int)))
      let (x, c) := clampInt lo hi q
      (lowBits w x, c && ints, c && !ints)
  | none =>
    match typeFmt t with
    | none => (0, false, false)
    | some f =>
      if l.nan || (l.pinf && l.ninf) then
        let r := fmtOf f .nan
        (r.1, false, r.2)
      else if l.pinf then
        let r := fmtOf f (.inf false)
        (r.1, false, r.2)
      else if l.ninf then
        let r := fmtOf f (.inf true)
        (r.1, false, r.2)
      else
        let neg := if l.acc = 0 then decide (0 < l.n) && !l.nonNegZero else decide (l.acc < 0)
        let r := fmtRound f neg l.acc.natAbs d (-(longLsb : Int))
        (r.1, false, r.2)

/-- The value is a NaN. -/
def fvNan : FV → Bool
  | .nan => true
  | _ => false

/-- A key that orders non-NaN values as R179 does: −0 below +0. -/
def fvLt (a b : FV) : Bool :=
  match a, b with
  | .nan, _ | _, .nan => false
  | .inf x, .inf y => x && !y
  | .inf x, .fin .. => x
  | .fin .., .inf y => !y
  | .fin n1 m1 e1, .fin n2 m2 e2 =>
    let x := fvFix n1 m1 e1
    let y := fvFix n2 m2 e2
    decide (x < y) || (decide (x = y) && n1 && !n2)

/-- Numeric equality (−0 equals +0); NaN equals nothing. -/
def fvEq (a b : FV) : Bool :=
  match a, b with
  | .inf x, .inf y => x == y
  | .fin n1 m1 e1, .fin n2 m2 e2 => decide (fvFix n1 m1 e1 = fvFix n2 m2 e2)
  | _, _ => false

/-- Minimum (or maximum) of R179. -/
def fvMin (wantMax : Bool) (a b : FV) : FV :=
  if fvNan a || fvNan b then .nan
  else if wantMax then (if fvLt a b then b else a) else (if fvLt b a then b else a)

/-! ### Operations of R187: the exact result rounded once -/

def fvNeg : FV → FV
  | .nan => .nan
  | .inf n => .inf (!n)
  | .fin n m e => .fin (!n) m e

/-- Exact sum; an exact zero sum of unlike signs is +0. -/
def fvAdd (a b : FV) : FV :=
  match a, b with
  | .nan, _ | _, .nan => .nan
  | .inf x, .inf y => if x == y then .inf x else .nan
  | .inf x, _ | _, .inf x => .inf x
  | .fin n1 m1 e1, .fin n2 m2 e2 =>
    let e := min e1 e2
    let s := signed n1 (m1 * 2 ^ (e1 - e).toNat) + signed n2 (m2 * 2 ^ (e2 - e).toNat)
    if s = 0 then .fin (n1 && n2) 0 0 else .fin (decide (s < 0)) s.natAbs e

/-- Exact product. -/
def fvMul (a b : FV) : FV :=
  match a, b with
  | .nan, _ | _, .nan => .nan
  | .inf x, .inf y => .inf (x != y)
  | .inf x, .fin y m _ | .fin y m _, .inf x => if m = 0 then .nan else .inf (x != y)
  | .fin n1 m1 e1, .fin n2 m2 e2 => .fin (n1 != n2) (m1 * m2) (e1 + e2)

/-- Quotient rounded to a format. -/
def fmtDiv (f : Fmt) (a b : FV) : Nat :=
  match a, b with
  | .nan, _ | _, .nan => fmtNan f
  | .inf _, .inf _ => fmtNan f
  | .inf x, .fin y _ _ => (fmtOf f (.inf (x != y))).1
  | .fin x _ _, .inf y => (fmtOf f (.fin (x != y) 0 0)).1
  | .fin n1 m1 e1, .fin n2 m2 e2 =>
    if m2 = 0 then (if m1 = 0 then fmtNan f else (fmtOf f (.inf (n1 != n2))).1)
    else (fmtRound f (n1 != n2) m1 m2 (e1 - e2)).1

/-- Make an exponent even without changing the value. -/
def evenExp (m : Nat) (e : Int) : Nat × Int := if e % 2 = 0 then (m, e) else (2 * m, e - 1)

/-- √a rounded to a format: 200 bits of root and a sticky bit decide the rounding exactly. -/
def fmtSqrt (f : Fmt) (a : FV) : Nat :=
  match a with
  | .nan => fmtNan f
  | .inf false => (fmtOf f (.inf false)).1
  | .inf true => fmtNan f
  | .fin n m e =>
    if m = 0 then (fmtOf f (.fin n 0 0)).1
    else if n then fmtNan f
    else
      let (m, e) := evenExp m e
      let big := m * 2 ^ 400
      let r := Nat.sqrt big
      (fmtRound f false (2 * r + (if r * r = big then 0 else 1)) 1 (e / 2 - 201)).1

/-- 1/√a rounded to a format. -/
def fmtRsqrt (f : Fmt) (a : FV) : Nat :=
  match a with
  | .nan => fmtNan f
  | .inf false => (fmtOf f (.fin false 0 0)).1
  | .inf true => fmtNan f
  | .fin n m e =>
    if m = 0 then (fmtOf f (.inf n)).1
    else if n then fmtNan f
    else
      let (m, e) := evenExp m e
      let k := 2 * Nat.log2 m + 400
      let r := Nat.sqrt (2 ^ k / m)
      (fmtRound f false (2 * r + (if r * r * m = 2 ^ k then 0 else 1)) 1
        (-(e / 2) - (k / 2 : Nat) - 1)).1

/-- Fixed-point bits of the transcendental operations. The result is rounded from these with a sticky bit;
that this precision decides every FP32 and FP64 case is PRESUMED (log 12). -/
def fixBits : Nat := 512

/-- ln 2 in units of 2^−512: the sum of 1 / (k · 2^k). -/
def lnTwo : Nat := (List.range 530).foldl (fun acc k => acc + 2 ^ (fixBits + 32) / ((k + 1) * 2 ^ (k + 1))) 0
  / 2 ^ 32

/-- Taylor terms of exp in fixed point. -/
def expTerms (x : Nat) : Nat → Nat → Nat → Nat
  | 0, _, acc => acc
  | n + 1, term, acc => expTerms x n (term * x / 2 ^ fixBits / (130 - n)) (acc + term)

/-- 2^(x / 2^512) · 2^512 for x < 2^512. -/
def exp2Fix (x : Nat) : Nat := expTerms (x * lnTwo / 2 ^ fixBits) 130 (2 ^ fixBits) 0

/-- 2^a rounded to a format. -/
def fmtExp2 (f : Fmt) (a : FV) : Nat :=
  match a with
  | .nan => fmtNan f
  | .inf false => (fmtOf f (.inf false)).1
  | .inf true => (fmtOf f (.fin false 0 0)).1
  | .fin n m e =>
    let x := fvFix n m e
    let unit : Int := (2 : Int) ^ longLsb
    if x ≥ 2000 * unit then (fmtOf f (.inf false)).1
    else if x ≤ -2000 * unit then (fmtOf f (.fin false 0 0)).1
    else
      let k := x / unit
      let fr := (x % unit).toNat
      if fr = 0 then (fmtRound f false 1 1 k).1
      else (fmtRound f false (2 * exp2Fix (fr / 2 ^ (longLsb - fixBits)) + 1) 1 (k - fixBits - 1)).1

/-- Digits of log2 of y / 2^512 in [1, 2), one squaring each. -/
def log2Digits : Nat → Nat → Nat → Nat
  | 0, _, acc => acc
  | n + 1, y, acc =>
    let z := y * y / 2 ^ fixBits
    if 2 ^ (fixBits + 1) ≤ z then log2Digits n (z / 2) (2 * acc + 1) else log2Digits n z (2 * acc)

/-- log2 a rounded to a format. -/
def fmtLog2 (f : Fmt) (a : FV) : Nat :=
  match a with
  | .nan => fmtNan f
  | .inf false => (fmtOf f (.inf false)).1
  | .inf true => fmtNan f
  | .fin n m e =>
    if m = 0 then (fmtOf f (.inf true)).1
    else if n then fmtNan f
    else
      let l := Nat.log2 m
      let k : Int := e + l
      if m = 2 ^ l then (fmtOf f (fvInt k)).1
      else
        let y := m * 2 ^ fixBits / 2 ^ l
        let v : Int := k * 2 ^ 221 + (2 * log2Digits 220 y 0 + 1 : Nat)
        (fmtRound f (decide (v < 0)) v.natAbs 1 (-221)).1

end Sys2Proof.Machine
end

