-- ==== Sys2Proof/Machine/Code.lean ====
section
/-! DEFINITION. Error codes: the Reed–Solomon line code (11 R245 to R247) and CRC-32C (11 R257; 15 R336).
The bit patterns of CRC-32C are PRESUMED (the Castagnoli code as published, log 13; the spec names it only). -/

namespace Sys2Proof.Machine

open Sys2Proof

/-! ### GF(2^8) with x^8 + x^4 + x^3 + x^2 + 1 (R245) -/

/-- Multiplication by α = 0x02. -/
def gfDouble (a : Nat) : Nat := if a < 128 then 2 * a else (2 * a) ^^^ 0x11D

/-- Product, over the lowest `n` bits of `b`. -/
def gfMulN : Nat → Nat → Nat → Nat
  | 0, _, _ => 0
  | n + 1, a, b => (if b % 2 = 1 then a else 0) ^^^ gfMulN n (gfDouble a) (b / 2)

def gfMul (a b : Nat) : Nat := gfMulN 8 a b

/-- α^n. -/
def gfExp : Nat → Nat
  | 0 => 1
  | n + 1 => gfDouble (gfExp n)

/-- a^n. -/
def gfPow (a : Nat) : Nat → Nat
  | 0 => 1
  | n + 1 => gfMul a (gfPow a n)

/-- Inverse of a nonzero element: a^254. -/
def gfInv (a : Nat) : Nat := gfPow a 254

/-- Value at `x` of a polynomial given highest coefficient first. -/
def gfHorner (cs : List Nat) (x : Nat) : Nat := cs.foldl (fun acc c => gfMul acc x ^^^ c) 0

/-- Value at `x` of a polynomial given lowest coefficient first. -/
def gfEval (cs : List Nat) (x : Nat) : Nat := gfHorner cs.reverse x

/-- Sum of two polynomials, lowest coefficient first. -/
def gfAdd : List Nat → List Nat → List Nat
  | [], b => b
  | a, [] => a
  | x :: a, y :: b => (x ^^^ y) :: gfAdd a b

def gfScale (c : Nat) (p : List Nat) : List Nat := p.map (gfMul c)

/-- Product of polynomials, lowest coefficient first. -/
def gfConv : List Nat → List Nat → List Nat
  | [], _ => []
  | x :: a, b => gfAdd (gfScale x b) (0 :: gfConv a b)

/-- g(x): the product of (x − α^i), i = 0 to 7, lowest coefficient first (R245). -/
def rsGen : List Nat := (List.range 8).foldl (fun g i => gfConv g [gfExp i, 1]) [1]

/-- One step of the division register: `r` is the remainder, highest coefficient first. -/
def rsShift (gen : List Nat) (r : List Nat) (d : Nat) : List Nat :=
  let f := r.headD 0 ^^^ d
  List.zipWith (· ^^^ ·) (r.tail ++ [0]) (gfScale f gen)

/-- The eight check bytes of 64 data bytes; byte j is the coefficient of x^(7 − j) (R245). -/
def rsCheck (data : List Nat) : List Nat :=
  data.foldl (rsShift (rsGen.take 8).reverse) (List.replicate 8 0)

/-- Syndromes r(α^0) to r(α^7) of 72 symbols, data first. -/
def rsSyn (cw : List Nat) : List Nat := (List.range 8).map fun i => gfHorner cw (gfExp i)

/-- Registers of the error-locator search. -/
structure RsLoc where
  c : List Nat
  b : List Nat
  l : Nat
  m : Nat
  d : Nat

/-- One step of the error-locator search (Berlekamp–Massey) at syndrome `n`. -/
def rsLocStep (syn : List Nat) (st : RsLoc) (n : Nat) : RsLoc :=
  let dlt := (List.range (st.l + 1)).foldl
    (fun acc i => acc ^^^ gfMul (st.c.getD i 0) (syn.getD (n - i) 0)) 0
  if dlt = 0 then { st with m := st.m + 1 }
  else
    let c' := gfAdd st.c (List.replicate st.m 0 ++ gfScale (gfMul dlt (gfInv st.d)) st.b)
    if 2 * st.l ≤ n then ⟨c', st.c, n + 1 - st.l, 1, dlt⟩ else { st with c := c', m := st.m + 1 }

/-- The error locator of the syndromes, lowest coefficient first, and its length. -/
def rsLocator (syn : List Nat) : List Nat × Nat :=
  let st := (List.range 8).foldl (rsLocStep syn) ⟨[1], [1], 0, 1, 1⟩
  (st.c, st.l)

/-- Formal derivative, lowest coefficient first. -/
def gfDeriv (p : List Nat) : List Nat :=
  (List.range (p.length - 1)).map fun i => if i % 2 = 0 then p.getD (i + 1) 0 else 0

/-- The codeword within four symbols of `cw`, with the number of symbols corrected; `none` where there
is none (R246). -/
def rsDecode (cw : List Nat) : Option (List Nat × Nat) :=
  let syn := rsSyn cw
  if syn.all (· = 0) then some (cw, 0)
  else
    let (loc, l) := rsLocator syn
    if 4 < l then none
    else
      let om := (gfConv syn loc).take 8
      let dv := gfDeriv loc
      let fix := (List.range 72).map fun i =>
        let x := gfExp (71 - i)
        let xi := gfInv x
        if gfEval loc xi = 0 then gfMul x (gfMul (gfEval om xi) (gfInv (gfEval dv xi))) else 0
      let out := List.zipWith (· ^^^ ·) cw fix
      if (rsSyn out).all (· = 0) && (fix.filter (· ≠ 0)).length = l then some (out, l) else none

/-- The poison word: 64 bytes of 0x00 and 8 of 0xE7 (R247). -/
def poisonWord : List Nat := List.replicate 64 0 ++ List.replicate 8 0xE7

/-- What the decoder says of a line as read (R246, R247). -/
inductive LineRead where
  | good (data : Line)
  | corrected (data : Line) (symbols : Nat)
  | poison
  | bad
  deriving DecidableEq, Repr

/-- The 64 bytes of a line, byte 0 first. -/
def lineBytesOf (d : Line) : List Byte := (List.range 64).map fun i => d.extractLsb' (8 * i) 8

/-- The line of 64 bytes, byte 0 first. -/
def lineOfBytes (bs : List Byte) : Line :=
  BitVec.ofNat 512 (bs.foldr (fun b acc => acc * 256 + b.toNat) 0)

/-- XOR errors (symbol, byte) to 72 symbols. -/
def applyErrs (cw : List Nat) (errs : List (Nat × Byte)) : List Nat :=
  errs.foldl (fun c e => c.set e.1 (c.getD e.1 0 ^^^ e.2.toNat)) cw

/-- Read one stored line: `isPoison` tells that the poison word is stored, `data` its bytes otherwise,
`errs` the bit errors on it. The poison word is tested first, within two bytes (R247). -/
def readCode (isPoison : Bool) (data : Line) (errs : List (Nat × Byte)) : LineRead :=
  if errs.isEmpty then (if isPoison then .poison else .good data)
  else
    let d := (lineBytesOf data).map BitVec.toNat
    let cw := applyErrs (if isPoison then poisonWord else d ++ rsCheck d) errs
    if ((List.zipWith (fun a b => a ^^^ b) cw poisonWord).filter (· ≠ 0)).length ≤ 2 then .poison
    else
      match rsDecode cw with
      | none => .bad
      | some (out, n) =>
        let d' := lineOfBytes ((out.take 64).map (BitVec.ofNat 8))
        if n = 0 then .good d' else .corrected d' n

/-! ### CRC-32C -/

/-- Eight steps of the reflected CRC register with polynomial 0x82F6_3B78. -/
def crcBits : Nat → Nat → Nat
  | 0, c => c
  | n + 1, c => crcBits n (if c % 2 = 1 then (c / 2) ^^^ 0x82F63B78 else c / 2)

/-- CRC-32C of a byte list. -/
def crc32c (bs : List Byte) : Nat :=
  (bs.foldl (fun c b => crcBits 8 (c ^^^ b.toNat)) 0xFFFFFFFF) ^^^ 0xFFFFFFFF

/-! ### Little-endian fields -/

/-- The value of bytes, least significant first. -/
def leNat : List Byte → Nat
  | [] => 0
  | b :: r => b.toNat + 256 * leNat r

/-- `n` bytes of a value, least significant first. -/
def leBytes : Nat → Nat → List Byte
  | 0, _ => []
  | n + 1, v => BitVec.ofNat 8 v :: leBytes n (v / 256)

/-- `n` bytes of a payload from offset `o`, as a number; bytes beyond the end count as zero. -/
def leAt (bs : List Byte) (o n : Nat) : Nat := leNat ((bs.drop o).take n)

end Sys2Proof.Machine
end

