-- ==== Sys2Proof/Config.lean ====
section
/-! DEFINITION. What an implementation fixes, and the free values: constants without a body wherever
the spec gives no value. -/

namespace Sys2Proof.Config

/-- A value the spec leaves open, fresh for every draw (the counter is `State.free`). -/
opaque freeValue : Nat → Nat
/-- 1 on CM9240-16L-M (00 R1, R2; 15 Table 15.4: set at manufacture). -/
opaque makerPart : Bool
/-- The Luallaune Vendor ID (02 R38): the spec gives no number. -/
opaque vendorId : BitVec 16
/-- Package serial (15 Table 15.4). -/
opaque serial : BitVec 64
/-- Silicon stepping (15 Table 15.4). -/
opaque stepping : BitVec 8
/-- Efirazu major and minor version of an image slot (15 Table 15.4). -/
opaque firmwareMajor : Nat → BitVec 16
opaque firmwareMinor : Nat → BitVec 16
/-- Capability version and next pointer of the Caura DVSEC's header (02 Table 2.3 gives the ID only). -/
opaque dvsecHeader : BitVec 16
/-- CXL component and device registers by BAR0 offset (02 Table 2.4; their layout is that of CXL 3.2). -/
opaque cxlRegister : Nat → Nat
/-- The driver image of an image slot by offset, and where its PCI Data Structure lies (02 R43). -/
opaque driverImage : Nat → Nat → Byte
opaque pciData : Nat → Nat
/-- The slot-0 device certificate chain of a part number and a package serial (14 R310). -/
opaque certificate : String → BitVec 64 → List Byte
/-- The part number (00 Table 0.1). -/
def partNumber : String := if makerPart then "CM9240-16L-M" else "CM9240-16L"
/-- EVENT code of the Cairn record of a late renewal (03 R71 asks for the record; 11 Table 11.12 gives it no code). -/
opaque lateRenewEvent : BitVec 16
/-- Set index of a directory line within its slice, below 131,072 (04 Directory capacity gives the
number of sets and ways and no index function). -/
opaque dirSet : Nat → Nat
/-- Set of the decompressed-block cache, below 16, that a block falls in (09 R212 gives 16 sets of 16 ways and
no index function). -/
opaque cacheSet : Nat → Nat
/-- Access that a master of a cluster store makes: line of the bank, data, bytes written (none for a read). The spec gives the
order in which requests are granted and no rule for which are made (10 R238). -/
opaque storeAccess : Nat → Option (Nat × Line × BitVec 64)
/-- Header of a failing TLP, as the AER header log holds it (02 R52: the commands do not carry it). -/
opaque tlpHeader : Nat → BitVec 128
/-- Bytes of an SPDM answer of this code (14 R310 gives the messages and algorithms only). -/
opaque spdmBytes : Nat → List Byte
/-- Engine dies and heads of the part (00, Table 0.3). -/
def engineDies : Nat := 16
/-- Granules of SOLO-D and PAIR-D: 3,840 GiB (00 Table 0.2; 03 R60). -/
def granulesD : Nat := 15360
/-- 256 MiB (03 R60). -/
def granBytes : Nat := 0x10000000
/-- 8 KiB, a block (05). -/
def blockBytes : Nat := 8192
/-- 64 bytes, a line (10 Table 10.1). -/
def lineBytes : Nat := 64
/-- The extent limits (03 R60). -/
def extentsPerPart : Nat := 8192
def extentsPerDevice : Nat := 32768
/-- Extents shared with snapshots (03 R62). -/
def snapshotExtents : Nat := 1024
/-- Live versions of one extent (04 R91). -/
def liveVersions : Nat := 64
/-- Sum of the guarantees (09 R207). -/
def guaranteeSum : Nat := 28000
/-- Witness lease (12 R284) in 10 ns cycles. -/
def witnessLease : Nat := 50000000

end Sys2Proof.Config
end

