-- ==== Sys2Proof/Machine/Fld.lean ====
section
/-! DEFINITION. The names of the register fields of the page chapters (spec 01 to 16), one for each
field that a register table of the spec gives, in the tables' order. -/

namespace Sys2Proof.Machine

/-- A register field, named page, register, field as the spec writes PAGE.REGISTER.FIELD. -/
inductive Fld where
  -- PITCH page
  | pitchCfgLen | pitchCfgLenActive | pitchCfgSyncOutEn | pitchCountCount | pitchPhasePhase
  | pitchPhaseTwinOffset | pitchAlignAligned | pitchAlignMode | pitchAlignHoldover
  | pitchLateCountLate | pitchAlignLossCountLosses | pitchSchedCfgStealEn | pitchSchedCfgNeighEn
  | pitchSchedCfgTraverseEn | pitchSchedCfgRebalEn | pitchSchedCfgStepMax | pitchSchedCfgWatchdog
  | pitchSchedCfgParkMax | pitchWmarkStepFloor | pitchWmarkEvictBufs | pitchWmarkRspBufs
  | pitchWmarkFillBufs | pitchStealCountLocal | pitchStealCountNeighbour
  | pitchTraverseCountTraverses | pitchTraverseCountRebalanced | pitchParkStatsParks
  | pitchParkStatsFloorWaits | pitchOverrunStatsOverruns | pitchOverrunStatsShrinks
  | pitchWatchdogStatsTrips | pitchWatchdogStatsCoresOut | pitchRemapDiesOut | pitchRemapRemapped
  | pitchLoadSelCluster | pitchLoadQueued | pitchLoadParked | pitchLoadRunning
  | pitchLoadGranFree | pitchLoadRspFree | pitchLoadFillFree
  -- PORT page
  | portLinkCfgMaxRate | portLinkCfgL0pEn | portLinkStatusRate | portLinkStatusWidth
  | portLinkStatusFlit256 | portLinkStatusUp | portLinkStatusPartner128 | portLinkStatusCapped64
  | portLinkStatusLaneFail | portLinkCtrlRetrain | portLinkCtrlDisable | portBindParts
  | portBindFmLd | portErrCountRxErr | portErrCountReplays | portErrCountRetrains
  | portErrCountEqFail128
  -- PART page
  | partCfgLeaseMs | partLeaseRenew | partLeaseExpired | partLeaseRemainingMs | partLeaseRenewals
  | partStateState | partStateHeads | partStateExtents | partHeldGranules | partOrphanAtPitch
  | partLateRenewLate
  -- EXT page
  | extCursorIndex | extBaseBaseGran | extLengthLenGran | extAttrClass | extAttrPageHint
  | extAttrTier | extAttrElem | extAttrTile | extAttrProtected | extAttrSharing | extAttrOwner
  | extStateState | extStateValid | extStateHolders | extStateGen | extCountExtents
  | extCountFreeGran | extSanitiseRate | extSanitisePendingGran
  -- DIR page
  | dirCfgBiTimeout | dirOccupancyTracked | dirOccupancyCoarse | dirCapEvictEvictions
  | dirCapEvictVictimWaits | dirBiStatsBiSent | dirBiStatsBiTimeouts | dirCrossingsWbCross
  | dirCrossingsCleanCross | dirBiFailedHeads | dirSnapCmdOp | dirSnapCmdBaseGran
  | dirSnapCmdVersion | dirSnapStatusBusy | dirSnapStatusResult | dirSnapStatusVersion
  | dirSnapSelBaseGran | dirSnapInfoNewest | dirSnapInfoLive | dirSnapInfoDraftOpen
  | dirSnapInfoOpenValid | dirSnapOpenOpenVersion | dirReserveGranules | dirReserveUseChargedBlk
  | dirReserveHeldHeldBlk
  -- TIER page
  | tierCfgIoTimeout | tierCfgFreeLow | tierCfgFreeHigh | tierCfgWrReserve
  | tierCapacityExportGran | tierCapacitySsdGib | tierCacheUseFreeMib | tierCacheUseDirtyMib
  | tierRebuildSlot | tierRebuildActive | tierRebuildRate | tierRebuildPermille
  | tierHintBaseBase | tierHintCtrlEnable | tierHintCtrlHalted | tierHintCtrlSize
  | tierHintCtrlCause | tierHintCtrlHaltStatus | tierHintProdProducer | tierHintConsConsumer
  | tierHintConsIgnored | tierPinLimitGib | tierPinPinnedGib | tierFillStatsFills
  | tierFillStatsSlowFills | tierLostLostBlk | tierLostHeldFrames | tierSlotCtrlLocate
  | tierSlotCtrlAutoPower | tierSlotCtrlButton | tierSlotStatusPresent | tierSlotStatusPwrEn
  | tierSlotStatusPwrgd | tierSlotStatusPathAUp | tierSlotStatusPathBUp | tierSlotStatusState
  | tierSlotStatusFault | tierSlotStatusPwrInd | tierSlotStatusAttnInd | tierSlotIoErrors
  | tierSlotIoTimeouts
  -- CMP page
  | cmpCfgBgEn | cmpCfgBgShare | cmpCfgCostMax | cmpKindsAZeroBlk | cmpKindsAConstBlk
  | cmpKindsBResidBlk | cmpKindsBLowrankBlk | cmpPackingSavedMib | cmpCompactionAdmitted
  | cmpCompactionStoredRaw | cmpCompactFaultsVerifyFail | cmpCompactFaultsStale
  | cmpCheckFailsIndex | cmpCheckFailsHeader | cmpCheckFailsFactor | cmpCheckFailsResidual
  | cmpLastDamageLocal | cmpLastDamageCluster | cmpLastDamageCause | cmpLastDamagePitchLow
  | cmpExpanderExpanded | cmpExpanderBacklog | cmpExpSelCluster | cmpExpLoadMeanCost
  | cmpExpLoadQueuePeak | cmpExpLoadCacheHits
  -- JOB page
  | jobStatsCompleted | jobStatsFailed | jobStepStatsReruns | jobStepStatsOverruns
  | jobWindowsOpen | jobLastFailStatus | jobLastFailRing | jobLastFailIndex | jobRingBaseBase
  | jobRingCtrlEnable | jobRingCtrlHost | jobRingCtrlSize | jobRingCtrlStopOnError
  | jobRingCtrlInflight | jobRingStatusHalted | jobRingStatusCause | jobRingStatusHaltStatus
  | jobRingStatusFirstUndone | jobRingCountRunning | jobRingCountDone
  -- QOS page
  | qosCfgMode | qosCfgAgeMax | qosCfgGuarEntries | qosCfgReclaimRate | qosGuarGbS
  | qosGuarGbSActive | qosClassCfgFrameShare | qosClassCfgCacheWays | qosClassCfgQueueEntries
  | qosClassCfgBudget | qosClassCfgBudgetActive | qosReclaimStart | qosReclaimRunning
  | qosBytesRdBytes | qosBytesWrBytes | qosOccIntIntegral | qosPitchesPitchesOver
  | qosPitchesPitchesShort | qosRawBytes | qosCodedStoredBytes | qosCodedDeliveredBytes
  | qosFramesHeldMib | qosFramesOverMib | qosDevloadLight | qosDevloadOptimal
  | qosDevloadModerate | qosDevloadSevere | qosHotPc | qosHotCluster | qosHotDie | qosHotClass
  | qosHotOcc
  -- PC page
  | pcCfgPdTimer | pcCfgTrrThresh | pcCfgTrrDecay | pcCfgOpenTimeout | pcCfgFreezeHold
  | pcCfgRowHitMax | pcCfgRetrainDelta | pcTempTempC | pcTempRefresh2x | pcTempThrottle
  | pcTempTempTrained | pcTempTempPeak | pcStateState | pcStateQueued | pcStateInOrder
  | pcStateRanksPd | pcFreezeInfoCause | pcFreezeInfoRank | pcFreezeInfoBank | pcFreezeInfoRow
  | pcFreezeInfoColumn | pcFreezeInfoHeld | pcFreezeInfoErrors | pcFreezeInfoPitchLow
  | pcFreezeActAction | pcDramStatsActivates | pcDramStatsInOrderEntries | pcRefreshStatsTrr
  | pcRefreshStatsPostponed | pcRefreshStatsRetired | pcTrainCtrlRun | pcTrainCtrlPattern
  | pcTrainCtrlReadOnly | pcTrainCtrlDone | pcTrainCtrlRefused | pcTrainCtrlLoops
  | pcTrainAddrRank | pcTrainAddrBank | pcTrainAddrRow | pcTrainAddrRows | pcTrainUserPattern
  | pcTrainLanesLaneFail | pcTrainResultMismatches | pcTrainResultFirstFail
  -- STORE page
  | storeCfgBgtestEn | storeBgtestRegion | storeBgtestBank | storeBgtestPhase | storeBgtestLate
  | storeBgtestPasses | storeRepairSparesLeft | storeRepairBankFailed | storeRepairTestFails
  | storeConflictsStalls | storeConflictsPromotions | storeRetainInRetention | storeRetainWakes
  -- RAS page
  | rasCfgScrubHours | rasCfgScrubEn | rasCfgAutoRetire | rasCfgCeRetire | rasScrubStatusK
  | rasScrubStatusPermille | rasScrubStatusPasses | rasLineErrsCeLines | rasLineErrsUeLines
  | rasSramErrsCe | rasSramErrsUe | rasPoisonPoisonReads | rasPoisonViralIgnored
  | rasRetiredBlocks | rasRetiredRows | rasRetiredBanks | rasRetiredPcs | rasLastUePc
  | rasLastUeRank | rasLastUeBank | rasLastUeRow | rasLastUeColumn | rasLastUeSource
  | rasLastUePitchLow | rasRetireCmdOp | rasRetireCmdPc | rasRetireCmdRank | rasRetireCmdBank
  | rasRetireCmdRow | rasRetireStatusBusy | rasRetireStatusResult | rasRetireStatusSparesMin
  | rasSpareSelPc | rasSpareInfoBlocksLeft | rasSpareInfoPprLeft | rasSpareInfoBanksOut
  -- CAIRN page
  | cairnCfgSpillEn | cairnCfgStreamEn | cairnCfgConsoleEn | cairnCfgConsoleSev
  | cairnStatusLogDegraded | cairnStatusFailed | cairnStatusStreaming | cairnStatusLeader
  | cairnHeadNextSeq | cairnOldestOldestSeq | cairnReadSeqSeq | cairnReadSeqValid
  | cairnReadSeqGone | cairnReadSeqFuture | cairnReadSeqFromSpill | cairnCoalesceStatsLatched
  | cairnCoalesceStatsSummaries | cairnStreamStatsSent | cairnStreamStatsReceived
  | cairnLrStatsLrNext | cairnLrStatsLrWritten | cairnRecordWord
  -- BELAY page
  | belayCfgPairEn | belayCfgPairRank | belayCfgMode | belayCfgWitnessEn | belayCfgWitnessWait
  | belayCfgResyncRate | belayStatusRole | belayStatusModeActive | belayStatusGroupsUp
  | belayStatusState | belayStatusWitnessValid | belayStatusWitnessMs | belayCtrlRetrain
  | belayCtrlSwap | belayCtrlApprove | belayCtrlLeave | belayWitnessRenew
  | belayResyncProgDoneSeg | belayResyncProgTotalSeg | belayResyncInfoActive
  | belayResyncInfoFull | belayResyncInfoChangedSeg | belayDigestStatsCompared
  | belayDigestStatsMismatches | belayTwinStatsGivenUp | belayTwinStatsHbMissed
  | belayTwinStatsRetrains | belayForwardStatsFwdReq | belayForwardStatsFencedWrites
  | belayJournalApplied | belayJournalPending | belayGroupsUp | belayGroupsHalf
  | belayGroupsRetrains
  -- PWR page
  | pwrCfgAutoFloor | pwrIdleTimersP1Us | pwrIdleTimersP2Ms | pwrIdleTimersP3Ms
  | pwrIdleTimersP4S | pwrCtrlTarget | pwrCtrlWarmReset | pwrStatusRung | pwrStatusEntering
  | pwrStatusExiting | pwrStatusPending | pwrStatusLastWake | pwrResidencyPitches
  | pwrTransitionsEntries | pwrTransitionsAborted | pwrExitTimeLastUs | pwrExitTimeWorstUs
  | pwrClusterResetCluster | pwrClusterResetGo | pwrClusterResetBusy | pwrResetCauseCause
  | pwrBootAltImage | pwrBootBootMs | pwrBootRestored | pwrBootTrained
  -- ROLE page
  | roleStatusOpen | roleStatusInstallerOn | roleStatusMakerOn | roleStatusMakerAvail
  | roleStatusEnrolled | roleStatusCaller | roleAnchorCtrlSlot | roleAnchorCtrlCommit
  | roleAnchorCtrlClear | roleAnchorCtrlValid | roleAnchorCtrlInstaller | roleAnchorHashHash
  | roleIdePolicyRequired | roleIdePolicyActive | roleDeniedWrites | roleDeniedSessionsRefused
  | roleAuditsRecords | roleFwCtrlOp | roleFwStatusStaged | roleFwStatusSlot
  | roleFwStatusTwinMatch | roleFwStatusRunningSvn | roleFwStatusStagedSvn | roleFwStatusMinSvn
  | roleKeysMaster | roleKeysEpochsRetired
  -- ID page
  | idProductDevice | idProductEngineDies | idProductPortDies | idProductMakerPart
  | idProductConfig | idSerialSerial | idSiliconStepping | idFirmwareMajor | idFirmwareMinor
  | idFirmwarePairLevel | idCdtOffset | idCdtLength | idBadAccessCount | idConfigSelTiered
  -- PIN page
  | pinSlewSlew | pinFilterFilt | pinMfpCfgFunc | pinMfpCfgGpioOut | pinMfpCfgPullUp
  | pinMfpInLevel | pinMfpParkingParking | pinStrapsMakerEn | pinRailsVinLOk | pinRailsVinDOk
  | pinRailsVddSdOk | pinRailsVddIoOk | pinRailsLastFault | pinThermalDramMaxC
  | pinThermalLogicMaxC | pinThermalLogicPeakC | pinThermalFlowOk | pinThermalFlowThrottle
  | pinDriveTrimTrim
  deriving DecidableEq, Repr

end Sys2Proof.Machine
end

