-- ==== Sys2Proof/Machine/State.lean ====
section
/-! DEFINITION. The state of the block as plain data, its reset, and the reasons a step can stop. -/

namespace Sys2Proof.Machine

open Sys2Proof

/-- A finite map kept as a list of pairs; the first pair with a key counts. -/
abbrev Assoc (κ α : Type) := List (κ × α)

/-- One register field of one instance; `idx` numbers the rings, pins, groups and words of a field
that repeats within its page. -/
structure RegKey where
  fld : Fld
  inst : Nat
  idx : Nat
  deriving DecidableEq, Repr

/-- A page: block type and instance (15 R332). -/
structure PageId where
  blk : Blk
  inst : Nat
  deriving DecidableEq, Repr

/-- What a page's common header holds (15 Table 15.1); the defaults are its reset values. -/
structure Hdr where
  blockReset : Bool := false
  lock : Bool := false
  quiesce : Bool := false
  quiesced : Bool := false
  frozen : Bool := false
  degraded : Bool := false
  evtStatus : W64 := 0
  evtEnable : W64 := 0
  vector : Nat := 0
  msiEn : Bool := false
  severity : Nat := 0
  deriving DecidableEq, Repr

/-! ### Messages sent -/

/-- Return codes of fabric-manager and mailbox commands (03 R58 to R79). -/
inductive RetCode where
  | success | invalidInput | busy | resourcesExhausted | unsupported | invalidSecurityState
  deriving DecidableEq, Repr

/-- How a CXL.mem request completes. -/
inductive MemRes where
  | data (d : Line) | poison | cmp
  deriving DecidableEq, Repr

/-- DevLoad of a CXL.mem response (09 R214). -/
inductive DevLoad where
  | light | optimal | moderate | severe
  deriving DecidableEq, Repr

/-- AER errors of Table 2.9 (02 R53). -/
inductive AerErr where
  | linkCorrectable (e : LinkErr)
  | unsupportedRequestAdvisory
  | unsupportedRequestPosted
  | completionTimeout | unexpectedCompletion | poisonedTlp
  | fatal (e : TlpErr)
  | surpriseDown
  | correctedInternal | uncorrectableInternal
  deriving DecidableEq, Repr

/-- MCTP notifications to the fabric manager (03 R72; 12 R283). -/
inductive Notify where
  | partitionOrphaned (p : Part) | twinLost
  deriving DecidableEq, Repr

/-- SPDM answers (14 R310 to R312). -/
inductive SpdmRsp where
  | ok | error_busy | error_unsupported | error_refused
  deriving DecidableEq, Repr

/-- NVMe commands sent to an SSD (05 Table 5.7). -/
inductive NvmeOp where
  | read (lba count : Nat) | write (lba count : Nat) | deallocate (lba count : Nat)
  | deallocateAll
  | identifyController | identifyNamespaceList | identifyNamespace
  | setQueueCount | getQueueCount | setAsyncEvents | getAsyncEvents | asyncEventRequest
  | createQueues | deleteQueues | getErrorLog | getSmartLog
  | abort (cmd : Nat)
  deriving DecidableEq, Repr

/-- Sideband and pin outputs that are pulses or levels changed (16 R343, R348; 05 R125). -/
inductive PinOut where
  | pitchSync | pitchMark (pin : Nat) | slotPower (slot : Nat) (on : Bool)
  | slotResetRelease (slot : Nat)
  deriving DecidableEq, Repr

/-- Messages to the twin (12 Table 12.2). -/
inductive BelayMsg where
  | heartbeat (count : Nat)
  | journal (m : JMsg)
  | mirror (m : MirrorMsg)
  | forward (m : FwdMsg)
  | digest (count seq step : Nat) (digest : W64)
  /-- a pitch marker: its boundary's count and the sender's time (01 R25) -/
  | marker (count stamp : Nat)
  /-- the mirror checkpoint of the ended pitch (01 Table 1.7): the newest mirrored write's number -/
  | checkpoint (count newest : Nat)
  | leaving
  | cairn (r : TwinRecord)
  | wake
  | retrainRequest (group : Nat)
  | resyncSegment (seg : Nat) (blocks : List CfgBlock)
  deriving DecidableEq, Repr

/-- What the package sends to its environment. -/
inductive Msg where
  | memRsp (p : Part) (h : Head) (dpa : Nat) (res : MemRes) (load : DevLoad)
  | ioCpl (p : Part) (h : Head) (value : Nat)
  | ioUnsupported (p : Part) (h : Head)
  | ioRetry (p : Part) (h : Head)
  | biSnp (sharer line : Nat) (kind : Snp)
  | biConflictAck (p : Part) (h : Head) (line : Nat)
  | fmRsp (ses : Session) (code : RetCode) (payload : List Nat)
  | mbRsp (p : Part) (h : Head) (code : RetCode) (payload : List Nat)
  | spdm (ses : Option Session) (rsp : SpdmRsp) (bytes : List Byte)
  | ideKmAck (h : Head)
  | msix (owner head vec : Nat) (addr : BitVec 64) (data : BitVec 32)
  | busRead (p : Part) (head tag addr len : Nat)
  | busWrite (p : Part) (head addr : Nat) (data : List Byte) (relaxed : Bool)
  /-- one Dynamic Capacity record, linked to the next by the More flag -/
  | dcEvent (p : Part) (add forced more : Bool) (ext : GranRange)
  | generalMedia (p : Part) (failure : Bool) (dpa : Nat)
  | cxlFailure (p : Part)
  | aer (owner : Nat) (h : Head) (e : AerErr)
  | notify (n : Notify)
  | linkRetrain (h : Head)
  | linkDetect (h : Head)
  | linkDisabled (h : Head)
  | nvme (slot : Slot) (path : Path) (op : NvmeOp)
  | pin (o : PinOut)
  | belay (channel : Nat) (m : BelayMsg)
  | console (seq : Nat)
  /-- an error message of an unmasked AER error: 0 correctable, 1 non-fatal, 2 fatal (02 R52) -/
  | errMsg (owner : Nat) (h : Head) (severity : Nat)
  deriving DecidableEq, Repr

/-! ### Boot, flash, power, timebase -/

/-- How far start-up has come (13 R302 to R305; 16 R341, R352). -/
inductive BootPhase where
  /-- VDD_AUX is within tolerance, no power good yet -/
  | auxOnly
  /-- the boot ROMs run -/
  | starting
  /-- both image slots failed (R303) -/
  | recovery
  /-- the cores are released -/
  | released
  /-- Mem_Active is set -/
  | active
  /-- a thermal trip holds (10 R229) -/
  | tripped
  /-- a rail fault, or Basecamp lost with VIN_D: only cold power-on restarts (16 R341, R352) -/
  | dead
  deriving DecidableEq, Repr

structure BootState where
  phase : BootPhase := .auxOnly
  /-- the last reset was cold power-on: start-up fills Basecamp (11 R249) -/
  cold : Bool := true
  /-- PKG_RST# is low (16 R343: weak pull-down) -/
  pkgRstLow : Bool := true
  /-- THERMTRIP# is low (16 R343) -/
  thermtripLow : Bool := false
  /-- FAULT# is low (16 R343) -/
  faultLow : Bool := false
  /-- integrated regulators off (16 R352) -/
  regulatorsOff : Bool := false
  /-- PAGE_STATUS.READY of every page (13 Table 13.4) -/
  pagesReady : Bool := false
  /-- Mem_Active of the CXL Device DVSEC (13 R305) -/
  memActive : Bool := false
  /-- configuration family in force (00 R4) -/
  tiered : Bool := false
  /-- pairing enabled in force (00 R4) -/
  pairEn : Bool := false
  /-- pair rank in force (12 R290) -/
  pairRank : Bool := false
  /-- no capacity is exported: two or more slots were empty at power-on (00 R5) -/
  noCapacity : Bool := false
  deriving DecidableEq, Repr

inductive ImageStage where
  | none | staged | accepted | failed
  deriving DecidableEq, Repr

/-- A boot image slot (13 R303; 14 R321). -/
structure ImageSlot where
  present : Bool := false
  svn : Nat := 0
  level : Nat := 0
  raisesMin : Bool := false
  stage : ImageStage := .none
  deriving DecidableEq, Repr

/-- The four fields of the settings record (15 R329); `none` while the record holds none. -/
structure Settings where
  tiered : Option Nat := none
  pairEn : Option Nat := none
  pairRank : Option Nat := none
  pitchLen : Option Nat := none
  deriving DecidableEq, Repr

/-- A retired block in the repair list: PC, rank, bank[3:2], row (11 R254). -/
structure RetiredBlock where
  pc : Nat
  rank : Nat
  bankHi : Nat
  row : Nat
  deriving DecidableEq, Repr

/-- Boot flash: survives cold power-on (13 Table 13.3). -/
structure Flash where
  slot0 : ImageSlot := { present := true }
  slot1 : ImageSlot := {}
  /-- the primary slot is slot 1 -/
  primary1 : Bool := false
  minSvn : Nat := 0
  settings : Settings := {}
  /-- accepted, not yet written by Efirazu (15 R329) -/
  settingsDue : Settings := {}
  anchors : Assoc Nat (BitVec 384) := []
  installer : Option (BitVec 384) := none
  retired : List RetiredBlock := []
  /-- stored training records: recorded temperature by PC (13 R304) -/
  training : Assoc Nat Nat := []
  /-- TWIN_MATCH at the last journal exchange (14 R322) -/
  twinMatch : Bool := false
  deriving DecidableEq, Repr

structure PowerState where
  /-- pitches since the last active one (13 R294) -/
  idle : Nat := 0
  /-- the current pitch is active (13 R294) -/
  activity : Bool := false
  /-- rung being entered -/
  entering : Nat := 0
  /-- the entry in progress or the rung in force was commanded -/
  commanded : Bool := false
  /-- a TARGET write that waits for the transition to end (13 Table 13.2) -/
  deferred : Option Nat := none
  /-- rung whose exit is in progress -/
  exitFrom : Nat := 0
  deriving DecidableEq, Repr

/-- Times are in TIMEBASE_IN cycles of 10 ns (01 Table 1.6). -/
structure Timebase where
  /-- time of the last pitch boundary since cold power-on -/
  clock : Nat := 0
  /-- PITCH.COUNT (01 R20) -/
  count : Nat := 0
  /-- PITCH.PHASE (01 R27) -/
  phase : Nat := 0
  /-- the first boundary has come -/
  started : Bool := false
  /-- TIMEBASE_IN has edges (01 R19) -/
  running : Bool := true
  /-- a stop was seen in the current pitch -/
  stopped : Bool := false
  /-- the current pitch began after TIMEBASE_IN returned, so it can count -/
  whole : Bool := true
  /-- consecutive good whole pitches in holdover -/
  good : Nat := 0
  /-- the second repeats the step phase at the next boundary (01 R26) -/
  stepDue : Bool := false
  /-- the step phase of this pairing is done (01 R25) -/
  stepped : Bool := false
  /-- offset to the lead as last measured, in ns; positive where the second's boundary comes after the lead's -/
  offset : Int := 0
  /-- cycles by which the current pitch is longer than the setting, by the step or the slew (01 R25) -/
  adjust : Int := 0
  /-- markers of boundaries that are still to come here: count and measured offset (01 R26) -/
  markers : List (Nat × Int) := []
  /-- messages sent before this pitch, by which HEAD_ACT knows the heads' TLPs (16 R348) -/
  outMark : Nat := 0
  deriving DecidableEq, Repr

/-! ### Heads and configuration view -/

inductive Ltssm where
  | detect | disabled | training | l0 | l0p | l1
  deriving DecidableEq, Repr

structure HeadState where
  ltssm : Ltssm := .detect
  /-- PERST# is asserted (16 Table 16.5: weak pull-down) -/
  perst : Bool := true
  /-- times of equalisation failures to 128 GT/s (02 R33) -/
  eqFails : List Nat := []
  /-- IDE streams are in the Secure state (14 R315) -/
  secure : Bool := false
  /-- carried a TLP in this pitch, in the last pitch (16 Table 16.9) -/
  tlpNow : Bool := false
  tlpLast : Bool := false
  /-- correctable and uncorrectable status of the CXL RAS capability (02 Table 2.9) -/
  cxlRas : Bool := false
  cxlRasUnc : Bool := false
  /-- Link Control, Link Control 2 and the Flex Bus port control as last written (02 R36) -/
  linkControl : Nat := 0
  linkControl2 : Nat := 0
  flexBus : Nat := 0
  /-- a retrain that RETRAINS counts already is in progress (02 Table 2.11) -/
  retraining : Bool := false
  deriving DecidableEq, Repr

/-- An MSI-X vector (02 R44, Table 2.4): the address and data of its message, its mask bit and its pending bit. The
layout of the table's 16 bytes and the mask bit at reset are PRESUMED (PCI Express Base; logs 7, 67). -/
structure MsixEntry where
  addr : BitVec 64 := 0
  data : BitVec 32 := 0
  masked : Bool := true
  pending : Bool := false
  deriving DecidableEq, Repr

/-- What a held tag was taken for (02 R46). -/
inductive TagUse where
  | descriptor (ring : Ring)
  | hint
  | staging (ring : Ring) (idx : Nat) (operand : Nat)
  deriving DecidableEq, Repr

structure Tag where
  num : Nat
  use : TagUse
  head : Nat
  /-- its completion will be discarded (02 R48) -/
  discard : Bool
  deriving DecidableEq, Repr

inductive ResetKind where
  | flr | cxl
  deriving DecidableEq, Repr

/-- An HDM decoder as committed on one head (03 R76; 04 R83). -/
structure Hdm where
  base : Nat
  len : Nat
  bi : Bool
  deriving DecidableEq, Repr

/-- The configuration view of a partition; index 16 is the fabric-manager logical device. -/
structure PartCfg where
  bme : Bool := false
  ro : Bool := true
  tag10 : Bool := false
  tag14 : Bool := false
  mse : Bool := false
  romEn : Bool := false
  funcMask : Bool := false
  cplTimeoutUs : Nat := 40000
  tagLimit : Nat := 256
  memClr : Bool := false
  /-- in D3hot (02 Table 2.1) -/
  d3hot : Bool := false
  /-- its CXL.io state is lost and it needs an FLR (02 Table 2.9) -/
  ioLost : Bool := false
  inReset : Option ResetKind := none
  msix : Assoc Nat MsixEntry := []
  /-- AER: errors logged, masks and severities with the reset values of PCI Express Base (02 R52) -/
  aer : List AerErr := []
  aerUncMask : BitVec 32 := 0x00400000
  aerUncSev : BitVec 32 := 0x00462030
  aerCorMask : BitVec 32 := 0x0000E000
  /-- the header log: the error and the failing TLP's header; ERR_SOURCE.VALID while it holds one (02 Table 2.3) -/
  hdrLog : Option (AerErr × BitVec 128) := none
  /-- ERR_SOURCE.HEAD: head of the header log -/
  errHead : Nat := 0
  tags : List Tag := []
  /-- other configuration offsets written -/
  other : Assoc Nat Nat := []
  /-- Dynamic Capacity records, newest first: add, forced, More, the extent (03 R65); of the other logs the number of
  records -/
  logDc : List (Bool × Bool × Bool × GranRange) := []
  logInfo : Nat := 0
  logWarn : Nat := 0
  logFail : Nat := 0
  logFatal : Nat := 0
  evVector : Assoc Nat Nat := []
  deriving DecidableEq, Repr

/-! ### Partitions and extents -/

/-- The states of Table 3.3 with their codes. -/
inductive ExtState where
  | offered | active | releasePending | reclaimable | sanitising
  deriving DecidableEq, Repr

structure Holder where
  p : Part
  st : ExtState
  deriving DecidableEq, Repr

/-- The attributes of Table 3.2. -/
structure Attr where
  cls : Nat := 0
  pageHint : Nat := 0
  tier : Nat := 0
  elem : Nat := 0
  tile : Nat := 0
  prot : Nat := 0
  sharing : Nat := 0
  owner : Nat := 0
  deriving DecidableEq, Repr

/-- An extent; base and length are in granules (03 R60). -/
structure Extent where
  base : Nat
  len : Nat
  attr : Attr
  tag : Nat
  holders : List Holder
  /-- the extent as a whole is SANITISING (03 R68) -/
  sanitising : Bool := false
  /-- the publisher was removed (04 R82) -/
  publisherGone : Bool := false
  /-- encrypted under a destroyed key (14 R319) -/
  unreadable : Bool := false
  epoch : Nat := 0
  deriving DecidableEq, Repr

/-- One Add Capacity record with those linked to it, not yet answered (03 R65). -/
structure Offer where
  exts : List GranRange
  deriving DecidableEq, Repr

structure PartState where
  /-- lease expiry time (03 R71) -/
  leaseExpiry : Nat := 0
  /-- Bind Partition waiting for the boundary (03 R57) -/
  bindDue : Option (BitVec 16) := none
  offers : List Offer := []
  /-- epochs drawn under the partition's master key (14 R317) -/
  epoch : Nat := 0
  /-- the holdings at the start of the CXL Reset in progress: base, length, state (03 R76) -/
  resetHold : List (Nat × Nat × ExtState) := []
  deriving DecidableEq, Repr

/-! ### Memory requests and the directory -/

inductive ReqKind where
  | read | write | operatorRead | operatorWrite
  /-- a DISCARD of the block that waits in the order of the block's requests (05 Table 5.5) -/
  | discard
  deriving DecidableEq, Repr

/-- Where the answer of a held request goes. -/
inductive ReqFrom where
  | host (h : Head)
  /-- a mirrored write of the twin (12 R273) -/
  | twin (id : Nat)
  /-- a request that the twin forwarded (12 R280) -/
  | fwd (id : Nat)
  | job (ring : Ring) (idx : Nat)
  /-- a host's Clear Poison (02 R54) -/
  | mailbox (h : Head)
  | device
  deriving DecidableEq, Repr

/-- A memory request that waits somewhere. -/
structure Req where
  kind : ReqKind
  p : Part
  src : ReqFrom
  dpa : Nat
  data : Line := 0
  mask : BitVec 64 := 0
  mv : Meta := .invalid
  /-- the version of a snapshot extent that a read found when it reached its home (04 R93) -/
  ver : Option Nat := none
  /-- a read that waits at its home while its version gives way: the line that it returns, or poison (04 R93) -/
  fixed : Option (Option Line) := none
  /-- the head of the twin on which it entered, where this package's directory tracks the twin's sharers (12 R287) -/
  via : Option Head := none
  /-- the step that wrote it, and which run of it (08 R193) -/
  step : Option (Nat × Nat) := none
  /-- its line reads as poison or is uncorrectable here, and the twin is asked: a good answer raises an informational General
  Media event (11 R250) -/
  bad : Bool := false
  deriving DecidableEq, Repr

/-- A directory entry: states S and E; a line in no entry is I (04 R84, R86). `twin` lists the sharers on the twin's
heads, as the journal tells them (R90). -/
structure DirEntry where
  line : Nat
  exclusive : Bool
  sharers : List Nat
  twin : List Nat := []
  coarse : Option (BitVec 64) := none
  used : Nat := 0
  deriving DecidableEq, Repr

/-- A transition of a line in BI_PENDING (04 R85): the snoop of a request, of a victim in its buffer (R87), of a leaving
holder's copies (R89), or one that the twin asked for (R90). Sharers of the twin count from 256 on. -/
structure DirTrans where
  line : Nat
  owed : List Nat
  /-- the sharers snooped -/
  asked : List Nat := []
  /-- sharers that answered BIRspS, and BIRspE -/
  keptS : List Nat := []
  keptE : List Nat := []
  kind : Snp
  /-- the request that caused the snoop -/
  req : Option Req
  /-- it sits in a victim buffer (04 R87) -/
  victim : Bool := false
  /-- it recalls the copies of a leaving holder (04 R89) -/
  recalled : Bool := false
  /-- the twin waits for the answer (04 R90) -/
  forTwin : Bool := false
  deriving DecidableEq, Repr

/-! ### Snapshots (04 R91 to R98) -/

/-- A saved 8 KiB block: number within the device, bytes, lines that hold the poison word. -/
structure SavedBlock where
  block : Nat
  bytes : List Byte
  bad : List Nat
  deriving DecidableEq, Repr

structure SnapVersion where
  num : Nat
  /-- blocks that the next version replaced -/
  saved : List SavedBlock
  deriving DecidableEq, Repr

structure Snap where
  base : Nat
  newest : Nat := 0
  /-- live versions older than the newest, oldest first -/
  old : List SnapVersion := []
  /-- the draft's copied blocks -/
  draft : Option (List SavedBlock) := none
  /-- version held by partition -/
  opens : Assoc Nat Nat := []
  /-- versions held by running jobs, by job sequence number (04 R93) -/
  jobOpens : Assoc Nat Nat := []
  deriving DecidableEq, Repr

/-- A snapshot command in progress (04 R92). -/
structure SnapCmd where
  op : Nat
  base : Nat
  result : Nat
  version : Nat
  deriving DecidableEq, Repr

/-! ### Scree tier (05) -/

inductive FrameSt where
  | filling | clean | dirty | evicting
  deriving DecidableEq, Repr

/-- A frame that holds a block (05 Table 5.1); a block with no frame is absent. -/
structure Frame where
  block : Nat
  st : FrameSt
  /-- it has its place; a fill that waits for one has none (05 R104) -/
  placed : Bool := true
  /-- start and length of its place in the home PC's frame space, in 64-byte units (06 R147, OFFSET of Table 6.7) -/
  off : Nat := 0
  units : Nat := 128
  pins : List Nat := []
  /-- pinned by its extent's tier policy, within the owner's limit (05 R109) -/
  polPin : Bool := false
  cold : Bool := false
  /-- lines still holding poison of a POISONED frame -/
  poisoned : Bool := false
  cls : Nat := 16
  /-- the partition whose request caused the fill (05 Table 5.10) -/
  causedBy : Option Nat := none
  /-- requests that wait for the fill, for a raw frame of a write expansion, or behind those -/
  waiters : List Req := []
  /-- written since the eviction copy -/
  rewritten : Bool := false
  /-- DISCARD to apply once EVICTING ends (05 Table 5.5) -/
  discardDue : Bool := false
  /-- the frame became unevictable by a second loss (05 R123) -/
  stuck : Bool := false
  /-- its cells were lost while it was not clean (03 Table 3.5) -/
  lost : Bool := false
  /-- pitch count of the last use -/
  used : Nat := 0
  /-- time at which the fill began -/
  since : Nat := 0
  /-- its NVMe read has been issued -/
  issued : Bool := false
  /-- the fill and its rebuild failed, and the block is asked of the twin (05 R112) -/
  atTwin : Bool := false
  /-- the stored form that a write-back copied (05 R113) -/
  copy : List Byte := []
  deriving DecidableEq, Repr

/-- A stripe lock: cluster and stripe (05 R113); `late` while it waits out IO_TIMEOUT (R120). -/
structure StripeLock where
  c : Nat
  t : Nat
  late : Bool := false
  /-- blocks to discard, and to repair, once the stripe is unlocked (05 Table 5.5) -/
  drops : List Nat := []
  repairs : List Nat := []
  deriving DecidableEq, Repr

/-- What an outstanding NVMe command does. -/
inductive IoKind where
  | fillRead
  /-- the reads of a write-back: old data, old parity, or the other members (05 R113) -/
  | oldRead
  | writeData | writeParity | deallocate | repair
  /-- the parity of a stripe follows a discard (05 R119) -/
  | parityFix
  | rebuildRead | rebuildWrite
  /-- the whole-namespace deallocation of an admission (05 R117) -/
  | deallocateAll
  deriving DecidableEq, Repr

structure Io where
  num : Nat
  slot : Slot
  path : Path
  kind : IoKind
  block : Nat
  /-- the command as it is issued -/
  op : NvmeOp := .getErrorLog
  /-- it waits for a write credit (08 Table 8.1) -/
  held : Bool := false
  deriving DecidableEq, Repr

/-- Sequencing of a slot beside its registers (05 R125, R126). -/
structure SlotState where
  debouncing : Bool := false
  /-- blinking after a button press: `some true` before power-on, `some false` before removal -/
  buttonWait : Option Bool := none
  /-- the whole-namespace deallocation is done (05 R117) -/
  deallocated : Bool := false
  /-- counted capacity in 2 MiB units -/
  counted : Nat := 0
  timeoutRun : Nat := 0
  deriving DecidableEq, Repr

/-- A hint entry as fetched (05 Table 5.3). -/
structure HintEntry where
  op : W64
  base : W64
  len : W64
  rsvd : W64
  /-- 0 fetched, 1 sent in the journal, 2 applied and not yet passed by CONSUMER (05 R107, R110) -/
  phase : Nat := 0
  /-- applied here: a DISCARD that the twin has still to finish; sent: one that the twin has finished (05 R107) -/
  twin : Bool := false
  deriving DecidableEq, Repr

/-! ### Compression (06) -/

/-- A block index entry (06 Table 6.7). -/
structure IdxEntry where
  kind : Nat
  rank : Nat
  clen : Nat
  tslot : Bool
  offset : Nat := 0
  check : Nat := 0
  deriving DecidableEq, Repr

/-- A segment header (06 Table 6.6); lengths of the 65 symbols of a residual table. -/
structure SegHeader where
  coded : BitVec 64 := 0
  table0 : Option (List Nat) := none
  table1 : Option (List Nat) := none
  elem : Nat := 0
  tile : Nat := 0
  use0 : Nat := 0
  use1 : Nat := 0
  tag : Nat := 0
  check : Nat := 0
  deriving DecidableEq, Repr

/-- A decoded block in the decompressed-block cache of its cluster (06 R153), with the class it came for. -/
structure CacheEntry where
  block : Nat
  cls : Nat
  bytes : List Byte
  deriving DecidableEq, Repr

/-- A block in an expander's queue, with the reads that wait for it; `prio` is 0 for host reads and 1 for operator
steps (06 R153). -/
structure ExpEntry where
  block : Nat
  prio : Nat
  waiters : List Req
  deriving DecidableEq, Repr

/-- An expander (06 R153): its input queue, the queue before the residual stage, the requests that the mover holds while
the input queue is full, and the most and the fewest blocks in the input queue in this pitch (Table 6.11). -/
structure Expander where
  input : List ExpEntry := []
  middle : List ExpEntry := []
  held : List Req := []
  peak : Nat := 0
  least : Nat := 0
  deriving DecidableEq, Repr

/-! ### Jobs and steps (07, 08) -/

/-- A decoded job descriptor (07 Table 7.1). -/
structure Desc where
  opcode : Nat := 0
  subop : Nat := 0
  cls : Nat := 0
  irq : Bool := false
  fence : Bool := false
  singleRun : Bool := false
  vector : Nat := 0
  hostMem : Nat := 0
  types : List Nat := [0, 0, 0, 0, 0, 0]
  ops : List Nat := [0, 0, 0, 0, 0, 0]
  n : Nat := 0
  m : Nat := 0
  p0 : Nat := 0
  p1 : Nat := 0
  program : Nat := 0
  completion : Nat := 0
  userTag : Nat := 0
  deriving DecidableEq, Repr

/-- One result write of an operator: to host memory or to a DPA. -/
structure OutWrite where
  host : Bool
  addr : Nat
  bytes : List Byte
  /-- it is written with the write before it or not at all (07 R182) -/
  tied : Bool := false
  deriving DecidableEq, Repr

/-- What an operator's kernel has computed and its steps have not yet committed (08 R193). -/
structure Outcome where
  writes : List OutWrite := []
  result0 : Nat := 0
  result1 : Nat := 0
  status : Nat := 0
  flags : Nat := 0
  /-- contributions to elements of the open window: element, R, special flags (07 R181) -/
  adds : List (Nat × Int × Nat) := []
  deriving DecidableEq, Repr

inductive JobSt where
  | fetched | running
  deriving DecidableEq, Repr

structure Job where
  p : Part
  ring : Ring
  idx : Nat
  seq : Nat
  desc : Desc
  st : JobSt := .fetched
  status : Nat := 0
  flags : Nat := 0
  result0 : Nat := 0
  result1 : Nat := 0
  /-- pitch count of the first failure, for R165 -/
  failPitch : Option Nat := none
  outcome : Option Outcome := none
  /-- current step size in bytes (08 R194) -/
  stepSize : Nat := 262144
  /-- bytes of input already cut into steps -/
  cut : Nat := 0
  nextStep : Nat := 0
  quickRun : Nat := 0
  /-- host operands already staged, by operand slot -/
  staged : Assoc Nat (List Byte) := []
  /-- lines of operands asked for, and those delivered -/
  asked : List Nat := []
  got : Assoc Nat Line := []
  /-- bytes of input that the descriptor does not size: the state that a window COMMIT reads, a neighbour list -/
  extra : Option Nat := none
  /-- its work has ended for its partition: no completion record (02 R49) -/
  ending : Bool := false
  /-- device writes of its commits not yet accepted -/
  owed : Nat := 0
  /-- the bus-master head that its writes have used (02 R37) -/
  head : Option Nat := none
  /-- its descriptor came from the twin, whose ring it is (12 R276, R277) -/
  foreign : Bool := false
  /-- the lead has not yet numbered it (12 R276) -/
  seqDue : Bool := false
  /-- runs on both packages with digests compared (07 R169) -/
  twin : Bool := false
  rerun : Bool := false
  deriving DecidableEq, Repr

/-- An open window (07 R180). -/
structure Window where
  p : Part
  num : Nat
  base : Nat
  n : Nat
  e : Int
  /-- the job whose zero-fill of the state still runs -/
  opening : Option Nat := none
  deriving DecidableEq, Repr

/-- `waiting` holds its core (08 R196); `finished` waits for the twin's digest (12 R278); `committing` has written its
results, which are not all accepted (R193); `unplaced` waits in the ledger for room in a deque (R191, R197). -/
inductive StepSt where
  | queued | running | parked | waiting | finished | committing | unplaced
  deriving DecidableEq, Repr

/-- A step in the ledger of its job (08 R191). -/
structure Step where
  p : Part
  ring : Ring
  idx : Nat
  num : Nat
  lo : Nat
  hi : Nat
  home : Nat
  core : Nat
  st : StepSt := .queued
  granules : Nat := 0
  remoteOk : Bool := false
  trips : Nat := 0
  resumable : Bool := false
  overrun : Bool := false
  cause : Option ParkCause := none
  /-- own digest, mismatches so far, twin's digest (12 R278) -/
  digest : Option W64 := none
  mismatches : Nat := 0
  twinDigest : Option W64 := none
  waitPitch : Nat := 0
  /-- runs so far before this one, and writes of this run not yet accepted -/
  attempt : Nat := 0
  owed : Nat := 0
  deriving DecidableEq, Repr

structure RingState where
  producer : Nat := 0
  consumed : Nat := 0
  /-- index of the next descriptor to fetch -/
  fetched : Nat := 0
  /-- a fetch is outstanding -/
  fetching : Bool := false
  stopping : Bool := false
  deriving DecidableEq, Repr

/-! ### Sequencing of the Scree tier and the expanders -/

/-- What the tier agents and the expanders hold beside frames, maps and locks. -/
structure TierState where
  /-- counted capacity in use, in 2 MiB units; 0 before it is fixed (05 R117) -/
  inUse : Nat := 0
  /-- bytes written to rebuild targets in this pitch (05 R122) -/
  rebuilt : Nat := 0
  /-- bytes of frame space released by RECLAIM beyond what its rate has allowed (09 R216) -/
  reclaimed : Nat := 0
  /-- expanders, by cluster -/
  exp : Assoc Nat Expander := []
  /-- requests that wait for a damaged block to come from the twin, by block (06 R146) -/
  twinWaits : Assoc Nat (List Req) := []
  /-- DISCARDs of the twin's hint rings that this package has still to finish: partition, base, length (05 R107) -/
  discards : List (Part × Nat × Nat) := []
  /-- granules zeroed here whose LBAs are still being deallocated (03 R69) -/
  sanWaits : List Nat := []
  deriving DecidableEq, Repr

/-! ### Cluster stores (10) -/

/-- Masters of a bank (10 R237). -/
inductive Master where
  | groupA | groupB | expander | mover
  deriving DecidableEq, Repr

/-- A 64-byte access asked of a bank: its line, the bytes that it writes, and the cycles that it has stalled (10 R238). -/
structure BankReq where
  who : Master
  line : Nat
  data : Line
  mask : BitVec 64
  stalled : Nat := 0
  deriving DecidableEq, Repr

/-- A bank: its contents by line, unlisted 0, and the requests that wait, one of a master. -/
structure BankState where
  lines : Assoc Nat Line := []
  waiting : List BankReq := []
  deriving DecidableEq, Repr

/-! ### PC controllers (10) -/

structure PcEntry where
  id : Nat
  write : Bool
  line : Nat
  bankq : Nat
  row : Nat
  level : Nat
  cls : Option Nat
  part : Option Nat
  hint : Nat
  passed : Nat := 0
  deriving DecidableEq, Repr

/-- A pseudo-channel controller: its queue, rows, refresh debts, spares and freeze (10). -/
structure PcState where
  entries : List PcEntry := []
  nextId : Nat := 0
  openRows : Assoc Nat Nat := []
  inOrder : List Nat := []
  pick : Nat := 31
  /-- activate-count tables: row and count by bank queue (10 R230) -/
  act : Assoc Nat (List (Nat × Nat)) := []
  /-- targeted refreshes queued: bank queue and row -/
  trr : List (Nat × Nat) := []
  /-- refreshes postponed by rank -/
  postponed : Assoc Nat Nat := []
  /-- rank has a refresh due that may not be postponed -/
  due : List Nat := []
  /-- requests held in the cluster's arrival queue for this PC -/
  held : List Req := []
  /-- requests held back under FEEDBACK (09 R213) -/
  heldBack : List Req := []
  /-- partial writes accepted and not yet merged (11 R251) -/
  partials : List Req := []
  /-- poison writes that replace a merge while frozen (11 R251) -/
  poisonDue : List Nat := []
  /-- lines of writes dropped after FREEZE_HOLD (10 R235) -/
  dropped : List Nat := []
  /-- FREEZE_HOLD has expired -/
  holdOver : Bool := false
  /-- a RETIRE_ROW repair runs -/
  repairing : Bool := false
  /-- temperature reads invalid (10 R226) -/
  tempInvalid : Bool := false
  /-- a run of the training helpers is in progress (10 R232) -/
  training : Bool := false
  /-- retrain in progress (10 R233), due -/
  retraining : Bool := false
  retrainDue : Bool := false
  /-- blocks written on the twin while frozen (10 Table 10.4) -/
  resync : List Nat := []
  /-- pitch counts of parity freezes (11 R255) -/
  parityAt : List Nat := []
  /-- occupancy summed over the ticks of this pitch, least occupancy seen -/
  occSum : Nat := 0
  occMin : Nat := 0
  deriving DecidableEq, Repr

/-! ### RAS and Cairn (11) -/

/-- A retirement command in progress (11 R254, R256). -/
structure Retirement where
  op : Nat
  pc : Nat
  rank : Nat
  bank : Nat
  row : Nat
  /-- it waits for the end of a freeze (11 R256) -/
  waiting : Bool := false
  deriving DecidableEq, Repr

structure RasState where
  /-- corrected reads by line in this scrub pass (11 R255) -/
  ce : Assoc Nat Nat := []
  retired : List RetiredBlock := []
  /-- rows repaired: PC, bank queue, row -/
  rows : List (Nat × Nat × Nat) := []
  /-- banks mapped out: PC, bank queue -/
  banksOut : List (Nat × Nat) := []
  cursors : Assoc Nat Nat := []
  /-- PCs that have finished the pass -/
  done : List Nat := []
  /-- pitch count of each PC's last scrub -/
  last : Assoc Nat Nat := []
  busy : Option Retirement := none
  deriving DecidableEq, Repr

/-- A Cairn record; CHECK is computed when it is read (11 Table 11.5). -/
structure CRec where
  ts : Nat
  block : Nat
  inst : Nat
  event : Nat
  coalesced : Nat := 0
  severity : Nat
  overflow : Bool := false
  fromTwin : Bool := false
  part : Option Nat := none
  seq : Nat := 0
  payload : List Byte := []
  deriving DecidableEq, Repr

/-- Events latched by a source (11 R258). -/
structure Latch where
  count : Nat := 0
  pending : Bool := false
  last : Nat := 0
  lastTs : Nat := 0
  severity : Nat := 0
  overflow : Bool := false
  deriving DecidableEq, Repr

structure CairnState where
  /-- staging slot by source (block type code × 2^16 + instance) -/
  slots : Assoc Nat CRec := []
  latches : Assoc Nat Latch := []
  /-- committed records, newest first -/
  log : List CRec := []
  /-- the spill ring has wrapped since it started (11 R260, R262) -/
  wrapped : Bool := false
  /-- last-resort slots -/
  lr : Assoc Nat CRec := []
  /-- records not streamed while the link is down (11 R261) -/
  unsent : Nat := 0
  deriving DecidableEq, Repr

/-! ### The pair (12) -/

structure JEntry where
  num : Nat
  body : JBody
  acked : Bool
  deriving DecidableEq, Repr

/-- A write applied locally that waits for the twin's acceptance (12 R273). -/
structure MirrorWait where
  id : Nat
  req : Req
  deriving DecidableEq, Repr

structure BelayState where
  journal : List JEntry := []
  nextNum : Nat := 0
  mirror : List MirrorWait := []
  nextId : Nat := 0
  /-- our requests forwarded to the twin -/
  forwarded : List MirrorWait := []
  /-- writes held after twin loss (12 R283) -/
  heldWrites : List Req := []
  /-- the twin is lost and the witness has not yet decided -/
  deciding : Bool := false
  /-- fenced by LEAVING until the next reset (12 R282) -/
  leaving : Bool := false
  /-- served writes alone (12 R267) -/
  servedAlone : Bool := false
  /-- witness lease expiry time -/
  witnessExpiry : Nat := 0
  /-- a heartbeat for the current boundary has arrived, or its miss is counted -/
  hbSeen : Bool := false
  /-- counts of boundaries to come whose heartbeat has arrived (01 R26) -/
  hbEarly : List Nat := []
  /-- the twin's exported capacity in granules, as pairing told it (00 Table 0.2) -/
  twinCap : Option Nat := none
  changed : List Nat := []
  unsync : List Nat := []
  /-- unsynchronised segments lost after APPROVE (12 R288) -/
  lostSegs : List Nat := []
  /-- lines of those segments written since (12 R288; 11 R251) -/
  healed : List Nat := []
  /-- groups retrained in this pitch with the side that asked (true for this package), and those that wait
  (12 R271) -/
  retrained : List (Nat × Bool) := []
  retrainDue : List Nat := []
  /-- partitions whose FENCED writes were recorded this pitch (12 R285) -/
  fencedRec : List Nat := []
  roleBefore : Nat := 0
  /-- level of the twin's accepted image -/
  twinLevel : Option Nat := none
  /-- heads of each partition on the twin (12 R289) -/
  twinHeads : Assoc Nat Nat := []
  /-- the twin is known lost -/
  twinLost : Bool := false
  nextSeq : Nat := 0
  /-- digests of steps finished in this pitch: sequence number, step, digest (12 R278) -/
  digests : List (Nat × Nat × W64) := []
  deriving DecidableEq, Repr

/-! ### Sessions and pins (14, 16) -/

inductive Role where
  | operator | installer | maker
  deriving DecidableEq, Repr

structure SessionState where
  transport : Transport
  root : ChainRoot
  /-- `none` until FINISH fixes it (14 R311) -/
  role : Option Role := none
  /-- anchor slot that admitted an operator -/
  anchor : Option Nat := none
  /-- new installer anchor that takes effect at the session's end (14 R313) -/
  newInstaller : Option (BitVec 384) := none
  /-- time by which a message must come (14 R312) -/
  deadline : Nat := 0
  /-- its anchor was cleared: ends at the next boundary -/
  ending : Bool := false
  deriving DecidableEq, Repr

structure PinState where
  /-- filtered level at the pin -/
  level : Bool := false
  deriving DecidableEq, Repr

/-! ### Regulation (09) -/

structure QosState where
  /-- bytes moved this pitch, by cluster × 16 + partition -/
  used : Assoc Nat Nat := []
  /-- bytes moved this pitch, by cluster × 16 + class -/
  clsUsed : Assoc Nat Nat := []
  /-- bytes offered this pitch, by cluster × 16 + partition -/
  offered : Assoc Nat Nat := []
  /-- mode in force (09 R215) -/
  mode : Nat := 0
  /-- responses of this pitch and those with Moderate or Severe Overload -/
  rsp : Nat := 0
  overRsp : Nat := 0
  /-- percentage of the last pitch (09 R217) -/
  lastOver : Nat := 0
  control : W64 := 0
  /-- queue entries held, summed over nominal core cycles, by partition and by 16 + class (09 OCC_INT) -/
  occ : Assoc Nat Nat := []
  /-- RECLAIM is to stop at the next boundary, by class -/
  stopping : List Nat := []
  deriving DecidableEq, Repr

/-- The state of one CM9240. -/
structure State where
  /-- commands waiting, first in, first out -/
  pending : List Instr := []
  /-- messages sent, newest first -/
  out : List Msg := []
  /-- draws of free values so far -/
  free : Nat := 0
  regs : Assoc RegKey Nat := []
  /-- values still in force of fields written since, which take effect at a pitch boundary (08 R206; 10 R243;
  13 R306; 09 R215, R218; 12 R290) -/
  lag : Assoc RegKey Nat := []
  hdr : Assoc PageId Hdr := []
  /-- device memory by DPA -/
  mem : List Host.Cell := []
  /-- lines (DPA div 64) that hold the poison word (11 R247) -/
  poison : List Nat := []
  /-- cell errors: line, symbol, byte XORed (11 R245) -/
  damage : List (Nat × Nat × Byte) := []
  boot : BootState := {}
  flash : Flash := {}
  power : PowerState := {}
  tb : Timebase := {}
  heads : Assoc Nat HeadState := []
  cfgs : Assoc Nat PartCfg := []
  hdms : Assoc Nat Hdm := []
  parts : Assoc Nat PartState := []
  /-- extents in ascending order of base (03 R77) -/
  exts : List Extent := []
  /-- attribute changes waiting for the boundary: base, mask, attributes (03 R61) -/
  attrDue : List (Nat × BitVec 32 × BitVec 32) := []
  /-- granules in the version reserve (04 R96) -/
  reserve : List Nat := []
  /-- sanitise requests: granules left (03 R69) -/
  sanReqs : List (List Nat) := []
  /-- granules that one package of the pair has finished to sanitise, with the lead's mark (03 R69) -/
  sanHalf : List (Bool × Nat) := []
  /-- fabric manager's event log, newest first -/
  fmLog : List Notify := []
  dir : List DirEntry := []
  trans : List DirTrans := []
  /-- requests waiting for a line, in arrival order (04 R85) -/
  lineq : List Req := []
  snaps : List Snap := []
  /-- by partition; those of the twin's partitions from 16 on (04 R92) -/
  snapCmds : Assoc Nat SnapCmd := []
  frames : List Frame := []
  /-- pin marks of blocks that descent took out of Basecamp (13 R295) -/
  pinMarks : Assoc Nat (List Nat) := []
  /-- LBA map by block; unlisted is 0b00 (05 Table 5.8) -/
  lbaMap : Assoc Nat Nat := []
  /-- SSD contents, by slot × 2^46 + byte address; deallocated reads 0 -/
  ssd : List Host.Cell := []
  locks : List StripeLock := []
  ios : List Io := []
  nextIo : Nat := 0
  slots : Assoc Nat SlotState := []
  /-- rebuild cursor by cluster × 8 + target slot (05 R122) -/
  rebuild : Assoc Nat Nat := []
  tier : TierState := {}
  /-- clusters whose tier agent writes back until FREE_HIGH (05 R104) -/
  draining : List Nat := []
  hints : Assoc Nat (List HintEntry) := []
  index : Assoc Nat IdxEntry := []
  segs : Assoc Nat SegHeader := []
  /-- decompressed-block cache, most recent first -/
  cache : List CacheEntry := []
  /-- cost summed and blocks decoded in this pitch, by cluster (06 EXP_LOAD) -/
  expPitch : Assoc Nat (Nat × Nat) := []
  compactQ : List Nat := []
  /-- queued blocks written since the compactor read them (06 R151) -/
  stale : List Nat := []
  /-- damaged blocks and their causes (06 R146) -/
  damaged : Assoc Nat Nat := []
  rings : Assoc Nat RingState := []
  /-- device-resident ring memory, by partition × 2^30 + BAR2 offset (02 Table 2.5) -/
  ringMem : List Host.Cell := []
  jobs : List Job := []
  windows : List Window := []
  /-- (job sequence number, step) pairs applied to windows (08 R193) -/
  applied : List (Nat × Nat) := []
  steps : List Step := []
  coreTrips : Assoc Nat Nat := []
  coresOut : List Nat := []
  qos : QosState := {}
  pcs : Assoc Nat PcState := []
  /-- port dies lost (12 R281) -/
  portDiesOut : List Nat := []
  /-- clusters out of service (10 R242) and clusters under reset with their held requests -/
  clustersOut : List Nat := []
  resetting : Assoc Nat (List Req) := []
  /-- store banks by cluster × 4 + bank (10 R237) -/
  stores : Assoc Nat BankState := []
  /-- repaired store regions: cluster, bank, region (10 R242) -/
  repaired : List (Nat × Nat × Nat) := []
  ras : RasState := {}
  cairn : CairnState := {}
  belay : BelayState := {}
  sessions : Assoc Nat SessionState := []
  pins : Assoc Nat PinState := []
  deriving DecidableEq, Repr

/-- Why a step stops. The block has no exception entry and the spec gives every command an effect:
the one constructor names an access to an address that 10 R220 gives no place (safe: the model stops
where the spec has nothing to say). No command of the table reaches it. -/
inductive Fault where
  /-- raised by nothing in the model; a BPA of 4 TiB or more has no cell (10 Table 10.1). Safe. -/
  | noSuchAddress (bpa : Nat)
  deriving DecidableEq, Repr

/-- Why a command is not carried out. -/
inductive Refusal where
  /-- raised by the dispatch arm of a row that has no meaning yet; safe -/
  | notModelled (mnemonic : String)
  deriving DecidableEq, Repr

/-- The package right after VDD_AUX has risen (13 Table 13.3, cold power-on): every field at the
reset value of its register table, everything else empty. -/
def State.reset : State := {}

end Sys2Proof.Machine
end

