-- ==== Sys2Proof/Machine/Codec.lean ====
section
/-! DEFINITION. The stored format of compressed blocks (06 R128 to R145): geometry, ordered integers, codes,
headers, the decoder of R144 with the checks of Table 6.8, and the admission measures of R150 and R154. -/

namespace Sys2Proof.Machine

open Sys2Proof

/-! ### Causes of Table 6.8 -/

def causeIndex : Nat := 1
def causeTable : Nat := 2
def causeHeader : Nat := 3
def causeLength : Nat := 4
def causeFactor : Nat := 5
def causeResidual : Nat := 6
def causeMedia : Nat := 7

/-! ### Geometry (Table 6.1) and ordered integers (R132) -/

def elemFmt (elem : Nat) : Fmt :=
  match elem with
  | 1 => fmtF32 | 2 => fmtBf16 | 3 => fmtF16 | 4 => fmtE4m3 | _ => fmtE5m2

/-- Element width in bits. -/
def elemBits (elem : Nat) : Nat := fmtBits (elemFmt elem)

def elemCount (elem : Nat) : Nat := 65536 / elemBits elem

/-- Tile width W. -/
def tileWidth (tile : Nat) : Nat := 32 * 2 ^ tile

def tileRows (elem tile : Nat) : Nat := elemCount elem / tileWidth tile

/-- Symbols per block. -/
def symCount (elem : Nat) : Nat := if elem = 1 then 2048 else 4096

/-- Factor format. -/
def factFmt (elem : Nat) : Fmt := if elem = 1 then fmtF32 else fmtBf16

/-- The bit operation of R132; it is its own inverse. -/
def orderBits (w b : Nat) : Nat := if b.testBit (w - 1) then b ^^^ (2 ^ (w - 1) - 1) else b

/-- The element whose ordered integer is q(recon) + r, wrapped (R133). -/
def addResidual (w recon : Nat) (r : Int) : Nat :=
  orderBits w (lowBits w ((orderBits w recon : Int) + r))

/-! ### Bit streams and canonical codes (R136, R137) -/

/-- The bits of a byte, bit 7 first. -/
def bitsOfByte (b : Byte) : List Bool := (List.range 8).map fun i => b.getLsbD (7 - i)

def bitsOf (bs : List Byte) : List Bool := bs.flatMap bitsOfByte

/-- Most significant bit first. -/
def natOfBits (l : List Bool) : Nat := l.foldl (fun n b => 2 * n + (if b then 1 else 0)) 0

/-- Read `n` bits. -/
def takeBits (n : Nat) (l : List Bool) : Option (Nat × List Bool) :=
  if n ≤ l.length then some (natOfBits (l.take n), l.drop n) else none

/-- A table is valid: at most 65 symbols, one of them used, and the Kraft sum at most 1 (R136). -/
def tableValid (lens : List Nat) : Bool :=
  decide (lens.length ≤ 65) && lens.any (· ≠ 0) && lens.all (· ≤ 15) &&
    decide ((lens.map fun l => if l = 0 then 0 else 2 ^ (15 - l)).sum ≤ 2 ^ 15)

/-- `next[l]` of R136 before symbol `s`: the first code of length `l`, plus those given to smaller symbols. -/
def codeOf (lens : List Nat) (s : Nat) : Nat :=
  let l := lens.getD s 0
  let cnt := fun k => if k = 0 then 0 else (lens.filter (· = k)).length
  let first := (List.range l).foldl (fun code k => (code + cnt k) * 2) 0
  first + ((lens.take s).filter (· = l)).length

/-- Code words of a table: length, code, symbol. -/
def codeWords (lens : List Nat) : List (Nat × Nat × Nat) :=
  ((List.range lens.length).filter fun s => lens.getD s 0 ≠ 0).map fun s =>
    (lens.getD s 0, codeOf lens s, s)

/-- The symbol whose code the stream begins with. -/
def nextSym (words : List (Nat × Nat × Nat)) (l : List Bool) : Option (Nat × List Bool) :=
  (List.range 15).findSome? fun i =>
    match takeBits (i + 1) l with
    | some (v, rest) =>
      (words.find? fun w => decide (w.1 = i + 1) && decide (w.2.1 = v)).map fun w => (w.2.2, rest)
    | none => none

/-- Padding: fewer than eight bits, all zero (R137). -/
def padOk (l : List Bool) : Bool := decide (l.length < 8) && l.all (· = false)

/-- CHECK8: generator x^8 + x^2 + x + 1, initial 0, most significant bit first. -/
def check8 (bs : List Byte) : Nat :=
  (bitsOf bs).foldl (fun c b =>
    let c' := (2 * c) % 256
    if (decide (128 ≤ c)) != b then c' ^^^ 0x07 else c') 0

/-! ### Factor tables (R139) -/

/-- Lengths by distance from symbol 8, of tables 0 to 3 (Table 6.4): distances 0 to 7, zero word, escape. -/
def factRow (t : Nat) : List Nat × Nat × Nat :=
  match t with
  | 0 => ([4, 4, 4, 4, 4, 4, 4, 4], 5, 5)
  | 1 => ([3, 3, 3, 4, 4, 5, 6, 7], 7, 7)
  | 2 => ([2, 2, 4, 5, 7, 9, 10, 10], 5, 7)
  | _ => ([1, 3, 4, 6, 8, 9, 10, 10], 4, 6)

/-- Lengths of the 17 symbols of a factor table. -/
def factLens (t : Nat) : List Nat :=
  let (ds, z, esc) := factRow (t % 4)
  let base := (List.range 17).map fun s =>
    if s = 0 then z else if s = 16 then esc else ds.getD (if s < 8 then 8 - s else s - 8) 0
  if t < 4 then base else (List.range 17).map fun s => if s = 0 then 1 else base.getD s 0 + 1

/-- One factor word (R138): its value, or `none` for an invalid code or exponent. -/
def factWord (f : Fmt) (words : List (Nat × Nat × Nat)) (ref : Nat) (l : List Bool) :
    Option (FV × List Bool) := do
  let (s, l) ← nextSym words l
  if s = 0 then return (.fin false 0 0, l)
  let (ex, l) ← if s = 16 then (takeBits 8 l).map fun r => ((r.1 : Int), r.2)
    else some ((ref : Int) + s - 8, l)
  if ex < 0 ∨ 254 < ex then none
  let (sg, l) ← takeBits 1 l
  let (mt, l) ← takeBits f.mb l
  return (fmtDecode f (sg * 2 ^ (f.eb + f.mb) + ex.toNat * 2 ^ f.mb + mt), l)

/-- `n` factor words. -/
def factWords (f : Fmt) (words : List (Nat × Nat × Nat)) (ref : Nat) :
    Nat → List Bool → Option (List FV × List Bool)
  | 0, l => some ([], l)
  | n + 1, l => do
    let (v, l) ← factWord f words ref l
    let (vs, l) ← factWords f words ref n l
    return (v :: vs, l)

/-! ### Residual substreams (R135, R137) -/

/-- Residuals of one substream: for each of its symbols the residuals of the elements it covers. -/
def residSyms (w : Nat) (words : List (Nat × Nat × Nat)) :
    Nat → List Bool → Option (List (List Int) × Nat × List Bool)
  | 0, l => some ([], 0, l)
  | n + 1, l => do
    let (s, l) ← nextSym words l
    if s = 64 then
      let (lit, l) ← takeBits (if w = 32 then 32 else 16) l
      let rs := if w = 8 then [sext 8 (lit / 256), sext 8 (lit % 256)] else [sext w lit]
      let (rest, esc, l) ← residSyms w words n l
      return (rs :: rest, esc + 1, l)
    else
      let rs := if w = 8 then [(s / 8 : Int) - 4, (s % 8 : Int) - 4] else [(s : Int) - 32]
      let (rest, esc, l) ← residSyms w words n l
      return (rs :: rest, esc, l)

/-! ### Headers (Tables 6.5, 6.6) -/

/-- The fields of a block header. -/
structure BlkHeader where
  kind : Nat
  tslot : Nat
  format : Nat
  elem : Nat
  tile : Nat
  rank : Nat
  ftabU : Nat
  ftabV : Nat
  refU : Nat
  refV : Nat
  factLen : Nat
  base : Nat
  escCount : Nat
  rsvd : Bool
  hcheck : Bool
  deriving DecidableEq, Repr

/-- Read a header from bytes 0 to 15 of a stored form. -/
def readHeader (form : List Byte) : BlkHeader :=
  let h0 := leAt form 0 8
  let h1 := leAt form 8 8
  let f := fun (h lo w : Nat) => h / 2 ^ lo % 2 ^ w
  { kind := f h0 0 3, tslot := f h0 3 1, format := f h0 4 4, elem := f h0 8 4, tile := f h0 12 2,
    rank := f h0 16 5, ftabU := f h0 21 3, ftabV := f h0 24 3, refU := f h0 32 8, refV := f h0 40 8,
    factLen := f h0 48 14, base := f h1 0 32, escCount := f h1 32 13,
    rsvd := decide (f h0 14 2 ≠ 0 ∨ f h0 27 5 ≠ 0 ∨ f h0 62 2 ≠ 0 ∨ f h1 45 11 ≠ 0),
    hcheck := decide (f h1 56 8 = check8 (form.take 15)) }

/-- Substream lengths of the directory (R141). -/
def dirLens (form : List Byte) : List Nat := (List.range 8).map fun q => leAt form (16 + 2 * q) 2

/-- The table that a segment header's slot holds. -/
def segTable (g : SegHeader) (slot : Bool) : Option (List Nat) := if slot then g.table1 else g.table0

/-- Stored length that a form of a header kind claims (Table 6.2; Table 6.8, LENGTH). -/
def formLen (h : BlkHeader) (form : List Byte) : Nat :=
  if h.kind = 2 then 16 else 32 + h.factLen + (dirLens form).sum

/-- The header is that of a stored form of kind `kind` (cause HEADER). -/
def headerOk (h : BlkHeader) (kind elem tile : Nat) : Bool :=
  h.hcheck && decide (h.format = 1) && decide (h.kind = kind) &&
    decide (kind = 2 ∨ kind = 3 ∨ kind = 4) && decide (h.elem = elem) && decide (h.tile = tile) &&
    (if kind = 4 then decide (1 ≤ h.rank ∧ h.rank ≤ 16) else decide (h.rank = 0)) && !h.rsvd

/-- The low 56 bits of an index entry (Table 6.7). -/
def idxBits (e : IdxEntry) : Nat :=
  e.kind % 8 + e.rank % 32 * 2 ^ 3 + e.clen % 16384 * 2 ^ 8 + (if e.tslot then 2 ^ 22 else 0) + e.offset % 2 ^ 28 * 2 ^ 24

/-- CHECK of an index entry of the block with a local number (R143). -/
def idxCheck (e : IdxEntry) (n : Nat) : Nat := check8 (leBytes 7 (idxBits e) ++ leBytes 4 n)

/-- An index entry with its CHECK. -/
def idxSeal (e : IdxEntry) (n : Nat) : IdxEntry := { e with check := idxCheck e n }

/-- The initial entry: 64 bits of 0 (R143). -/
def idxInitial (e : IdxEntry) : Bool := decide (idxBits e = 0 ∧ e.check = 0)

/-- The index entry of a block is sound (cause INDEX): its CHECK, its kind, and the length of RAW, ZERO and CONST. -/
def idxOk (e : IdxEntry) (n : Nat) : Bool :=
  match e.kind with
  | 0 => idxInitial e || (decide (e.clen = 8192) && decide (e.check = idxCheck e n))
  | 1 => decide (e.clen = 0) && decide (e.check = idxCheck e n)
  | 2 => decide (e.clen = 16) && decide (e.check = idxCheck e n)
  | 3 | 4 => decide (e.check = idxCheck e n)
  | _ => false

/-- The 33 bytes of a table's lengths: symbol 2i in the low nibble of byte i (Table 6.6). -/
def tableBytes (t : Option (List Nat)) : List Byte :=
  let l := t.getD []
  (List.range 33).map fun i => BitVec.ofNat 8 (l.getD (2 * i) 0 % 16 + l.getD (2 * i + 1) 0 % 16 * 16)

/-- Bytes 0 to 126 of a segment header (Table 6.6). -/
def segBytes (g : SegHeader) : List Byte :=
  let w := (if g.table0.isSome then 1 else 0) + (if g.table1.isSome then 2 else 0) + g.elem % 16 * 2 ^ 4 +
    g.tile % 4 * 2 ^ 8 + g.use0 % 128 * 2 ^ 16 + g.use1 % 128 * 2 ^ 24 + g.tag % 2 ^ 32 * 2 ^ 32
  leBytes 8 g.coded.toNat ++ leBytes 8 w ++ tableBytes g.table0 ++ leBytes 7 0 ++ tableBytes g.table1 ++ leBytes 38 0

/-- A segment header with its SCHECK. -/
def segSeal (g : SegHeader) : SegHeader := { g with check := check8 (segBytes g) }

/-- The segment header serves a block of a segment, element type and tile width that names a slot (cause TABLE). -/
def segHeaderOk (g : SegHeader) (tag elem tile : Nat) (slot : Bool) : Bool :=
  decide (g.check = check8 (segBytes g)) && decide (g.tag = tag) && decide (g.elem = elem) && decide (g.tile = tile) &&
    ((segTable g slot).map tableValid).getD false

/-- Elements as the bytes of the block. -/
def packElems (w : Nat) (es : List Nat) : List Byte := es.flatMap fun e => leBytes (w / 8) e

/-- Split a list into `rows` rows of `k`. -/
def rowsOf {α : Type} (k : Nat) : Nat → List α → List (List α)
  | 0, _ => []
  | n + 1, l => l.take k :: rowsOf k n (l.drop k)

/-- The exactly rounded product of a row of U and a column of V (R134). -/
def reconElem (f : Fmt) (us vs : List FV) : Nat :=
  (fmtOf f ((List.zipWith fvMul us vs).foldl fvAdd (.fin false 0 0))).1

/-- Reconstruction of a LOWRANK block, or `none` for cause FACTOR (R134, R138). -/
def reconLowrank (h : BlkHeader) (form : List Byte) : Option (List Nat) := do
  let ff := factFmt h.elem
  let w := tileWidth h.tile
  let rows := tileRows h.elem h.tile
  let area := (form.drop 32).take h.factLen
  if area.length ≠ h.factLen then none
  let (us, l) ← factWords ff (codeWords (factLens h.ftabU)) h.refU (rows * h.rank) (bitsOf area)
  let (vs, l) ← factWords ff (codeWords (factLens h.ftabV)) h.refV (h.rank * w) l
  if !padOk l then none
  let ur := rowsOf h.rank rows us
  let vr := rowsOf w h.rank vs
  return ur.flatMap fun u => (List.range w).map fun c =>
    reconElem (elemFmt h.elem) u (vr.map fun r => r.getD c (.fin false 0 0))

/-- The eight substreams of a stored form. -/
def substreams (h : BlkHeader) (form : List Byte) : List (List Byte) :=
  let ls := dirLens form
  (List.range 8).map fun q => (form.drop (32 + h.factLen + (ls.take q).sum)).take (ls.getD q 0)

/-- Residuals of all substreams and the escapes of each, or `none` for cause RESIDUAL. -/
def residAll (h : BlkHeader) (tab : List Nat) (form : List Byte) : Option (List (List (List Int)) × List Nat) := do
  let words := codeWords tab
  let per := symCount h.elem / 8
  let rs ← (substreams h form).mapM fun bs => do
    let (r, e, l) ← residSyms (elemBits h.elem) words per (bitsOf bs)
    if padOk l then some (r, e) else none
  return (rs.map (·.1), rs.map (·.2))

/-- Residuals of the elements in order: symbol j is the (j div 8)-th of substream j mod 8. -/
def residFlat (elem : Nat) (rs : List (List (List Int))) : List Int :=
  (List.range (symCount elem / 8)).flatMap fun k => rs.flatMap fun r => r.getD k []

/-- What decoding a block answers: its 8,192 bytes with the escapes of each substream, or the first cause. -/
inductive Decoded where
  | ok (bytes : List Byte) (rank : Nat) (escapes : List Nat)
  | damaged (cause : Nat)
  deriving DecidableEq, Repr

/-- Decode a coded form of kind CONST, RESID or LOWRANK whose length is `clen`, in the segment with a tag (R144, R145). -/
def decodeForm (kind clen : Nat) (tslot : Bool) (elem tile tag : Nat) (seg : SegHeader) (form : List Byte) :
    Decoded :=
  if kind ≠ 2 ∧ kind ≠ 3 ∧ kind ≠ 4 ∨ (kind = 2 ∧ clen ≠ 16) then .damaged causeIndex
  else
    let h := readHeader form
    let tab := segTable seg tslot
    if !segHeaderOk seg tag elem tile tslot then .damaged causeTable
    else if !headerOk h kind elem tile then .damaged causeHeader
    else if formLen h form ≠ clen then .damaged causeLength
    else
      let n := elemCount elem
      let w := elemBits elem
      if kind = 2 then .ok (packElems w (List.replicate n (h.base % 2 ^ w))) 0 []
      else
        let recon := if kind = 3 then some (List.replicate n (h.base % 2 ^ w)) else reconLowrank h form
        match recon with
        | none => .damaged causeFactor
        | some rec =>
          match residAll h (tab.getD []) form with
          | none => .damaged causeResidual
          | some (rs, esc) =>
            if esc.sum ≠ h.escCount then .damaged causeResidual
            else .ok (packElems w (List.zipWith (addResidual w) rec (residFlat elem rs))) h.rank esc

/-- The expander cost (R154). -/
def expanderCost (kind elem rank : Nat) (escapes : List Nat) : Nat :=
  let m := if kind = 4 then elemCount elem * rank / (if elem = 1 then 128 else 512) else 0
  let rc := if kind = 3 ∨ kind = 4 then
    escapes.foldl (fun a e => max a ((symCount elem / 8 + e + 3) / 4)) 0 else 0
  8 + max 128 (max m rc)

/-- The admission rule of R150 for a decoded candidate. -/
def admitted (kind elem clen rank : Nat) (escapes : List Nat) (costMax : Nat) : Bool :=
  decide (clen ≤ 7168) && escapes.all (fun e => decide (8 * e ≤ symCount elem / 8)) &&
    decide (expanderCost kind elem rank escapes ≤ costMax)

end Sys2Proof.Machine
end

