-- ==== Sys2Proof/Machine/Evt.lean ====
section
/-! DEFINITION. The events: the bits of every EVT_STATUS register (spec 01 to 16) with the severities of
11 Table 11.11, and the events of Table 11.12 that set no bit. -/

namespace Sys2Proof.Machine

open Sys2Proof

/-- An event that sets an EVT_STATUS bit, named page and bit as the spec writes PAGE.EVT_STATUS.BIT. -/
inductive Evt where
  | pitchTbLoss | pitchTbRestored | pitchAlignLost | pitchBoundaryLate
  | portLinkUp | portLinkDown | portWidthDegraded | portRateDown | portNotCxl | portCapped64
  | partLeaseLow | partOrphaned | partAddOffered | partReleaseRequested | partForcedRelease
  | partUnheldAccess | partRevived
  | extLimitHit | extSanitiseDone | extListChanged
  | dirReaderWrite | dirBiTimeout | dirBiDisabled | dirVictimFull | dirCommitted
  | dirDraftAbandoned | dirReserveLow
  | tierDegraded | tierRebuildDone | tierBlockLost | tierSlotChange | tierButton | tierPowerFault
  | tierPathLost | tierNotAdmitted | tierRemoveRefused | tierPinLimit | tierHintIgnored
  | tierHintHalted
  | cmpDamaged | cmpVerifyFail | cmpTableBad | cmpBacklog
  | jobRingHalted | jobJobFailed | jobOverflow | jobRerun | jobOverrun | jobWindowWrite
  | qosGuarRefused | qosGuarMissed | qosClassOver | qosHotPc | qosReclaimDone
  | pcFrozen | pcFailed | pcRefresh2x | pcThrottle | pcTrip | pcTempInvalid | pcTrr | pcRetrainDue
  | pcTrainDone | pcTrainAborted
  | storeTestFail | storeRepaired | storeBankFailed | storeTestLate
  | rasCeLine | rasUeLine | rasSramCe | rasSramUe | rasRetired | rasSparesLow | rasScrubPass
  | rasPoisonRead
  | cairnLogDegraded | cairnSpillWrap | cairnStreamGap | cairnOverflow | cairnLrWrap
  | belayPaired | belayPairRefused | belayTwinLost | belayFenced | belayUnfenced | belayResyncDone
  | belayIncomplete | belayDigestMismatch | belayGroupDown | belayWitnessLapsed | belayRoleChanged
  | belayCovering
  | pwrRungEntered | pwrRungExited | pwrEntryAborted | pwrEntryRefused | pwrExitLate
  | pwrBootAltImage | pwrClusterResetDone
  | roleSessionOpened | roleSessionRefused | roleWriteDenied | roleAnchorChanged | roleIdeFail
  | roleFwStaged | roleFwAccepted | roleFwRejected | roleMakerRefused
  | pinRailFault | pinThermtrip | pinFlowLost | pinFlowRestored | pinMfpSwitched
  deriving DecidableEq, Repr

/-- Severities of Table 11.5. -/
inductive Sev where
  | info | warning | corrected | uncorrected | fatal | audit
  deriving DecidableEq, Repr

/-- The code of a severity (11 Table 11.5). -/
def Sev.code : Sev → Nat
  | .info => 0 | .warning => 1 | .corrected => 2 | .uncorrected => 3 | .fatal => 4 | .audit => 5

/-- Block, EVT_STATUS bit and severity of an event (11 Table 11.11). An event that stands in two columns
has its severity without the condition here; who raises it names the other. -/
def Evt.info : Evt → Blk × Nat × Sev
  | .pitchTbLoss => (.pitch, 0, .warning)
  | .pitchTbRestored => (.pitch, 1, .info)
  | .pitchAlignLost => (.pitch, 2, .warning)
  | .pitchBoundaryLate => (.pitch, 3, .warning)
  | .portLinkUp => (.port, 0, .info)
  | .portLinkDown => (.port, 1, .warning)
  | .portWidthDegraded => (.port, 2, .warning)
  | .portRateDown => (.port, 3, .info)
  | .portNotCxl => (.port, 4, .warning)
  | .portCapped64 => (.port, 5, .warning)
  | .partLeaseLow => (.part, 0, .warning)
  | .partOrphaned => (.part, 1, .warning)
  | .partAddOffered => (.part, 2, .info)
  | .partReleaseRequested => (.part, 3, .info)
  | .partForcedRelease => (.part, 4, .warning)
  | .partUnheldAccess => (.part, 5, .warning)
  | .partRevived => (.part, 6, .info)
  | .extLimitHit => (.ext, 0, .warning)
  | .extSanitiseDone => (.ext, 1, .info)
  | .extListChanged => (.ext, 2, .info)
  | .dirReaderWrite => (.dir, 0, .warning)
  | .dirBiTimeout => (.dir, 1, .uncorrected)
  | .dirBiDisabled => (.dir, 2, .warning)
  | .dirVictimFull => (.dir, 3, .info)
  | .dirCommitted => (.dir, 4, .info)
  | .dirDraftAbandoned => (.dir, 5, .warning)
  | .dirReserveLow => (.dir, 6, .warning)
  | .tierDegraded => (.tier, 0, .warning)
  | .tierRebuildDone => (.tier, 1, .info)
  | .tierBlockLost => (.tier, 2, .uncorrected)
  | .tierSlotChange => (.tier, 3, .info)
  | .tierButton => (.tier, 4, .info)
  | .tierPowerFault => (.tier, 5, .warning)
  | .tierPathLost => (.tier, 6, .warning)
  | .tierNotAdmitted => (.tier, 7, .warning)
  | .tierRemoveRefused => (.tier, 8, .info)
  | .tierPinLimit => (.tier, 9, .info)
  | .tierHintIgnored => (.tier, 10, .info)
  | .tierHintHalted => (.tier, 11, .warning)
  | .cmpDamaged => (.cmp, 0, .uncorrected)
  | .cmpVerifyFail => (.cmp, 1, .warning)
  | .cmpTableBad => (.cmp, 2, .uncorrected)
  | .cmpBacklog => (.cmp, 3, .info)
  | .jobRingHalted => (.job, 0, .warning)
  | .jobJobFailed => (.job, 1, .warning)
  | .jobOverflow => (.job, 2, .info)
  | .jobRerun => (.job, 3, .corrected)
  | .jobOverrun => (.job, 4, .info)
  | .jobWindowWrite => (.job, 5, .warning)
  | .qosGuarRefused => (.qos, 0, .warning)
  | .qosGuarMissed => (.qos, 1, .warning)
  | .qosClassOver => (.qos, 2, .info)
  | .qosHotPc => (.qos, 3, .warning)
  | .qosReclaimDone => (.qos, 4, .info)
  | .pcFrozen => (.pc, 0, .uncorrected)
  | .pcFailed => (.pc, 1, .uncorrected)
  | .pcRefresh2x => (.pc, 2, .info)
  | .pcThrottle => (.pc, 3, .warning)
  | .pcTrip => (.pc, 4, .fatal)
  | .pcTempInvalid => (.pc, 5, .warning)
  | .pcTrr => (.pc, 6, .info)
  | .pcRetrainDue => (.pc, 7, .info)
  | .pcTrainDone => (.pc, 8, .info)
  | .pcTrainAborted => (.pc, 9, .warning)
  | .storeTestFail => (.store, 0, .warning)
  | .storeRepaired => (.store, 1, .corrected)
  | .storeBankFailed => (.store, 2, .uncorrected)
  | .storeTestLate => (.store, 3, .info)
  | .rasCeLine => (.ras, 0, .corrected)
  | .rasUeLine => (.ras, 1, .uncorrected)
  | .rasSramCe => (.ras, 2, .corrected)
  | .rasSramUe => (.ras, 3, .uncorrected)
  | .rasRetired => (.ras, 4, .corrected)
  | .rasSparesLow => (.ras, 5, .warning)
  | .rasScrubPass => (.ras, 6, .info)
  | .rasPoisonRead => (.ras, 7, .warning)
  | .cairnLogDegraded => (.cairn, 0, .warning)
  | .cairnSpillWrap => (.cairn, 1, .info)
  | .cairnStreamGap => (.cairn, 2, .warning)
  | .cairnOverflow => (.cairn, 3, .warning)
  | .cairnLrWrap => (.cairn, 4, .warning)
  | .belayPaired => (.belay, 0, .info)
  | .belayPairRefused => (.belay, 1, .warning)
  | .belayTwinLost => (.belay, 2, .warning)
  | .belayFenced => (.belay, 3, .warning)
  | .belayUnfenced => (.belay, 4, .info)
  | .belayResyncDone => (.belay, 5, .info)
  | .belayIncomplete => (.belay, 6, .uncorrected)
  | .belayDigestMismatch => (.belay, 7, .corrected)
  | .belayGroupDown => (.belay, 8, .warning)
  | .belayWitnessLapsed => (.belay, 9, .warning)
  | .belayRoleChanged => (.belay, 10, .info)
  | .belayCovering => (.belay, 11, .corrected)
  | .pwrRungEntered => (.pwr, 0, .info)
  | .pwrRungExited => (.pwr, 1, .info)
  | .pwrEntryAborted => (.pwr, 2, .info)
  | .pwrEntryRefused => (.pwr, 3, .info)
  | .pwrExitLate => (.pwr, 4, .warning)
  | .pwrBootAltImage => (.pwr, 5, .warning)
  | .pwrClusterResetDone => (.pwr, 6, .info)
  | .roleSessionOpened => (.role, 0, .info)
  | .roleSessionRefused => (.role, 1, .info)
  | .roleWriteDenied => (.role, 2, .warning)
  | .roleAnchorChanged => (.role, 3, .info)
  | .roleIdeFail => (.role, 4, .warning)
  | .roleFwStaged => (.role, 5, .info)
  | .roleFwAccepted => (.role, 6, .info)
  | .roleFwRejected => (.role, 7, .warning)
  | .roleMakerRefused => (.role, 8, .warning)
  | .pinRailFault => (.pin, 0, .fatal)
  | .pinThermtrip => (.pin, 1, .fatal)
  | .pinFlowLost => (.pin, 2, .warning)
  | .pinFlowRestored => (.pin, 3, .info)
  | .pinMfpSwitched => (.pin, 4, .info)

/-- EVENT code of an event that sets a bit (11 R354). -/
def Evt.code (e : Evt) : Nat :=
  match e with
  | .cairnLogDegraded => 0x0003
  | .cairnStreamGap => 0x0002
  | e => 0x0100 + e.info.2.1

/-- The events of Table 11.12. -/
inductive Rec where
  | settingsRecordLost | ldNotCarried | startSlotMissing (two : Bool) | lostWriteDropped
  | partialWritePoison | complexTakeover | lostLineRead | sessionEnded | stepHung | dieLost
  /-- a late renewal of a lease (03 R71); Table 11.12 has no row for it, so its code is open and its severity, INFO, is
  the model's (DESIGN CHOICE, log 21) -/
  | lateRenew
  deriving DecidableEq, Repr

/-- Block, code and severity of an event of Table 11.12. -/
def Rec.info : Rec → Blk × Nat × Sev
  | .settingsRecordLost => (.id, 0x0200, .warning)
  | .ldNotCarried => (.port, 0x0200, .warning)
  | .startSlotMissing two => (.tier, 0x0200, if two then .fatal else .warning)
  | .lostWriteDropped => (.tier, 0x0201, .uncorrected)
  | .partialWritePoison => (.ras, 0x0200, .warning)
  | .complexTakeover => (.cairn, 0x0200, .warning)
  | .lostLineRead => (.belay, 0x0200, .uncorrected)
  | .sessionEnded => (.role, 0x0200, .info)
  | .stepHung => (.pitch, 0x0200, .warning)
  | .dieLost => (.pitch, 0x0201, .uncorrected)
  | .lateRenew => (.part, Config.lateRenewEvent.toNat, .info)

/-- Block type codes (15 Table 15.3). -/
def blkCode : Blk → Nat
  | .id => 0x0001 | .port => 0x0010 | .part => 0x0020 | .ext => 0x0030 | .dir => 0x0040
  | .tier => 0x0050 | .cmp => 0x0060 | .job => 0x0070 | .qos => 0x0080 | .pc => 0x0090
  | .store => 0x00A0 | .ras => 0x00B0 | .cairn => 0x00C0 | .belay => 0x00D0 | .pwr => 0x00E0
  | .pin => 0x00F0 | .role => 0x0100 | .pitch => 0x0110

/-- The block types in the order of Table 15.3. -/
def blkList : List Blk :=
  [.id, .port, .part, .ext, .dir, .tier, .cmp, .job, .qos, .pc, .store, .ras, .cairn, .belay, .pwr,
   .pin, .role, .pitch]

/-- The block type of a code. -/
def blkOfCode (c : Nat) : Option Blk := blkList.find? fun b => blkCode b = c

/-- The instances of each block type (15 Table 15.3). -/
def blkHasInst : Blk → Nat → Bool
  | .port, i | .part, i | .job, i => i < 16
  | .ext, i | .dir, i => i < 0x11
  | .tier, i => i < 0x11 || (0x20 ≤ i && i < 0x28)
  | .qos, i => i < 0x21
  | .pc, i => i < 1024
  | .store, i => i < 256
  | .id, i | .cmp, i | .ras, i | .cairn, i | .belay, i | .pwr, i | .pin, i | .role, i | .pitch, i => i = 0

/-- Number of instances (15 Table 15.1, PAGES). -/
def blkPages : Blk → Nat
  | .port | .part | .job => 16
  | .ext | .dir => 17
  | .tier => 25
  | .qos => 33
  | .pc => 1024
  | .store => 256
  | .id | .cmp | .ras | .cairn | .belay | .pwr | .pin | .role | .pitch => 1

end Sys2Proof.Machine
end

