-- ==== Sys2Proof/Machine/Regs.lean ====
section
/-! DEFINITION. The register tables of the page chapters as data: where each field lies, its access
code, its reset value, the instances that have it, and the right that Table 14.1 gives for it. -/

namespace Sys2Proof.Machine

open Sys2Proof

/-- The access codes of Table 0.5; no block-specific register of the page chapters is RW1C, RW1S or RWS. -/
inductive Acc where
  | ro | rw | wo | rwl
  deriving DecidableEq, Repr

/-- The instances of a page that have the register (DIR, EXT, TIER and QOS differ by instance). -/
inductive Inst where
  | all | part | dev | partDev | slot | cls | partCls
  deriving DecidableEq, Repr

/-- One row of a register table. A field that repeats has `cnt` copies: copy `i` lies in the register
at `off + stride * (i / per)`, at bit `lo + bstride * (i % per)`. `role` is the least role that may
write it (1 operator, 2 installer, 3 maker, 4 none); `host` tells whether the partition view may. -/
structure FldDesc where
  blk : Blk
  off : Nat
  lo : Nat
  w : Nat
  acc : Acc
  rst : Nat
  on : Inst
  host : Bool
  role : Nat
  cnt : Nat := 1
  stride : Nat := 0
  per : Nat := 1
  bstride : Nat := 0
  deriving DecidableEq, Repr

/-- A read-only field. -/
abbrev FldDesc.mkRo (blk : Blk) (off lo w rst : Nat) (on : Inst := .all) : FldDesc :=
  ⟨blk, off, lo, w, .ro, rst, on, false, 4, 1, 0, 1, 0⟩

/-- The register tables (01 Tables 1.9 and 8.x to 16): one row for each field. A reset value that the
spec leaves open (—) stands as 0 here; those fields are computed when they are read. -/
def Fld.desc : Fld → FldDesc
  -- PITCH page
  | .pitchCfgLen => ⟨.pitch, 0x040, 0, 2, .rwl, 0x1, .all, false, 2, 1, 0, 1, 0⟩
  | .pitchCfgLenActive => .mkRo .pitch 0x040 2 2 0x1
  | .pitchCfgSyncOutEn => ⟨.pitch, 0x040, 4, 1, .rw, 0x1, .all, false, 1, 1, 0, 1, 0⟩
  | .pitchCountCount => .mkRo .pitch 0x048 0 64 0x0
  | .pitchPhasePhase => .mkRo .pitch 0x050 0 12 0x0
  | .pitchPhaseTwinOffset => .mkRo .pitch 0x050 16 16 0x0
  | .pitchAlignAligned => .mkRo .pitch 0x058 0 1 0x0
  | .pitchAlignMode => .mkRo .pitch 0x058 1 2 0x0
  | .pitchAlignHoldover => .mkRo .pitch 0x058 3 1 0x0
  | .pitchLateCountLate => .mkRo .pitch 0x060 0 32 0x0
  | .pitchAlignLossCountLosses => .mkRo .pitch 0x068 0 32 0x0
  | .pitchSchedCfgStealEn => ⟨.pitch, 0x080, 0, 1, .rw, 0x1, .all, false, 1, 1, 0, 1, 0⟩
  | .pitchSchedCfgNeighEn => ⟨.pitch, 0x080, 1, 1, .rw, 0x1, .all, false, 1, 1, 0, 1, 0⟩
  | .pitchSchedCfgTraverseEn => ⟨.pitch, 0x080, 2, 1, .rw, 0x1, .all, false, 1, 1, 0, 1, 0⟩
  | .pitchSchedCfgRebalEn => ⟨.pitch, 0x080, 3, 1, .rw, 0x1, .all, false, 1, 1, 0, 1, 0⟩
  | .pitchSchedCfgStepMax => ⟨.pitch, 0x080, 8, 8, .rw, 0x20, .all, false, 1, 1, 0, 1, 0⟩
  | .pitchSchedCfgWatchdog => ⟨.pitch, 0x080, 16, 8, .rw, 0x64, .all, false, 1, 1, 0, 1, 0⟩
  | .pitchSchedCfgParkMax => ⟨.pitch, 0x080, 24, 5, .rw, 0x10, .all, false, 1, 1, 0, 1, 0⟩
  | .pitchWmarkStepFloor => ⟨.pitch, 0x088, 0, 8, .rw, 0x2, .all, false, 1, 1, 0, 1, 0⟩
  | .pitchWmarkEvictBufs => ⟨.pitch, 0x088, 8, 8, .rw, 0x20, .all, false, 1, 1, 0, 1, 0⟩
  | .pitchWmarkRspBufs => .mkRo .pitch 0x088 16 8 0x40
  | .pitchWmarkFillBufs => .mkRo .pitch 0x088 24 8 0x60
  | .pitchStealCountLocal => .mkRo .pitch 0x090 0 32 0x0
  | .pitchStealCountNeighbour => .mkRo .pitch 0x090 32 32 0x0
  | .pitchTraverseCountTraverses => .mkRo .pitch 0x098 0 32 0x0
  | .pitchTraverseCountRebalanced => .mkRo .pitch 0x098 32 32 0x0
  | .pitchParkStatsParks => .mkRo .pitch 0x0A0 0 32 0x0
  | .pitchParkStatsFloorWaits => .mkRo .pitch 0x0A0 32 32 0x0
  | .pitchOverrunStatsOverruns => .mkRo .pitch 0x0A8 0 32 0x0
  | .pitchOverrunStatsShrinks => .mkRo .pitch 0x0A8 32 32 0x0
  | .pitchWatchdogStatsTrips => .mkRo .pitch 0x0B0 0 16 0x0
  | .pitchWatchdogStatsCoresOut => .mkRo .pitch 0x0B0 16 8 0x0
  | .pitchRemapDiesOut => .mkRo .pitch 0x0B8 0 16 0x0
  | .pitchRemapRemapped => .mkRo .pitch 0x0B8 32 32 0x0
  | .pitchLoadSelCluster => ⟨.pitch, 0x0C0, 0, 8, .rw, 0x0, .all, false, 1, 1, 0, 1, 0⟩
  | .pitchLoadQueued => .mkRo .pitch 0x0C8 0 12 0x0
  | .pitchLoadParked => .mkRo .pitch 0x0C8 16 6 0x0
  | .pitchLoadRunning => .mkRo .pitch 0x0C8 24 6 0x0
  | .pitchLoadGranFree => .mkRo .pitch 0x0C8 32 8 0x0
  | .pitchLoadRspFree => .mkRo .pitch 0x0C8 40 7 0x0
  | .pitchLoadFillFree => .mkRo .pitch 0x0C8 48 7 0x0
  -- PORT page
  | .portLinkCfgMaxRate => ⟨.port, 0x040, 0, 3, .rwl, 0x6, .all, false, 2, 1, 0, 1, 0⟩
  | .portLinkCfgL0pEn => ⟨.port, 0x040, 3, 1, .rw, 0x1, .all, false, 1, 1, 0, 1, 0⟩
  | .portLinkStatusRate => .mkRo .port 0x048 0 3 0x0
  | .portLinkStatusWidth => .mkRo .port 0x048 3 5 0x0
  | .portLinkStatusFlit256 => .mkRo .port 0x048 8 1 0x0
  | .portLinkStatusUp => .mkRo .port 0x048 9 1 0x0
  | .portLinkStatusPartner128 => .mkRo .port 0x048 10 1 0x0
  | .portLinkStatusCapped64 => .mkRo .port 0x048 11 1 0x0
  | .portLinkStatusLaneFail => .mkRo .port 0x048 16 16 0x0
  | .portLinkCtrlRetrain => ⟨.port, 0x050, 0, 1, .wo, 0x0, .all, false, 1, 1, 0, 1, 0⟩
  | .portLinkCtrlDisable => ⟨.port, 0x050, 1, 1, .rw, 0x0, .all, false, 2, 1, 0, 1, 0⟩
  | .portBindParts => .mkRo .port 0x058 0 16 0x0
  | .portBindFmLd => .mkRo .port 0x058 16 1 0x1
  | .portErrCountRxErr => .mkRo .port 0x060 0 16 0x0
  | .portErrCountReplays => .mkRo .port 0x060 16 16 0x0
  | .portErrCountRetrains => .mkRo .port 0x060 32 16 0x0
  | .portErrCountEqFail128 => .mkRo .port 0x060 48 16 0x0
  -- PART page
  | .partCfgLeaseMs => ⟨.part, 0x040, 0, 16, .rw, 0x7D0, .all, false, 1, 1, 0, 1, 0⟩
  | .partLeaseRenew => ⟨.part, 0x048, 0, 1, .wo, 0x0, .all, true, 4, 1, 0, 1, 0⟩
  | .partLeaseExpired => .mkRo .part 0x048 1 1 0x0
  | .partLeaseRemainingMs => .mkRo .part 0x048 16 16 0x0
  | .partLeaseRenewals => .mkRo .part 0x048 32 32 0x0
  | .partStateState => .mkRo .part 0x050 0 3 0x0
  | .partStateHeads => .mkRo .part 0x050 16 16 0x0
  | .partStateExtents => .mkRo .part 0x050 32 14 0x0
  | .partHeldGranules => .mkRo .part 0x058 0 21 0x0
  | .partOrphanAtPitch => .mkRo .part 0x060 0 64 0x0
  | .partLateRenewLate => .mkRo .part 0x068 0 32 0x0
  -- EXT page
  | .extCursorIndex => ⟨.ext, 0x040, 0, 15, .rw, 0x0, .all, true, 1, 1, 0, 1, 0⟩
  | .extBaseBaseGran => .mkRo .ext 0x048 0 21 0x0
  | .extLengthLenGran => .mkRo .ext 0x050 0 21 0x0
  | .extAttrClass => .mkRo .ext 0x058 0 4 0x0
  | .extAttrPageHint => .mkRo .ext 0x058 4 2 0x0
  | .extAttrTier => .mkRo .ext 0x058 6 2 0x0
  | .extAttrElem => .mkRo .ext 0x058 8 4 0x0
  | .extAttrTile => .mkRo .ext 0x058 12 2 0x0
  | .extAttrProtected => .mkRo .ext 0x058 14 1 0x0
  | .extAttrSharing => .mkRo .ext 0x058 15 2 0x0
  | .extAttrOwner => .mkRo .ext 0x058 17 4 0x0
  | .extStateState => .mkRo .ext 0x060 0 3 0x0
  | .extStateValid => .mkRo .ext 0x060 3 1 0x0
  | .extStateHolders => .mkRo .ext 0x060 16 16 0x0
  | .extStateGen => .mkRo .ext 0x060 32 32 0x0
  | .extCountExtents => .mkRo .ext 0x068 0 16 0x0
  | .extCountFreeGran => .mkRo .ext 0x068 32 21 0x0
  | .extSanitiseRate => ⟨.ext, 0x070, 0, 4, .rwl, 0x4, .dev, false, 2, 1, 0, 1, 0⟩
  -- DEDUCED (log 97): the pool instance alone shows PENDING_GRAN, where Table 3.8 is silent
  | .extSanitisePendingGran => .mkRo .ext 0x070 32 21 0x0 .dev
  -- DIR page
  | .dirCfgBiTimeout => ⟨.dir, 0x040, 0, 10, .rw, 0x64, .dev, false, 1, 1, 0, 1, 0⟩
  | .dirOccupancyTracked => .mkRo .dir 0x048 0 30 0x0 .partDev
  | .dirOccupancyCoarse => .mkRo .dir 0x048 32 30 0x0 .dev
  | .dirCapEvictEvictions => .mkRo .dir 0x050 0 32 0x0 .dev
  | .dirCapEvictVictimWaits => .mkRo .dir 0x050 32 32 0x0 .dev
  | .dirBiStatsBiSent => .mkRo .dir 0x058 0 32 0x0 .partDev
  | .dirBiStatsBiTimeouts => .mkRo .dir 0x058 32 32 0x0 .partDev
  | .dirCrossingsWbCross => .mkRo .dir 0x060 0 32 0x0 .dev
  | .dirCrossingsCleanCross => .mkRo .dir 0x060 32 32 0x0 .dev
  | .dirBiFailedHeads => .mkRo .dir 0x068 0 16 0x0 .part
  | .dirSnapCmdOp => ⟨.dir, 0x080, 0, 3, .wo, 0x0, .part, true, 4, 1, 0, 1, 0⟩
  | .dirSnapCmdBaseGran => ⟨.dir, 0x080, 8, 21, .wo, 0x0, .part, true, 4, 1, 0, 1, 0⟩
  | .dirSnapCmdVersion => ⟨.dir, 0x080, 32, 32, .wo, 0x0, .part, true, 4, 1, 0, 1, 0⟩
  | .dirSnapStatusBusy => .mkRo .dir 0x088 0 1 0x0 .part
  | .dirSnapStatusResult => .mkRo .dir 0x088 1 3 0x0 .part
  | .dirSnapStatusVersion => .mkRo .dir 0x088 32 32 0x0 .part
  | .dirSnapSelBaseGran => ⟨.dir, 0x090, 0, 21, .rw, 0x0, .part, true, 4, 1, 0, 1, 0⟩
  | .dirSnapInfoNewest => .mkRo .dir 0x098 0 32 0x0 .part
  | .dirSnapInfoLive => .mkRo .dir 0x098 32 7 0x0 .part
  | .dirSnapInfoDraftOpen => .mkRo .dir 0x098 39 1 0x0 .part
  | .dirSnapInfoOpenValid => .mkRo .dir 0x098 40 1 0x0 .part
  | .dirSnapOpenOpenVersion => .mkRo .dir 0x0A0 0 32 0x0 .part
  | .dirReserveGranules => ⟨.dir, 0x0A8, 0, 21, .rwl, 0x0, .dev, false, 2, 1, 0, 1, 0⟩
  | .dirReserveUseChargedBlk => .mkRo .dir 0x0B0 0 36 0x0 .dev
  | .dirReserveHeldHeldBlk => .mkRo .dir 0x0B8 0 36 0x0 .dev
  -- TIER page
  | .tierCfgIoTimeout => ⟨.tier, 0x040, 0, 10, .rw, 0x64, .dev, false, 2, 1, 0, 1, 0⟩
  | .tierCfgFreeLow => ⟨.tier, 0x040, 16, 8, .rw, 0x4, .dev, false, 1, 1, 0, 1, 0⟩
  | .tierCfgFreeHigh => ⟨.tier, 0x040, 24, 8, .rw, 0x8, .dev, false, 1, 1, 0, 1, 0⟩
  | .tierCfgWrReserve => ⟨.tier, 0x040, 32, 12, .rw, 0x400, .dev, false, 2, 1, 0, 1, 0⟩
  | .tierCapacityExportGran => .mkRo .tier 0x048 0 21 0x0 .dev
  | .tierCapacitySsdGib => .mkRo .tier 0x048 32 17 0x0 .dev
  | .tierCacheUseFreeMib => .mkRo .tier 0x050 0 32 0x0 .dev
  | .tierCacheUseDirtyMib => .mkRo .tier 0x050 32 32 0x0 .dev
  | .tierRebuildSlot => .mkRo .tier 0x058 0 3 0x0 .dev
  | .tierRebuildActive => .mkRo .tier 0x058 3 1 0x0 .dev
  | .tierRebuildRate => ⟨.tier, 0x058, 4, 4, .rw, 0x4, .dev, false, 2, 1, 0, 1, 0⟩
  | .tierRebuildPermille => .mkRo .tier 0x058 8 10 0x0 .dev
  | .tierHintBaseBase => ⟨.tier, 0x060, 12, 52, .rw, 0x0, .part, true, 4, 1, 0, 1, 0⟩
  | .tierHintCtrlEnable => ⟨.tier, 0x068, 0, 1, .rw, 0x0, .part, true, 4, 1, 0, 1, 0⟩
  | .tierHintCtrlHalted => .mkRo .tier 0x068 1 1 0x0 .part
  | .tierHintCtrlSize => ⟨.tier, 0x068, 2, 4, .rw, 0x0, .part, true, 4, 1, 0, 1, 0⟩
  | .tierHintCtrlCause => .mkRo .tier 0x068 6 3 0x0 .part
  | .tierHintCtrlHaltStatus => .mkRo .tier 0x068 16 16 0x0 .part
  | .tierHintProdProducer => ⟨.tier, 0x070, 0, 32, .rw, 0x0, .part, true, 4, 1, 0, 1, 0⟩
  | .tierHintConsConsumer => .mkRo .tier 0x078 0 32 0x0 .part
  | .tierHintConsIgnored => .mkRo .tier 0x078 32 32 0x0 .part
  | .tierPinLimitGib => ⟨.tier, 0x080, 0, 11, .rw, 0x0, .part, false, 1, 1, 0, 1, 0⟩
  | .tierPinPinnedGib => .mkRo .tier 0x080 32 11 0x0 .part
  | .tierFillStatsFills => .mkRo .tier 0x088 0 32 0x0 .part
  | .tierFillStatsSlowFills => .mkRo .tier 0x088 32 32 0x0 .part
  | .tierLostLostBlk => .mkRo .tier 0x090 0 36 0x0 .dev
  | .tierLostHeldFrames => .mkRo .tier 0x090 36 28 0x0 .dev
  | .tierSlotCtrlLocate => ⟨.tier, 0x0C0, 0, 1, .rw, 0x0, .slot, false, 2, 1, 0, 1, 0⟩
  | .tierSlotCtrlAutoPower => ⟨.tier, 0x0C0, 1, 1, .rw, 0x1, .slot, false, 2, 1, 0, 1, 0⟩
  | .tierSlotCtrlButton => ⟨.tier, 0x0C0, 2, 1, .wo, 0x0, .slot, false, 2, 1, 0, 1, 0⟩
  | .tierSlotStatusPresent => .mkRo .tier 0x0C8 0 1 0x0 .slot
  | .tierSlotStatusPwrEn => .mkRo .tier 0x0C8 1 1 0x0 .slot
  | .tierSlotStatusPwrgd => .mkRo .tier 0x0C8 2 1 0x0 .slot
  | .tierSlotStatusPathAUp => .mkRo .tier 0x0C8 3 1 0x0 .slot
  | .tierSlotStatusPathBUp => .mkRo .tier 0x0C8 4 1 0x0 .slot
  | .tierSlotStatusState => .mkRo .tier 0x0C8 5 3 0x0 .slot
  | .tierSlotStatusFault => .mkRo .tier 0x0C8 8 8 0x0 .slot
  | .tierSlotStatusPwrInd => .mkRo .tier 0x0C8 16 2 0x0 .slot
  | .tierSlotStatusAttnInd => .mkRo .tier 0x0C8 18 2 0x0 .slot
  | .tierSlotIoErrors => .mkRo .tier 0x0D0 0 32 0x0 .slot
  | .tierSlotIoTimeouts => .mkRo .tier 0x0D0 32 32 0x0 .slot
  -- CMP page
  | .cmpCfgBgEn => ⟨.cmp, 0x040, 0, 1, .rw, 0x1, .all, false, 1, 1, 0, 1, 0⟩
  | .cmpCfgBgShare => ⟨.cmp, 0x040, 8, 8, .rw, 0x10, .all, false, 1, 1, 0, 1, 0⟩
  | .cmpCfgCostMax => ⟨.cmp, 0x040, 16, 9, .rw, 0x98, .all, false, 1, 1, 0, 1, 0⟩
  | .cmpKindsAZeroBlk => .mkRo .cmp 0x048 0 32 0x0
  | .cmpKindsAConstBlk => .mkRo .cmp 0x048 32 32 0x0
  | .cmpKindsBResidBlk => .mkRo .cmp 0x050 0 32 0x0
  | .cmpKindsBLowrankBlk => .mkRo .cmp 0x050 32 32 0x0
  | .cmpPackingSavedMib => .mkRo .cmp 0x058 0 32 0x0
  | .cmpCompactionAdmitted => .mkRo .cmp 0x060 0 32 0x0
  | .cmpCompactionStoredRaw => .mkRo .cmp 0x060 32 32 0x0
  | .cmpCompactFaultsVerifyFail => .mkRo .cmp 0x068 0 32 0x0
  | .cmpCompactFaultsStale => .mkRo .cmp 0x068 32 32 0x0
  | .cmpCheckFailsIndex => .mkRo .cmp 0x070 0 16 0x0
  | .cmpCheckFailsHeader => .mkRo .cmp 0x070 16 16 0x0
  | .cmpCheckFailsFactor => .mkRo .cmp 0x070 32 16 0x0
  | .cmpCheckFailsResidual => .mkRo .cmp 0x070 48 16 0x0
  | .cmpLastDamageLocal => .mkRo .cmp 0x078 0 28 0x0
  | .cmpLastDamageCluster => .mkRo .cmp 0x078 28 8 0x0
  | .cmpLastDamageCause => .mkRo .cmp 0x078 36 4 0x0
  | .cmpLastDamagePitchLow => .mkRo .cmp 0x078 40 24 0x0
  | .cmpExpanderExpanded => .mkRo .cmp 0x080 0 32 0x0
  | .cmpExpanderBacklog => .mkRo .cmp 0x080 32 32 0x0
  | .cmpExpSelCluster => ⟨.cmp, 0x088, 0, 8, .rw, 0x0, .all, false, 1, 1, 0, 1, 0⟩
  | .cmpExpLoadMeanCost => .mkRo .cmp 0x090 0 9 0x0
  | .cmpExpLoadQueuePeak => .mkRo .cmp 0x090 16 5 0x0
  | .cmpExpLoadCacheHits => .mkRo .cmp 0x090 32 32 0x0
  -- JOB page
  | .jobStatsCompleted => .mkRo .job 0x040 0 32 0x0
  | .jobStatsFailed => .mkRo .job 0x040 32 32 0x0
  | .jobStepStatsReruns => .mkRo .job 0x048 0 32 0x0
  | .jobStepStatsOverruns => .mkRo .job 0x048 32 32 0x0
  | .jobWindowsOpen => .mkRo .job 0x050 0 9 0x0
  | .jobLastFailStatus => .mkRo .job 0x058 0 16 0x0
  | .jobLastFailRing => .mkRo .job 0x058 16 6 0x0
  | .jobLastFailIndex => .mkRo .job 0x058 32 32 0x0
  | .jobRingBaseBase => ⟨.job, 0x100, 7, 57, .rw, 0x0, .all, true, 1, 64, 32, 1, 0⟩
  | .jobRingCtrlEnable => ⟨.job, 0x108, 0, 1, .rw, 0x0, .all, true, 1, 64, 32, 1, 0⟩
  | .jobRingCtrlHost => ⟨.job, 0x108, 1, 1, .rw, 0x0, .all, true, 1, 64, 32, 1, 0⟩
  | .jobRingCtrlSize => ⟨.job, 0x108, 2, 4, .rw, 0x0, .all, true, 1, 64, 32, 1, 0⟩
  | .jobRingCtrlStopOnError => ⟨.job, 0x108, 6, 1, .rw, 0x0, .all, true, 1, 64, 32, 1, 0⟩
  | .jobRingCtrlInflight => ⟨.job, 0x108, 8, 8, .rw, 0x40, .all, true, 1, 64, 32, 1, 0⟩
  | .jobRingStatusHalted => ⟨.job, 0x110, 0, 1, .ro, 0x0, .all, false, 4, 64, 32, 1, 0⟩
  | .jobRingStatusCause => ⟨.job, 0x110, 1, 3, .ro, 0x0, .all, false, 4, 64, 32, 1, 0⟩
  | .jobRingStatusHaltStatus => ⟨.job, 0x110, 16, 16, .ro, 0x0, .all, false, 4, 64, 32, 1, 0⟩
  | .jobRingStatusFirstUndone => ⟨.job, 0x110, 32, 32, .ro, 0x0, .all, false, 4, 64, 32, 1, 0⟩
  | .jobRingCountRunning => ⟨.job, 0x118, 0, 9, .ro, 0x0, .all, false, 4, 64, 32, 1, 0⟩
  | .jobRingCountDone => ⟨.job, 0x118, 32, 32, .ro, 0x0, .all, false, 4, 64, 32, 1, 0⟩
  -- QOS page
  | .qosCfgMode => ⟨.qos, 0x040, 0, 1, .rw, 0x0, .dev, false, 1, 1, 0, 1, 0⟩
  | .qosCfgAgeMax => ⟨.qos, 0x040, 8, 8, .rw, 0x14, .dev, false, 1, 1, 0, 1, 0⟩
  | .qosCfgGuarEntries => ⟨.qos, 0x040, 16, 5, .rw, 0x8, .dev, false, 1, 1, 0, 1, 0⟩
  | .qosCfgReclaimRate => ⟨.qos, 0x040, 24, 8, .rw, 0x10, .dev, false, 1, 1, 0, 1, 0⟩
  | .qosGuarGbS => ⟨.qos, 0x048, 0, 15, .rw, 0x0, .partDev, false, 1, 1, 0, 1, 0⟩
  | .qosGuarGbSActive => .mkRo .qos 0x048 32 15 0x0 .partDev
  | .qosClassCfgFrameShare => ⟨.qos, 0x050, 0, 9, .rw, 0x100, .cls, false, 1, 1, 0, 1, 0⟩
  | .qosClassCfgCacheWays => ⟨.qos, 0x050, 16, 5, .rw, 0x10, .cls, false, 1, 1, 0, 1, 0⟩
  | .qosClassCfgQueueEntries => ⟨.qos, 0x050, 24, 7, .rw, 0x40, .cls, false, 1, 1, 0, 1, 0⟩
  | .qosClassCfgBudget => ⟨.qos, 0x050, 32, 16, .rw, 0x0, .cls, false, 1, 1, 0, 1, 0⟩
  | .qosClassCfgBudgetActive => .mkRo .qos 0x050 48 16 0x0 .cls
  | .qosReclaimStart => ⟨.qos, 0x058, 0, 1, .rw, 0x0, .cls, false, 1, 1, 0, 1, 0⟩
  | .qosReclaimRunning => .mkRo .qos 0x058 1 1 0x0 .cls
  | .qosBytesRdBytes => .mkRo .qos 0x060 0 64 0x0 .partCls
  | .qosBytesWrBytes => .mkRo .qos 0x068 0 64 0x0 .partCls
  | .qosOccIntIntegral => .mkRo .qos 0x070 0 64 0x0 .partCls
  | .qosPitchesPitchesOver => .mkRo .qos 0x078 0 32 0x0 .partCls
  | .qosPitchesPitchesShort => .mkRo .qos 0x078 32 32 0x0 .part
  | .qosRawBytes => .mkRo .qos 0x080 0 64 0x0 .partCls
  | .qosCodedStoredBytes => .mkRo .qos 0x088 0 64 0x0 .partCls
  | .qosCodedDeliveredBytes => .mkRo .qos 0x090 0 64 0x0 .partCls
  | .qosFramesHeldMib => .mkRo .qos 0x098 0 32 0x0 .cls
  | .qosFramesOverMib => .mkRo .qos 0x098 32 32 0x0 .cls
  | .qosDevloadLight => .mkRo .qos 0x0A0 0 16 0x0 .part
  | .qosDevloadOptimal => .mkRo .qos 0x0A0 16 16 0x0 .part
  | .qosDevloadModerate => .mkRo .qos 0x0A0 32 16 0x0 .part
  | .qosDevloadSevere => .mkRo .qos 0x0A0 48 16 0x0 .part
  | .qosHotPc => .mkRo .qos 0x0A8 0 6 0x0 .dev
  | .qosHotCluster => .mkRo .qos 0x0A8 6 4 0x0 .dev
  | .qosHotDie => .mkRo .qos 0x0A8 10 4 0x0 .dev
  | .qosHotClass => .mkRo .qos 0x0A8 14 4 0x0 .dev
  | .qosHotOcc => .mkRo .qos 0x0A8 24 7 0x0 .dev
  -- PC page
  | .pcCfgPdTimer => ⟨.pc, 0x040, 0, 8, .rw, 0xA, .all, false, 2, 1, 0, 1, 0⟩
  | .pcCfgTrrThresh => ⟨.pc, 0x040, 8, 6, .rw, 0x10, .all, false, 2, 1, 0, 1, 0⟩
  | .pcCfgTrrDecay => ⟨.pc, 0x040, 16, 8, .rw, 0x20, .all, false, 2, 1, 0, 1, 0⟩
  | .pcCfgOpenTimeout => ⟨.pc, 0x040, 24, 8, .rw, 0x14, .all, false, 2, 1, 0, 1, 0⟩
  | .pcCfgFreezeHold => ⟨.pc, 0x040, 32, 10, .rw, 0x1F4, .all, false, 2, 1, 0, 1, 0⟩
  | .pcCfgRowHitMax => ⟨.pc, 0x040, 42, 3, .rw, 0x4, .all, false, 2, 1, 0, 1, 0⟩
  | .pcCfgRetrainDelta => ⟨.pc, 0x040, 45, 5, .rw, 0xA, .all, false, 2, 1, 0, 1, 0⟩
  | .pcTempTempC => .mkRo .pc 0x048 0 8 0x0
  | .pcTempRefresh2x => .mkRo .pc 0x048 8 1 0x0
  | .pcTempThrottle => .mkRo .pc 0x048 9 2 0x0
  | .pcTempTempTrained => .mkRo .pc 0x048 12 8 0x0
  | .pcTempTempPeak => .mkRo .pc 0x048 20 8 0x0
  | .pcStateState => .mkRo .pc 0x050 0 3 0x0
  | .pcStateQueued => .mkRo .pc 0x050 3 7 0x0
  | .pcStateInOrder => .mkRo .pc 0x050 10 6 0x0
  | .pcStateRanksPd => .mkRo .pc 0x050 16 2 0x0
  | .pcFreezeInfoCause => .mkRo .pc 0x058 0 2 0x0
  | .pcFreezeInfoRank => .mkRo .pc 0x058 2 1 0x0
  | .pcFreezeInfoBank => .mkRo .pc 0x058 3 4 0x0
  | .pcFreezeInfoRow => .mkRo .pc 0x058 7 16 0x0
  | .pcFreezeInfoColumn => .mkRo .pc 0x058 23 5 0x0
  | .pcFreezeInfoHeld => .mkRo .pc 0x058 28 7 0x0
  | .pcFreezeInfoErrors => .mkRo .pc 0x058 35 5 0x0
  | .pcFreezeInfoPitchLow => .mkRo .pc 0x058 40 24 0x0
  | .pcFreezeActAction => ⟨.pc, 0x060, 0, 2, .wo, 0x0, .all, false, 2, 1, 0, 1, 0⟩
  | .pcDramStatsActivates => .mkRo .pc 0x068 0 32 0x0
  | .pcDramStatsInOrderEntries => .mkRo .pc 0x068 32 32 0x0
  | .pcRefreshStatsTrr => .mkRo .pc 0x070 0 32 0x0
  | .pcRefreshStatsPostponed => .mkRo .pc 0x070 32 16 0x0
  | .pcRefreshStatsRetired => .mkRo .pc 0x070 48 16 0x0
  | .pcTrainCtrlRun => ⟨.pc, 0x078, 0, 1, .wo, 0x0, .all, false, 2, 1, 0, 1, 0⟩
  | .pcTrainCtrlPattern => ⟨.pc, 0x078, 1, 3, .rw, 0x0, .all, false, 2, 1, 0, 1, 0⟩
  | .pcTrainCtrlReadOnly => ⟨.pc, 0x078, 4, 1, .rw, 0x0, .all, false, 2, 1, 0, 1, 0⟩
  | .pcTrainCtrlDone => .mkRo .pc 0x078 5 1 0x0
  | .pcTrainCtrlRefused => .mkRo .pc 0x078 6 1 0x0
  | .pcTrainCtrlLoops => ⟨.pc, 0x078, 16, 16, .rw, 0x1, .all, false, 2, 1, 0, 1, 0⟩
  | .pcTrainAddrRank => ⟨.pc, 0x080, 0, 1, .rw, 0x0, .all, false, 2, 1, 0, 1, 0⟩
  | .pcTrainAddrBank => ⟨.pc, 0x080, 1, 4, .rw, 0x0, .all, false, 2, 1, 0, 1, 0⟩
  | .pcTrainAddrRow => ⟨.pc, 0x080, 5, 16, .rw, 0xFFFF, .all, false, 2, 1, 0, 1, 0⟩
  | .pcTrainAddrRows => ⟨.pc, 0x080, 32, 16, .rw, 0x1, .all, false, 2, 1, 0, 1, 0⟩
  | .pcTrainUserPattern => ⟨.pc, 0x088, 0, 64, .rw, 0x0, .all, false, 2, 1, 0, 1, 0⟩
  | .pcTrainLanesLaneFail => .mkRo .pc 0x090 0 64 0x0
  | .pcTrainResultMismatches => .mkRo .pc 0x098 0 32 0x0
  | .pcTrainResultFirstFail => .mkRo .pc 0x098 32 32 0x0
  -- STORE page
  | .storeCfgBgtestEn => ⟨.store, 0x040, 0, 1, .rw, 0x1, .all, false, 2, 1, 0, 1, 0⟩
  | .storeBgtestRegion => .mkRo .store 0x048 0 11 0x0
  | .storeBgtestBank => .mkRo .store 0x048 11 2 0x0
  | .storeBgtestPhase => .mkRo .store 0x048 13 2 0x0
  | .storeBgtestLate => .mkRo .store 0x048 16 16 0x0
  | .storeBgtestPasses => .mkRo .store 0x048 32 32 0x0
  | .storeRepairSparesLeft => .mkRo .store 0x050 0 8 0xFF
  | .storeRepairBankFailed => .mkRo .store 0x050 8 4 0x0
  | .storeRepairTestFails => .mkRo .store 0x050 32 32 0x0
  | .storeConflictsStalls => .mkRo .store 0x058 0 32 0x0
  | .storeConflictsPromotions => .mkRo .store 0x058 32 32 0x0
  | .storeRetainInRetention => .mkRo .store 0x060 0 1 0x0
  | .storeRetainWakes => .mkRo .store 0x060 32 32 0x0
  -- RAS page
  | .rasCfgScrubHours => ⟨.ras, 0x040, 0, 8, .rw, 0x18, .all, false, 2, 1, 0, 1, 0⟩
  | .rasCfgScrubEn => ⟨.ras, 0x040, 8, 1, .rw, 0x1, .all, false, 2, 1, 0, 1, 0⟩
  | .rasCfgAutoRetire => ⟨.ras, 0x040, 9, 1, .rw, 0x1, .all, false, 2, 1, 0, 1, 0⟩
  | .rasCfgCeRetire => ⟨.ras, 0x040, 16, 8, .rw, 0x3, .all, false, 2, 1, 0, 1, 0⟩
  | .rasScrubStatusK => .mkRo .ras 0x048 0 11 0x80
  | .rasScrubStatusPermille => .mkRo .ras 0x048 12 10 0x0
  | .rasScrubStatusPasses => .mkRo .ras 0x048 32 32 0x0
  | .rasLineErrsCeLines => .mkRo .ras 0x050 0 32 0x0
  | .rasLineErrsUeLines => .mkRo .ras 0x050 32 32 0x0
  | .rasSramErrsCe => .mkRo .ras 0x058 0 32 0x0
  | .rasSramErrsUe => .mkRo .ras 0x058 32 32 0x0
  | .rasPoisonPoisonReads => .mkRo .ras 0x060 0 32 0x0
  | .rasPoisonViralIgnored => .mkRo .ras 0x060 32 32 0x0
  | .rasRetiredBlocks => .mkRo .ras 0x068 0 16 0x0
  | .rasRetiredRows => .mkRo .ras 0x068 16 16 0x0
  | .rasRetiredBanks => .mkRo .ras 0x068 32 16 0x0
  | .rasRetiredPcs => .mkRo .ras 0x068 48 16 0x0
  | .rasLastUePc => .mkRo .ras 0x070 0 10 0x0
  | .rasLastUeRank => .mkRo .ras 0x070 10 1 0x0
  | .rasLastUeBank => .mkRo .ras 0x070 11 4 0x0
  | .rasLastUeRow => .mkRo .ras 0x070 15 16 0x0
  | .rasLastUeColumn => .mkRo .ras 0x070 31 5 0x0
  | .rasLastUeSource => .mkRo .ras 0x070 36 4 0x0
  | .rasLastUePitchLow => .mkRo .ras 0x070 40 24 0x0
  | .rasRetireCmdOp => ⟨.ras, 0x078, 0, 3, .wo, 0x0, .all, false, 2, 1, 0, 1, 0⟩
  | .rasRetireCmdPc => ⟨.ras, 0x078, 4, 10, .wo, 0x0, .all, false, 2, 1, 0, 1, 0⟩
  | .rasRetireCmdRank => ⟨.ras, 0x078, 14, 1, .wo, 0x0, .all, false, 2, 1, 0, 1, 0⟩
  | .rasRetireCmdBank => ⟨.ras, 0x078, 15, 4, .wo, 0x0, .all, false, 2, 1, 0, 1, 0⟩
  | .rasRetireCmdRow => ⟨.ras, 0x078, 19, 16, .wo, 0x0, .all, false, 2, 1, 0, 1, 0⟩
  | .rasRetireStatusBusy => .mkRo .ras 0x080 0 1 0x0
  | .rasRetireStatusResult => .mkRo .ras 0x080 1 3 0x0
  | .rasRetireStatusSparesMin => .mkRo .ras 0x080 16 12 0x800
  | .rasSpareSelPc => ⟨.ras, 0x088, 0, 10, .rw, 0x0, .all, false, 1, 1, 0, 1, 0⟩
  | .rasSpareInfoBlocksLeft => .mkRo .ras 0x090 0 12 0x800
  | .rasSpareInfoPprLeft => .mkRo .ras 0x090 16 7 0x40
  | .rasSpareInfoBanksOut => .mkRo .ras 0x090 32 32 0x0
  -- CAIRN page
  | .cairnCfgSpillEn => ⟨.cairn, 0x040, 0, 1, .rw, 0x1, .all, false, 2, 1, 0, 1, 0⟩
  | .cairnCfgStreamEn => ⟨.cairn, 0x040, 1, 1, .rw, 0x1, .all, false, 2, 1, 0, 1, 0⟩
  | .cairnCfgConsoleEn => ⟨.cairn, 0x040, 2, 1, .rw, 0x0, .all, false, 2, 1, 0, 1, 0⟩
  | .cairnCfgConsoleSev => ⟨.cairn, 0x040, 3, 3, .rw, 0x3, .all, false, 2, 1, 0, 1, 0⟩
  | .cairnStatusLogDegraded => .mkRo .cairn 0x048 0 1 0x0
  | .cairnStatusFailed => .mkRo .cairn 0x048 1 2 0x0
  | .cairnStatusStreaming => .mkRo .cairn 0x048 3 1 0x0
  | .cairnStatusLeader => .mkRo .cairn 0x048 4 1 0x0
  | .cairnHeadNextSeq => .mkRo .cairn 0x050 0 40 0x0
  | .cairnOldestOldestSeq => .mkRo .cairn 0x058 0 40 0x0
  | .cairnReadSeqSeq => ⟨.cairn, 0x060, 0, 40, .rw, 0x0, .all, false, 1, 1, 0, 1, 0⟩
  | .cairnReadSeqValid => .mkRo .cairn 0x060 40 1 0x0
  | .cairnReadSeqGone => .mkRo .cairn 0x060 41 1 0x0
  | .cairnReadSeqFuture => .mkRo .cairn 0x060 42 1 0x0
  | .cairnReadSeqFromSpill => .mkRo .cairn 0x060 43 1 0x0
  | .cairnCoalesceStatsLatched => .mkRo .cairn 0x068 0 32 0x0
  | .cairnCoalesceStatsSummaries => .mkRo .cairn 0x068 32 32 0x0
  | .cairnStreamStatsSent => .mkRo .cairn 0x070 0 32 0x0
  | .cairnStreamStatsReceived => .mkRo .cairn 0x070 32 32 0x0
  | .cairnLrStatsLrNext => .mkRo .cairn 0x078 0 3 0x0
  | .cairnLrStatsLrWritten => .mkRo .cairn 0x078 16 32 0x0
  | .cairnRecordWord => ⟨.cairn, 0x080, 0, 64, .ro, 0x0, .all, false, 4, 8, 8, 1, 0⟩
  -- BELAY page
  | .belayCfgPairEn => ⟨.belay, 0x040, 0, 1, .rwl, 0x0, .all, false, 2, 1, 0, 1, 0⟩
  | .belayCfgPairRank => ⟨.belay, 0x040, 1, 1, .rwl, 0x0, .all, false, 2, 1, 0, 1, 0⟩
  | .belayCfgMode => ⟨.belay, 0x040, 2, 2, .rw, 0x0, .all, false, 2, 1, 0, 1, 0⟩
  | .belayCfgWitnessEn => ⟨.belay, 0x040, 4, 1, .rwl, 0x1, .all, false, 2, 1, 0, 1, 0⟩
  | .belayCfgWitnessWait => ⟨.belay, 0x040, 8, 7, .rw, 0x50, .all, false, 2, 1, 0, 1, 0⟩
  | .belayCfgResyncRate => ⟨.belay, 0x040, 16, 8, .rw, 0x40, .all, false, 2, 1, 0, 1, 0⟩
  | .belayStatusRole => .mkRo .belay 0x048 0 2 0x0
  | .belayStatusModeActive => .mkRo .belay 0x048 2 2 0x0
  | .belayStatusGroupsUp => .mkRo .belay 0x048 4 4 0x0
  | .belayStatusState => .mkRo .belay 0x048 8 4 0x0
  | .belayStatusWitnessValid => .mkRo .belay 0x048 12 1 0x0
  | .belayStatusWitnessMs => .mkRo .belay 0x048 16 16 0x0
  | .belayCtrlRetrain => ⟨.belay, 0x050, 0, 1, .wo, 0x0, .all, false, 1, 1, 0, 1, 0⟩
  | .belayCtrlSwap => ⟨.belay, 0x050, 1, 1, .wo, 0x0, .all, false, 2, 1, 0, 1, 0⟩
  | .belayCtrlApprove => ⟨.belay, 0x050, 2, 1, .wo, 0x0, .all, false, 2, 1, 0, 1, 0⟩
  | .belayCtrlLeave => ⟨.belay, 0x050, 3, 1, .wo, 0x0, .all, false, 2, 1, 0, 1, 0⟩
  | .belayWitnessRenew => ⟨.belay, 0x058, 0, 1, .wo, 0x0, .all, false, 1, 1, 0, 1, 0⟩
  | .belayResyncProgDoneSeg => .mkRo .belay 0x060 0 32 0x0
  | .belayResyncProgTotalSeg => .mkRo .belay 0x060 32 32 0x0
  | .belayResyncInfoActive => .mkRo .belay 0x068 0 1 0x0
  | .belayResyncInfoFull => .mkRo .belay 0x068 1 1 0x0
  | .belayResyncInfoChangedSeg => .mkRo .belay 0x068 32 32 0x0
  | .belayDigestStatsCompared => .mkRo .belay 0x070 0 32 0x0
  | .belayDigestStatsMismatches => .mkRo .belay 0x070 32 32 0x0
  | .belayTwinStatsGivenUp => .mkRo .belay 0x078 0 16 0x0
  | .belayTwinStatsHbMissed => .mkRo .belay 0x078 16 4 0x0
  | .belayTwinStatsRetrains => .mkRo .belay 0x078 32 32 0x0
  | .belayForwardStatsFwdReq => .mkRo .belay 0x080 0 32 0x0
  | .belayForwardStatsFencedWrites => .mkRo .belay 0x080 32 32 0x0
  | .belayJournalApplied => .mkRo .belay 0x088 0 32 0x0
  | .belayJournalPending => .mkRo .belay 0x088 32 16 0x0
  | .belayGroupsUp => ⟨.belay, 0x090, 0, 1, .ro, 0x0, .all, false, 4, 4, 0, 4, 8⟩
  | .belayGroupsHalf => ⟨.belay, 0x090, 1, 1, .ro, 0x0, .all, false, 4, 4, 0, 4, 8⟩
  | .belayGroupsRetrains => ⟨.belay, 0x090, 2, 6, .ro, 0x0, .all, false, 4, 4, 0, 4, 8⟩
  -- PWR page
  | .pwrCfgAutoFloor => ⟨.pwr, 0x040, 0, 3, .rw, 0x2, .all, false, 1, 1, 0, 1, 0⟩
  | .pwrIdleTimersP1Us => ⟨.pwr, 0x048, 0, 16, .rw, 0x64, .all, false, 1, 1, 0, 1, 0⟩
  | .pwrIdleTimersP2Ms => ⟨.pwr, 0x048, 16, 16, .rw, 0xA, .all, false, 1, 1, 0, 1, 0⟩
  | .pwrIdleTimersP3Ms => ⟨.pwr, 0x048, 32, 16, .rw, 0x3E8, .all, false, 1, 1, 0, 1, 0⟩
  | .pwrIdleTimersP4S => ⟨.pwr, 0x048, 48, 16, .rw, 0x3C, .all, false, 1, 1, 0, 1, 0⟩
  | .pwrCtrlTarget => ⟨.pwr, 0x050, 0, 3, .rw, 0x0, .all, false, 1, 1, 0, 1, 0⟩
  | .pwrCtrlWarmReset => ⟨.pwr, 0x050, 3, 1, .wo, 0x0, .all, false, 2, 1, 0, 1, 0⟩
  | .pwrStatusRung => .mkRo .pwr 0x058 0 3 0x0
  | .pwrStatusEntering => .mkRo .pwr 0x058 3 1 0x0
  | .pwrStatusExiting => .mkRo .pwr 0x058 4 1 0x0
  | .pwrStatusPending => .mkRo .pwr 0x058 5 1 0x0
  | .pwrStatusLastWake => .mkRo .pwr 0x058 6 4 0x0
  | .pwrResidencyPitches => ⟨.pwr, 0x060, 0, 64, .ro, 0x0, .all, false, 4, 4, 8, 1, 0⟩
  | .pwrTransitionsEntries => .mkRo .pwr 0x080 0 32 0x0
  | .pwrTransitionsAborted => .mkRo .pwr 0x080 32 32 0x0
  | .pwrExitTimeLastUs => .mkRo .pwr 0x088 0 32 0x0
  | .pwrExitTimeWorstUs => .mkRo .pwr 0x088 32 32 0x0
  | .pwrClusterResetCluster => ⟨.pwr, 0x090, 0, 8, .wo, 0x0, .all, false, 2, 1, 0, 1, 0⟩
  | .pwrClusterResetGo => ⟨.pwr, 0x090, 8, 1, .wo, 0x0, .all, false, 2, 1, 0, 1, 0⟩
  | .pwrClusterResetBusy => .mkRo .pwr 0x090 9 1 0x0
  | .pwrResetCauseCause => .mkRo .pwr 0x098 0 3 0x0
  | .pwrBootAltImage => .mkRo .pwr 0x0A0 0 1 0x0
  | .pwrBootBootMs => .mkRo .pwr 0x0A0 16 16 0x0
  | .pwrBootRestored => .mkRo .pwr 0x0A0 32 11 0x0
  | .pwrBootTrained => .mkRo .pwr 0x0A0 43 11 0x0
  -- ROLE page
  | .roleStatusOpen => .mkRo .role 0x040 0 4 0x0
  | .roleStatusInstallerOn => .mkRo .role 0x040 4 1 0x0
  | .roleStatusMakerOn => .mkRo .role 0x040 5 1 0x0
  | .roleStatusMakerAvail => .mkRo .role 0x040 6 1 0x0
  | .roleStatusEnrolled => .mkRo .role 0x040 7 1 0x0
  | .roleStatusCaller => .mkRo .role 0x040 8 2 0x0
  | .roleAnchorCtrlSlot => ⟨.role, 0x048, 0, 3, .rw, 0x0, .all, false, 2, 1, 0, 1, 0⟩
  | .roleAnchorCtrlCommit => ⟨.role, 0x048, 3, 1, .wo, 0x0, .all, false, 2, 1, 0, 1, 0⟩
  | .roleAnchorCtrlClear => ⟨.role, 0x048, 4, 1, .wo, 0x0, .all, false, 2, 1, 0, 1, 0⟩
  | .roleAnchorCtrlValid => .mkRo .role 0x048 5 1 0x0
  | .roleAnchorCtrlInstaller => ⟨.role, 0x048, 6, 1, .rw, 0x0, .all, false, 2, 1, 0, 1, 0⟩
  | .roleAnchorHashHash => ⟨.role, 0x050, 0, 64, .rw, 0x0, .all, false, 2, 6, 8, 1, 0⟩
  | .roleIdePolicyRequired => ⟨.role, 0x080, 0, 16, .rwl, 0x0, .all, false, 2, 1, 0, 1, 0⟩
  | .roleIdePolicyActive => .mkRo .role 0x080 16 16 0x0
  | .roleDeniedWrites => .mkRo .role 0x088 0 32 0x0
  | .roleDeniedSessionsRefused => .mkRo .role 0x088 32 32 0x0
  | .roleAuditsRecords => .mkRo .role 0x090 0 32 0x0
  | .roleFwCtrlOp => ⟨.role, 0x098, 0, 2, .wo, 0x0, .all, false, 2, 1, 0, 1, 0⟩
  | .roleFwStatusStaged => .mkRo .role 0x0A0 0 2 0x0
  | .roleFwStatusSlot => .mkRo .role 0x0A0 2 1 0x0
  | .roleFwStatusTwinMatch => .mkRo .role 0x0A0 3 1 0x0
  | .roleFwStatusRunningSvn => .mkRo .role 0x0A0 16 16 0x0
  | .roleFwStatusStagedSvn => .mkRo .role 0x0A0 32 16 0x0
  | .roleFwStatusMinSvn => .mkRo .role 0x0A0 48 16 0x0
  | .roleKeysMaster => .mkRo .role 0x0A8 0 16 0x0
  | .roleKeysEpochsRetired => .mkRo .role 0x0A8 32 32 0x0
  -- ID page
  | .idProductDevice => .mkRo .id 0x040 0 16 0x9240
  | .idProductEngineDies => .mkRo .id 0x040 16 8 0x10
  | .idProductPortDies => .mkRo .id 0x040 24 4 0x4
  | .idProductMakerPart => .mkRo .id 0x040 28 1 0x0
  | .idProductConfig => .mkRo .id 0x040 32 4 0x0
  | .idSerialSerial => .mkRo .id 0x048 0 64 0x0
  | .idSiliconStepping => .mkRo .id 0x050 0 8 0x0
  | .idFirmwareMajor => .mkRo .id 0x058 0 16 0x0
  | .idFirmwareMinor => .mkRo .id 0x058 16 16 0x0
  | .idFirmwarePairLevel => .mkRo .id 0x058 32 16 0x0
  | .idCdtOffset => .mkRo .id 0x060 0 24 0xC00000
  | .idCdtLength => .mkRo .id 0x060 32 23 0x0
  | .idBadAccessCount => .mkRo .id 0x068 0 32 0x0
  | .idConfigSelTiered => ⟨.id, 0x070, 0, 1, .rwl, 0x0, .all, false, 2, 1, 0, 1, 0⟩
  -- PIN page
  | .pinSlewSlew => ⟨.pin, 0x040, 0, 2, .rwl, 0x0, .all, false, 2, 7, 0, 7, 2⟩
  | .pinFilterFilt => ⟨.pin, 0x048, 0, 2, .rwl, 0x1, .all, false, 2, 7, 0, 7, 2⟩
  | .pinMfpCfgFunc => ⟨.pin, 0x050, 0, 4, .rwl, 0x0, .all, false, 2, 64, 8, 8, 8⟩
  | .pinMfpCfgGpioOut => ⟨.pin, 0x050, 4, 1, .rw, 0x0, .all, false, 2, 64, 8, 8, 8⟩
  | .pinMfpCfgPullUp => ⟨.pin, 0x050, 5, 1, .rwl, 0x0, .all, false, 2, 64, 8, 8, 8⟩
  | .pinMfpInLevel => .mkRo .pin 0x090 0 64 0x0
  | .pinMfpParkingParking => .mkRo .pin 0x098 0 64 0x0
  | .pinStrapsMakerEn => .mkRo .pin 0x0A0 0 1 0x0
  | .pinRailsVinLOk => .mkRo .pin 0x0A8 0 1 0x0
  | .pinRailsVinDOk => .mkRo .pin 0x0A8 1 1 0x0
  | .pinRailsVddSdOk => .mkRo .pin 0x0A8 2 1 0x0
  | .pinRailsVddIoOk => .mkRo .pin 0x0A8 3 1 0x0
  | .pinRailsLastFault => .mkRo .pin 0x0A8 8 3 0x0
  | .pinThermalDramMaxC => .mkRo .pin 0x0B0 0 8 0x0
  | .pinThermalLogicMaxC => .mkRo .pin 0x0B0 8 8 0x0
  | .pinThermalLogicPeakC => .mkRo .pin 0x0B0 16 8 0x0
  | .pinThermalFlowOk => .mkRo .pin 0x0B0 24 1 0x1
  | .pinThermalFlowThrottle => .mkRo .pin 0x0B0 25 1 0x0
  | .pinDriveTrimTrim => ⟨.pin, 0x0B8, 0, 6, .rw, 0x20, .all, false, 3, 1, 0, 1, 0⟩

/-- The fields of the PITCH page. -/
def Fld.pitchAll : List Fld :=
  [.pitchCfgLen, .pitchCfgLenActive, .pitchCfgSyncOutEn, .pitchCountCount, .pitchPhasePhase,
   .pitchPhaseTwinOffset, .pitchAlignAligned, .pitchAlignMode, .pitchAlignHoldover,
   .pitchLateCountLate, .pitchAlignLossCountLosses, .pitchSchedCfgStealEn, .pitchSchedCfgNeighEn,
   .pitchSchedCfgTraverseEn, .pitchSchedCfgRebalEn, .pitchSchedCfgStepMax,
   .pitchSchedCfgWatchdog, .pitchSchedCfgParkMax, .pitchWmarkStepFloor, .pitchWmarkEvictBufs,
   .pitchWmarkRspBufs, .pitchWmarkFillBufs, .pitchStealCountLocal, .pitchStealCountNeighbour,
   .pitchTraverseCountTraverses, .pitchTraverseCountRebalanced, .pitchParkStatsParks,
   .pitchParkStatsFloorWaits, .pitchOverrunStatsOverruns, .pitchOverrunStatsShrinks,
   .pitchWatchdogStatsTrips, .pitchWatchdogStatsCoresOut, .pitchRemapDiesOut,
   .pitchRemapRemapped, .pitchLoadSelCluster, .pitchLoadQueued, .pitchLoadParked,
   .pitchLoadRunning, .pitchLoadGranFree, .pitchLoadRspFree, .pitchLoadFillFree]

/-- The fields of the PORT page. -/
def Fld.portAll : List Fld :=
  [.portLinkCfgMaxRate, .portLinkCfgL0pEn, .portLinkStatusRate, .portLinkStatusWidth,
   .portLinkStatusFlit256, .portLinkStatusUp, .portLinkStatusPartner128, .portLinkStatusCapped64,
   .portLinkStatusLaneFail, .portLinkCtrlRetrain, .portLinkCtrlDisable, .portBindParts,
   .portBindFmLd, .portErrCountRxErr, .portErrCountReplays, .portErrCountRetrains,
   .portErrCountEqFail128]

/-- The fields of the PART page. -/
def Fld.partAll : List Fld :=
  [.partCfgLeaseMs, .partLeaseRenew, .partLeaseExpired, .partLeaseRemainingMs,
   .partLeaseRenewals, .partStateState, .partStateHeads, .partStateExtents, .partHeldGranules,
   .partOrphanAtPitch, .partLateRenewLate]

/-- The fields of the EXT page. -/
def Fld.extAll : List Fld :=
  [.extCursorIndex, .extBaseBaseGran, .extLengthLenGran, .extAttrClass, .extAttrPageHint,
   .extAttrTier, .extAttrElem, .extAttrTile, .extAttrProtected, .extAttrSharing, .extAttrOwner,
   .extStateState, .extStateValid, .extStateHolders, .extStateGen, .extCountExtents,
   .extCountFreeGran, .extSanitiseRate, .extSanitisePendingGran]

/-- The fields of the DIR page. -/
def Fld.dirAll : List Fld :=
  [.dirCfgBiTimeout, .dirOccupancyTracked, .dirOccupancyCoarse, .dirCapEvictEvictions,
   .dirCapEvictVictimWaits, .dirBiStatsBiSent, .dirBiStatsBiTimeouts, .dirCrossingsWbCross,
   .dirCrossingsCleanCross, .dirBiFailedHeads, .dirSnapCmdOp, .dirSnapCmdBaseGran,
   .dirSnapCmdVersion, .dirSnapStatusBusy, .dirSnapStatusResult, .dirSnapStatusVersion,
   .dirSnapSelBaseGran, .dirSnapInfoNewest, .dirSnapInfoLive, .dirSnapInfoDraftOpen,
   .dirSnapInfoOpenValid, .dirSnapOpenOpenVersion, .dirReserveGranules, .dirReserveUseChargedBlk,
   .dirReserveHeldHeldBlk]

/-- The fields of the TIER page. -/
def Fld.tierAll : List Fld :=
  [.tierCfgIoTimeout, .tierCfgFreeLow, .tierCfgFreeHigh, .tierCfgWrReserve,
   .tierCapacityExportGran, .tierCapacitySsdGib, .tierCacheUseFreeMib, .tierCacheUseDirtyMib,
   .tierRebuildSlot, .tierRebuildActive, .tierRebuildRate, .tierRebuildPermille,
   .tierHintBaseBase, .tierHintCtrlEnable, .tierHintCtrlHalted, .tierHintCtrlSize,
   .tierHintCtrlCause, .tierHintCtrlHaltStatus, .tierHintProdProducer, .tierHintConsConsumer,
   .tierHintConsIgnored, .tierPinLimitGib, .tierPinPinnedGib, .tierFillStatsFills,
   .tierFillStatsSlowFills, .tierLostLostBlk, .tierLostHeldFrames, .tierSlotCtrlLocate,
   .tierSlotCtrlAutoPower, .tierSlotCtrlButton, .tierSlotStatusPresent, .tierSlotStatusPwrEn,
   .tierSlotStatusPwrgd, .tierSlotStatusPathAUp, .tierSlotStatusPathBUp, .tierSlotStatusState,
   .tierSlotStatusFault, .tierSlotStatusPwrInd, .tierSlotStatusAttnInd, .tierSlotIoErrors,
   .tierSlotIoTimeouts]

/-- The fields of the CMP page. -/
def Fld.cmpAll : List Fld :=
  [.cmpCfgBgEn, .cmpCfgBgShare, .cmpCfgCostMax, .cmpKindsAZeroBlk, .cmpKindsAConstBlk,
   .cmpKindsBResidBlk, .cmpKindsBLowrankBlk, .cmpPackingSavedMib, .cmpCompactionAdmitted,
   .cmpCompactionStoredRaw, .cmpCompactFaultsVerifyFail, .cmpCompactFaultsStale,
   .cmpCheckFailsIndex, .cmpCheckFailsHeader, .cmpCheckFailsFactor, .cmpCheckFailsResidual,
   .cmpLastDamageLocal, .cmpLastDamageCluster, .cmpLastDamageCause, .cmpLastDamagePitchLow,
   .cmpExpanderExpanded, .cmpExpanderBacklog, .cmpExpSelCluster, .cmpExpLoadMeanCost,
   .cmpExpLoadQueuePeak, .cmpExpLoadCacheHits]

/-- The fields of the JOB page. -/
def Fld.jobAll : List Fld :=
  [.jobStatsCompleted, .jobStatsFailed, .jobStepStatsReruns, .jobStepStatsOverruns,
   .jobWindowsOpen, .jobLastFailStatus, .jobLastFailRing, .jobLastFailIndex, .jobRingBaseBase,
   .jobRingCtrlEnable, .jobRingCtrlHost, .jobRingCtrlSize, .jobRingCtrlStopOnError,
   .jobRingCtrlInflight, .jobRingStatusHalted, .jobRingStatusCause, .jobRingStatusHaltStatus,
   .jobRingStatusFirstUndone, .jobRingCountRunning, .jobRingCountDone]

/-- The fields of the QOS page. -/
def Fld.qosAll : List Fld :=
  [.qosCfgMode, .qosCfgAgeMax, .qosCfgGuarEntries, .qosCfgReclaimRate, .qosGuarGbS,
   .qosGuarGbSActive, .qosClassCfgFrameShare, .qosClassCfgCacheWays, .qosClassCfgQueueEntries,
   .qosClassCfgBudget, .qosClassCfgBudgetActive, .qosReclaimStart, .qosReclaimRunning,
   .qosBytesRdBytes, .qosBytesWrBytes, .qosOccIntIntegral, .qosPitchesPitchesOver,
   .qosPitchesPitchesShort, .qosRawBytes, .qosCodedStoredBytes, .qosCodedDeliveredBytes,
   .qosFramesHeldMib, .qosFramesOverMib, .qosDevloadLight, .qosDevloadOptimal,
   .qosDevloadModerate, .qosDevloadSevere, .qosHotPc, .qosHotCluster, .qosHotDie, .qosHotClass,
   .qosHotOcc]

/-- The fields of the PC page. -/
def Fld.pcAll : List Fld :=
  [.pcCfgPdTimer, .pcCfgTrrThresh, .pcCfgTrrDecay, .pcCfgOpenTimeout, .pcCfgFreezeHold,
   .pcCfgRowHitMax, .pcCfgRetrainDelta, .pcTempTempC, .pcTempRefresh2x, .pcTempThrottle,
   .pcTempTempTrained, .pcTempTempPeak, .pcStateState, .pcStateQueued, .pcStateInOrder,
   .pcStateRanksPd, .pcFreezeInfoCause, .pcFreezeInfoRank, .pcFreezeInfoBank, .pcFreezeInfoRow,
   .pcFreezeInfoColumn, .pcFreezeInfoHeld, .pcFreezeInfoErrors, .pcFreezeInfoPitchLow,
   .pcFreezeActAction, .pcDramStatsActivates, .pcDramStatsInOrderEntries, .pcRefreshStatsTrr,
   .pcRefreshStatsPostponed, .pcRefreshStatsRetired, .pcTrainCtrlRun, .pcTrainCtrlPattern,
   .pcTrainCtrlReadOnly, .pcTrainCtrlDone, .pcTrainCtrlRefused, .pcTrainCtrlLoops,
   .pcTrainAddrRank, .pcTrainAddrBank, .pcTrainAddrRow, .pcTrainAddrRows, .pcTrainUserPattern,
   .pcTrainLanesLaneFail, .pcTrainResultMismatches, .pcTrainResultFirstFail]

/-- The fields of the STORE page. -/
def Fld.storeAll : List Fld :=
  [.storeCfgBgtestEn, .storeBgtestRegion, .storeBgtestBank, .storeBgtestPhase, .storeBgtestLate,
   .storeBgtestPasses, .storeRepairSparesLeft, .storeRepairBankFailed, .storeRepairTestFails,
   .storeConflictsStalls, .storeConflictsPromotions, .storeRetainInRetention, .storeRetainWakes]

/-- The fields of the RAS page. -/
def Fld.rasAll : List Fld :=
  [.rasCfgScrubHours, .rasCfgScrubEn, .rasCfgAutoRetire, .rasCfgCeRetire, .rasScrubStatusK,
   .rasScrubStatusPermille, .rasScrubStatusPasses, .rasLineErrsCeLines, .rasLineErrsUeLines,
   .rasSramErrsCe, .rasSramErrsUe, .rasPoisonPoisonReads, .rasPoisonViralIgnored,
   .rasRetiredBlocks, .rasRetiredRows, .rasRetiredBanks, .rasRetiredPcs, .rasLastUePc,
   .rasLastUeRank, .rasLastUeBank, .rasLastUeRow, .rasLastUeColumn, .rasLastUeSource,
   .rasLastUePitchLow, .rasRetireCmdOp, .rasRetireCmdPc, .rasRetireCmdRank, .rasRetireCmdBank,
   .rasRetireCmdRow, .rasRetireStatusBusy, .rasRetireStatusResult, .rasRetireStatusSparesMin,
   .rasSpareSelPc, .rasSpareInfoBlocksLeft, .rasSpareInfoPprLeft, .rasSpareInfoBanksOut]

/-- The fields of the CAIRN page. -/
def Fld.cairnAll : List Fld :=
  [.cairnCfgSpillEn, .cairnCfgStreamEn, .cairnCfgConsoleEn, .cairnCfgConsoleSev,
   .cairnStatusLogDegraded, .cairnStatusFailed, .cairnStatusStreaming, .cairnStatusLeader,
   .cairnHeadNextSeq, .cairnOldestOldestSeq, .cairnReadSeqSeq, .cairnReadSeqValid,
   .cairnReadSeqGone, .cairnReadSeqFuture, .cairnReadSeqFromSpill, .cairnCoalesceStatsLatched,
   .cairnCoalesceStatsSummaries, .cairnStreamStatsSent, .cairnStreamStatsReceived,
   .cairnLrStatsLrNext, .cairnLrStatsLrWritten, .cairnRecordWord]

/-- The fields of the BELAY page. -/
def Fld.belayAll : List Fld :=
  [.belayCfgPairEn, .belayCfgPairRank, .belayCfgMode, .belayCfgWitnessEn, .belayCfgWitnessWait,
   .belayCfgResyncRate, .belayStatusRole, .belayStatusModeActive, .belayStatusGroupsUp,
   .belayStatusState, .belayStatusWitnessValid, .belayStatusWitnessMs, .belayCtrlRetrain,
   .belayCtrlSwap, .belayCtrlApprove, .belayCtrlLeave, .belayWitnessRenew,
   .belayResyncProgDoneSeg, .belayResyncProgTotalSeg, .belayResyncInfoActive,
   .belayResyncInfoFull, .belayResyncInfoChangedSeg, .belayDigestStatsCompared,
   .belayDigestStatsMismatches, .belayTwinStatsGivenUp, .belayTwinStatsHbMissed,
   .belayTwinStatsRetrains, .belayForwardStatsFwdReq, .belayForwardStatsFencedWrites,
   .belayJournalApplied, .belayJournalPending, .belayGroupsUp, .belayGroupsHalf,
   .belayGroupsRetrains]

/-- The fields of the PWR page. -/
def Fld.pwrAll : List Fld :=
  [.pwrCfgAutoFloor, .pwrIdleTimersP1Us, .pwrIdleTimersP2Ms, .pwrIdleTimersP3Ms,
   .pwrIdleTimersP4S, .pwrCtrlTarget, .pwrCtrlWarmReset, .pwrStatusRung, .pwrStatusEntering,
   .pwrStatusExiting, .pwrStatusPending, .pwrStatusLastWake, .pwrResidencyPitches,
   .pwrTransitionsEntries, .pwrTransitionsAborted, .pwrExitTimeLastUs, .pwrExitTimeWorstUs,
   .pwrClusterResetCluster, .pwrClusterResetGo, .pwrClusterResetBusy, .pwrResetCauseCause,
   .pwrBootAltImage, .pwrBootBootMs, .pwrBootRestored, .pwrBootTrained]

/-- The fields of the ROLE page. -/
def Fld.roleAll : List Fld :=
  [.roleStatusOpen, .roleStatusInstallerOn, .roleStatusMakerOn, .roleStatusMakerAvail,
   .roleStatusEnrolled, .roleStatusCaller, .roleAnchorCtrlSlot, .roleAnchorCtrlCommit,
   .roleAnchorCtrlClear, .roleAnchorCtrlValid, .roleAnchorCtrlInstaller, .roleAnchorHashHash,
   .roleIdePolicyRequired, .roleIdePolicyActive, .roleDeniedWrites, .roleDeniedSessionsRefused,
   .roleAuditsRecords, .roleFwCtrlOp, .roleFwStatusStaged, .roleFwStatusSlot,
   .roleFwStatusTwinMatch, .roleFwStatusRunningSvn, .roleFwStatusStagedSvn, .roleFwStatusMinSvn,
   .roleKeysMaster, .roleKeysEpochsRetired]

/-- The fields of the ID page. -/
def Fld.idAll : List Fld :=
  [.idProductDevice, .idProductEngineDies, .idProductPortDies, .idProductMakerPart,
   .idProductConfig, .idSerialSerial, .idSiliconStepping, .idFirmwareMajor, .idFirmwareMinor,
   .idFirmwarePairLevel, .idCdtOffset, .idCdtLength, .idBadAccessCount, .idConfigSelTiered]

/-- The fields of the PIN page. -/
def Fld.pinAll : List Fld :=
  [.pinSlewSlew, .pinFilterFilt, .pinMfpCfgFunc, .pinMfpCfgGpioOut, .pinMfpCfgPullUp,
   .pinMfpInLevel, .pinMfpParkingParking, .pinStrapsMakerEn, .pinRailsVinLOk, .pinRailsVinDOk,
   .pinRailsVddSdOk, .pinRailsVddIoOk, .pinRailsLastFault, .pinThermalDramMaxC,
   .pinThermalLogicMaxC, .pinThermalLogicPeakC, .pinThermalFlowOk, .pinThermalFlowThrottle,
   .pinDriveTrimTrim]

/-- The fields of a page type, in the tables' order. -/
def Fld.ofBlk : Blk → List Fld
  | .pitch => Fld.pitchAll
  | .port => Fld.portAll
  | .part => Fld.partAll
  | .ext => Fld.extAll
  | .dir => Fld.dirAll
  | .tier => Fld.tierAll
  | .cmp => Fld.cmpAll
  | .job => Fld.jobAll
  | .qos => Fld.qosAll
  | .pc => Fld.pcAll
  | .store => Fld.storeAll
  | .ras => Fld.rasAll
  | .cairn => Fld.cairnAll
  | .belay => Fld.belayAll
  | .pwr => Fld.pwrAll
  | .role => Fld.roleAll
  | .id => Fld.idAll
  | .pin => Fld.pinAll

end Sys2Proof.Machine
end

