-- ==== Sys2Proof/Machine/Ops.lean ====
section
/-! DEFINITION. The named operations over the maps, the memory, the registers, the links and the partitions
of the state. Every meaning reads and writes the state through them. -/

namespace Sys2Proof.Machine

open Sys2Proof

/-! ### Maps -/

/-- The value of a key, or `d`. -/
def aget {κ α : Type} [DecidableEq κ] (m : Assoc κ α) (k : κ) (d : α) : α :=
  match m with
  | [] => d
  | e :: r => if e.1 = k then e.2 else aget r k d

/-- The map without a key. -/
def adel {κ α : Type} [DecidableEq κ] (m : Assoc κ α) (k : κ) : Assoc κ α :=
  m.filter fun e => decide (e.1 ≠ k)

/-- The map with a key set. -/
def aset {κ α : Type} [DecidableEq κ] (m : Assoc κ α) (k : κ) (v : α) : Assoc κ α := (k, v) :: adel m k

/-- The map with a key's value changed; `d` stands for an absent one. -/
def aupd {κ α : Type} [DecidableEq κ] (m : Assoc κ α) (k : κ) (d : α) (f : α → α) : Assoc κ α :=
  aset m k (f (aget m k d))

/-- A key is listed. -/
def ahas {κ α : Type} [DecidableEq κ] (m : Assoc κ α) (k : κ) : Bool := m.any fun e => decide (e.1 = k)

/-- Add an element to a list that serves as a set. -/
def ins {α : Type} [DecidableEq α] (l : List α) (x : α) : List α := if x ∈ l then l else x :: l

/-- Remove an element from a list that serves as a set. -/
def rem {α : Type} [DecidableEq α] (l : List α) (x : α) : List α := l.filter fun y => decide (y ≠ x)

/-! ### Bits -/

/-- The bits of `n` from `lo`, `w` of them. -/
def bitsAt (n lo w : Nat) : Nat := n / 2 ^ lo % 2 ^ w

/-- `n` with bit `i` set. -/
def bitOn (n i : Nat) : Nat := if n.testBit i then n else n + 2 ^ i

/-- `n` with bit `i` clear. -/
def bitOff (n i : Nat) : Nat := if n.testBit i then n - 2 ^ i else n

/-- The numbers of the bits set in the low `w` bits. -/
def bitList (n w : Nat) : List Nat := (List.range w).filter fun i => n.testBit i

/-- The bitmap of a list of bit numbers. -/
def bitMapOf (l : List Nat) : Nat := l.foldl bitOn 0

/-- Round up to a multiple of `k`. -/
def ceilDiv (a k : Nat) : Nat := (a + k - 1) / k

/-! ### Byte memory: sorted, no listed zero (11 R249: every line is filled with zeroes) -/

namespace Memory

/-- The byte at an address; an unlisted address reads 0. -/
def get : List Host.Cell → Nat → Byte
  | [], _ => 0
  | c :: r, a => if c.1 = a then c.2 else get r a

/-- Write one byte, keeping the canonical form. -/
def set : List Host.Cell → Nat → Byte → List Host.Cell
  | [], a, v => if v = 0 then [] else [(a, v)]
  | c :: r, a, v =>
    if c.1 < a then c :: set r a v
    else if c.1 = a then (if v = 0 then r else (a, v) :: r)
    else if v = 0 then c :: r else (a, v) :: c :: r

/-- Every address of a list exceeds `lo`, rises strictly, and no byte is 0. -/
def wfFrom : List Host.Cell → Nat → Bool
  | [], _ => true
  | c :: r, lo => decide (lo ≤ c.1) && decide (c.2 ≠ 0) && wfFrom r (c.1 + 1)

/-- The canonical form: addresses strictly rising, no listed byte equal to what an unlisted one reads. -/
def wf (m : List Host.Cell) : Bool := wfFrom m 0

/-- Read `n` bytes. -/
def read (m : List Host.Cell) (a n : Nat) : List Byte := (List.range n).map fun i => get m (a + i)

/-- Write bytes from an address on. -/
def write : List Host.Cell → Nat → List Byte → List Host.Cell
  | m, _, [] => m
  | m, a, b :: bs => write (set m a b) (a + 1) bs

/-- Zero the bytes of `[lo, hi)`. -/
def zero (m : List Host.Cell) (lo hi : Nat) : List Host.Cell :=
  m.filter fun c => decide (c.1 < lo ∨ hi ≤ c.1)

end Memory

/-! ### Register fields -/

/-- The stored value of a field; an unlisted field reads its reset value. -/
def fget (s : State) (f : Fld) (i : Nat := 0) (j : Nat := 0) : Nat := aget s.regs ⟨f, i, j⟩ f.desc.rst

/-- Store a field, cut to its width. -/
def fset (s : State) (f : Fld) (v : Nat) (i : Nat := 0) (j : Nat := 0) : State :=
  { s with regs := aset s.regs ⟨f, i, j⟩ (v % 2 ^ f.desc.w) }

/-- The value of a field that is in force: a write that waits for a pitch boundary leaves the former one. -/
def fcur (s : State) (f : Fld) (i : Nat := 0) (j : Nat := 0) : Nat := aget s.lag ⟨f, i, j⟩ (fget s f i j)

/-- Store a field whose new value takes effect later: the value in force stays. -/
def fsetLate (s : State) (f : Fld) (v : Nat) (i : Nat := 0) (j : Nat := 0) : State :=
  fset { s with lag := aset s.lag ⟨f, i, j⟩ (fcur s f i j) } f v i j

/-- Store a field whose new value is in force. -/
def fsetNow (s : State) (f : Fld) (v : Nat) (i : Nat := 0) (j : Nat := 0) : State :=
  fset { s with lag := adel s.lag ⟨f, i, j⟩ } f v i j

/-- Waiting values of the fields that a test selects take effect. -/
def fcatch (s : State) (p : Fld → Bool) : State := { s with lag := s.lag.filter fun e => !p e.1.fld }

/-- Add to a counter that saturates. -/
def fadd (s : State) (f : Fld) (n : Nat) (i : Nat := 0) (j : Nat := 0) : State :=
  fset s f (min (fget s f i j + n) (2 ^ f.desc.w - 1)) i j

/-- Increment a counter that saturates. -/
def finc (s : State) (f : Fld) (i : Nat := 0) (j : Nat := 0) : State := fadd s f 1 i j

/-- Increment a counter that wraps. -/
def fwrap (s : State) (f : Fld) (i : Nat := 0) (j : Nat := 0) : State := fset s f (fget s f i j + 1) i j

/-- A field at its reset value. -/
def freset (s : State) (f : Fld) (i : Nat := 0) (j : Nat := 0) : State :=
  { s with regs := adel s.regs ⟨f, i, j⟩ }

/-- Drop every stored field that a test selects: those read their reset values again. -/
def fclear (s : State) (p : RegKey → Bool) : State := { s with regs := s.regs.filter fun e => !p e.1 }

/-- A page's header. -/
def hget (s : State) (b : Blk) (i : Nat) : Hdr := aget s.hdr ⟨b, i⟩ {}

/-- Change a page's header. -/
def hupd (s : State) (b : Blk) (i : Nat) (f : Hdr → Hdr) : State := { s with hdr := aupd s.hdr ⟨b, i⟩ {} f }

/-! ### Free values and messages -/

/-- A value that the spec leaves open: the next draw of `Config.freeValue`. -/
def draw (s : State) : Nat × State := (Config.freeValue s.free, { s with free := s.free + 1 })

/-- Send a message to the environment. -/
def emit (s : State) (m : Msg) : State := { s with out := m :: s.out }

/-! ### Time -/

/-- TIMEBASE_IN cycles in a pitch of a setting (01 Table 1.6). -/
def cyclesOf (len : Nat) : Nat := 500 * 2 ^ len

/-- TIMEBASE_IN cycles in a pitch of the setting in force. -/
def pitchCycles (s : State) : Nat := cyclesOf (fget s .pitchCfgLenActive)

/-- TIMEBASE_IN cycles in the current pitch: the setting, and what the alignment of a pair adds (01 R25). -/
def pitchLength (s : State) : Nat := ((pitchCycles s : Int) + s.tb.adjust).toNat

/-- Length of the pitch in force in µs. -/
def pitchUs (s : State) : Nat := pitchCycles s / 100

/-- Time since cold power-on, in TIMEBASE_IN cycles of 10 ns. -/
def now (s : State) : Nat := s.tb.clock + s.tb.phase

/-- 1 ms in TIMEBASE_IN cycles. -/
def msCycles : Nat := 100000

/-- PITCH.COUNT. -/
def count (s : State) : Nat := s.tb.count

/-! ### Sub-records -/

def headOf (s : State) (h : Nat) : HeadState := aget s.heads h {}
def headUpd (s : State) (h : Nat) (f : HeadState → HeadState) : State :=
  { s with heads := aupd s.heads h {} f }
def cfgOf (s : State) (o : Nat) : PartCfg := aget s.cfgs o {}
def cfgUpd (s : State) (o : Nat) (f : PartCfg → PartCfg) : State := { s with cfgs := aupd s.cfgs o {} f }
def partOf (s : State) (p : Nat) : PartState := aget s.parts p {}
def partUpd (s : State) (p : Nat) (f : PartState → PartState) : State :=
  { s with parts := aupd s.parts p {} f }
def pcOf (s : State) (pc : Nat) : PcState := aget s.pcs pc {}
def pcUpd (s : State) (pc : Nat) (f : PcState → PcState) : State := { s with pcs := aupd s.pcs pc {} f }
def slotOf (s : State) (k : Nat) : SlotState := aget s.slots k {}
def slotUpd (s : State) (k : Nat) (f : SlotState → SlotState) : State :=
  { s with slots := aupd s.slots k {} f }
/-- Rings are numbered partition × 64 + ring. -/
def ringKey (p r : Nat) : Nat := p * 64 + r
def ringOf (s : State) (p r : Nat) : RingState := aget s.rings (ringKey p r) {}
def ringUpd (s : State) (p r : Nat) (f : RingState → RingState) : State :=
  { s with rings := aupd s.rings (ringKey p r) {} f }

/-! ### Configuration of the package -/

/-- BELAY.STATUS.ROLE is lead or second: the package is paired. -/
def paired (s : State) : Bool :=
  decide (fget s .belayStatusRole = 1) || decide (fget s .belayStatusRole = 2)

/-- The twin is known to answer: paired and not lost. -/
def twinUp (s : State) : Bool := paired s && !s.belay.twinLost

/-- The package is in PAIR-D or PAIR-T (00 R4: a package whose pairing is refused is in SOLO). -/
def pairConfig (s : State) : Bool := paired s || decide (fget s .belayStatusRole = 3)

/-- CAURA_CAP.CONFIG (02 Table 2.3). -/
def configCode (s : State) : Nat := (if s.boot.tiered then 1 else 0) + (if pairConfig s then 2 else 0)

/-- Requests are served: the cores are released and no dead state holds (13 Table 13.4). -/
def running (s : State) : Bool :=
  match s.boot.phase with
  | .released | .active => true
  | _ => false

/-- Exported capacity in granules (00 Table 0.2). -/
def exportGran (s : State) : Nat :=
  if s.boot.tiered then (if s.boot.noCapacity then 0 else fget s .tierCapacityExportGran 0x10)
  else Config.granulesD

/-- Granule of a DPA. -/
def granOf (dpa : Nat) : Nat := dpa / Config.granBytes

/-- Line of a DPA. -/
def lineOf (dpa : Nat) : Nat := dpa / 64

/-! ### Partitions and heads -/

/-- The partition states of Table 3.6. -/
def pDisabled : Nat := 0
def pActive : Nat := 1
def pOrphaned : Nat := 2
def pReclaimed : Nat := 3

/-- PART.STATE.STATE. -/
def pState (s : State) (p : Nat) : Nat := fget s .partStateState p

/-- Heads bound to a partition; the fabric-manager logical device (16) is on every head (02 R35). -/
def boundHeads (s : State) (o : Nat) : List Nat :=
  if o = 16 then List.range 16 else bitList (fget s .partStateHeads o) 16

/-- A head carries a partition. -/
def carried (s : State) (p h : Nat) : Bool := (fget s .partStateHeads p).testBit h

/-- The LTSSM is in L0 or L0p. -/
def linkUp (s : State) (h : Nat) : Bool :=
  match (headOf s h).ltssm with
  | .l0 | .l0p => true
  | _ => false

/-- The head requires IDE and its streams are not Secure (14 R316). -/
def ideBlocks (s : State) (h : Nat) : Bool :=
  (fget s .roleIdePolicyRequired).testBit h && !(headOf s h).secure

/-- The bus-master head: the lowest bound head in L0 or L0p (02 R37); a head that waits for IDE issues no
bus-master request, and the jobs move (14 R316). -/
def masterHead (s : State) (o : Nat) : Option Nat :=
  (boundHeads s o).find? fun h => linkUp s h && !ideBlocks s h

/-- Bus-master requests of a partition may leave (02 R48, R37); those of an ORPHANED one end as with Bus Master Enable
clear (03 R72). -/
def canMaster (s : State) (o : Nat) : Bool :=
  (cfgOf s o).bme && (cfgOf s o).inReset.isNone && !(cfgOf s o).d3hot && !(cfgOf s o).ioLost && (masterHead s o).isSome && !(decide (o < 16) && decide (pState s o = pOrphaned))

/-- The ceiling of R46. -/
def tagCeiling (s : State) (o : Nat) : Nat :=
  let c := cfgOf s o
  let flit := match masterHead s o with
    | some h => decide (fget s .portLinkStatusFlit256 h = 1)
    | none => false
  if c.tag14 && flit then 1024 else if c.tag10 then 768 else 256

/-- TAG_LIMIT.EFFECTIVE (02 R46). -/
def tagEffective (s : State) (o : Nat) : Nat := min (cfgOf s o).tagLimit (tagCeiling s o)

/-- Tag values valid for the tag width in force; the ranges are PRESUMED (PCI Express Base; log 7). -/
def tagRange (s : State) (o : Nat) : Nat × Nat :=
  let n := tagCeiling s o
  if n = 1024 then (1024, 2048) else if n = 768 then (256, 1024) else (0, 256)

/-- The lowest free tag of a partition, where R46 lets one be used. -/
def freeTag (s : State) (o : Nat) : Option Nat :=
  let c := cfgOf s o
  let (lo, hi) := tagRange s o
  if c.tags.length < tagEffective s o then
    (List.range (hi - lo)).findSome? fun i =>
      if c.tags.any (fun t => t.num = lo + i) then none else some (lo + i)
  else none

/-! ### Activity -/

/-- A request made this pitch active (13 R294). -/
def touch (s : State) : State := { s with power := { s.power with activity := true } }

/-- A CXL.io request through a head: it makes the pitch active and shows on HEAD_ACT (13 R294; 16 R348). -/
def ioTouch (s : State) (h : Nat) : State := headUpd (touch s) h fun x => { x with tlpNow := true }

/-! ### Sessions -/

/-- Role of a session: 0 none, 1 operator, 2 installer, 3 maker (14 R307). -/
def roleOf (s : State) (ses : Nat) : Nat :=
  match s.sessions.find? (fun e => decide (e.1 = ses)) with
  | some (_, st) =>
    match st.role with
    | some .operator => 1
    | some .installer => 2
    | some .maker => 3
    | none => 0
  | none => 0

end Sys2Proof.Machine
end

