-- ==== Sys2Proof/Machine/Operands.lean ====
section
/-! DEFINITION. Operand forms: where an address lies (10 R220, R221; 05 R101, R118), where a BAR0 offset
leads (15 R332), how a payload and a descriptor are laid out (03 R78; 07 R161), and an extent's attributes
(03 Table 3.2). -/

namespace Sys2Proof.Machine

open Sys2Proof

/-! ### The address map (10 Table 10.1) -/

/-- E-die of an address: bits [22:19] XOR [29:26]. -/
def dieOf (a : Nat) : Nat := bitsAt a 19 4 ^^^ bitsAt a 26 4

/-- Cluster within the die: bits [18:15] XOR [33:30]. -/
def clusterInDie (a : Nat) : Nat := bitsAt a 15 4 ^^^ bitsAt a 30 4

/-- Global cluster. -/
def clusterOf (a : Nat) : Nat := dieOf a * 16 + clusterInDie a

/-- PC instance: E-die × 64 + cluster × 4 + bits [14:13] (10 R220, R243). -/
def pcOfAddr (a : Nat) : Nat := dieOf a * 64 + clusterInDie a * 4 + bitsAt a 13 2

/-- Global cluster of a PC instance. -/
def clusterOfPc (pc : Nat) : Nat := pc / 4

/-- A cell's place within its PC. -/
structure Loc where
  rank : Nat
  bank : Nat
  row : Nat
  col : Nat
  deriving DecidableEq, Repr

/-- Place of a BPA within its PC (10 Table 10.1). -/
def locOfBpa (a : Nat) : Loc :=
  { rank := bitsAt a 25 1, bank := bitsAt a 23 2 * 4 + bitsAt a 11 2, row := bitsAt a 26 16,
    col := bitsAt a 6 5 }

/-- Place of the k-th line of a PC, in address order (10 Table 10.1; 11 R252). -/
def locOfLine (k : Nat) : Loc := { rank := k / 512 % 2, bank := k / 128 % 4 * 4 + k / 32 % 4, row := k / 1024, col := k % 32 }

/-- Place of a DPA: in SOLO-D and PAIR-D the DPA is the BPA (05 R99); in the tiered configurations the line lies in the
place of the block's frame (05 R101; 06 R147), and a block without a frame has none: place 0. -/
def locOf (s : State) (dpa : Nat) : Loc :=
  if s.boot.tiered then
    match s.frames.find? fun f => decide (f.block = dpa / Config.blockBytes) with
    | some f => locOfLine (f.off + dpa / 64 % 128)
    | none => locOfLine 0
  else locOfBpa dpa

/-- Bank queue of a rank and bank, in the pick order of 10 R222. -/
def bankqOf (l : Loc) : Nat := l.bank * 2 + l.rank

/-- DPA of the line at a place of a PC, in SOLO-D: the inverse of Table 10.1. -/
def bpaOf (pc : Nat) (l : Loc) : Nat :=
  let hi := l.row * 2 ^ 26
  let die := pc / 64
  let cl := pc / 4 % 16
  hi + l.rank * 2 ^ 25 + l.bank / 4 * 2 ^ 23 + (die ^^^ bitsAt hi 26 4) * 2 ^ 19
    + (cl ^^^ bitsAt hi 30 4) * 2 ^ 15 + pc % 4 * 2 ^ 13 + l.bank % 4 * 2 ^ 11 + l.col * 2 ^ 6

/-- The k-th line of a PC in address order (11 R252): the line number within the package. -/
def scrubLineOf (pc k : Nat) : Nat :=
  bpaOf pc (locOfLine k) / 64

/-! ### Blocks (05 R101, R118) -/

/-- Block of a DPA. -/
def blockOf (dpa : Nat) : Nat := dpa / Config.blockBytes

/-- First DPA of a block. -/
def blockDpa (b : Nat) : Nat := b * Config.blockBytes

/-- Local number: DPA[48:23] × 4 + DPA[14:13]. -/
def localOf (b : Nat) : Nat := bitsAt (blockDpa b) 23 26 * 4 + bitsAt (blockDpa b) 13 2

/-- The block with local number `n` in global cluster `g`. -/
def blockOfLocal (g n : Nat) : Nat :=
  let hi := n / 4 * 2 ^ 23
  let die := g / 16
  let cl := g % 16
  (hi + (die ^^^ bitsAt hi 26 4) * 2 ^ 19 + (cl ^^^ bitsAt hi 30 4) * 2 ^ 15 + n % 4 * 2 ^ 13)
    / Config.blockBytes

/-- Global cluster of a block. -/
def blockCluster (b : Nat) : Nat := clusterOf (blockDpa b)

/-- Segment key: global cluster × 2^22 + m (06 Table 6.6, SEG_TAG). -/
def segOf (b : Nat) : Nat := blockCluster b * 2 ^ 22 + localOf b / 64

/-- Where a block lies in the stripes (05 R118). -/
structure Place where
  /-- stripe within the cluster -/
  t : Nat
  /-- data position -/
  j : Nat
  /-- stripe on every SSD -/
  u : Nat
  parity : Nat
  slot : Nat
  deriving DecidableEq, Repr

/-- The stripe layout. -/
def placeOf (b : Nat) : Place :=
  let n := localOf b
  let g := blockCluster b
  let t := n / 7
  let j := n % 7
  let p := (t + g) % 8
  { t := t, j := j, u := t * 256 + g, parity := p, slot := (p + 1 + j) % 8 }

/-- The seven data blocks of the stripe of a block, in order of data position. -/
def stripeBlocks (b : Nat) : List Nat :=
  (List.range 7).map fun j => blockOfLocal (blockCluster b) ((placeOf b).t * 7 + j)

/-! ### The page map (15 R332) -/

/-- The page and offset that a BAR0 offset leads to. -/
def pageAt (off : Nat) : Option (Blk × Nat × Nat) :=
  if off < 0x0010_0000 then none
  else
    let o := off - 0x0010_0000
    match blkOfCode (if o / 0x0040_0000 = 0 then 0x0001 else o / 0x0040_0000 * 16) with
    | some b =>
      let i := o % 0x0040_0000 / 0x1000
      if blkHasInst b i then some (b, i, o % 0x1000) else none
    | none => none

/-- BAR0 offset of a page (R332). -/
def pageOffset (b : Blk) (i : Nat) : Nat :=
  0x0010_0000 + blkCode b / 16 * 0x0040_0000 + i * 0x1000

/-! ### Attributes (03 Table 3.2) -/

/-- The bits of EXT.ATTR. -/
def attrBits (a : Attr) : Nat :=
  a.cls + a.pageHint * 2 ^ 4 + a.tier * 2 ^ 6 + a.elem * 2 ^ 8 + a.tile * 2 ^ 12 + a.prot * 2 ^ 14
    + a.sharing * 2 ^ 15 + a.owner * 2 ^ 17

/-- The attributes of EXT.ATTR bits. -/
def attrOf (n : Nat) : Attr :=
  { cls := bitsAt n 0 4, pageHint := bitsAt n 4 2, tier := bitsAt n 6 2, elem := bitsAt n 8 4,
    tile := bitsAt n 12 2, prot := bitsAt n 14 1, sharing := bitsAt n 15 2, owner := bitsAt n 17 4 }

/-- No reserved encoding (Table 3.2) and no bit above [20:0]. -/
def attrOk (n : Nat) : Bool :=
  let a := attrOf n
  decide (n < 2 ^ 21) && decide (a.pageHint ≠ 3) && decide (a.tier ≠ 3) && decide (a.elem ≤ 5)
    && decide (a.sharing ≠ 3)

/-! ### Job descriptors (07 Table 7.1) -/

/-- The descriptor of 128 bytes. -/
def descOf (bs : List Byte) : Desc :=
  let w := fun i => leAt bs (8 * i) 8
  let h := w 0
  { opcode := bitsAt h 0 8, subop := bitsAt h 8 8, cls := bitsAt h 16 4, irq := h.testBit 20,
    fence := h.testBit 21, singleRun := h.testBit 22, vector := bitsAt h 24 8, hostMem := bitsAt h 32 7,
    types := (List.range 6).map fun n => bitsAt (w 1) (8 * n) 8,
    ops := (List.range 6).map fun n => w (2 + n),
    n := bitsAt (w 8) 0 48, m := bitsAt (w 9) 0 48, p0 := w 10, p1 := w 11, program := w 12,
    completion := w 13, userTag := w 14 }

/-- A reserved bit of the descriptor is 1 (R161, R162). -/
def descReserved (bs : List Byte) : Bool :=
  let w := fun i => leAt bs (8 * i) 8
  (w 0).testBit 23 || decide (bitsAt (w 0) 39 25 ≠ 0) || decide (bitsAt (w 1) 48 16 ≠ 0)
    || decide (bitsAt (w 8) 48 16 ≠ 0) || decide (bitsAt (w 9) 48 16 ≠ 0) || decide (w 15 ≠ 0)

/-! ### Ring windows (02 Table 2.5) -/

/-- Key of a byte of device-resident ring memory in `State.ringMem`. -/
def ringMemKey (p off : Nat) : Nat := p * 2 ^ 30 + off

/-- Offset in BAR2 of descriptor `i` of ring `k` with 2^(size + 4) slots (07 R156). -/
def ringSlot (k size i : Nat) : Nat := k * 0x0100_0000 + 0x0080_0000 + i % 2 ^ (size + 4) * 128

end Sys2Proof.Machine
end

