-- ==== Sys2Proof/Machine/OpForms.lean ====
section
/-! DEFINITION. Job descriptors as operand ranges: what each operator of the catalogue reads and writes (07 Tables
7.6 to 7.9), the checks of R159 to R163, and the determinism classes (R169). -/

namespace Sys2Proof.Machine

open Sys2Proof

/-! ### Status codes (07 Table 7.4) and flags (Table 7.3) -/

def stOk : Nat := 0x00
def stBadDescriptor : Nat := 0x01
def stBadType : Nat := 0x02
def stBadOperand : Nat := 0x03
def stBadProgram : Nat := 0x04
def stBadWindow : Nat := 0x05
def stOutFull : Nat := 0x06
def stTableFull : Nat := 0x07
def stNotSorted : Nat := 0x08
def stExtentGone : Nat := 0x10
def stReadOnly : Nat := 0x11
def stBlockDamaged : Nat := 0x12
def stMediaError : Nat := 0x13
def stHostTimeout : Nat := 0x20
def stHostAbort : Nat := 0x21
def stHostPoison : Nat := 0x22
def stHeadLost : Nat := 0x23
def stMasterOff : Nat := 0x30
def stLeaseLost : Nat := 0x31
def stCancelled : Nat := 0x32
def stFenced : Nat := 0x33
def stTwinMismatch : Nat := 0x34

def flOverflow : Nat := 0
def flConvertSat : Nat := 1
def flClipped : Nat := 2
def flRerun : Nat := 3
def flOverrun : Nat := 4
def flSingle : Nat := 5

/-! ### Opcodes -/

def opFill : Nat := 0x01
def opCopy : Nat := 0x02
def opGather : Nat := 0x03
def opScatter : Nat := 0x04
def opCompare : Nat := 0x10
def opSearch : Nat := 0x11
def opHashBuild : Nat := 0x12
def opHashProbe : Nat := 0x13
def opIntersect : Nat := 0x20
def opUnion : Nat := 0x21
def opDifference : Nat := 0x22
def opCount : Nat := 0x23
def opDedup : Nat := 0x24
def opSort : Nat := 0x25
def opNeighbor : Nat := 0x30
def opBitmap : Nat := 0x31
def opReduce : Nat := 0x40
def opSegment : Nat := 0x41
def opWinOpen : Nat := 0x42
def opAccumulate : Nat := 0x43
def opWinCommit : Nat := 0x44
def opMap : Nat := 0x50
def opCompact : Nat := 0x60
def opExpand : Nat := 0x61
def opVerify : Nat := 0x62

/-- Largest SUBOP of an opcode (Tables 7.6 to 7.9); none for an undefined opcode. -/
def subopMax (op : Nat) : Option Nat :=
  match op with
  | 0x01 | 0x02 | 0x03 | 0x10 | 0x13 | 0x20 | 0x21 | 0x22 | 0x24 | 0x42 | 0x43 | 0x50 | 0x60 | 0x61 | 0x62 => some 0
  | 0x11 | 0x12 | 0x25 | 0x30 => some 1
  | 0x23 | 0x44 => some 2
  | 0x04 => some 3
  | 0x40 => some 4
  | 0x31 | 0x41 => some 5
  | _ => none

/-- OPCODE and SUBOP are defined. -/
def opDefined (d : Desc) : Bool :=
  match subopMax d.opcode with
  | some m => decide (d.subop ≤ m) && !(decide (d.opcode = opSegment) && decide (d.subop = 3 ∨ d.subop = 4))
  | none => false

/-- Determinism classes of R169. -/
inductive JobClass where
  | twin | single | both
  deriving DecidableEq, Repr

/-- Class of a job (R169). -/
def jobClass (d : Desc) : JobClass :=
  if d.singleRun then .single
  else if d.opcode = opHashBuild then (if d.subop = 1 then .twin else .single)
  else if d.opcode = opCompact ∨ d.opcode = opExpand then .single
  else if d.opcode = opVerify then .both
  else .twin

/-! ### Operand slots -/

/-- Type of a slot, and its address. -/
def ty (d : Desc) (k : Nat) : Nat := d.types.getD k 0
def opAddr (d : Desc) (k : Nat) : Nat := d.ops.getD k 0

/-- A slot carries an address or a type. -/
def slotSet (d : Desc) (k : Nat) : Bool := decide (ty d k ≠ 0) || decide (opAddr d k ≠ 0)

/-- The slot is a host address. -/
def isHost (d : Desc) (k : Nat) : Bool := d.hostMem.testBit k

/-- One operand of a job: slot (6 is PROGRAM), whether it is read and written, type, elements. -/
structure Rng where
  slot : Nat
  inp : Bool
  out : Bool
  typ : Nat
  n : Nat
  deriving DecidableEq, Repr

def rin (k t n : Nat) : Rng := ⟨k, true, false, t, n⟩
def rout (k t n : Nat) : Rng := ⟨k, false, true, t, n⟩
def rio (k t n : Nat) : Rng := ⟨k, true, true, t, n⟩

/-- Bytes of `n` elements of a type; MX scales start at the next 64-byte boundary (R168). -/
def typeSize (t n : Nat) : Nat :=
  if (typeMx t).isSome then ceilDiv (ceilDiv (n * typeBits t) 8) 64 * 64 + n / 32
  else ceilDiv (n * typeBits t) 8

/-- Type codes of the integer tables: UINT64, and bytes. -/
def tU64 : Nat := 0x17
def tByte : Nat := 0x14
def tBit : Nat := 0x20

/-- An operand that the operator may do without. -/
def optional (d : Desc) (k : Nat) (r : Rng) : List Rng := if slotSet d k then [r] else []

/-- Elements of the group in REDUCE. -/
def groupLen (d : Desc) : Nat := if d.p0 = 0 then d.n else d.p0

/-- The operands of a job. The neighbour list of NEIGHBOR-GATHER and the state that a window COMMIT reads are not
sized by the descriptor; they are found when the job runs. -/
def rngs (d : Desc) : List Rng :=
  let t := ty d
  let n := d.n
  let m := d.m
  match d.opcode with
  | 0x01 => [rout 0 (t 0) n]
  | 0x02 => [rin 0 (t 0) n, rout 1 (t 1) n]
  | 0x03 => [rin 0 (t 0) (m * d.p0), rin 1 (t 1) n, rout 2 (t 2) (n * d.p0)]
  | 0x04 => [rin 0 (t 0) (n * d.p0), rin 1 (t 1) n, rio 2 (t 2) (m * d.p0)]
  | 0x10 => [rin 0 (t 0) n, rin 1 (t 1) n] ++ optional d 2 (rout 2 (t 2) n)
  | 0x11 => [rin 0 (t 0) m, rin 1 (t 1) n, rout 2 (t 2) n]
  | 0x12 => [rin 0 (t 0) n] ++ optional d 1 (rin 1 (t 1) n) ++ [rio 2 tU64 (2 * d.p0)]
  | 0x13 => [rin 0 tU64 (2 * d.p0), rin 1 (t 1) n, rout 2 (t 2) n, rout 3 (t 3) n]
  | 0x20 | 0x21 | 0x22 => [rin 0 (t 0) n, rin 1 (t 1) m, rout 2 (t 2) d.p0]
  | 0x23 => [rin 0 (t 0) n, rin 1 (t 1) m]
  | 0x24 => [rin 0 (t 0) n, rout 1 (t 1) d.p0]
  | 0x25 => [rin 0 (t 0) n] ++ optional d 1 (rin 1 (t 1) n) ++ [rout 2 (t 2) n]
      ++ (if slotSet d 1 then [rout 3 (t 3) n] else [])
  | 0x30 => [rin 0 (t 0) (m + 1), rin 1 (t 1) 0, rin 2 (t 2) n]
      ++ optional d 3 (if d.subop = 1 then rio 3 (t 3) m else rin 3 (t 3) m)
      ++ [rout 4 (t 4) d.p0]
  | 0x31 => [rin 0 (t 0) n] ++ (if d.subop = 4 then [] else if d.subop = 5 then [] else [rin 1 (t 1) n])
      ++ (if d.subop = 5 then [] else [rout 2 (t 2) n])
  | 0x40 => [rin 0 (t 0) n, rout 1 (t 1) (n / max 1 (groupLen d))]
      ++ (if 3 ≤ d.subop then [rout 2 (t 2) (n / max 1 (groupLen d))] else [])
  | 0x41 => [rin 0 (t 0) (d.p1 * d.p0), rin 1 (t 1) m, rin 2 (t 2) (n + 1)]
      ++ (if d.subop = 0 ∨ d.subop = 5 then optional d 3 (rin 3 (t 3) m) else [])
      ++ [rout 4 (t 4) (n * d.p0)]
  | 0x42 => [rout 0 tU64 (4 * n)]
  | 0x43 => [rin 0 (t 0) n] ++ optional d 1 (rin 1 (t 1) n)
  | 0x44 => [rout 0 (t 0) 0]
  | 0x50 => (List.range 4).flatMap (fun k => optional d k (rin k (t k) n))
      ++ optional d 4 (rout 4 (t 4) n) ++ optional d 5 (rout 5 (t 5) n) ++ [rin 6 tByte 320]
  | 0x60 | 0x61 | 0x62 => [rio 0 tByte n]
  | _ => []

/-- Address of an operand; the program's for slot 6. -/
def rngAddr (d : Desc) (r : Rng) : Nat := if r.slot = 6 then d.program else opAddr d r.slot

/-- Bytes of an operand. -/
def rngSize (r : Rng) : Nat := typeSize r.typ r.n

/-- Byte ranges overlap within one address space. -/
def rngOverlap (d e : Desc) (r q : Rng) : Bool :=
  decide (isHost d r.slot = isHost e q.slot) &&
    decide (rngAddr d r < rngAddr e q + rngSize q) && decide (rngAddr e q < rngAddr d r + rngSize r)

/-! ### Checks (R159, R162, R163) -/

/-- An unused slot has an address or type, or PROGRAM is set without MAP. -/
def unusedSet (d : Desc) : Bool :=
  (List.range 6).any (fun k => !(rngs d).any (fun r => decide (r.slot = k)) && slotSet d k) ||
    (decide (d.opcode ≠ opMap) && decide (d.program ≠ 0))

def isInt (t : Nat) : Bool := (typeInt t).isSome
def isId (t : Nat) : Bool := decide (t = 0x16 ∨ t = tU64)
/-- Types of the movement operators: arithmetic or storage (R166). -/
def isMove (t : Nat) : Bool := typeArith t || typeStorage t
/-- A type that a slot of bytes or table slots may carry: none, or one with a use outside R166's list. -/
def isPlain (t : Nat) : Bool := decide (t = 0) || typeArith t || decide (t = tBit)

/-- Types that a weighted SEGMENT-REDUCE accepts. -/
def weightOk (d : Desc) : Bool :=
  decide (1 ≤ ty d 3 ∧ ty d 3 ≤ 3) && decide (typeBits (ty d 0) ≤ 32)

/-- Every used slot has a type that the operator accepts there. -/
def typesOk (d : Desc) : Bool :=
  let t := ty d
  let opt := fun k p => !slotSet d k || p (t k)
  match d.opcode with
  | 0x01 => typeArith (t 0) || decide (t 0 = tBit)
  | 0x02 => (isMove (t 0) && isMove (t 1)) || (decide (t 0 = tBit) && decide (t 1 = tBit))
  | 0x03 => isMove (t 0) && isId (t 1) && isMove (t 2)
  | 0x04 => if d.subop = 0 then isMove (t 0) && isId (t 1) && isMove (t 2)
      else typeArith (t 0) && isId (t 1) && typeArith (t 2)
  | 0x10 => (typeArith (t 0) || decide (t 0 = tBit)) && decide (t 1 = t 0) && opt 2 (fun x => decide (x = tBit))
  | 0x11 => isInt (t 0) && isInt (t 1) && decide (t 2 = tU64)
  | 0x12 => isInt (t 0) && opt 1 (fun x => decide (x = tU64)) && isPlain (t 2)
  | 0x13 => isPlain (t 0) && isInt (t 1) && decide (t 2 = tU64) && decide (t 3 = tBit)
  | 0x20 | 0x21 | 0x22 => isId (t 0) && decide (t 1 = t 0) && decide (t 2 = t 0)
  | 0x23 | 0x24 => isId (t 0) && decide (t 1 = t 0)
  | 0x25 => typeArith (t 0) && opt 1 typeArith && decide (t 2 = t 0) && (!slotSet d 1 || decide (t 3 = t 1))
  | 0x30 => decide (t 0 = tU64) && isId (t 1) && decide (t 2 = t 1) && opt 3 (fun x => decide (x = tBit)) &&
      decide (t 4 = t 1)
  | 0x31 => (rngs d).all fun r => decide (r.typ = tBit)
  | 0x40 => typeArith (t 0) && typeArith (t 1) && (decide (d.subop < 3) || decide (t 2 = tU64))
  | 0x41 => typeArith (t 0) && isId (t 1) && decide (t 2 = tU64) && typeArith (t 4) &&
      (!slotSet d 3 || weightOk d)
  | 0x42 | 0x60 | 0x61 | 0x62 => isPlain (t 0)
  | 0x43 => typeArith (t 0) && opt 1 isId
  | 0x44 => typeArith (t 0)
  | 0x50 => (List.range 6).all fun k => !slotSet d k || isMove (t k) || decide (t k = 0x18)
  | _ => false

/-- Alignment of an operand in bytes (R163). -/
def alignOf (d : Desc) (r : Rng) : Nat :=
  if r.slot = 6 then 64
  else if opCompact ≤ d.opcode then 8192
  else if (typeMx r.typ).isSome || typeBits r.typ < 8 then 64
  else min 8 (typeBits r.typ / 8)

/-- An output overlaps another operand otherwise than R163 allows. -/
def badOverlap (d : Desc) : Bool :=
  (rngs d).any fun o => o.out && (rngs d).any fun r =>
    decide (r.slot ≠ o.slot) && decide (r.slot ≠ 6) && rngOverlap d d o r &&
      !(decide (d.opcode = opCopy)) &&
      !(decide (d.opcode = opMap) && r.inp && !r.out && decide (rngAddr d r = rngAddr d o) &&
        decide (typeBits r.typ = typeBits o.typ) && decide ((typeMx r.typ).isSome = (typeMx o.typ).isSome))

/-- Exponent E of WINDOW-OPEN. -/
def winE (d : Desc) : Int := sext 16 d.p1

/-- Conditions on counts and parameters (R168, R171, R173, R176, R180). -/
def countsOk (d : Desc) : Bool :=
  let mx := fun (r : Rng) => !(typeMx r.typ).isSome || decide (r.n % 32 = 0)
  (rngs d).all mx &&
  (match d.opcode with
  | 0x03 | 0x04 => decide (d.p0 ≠ 0) &&
      (!((typeMx (ty d 0)).isSome || (typeMx (ty d 2)).isSome) || decide (d.p0 % 32 = 0))
  | 0x12 | 0x13 => (List.range 37).any fun k => decide (d.p0 = 2 ^ (k + 4))
  | 0x40 => d.n = 0 || decide (d.n % groupLen d = 0)
  | 0x41 => decide (d.p0 ≠ 0)
  | 0x42 => decide (-1200 ≤ winE d) && decide (winE d ≤ 1000) && decide (d.n ≤ 2 ^ 32) && !isHost d 0
  | 0x60 | 0x61 | 0x62 => decide (d.n % 8192 = 0) && !isHost d 0
  | _ => true)

/-- Operands pass the checks that the descriptor alone decides. -/
def operandsOk (d : Desc) : Bool :=
  (rngs d).all (fun r => decide (rngAddr d r % alignOf d r = 0)) && !badOverlap d && countsOk d &&
    decide (d.completion % 32 = 0)

/-- The checks at fetch in the order of R159. -/
def descStatus (bs : List Byte) : Nat :=
  let d := descOf bs
  if descReserved bs || !opDefined d || unusedSet d then stBadDescriptor
  else if !typesOk d then stBadType
  else if !operandsOk d then stBadOperand
  else stOk

/-- N = 0: the job completes at once (R163). A window COMMIT has no count; a MAP's program is checked first (R159). -/
def emptyJob (d : Desc) : Bool := decide (d.n = 0) && decide (d.opcode ≠ opWinCommit) && decide (d.opcode ≠ opMap)

/-- Bytes that a job's steps share out, with `extra` bytes of input that the descriptor does not size: its inputs, else
its outputs, at least one. -/
def workBytes (d : Desc) (extra : Nat) : Nat :=
  let a := (((rngs d).filter fun r => r.inp && decide (r.slot ≠ 6)).map rngSize).sum + extra
  let b := ((rngs d).map rngSize).sum
  max 1 (if a = 0 then b else a)

/-- Size of an operand of a job once the `extra` bytes are known: the neighbour list of NEIGHBOR-GATHER, and the output
of a window COMMIT with 32 bytes of state an element; before, all that follows its address. -/
def sizeWith (d : Desc) (extra : Option Nat) (r : Rng) : Nat :=
  if d.opcode = opNeighbor ∧ r.slot = 1 then extra.getD (2 ^ 64)
  else if d.opcode = opWinCommit then (match extra with
    | some n => typeSize r.typ (n / 32)
    | none => 2 ^ 64)
  else rngSize r

/-- Operand ranges of one job overlap output ranges of the other (R158). -/
def jobsOverlap (d : Desc) (n : Option Nat) (e : Desc) (m : Option Nat) : Bool :=
  (rngs d).any fun r => (rngs e).any fun q => (r.out || q.out) && decide (isHost d r.slot = isHost e q.slot) &&
    decide (rngAddr d r < rngAddr e q + sizeWith e m q) && decide (rngAddr e q < rngAddr d r + sizeWith d n r)

end Sys2Proof.Machine
end

