-- ==== Sys2Proof/Machine/Kernels.lean ====
section
/-! DEFINITION. The operator kernels (07 R166 to R189) as functions of the descriptor and the operand bytes: what
a job writes, its results, its status and its flags. -/

namespace Sys2Proof.Machine

open Sys2Proof

/-! ### Elements -/

/-- One element read: its bits, the scale byte of its MX block, its exact value. -/
structure El where
  raw : Nat
  scale : Nat
  val : FV
  deriving DecidableEq, Repr

/-- The zero element. -/
def zeroEl : El := ⟨0, 0, .fin false 0 0⟩

/-- Bits of `n` packed elements of width `w`. -/
def rawElems (w n : Nat) (bs : List Byte) : List Nat :=
  if w % 8 = 0 then (List.range n).map fun i => leAt bs (w / 8 * i) (w / 8)
  else
    let x := leNat (bs.take (ceilDiv (n * w) 8))
    (List.range n).map fun i => x / 2 ^ (w * i) % 2 ^ w

/-- Value of an MX element under its scale (R168). -/
def mxValue (f : Option Fmt) (raw scale : Nat) : FV :=
  if scale = 255 then .nan
  else match (match f with
      | some f => fmtDecode f raw
      | none => fvInt (sext 8 raw)) with
    | .fin n m e => .fin n m (e + scale - 127)
    | v => v

/-- Read the elements of an operand. -/
def readEls (t n : Nat) (bs : List Byte) : List El :=
  let w := typeBits t
  let raws := rawElems w n bs
  match typeMx t with
  | some f =>
    let off := ceilDiv (ceilDiv (n * w) 8) 64 * 64
    (List.range n).map fun i =>
      let s := leAt bs (off + i / 32) 1
      let r := raws.getD i 0
      ⟨r, s, mxValue f r s⟩
  | none => raws.map fun r => ⟨r, 0, typeValue t r⟩

/-- Pack element bits. -/
def packRaw (w : Nat) (rs : List Nat) : List Byte :=
  if w % 8 = 0 then rs.flatMap fun r => leBytes (w / 8) r
  else leBytes (ceilDiv (rs.length * w) 8) (rs.foldr (fun r acc => acc * 2 ^ w + r % 2 ^ w) 0)

/-- ⌊log2⌋ of a finite non-zero magnitude; none for zero. -/
def fvLog2 : FV → Option Int
  | .fin _ m e => if m = 0 then none else some (Nat.log2 m + e)
  | _ => none

/-- The shared exponent of a block (R168). -/
def mxExp (t : Nat) (vs : List FV) : Int :=
  match (vs.filterMap fvLog2) with
  | [] => -127
  | l :: r => (clampInt (-127) 127 (r.foldl max l - mxEmax t)).1

/-- A value scaled by a power of two. -/
def fvScale (v : FV) (k : Int) : FV :=
  match v with
  | .fin n m e => .fin n m (e + k)
  | v => v

/-- Convert a block of values to an MX type: bits, scale, CONVERT_SAT. -/
def mxBlock (t : Nat) (f : Option Fmt) (vs : List FV) : List Nat × Nat × Bool :=
  if vs.any fun v => (match v with
      | .fin .. => false
      | _ => true) then (vs.map fun _ => 0, 255, false)
  else
    let x := mxExp t vs
    let rs := vs.map fun v => match f with
      | some f => fmtOf f (fvScale v (-x))
      | none => typeOf 0x10 (fvScale v (-x))
    (rs.map (·.1), (x + 127).toNat, rs.any (·.2))

/-- Write elements to a type: bytes and CONVERT_SAT. With `same`, the bits are copied (R167). -/
def writeEls (t : Nat) (same : Bool) (es : List El) : List Byte × Bool :=
  let w := typeBits t
  match typeMx t with
  | some f =>
    let bl := rowsOf 32 (es.length / 32) es
    let cs := bl.map fun b =>
      if same then (b.map (·.raw), (b.headD zeroEl).scale, false) else mxBlock t f (b.map (·.val))
    let body := packRaw w (cs.flatMap (·.1))
    let pad := List.replicate (ceilDiv body.length 64 * 64 - body.length) (0 : Byte)
    (body ++ pad ++ cs.flatMap (fun c => leBytes 1 c.2.1), cs.any (·.2.2))
  | none =>
    if same then (packRaw w (es.map (·.raw)), false)
    else
      let rs := es.map fun e => typeOf t e.val
      (packRaw w (rs.map (·.1)), rs.any (·.2))

/-! ### What a kernel answers -/

/-- The window that a job works on: base DPA, elements, scale, state bytes. -/
structure WinIn where
  n : Nat
  e : Int
  bytes : List Byte
  deriving DecidableEq, Repr

/-- Operand bytes by slot, the neighbour list's length being the reader's, and open values. -/
structure KIn where
  rd : Nat → List Byte
  win : Option WinIn := none
  fr : Nat → Nat

/-- Writes as slot, offset, bytes (slot 7 is the window's state); contributions to window elements as element,
R, special flags; results. -/
structure KOut where
  writes : List (Nat × Nat × List Byte) := []
  adds : List (Nat × Int × Nat) := []
  r0 : Nat := 0
  r1 : Nat := 0
  status : Nat := 0
  flags : Nat := 0
  deriving DecidableEq, Repr

/-- Flags as a bitmap. -/
def fl (overflow sat clipped : Bool) : Nat :=
  (if overflow then 1 else 0) + (if sat then 2 else 0) + (if clipped then 4 else 0)

/-- All ones in 64 bits. -/
def allOnes64 : Nat := 2 ^ 64 - 1

/-- A bitmap of booleans. -/
def bitsOut (l : List Bool) : List Byte := packRaw 1 (l.map fun b => if b then 1 else 0)

/-! ### Movement (R170, R171) -/

def kFill (d : Desc) (_ : KIn) : KOut :=
  { writes := [(0, 0, packRaw (typeBits (ty d 0)) (List.replicate d.n (d.p0 % 2 ^ typeBits (ty d 0))))], r0 := d.n }

def kCopy (d : Desc) (x : KIn) : KOut :=
  let (bs, sat) := writeEls (ty d 1) (decide (ty d 0 = ty d 1)) (readEls (ty d 0) d.n (x.rd 0))
  { writes := [(1, 0, bs)], r0 := d.n, flags := fl false sat false }

/-- Indices of an operand. -/
def readIds (t n : Nat) (bs : List Byte) : List Nat := rawElems (typeBits t) n bs

def kGather (d : Desc) (x : KIn) : KOut :=
  let rows := rowsOf d.p0 d.m (readEls (ty d 0) (d.m * d.p0) (x.rd 0))
  let ids := readIds (ty d 1) d.n (x.rd 1)
  let bad := (ids.filter fun i => decide (d.m ≤ i)).length
  let es := ids.flatMap fun i => if i < d.m then rows.getD i [] else List.replicate d.p0 zeroEl
  let (bs, sat) := writeEls (ty d 2) (decide (ty d 0 = ty d 2)) es
  { writes := [(2, 0, bs)], r0 := d.n * d.p0, r1 := bad, flags := fl false sat (decide (bad ≠ 0)) }

/-- Fold a SCATTER destination element over its contributions: element, OVERFLOW, CONVERT_SAT. -/
def scatterEl (d : Desc) (old : El) (cs : List El) : El × Bool × Bool :=
  let t := ty d 2
  match d.subop with
  | 0 => match cs.getLast? with
    | some c => if ty d 0 = t then (c, false, false) else (c, false, false)
    | none => (old, false, false)
  | 1 =>
    let l := cs.foldl (fun l c => longAdd l c.val) (longAdd {} old.val)
    let (b, ov, sat) := longResult l t (isInt (ty d 0)) 1
    (⟨b, 0, typeValue t b⟩, ov, sat)
  | k =>
    let v := cs.foldl (fun v c => fvMin (decide (k = 3)) v c.val) old.val
    let (b, sat) := typeOf t v
    (⟨b, 0, typeValue t b⟩, false, sat)

/-- SCATTER: duplicate indices are settled by position (R171). -/
def kScatter (d : Desc) (x : KIn) : KOut :=
  let src := rowsOf d.p0 d.n (readEls (ty d 0) (d.n * d.p0) (x.rd 0))
  let ids := readIds (ty d 1) d.n (x.rd 1)
  let old := rowsOf d.p0 d.m (readEls (ty d 2) (d.m * d.p0) (x.rd 2))
  let bad := (ids.filter fun i => decide (d.m ≤ i)).length
  let named := (List.range d.m).filter fun r => ids.contains r
  let newRow := fun (r : Nat) =>
    let cs := ((List.range d.n).filter fun i => decide (ids.getD i d.m = r)).map fun i => src.getD i []
    (List.range d.p0).map fun c => scatterEl d ((old.getD r []).getD c zeroEl) (cs.map fun row => row.getD c zeroEl)
  let done := named.map fun r => (r, newRow r)
  let ov := done.any fun x => x.2.any (·.2.1)
  let sat := done.any fun x => x.2.any (·.2.2)
  let same := decide (d.subop ≠ 0) || decide (ty d 0 = ty d 2)
  let w := typeBits (ty d 2)
  let (writes, sat2) :=
    if (typeMx (ty d 2)).isSome || w % 8 ≠ 0 then
      -- whole table: unnamed rows keep their bits through a copy of equal type
      let keep := fun (r : Nat) => (old.getD r [])
      let enc := (List.range d.m).map fun r =>
        match done.find? fun x => decide (x.1 = r) with
        | some x => writeEls (ty d 2) same (x.2.map (·.1))
        | none => writeEls (ty d 2) true (keep r)
      let els := readEls (ty d 2) (d.m * d.p0)
        ((writeEls (ty d 2) true ((List.range d.m).flatMap fun r =>
          readEls (ty d 2) d.p0 ((enc.getD r ([], false)).1))).1)
      ([(2, 0, (writeEls (ty d 2) true els).1)], enc.any (·.2))
    else
      let enc := done.map fun x => (x.1, writeEls (ty d 2) same (x.2.map (·.1)))
      (enc.map fun x => (2, x.1 * d.p0 * (w / 8), x.2.1), enc.any (·.2.2))
  { writes := writes, r0 := named.length * d.p0, r1 := bad, flags := fl ov (sat || sat2) (decide (bad ≠ 0)) }

/-! ### Compare, search, hash (R172, R173) -/

def kCompare (d : Desc) (x : KIn) : KOut :=
  let w := typeBits (ty d 0)
  let a := rawElems w d.n (x.rd 0)
  let b := rawElems w d.n (x.rd 1)
  let ne := (List.range d.n).map fun i => decide (a.getD i 0 ≠ b.getD i 0)
  { writes := if slotSet d 2 then [(2, 0, bitsOut ne)] else [],
    r0 := ((List.range d.n).find? fun i => ne.getD i false).getD allOnes64,
    r1 := (ne.filter id).length }

/-- Integer values of an operand. -/
def readInts (t n : Nat) (bs : List Byte) : List Int :=
  (rawElems (typeBits t) n bs).map fun r => match typeInt t with
    | some (w, sg) => intDecode w sg r
    | none => (r : Int)

def kSearch (d : Desc) (x : KIn) : KOut :=
  let keys := readInts (ty d 0) d.m (x.rd 0)
  let pos := (readInts (ty d 1) d.n (x.rd 1)).map fun q =>
    ((List.range d.m).find? fun i => decide (if d.subop = 0 then q ≤ keys.getD i 0 else q < keys.getD i 0)).getD d.m
  { writes := [(2, 0, packRaw 64 pos)], r0 := d.n }

/-- A key widened to 64 bits. -/
def widen (k : Int) : Nat := lowBits 64 k

/-- First slot of a key (R173). -/
def hashSlot (p0 k : Nat) : Nat := k * 0x9E3779B97F4A7C15 % 2 ^ 64 / 2 ^ (64 - Nat.log2 p0)

/-- Probe for a key from a slot on: the slot that holds it, or the first empty one, or none. -/
def probe (tab : List (Nat × Nat)) (p0 k : Nat) : Nat → Nat → Option (Nat × Bool)
  | 0, _ => none
  | n + 1, h =>
    let e := tab.getD h (allOnes64, 0)
    if e.1 = k then some (h, true)
    else if e.1 = allOnes64 then some (h, false)
    else probe tab p0 k n ((h + 1) % p0)

/-- A hash table of `p0` slots. -/
def readTable (p0 : Nat) (bs : List Byte) : List (Nat × Nat) :=
  (List.range p0).map fun i => (leAt bs (16 * i) 8, leAt bs (16 * i + 8) 8)

/-- The build's state: table, inserted, duplicates, full. -/
structure HashBuild where
  tab : List (Nat × Nat)
  ins : Nat := 0
  dup : Nat := 0
  full : Bool := false
  deriving DecidableEq, Repr

/-- Insert one key (R173). -/
def hashInsert (p0 : Nat) (b : HashBuild) (k v : Nat) : HashBuild :=
  if b.full then b
  else match probe b.tab p0 k p0 (hashSlot p0 k) with
    | some (_, true) => { b with dup := b.dup + 1 }
    | some (h, false) => { b with tab := b.tab.set h (k, v), ins := b.ins + 1 }
    | none => { b with full := true }

/-- Insert into a list sorted by key. -/
def orderBy (key : Nat → Nat) (l : List Nat) : List Nat :=
  l.foldr (fun x acc =>
    let (a, b) := acc.span fun y => decide (key y < key x)
    a ++ x :: b) []

/-- HASH-BUILD: in index order with ORDERED, else in an order that the spec leaves open (R173). -/
def kHashBuild (d : Desc) (x : KIn) : KOut :=
  let keys := (readInts (ty d 0) d.n (x.rd 0)).map widen
  if keys.contains allOnes64 then { status := stBadOperand }
  else
    let pay := if slotSet d 1 then rawElems 64 d.n (x.rd 1) else List.range d.n
    let order := if d.subop = 1 then List.range d.n else orderBy x.fr (List.range d.n)
    let t0 := readTable d.p0 (x.rd 2)
    let b := order.foldl (fun b i => hashInsert d.p0 b (keys.getD i 0) (pay.getD i 0)) { tab := t0 }
    let diff := (List.range d.p0).filter fun i => decide (b.tab.getD i (0, 0) ≠ t0.getD i (0, 0))
    { writes := diff.map fun i =>
        (2, 16 * i, leBytes 8 (b.tab.getD i (0, 0)).1 ++ leBytes 8 (b.tab.getD i (0, 0)).2),
      r0 := b.ins, r1 := b.dup, status := if b.full then stTableFull else stOk }

def kHashProbe (d : Desc) (x : KIn) : KOut :=
  let tab := readTable d.p0 (x.rd 0)
  let hits := ((readInts (ty d 1) d.n (x.rd 1)).map widen).map fun k =>
    match (if k = allOnes64 then none else probe tab d.p0 k d.p0 (hashSlot d.p0 k)) with
    | some (h, true) => some (tab.getD h (0, 0)).2
    | _ => none
  { writes := [(2, 0, packRaw 64 (hits.map fun h => h.getD allOnes64)), (3, 0, bitsOut (hits.map (·.isSome)))],
    r0 := (hits.filter (·.isSome)).length }

/-! ### Sets, sort, graph (R174, R175) -/

/-- Length of the longest prefix in order; the whole list when it is sorted. -/
def sortedPrefix (strict : Bool) : List Nat → Nat
  | [] => 0
  | [_] => 1
  | a :: b :: r => if a < b ∨ (!strict ∧ a = b) then 1 + sortedPrefix strict (b :: r) else 1

/-- The output of a set operation, ascending. -/
def setOp (k : Nat) (a b : List Nat) : List Nat :=
  if k = 0 then a.filter b.contains
  else if k = 2 then a.filter fun v => !b.contains v
  else orderBy id (a ++ b.filter fun v => !a.contains v)

/-- Write a list of ids within a capacity (R175). -/
def idOut (d : Desc) (slot t : Nat) (l : List Nat) : KOut :=
  { writes := [(slot, 0, packRaw (typeBits t) (l.take d.p0))], r0 := l.length,
    status := if d.p0 < l.length then stOutFull else stOk }

/-- A job that an out-of-order id ends: what is already written stays, and how much that is stays open; RESULT0 counts
it (Table 7.2). -/
def notSorted (d : Desc) (x : KIn) (slot t : Nat) (l : List Nat) : KOut :=
  let kept := (l.take d.p0).take (x.fr 0 % (l.length + 1))
  { writes := [(slot, 0, packRaw (typeBits t) kept)], r0 := kept.length, status := stNotSorted }

/-- INTERSECT 0, UNION 1, DIFFERENCE 2. -/
def kSet (k : Nat) (d : Desc) (x : KIn) : KOut :=
  let a := readIds (ty d 0) d.n (x.rd 0)
  let b := readIds (ty d 1) d.m (x.rd 1)
  let pa := sortedPrefix true a
  let pb := sortedPrefix true b
  if pa < d.n ∨ pb < d.m then notSorted d x 2 (ty d 2) (setOp k (a.take pa) (b.take pb))
  else idOut d 2 (ty d 2) (setOp k a b)

def kCount (d : Desc) (x : KIn) : KOut :=
  let a := readIds (ty d 0) d.n (x.rd 0)
  let b := readIds (ty d 1) d.m (x.rd 1)
  if sortedPrefix true a < d.n ∨ sortedPrefix true b < d.m then { status := stNotSorted }
  else { r0 := (setOp d.subop a b).length }

def kDedup (d : Desc) (x : KIn) : KOut :=
  let a := readIds (ty d 0) d.n (x.rd 0)
  let p := sortedPrefix false a
  if p < d.n then notSorted d x 1 (ty d 1) (a.take p).dedup else idOut d 1 (ty d 1) a.dedup

/-- Sort key of an element: integers by value, floats by the ordered integer of 06 R132. -/
def sortKey (t raw : Nat) : Int :=
  match typeInt t with
  | some (w, sg) => intDecode w sg raw
  | none => sext (typeBits t) (orderBits (typeBits t) raw)

/-- Stable insertion: `x` goes before the first element that must follow it. -/
def stableInsert (le : Nat → Nat → Bool) (x : Nat) : List Nat → List Nat
  | [] => [x]
  | y :: r => if le x y then x :: y :: r else y :: stableInsert le x r

/-- SORT: stable, ascending or descending. -/
def kSort (d : Desc) (x : KIn) : KOut :=
  let w := typeBits (ty d 0)
  let ks := rawElems w d.n (x.rd 0)
  let key := fun i => sortKey (ty d 0) (ks.getD i 0)
  let le := fun i j => if d.subop = 1 then decide (key j ≤ key i) else decide (key i ≤ key j)
  let order := (List.range d.n).foldr (stableInsert le) []
  let pw := typeBits (ty d 1)
  let ps := rawElems pw d.n (x.rd 1)
  { writes := (2, 0, packRaw w (order.map fun i => ks.getD i 0)) ::
      (if slotSet d 1 then [(3, 0, packRaw pw (order.map fun i => ps.getD i 0))] else []),
    r0 := d.n }

/-- Elements of OP1 that NEIGHBOR-GATHER reads: up to the largest end of a frontier vertex. -/
def neighborCount (d : Desc) (offs front : Nat → Nat) : Nat :=
  (List.range d.n).foldl (fun m i => if front i < d.m then max m (offs (front i + 1)) else m) 0

/-- NEIGHBOR-GATHER (R175). -/
def kNeighbor (d : Desc) (x : KIn) : KOut :=
  let offs := rawElems 64 (d.m + 1) (x.rd 0)
  let front := readIds (ty d 2) d.n (x.rd 2)
  let idBytes := x.rd 1
  let ids := readIds (ty d 1) (neighborCount d (fun i => offs.getD i 0) (fun i => front.getD i d.m)) idBytes
  let vis := rawElems 1 d.m (x.rd 3)
  let all := (front.filter fun v => decide (v < d.m)).flatMap fun v =>
    (ids.drop (offs.getD v 0)).take (offs.getD (v + 1) 0 - offs.getD v 0)
  let bad := (front.filter fun v => decide (d.m ≤ v)).length + (all.filter fun v => decide (d.m ≤ v)).length
  let new := orderBy id ((all.filter fun v =>
    decide (v < d.m) && (!slotSet d 3 || decide (vis.getD v 0 = 0))).dedup)
  let wr := new.take d.p0
  let out := idOut d 4 (ty d 4) new
  let upd := if d.subop = 1 ∧ slotSet d 3 then
      [(3, 0, bitsOut ((List.range d.m).map fun v => decide (vis.getD v 0 = 1) || wr.contains v))] else []
  { out with writes := out.writes ++ upd, r1 := bad, flags := fl false false (decide (bad ≠ 0)) }

/-- BITMAP. -/
def kBitmap (d : Desc) (x : KIn) : KOut :=
  let a := rawElems 1 d.n (x.rd 0)
  let b := rawElems 1 d.n (x.rd 1)
  let r := (List.range d.n).map fun i =>
    let p := decide (a.getD i 0 = 1)
    let q := decide (b.getD i 0 = 1)
    match d.subop with
    | 0 => p && q
    | 1 => p || q
    | 2 => p != q
    | 3 => p && !q
    | 4 => !p
    | _ => p
  { writes := if d.subop = 5 then [] else [(2, 0, bitsOut r)], r0 := (r.filter id).length }

/-! ### Reductions (R176 to R179) -/

/-- MIN or MAX of a non-empty list. -/
def foldMin (wantMax : Bool) : List FV → FV
  | [] => .fin false 0 0
  | v :: r => r.foldl (fvMin wantMax) v

/-- Values are the same for ARGMIN and ARGMAX: equal under the order of R179. -/
def sameVal (a b : FV) : Bool := (fvNan a && fvNan b) || (!fvNan a && !fvNan b && !fvLt a b && !fvLt b a)

def kReduce (d : Desc) (x : KIn) : KOut :=
  let g := groupLen d
  let vs := (readEls (ty d 0) d.n (x.rd 0)).map (·.val)
  let groups := rowsOf g (d.n / max 1 g) vs
  let t := ty d 1
  let rs : List (Nat × Bool × Bool) := groups.map fun l =>
    if d.subop = 0 then longResult (l.foldl longAdd {}) t (isInt (ty d 0)) 1
    else
      let r := typeOf t (foldMin (decide (d.subop = 2 ∨ d.subop = 4)) l)
      (r.1, false, r.2)
  let ix := (List.range groups.length).map fun k =>
    let l := groups.getD k []
    let v := foldMin (decide (d.subop = 4)) l
    k * g + ((List.range l.length).find? fun i => sameVal (l.getD i .nan) v).getD 0
  { writes := (1, 0, packRaw (typeBits t) (rs.map (·.1))) ::
      (if 3 ≤ d.subop then [(2, 0, packRaw 64 ix)] else []),
    r0 := groups.length, flags := fl (rs.any (·.2.1)) (rs.any (·.2.2)) false }

/-- SEGMENT-REDUCE: SUM, MIN, MAX, MEAN over the rows that each segment names. -/
def kSegment (d : Desc) (x : KIn) : KOut :=
  let rows := rowsOf d.p0 d.p1 ((readEls (ty d 0) (d.p1 * d.p0) (x.rd 0)).map (·.val))
  let ids := readIds (ty d 1) d.m (x.rd 1)
  let offs := rawElems 64 (d.n + 1) (x.rd 2)
  let weighted := slotSet d 3
  let ws := (readEls (ty d 3) d.m (x.rd 3)).map (·.val)
  let okOffs := (List.range d.n).all fun s => decide (offs.getD s 0 ≤ offs.getD (s + 1) 0) &&
    decide (offs.getD (s + 1) 0 ≤ d.m)
  if !okOffs then { status := stBadOperand }
  else
    let t := ty d 4
    let ints := isInt (ty d 0) && !weighted
    let segs := (List.range d.n).map fun s =>
      (List.range (offs.getD (s + 1) 0 - offs.getD s 0)).map fun i => offs.getD s 0 + i
    let bad := ((segs.flatten).filter fun j => decide (d.p1 ≤ ids.getD j 0)).length
    let out := segs.flatMap fun js =>
      let kept := js.filter fun j => decide (ids.getD j 0 < d.p1)
      (List.range d.p0).map fun c =>
        let vals := kept.map fun j =>
          let v := (rows.getD (ids.getD j 0) []).getD c (.fin false 0 0)
          if weighted then fvMul (ws.getD j (.fin false 0 0)) v else v
        if d.subop = 0 ∨ d.subop = 5 then
          longResult (vals.foldl longAdd {}) t ints (if d.subop = 5 then kept.length else 1)
        else
          let r := typeOf t (foldMin (decide (d.subop = 2)) vals)
          (r.1, false, r.2)
    { writes := [(4, 0, packRaw (typeBits t) (out.map (·.1)))], r0 := out.length, r1 := bad,
      flags := fl (out.any (·.2.1)) (out.any (·.2.2)) (decide (bad ≠ 0)) }

/-! ### Windows (R180 to R183) -/

/-- WINDOW-OPEN: the state is zero-filled. -/
def kWinOpen (d : Desc) (_ : KIn) : KOut :=
  { writes := [(0, 0, List.replicate (32 * d.n) 0)], r0 := d.n }

/-- A contribution: R clamped, and the flag bits NAN 1, PINF 2, NINF 4, CLAMPED 8 (R181). -/
def contribution (e : Int) (v : FV) : Int × Nat :=
  match v with
  | .nan => (0, 1)
  | .inf false => (0, 2)
  | .inf true => (0, 4)
  | .fin n m k =>
    let r := signed n (nearestNat m 1 (k - e))
    let lim : Int := 2 ^ 127 - 1
    let (c, cl) := clampInt (-lim) lim r
    (c, if cl then 8 else 0)

/-- ACCUMULATE. -/
def kAccumulate (d : Desc) (x : KIn) : KOut :=
  match x.win with
  | none => { status := stBadWindow }
  | some w =>
    let vs := (readEls (ty d 0) d.n (x.rd 0)).map (·.val)
    let idx := if slotSet d 1 then readIds (ty d 1) d.n (x.rd 1) else (List.range d.n).map (d.p1 + ·)
    if !slotSet d 1 ∧ w.n < d.p1 + d.n then { status := stBadOperand }
    else
      let cs := (List.range d.n).map fun i => (idx.getD i w.n, contribution w.e (vs.getD i (.fin false 0 0)))
      let kept := cs.filter fun c => decide (c.1 < w.n)
      { adds := kept.map fun c => (c.1, c.2.1, c.2.2), r0 := kept.length,
        flags := fl (kept.any fun c => decide (c.2.2 = 8)) false (decide (kept.length < d.n)) }

/-- The state of one window element after a contribution (Table 7.10). -/
def winAdd (st : List Byte) (r : Int) (bits : Nat) : List Byte :=
  let v := leAt st 0 16
  let sum : Int := sext 128 v + r
  let lo := lowBits 128 sum
  let carry : Int := (sum - sext 128 lo) / 2 ^ 128
  let wraps := lowBits 64 (sext 64 (leAt st 16 8) + carry)
  leBytes 16 lo ++ leBytes 8 wraps ++ leBytes 1 (leAt st 24 1 ||| bits) ++ List.replicate 7 0

/-- One window element converted (R182): bits, OVERFLOW, CONVERT_SAT. -/
def winCommitEl (t : Nat) (e : Int) (st : List Byte) : Nat × Bool × Bool :=
  let f := leAt st 24 1
  let total : Int := sext 128 (leAt st 0 16) + sext 64 (leAt st 16 8) * 2 ^ 128
  let lim : Int := 2 ^ 127 - 1
  let conv := fun v => (fun r : Nat × Bool => (r.1, false, r.2)) (typeOf t v)
  if f.testBit 0 || (f.testBit 1 && f.testBit 2) then conv .nan
  else if f.testBit 1 then conv (.inf false)
  else if f.testBit 2 then conv (.inf true)
  else
    let (x, c) := clampInt (-lim) lim total
    let r := typeOf t (.fin (decide (x < 0)) x.natAbs e)
    (r.1, c || f.testBit 3, r.2)

/-- COMMIT of a window. -/
def kWinCommit (d : Desc) (x : KIn) : KOut :=
  match x.win with
  | none => { status := stBadWindow }
  | some w =>
    let rs := (List.range w.n).map fun i => winCommitEl (ty d 0) w.e ((w.bytes.drop (32 * i)).take 32)
    let b := typeBits (ty d 0)
    { writes :=
        if d.subop = 1 then
          -- an element's state is zeroed with its write
          rs.zipIdx.flatMap fun r => [(0, r.2 * (b / 8), packRaw b [r.1.1]), (7, 32 * r.2, List.replicate 32 0)]
        else [(0, 0, packRaw b (rs.map (·.1)))],
      r0 := w.n, flags := fl (rs.any (·.2.1)) (rs.any (·.2.2)) false }

/-! ### Element programs (R184 to R189) -/

structure EInst where
  op : Nat
  rd : Nat
  a : Nat
  b : Nat
  c : Nat
  prec : Nat
  imm : Nat
  deriving DecidableEq, Repr

def instOf (w : Nat) : EInst :=
  ⟨bitsAt w 26 6, bitsAt w 22 4, bitsAt w 18 4, bitsAt w 14 4, bitsAt w 10 4, bitsAt w 8 2, bitsAt w 0 8⟩

/-- Operations with sources a and b; with a only. -/
def twoSrc (op : Nat) : Bool :=
  op ∈ [0x01, 0x02, 0x03, 0x05, 0x08, 0x09, 0x0C, 0x11, 0x12, 0x13, 0x14, 0x15, 0x16, 0x17]
def oneSrc (op : Nat) : Bool := op ∈ [0x06, 0x07, 0x0A, 0x0B, 0x0E, 0x0F, 0x10, 0x18]
def isShift (op : Nat) : Bool := decide (0x15 ≤ op ∧ op ≤ 0x17)

/-- Unused fields are zero (R186, R188). -/
def instFieldsOk (i : EInst) : Bool :=
  let k := i.imm.testBit 7
  if isShift i.op then decide (i.c = 0) && (if k then decide (i.b = 0) && !i.imm.testBit 6 else decide (i.imm = 0))
  else if i.op = 0x0C then decide (i.c = 0) && (if k then decide (i.b = 0) else decide (bitsAt i.imm 0 4 = 0))
  else if twoSrc i.op then decide (i.c = 0) &&
    (if k then decide (i.b = 0) && decide (bitsAt i.imm 4 3 = 0) else decide (i.imm = 0))
  else if i.op = 0x04 ∨ i.op = 0x0D then
    (if k then decide (i.b = 0) && decide (bitsAt i.imm 4 3 = 0) else decide (i.imm = 0))
  else if i.op = 0x10 then decide (i.b = 0) && decide (i.c = 0) && decide (bitsAt i.imm 6 2 = 0) &&
    (typeArith (bitsAt i.imm 0 6) || decide (bitsAt i.imm 0 6 = 7))
  else if oneSrc i.op then decide (i.b = 0) && decide (i.c = 0) && decide (i.imm = 0)
  else decide (i.a = 0) && decide (i.b = 0) && decide (i.c = 0) && decide (bitsAt i.imm 4 4 = 0)

/-- An instruction passes R188. -/
def instOk (i : EInst) : Bool :=
  decide (1 ≤ i.op ∧ i.op ≤ 0x19) && decide (i.prec ≠ 3) &&
    !(decide (i.prec = 2) && decide (i.op ∈ [0x04, 0x05, 0x06, 0x07, 0x0E, 0x0F])) &&
    !(decide (0x11 ≤ i.op ∧ i.op ≤ 0x17) && decide (i.prec ≠ 2)) && instFieldsOk i

/-- Check a program block (R188): the first failing instruction; 0 where the header fails. -/
def progBad (bs : List Byte) : Option Nat :=
  let h := leAt bs 0 8
  let n := bitsAt h 0 6
  let ok := decide (1 ≤ n ∧ n ≤ 32) && decide (bitsAt h 6 2 = 0) && decide (bitsAt h 8 8 = 1) &&
    (List.range 6).all (fun k => decide (bitsAt h (16 + 2 * k) 2 ≠ 3)) && decide (bitsAt h 28 36 = 0) &&
    ((bs.drop 8).take 56).all (· = 0)
  if !ok then some 0
  else (List.range n).find? fun j => !instOk (instOf (leAt bs (64 + 4 * j) 4))

/-- Format of PREC 0 and 1. -/
def precFmt (p : Nat) : Fmt := if p = 1 then fmtF64 else fmtF32

/-- A comparison of cmp (Table 7.13) for two values with a NaN-aware order. -/
def condHolds (k : Nat) (un lt eq : Bool) : Bool :=
  match k with
  | 0 => !un && eq
  | 1 => un || !eq
  | 2 => !un && lt
  | 3 => !un && (lt || eq)
  | 4 => !un && !lt && !eq
  | 5 => !un && !lt
  | 6 => un
  | _ => !un

/-- One operation in a float format. -/
def fltOp (f : Fmt) (i : EInst) (a b c : Nat) : Nat × Bool :=
  let x := fmtDecode f a
  let y := fmtDecode f b
  let r := fun v => ((fmtOf f v).1, false)
  match i.op with
  | 0x01 => r (fvAdd x y)
  | 0x02 => r (fvAdd x (fvNeg y))
  | 0x03 => r (fvMul x y)
  | 0x04 => r (fvAdd (fvMul x y) (fmtDecode f c))
  | 0x05 => (fmtDiv f x y, false)
  | 0x06 => (fmtSqrt f x, false)
  | 0x07 => (fmtRsqrt f x, false)
  | 0x08 => r (fvMin false x y)
  | 0x09 => r (fvMin true x y)
  | 0x0A => r (match x with
    | .fin _ m e => .fin false m e
    | .inf _ => .inf false
    | .nan => .nan)
  | 0x0B => r (fvNeg x)
  | 0x0C =>
    let un := fvNan x || fvNan y
    let eq := fvEq x y
    (if condHolds (bitsAt i.imm 4 3) un (!eq && fvLt x y) eq then 2 ^ 64 - 1 else 0, false)
  | 0x0E => (fmtExp2 f x, false)
  | 0x0F => (fmtLog2 f x, false)
  | 0x10 =>
    let t := bitsAt i.imm 0 6
    let (q, sat) := typeOf t x
    (match typeInt t with
      | some (w, sg) => lowBits 64 (intDecode w sg q)
      | none => if t = 6 then q else (fmtOf fmtF32 (typeValue t q)).1, sat)
  | 0x0D => (if c ≠ 0 then a else b, false)
  | _ => (a, false)

/-- One operation in INT64. -/
def intOp (i : EInst) (a b c : Nat) : Nat × Bool :=
  let x := sext 64 a
  let y := sext 64 b
  let r := fun v => (lowBits 64 v, false)
  let sh := if i.imm.testBit 7 then bitsAt i.imm 0 6 else b % 64
  match i.op with
  | 0x01 => r (x + y)
  | 0x02 => r (x - y)
  | 0x03 => r (x * y)
  | 0x08 => r (min x y)
  | 0x09 => r (max x y)
  | 0x0A => r |x|
  | 0x0B => r (-x)
  | 0x0C => (if condHolds (bitsAt i.imm 4 3) false (decide (x < y)) (decide (x = y)) then 2 ^ 64 - 1 else 0, false)
  | 0x0D => (if c ≠ 0 then a else b, false)
  | 0x10 =>
    let t := bitsAt i.imm 0 6
    let (q, sat) := typeOf t (fvInt x)
    (match typeInt t with
      | some (w, sg) => lowBits 64 (intDecode w sg q)
      | none => if t = 6 then q else (fmtOf fmtF32 (typeValue t q)).1, sat)
  | 0x11 => (a &&& b, false)
  | 0x12 => (a ||| b, false)
  | 0x13 => (a ^^^ b, false)
  | 0x14 => (a &&& (2 ^ 64 - 1 - b), false)
  | 0x15 => (a * 2 ^ sh % 2 ^ 64, false)
  | 0x16 => (a / 2 ^ sh, false)
  | 0x17 => r (x / 2 ^ sh)
  | _ => (a, false)

/-- Run one instruction over the sixteen registers; the flag is CONVERT_SAT. -/
def runInst (konst : Nat → Nat) (st : List Nat × Bool) (i : EInst) : List Nat × Bool :=
  let v := fun k => st.1.getD k 0
  let cut := fun x => if i.prec = 0 then x % 2 ^ 32 else x
  let b := if i.imm.testBit 7 && !isShift i.op && (twoSrc i.op || i.op = 0x04 || i.op = 0x0D) then konst (i.imm % 16)
    else v i.b
  let a := if i.op = 0x19 then konst (i.imm % 16) else v i.a
  let c := if i.op = 0x0D then v i.c else cut (v i.c)
  let (r, sat) := if i.prec = 2 then intOp i a b c else fltOp (precFmt i.prec) i (cut a) (cut b) c
  let narrow := decide (i.prec = 0) && decide (i.op ≠ 0x10)
  (st.1.set i.rd (if narrow then r % 2 ^ 32 else r % 2 ^ 64), st.2 || sat)

/-- Load an element into a register (R185): bits and CONVERT_SAT. -/
def loadEl (t mode : Nat) (e : El) : Nat × Bool :=
  if mode = 2 then
    (match typeInt t with
      | some (w, sg) => (lowBits 64 (intDecode w sg e.raw), false)
      | none => (e.raw, false))
  else
    let dst := if mode = 1 then 6 else 1
    if t = dst then (e.raw, false) else typeOf dst e.val

/-- Store a register into an output element (R185): the element, OVERFLOW, CONVERT_SAT. An integer output of 64
bits takes the register as it is. -/
def storeEl (t mode r scale : Nat) : El × Bool × Bool :=
  if mode = 2 then
    match typeInt t with
    | some (w, sg) =>
      if w = 64 then (⟨r, 0, .nan⟩, false, false)
      else
        let (lo, hi) := intRange w sg
        let (x, c) := clampInt lo hi (sext 64 r)
        (⟨lowBits w x, 0, .nan⟩, c, false)
    | none => (⟨r % 2 ^ typeBits t, scale, .nan⟩, false, false)
  else
    let src := if mode = 1 then 6 else 1
    let b := if mode = 1 then r else r % 2 ^ 32
    let v := typeValue src b
    if (typeMx t).isSome then (⟨0, 0, v⟩, false, false)
    else
      let (q, sat) := typeConv src t b
      (⟨q, 0, v⟩, false, sat)

/-- LOAD or STORE mode of a slot (Table 7.11). -/
def slotMode (p : List Byte) (k : Nat) : Nat := bitsAt (leAt p 0 8) (16 + 2 * k) 2

/-- What a MAP answers whose program is refused (R188, R189). -/
def mapRefused (d : Desc) (p : List Byte) : Option KOut :=
  match progBad p with
  | some j => some { status := stBadProgram, r1 := j }
  | none =>
    if (List.range 6).any fun k => slotSet d k && decide (ty d k = 0x18) && decide (slotMode p k ≠ 0) then
      some { status := stBadType }
    else none

/-- MAP (R184): one program over every index. -/
def kMap (d : Desc) (x : KIn) : KOut :=
  let p := x.rd 6
  match mapRefused d p with
  | some o => o
  | none =>
      let h := leAt p 0 8
      let mode := slotMode p
      let insts := (List.range (bitsAt h 0 6)).map fun j => instOf (leAt p (64 + 4 * j) 4)
      let konst := fun j => leAt p (192 + 8 * j) 8
      let ins := (List.range 4).map fun k => if slotSet d k then readEls (ty d k) d.n (x.rd k) else []
      let one := fun (i : Nat) =>
        let ld := (List.range 4).map fun k =>
          match (ins.getD k [])[i]? with
          | some e => if ty d k = 0x18 then (e.raw % 2 ^ 32, e.raw / 2 ^ 32, false)
              else
                let r := loadEl (ty d k) (mode k) e
                (r.1, 0, r.2)
          | none => (0, 0, false)
        let regs := ld.flatMap (fun r => [r.1, r.2.1]) ++ List.replicate 8 0
        insts.foldl (runInst konst) (regs, ld.any (·.2.2))
      let res := (List.range d.n).map one
      let outs := ((List.range 2).filter fun k => slotSet d (4 + k)).map fun k =>
        let t := ty d (4 + k)
        let es := res.map fun r =>
          if t = 0x18 then
            (⟨r.1.getD (12 + 2 * k) 0 % 2 ^ 32 + r.1.getD (13 + 2 * k) 0 % 2 ^ 32 * 2 ^ 32, 0, .nan⟩, false, false)
          else storeEl t (mode (4 + k)) (r.1.getD (12 + 2 * k) 0) (x.fr 0 % 256)
        let same := !(typeMx t).isSome || decide (mode (4 + k) = 2)
        let w := writeEls t same (es.map (·.1))
        ((4 + k, 0, w.1), es.any (·.2.1), es.any (·.2.2) || w.2)
      { writes := outs.map (·.1), r0 := d.n,
        flags := fl (outs.any (·.2.1)) (res.any (·.2) || outs.any (·.2.2)) false }

/-- The kernel of an opcode; the compression-control operators work on blocks and have none. -/
def kernel (d : Desc) (x : KIn) : KOut :=
  match d.opcode with
  | 0x01 => kFill d x
  | 0x02 => kCopy d x
  | 0x03 => kGather d x
  | 0x04 => kScatter d x
  | 0x10 => kCompare d x
  | 0x11 => kSearch d x
  | 0x12 => kHashBuild d x
  | 0x13 => kHashProbe d x
  | 0x20 => kSet 0 d x
  | 0x21 => kSet 1 d x
  | 0x22 => kSet 2 d x
  | 0x23 => kCount d x
  | 0x24 => kDedup d x
  | 0x25 => kSort d x
  | 0x30 => kNeighbor d x
  | 0x31 => kBitmap d x
  | 0x40 => kReduce d x
  | 0x41 => kSegment d x
  | 0x42 => kWinOpen d x
  | 0x43 => kAccumulate d x
  | 0x44 => kWinCommit d x
  | 0x50 => kMap d x
  | _ => {}

end Sys2Proof.Machine
end

