-- ==== Sys2Proof/Machine/Flags.lean ====
section
/-! DEFINITION. What an event does: EVT_STATUS, the Cairn staging slots and log, MSI-X, AER and the CXL event
logs (15 R325; 11 R257 to R263; 02 R44, R52, R53), and the two records every write can cause: a write
denied (14 R309) and an audited write (14 R314). -/

namespace Sys2Proof.Machine

open Sys2Proof

/-! ### MSI-X (02 R44) -/

/-- The table a page's instance signals through (15 R325): a partition's own, or the fabric-manager
logical device's, number 16. -/
def msixOwner (b : Blk) (i : Nat) : Nat :=
  match b with
  | .part | .ext | .dir | .tier | .job | .qos => if i < 16 then i else 16
  | _ => 16

def msixOf (s : State) (o vec : Nat) : MsixEntry := aget (cfgOf s o).msix vec {}

def msixSet (s : State) (o vec : Nat) (e : MsixEntry) : State :=
  cfgUpd s o fun c => { c with msix := aset c.msix vec e }

/-- An event on a vector: a message through a head, or the pending bit while the vector is masked, Bus Master Enable is
clear or no bound head is up (R44). -/
def signalThrough (s : State) (o head vec : Nat) : State :=
  let e := msixOf s o vec
  if e.masked || (cfgOf s o).funcMask || !canMaster s o then msixSet s o vec { e with pending := true }
  else emit s (.msix o head vec e.addr e.data)

/-- An event on a vector, through the bus-master head. -/
def signalVec (s : State) (o vec : Nat) : State := signalThrough s o ((masterHead s o).getD 0) vec

/-- Send one message for each unmasked vector that is pending, where requests may leave (R44). -/
def flushVecs (s : State) (o : Nat) : State :=
  if canMaster s o && !(cfgOf s o).funcMask then
    (cfgOf s o).msix.foldl
      (fun s e => if e.2.pending && !e.2.masked then
        emit (msixSet s o e.1 { e.2 with pending := false }) (.msix o ((masterHead s o).getD 0) e.1 e.2.addr e.2.data) else s) s
  else s

/-! ### AER and the CXL event logs (02 R52, R53) -/

/-- Bit of an error in the AER uncorrectable status, mask and severity registers. PRESUMED: PCI Express Base (log 86). -/
def uncBit : AerErr → Option Nat
  | .fatal .dataLinkProtocol => some 4
  | .surpriseDown => some 5
  | .poisonedTlp => some 12
  | .fatal .flowControl => some 13
  | .completionTimeout => some 14
  | .unexpectedCompletion => some 16
  | .fatal .receiverOverflow => some 17
  | .fatal _ => some 18
  | .unsupportedRequestAdvisory | .unsupportedRequestPosted => some 20
  | .uncorrectableInternal => some 22
  | .linkCorrectable _ | .correctedInternal => none

/-- Bit of an error in the AER correctable status and mask registers; an advisory error has the Advisory Non-Fatal bit.
PRESUMED: PCI Express Base (log 86). -/
def corBit : AerErr → Option Nat
  | .linkCorrectable .receiverError => some 0
  | .linkCorrectable .badFlit => some 6
  | .linkCorrectable .badDllp => some 7
  | .linkCorrectable .replayRollover => some 8
  | .linkCorrectable _ => some 12
  | .unsupportedRequestAdvisory => some 13
  | .correctedInternal => some 14
  | _ => none

/-- Errors whose failing TLP has a header to log. PRESUMED: PCI Express Base (log 86). -/
def aerHeader : AerErr → Bool
  | .unsupportedRequestAdvisory | .unsupportedRequestPosted | .poisonedTlp | .unexpectedCompletion | .fatal .malformed => true
  | _ => false

/-- A masked error sets its status and no more (R52). -/
def aerMasked (c : PartCfg) (e : AerErr) : Bool :=
  (corBit e).any (fun b => c.aerCorMask.getLsbD b) || (uncBit e).any fun b => c.aerUncMask.getLsbD b

/-- The message of an error: correctable, non-fatal or fatal as its severity bit says. -/
def aerSeverity (c : PartCfg) (e : AerErr) : Nat :=
  match corBit e, uncBit e with
  | none, some b => if c.aerUncSev.getLsbD b then 2 else 1
  | _, _ => 0

/-- Log an AER error for a partition, or for the fabric-manager logical device (16), seen on head `h`. -/
def aerLog (s : State) (o : Nat) (h : Head) (e : AerErr) : State :=
  let c := cfgOf s o
  let shown := !aerMasked c e
  let log := shown && aerHeader e && c.hdrLog.isNone
  let hdr := Config.tlpHeader s.out.length
  let s := emit (cfgUpd s o fun c =>
    { c with aer := e :: c.aer, hdrLog := if log then some (e, hdr) else c.hdrLog,
             errHead := if log then h.val else c.errHead }) (.aer o h e)
  if shown then emit s (.errMsg o h (aerSeverity c e)) else s

/-- A link-layer or physical-layer error: every partition on the head and the logical device 16 (R52). -/
def aerLink (s : State) (h : Head) (e : AerErr) : State :=
  ((List.range 16).filter (fun p => carried s p h) ++ [16]).foldl (fun s o => aerLog s o h e) s

/-- Signal an event log of a partition as its event interrupt settings select (03 R65). -/
def logSignal (s : State) (p : Part) (log : Nat) : State :=
  match aget ((cfgOf s p).evVector.map fun e => (e.1, some e.2)) log none with
  | some v => signalVec s p v
  | none => s

/-- Numbers of the event logs: 0 dynamic capacity, 1 informational, 2 warning, 3 failure, 4 fatal. -/
def evLogNum : EvLog → Nat
  | .dynamicCapacity => 0 | .informational => 1 | .warning => 2 | .failure => 3 | .fatal => 4

/-- Dynamic Capacity records of one command, one extent to a record, linked by the More flag (03 R65; one extent to a record
is PRESUMED, log 76). -/
def dcRecords (s : State) (p : Part) (add forced : Bool) : List GranRange → State
  | [] => s
  | x :: rest =>
    let more := !rest.isEmpty
    dcRecords (emit (cfgUpd s p fun c => { c with logDc := (add, forced, more, x) :: c.logDc })
      (.dcEvent p add forced more x)) p add forced rest

/-- Dynamic Capacity events are posted and the log is signalled (03 R65, R66). -/
def dcEvent (s : State) (p : Part) (add forced : Bool) (exts : List GranRange) : State :=
  logSignal (dcRecords s p add forced exts) p 0

/-- A General Media event: class failure or informational (02 Table 2.9; 03 R75). -/
def mediaEvent (s : State) (p : Part) (failure : Bool) (dpa : Nat) : State :=
  if failure then
    logSignal (emit (cfgUpd s p fun c => { c with logFail := c.logFail + 1 }) (.generalMedia p true dpa)) p 3
  else
    logSignal (emit (cfgUpd s p fun c => { c with logInfo := c.logInfo + 1 }) (.generalMedia p false dpa)) p 1

/-! ### Cairn staging (11 R258) -/

/-- The key of a source. -/
def srcKey (block inst : Nat) : Nat := block * 65536 + inst

/-- The filter of R325 and R258: a source without a page uses instance 0 of its block type. -/
def recorded (s : State) (b : Blk) (src : Nat) (sev : Sev) : Bool :=
  let lvl := (hget s b (if blkHasInst b src then src else 0)).severity
  match sev with
  | .uncorrected | .fatal | .audit => true
  | sev => decide (lvl ≤ sev.code) && decide (lvl < 6)

/-- Latch an event whose source's slot is full; the count saturates at 65,535 (R258, R259). -/
def latchAdd (l : Latch) (r : CRec) : Latch :=
  { count := min (l.count + 1) 65535, pending := true, last := r.event, lastTs := r.ts,
    severity := max l.severity r.severity, overflow := l.overflow || decide (65535 ≤ l.count) }

/-- Stage a record, or latch it; the answer tells that a latch has just overflowed. -/
def stageRec (s : State) (r : CRec) : State × Bool :=
  let k := srcKey r.block r.inst
  let c := s.cairn
  let l := aget c.latches k {}
  if ahas c.slots k then
    let l' := latchAdd l r
    (fadd { s with cairn := { c with latches := aset c.latches k l' } } .cairnCoalesceStatsLatched 1,
      l'.overflow && !l.overflow)
  else
    ({ s with cairn := { c with
        slots := aset c.slots k { r with coalesced := l.count, overflow := l.overflow },
        latches := adel c.latches k } }, false)

/-- Set an EVT_STATUS bit and, if it was 0 and is enabled, send the message of R325 after the record. -/
def eventBit (s : State) (b : Blk) (i bit : Nat) (stage : State → State × Bool) : State × Bool :=
  let h := hget s b i
  let was := h.evtStatus.getLsbD bit
  let s1 := hupd s b i fun h => { h with evtStatus := h.evtStatus ||| (1#64 <<< bit) }
  let (s2, ov) := stage s1
  (if !was && h.evtEnable.getLsbD bit && h.msiEn then signalVec s2 (msixOwner b i) h.vector else s2, ov)

/-- The record of an event: source `src`, partition and payload. -/
def recOf (s : State) (b : Blk) (src code : Nat) (sev : Sev) (part : Option Nat) (pl : List Byte) : CRec :=
  { ts := count s, block := blkCode b, inst := src, event := code, severity := sev.code, part := part,
    payload := pl }

/-- CAIRN.EVT_STATUS.OVERFLOW, when a latch overflows (R259). -/
def noteOverflow (x : State × Bool) : State :=
  if x.2 then
    (eventBit x.1 .cairn 0 3 fun s =>
      if recorded s .cairn 0 .warning then
        stageRec s (recOf s .cairn 0 (Evt.cairnOverflow).code .warning none [])
      else (s, false)).1
  else x.1

/-- An event in a block (15 R325): its bit, its Cairn record subject to the filter, its message. -/
def raise (s : State) (e : Evt) (i : Nat := 0) (part : Option Nat := none) (pl : List Byte := [])
    (src : Option Nat := none) (sev : Option Sev := none) : State :=
  let (b, bit, sev0) := e.info
  let sv := sev.getD sev0
  let sr := src.getD i
  let o := msixOwner b i
  let pt := if o < 16 then some o else part
  noteOverflow (eventBit s b i bit fun s =>
    if recorded s b sr sv then stageRec s (recOf s b sr e.code sv pt pl) else (s, false))

/-- An event that sets no bit (11 Table 11.12). -/
def record (s : State) (r : Rec) (src : Nat := 0) (part : Option Nat := none) (pl : List Byte := []) :
    State :=
  let (b, code, sev) := r.info
  if recorded s b src sev then noteOverflow (stageRec s (recOf s b src code sev part pl)) else s

/-! ### Cairn commits (11 R257 to R263) -/

/-- Records of an SRAM ring, and of the spill ring (R260). -/
def ringRecords : Nat := 65536
def spillRecords : Nat := 16777216

/-- Severities that commit express (R258). -/
def expressSev (sev : Nat) : Bool := decide (3 ≤ sev)

/-- Write a record to the next last-resort register (R263). -/
def lastResort (s : State) (r : CRec) : State :=
  let k := fget s .cairnLrStatsLrNext
  let full := decide (8 ≤ fget s .cairnLrStatsLrWritten)
  let s := { s with cairn := { s.cairn with lr := aset s.cairn.lr k r } }
  let s := fadd (fset s .cairnLrStatsLrNext ((k + 1) % 8)) .cairnLrStatsLrWritten 1
  if full then raise s .cairnLrWrap else s

/-- Send a committed record to the twin, or count it as not sent (R261). Records received from the twin
are not sent back. -/
def streamRec (s : State) (r : CRec) : State :=
  if r.fromTwin || decide (fget s .cairnCfgStreamEn = 0) then s
  else if twinUp s then
    fadd (emit s (.belay 0 (.cairn ⟨r.ts, r.block, r.inst, r.event, r.coalesced, r.severity, r.part,
      r.payload⟩))) .cairnStreamStatsSent 1
  else if pairConfig s then { s with cairn := { s.cairn with unsent := s.cairn.unsent + 1 } }
  else s

/-- Reuse of the ring slot of the record 65,536 before: it stays readable only if it was copied to the
spill ring, which is off in descent (R262) and whose own oldest record goes when it is full (R260). -/
def spillStep (s : State) (seq : Nat) : State :=
  if seq < ringRecords then s
  else
    let spill := decide (fget s .cairnCfgSpillEn = 1) && !(fget s .cairnStatusFailed).testBit 1 &&
      decide (fget s .pwrStatusRung < 4)
    let old := seq - ringRecords
    let log := if spill then s.cairn.log else s.cairn.log.filter fun r => decide (r.seq ≠ old)
    let wrapped := decide (ringRecords + spillRecords ≤ log.length)
    let s := { s with cairn := { s.cairn with log := if wrapped then log.dropLast else log } }
    if wrapped && !s.cairn.wrapped then
      raise { s with cairn := { s.cairn with wrapped := true } } .cairnSpillWrap
    else s

/-- Commit one record to the log: it takes the next SEQ (R257, R258). -/
def commitRec (s : State) (r : CRec) : State :=
  let seq := fget s .cairnHeadNextSeq
  let r := { r with seq := seq }
  let s := spillStep s seq
  let s := fset { s with cairn := { s.cairn with log := r :: s.cairn.log } } .cairnHeadNextSeq (seq + 1)
  let s := streamRec s r
  if fget s .cairnStatusLogDegraded = 1 then
    let s := lastResort s r
    if fget s .cairnCfgConsoleEn = 1 ∧ fget s .cairnCfgConsoleSev ≤ r.severity then emit s (.console seq)
    else s
  else s

/-- Commit the record that a source has staged. -/
def commitSlot (s : State) (k : Nat) : State :=
  match s.cairn.slots.find? (fun e => decide (e.1 = k)) with
  | some e => commitRec { s with cairn := { s.cairn with slots := adel s.cairn.slots k } } e.2
  | none => s

/-- Sources of the always-on island (13 R293): the only ones that commit in rest and deeper. -/
def islandBlock (code : Nat) : Bool := code ∈ [0x0020, 0x00C0, 0x00D0, 0x00E0, 0x00F0, 0x0100, 0x0110]

/-- Order of a batch: TIMESTAMP, then BLOCK, then INSTANCE (R258). -/
def batchLe (a b : CRec) : Bool :=
  decide (a.ts < b.ts) || (decide (a.ts = b.ts) &&
    decide (srcKey a.block a.inst ≤ srcKey b.block b.inst))

/-- Insert into a sorted list. -/
def insertBy {α : Type} (le : α → α → Bool) (x : α) : List α → List α
  | [] => [x]
  | y :: r => if le x y then x :: y :: r else y :: insertBy le x r

/-- Sort a list; equal elements keep their order. -/
def sortBy {α : Type} (le : α → α → Bool) (l : List α) : List α := l.foldr (insertBy le) []

/-- Commit the PENDING_SUMMARY of one source (R259). -/
def commitSummary (s : State) (k : Nat) : State :=
  let l := aget s.cairn.latches k {}
  let s := { s with cairn := { s.cairn with latches := adel s.cairn.latches k } }
  commitRec (fadd s .cairnCoalesceStatsSummaries 1)
    { ts := l.lastTs, block := k / 65536, inst := k % 65536, event := 0x0001, coalesced := l.count,
      severity := l.severity, overflow := l.overflow, payload := leBytes 2 l.last }

/-- Boundary action 6: the batched records, then the summaries (R258, R259). -/
def commitBatch (s : State) (deep : Bool) : State :=
  let due := (s.cairn.slots.map (·.2)).filter fun r =>
    !expressSev r.severity && (!deep || islandBlock r.block)
  let s := (sortBy batchLe due).foldl (fun s r => commitSlot s (srcKey r.block r.inst)) s
  let ks := (s.cairn.latches.filter fun e => e.2.pending && (!deep || islandBlock (e.1 / 65536))).map (·.1)
  (sortBy (fun a b => decide (a ≤ b)) ks).foldl commitSummary s

/-- The log is declared degraded (R263): `failed` is the FAILED bit of the memory, 1 the ring in use,
2 the spill ring, 0 a late commit or a descent. A LOG_DEGRADED record goes first. -/
def degradeLog (s : State) (failed : Nat) : State :=
  let first := decide (fget s .cairnStatusLogDegraded = 0)
  let s := fset s .cairnStatusLogDegraded 1
  let s := if failed = 0 then s
    else fset s .cairnStatusFailed (bitOn (fget s .cairnStatusFailed) (failed - 1))
  let s := if first then aerLog s 16 0 .correctedInternal else s
  raise s .cairnLogDegraded 0 none (leBytes 2 (fget s .cairnStatusFailed))

/-- The 64 bytes of a record as Table 11.5 lays them out, CHECK over bytes 0 to 55. -/
def recBytes (r : CRec) : List Byte :=
  let w0 := leBytes 8 r.ts
  let w1 := leBytes 2 r.block ++ leBytes 2 r.inst ++ leBytes 2 r.event ++ leBytes 2 r.coalesced
  let w2 := leBytes 8 (r.severity + (if r.overflow then 8 else 0) + (if r.fromTwin then 16 else 0)
    + (match r.part with | some p => p * 256 + 4096 | none => 0) + r.seq * 2 ^ 24)
  let body := w0 ++ w1 ++ w2 ++ (r.payload ++ List.replicate 32 0).take 32
  body ++ leBytes 8 (crc32c body)

/-! ### Rights and audit (14 R309, R314) -/

/-- Instance of a denied write's source (R309). -/
def denySrc : View → Nat
  | .fm ses => 0x0100 + ses
  | .host p _ => 0x0200 + p

/-- A write or command without the right: counted, WRITE_DENIED, a WARNING record (R309). -/
def deny (s : State) (v : View) : State :=
  let part := match v with
    | .host p _ => some p.val
    | .fm _ => none
  raise (finc s .roleDeniedWrites) .roleWriteDenied 0 part [] (some (denySrc v))

/-- Payload of an AUDIT_WRITE record (R314). -/
def auditPayload (blk inst off role ses value prev : Nat) : List Byte :=
  leBytes 2 blk ++ leBytes 2 inst ++ leBytes 2 off ++ leBytes 1 role ++ leBytes 1 ses
    ++ leBytes 8 value ++ leBytes 8 prev ++ List.replicate 8 0

/-- Stage the audit record of a write or command in an installer or maker session. It never latches: a
record that still holds the slot is committed first, for the write waits for the slot (R259, R314). -/
def audit (s : State) (ses : Session) (blk inst off value prev : Nat) : State :=
  let r := roleOf s ses
  if r < 2 then s
  else
    let k := srcKey 0x0100 (0x0300 + ses)
    let s := finc (commitSlot s k) .roleAuditsRecords
    (stageRec s (recOf s .role (0x0300 + ses) 0x0004 .audit none
      (auditPayload blk inst off r ses value prev))).1

/-- The audit record of a command: block 0xFFFF, its opcode, the first eight bytes of its input (R314). -/
def auditCmd (s : State) (ses : Session) (opcode : Nat) (payload : List Byte) : State :=
  audit s ses 0xFFFF 0 opcode (leAt payload 0 8) 0

/-! ### The end of a session (14 R312, R313) -/

/-- A session ends: an installer anchor written in it takes effect, and its end is recorded where a role was
fixed (R314). -/
def endSession (s : State) (k : Nat) : State :=
  match s.sessions.find? (fun e => decide (e.1 = k)) with
  | none => s
  | some (_, st) =>
    let s := { s with sessions := adel s.sessions k }
    let s := match st.newInstaller with
      | some h => raise { s with flash := { s.flash with installer := some h } } .roleAnchorChanged
      | none => s
    if st.role.isSome then record s .sessionEnded 0 none (leBytes 1 k) else s

/-- Every session that a test selects ends. -/
def endSessions (s : State) (f : SessionState → Bool) : State :=
  ((s.sessions.filter fun e => f e.2).map (·.1)).foldl endSession s

end Sys2Proof.Machine
end

