-- ==== Sys2Proof/Machine/Extents.lean ====
section
/-! DEFINITION. Extents and their holders (03 R60 to R69, R73, R77), the sharers and snoops of the directory
that a holder owns (04 R86, R89), and the versions of a snapshot extent (04 R91 to R96). -/

namespace Sys2Proof.Machine

open Sys2Proof

/-! ### Queries -/

/-- The extent that a granule belongs to; none for a free or reserved one. -/
def extOfGran (s : State) (g : Nat) : Option Extent :=
  s.exts.find? fun e => decide (e.base ≤ g) && decide (g < e.base + e.len)

/-- The extent of a DPA. -/
def extOf (s : State) (dpa : Nat) : Option Extent := extOfGran s (granOf dpa)

/-- A holder's own state for an extent. -/
def holderSt (e : Extent) (p : Nat) : Option ExtState :=
  (e.holders.find? fun h => decide (h.p.val = p)).map (·.st)

/-- The partition's accesses to the extent are served (R64). -/
def served (e : Extent) (p : Nat) : Bool :=
  !e.sanitising && (match holderSt e p with
    | some .active | some .releasePending => true
    | _ => false)

/-- The extent through which a partition holds a DPA; none where the DPA is unheld (R64). -/
def heldExt (s : State) (p dpa : Nat) : Option Extent := (extOf s dpa).filter fun e => served e p

/-- SHARING is not private. -/
def sharedExt (e : Extent) : Bool := decide (e.attr.sharing ≠ 0)

/-- The publisher: the owner, while it has not been removed (R80, R82). -/
def isPublisher (e : Extent) (p : Nat) : Bool := decide (e.attr.owner = p) && !e.publisherGone

/-- The partition may write the extent: a private holder or the publisher (R81). -/
def mayWrite (e : Extent) (p : Nat) : Bool := !sharedExt e || isPublisher e p

/-- The list of a partition's EXT instance (R77). -/
def extsOf (s : State) (p : Nat) : List Extent := s.exts.filter fun e => (holderSt e p).isSome

/-- Granules held in ACTIVE or RELEASE_PENDING (HELD.GRANULES). -/
def heldGran (s : State) (p : Nat) : Nat :=
  ((s.exts.filter fun e => served e p).map (·.len)).sum

/-- A granule is in the version reserve. -/
def reservedGran (s : State) (g : Nat) : Bool := s.reserve.contains g

/-- A granule is free: below the export, in no extent and not in the reserve (R63, R96). -/
def freeGran (s : State) (g : Nat) : Bool :=
  decide (g < exportGran s) && (extOfGran s g).isNone && !reservedGran s g

/-- Number of free granules. -/
def freeCount (s : State) : Nat :=
  exportGran s - (s.exts.map (·.len)).sum - s.reserve.length

/-- Every granule of a range is free. -/
def rangeFree (s : State) (base len : Nat) : Bool :=
  decide (base + len ≤ exportGran s) &&
    s.exts.all (fun e => decide (e.base + e.len ≤ base) || decide (base + len ≤ e.base)) &&
    s.reserve.all (fun g => decide (g < base) || decide (base + len ≤ g))

/-- Extents that overlap a range. -/
def overlapping (s : State) (base len : Nat) : List Extent :=
  s.exts.filter fun e => decide (e.base < base + len) && decide (base < e.base + e.len)

/-- A whole extent of the device. -/
def wholeExt (s : State) (base len : Nat) : Option Extent :=
  s.exts.find? fun e => decide (e.base = base) && decide (e.len = len)

/-- The EXT.STATE code of a holder's state (Table 3.3). -/
def extCode : ExtState → Nat
  | .offered => 1 | .active => 2 | .releasePending => 3 | .reclaimable => 4 | .sanitising => 5

/-- The bitmap of the partitions with a per-holder state. -/
def holdersMap (e : Extent) : Nat := bitMapOf (e.holders.map fun h => h.p.val)

/-! ### The journal's sending side (12 R274) -/

/-- Send an entry to the twin; it stays until it is acknowledged. -/
def journalSend (s : State) (b : JBody) : State :=
  let n := s.belay.nextNum
  emit { s with belay := { s.belay with journal := s.belay.journal ++ [⟨n, b, false⟩], nextNum := n + 1 } }
    (.belay 0 (.journal (.entry n b)))

/-! ### List changes (R77) -/

/-- One change of the lists of some partitions: their GEN and the pool's rise, LIST_CHANGED is set. A change of
HOLDERS shows in the list of every holder. -/
def listChange (s : State) (ps : List Nat) : State :=
  (ps ++ [16]).foldl (fun s i => raise (fwrap s .extStateGen i) .extListChanged i) s

/-- Insert in ascending order of base. -/
def extInsert (e : Extent) : List Extent → List Extent
  | [] => [e]
  | x :: r => if e.base < x.base then e :: x :: r else x :: extInsert e r

/-- Replace the extent that begins at a base. -/
def extMap (s : State) (base : Nat) (f : Extent → Extent) : State :=
  { s with exts := s.exts.map fun e => if e.base = base then f e else e }

/-- Remove the extent that begins at a base: its granules become free. -/
def extDrop (s : State) (base : Nat) : State :=
  { s with exts := s.exts.filter fun e => decide (e.base ≠ base) }

/-- Set a holder's state. -/
def setHolder (e : Extent) (p : Nat) (st : ExtState) : Extent :=
  { e with holders := e.holders.map fun h => if h.p.val = p then { h with st := st } else h }

/-- Remove a holder; the publisher's place stays empty for good (R82). -/
def dropHolder (e : Extent) (p : Nat) : Extent :=
  { e with holders := e.holders.filter (fun h => decide (h.p.val ≠ p)),
           publisherGone := e.publisherGone || (sharedExt e && decide (e.attr.owner = p)) }

/-! ### Snapshot versions (04 R91 to R96) -/

/-- Blocks of 8 KiB in a granule. -/
def granBlocks : Nat := 32768

/-- The snapshot state of the extent at a base. -/
def snapOf (s : State) (base : Nat) : Option Snap := s.snaps.find? fun x => decide (x.base = base)

def snapMap (s : State) (base : Nat) (f : Snap → Snap) : State :=
  { s with snaps := s.snaps.map fun x => if x.base = base then f x else x }

/-- A version is held open by a partition or a running job. -/
def snapHeld (x : Snap) (v : Nat) : Bool :=
  x.opens.any (fun e => decide (e.2 = v)) || x.jobOpens.any (fun e => decide (e.2 = v))

/-- Live versions (R91). -/
def snapLive (x : Snap) : Nat := x.old.length + 1

/-- Blocks of `a` that `b` does not save. -/
def savedMerge (a b : List SavedBlock) : List SavedBlock :=
  a ++ b.filter fun k => !a.any fun j => decide (j.block = k.block)


/-- The live old versions, oldest first: a version that nobody holds passes its saved blocks to the next
older live one, or frees them. -/
def liveOld (x : Snap) : List SnapVersion :=
  x.old.foldl (fun acc v =>
    if snapHeld x v.num then acc ++ [v]
    else match acc.getLast? with
      | none => acc
      | some u => acc.dropLast ++ [{ u with saved := savedMerge u.saved v.saved }]) []

/-- Retire the versions that are no longer live. -/
def snapRetire (x : Snap) : Snap := { x with old := liveOld x }

/-- Blocks that hold copied content (RESERVE_HELD). -/
def snapHeldBlk (x : Snap) : Nat :=
  (x.old.map fun v => v.saved.length).sum + (match x.draft with | some d => d.length | none => 0)

/-- Blocks charged: held versions, and the whole extent while a draft is open (R94, R95). -/
def snapCharged (s : State) (x : Snap) : Nat :=
  (x.old.map fun v => v.saved.length).sum +
    (if x.draft.isSome then
      (match s.exts.find? (fun e => decide (e.base = x.base)) with
        | some e => e.len * granBlocks
        | none => 0) else 0)

def chargedBlk (s : State) : Nat := (s.snaps.map (snapCharged s)).sum
def heldBlk (s : State) : Nat := (s.snaps.map snapHeldBlk).sum

/-- Blocks of the version reserve. -/
def reserveBlk (s : State) : Nat := s.reserve.length * granBlocks

/-- The unreserved part of the version reserve. -/
def unreserved (s : State) : Nat := reserveBlk s - chargedBlk s

/-- RESERVE_LOW when the unreserved part falls below one eighth (R96). -/
def reserveLow (before s : State) : State :=
  let low := fun t => decide (unreserved t * 8 < reserveBlk t)
  if low s && !low before then raise s .dirReserveLow 16 else s

/-- The CM9240 abandons an open draft of the extent at a base (R95). -/
def abandonDraft (s : State) (base p : Nat) : State :=
  match snapOf s base with
  | some x =>
    if x.draft.isSome then raise (snapMap s base fun x => { x with draft := none }) .dirDraftAbandoned p
    else s
  | none => s

/-- A partition's version of the extent is closed (R95). -/
def closeVersion (s : State) (base p : Nat) : State :=
  snapMap s base fun x => snapRetire { x with opens := adel x.opens p }

/-- A holder of a snapshot extent is released, orphaned or reset (R95). -/
def snapLeave (s : State) (e : Extent) (p : Nat) : State :=
  if e.attr.sharing = 2 then
    let s := if isPublisher e p then abandonDraft s e.base p else s
    closeVersion s e.base p
  else s

/-! ### Sharers and snoops (04 R84 to R90) -/

/-- Sharer id of a partition on a head. -/
def sharerId (p h : Nat) : Nat := p * 16 + h

/-- Sharers on the heads of the twin are numbered from 256 on. -/
def twinSharer : Nat := 256

/-- Partition of a sharer of either package. -/
def sharerPart (sh : Nat) : Nat := sh % twinSharer / 16

/-- The lead's directory tracks the second's sharers, because the second forwards its requests (12 Table 12.1, R287). -/
def twinForwards (s : State) : Bool :=
  twinUp s && decide (fget s .belayStatusRole = 1) &&
    (decide (fget s .belayStatusModeActive ≠ 0) || decide (fget s .belayStatusState = 2))

/-- The second forwards its heads' requests to the lead: in STANDBY and SOLO mode, and while it joins or is a resync target
(12 Table 12.1, R287). -/
def forwardsAll (s : State) : Bool :=
  twinUp s && decide (fget s .belayStatusRole = 2) &&
    (decide (fget s .belayStatusModeActive ≠ 0) || decide (fget s .belayStatusState = 2 ∨ fget s .belayStatusState = 1))

/-- Each package tracks its own heads' sharers and journals them: MIRROR, in sync (R90). -/
def dirJournalled (s : State) : Bool :=
  twinUp s && decide (fget s .belayStatusModeActive = 0) && decide (fget s .belayStatusState = 3)

def dirOf (s : State) (line : Nat) : Option DirEntry := s.dir.find? fun d => decide (d.line = line)

/-- The extent of a line. -/
def extOfLine (s : State) (line : Nat) : Option Extent := extOf s (line * 64)

/-- A partition holds the line's extent, or is leaving it, and is bound to the head. -/
def sharerReal (s : State) (line sh : Nat) : Bool :=
  carried s (sh / 16) (sh % 16) && (match extOfLine s line with
    | some e => (match holderSt e (sh / 16) with
      | some st => decide (st ≠ .offered)
      | none => false)
    | none => false)

/-- The head of a sharer is down other than for a power rung: the sharer is out of every entry (R89). -/
def sharerDown (s : State) (sh : Nat) : Bool :=
  match (headOf s (sh % 16)).ltssm with
  | .l0 | .l0p | .l1 => false
  | _ => true

/-- The sharers of an entry on this package's heads that a snoop goes to (R86). -/
def ownSharers (s : State) (d : DirEntry) : List Nat :=
  match d.coarse with
  | none => d.sharers
  | some v => (List.range 256).filter fun sh => v.getLsbD (sh / 4) && sharerReal s d.line sh && !sharerDown s sh

/-- The sharers that a snoop of an entry goes to (R86), those of the twin among them (R90). -/
def entrySharers (s : State) (d : DirEntry) : List Nat := ownSharers s d ++ d.twin.map (twinSharer + ·)

/-- What the journal tells of an entry: this package's sharers, and whether one of them holds the line in E. -/
def dirShown (s : State) (line : Nat) : Bool × List Nat :=
  match dirOf s line with
  | some d => (d.exclusive && !(ownSharers s d).isEmpty, ownSharers s d)
  | none => (false, [])

/-- A change of this package's sharers of a line is a journal entry (R90; 12 R274). -/
def dirTell (before s : State) (line : Nat) : State :=
  if dirJournalled s && decide (dirShown before line ≠ dirShown s line) then
    journalSend s (.dirLine (decide (fget s .belayStatusRole = 1)) false line (dirShown s line).1 (dirShown s line).2)
  else s

def dirDrop (s : State) (line : Nat) : State :=
  dirTell s { s with dir := s.dir.filter fun d => decide (d.line ≠ line) } line

/-- An entry as the most recently used one. -/
def dirPut (s : State) (d : DirEntry) : State :=
  dirTell s { s with dir := d :: s.dir.filter fun x => decide (x.line ≠ d.line) } d.line

/-- An entry changes in its place. -/
def dirSet (s : State) (d : DirEntry) : State :=
  dirTell s { s with dir := s.dir.map fun x => if x.line = d.line then d else x } d.line

/-- An entry with a sharer added; the ninth turns it coarse (R86). -/
def addSharer (d : DirEntry) (sh : Nat) : DirEntry :=
  if twinSharer ≤ sh then { d with twin := ins d.twin (sh - twinSharer) }
  else match d.coarse with
  | some v => { d with coarse := some (v ||| (1#64 <<< (sh / 4))) }
  | none =>
    let l := ins d.sharers sh
    if 8 < l.length then
      { d with sharers := [], coarse := some (l.foldl (fun v x => v ||| (1#64 <<< (x / 4))) 0#64) }
    else { d with sharers := l }

/-- An entry, or `none` where the line reaches I; an entry without coarse bits is exact again (R86). -/
def entryLeft (d : DirEntry) : Option DirEntry :=
  let d := if d.coarse = some 0 then { d with coarse := none } else d
  if d.coarse.isNone && d.sharers.isEmpty && d.twin.isEmpty then none else some d

/-- An entry without the sharers of a test: a coarse bit clears only where no other sharer of the group can hold the line
(R86); `none` when the line reaches I. -/
def removeSharers (s : State) (d : DirEntry) (gone : Nat → Bool) : Option DirEntry :=
  entryLeft { d with
    sharers := d.sharers.filter fun sh => !gone sh
    twin := d.twin.filter fun sh => !gone (twinSharer + sh)
    coarse := d.coarse.map fun v => (List.range 64).foldl (fun v g =>
      if (List.range 4).any (fun i => gone (g * 4 + i)) &&
          (List.range 4).all (fun i => gone (g * 4 + i) || !sharerReal s d.line (g * 4 + i)) then
        v &&& ~~~(1#64 <<< g) else v) v }

/-- The sharers of a test leave the entry of a line. -/
def forgetOn (s : State) (line : Nat) (gone : Nat → Bool) : State :=
  match dirOf s line with
  | some d =>
    match removeSharers s d gone with
    | some d' => if d' = d then s else dirSet s d'
    | none => dirDrop s line
  | none => s

/-- Send one snoop; it counts on the device instance and on the sharer's (R97). A sharer on the twin's heads is snooped
through the twin (R90). -/
def snoopOne (s : State) (line : Nat) (kind : Snp) (sh : Nat) : State :=
  if twinSharer ≤ sh then emit s (.belay 2 (.forward (.snoop line kind (sh - twinSharer))))
  else emit (finc (finc s .dirBiStatsBiSent 16) .dirBiStatsBiSent (sh / 16)) (.biSnp sh line kind)

/-- Snoop sharers of a line: the transition waits for all of them (R85). -/
def snoop (s : State) (t : DirTrans) : State :=
  let s := t.owed.foldl (fun s sh => snoopOne s t.line t.kind sh) s
  { s with trans := { t with asked := t.owed } :: s.trans }

/-- A line is in BI_PENDING: a transition waits for a response (Table 4.2, R87). -/
def biPending (s : State) (line : Nat) : Bool := s.trans.any fun t => decide (t.line = line)

/-- Sharers that this package snoops for a publisher's write and for a leaving holder: its own, and the twin's where its
directory tracks them; in MIRROR mode the twin snoops its own (R90). -/
def snoopsHere (s : State) (sh : Nat) : Bool := decide (sh < twinSharer) || twinForwards s

/-- Lines of an extent in the directory on which a partition has a sharer. -/
def linesOfHolder (s : State) (e : Extent) (p : Nat) : List (Nat × List Nat) :=
  (s.dir.filter fun d => decide (e.base ≤ granOf (d.line * 64)) &&
      decide (granOf (d.line * 64) < e.base + e.len)).filterMap fun d =>
    let shs := (entrySharers s d).filter fun sh => decide (sharerPart sh = p) && snoopsHere s sh
    if shs.isEmpty then none else some (d.line, shs)

/-- BISnpInv to every sharer that a leaving holder has (R89, R67). -/
def recallHolder (s : State) (e : Extent) (p : Nat) : State :=
  (linesOfHolder s e p).foldl
    (fun s x => snoop s { line := x.1, owed := x.2, kind := .inv, req := none, recalled := true }) s

/-- Snoops that a partition's sharers still owe for lines of an extent. -/
def holderOwes (s : State) (e : Extent) (p : Nat) : Bool :=
  s.trans.any fun t => decide (e.base ≤ granOf (t.line * 64)) &&
    decide (granOf (t.line * 64) < e.base + e.len) && t.owed.any fun sh => decide (sharerPart sh = p)

/-- Take a sharer that no longer answers out of every entry (R89). -/
def forgetSharers (s : State) (gone : Nat → Bool) : State :=
  s.dir.foldl (fun s d => forgetOn s d.line gone) s

/-! ### Offers -/

/-- Count the extents that an add creates against the limits of R60 and R62: refused where true. -/
def overLimit (s : State) (p new : Nat) (join snap : Bool) : Bool :=
  decide (Config.extentsPerPart < (extsOf s p).length + new) ||
    (!join && decide (Config.extentsPerDevice < s.exts.length + new)) ||
    (snap && !join && decide (Config.snapshotExtents <
      (s.exts.filter fun e => decide (e.attr.sharing = 2)).length + new))

/-- LIMIT_HIT on the partition's instance and on the pool (R60). -/
def limitHit (s : State) (p : Nat) : State := raise (raise s .extLimitHit p) .extLimitHit 16

/-- The ranges of an add are still free, or the extents of a join are whole and not yet the partition's. -/
def offerable (s : State) (p : Part) (exts : List GranRange) (join : Bool) : Bool :=
  exts.all (fun x => if join then (match wholeExt s x.1 x.2 with
      | some e => !e.sanitising && (holderSt e p).isNone
      | none => false)
    else decide (1 ≤ x.2) && rangeFree s x.1 x.2) &&
    decide (exts.Pairwise fun a b => a.1 + a.2 ≤ b.1 ∨ b.1 + b.2 ≤ a.1)

/-- An add or join takes effect: the extents enter OFFERED and one offer is posted (R65). -/
def doOffer (s : State) (p : Part) (exts : List GranRange) (a : Attr) (tag : Nat) (join : Bool) : State :=
  let s := if a.prot = 1 ∧ !join then partUpd s p fun q => { q with epoch := q.epoch + 1 } else s
  let s := exts.foldl (fun s x =>
    if join then extMap s x.1 fun e => { e with holders := e.holders ++ [⟨p, .offered⟩] }
    else
      let e : Extent := { base := x.1, len := x.2, attr := a, tag := tag, holders := [⟨p, .offered⟩],
                          epoch := (partOf s p).epoch }
      { s with exts := extInsert e s.exts }) s
  let s := if a.sharing = 2 ∧ !join then
    { s with snaps := s.snaps ++ exts.map fun x => { base := x.1 } } else s
  let s := exts.foldl (fun s x => listChange s (match s.exts.find? fun e => decide (e.base = x.1) with
    | some e => e.holders.map fun h => h.p.val
    | none => [p])) s
  let s := partUpd s p fun q => { q with offers := q.offers ++ [⟨exts⟩] }
  raise (dcEvent s p true false exts) .partAddOffered p

/-- Granules of a range. -/
def granules (base len : Nat) : List Nat := (List.range len).map (base + ·)

/-- The extent as a whole becomes SANITISING: no holder remains (R63, R68). What one sanitise request is the spec leaves open:
the model takes each extent, or piece of one, that becomes SANITISING for one request (DESIGN CHOICE, log 77). -/
def toSanitising (s : State) (base : Nat) : State :=
  match s.exts.find? (fun e => decide (e.base = base)) with
  | some e =>
    let s := extMap s base fun e => { e with sanitising := true, holders := [] }
    let s := if e.attr.prot = 1 then finc s .roleKeysEpochsRetired else s
    { s with sanReqs := s.sanReqs ++ [granules e.base e.len],
             snaps := s.snaps.filter fun x => decide (x.base ≠ base) }
  | none => s

/-- One offered extent ends without acceptance: it is free, or the join leaves the others (R63, R65). A joiner's offer that
outlived the publisher leaves contents behind: they are sanitised (R68). -/
def endOffer (s : State) (p : Nat) (base : Nat) : State :=
  match s.exts.find? (fun e => decide (e.base = base)) with
  | some e =>
    if holderSt e p = some .offered then
      let rest := e.holders.filter fun h => decide (h.p.val ≠ p)
      let s := if rest.isEmpty then
          (if e.publisherGone then toSanitising s base
           else { extDrop s base with snaps := s.snaps.filter fun x => decide (x.base ≠ base) })
        else extMap s base fun e => { e with holders := rest }
      listChange s (p :: rest.map fun h => h.p.val)
    else s
  | none => s

/-- Every open offer of a partition ends (R57, R72, R76). -/
def endOffers (s : State) (p : Nat) : State :=
  let s := ((partOf s p).offers.flatMap (·.exts)).foldl (fun s x => endOffer s p x.1) s
  partUpd s p fun q => { q with offers := [] }

/-- The oldest offer is answered: what it accepts becomes ACTIVE, the rest of it is free (R65). -/
def doAccept (s : State) (p : Part) (exts : List GranRange) : State :=
  match (partOf s p).offers with
  | [] => s
  | o :: rest =>
    let s := partUpd s p fun q => { q with offers := rest }
    o.exts.foldl (fun s x =>
      if exts.contains x then
        let s := match wholeExt s x.1 x.2 with
          | some e => if e.attr.prot = 1 then
              fset s .roleKeysMaster (bitOn (fget s .roleKeysMaster) e.attr.owner) else s
          | none => s
        listChange (extMap s x.1 fun e => setHolder e p .active) [p]
      else endOffer s p x.1) s

/-! ### Releases (R66 to R69) -/

/-- Cut a private extent so that a range of whole granules inside it becomes an extent of its own. -/
def carve (s : State) (e : Extent) (base len : Nat) : State :=
  let s1 := extDrop s e.base
  let add := fun (s : State) (b l : Nat) =>
    if l = 0 then s else { s with exts := extInsert { e with base := b, len := l } s.exts }
  add (add (add s1 e.base (base - e.base)) base len) (base + len) (e.base + e.len - (base + len))

/-- A range lies in an extent that the partition holds in some state. -/
def rangeIn (e : Extent) (p : Nat) (x : GranRange) : Bool :=
  (holderSt e p).isSome && decide (1 ≤ x.2) && decide (e.base ≤ x.1) && decide (x.1 + x.2 ≤ e.base + e.len)

/-- Extents that the cut adds. -/
def carveCost (e : Extent) (base len : Nat) : Nat :=
  (if e.base < base then 1 else 0) + (if base + len < e.base + e.len then 1 else 0)

/-- Stage 2 of R68: the holder is removed; the last one's leaving makes the extent SANITISING. -/
def finishRemoval (s : State) (base p : Nat) : State :=
  match s.exts.find? (fun e => decide (e.base = base)) with
  | some e =>
    if holderSt e p = some .sanitising && !holderOwes s e p then
      let s := extMap s base fun e => dropHolder e p
      let s := if (dropHolder e p).holders.isEmpty then toSanitising s base else s
      listChange s (p :: (dropHolder e p).holders.map fun h => h.p.val)
    else s
  | none => s

/-- Stage 1 of R68: the holder's accesses are unheld and its copies are recalled. A snapshot extent has no
directory entries, so its holder goes at once. -/
def startRemoval (s : State) (base p : Nat) : State :=
  match s.exts.find? (fun e => decide (e.base = base)) with
  | some e =>
    let s := snapLeave s e p
    let s := extMap s base fun e => setHolder e p .sanitising
    let s := listChange s [p]
    let s := if e.attr.sharing = 1 then recallHolder s e p else s
    finishRemoval s base p
  | none => s

/-- Remove one holder from a whole extent: a private extent becomes SANITISING at once. -/
def leaveExt (s : State) (base p : Nat) : State :=
  match s.exts.find? (fun e => decide (e.base = base)) with
  | some e => if sharedExt e then startRemoval s base p else listChange (toSanitising s base) [p]
  | none => s

/-- Granules of a range that a partition holds and that may leave: the pieces of its private extents in the
range and its whole shared extents (R60, R66). -/
def doRelease (s : State) (p : Part) (exts : List GranRange) : State :=
  exts.foldl (fun s x =>
    match extOfGran s x.1 with
    | some e =>
      if !rangeIn e p x then s
      else if sharedExt e then leaveExt s e.base p
      else leaveExt (carve s e x.1 x.2) x.1 p
    | none => s) s

/-- A release is requested: the range is RELEASE_PENDING and the host is told (R66). -/
def doRequestRelease (s : State) (p : Part) (exts : List GranRange) : State :=
  let s := exts.foldl (fun s x =>
    match extOfGran s x.1 with
    | some e =>
      let b := if sharedExt e then e.base else x.1
      let cut := !sharedExt e && decide (0 < carveCost e x.1 x.2)
      if rangeIn e p x && (cut || decide (holderSt e p ≠ some .releasePending)) then
        listChange (extMap (if cut then carve s e x.1 x.2 else s) b fun e => setHolder e p .releasePending) [p]
      else s
    | none => s) s
  raise (dcEvent s p false false exts) .partReleaseRequested p

/-- Withdraw offers (R65, R74): the offered extents become free and leave their offers. -/
def doWithdraw (s : State) (p : Part) (exts : List GranRange) : State :=
  let s := exts.foldl (fun s x => endOffer s p x.1) s
  partUpd s p fun q =>
    let os := q.offers.map fun o => (⟨o.exts.filter fun x => !exts.contains x⟩ : Offer)
    { q with offers := os.filter fun o => !o.exts.isEmpty }

/-- The ranges that are whole offers to a partition. -/
def offeredOf (s : State) (p : Part) (exts : List GranRange) : List GranRange :=
  exts.filter fun x => match wholeExt s x.1 x.2 with
    | some e => decide (holderSt e p = some .offered)
    | none => false

/-- A forced release (R67); an offer that it names ends. -/
def doForce (s : State) (p : Part) (exts : List GranRange) : State :=
  let off := offeredOf s p exts
  let s := if off.isEmpty then s else doWithdraw s p off
  raise (dcEvent (doRelease s p (exts.filter fun x => !off.contains x)) p false true exts) .partForcedRelease p

/-- Set Extent Attributes at the boundary: each whole attribute of the mask, for every holder (R79). -/
def doSetAttr (s : State) (base : Nat) (mask attr : Nat) : State :=
  match s.exts.find? (fun e => decide (e.base = base)) with
  | some e =>
    let pick := fun (lo w : Nat) (old : Nat) => if mask.testBit lo then bitsAt attr lo w else old
    let s := extMap s base fun e =>
      { e with attr := { e.attr with cls := pick 0 4 e.attr.cls, pageHint := pick 4 2 e.attr.pageHint,
                                     tier := pick 6 2 e.attr.tier } }
    listChange s (e.holders.map fun h => h.p.val)
  | none => s

/-! ### Leases (R70 to R73) -/

/-- The lease starts at full length (R70). -/
def startLease (s : State) (p : Nat) : State :=
  fset (partUpd s p fun q => { q with leaseExpiry := now s + fget s .partCfgLeaseMs p * msCycles })
    .partLeaseExpired 0 p

/-- Time to expiry in whole ms; 0 unless ACTIVE (Table 3.6; rounded down, DEDUCED, log 21). -/
def remainingMs (s : State) (p : Nat) : Nat :=
  if pState s p = pActive then ((partOf s p).leaseExpiry - now s) / msCycles else 0

/-- An accepted renewal (R71). -/
def doRenew (s : State) (p : Nat) : State := finc (startLease s p) .partLeaseRenewals p

/-- Each holding of a partition in some states takes another state. -/
def turnHoldings (s : State) (p : Nat) (old : List ExtState) (new : ExtState) : State :=
  (extsOf s p).foldl (fun s e =>
    match holderSt e p with
    | some st =>
      if st ∈ old then listChange (extMap s e.base fun e => setHolder e p new) [p] else s
    | none => s) s

/-- Revive: ACTIVE, RECLAIMABLE holdings ACTIVE, a full lease (R72, R73). -/
def doRevive (s : State) (p : Nat) : State :=
  let s := fset s .partStateState pActive p
  raise (startLease (turnHoldings s p [.reclaimable] .active) p) .partRevived p

/-- A partition's master key is destroyed: the old contents of its protected extents are unreadable
(14 R319). -/
def destroyKey (s : State) (p : Nat) : State :=
  let s := fset s .roleKeysMaster (bitOff (fget s .roleKeysMaster) p)
  { s with exts := s.exts.map fun e =>
      if e.attr.prot = 1 ∧ e.attr.owner = p then { e with unreadable := true } else e }

/-- Reclaim: the partition leaves every extent it held and is RECLAIMED (R73). -/
def doReclaim (s : State) (p : Nat) : State :=
  let bases := (extsOf s p).map (·.base)
  fset (destroyKey (bases.foldl (fun s b => leaveExt s b p) s) p) .partStateState pReclaimed p

end Sys2Proof.Machine
end

