-- ==== Sys2Proof/Machine/Dram.lean ====
section
/-! DEFINITION. The PC controllers (10): queue and levels (R209, R222 to R225), bandwidth credits and budgets
(09 R208 to R214), refresh and row disturbance (R227, R230), heat (R226 to R229), and freezing (R234). -/

namespace Sys2Proof.Machine

open Sys2Proof

/-! ### States of a PC (10 Table 10.5) -/

def pcRun : Nat := 0
def pcQuiesced : Nat := 1
def pcTraining : Nat := 2
def pcFrozen : Nat := 3
def pcFailed : Nat := 4
def pcSelfRefresh : Nat := 5

/-- The stacks are in self-refresh: in rest and deeper, and after a thermal trip (13 Table 13.1; R229). -/
def selfRefreshing (s : State) : Bool := decide (2 ≤ fget s .pwrStatusRung) || decide (s.boot.phase = .tripped)

/-- PC.STATE.STATE. -/
def pcSt (s : State) (pc : Nat) : Nat :=
  let st := fget s .pcStateState pc
  if st ≠ pcFailed ∧ selfRefreshing s then pcSelfRefresh else st

def setPcSt (s : State) (pc st : Nat) : State := fset s .pcStateState st pc

/-- An engine die is declared lost (08 R205). -/
def dieOut (s : State) (die : Nat) : Bool := (fget s .pitchRemapDiesOut).testBit die

/-- A cluster is out of service, alone or with its die (10 R242). -/
def clusterOut (s : State) (c : Nat) : Bool := dieOut s (c / 16) || s.clustersOut.contains c

/-- The bank of a place is mapped out (11 R254). -/
def bankOut (s : State) (pc bankq : Nat) : Bool := s.ras.banksOut.contains (pc, bankq)

/-- The cells behind a DPA are lost: die, cluster, PC or bank (03 Table 3.5). -/
def cellsLost (s : State) (dpa : Nat) : Bool :=
  let pc := pcOfAddr dpa
  let placed := !s.boot.tiered || s.frames.any fun f => decide (f.block = dpa / Config.blockBytes) && f.placed
  clusterOut s (clusterOf dpa) || decide (pcSt s pc = pcFailed) || (placed && bankOut s pc (bankqOf (locOf s dpa)))

/-! ### Bandwidth (09) -/

/-- Throttle factor of a cluster in quarters (10 Table 10.3), with the flow throttle of 16 R351. -/
def throttleQuarters (s : State) (c : Nat) : Nat :=
  let heat := [4, 3, 2, 1].getD (fget s .pcTempThrottle (c * 4)) 4
  if fget s .pinThermalFlowThrottle = 1 then min heat 2 else heat

/-- Bytes per pitch and cluster of a rate in GB/s (R208, R212). -/
def perCluster (s : State) (gbs : Nat) : Nat := gbs * pitchUs s * 1000 / 256

/-- A partition's credit at a cluster in this pitch, scaled while it throttles (R208, R210). -/
def creditOf (s : State) (c p : Nat) : Nat :=
  perCluster s (fget s .qosGuarGbSActive p) * throttleQuarters s c / 4

/-- Key of a cluster and a partition or class. -/
def qKey (c p : Nat) : Nat := c * 16 + p

/-- The class is over budget at the cluster (R212). -/
def classOver (s : State) (c cls : Nat) : Bool :=
  let b := fget s .qosClassCfgBudgetActive (16 + cls)
  decide (b ≠ 0) && decide (perCluster s b < aget s.qos.clsUsed (qKey c cls) 0)

/-- Level of a request of 64 bytes (R209). Device traffic has no partition. -/
def levelOf (s : State) (c : Nat) (part cls : Option Nat) : Nat :=
  let isOver := match cls with
    | some k => classOver s c k
    | none => false
  if isOver then (if s.qos.mode = 1 then 2 else 1)
  else match part with
    | some p => if aget s.qos.used (qKey c p) 0 + 64 ≤ creditOf s c p then 0 else 1
    | none => 1

/-- Add to a counter that wraps. -/
def fwadd (s : State) (f : Fld) (n : Nat) (i : Nat := 0) (j : Nat := 0) : State :=
  fset s f (fget s f i j + n) i j

/-- Bytes moved at a cluster for a partition and a class (R208, R219): `coded` gives the decoded bytes
delivered. A class that goes over budget raises CLASS_OVER. -/
def qosMove (s : State) (c : Nat) (part cls : Option Nat) (bytes : Nat) (write : Bool)
    (coded : Option Nat := none) : State :=
  let count := fun (s : State) (i : Nat) =>
    let s := fwadd s (if write then .qosBytesWrBytes else .qosBytesRdBytes) bytes i
    match coded with
    | none => fwadd s .qosRawBytes bytes i
    | some d => fwadd (fwadd s .qosCodedStoredBytes bytes i) .qosCodedDeliveredBytes d i
  let s := match part with
    | some p => count { s with qos := { s.qos with used := aupd s.qos.used (qKey c p) 0 (· + bytes) } } p
    | none => s
  match cls with
  | none => s
  | some k =>
    let was := classOver s c k
    let s := count { s with qos := { s.qos with clsUsed := aupd s.qos.clsUsed (qKey c k) 0 (· + bytes) } }
      (16 + k)
    if classOver s c k && !was then raise s .qosClassOver (16 + k) else s

/-- Bytes that a partition offers at a cluster (R210). -/
def qosOffer (s : State) (c : Nat) (part : Option Nat) (bytes : Nat) : State :=
  match part with
  | some p => { s with qos := { s.qos with offered := aupd s.qos.offered (qKey c p) 0 (· + bytes) } }
  | none => s

/-! ### The queue (R209, R212, R222, R225) -/

/-- Entries that a class holds at a PC. -/
def classEntries (s : State) (pc cls : Nat) : Nat :=
  ((pcOf s pc).entries.filter fun e => decide (e.cls = some cls)).length

/-- A request may take an entry: 64 in all, the kept ones for level 0 only, and the class below its share,
which a level-0 request may pass by taking a kept entry (R209, R212). -/
def queueRoom (s : State) (pc level : Nat) (cls : Option Nat) : Bool :=
  let n := (pcOf s pc).entries.length
  let share := match cls with
    | some k => decide (classEntries s pc k < fcur s .qosClassCfgQueueEntries (16 + k))
    | none => true
  decide (n < 64) && (decide (level = 0) ||
    (decide (n < 64 - fcur s .qosCfgGuarEntries 0x20) && share))

/-- A rank leaves power-down for a request (R231). -/
def wakeRank (s : State) (pc rank : Nat) : State :=
  fset s .pcStateRanksPd (bitOff (fget s .pcStateRanksPd pc) rank) pc

/-- A request takes an entry. A read behind an earlier write to the same row puts its bank queue in in-order
mode (R225). -/
def enqueue (s : State) (pc : Nat) (write : Bool) (dpa level : Nat) (part cls : Option Nat)
    (hint : Nat) : State :=
  let l := locOf s dpa
  let q := bankqOf l
  let st := pcOf s pc
  let arm := !write && st.entries.any fun e => e.write && decide (e.bankq = q) && decide (e.row = l.row)
  let e : PcEntry := { id := st.nextId, write := write, line := lineOf dpa, bankq := q, row := l.row,
                       level := level, cls := cls, part := part, hint := hint }
  let s := pcUpd s pc fun st =>
    { st with entries := st.entries ++ [e], nextId := st.nextId + 1,
              inOrder := if arm then ins st.inOrder q else st.inOrder }
  let s := if arm && !st.inOrder.contains q then finc s .pcDramStatsInOrderEntries pc else s
  wakeRank s pc (q % 2)

/-- An entry may not pass an earlier one of its bank queue (R225). -/
def blockedBy (e earlier : PcEntry) : Bool := decide (e.line = earlier.line) && (e.write || earlier.write)

/-- Candidate of a bank queue (R223). -/
def candidate (s : State) (pc q : Nat) : Option PcEntry :=
  let st := pcOf s pc
  let es := st.entries.filter fun e => decide (e.bankq = q)
  match es with
  | [] => none
  | o :: rest =>
    let opn := aget (st.openRows.map fun x => (x.1, some x.2)) q none
    if opn = some o.row || st.inOrder.contains q || decide (fcur s .pcCfgRowHitMax pc ≤ o.passed) then some o
    else
      let young := (List.range rest.length).find? fun i =>
        match rest[i]? with
        | some e => decide (opn = some e.row) && !(o :: rest.take i).any (blockedBy e)
        | none => false
      match young with
      | some i => rest[i]?
      | none => some o

/-- Banks after PICK_PTR, in bank order (R223). -/
def pickOrder (ptr : Nat) : List Nat := (List.range 32).map fun i => (ptr + 1 + i) % 32

/-- The bank and entry that issue next. -/
def pickNext (s : State) (pc : Nat) : Option (Nat × PcEntry) :=
  let cs := (pickOrder (pcOf s pc).pick).filterMap fun q => (candidate s pc q).map fun e => (q, e)
  let l := cs.foldl (fun m c => min m c.2.level) 3
  cs.find? fun c => decide (c.2.level = l)

/-- Lowest count of an activate table and its index, the lowest index on ties. -/
def lowestAct (t : List (Nat × Nat)) : Nat :=
  (List.range t.length).foldl (fun best i =>
    if (t.getD i (0, 0)).2 < (t.getD best (0, 0)).2 then i else best) 0

/-- Count an activate of a row; the answer tells that the threshold was reached (R230). -/
def countAct (t : List (Nat × Nat)) (row thr : Nat) : List (Nat × Nat) × Bool :=
  let t := match t.find? (fun e => decide (e.1 = row)) with
    | some _ => t.map fun e => if e.1 = row then (row, e.2 + 1) else e
    | none => if t.length < 32 then t ++ [(row, 1)]
      else t.set (lowestAct t) (row, (t.getD (lowestAct t) (0, 0)).2 + 1)
  let hit := t.any fun e => decide (e.1 = row) && decide (thr ≤ e.2)
  (if hit then t.map fun e => if e.1 = row then (row, 0) else e else t, hit)

/-- Rows of a targeted refresh (R230). -/
def trrRows (row : Nat) : List Nat :=
  [row - 2, row - 1, row + 1, row + 2].filter fun r => decide (r < 65536) && decide (r ≠ row) &&
    (decide (2 ≤ row) || decide (row < r) || (decide (row = 1) && decide (r = 0)))

/-- Activate a row. -/
def activate (s : State) (pc q row : Nat) : State :=
  let st := pcOf s pc
  let (t, hit) := countAct (aget st.act q []) row (fcur s .pcCfgTrrThresh pc * 64)
  let s := pcUpd s pc fun st =>
    { st with openRows := aset st.openRows q row, pick := q, act := aset st.act q t,
              trr := if hit then st.trr ++ ((trrRows row).eraseDups.map fun r => (q, r)) else st.trr }
  let s := finc s .pcDramStatsActivates pc
  if hit then raise s .pcTrr pc else s

/-- A column command: the entry leaves; the row stays open or closes by the hint (R224); the oldest entry it
passed counts the pass; in-order mode ends with the last write before the read that armed it (R225). -/
def columnCmd (s : State) (pc q : Nat) (e : PcEntry) : State :=
  pcUpd s pc fun st =>
    let left := st.entries.filter fun x => decide (x.id ≠ e.id)
    let oldest := left.find? fun x => decide (x.bankq = q) && decide (x.id < e.id)
    let left := match oldest with
      | some o => left.map fun x => if x.id = o.id then { x with passed := x.passed + 1 } else x
      | none => left
    let hits := left.any fun x => decide (x.bankq = q) && decide (x.row = e.row)
    let close := decide (e.hint = 2) || (decide (e.hint = 0) && !hits)
    let bank := left.filter fun x => decide (x.bankq = q)
    let armed := bank.any fun r => !r.write && bank.any fun w => w.write && decide (w.id < r.id) &&
      decide (w.row = r.row)
    { st with entries := left, openRows := if close then adel st.openRows q else st.openRows,
              inOrder := if armed then st.inOrder else rem st.inOrder q }

/-- Close every row of a rank for an all-bank refresh, for which it leaves power-down (R231). -/
def refreshRank (s : State) (pc rank : Nat) : State :=
  wakeRank (pcUpd s pc fun st =>
    { st with openRows := st.openRows.filter (fun x => decide (x.1 % 2 ≠ rank)), due := rem st.due rank }) pc rank

/-- One command slot (R223): a refresh that may not wait, a targeted refresh, else the pick. -/
def issueCmd (s : State) (pc : Nat) : State :=
  let st := pcOf s pc
  match st.due, st.trr with
  | r :: _, _ => refreshRank s pc r
  | [], t :: rest =>
    let s := pcUpd s pc fun st => { st with trr := rest, openRows := adel st.openRows t.1 }
    finc s .pcRefreshStatsTrr pc
  | [], [] =>
    if pcSt s pc = pcRun then
      match pickNext s pc with
      | some (q, e) =>
        match aget (st.openRows.map fun x => (x.1, some x.2)) q none with
        | some row =>
          if row = e.row then columnCmd s pc q e
          else pcUpd s pc fun st => { st with openRows := adel st.openRows q }
        | none => activate s pc q e.row
      | none => s
    else s

/-! ### Row ageing, refresh, power-down -/

/-- Boundary action 3: every count falls by TRR_DECAY; one at 0 frees its entry (R230). -/
def ageTables (s : State) : State :=
  { s with pcs := s.pcs.map fun x =>
      let d := fcur s .pcCfgTrrDecay x.1
      (x.1, { x.2 with act := x.2.act.map fun t =>
        (t.1, (t.2.map fun e => (e.1, e.2 - d)).filter fun e => decide (e.2 ≠ 0)) }) }

/-- A level-0 request waits for the rank. -/
def levelZeroWaits (s : State) (pc rank : Nat) : Bool :=
  (pcOf s pc).entries.any fun e => decide (e.level = 0) && decide (e.bankq % 2 = rank)

/-- A refresh interval of a rank ends (R227). A refresh is never pulled in, and a postponed one is made up at the next
interval without level-0 requests (DESIGN CHOICE, log 98). -/
def doRefreshDue (s : State) (pc rank : Nat) : State :=
  let n := aget (pcOf s pc).postponed rank 0
  let mayWait := decide (pcSt s pc = pcRun) && !(fget s .pcStateRanksPd pc).testBit rank
  if mayWait && levelZeroWaits s pc rank then
    if n < 4 then
      finc (pcUpd s pc fun st => { st with postponed := aset st.postponed rank (n + 1) })
        .pcRefreshStatsPostponed pc
    else pcUpd s pc fun st => { st with due := ins st.due rank }
  else
    refreshRank (pcUpd s pc fun st => { st with postponed := aset st.postponed rank (n - 1) }) pc rank

/-! ### Freezing (R234, R236) -/

/-- PC.FREEZE_INFO. -/
def setFreezeInfo (s : State) (pc cause : Nat) (l : Loc) : State :=
  let s := fset (fset s .pcFreezeInfoCause cause pc) .pcFreezeInfoRank l.rank pc
  let s := fset (fset s .pcFreezeInfoBank l.bank pc) .pcFreezeInfoRow l.row pc
  let s := fset (fset s .pcFreezeInfoColumn l.col pc) .pcFreezeInfoHeld (pcOf s pc).entries.length pc
  fset (fset s .pcFreezeInfoErrors 0 pc) .pcFreezeInfoPitchLow (count s) pc

/-- Bytes that name a place: PC, rank, bank, row, column. -/
def locBytes (pc : Nat) (l : Loc) : List Byte :=
  leBytes 2 pc ++ leBytes 1 l.rank ++ leBytes 1 l.bank ++ leBytes 2 l.row ++ leBytes 1 l.col

/-- A PC freezes; a further error on a frozen one is counted; a retrain is abandoned (R234, R236, R233). -/
def freezePc (s : State) (pc cause : Nat) (l : Loc) : State :=
  if pcSt s pc = pcFailed then s
  else if fget s .pcStateState pc = pcFrozen then finc s .pcFreezeInfoErrors pc
  else
    let s := if (pcOf s pc).retraining then
        raise (pcUpd s pc fun st => { st with retraining := false, retrainDue := true }) .pcTrainAborted pc
      else s
    let s := setFreezeInfo (setPcSt s pc pcFrozen) pc cause l
    let s := hupd s .pc pc fun h => { h with frozen := true }
    let s := pcUpd s pc fun st =>
      { st with holdOver := false, dropped := [], poisonDue := [],
                parityAt := if cause = 2 then count s :: st.parityAt else st.parityAt }
    let s := raise s .pcFrozen pc none (leBytes 1 cause ++ locBytes pc l)
    if twinUp s then raise s .belayCovering 0 none (locBytes pc l) else s

/-! ### Heat (R226 to R229, R233) -/

/-- Temperature that a PC is treated as having (R226). -/
def tempOf (s : State) (pc : Nat) : Nat :=
  if (pcOf s pc).tempInvalid then 99 else fget s .pcTempTempC pc

/-- Thresholds of the factors 1, 2, 3 (Table 10.3). -/
def heatThreshold (f : Nat) : Nat := [0, 95, 99, 102].getD f 0

/-- Factor that a temperature reaches. -/
def heatLevel (t : Nat) : Nat := if 102 ≤ t then 3 else if 99 ≤ t then 2 else if 95 ≤ t then 1 else 0

/-- A factor is left only at 3 °C below its threshold (R228). -/
def lowerFactor : Nat → Nat → Nat
  | 0, _ => 0
  | k + 1, t => if t + 3 ≤ heatThreshold (k + 1) then lowerFactor k t else k + 1

/-- Next factor: up at once, down by the hysteresis (R228). -/
def nextFactor (f t : Nat) : Nat := if f < heatLevel t then heatLevel t else lowerFactor f t

/-- Hottest of a cluster's four PCs. -/
def hottest (s : State) (c : Nat) : Nat :=
  (List.range 4).foldl (fun m i => max m (tempOf s (c * 4 + i))) 0

/-- The cluster's factor follows its hottest PC. -/
def setThrottle (s : State) (pc : Nat) : State :=
  let c := pc / 4
  let f := fget s .pcTempThrottle (c * 4)
  let f' := nextFactor f (hottest s c)
  if f' = f then s
  else raise ((List.range 4).foldl (fun s i => fset s .pcTempThrottle f' (c * 4 + i)) s) .pcThrottle pc

/-- A retrain is due (R233). -/
def checkRetrain (s : State) (pc : Nat) : State :=
  let t := fget s .pcTempTempC pc
  let t0 := fget s .pcTempTempTrained pc
  if fcur s .pcCfgRetrainDelta pc ≤ (if t < t0 then t0 - t else t - t0) ∧ !(pcOf s pc).retrainDue ∧
      pcSt s pc ≠ pcFailed then
    raise (pcUpd s pc fun st => { st with retrainDue := true }) .pcRetrainDue pc
  else s

/-- One temperature read, the trip of R229 apart. -/
def doTempRead (s : State) (pc : Nat) (reading : Option Nat) : State :=
  let s := match reading with
    | some t =>
      let s := fset (pcUpd s pc fun st => { st with tempInvalid := false }) .pcTempTempC t pc
      fset s .pcTempTempPeak (max t (fget s .pcTempTempPeak pc)) pc
    | none => raise (pcUpd s pc fun st => { st with tempInvalid := true }) .pcTempInvalid pc
  let t := tempOf s pc
  let was := fget s .pcTempRefresh2x pc
  let s := if 85 ≤ t ∧ was = 0 then raise (fset s .pcTempRefresh2x 1 pc) .pcRefresh2x pc
    else if t < 83 then fset s .pcTempRefresh2x 0 pc else s
  let s := setThrottle s pc
  if reading.isSome then checkRetrain s pc else s

end Sys2Proof.Machine
end

