-- ==== Sys2Proof/Machine/Home.lean ====
section
/-! DEFINITION. What happens at a line's home: reading and writing cells under the line code (11 R245 to R251),
coded blocks (06 R143 to R153), snapshot drafts and versions (04 R93, R94), holding, losing and forwarding
requests (10 R234, R235; 12 R273, R280), and answering them (02; 09 R214). -/

namespace Sys2Proof.Machine

open Sys2Proof

/-! ### Lines -/

/-- The stored bytes of a line. -/
def lineData (s : State) (line : Nat) : Line := lineOfBytes (Memory.read s.mem (line * 64) 64)

/-- 64 MiB segment of a line (12 R283). -/
def lineSegment (line : Nat) : Nat := line / 0x0010_0000

/-- A line of a segment that was lost with its source and not written since (12 R288). -/
def lineUnsynced (s : State) (line : Nat) : Bool :=
  s.belay.lostSegs.contains (lineSegment line) && !s.belay.healed.contains line

/-- A line of a lost segment holds its own contents again. -/
def heal (s : State) (line : Nat) : State :=
  if s.belay.lostSegs.contains (lineSegment line) then
    { s with belay := { s.belay with healed := ins s.belay.healed line } } else s

/-- Write a line with valid check bytes. -/
def putLine (s : State) (line : Nat) (d : Line) : State :=
  heal { s with mem := Memory.write s.mem (line * 64) (lineBytesOf d), poison := rem s.poison line,
                damage := s.damage.filter fun x => decide (x.1 ≠ line) } line

/-- Write the poison word (R247). -/
def putPoison (s : State) (line : Nat) : State :=
  { s with mem := Memory.zero s.mem (line * 64) (line * 64 + 64), poison := ins s.poison line,
           damage := s.damage.filter fun x => decide (x.1 ≠ line) }

/-- Write the 8,192 bytes of a block. -/
def putBlock (s : State) (b : Nat) (bs : List Byte) : State :=
  let s := (List.range 128).foldl (fun s i => heal s (b * 128 + i)) s
  { s with mem := Memory.write (Memory.zero s.mem (blockDpa b) (blockDpa b + 8192)) (blockDpa b) bs,
           poison := s.poison.filter fun l => decide (l / 128 ≠ b),
           damage := s.damage.filter fun x => decide (x.1 / 128 ≠ b) }

/-- Bytes of `new` where the mask is set, of `old` elsewhere. -/
def mergeLine (old new : Line) (mask : BitVec 64) : Line :=
  lineOfBytes ((List.range 64).map fun i =>
    if mask.getLsbD i then new.extractLsb' (8 * i) 8 else old.extractLsb' (8 * i) 8)

/-- RAS.LAST_UE. -/
def setLastUe (s : State) (pc : Nat) (l : Loc) (src : Nat) : State :=
  let s := fset (fset (fset s .rasLastUePc pc) .rasLastUeRank l.rank) .rasLastUeBank l.bank
  let s := fset (fset (fset s .rasLastUeRow l.row) .rasLastUeColumn l.col) .rasLastUeSource src
  fset s .rasLastUePitchLow (count s)

/-- Payload of a line event: the line's number and the symbols corrected. -/
def lineBytes8 (line n : Nat) : List Byte := leBytes 8 line ++ leBytes 1 n

/-- The corrected line is written back at level 1 with a close hint, unless a newer write to it is queued (R246); a full queue
drops no contents, for the cells already hold the corrected line. -/
def writeBackLine (s : State) (line : Nat) : State :=
  let pc := pcOfAddr (line * 64)
  if (pcOf s pc).entries.any (fun e => e.write && decide (e.line = line)) || !queueRoom s pc 1 none then s
  else enqueue s pc true (line * 64) 1 none none 2

/-- Read one line of Basecamp: errors found now stay on the cells; a corrected read writes back and counts;
an uncorrectable one freezes its PC (R246, R247, R253; 10 R234). `src` is the code of LAST_UE.SOURCE. -/
def readLine (s : State) (line : Nat) (upset : Upset) (src : Nat) : State × LineRead :=
  let s := { s with damage := s.damage ++ upset.map fun u => (line, u.1, u.2) }
  let errs := (s.damage.filter fun x => decide (x.1 = line)).map (·.2)
  let pc := pcOfAddr (line * 64)
  let l := locOf s (line * 64)
  let r := readCode (s.poison.contains line || lineUnsynced s line) (lineData s line) errs
  match r with
  | .good _ => (s, r)
  | .corrected d n =>
    let s := finc (putLine s line d) .rasLineErrsCeLines
    let s := { s with ras := { s.ras with ce := aupd s.ras.ce line 0 fun c => c + (if 3 ≤ n then 255 else 1) } }
    (raise (writeBackLine s line) .rasCeLine 0 none (lineBytes8 line n), r)
  | .poison => (raise (finc s .rasPoisonPoisonReads) .rasPoisonRead 0 none (lineBytes8 line 0), r)
  | .bad =>
    let s := setLastUe (finc s .rasLineErrsUeLines) pc l src
    let s := raise s .rasUeLine 0 none (lineBytes8 line 0) none (if twinUp s then some .corrected else none)
    (freezePc s pc 1 l, r)

/-! ### Frames and their places (05 R100 to R104; 06 R147) -/

/-- The frame of a block. -/
def frameOf (s : State) (b : Nat) : Option Frame := s.frames.find? fun f => decide (f.block = b)

def frameMap (s : State) (b : Nat) (f : Frame → Frame) : State :=
  { s with frames := s.frames.map fun x => if x.block = b then f x else x }

/-- Frame space of a cluster, and of one of its PCs, in units of 64 bytes: 15 GiB, and a quarter of it. -/
def frameUnits : Nat := 251658240
def pcUnits : Nat := 62914560

/-- Frames of a cluster. -/
def clusterFrames (s : State) (c : Nat) : List Frame := s.frames.filter fun f => decide (blockCluster f.block = c)

/-- Units of a list of frames that have their place. -/
def unitSum (fs : List Frame) : Nat := (fs.map fun f => if f.placed then f.units else 0).sum

def usedUnits (s : State) (c : Nat) : Nat := unitSum (clusterFrames s c)

def freeUnits (s : State) (c : Nat) : Nat := frameUnits - usedUnits s c

/-- Units that a class holds at a cluster. -/
def classUnits (s : State) (c cls : Nat) : Nat := unitSum ((clusterFrames s c).filter fun f => decide (f.cls = cls))

/-- A class holds more than its frame share at a cluster (09 R212). -/
def overShare (s : State) (c cls : Nat) : Bool :=
  decide (cls < 16) &&
    decide (fcur s .qosClassCfgFrameShare (16 + cls) * frameUnits < classUnits s c cls * 256)

/-- Free space below a mark in 1/256 of frame space. -/
def belowMark (units mark : Nat) : Bool := decide (units * 256 < mark * frameUnits)

/-- A block waits in its expander. -/
def expWaits (s : State) (b : Nat) : Bool :=
  s.tier.exp.any fun x => (x.2.input ++ x.2.middle).any fun e => decide (e.block = b)

/-- A frame may be a victim (R103): nothing pins or holds it and nothing waits for it. -/
def evictable (s : State) (f : Frame) : Bool :=
  (decide (f.st = .clean) || decide (f.st = .dirty)) && f.pins.isEmpty && !f.polPin && !f.poisoned && !f.stuck && !f.lost &&
    f.waiters.isEmpty && !expWaits s f.block && !ahas s.tier.twinWaits f.block

/-- Victim group of R103, lowest first. -/
def victimGroup (s : State) (c : Nat) (f : Frame) : Nat :=
  if overShare s c f.cls then 0
  else match f.cold, f.st with
    | true, .clean => 1
    | true, _ => 2
    | false, .clean => 3
    | false, _ => 4

/-- Order of victims: by group; within a group the longest unused goes first, where R103 says `by clock` for the CLEAN and
the DIRTY ones (DESIGN CHOICE, log 75). -/
def victimLe (s : State) (c : Nat) (f g : Frame) : Bool :=
  let a := victimGroup s c f
  let b := victimGroup s c g
  decide (a < b) || (decide (a = b) && decide (f.used ≤ g.used))

/-- The next victim of a cluster among the frames that a test admits. -/
def victimOf (s : State) (c : Nat) (ok : Frame → Bool) : Option Frame :=
  (sortBy (victimLe s c) ((clusterFrames s c).filter fun f => evictable s f && ok f)).head?

/-- The decompressed-block cache without a block. -/
def uncache (s : State) (b : Nat) : State := { s with cache := s.cache.filter fun c => decide (c.block ≠ b) }

/-- A block leaves Basecamp: its frame is free, its marks and copies go. CODED and the segment header stay. -/
def freeFrame (s : State) (b : Nat) : State :=
  let s := uncache (putBlock s b []) b
  { s with frames := s.frames.filter (fun f => decide (f.block ≠ b)), index := adel s.index b,
           compactQ := rem s.compactQ b, stale := rem s.stale b, damaged := adel s.damaged b }

/-- Units `[o, o + n)` of a PC's frame space are free of other blocks, within its bounds and outside banks mapped out. -/
def unitsFree (s : State) (pc b o n : Nat) : Bool :=
  decide (o + n ≤ pcUnits) &&
    (s.frames.all fun f => decide (f.block = b) || !f.placed || decide (pcOfAddr (blockDpa f.block) ≠ pc) ||
      decide (f.off + f.units ≤ o) || decide (o + n ≤ f.off) || decide (f.units = 0)) &&
    (s.ras.banksOut.isEmpty || (List.range n).all fun i => !bankOut s pc (bankqOf (locOfLine (o + i))))

/-- The lowest place of `n` units, at a multiple of `align`, for a block in its PC: first fit over the ends of the places
in use. The spec fixes the PC and the alignment only (DESIGN CHOICE, log 75). -/
def findPlace (s : State) (b n align : Nat) : Option Nat :=
  let pc := pcOfAddr (blockDpa b)
  let ends := 0 :: (s.frames.filter fun f => f.placed && decide (pcOfAddr (blockDpa f.block) = pc)).map fun f => f.off + f.units
  let starts := ends.flatMap fun e => (List.range 9).map fun i => (ceilDiv e align + (if align = 128 then i else 0)) * align
  (sortBy (fun a b => decide (a ≤ b)) starts.eraseDups).find? fun o => unitsFree s pc b o n

/-- CLEAN victims of the block's PC leave until a raw frame fits, at most `k` of them (R104). -/
def makeRoom : Nat → State → Nat → State
  | 0, s, _ => s
  | k + 1, s, b =>
    if (findPlace s b 128 128).isSome then s
    else match victimOf s (blockCluster b) fun f =>
        decide (f.st = .clean) && decide (f.block ≠ b) && decide (pcOfAddr (blockDpa f.block) = pcOfAddr (blockDpa b)) with
      | some v => makeRoom k (freeFrame s v.block) b
      | none => s

/-- Who may take a frame of a cluster now (08 R202): 0 a host request or a write expansion, 1 a step, 2 PREFETCH or PIN. -/
def mayTake (s : State) (c taker : Nat) : Bool :=
  decide (taker = 0) || !belowMark (freeUnits s c) (fget s .tierCfgFreeLow 0x10) ||
    (decide (taker = 1) && !belowMark (freeUnits s c) (fcur s .pitchWmarkStepFloor))

/-- A raw frame for a block, where its taker may have one and a place is free or a CLEAN victim makes one (R104). -/
def takePlace (s : State) (b taker : Nat) : State × Option Nat :=
  if mayTake s (blockCluster b) taker then
    let s := makeRoom s.frames.length s b
    (s, findPlace s b 128 128)
  else (s, none)

/-- A fixed-place period of the tiered configurations: start-up, and a resync of the twin (06 R147, Table 6.9). -/
def fixedPlace (s : State) : Bool := !running s || decide (fget s .belayResyncInfoActive = 1)

/-! ### Coded blocks (06) -/

/-- The index entry of a block; an unlisted one is the initial entry, RAW (06 R143). -/
def idxOf (s : State) (b : Nat) : IdxEntry := aget s.index b ⟨0, 0, 0, false, 0, 0⟩

/-- The block is stored as ZERO, CONST, RESID or LOWRANK. -/
def isCoded (s : State) (b : Nat) : Bool := decide ((idxOf s b).kind ≠ 0)

/-- The index entry of a resident block as it stands in the block index: a RAW block in a frame names its place
(06 R143, Table 6.7). -/
def idxShown (s : State) (b : Nat) : IdxEntry :=
  match ahas s.index b, frameOf s b with
  | false, some f => idxSeal ⟨0, 0, 8192, false, f.off, 0⟩ (localOf b)
  | _, _ => idxOf s b

/-- Element type and tile width of a block's extent. -/
def descOfBlock (s : State) (b : Nat) : Nat × Nat :=
  match extOf s (blockDpa b) with
  | some e => (e.attr.elem, e.attr.tile)
  | none => (0, 0)

/-- A block may be coded: a tensor descriptor and not protected (06 R128). -/
def mayCode (s : State) (b : Nat) : Bool :=
  match extOf s (blockDpa b) with
  | some e => decide (e.attr.elem ≠ 0) && decide (e.attr.prot = 0)
  | none => false

/-- The segment header of a block. -/
def segHdr (s : State) (b : Nat) : SegHeader := aget s.segs (segOf b) {}

/-- The header of a block's segment with the fields of its extent and its tag (06 Table 6.6). -/
def segNamed (s : State) (b : Nat) (g : SegHeader) : SegHeader :=
  { g with elem := (descOfBlock s b).1, tile := (descOfBlock s b).2, tag := segOf b }

/-- CODED is set for a block. -/
def codedBit (s : State) (b : Nat) : Bool := (segHdr s b).coded.getLsbD (localOf b % 64)

/-- A block of kind CONST, RESID or LOWRANK whose header names `slot` comes to a segment or leaves it: CODED and USE of the
slot follow (06 Table 6.6). -/
def segMark (s : State) (b : Nat) (slot on : Bool) : State :=
  let bit := 1#64 <<< (localOf b % 64)
  let use := fun n => if on then n + 1 else n - 1
  { s with segs := aupd s.segs (segOf b) {} fun g =>
      segSeal { segNamed s b g with
        coded := if on then g.coded ||| bit else g.coded &&& ~~~bit,
        use0 := if slot then g.use0 else use g.use0, use1 := if slot then use g.use1 else g.use1 } }

/-- TSLOT of the header of a block's stored form in Basecamp. -/
def formSlot (s : State) (b : Nat) : Bool := decide ((readHeader (Memory.read s.mem (blockDpa b) 16)).tslot = 1)

/-- The index entry becomes RAW: CODED is cleared, USE falls, the cache entry goes (06 R148). -/
def makeRaw (s : State) (b : Nat) : State :=
  let s := if 2 ≤ (idxOf s b).kind then segMark s b (formSlot s b) false else s
  uncache { s with index := adel s.index b, damaged := adel s.damaged b } b

/-- A raw frame in which every line holds the poison word (06 R146). -/
def poisonBlock (s : State) (b : Nat) : State :=
  let s := putBlock s b []
  { s with poison := (List.range 128).map (b * 128 + ·) ++ s.poison }

/-- A coded block takes its packed place in the home PC's frame space; in fixed-place layout it stays where it is
(06 R147). -/
def packFrame (s : State) (b n : Nat) : State :=
  if s.boot.tiered && !fixedPlace s then
    frameMap s b fun f => { f with off := (findPlace s b n 1).getD f.off, units := n }
  else s

/-- The index entry of a coded block, with OFFSET and CHECK (06 Table 6.7). -/
def setIdx (s : State) (b kind rank clen : Nat) (tslot : Bool) : State :=
  let off := match frameOf s b with
    | some f => if f.units = 128 then 0 else f.off
    | none => 0
  { s with index := aset s.index b (idxSeal ⟨kind, rank, clen, tslot, off, 0⟩ (localOf b)) }

/-- A block fails a check (06 R146): counted and recorded; in a pair it is logged as corrected. -/
def damageBlock (s : State) (b cause : Nat) : State :=
  let f : Fld := if cause = causeIndex then .cmpCheckFailsIndex
    else if cause ≤ causeLength then .cmpCheckFailsHeader
    else if cause = causeFactor then .cmpCheckFailsFactor else .cmpCheckFailsResidual
  let s := finc s f
  let s := fset (fset s .cmpLastDamageLocal (localOf b)) .cmpLastDamageCluster (blockCluster b)
  let s := fset (fset s .cmpLastDamageCause cause) .cmpLastDamagePitchLow (count s)
  let s := { s with damaged := aset s.damaged b cause }
  let sev := if twinUp s then some Sev.corrected else none
  let s := raise s (if cause = causeTable then .cmpTableBad else .cmpDamaged) 0 none
    (leBytes 2 (blockCluster b) ++ leBytes 4 (localOf b) ++ leBytes 1 cause) none sev
  s

/-- Read the lines of a block's stored form; a bad or poisoned line is cause MEDIA (R145). -/
def readForm (s : State) (b clen src : Nat) : State × Bool :=
  (List.range (ceilDiv clen 64)).foldl (fun x i =>
    let (s, r) := readLine x.1 (b * 128 + i) [] src
    match r with
    | .good _ | .corrected .. => (s, x.2)
    | _ => (s, false)) (s, true)

/-- What the stored form of a block decodes to, its lines readable (06 R144, R145). A length that disagreed with the LBA
map when the block was filled stays the cause. -/
def decodeStored (s : State) (b : Nat) : Decoded :=
  let e := idxOf s b
  let (elem, tile) := descOfBlock s b
  let form := Memory.read s.mem (blockDpa b) e.clen
  if !idxOk e (localOf b) then .damaged causeIndex
  else if aget s.damaged b 0 = causeLength then .damaged causeLength
  else if e.kind = 0 then .ok (Memory.read s.mem (blockDpa b) 8192) 0 []
  else if e.kind = 1 then .ok (List.replicate 8192 0) 0 []
  else decodeForm e.kind e.clen (if e.kind = 2 then formSlot s b else e.tslot) elem tile (segOf b) (segHdr s b) form

/-- The expander has decoded a block: EXPANDED, and its cost in this pitch (06 R154, Table 6.11). -/
def expanded (s : State) (b kind elem rank : Nat) (esc : List Nat) : State :=
  let cost := expanderCost kind elem rank esc
  { finc s .cmpExpanderExpanded with
    expPitch := aupd s.expPitch (blockCluster b) (0, 0) fun x => (x.1 + cost, x.2 + 1) }

/-- Decode a coded block through the expander (06 R144, R153). -/
def decodeBlock (s : State) (b src : Nat) : State × Decoded :=
  let e := idxOf s b
  let (s, ok) := if idxOk e (localOf b) then readForm s b e.clen src else (s, true)
  match (if ok then decodeStored s b else .damaged causeMedia) with
  | .ok bs rank esc => (expanded s b e.kind (descOfBlock s b).1 rank esc, .ok bs rank esc)
  | .damaged c => (damageBlock s b c, .damaged c)

/-- The cache entry that a new one replaces in its set: of classes beyond their ways first, then least
recently used (06 R153; 09 R212). The list is most recent first. -/
def cacheVictim (s : State) (set : List CacheEntry) : Option CacheEntry :=
  let isOver := fun (c : CacheEntry) =>
    decide (fcur s .qosClassCfgCacheWays (16 + c.cls) < (set.filter fun x => decide (x.cls = c.cls)).length)
  match set.reverse.find? isOver with
  | some c => some c
  | none => set.getLast?

/-- Two blocks fall into one set of one cluster's cache. -/
def cacheMates (b b' : Nat) : Bool :=
  decide (blockCluster b = blockCluster b') && decide (Config.cacheSet b % 16 = Config.cacheSet b' % 16)

/-- A decoded block enters the cache of its cluster as the most recent. -/
def cachePut (s : State) (b cls : Nat) (bytes : List Byte) : State :=
  let rest := s.cache.filter fun c => decide (c.block ≠ b)
  let set := rest.filter fun c => cacheMates c.block b
  let s := { s with cache := ⟨b, cls, bytes⟩ :: rest }
  if set.length < 16 then s
  else match cacheVictim s set with
    | some v => { s with cache := ⟨b, cls, bytes⟩ :: rest.filter fun c => decide (c ≠ v) }
    | none => s

/-- The cached bytes of a block. -/
def cached (s : State) (b : Nat) : Option (List Byte) := (s.cache.find? fun c => decide (c.block = b)).map (·.bytes)

/-- A read hits the cache. -/
def cacheHit (s : State) (b cls : Nat) (bytes : List Byte) : State :=
  finc (cachePut s b cls bytes) .cmpExpLoadCacheHits 0 (blockCluster b)

/-- The bytes of a coded block, from the cache or the expander. -/
def codedBytes (s : State) (b cls src : Nat) : State × Decoded :=
  match cached s b with
  | some bs => (cacheHit s b cls bs, .ok bs 0 [])
  | none =>
    let (s, d) := decodeBlock s b src
    match d with
    | .ok bs _ _ => (cachePut s b cls bs, d)
    | .damaged _ => (s, d)

/-- The raw frame of a write expansion: a new one in the tiered configurations, the block's own place in fixed-place
layout; `false` where it must wait for one (06 R148; 08 R202). -/
def expandRoom (s : State) (b : Nat) : State × Bool :=
  match s.boot.tiered, frameOf s b with
  | true, some f =>
    if f.units = 128 then (s, true)
    else match takePlace s b 0 with
      | (s, some o) => (frameMap s b fun f => { f with off := o, units := 128 }, true)
      | (s, none) => (s, false)
  | _, _ => (s, true)

/-- The block's contents no longer equal its Scree content (05 Table 5.1). -/
def dirtied (s : State) (b : Nat) : State :=
  frameMap s b fun f => { f with st := if f.st = .clean then .dirty else f.st, rewritten := decide (f.st = .evicting) || f.rewritten }

/-- A block becomes RAW with the bytes given, in its raw frame (06 R148). -/
def rawBlock (s : State) (b : Nat) (bs : List Byte) : State :=
  dirtied (putBlock (makeRaw s b) b bs) b

/-! ### Partial writes (11 R251) -/

/-- A partial write whose bytes are discarded. -/
def discardPartial (s : State) (p : Part) : State :=
  record s .partialWritePoison (0x0100 + p) (some p.val)

/-- Merge one accepted partial write. -/
def mergeOne (s : State) (r : Req) (upset : Upset) : State :=
  let line := lineOf r.dpa
  let pc := pcOfAddr r.dpa
  let s := pcUpd s pc fun st => { st with partials := st.partials.erase r }
  let (s, x) := readLine s line upset 0
  match x with
  | .good d | .corrected d _ => putLine s line (mergeLine d r.data r.mask)
  | .poison => discardPartial s r.p
  | .bad =>
    if twinUp s then pcUpd s pc fun st => { st with resync := ins st.resync (blockOf r.dpa) }
    else discardPartial (pcUpd s pc fun st => { st with poisonDue := ins st.poisonDue line }) r.p

/-- Merge the partial writes that wait on a line, in order. -/
def mergeLineAll (s : State) (line : Nat) (upset : Upset) : State :=
  let rs := (pcOf s (pcOfAddr (line * 64))).partials.filter fun r => decide (lineOf r.dpa = line)
  match rs with
  | [] => s
  | r :: rest => rest.foldl (fun s r => mergeOne s r []) (mergeOne s r upset)

/-! ### Snapshot contents (04 R93, R94) -/

/-- The saved copy that a version reads of a block; none where the newest contents serve it. -/
def savedFor (x : Snap) (v b : Nat) : Option SavedBlock :=
  if v = x.newest then none
  else ((x.old.filter fun o => decide (v ≤ o.num)).findSome? fun o => o.saved.find? fun k => decide (k.block = b))

/-- The version of a snapshot extent that a partition's host reads (R93). -/
def versionFor (x : Snap) (p : Nat) : Nat := aget x.opens p x.newest

/-- The copy in the reserve that serves a read: the publisher's draft, or an old version's block. -/
def snapCopy (s : State) (e : Extent) (p b : Nat) (ver : Option Nat) : Option SavedBlock :=
  if e.attr.sharing = 2 then
    match snapOf s e.base with
    | some x =>
      if isPublisher e p && ver.isNone && x.draft.isSome then
        (x.draft.getD []).find? fun k => decide (k.block = b)
      else savedFor x (ver.getD (versionFor x p)) b
    | none => none
  else none

/-- The contents of a block as a saved copy: decoded, with the lines that hold poison, all of them where it is damaged. -/
def copyBlock (s : State) (b : Nat) : State × SavedBlock :=
  if isCoded s b then
    match decodeBlock s b 3 with
    | (s, .ok bs _ _) => (s, { block := b, bytes := bs, bad := [] })
    | (s, .damaged _) => (s, { block := b, bytes := List.replicate 8192 0, bad := List.range 128 })
  else (s, { block := b, bytes := Memory.read s.mem (blockDpa b) 8192,
             bad := (s.poison.filter fun l => decide (l / 128 = b)).map (· % 128) })

/-- The draft's copy of a block, made at the publisher's first write to it (R94). -/
def draftBlock (s : State) (e : Extent) (b : Nat) : State :=
  match snapOf s e.base with
  | some x =>
    match x.draft with
    | some d =>
      if d.any fun k => decide (k.block = b) then s
      else
        let (s, k) := copyBlock s b
        snapMap s e.base fun x => { x with draft := some (d ++ [k]) }
    | none => s
  | none => s

/-- Write bytes under a mask into a line of the draft's copy. -/
def draftWrite (s : State) (e : Extent) (dpa : Nat) (d : Line) (mask : BitVec 64) : State :=
  let b := blockOf dpa
  let i := lineOf dpa % 128
  snapMap (draftBlock s e b) e.base fun x =>
    { x with draft := x.draft.map fun l => l.map fun k =>
        if k.block = b then
          let old := lineOfBytes ((k.bytes.drop (64 * i)).take 64)
          let new := lineBytesOf (mergeLine old d mask)
          if k.bad.contains i && mask ≠ BitVec.allOnes 64 then k
          else { k with bytes := k.bytes.take (64 * i) ++ new ++ k.bytes.drop (64 * i + 64),
                        bad := rem k.bad i }
        else k }

/-! ### Home states -/

/-- How a home answers a request now. -/
inductive HomeSt where
  | serve | hold | expired | lost
  deriving DecidableEq, Repr

/-- A line is lost: its cells are, and in the tiered families its block was not clean there
(03 Table 3.5). -/
def lineLost (s : State) (dpa : Nat) : Bool :=
  if s.boot.tiered then
    (match frameOf s (blockOf dpa) with
      | some f => f.lost
      | none => false)
  else cellsLost s dpa

/-- A retirement copies the block or repairs the row or bank behind a DPA (11 R254). -/
def retiring (s : State) (dpa : Nat) : Bool :=
  match s.ras.busy with
  | some r =>
    let l := locOf s dpa
    decide (r.pc = pcOfAddr dpa) && decide (r.rank = l.rank) &&
      (if r.op = 1 then decide (r.bank / 4 = l.bank / 4) && decide (r.row = l.row)
       else if r.op = 2 then decide (r.bank = l.bank) && decide (r.row = l.row) else false)
  | none => false

/-- In a pair the twin serves a PC while it is frozen and until its resync list is copied back (10 R235). -/
def twinServes (s : State) (pc : Nat) : Bool :=
  twinUp s && (decide (pcSt s pc = pcFrozen) || !(pcOf s pc).resync.isEmpty)

/-- State of a line's home. -/
def homeSt (s : State) (dpa : Nat) : HomeSt :=
  let pc := pcOfAddr dpa
  if lineLost s dpa then .lost
  else if s.boot.tiered && cellsLost s dpa then .serve
  else if pcSt s pc = pcFrozen then (if (pcOf s pc).holdOver && !twinUp s then .expired else .hold)
  else if twinServes s pc then .hold
  else if pcSt s pc ≠ pcRun ∨ fget s .pwrStatusRung ≠ 0 ∨ ahas s.resetting (clusterOf dpa) ∨ retiring s dpa then
    .hold
  else .serve

/-! ### Jobs that a request comes from -/

/-- A job in the package. -/
def jobOf (s : State) (p ring idx : Nat) : Option Job :=
  s.jobs.find? fun j => decide (j.p.val = p) && decide (j.ring.val = ring) && decide (j.idx = idx)

def jobMap (s : State) (p ring idx : Nat) (f : Job → Job) : State :=
  { s with jobs := s.jobs.map fun j => if j.p.val = p ∧ j.ring.val = ring ∧ j.idx = idx then f j else j }

/-- The job of a request. -/
def reqJob (s : State) (r : Req) : Option Job :=
  match r.src with
  | .job ring idx => jobOf s r.p ring idx
  | _ => none

/-- A running job fails: its first status stays, and of the failures of one pitch the lowest code (07 R165). -/
def failJob (s : State) (p : Part) (ring : Ring) (idx status : Nat) : State :=
  { s with jobs := s.jobs.map fun j =>
      if j.p = p ∧ j.ring = ring ∧ j.idx = idx ∧
          (j.status = 0 ∨ (j.failPitch = some (count s) ∧ status < j.status)) then
        { j with status := status, failPitch := some (count s) } else j }

/-- A write of a step's results is accepted; the step that has written all of them leaves the ledger (08 R193). -/
def stepAccepted (s : State) (r : Req) : State :=
  let mine := fun (x : Step) => decide (x.p = r.p) && decide (r.src = .job x.ring x.idx) &&
    decide (r.step = some (x.num, x.attempt))
  let steps := s.steps.map fun x => if mine x then { x with owed := x.owed - 1 } else x
  { s with steps := steps.filter fun x => !(mine x && decide (x.st = .committing) && decide (x.owed = 0)) }

/-- The answer that a request gets where nothing is served: poison, or completed and dropped. -/
def noService (r : Req) : MemRes :=
  match r.kind with
  | .read | .operatorRead => .poison
  | _ => .cmp

/-- The version of a snapshot extent that a read finds at its home: the one its job or its partition holds, else the newest;
none for the publisher while it drafts (04 R93). -/
def verAt (s : State) (r : Req) : Option Nat :=
  match extOf s r.dpa with
  | some e =>
    match if e.attr.sharing = 2 ∧ noService r = .poison then snapOf s e.base else none with
    | some x =>
      if isPublisher e r.p && x.draft.isSome then none
      else
        let held := (reqJob s r).bind fun j => (x.jobOpens.find? fun o => decide (o.1 = j.seq)).map (·.2)
        some (held.getD (versionFor x r.p))
    | none => none
  | none => none

/-- The version that a read returns: that of its arrival at its home. -/
def reqVer (s : State) (r : Req) : Option Nat := r.ver <|> verAt s r

/-- A request reaches its home: a read keeps the version that it finds. -/
def atHome (s : State) (r : Req) : Req := { r with ver := reqVer s r }

/-- Every request that waits at its home changes. -/
def mapHeld (s : State) (f : Req → Req) : State :=
  let inExp := fun (l : List ExpEntry) => l.map fun e => { e with waiters := e.waiters.map f }
  { s with
    pcs := s.pcs.map fun x => (x.1, { x.2 with held := x.2.held.map f })
    frames := s.frames.map fun x => { x with waiters := x.waiters.map f }
    resetting := s.resetting.map fun x => (x.1, x.2.map f)
    tier := { s.tier with
      twinWaits := s.tier.twinWaits.map fun x => (x.1, x.2.map f)
      exp := s.tier.exp.map fun x => (x.1, { x.2 with input := inExp x.2.input, middle := inExp x.2.middle,
                                                      held := x.2.held.map f }) } }

/-- The line of a saved block that a waiting read returns. -/
def fixLine (r : Req) (k : SavedBlock) : Req :=
  let i := lineOf r.dpa % 128
  { r with fixed := some (if k.bad.contains i then none else some (lineOfBytes ((k.bytes.drop (64 * i)).take 64))) }

/-- Before versions of an extent may be retired, the reads that wait for a saved block of one keep its line (04 R93). -/
def fixReads (s : State) (base : Nat) : State :=
  match snapOf s base with
  | some x => mapHeld s fun r =>
    match r.ver, r.fixed, (extOf s r.dpa).map (·.base) with
    | some v, none, some b => if b = base then (match savedFor x v (blockOf r.dpa) with
        | some k => fixLine r k
        | none => r) else r
    | _, _, _ => r
  | none => s

/-- Before a commit replaces a block, the reads that wait for its old contents keep them (04 R93). -/
def fixReplaced (s : State) (k : SavedBlock) : State :=
  mapHeld s fun r =>
    match r.ver, r.fixed with
    | some _, none => if blockOf r.dpa = k.block then fixLine r k else r
    | _, _ => r

/-! ### Answers -/

/-- CLASS of the addressed extent (09 R211). -/
def classOf (s : State) (dpa : Nat) : Option Nat := (extOf s dpa).map fun e => e.attr.cls

/-- Class of a request: the job's for an operator step, else the extent's (09 R211). -/
def reqClass (s : State) (r : Req) : Option Nat :=
  match reqJob s r with
  | some j => some j.desc.cls
  | none => classOf s r.dpa

/-- DevLoad of a response (09 R214). -/
def devLoadOf (s : State) (dpa : Nat) : DevLoad :=
  let pc := pcOfAddr dpa
  let n := (pcOf s pc).entries.length
  let base := if n < 16 then 0 else if n < 32 then 1 else if n < 48 then 2 else 3
  let least := match classOf s dpa with
    | some k =>
      if s.qos.mode = 0 ∧ classOver s (clusterOf dpa) k then
        (if fcur s .qosClassCfgQueueEntries (16 + k) ≤ classEntries s pc k then 3 else 2) else 0
    | none => 0
  match max base least with
  | 0 => .light | 1 => .optimal | 2 => .moderate | _ => .severe

/-- A CXL.mem response leaves a head: the DevLoad counters follow (09 Table 9.3, R217). -/
def hostRsp (s : State) (p : Part) (h : Head) (dpa : Nat) (res : MemRes) : State :=
  let load := devLoadOf s dpa
  let s := emit s (.memRsp p h dpa res load)
  let f : Fld := match load with
    | .light => .qosDevloadLight | .optimal => .qosDevloadOptimal
    | .moderate => .qosDevloadModerate | .severe => .qosDevloadSevere
  let isOver := match load with
    | .moderate | .severe => 1
    | _ => 0
  { fwadd s f 1 p with qos := { s.qos with rsp := s.qos.rsp + 1, overRsp := s.qos.overRsp + isOver } }

/-- Answer a request; a poisoned host read raises a General Media event where R75 lists its reason. -/
def answer (s : State) (r : Req) (res : MemRes) (gme : Bool := false) : State :=
  match r.src with
  | .host h =>
    let s := hostRsp s r.p h r.dpa res
    if gme && decide (res = .poison) then mediaEvent s r.p true r.dpa else s
  | .twin id => emit s (.belay 1 (.mirror (.accept id)))
  | .fwd id =>
    match res with
    | .data d => emit s (.belay 1 (.forward (.readAnswer id (some d))))
    | .poison => emit s (.belay 1 (.forward (.readAnswer id none)))
    | .cmp => emit s (.belay 1 (.forward (.writeAnswer id)))
  | .job ring idx =>
    match res with
    | .data d => jobMap s r.p ring idx fun j => { j with got := aset j.got (lineOf r.dpa) d }
    | .poison => failJob s r.p ring idx (if ahas s.damaged (blockOf r.dpa) then 0x12 else 0x13)
    | .cmp => stepAccepted (jobMap s r.p ring idx fun j => { j with owed := j.owed - 1 }) r
  | .mailbox h => emit s (.mbRsp r.p h .success [])
  | .device => s

/-! ### Forwarding and mirroring (12 R273, R280) -/

/-- A fresh identifier of a Belay request: the lead's are even, the second's odd. -/
def newId (s : State) : Nat × State :=
  (s.belay.nextId * 2 + (if fget s .belayStatusRole = 2 then 1 else 0),
    { s with belay := { s.belay with nextId := s.belay.nextId + 1 } })

/-- Forward a request to the twin; it is answered when the twin answers (R268, R280). -/
def forwardReq (s : State) (r : Req) (upset : Upset) : State :=
  let (id, s) := newId s
  let s := finc s .belayForwardStatsFwdReq
  let s := { s with belay := { s.belay with forwarded := s.belay.forwarded ++ [⟨id, r⟩] } }
  let via := match r.src with
    | .host h => if forwardsAll s then some h else none
    | _ => none
  match r.kind with
  | .read | .operatorRead => emit s (.belay 2 (.forward (.read id r.p r.dpa upset via r.mv)))
  | _ => emit s (.belay 2 (.forward (.write id r.p r.dpa r.data r.mask)))

/-- The pair mirrors writes: MIRROR or STANDBY with both packages up (Table 12.1). -/
def mirrors (s : State) : Bool :=
  decide (fget s .belayStatusRole = 1) && twinUp s && decide (fget s .belayStatusModeActive ≠ 2)

/-- 64 MiB segment of a DPA (R283). -/
def segmentOf (dpa : Nat) : Nat := dpa / 0x0400_0000

/-- A mirrored write is accepted here: the twin is told; a write that entered here and was forwarded completes
(R273). -/
def twinAccept (s : State) (r : Req) (id : Nat) : State :=
  match s.belay.forwarded.find? fun m => decide (m.id = id) with
  | some m =>
    let s := { s with belay := { s.belay with forwarded := s.belay.forwarded.erase m } }
    answer (answer s r .cmp) m.req .cmp
  | none => answer s r .cmp

/-- A write to a segment that the running resync has not copied yet is applied at the source only (R287). -/
def notCopied (s : State) (dpa : Nat) : Bool :=
  decide (fget s .belayStatusState = 2) && s.belay.unsync.contains (segmentOf dpa)

/-- After a local acceptance at the lead: mirror the line and wait, or complete (R273, R287). -/
def acceptDone (s : State) (r : Req) : State :=
  let s := if fget s .belayStatusState = 4 ∨ fget s .belayStatusModeActive = 2 ∧ paired s then
      { s with belay := { s.belay with changed := ins s.belay.changed (segmentOf r.dpa) } } else s
  match r.src with
  | .twin id => twinAccept s r id
  | .fwd id =>
    -- a write forwarded by the second comes back to it, which then completes it
    if mirrors s && !notCopied s r.dpa then emit s (.belay 1 (.mirror (.write id r.p r.dpa r.data r.mask)))
    else answer s r .cmp
  | .device => answer s r .cmp
  | _ =>
    let twinJob := match reqJob s r with
      | some j => j.twin
      | none => false
    if mirrors s && !twinJob && !notCopied s r.dpa then
      let (id, s) := newId s
      let s := { s with belay := { s.belay with mirror := s.belay.mirror ++ [⟨id, r⟩] } }
      emit s (.belay 1 (.mirror (.write id r.p r.dpa r.data r.mask)))
    else answer s r .cmp

/-! ### Serving at the home -/

/-- What a read yields: data, or poison with or without a General Media event. -/
inductive RdRes where
  | data (d : Line)
  /-- `cells`: the line itself is poison or uncorrectable, and a twin's sound copy serves it (11 R250) -/
  | poison (gme cells : Bool)
  deriving DecidableEq, Repr

/-- Line `i` of the bytes of a block. -/
def lineIn (bs : List Byte) (i : Nat) : Line := lineOfBytes ((bs.drop (64 * i)).take 64)

/-- The data that a read of one line yields at its home. -/
def readData (s : State) (p : Part) (dpa : Nat) (upset : Upset) (src : Nat) (ver : Option Nat := none) :
    State × RdRes :=
  let line := lineOf dpa
  let b := blockOf dpa
  let i := line % 128
  let cls := (classOf s dpa).getD 0
  match (heldExt s p dpa).bind fun e => snapCopy s e p b ver with
  | some k => (s, if k.bad.contains i then .poison true false else .data (lineIn k.bytes i))
  | none =>
    if isCoded s b then
      let (s, d) := codedBytes s b cls src
      match d with
      | .ok bs _ _ => (s, .data (lineIn bs i))
      | .damaged _ => (s, .poison true false)
    else
      let waits := (pcOf s (pcOfAddr dpa)).partials.any fun r => decide (lineOf r.dpa = line)
      let s := mergeLineAll s line upset
      let (s, r) := readLine s line (if waits then [] else upset) src
      match r with
      | .good d => (s, .data d)
      | .corrected d _ => (mediaEvent s p false dpa, .data d)
      | .poison => (s, .poison true true)
      | .bad => (s, .poison true true)

/-- Bytes that a request moves at its PC: the line, or the stored form of a coded block (09 R208). -/
def moveBytes (s : State) (r : Req) (write : Bool) : State :=
  let b := blockOf r.dpa
  let part := some r.p.val
  let cls := reqClass s r
  let c := clusterOf r.dpa
  if isCoded s b then qosMove s c part cls (ceilDiv (idxOf s b).clen 64 * 64) write (some 64)
  else qosMove s c part cls 64 write

/-- A block was written: its frame is DIRTY, a compaction of it is stale, its poison may be gone
(05 R102; 06 R151; 05 Table 5.2). -/
def noteWrite (s : State) (b : Nat) : State :=
  let s := if s.compactQ.contains b then { s with stale := ins s.stale b } else s
  frameMap (dirtied s b) b fun f =>
    { f with poisoned := f.poisoned && s.poison.any (fun l => decide (l / 128 = b)), used := count s }

/-- The mask of a whole line. -/
def fullMask : BitVec 64 := BitVec.allOnes 64

/-- Apply an accepted write to a RAW block or a draft at its home (R15; 11 R251; 04 R94). -/
def applyWrite (s : State) (r : Req) : State :=
  let b := blockOf r.dpa
  let line := lineOf r.dpa
  let draft := (extOf s r.dpa).bind fun e => if e.attr.sharing = 2 then some e else none
  match draft with
  | some e => draftWrite s e r.dpa r.data r.mask
  | none =>
    let pc := pcOfAddr r.dpa
    let s := if r.mask = fullMask then
        putLine (pcUpd s pc fun st =>
          { st with partials := st.partials.filter (fun q => decide (lineOf q.dpa ≠ line)),
                    poisonDue := rem st.poisonDue line }) line r.data
      else pcUpd s pc fun st => { st with partials := st.partials ++ [r] }
    noteWrite s b

/-- Level of a request at its cluster. -/
def reqLevel (s : State) (r : Req) : Nat :=
  levelOf s (clusterOf r.dpa) (some r.p.val) (reqClass s r)

/-- Page-policy hint of a request: PAGE_HINT of the extent; for an operator step the kernel's, which the spec
leaves open (10 R224). -/
def hintOf (s : State) (r : Req) : Nat × State :=
  match r.src with
  | .job .. => ((draw s).1 % 3, (draw s).2)
  | _ => (match extOf s r.dpa with
    | some e => e.attr.pageHint
    | none => 0, s)

/-! ### The expander's queues (06 R153) -/

def expOf (s : State) (c : Nat) : Expander := aget s.tier.exp c {}

def expUpd (s : State) (c : Nat) (f : Expander → Expander) : State :=
  { s with tier := { s.tier with exp := aupd s.tier.exp c {} f } }

/-- Blocks in each of the two queues. -/
def expDepth : Nat := 16

/-- A read joins its block in the queues, or its block enters the input queue; while that is full the mover holds it. -/
def expAccept (prio : Req → Nat) (x : Expander) (r : Req) : Expander :=
  let b := blockOf r.dpa
  let join := fun (e : ExpEntry) => if e.block = b then
    { e with waiters := e.waiters ++ [r], prio := min e.prio (prio r) } else e
  if (x.input ++ x.middle).any fun e => decide (e.block = b) then
    { x with input := x.input.map join, middle := x.middle.map join }
  else if x.input.length < expDepth ∧ x.held = [] then
    { x with input := x.input ++ [⟨b, prio r, [r]⟩], peak := max x.peak (x.input.length + 1) }
  else { x with held := x.held ++ [r] }

/-- Requests that the mover holds enter as the input queue has room. -/
def expRefill (prio : Req → Nat) (x : Expander) : Expander :=
  x.held.foldl (expAccept prio) { x with held := [] }

/-- The matrix stage takes blocks while the queue behind it has room: host reads, then operator steps, each in arrival
order. -/
def expFlow : Nat → Expander → Expander
  | 0, x => x
  | n + 1, x =>
    match (x.input.find? fun e => decide (e.prio = 0)) <|> x.input.head? with
    | some e => if x.middle.length < expDepth then
        expFlow n { x with input := x.input.erase e, middle := x.middle ++ [e],
                           least := min x.least (x.input.length - 1) }
      else x
    | none => x

/-- Class of service of a read: operator steps come after host reads. -/
def expPrio (s : State) (r : Req) : Nat := if (reqJob s r).isSome then 1 else 0

/-- A block leaves the queues of its expander; the reads that waited for it are the answer. -/
def expTake (s : State) (b : Nat) : State × List Req :=
  let c := blockCluster b
  let x := expOf s c
  let mine := (x.input ++ x.middle).filter fun e => decide (e.block = b)
  if mine.isEmpty then (s, [])
  else
    let s := expUpd s c fun x =>
      let x := expRefill (expPrio s) { x with input := x.input.filter (fun e => decide (e.block ≠ b)),
                                              middle := x.middle.filter (fun e => decide (e.block ≠ b)) }
      { x with least := min x.least x.input.length }
    (s, mine.flatMap (·.waiters))

/-- Reads are answered with the lines of a decoded block. -/
def answerLines (s : State) (rs : List Req) (bs : List Byte) : State :=
  rs.foldl (fun s r => answer s r (.data (lineIn bs (lineOf r.dpa % 128)))) s

/-! ### Damaged blocks (06 R146) -/

/-- The twin is asked for a block, once; some requests wait for it. -/
def askTwin (s : State) (b : Nat) (rs : List Req) : State :=
  let s := if ahas s.tier.twinWaits b then s else emit s (.belay 2 (.forward (.block s.belay.nextId b)))
  { s with tier := { s.tier with twinWaits := aupd s.tier.twinWaits b [] (· ++ rs) } }

/-- A request waits for a block that the twin is asked for. -/
def awaitTwin (s : State) (r : Req) : State := askTwin s (blockOf r.dpa) [r]

/-- A request to a damaged block with no twin to repair it: a read gets poison; a write makes a raw frame in which every
line holds the poison word, and lands in it. -/
def soloDamaged (s : State) (r : Req) : State :=
  if noService r = .poison then answer s r .poison true
  else acceptDone (applyWrite (poisonBlock (rawBlock s (blockOf r.dpa) []) (blockOf r.dpa)) r) r

/-- Steps 1 and 2 of R148 on a coded block, where its raw frame is free; a damaged one stays, and in a pair the twin is asked
for it (R146). -/
def expandBlock (s : State) (b : Nat) : State :=
  if isCoded s b then
    match expandRoom s b with
    | (s, false) => s
    | (s, true) =>
      match decodeBlock s b 1 with
      | (s, .ok bs _ _) => rawBlock s b bs
      | (s, .damaged _) => if twinUp s then askTwin s b [] else s
  else s

/-- A request finds its block damaged: in a pair the block comes from the twin first. -/
def damagedReq (s : State) (r : Req) : State := if twinUp s then awaitTwin s r else soloDamaged s r

/-- A write to a block that is not RAW expands it first: reads that wait for its decoding get theirs, in arrival order
(06 R148). -/
def expandedWrite (s : State) (r : Req) : State :=
  let b := blockOf r.dpa
  if ahas s.tier.twinWaits b then awaitTwin s r
  else match expandRoom s b with
  | (s, false) => frameMap s b fun f => { f with waiters := f.waiters ++ [r] }
  | (s, true) =>
    match decodeBlock s b 3 with
    | (s, .ok bs _ _) =>
      let (s, rs) := expTake s b
      acceptDone (applyWrite (rawBlock (answerLines s rs bs) b bs) r) r
    | (s, .damaged _) => damagedReq s r

/-- A dropped write or failed step of a reader (04 R81). -/
def readerWrite (s : State) (p : Nat) : State := raise s .dirReaderWrite p

/-- The block is stored coded, or failed a check. -/
def needsExpander (s : State) (b : Nat) : Bool := isCoded s b || ahas s.damaged b

/-- A write at its home; one to a snapshot extent finds the publisher's draft or is dropped as a reader's (04 R94). -/
def serveWrite (s : State) (r : Req) : State :=
  let snap := (extOf s r.dpa).bind fun e => if e.attr.sharing = 2 then some e else none
  match snap with
  | some e =>
    let draft := match snapOf s e.base with
      | some x => x.draft.isSome
      | none => false
    if isPublisher e r.p && draft then acceptDone (applyWrite s r) r
    else
      let s := answer (readerWrite s r.p) r .cmp
      match r.src with
      | .job ring idx => failJob s r.p ring idx 0x11
      | _ => s
  | none => if needsExpander s (blockOf r.dpa) then expandedWrite s r else acceptDone (applyWrite s r) r

/-- A read of a coded block: from the cache, or through the expander (06 R153). -/
def expandedRead (s : State) (r : Req) : State :=
  let b := blockOf r.dpa
  if ahas s.tier.twinWaits b then awaitTwin s r
  else match cached s b with
    | some bs => answerLines (cacheHit s b ((classOf s r.dpa).getD 0) bs) [r] bs
    | none => expUpd s (blockCluster b) fun x => expAccept (expPrio s) x r

/-- A read at its home. -/
def serveRead (s : State) (r : Req) (upset : Upset) : State :=
  let copy := (heldExt s r.p r.dpa).bind fun e => snapCopy s e r.p (blockOf r.dpa) (reqVer s r)
  if copy.isNone && needsExpander s (blockOf r.dpa) then expandedRead s r
  else
    let (s, x) := readData s r.p r.dpa upset (if (reqJob s r).isSome then 1 else 0) (reqVer s r)
    match x with
    | .data d => answer s r (.data d)
    | .poison gme cells =>
      let own := match r.src with
        | .fwd _ => false
        | _ => true
      if cells && twinUp s && own then forwardReq s { r with bad := true } []
      else answer s r .poison gme

/-- Serve a request at its home PC: it takes a queue entry and has its effect. -/
def perform (s : State) (r : Req) (upset : Upset) : State :=
  let pc := pcOfAddr r.dpa
  let write := decide (noService r = .cmp)
  let (hint, s) := hintOf s r
  let s := enqueue s pc write r.dpa (reqLevel s r) (some r.p.val) (reqClass s r) hint
  let s := moveBytes s r write
  if write then serveWrite s r
  else match r.fixed, (extOf s r.dpa).map (·.unreadable) with
    | some (some d), _ => answer s r (.data d)
    | some none, _ | none, some true => answer s r .poison true
    | none, _ => serveRead s r upset

/-- A held request waits at its cluster. -/
def holdReq (s : State) (r : Req) : State :=
  let c := clusterOf r.dpa
  if ahas s.resetting c then { s with resetting := aupd s.resetting c [] (· ++ [r]) }
  else pcUpd s (pcOfAddr r.dpa) fun st => { st with held := st.held ++ [r] }

/-- More than 4,096 writes dropped after FREEZE_HOLD: the PC fails instead of resuming (10 R235). -/
def droppedMax : Nat := 4096

/-- A request whose cells are lost or whose freeze outlasted FREEZE_HOLD (Table 3.5, Table 10.4). -/
def loseReq (s : State) (r : Req) (isLost : Bool) : State :=
  let isWrite := decide (noService r = .cmp)
  let s := if isWrite && !isLost then
      pcUpd s (pcOfAddr r.dpa) fun st => { st with dropped := ins st.dropped (lineOf r.dpa) } else s
  match r.src with
  | .job ring idx =>
    if isWrite then
      let s := answer s r .cmp
      if isLost then s else failJob s r.p ring idx 0x13
    else failJob s r.p ring idx 0x13
  | _ => answer s r (noService r) true

/-- A request for a home that its twin covers: forwarded, with its block listed for resync (10 Table 10.4;
12 R280). A mirrored write of the twin is kept by the twin and listed; a request that the twin forwarded finds
both copies gone. -/
def coverReq (s : State) (r : Req) (upset : Upset) (isLost : Bool) : State :=
  let s := if noService r = .cmp && !isLost then
      pcUpd s (pcOfAddr r.dpa) fun st => { st with resync := ins st.resync (blockOf r.dpa) } else s
  match r.src with
  | .twin id => twinAccept s r id
  | .fwd _ => if isLost then loseReq s r true else holdReq s r
  | _ => forwardReq s r upset

/-- A request reaches its home. -/
def homeReq (s : State) (r : Req) (upset : Upset) : State :=
  let r := atHome s r
  let pc := pcOfAddr r.dpa
  let s := qosOffer s (clusterOf r.dpa) (some r.p.val) 64
  match homeSt s r.dpa with
  | .serve =>
    if queueRoom s pc (reqLevel s r) (reqClass s r) && (pcOf s pc).held.isEmpty then perform s r upset
    else holdReq s r
  | .hold =>
    if twinServes s pc then coverReq s r upset false else holdReq s r
  | .expired => loseReq s r false
  | .lost => if twinUp s then coverReq s r upset true else loseReq s r true

/-- Serve the requests held for a PC that it may now take, in arrival order. -/
def admitHeld : Nat → State → Nat → State
  | 0, s, _ => s
  | n + 1, s, pc =>
    match (pcOf s pc).held with
    | [] => s
    | r :: rest =>
      match homeSt s r.dpa with
      | .serve =>
        if queueRoom s pc (reqLevel s r) (reqClass s r) then
          admitHeld n (perform (pcUpd s pc fun st => { st with held := rest }) r []) pc
        else s
      | .hold =>
        if twinServes s pc then
          admitHeld n (coverReq (pcUpd s pc fun st => { st with held := rest }) r [] false) pc
        else s
      | .expired =>
        admitHeld n (loseReq (pcUpd s pc fun st => { st with held := rest }) r false) pc
      | .lost =>
        let s := pcUpd s pc fun st => { st with held := rest }
        admitHeld n (if twinUp s then coverReq s r [] true else loseReq s r true) pc

/-- Serve what a PC holds. -/
def serveHeld (s : State) (pc : Nat) : State := admitHeld (pcOf s pc).held.length s pc

/-- Requests go to their home again. -/
def rehome (s : State) (rs : List Req) : State := rs.foldl (fun s r => homeReq s r []) s

/-- The reads that wait for a block in its expander go to its home again, where it changed meanwhile. -/
def rerunReads (s : State) (b : Nat) : State :=
  let (s, rs) := expTake s b
  rehome s rs

/-- Reads in the expander of a cluster whose home no longer serves them go to their homes again. -/
def rerunCluster (s : State) (c : Nat) : State :=
  let x := expOf s c
  if x.input.isEmpty && x.middle.isEmpty && x.held.isEmpty then s
  else rehome { s with tier := { s.tier with exp := adel s.tier.exp c } }
    ((x.middle ++ x.input).flatMap (·.waiters) ++ x.held)

/-- A block leaves the expander decoded: it enters the cache and its reads are answered; a damaged one is repaired or
poisoned (R146, R153). -/
def finishDecode (s : State) (b : Nat) (rs : List Req) : State :=
  if needsExpander s b then
    match decodeBlock s b 0 with
    | (s, .ok bs _ _) => answerLines (cachePut s b ((classOf s (blockDpa b)).getD 16) bs) rs bs
    | (s, .damaged _) => rs.foldl damagedReq s
  else rehome s rs

/-- The expander of a block's cluster decodes it, if it is the next one there; a block for which nothing waits is decoded
where nothing else waits (06 R144, R153). -/
def decodeNext (s : State) (b : Nat) : State :=
  let c := blockCluster b
  let s := expUpd s c fun x => expRefill (expPrio s) (expFlow expDepth x)
  match (expOf s c).middle with
  | e :: rest =>
    if e.block = b then
      finishDecode (expUpd s c fun x => expRefill (expPrio s) { x with middle := rest }) b e.waiters
    else s
  | [] => if needsExpander s b then finishDecode s b [] else s

/-- The twin's answer for a damaged block: stored RAW in place of the damaged form, it serves what waited; where the twin's
copy is bad too, the outcome is that of a package alone (R146). -/
def twinAnswered (s : State) (b : Nat) (ok : Bool) : State :=
  let rs := aget s.tier.twinWaits b []
  let s := { s with tier := { s.tier with twinWaits := adel s.tier.twinWaits b } }
  if ok then rehome s rs else rs.foldl soloDamaged s

/-- The twin is gone: what waited for its blocks has the outcome of a package alone. -/
def twinWaitsOver (s : State) : State := (s.tier.twinWaits.map (·.1)).foldl (fun s b => twinAnswered s b false) s

end Sys2Proof.Machine
end

