-- ==== Sys2Proof/Machine/Tier.lean ====
section
/-! DEFINITION. The Scree tier (05): frames and victims (R102 to R104), fills (R111, R112), write-backs (R113),
paths and stripes (R118 to R120), hints block by block (R107 to R109), and requests that miss. -/

namespace Sys2Proof.Machine

open Sys2Proof

/-! ### Slots and paths -/

/-- SLOT_STATUS.STATE codes (Table 5.10). -/
def slEmpty : Nat := 0
def slPowering : Nat := 1
def slAdmitting : Nat := 2
def slInService : Nat := 3
def slRebuilding : Nat := 4
def slFailed : Nat := 5
def slRemoving : Nat := 6
def slOff : Nat := 7

/-- TIER instance of a slot. -/
def slotInst (k : Nat) : Nat := 0x20 + k

def slotSt (s : State) (k : Nat) : Nat := fget s .tierSlotStatusState (slotInst k)

/-- The rebuild cursor of a cluster on a target slot: its stripes below it are rebuilt there (R122). -/
def rebuildCursor (s : State) (k c : Nat) : Nat := aget s.rebuild (c * 8 + k) 0

/-- A member can be read in a stripe: in service, or rebuilt below the cluster's cursor (R122). -/
def slotReadable (s : State) (k c t : Nat) : Bool :=
  decide (slotSt s k = slInService) || (decide (slotSt s k = slRebuilding) && decide (t < rebuildCursor s k c))

/-- Write-backs may go to a slot: it is a member and its deallocation is complete (R117). -/
def slotWritable (s : State) (k : Nat) : Bool :=
  decide (slotSt s k = slInService ∨ slotSt s k = slRebuilding) && (slotOf s k).deallocated

/-- Slots that are no members: missing, failed or rebuilding. -/
def missingSlots (s : State) : List Nat :=
  (List.range 8).filter fun k => decide (slotSt s k ≠ slInService ∧ slotSt s k ≠ slRemoving)

/-- Port die of a path (R120; 01 Table 1.4). -/
def pathDie (k : Nat) : Path → Nat
  | .a => k / 2
  | .b => (k / 2 + 1) % 4

/-- The engine die at a place along a port die's edge: its four are those of a row, or of a column, of the mesh (01 R10,
R13). -/
def edgeDie (pd i : Nat) : Nat :=
  match pd with
  | 0 => i
  | 1 => 4 * i + 3
  | 2 => 12 + i
  | _ => 4 * i

/-- Mesh hops from a port die to an engine die: it hands a request to the die of its own four that lies in the target's
column or row, or to the nearest surviving one where that is lost (01 R13). -/
def hops (s : State) (pd die : Nat) : Nat :=
  let at' := if pd = 0 ∨ pd = 2 then die % 4 else die / 4
  let away := match pd with
    | 0 => die / 4
    | 1 => 3 - die % 4
    | 2 => 3 - die / 4
    | _ => die % 4
  let far := fun i => if i < at' then at' - i else i - at'
  let left := (List.range 4).filter fun i => !dieOut s (edgeDie pd i)
  away + (left.map far).foldl min (if left.isEmpty then 4 else 3)

/-- Outstanding commands of a path. -/
def outstanding (s : State) (k : Slot) (p : Path) : Nat :=
  (s.ios.filter fun i => decide (i.slot = k) && decide (i.path = p)).length

/-- Path of a command: fewer outstanding, fewer hops, path A (R120). -/
def choosePath (s : State) (k : Slot) (die : Nat) : Path :=
  let upA := decide (fget s .tierSlotStatusPathAUp (slotInst k) = 1)
  let upB := decide (fget s .tierSlotStatusPathBUp (slotInst k) = 1)
  if !upB then .a
  else if !upA then .b
  else
    let a := outstanding s k .a
    let b := outstanding s k .b
    if a ≠ b then (if a < b then .a else .b)
    else if hops s (pathDie k .b) die < hops s (pathDie k .a) die then .b else .a

/-- Write credits per slot (08 Table 8.1). -/
def writeCredits : Nat := 4096

/-- A write of an eviction, which takes a reserved credit (05 R113). -/
def evictKind (k : IoKind) : Bool := decide (k = .writeData ∨ k = .writeParity)

/-- A command that takes a write credit. -/
def creditKind (k : IoKind) : Bool :=
  match k with
  | .fillRead | .oldRead | .rebuildRead => false
  | _ => true

/-- A slot has a write credit for a command of a kind: WR_RESERVE of them serve evictions only, and evictions take no
others (05 Table 5.10; 08 R201). -/
def creditFree (s : State) (k : Slot) (kind : IoKind) : Bool :=
  let used := (s.ios.filter fun i => decide (i.slot = k) && !i.held && creditKind i.kind &&
    decide (evictKind i.kind = evictKind kind)).length
  let own := fget s .tierCfgWrReserve 0x10
  !creditKind kind || decide (used < if evictKind kind then own else writeCredits - own)

/-- Issue an NVMe command for a block; it waits where it needs a write credit and none is free. -/
def issueIo (s : State) (k : Nat) (kind : IoKind) (b : Nat) (op : NvmeOp) : State :=
  let sl : Slot := ⟨k % 8, by omega⟩
  let p := choosePath s sl (dieOf (blockDpa b))
  let held := !creditFree s sl kind
  let s' := { s with ios := s.ios ++ [⟨s.nextIo, sl, p, kind, b, op, held⟩], nextIo := s.nextIo + 1 }
  if held then s' else emit s' (.nvme sl p op)

/-- Commands of a slot that wait for a credit are issued as credits come free, in order. -/
def pumpCredits (s : State) (k : Slot) : State :=
  (s.ios.filter fun i => decide (i.slot = k) && i.held).foldl (fun s i =>
    if creditFree s k i.kind then
      emit { s with ios := s.ios.map fun x => if x.num = i.num then { x with held := false } else x } (.nvme k i.path i.op)
    else s) s

/-- The commands that a test selects are done; those that waited for their credits go on. -/
def endIosIf (s : State) (p : Io → Bool) : State :=
  (List.finRange 8).foldl pumpCredits { s with ios := s.ios.filter fun i => !p i }

/-- The NVMe commands of a kind for a block are done. -/
def endIos (s : State) (b : Nat) (kind : IoKind) : State :=
  endIosIf s fun i => decide (i.block = b) && decide (i.kind = kind)

/-- SLOT_CHANGE on the slot's instance. -/
def slotChange (s : State) (k : Nat) : State := raise s .tierSlotChange (slotInst k) none (leBytes 1 (slotSt s k))

/-- A slot's state changes (Table 5.11). -/
def setSlot (s : State) (k st : Nat) : State :=
  if slotSt s k = st then s else slotChange (fset s .tierSlotStatusState st (slotInst k)) k

/-- PWR_IND and ATTN_IND codes. -/
def indOff : Nat := 0
def indOn : Nat := 1
def indBlink : Nat := 2

def setPwrInd (s : State) (k v : Nat) : State := fset s .tierSlotStatusPwrInd v (slotInst k)

/-- The attention indicator of a slot: blinking while LOCATE is set, on with a fault, else off (Table 5.9). -/
def attnInd (s : State) (k : Nat) : Nat :=
  if fget s .tierSlotCtrlLocate (slotInst k) = 1 then indBlink
  else if fget s .tierSlotStatusFault (slotInst k) = 0 then indOff else indOn

/-- The attention indicator follows LOCATE and FAULT. -/
def showAttn (s : State) (k : Nat) : State := fset s .tierSlotStatusAttnInd (attnInd s k) (slotInst k)

/-- A slot's FAULT code, which its attention indicator shows (R115, R121, R124). -/
def setFault (s : State) (k code : Nat) : State := showAttn (fset s .tierSlotStatusFault code (slotInst k)) k

/-- The slots have power to give: in the tiered configurations, once start-up has released the cores (00 R4; 13 R305). -/
def slotsOn (s : State) : Bool := s.boot.tiered && decide (s.boot.phase = .released ∨ s.boot.phase = .active)

/-- PWR_EN is asserted (R125). -/
def powerSlot (s : State) (k : Slot) : State :=
  let s := setSlot (fset s .tierSlotStatusPwrEn 1 (slotInst k)) k slPowering
  emit (setPwrInd (slotUpd s k fun x => { x with buttonWait := none, deallocated := false, timeoutRun := 0 }) k indBlink)
    (.pin (.slotPower k true))

/-- An SSD sits in an unpowered slot whose debounce is over. -/
def slotWaits (s : State) (k : Slot) : Bool :=
  decide (slotSt s k = slOff) && decide (fget s .tierSlotStatusPresent (slotInst k) = 1) &&
    decide (fget s .tierSlotStatusFault (slotInst k) = 0) && !(slotOf s k).debouncing

/-- Slots with AUTO_POWER whose SSDs were there before the slots had power to give are powered (R125; 13 R305). -/
def powerSlots (s : State) : State :=
  if slotsOn s then
    (List.finRange 8).foldl (fun s k =>
      if slotWaits s k && decide (fget s .tierSlotCtrlAutoPower (slotInst k) = 1) then powerSlot s k else s) s
  else s

/-! ### SSD contents -/

/-- Key of a byte of an SSD. -/
def ssdKey (k addr : Nat) : Nat := k * 2 ^ 46 + addr

/-- The 8 KiB place of a stripe on a slot (R118, R119). -/
def placeBytes (s : State) (k u : Nat) : List Byte := Memory.read s.ssd (ssdKey k (u * 8192)) 8192

/-- Write a place; bytes beyond those given are deallocated and read 0. -/
def placeWrite (s : State) (k u : Nat) (bs : List Byte) : State :=
  let a := ssdKey k (u * 8192)
  { s with ssd := Memory.write (Memory.zero s.ssd a (a + 8192)) a bs }

/-- XOR of byte lists of one length. -/
def xorBytes (a b : List Byte) : List Byte := List.zipWith (· ^^^ ·) a b

/-- XOR of places of a stripe on the slots given. -/
def xorPlaces (s : State) (u : Nat) (ks : List Nat) : List Byte :=
  ks.foldl (fun acc k => xorBytes acc (placeBytes s k u)) (List.replicate 8192 0)

/-- LBA map entry of a block (Table 5.8). -/
def lbaOf (s : State) (b : Nat) : Nat := aget s.lbaMap b 0

def setLba (s : State) (b v : Nat) : State :=
  { s with lbaMap := if v = 0 then adel s.lbaMap b else aset s.lbaMap b v }

/-- The map entry of a stored form of some bytes (R119, Table 5.8). -/
def lbaFor (bs : List Byte) : Nat :=
  if bs.all (· = 0) then 0 else if bs.length ≤ 4096 then 1 else 2

/-! ### Pins and held frames (R109, R123) -/

/-- The partition that a block's policy PIN counts against: the owner of an extent with tier policy PIN (R109). -/
def policyOwner (s : State) (b : Nat) : Option Nat :=
  match extOf s (blockDpa b) with
  | some e => if e.attr.tier = 1 then some e.attr.owner else none
  | none => none

/-- Bytes pinned by a partition, in blocks: its pin bits, and the frames pinned by the policy of its extents (R109). -/
def pinnedBlocks (s : State) (p : Nat) : Nat :=
  (s.frames.filter fun f => f.pins.contains p || (f.polPin && decide (policyOwner s f.block = some p))).length +
    (s.pinMarks.filter fun e => e.2.contains p).length

/-- Pin limit in blocks. -/
def pinLimit (s : State) (p : Nat) : Nat := fget s .tierPinLimitGib p * 131072

/-- The policy PIN of a block's extent pins its frame, within the owner's limit; beyond it the fill is a PREFETCH (R109). -/
def pinByPolicy (s : State) (b : Nat) : State :=
  match policyOwner s b, frameOf s b with
  | some o, some f =>
    if f.polPin || f.pins.contains o then frameMap s b fun f => { f with polPin := true }
    else if pinnedBlocks s o < pinLimit s o then frameMap s b fun f => { f with polPin := true }
    else raise s .tierPinLimit o
  | _, _ => frameMap s b fun f => { f with polPin := false }

/-- Blocks of an extent that lie in Basecamp follow its tier policy as it changes (R109). -/
def repin (s : State) (base : Nat) : State :=
  match s.exts.find? fun e => decide (e.base = base) with
  | some e =>
    let hit := s.frames.filter fun f =>
      decide (e.base ≤ granOf (blockDpa f.block)) && decide (granOf (blockDpa f.block) < e.base + e.len)
    (hit.map (·.block)).foldl pinByPolicy s
  | none => s

/-- An attribute change takes effect (03 R61). -/
def setAttrNow (s : State) (base : Nat) (mask attr : BitVec 32) : State :=
  repin (doSetAttr s base mask.toNat attr.toNat) base

/-- Unevictable frames: POISONED, kept after a second loss, or lost. -/
def heldFrames (s : State) : Nat := (s.frames.filter fun f => f.poisoned || f.stuck).length

/-- Unevictable frames are under half the frame space (R123). -/
def heldRoom (s : State) : Bool := decide (heldFrames s * 2 < 256 * 1966080)

/-- TIER.LOST.LOST_BLK. -/
def lostBlocks (s : State) : Nat := (s.lbaMap.filter fun e => decide (e.2 = 3)).length

/-! ### Stripe locks (R113, R114) -/

/-- The stripe of a block is locked. -/
def stripeLocked (s : State) (b : Nat) : Bool :=
  s.locks.any fun l => decide (l.c = blockCluster b) && decide (l.t = (placeOf b).t)

/-- Lock the stripe of a block. -/
def lockStripe (s : State) (b : Nat) : State := { s with locks := { c := blockCluster b, t := (placeOf b).t } :: s.locks }

/-- Something more waits for the lock of a block's stripe. -/
def lockMap (s : State) (b : Nat) (f : StripeLock → StripeLock) : State :=
  { s with locks := s.locks.map fun l => if l.c = blockCluster b ∧ l.t = (placeOf b).t then f l else l }

/-! ### Fills (R111, R112) -/

/-- A frame begins to fill; its LBA map entry names what is read. A missing member is rebuilt from the other
seven (R112). -/
def issueFill (s : State) (b : Nat) : State :=
  let pl := placeOf b
  let s := frameMap s b fun f => { f with issued := true }
  if slotReadable s pl.slot (blockCluster b) pl.t then
    issueIo s pl.slot .fillRead b (.read (2 * pl.u) (if lbaOf s b = 1 then 1 else 2))
  else
    ((List.range 8).filter fun k => decide (k ≠ pl.slot)).foldl
      (fun s k => issueIo s k .fillRead b (.read (2 * pl.u) 2)) s

/-- A fill buffer of the cluster is free for a fill: EVICT_BUFS of the 96 serve evictions only (08 Table 8.1, R201). -/
def fillBuffer (s : State) (c : Nat) : Bool :=
  let used := ((clusterFrames s c).filter fun f => decide (f.st = .filling) && f.issued).length
  decide (used + fcur s .pitchWmarkEvictBufs < fget s .pitchWmarkFillBufs)

/-- Who takes the frame of a fill (08 R202). -/
def takerOf (s : State) (f : Frame) : Nat :=
  if f.waiters.any fun r => decide (r.kind ≠ .discard) && (reqJob s r).isNone then 0
  else if f.waiters.any fun r => (reqJob s r).isSome then 1 else 2

/-- A frame for an absent block, waiting for its place, with the marks it keeps. -/
def startFill (s : State) (b cls : Nat) (part : Option Nat) (waiters : List Req) : State :=
  let cold := match extOf s (blockDpa b) with
    | some e => decide (e.attr.tier = 2)
    | none => false
  let s := match part with
    | some p => finc s .tierFillStatsFills p
    | none => s
  let f : Frame := { block := b, st := .filling, placed := false, pins := aget s.pinMarks b [], cold := cold, cls := cls,
                     causedBy := part, waiters := waiters, used := count s, since := now s }
  pinByPolicy { s with frames := f :: s.frames, pinMarks := adel s.pinMarks b } b

/-- The stored form that a block's Scree place holds: its own member, or the XOR of the other seven. -/
def screeBytes (s : State) (b : Nat) : List Byte :=
  let pl := placeOf b
  if lbaOf s b = 0 then List.replicate 8192 0
  else if slotReadable s pl.slot (blockCluster b) pl.t then placeBytes s pl.slot pl.u
  else xorPlaces s pl.u ((List.range 8).filter fun k => decide (k ≠ pl.slot))

/-- TSLOT of the header of a stored form. -/
def slotOfForm (bs : List Byte) : Bool := decide ((readHeader bs).tslot = 1)

/-- Kind and length of the stored form that a block's header names; a header of no coded kind counts as RESID, whose decoding
then fails. -/
def headerForm (bs : List Byte) : Nat × Nat :=
  let h := readHeader bs
  (if h.kind = 2 ∨ h.kind = 4 then h.kind else 3, min (formLen h bs) 8192)

/-- The index entry of a block whose CODED bit is set, from the header of its stored form. -/
def idxOfHeader (s : State) (b : Nat) (bs : List Byte) : State :=
  let (kind, n) := headerForm bs
  setIdx s b kind (if kind = 2 then 0 else (readHeader bs).rank) n (decide (kind ≠ 2) && slotOfForm bs)

/-- The index entry of a block just filled: where CODED is set its header names the form, which takes its packed place (06
R142 to R144, R147); a length that disagrees with the LBA map damages it (Table 6.8, LENGTH). -/
def idxFilled (s : State) (b : Nat) (bs : List Byte) : State :=
  let map := lbaOf s b
  if codedBit s b then
    let n := (headerForm bs).2
    let s := idxOfHeader (packFrame s b (ceilDiv n 64)) b bs
    if map ≠ ceilDiv n 4096 then damageBlock s b causeLength else s
  else if map = 1 then damageBlock s b causeLength
  else s

/-- A block of kind CONST, RESID or LOWRANK that is dropped leaves its segment: CODED is cleared and USE falls. -/
def leaveSegment (s : State) (b : Nat) : State :=
  if codedBit s b then
    segMark s b (if (frameOf s b).isSome then formSlot s b else slotOfForm (screeBytes s b)) false
  else s

/-- A write-back of a block is given up: its commands end and its frame is as it was; the lock is the caller's. -/
def stopWriteBack (s : State) (b : Nat) : State :=
  let s := frameMap s b fun f =>
    { f with st := if f.st = .evicting then .dirty else f.st, copy := [], rewritten := false }
  endIosIf s fun i => decide (i.block = b) && decide (i.kind = .oldRead ∨ i.kind = .writeData ∨ i.kind = .writeParity)

/-- The LBAs of a block are deallocated, its LBA map is zero and the parity of its stripe follows (R107, R119). -/
def deallocateBlock (s : State) (b : Nat) : State :=
  let pl := placeOf b
  let n := lbaOf s b
  let s := if n = 1 ∨ n = 2 then
      let par := xorBytes (placeBytes s pl.parity pl.u) (screeBytes s b)
      let two := decide (2 ≤ ((List.range 8).filter fun k => !slotReadable s k (blockCluster b) pl.t).length)
      let s := if slotWritable s pl.parity && !two then
          issueIo (placeWrite s pl.parity pl.u par) pl.parity .parityFix b (.write (2 * pl.u) 2) else s
      if slotWritable s pl.slot then
        issueIo (placeWrite s pl.slot pl.u []) pl.slot .deallocate b (.deallocate (2 * pl.u) n) else s
    else s
  { setLba s b 0 with pinMarks := adel s.pinMarks b }

/-- Drop a block without write-back: its frame is free, its LBAs are deallocated, once no write-back, rebuild or repair
holds its stripe, and it reads as zeroes (Table 5.4, Table 5.5). -/
def dropBlock (s : State) (b : Nat) : State :=
  let s := freeFrame (leaveSegment s b) b
  if stripeLocked s b && decide (lbaOf s b = 1 ∨ lbaOf s b = 2) then
    lockMap s b fun l => { l with drops := ins l.drops b }
  else deallocateBlock s b

/-- The waiters of a block that has its contents, in arrival order. A DISCARD among them drops the block; what waited behind
it finds zeroes in a frame (Table 5.5). -/
def serveWaiters (s : State) (b : Nat) (rs : List Req) (fresh : Frame) : State :=
  match rs with
  | [] => s
  | r :: rest =>
    if r.kind = .discard then
      let s := dropBlock s b
      if rest.isEmpty then s else serveWaiters { s with frames := fresh :: s.frames } b rest fresh
    else serveWaiters (homeReq s r []) b rest fresh

/-- A fill of a partition lasted longer than 1 ms (Table 5.10). -/
def slowFill (s : State) (f : Frame) : State :=
  match f.causedBy with
  | some p => if msCycles < now s - f.since then finc s .tierFillStatsSlowFills p else s
  | none => s

/-- A block's fill ends well: the frame is CLEAN and its waiters are served in arrival order. -/
def fillDone (s : State) (b : Nat) : State :=
  match frameOf s b with
  | some f =>
    if f.st = .filling then
      let bs := screeBytes s b
      let s := slowFill (endIos s b .fillRead) f
      let s := frameMap (putBlock s b bs) b fun f =>
        { f with st := .clean, placed := true, waiters := [], issued := false, atTwin := false }
      let fresh : Frame := { f with st := .clean, placed := true, waiters := [], issued := false, atTwin := false, pins := [] }
      serveWaiters (idxFilled s b bs) b f.waiters fresh
    else s
  | none => s

/-- The waiting requests of a fill that failed on this package alone: poison, and the frame is free (R112). -/
def fillLost (s : State) (b : Nat) : State :=
  match frameOf s b with
  | some f =>
    let s := freeFrame (slowFill (endIos s b .fillRead) f) b
    f.waiters.foldl (fun s r => if r.kind = .discard then dropBlock s b else answer s r (noService r) true) s
  | none => s

/-- A fill and its rebuild fail: poison in SOLO-T; in PAIR-T the block is asked of the twin, and its requests wait for
it (R112). -/
def fillFailed (s : State) (b : Nat) : State :=
  match frameOf s b with
  | some f =>
    if f.st = .filling then
      if twinUp s then
        emit (frameMap (endIos s b .fillRead) b fun f => { f with atTwin := true }) (.belay 2 (.forward (.block s.belay.nextId b)))
      else fillLost s b
    else s
  | none => s

/-- The twin's answer for a fill that failed: the frame becomes DIRTY and serves what waited; without an answer the outcome is
that of a package alone (R112). -/
def fillFromTwin (s : State) (b : Nat) (data : Option (List Byte)) : State :=
  match frameOf s b, data with
  | some f, some bs =>
    let s := slowFill s f
    let s := if codedBit s b then leaveSegment s b else s
    let s := frameMap (putBlock s b bs) b fun f =>
      { f with st := .dirty, placed := true, units := 128, waiters := [], issued := false, atTwin := false }
    serveWaiters s b f.waiters { block := b, st := .clean, off := f.off, cls := f.cls }
  | some _, none => fillLost s b
  | none, _ => s

/-- Fills that wait for the twin end as those of a package alone. -/
def twinFillsOver (s : State) : State := (s.frames.filter (·.atTwin)).foldl (fun s f => fillLost s f.block) s

/-- A fill goes on: it takes its place where it may, and its read is issued; a block mapped zero needs no read and is CLEAN at
once, holding zeroes (R104, R111). -/
def advanceFill (s : State) (b : Nat) : State :=
  match frameOf s b with
  | some f =>
    if f.st = .filling ∧ f.issued = false then
      let (s, ok) := if f.placed then (s, true)
        else match takePlace s b (takerOf s f) with
          | (s, some o) => (frameMap s b fun f => { f with placed := true, off := o, units := 128 }, true)
          | (s, none) => (s, false)
      if !ok then s
      else if lbaOf s b = 0 then fillDone s b
      else if fillBuffer s (blockCluster b) then issueFill s b else s
    else s
  | none => s

/-- A POISONED frame for a write to a LOST block (Tables 5.2, 5.8). It takes a place as a write expansion does; without one
it lies at place 0. -/
def poisonedFrame (s : State) (b cls : Nat) : State :=
  let (s, o) := takePlace s b 0
  let s := poisonBlock { s with frames := { block := b, st := .dirty, off := o.getD 0, poisoned := true, cls := cls,
                                            used := count s } :: s.frames } b
  setLba s b 0

/-- A request at its home's tier agent: served from a frame, waiting on a fill or behind what waits, or starting a fill. -/
def tierReq (s : State) (r : Req) (upset : Upset) : State :=
  if !s.boot.tiered then homeReq s r upset
  else
    let r := atHome s r
    let b := blockOf r.dpa
    let cls := (classOf s r.dpa).getD 16
    match frameOf s b with
    | some f =>
      if f.st = .filling then advanceFill (frameMap s b fun f => { f with waiters := f.waiters ++ [r] }) b
      else if f.waiters ≠ [] then frameMap s b fun f => { f with waiters := f.waiters ++ [r] }
      else homeReq (frameMap s b fun f => { f with used := count s }) r upset
    | none =>
      if lbaOf s b = 3 then
        if twinUp s then forwardReq s r upset
        else if noService r = .cmp then
          (if heldRoom s then homeReq (poisonedFrame s b cls) r upset
           else answer (record s .lostWriteDropped 0x10 (some r.p.val) (leBytes 8 b)) r .cmp)
        else answer s r .poison true
      else advanceFill (startFill s b cls (some r.p.val) [r]) b

/-! ### Write-back (R113) -/

/-- The stripe of a block is unlocked, except while it waits out IO_TIMEOUT; the discards and repairs that waited go on. -/
def unlockStripe (s : State) (b : Nat) : State :=
  let mine := fun (l : StripeLock) => decide (l.c = blockCluster b) && decide (l.t = (placeOf b).t)
  let done := s.locks.filter fun l => mine l && !l.late
  let s := { s with locks := s.locks.filter fun l => !mine l || l.late }
  let s := (done.flatMap (·.drops)).foldl dropBlock s
  (done.flatMap (·.repairs)).foldl (fun s b =>
    if stripeLocked s b then lockMap s b fun l => { l with repairs := ins l.repairs b }
    else
      let pl := placeOf b
      issueIo (lockStripe s b) pl.slot .repair b (.write (2 * pl.u) (if lbaOf s b = 1 then 1 else 2))) s

/-- Bytes of a frame's stored form. -/
def formBytes (s : State) (b : Nat) : List Byte :=
  Memory.read s.mem (blockDpa b) (if isCoded s b then (idxOf s b).clen else 8192)

/-- Stored bytes of a block filled up to its 8 KiB place with zeroes. -/
def padBlock (bs : List Byte) : List Byte := bs ++ List.replicate (8192 - bs.length) 0

/-- Slots that no longer hold a readable member of a block's stripe. -/
def stripeMissing (s : State) (b : Nat) : List Nat :=
  (List.range 8).filter fun k => !slotReadable s k (blockCluster b) (placeOf b).t

/-- The stripe lacks two members: survivors are written without parity (R123). -/
def twoMissing (s : State) (b : Nat) : Bool := decide (2 ≤ (stripeMissing s b).length)

/-- The data member of a block's stripe can be read. -/
def ownReadable (s : State) (b : Nat) : Bool :=
  slotReadable s (placeOf b).slot (blockCluster b) (placeOf b).t

/-- The new parity of the stripe of a block that is written back: of old parity, old data and new data, or of the other six
members and the new data where the data member is missing (R113). -/
def newParity (s : State) (b : Nat) (new : List Byte) : List Byte :=
  let pl := placeOf b
  if ownReadable s b then xorBytes (placeBytes s pl.parity pl.u) (xorBytes (screeBytes s b) new)
  else xorBytes new (xorPlaces s pl.u ((List.range 8).filter fun k => decide (k ≠ pl.slot) && decide (k ≠ pl.parity)))

/-- An LBA of a place holds zeroes. -/
def lbaZero (bs : List Byte) (i : Nat) : Bool := ((bs.drop (4096 * i)).take 4096).all (· = 0)

/-- Write the LBAs of a place that hold anything and deallocate the others (R113). -/
def writePlace (s : State) (k : Nat) (kind : IoKind) (b : Nat) (bs : List Byte) : State :=
  let u := 2 * (placeOf b).u
  match lbaZero bs 0, lbaZero bs 1 with
  | false, false => issueIo s k kind b (.write u 2)
  | false, true => issueIo (issueIo s k kind b (.write u 1)) k .deallocate b (.deallocate (u + 1) 1)
  | true, false => issueIo (issueIo s k .deallocate b (.deallocate u 1)) k kind b (.write (u + 1) 1)
  | true, true => issueIo s k .deallocate b (.deallocate u 2)

/-- The writes of a write-back are issued: the new data's LBAs, with those it no longer uses deallocated, and the parity. -/
def writesGo (s : State) (b : Nat) : State :=
  match frameOf s b with
  | some f =>
    let pl := placeOf b
    let u := 2 * pl.u
    let old := min (lbaOf s b) 2
    let n := lbaFor f.copy
    let s := endIos s b .oldRead
    let par := newParity s b (padBlock f.copy)
    let s := if slotWritable s pl.slot then
        let s := if n = 0 then s else issueIo s pl.slot .writeData b (.write u n)
        if n < old then issueIo s pl.slot .deallocate b (.deallocate (u + n) (old - n)) else s
      else s
    if slotWritable s pl.parity && !twoMissing s b then writePlace s pl.parity .writeParity b par else s
  | none => s

/-- Slots that the old contents of a write-back are read from: data and parity, the other six members where the data member is
missing, none where the parity is or two members are (R113, R123). -/
def oldReads (s : State) (b : Nat) : List Nat :=
  let pl := placeOf b
  if twoMissing s b || !slotWritable s pl.parity then []
  else if ownReadable s b then (if lbaOf s b = 0 then [pl.parity] else [pl.slot, pl.parity])
  else (List.range 8).filter fun k => decide (k ≠ pl.slot) && decide (k ≠ pl.parity)

/-- Begin the write-back of a DIRTY victim from a copy: the stripe is locked and the old contents are read, and where none
are needed the writes follow at once. A line that cannot be read makes the frame POISONED in SOLO-T and comes from the twin
in PAIR-T (11 Table 11.2). -/
def startWriteBack (s : State) (b : Nat) : State :=
  let pl := placeOf b
  let n := if isCoded s b then (idxOf s b).clen else 8192
  let (s, ok) := readForm s b n 3
  if !ok && !twinUp s then frameMap s b fun f => { f with poisoned := true }
  else if !ok then emit s (.belay 2 (.forward (.block s.belay.nextId b)))
  else
    let bs := formBytes s b
    let s := frameMap (lockStripe s b) b fun f => { f with st := .evicting, rewritten := false, copy := bs }
    let ks := oldReads s b
    if ks.isEmpty then writesGo s b
    else ks.foldl (fun s k =>
      issueIo s k .oldRead b (.read (2 * pl.u) (if k = pl.slot ∧ lbaOf s b = 1 then 1 else 2))) s

/-- The reads of a write-back are still outstanding. -/
def readsOld (s : State) (b : Nat) : Bool := s.ios.any fun i => decide (i.block = b) && decide (i.kind = .oldRead)

/-- The writes of a write-back are done: data, parity and LBA map change as one, and the stripe is unlocked. A DISCARD that
came meanwhile drops the block (R113, R123, Table 5.5). -/
def writeBackDone (s : State) (b : Nat) : State :=
  match frameOf s b with
  | some f =>
    if f.st = .evicting then
      let s := if readsOld s b then writesGo s b else s
      let pl := placeOf b
      let par := newParity s b (padBlock f.copy)
      let s := if slotWritable s pl.parity && !twoMissing s b then placeWrite s pl.parity pl.u par else s
      let s := if slotWritable s pl.slot then placeWrite s pl.slot pl.u f.copy else s
      let s := setLba (endIos (endIos s b .writeData) b .writeParity) b (lbaFor f.copy)
      let s := unlockStripe s b
      if f.discardDue then dropBlock (frameMap s b fun f => { f with st := .dirty, copy := [], discardDue := false }) b
      else if f.rewritten then frameMap s b fun f => { f with st := .dirty, rewritten := false, copy := [] }
      else if decide (s.power.entering = 4) || decide (f.waiters ≠ []) || expWaits s b then
        -- descent keeps what it has written back CLEAN until the rung is entered (13 Table 13.2)
        frameMap s b fun f => { f with st := .clean, copy := [] }
      else freeFrame s b
    else s
  | none => s

/-- A write-back of the block can be issued: its slots are deallocated, or gone; its stripe is free; a fill buffer for
evictions and a reserved write credit at each slot are (R113, R117; 08 R201). -/
def mayWriteBack (s : State) (b : Nat) : Bool :=
  let pl := placeOf b
  let ok := fun (k : Nat) => slotWritable s k || decide (slotSt s k ≠ slInService ∧ slotSt s k ≠ slRebuilding)
  let busy := ((clusterFrames s (blockCluster b)).filter fun f => decide (f.st = .evicting)).length
  ok pl.slot && ok pl.parity && !stripeLocked s b && decide (busy < fcur s .pitchWmarkEvictBufs) &&
    creditFree s ⟨pl.slot % 8, by omega⟩ .writeData && creditFree s ⟨pl.parity % 8, by omega⟩ .writeParity

/-- The requests that wait behind a write expansion go on, in arrival order, until one waits again (06 R148). -/
def retryExpand (s : State) (b : Nat) : State :=
  match frameOf s b with
  | some f =>
    if f.st = .filling ∨ f.waiters = [] ∨ (needsExpander s b && (expandRoom s b).2 = false) then s
    else
      let s := frameMap s b fun f => { f with waiters := [] }
      serveWaiters s b f.waiters { block := b, st := .clean, off := f.off, cls := f.cls }
  | none => s

/-- Fills and write expansions of a cluster that wait for a frame or a fill buffer go on, oldest first (R104). -/
def retryFills (s : State) (c : Nat) : State :=
  ((clusterFrames s c).reverse).foldl (fun s f =>
    if f.st = .filling then advanceFill s f.block else retryExpand s f.block) s

/-! ### Hints on one block (Table 5.4, R108, R109) -/

/-- Start a fill of an absent block. -/
def prefetchBlock (s : State) (p b : Nat) : State :=
  if !s.boot.tiered || (frameOf s b).isSome || decide (lbaOf s b = 3) then s
  else advanceFill (startFill s b ((classOf s (blockDpa b)).getD 16) (some p) []) b

/-- PIN on one block; one that would pass the limit is a PREFETCH (R109). -/
def pinBlock (s : State) (p b : Nat) : State :=
  if !s.boot.tiered then s
  else
    let s := prefetchBlock s p b
    match frameOf s b with
    | some f =>
      if f.pins.contains p then frameMap s b fun f => { f with cold := false }
      else if pinnedBlocks s p < pinLimit s p then
        frameMap s b fun f => { f with pins := ins f.pins p, cold := false }
      else raise s .tierPinLimit p
    | none => s

def unpinBlock (s : State) (p b : Nat) : State :=
  let l := rem (aget s.pinMarks b []) p
  frameMap { s with pinMarks := if l.isEmpty then adel s.pinMarks b else aset s.pinMarks b l } b fun f =>
    { f with pins := rem f.pins p }

def coldBlock (s : State) (b : Nat) : State := frameMap s b fun f => { f with cold := true }

/-- Every line of a block becomes zero in place (R108, SOLO-D and PAIR-D; 06 R146). -/
def zeroBlock (s : State) (b : Nat) : State := rerunReads (noteWrite (putBlock (makeRaw s b) b []) b) b

/-- DISCARD of one block, the snoops of a shared extent apart (R108, Table 5.5): a block that is filled, or that requests wait
for, is discarded in the order of its requests. -/
def discardBlock (s : State) (p : Part) (b : Nat) : State :=
  if !s.boot.tiered then zeroBlock s b
  else match frameOf s b with
    | some f =>
      if decide (f.st = .filling) || decide (f.waiters ≠ []) then
        frameMap s b fun f => { f with waiters := f.waiters ++ [{ kind := .discard, p := p, src := .device, dpa := blockDpa b }] }
      else if f.st = .evicting then frameMap s b fun f => { f with discardDue := true }
      else
        let (s, rs) := expTake s b
        rs.foldl (fun s r => tierReq s r []) (dropBlock s b)
    | none => dropBlock s b

/-- COMPACT of one block: queued for the compactor (R107; 06 R149). -/
def compactBlock (s : State) (b : Nat) : State :=
  if mayCode s b && !s.compactQ.contains b then
    { s with compactQ := s.compactQ ++ [b], stale := rem s.stale b } else s

/-! ### Loss of cells in the tiered families (03 Table 3.5) -/

/-- Blocks resident on lost cells: clean ones are dropped and refilled later, the others are lost. -/
def loseFrames (s : State) : State :=
  if !s.boot.tiered then s
  else
    let hit := s.frames.filter fun f => (List.range 4).any fun i => cellsLost s (blockDpa f.block + i * 2048)
    hit.foldl (fun s f =>
      match f.st with
      | .clean => freeFrame s f.block
      | .filling => s
      | _ => frameMap s f.block fun f => { f with lost := true }) s

end Sys2Proof.Machine
end

