-- ==== Sys2Proof/Machine/Dir.lean ====
section
/-! DEFINITION. The directory (04 R83 to R90): requests of Table 4.3, capacity victims, responses and crossings, and the
sharers on the heads of the twin. -/

namespace Sys2Proof.Machine

open Sys2Proof

/-- The request of this package that a mirrored write completes, where it entered here (12 R273). -/
def origin (s : State) (r : Req) : Option Req :=
  match r.src with
  | .twin id => (s.belay.forwarded.find? fun m => decide (m.id = id)).map (·.req)
  | _ => none

/-- Sharer of a request: its partition on the head on which it entered; an operator is no sharer. -/
def reqSharer (s : State) (r : Req) : Option Nat :=
  match r.src with
  | .host h => some (sharerId r.p h)
  | .fwd _ => r.via.map fun h => twinSharer + sharerId r.p h
  | _ =>
    match origin s r with
    | some q => (match q.src with
      | .host h => some (sharerId q.p h)
      | _ => none)
    | none => none

/-- Slice of a line: its home cluster. -/
def sliceOf (line : Nat) : Nat := clusterOf (line * 64)

/-- Entries of the set that a line falls in, the last used one first (04 Directory capacity). -/
def setEntries (s : State) (line : Nat) : List DirEntry :=
  s.dir.filter fun d => decide (sliceOf d.line = sliceOf line) &&
    decide (Config.dirSet d.line % 131072 = Config.dirSet line % 131072)

/-- Victim buffers of a slice in use (R87). -/
def victimBuffers (s : State) (slice : Nat) : Nat :=
  (s.trans.filter fun t => t.victim && decide (sliceOf t.line = slice)).length

/-- Victims: fewest sharers first (R87). -/
def dirVictimLe (s : State) (a b : DirEntry) : Bool :=
  decide ((entrySharers s a).length ≤ (entrySharers s b).length)

/-- The victim of a full set: of the entries with the fewest sharers the longest unused (R87). A line in BI_PENDING is none:
its transition still needs its entry (DEDUCED, log 78). -/
def dirVictim (s : State) (line : Nat) : Option DirEntry :=
  (sortBy (dirVictimLe s) ((setEntries s line).filter fun d => !biPending s d.line).reverse).head?

/-- A line has an entry, or a way for one. -/
def wayFree (s : State) (line : Nat) : Bool :=
  (dirOf s line).isSome || decide ((setEntries s line).length < 16)

/-- A new entry can be made: a way is free, or a victim and a buffer for it are. -/
def entryRoom (s : State) (line : Nat) : Bool :=
  wayFree s line || (decide (victimBuffers s (sliceOf line) < 256) && (dirVictim s line).isSome)

/-- Make room for a new entry: the victim moves to a victim buffer and is snooped (R87). -/
def makeEntryRoom (s : State) (line : Nat) : State :=
  if wayFree s line then s
  else match dirVictim s line with
    | some v =>
      let s' := finc (dirDrop s v.line) .dirCapEvictEvictions 16
      snoop s' { line := v.line, owed := entrySharers s v, kind := if v.exclusive then .data else .inv,
                 req := none, victim := true }
    | none => s

/-- Install an entry of a line. -/
def install (s : State) (line : Nat) (exclusive : Bool) (sharers : List Nat) : State :=
  let base : DirEntry := { line := line, exclusive := exclusive, sharers := [], used := count s }
  dirPut (makeEntryRoom s line) (sharers.foldl addSharer base)

/-- Add a reader to a line in I or S. -/
def shareLine (s : State) (line sh : Nat) : State :=
  match dirOf s line with
  | some d => dirPut s { addSharer d sh with used := count s }
  | none => install s line false [sh]

/-- A served request uses the entry of its line. -/
def useEntry (s : State) (line : Nat) : State :=
  match dirOf s line with
  | some d => dirPut s { d with used := count s }
  | none => s

/-- A read that makes an entry. -/
def caching (s : State) (r : Req) : Bool :=
  decide (r.kind = .read) && decide (r.mv ≠ .invalid) && (reqSharer s r).isSome

/-- What Table 4.3 asks of a request: the snoop kind and its targets; an empty list where none is named. -/
def snoopFor (s : State) (r : Req) (pub : Bool) : Snp × List Nat :=
  match dirOf s (lineOf r.dpa) with
  | none => (.inv, [])
  | some d =>
    let all := entrySharers s d
    let me := reqSharer s r
    let own := decide (me = all.head?) && d.exclusive
    let isRead := decide (noService r = .poison)
    if isRead then
      if caching s r then
        if d.exclusive then (.data, if own then [] else all)
        else if pub && decide (r.mv = .any) then (.inv, all.filter fun sh => decide (some sh ≠ me))
        else (.data, [])
      else (.cur, if d.exclusive then all else [])
    else if d.exclusive then (.data, if own then [] else all)
    else (.inv, all.filter (snoopsHere s))

/-- The entry that a served request leaves (Table 4.3): `kS` and `kE` are the snooped sharers that keep a
copy. -/
def settle (s : State) (r : Req) (pub : Bool) (snooped : Bool) (kS kE : List Nat) : State :=
  let line := lineOf r.dpa
  match noService r with
  | .poison =>
    match if caching s r then reqSharer s r else none with
    | some sh =>
      if pub && decide (r.mv = .any) then install s line true [sh]
      else if snooped then install s line false (sh :: (kS ++ kE))
      else
        match dirOf s line with
        | some d => if d.exclusive && decide (entrySharers s d = [sh]) then useEntry s line else shareLine s line sh
        | none => shareLine s line sh
    | none =>
      if snooped then
        match kE, kS with
        | h :: _, _ => install s line true [h]
        | [], h :: _ => install s line false [h]
        | [], [] => dirDrop s line
      else useEntry s line
  | _ =>
    match dirOf s line, reqSharer s r with
    | some d, some sh =>
      if d.exclusive && decide (entrySharers s d = [sh]) && decide (r.mv = .shared) then install s line false [sh]
      else dirDrop s line
    | _, _ => dirDrop s line

/-- The extent of a request and whether its partition is the publisher; a mirrored write was checked at the lead. -/
def byPublisher (s : State) (r : Req) : Bool :=
  match r.src, extOf s r.dpa with
  | .twin _, _ => true
  | _, some e => isPublisher e r.p
  | _, none => false

/-- A request needs a new entry, and neither a way nor a victim buffer is free (R87). -/
def needsVictim (s : State) (r : Req) : Bool :=
  caching s r && (snoopFor s r (byPublisher s r)).2.isEmpty && !entryRoom s (lineOf r.dpa)

/-- A request of a line that is not BI_PENDING, with room for its entry (Table 4.3). -/
def dirServe (s : State) (r : Req) (upset : Upset) : State :=
  let pub := byPublisher s r
  if decide (noService r = .cmp) && !pub then answer (readerWrite s r.p) r .cmp
  else
    let (kind, targets) := snoopFor s r pub
    if targets.isEmpty then tierReq (settle s r pub false [] []) r upset
    else snoop s { line := lineOf r.dpa, owed := targets, kind := kind, req := some r }

/-- A transition of a line that the sharer still owes. -/
def owes (s : State) (line sh : Nat) : Bool :=
  s.trans.any fun t => decide (t.line = line) && t.owed.contains sh

/-- A write-back of a snooped sharer that has not said that it holds no copy (Table 4.4). -/
def writesBack (s : State) (r : Req) : Bool :=
  decide (r.kind = .write) && byPublisher s r && (match reqSharer s r with
    | some sh => s.trans.any fun t => decide (t.line = lineOf r.dpa) &&
        (t.owed.contains sh || t.keptS.contains sh || t.keptE.contains sh)
    | none => false)

/-- A request waits for a victim buffer (R87). -/
def victimWait (s : State) : State := raise (finc s .dirCapEvictVictimWaits 16) .dirVictimFull 16

/-- A request reaches its directory slice (R85, Table 4.4). -/
def dirReq (s : State) (r : Req) (upset : Upset) : State :=
  let line := lineOf r.dpa
  let waits := { s with lineq := s.lineq ++ [r] }
  if biPending s line && writesBack s r then tierReq (finc s .dirCrossingsWbCross 16) r upset
  else if biPending s line || s.lineq.any (fun q => decide (lineOf q.dpa = line)) then waits
  else if needsVictim s r then victimWait waits
  else dirServe s r upset

/-- The first request that waits on a line. -/
def lineHead (s : State) (line : Nat) : Option Req := s.lineq.find? fun r => decide (lineOf r.dpa = line)

/-- Serve the requests that wait on a line, until it is BI_PENDING again or the next one needs a victim buffer. -/
def drainLine : Nat → State → Nat → State
  | 0, s, _ => s
  | n + 1, s, line =>
    if biPending s line then s
    else match lineHead s line with
      | some r => if needsVictim s r then s
        else drainLine n (dirServe { s with lineq := s.lineq.erase r } r []) line
      | none => s

/-- Requests that waited for a victim buffer of a slice try again. -/
def drainSlice (s : State) (slice : Nat) : State :=
  let lines := ((s.lineq.map fun r => lineOf r.dpa).filter fun l => decide (sliceOf l = slice)).eraseDups
  lines.foldl (fun s l => drainLine s.lineq.length s l) s

/-- What a transition leaves once its line leaves BI_PENDING: the copies that it recalled are gone, and its request is
served (R85). -/
def finishTrans (s : State) (t : DirTrans) : State :=
  if t.victim || t.forTwin then s
  else
    let s := forgetOn s t.line fun sh => t.asked.contains sh && !t.keptS.contains sh && !t.keptE.contains sh
    match t.req with
    | some r => tierReq (settle s r (byPublisher s r) true t.keptS t.keptE) r []
    | none => s

/-- A line leaves BI_PENDING when every snooped sharer has answered: its requests go on, in arrival order, and its victim
buffer is free (R85, R87). -/
def lineDone (s : State) (line : Nat) : State :=
  let ts := (s.trans.filter fun t => decide (t.line = line)).reverse
  if ts.all fun t => t.owed.isEmpty then
    let s := ts.foldl finishTrans { s with trans := s.trans.filter fun t => decide (t.line ≠ line) }
    let s := drainLine s.lineq.length s line
    let s := if !biPending s line && (lineHead s line).isSome then victimWait s else s
    if ts.any (·.victim) then drainSlice s (sliceOf line) else s
  else s

/-- A leaving holder whose last snoop of a line's extent is answered is removed (03 R68; R89). -/
def leaveDone (s : State) (line sh : Nat) : State :=
  match extOfLine s line with
  | some e => if holderSt e (sharerPart sh) = some .sanitising then finishRemoval s e.base (sharerPart sh) else s
  | none => s

/-- A sharer's response to the oldest snoop of the line that it owes. -/
def biAnswer (s : State) (line sh : Nat) (resp : BiResp) : State :=
  match s.trans.reverse.find? fun t => decide (t.line = line) && t.owed.contains sh with
  | some t =>
    let t' := { t with owed := rem t.owed sh,
                       keptS := if resp = .s then sh :: t.keptS else t.keptS,
                       keptE := if resp = .e then sh :: t.keptE else t.keptE }
    let s := { s with trans := s.trans.map fun x => if x = t then t' else x }
    let s := if t.forTwin then emit s (.belay 1 (.forward (.snooped line sh resp))) else s
    let s := if t.recalled || (!t.victim && decide (resp = .i)) then forgetOn s line fun x => decide (x = sh)
      else if t.forTwin && decide (resp = .s) then
        (match dirOf s line with
          | some d => dirSet s { d with exclusive := false }
          | none => s)
      else s
    lineDone (leaveDone s line sh) line
  | none => if biPending s line then finc s .dirCrossingsCleanCross 16 else s

/-- Snoops that some sharers owe count as answered (R89). -/
def answerAll (s : State) (gone : Nat → Bool) : State :=
  let debts := s.trans.reverse.flatMap fun t => (t.owed.filter gone).map fun sh => (t.line, sh)
  debts.foldl (fun s x => biAnswer s x.1 x.2 .i) s

/-- Sharers that stop answering leave every entry, and what they owe counts as answered. -/
def dropSharers (s : State) (gone : Nat → Bool) : State := answerAll (forgetSharers s gone) gone

/-- A clean eviction of a sharer (Table 4.3, Table 4.4): it does not answer a snoop, and removes a sharer that owes none. -/
def evictClean (s : State) (line sh : Nat) : State :=
  let s := if biPending s line then finc s .dirCrossingsCleanCross 16 else s
  if owes s line sh then s else forgetOn s line fun x => decide (x = sh)

/-! ### The twin's sharers (R90; 12 R287) -/

/-- The twin snoops one of this package's sharers; one whose head is down answers for itself. -/
def snoopForTwin (s : State) (line : Nat) (kind : Snp) (sh : Nat) : State :=
  if sharerDown s sh then emit s (.belay 1 (.forward (.snooped line sh .i)))
  else snoop s { line := line, owed := [sh], kind := kind, req := none, forTwin := true }

/-- The sharers of a line on the twin's heads, as the twin tells them. -/
def tellTwinPart (s : State) (line : Nat) (ex : Bool) (shs : List Nat) : State :=
  match dirOf s line with
  | some d =>
    let alone := d.sharers.isEmpty && d.coarse.isNone
    match entryLeft { d with twin := shs, exclusive := if shs.isEmpty then d.exclusive && !alone else ex && alone } with
    | some d => dirSet s d
    | none => dirDrop s line
  | none => if shs.isEmpty then s else install s line ex (shs.map (twinSharer + ·))

/-- The second takes over the sharers on its heads that the lead tracked (12 R287). -/
def takeOwnPart (s : State) (line : Nat) (ex : Bool) (shs : List Nat) : State :=
  match dirOf s line with
  | some d => dirPut s (shs.foldl addSharer { d with exclusive := ex && d.twin.isEmpty })
  | none => if shs.isEmpty then s else install s line ex shs

/-- The lead tells the second every entry as the pair comes into sync: its own sharers, and the second's (12 R287). -/
def passDirectory (s : State) : State :=
  s.dir.foldl (fun s d =>
    let own := ownSharers s d
    let s := if d.twin.isEmpty then s else journalSend s (.dirLine false true d.line (d.exclusive && own.isEmpty) d.twin)
    if own.isEmpty then s else journalSend s (.dirLine true false d.line d.exclusive own)) s

/-- The twin is lost: its sharers leave the directory, and what they owe counts as answered (R90; 12 R283). -/
def dropTwinSharers (s : State) : State := dropSharers s fun sh => decide (twinSharer ≤ sh)

/-- Back-invalidate is enabled on the decoder of a head that covers a DPA (R83). -/
def biEnabled (s : State) (p h dpa : Nat) : Bool :=
  match s.hdms.find? (fun x => decide (x.1 = sharerId p h)) with
  | some (_, d) => d.bi && decide (d.base ≤ dpa) && decide (dpa < d.base + d.len)
  | none => false

/-- The partition is marked in BI_FAILED on the head (R89). -/
def biFailed (s : State) (p h : Nat) : Bool := (fget s .dirBiFailedHeads p).testBit h

end Sys2Proof.Machine
end

