-- ==== Sys2Proof/Machine/HostMem.lean ====
section
/-! DEFINITION. CXL.mem requests at the heads (02 R51; 03 R57, R64; 04 R81 to R89, R93; 12 R268, R273, R283, R285;
14 R316) and back-invalidate responses. -/

namespace Sys2Proof.Machine

open Sys2Proof

/-! ### Fencing (12 R282, R285) -/

/-- BELAY.STATUS.ROLE and STATE codes (12 Table 12.4). -/
def roleSolo : Nat := 0
def roleLead : Nat := 1
def roleSecond : Nat := 2
def roleFenced : Nat := 3
def bsUnpaired : Nat := 0
def bsJoining : Nat := 1
def bsResync : Nat := 2
def bsInSync : Nat := 3
def bsAlone : Nat := 4
def bsFenced : Nat := 5
def bsIncomplete : Nat := 6
def bsRefused : Nat := 7

/-- BELAY.STATUS.STATE. -/
def bState (s : State) : Nat := fget s .belayStatusState

/-- BELAY.STATUS.ROLE. -/
def bRole (s : State) : Nat := fget s .belayStatusRole

/-- ROLE changes: ROLE_CHANGED. -/
def setRole (s : State) (role : Nat) : State :=
  if bRole s = role then s else raise (fset s .belayStatusRole role) .belayRoleChanged 0 none (leBytes 1 role)

/-- The alignment of a pair ends with the pair (01 Table 1.9: ALIGNED, MODE and TWIN_OFFSET of a package alone). -/
def alignOver (s : State) : State :=
  let s := { s with tb := { s.tb with offset := 0, stepDue := false, markers := [] } }
  fset (fset (fset s .pitchAlignAligned 0) .pitchAlignMode 0) .pitchPhaseTwinOffset 0

/-- A write that a fenced package completes and drops: counted, and one Failure record per partition and
pitch (R285). -/
def fencedDrop (s : State) (r : Req) : State :=
  let s := finc s .belayForwardStatsFencedWrites
  let s := if s.belay.fencedRec.contains r.p.val then s
    else
      let s := emit (cfgUpd s r.p fun c => { c with logFail := c.logFail + 1 }) (.cxlFailure r.p)
      logSignal { s with belay := { s.belay with fencedRec := r.p.val :: s.belay.fencedRec } } r.p 3
  answer s r .cmp

/-- A request past the head and the access checks: to the directory of a shared-with-directory extent, else
to the tier agent. -/
def routeReq (s : State) (e : Extent) (r : Req) (upset : Upset) : State :=
  if e.attr.sharing = 1 then dirReq s r upset else tierReq s r upset

/-- A read or write of an unheld DPA (03 R64). -/
def unheld (s : State) (p : Nat) (dpa : Nat) : State := raise s .partUnheldAccess p none (leBytes 8 dpa)

/-- A request of a DPA that its partition does not hold: a host's read is poison and its write is dropped, a step fails with
EXTENT_GONE (03 R64, R67). -/
def goneReq (s : State) (r : Req) : State :=
  match r.src with
  | .host _ => answer (unheld s r.p r.dpa) r (noService r)
  | .job ring idx =>
    let s := failJob (unheld s r.p r.dpa) r.p ring idx 0x10
    if noService r = .cmp then answer s r .cmp else s
  | _ => answer s r (noService r)

/-- A byte of device memory lies in the range of an open window of the partition (07 R180, Table 7.10). -/
def inWindow (s : State) (p a : Nat) : Bool :=
  s.windows.any fun w => decide (w.p.val = p) && decide (w.base ≤ a) && decide (a < w.base + 32 * w.n)

/-- The bytes of a line write that lie outside open windows. -/
def windowMask (s : State) (p dpa : Nat) (mask : BitVec 64) : BitVec 64 :=
  (List.range 64).foldl (fun m i => if inWindow s p (dpa / 64 * 64 + i) then m &&& ~~~(1#64 <<< i) else m) mask

/-- A held host write past the window check: what lies in an open window is dropped (07 R180). -/
def windowWrite (s : State) (r : Req) (go : State → Req → State) : State :=
  let m := windowMask s r.p r.dpa r.mask
  if m = r.mask then go s r
  else
    let s := raise s .jobWindowWrite r.p none (leBytes 8 r.dpa)
    if m = 0 then answer s r .cmp else go s { r with mask := m }

/-- A write of a mirrored or unpaired partition on its way to its home. -/
def sendWrite (s : State) (e : Extent) (r : Req) : State :=
  if bRole s = roleSecond && twinUp s then
    -- a write that enters the second is ordered at the lead (R273)
    let (id, s) := newId s
    let s := finc { s with belay := { s.belay with forwarded := s.belay.forwarded ++ [⟨id, r⟩] } }
      .belayForwardStatsFwdReq
    let via := match r.src with
      | .host h => some h
      | _ => none
    emit s (.belay 2 (.mirror (.forward id r.p r.dpa r.data r.mask via r.mv)))
  else routeReq s e r []

/-- The publisher has its draft open, or the extent is no snapshot extent (04 R94). -/
def draftOk (s : State) (e : Extent) (p : Nat) : Bool :=
  decide (e.attr.sharing ≠ 2) || (isPublisher e p && (match snapOf s e.base with
    | some x => x.draft.isSome
    | none => false))

/-- A host write past the head: held, to a draft where it must be, outside the partition's windows (03 R64; 04 R94;
07 R180). -/
def checkedWrite (s : State) (r : Req) : State :=
  match heldExt s r.p r.dpa with
  | none => goneReq s r
  | some e =>
    if draftOk s e r.p then windowWrite s r fun s r => sendWrite s e r else answer (readerWrite s r.p) r .cmp

/-- A request that waited goes to its home, if its partition still holds the DPA. -/
def resend (s : State) (r : Req) : State :=
  match r.src, heldExt s r.p r.dpa with
  | .host _, some e => if noService r = .cmp then checkedWrite s r else routeReq s e r []
  | _, some e => routeReq s e r []
  | _, none => goneReq s r

/-- The package fences: writes that it held are completed and dropped, and the journal ends with its twin
(R283, R285); hints that waited for the journal are applied alone. -/
def fence (s : State) (st : Nat) : State :=
  let s := { s with belay := { s.belay with roleBefore := bRole s, deciding := false } }
  let s := fset (setRole s roleFenced) .belayStatusState st
  let s := raise s .belayFenced
  let held := s.belay.heldWrites
  let s := { s with
    belay := { s.belay with heldWrites := [], journal := [] },
    hints := s.hints.map fun x => (x.1, x.2.map fun e => if e.phase = 1 then { e with phase := 0 } else e) }
  held.foldl (fun s r => if noService r = .cmp then fencedDrop s r else resend s r) s

/-- A host's write that waits for a snoop or behind one. -/
def waitingWrite (r : Req) : Bool :=
  match r.src with
  | .host _ => decide (noService r = .cmp)
  | _ => false

/-- The package fences and its twin is gone: writes that wait for snoops, or for the twin's acceptance, are completed and
dropped too, and the twin's sharers leave the directory (R283, R285). -/
def fenceAlone (s : State) (st : Nat) : State :=
  let snooped := (s.trans.filterMap (·.req)).filter waitingWrite
  let waiting := s.lineq.filter waitingWrite
  let mirror := s.belay.mirror.map (·.req)
  let s := { s with
    trans := s.trans.map fun t => { t with req := t.req.filter fun r => !waitingWrite r }
    lineq := s.lineq.filter fun r => !waitingWrite r
    belay := { s.belay with mirror := [] } }
  let s := (snooped.reverse ++ waiting ++ mirror).foldl fencedDrop (fence s st)
  dropTwinSharers s

/-- Send LEAVING and fence until the next reset (R282). -/
def sendLeaving (s : State) : State :=
  if twinUp s then
    let s := alignOver (emit s (.belay 0 .leaving))
    fenceAlone { s with belay := { s.belay with leaving := true } } bsFenced
  else s

/-! ### Access checks -/

/-- A request for an LD-ID that the head does not carry (03 R57). -/
def notCarried (s : State) (h : Head) (p : Part) : State := record s .ldNotCarried h (some p.val)

/-- Requests can arrive on a head: its link is up and the package serves. -/
def headOpen (s : State) (h : Head) : Bool := linkUp s h && running s && decide (s.boot.phase = .active)

/-- Why a head answers a request without serving it, in the order in which the request meets the checks. -/
inductive HeadStop where
  | notCarried | ide | reset | incomplete
  deriving DecidableEq, Repr

/-- The checks at the head (03 R57; 14 R316; 02 R51; 12 R288). -/
def headStop (s : State) (h : Head) (p : Part) : Option HeadStop :=
  if !carried s p h then some .notCarried
  else if ideBlocks s h then some .ide
  else if (cfgOf s p).inReset = some .cxl then some .reset
  else if bState s = bsIncomplete then some .incomplete
  else none

/-- A held extent refuses a read at this head: back-invalidate off, or the sharer marked failed (04 R83,
R89). -/
def biStops (s : State) (p : Part) (h : Head) (dpa : Nat) : Bool :=
  match heldExt s p dpa with
  | some e => decide (e.attr.sharing = 1) && (!biEnabled s p h dpa || biFailed s p h)
  | none => false

/-- A host read of a line. -/
def doHostRead (s : State) (h : Head) (p : Part) (dpa : Nat) (mv : Meta) (upset : Upset) : State :=
  let r : Req := { kind := .read, p := p, src := .host h, dpa := dpa / 64 * 64, mv := mv }
  match headStop s h p with
  | some .notCarried => answer (notCarried s h p) r .poison
  | some _ => answer s r .poison
  | none =>
    if biStops s p h dpa then answer (if biEnabled s p h dpa then s else raise s .dirBiDisabled p) r .poison
    else if forwardsAll s then forwardReq s r upset
    else if s.belay.deciding && s.belay.heldWrites.any (fun q => decide (lineOf q.dpa = lineOf r.dpa)) then
      { s with belay := { s.belay with heldWrites := s.belay.heldWrites ++ [r] } }
    else match heldExt s p dpa with
      | none => goneReq s r
      | some e =>
        let s := if lineUnsynced s (lineOf dpa) then
          record s .lostLineRead 0 (some p.val) (leBytes 4 (segmentOf dpa)) else s
        routeReq s e r upset

/-- A host write of a line, or of the bytes of it that the mask selects. -/
def doHostWrite (s : State) (h : Head) (p : Part) (dpa : Nat) (d : Line) (mask : BitVec 64) (mv : Meta) :
    State :=
  let r : Req := { kind := .write, p := p, src := .host h, dpa := dpa / 64 * 64, data := d, mask := mask, mv := mv }
  match headStop s h p with
  | some .notCarried => answer (notCarried s h p) r .cmp
  | some .incomplete => fencedDrop s r
  | some _ => answer s r .cmp
  | none =>
    if bRole s = roleFenced then fencedDrop s r
    else if s.belay.deciding then { s with belay := { s.belay with heldWrites := s.belay.heldWrites ++ [r] } }
    else checkedWrite s r

/-- A MemClnEvct (04 Table 4.3, Table 4.4): it completes; one of an LD-ID that the head does not carry or of an unheld DPA has
no other effect (03 R57, R64). -/
def doCleanEviction (s : State) (h : Head) (p : Part) (dpa : Nat) : State :=
  let s1 := hostRsp s p h (dpa / 64 * 64) .cmp
  if !carried s p h then notCarried s1 h p
  else match heldExt s p dpa with
  | none => s1
  | some e =>
    if e.attr.sharing ≠ 1 then s1
    else if forwardsAll s then emit s1 (.belay 2 (.forward (.cleanEvict p h dpa)))
    else evictClean s1 (lineOf dpa) (sharerId p h)

/-- A BIRsp that BI_TIMEOUT does not see (04 R89). -/
def doBiTimeout (s : State) (h : Head) (p : Part) (dpa : Nat) : State :=
  let line := lineOf dpa
  let s := finc (finc s .dirBiStatsBiTimeouts p) .dirBiStatsBiTimeouts 16
  let s := fset s .dirBiFailedHeads (bitOn (fget s .dirBiFailedHeads p) h) p
  let s := raise (raise s .dirBiTimeout p none (leBytes 8 line)) .dirBiTimeout 16 (some p.val) (leBytes 8 line)
  biAnswer (mediaEvent s p true dpa) line (sharerId p h) .i

/-- A retrained head is no longer marked for any partition (R89). -/
def clearBiFailed (s : State) (h : Nat) : State :=
  (List.range 16).foldl (fun s p =>
    if (fget s .dirBiFailedHeads p).testBit h then
      fset s .dirBiFailedHeads (bitOff (fget s .dirBiFailedHeads p) h) p else s) s

/-! ### Meanings -/

/-- HOST_MEM_READ (01 R14). -/
def execHostMemRead (h : Head) (p : Part) (dpa : Nat) (mv : Meta) (upset : Upset) (s : State) :
    Host.Outcome State Fault Refusal :=
  .next (if headOpen s h then doHostRead (touch s) h p dpa mv upset else s)

/-- HOST_MEM_WRITE (01 R15). -/
def execHostMemWrite (h : Head) (p : Part) (dpa : Nat) (data : Line) (mask : BitVec 64) (mv : Meta)
    (s : State) : Host.Outcome State Fault Refusal :=
  .next (if headOpen s h then doHostWrite (touch s) h p dpa data mask mv else s)

/-- PARTIAL_WRITE_MERGE (11 R251): the merge issues while the home serves. -/
def execPartialWriteMerge (dpa : Nat) (upset : Upset) (s : State) : Host.Outcome State Fault Refusal :=
  .next (if homeSt s dpa = .serve then mergeLineAll s (lineOf dpa) upset else s)

/-- CLEAN_EVICTION (04 R84). -/
def execCleanEviction (h : Head) (p : Part) (dpa : Nat) (s : State) : Host.Outcome State Fault Refusal :=
  .next (if headOpen s h then doCleanEviction (touch s) h p dpa else s)

/-- BIRSP (04 R85). -/
def execBirsp (h : Head) (p : Part) (dpa : Nat) (resp : BiResp) (s : State) :
    Host.Outcome State Fault Refusal :=
  .next (if linkUp s h then biAnswer s (lineOf dpa) (sharerId p h) resp else s)

/-- BICONFLICT (04 R85): the BIConflictAck of CXL 3.2. -/
def execBiconflict (h : Head) (p : Part) (dpa : Nat) (s : State) : Host.Outcome State Fault Refusal :=
  .next (if linkUp s h then emit s (.biConflictAck p h (lineOf dpa)) else s)

/-- BI_TIMEOUT (04 R89). -/
def execBiTimeout (h : Head) (p : Part) (dpa : Nat) (s : State) : Host.Outcome State Fault Refusal :=
  .next (if owes s (lineOf dpa) (sharerId p h) then doBiTimeout s h p dpa else s)

end Sys2Proof.Machine
end

