-- ==== Sys2Proof/Machine/PcOps.lean ====
section
/-! DEFINITION. A PC controller's life (10 R226 to R236): the ends of a freeze, retraining, the training
helpers, quiescing, heat trips; scrubbing (11 R252, R253) and retirement (11 R254 to R256). -/

namespace Sys2Proof.Machine

open Sys2Proof

/-! ### Lines by place -/

/-- Number of a place among the lines of its PC: the inverse of `locOfLine`. -/
def placeNum (l : Loc) : Nat := l.row * 1024 + l.rank * 512 + l.bank / 4 * 128 + l.bank % 4 * 32 + l.col

/-- The line stored at a place of a PC: in the tiered configurations, of the block whose frame takes it (06 R147). -/
def lineAtPlace (s : State) (pc : Nat) (l : Loc) : Option Nat :=
  if s.boot.tiered then
    (s.frames.find? fun f => decide (pcOfAddr (blockDpa f.block) = pc) && f.placed && decide (f.off ≤ placeNum l) &&
      decide (placeNum l < f.off + f.units)).map fun f => f.block * 128 + (placeNum l - f.off)
  else some (bpaOf pc l / 64)

/-- Lines of a row of one bank. -/
def rowLines (s : State) (pc rank bank row : Nat) : List Nat :=
  (List.range 32).filterMap fun c => lineAtPlace s pc ⟨rank, bank, row, c⟩

/-- Lines of a block place: one row in four banks (10 R221). -/
def placeLines (s : State) (pc rank bankHi row : Nat) : List Nat :=
  (List.range 4).flatMap fun k => rowLines s pc rank (bankHi * 4 + k) row

/-- Copy a line aside and back: corrected where it can be, else the poison word, or in a pair a block to fetch
from the twin (10 R235; 11 R254). -/
def settleLine (s : State) (pc line : Nat) : State :=
  let errs := (s.damage.filter fun x => decide (x.1 = line)).map (·.2)
  if errs.isEmpty then s
  else match readCode (s.poison.contains line) (lineData s line) errs with
    | .corrected d _ => putLine s line d
    | .bad =>
      if twinUp s then pcUpd (putPoison s line) pc fun st => { st with resync := ins st.resync (line / 128) }
      else putPoison s line
    | _ => s

def settleLines (s : State) (pc : Nat) (ls : List Nat) : State := ls.foldl (fun s l => settleLine s pc l) s

/-! ### Retirement (11 R254 to R256) -/

/-- Repair rows left in a bank queue: two at manufacture (R254). -/
def pprLeft (s : State) (pc q : Nat) : Nat :=
  2 - (s.ras.rows.filter fun r => decide (r.1 = pc) && decide (r.2.1 = q)).length

/-- Spare blocks left in a PC (R254). -/
def sparesLeft (s : State) (pc : Nat) : Nat := 2048 - (s.ras.retired.filter fun b => decide (b.pc = pc)).length

/-- Fewest spare blocks left in any PC. -/
def sparesMin (s : State) : Nat := s.ras.retired.foldl (fun m b => min m (sparesLeft s b.pc)) 2048

/-- Payload of a RETIRED record: what was retired, and where. -/
def retiredBytes (op pc rank bank row : Nat) : List Byte :=
  leBytes 2 pc ++ leBytes 1 rank ++ leBytes 1 bank ++ leBytes 2 row ++ leBytes 1 op

/-- A retirement completes: RETIRED. -/
def retiredEvt (s : State) (op pc rank bank row : Nat) : State :=
  raise s .rasRetired 0 none (retiredBytes op pc rank bank row)

/-- The PC's twin covers what was just lost (12 R280). -/
def coverEvt (s : State) (payload : List Byte) : State :=
  if twinUp s then raise s .belayCovering 0 none payload else s

/-- A PC is mapped out (R235; 03 Table 3.5). -/
def failPc (s : State) (pc : Nat) : State :=
  if fget s .pcStateState pc = pcFailed then s
  else
    let s := finc (setPcSt s pc pcFailed) .rasRetiredPcs
    let s := hupd s .pc pc fun h => { h with frozen := false, quiesced := false }
    let s := pcUpd s pc fun st =>
      { st with entries := [], inOrder := [], openRows := [], trr := [], due := [], partials := [],
                poisonDue := [], dropped := [], resync := [], holdOver := false, repairing := false,
                retraining := false, training := false, retrainDue := false }
    let s := coverEvt (retiredEvt (raise s .pcFailed pc) 4 pc 0 0 0) (leBytes 2 pc)
    let s := match s.ras.busy with
      | some r =>
        if r.pc = pc then fset (fset { s with ras := { s.ras with busy := none } } .rasRetireStatusBusy 0)
          .rasRetireStatusResult 3 else s
      | none => s
    serveHeld (loseFrames s) pc

/-- A bank is mapped out (Table 11.4). -/
def mapOutBank (s : State) (pc q : Nat) : State :=
  if bankOut s pc q then s
  else
    let s := finc { s with ras := { s.ras with banksOut := s.ras.banksOut ++ [(pc, q)] } } .rasRetiredBanks
    let s := coverEvt (retiredEvt s 3 pc (q % 2) (q / 2) 0) (leBytes 2 pc ++ leBytes 1 q)
    serveHeld (loseFrames s) pc

/-- End of a retirement command. -/
def retireEnd (s : State) (result : Nat) : State :=
  fset (fset { s with ras := { s.ras with busy := none } } .rasRetireStatusBusy 0) .rasRetireStatusResult result

/-- A bank or a PC leaves service by command. -/
def retireNow (s : State) (r : Retirement) : State :=
  if r.op = 3 then retireEnd (mapOutBank s r.pc (r.bank * 2 + r.rank)) 0 else failPc (retireEnd s 0) r.pc

/-- A retirement of a block, row, bank or PC begins (R254, R256): it waits out a freeze of its PC. -/
def startRetire (s : State) (r : Retirement) : State :=
  let froz := decide (fget s .pcStateState r.pc = pcFrozen)
  if !froz && (r.op = 3 || r.op = 4) then retireNow s r
  else fset (fset { s with ras := { s.ras with busy := some { r with waiting := froz } } } .rasRetireStatusBusy 1)
    .rasRetireStatusResult 0

/-- RETIRE_CMD (R256): a result at once where it cannot be carried out. -/
def retireCmd (s : State) (r : Retirement) : State :=
  if s.ras.busy.isSome || r.op = 0 || decide (4 < r.op) then s
  else if fget s .pcStateState r.pc = pcFailed then retireEnd s 3
  else if r.op = 1 ∧ r.bank % 4 ≠ 0 then retireEnd s 4
  else if r.op = 1 ∧ sparesLeft s r.pc = 0 then retireEnd s 1
  else if r.op = 2 ∧ pprLeft s r.pc (r.bank * 2 + r.rank) = 0 then retireEnd s 2
  else startRetire s r

/-- A row of one bank is repaired. -/
def repairRow (s : State) (pc rank bank row : Nat) : State :=
  let s := settleLines s pc (rowLines s pc rank bank row)
  finc { s with ras := { s.ras with rows := s.ras.rows ++ [(pc, bank * 2 + rank, row)] } } .rasRetiredRows

/-- A block moves to a spare and its table entry switches (R254). -/
def retireBlockPlace (s : State) (r : Retirement) : State :=
  let b : RetiredBlock := ⟨r.pc, r.rank, r.bank / 4, r.row⟩
  let s := settleLines s r.pc (placeLines s r.pc r.rank (r.bank / 4) r.row)
  let s := { s with ras := { s.ras with retired := ins s.ras.retired b },
                    flash := { s.flash with retired := ins s.flash.retired b } }
  let s := finc s .rasRetiredBlocks
  if sparesLeft s r.pc = 255 then raise s .rasSparesLow 0 none (leBytes 2 r.pc) else s

/-- Four blocks of a row number go back to their places once the row is repaired (Table 11.4). -/
def repairRowAll (s : State) (r : Retirement) : State :=
  let s := (List.range 16).foldl (fun s k => repairRow s r.pc r.rank k r.row) s
  let keep := fun (b : RetiredBlock) => !(decide (b.pc = r.pc) && decide (b.rank = r.rank) && decide (b.row = r.row))
  { s with ras := { s.ras with retired := s.ras.retired.filter keep },
           flash := { s.flash with retired := s.flash.retired.filter keep } }

/-- The retirement in progress completes (R254). -/
def doRetired (s : State) : State :=
  match s.ras.busy with
  | none => s
  | some r =>
    if r.waiting then s
    else
      let s := if r.op = 1 then retireBlockPlace s r
        else if r.op = 2 then repairRow s r.pc r.rank r.bank r.row else repairRowAll s r
      serveHeld (retiredEvt (retireEnd s 0) r.op r.pc r.rank r.bank r.row) r.pc

/-- A retirement that waited for the end of a freeze goes on (R256). -/
def retireGoesOn (s : State) (pc : Nat) : State :=
  match s.ras.busy with
  | some r =>
    if r.pc = pc ∧ r.waiting then
      (if r.op = 3 ∨ r.op = 4 then retireNow s r
       else { s with ras := { s.ras with busy := some { r with waiting := false } } })
    else s
  | none => s

/-! ### The ends of a freeze (10 R235) -/

/-- Place named by FREEZE_INFO. -/
def freezeLoc (s : State) (pc : Nat) : Loc :=
  ⟨fget s .pcFreezeInfoRank pc, fget s .pcFreezeInfoBank pc, fget s .pcFreezeInfoRow pc,
    fget s .pcFreezeInfoColumn pc⟩

/-- A block asked of the twin. -/
def fetchBlock (s : State) (b : Nat) : State := emit s (.belay 2 (.forward (.block s.belay.nextId b)))

/-- State of a PC that is neither frozen nor retraining. -/
def restState (s : State) (pc : Nat) : State :=
  let q := (hget s .pc pc).quiesce
  hupd (setPcSt s pc (if q then pcQuiesced else pcRun)) .pc pc fun h => { h with quiesced := q }

/-- RESUME: the lines of dropped writes and of partial writes without a merge become poison, the queue goes
on, then the held requests; in a pair what the twin took comes back first (R235; 11 R251). More than 4,096
dropped lines fail the PC. -/
def resumePc (s : State) (pc : Nat) : State :=
  let st := pcOf s pc
  if droppedMax < st.dropped.length then failPc s pc
  else
    let s := (st.dropped ++ st.poisonDue).foldl putPoison s
    let bad := if twinUp s && decide (fget s .pcFreezeInfoCause pc = 1) then
      (match lineAtPlace s pc (freezeLoc s pc) with
        | some l => ins st.resync (l / 128)
        | none => st.resync) else st.resync
    let s := pcUpd s pc fun st =>
      { st with dropped := [], poisonDue := [], holdOver := false, repairing := false, training := false,
                resync := if twinUp s then bad else [] }
    let s := restState (hupd s .pc pc fun h => { h with frozen := false }) pc
    let s := (pcOf s pc).resync.foldl fetchBlock s
    serveHeld (retireGoesOn s pc) pc

/-- RETIRE_ROW begins: a bank without a repair row left just resumes. -/
def retireRowStart (s : State) (pc : Nat) : State :=
  if pprLeft s pc (bankqOf (freezeLoc s pc)) = 0 then resumePc s pc
  else pcUpd s pc fun st => { st with repairing := true }

/-- The repair of RETIRE_ROW is done and the PC resumes. -/
def retireRowEnd (s : State) (pc : Nat) : State :=
  let l := freezeLoc s pc
  let s := repairRow s pc l.rank l.bank l.row
  let s := retiredEvt (finc s .pcRefreshStatsRetired pc) 2 pc l.rank l.bank l.row
  resumePc s pc

/-- FREEZE_ACT (Table 10.5): ignored unless the PC is frozen, and while a repair runs. -/
def freezeAct (s : State) (pc action : Nat) : State :=
  if fget s .pcStateState pc ≠ pcFrozen ∨ (pcOf s pc).repairing then s
  else if action = 1 then resumePc s pc
  else if action = 2 then retireRowStart s pc
  else if action = 3 then failPc s pc
  else s

/-- FREEZE_HOLD ends in SOLO: what is held is answered (Table 10.4). -/
def doFreezeHold (s : State) (pc : Nat) : State :=
  rerunCluster (serveHeld (pcUpd s pc fun st => { st with holdOver := true }) pc) (clusterOfPc pc)

/-! ### Quiescing, retraining, the training helpers (10 R232, R233; 15 R324) -/

/-- PAGE_CTRL.QUIESCE of a PC page. -/
def doQuiesce (s : State) (pc : Nat) (on : Bool) : State :=
  let s := hupd s .pc pc fun h => { h with quiesce := on }
  let st := fget s .pcStateState pc
  if st = pcRun ∨ st = pcQuiesced then
    let s := restState s pc
    if on then s else serveHeld (pcUpd s pc fun st => { st with training := false }) pc
  else s

/-- Another PC of the cluster retrains. -/
def clusterRetrains (s : State) (pc : Nat) : Bool :=
  (List.range 4).any fun i => (pcOf s (pc / 4 * 4 + i)).retraining

/-- A due retrain starts: the PC is quiesced. -/
def doRetrainStart (s : State) (pc : Nat) : State :=
  hupd (setPcSt (pcUpd s pc fun st => { st with retraining := true }) pc pcTraining) .pc pc
    fun h => { h with quiesced := true }

/-- A retrain ends, or is abandoned with the previous settings kept. -/
def doRetrainEnd (s : State) (pc : Nat) (finished : Bool) : State :=
  let s := pcUpd s pc fun st => { st with retraining := false, retrainDue := !finished }
  let s := restState s pc
  let s := if finished then fset s .pcTempTempTrained (fget s .pcTempTempC pc) pc
    else raise s .pcTrainAborted pc
  serveHeld s pc

/-- TRAIN_CTRL.RUN: ignored unless the page is quiesced or frozen or start-up runs; refused where the range
names another row than the training row, except during start-up (R232). -/
def doTrainRun (s : State) (pc : Nat) : State :=
  let h := hget s .pc pc
  let start := decide (s.boot.phase = .starting)
  if !(h.quiesced || h.frozen || start) then s
  else if !start && (decide (fget s .pcTrainAddrRow pc ≠ 0xFFFF) || decide (1 < fget s .pcTrainAddrRows pc)) then
    fset s .pcTrainCtrlRefused 1 pc
  else fset (fset (pcUpd s pc fun st => { st with training := true }) .pcTrainCtrlDone 0 pc)
    .pcTrainCtrlRefused 0 pc

/-- A helper run finishes. -/
def doTrainDone (s : State) (pc : Nat) (lanes : W64) (mism first : Nat) : State :=
  let s := fset (pcUpd s pc fun st => { st with training := false }) .pcTrainCtrlDone 1 pc
  let s := fset (fset s .pcTrainLanesLaneFail lanes.toNat pc) .pcTrainResultMismatches mism pc
  raise (fset s .pcTrainResultFirstFail first pc) .pcTrainDone pc

/-! ### Heat -/

/-- The package trips (R229): every controller stops, every stack enters self-refresh, THERMTRIP# is low; the
twin is told (12 R282). -/
def tripPackage (s : State) (pc : Nat) : State :=
  let s := raise (raise (sendLeaving s) .pcTrip pc) .pinThermtrip 0 none (leBytes 2 pc)
  { s with boot := { s.boot with phase := .tripped, thermtripLow := true } }

/-! ### Scrubbing (11 R252, R253) -/

/-- Lines of a PC. -/
def pcLines : Nat := 67108864

/-- The interval K for an hour count and a pitch length in µs. -/
def scrubK (hours us : Nat) : Nat := max 1 (hours * 3600000000 / (us * pcLines))

/-- The PC's turn at this boundary has come and is not yet taken. -/
def scrubTurn (s : State) (pc : Nat) : Bool :=
  decide (fget s .rasCfgScrubEn = 1) && decide ((count s + pc) % fget s .rasScrubStatusK = 0) &&
    decide (aget s.ras.last pc (count s + 1) ≠ count s) && decide (pcSt s pc = pcRun)

/-- Every PC in service has finished the pass: PASSES, SCRUB_PASS; the counts of R255 restart. -/
def scrubPass (s : State) : State :=
  if (List.range 1024).all fun p => s.ras.done.contains p || decide (fget s .pcStateState p = pcFailed) then
    raise (finc { s with ras := { s.ras with done := [], ce := [] } } .rasScrubStatusPasses) .rasScrubPass
  else s

/-- One scrub read at the cursor. Errors in training rows freeze nothing (10 R232). -/
def doScrub (s : State) (pc : Nat) (upset : Upset) : State :=
  let k := aget s.ras.cursors pc 0
  let l : Loc := ⟨k / 512 % 2, k / 128 % 4 * 4 + k / 32 % 4, k / 1024, k % 32⟩
  let s := if l.row = 0xFFFF then s
    else match lineAtPlace s pc l with
      | some line =>
        let s := if queueRoom s pc 1 none then enqueue s pc false (line * 64) 1 none none 2 else s
        (readLine s line upset 2).1
      | none => s
  let wrap := decide (k + 1 = pcLines)
  let s := { s with ras := { s.ras with cursors := aset s.ras.cursors pc (if wrap then 0 else k + 1),
                                        last := aset s.ras.last pc (count s),
                                        done := if wrap then ins s.ras.done pc else s.ras.done } }
  if wrap then scrubPass s else s

/-! ### The retirement policy (11 R255) -/

/-- A committed record by its SEQ. -/
def recOfSeq (s : State) (seq : Nat) : Option CRec := s.cairn.log.find? fun r => decide (r.seq = seq)

/-- Retire the block at a place, or map the bank out when no spare is left (Table 11.4). -/
def policyBlock (s : State) (pc : Nat) (l : Loc) : State :=
  if s.ras.retired.any fun b => decide (b.pc = pc) && decide (b.rank = l.rank) &&
      decide (b.bankHi = l.bank / 4) && decide (b.row = l.row) then s
  else if fget s .pcStateState pc = pcFailed then s
  else if sparesLeft s pc = 0 then startRetire s ⟨3, pc, l.rank, l.bank, l.row, false⟩
  else startRetire s ⟨1, pc, l.rank, l.bank, l.row, false⟩

/-- Evidence of corrected reads of one line. -/
def policyCe (s : State) (line : Nat) : State :=
  if fget s .rasCfgCeRetire ≤ aget s.ras.ce line 0 then
    policyBlock s (pcOfAddr (line * 64)) (locOf s (line * 64)) else s

/-- Evidence of a freeze. -/
def policyFreeze (s : State) (pc : Nat) : State :=
  if fget s .pcStateState pc ≠ pcFrozen ∨ (pcOf s pc).repairing then s
  else if fget s .pcFreezeInfoCause pc = 1 then
    let l := freezeLoc s pc
    if pprLeft s pc (bankqOf l) ≠ 0 then retireRowStart s pc else policyBlock (resumePc s pc) pc l
  else
    let day := 24 * 3600000000 / pitchUs s
    if 3 ≤ ((pcOf s pc).parityAt.filter fun t => decide (count s ≤ t + day)).length then failPc s pc
    else resumePc s pc

/-- Evidence of retirements: four blocks of one row, 32 blocks of one bank, two banks of a PC. -/
def policyRetired (s : State) (op pc rank bank row : Nat) : State :=
  let mine := s.ras.retired.filter fun b => decide (b.pc = pc) && decide (b.rank = rank)
  if fget s .pcStateState pc = pcFailed then s
  else if op = 3 then
    (if 2 ≤ (s.ras.banksOut.filter fun x => decide (x.1 = pc)).length then
      startRetire s ⟨4, pc, 0, 0, 0, false⟩ else s)
  else if op = 1 then
    if 32 ≤ (mine.filter fun b => decide (b.bankHi = bank / 4)).length then
      startRetire s ⟨3, pc, rank, bank, row, false⟩
    else if 4 ≤ (mine.filter fun b => decide (b.row = row)).length &&
        (List.range 16).all (fun k => decide (pprLeft s pc (k * 2 + rank) ≠ 0)) then
      startRetire s ⟨5, pc, rank, bank, row, false⟩
    else s
  else s

/-- Efirazu acts on a committed record (R255). -/
def doAutoRetire (s : State) (r : CRec) : State :=
  if r.block = blkCode .ras ∧ r.event = (Evt.rasCeLine).code then policyCe s (leAt r.payload 0 8)
  else if r.block = blkCode .ras ∧ r.event = (Evt.rasRetired).code then
    policyRetired s (leAt r.payload 6 1) (leAt r.payload 0 2) (leAt r.payload 2 1) (leAt r.payload 3 1)
      (leAt r.payload 4 2)
  else if r.block = blkCode .pc ∧ r.event = (Evt.pcFrozen).code then policyFreeze s r.inst
  else s

/-! ### Meanings -/

/-- TEMP_READ (10 R226 to R229). -/
def execTempRead (pc : PcId) (reading : Option Nat) (s : State) : Host.Outcome State Fault Refusal :=
  .next (if running s then
    let s := doTempRead s pc reading
    match reading with
    | some t => if 105 ≤ t then tripPackage s pc else s
    | none => s
   else s)

/-- REFRESH_DUE (10 R227). -/
def execRefreshDue (pc : PcId) (rank : Fin 2) (s : State) : Host.Outcome State Fault Refusal :=
  .next (if running s then doRefreshDue s pc rank else s)

/-- PC_COMMAND_ISSUE (10 R223, R234): a free command slot, or a parity error that the DRAM reports. -/
def execPcCommandIssue (pc : PcId) (parity : Option ParityErr) (s : State) :
    Host.Outcome State Fault Refusal :=
  .next (if running s && decide (pcSt s pc ≠ pcFailed) && !selfRefreshing s then
    match parity with
    | some e => freezePc s pc 2 ⟨e.rank % 2, e.bank % 16, e.row % 65536, e.column % 32⟩
    | none => serveHeld (issueCmd s pc) pc
   else s)

/-- OPEN_TIMEOUT (10 R224). -/
def execOpenTimeout (pc : PcId) (bankq : Fin 32) (s : State) : Host.Outcome State Fault Refusal :=
  .next (pcUpd s pc fun st => { st with openRows := adel st.openRows bankq.val })

/-- AGE_MAX (09 R209). -/
def execAgeMax (pc : PcId) (entry : Nat) (s : State) : Host.Outcome State Fault Refusal :=
  .next (pcUpd s pc fun st =>
    { st with entries := st.entries.map fun e => if e.id = entry then { e with level := 0 } else e })

/-- RANK_POWER_DOWN (10 R231): no request waits for the rank. -/
def execRankPowerDown (pc : PcId) (rank : Fin 2) (s : State) : Host.Outcome State Fault Refusal :=
  .next (if running s && !(pcOf s pc).entries.any (fun e => decide (e.bankq % 2 = rank.val)) then
    fset s .pcStateRanksPd (bitOn (fget s .pcStateRanksPd pc) rank) pc else s)

/-- FREEZE_HOLD (10 R234, Table 10.4): in SOLO, on a frozen PC. -/
def execFreezeHold (pc : PcId) (s : State) : Host.Outcome State Fault Refusal :=
  .next (if decide (pcSt s pc = pcFrozen) && !twinUp s then doFreezeHold s pc else s)

/-- RETIRE_ROW_DONE (10 R235). -/
def execRetireRowDone (pc : PcId) (s : State) : Host.Outcome State Fault Refusal :=
  .next (if (pcOf s pc).repairing then retireRowEnd s pc else s)

/-- PC_RETRAIN_START (10 R233): once no other PC of the cluster retrains and no freeze holds. -/
def execPcRetrainStart (pc : PcId) (s : State) : Host.Outcome State Fault Refusal :=
  .next (if (pcOf s pc).retrainDue && !clusterRetrains s pc &&
      decide (pcSt s pc = pcRun ∨ pcSt s pc = pcQuiesced) then doRetrainStart s pc else s)

/-- PC_RETRAIN_END (10 R233). -/
def execPcRetrainEnd (pc : PcId) (finished : Bool) (s : State) : Host.Outcome State Fault Refusal :=
  .next (if (pcOf s pc).retraining then doRetrainEnd s pc finished else s)

/-- TRAIN_DONE (10 R232). -/
def execTrainDone (pc : PcId) (lanes : W64) (mismatches firstFail : BitVec 32) (s : State) :
    Host.Outcome State Fault Refusal :=
  .next (if (pcOf s pc).training then doTrainDone s pc lanes mismatches.toNat firstFail.toNat else s)

/-- SCRUB_LINE (11 R252, R253). -/
def execScrubLine (pc : PcId) (upset : Upset) (s : State) : Host.Outcome State Fault Refusal :=
  .next (if running s && scrubTurn s pc then doScrub s pc upset else s)

/-- AUTO_RETIRE (11 R255): a committed record, while the policy is on and no retirement runs. -/
def execAutoRetire (seq : Nat) (s : State) : Host.Outcome State Fault Refusal :=
  .next (match recOfSeq s seq with
    | some r => if fget s .rasCfgAutoRetire = 1 ∧ s.ras.busy = none then doAutoRetire s r else s
    | none => s)

/-- RETIRED (11 R254, R256). -/
def execRetired (s : State) : Host.Outcome State Fault Refusal := .next (doRetired s)

end Sys2Proof.Machine
end

