-- ==== Sys2Proof/Machine/Jobs.lean ====
section
/-! DEFINITION. Job rings, descriptors and completion records (07 R156 to R165), staging reads and their tags
(02 R46, R47), windows (07 R180), and the ends of a partition's work (02 R49; 03 R72; 07 R160). -/

namespace Sys2Proof.Machine

open Sys2Proof

/-! ### Rings -/

/-- RING_STATUS.CAUSE codes (Table 7.15). -/
def haltMaster : Nat := 1
def haltLease : Nat := 2
def haltStop : Nat := 3
def haltOverrun : Nat := 4
def haltFetch : Nat := 5

def ringHalted (s : State) (p k : Nat) : Bool := decide (fget s .jobRingStatusHalted p k = 1)

/-- The ring is enabled and not halted. -/
def ringOn (s : State) (p k : Nat) : Bool := decide (fget s .jobRingCtrlEnable p k = 1) && !ringHalted s p k

/-- Descriptors that a ring holds (R156). -/
def ringSize (s : State) (p k : Nat) : Nat := 2 ^ (fget s .jobRingCtrlSize p k + 4)

/-- Jobs of a ring that the twin did not send, in ring order. -/
def ringJobs (s : State) (p k : Nat) : List Job :=
  s.jobs.filter fun j => decide (j.p.val = p) && decide (j.ring.val = k) && !j.foreign

/-- The lowest index of a ring not completed. -/
def firstUndone (s : State) (p k : Nat) : Nat :=
  match ringJobs s p k with
  | j :: _ => j.idx
  | [] => (ringOf s p k).fetched

/-- A ring halts (R160). -/
def haltRing (s : State) (p k cause status : Nat) : State :=
  let first := firstUndone s p k
  let s := fset (fset s .jobRingStatusHalted 1 p k) .jobRingStatusCause cause p k
  let s := fset (fset s .jobRingStatusHaltStatus status p k) .jobRingStatusFirstUndone first p k
  raise s .jobRingHalted p none (leBytes 1 k ++ leBytes 1 cause ++ leBytes 2 status ++ leBytes 4 first)

/-! ### Tags (02 R46, R47) -/

/-- Issue a non-posted read where R46 allows one: the tag is taken and the request leaves. -/
def issueRead (s : State) (p : Part) (tagUse : TagUse) (addr len : Nat) : Option State :=
  if canMaster s p then
    match freeTag s p, masterHead s p with
    | some t, some h =>
      some (emit (cfgUpd s p fun c => { c with tags := c.tags ++ [⟨t, tagUse, h, false⟩] })
        (.busRead p h t addr len))
    | _, _ => none
  else none

/-- The tag of a number that a partition holds. -/
def heldTag (s : State) (p tag : Nat) : Option Tag := (cfgOf s p).tags.find? fun t => decide (t.num = tag)

def dropTag (s : State) (p tag : Nat) : State :=
  cfgUpd s p fun c => { c with tags := c.tags.filter fun t => decide (t.num ≠ tag) }

/-- Completions of the tags that a test selects will be discarded (02 R48). -/
def discardTags (s : State) (p : Nat) (ok : TagUse → Bool) : State :=
  cfgUpd s p fun c => { c with tags := c.tags.map fun t => if ok t.use then { t with discard := true } else t }

/-- A tag is held for a use. -/
def tagFor (s : State) (p : Nat) (u : TagUse) : Bool :=
  (cfgOf s p).tags.any fun t => decide (t.use = u) && !t.discard

/-! ### Fetching descriptors (R157, R159) -/

/-- Start the next fetch of a ring that has descriptors to fetch. -/
def pumpRing (s : State) (p : Part) (k : Ring) : State :=
  let r := ringOf s p k
  if ringOn s p k && !r.fetching && decide (r.fetched ≠ r.producer) then
    if fget s .jobRingCtrlHost p k = 1 then
      match issueRead s p (.descriptor k)
          (fget s .jobRingBaseBase p k * 128 + r.fetched % ringSize s p k * 128) 128 with
      | some s => ringUpd s p k fun r => { r with fetching := true }
      | none => s
    else ringUpd s p k fun r => { r with fetching := true }
  else s

/-- Entries of a partition's hint ring (05 R105). -/
def hintSize (s : State) (p : Nat) : Nat := 2 ^ (fget s .tierHintCtrlSize p + 7)

/-- Hint entries fetched and not yet passed by CONSUMER. -/
def hintsOf (s : State) (p : Nat) : List HintEntry := aget s.hints p []

/-- Start the next fetch of a hint ring (05 R105): one entry of 32 bytes. -/
def pumpHint (s : State) (p : Part) : State :=
  let next := (fget s .tierHintConsConsumer p + (hintsOf s p).length) % 2 ^ 32
  if fget s .tierHintCtrlEnable p = 1 ∧ fget s .tierHintCtrlHalted p = 0 ∧ next ≠ fget s .tierHintProdProducer p ∧
      tagFor s p .hint = false then
    (issueRead s p .hint (fget s .tierHintBaseBase p * 4096 + next % hintSize s p * 32) 32).getD s
  else s

/-- The hint ring halts (05 R105): what it has fetched and not applied is never applied; the causes are those of
RING_STATUS. An entry already sent in the journal counts as applied: both packages apply it at the boundary. -/
def haltHint (s : State) (p cause status : Nat) : State :=
  let s := { s with hints := aset s.hints p ((hintsOf s p).filter fun e => decide (e.phase ≠ 0)) }
  let s := fset (fset s .tierHintCtrlHalted 1 p) .tierHintCtrlCause cause p
  raise (fset s .tierHintCtrlHaltStatus status p) .tierHintHalted p none (leBytes 1 cause ++ leBytes 2 status)

/-- A tag may be free: fetches that waited for one go on (R46). -/
def pumpRings (s : State) (p : Part) : State := pumpHint ((List.finRange 64).foldl (fun s k => pumpRing s p k) s) p

/-- A write of PRODUCER to the doorbell (R157). -/
def doDoorbell (s : State) (p : Part) (k : Ring) (producer : Nat) : State :=
  if ringOn s p k then
    if ringSize s p k < (producer + 2 ^ 32 - (ringOf s p k).consumed) % 2 ^ 32 then haltRing s p k haltOverrun 0
    else pumpRing (ringUpd s p k fun r => { r with producer := producer }) p k
  else s

/-! ### Windows (R180) -/

def windowOf (s : State) (p num : Nat) : Option Window :=
  s.windows.find? fun w => decide (w.p.val = p) && decide (w.num = num)

/-- A window is open: its zero-fill is done. DESIGN CHOICE (log 94): from its checks to the end of its job the number is taken and
host writes to the range are dropped as for an open window. -/
def windowOpen (s : State) (p num : Nat) : Bool :=
  match windowOf s p num with
  | some w => w.opening.isNone
  | none => false

def closeWindow (s : State) (p num : Nat) : State :=
  { s with windows := s.windows.filter fun w => !(decide (w.p.val = p) && decide (w.num = num)) }

/-- A window's range lies wholly in private extents that its partition holds. -/
def windowHeld (s : State) (p base n : Nat) : Bool :=
  let last := base + max 1 (32 * n) - 1
  (List.range (granOf last - granOf base + 1)).all fun i =>
    match heldExt s p ((granOf base + i) * Config.granBytes) with
    | some e => !sharedExt e
    | none => false

/-- Windows whose range stops being held are closed and discarded (R180). -/
def sweepWindows (s : State) : State :=
  { s with windows := s.windows.filter fun w => windowHeld s w.p w.base w.n }

/-- Every window of a partition is closed (R180). -/
def closeWindows (s : State) (p : Nat) : State :=
  { s with windows := s.windows.filter fun w => decide (w.p.val ≠ p) }

/-! ### A job's end (R164) -/

/-- A job leaves: its steps, its window pairs, a window it did not finish opening, and the versions it held go
(R193; 04 R93). -/
def dropJob (s : State) (j : Job) : State :=
  let s := (s.snaps.map (·.base)).foldl fixReads s
  { s with windows := s.windows.filter (fun w => decide (w.opening ≠ some j.seq)),
           jobs := s.jobs.filter (fun x => !(decide (x.p = j.p) && decide (x.ring = j.ring) && decide (x.idx = j.idx))),
           steps := s.steps.filter (fun x => !(decide (x.p = j.p) && decide (x.ring = j.ring) && decide (x.idx = j.idx))),
           applied := s.applied.filter (fun x => decide (x.1 ≠ j.seq)),
           snaps := s.snaps.map fun x => snapRetire { x with jobOpens := adel x.jobOpens j.seq } }

/-- The head that a job's writes leave through (02 R37). -/
def jobHead (s : State) (j : Job) : Nat :=
  match j.head with
  | some h => if linkUp s h then h else (masterHead s j.p).getD h
  | none => (masterHead s j.p).getD 0

/-- Relaxed Ordering is set on bulk payloads where it is enabled (02 R45). -/
def roOn (s : State) (p : Nat) : Bool := (cfgOf s p).ro

/-- The status word of a completion record (Table 7.2). -/
def statusWord (s : State) (j : Job) (status flags : Nat) : Nat :=
  status + flags % 256 * 2 ^ 16 + j.ring * 2 ^ 24 + count s % 2 ^ 31 * 2 ^ 32 + 2 ^ 63

/-- The completion record, its status word last (R164). -/
def writeRecord (s : State) (j : Job) (status flags r0 r1 : Nat) : State :=
  let s := if j.desc.completion = 0 then s
    else
      let h := jobHead s j
      let s := emit s (.busWrite j.p h j.desc.completion
        (leBytes 8 j.desc.userTag ++ leBytes 8 r0 ++ leBytes 8 r1) (roOn s j.p))
      emit s (.busWrite j.p h (j.desc.completion + 24) (leBytes 8 (statusWord s j status flags)) false)
  if j.desc.irq then signalThrough s j.p (jobHead s j) j.desc.vector else s

/-- Counters, events and the failure registers of a completed job (Table 7.15, Table 7.16). -/
def countJob (s : State) (j : Job) (status flags : Nat) : State :=
  let p := j.p.val
  let k := j.ring.val
  let s := fwrap (finc s .jobStatsCompleted p) .jobRingCountDone p k
  let s := if status = stOk then s
    else
      let s := fset (finc s .jobStatsFailed p) .jobLastFailStatus status p
      let s := fset (fset s .jobLastFailRing k p) .jobLastFailIndex j.idx p
      raise s .jobJobFailed p none (leBytes 2 status ++ leBytes 1 k ++ leBytes 4 j.idx)
  if flags.testBit flOverflow then raise s .jobOverflow p none (leBytes 1 k ++ leBytes 4 j.idx) else s

/-- A job completes: record, interrupt, counters; a window that it closes; its ring may halt (R160, R164,
R165). A job that the twin sent has its record there (12 R277). -/
def finishJob (s : State) (j : Job) : State :=
  let o := j.outcome.getD {}
  let status := if j.status ≠ 0 then j.status else o.status
  let flags := j.flags ||| o.flags
  -- a job that a step failed has written a part that the spec leaves open
  let part := decide (j.status ≠ 0) && j.outcome.isSome
  let (r0, s) := if part then draw s else (o.result0, s)
  let (r1, s) := if part then draw s else (o.result1, s)
  let close := decide (j.desc.opcode = opWinCommit) && decide (j.desc.subop = 2) && decide (status = stOk)
  let s := if close then closeWindow s j.p (bitsAt j.desc.p0 0 8) else s
  let s := if status = stOk then
      { s with windows := s.windows.map fun w => if w.opening = some j.seq then { w with opening := none } else w } else s
  if j.foreign then dropJob s j
  else
    let s := writeRecord s j status flags (r0 % 2 ^ 64) (r1 % 2 ^ 64)
    let s := dropJob (countJob s j status flags) j
    if status ≠ stOk ∧ fget s .jobRingCtrlStopOnError j.p j.ring = 1 ∧ ringOn s j.p j.ring then
      haltRing s j.p j.ring haltStop 0
    else s

/-- Host memory that a job still has to reach can be reached (R48). -/
def mayRecord (s : State) (j : Job) : Bool := j.foreign || canMaster s j.p

/-! ### A descriptor arrives (R159; 12 R276) -/

/-- The next sequence number; the lead numbers every job (12 R276). -/
def nextSeq (s : State) : Nat × State :=
  (s.belay.nextSeq, { s with belay := { s.belay with nextSeq := s.belay.nextSeq + 1 } })

/-- A fetched descriptor becomes a job, or a completion record with the status of the failed check. -/
def takeDesc (s : State) (p : Part) (k : Ring) (bs : List Byte) : State :=
  let i := (ringOf s p k).fetched
  let s := ringUpd s p k fun r =>
    { r with fetched := (i + 1) % 2 ^ 32, consumed := (i + 1) % 2 ^ 32, fetching := false }
  let st := descStatus bs
  let due := decide (bRole s = roleSecond) && twinUp s
  let (seq, s) := if due then (0, s) else nextSeq s
  let j : Job := { p := p, ring := k, idx := i, seq := seq, desc := descOf bs, status := st,
                   st := if st = stOk then .fetched else .running, seqDue := due && decide (st = stOk) }
  if st = stOk then
    let s := { s with jobs := s.jobs ++ [j] }
    if paired s && twinUp s then journalSend s (.jobDesc (decide (bRole s = roleLead)) p k i seq bs) else s
  else if canMaster s p then finishJob s j
  else { s with jobs := s.jobs ++ [j] }

/-- A descriptor fetch completes (R159): the ring halts where the completion failed. -/
def descFetched (s : State) (p : Part) (k : Ring) (cpl : Cpl) : State :=
  let host := decide (fget s .jobRingCtrlHost p k = 1)
  let r := ringOf s p k
  let stop := fun (s : State) (status : Nat) =>
    haltRing (ringUpd s p k fun r => { r with fetching := false }) p k haltFetch status
  if !host then
    pumpRing (takeDesc s p k (Memory.read s.ringMem (ringMemKey p (ringSlot k (fget s .jobRingCtrlSize p k) r.fetched))
      128)) p k
  else match cpl with
    | .ok data => pumpRing (takeDesc s p k ((data ++ List.replicate 128 0).take 128)) p k
    | .unsupportedRequest | .completerAbort => stop s stHostAbort
    | .poisoned => stop s stHostPoison

/-! ### Starting a job (R158; 12 R276, R285) -/

/-- A job's outputs lie in device memory. -/
def writesDevice (d : Desc) : Bool :=
  (rngs d).any (fun r => r.out && !isHost d r.slot) || decide (d.opcode = opAccumulate) ||
    (decide (opCompact ≤ d.opcode) && decide (d.opcode ≠ opVerify))

/-- INFLIGHT (Table 7.15). -/
def inflight (s : State) (p k : Nat) : Nat :=
  let n := fget s .jobRingCtrlInflight p k
  if n = 0 then 256 else n

/-- Jobs of the ring before this one. -/
def earlier (s : State) (j : Job) : List Job :=
  (s.jobs.takeWhile fun x => !(decide (x.p = j.p) && decide (x.ring = j.ring) && decide (x.idx = j.idx))).filter
    fun x => decide (x.p = j.p) && decide (x.ring = j.ring) && decide (x.foreign = j.foreign)

/-- A job may start now. -/
def mayStart (s : State) (j : Job) : Bool :=
  let k := j.ring.val
  let before := earlier s j
  let ringOk := j.foreign || (decide (fget s .jobRingCtrlEnable j.p k = 1) &&
    decide (fget s .jobRingStatusCause j.p k = 0 ∨ fget s .jobRingStatusCause j.p k = haltOverrun ∨
      fget s .jobRingStatusCause j.p k = haltFetch))
  decide (j.st = .fetched) && !j.seqDue && ringOk && before.all (fun x => decide (x.st = .running)) &&
    decide ((before.filter fun x => decide (x.st = .running)).length < inflight s j.p k) &&
    (!j.desc.fence || before.isEmpty) && before.all (fun x => !jobsOverlap x.desc x.extra j.desc j.extra) &&
    decide (pState s j.p = pActive) && mayRecord s j && !s.belay.deciding &&
    -- jobs of one partition whose ranges overlap start in sequence order
    (!paired s || s.jobs.all fun x => !(decide (x.p = j.p) && decide (x.st = .fetched) && decide (x.seq < j.seq) &&
      !x.seqDue && jobsOverlap x.desc x.extra j.desc j.extra))

/-- The job runs on both packages with its step digests compared (R169; 12 Table 12.1, R279). -/
def runsTwin (s : State) (d : Desc) : Bool :=
  decide (jobClass d = .twin) && twinUp s && decide (bState s = bsInSync) &&
    decide (fget s .belayStatusModeActive ≠ 2)

/-- Bytes that a job's steps share out. -/
def jobWork (j : Job) : Nat := workBytes j.desc (j.extra.getD 0)

/-- The state of its window, which a COMMIT reads whole. -/
def windowState (s : State) (j : Job) : Option Nat :=
  if j.desc.opcode = opWinCommit then (windowOf s j.p (bitsAt j.desc.p0 0 8)).map fun w => 32 * w.n else none

/-- Snapshot versions that a job holds from its start (04 R93). -/
def pinVersions (s : State) (j : Job) : State :=
  { s with snaps := s.snaps.map fun x =>
      let e := s.exts.find? fun e => decide (e.base = x.base)
      let used := match e with
        | some e => (rngs j.desc).any fun r => r.inp && !isHost j.desc r.slot &&
            decide (rngAddr j.desc r < (e.base + e.len) * Config.granBytes) &&
            decide (e.base * Config.granBytes < rngAddr j.desc r + rngSize r) && served e j.p
        | none => false
      if used then { x with jobOpens := aset x.jobOpens j.seq (versionFor x j.p) } else x }

/-- A job starts. -/
def startJob (s : State) (j : Job) : State :=
  let s := pinVersions s j
  let tw := runsTwin s j.desc
  let fenced := decide (bRole s = roleFenced) && writesDevice j.desc
  let single := pairConfig s && !tw && decide (jobClass j.desc ≠ .both)
  let empty := emptyJob j.desc
  jobMap s j.p j.ring j.idx fun j =>
    { j with st := .running, twin := tw, status := if fenced then stFenced else 0,
             failPitch := if fenced then some (count s) else none,
             flags := if single then bitOn 0 flSingle else 0, extra := windowState s j,
             outcome := if empty then some {} else none, cut := if empty then jobWork j else 0 }

/-! ### Staging reads (R163; 12 R277) -/

/-- Longest staging read. PRESUMED (log 53): the largest Max_Read_Request_Size of PCI Express, which also bounds a read. -/
def stageMax : Nat := 4096

/-- Bytes staged of an operand. -/
def stagedOf (j : Job) (slot : Nat) : List Byte := aget j.staged slot []

/-- A staging read of an operand's next bytes is issued, unless one is outstanding or the bytes come from the
twin. -/
def stageNext (s : State) (j : Job) (slot addr size : Nat) : State :=
  let have' := (stagedOf j slot).length
  if j.foreign || decide (size ≤ have') || tagFor s j.p (.staging j.ring j.idx slot) then s
  else (issueRead s j.p (.staging j.ring j.idx slot) (addr + have') (min stageMax (size - have'))).getD s

/-- Staged bytes arrive; in a twin run they also go to the twin. -/
def stageBytes (s : State) (j : Job) (slot : Nat) (data : List Byte) : State :=
  let s := jobMap s j.p j.ring j.idx fun j => { j with staged := aset j.staged slot (stagedOf j slot ++ data) }
  if j.twin && twinUp s && !j.foreign then emit s (.belay 1 (.mirror (.staging j.seq slot data))) else s

/-- The completion of a staging read (02 R47). -/
def stageDone (s : State) (p : Part) (k : Ring) (idx slot : Nat) (cpl : Cpl) : State :=
  match jobOf s p k idx with
  | none => s
  | some j =>
    match cpl with
    | .ok data => stageBytes s j slot data
    | .unsupportedRequest | .completerAbort => failJob s p k idx stHostAbort
    | .poisoned => failJob s p k idx stHostPoison

/-! ### Ends of a partition's work -/

/-- A step that runs on a core, or whose commit has begun. -/
def stepOnCore (x : Step) : Bool := decide (x.st = .running ∨ x.st = .waiting ∨ x.st = .committing)

/-- A job ends: its steps that are not on a core end before their commit, and later ones are not cut. -/
def cancelJob (s : State) (j : Job) (status : Nat) : State :=
  let s := failJob s j.p j.ring j.idx status
  { s with steps := s.steps.filter fun x =>
      !(decide (x.p = j.p) && decide (x.ring = j.ring) && decide (x.idx = j.idx)) || stepOnCore x }

/-- A job of a partition whose work ends: it is gone, or runs the steps that are on a core to their end (02 R49). -/
def endJob (s : State) (j : Job) (status : Nat) : State :=
  if s.steps.any fun x => decide (x.p = j.p) && decide (x.ring = j.ring) && decide (x.idx = j.idx) && stepOnCore x then
    cancelJob (jobMap s j.p j.ring j.idx fun j => { j with ending := true }) j status
  else dropJob s j

/-- Every job of a partition ends with a status that its rings hold, without completion records, and the
rings halt (02 R49; 03 R72); so does its hint ring, whose entries not yet applied are never applied (05 R105). -/
def endWork (s : State) (p : Part) (cause status : Nat) : State :=
  let s := (List.finRange 64).foldl (fun s (k : Ring) =>
    if fget s .jobRingCtrlEnable p k = 1 ∧ (!ringHalted s p k || !(ringJobs s p k).isEmpty) then
      haltRing (ringUpd s p k fun r => { r with fetching := false }) p k cause status
    else s) s
  let s := (s.jobs.filter fun j => decide (j.p = p) && !j.foreign).foldl (fun s j => endJob s j status) s
  let s := if fget s .tierHintCtrlEnable p = 1 ∧ fget s .tierHintCtrlHalted p = 0 then
    haltHint s p cause 0 else s
  discardTags s p fun _ => true

/-- A write of RING_CTRL.ENABLE (R160). -/
def setRingEnable (s : State) (p : Part) (k : Ring) (on : Bool) : State :=
  let was := decide (fget s .jobRingCtrlEnable p k = 1)
  if on && !was then
    -- jobs that the stop cancelled have completed
    let s := (ringJobs s p k).foldl (fun s j => if canMaster s p && !j.ending then finishJob s j else dropJob s j) s
    let s := { s with rings := aset s.rings (ringKey p k) {} }
    let s := fset (fset s .jobRingStatusHalted 0 p k) .jobRingStatusCause 0 p k
    let s := fset (fset s .jobRingStatusHaltStatus 0 p k) .jobRingStatusFirstUndone 0 p k
    fset s .jobRingCtrlEnable 1 p k
  else if !on && was then
    let s := fset s .jobRingCtrlEnable 0 p k
    let s := discardTags (ringUpd s p k fun r => { r with fetching := false }) p fun u => decide (u = .descriptor k)
    (ringJobs s p k).foldl (fun s j => if j.st = .fetched then dropJob s j else cancelJob s j stCancelled) s
  else s

/-- Rings, jobs and the JOB page of a partition return to reset (02 Table 2.8). -/
def resetJobs (s : State) (p : Part) : State :=
  let s := (s.jobs.filter fun j => decide (j.p = p) && !j.foreign).foldl dropJob s
  let s := closeWindows (discardTags s p fun _ => true) p
  let s := { s with rings := s.rings.filter fun r => decide (r.1 / 64 ≠ p.val),
                    hdr := adel s.hdr ⟨.job, p⟩ }
  fclear s fun k => decide (k.fld.desc.blk = .job) && decide (k.inst = p.val)

/-! ### Meanings -/

/-- CXL.io requests to a partition's windows are served through a head (02 R50, R42). -/
def ioOpen (s : State) (h : Head) (p : Part) : Bool :=
  linkUp s h && running s && carried s p h && (cfgOf s p).mse && (cfgOf s p).inReset.isNone && !(cfgOf s p).d3hot &&
    !(cfgOf s p).ioLost

/-- A CXL.io request for an LD-ID that the head does not carry: Unsupported Request, logged in the fabric-manager
logical device and in Cairn (03 R57; 02 Table 2.9). -/
def notCarriedIo (s : State) (h : Head) (p : Part) (posted : Bool) : State :=
  if linkUp s h && running s && !carried s p h then
    let s := aerLog (ioTouch s h) 16 h (if posted then .unsupportedRequestPosted else .unsupportedRequestAdvisory)
    let s := record s .ldNotCarried h (some p.val)
    if posted then s else emit s (.ioUnsupported p h)
  else s

/-- A memory write to a partition's windows through a head (03 R57; 02 R50). -/
def ioWrite (s : State) (h : Head) (p : Part) (f : State → State) : State :=
  if ioOpen s h p then f (ioTouch s h) else notCarriedIo s h p true

/-- DOORBELL (07 R157). -/
def execDoorbell (h : Head) (p : Part) (ring : Ring) (producer : BitVec 32) (_relaxed : Bool) (s : State) :
    Host.Outcome State Fault Refusal :=
  .next (ioWrite s h p fun s => doDoorbell s p ring producer.toNat)

/-- DESCRIPTOR_FETCH (07 R159): the fetch that the ring has outstanding completes. -/
def execDescriptorFetch (p : Part) (ring : Ring) (cpl : Cpl) (s : State) : Host.Outcome State Fault Refusal :=
  .next (if (ringOf s p ring).fetching && ringOn s p ring then
    match (cfgOf s p).tags.find? (fun t => decide (t.use = .descriptor ring) && !t.discard) with
    | some t =>
      let s := dropTag s p t.num
      let s := if cpl = .poisoned then aerLog s p ⟨t.head % 16, by omega⟩ .poisonedTlp else s
      pumpRings (descFetched s p ring cpl) p
    | none => descFetched s p ring cpl
   else s)

/-- JOB_START (07 R158). -/
def execJobStart (p : Part) (ring : Ring) (idx : Nat) (s : State) : Host.Outcome State Fault Refusal :=
  .next (match jobOf s p ring idx with
    | some j => if mayStart s j then startJob s j else s
    | none => s)

/-- Every step of a job has ended and its result is visible. -/
def jobEnds (s : State) (j : Job) : Bool :=
  decide (j.st = .running) && !s.steps.any (fun x => decide (x.p = j.p) && decide (x.ring = j.ring) && decide (x.idx = j.idx)) &&
    (decide (j.status ≠ 0) || (j.outcome.isSome && decide (jobWork j ≤ j.cut))) && decide (j.owed = 0) &&
    (mayRecord s j || j.ending)

/-- JOB_COMPLETE (07 R164): a job of a partition whose work has ended has no record (02 R49). -/
def execJobComplete (p : Part) (ring : Ring) (idx : Nat) (s : State) : Host.Outcome State Fault Refusal :=
  .next (match jobOf s p ring idx with
    | some j => if jobEnds s j then (if j.ending then dropJob s j else finishJob s j) else s
    | none => s)

end Sys2Proof.Machine
end

