-- ==== Sys2Proof/Machine/Steps.lean ====
section
/-! DEFINITION. Steps (08): cutting and placing (R191, R194), starting, parking and resuming (R196, R201), commits
and digests (R193; 12 R278), the watchdog (R195), stealing and rebalancing (R197 to R199), and the loss of a die
or a cluster (R204, R205). -/

namespace Sys2Proof.Machine

open Sys2Proof

/-! ### Cores -/

/-- Cores of a cluster are numbered cluster × 40 on; twenty make a core group (01 R9; R200). -/
def coreCluster (core : Nat) : Nat := core / 40
def coreGroup (core : Nat) : Nat := core / 20

/-- Steps of a job. -/
def isStepOf (j : Job) (x : Step) : Bool := decide (x.p = j.p) && decide (x.ring = j.ring) && decide (x.idx = j.idx)

def stepsOf (s : State) (j : Job) : List Step := s.steps.filter (isStepOf j)

/-- The steps on a core's deque, head first. -/
def deque (s : State) (core : Nat) : List Step :=
  s.steps.filter fun x => decide (x.core = core) && decide (x.st = .queued)

/-- The core runs nothing, and its cluster is not under reset (13 R301). -/
def coreIdle (s : State) (core : Nat) : Bool :=
  !s.coresOut.contains core && !ahas s.resetting (coreCluster core) && !(s.steps.any fun x => decide (x.core = core) && decide (x.st = .running ∨ x.st = .waiting))

/-- The job of a step. -/
def jobOfStep (s : State) (x : Step) : Option Job := jobOf s x.p x.ring x.idx

/-- A step by its job and number. -/
def stepAt (s : State) (p ring idx num : Nat) : Option Step :=
  s.steps.find? fun x => decide (x.p.val = p) && decide (x.ring.val = ring) && decide (x.idx = idx) && decide (x.num = num)

def sameStep (a b : Step) : Bool :=
  decide (a.p = b.p) && decide (a.ring = b.ring) && decide (a.idx = b.idx) && decide (a.num = b.num)

def stepMap (s : State) (x : Step) (f : Step → Step) : State :=
  { s with steps := s.steps.map fun y => if sameStep x y then f y else y }

def stepDrop (s : State) (x : Step) : State := { s with steps := s.steps.filter fun y => !sameStep x y }

/-- Step-buffer granules in use in a group (R200). -/
def granUsed (s : State) (group : Nat) : Nat :=
  ((s.steps.filter fun x => decide (coreGroup x.core = group)).map (·.granules)).sum

/-- Parked steps of a group. -/
def parkedIn (s : State) (group : Nat) : List Step :=
  s.steps.filter fun x => decide (coreGroup x.core = group) && decide (x.st = .parked)

/-- Queued steps of a cluster. -/
def queuedIn (s : State) (c : Nat) : Nat :=
  (s.steps.filter fun x => decide (coreCluster x.core = c) && decide (x.st = .queued)).length

/-! ### Distances (01 R13; R198) -/

/-- Hops on a 4 × 4 grid. -/
def gridHops (a b : Nat) : Nat :=
  let d := fun x y : Nat => if x < y then y - x else x - y
  d (a / 4) (b / 4) + d (a % 4) (b % 4)

/-- Numbers by increasing distance, ties to the lower. -/
def byHops (a : Nat) (l : List Nat) : List Nat :=
  sortBy (fun x y => decide (gridHops a x < gridHops a y) || (decide (gridHops a x = gridHops a y) && decide (x ≤ y))) l

/-- The cluster that stands in for a lost one: the same number on the surviving die fewest hops away
(Table 8.2). -/
def standIn (s : State) (c : Nat) : Option Nat :=
  ((byHops (c / 16) ((List.range 16).filter fun d => decide (d ≠ c / 16))).map fun d => d * 16 + c % 16).find?
    fun c => !clusterOut s c

/-! ### Cutting a job into steps (R191, R192, R194) -/

/-- STEP_MAX in bytes. -/
def stepMaxBytes (s : State) : Nat := fcur s .pitchSchedCfgStepMax * 8192

/-- Steps that a deque holds (R197). -/
def dequeMax : Nat := 64

/-- Of some cores in service the one with the fewest queued steps, the lowest number on ties, where its deque has room. -/
def placeAmong (s : State) (cores : List Nat) : Option Nat :=
  match cores.filter fun k => !s.coresOut.contains k with
  | [] => none
  | k :: r =>
    let best := r.foldl (fun b x => if (deque s x).length < (deque s b).length then x else b) k
    if (deque s best).length < dequeMax then some best else none

def clusterCores (c : Nat) : List Nat := (List.range 40).map (c * 40 + ·)

/-- The core of a cluster that takes the next step (R191). -/
def placeCore (s : State) (c : Nat) : Option Nat := placeAmong s (clusterCores c)

/-- The ranges whose bytes a job's steps share out, in order: its inputs and what the descriptor does not size, else its
outputs. -/
structure WorkRange where
  host : Bool
  addr : Nat
  size : Nat
  deriving DecidableEq, Repr

def workRanges (s : State) (j : Job) : List WorkRange :=
  let d := j.desc
  let of := fun (r : Rng) => WorkRange.mk (isHost d r.slot) (rngAddr d r)
    (if d.opcode = opNeighbor ∧ r.slot = 1 then j.extra.getD 0 else rngSize r)
  let ins := ((rngs d).filter fun r => r.inp && decide (r.slot ≠ 6)).map of
  let win := match windowState s j, windowOf s j.p (bitsAt d.p0 0 8) with
    | some n, some w => [WorkRange.mk false w.base n]
    | _, _ => []
  if ins.isEmpty && win.isEmpty then (rngs d).map of else ins ++ win

/-- The range that holds a byte of a job's work, and the byte's place in it. -/
def workAt : List WorkRange → Nat → Option (WorkRange × Nat)
  | [], _ => none
  | r :: rest, lo => if lo < r.size then some (r, lo) else workAt rest (lo - r.size)

/-- Home cluster of the step that begins at a byte of the job's work: that of its first input element. A step
whose first element lies in host memory has none; the front end's choice is taken. -/
def stepHome (s : State) (j : Job) (lo other : Nat) : Nat :=
  match workAt (workRanges s j) lo with
  | some (r, o) => if r.host then other else clusterOf (r.addr + o)
  | none => other

/-- Bytes of address space that lie in one cluster in a row (10 Table 10.2). -/
def clusterRun : Nat := 32768

/-- Bytes from a byte of the job's work on that a step may take: a step not marked REMOTE_OK ends where its input leaves
its home cluster (01 R16). DESIGN CHOICE (log 52): the spec leaves the split rule to the kernel. -/
def stepReach (s : State) (j : Job) (lo : Nat) (remoteOk : Bool) : Nat :=
  match workAt (workRanges s j) lo with
  | some (r, o) =>
    if remoteOk || r.host then workBytes j.desc (j.extra.getD 0)
    else min (r.size - o) (clusterRun - (r.addr + o) % clusterRun)
  | none => workBytes j.desc (j.extra.getD 0)

/-- Cut the next step of a job and place it. -/
def cutStep (s : State) (j : Job) (other : Nat) (remoteOk : Bool) : State :=
  let work := jobWork j
  let size := max 1 (min (min j.stepSize (stepMaxBytes s)) (stepReach s j j.cut remoteOk))
  if work ≤ j.cut ∨ j.status ≠ 0 then s
  else
    let home := stepHome s j j.cut other
    let target := if clusterOut s home then (if twinUp s then standIn s home else none) else some home
    let hi := min work (j.cut + size)
    match target with
    | none =>
      -- its home is lost and nothing stands in (R205)
      failJob s j.p j.ring j.idx stMediaError
    | some c =>
      match placeCore s c with
      | none => s
      | some core =>
        let x : Step := { p := j.p, ring := j.ring, idx := j.idx, num := j.nextStep, lo := j.cut, hi := hi,
                          home := home, core := core, remoteOk := remoteOk && decide (c = home) }
        jobMap { s with steps := s.steps ++ [x] } j.p j.ring j.idx fun j =>
          { j with cut := hi, nextStep := j.nextStep + 1 }

/-! ### Starting, parking, resuming (R196, R201) -/

/-- A step parks on its core's group, or waits on its core where the limits forbid it (R196). -/
def parkStep (s : State) (x : Step) (cause : ParkCause) : State :=
  let parked := parkedIn s (coreGroup x.core)
  let fits := decide (parked.length + 1 ≤ fcur s .pitchSchedCfgParkMax) &&
    decide ((parked.map (·.granules)).sum + x.granules ≤ 88)
  let s := stepMap s x fun y => { y with st := if fits then .parked else .waiting, cause := some cause }
  let s := if cause = .frame then finc s .pitchParkStatsFloorWaits else s
  if fits then finc s .pitchParkStatsParks else s

/-- Most granules that one step needs (R192), and those of a group (R200). -/
def stepGranules : Nat := 40
def groupGranules : Nat := 128

/-- What a job waits for: a line whose block has no frame yet, a fill, or a staging read. -/
def jobWait (s : State) (j : Job) : Option ParkCause :=
  let filling := fun (placed : Bool) => s.frames.any fun f => decide (f.st = .filling) && decide (f.placed = placed) &&
    f.waiters.any fun r => decide (r.p = j.p) && decide (r.src = .job j.ring j.idx)
  if filling false then some .frame
  else if filling true then some .fill
  else if (List.range 7).any fun k => tagFor s j.p (.staging j.ring j.idx k) then some .staging
  else none

/-- A core takes the step at the head of its deque with all its step buffers, or leaves it there (R201). It parks where its
job waits, or at a wait that its own reads meet. -/
def doStepStart (s : State) (core granules : Nat) (wait : Option ParkCause) : State :=
  match deque s core with
  | [] => s
  | x :: _ =>
    match jobOfStep s x with
    | none => stepDrop s x
    | some j =>
      if j.status ≠ 0 then stepDrop s x
      else
        let need := if x.resumable then 0 else min (max 1 granules) stepGranules
        if granUsed s (coreGroup core) + need ≤ groupGranules then
          let x' := { x with st := .running, granules := if x.resumable then x.granules else need,
                             resumable := false, cause := none }
          let s := stepMap s x fun _ => x'
          match jobWait s j <|> wait with
          | some c => parkStep s x' c
          | none => s
        else s

/-- A parked step's wait ends: it goes to the head of the deque of an idle core of its group and cluster, else
of the core that parked it, once that has room; a step that waits on its core goes on (R196). -/
def doStepResume (s : State) (x : Step) : State :=
  if ((jobOfStep s x).bind (jobWait s)).isSome then s
  else if x.st = .waiting then stepMap s x fun y => { y with st := .running, cause := none }
  else if x.st = .parked then
    let group := coreGroup x.core
    let cores := ((List.range 20).map (group * 20 + ·)).filter fun k => coreIdle s k && (deque s k).isEmpty
    let core := cores.headD x.core
    if (deque s core).length < dequeMax then
      let x' := { x with st := .queued, resumable := true, cause := none, core := core }
      { stepDrop s x with steps := x' :: (stepDrop s x).steps }
    else s
  else s

/-! ### Running again -/

/-- A step is to run again, on a core of the choice if there is one with room; else it waits in the ledger. -/
def rerunOn (s : State) (x : Step) (core : Option Nat) (f : Step → Step) : State :=
  stepMap s x fun y =>
    let y := { f y with st := .queued, granules := 0, resumable := false, cause := none, digest := none,
                        attempt := y.attempt + 1, owed := 0 }
    match core with
    | some k => { y with core := k }
    | none => { y with st := .unplaced }

/-- The cluster that runs a step: its home, or the stand-in for a lost one (R205). -/
def runCluster (s : State) (x : Step) : Option Nat :=
  if clusterOut s x.home then (if twinUp s then standIn s x.home else none) else some x.home

/-- Steps that wait for room in a deque take it. -/
def placeSteps (s : State) : State :=
  (s.steps.filter fun x => decide (x.st = .unplaced)).foldl (fun s x =>
    match (runCluster s x).bind (placeCore s) with
    | some k => stepMap s x fun y => { y with st := .queued, core := k }
    | none => s) s

/-! ### Running time (R194, R195) -/

/-- The floor of the step size (R194). -/
def stepFloor : Nat := 8192
/-- The kernels' default step size: 256 KiB, the most that R192 allows. DESIGN CHOICE (log 52): the spec gives the time it
aims at only. -/
def stepDefault : Nat := 262144

/-- A step overruns half the pitch (R194). -/
def doOverrun (s : State) (x : Step) : State :=
  let s := stepMap s x fun y => { y with overrun := true }
  let s := finc (finc s .jobStepStatsOverruns x.p) .pitchOverrunStatsOverruns
  let s := raise s .jobOverrun x.p
  match jobOfStep s x with
  | some j =>
    let size := min j.stepSize (stepMaxBytes s)
    let small := max stepFloor (size / 2)
    let s := if small < size then finc s .pitchOverrunStatsShrinks else s
    jobMap s x.p x.ring x.idx fun j =>
      { j with flags := bitOn j.flags flOverrun, stepSize := if small < size then small else j.stepSize, quickRun := 0 }
  | none => s

/-- A step that finishes within a quarter of the pitch, and the doubling after 32 in a row (R194). -/
def countQuick (s : State) (x : Step) (quick : Bool) : State :=
  jobMap s x.p x.ring x.idx fun j =>
    if quick && !x.overrun then
      (if 31 ≤ j.quickRun then { j with quickRun := 0, stepSize := min stepDefault (2 * j.stepSize) }
       else { j with quickRun := j.quickRun + 1 })
    else { j with quickRun := 0 }

/-- The watchdog trips (R195): the core resets, the step reruns once on another core of the home cluster; its
second trip ends the job; a core with two trips leaves service. -/
def doWatchdog (s : State) (x : Step) : State :=
  let s := record (finc s .pitchWatchdogStatsTrips) .stepHung (coreCluster x.core) (some x.p.val)
    (leBytes 1 x.ring ++ leBytes 4 x.idx ++ leBytes 4 x.num)
  let n := aget s.coreTrips x.core 0 + 1
  let s := { s with coreTrips := aset s.coreTrips x.core n }
  let s := if n = 2 then finc { s with coresOut := ins s.coresOut x.core } .pitchWatchdogStatsCoresOut else s
  if 1 ≤ x.trips then
    let s := stepDrop s x
    match jobOfStep s x with
    | some j => cancelJob s j stCancelled
    | none => s
  else
    let core := (runCluster s x).bind fun c => placeAmong s ((clusterCores c).filter fun k => decide (k ≠ x.core))
    rerunOn s x core fun y => { y with trips := 1, overrun := false }

/-! ### Commits (R193; 12 R278) -/

/-- Writes grouped with those tied to them. -/
def tiedGroups (l : List OutWrite) : List (List OutWrite) :=
  l.foldr (fun w acc =>
    match acc with
    | (v :: g) :: rest => if v.tied then (w :: v :: g) :: rest else [w] :: acc
    | _ => [w] :: acc) []

/-- A step's share of a list: the items whose position, scaled to the job's work, lies in its range. -/
def share {α : Type} (l : List α) (work lo hi : Nat) : List α :=
  (l.zipIdx.filter fun e => decide (lo ≤ e.2 * work / l.length) && decide (e.2 * work / l.length < hi)).map (·.1)

/-- What a step commits. -/
def stepWrites (j : Job) (x : Step) : List OutWrite :=
  (share (tiedGroups (j.outcome.getD {}).writes) (jobWork j) x.lo x.hi).flatten
def stepAdds (j : Job) (x : Step) : List (Nat × Int × Nat) :=
  share (j.outcome.getD {}).adds (jobWork j) x.lo x.hi

/-- A request held back under FEEDBACK: the job's class is over budget and the queue holds 32 entries
(09 R213). -/
def feedbackHolds (s : State) (r : Req) : Bool :=
  match reqClass s r with
  | some k => decide (s.qos.mode = 0) && classOver s (clusterOf r.dpa) k &&
      decide (32 ≤ (pcOf s (pcOfAddr r.dpa)).entries.length)
  | none => false

/-- An operator's request to a line that its partition holds. -/
def jobReq (s : State) (r : Req) : State :=
  match heldExt s r.p r.dpa with
  | none => s
  | some e =>
    if feedbackHolds s r then
      pcUpd s (pcOfAddr r.dpa) fun st => { st with heldBack := st.heldBack ++ [r] }
    else routeReq s e r []

/-- A step's access to memory fails its job: unheld (03 R64), or a write where the partition may only read
(04 R81; R163). -/
def accessFails (s : State) (j : Job) (dpa : Nat) (write : Bool) : Option State :=
  match heldExt s j.p dpa with
  | none => some (failJob (unheld s j.p dpa) j.p j.ring j.idx stExtentGone)
  | some e =>
    let draft := decide (e.attr.sharing ≠ 2) || (match snapOf s e.base with
      | some x => x.draft.isSome
      | none => false)
    if write && !(mayWrite e j.p && draft) then
      some (failJob (readerWrite s j.p) j.p j.ring j.idx stReadOnly)
    else none

/-- One piece of a result within a line leaves: to host memory (02 R45), or to its line's home. -/
def sendPiece (s : State) (j : Job) (x : Step) (w : OutWrite) : State :=
  if w.host then
    let h := jobHead s j
    emit (jobMap s j.p j.ring j.idx fun j => { j with head := some h }) (.busWrite j.p h w.addr w.bytes (roOn s j.p))
  else
    let o := w.addr % 64
    let n := w.bytes.length
    let d := lineOfBytes (List.replicate o 0 ++ w.bytes)
    let mask := (List.range n).foldl (fun m i => m ||| (1#64 <<< (o + i))) 0#64
    let s := jobMap s j.p j.ring j.idx fun j => { j with owed := j.owed + 1 }
    jobReq (stepMap s x fun y => { y with owed := y.owed + 1 })
      { kind := .operatorWrite, p := j.p, src := .job j.ring j.idx, dpa := w.addr / 64 * 64, data := d, mask := mask,
        step := some (x.num, x.attempt) }

/-- This package sends a write of the job: host memory is reached from the ring's package, device memory from the lead
where the job does not run on both (12 R277, R279). -/
def sendsHere (s : State) (j : Job) (w : OutWrite) : Bool :=
  if w.host then !j.foreign else !(decide (bRole s = roleSecond) && twinUp s && !j.twin)

/-- Pieces leave in order up to the first one that may not be written. -/
def sendPieces (s : State) (j : Job) (x : Step) : List OutWrite → State
  | [] => s
  | w :: rest =>
    if sendsHere s j w then
      match if w.host then none else accessFails s j w.addr true with
      | some s => s
      | none => sendPieces (sendPiece s j x w) j x rest
    else sendPieces s j x rest

/-- Writes of a line accepted or on their way that its cells do not hold yet, oldest first. -/
def pendingWrites (s : State) (line : Nat) : List Req :=
  let st := pcOf s (pcOfAddr (line * 64))
  let waits := match frameOf s (blockOf (line * 64)) with
    | some f => f.waiters
    | none => []
  (st.partials ++ waits ++ st.held ++ aget s.resetting (clusterOf (line * 64)) [] ++ st.heldBack).filter fun r =>
    decide (lineOf r.dpa = line) && decide (noService r = .cmp)

/-- The contents of a line once those writes have landed. -/
def lineNow (s : State) (line : Nat) : Line :=
  let b := line / 128
  let base := if isCoded s b then
      (match (codedBytes s b 0 1).2 with
        | .ok bs _ _ => lineOfBytes ((bs.drop (64 * (line % 128))).take 64)
        | .damaged _ => 0)
    else lineData s line
  (pendingWrites s line).foldl (fun d r => mergeLine d r.data r.mask) base

/-- `n` bytes of device memory as those lines give them. -/
def bytesNow (s : State) (a n : Nat) : List Byte :=
  (List.range n).map fun i => (lineNow s ((a + i) / 64)).extractLsb' (8 * ((a + i) % 64)) 8

/-- The window that a job adds to. -/
def addWindow (s : State) (j : Job) : Option Window :=
  let n := bitsAt j.desc.p0 0 8
  if j.desc.opcode = opAccumulate ∧ windowOpen s j.p n = true then windowOf s j.p n else none

/-- The lines of window state that a step's contributions change, and those of its writes that it does not write whole. -/
def addLines (s : State) (j : Job) (x : Step) : List Nat :=
  match addWindow s j with
  | some w => ((stepAdds j x).flatMap fun a =>
      [(w.base + 32 * a.1) / 64, (w.base + 32 * a.1 + 31) / 64]).eraseDups
  | none => []

def partLines (j : Job) (x : Step) : List Nat :=
  let ws := (stepWrites j x).filter fun w => !w.host
  ((ws.map fun w => w.addr / 64).eraseDups).filter fun l =>
    decide (((ws.filter fun w => decide (w.addr / 64 = l)).map fun w => w.bytes.length).sum < 64)

/-- The block of a line is in Basecamp. -/
def lineHere (s : State) (line : Nat) : Bool :=
  !s.boot.tiered || (match frameOf s (line / 128) with
    | some f => decide (f.st ≠ .filling)
    | none => false)

/-- Ask for a line of an operand, once. -/
def askLine (s : State) (p : Part) (k : Ring) (idx line : Nat) : State :=
  match jobOf s p k idx with
  | none => s
  | some j =>
    if j.asked.contains line || decide (j.status ≠ 0) then s
    else match accessFails s j (line * 64) false with
      | some s => s
      | none =>
        let s := jobMap s p k idx fun j => { j with asked := line :: j.asked }
        jobReq s { kind := .operatorRead, p := p, src := .job k idx, dpa := line * 64 }

/-- Before a step adds to window state, or digests a line that it writes in part, the line is read (07 R163; 08 R196): the
step goes on once its contents are here, and fails where they hold the poison word. -/
def commitWaits (s : State) (j : Job) (x : Step) : Option State :=
  let lines := addLines s j x ++ (if j.twin && twinUp s then partLines j x else [])
  let bad := fun l => s.poison.contains l || ahas s.damaged (l / 128)
  if lines.any fun l => lineHere s l && bad l then
    let st := if lines.any fun l => ahas s.damaged (l / 128) then stBlockDamaged else stMediaError
    some (stepDrop (failJob s j.p j.ring j.idx st) x)
  else
    let away := lines.filter fun l => !(lineHere s l && ahas j.got l)
    if away.isEmpty then none
    else
      let again := away.filter fun l => ahas j.got l
      let s := jobMap s j.p j.ring j.idx fun j =>
        { j with asked := j.asked.filter (fun l => !again.contains l), got := again.foldl adel j.got }
      some (away.foldl (fun s l => askLine s j.p j.ring j.idx l) s)

/-- The lines that a step's commit reads are here and sound. -/
def linesSound (s : State) (j : Job) (x : Step) : Bool :=
  (addLines s j x).all fun l => lineHere s l && !s.poison.contains l && !ahas s.damaged (l / 128)

/-- A contribution is applied to the state of a window element (R181). -/
def applyAdd (s : State) (j : Job) (x : Step) (w : Window) (a : Nat × Int × Nat) : State :=
  let at' := w.base + 32 * a.1
  let st := winAdd (bytesNow s at' 32) a.2.1 a.2.2
  let k := 64 - at' % 64
  sendPieces s j x (⟨false, at', st.take k, false⟩ ::
    (if k < 32 then [⟨false, at' + k, st.drop k, false⟩] else []))

/-- Each (job, step) pair is applied to a window at most once (R193). -/
def applyAdds (s : State) (j : Job) (x : Step) : State :=
  match addWindow s j with
  | some w =>
    if s.applied.contains (j.seq, x.num) then s
    else (stepAdds j x).foldl (fun s a => applyAdd s j x w a) { s with applied := (j.seq, x.num) :: s.applied }
  | none => s

/-- A step's writes have left: it has released its buffers, and leaves the ledger once they are accepted. -/
def writesLeft (s : State) (x : Step) : State :=
  match stepAt s x.p x.ring x.idx x.num with
  | some y => if y.owed = 0 then stepDrop s x else stepMap s x fun y => { y with st := .committing, granules := 0 }
  | none => s

/-- The commit: the step writes its results and releases its buffers. -/
def commitStep (s : State) (x : Step) : State :=
  match jobOfStep s x with
  | none => stepDrop s x
  | some j => writesLeft (applyAdds (sendPieces s j x (stepWrites j x)) j x) x

/-- Some of a list, as a draw has it for each. -/
def drawSome {α : Type} (s : State) (l : List α) : List α × State :=
  ((l.zipIdx.filter fun e => decide (Config.freeValue (s.free + e.2) % 2 = 1)).map (·.1), { s with free := s.free + l.length })

/-- A step of a job that has failed or was cancelled reaches its end (07 R160): it commits all of its results or ends before
its commit; one whose partition's work has ended stops at its first host request, with a part of its results in device
memory (02 R49). The spec fixes neither: free values (log 95). -/
def lateCommit (s : State) (j : Job) (x : Step) : State :=
  let (k, s) := draw s
  if j.ending then
    let (gs, s) := drawSome s (tiedGroups ((stepWrites j x).takeWhile fun w => !w.host))
    let s := sendPieces s j x gs.flatten
    writesLeft (if k % 2 = 1 ∧ linesSound s j x = true then applyAdds s j x else s) x
  else if k % 2 = 1 ∧ j.outcome.isSome = true ∧ linesSound s j x = true then commitStep s x
  else stepDrop s x

/-- At a boundary the steps of jobs that were cancelled, or whose partition's work ended, have ended (02 Table 2.6;
07 R160). -/
def endSteps (s : State) : State :=
  let s := (s.steps.filter fun x => decide (x.st = .running ∨ x.st = .waiting)).foldl (fun s x =>
    match jobOfStep s x with
    | some j => if j.ending || decide (j.status = stCancelled) then lateCommit s j x else s
    | none => stepDrop s x) s
  (s.jobs.filter fun j => j.ending && (stepsOf s j).isEmpty).foldl dropJob s

/-! ### Digests (12 R278) -/

/-- One bit of CRC-64, ECMA-182 polynomial, most significant bit first. PRESUMED (log 13): the bit order of the polynomial
as ECMA-182 prints it; the spec names no reflection. -/
def crc64Bits : Nat → Nat → Nat
  | 0, c => c
  | n + 1, c => crc64Bits n (if 2 ^ 63 ≤ c then (2 * c % 2 ^ 64) ^^^ 0x42F0E1EBA9EA3693 else 2 * c)

def crc64 (bs : List Byte) : Nat :=
  (bs.foldl (fun c b => crc64Bits 8 (c ^^^ (b.toNat * 2 ^ 56))) (2 ^ 64 - 1)) ^^^ (2 ^ 64 - 1)

/-- Digest of one line. -/
def lineDigest (dpa : Nat) (bs : List Byte) : Nat := crc64 (leBytes 8 dpa ++ bs)

/-- The 64 bytes of a line once a step's pieces are laid over it. -/
def overlay (base : List Byte) (dpa : Nat) (ws : List OutWrite) : List Byte :=
  ws.foldl (fun b w => if w.addr / 64 * 64 = dpa then
    b.take (w.addr % 64) ++ w.bytes ++ b.drop (w.addr % 64 + w.bytes.length) else b) base

/-- The digest of a step: its lines, and its result words as a line at DPA 0. -/
def stepDigest (s : State) (j : Job) (x : Step) : W64 :=
  let ws := (stepWrites j x).filter fun w => !w.host
  let lines := (ws.map fun w => w.addr / 64 * 64).eraseDups
  let o := j.outcome.getD {}
  let res := leBytes 8 o.result0 ++ leBytes 8 o.result1 ++ leBytes 8 o.status ++ leBytes 8 o.flags ++
    List.replicate 32 0
  BitVec.ofNat 64 (lines.foldl (fun d l => d ^^^ lineDigest l (overlay (bytesNow s l 64) l ws)) (lineDigest 0 res))

/-- Mismatches of one step: the third ends the job (R278). -/
def digestDiffers (s : State) (x : Step) : State :=
  let s := finc (finc s .belayDigestStatsMismatches) .jobStepStatsReruns x.p
  let third := decide (2 ≤ x.mismatches)
  let s := raise s .belayDigestMismatch 0 (some x.p.val) (leBytes 1 x.ring ++ leBytes 4 x.idx ++ leBytes 4 x.num) none
    (if third then some .uncorrected else none)
  if third then
    let s := finc s .belayTwinStatsGivenUp
    match jobOfStep s x with
    | some j => cancelJob (stepDrop s x) j stTwinMismatch
    | none => stepDrop s x
  else
    let s := raise s .jobRerun x.p
    let s := jobMap s x.p x.ring x.idx fun j => { j with flags := bitOn j.flags flRerun }
    let core := if (deque s x.core).length < dequeMax then some x.core else none
    rerunOn s x core fun y => { y with twinDigest := none, mismatches := x.mismatches + 1 }

/-- Both digests of a step are here. -/
def compareDigests (s : State) (x : Step) (own twin : W64) : State :=
  let s := finc s .belayDigestStatsCompared
  if own = twin then commitStep s x else digestDiffers s x

/-- A step's own digest is ready: it goes out at the next boundary, and the step waits for the twin's. -/
def finishTwinStep (s : State) (j : Job) (x : Step) : State :=
  let d := stepDigest s j x
  let s := { s with belay := { s.belay with digests := s.belay.digests ++ [(j.seq, x.num, d)] } }
  let x' := { x with st := .finished, digest := some d, waitPitch := count s }
  let s := stepMap s x fun _ => x'
  match x.twinDigest with
  | some t => compareDigests s x' d t
  | none => s

/-- The step of a sequence number. -/
def stepOfSeq (s : State) (seq num : Nat) : Option Step :=
  s.steps.find? fun x => decide (x.num = num) && (match jobOfStep s x with
    | some j => decide (j.seq = seq) && !j.seqDue
    | none => false)

/-- Steps that wait for the twin's digest commit without comparison (R278, R283). -/
def commitWaiting (s : State) : State :=
  (s.steps.filter fun x => decide (x.st = .finished)).foldl commitStep s

/-! ### Stealing (R198) -/

/-- Queued steps that may be stolen by a core of another cluster, or another die. -/
def stealable (s : State) (victim thief : Nat) : List Step :=
  let dv := victim / 640
  let dt := thief / 640
  (deque s victim).filter fun x => !x.resumable && (decide (dv = dt) || x.remoteOk)

/-- Move the last half, rounded up, of a victim's stealable steps to the thief. -/
def takeSteps (s : State) (victim thief : Nat) : State :=
  let l := stealable s victim thief
  let mine := l.drop (l.length / 2)
  let s1 := mine.foldl stepDrop s
  { s1 with steps := s1.steps ++ mine.map fun x => { x with core := thief } }

/-- The most queued of some cores, the lowest number on ties. -/
def mostQueued (s : State) : List Nat → Option Nat
  | [] => none
  | k :: r => some (r.foldl (fun b x => if (deque s b).length < (deque s x).length then x else b) k)

/-- The core of a cluster with the most queued steps, passed over if none of them may be stolen. -/
def fullest (s : State) (c thief : Nat) : Option Nat :=
  match mostQueued s (clusterCores c) with
  | some k => if (stealable s k thief).isEmpty then none else some k
  | none => none

/-- Up to four victims drawn at random among the other cores of the cluster. -/
def ownVictim : Nat → State → Nat → State × Option Nat
  | 0, s, _ => (s, none)
  | n + 1, s, thief =>
    let (v, s) := draw s
    let others := (clusterCores (coreCluster thief)).filter fun k => decide (k ≠ thief)
    let k := others.getD (v % 39) thief
    if (stealable s k thief).isEmpty then ownVictim n s thief else (s, some k)

/-- Other clusters of the die by grid distance. -/
def neighbourVictim (s : State) (thief : Nat) : Option Nat :=
  let c := coreCluster thief
  ((byHops (c % 16) ((List.range 16).filter fun x => decide (x ≠ c % 16))).map (c / 16 * 16 + ·)).findSome?
    fun x => fullest s x thief

/-- Other dies by mesh hops. -/
def traverseVictim (s : State) (thief : Nat) : Option Nat :=
  let d := thief / 640
  ((byHops d ((List.range 16).filter fun x => decide (x ≠ d))).flatMap fun x =>
    (List.range 16).map (x * 16 + ·)).findSome? fun c => fullest s c thief

/-- An idle core steals in the order of R198. -/
def doSteal (s : State) (thief : Nat) : State :=
  let (s, own) := if fcur s .pitchSchedCfgStealEn = 1 then ownVictim 4 s thief else (s, none)
  match own with
  | some k => finc (takeSteps s k thief) .pitchStealCountLocal
  | none =>
    match (if fcur s .pitchSchedCfgNeighEn = 1 then neighbourVictim s thief else none) with
    | some k => finc (takeSteps s k thief) .pitchStealCountNeighbour
    | none =>
      match (if fcur s .pitchSchedCfgTraverseEn = 1 then traverseVictim s thief else none) with
      | some k => finc (takeSteps s k thief) .pitchTraverseCountTraverses
      | none => s

/-! ### Rebalancing (R199) -/

/-- The steps of a deque that have not started. -/
def unstarted (s : State) (core : Nat) : List Step := (deque s core).filter fun x => !x.resumable

/-- The emptiest cluster of a die that stays at or below the mean with one step more. -/
def receiver (s : State) (die mean : Nat) : Option Nat :=
  let cs := ((List.range 16).map (die * 16 + ·)).filter fun c =>
    decide (queuedIn s c + 1 ≤ mean) && !clusterOut s c && (placeCore s c).isSome
  match cs with
  | [] => none
  | c :: r => some (r.foldl (fun b x => if queuedIn s x < queuedIn s b then x else b) c)

/-- Move one step that has not started from the tail of the fullest deque of a cluster that has one. -/
def moveOne (s : State) (c mean : Nat) : State :=
  let from' := mostQueued s ((clusterCores c).filter fun k => !(unstarted s k).isEmpty)
  match from'.bind fun k => (unstarted s k).getLast?, receiver s (c / 16) mean with
  | some x, some t =>
    match placeCore s t with
    | some k =>
      let s := stepDrop s x
      finc { s with steps := s.steps ++ [{ x with core := k }] } .pitchTraverseCountRebalanced
    | none => s
  | _, _ => s

def moveMany : Nat → State → Nat → Nat → State
  | 0, s, _, _ => s
  | n + 1, s, c, mean => moveMany n (moveOne s c mean) c mean

/-- Boundary action 5. The mean is exact in the spec's test; a receiver holds whole steps. -/
def rebalanceDie (s : State) (die : Nat) : State :=
  let cs := (List.range 16).map (die * 16 + ·)
  let total := (cs.map (queuedIn s)).sum
  let order := sortBy (fun a b => decide (queuedIn s b ≤ queuedIn s a)) cs
  order.foldl (fun s c =>
    let q := queuedIn s c
    -- q > 2·total/16 + 8 and ⌈(q − total/16)/2⌉, in sixteenths
    if 2 * total + 128 < 16 * q then moveMany (ceilDiv (16 * q - total) 32) s c (total / 16) else s) s

def rebalance (s : State) : State :=
  if fcur s .pitchSchedCfgRebalEn = 1 then (List.range 16).foldl rebalanceDie s else s

/-! ### Losses (R204, R205; 10 R242) -/

/-- A step whose cores or home are lost is requeued or goes to a stand-in, and counts in REMAPPED, or ends with
MEDIA_ERROR (Table 8.2). -/
def remapStep (s : State) (x : Step) : State :=
  match runCluster s x with
  | some c => rerunOn (finc s .pitchRemapRemapped) x (placeCore s c) fun y =>
      { y with remoteOk := y.remoteOk && decide (c = x.home) }
  | none => stepDrop (failJob s x.p x.ring x.idx stMediaError) x

/-- A step is on a lost core, or is homed on a lost cluster and does not run on the stand-in's die. -/
def stepLost (s : State) (x : Step) : Bool :=
  clusterOut s (coreCluster x.core) ||
    (clusterOut s x.home && decide ((runCluster s x).map (· / 16) ≠ some (coreCluster x.core / 16)))

/-- Steps that a loss hits run again, those whose commit had begun too (R193, R205). -/
def remapSteps (s : State) : State := (s.steps.filter (stepLost s)).foldl remapStep s

/-! ### Meanings -/

/-- STEP_GENERATE (08 R191): one step for each home given, once steps that wait for room have taken theirs. -/
def execStepGenerate (p : Part) (ring : Ring) (idx : Nat) (homes : List Cluster) (remoteOk : Bool) (s : State) :
    Host.Outcome State Fault Refusal :=
  .next (homes.foldl (fun s c =>
    match jobOf s p ring idx with
    | some j => if j.st = .running then cutStep s j c remoteOk else s
    | none => s) (placeSteps s))

/-- STEP_START (08 R201): an idle core of a cluster in service. -/
def execStepStart (core : Nat) (granules : Nat) (wait : Option ParkCause) (s : State) :
    Host.Outcome State Fault Refusal :=
  .next (if decide (core < 10240) && coreIdle s core && !clusterOut s (coreCluster core) &&
      decide (fget s .pwrStatusRung = 0) then doStepStart s core granules wait else s)

/-- STEP_RESUME (08 R196). -/
def execStepResume (p : Part) (ring : Ring) (idx step : Nat) (s : State) : Host.Outcome State Fault Refusal :=
  .next (match stepAt s p ring idx step with
    | some x => doStepResume s x
    | none => s)

/-- STEP_OVERRUN (08 R194). -/
def execStepOverrun (p : Part) (ring : Ring) (idx step : Nat) (s : State) : Host.Outcome State Fault Refusal :=
  .next (match stepAt s p ring idx step with
    | some x => if (x.st = .running ∨ x.st = .waiting) ∧ x.overrun = false then doOverrun s x else s
    | none => s)

/-- WATCHDOG_TRIP (08 R195). -/
def execWatchdogTrip (p : Part) (ring : Ring) (idx step : Nat) (s : State) : Host.Outcome State Fault Refusal :=
  .next (match stepAt s p ring idx step with
    | some x => if x.st = .running ∨ x.st = .waiting then doWatchdog s x else s
    | none => s)

/-- A step that has read what its commit needs: a twin step exchanges its digest first (12 R278). -/
def finishStep (s : State) (j : Job) (x : Step) (quick : Bool) : State :=
  let s := countQuick s x quick
  if j.twin && twinUp s then finishTwinStep s j x else commitStep s x

/-- STEP_COMMIT (08 R193): the step has finished. -/
def execStepCommit (p : Part) (ring : Ring) (idx step : Nat) (quick : Bool) (s : State) :
    Host.Outcome State Fault Refusal :=
  .next (match stepAt s p ring idx step, jobOf s p ring idx with
    | some x, some j =>
      if x.st = .running then
        if bRole s = roleFenced ∧ writesDevice j.desc = true then stepDrop (failJob s p ring idx stFenced) x
        else if s.belay.deciding then s
        else if j.status ≠ 0 then lateCommit s j x
        else if j.outcome.isSome then
          match commitWaits s j x with
          | some s1 =>
            -- the reads are answered at once where the lines are in Basecamp and their homes serve
            match stepAt s1 p ring idx step, jobOf s1 p ring idx with
            | some x1, some j1 => if (commitWaits s1 j1 x1).isNone then finishStep s1 j1 x1 quick else s1
            | _, _ => s1
          | none => finishStep s j x quick
        else s
      else s
    | _, _ => s)

/-- STEAL (08 R198): a core with an empty deque and no step to resume. -/
def execSteal (core : Nat) (s : State) : Host.Outcome State Fault Refusal :=
  .next (if decide (core < 10240) && coreIdle s core && (deque s core).isEmpty &&
      !clusterOut s (coreCluster core) then doSteal s core else s)

/-- DIGEST_RECEIVED (12 R278). -/
def execDigestReceived (seq step : Nat) (digest : W64) (s : State) : Host.Outcome State Fault Refusal :=
  .next (match stepOfSeq s seq step with
    | some x =>
      let s := stepMap s x fun y => { y with twinDigest := some digest }
      match x.digest with
      | some d => if x.st = .finished then compareDigests s x d digest else s
      | none => s
    | none => s)

/-- DIGEST_TIMEOUT (12 R278): WATCHDOG pitches have passed without the twin's digest. -/
def execDigestTimeout (seq step : Nat) (s : State) : Host.Outcome State Fault Refusal :=
  .next (match stepOfSeq s seq step with
    | some x =>
      if x.st = .finished ∧ fcur s .pitchSchedCfgWatchdog ≤ count s - x.waitPitch then digestDiffers s x else s
    | none => s)

/-- QUEUE_HOLD_RELEASE (09 R213): the oldest request held back at a PC goes on once its queue holds fewer than
32 entries. -/
def execQueueHoldRelease (pc : PcId) (s : State) : Host.Outcome State Fault Refusal :=
  .next (match (pcOf s pc).heldBack with
    | r :: rest =>
      if (pcOf s pc).entries.length < 32 then
        resend (pcUpd s pc fun st => { st with heldBack := rest }) r
      else s
    | [] => s)

/-- At a boundary every request held back goes on (R213). -/
def releaseHeldBack (s : State) : State :=
  let rs := s.pcs.flatMap fun x => x.2.heldBack
  let s := { s with pcs := s.pcs.map fun x => (x.1, { x.2 with heldBack := [] }) }
  rs.foldl resend s

end Sys2Proof.Machine
end

