-- ==== Sys2Proof/Machine/Operators.lean ====
section
/-! DEFINITION. The operators of the catalogue (07 Tables 7.6 to 7.9): a running job reads its operands, and its
kernel computes what its steps then commit. -/

namespace Sys2Proof.Machine

open Sys2Proof

/-! ### Operands -/

/-- A range of operand bytes that a job reads. -/
structure InRange where
  slot : Nat
  host : Bool
  addr : Nat
  size : Nat
  deriving DecidableEq, Repr

/-- The inputs of a job, the state of the window that a COMMIT reads among them (slot 7). -/
def inRanges (s : State) (j : Job) : List InRange :=
  let d := j.desc
  let l := (rngs d).filterMap fun r =>
    if r.inp && decide (r.n ≠ 0) then some (InRange.mk r.slot (isHost d r.slot) (rngAddr d r) (rngSize r)) else none
  if d.opcode = opWinCommit then
    match windowOf s j.p (bitsAt d.p0 0 8) with
    | some w => l ++ [⟨7, false, w.base, 32 * w.n⟩]
    | none => l
  else if opCompact ≤ d.opcode then []
  else l

/-- Lines of a range of device memory. -/
def rangeLines (r : InRange) : List Nat :=
  if r.size = 0 then [] else (List.range ((r.addr + r.size - 1) / 64 - r.addr / 64 + 1)).map (r.addr / 64 + ·)

/-- Ask for all of a range that is not there: device lines by operator reads, host bytes by staging. -/
def askRange (s : State) (j : Job) (r : InRange) : State :=
  if r.host then
    match jobOf s j.p j.ring j.idx with
    | some j => stageNext s j r.slot r.addr r.size
    | none => s
  else (rangeLines r).foldl (fun s l => askLine s j.p j.ring j.idx l) s

/-- A range is there whole. -/
def haveRange (j : Job) (r : InRange) : Bool :=
  if r.host then decide (r.size ≤ (stagedOf j r.slot).length)
  else (rangeLines r).all fun l => ahas j.got l

/-- The bytes of a range. -/
def rangeBytes (j : Job) (r : InRange) : List Byte :=
  if r.host then (stagedOf j r.slot).take r.size
  else (((rangeLines r).flatMap fun l => lineBytesOf (aget j.got l 0)).drop (r.addr % 64)).take r.size

/-- The neighbour ids that NEIGHBOR-GATHER reads, once its offsets and frontier are there (R175). -/
def neighborRange (j : Job) : List InRange :=
  let d := j.desc
  if d.opcode = opNeighbor then
    let sl := fun (k n : Nat) => (⟨k, isHost d k, opAddr d k, typeSize (ty d k) n⟩ : InRange)
    let offs := rawElems 64 (d.m + 1) (rangeBytes j (sl 0 (d.m + 1)))
    let front := readIds (ty d 2) d.n (rangeBytes j (sl 2 d.n))
    [sl 1 (neighborCount d (fun i => offs.getD i 0) (fun i => front.getD i d.m))]
  else []

/-! ### Checks when the job runs (R163, R180 to R182) -/

/-- A device output overlaps an open window of the partition. -/
def hitsWindow (s : State) (j : Job) : Bool :=
  let d := j.desc
  let size := sizeWith d (windowState s j)
  (rngs d).any fun r => r.out && !isHost d r.slot && s.windows.any fun w =>
    decide (w.p = j.p) && decide (rngAddr d r < w.base + 32 * w.n) && decide (w.base < rngAddr d r + size r)

/-- An output overlaps the neighbour list once its length is known (R163). -/
def hitsNeighbours (d : Desc) (size : Nat) : Bool :=
  decide (d.opcode = opNeighbor) && (rngs d).any fun r => r.out && decide (isHost d r.slot = isHost d 1) &&
    decide (rngAddr d r < opAddr d 1 + size) && decide (opAddr d 1 < rngAddr d r + rngSize r)

/-- The status of a job that may not run on the windows as they are. -/
def windowStatus (s : State) (j : Job) : Nat :=
  let d := j.desc
  let n := bitsAt d.p0 0 8
  if d.opcode = opWinOpen then
    if (windowOf s j.p n).isSome then stBadWindow
    else if !windowHeld s j.p (opAddr d 0) d.n || hitsWindow s j then stBadOperand
    else stOk
  else if (d.opcode = opAccumulate ∨ d.opcode = opWinCommit) ∧ windowOpen s j.p n = false then stBadWindow
  else if hitsWindow s j then stBadOperand
  else stOk

/-! ### Running the kernel -/

/-- Cut a write into pieces within lines. -/
def pieces (host tied : Bool) : Nat → Nat → List Byte → List OutWrite
  | 0, _, _ => []
  | n + 1, a, bs =>
    if bs.isEmpty then []
    else
      let k := 64 - a % 64
      ⟨host, a, bs.take k, tied⟩ :: pieces host tied n (a + k) (bs.drop k)

/-- The device or host writes of a kernel's result; slot 7 is the window's state, zeroed with the element before it. -/
def outWrites (d : Desc) (w : Option Window) (o : KOut) : List OutWrite :=
  o.writes.flatMap fun x =>
    let slot := x.1
    let base := if slot = 7 then (match w with
      | some w => w.base
      | none => 0) else opAddr d slot
    pieces (slot ≠ 7 && isHost d slot) (slot = 7) (x.2.2.length / 64 + 2) (base + x.2.1) x.2.2

/-- A WINDOW-OPEN that passed its checks begins to open its window. -/
def openWindow (s : State) (j : Job) : State :=
  let d := j.desc
  if d.opcode = opWinOpen then
    { s with windows := ⟨j.p, bitsAt d.p0 0 8, opAddr d 0, d.n, winE d, some j.seq⟩ :: s.windows } else s

/-- The kernel runs on the operands: its result waits for the steps to commit it. The draws are for what the
spec leaves to timing. -/
def runKernel (s : State) (j : Job) (rs : List InRange) : State :=
  let d := j.desc
  let w := windowOf s j.p (bitsAt d.p0 0 8)
  let rd := fun k => match rs.find? fun r => decide (r.slot = k) with
    | some r => rangeBytes j r
    | none => []
  let base := s.free
  let x : KIn := { rd := rd, fr := fun i => Config.freeValue (base + i),
                   win := w.map fun w => ⟨w.n, w.e, rd 7⟩ }
  let o := kernel d x
  let s := openWindow { s with free := s.free + d.n + 1 } j
  jobMap s j.p j.ring j.idx fun j =>
    { j with outcome := some { writes := outWrites d w o, result0 := o.r0, result1 := o.r1, status := o.status,
                               flags := o.flags, adds := o.adds } }

/-- A job has its result, and no step to cut for it. -/
def wholeResult (s : State) (j : Job) (o : Outcome) : State :=
  jobMap s j.p j.ring j.idx fun j => { j with outcome := some o, cut := jobWork j }

/-- A MAP reads its program once, when it starts, before its other operands: it ends there where the program is refused, or
where it has no elements (R159, R163, R184). -/
def mapStops (s : State) (j : Job) : Option State :=
  if j.desc.opcode = opMap then
    match (inRanges s j).find? fun r => decide (r.slot = 6) with
    | some r =>
      if haveRange j r then
        match mapRefused j.desc (rangeBytes j r) with
        | some o => some (wholeResult s j { status := o.status, result1 := o.r1 })
        | none => if j.desc.n = 0 then some (wholeResult s j {}) else none
      else some (askRange s j r)
    | none => none
  else none

/-- A job on operands that a kernel reads. -/
def runOperator (s : State) (j : Job) : State :=
  let st := windowStatus s j
  if st ≠ stOk then failJob s j.p j.ring j.idx st
  else match mapStops s j with
  | some s => s
  | none =>
    let rs := inRanges s j
    let s := rs.foldl (fun s r => askRange s j r) s
    match jobOf s j.p j.ring j.idx with
    | none => s
    | some j =>
      if j.status ≠ 0 || !rs.all (haveRange j) then s
      else
        let more := neighborRange j
        let s := more.foldl (fun s r => askRange s j r) s
        match jobOf s j.p j.ring j.idx with
        | none => s
        | some j =>
          let size := (more.map (·.size)).sum
          let s := if more.isEmpty then s else jobMap s j.p j.ring j.idx fun j => { j with extra := some size }
          if j.status ≠ 0 then s
          else if hitsNeighbours j.desc size then failJob s j.p j.ring j.idx stBadOperand
          else if more.all (haveRange j) then runKernel s j (more ++ rs) else s

/-! ### Compression control (R176) -/

/-- Blocks of a COMPACT, EXPAND or VERIFY job that are resident in Basecamp. -/
def jobBlocks (s : State) (j : Job) : List Nat :=
  ((List.range (j.desc.n / 8192)).map (opAddr j.desc 0 / 8192 + ·)).filter fun b =>
    !s.boot.tiered || (match frameOf s b with
      | some f => decide (f.st = .clean ∨ f.st = .dirty)
      | none => false)

/-- The first access of such a job that fails. -/
def blocksFail (s : State) (j : Job) : Option State :=
  ((List.range (j.desc.n / 8192)).map (opAddr j.desc 0 + 8192 * ·)).findSome? fun a => accessFails s j a false

/-- Every block can be served at its home. -/
def blocksServe (s : State) (bs : List Nat) : Bool := bs.all fun b => decide (homeSt s (blockDpa b) = .serve)

def setOutcome (s : State) (j : Job) (r0 r1 : Nat) : State :=
  jobMap s j.p j.ring j.idx fun j => { j with outcome := some { result0 := r0, result1 := r1 } }

/-- The results of a SINGLE job on the package that does not run it come from the lead (12 R279). -/
def leadResults (s : State) (j : Job) : State :=
  let (a, s) := draw s
  let (b, s) := draw s
  setOutcome s j (a % 2 ^ 64) (b % 2 ^ 64)

/-- The package is the second of a running pair. -/
def secondUp (s : State) : Bool := decide (bRole s = roleSecond) && twinUp s

/-- A job has taken its blocks in hand. -/
def takeBlocks (s : State) (j : Job) (bs : List Nat) : State :=
  jobMap s j.p j.ring j.idx fun j => { j with asked := bs }

/-- The blocks that a job has taken in hand, or those that it is to take. -/
def blocksOf (j : Job) (bs : List Nat) : List Nat := if j.asked.isEmpty then bs else j.asked

/-- COMPACT: the blocks are queued; when the compactor has been through them, the job has its counts. -/
def runCompact (s : State) (j : Job) : State :=
  if secondUp s then leadResults s j
  else match blocksFail s j with
    | some s => s
    | none =>
      let bs := blocksOf j ((jobBlocks s j).filter (mayCode s))
      let s := if j.asked.isEmpty then takeBlocks (bs.foldl compactBlock s) j bs else s
      if bs.any fun b => s.compactQ.contains b then s
      else setOutcome s j (bs.filter (isCoded s)).length (bs.filter fun b => !isCoded s b).length

/-- An expansion of a block waits in the journal. -/
def expandSent (s : State) (b : Nat) : Bool := s.belay.journal.any fun e =>
  match e.body with
  | .blockForm b' [] _ _ _ => decide (b' = b)
  | _ => false

/-- The expansion of a block by an EXPAND: in a pair through the journal, on both packages at one pitch count (R149). -/
def expandOne (s : State) (b : Nat) : State :=
  if !isCoded s b || ahas s.tier.twinWaits b then s
  else if twinUp s then (if expandSent s b || ahas s.damaged b then s else journalSend s (.blockForm b [] 0 [] none))
  else expandBlock s b

/-- EXPAND: steps 1 and 2 of R148 on every coded block; a damaged one fails the step (R146). -/
def runExpand (s : State) (j : Job) : State :=
  if secondUp s then leadResults s j
  else match blocksFail s j with
    | some s => s
    | none =>
      let bs := blocksOf j ((jobBlocks s j).filter fun b => mayCode s b && isCoded s b)
      if !blocksServe s bs then s
      else
        let s := bs.foldl expandOne (takeBlocks s j bs)
        let left := bs.filter (isCoded s)
        if left.any fun b => ahas s.damaged b && !ahas s.tier.twinWaits b then
          failJob s j.p j.ring j.idx stBlockDamaged
        else if left.isEmpty then setOutcome s j bs.length 0 else s

/-- A coded block is decoded without delivering data; in a pair the twin is asked for a damaged one. -/
def verifyOne (x : State × List Nat) (b : Nat) : State × List Nat :=
  match decodeBlock x.1 b 1 with
  | (s, .ok ..) => (s, x.2)
  | (s, .damaged _) => (if twinUp s then askTwin s b [] else s, x.2 ++ [b])

/-- VERIFY: every coded block is decoded; damage follows R146, and the job waits for the twin's blocks. -/
def runVerify (s : State) (j : Job) : State :=
  match blocksFail s j with
  | some s => s
  | none =>
    if j.asked.isEmpty then
      let bs := (jobBlocks s j).filter (isCoded s)
      if !blocksServe s bs then s
      else
        let (s, bad) := bs.foldl verifyOne (s, [])
        if bad.isEmpty || !twinUp s then setOutcome s j bad.length 0 else takeBlocks s j bad
    else if j.asked.any fun b => ahas s.tier.twinWaits b then s
    else setOutcome s j j.asked.length (j.asked.filter fun b => !ahas s.damaged b).length

/-! ### Meanings -/

/-- A running job of an opcode that has no result yet does its work. -/
def runJob (s : State) (p : Part) (ring : Ring) (idx op : Nat) (go : State → Job → State) : State :=
  match jobOf s p ring idx with
  | some j => if j.st = .running ∧ j.desc.opcode = op ∧ j.outcome = none ∧ j.status = 0 then go s j else s
  | none => s

/-- FILL (07 R170). -/
def execFill (p : Part) (ring : Ring) (idx : Nat) (s : State) : Host.Outcome State Fault Refusal :=
  .next (runJob s p ring idx opFill runOperator)

/-- COPY (07 R170). -/
def execCopy (p : Part) (ring : Ring) (idx : Nat) (s : State) : Host.Outcome State Fault Refusal :=
  .next (runJob s p ring idx opCopy runOperator)

/-- GATHER (07 R171). -/
def execGather (p : Part) (ring : Ring) (idx : Nat) (s : State) : Host.Outcome State Fault Refusal :=
  .next (runJob s p ring idx opGather runOperator)

/-- SCATTER (07 R171). -/
def execScatter (p : Part) (ring : Ring) (idx : Nat) (s : State) : Host.Outcome State Fault Refusal :=
  .next (runJob s p ring idx opScatter runOperator)

/-- COMPARE (07 R172). -/
def execCompare (p : Part) (ring : Ring) (idx : Nat) (s : State) : Host.Outcome State Fault Refusal :=
  .next (runJob s p ring idx opCompare runOperator)

/-- SEARCH (07 R172). -/
def execSearch (p : Part) (ring : Ring) (idx : Nat) (s : State) : Host.Outcome State Fault Refusal :=
  .next (runJob s p ring idx opSearch runOperator)

/-- HASH-BUILD (07 R173). -/
def execHashBuild (p : Part) (ring : Ring) (idx : Nat) (s : State) : Host.Outcome State Fault Refusal :=
  .next (runJob s p ring idx opHashBuild runOperator)

/-- HASH-PROBE (07 R173). -/
def execHashProbe (p : Part) (ring : Ring) (idx : Nat) (s : State) : Host.Outcome State Fault Refusal :=
  .next (runJob s p ring idx opHashProbe runOperator)

/-- INTERSECT (07 R174). -/
def execIntersect (p : Part) (ring : Ring) (idx : Nat) (s : State) : Host.Outcome State Fault Refusal :=
  .next (runJob s p ring idx opIntersect runOperator)

/-- UNION (07 R174). -/
def execUnion (p : Part) (ring : Ring) (idx : Nat) (s : State) : Host.Outcome State Fault Refusal :=
  .next (runJob s p ring idx opUnion runOperator)

/-- DIFFERENCE (07 R174). -/
def execDifference (p : Part) (ring : Ring) (idx : Nat) (s : State) : Host.Outcome State Fault Refusal :=
  .next (runJob s p ring idx opDifference runOperator)

/-- COUNT (07 R174). -/
def execCount (p : Part) (ring : Ring) (idx : Nat) (s : State) : Host.Outcome State Fault Refusal :=
  .next (runJob s p ring idx opCount runOperator)

/-- DEDUP (07 R175). -/
def execDedup (p : Part) (ring : Ring) (idx : Nat) (s : State) : Host.Outcome State Fault Refusal :=
  .next (runJob s p ring idx opDedup runOperator)

/-- SORT (07 R174). -/
def execSort (p : Part) (ring : Ring) (idx : Nat) (s : State) : Host.Outcome State Fault Refusal :=
  .next (runJob s p ring idx opSort runOperator)

/-- NEIGHBOR-GATHER (07 R175). -/
def execNeighborGather (p : Part) (ring : Ring) (idx : Nat) (s : State) : Host.Outcome State Fault Refusal :=
  .next (runJob s p ring idx opNeighbor runOperator)

/-- BITMAP (07 R174). -/
def execBitmap (p : Part) (ring : Ring) (idx : Nat) (s : State) : Host.Outcome State Fault Refusal :=
  .next (runJob s p ring idx opBitmap runOperator)

/-- REDUCE (07 R177, R179). -/
def execReduce (p : Part) (ring : Ring) (idx : Nat) (s : State) : Host.Outcome State Fault Refusal :=
  .next (runJob s p ring idx opReduce runOperator)

/-- SEGMENT-REDUCE (07 R176, R177). -/
def execSegmentReduce (p : Part) (ring : Ring) (idx : Nat) (s : State) : Host.Outcome State Fault Refusal :=
  .next (runJob s p ring idx opSegment runOperator)

/-- WINDOW-OPEN (07 R180). -/
def execWindowOpen (p : Part) (ring : Ring) (idx : Nat) (s : State) : Host.Outcome State Fault Refusal :=
  .next (runJob s p ring idx opWinOpen runOperator)

/-- ACCUMULATE (07 R181). -/
def execAccumulate (p : Part) (ring : Ring) (idx : Nat) (s : State) : Host.Outcome State Fault Refusal :=
  .next (runJob s p ring idx opAccumulate runOperator)

/-- COMMIT of a window (07 R182). -/
def execWindowCommit (p : Part) (ring : Ring) (idx : Nat) (s : State) : Host.Outcome State Fault Refusal :=
  .next (runJob s p ring idx opWinCommit runOperator)

/-- MAP (07 R184 to R189). -/
def execMap (p : Part) (ring : Ring) (idx : Nat) (s : State) : Host.Outcome State Fault Refusal :=
  .next (runJob s p ring idx opMap runOperator)

/-- COMPACT (07 R176). -/
def execCompact (p : Part) (ring : Ring) (idx : Nat) (s : State) : Host.Outcome State Fault Refusal :=
  .next (runJob s p ring idx opCompact runCompact)

/-- EXPAND (07 R176). -/
def execExpand (p : Part) (ring : Ring) (idx : Nat) (s : State) : Host.Outcome State Fault Refusal :=
  .next (runJob s p ring idx opExpand runExpand)

/-- VERIFY (07 R176). -/
def execVerify (p : Part) (ring : Ring) (idx : Nat) (s : State) : Host.Outcome State Fault Refusal :=
  .next (runJob s p ring idx opVerify runVerify)

end Sys2Proof.Machine
end

