-- ==== Sys2Proof/Machine/Snapshots.lean ====
section
/-! DEFINITION. Snapshot commands (04 R91 to R98), the version reserve (R96), and the background test of the
cluster stores (10 R241, R242). -/

namespace Sys2Proof.Machine

open Sys2Proof

/-! ### Snapshot commands -/

/-- SNAP_CMD.OP and SNAP_STATUS.RESULT codes (04 Table 4.5). -/
def snOpen : Nat := 1
def snClose : Nat := 2
def snDraft : Nat := 3
def snCommit : Nat := 4
def snAbandon : Nat := 5
def snOk : Nat := 0
def snNotSnapshot : Nat := 1
def snNotPublisher : Nat := 2
def snNoVersion : Nat := 3
def snVersionsFull : Nat := 4
def snReserveShort : Nat := 5
def snDraftState : Nat := 6
def snNotHeld : Nat := 7

/-- VERSION that names the newest. -/
def snNewest : Nat := 0xFFFFFFFF

/-- The version that OPEN names. -/
def namedVersion (x : Snap) (v : Nat) : Nat := if v = snNewest then x.newest else v

/-- A version is live. -/
def versionLive (x : Snap) (v : Nat) : Bool := decide (v = x.newest) || x.old.any fun o => decide (o.num = v)

/-- RESULT of a command (R94, R98). DESIGN CHOICE (log 79): COMMIT and ABANDON with no draft open answer DRAFT_STATE; the spec
gives them no RESULT. -/
def snapResult (s : State) (p op base ver : Nat) : Nat :=
  match s.exts.find? (fun e => decide (e.base = base) && served e p) with
  | none => snNotHeld
  | some e =>
    if e.attr.sharing ≠ 2 then snNotSnapshot
    else match snapOf s base with
      | none => snNotSnapshot
      | some x =>
        if op = snOpen then (if versionLive x (namedVersion x ver) then snOk else snNoVersion)
        else if op = snClose then snOk
        else if !isPublisher e p then snNotPublisher
        else if op = snDraft then
          if x.draft.isSome then snDraftState
          else if Config.liveVersions ≤ snapLive x then snVersionsFull
          else if unreserved s < e.len * granBlocks then snReserveShort
          else snOk
        else if x.draft.isSome then snOk else snDraftState

/-- Effect of a command that does not fail, COMMIT apart. Reads that wait for what it frees keep their lines (R93). -/
def snapEffect (s : State) (p op base ver : Nat) : State :=
  let s := fixReads s base
  if op = snOpen then snapMap s base fun x => snapRetire { x with opens := aset x.opens p (namedVersion x ver) }
  else if op = snClose then closeVersion s base p
  else if op = snDraft then reserveLow s (snapMap s base fun x => { x with draft := some [] })
  else if op = snAbandon then snapMap s base fun x => { x with draft := none }
  else s

/-- Version that a finished command reports. -/
def snapVersion (s : State) (p base : Nat) : Nat :=
  match snapOf s base with
  | some x => versionFor x p
  | none => 0

/-- The commands in progress: this package's under the partition, those that came with the twin's journal from 16 on. -/
def snapKey (own : Bool) (p : Part) : Nat := if own then p else 16 + p

/-- A command is carried out; COMMIT waits for the boundary (R95). A command of the twin has its effect here and its RESULT
there (12 R276). -/
def applySnap (s : State) (own : Bool) (p : Part) (op base ver : Nat) : State :=
  let r := snapResult s p op base ver
  let keep := fun (s : State) (c : SnapCmd) => { s with snapCmds := aset s.snapCmds (snapKey own p) c }
  if r ≠ snOk then (if own then keep s ⟨0, base, r, 0⟩ else s)
  else if op = snCommit then keep s ⟨snCommit, base, 0, 0⟩
  else
    let s := snapEffect s p op base ver
    if own then keep s ⟨0, base, 0, if op = snOpen then snapVersion s p base else 0⟩ else s

/-- A frame that must hold its block now gets a place; without a free one it lies at place 0. -/
def placeNow (s : State) (b : Nat) : State :=
  match frameOf s b with
  | some f =>
    if f.placed then s
    else
      let (s, o) := takePlace s b 0
      frameMap s b fun f => { f with placed := true, off := o.getD 0, units := 128 }
  | none => s

/-- A block whose contents are needed now is in Basecamp (05 R111). -/
def residentNow (s : State) (b : Nat) : State :=
  if !s.boot.tiered then s
  else if (frameOf s b).isNone ∧ lbaOf s b = 3 then poisonedFrame s b 16
  else
    let s := if (frameOf s b).isSome then s else startFill s b ((classOf s (blockDpa b)).getD 16) none []
    fillDone (placeNow s b) b

/-- A draft's block takes its place as the newest; what it replaces is saved, for the reads that wait for it too (R93). -/
def replaceBlock (s : State) (k : SavedBlock) : State × SavedBlock :=
  let s := residentNow s k.block
  let (s, old) := copyBlock s k.block
  let s := fixReplaced (fixReads s ((extOf s (blockDpa k.block)).elim 0 (·.base))) old
  let s := putBlock s k.block k.bytes
  let s := { s with poison := k.bad.map (k.block * 128 + ·) ++ s.poison }
  (noteWrite s k.block, old)

/-- The draft becomes the newest version (R95). -/
def commitDraft (s : State) (p : Part) (base : Nat) : State :=
  match snapOf s base with
  | some x =>
    match x.draft with
    | some d =>
      let r := d.foldl (fun (a : State × List SavedBlock) k =>
        let b := replaceBlock a.1 k
        (b.1, a.2 ++ [b.2])) (s, [])
      let s := snapMap r.1 base fun x =>
        snapRetire { x with newest := x.newest + 1, draft := none, old := x.old ++ [⟨x.newest, r.2⟩] }
      raise s .dirCommitted p
    | none => s
  | none => s

/-- A COMMIT in progress makes its version. -/
def snapCommitted (s : State) (own : Bool) (p : Part) : State :=
  match s.snapCmds.find? fun c => decide (c.1 = snapKey own p) with
  | some (_, c) =>
    if c.op = snCommit then
      let s := commitDraft s p c.base
      let v := match snapOf s c.base with
        | some x => x.newest
        | none => 0
      { s with snapCmds := if own then aset s.snapCmds (snapKey own p) ⟨0, c.base, 0, v⟩
                           else adel s.snapCmds (snapKey own p) }
    else s
  | none => s

/-- The boundary after a COMMIT, of this package or of its twin: the version is made. -/
def snapAtBoundary (s : State) (p : Part) : State := snapCommitted (snapCommitted s true p) false p

/-- A command is over: BUSY, RESULT, VERSION (R92). -/
def snapDone (s : State) (p : Part) : State :=
  match s.snapCmds.find? fun c => decide (c.1 = p.val) with
  | some (_, c) =>
    if c.op = 0 then
      let s := { s with snapCmds := adel s.snapCmds p.val }
      fset (fset (fset s .dirSnapStatusBusy 0 p) .dirSnapStatusResult c.result p) .dirSnapStatusVersion c.version p
    else s
  | none => s

/-- RESERVE.GRANULES (R96): more granules come from the free ones, highest DPA first; fewer must still hold the
charged blocks. -/
def setReserve (s : State) (n : Nat) : State :=
  let have' := s.reserve.length
  if have' ≤ n then
    if freeCount s < n - have' then s
    else
      let more := (((List.range (exportGran s)).reverse).filter (freeGran s)).take (n - have')
      fset (reserveLow s { s with reserve := s.reserve ++ more }) .dirReserveGranules n 16
  else if n * granBlocks < chargedBlk s then s
  else fset (reserveLow s { s with reserve := s.reserve.take n }) .dirReserveGranules n 16

/-! ### Cluster stores -/

/-- STORE.BGTEST.PHASE SAVE, TEST and RESTORE: the model keeps SAVE from a test's start to its end. DESIGN CHOICE (log 60). -/
def phaseSave : Nat := 1

/-- Boundary action 8: a store begins its next region, or its region runs late (R241). The test pauses in
retention (R240). -/
def startStoreTest (s : State) (c : Nat) : State :=
  if fget s .storeBgtestPhase c ≠ 0 then raise (finc s .storeBgtestLate c) .storeTestLate c
  else if fget s .storeCfgBgtestEn c = 1 then fset s .storeBgtestPhase phaseSave c
  else s

/-- Boundary action 8 on every cluster in service. -/
def storeTests (s : State) : State :=
  (List.range 256).foldl (fun s c => if clusterOut s c then s else startStoreTest s c) s

/-- Next region: the four banks in turn, then the next region number (R241). -/
def nextRegion (s : State) (c : Nat) : State :=
  let b := fget s .storeBgtestBank c
  let r := fget s .storeBgtestRegion c
  if b < 3 then fset s .storeBgtestBank (b + 1) c
  else
    let s := fset s .storeBgtestBank 0 c
    if r < 2047 then fset s .storeBgtestRegion (r + 1) c else finc (fset s .storeBgtestRegion 0 c) .storeBgtestPasses c

/-- A cluster leaves service: as an engine die is lost, limited to it (R242). -/
def takeClusterOut (s : State) (c : Nat) : State :=
  if s.clustersOut.contains c then s
  else
    let s := remapSteps (loseFrames { s with clustersOut := ins s.clustersOut c })
    let s := rerunCluster (coverEvt s (leBytes 2 c)) c
    (List.range 4).foldl (fun s i => serveHeld s (c * 4 + i)) s

/-- A region of a bank fails its test (R242). -/
def regionFails (s : State) (c bank region : Nat) : State :=
  let pl := leBytes 1 bank ++ leBytes 2 region
  let s := raise (finc s .storeRepairTestFails c) .storeTestFail c none pl
  let left := fget s .storeRepairSparesLeft c / 4 ^ bank % 4
  if left ≠ 0 then
    let s := fset s .storeRepairSparesLeft (fget s .storeRepairSparesLeft c - 4 ^ bank) c
    raise { s with repaired := (c, bank, region) :: s.repaired } .storeRepaired c none pl
  else
    let s := fset s .storeRepairBankFailed (bitOn (fget s .storeRepairBankFailed c) bank) c
    takeClusterOut (raise s .storeBankFailed c none pl) c

/-- A region test finishes. -/
def storeTestDone (s : State) (c : Nat) (pass : Bool) : State :=
  let bank := fget s .storeBgtestBank c
  let region := fget s .storeBgtestRegion c
  let s := nextRegion (fset s .storeBgtestPhase 0 c) c
  if pass then s else regionFails s c bank region

/-! ### Meanings -/

/-- SNAP_COMMIT_EFFECT (04 R95): the boundary after a COMMIT. -/
def execSnapCommitEffect (p : Part) (s : State) : Host.Outcome State Fault Refusal := .next (snapAtBoundary s p)

/-- SNAP_COMMAND_DONE (04 R92). -/
def execSnapCommandDone (p : Part) (s : State) : Host.Outcome State Fault Refusal := .next (snapDone s p)

/-- STORE_REGION_TEST_DONE (10 R242): a test runs and the store is not in retention. -/
def execStoreRegionTestDone (c : Cluster) (pass : Bool) (s : State) : Host.Outcome State Fault Refusal :=
  .next (if decide (fget s .storeBgtestPhase c ≠ 0) && decide (fget s .storeRetainInRetention c = 0) then
    storeTestDone s c pass else s)

end Sys2Proof.Machine
end

