-- ==== Sys2Proof/Machine/Power.lean ====
section
/-! DEFINITION. The power ladder (13 R291 to R298), resets (R299 to R301), start-up (R302 to R305), rails and heat
(16 R340, R341, R350 to R352), and the loss of an engine die (08 R205). -/

namespace Sys2Proof.Machine

open Sys2Proof

/-! ### Activity (R294) -/

/-- Work that keeps a pitch active by itself (R294). -/
def workGoesOn (s : State) : Bool :=
  !s.jobs.isEmpty || s.frames.any (fun f => decide (f.st = .filling ∨ f.st = .evicting)) || !s.sanReqs.isEmpty ||
    s.hints.any (fun h => !h.2.isEmpty) || decide (fget s .tierRebuildActive 0x10 = 1) ||
    decide (fget s .belayResyncInfoActive = 1) || s.ras.busy.isSome || s.pcs.any (fun x => x.2.retraining) ||
    (List.range 16).any (fun k => decide (fget s .qosReclaimRunning (16 + k) = 1)) || !s.compactQ.isEmpty ||
    s.belay.journal.any (fun e => !e.acked) ||
    (List.range 16).any fun p => decide (fget s .tierHintProdProducer p ≠ fget s .tierHintConsConsumer p)

/-! ### The ladder -/

/-- RUNG in force. -/
def rung (s : State) : Nat := fget s .pwrStatusRung

/-- A transition runs. -/
def moving (s : State) : Bool := decide (fget s .pwrStatusEntering = 1 ∨ fget s .pwrStatusExiting = 1)

/-- Idle time of a rung in TIMEBASE_IN cycles (Table 13.5). -/
def idleTime (s : State) (n : Nat) : Nat :=
  match n with
  | 1 => fcur s .pwrIdleTimersP1Us * 100
  | 2 => fcur s .pwrIdleTimersP2Ms * msCycles
  | 3 => fcur s .pwrIdleTimersP3Ms * msCycles
  | _ => fcur s .pwrIdleTimersP4S * 1000 * msCycles

/-- Descent is refused (R295). -/
def descentRefused (s : State) : Bool :=
  !s.boot.tiered || decide (fget s .belayResyncInfoActive = 1) || decide (fget s .tierRebuildActive 0x10 = 1) ||
    decide (heldFrames s ≠ 0) || (List.range 8).any fun k => decide (slotSt s k = slRemoving)

/-- Deepest rung that the timers reach (R294, R295). -/
def timerRung (s : State) : Nat :=
  let floor := fcur s .pwrCfgAutoFloor
  let floor := if descentRefused s then min floor 3 else floor
  let run := fun n => decide (n ≤ floor) && decide (idleTime s n ≤ s.power.idle * pitchCycles s)
  ((List.range 4).map (· + 1)).foldl (fun m n => if run n then n else m) 0

/-- In descent, once every directory entry is in I, each DIRTY frame is written back as soon as its write-back may be issued
(R295; 05 R113). -/
def descentWrites (s : State) : State :=
  if s.power.entering = 4 ∧ s.dir.isEmpty then
    (s.frames.filter fun f => decide (f.st = .dirty)).foldl (fun s f =>
      if mayWriteBack s f.block then startWriteBack s f.block else s) s
  else s

/-- Entry into a rung begins (R294, R295): in descent the directory recalls every copy, and then the DIRTY frames are
written back. -/
def startEntry (s : State) (n : Nat) (commanded : Bool) : State :=
  let s := { s with power := { s.power with entering := n, commanded := commanded } }
  let s := fset (fset s .pwrStatusEntering 1) .pwrStatusPending 0
  if n = 4 then
    descentWrites (s.dir.foldl (fun s d =>
      snoop s { line := d.line, owed := entrySharers s d, kind := .inv, req := none, recalled := true }) s)
  else s

/-- The rung to enter now, and whether it was commanded; 0 for none. -/
def entryRung (s : State) : Nat × Bool :=
  let t := fget s .pwrCtrlTarget
  if fget s .pwrStatusPending = 1 ∧ 1 ≤ s.power.idle ∧ rung s < t then (t, true)
  else if rung s < timerRung s then (timerRung s, false) else (0, false)

/-- RUNG_ENTRY's effect: the lead tells the second, which enters with it (R298). -/
def doRungEntry (s : State) : State :=
  match entryRung s with
  | (0, _) => s
  | (n, cmd) =>
    if n = 4 ∧ descentRefused s then
      raise (fset (fset s .pwrCtrlTarget 0) .pwrStatusPending 0) .pwrEntryRefused
    else startEntry (if twinUp s then journalSend s (.rung n) else s) n cmd

/-- Everything that an entry waits for is done. -/
def entryReady (s : State) : Bool :=
  decide (s.power.entering ≠ 4) || (s.dir.isEmpty && s.frames.all fun f => decide (f.st = .clean))

/-- Boundary of a rung's effect on PCs, stores and Basecamp (Table 13.1, R295; 11 R262). -/
def enterRung (s : State) (n : Nat) : State :=
  let s := fset (fset (fset s .pwrStatusRung n) .pwrStatusEntering 0) .pwrTransitionsEntries
    (fget s .pwrTransitionsEntries + 1)
  let s := { s with power := { s.power with entering := 0 } }
  let s := if n = 1 then (List.range 1024).foldl (fun s pc => fset s .pcStateRanksPd 3 pc) s else s
  let s := if 2 ≤ n then (List.range 256).foldl (fun s c => fset s .storeRetainInRetention 1 c) s else s
  let s := if n = 4 then
      -- Basecamp is off: frames, index and the spill ring are lost
      let marks := (s.frames.filter fun f => !f.pins.isEmpty).map fun f => (f.block, f.pins)
      let s := { s.frames.foldl (fun s f => freeFrame s f.block) s with pinMarks := marks ++ s.pinMarks }
      { s with index := [], cache := [], cairn := { s.cairn with
          log := s.cairn.log.filter (fun r => decide (fget s .cairnHeadNextSeq ≤ r.seq + ringRecords)), wrapped := false } }
    else s
  raise s .pwrRungEntered 0 none (leBytes 1 n)

/-- LAST_WAKE codes (Table 13.5). -/
def wakeCode : WakeCause → Nat
  | .head => 1 | .mctp => 2 | .belay => 3 | .slot => 4 | .lease => 5 | .temperature => 6 | .target => 7

/-- A wake event (R296, Table 13.2). -/
def doWake (s : State) (c : WakeCause) : State :=
  if fget s .pwrStatusExiting = 1 ∨ (rung s = 0 ∧ fget s .pwrStatusEntering = 0) then s
  else
    let s := fset s .pwrStatusLastWake (wakeCode c)
    let s := if fget s .pwrStatusEntering = 1 then
        raise (finc (fset s .pwrStatusEntering 0) .pwrTransitionsAborted) .pwrEntryAborted
      else s
    let s := if s.power.commanded then fset s .pwrCtrlTarget 0 else s
    let s := { s with power := { s.power with entering := 0, commanded := false, idle := 0, exitFrom := rung s } }
    let s := if twinUp s && decide (c ≠ .belay) then emit s (.belay 0 .wake) else s
    if rung s = 0 then s else fset s .pwrStatusExiting 1

/-- First temperature read of a PC. -/
def firstTemp (r : BootReport) (pc : Nat) : Nat :=
  match r.temps.find? fun t => decide (t.1.val = pc) with
  | some t => t.2
  | none => r.temp

/-- Training of one PC is restored, or it trains in full, or it is mapped out (R304). -/
def trainPc (s : State) (r : BootReport) (pc : Nat) : State :=
  if fget s .pcStateState pc = pcFailed then s
  else
    let t := firstTemp r pc
    let s := fset s .pcTempTempC t pc
    let good := match s.flash.training.find? fun x => decide (x.1 = pc) with
      | some (_, t0) => !r.recBad.any (fun x => decide (x.val = pc)) &&
          decide ((if t < t0 then t0 - t else t - t0) < fcur s .pcCfgRetrainDelta pc + 1)
      | none => false
    if good then
      finc (fset s .pcTempTempTrained (aget s.flash.training pc t) pc) .pwrBootRestored
    else if r.trainFail.any fun x => decide (x.val = pc) then failPc s pc
    else
      let s := { s with flash := { s.flash with training := aset s.flash.training pc t } }
      finc (fset s .pcTempTempTrained t pc) .pwrBootTrained

/-- Basecamp comes back after descent: training is restored or done again by each PC's temperature, and the retirement list
comes from boot flash (R296). The stored records are taken as good, and a full training as passed (DESIGN CHOICE, log 93). -/
def restoreBasecamp (s : State) : State :=
  let s := (List.range 1024).foldl (fun s pc =>
    trainPc s ⟨true, true, true, false, [], fget s .pcTempTempC pc, [], []⟩ pc) s
  { s with ras := { s.ras with retired := s.flash.retired } }

/-- Exit bounds in µs (Table 13.1). -/
def exitBound (n : Nat) : Nat := [0, 10, 100, 1000, 10000].getD n 0

/-- The first record after an exit from descent tells that the spill ring is gone (11 R262). -/
def spillGone (s : State) : State := commitSlot (raise s .cairnLogDegraded 0 none [0]) (srcKey 0x00C0 0)

/-- An exit completes (R296). -/
def doExitDone (s : State) (us : Nat) : State :=
  let n := s.power.exitFrom
  let s := fset (fset s .pwrStatusRung 0) .pwrStatusExiting 0
  let s := if n = 4 then spillGone s else s
  let s := fset (fset s .pwrExitTimeLastUs us) .pwrExitTimeWorstUs (max us (fget s .pwrExitTimeWorstUs))
  let s := if exitBound n < us then raise s .pwrExitLate 0 none (leBytes 4 us) else s
  let s := { s with power := { s.power with exitFrom := 0 } }
  let s := fset s .belayTwinStatsHbMissed 0
  let s := if 2 ≤ n then
      (List.range 256).foldl (fun s c => finc (fset s .storeRetainInRetention 0 c) .storeRetainWakes c) s else s
  let s := raise s .pwrRungExited 0 none (leBytes 1 n)
  let s := if n = 4 then restoreBasecamp s else s
  (s.pcs.map (·.1)).foldl serveHeld s

/-- A write of PWR.CTRL.TARGET (R294, Table 13.2). -/
def setTarget (s : State) (n : Nat) : State :=
  if 5 ≤ n then s
  else if moving s then { s with power := { s.power with deferred := some n } }
  else
    let s := fset s .pwrCtrlTarget n
    if n = 0 then doWake (fset s .pwrStatusPending 0) .target
    else fset s .pwrStatusPending 1

/-- A deferred TARGET write at the first boundary after a transition. -/
def deferredTarget (s : State) : State :=
  match s.power.deferred with
  | some n => if moving s then s else setTarget { s with power := { s.power with deferred := none } } n
  | none => s

/-! ### Warm reset and cold power-on (R299, R300) -/

/-- Register fields that a warm reset keeps: identity and contents of extents and partitions, RAS and Cairn
records, repairs, settings, the cause of a rail fault. -/
def keepWarm (f : Fld) : Bool :=
  match f with
  | .partStateState | .partStateHeads | .partCfgLeaseMs | .partOrphanAtPitch | .partLeaseExpired
  | .extStateGen | .dirReserveGranules | .tierCapacityExportGran | .tierCapacitySsdGib
  | .tierSlotStatusPresent | .tierSlotStatusPwrEn | .tierSlotStatusPwrgd | .tierSlotStatusPathAUp
  | .tierSlotStatusPathBUp | .tierSlotStatusPwrInd
  | .tierSlotStatusState | .tierSlotStatusFault | .tierRebuildActive | .tierRebuildSlot
  | .tierPinLimitGib | .pcStateState | .storeRepairSparesLeft | .storeRepairBankFailed
  | .rasRetiredBlocks | .rasRetiredRows | .rasRetiredBanks | .rasRetiredPcs | .pitchRemapDiesOut
  | .qosBytesRdBytes | .qosBytesWrBytes | .qosPitchesPitchesOver | .qosPitchesPitchesShort | .qosRawBytes
  | .qosCodedStoredBytes | .qosCodedDeliveredBytes | .qosDevloadLight | .qosDevloadOptimal | .qosDevloadModerate
  | .qosDevloadSevere | .qosHotPc | .qosHotCluster | .qosHotDie | .qosHotClass | .qosHotOcc
  | .cairnStatusLogDegraded | .cairnStatusFailed | .cairnHeadNextSeq | .cairnOldestOldestSeq
  | .cairnLrStatsLrNext | .cairnLrStatsLrWritten | .pitchCfgLen | .idConfigSelTiered | .belayCfgPairEn
  | .belayCfgPairRank | .roleKeysMaster | .roleKeysEpochsRetired | .pinRailsLastFault | .pinRailsVinLOk | .pinRailsVinDOk
  | .pinRailsVddSdOk | .pinRailsVddIoOk | .pinStrapsMakerEn | .roleStatusMakerAvail
  | .pitchAlignHoldover | .pitchCfgLenActive | .cairnStatusLeader => true
  | _ => false

/-- EVT_STATUS bits that stay across a warm reset (10 Table 10.6; 16 Table 16.12). -/
def stickyHdr (x : PageId × Hdr) : Option (PageId × Hdr) :=
  let keep : W64 := if x.1.blk = .pc then 16 else if x.1.blk = .pin then 2 else 0
  let e := x.2.evtStatus &&& keep
  if e = 0 then none else some (x.1, { evtStatus := e })

/-- Merges of accepted partial writes are done before the stacks enter self-refresh. -/
def mergeAll (s : State) : State :=
  (s.pcs.flatMap fun x => x.2.partials).foldl (fun s r => mergeOne s r []) s

/-- A frame after a warm reset: a fill is forgotten, a write-back starts again. -/
def frameWarm (f : Frame) : Option Frame :=
  if f.st = .filling then none
  else some { f with st := if f.st = .evicting then .dirty else f.st, pins := [], waiters := [], rewritten := false,
                     discardDue := false, issued := false, atTwin := false, copy := [] }

/-- The sticky AER bits of a configuration view: status, masks, severities and header log. -/
def stickyCfg (c : PartCfg) : PartCfg :=
  { aer := c.aer, aerUncMask := c.aerUncMask, aerUncSev := c.aerUncSev, aerCorMask := c.aerCorMask, hdrLog := c.hdrLog,
    errHead := c.errHead }

/-- The logic is reset; contents, extents and records stay (Table 13.3). The always-on island goes on counting pitches of
the setting in force until the settings record is loaded (01 R17, R20; DESIGN CHOICE, log 36), from the oscillator where
it did so (01 R19), and the leading complex stays the leader (01 R12). -/
def resetLogic (s : State) : State :=
  { State.reset with
    pending := s.pending, out := s.out, free := s.free, regs := s.regs.filter (fun e => keepWarm e.1.fld),
    hdr := s.hdr.filterMap stickyHdr, mem := s.mem, poison := s.poison, damage := s.damage, flash := s.flash,
    tb := { s.tb with offset := 0, adjust := 0, stepDue := false, stepped := false, markers := [] },
    cfgs := s.cfgs.map (fun c => (c.1, stickyCfg c.2)),
    qos := { occ := s.qos.occ },
    parts := s.parts.map (fun p => (p.1, { epoch := p.2.epoch, leaseExpiry := p.2.leaseExpiry })),
    exts := s.exts, reserve := s.reserve, sanReqs := s.sanReqs,
    snaps := s.snaps.map (fun x => snapRetire { x with jobOpens := [] }), frames := s.frames.filterMap frameWarm,
    lbaMap := s.lbaMap, ssd := s.ssd,
    ios := s.ios.filter (fun i => decide (i.kind = .deallocateAll)), nextIo := s.nextIo, slots := s.slots, rebuild := s.rebuild,
    index := s.index, segs := s.segs, damaged := s.damaged, portDiesOut := s.portDiesOut, clustersOut := s.clustersOut, repaired := s.repaired,
    coreTrips := s.coreTrips, coresOut := s.coresOut, tier := { inUse := s.tier.inUse }, sanHalf := s.sanHalf,
    ras := { retired := s.ras.retired, rows := s.ras.rows, banksOut := s.ras.banksOut },
    cairn := { s.cairn with slots := [], latches := [] },
    belay := { lostSegs := s.belay.lostSegs, healed := s.belay.healed, servedAlone := s.belay.servedAlone },
    heads := s.heads.map (fun h => (h.1, { perst := h.2.perst })),
    boot := { s.boot with phase := .auxOnly, cold := false, pagesReady := false, memActive := false,
                          thermtripLow := false, regulatorsOff := false } }

/-- A warm reset (R300); the causes are those of RESET_CAUSE. Offered extents end with the offers that named
them. -/
def warmReset (s : State) (cause : Nat) : State :=
  let s := endSessions (sendLeaving s) fun _ => true
  let s := (List.range 16).foldl (fun s h => if linkUp s h then aerLink s ⟨h % 16, by omega⟩ .surpriseDown else s) s
  let s := (List.range 16).foldl endOffers (mergeAll s)
  let s := fset (resetLogic s) .pwrResetCauseCause cause
  let s := (List.range 8).foldl showAttn s
  (List.range 16).foldl (fun s p => if pState s p = pActive then startLease s p else s) s

/-- The settings record in flash takes what was accepted. -/
def mergeSettings (f : Flash) : Flash :=
  let d := f.settingsDue
  let r := f.settings
  { f with settings := ⟨d.tiered <|> r.tiered, d.pairEn <|> r.pairEn, d.pairRank <|> r.pairRank, d.pitchLen <|> r.pitchLen⟩,
           settingsDue := {} }

/-- Cold power-on: everything but boot flash, the SSDs' own contents and the rows that post-package repair has replaced for
good (Table 13.3; 11 R254). A settings write of the last 100 ms may be in the record or not (15 R329). -/
def coldPowerOn (s : State) (makerEn : Bool) : State :=
  let (d, s) := draw s
  let flash := if s.flash.settingsDue ≠ {} && decide (d % 2 = 1) then mergeSettings s.flash
    else { s.flash with settingsDue := {} }
  let s := { State.reset with
    pending := s.pending, out := s.out, free := s.free, flash := flash, ssd := s.ssd, ras := { rows := s.ras.rows } }
  fset s .pinStrapsMakerEn (if makerEn then 1 else 0)

/-! ### Start-up (R302 to R305) -/

/-- The settings record is loaded (15 R329); the configuration changes at cold power-on only (00 R4). -/
def loadSettings (s : State) (lost : Bool) : State :=
  let s := if lost then { record s .settingsRecordLost with flash := { s.flash with settings := {} } } else s
  let r := s.flash.settings
  let s := fset (fset s .idConfigSelTiered (r.tiered.getD 0)) .belayCfgPairEn (r.pairEn.getD 0)
  let s := fset (fset s .belayCfgPairRank (r.pairRank.getD 0)) .pitchCfgLen (r.pitchLen.getD 1)
  let s := fset s .pitchCfgLenActive (r.pitchLen.getD 1)
  if s.boot.cold then
    { s with boot := { s.boot with tiered := decide (r.tiered.getD 0 = 1), pairEn := decide (r.pairEn.getD 0 = 1),
                                   pairRank := decide (r.pairRank.getD 0 = 1) } }
  else s

/-- A boot image slot; `true` is slot 1. -/
def imgOf (f : Flash) (one : Bool) : ImageSlot := if one then f.slot1 else f.slot0

def imgSet (f : Flash) (one : Bool) (g : ImageSlot → ImageSlot) : Flash :=
  if one then { f with slot1 := g f.slot1 } else { f with slot0 := g f.slot0 }

/-- The slot that is to boot: an accepted image in the slot that is not primary, else the primary (14 R321). On
a paired package an image of another level boots only at cold power-on with TWIN_MATCH (14 R322). -/
def bootFirst (s : State) : Bool :=
  let other := !s.flash.primary1
  let img := imgOf s.flash other
  let pair := if s.boot.cold then decide (s.flash.settings.pairEn.getD 0 = 1) else s.boot.pairEn
  let level := decide (img.level = (imgOf s.flash s.flash.primary1).level) || !pair || (s.boot.cold && s.flash.twinMatch)
  if img.present && decide (img.stage = .accepted) && level then other else s.flash.primary1

/-- A slot may boot: it holds a whole image that is not merely staged, and the ROM finds it good (R303). -/
def bootable (s : State) (r : BootReport) (one : Bool) : Bool :=
  let img := imgOf s.flash one
  img.present && decide (img.stage = .none ∨ img.stage = .accepted) && (if one then r.slot1Ok else r.slot0Ok)

/-- The boot image that runs: none when both slots fail (R303). -/
def bootSlot (s : State) (r : BootReport) : Option Bool :=
  let first := bootFirst s
  if bootable s r first then some first else if bootable s r (!first) then some (!first) else none

/-- Power good: the boot ROMs, the image, the settings, the training, the retirement list (Table 13.4). -/
def powerGood (s : State) (r : BootReport) : State :=
  let s := fset (fset (fset (fset s .pinRailsVinLOk 1) .pinRailsVinDOk 1) .pinRailsVddSdOk 1) .pinRailsVddIoOk 1
  let s := { s with boot := { s.boot with pkgRstLow := false } }
  let s := if r.complex0Ok then s else record (fset s .cairnStatusLeader 1) .complexTakeover
  match bootSlot s r with
  | none => { s with boot := { s.boot with phase := .recovery } }
  | some slot =>
    let first := bootFirst s
    let s := loadSettings s r.settingsLost
    let s := if slot ≠ first then raise (fset s .pwrBootAltImage 1) .pwrBootAltImage else s
    let img := imgOf s.flash slot
    let s := fset (fset s .roleFwStatusRunningSvn img.svn) .idFirmwarePairLevel img.level
    let s := fset s .roleFwStatusSlot (if slot then 1 else 0)
    -- Efirazu reads the flash with the quad-SPI edges of 0b01 (16 R345)
    let s := fset { s with boot := { s.boot with phase := .starting } } .pinSlewSlew 1 0 2
    let s := (List.range 1024).foldl (fun s pc => trainPc s r pc) s
    { s with ras := { s.ras with retired := s.flash.retired } }

/-- The fill is over and the cores are released (11 R249; Table 13.4). -/
def fillDoneAll (s : State) (parityFail : List PcId) (bankFail : List (Cluster × Fin 4)) : State :=
  let s := if s.boot.cold then { s with mem := [], poison := [], damage := [] } else s
  let s := if s.boot.cold then parityFail.foldl (fun s pc => failPc s pc) s else s
  let s := bankFail.foldl (fun s x =>
    takeClusterOut (raise (fset s .storeRepairBankFailed (bitOn (fget s .storeRepairBankFailed x.1) x.2) x.1)
      .storeBankFailed x.1 none (leBytes 1 x.2)) x.1) s
  powerSlots { s with boot := { s.boot with phase := .released, pagesReady := true } }

/-- Capacity of the smallest admitted SSD, in 2 MiB units (05 R117). -/
def smallestSsd (s : State) : Nat :=
  let l := ((List.range 8).filter fun k => decide (slotSt s k = slInService)).map fun k => (slotOf s k).counted
  l.foldl min (l.headD 0)

/-- Granules that this package would export alone in SOLO-T: seven eighths of the smallest SSD's stripes (00 Table 0.2). -/
def soloCapacity (s : State) (missing : Nat) : Nat := if 2 ≤ missing then 0 else 7 * smallestSsd s / 128

/-- The tiered configurations export capacity after cold power-on (00 R5; 05 R117): each empty slot is recorded under
its own page, and a paired package exports no more than its twin could (00 Table 0.2). -/
def exportCapacity (s : State) : State :=
  let empty := (List.range 8).filter fun k => decide (slotSt s k ≠ slInService)
  let missing := empty.length
  let s := empty.foldl (fun s k => record s (.startSlotMissing (decide (2 ≤ missing))) (0x20 + k) none (leBytes 1 k)) s
  let s := if 2 ≤ missing then { s with boot := { s.boot with noCapacity := true } } else s
  let s := if missing = 0 then s else hupd s .tier 0x10 fun h => { h with degraded := true }
  let s := fset s .tierCapacitySsdGib (smallestSsd s / 512) 0x10
  let s := if 2 ≤ missing then s else { s with tier := { s.tier with inUse := smallestSsd s } }
  let own := soloCapacity s missing
  fset s .tierCapacityExportGran (match s.belay.twinCap with
    | some n => if pairConfig s then min own n else own
    | none => own) 0x10

/-- Level of the accepted image that does not run yet, which the twin is told (14 R322). -/
def acceptedLevel (s : State) : Option Nat :=
  let img := imgOf s.flash (decide (fget s .roleFwStatusSlot = 0))
  if img.present && decide (img.stage = .accepted) then some img.level else none

/-- FW_STATUS.TWIN_MATCH follows the two accepted images (14 R322). -/
def fwMatch (s : State) : State :=
  { s with flash := { s.flash with
      twinMatch := (acceptedLevel s).isSome && decide (acceptedLevel s = s.belay.twinLevel) } }

/-- The accepted image changed: the twin is told through the journal (14 R322). -/
def fwChanged (s : State) : State :=
  let s := fwMatch s
  if twinUp s then journalSend s (.fwLevel (decide (bRole s = roleLead)) (acceptedLevel s)) else s

/-- The image running reaches Mem_Active: an accepted one becomes primary, and MIN_SVN rises if it says so
(14 R321). -/
def commitImage (s : State) : State :=
  let one := decide (fget s .roleFwStatusSlot = 1)
  let img := imgOf s.flash one
  if img.stage = .accepted then
    let f := imgSet s.flash one fun i => { i with stage := .none }
    fwChanged { s with flash :=
      { f with primary1 := one, minSvn := if img.raisesMin then max f.minSvn img.svn else f.minSvn } }
  else s

/-- Start-up completes (R305). -/
def doMemActive (s : State) (ms : Nat) : State :=
  let s := commitImage s
  let s := if s.boot.tiered && s.boot.cold then exportCapacity s else s
  fset { s with boot := { s.boot with phase := .active, memActive := true, cold := false } } .pwrBootBootMs (min ms 65535)

/-! ### Cluster reset (R301) -/

/-- A write of PWR.CLUSTER_RESET with GO = 1. -/
def startClusterReset (s : State) (c : Nat) : State :=
  if fget s .pwrClusterResetBusy = 1 then s
  else
    let s := fset s .pwrClusterResetBusy 1
    let lost := s.steps.filter fun x => decide (coreCluster x.core = c) && decide (x.st ≠ .unplaced)
    let s := lost.foldl (fun s x => rerunOn s x (some x.core) id) s
    let s := { s with resetting := aset s.resetting c [] }
    let s := rerunCluster s c
    { s with cache := s.cache.filter (fun e => decide (blockCluster e.block ≠ c)),
             compactQ := s.compactQ.filter (fun b => decide (blockCluster b ≠ c)),
             stores := s.stores.filter (fun b => decide (b.1 / 4 ≠ c)),
             coresOut := s.coresOut.filter (fun k => decide (coreCluster k ≠ c)),
             coreTrips := s.coreTrips.filter fun k => decide (coreCluster k.1 ≠ c) }

/-- The reset of a cluster completes; it waits for the end of a freeze of its PCs. -/
def endClusterReset (s : State) (bankFail : List (Fin 4)) : State :=
  match s.resetting with
  | [] => s
  | (c, held) :: rest =>
    if (List.range 4).any fun i => decide (pcSt s (c * 4 + i) = pcFrozen) then s
    else
      let s := fset { s with resetting := rest } .pwrClusterResetBusy 0
      let s := fset (fset s .storeBgtestPhase 0 c) .storeRepairSparesLeft (fget s .storeRepairSparesLeft c) c
      let s := bankFail.foldl (fun s b =>
        takeClusterOut (raise (fset s .storeRepairBankFailed (bitOn (fget s .storeRepairBankFailed c) b) c)
          .storeBankFailed c none (leBytes 1 b)) c) s
      raise (held.foldl (fun s r => homeReq s r []) s) .pwrClusterResetDone 0 none (leBytes 1 c)

/-! ### Rails, heat, a die (16; 08 R205) -/

/-- Basecamp's contents are gone. -/
def loseBasecamp (s : State) : State :=
  { s with mem := [], poison := [], damage := [], frames := [], index := [], cache := [] }

/-- The package is down for good. -/
def goDead (s : State) : State :=
  let s := loseBasecamp { s with boot := { s.boot with phase := .dead, memActive := false } }
  { s with heads := s.heads.map fun h => (h.1, { h.2 with ltssm := .detect }) }

/-- LAST_FAULT code and OK field of a main rail. -/
def railFld : Rail → Option (Nat × Fld)
  | .vinL => some (1, .pinRailsVinLOk)
  | .vinD => some (2, .pinRailsVinDOk)
  | .vddSd => some (3, .pinRailsVddSdOk)
  | .vddIo => some (4, .pinRailsVddIoOk)
  | .vddAux => none

/-- A main rail faults (16 R341). -/
def doRailFault (s : State) (r : Rail) : State :=
  match railFld r with
  | none => s
  | some (code, f) =>
    let s := fset (fset s .pinRailsLastFault code) f 0
    let s := (List.range 16).foldl (fun s h =>
      if linkUp s h then aerLink s ⟨h % 16, by omega⟩ .surpriseDown else s) s
    let s := raise s .pinRailFault 0 none (leBytes 1 code)
    goDead { s with boot := { s.boot with faultLow := true } }

/-- The platform takes a rail away (R340, R352). -/
def doRailRemoved (s : State) (r : Rail) : State :=
  match railFld r with
  | none => goDead s
  | some (_, f) => if r = .vinD then goDead (fset s f 0) else fset s f 0

/-- A logic sensor is read (R350): 110 °C trips the package. -/
def doLogicSensor (s : State) (c : Nat) : State :=
  let s := fset (fset s .pinThermalLogicMaxC c) .pinThermalLogicPeakC (max c (fget s .pinThermalLogicPeakC))
  if 110 ≤ c ∧ s.boot.phase ≠ .tripped then
    let s := raise (sendLeaving s) .pinThermtrip
    { s with boot := { s.boot with phase := .tripped, thermtripLow := true } }
  else s

/-- An engine die is declared lost (08 R204, R205). -/
def loseDie (s : State) (d : Nat) : State :=
  if dieOut s d then s
  else
    let s := fset s .pitchRemapDiesOut (bitOn (fget s .pitchRemapDiesOut) d)
    let s := record s .dieLost d none (leBytes 1 d)
    let s := coverEvt (remapSteps (loseFrames s)) (leBytes 1 d)
    let s := (List.range 16).foldl (fun s i => rerunCluster s (d * 16 + i)) s
    (List.range 64).foldl (fun s i => serveHeld s (d * 64 + i)) s

/-! ### Meanings -/

/-- COLD_POWER_ON (13 R299). -/
def execColdPowerOn (makerEn : Bool) (s : State) : Host.Outcome State Fault Refusal := .next (coldPowerOn s makerEn)

/-- POWER_GOOD (13 R302). -/
def execPowerGood (report : BootReport) (s : State) : Host.Outcome State Fault Refusal :=
  .next (if s.boot.phase = .auxOnly then powerGood s report else s)

/-- BASECAMP_FILL_DONE (11 R249). -/
def execBasecampFillDone (parityFail : List PcId) (bankFail : List (Cluster × Fin 4)) (s : State) :
    Host.Outcome State Fault Refusal :=
  .next (if s.boot.phase = .starting then fillDoneAll s parityFail bankFail else s)

/-- MEM_ACTIVE (13 R305): the cores are released, and no pairing is under way. -/
def execMemActive (ms : Nat) (s : State) : Host.Outcome State Fault Refusal :=
  .next (if s.boot.phase = .released ∧ bState s ≠ bsJoining then doMemActive s ms else s)

/-- PKG_RST (13 R300; 16 R352): a warm reset from any phase but those that only cold power-on leaves; after a
thermal trip it is the recovery. -/
def execPkgRst (s : State) : Host.Outcome State Fault Refusal :=
  .next (match s.boot.phase with
    | .dead | .auxOnly => s
    | .tripped =>
      let s := warmReset s 3
      { s with boot := { s.boot with pkgRstLow := true } }
    | _ =>
      let s := warmReset s 1
      { s with boot := { s.boot with pkgRstLow := true } })

/-- SETTINGS_RECORD_WRITE (15 R329). -/
def execSettingsRecordWrite (s : State) : Host.Outcome State Fault Refusal :=
  .next { s with flash := mergeSettings s.flash }

/-- RAIL_FAULT (16 R341): after power good. -/
def execRailFault (rail : Rail) (s : State) : Host.Outcome State Fault Refusal :=
  .next (if !s.boot.pkgRstLow && decide (s.boot.phase ≠ .dead) && decide (s.boot.phase ≠ .tripped) then
    doRailFault s rail else s)

/-- THERMTRIP_REGULATOR_OFF (16 R352). -/
def execThermtripRegulatorOff (s : State) : Host.Outcome State Fault Refusal :=
  .next (if s.boot.phase = .tripped then { s with boot := { s.boot with regulatorsOff := true } } else s)

/-- RUNG_ENTRY (13 R294): at a boundary, by the lead of a pair. -/
def execRungEntry (s : State) : Host.Outcome State Fault Refusal :=
  .next (if decide (s.boot.phase = .active) && !moving s && !(twinUp s && decide (bRole s = roleSecond)) then
    doRungEntry s else s)

/-- RUNG_ENTERED (13 R294). -/
def execRungEntered (s : State) : Host.Outcome State Fault Refusal :=
  .next (if fget s .pwrStatusEntering = 1 && entryReady s then enterRung s s.power.entering else s)

/-- WAKE (13 R296). -/
def execWake (cause : WakeCause) (s : State) : Host.Outcome State Fault Refusal :=
  .next (if s.boot.phase = .active then doWake s cause else s)

/-- RUNG_EXIT_DONE (13 R296). -/
def execRungExitDone (us : Nat) (s : State) : Host.Outcome State Fault Refusal :=
  .next (if fget s .pwrStatusExiting = 1 then doExitDone s us else s)

/-- CLUSTER_RESET_DONE (13 R301). -/
def execClusterResetDone (bankFail : List (Fin 4)) (s : State) : Host.Outcome State Fault Refusal :=
  .next (endClusterReset s bankFail)

/-- RAIL_REMOVED (16 R352). -/
def execRailRemoved (rail : Rail) (s : State) : Host.Outcome State Fault Refusal :=
  .next (if s.boot.pkgRstLow || decide (s.boot.phase = .tripped) || decide (s.boot.phase = .dead) then
    doRailRemoved s rail else s)

/-- RAIL_RESTORED (16 R352). -/
def execRailRestored (rail : Rail) (s : State) : Host.Outcome State Fault Refusal :=
  .next (match railFld rail with
    | some (_, f) => fset s f 1
    | none => s)

/-- LOGIC_SENSOR_READ (16 R350). -/
def execLogicSensorRead (celsius : Nat) (s : State) : Host.Outcome State Fault Refusal :=
  .next (if running s then doLogicSensor s celsius else s)

/-- DIE_LOST (08 R205). -/
def execDieLost (d : Die) (s : State) : Host.Outcome State Fault Refusal := .next (loseDie s d)

end Sys2Proof.Machine
end

