-- ==== Sys2Proof/Machine/Heads.lean ====
section
/-! DEFINITION. The heads (02): training and losing a link (R29 to R37), errors (R52 to R55), configuration space and
the partition resets (R36, R40, R44, R48 to R51; 03 R76), and the end of a lease (03 R70 to R72). -/

namespace Sys2Proof.Machine

open Sys2Proof

/-! ### Bus mastering moves (R37) -/

/-- Partitions bound to a head. -/
def partsOn (s : State) (h : Nat) : List Part := (List.finRange 16).filter fun (p : Part) => carried s p h

/-- The bus-master head of a partition is selected again: without one its work ends as for Bus Master Enable
cleared; with one, waiting requests and messages go on. -/
def masterAgain (s : State) (p : Part) : State :=
  if (masterHead s p).isNone then
    (if s.jobs.any (fun j => decide (j.p = p) && !j.foreign) || (cfgOf s p).bme then
      endWork s p haltMaster stMasterOff else s)
  else pumpRings (flushVecs s p) p

/-- Partitions of a head after its link has changed. -/
def mastersMoved (s : State) (h : Head) : State := flushVecs ((partsOn s h).foldl masterAgain s) 16

/-- Jobs whose writes left through a head that is gone (R37): unacknowledged writes end them with HEAD_LOST. -/
def headGone (s : State) (h : Nat) (unacked : Bool) : State :=
  let hit := s.jobs.filter fun j => decide (j.head = some h)
  let s := if unacked then hit.foldl (fun s j => failJob s j.p j.ring j.idx stHeadLost) s else s
  { s with jobs := s.jobs.map fun j => if j.head = some h then { j with head := none } else j }

/-- A head is gone other than for a power rung: its sharers leave the directory and its sessions end (04 R89; 14 R312). -/
def headOut (s : State) (h : Head) : State :=
  endSessions (dropSharers s fun sh => decide (sh % 16 = h.val)) fun x => decide (x.transport = .head h)

/-- The link of a head leaves L0 and L0p; `event` tells that it is not for a power rung, `surprise` that it is a
Surprise Down. FLIT_256 falls with the link and PARTNER_128 stays (DESIGN CHOICE, log 25). Whether a job's write was
unacknowledged comes with the command LINK_DOWN; a link that goes down by PERST#, DISABLE or NOT_CXL leaves none, one that
loses all lanes or its port die does (DESIGN CHOICE, log 88). -/
def linkLost (s : State) (h : Head) (st : Ltssm) (event surprise unacked : Bool) : State :=
  let was := headOf s h
  let s := headUpd s h fun x => { x with ltssm := st, secure := x.secure && !event, retraining := false }
  if was.ltssm = .l1 then (if event then headOut s h else s)
  else if was.ltssm ≠ .l0 ∧ was.ltssm ≠ .l0p then s
  else
    let s := fset (fset (fset s .portLinkStatusUp 0 h) .portLinkStatusWidth 0 h) .portLinkStatusRate 0 h
    let s := fset s .portLinkStatusFlit256 0 h
    let s := if event then raise s .portLinkDown h else s
    let s := if surprise then aerLink s h .surpriseDown else s
    mastersMoved (headGone (if event then headOut s h else s) h unacked) h

/-! ### Training (R29 to R34) -/

/-- The rate that a training result gives, cut to what R32 and R33 admit. -/
def rateOf (s : State) (h : Nat) (rate : Nat) (flit256 partner128 : Bool) : Nat :=
  let cap := fget s .portLinkCfgMaxRate h
  let top := if partner128 && flit256 && decide (fget s .portLinkStatusCapped64 h = 0) && decide (cap = 6) then 6 else 5
  min rate (min cap top)

/-- The widest width up to `top` whose lanes all work, from either end (lane reversal, R29). -/
def widestWidth (failed top : Nat) : Nat :=
  let ok := fun w => (List.range w).all (fun i => !failed.testBit i) || (List.range w).all (fun i => !failed.testBit (15 - i))
  ([16, 8, 4, 2, 1].find? fun w => decide (w ≤ top) && ok w).getD 0

/-- A link trains: NOT_CXL, or up at a rate and width. The training of a link that is up is a retrain, which
enters no new L0 (DEDUCED, log 24). Failed lanes pass in a training to a width that needs them (R34). -/
def doTrained (s : State) (h : Head) (rate width : Nat) (cxl flit256 partner128 : Bool) : State :=
  let was := linkUp s h
  let s := if was && !(headOf s h).retraining then finc s .portErrCountRetrains h else s
  if !cxl then
    let s := linkLost s h .disabled true true false
    emit (raise s .portNotCxl h) (.linkDisabled h)
  else
    let r := rateOf s h rate flit256 partner128
    let s := headUpd s h fun x => { x with ltssm := .l0, retraining := false }
    let s := fset (fset (fset s .portLinkStatusRate r h) .portLinkStatusWidth width h) .portLinkStatusUp 1 h
    let s := fset (fset s .portLinkStatusFlit256 (if flit256 || decide (5 ≤ r) then 1 else 0) h)
      .portLinkStatusPartner128 (if partner128 then 1 else 0) h
    let s := if widestWidth (fget s .portLinkStatusLaneFail h) 16 < width then fset s .portLinkStatusLaneFail 0 h else s
    let s := if was then s else raise s .portLinkUp h
    let s := if r < fget s .portLinkCfgMaxRate h then raise s .portRateDown h else s
    let s := if fget s .portLinkStatusLaneFail h ≠ 0 then raise s .portWidthDegraded h else s
    mastersMoved (clearBiFailed s h) h

/-- Equalisation to 128 GT/s fails; the third failure within 1 s caps the head (R33). -/
def doEqFail (s : State) (h : Head) : State :=
  let s := finc s .portErrCountEqFail128 h
  let l := (now s :: (headOf s h).eqFails).filter fun t => decide (now s < t + 1000 * msCycles)
  let s := headUpd s h fun x => { x with eqFails := l }
  if 3 ≤ l.length ∧ fget s .portLinkStatusCapped64 h = 0 then
    raise (fset s .portLinkStatusCapped64 1 h) .portCapped64 h
  else s

/-- The head retrains at once: the order counts, and the training that follows it does not count again. -/
def retrainNow (s : State) (h : Head) : State :=
  headUpd (emit (finc s .portErrCountRetrains h) (.linkRetrain h)) h fun x => { x with retraining := true }

/-- A lane fails and the head retrains to the widest width, of those up to the width in force, whose lanes all work (R34). -/
def doLaneFailure (s : State) (h : Head) (lanes : Nat) : State :=
  let w := widestWidth lanes (fget s .portLinkStatusWidth h)
  let s := fset s .portLinkStatusLaneFail lanes h
  if w = 0 then linkLost s h .detect true true true
  else
    let s := retrainNow (fset s .portLinkStatusWidth w h) h
    if w < 16 then raise s .portWidthDegraded h else s

/-- A write of 1 to LINK_CTRL.RETRAIN (R30). -/
def retrainHead (s : State) (h : Head) : State :=
  if (headOf s h).perst || decide (fget s .portLinkCtrlDisable h = 1) || !running s then s
  else
    if linkUp s h then retrainNow s h
    else headUpd (emit s (.linkRetrain h)) h fun x => { x with ltssm := .training }

/-- LINK_CTRL.DISABLE (Table 2.11). -/
def disableHead (s : State) (h : Head) (on : Bool) : State :=
  let s := fset s .portLinkCtrlDisable (if on then 1 else 0) h
  if on then emit (linkLost s h .disabled true true false) (.linkDisabled h)
  else if (headOf s h).ltssm = .disabled ∧ !(headOf s h).perst then headUpd s h fun x => { x with ltssm := .training }
  else s

/-! ### Errors (R52, R53) -/

/-- A correctable link error. -/
def doLinkError (s : State) (h : Head) (e : LinkErr) : State :=
  match e with
  | .cxlMemCrc => headUpd s h fun x => { x with cxlRas := true }
  | .receiverError => aerLink (finc s .portErrCountRxErr h) h (.linkCorrectable e)
  | .replay => aerLink (finc s .portErrCountReplays h) h (.linkCorrectable e)
  | _ => aerLink s h (.linkCorrectable e)

/-- An error of a received TLP or of the protocol. -/
def doTlpError (s : State) (h : Head) (e : TlpErr) (p : Part) : State :=
  let retrain := fun s : State => retrainNow s h
  match e with
  | .unsupportedNonPosted => emit (aerLog s p h .unsupportedRequestAdvisory) (.ioUnsupported p h)
  | .unsupportedPosted => aerLog s p h .unsupportedRequestPosted
  | .unexpectedLd => emit (record (aerLog s 16 h .unsupportedRequestAdvisory) .ldNotCarried h (some p.val)) (.ioUnsupported p h)
  | .dataLinkProtocol => retrain (aerLink s h (.fatal e))
  | _ => retrain (aerLog s p h (.fatal e))

/-! ### Configuration space (R36, R44, R48, R49) -/

/-- A configuration request reaches a partition through a head; during a reset it is asked to retry (R50). -/
def cfgOpen (s : State) (h : Head) (p : Part) : Bool := linkUp s h && running s && carried s p h

/-- A configuration request, once it may be served; a partition in reset answers Request Retry Status. -/
def cfgWrite (s : State) (h : Head) (p : Part) (f : State → State) : State :=
  if !cfgOpen s h p then notCarriedIo s h p false
  else if (cfgOf s p).inReset.isSome then emit (ioTouch s h) (.ioRetry p h)
  else f (ioTouch s h)

/-- Link Control without the enable of ASPM L0s, which is not supported: bit 0 reads 0 (R54; its place is PRESUMED, log 86). -/
def noL0s (v : Nat) : Nat := v / 2 * 2

/-- Status bits written as 1 are cleared; the header log goes with its error (R52). -/
def aerCleared (c : PartCfg) (hit : AerErr → Bool) : PartCfg :=
  { c with aer := c.aer.filter fun e => !hit e, hdrLog := c.hdrLog.filter fun x => !hit x.1 }

/-- The effect of a configuration write. -/
def setCfg (s : State) (h : Head) (p : Part) (f : CfgField) (v : Nat) : State :=
  let on := decide (v % 2 = 1)
  match f with
  | .enableRelaxedOrdering => cfgUpd s p fun c => { c with ro := on }
  | .tag10Enable => pumpRings (cfgUpd s p fun c => { c with tag10 := on }) p
  | .tag14Enable => pumpRings (cfgUpd s p fun c => { c with tag14 := on }) p
  | .memorySpaceEnable => cfgUpd s p fun c => { c with mse := on }
  | .romEnable => cfgUpd s p fun c => { c with romEn := on }
  | .functionMask => flushVecs (cfgUpd s p fun c => { c with funcMask := on }) p
  | .completionTimeoutUs => cfgUpd s p fun c => { c with cplTimeoutUs := v }
  | .cxlResetMemClrEnable => cfgUpd s p fun c => { c with memClr := on }
  | .linkControl => headUpd s h fun x => { x with linkControl := noL0s v }
  | .linkControl2 => headUpd s h fun x => { x with linkControl2 := v }
  | .flexBusControl => headUpd s h fun x => { x with flexBus := v }
  | .powerState => pumpRings (flushVecs (cfgUpd s p fun c => { c with d3hot := decide (v % 4 = 3) }) p) p
  | .aerUncStatus => cfgUpd s p fun c => aerCleared c fun e => (uncBit e).any v.testBit
  | .aerUncMask => cfgUpd s p fun c => { c with aerUncMask := BitVec.ofNat 32 v }
  | .aerUncSeverity => cfgUpd s p fun c => { c with aerUncSev := BitVec.ofNat 32 v }
  | .aerCorStatus => cfgUpd s p fun c => aerCleared c fun e => (corBit e).any v.testBit && (uncBit e).isNone
  | .aerCorMask => cfgUpd s p fun c => { c with aerCorMask := BitVec.ofNat 32 v }
  | .other off => cfgUpd s p fun c => { c with other := aset c.other off v }

/-- Bus Master Enable is cleared (R49). -/
def clearBme (s : State) (p : Part) : State :=
  if (cfgOf s p).bme then
    cfgUpd (endWork s p haltMaster stMasterOff) p fun c => { c with bme := false }
  else s

/-- Bus Master Enable is set (R44, R48). -/
def setBme (s : State) (p : Part) : State := pumpRings (flushVecs (cfgUpd s p fun c => { c with bme := true }) p) p

/-- TAG_LIMIT.LIMIT (R40). -/
def setTagLimit (s : State) (p : Part) (n : Nat) : State :=
  if n = 0 ∨ 0x400 < n then s else pumpRings (cfgUpd s p fun c => { c with tagLimit := n }) p

/-! ### Partition resets (R50, R51; 03 R76) -/

/-- A partition reset starts: its work ends and its rings are discarded. -/
def startReset (s : State) (p : Part) (k : ResetKind) : State :=
  if (cfgOf s p).inReset.isSome then s
  else
    -- a CXL Reset restores the holdings of this moment (03 R76)
    let hold := (extsOf s p).filterMap fun e => (holderSt e p).map fun st => (e.base, e.len, st)
    let s := partUpd s p fun q => { q with resetHold := hold }
    cfgUpd (endWork s p haltMaster stMasterOff) p fun c => { c with inReset := some k }

/-- Hint-ring registers of a partition's TIER instance (Table 2.8). -/
def hintReg (f : Fld) : Bool :=
  match f with
  | .tierHintBaseBase | .tierHintCtrlEnable | .tierHintCtrlHalted | .tierHintCtrlSize | .tierHintCtrlCause
  | .tierHintCtrlHaltStatus | .tierHintProdProducer | .tierHintConsConsumer | .tierHintConsIgnored => true
  | _ => false

/-- What FLR and CXL Reset both clear (Table 2.8): configuration space but for sticky AER bits, MSI-X, rings, jobs,
the JOB page, the hint ring, open windows. Held tags stay. -/
def clearPartition (s : State) (p : Part) : State :=
  let s := resetJobs s p
  let s := fclear { s with hints := adel s.hints p.val } fun k => hintReg k.fld && decide (k.inst = p.val)
  cfgUpd s p fun c =>
    { stickyCfg c with
      tags := c.tags, logDc := c.logDc, logInfo := c.logInfo, logWarn := c.logWarn, logFail := c.logFail,
      logFatal := c.logFatal, evVector := c.evVector }

/-- A block lies in a granule. -/
def blockIn (g b : Nat) : Bool := decide (granOf (blockDpa b) = g)

/-- Every line of a granule becomes zero, in Basecamp and on Scree; blocks that are filled or written back follow in the order
of 05 Table 5.5. `p` is the partition whose granule it is. -/
def zeroGranule (s : State) (p : Part) (g : Nat) : State :=
  let lo := g * Config.granBytes
  let hi := lo + Config.granBytes
  let blocks := ((s.frames.map (·.block) ++ s.lbaMap.map (·.1) ++ s.index.map (·.1)).filter (blockIn g)).eraseDups
  let s := if s.boot.tiered then blocks.foldl (fun s b => discardBlock s p b) s else blocks.foldl makeRaw s
  { s with mem := Memory.zero s.mem lo hi,
           poison := s.poison.filter (fun l => decide (l * 64 < lo) || decide (hi ≤ l * 64)),
           damage := s.damage.filter (fun x => decide (x.1 * 64 < lo) || decide (hi ≤ x.1 * 64)),
           pcs := s.pcs.map fun x => (x.1, { x.2 with
             partials := x.2.partials.filter (fun r => decide (r.dpa < lo) || decide (hi ≤ r.dpa)),
             poisonDue := x.2.poisonDue.filter (fun l => decide (l * 64 < lo) || decide (hi ≤ l * 64)) }) }

/-! ### Sanitising (03 R69) -/

/-- A granule leaves its SANITISING extent. -/
def freeOf (s : State) (e : Extent) (g : Nat) : State :=
  let s1 := extDrop s e.base
  let add := fun (s : State) (b l : Nat) =>
    if l = 0 then s else { s with exts := extInsert { e with base := b, len := l } s.exts }
  add (add s1 e.base (g - e.base)) (g + 1) (e.base + e.len - (g + 1))

/-- The segment headers of a granule go with its contents; a segment lies within one granule (06 Table 6.6). -/
def clearSegs (s : State) (g : Nat) : State :=
  { s with segs := s.segs.filter fun x => !blockIn g (blockOfLocal (x.1 / 2 ^ 22) (x.1 % 2 ^ 22 * 64)) }

/-- A sanitised granule is free; with its request's last granule SANITISE_DONE. -/
def granFree (s : State) (g : Nat) : State :=
  match extOfGran s g with
  | some e =>
    if e.sanitising then
      let s := listChange (freeOf (clearSegs s g) e g) []
      let done := (s.sanReqs.filter fun r => decide (r = [g])).length
      let left := (s.sanReqs.map fun r => r.filter fun x => decide (x ≠ g)).filter fun r => !r.isEmpty
      let half := s.sanHalf.filter fun x => decide (x.2 ≠ g)
      let s := { s with sanReqs := left, sanHalf := half }
      if done = 0 then s else raise s .extSanitiseDone 16
    else s
  | none => s

/-- A granule's frames or the deallocation of its LBAs are still to be done. -/
def granBusy (s : State) (g : Nat) : Bool :=
  s.frames.any (fun f => blockIn g f.block) || s.locks.any (fun l => l.drops.any (blockIn g)) ||
    s.ios.any fun i => decide (i.kind = .deallocate ∨ i.kind = .parityFix) && blockIn g i.block

/-- This package has sanitised a granule; in a pair it becomes free when both have. -/
def granDone (s : State) (g : Nat) : State :=
  if twinUp s then journalSend s (.sanitised (decide (bRole s = roleLead)) g) else granFree s g

/-- Granules that waited for their deallocation are done. -/
def sanSettle (s : State) : State :=
  let done := s.tier.sanWaits.filter fun g => !granBusy s g
  let left := s.tier.sanWaits.filter (granBusy s)
  done.foldl granDone { s with tier := { s.tier with sanWaits := left } }

/-- One package of the pair has sanitised a granule. -/
def granMark (s : State) (fromLead : Bool) (g : Nat) : State :=
  if s.sanHalf.contains (!fromLead, g) then granFree s g else { s with sanHalf := ins s.sanHalf (fromLead, g) }

/-- A package that goes on alone needs its own part only. -/
def sanAlone (s : State) : State :=
  let own := (s.sanHalf.filter fun x => decide (x.1 = decide (bRole s = roleLead))).map (·.2)
  own.foldl granFree { s with sanHalf := [] }

/-- A granule is zeroed at this package (R69): writes to a frozen PC are held, so it waits for the end of the freeze. -/
def sanitised (s : State) (g : Nat) : State :=
  match extOfGran s g with
  | some e =>
    if e.sanitising && !s.pcs.any fun x => decide (pcSt s x.1 = pcFrozen) then
      let s := zeroGranule s ⟨e.attr.owner % 16, by omega⟩ g
      sanSettle { s with tier := { s.tier with sanWaits := ins s.tier.sanWaits g } }
    else s
  | none => s

/-- The partition's private protected extents go on under a new master key and new epochs (14 R319). -/
def newKey (s : State) (p : Part) : State :=
  let mine := (extsOf s p).filter fun e => !sharedExt e && decide (e.attr.prot = 1)
  if mine.isEmpty then s
  else
    let s := partUpd s p fun q => { q with epoch := q.epoch + 1 }
    let s := fset s .roleKeysMaster (bitOn (fget s .roleKeysMaster) p)
    mine.foldl (fun s e => extMap s e.base fun e => { e with unreadable := false, epoch := (partOf s p).epoch }) s

/-- An extent that the partition held when its reset started, and still holds, is as it was then; RECLAIMABLE returns to ACTIVE.
What was removed during the reset stays removed (DEDUCED, log 84). -/
def heldAgain (s : State) (p : Part) (e : Extent) : State :=
  match (partOf s p).resetHold.find? fun x => decide (x.1 ≤ e.base) && decide (e.base < x.1 + x.2.1), holderSt e p with
  | some (_, _, was), some st =>
    if st = was ∨ st = .sanitising ∨ was = .sanitising ∨ was = .offered then s
    else listChange (extMap s e.base fun e => setHolder e p was) [p]
  | _, _ => s

/-- The holdings of a partition after a CXL Reset: those of its start (R76). -/
def restoreHoldings (s : State) (p : Part) (memClr : Bool) : State :=
  let s := endOffers s p
  let s := (extsOf s p).foldl (fun s e => heldAgain s p e) s
  let s := turnHoldings s p [.reclaimable] .active
  let s := partUpd s p fun q => { q with resetHold := [] }
  let s := (extsOf s p).foldl (fun s e => snapLeave s e p) s
  let s := if memClr then
      let s := (extsOf s p).foldl (fun s e =>
        if sharedExt e then s else (granules e.base e.len).foldl (fun s g => zeroGranule s p g) s) s
      newKey (destroyKey s p) p
    else s
  (extsOf s p).foldl (fun s e =>
    if holderSt e p = some .releasePending then
      raise (dcEvent s p false false [(e.base, e.len)]) .partReleaseRequested p else s) s

/-- A reset completes; a CXL Reset also ends the marks of R89. LEASE.RENEWALS starts again at 0: the spec names the counters
that stay and is silent on this one (DESIGN CHOICE, log 85). -/
def endReset (s : State) (p : Part) (k : ResetKind) : State :=
  let memClr := (cfgOf s p).memClr
  let s := clearPartition s p
  match k with
  | .flr => s
  | .cxl =>
    let s := restoreHoldings s p memClr
    let s := if pState s p = pDisabled then s else startLease (fset s .partStateState pActive p) p
    fset (fset s .partLeaseRenewals 0 p) .dirBiFailedHeads 0 p

/-- PERST# asserts on a head (Table 2.8, Table 2.9): its link is held in Detect; a partition left without a link is
reset by FLR. -/
def perstOn (s : State) (h : Head) : State :=
  let was := (partsOn s h).filter fun (p : Part) => linkUp s h && (boundHeads s p).all fun g => decide (g = h.val) || !linkUp s g
  let s := headUpd (linkLost s h .detect true false false) h fun x => { x with perst := true, linkControl := 0, linkControl2 := 0, flexBus := 0 }
  was.foldl (fun s (p : Part) => startReset s p .flr) s

/-- PERST# deasserts: the cap of R33 is cleared and the link trains from Detect. -/
def perstOff (s : State) (h : Head) : State :=
  let s := fset s .portLinkStatusCapped64 0 h
  let train := running s && decide (fget s .portLinkCtrlDisable h = 0)
  headUpd s h fun x => { x with perst := false, eqFails := [], ltssm := if train then .training else x.ltssm }

/-! ### Leases (03 R70 to R72) -/

/-- A quarter of the lease is left (Table 3.7). -/
def leaseIsLow (s : State) (p : Part) : Bool :=
  decide (pState s p = pActive) && decide (remainingMs s p * 4 < fget s .partCfgLeaseMs p)

/-- The lease has run out (R71): tested against the count of a boundary. -/
def leaseOver (s : State) (p : Part) : Bool :=
  decide (pState s p = pActive) && decide ((partOf s p).leaseExpiry ≤ s.tb.clock)

/-- A lease expires (Table 3.4). -/
def doLeaseExpire (s : State) (p : Part) : State :=
  let s := fset (fset (fset s .partStateState pOrphaned p) .partLeaseExpired 1 p) .partOrphanAtPitch (count s) p
  let s := (extsOf s p).foldl (fun s e => snapLeave s e p) s
  let s := endOffers s p
  let s := turnHoldings s p [.active, .releasePending] .reclaimable
  let s := raise s .partOrphaned p
  let s := emit { s with fmLog := .partitionOrphaned p :: s.fmLog } (.notify (.partitionOrphaned p))
  let s := dropSharers s fun sh => decide (sh / 16 = p.val)
  closeWindows (endWork s p haltLease stLeaseLost) p

/-! ### Meanings -/

/-- LINK_TRAINED (02 R29). -/
def execLinkTrained (h : Head) (rate : Fin 7) (width : Nat) (cxl flit256 partner128 : Bool) (s : State) :
    Host.Outcome State Fault Refusal :=
  .next (if running s && !(headOf s h).perst && !s.portDiesOut.contains (h.val / 4) && decide (fget s .portLinkCtrlDisable h = 0) &&
      decide (width ∈ [1, 2, 4, 8, 16]) && decide ((headOf s h).ltssm ≠ .disabled) then
    doTrained s h rate width cxl flit256 partner128 else s)

/-- EQ_FAIL_128 (02 R33). -/
def execEqFail128 (h : Head) (s : State) : Host.Outcome State Fault Refusal :=
  .next (if (headOf s h).perst then s else doEqFail s h)

/-- LANE_FAILURE (02 R34). -/
def execLaneFailure (h : Head) (lanes : BitVec 16) (s : State) : Host.Outcome State Fault Refusal :=
  .next (if linkUp s h then doLaneFailure s h lanes.toNat else s)

/-- LINK_DOWN (02 R37). -/
def execLinkDown (h : Head) (forRung unacked : Bool) (s : State) : Host.Outcome State Fault Refusal :=
  .next (if linkUp s h || decide ((headOf s h).ltssm = .l1) then linkLost s h (if forRung then .l1 else .detect) (!forRung) (!forRung) unacked else s)

/-- PERST_ASSERT (02 R51). -/
def execPerstAssert (h : Head) (s : State) : Host.Outcome State Fault Refusal := .next (perstOn s h)

/-- PERST_DEASSERT (02 R51). -/
def execPerstDeassert (h : Head) (s : State) : Host.Outcome State Fault Refusal := .next (perstOff s h)

/-- LINK_ERROR (02 R53). -/
def execLinkError (h : Head) (kind : LinkErr) (s : State) : Host.Outcome State Fault Refusal :=
  .next (doLinkError s h kind)

/-- TLP_ERROR (02 R53). -/
def execTlpError (h : Head) (kind : TlpErr) (p : Part) (s : State) : Host.Outcome State Fault Refusal :=
  .next (if linkUp s h then doTlpError s h kind p else s)

/-- VIRAL_RECEIVED (02 R54). -/
def execViralReceived (_h : Head) (s : State) : Host.Outcome State Fault Refusal :=
  .next (finc s .rasPoisonViralIgnored)

/-- CONFIG_WRITE (02 R36). -/
def execConfigWrite (h : Head) (p : Part) (field : CfgField) (value : Nat) (s : State) :
    Host.Outcome State Fault Refusal :=
  .next (cfgWrite s h p fun s => setCfg s h p field value)

/-- BUS_MASTER_ENABLE_CLEAR (02 R49). -/
def execBusMasterEnableClear (h : Head) (p : Part) (s : State) : Host.Outcome State Fault Refusal :=
  .next (cfgWrite s h p fun s => clearBme s p)

/-- BUS_MASTER_ENABLE_SET (02 R44). -/
def execBusMasterEnableSet (h : Head) (p : Part) (s : State) : Host.Outcome State Fault Refusal :=
  .next (cfgWrite s h p fun s => setBme s p)

/-- FLR (02 R50). -/
def execFlr (h : Head) (p : Part) (s : State) : Host.Outcome State Fault Refusal :=
  .next (cfgWrite s h p fun s => startReset s p .flr)

/-- FLR_COMPLETE (02 R50). -/
def execFlrComplete (p : Part) (s : State) : Host.Outcome State Fault Refusal :=
  .next (if (cfgOf s p).inReset = some .flr then endReset s p .flr else s)

/-- CXL_RESET (02 R51). -/
def execCxlReset (h : Head) (p : Part) (s : State) : Host.Outcome State Fault Refusal :=
  .next (cfgWrite s h p fun s => startReset s p .cxl)

/-- CXL_RESET_COMPLETE (03 R76). -/
def execCxlResetComplete (p : Part) (s : State) : Host.Outcome State Fault Refusal :=
  .next (if (cfgOf s p).inReset = some .cxl then endReset s p .cxl else s)

/-- MSIX_UNMASK (02 R44): the mask bit of a vector is cleared. -/
def execMsixUnmask (p : Part) (vec : Fin 256) (s : State) : Host.Outcome State Fault Refusal :=
  .next (if (cfgOf s p).inReset.isNone then flushVecs (msixSet s p vec { msixOf s p vec with masked := false }) p else s)

/-- TAG_LIMIT_WRITE (02 R40). -/
def execTagLimitWrite (h : Head) (p : Part) (limit : BitVec 11) (s : State) : Host.Outcome State Fault Refusal :=
  .next (cfgWrite s h p fun s => setTagLimit s p limit.toNat)

/-- L1_ENTRY (02 R37). It leaves L0 at the host's choice: neither LINK_DOWN nor Surprise Down is raised, and sharers and
sessions stay (DESIGN CHOICE, log 89). -/
def execL1Entry (h : Head) (s : State) : Host.Outcome State Fault Refusal :=
  .next (if linkUp s h then linkLost s h .l1 false false false else s)

/-- HDM_DECODER_COMMIT (04 R83). -/
def execHdmDecoderCommit (h : Head) (p : Part) (base len : Nat) (bi : Bool) (s : State) :
    Host.Outcome State Fault Refusal :=
  .next (ioWrite s h p fun s => { s with hdms := aset s.hdms (sharerId p h) ⟨base, len, bi⟩ })

/-- CLEAR_EVENT_RECORDS (02 R54): the oldest records of a log go. -/
def execClearEventRecords (h : Head) (p : Part) (log : EvLog) (count : Nat) (s : State) :
    Host.Outcome State Fault Refusal :=
  .next (ioWrite s h p fun s => cfgUpd s p fun c =>
    match log with
    | .dynamicCapacity => { c with logDc := c.logDc.take (c.logDc.length - count) }
    | .informational => { c with logInfo := c.logInfo - count }
    | .warning => { c with logWarn := c.logWarn - count }
    | .failure => { c with logFail := c.logFail - count }
    | .fatal => { c with logFatal := c.logFatal - count })

/-- SET_EVENT_INTERRUPT_POLICY (03 R65). -/
def execSetEventInterruptPolicy (h : Head) (p : Part) (log : EvLog) (vector : Option (Fin 256)) (s : State) :
    Host.Outcome State Fault Refusal :=
  .next (ioWrite s h p fun s => cfgUpd s p fun c =>
    { c with evVector := match vector with
        | some v => aset c.evVector (evLogNum log) v.val
        | none => adel c.evVector (evLogNum log) })

/-- LEASE_LOW (03 Table 3.7). -/
def execLeaseLow (p : Part) (s : State) : Host.Outcome State Fault Refusal :=
  .next (if leaseIsLow s p then raise s .partLeaseLow p else s)

end Sys2Proof.Machine
end

