-- ==== Sys2Proof/Machine/Hints.lean ====
section
/-! DEFINITION. Hint rings and hints (05 R105 to R110), and completions of bus-master reads with their timeouts
(02 R46 to R48). -/

namespace Sys2Proof.Machine

open Sys2Proof

/-! ### Hint entries (R106, R107) -/

/-- OP of an entry (Table 5.3). -/
def hintOp (e : HintEntry) : Nat := bitsAt e.op.toNat 0 4

/-- An entry with an undefined opcode or a nonzero reserved bit. -/
def hintBad (e : HintEntry) : Bool :=
  decide (hintOp e = 0 ∨ 6 < hintOp e) || decide (16 ≤ e.op.toNat) || decide (e.rsvd ≠ 0)

/-- An entry skipped, or with blocks skipped: counted once. -/
def hintIgnored (s : State) (p : Nat) : State := raise (finc s .tierHintConsIgnored p) .tierHintIgnored p

/-- CONSUMER passes the oldest entry. -/
def hintPass (s : State) (p : Nat) : State :=
  fwrap { s with hints := aset s.hints p (hintsOf s p).tail } .tierHintConsConsumer p

/-- Bad entries at the front are skipped. -/
def hintSkip : Nat → State → Nat → State
  | 0, s, _ => s
  | n + 1, s, p =>
    match hintsOf s p with
    | e :: _ => if hintBad e then hintSkip n (hintPass (hintIgnored s p) p) p else s
    | [] => s

/-- Skip what can be skipped. -/
def hintSettle (s : State) (p : Nat) : State := hintSkip (hintsOf s p).length s p

/-- The blocks of a hint: those that lie inside the range for DISCARD, else those that it touches. -/
def hintRange (op base len : Nat) : Nat × Nat :=
  if len = 0 then (0, 0)
  else if op = 5 then (ceilDiv base 8192, (base + len) / 8192)
  else (base / 8192, ceilDiv (base + len) 8192)

/-- Blocks from `lo` to below `hi` of an extent. -/
def extBlocks (e : Extent) (lo hi : Nat) : List Nat :=
  let a := max lo (e.base * granBlocks)
  let b := min hi ((e.base + e.len) * granBlocks)
  (List.range (b - a)).map (a + ·)

/-- Blocks of a range that a partition holds in ACTIVE or RELEASE_PENDING, in ascending order, with their extents. -/
def hintBlocks (s : State) (p lo hi : Nat) : List (Extent × Nat) :=
  (s.exts.filter fun e => served e p).flatMap fun e => (extBlocks e lo hi).map fun b => (e, b)

/-! ### Effects (Table 5.4, R108, R109) -/

/-- DISCARD of one block as the sharing rules have it. -/
def hintDiscard (s : State) (p : Part) (e : Extent) (b : Nat) : State :=
  if e.attr.sharing = 2 then s
  else if e.attr.sharing = 1 then
    if isPublisher e p then
      (List.range 128).foldl (fun s i =>
        dirReq s { kind := .write, p := p, src := .device, dpa := (b * 128 + i) * 64, mask := fullMask } []) s
    else s
  else discardBlock s p b

/-- COMPACT of one block: resident, and on the package that compacts (06 R149). -/
def hintCompact (s : State) (b : Nat) : State :=
  if secondUp s || (s.boot.tiered && (frameOf s b).isNone) then s else compactBlock s b

/-- The effect of a hint on the blocks of its range. -/
def hintEffect (s : State) (p : Part) (op base len : Nat) : State :=
  let r := hintRange op base len
  (hintBlocks s p r.1 r.2).foldl (fun s x =>
    match op with
    | 1 => prefetchBlock s p x.2
    | 2 => pinBlock s p x.2
    | 3 => unpinBlock s p x.2
    | 4 => coldBlock s x.2
    | 5 => hintDiscard s p x.1 x.2
    | 6 => hintCompact s x.2
    | _ => s) s

/-- A held request is one that a DISCARD made for a block of a range. -/
def discardReq (p : Part) (lo hi : Nat) (r : Req) : Bool :=
  decide (r.src = .device) && decide (r.p = p) && decide (lo ≤ blockOf r.dpa) && decide (blockOf r.dpa < hi)

/-- Requests that wait at an expander or for a damaged block. -/
def expReqs (s : State) : List Req :=
  (s.tier.exp.flatMap fun x => (x.2.input ++ x.2.middle).flatMap (·.waiters) ++ x.2.held) ++ s.tier.twinWaits.flatMap (·.2)

/-- Blocks of a range still wait to be discarded on this package: a write of zeroes waits, a frame is filled or written back,
a stripe is locked, or an LBA's deallocation is outstanding. -/
def discardWaits (s : State) (p : Part) (lo hi : Nat) : Bool :=
  let ok := discardReq p lo hi
  let inside := fun (b : Nat) => decide (lo ≤ b) && decide (b < hi)
  s.lineq.any ok || s.trans.any (fun t => match t.req with
      | some r => ok r
      | none => false) ||
    s.frames.any (fun f => f.waiters.any ok || (f.discardDue && inside f.block)) ||
    s.pcs.any (fun x => x.2.held.any ok || x.2.heldBack.any ok) || s.resetting.any (fun x => x.2.any ok) ||
    (expReqs s).any ok || s.locks.any (fun l => l.drops.any inside) ||
    s.ios.any fun i => decide (i.kind = .deallocate) && inside i.block

/-- An entry covers blocks that the partition does not hold: it counts once in IGNORED (R107). -/
def hintShort (s : State) (p : Part) (e : HintEntry) : State :=
  let r := hintRange (hintOp e) e.base.toNat e.len.toNat
  if (hintBlocks s p r.1 r.2).length < r.2 - r.1 then hintIgnored s p else s

/-- A DISCARD entry waits: for blocks of this package, or for the twin to finish its own (R107). -/
def hintWaits (s : State) (p : Part) (e : HintEntry) : Bool :=
  let r := hintRange (hintOp e) e.base.toNat e.len.toNat
  decide (hintOp e = 5) && ((e.twin && twinUp s) || discardWaits s p r.1 r.2)

/-- Apply the oldest entry at the package that holds the ring: CONSUMER passes it, a DISCARD only once every block
is discarded, on both packages of a pair. -/
def hintRun (s : State) (p : Part) (e : HintEntry) : State :=
  let s := hintEffect (hintShort s p e) p (hintOp e) e.base.toNat e.len.toNat
  let e := { e with phase := 2, twin := twinUp s && !e.twin }
  if hintWaits s p e then { s with hints := aset s.hints p (e :: (hintsOf s p).tail) }
  else hintSettle (hintPass s p) p

/-- An entry goes to both packages through the journal (R110). -/
def hintSend (s : State) (p : Part) (e : HintEntry) : State :=
  journalSend s (.hint (decide (bRole s = roleLead)) p (hintOp e) e.base.toNat e.len.toNat)

/-- The oldest entry, if it has an opcode, is applied; in a pair it goes through the journal (R110). -/
def hintGo (s : State) (p : Part) (op : Nat) : State :=
  match hintsOf s p with
  | [] => s
  | e :: rest =>
    if hintOp e ≠ op then s
    else if e.phase = 0 then
      if twinUp s then
        hintSend { s with hints := aset s.hints p ({ e with phase := 1 } :: rest) } p e
      else hintRun s p e
    else if e.phase = 2 then
      if hintWaits s p e then s else pumpHint (hintSettle (hintPass s p) p) p
    else s

/-- An entry is that of a hint. -/
def hintIs (e : HintEntry) (phase op base len : Nat) : Bool :=
  decide (e.phase = phase ∧ hintOp e = op ∧ e.base.toNat = base ∧ e.len.toNat = len)

/-- A journalled hint takes effect: at the package that holds the ring its entry goes on; the other one tells when its part of
a DISCARD is done (R107, R110). -/
def hintJournal (s : State) (fromLead : Bool) (p : Part) (op base len : Nat) : State :=
  if fromLead = decide (bRole s = roleLead) then
    match hintsOf s p with
    | e :: _ => if hintIs e 1 op base len then hintRun s p e else hintEffect s p op base len
    | [] => hintEffect s p op base len
  else
    let s := hintEffect s p op base len
    if op = 5 then { s with tier := { s.tier with discards := s.tier.discards ++ [(p, base, len)] } } else s

/-- DISCARDs of the twin's rings that this package has finished are told to it (R107). -/
def tellDiscards (s : State) : State :=
  let waits := fun (d : Part × Nat × Nat) =>
    let r := hintRange 5 d.2.1 d.2.2
    discardWaits s d.1 r.1 r.2
  let done := s.tier.discards.filter fun d => !waits d
  done.foldl (fun s d => if twinUp s then emit s (.belay 2 (.forward (.discarded d.1 d.2.1 d.2.2))) else s)
    { s with tier := { s.tier with discards := s.tier.discards.filter waits } }

/-- The twin has finished its part of a DISCARD (R107); one that this package has yet to apply keeps the news. -/
def twinDiscarded (s : State) (p : Part) (base len : Nat) : State :=
  match hintsOf s p with
  | e :: rest =>
    if hintIs e 2 5 base len || hintIs e 1 5 base len then
      { s with hints := aset s.hints p ({ e with twin := decide (e.phase = 1) } :: rest) } else s
  | [] => s

/-! ### The ring (R105) -/

/-- An entry as it lies in host memory. -/
def hintEntryOf (bs : List Byte) : HintEntry :=
  { op := BitVec.ofNat 64 (leAt bs 0 8), base := BitVec.ofNat 64 (leAt bs 8 8), len := BitVec.ofNat 64 (leAt bs 16 8),
    rsvd := BitVec.ofNat 64 (leAt bs 24 8) }

/-- The next entry arrives, or its fetch fails and the ring halts. -/
def hintFetched (s : State) (p : Part) (cpl : Cpl) : State :=
  match cpl with
  | .ok data => hintSettle { s with hints := aset s.hints p (hintsOf s p ++ [hintEntryOf data]) } p
  | .unsupportedRequest | .completerAbort => haltHint s p haltFetch stHostAbort
  | .poisoned => haltHint s p haltFetch stHostPoison

/-- Entries fetched before a stop are applied, at the latest before the ring starts again (R105): the bad ones are skipped and
counted, those with blocks not held are counted, and a pair applies them on both packages (R106, R107, R110). -/
def hintFlush (s : State) (p : Part) : State :=
  (hintsOf s p).foldl (fun s e =>
    if e.phase = 2 then s
    else if hintBad e then hintIgnored s p
    else
      let s := hintShort s p e
      if e.phase = 1 then s
      else if twinUp s then hintSend s p e
      else hintEffect s p (hintOp e) e.base.toNat e.len.toNat) s

/-- A write of HINT_CTRL.ENABLE. -/
def setHintEnable (s : State) (p : Part) (on : Bool) : State :=
  let was := decide (fget s .tierHintCtrlEnable p = 1)
  if on && !was then
    let s := { hintFlush s p with hints := adel s.hints p.val }
    let s := fset (fset s .tierHintProdProducer 0 p) .tierHintConsConsumer 0 p
    let s := fset (fset s .tierHintCtrlHalted 0 p) .tierHintCtrlCause 0 p
    fset (fset s .tierHintCtrlHaltStatus 0 p) .tierHintCtrlEnable 1 p
  else if !on && was then discardTags (fset s .tierHintCtrlEnable 0 p) p fun u => decide (u = .hint)
  else s

/-- A write of HINT_PROD.PRODUCER, the doorbell. -/
def setHintProducer (s : State) (p : Part) (v : Nat) : State :=
  if fget s .tierHintCtrlEnable p = 1 ∧ fget s .tierHintCtrlHalted p = 0 then
    if hintSize s p < (v + 2 ^ 32 - fget s .tierHintConsConsumer p) % 2 ^ 32 then haltHint s p haltOverrun 0
    else pumpHint (fset s .tierHintProdProducer v p) p
  else s

/-! ### Completions (02 R47, R48) -/

/-- A head as a number below 16. -/
def headNum (h : Nat) : Head := ⟨h % 16, by omega⟩

/-- A completion for a held tag: the tag is free, and unless it is discarded it serves its use. -/
def cplDone (s : State) (p : Part) (t : Tag) (cpl : Cpl) : State :=
  let s := dropTag s p t.num
  let s := if t.discard then s
    else
      let s := if cpl = .poisoned then aerLog s p (headNum t.head) .poisonedTlp else s
      match t.use with
      | .descriptor k => descFetched s p k cpl
      | .hint => hintFetched s p cpl
      | .staging ring idx slot => stageDone s p ring idx slot cpl
  pumpRings s p

/-- A completion timeout of a held tag. -/
def cplTimeout (s : State) (p : Part) (t : Tag) : State :=
  let s := aerLog (dropTag s p t.num) p (headNum t.head) .completionTimeout
  let s := if t.discard then s
    else match t.use with
      | .descriptor k => haltRing (ringUpd s p k fun r => { r with fetching := false }) p k haltFetch stHostTimeout
      | .hint => haltHint s p haltFetch stHostTimeout
      | .staging ring idx _ => failJob s p ring idx stHostTimeout
  pumpRings s p

/-! ### Meanings -/

/-- COMPLETION_RECEIVED (02 R47): a tag that is not held is an Unexpected Completion, logged for the partition's bus-master
head, or head 0 where it has none: the command does not name the head that it came on (DESIGN CHOICE, log 80). -/
def execCompletionReceived (p : Part) (tag : Nat) (cpl : Cpl) (s : State) : Host.Outcome State Fault Refusal :=
  .next (match heldTag s p tag with
    | some t => cplDone s p t cpl
    | none => aerLog s p (headNum ((masterHead s p).getD 0)) .unexpectedCompletion)

/-- COMPLETION_TIMEOUT (02 R47). -/
def execCompletionTimeout (p : Part) (tag : Nat) (s : State) : Host.Outcome State Fault Refusal :=
  .next (match heldTag s p tag with
    | some t => cplTimeout s p t
    | none => s)

/-- HINT_FETCH_DONE (05 R105): the fetch that the hint ring has outstanding completes. -/
def execHintFetchDone (p : Part) (cpl : Cpl) (s : State) : Host.Outcome State Fault Refusal :=
  .next (match (cfgOf s p).tags.find? (fun t => decide (t.use = .hint) && !t.discard) with
    | some t => cplDone s p t cpl
    | none => s)

/-- PREFETCH (05 R107): the oldest entry of the hint ring is applied. -/
def execPrefetch (p : Part) (s : State) : Host.Outcome State Fault Refusal := .next (hintGo s p 1)

/-- PIN (05 R109). -/
def execHintPin (p : Part) (s : State) : Host.Outcome State Fault Refusal := .next (hintGo s p 2)

/-- UNPIN (05 R107). -/
def execUnpin (p : Part) (s : State) : Host.Outcome State Fault Refusal := .next (hintGo s p 3)

/-- COLD (05 R107). -/
def execCold (p : Part) (s : State) : Host.Outcome State Fault Refusal := .next (hintGo s p 4)

/-- DISCARD (05 R108). -/
def execDiscard (p : Part) (s : State) : Host.Outcome State Fault Refusal := .next (hintGo s p 5)

/-- COMPACT (06 R149). -/
def execHintCompact (p : Part) (s : State) : Host.Outcome State Fault Refusal := .next (hintGo s p 6)

end Sys2Proof.Machine
end

