-- ==== Sys2Proof/Machine/Slots.lean ====
section
/-! DEFINITION. Fills and write-backs as commands (05 R104, R111 to R113), SSDs and their slots (R115 to R126), and the
compactor and the expander (06 R144, R149 to R153). -/

namespace Sys2Proof.Machine

open Sys2Proof

/-! ### NVMe commands -/

/-- An issued command of a slot by its number. -/
def ioOf (s : State) (k : Slot) (num : Nat) : Option Io :=
  s.ios.find? fun i => decide (i.slot = k) && decide (i.num = num) && !i.held

def ioDrop (s : State) (io : Io) : State := endIosIf s fun i => decide (i.num = io.num)

/-- Commands of a slot are issued again on a path (R120). -/
def reissue (s : State) (k : Slot) (ok : Io → Bool) (path : Path) : State :=
  let hit := s.ios.filter fun i => decide (i.slot = k) && ok i
  let s := { s with ios := s.ios.map fun i => if i.slot = k ∧ ok i then { i with path := path } else i }
  hit.foldl (fun s i => if i.held then s else emit s (.nvme k path i.op)) s

/-- A slot's commands complete: consecutive timeouts start again (R121). -/
def ioGood (s : State) (k : Nat) : State := slotUpd s k fun x => { x with timeoutRun := 0 }

/-- The UP field of a path. -/
def pathFld : Path → Fld
  | .a => .tierSlotStatusPathAUp
  | .b => .tierSlotStatusPathBUp

def otherPath : Path → Path
  | .a => .b
  | .b => .a

def pathUp (s : State) (k : Nat) (p : Path) : Bool := decide (fget s (pathFld p) (slotInst k) = 1)

/-- A command on a path that is up. -/
def nvmeOn (s : State) (k : Slot) (p : Path) (op : NvmeOp) : State := if pathUp s k p then emit s (.nvme k p op) else s

/-- The controller of a path is initialised: its queue count, queues and asynchronous events (Table 5.7). The spec names the
commands and not their order (DESIGN CHOICE, log 81). -/
def initController (s : State) (k : Slot) (p : Path) : State :=
  [NvmeOp.setQueueCount, .getQueueCount, .createQueues, .setAsyncEvents, .getAsyncEvents, .asyncEventRequest].foldl
    (fun s op => nvmeOn s k p op) s

/-- The controller of a path is asked what Table 5.6 needs. -/
def identify (s : State) (k : Slot) (p : Path) : State :=
  [NvmeOp.identifyController, .identifyNamespaceList, .identifyNamespace].foldl (fun s op => nvmeOn s k p op) s

/-! ### Slot power (R124 to R126) -/

/-- The device is marked degraded, or no longer (R121, R122). -/
def setDegraded (s : State) (on : Bool) : State := hupd s .tier 0x10 fun h => { h with degraded := on }

/-- PWR_EN is deasserted. -/
def unpowerSlot (s : State) (k : Slot) : State :=
  let s := fset (fset s .tierSlotStatusPwrEn 0 (slotInst k)) .tierSlotStatusPwrgd 0 (slotInst k)
  let s := fset (fset s .tierSlotStatusPathAUp 0 (slotInst k)) .tierSlotStatusPathBUp 0 (slotInst k)
  emit (setPwrInd (slotUpd s k fun x => { x with buttonWait := none }) k indOff) (.pin (.slotPower k false))

/-! ### Stripes that commands hold (R113, R114) -/

/-- A command whose stripe is locked while it is outstanding. -/
def lockKind (k : IoKind) : Bool :=
  match k with
  | .oldRead | .writeData | .writeParity | .repair | .rebuildRead | .rebuildWrite => true
  | _ => false

/-- A command that writes to an SSD (R120). -/
def writeKind (k : IoKind) : Bool :=
  match k with
  | .writeData | .writeParity | .repair | .parityFix | .rebuildWrite => true
  | _ => false

/-- Two blocks share a stripe. -/
def sameStripe (a b : Nat) : Bool := decide (blockCluster a = blockCluster b) && decide ((placeOf a).t = (placeOf b).t)

/-- A write-back, a repair or a rebuild works on the stripe of a block. -/
def stripeBusy (s : State) (b : Nat) : Bool :=
  s.ios.any (fun i => lockKind i.kind && sameStripe i.block b) ||
    s.frames.any fun f => decide (f.st = .evicting) && sameStripe f.block b

/-- Write-backs that cannot go on are done again (Table 5.5): the frame is DIRTY and the stripe unlocked; a DISCARD that
waited for one drops its block. -/
def redoEvictions (s : State) (bs : List Nat) : State :=
  bs.eraseDups.foldl (fun s b =>
    let s := stopWriteBack s b
    let s := match frameOf s b with
      | some f => if f.discardDue then dropBlock s b else s
      | none => s
    unlockStripe s b) s

/-- The rebuild of a stripe stops; it begins again at a boundary. -/
def stopStripe (s : State) (b : Nat) : State :=
  unlockStripe (endIosIf s fun i => decide (i.block = b) && decide (i.kind = .rebuildRead ∨ i.kind = .rebuildWrite)) b

/-- Stripes that a rebuild works on, by their first blocks. -/
def rebuildsNow (s : State) : List Nat :=
  ((s.ios.filter fun i => decide (i.kind = .rebuildRead ∨ i.kind = .rebuildWrite)).map (·.block)).eraseDups

/-! ### A member is lost (R121, R123) -/

/-- The stripe of a block lacks two members, the block's own among them. -/
def memberLost (s : State) (b : Nat) : Bool := twoMissing s b && !ownReadable s b

/-- Blocks that a second loss takes: those with content on Scree, and those mapped zero whose newer contents lie in a frame
only (R123; log 82). -/
def lostNow (s : State) : List Nat :=
  ((s.lbaMap.filter fun e => decide (e.2 = 1 ∨ e.2 = 2) && memberLost s e.1).map (·.1)) ++
    (s.frames.filter fun f => decide (f.st = .dirty ∨ f.st = .evicting) && decide (lbaOf s f.block = 0) &&
      memberLost s f.block).map (·.block)

/-- Blocks that a second loss takes are LOST, their resident frames kept and unevictable (R123). -/
def markLost (s : State) : State :=
  (lostNow s).foldl (fun s b =>
    let s := raise (setLba s b 3) .tierBlockLost 0x10 none (leBytes 8 b)
    match frameOf s b with
    | some f =>
      if f.st = .filling then fillFailed s b
      else
        let s := if f.st = .evicting then unlockStripe (stopWriteBack s b) b else s
        frameMap s b fun f => { f with st := .dirty, stuck := true }
    | none => s) s

/-- What a command's end without its effect leaves to do: fills are rebuilt from the other members, write-backs start again,
stripes that repairs and rebuilds held are unlocked. -/
def ioLost (s : State) (kind : IoKind) (b : Nat) : State :=
  match kind with
  | .fillRead =>
    match frameOf s b with
    | some f =>
      if f.st ≠ .filling ∨ f.issued = false then s
      else if (stripeMissing s b).length ≤ 1 then issueFill (endIos s b .fillRead) b else fillFailed s b
    | none => s
  | .oldRead | .writeData | .writeParity => redoEvictions s [b]
  | .repair => unlockStripe s b
  | .rebuildRead | .rebuildWrite => stopStripe s b
  | .deallocate | .parityFix | .deallocateAll => s

/-- Every command of a slot that is gone ends. -/
def dropSlotIos (s : State) (k : Slot) : State :=
  let hit := ((s.ios.filter fun i => decide (i.slot = k)).map fun i => (i.kind, i.block)).eraseDups
  hit.foldl (fun s x => ioLost s x.1 x.2) (endIosIf s fun i => decide (i.slot = k))

/-- The slot leaves the stripe set, and a rebuild stops. -/
def leaveSet (s : State) (k : Slot) (st : Nat) : State :=
  let s := setSlot (unpowerSlot s k) k st
  let s := if fget s .tierRebuildActive 0x10 = 1 then
      (rebuildsNow s).foldl stopStripe (fset s .tierRebuildActive 0 0x10) else s
  let s := { s with rebuild := s.rebuild.filter fun e => decide (e.1 % 8 ≠ k.val) }
  raise (setDegraded s true) .tierDegraded 0x10 none (leBytes 1 k)

/-- The slot's SSD is a member. -/
def isMember (s : State) (k : Nat) : Bool := decide (slotSt s k = slInService ∨ slotSt s k = slRebuilding ∨ slotSt s k = slRemoving)

/-- An SSD fails (R121); the codes are those of SLOT_STATUS.FAULT. -/
def failSsd (s : State) (k : Slot) (code : Nat) : State :=
  let was := isMember s k
  let s := setFault s k code
  let s := if was then leaveSet s k slFailed else setSlot (unpowerSlot s k) k slFailed
  dropSlotIos (if was then markLost s else s) k

/-- The commands of a slot being removed are done: its queues are deleted and it leaves the set (R126). -/
def removalGoesOn (s : State) (k : Slot) : State :=
  if slotSt s k = slRemoving ∧ !s.ios.any (fun i => decide (i.slot = k)) then
    markLost (leaveSet (nvmeOn (nvmeOn s k .a .deleteQueues) k .b .deleteQueues) k slOff)
  else s

/-! ### Fills (R111, R112) -/

/-- The read of a block's own member is outstanding. -/
def ownRead (s : State) (b : Nat) : Bool :=
  s.ios.any fun i => decide (i.block = b) && decide (i.kind = .fillRead) && decide (i.slot.val = (placeOf b).slot)

/-- Reads of the other seven members. -/
def rebuildReads (s : State) (b : Nat) : State :=
  let pl := placeOf b
  ((List.range 8).filter fun k => decide (k ≠ pl.slot)).foldl
    (fun s k => issueIo s k .fillRead b (.read (2 * pl.u) 2)) s

/-- A rebuilt member is written back to its SSD, once its stripe is free (R112, Table 5.5). -/
def repairMember (s : State) (b : Nat) : State :=
  if stripeLocked s b then lockMap s b fun l => { l with repairs := ins l.repairs b }
  else
    let pl := placeOf b
    issueIo (lockStripe s b) pl.slot .repair b (.write (2 * pl.u) (if lbaOf s b = 1 then 1 else 2))

/-- The write of a rebuilt member is done. -/
def repairDone (s : State) (b : Nat) : State :=
  let pl := placeOf b
  unlockStripe (placeWrite s pl.slot pl.u (xorPlaces s pl.u ((List.range 8).filter fun k => decide (k ≠ pl.slot)))) b

/-- The NVMe reads of a fill complete. A member rebuilt although its slot is readable is written back to it. -/
def fillReads (s : State) (b : Nat) : State :=
  let pl := placeOf b
  let fix := !ownRead s b && slotReadable s pl.slot (blockCluster b) pl.t && decide (lbaOf s b ≠ 0)
  let s := (s.ios.filter fun i => decide (i.block = b) && decide (i.kind = .fillRead)).foldl (fun s i => ioGood s i.slot) s
  fillDone (if fix then repairMember s b else s) b

/-- A read of a fill fails: the block is rebuilt from the other seven, or the rebuild has failed as well (R112). -/
def fillReadFailed (s : State) (b : Nat) : State :=
  if ownRead s b && decide ((stripeMissing s b).length = 0) then rebuildReads (endIos s b .fillRead) b else fillFailed s b

/-! ### Write-back (R104, R113, R117) -/

/-- A read of a write-back's old contents fails: the new parity comes from the other six members instead; where those cannot be
read the write-back starts again (R112, R113). -/
def oldReadFailed (s : State) (b : Nat) : State :=
  let pl := placeOf b
  let others := (List.range 8).filter fun k => decide (k ≠ pl.slot) && decide (k ≠ pl.parity)
  let first := s.ios.any fun i => decide (i.block = b) && decide (i.kind = .oldRead) && !others.contains i.slot.val
  if first && (stripeMissing s b).isEmpty then
    others.foldl (fun s k => issueIo s k .oldRead b (.read (2 * pl.u) 2)) (endIos s b .oldRead)
  else redoEvictions s [b]

/-- Free frame space, the space that write-backs in progress will free included. -/
def freeSoon (s : State) (c : Nat) : Nat :=
  freeUnits s c + unitSum ((clusterFrames s c).filter fun f => decide (f.st = .evicting))

/-- Fills of the cluster, or write expansions, wait for a frame. -/
def fillWaits (s : State) (c : Nat) : Bool :=
  (clusterFrames s c).any fun f => if f.st = .filling then !f.placed else decide (f.waiters ≠ [])

/-- A frame above the share of a class under RECLAIM (09 R216). -/
def reclaimed (s : State) (c : Nat) (f : Frame) : Bool :=
  decide (fget s .qosReclaimRunning (16 + f.cls) = 1) && overShare s c f.cls

/-- Bytes of frame space that RECLAIM may release in a pitch over the package (09 R216). -/
def reclaimBudget (s : State) : Nat := fget s .qosCfgReclaimRate 0x20 * pitchUs s * 1000

/-- A frame that RECLAIM alone releases counts against its rate. -/
def reclaimCounts (s : State) (all : Bool) (f : Frame) : State :=
  if all then s else { s with tier := { s.tier with reclaimed := s.tier.reclaimed + 64 * f.units } }

/-- The tier agent of a cluster takes its next victim: below FREE_LOW until FREE_HIGH, for a fill that waits, for a
class under RECLAIM, and for every DIRTY frame in descent (R104; 09 R216; 13 Table 13.2). -/
def takeVictim (s : State) (c : Nat) : State :=
  let s := if belowMark (freeUnits s c) (fget s .tierCfgFreeLow 0x10) then { s with draining := ins s.draining c } else s
  if s.power.entering = 4 then
    match (clusterFrames s c).find? fun f => decide (f.st = .dirty) && mayWriteBack s f.block with
    | some f => startWriteBack s f.block
    | none => s
  else
    let s := if belowMark (freeSoon s c) (fget s .tierCfgFreeHigh 0x10) then s else { s with draining := rem s.draining c }
    let all := s.draining.contains c || fillWaits s c
    let rate := decide (s.tier.reclaimed < reclaimBudget s)
    match victimOf s c fun f => (all || (rate && reclaimed s c f)) && (decide (f.st = .clean) || mayWriteBack s f.block) with
    | some f =>
      let s := reclaimCounts s all f
      if f.st = .clean then retryFills (freeFrame s f.block) c else startWriteBack s f.block
    | none => s

/-- The writes of a write-back complete. -/
def evictionDone (s : State) (b : Nat) : State :=
  let ks : List Slot := (s.ios.filter fun i => decide (i.block = b) &&
    decide (i.kind = .oldRead ∨ i.kind = .writeData ∨ i.kind = .writeParity)).map (·.slot)
  let s := ks.foldl (fun s k => ioGood s k) s
  let s := retryFills (writeBackDone s b) (blockCluster b)
  ks.foldl removalGoesOn s

/-! ### Rebuild (R122, R123) -/

/-- Slots that are being rebuilt. -/
def rebuilding (s : State) : List Nat := (List.range 8).filter fun k => decide (slotSt s k = slRebuilding)

/-- The stripe from which a cluster still rebuilds. -/
def rebuildLo (s : State) (c : Nat) : Nat :=
  match (rebuilding s).map fun k => rebuildCursor s k c with
  | [] => 0
  | t :: ts => ts.foldl min t

/-- A stripe with content on Scree, at or above a number, in a cluster. -/
def stripesLeft (s : State) (c lo : Nat) : List Nat :=
  ((s.lbaMap.filter fun e => decide (blockCluster e.1 = c) && decide (lo ≤ (placeOf e.1).t)).map fun e => (placeOf e.1).t)

/-- The next stripe of a cluster that the rebuild writes; none when the cluster is done. -/
def nextStripe (s : State) (c : Nat) : Option Nat :=
  match stripesLeft s c (rebuildLo s c) with
  | [] => none
  | t :: ts => some (ts.foldl min t)

/-- A rebuild runs once every slot holds a member again. -/
def startRebuild (s : State) : State :=
  match rebuilding s with
  | [] => s
  | k :: _ => if (List.range 8).all (isMember s) then fset (fset s .tierRebuildSlot k 0x10) .tierRebuildActive 1 0x10 else s

/-- A resident frame gives a missing member: it is CLEAN, or kept after a second loss. -/
def frameGives (s : State) (b : Nat) : Bool :=
  match frameOf s b with
  | some f => decide (f.st = .clean) || f.stuck
  | none => false

/-- Content of one data place of a stripe for a rebuild: the surviving member, the resident frame, the XOR of the others, or
zeroes where two members are gone. -/
def placeFor (s : State) (b : Nat) (missing : List Nat) : List Byte :=
  let pl := placeOf b
  if !missing.contains pl.slot then placeBytes s pl.slot pl.u
  else if frameGives s b then padBlock (formBytes s b)
  else if 2 ≤ missing.length then List.replicate 8192 0
  else xorPlaces s pl.u ((List.range 8).filter fun k => decide (k ≠ pl.slot))

/-- The places of a stripe as a rebuild has them: the data places by block, and the parity. -/
def stripeImage (s : State) (b0 : Nat) : List (Nat × List Byte) × List Byte :=
  let missing := stripeMissing s b0
  let data := (stripeBlocks b0).map fun b => (b, placeFor s b missing)
  (data, data.foldl (fun acc x => xorBytes acc x.2) (List.replicate 8192 0))

/-- Places of a stripe that a rebuild writes: the missing members, and the parity where two members are gone (R123). -/
def rebuildPlaces (s : State) (b0 : Nat) : List (Nat × List Byte) :=
  let missing := stripeMissing s b0
  let (data, par) := stripeImage s b0
  let pq := (placeOf b0).parity
  ((data.filter fun x => missing.contains (placeOf x.1).slot).map fun x => ((placeOf x.1).slot, x.2)) ++
    (if missing.contains pq || decide (2 ≤ missing.length) then [(pq, par)] else [])

/-- A rebuilt stripe is complete: its places hold what was written, the frames that a second loss held are as others again, the
cluster's cursor passes it and it is unlocked. The LBA map stays: LOST blocks stay LOST (R123). -/
def stripeDone (s : State) (b0 : Nat) : State :=
  let c := blockCluster b0
  let t := (placeOf b0).t
  let u := (placeOf b0).u
  let places := rebuildPlaces s b0
  let s := places.foldl (fun s x => placeWrite s x.1 u x.2) s
  let s := (stripeBlocks b0).foldl (fun s b => frameMap s b fun f => { f with stuck := false }) s
  let s := { s with rebuild := (rebuilding s).foldl (fun m k => aset m (c * 8 + k) (max (aget m (c * 8 + k) 0) (t + 1))) s.rebuild }
  unlockStripe (endIosIf s fun i => decide (i.block = b0) && decide (i.kind = .rebuildRead ∨ i.kind = .rebuildWrite)) b0

/-- Write the LBAs of a place on a freshly deallocated member that hold anything. -/
def writeFresh (s : State) (k b0 : Nat) (bs : List Byte) : State :=
  let u := 2 * (placeOf b0).u
  match lbaZero bs 0, lbaZero bs 1 with
  | false, false => issueIo s k .rebuildWrite b0 (.write u 2)
  | false, true => issueIo s k .rebuildWrite b0 (.write u 1)
  | true, false => issueIo s k .rebuildWrite b0 (.write (u + 1) 1)
  | true, true => s

/-- The members of a stripe are read: the writes of its rebuild are issued; with nothing to write it is complete. -/
def stripeWrites (s : State) (b0 : Nat) : State :=
  let missing := stripeMissing s b0
  let places := rebuildPlaces s b0
  let s := endIos s b0 .rebuildRead
  let s := places.foldl (fun s x =>
    if missing.contains x.1 then writeFresh s x.1 b0 x.2 else writePlace s x.1 .rebuildWrite b0 x.2) s
  if s.ios.any fun i => decide (i.block = b0) && decide (i.kind = .rebuildWrite) then s else stripeDone s b0

/-- Bytes that RATE allows in a pitch. -/
def rebuildBudget (s : State) : Nat := fget s .tierRebuildRate 0x10 * 10 * pitchCycles s

/-- The next stripe of a cluster begins, if its turn has come: it is locked, and the members that remain are read, unless the
missing ones lie CLEAN in frames. -/
def rebuildBegin (s : State) (c : Nat) : State :=
  if decide (fget s .tierRebuildActive 0x10 = 1) && (rebuilding s).all (fun k => (slotOf s k).deallocated) &&
      !(rebuildsNow s).any (fun b => decide (blockCluster b = c)) && decide (s.tier.rebuilt < rebuildBudget s) then
    match nextStripe s c with
    | none => s
    | some t =>
      let b0 := blockOfLocal c (7 * t)
      if stripeLocked s b0 then s
      else
        let missing := stripeMissing s b0
        let pl := placeOf b0
        let s := lockStripe { s with tier := { s.tier with rebuilt := s.tier.rebuilt + 8192 * missing.length } } b0
        let held := (stripeBlocks b0).all fun b => !missing.contains (placeOf b).slot || frameGives s b
        if held && !missing.contains pl.parity && decide (missing.length ≤ 1) then stripeWrites s b0
        else ((List.range 8).filter fun k => !missing.contains k).foldl
          (fun s k => issueIo s k .rebuildRead b0 (.read (2 * pl.u) 2)) s
  else s

/-- A boundary of the rebuild: what RATE allows in the pitch is new, and clusters that wait go on, the lowest number first. The
spec fixes the order within a cluster only (DESIGN CHOICE, log 83). -/
def rebuildTick (s : State) : State :=
  if fget s .tierRebuildActive 0x10 = 1 then
    (List.range 256).foldl rebuildBegin { s with tier := { s.tier with rebuilt := s.tier.rebuilt - rebuildBudget s } }
  else s

/-- The writes of a cluster's stripe are done, and its next stripe begins. -/
def rebuildStep (s : State) (c : Nat) : State :=
  match (rebuildsNow s).find? fun b => decide (blockCluster b = c) with
  | none => s
  | some b0 =>
    let ks : List Slot := (s.ios.filter fun i => decide (i.block = b0) &&
      decide (i.kind = .rebuildRead ∨ i.kind = .rebuildWrite)).map (·.slot)
    rebuildBegin (stripeDone (ks.foldl (fun s k => ioGood s k) s) b0) c

/-- Every cluster has rebuilt its stripes. -/
def rebuildOver (s : State) : Bool :=
  decide (fget s .tierRebuildActive 0x10 = 1) && (rebuildsNow s).isEmpty && (List.range 256).all fun c => (nextStripe s c).isNone

/-- The rebuild ends. -/
def endRebuild (s : State) : State :=
  let s := (rebuilding s).foldl (fun s k => setPwrInd (setSlot s k slInService) k indOn) s
  let s := { fset s .tierRebuildActive 0 0x10 with rebuild := [] }
  raise (setDegraded s false) .tierRebuildDone 0x10

/-! ### Timeouts (R112, R121) -/

/-- A command exceeds IO_TIMEOUT and is aborted; two in a row fail the SSD. Deallocations and parity updates of discards are
issued again. -/
def ioTimedOut (s : State) (io : Io) : State :=
  let k := io.slot
  let s := emit (finc s .tierSlotIoTimeouts (slotInst k)) (.nvme k io.path (.abort io.num))
  let run := (slotOf s k).timeoutRun + 1
  let s := slotUpd s k fun x => { x with timeoutRun := run }
  let s := match io.kind with
    | .fillRead => fillReadFailed s io.block
    | .oldRead => oldReadFailed s io.block
    | .deallocate | .parityFix | .deallocateAll => issueIo (ioDrop s io) k io.kind io.block io.op
    | kind => ioLost (ioDrop s io) kind io.block
  removalGoesOn (if 2 ≤ run then failSsd s k 0x04 else s) k

/-! ### Admission (R115 to R117, R122) -/

/-- Counted capacity in 2 MiB units: the size of NSID 1, rounded down, at most 64 TiB (R117). -/
def countedOf (i : SsdInfo) : Nat := min (i.lbas / 512) 33554432

/-- An SSD meets every requirement of Table 5.6. -/
def ssdMeets (i : SsdInfo) : Bool :=
  i.e3s && i.multiPort && i.multiController && i.sharedNamespace && decide (i.lanes = 2) && decide (0 < i.rate) &&
    decide (i.rate ≤ 64) && i.nsid1 && decide (i.lbaBytes = 4096) && decide (i.metadataBytes = 0) && i.deallocatedZero &&
    decide (16 ≤ i.queuePairs) && decide (256 ≤ i.queueDepth) &&
    (match i.mdts with
      | some n => decide (8192 ≤ n)
      | none => true) && decide (2 ^ 40 ≤ i.lbas * 4096)

/-- An SSD is not admitted: it is treated as absent. -/
def refuseSsd (s : State) (k : Slot) (code : Nat) : State :=
  raise (setSlot (setFault (unpowerSlot s k) k code) k slOff) .tierNotAdmitted (slotInst k) none (leBytes 1 code)

/-- An SSD that meets the requirements is admitted: its controllers are initialised, its namespace is deallocated, and it serves,
or is rebuilt where the set has lacked a member since capacity was fixed. -/
def admitSsd (s : State) (k : Slot) (n : Nat) : State :=
  let a := ssdKey k 0
  let s := { s with ssd := Memory.zero s.ssd a (a + 2 ^ 46) }
  let s := slotUpd s k fun x => { x with counted := n, deallocated := false }
  let s := initController (initController s k .a) k .b
  let s := setFault (issueIo s k .deallocateAll (k * 32768) .deallocateAll) k 0
  if s.tier.inUse ≠ 0 then startRebuild (setPwrInd (setSlot s k slRebuilding) k indBlink)
  else setPwrInd (setSlot s k slInService) k indOn

/-- Identify and the checks of Table 5.6, once reset is released; a path is up unless its port die is lost (01 R11). -/
def checkSsd (s : State) (k : Slot) (i : SsdInfo) : State :=
  let s := emit s (.pin (.slotResetRelease k))
  let up := fun (p : Path) => if s.portDiesOut.contains (pathDie k p) then 0 else 1
  let s := fset (fset s .tierSlotStatusPathAUp (up .a) (slotInst k)) .tierSlotStatusPathBUp (up .b) (slotInst k)
  let s := identify (identify s k .a) k .b
  if !ssdMeets i then refuseSsd s k 0x02
  else if countedOf i < s.tier.inUse then refuseSsd s k 0x03
  else admitSsd s k (countedOf i)

/-! ### Presence, buttons (R125, R126) -/

/-- PRSNT# asserts. -/
def insertSsd (s : State) (k : Slot) : State :=
  if fget s .tierSlotStatusPresent (slotInst k) = 1 then s
  else
    let s := fset s .tierSlotStatusPresent 1 (slotInst k)
    let s := fset (setFault s k 0) .tierSlotStatusState slOff (slotInst k)
    slotChange (slotUpd s k fun x => { x with debouncing := true, buttonWait := none }) k

/-- The debounce ends. Where slots have no power to give, the SSD stays unpowered: with TIERED = 0 for good (00 R4). -/
def debounceEnd (s : State) (k : Slot) : State :=
  if (slotOf s k).debouncing then
    let s := slotUpd s k fun x => { x with debouncing := false }
    if slotsOn s && decide (fget s .tierSlotCtrlAutoPower (slotInst k) = 1) then powerSlot s k else s
  else s

/-- Another slot is missing, failed or rebuilding. -/
def othersMissing (s : State) (k : Nat) : Bool := (List.range 8).any fun i => decide (i ≠ k) && decide (slotSt s i ≠ slInService)

/-- A press of the attention button, or a write of SLOT_CTRL.BUTTON. -/
def pressButton (s : State) (k : Slot) : State :=
  let s := raise s .tierButton (slotInst k)
  match (slotOf s k).buttonWait with
  | some on => setPwrInd (slotUpd s k fun x => { x with buttonWait := none }) k (if on then indOff else indOn)
  | none =>
    if slotSt s k = slInService then
      if othersMissing s k then raise s .tierRemoveRefused (slotInst k)
      else setPwrInd (slotUpd s k fun x => { x with buttonWait := some false }) k indBlink
    else if slotsOn s ∧ slotSt s k = slOff ∧ fget s .tierSlotStatusPresent (slotInst k) = 1 ∧ !(slotOf s k).debouncing then
      setPwrInd (slotUpd s k fun x => { x with buttonWait := some true }) k indBlink
    else s

/-- The 5 s end uncancelled. -/
def buttonEnd (s : State) (k : Slot) : State :=
  match (slotOf s k).buttonWait with
  | some true =>
    if slotsOn s then powerSlot s k else setPwrInd (slotUpd s k fun x => { x with buttonWait := none }) k indOff
  | some false =>
    let s := slotUpd s k fun x => { x with buttonWait := none }
    removalGoesOn (setSlot s k slRemoving) k
  | none => s

/-! ### Paths (R120) -/

/-- A write issued on a lost path keeps its stripe locked for IO_TIMEOUT. -/
def lockLate (s : State) (b : Nat) : State :=
  lockMap (if stripeLocked s b then s else lockStripe s b) b fun l => { l with late := true }

/-- A path is lost: its commands go to the other one, and stripes with a write on it stay locked. -/
def losePath (s : State) (k : Slot) (p : Path) : State :=
  if pathUp s k p then
    let s := fset s (pathFld p) 0 (slotInst k)
    let s := raise s .tierPathLost (slotInst k) none (leBytes 1 (match p with | .a => 0 | .b => 1))
    let s := (s.ios.filter fun i => decide (i.slot = k) && decide (i.path = p) && !i.held && writeKind i.kind).foldl
      (fun s i => lockLate s i.block) s
    if pathUp s k (otherPath p) then reissue s k (fun i => decide (i.path = p)) (otherPath p) else s
  else s

/-- A path returns: its controller is initialised, and commands that waited for a path are issued on it. -/
def returnPath (s : State) (k : Slot) (p : Path) : State :=
  let both := !pathUp s k .a && !pathUp s k .b
  let s := fset s (pathFld p) 1 (slotInst k)
  let s := initController (nvmeOn s k p .identifyController) k p
  if both then reissue s k (fun _ => true) p else s

/-- IO_TIMEOUT has passed since a path loss: the stripe is unlocked, unless something still works on it. -/
def lockExpiry (s : State) (c t : Nat) : State :=
  let b0 := blockOfLocal c (7 * t)
  let s := { s with locks := s.locks.map fun l => if l.c = c ∧ l.t = t then { l with late := false } else l }
  if stripeBusy s b0 then s else unlockStripe s b0

/-! ### The compactor (06 R149 to R152) -/

/-- The block leaves the compactor's queue. -/
def compactEnd (s : State) (b : Nat) : State := { s with compactQ := rem s.compactQ b, stale := rem s.stale b }

/-- A residual table goes into a slot of the block's segment that holds none or that no block names (R152). -/
def putTable (s : State) (b : Nat) (table : Option (Bool × List Nat)) : State :=
  match table with
  | none => s
  | some (slot, lens) =>
    let g := segHdr s b
    if tableValid lens && ((segTable g slot).isNone || decide ((if slot then g.use1 else g.use0) = 0)) then
      let g := if slot then { g with table1 := some lens } else { g with table0 := some lens }
      { s with segs := aset s.segs (segOf b) (segSeal (segNamed s b g)) }
    else s

/-- The 8,192 bytes of a block as it stands; none where a line cannot be read or it is damaged. -/
def compactSource (s : State) (b : Nat) : State × Option (List Byte) :=
  if ahas s.damaged b then (s, none)
  else if isCoded s b then
    match decodeBlock s b 3 with
    | (s, .ok bs _ _) => (s, some bs)
    | (s, .damaged _) => (s, none)
  else
    match readForm s b 8192 3 with
    | (s, true) => (s, some (Memory.read s.mem (blockDpa b) 8192))
    | (s, false) => (s, none)

/-- What the expander makes of a candidate. -/
def candidateOf (s : State) (b kind : Nat) (form : List Byte) : Decoded :=
  let (elem, tile) := descOfBlock s b
  if kind = 1 then (if form.isEmpty then .ok (List.replicate 8192 0) 0 [] else .damaged causeIndex)
  else decodeForm kind form.length (slotOfForm form) elem tile (segOf b) (segHdr s b) form

/-- The verification of a candidate against the source it was made from (R151, step 1): none where they differ, else whether
the admission rule holds; kind 0 stands for a block that the compactor stores RAW (R150). -/
def verdictOf (s : State) (b : Nat) (source : List Byte) (kind : Nat) (form : List Byte) : State × Option Bool :=
  if kind = 0 then (s, some false)
  else match candidateOf s b kind form with
    | .ok out rank esc =>
      let elem := (descOfBlock s b).1
      let s := expanded s b kind elem rank esc
      (s, if out = source then some (admitted kind elem form.length rank esc (fget s .cmpCfgCostMax)) else none)
    | .damaged _ => (s, none)

/-- A candidate fails its verification: it is discarded, counted and recorded. -/
def verifyFailed (s : State) (b : Nat) : State := raise (finc s .cmpCompactFaultsVerifyFail) .cmpVerifyFail 0 none (leBytes 8 b)

/-- The stored form, the index entry, CODED and USE change as one, and the form takes its packed place (R147, R151). -/
def storeForm (s : State) (b kind : Nat) (form : List Byte) : State :=
  let h := readHeader form
  let slot := decide (2 ≤ kind) && slotOfForm form
  let s := packFrame (putBlock (makeRaw s b) b form) b (ceilDiv form.length 64)
  let s := setIdx s b kind (if kind = 4 then h.rank else 0) form.length (decide (kind ≠ 2) && slot)
  let s := if 2 ≤ kind then segMark s b slot true else s
  dirtied (finc s .cmpCompactionAdmitted) b

/-- A block that the admission rule fails is stored RAW, in a raw frame where it was coded. -/
def storeRaw (s : State) (b : Nat) : State := finc (expandBlock s b) .cmpCompactionStoredRaw

/-- The block is at rest in Basecamp: resident, and neither filled nor written back (R149). -/
def atRest (s : State) (b : Nat) : Bool :=
  !s.boot.tiered || (match frameOf s b with
    | some f => decide (f.st = .clean ∨ f.st = .dirty) && f.waiters.isEmpty
    | none => false)

/-- Commit a candidate of the compactor (R150, R151): a block that has left Basecamp is dropped, a candidate that fails its
verification or whose block was written since is discarded; with no source the block is expanded (07 R176). -/
def commitForm (s : State) (b : Nat) (source : List Byte) (kind : Nat) (form : List Byte) (table : Option (Bool × List Nat)) :
    State :=
  if source.isEmpty then expandBlock s b
  else if !atRest s b then compactEnd s b
  else
    match verdictOf (putTable s b table) b source kind form with
    | (s, none) => compactEnd (verifyFailed s b) b
    | (s, some coded) =>
      if s.stale.contains b then compactEnd (finc s .cmpCompactFaultsStale) b
      else match compactSource s b with
        | (s, none) => compactEnd s b
        | (s, some bs) =>
          compactEnd (if bs ≠ source then finc s .cmpCompactFaultsStale
            else if coded then storeForm s b kind form else storeRaw s b) b

/-- The block may be compacted now: resident, at rest, its home serves, and no fixed-place period runs (R147, R149). -/
def mayCompact (s : State) (b : Nat) : Bool :=
  mayCode s b && !secondUp s && !(s.boot.tiered && fixedPlace s) &&
    (s.compactQ.contains b || decide (fget s .cmpCfgBgEn = 1)) && decide (homeSt s (blockDpa b) = .serve) &&
    !(pcOf s (pcOfAddr (blockDpa b))).partials.any (fun r => decide (blockOf r.dpa = b)) && atRest s b

/-- COMPACTOR_COMMIT's effect, on a candidate made from the 8,192 bytes given; in a pair the lead verifies it and the commit
goes through the journal (R149). -/
def compactCommit (s : State) (b : Nat) (source : List Byte) (kind : Nat) (form : List Byte)
    (table : Option (Bool × List Nat)) : State :=
  if mayCompact s b && decide (source.length = 8192) then
    if twinUp s then
      match verdictOf (putTable s b table) b source kind form with
      | (s, none) => compactEnd (verifyFailed s b) b
      | (s, some _) => journalSend s (.blockForm b source kind form table)
    else commitForm s b source kind form table
  else s

/-! ### Meanings -/

/-- The NVMe reads for a block complete. -/
def readsDone (s : State) (kind : IoKind) (b : Nat) : State :=
  match kind with
  | .oldRead => writesGo s b
  | .rebuildRead => stripeWrites s b
  | _ => fillReads s b

/-- An NVMe read for a block ends with error status. -/
def readsFailed (s : State) (kind : IoKind) (b : Nat) : State :=
  match kind with
  | .oldRead => oldReadFailed s b
  | .rebuildRead => stopStripe s b
  | _ => fillReadFailed s b

/-- The outstanding read for a block, that of a fill first. -/
def readsOf (s : State) (b : Nat) : Option Io :=
  let of := fun (k : IoKind) => s.ios.find? fun i => decide (i.block = b) && decide (i.kind = k)
  of .fillRead <|> of .oldRead <|> of .rebuildRead

/-- A command completed with error status: it is counted, and the controller's error log is read (Tables 5.7, 5.10). -/
def readError (s : State) (i : Io) : State := nvmeOn (finc s .tierSlotIoErrors (slotInst i.slot)) i.slot i.path .getErrorLog

/-- FILL_COMPLETE (05 R111): the NVMe reads of a fill, of a write-back's old contents or of a stripe's rebuild complete. -/
def execFillComplete (block : Nat) (ok : Bool) (s : State) : Host.Outcome State Fault Refusal :=
  .next (match readsOf s block with
    | some i => if ok then readsDone s i.kind block else readsFailed (readError s i) i.kind block
    | none => s)

/-- IO_TIMEOUT (05 R112). -/
def execIoTimeout (slot : Slot) (cmd : Nat) (s : State) : Host.Outcome State Fault Refusal :=
  .next (match ioOf s slot cmd with
    | some io => ioTimedOut s io
    | none => s)

/-- EVICTION_START (05 R113). -/
def execEvictionStart (c : Cluster) (s : State) : Host.Outcome State Fault Refusal := .next (takeVictim s c)

/-- EVICTION_COMPLETE (05 R113). -/
def execEvictionComplete (block : Nat) (s : State) : Host.Outcome State Fault Refusal := .next (evictionDone s block)

/-- SSD_INSERT (05 R125). -/
def execSsdInsert (slot : Slot) (s : State) : Host.Outcome State Fault Refusal := .next (insertSsd s slot)

/-- SLOT_DEBOUNCE_END (05 R125). -/
def execSlotDebounceEnd (slot : Slot) (s : State) : Host.Outcome State Fault Refusal := .next (debounceEnd s slot)

/-- PWRGD_ASSERTED (05 R125). -/
def execPwrgdAsserted (slot : Slot) (s : State) : Host.Outcome State Fault Refusal :=
  .next (if slotSt s slot = slPowering then
    setSlot (fset s .tierSlotStatusPwrgd 1 (slotInst slot)) slot slAdmitting else s)

/-- POWER_FAULT (05 R125). -/
def execPowerFault (slot : Slot) (s : State) : Host.Outcome State Fault Refusal :=
  .next (if slotSt s slot = slPowering then
    raise (setSlot (setFault (unpowerSlot s slot) slot 0x01) slot slOff) .tierPowerFault
      (slotInst slot)
   else s)

/-- SSD_ADMIT (05 R115). -/
def execSsdAdmit (slot : Slot) (info : SsdInfo) (s : State) : Host.Outcome State Fault Refusal :=
  .next (if slotSt s slot = slAdmitting then checkSsd s slot info else s)

/-- ATTN_BUTTON (05 R126). -/
def execAttnButton (slot : Slot) (s : State) : Host.Outcome State Fault Refusal := .next (pressButton s slot)

/-- BUTTON_WAIT_END (05 R126). -/
def execButtonWaitEnd (slot : Slot) (s : State) : Host.Outcome State Fault Refusal := .next (buttonEnd s slot)

/-- SSD_FAIL (05 R121). -/
def execSsdFail (slot : Slot) (cause : SsdFailCause) (s : State) : Host.Outcome State Fault Refusal :=
  .next (match cause with
    | .removal =>
      if fget s .tierSlotStatusPresent (slotInst slot) = 1 then
        let s := fset s .tierSlotStatusPresent 0 (slotInst slot)
        let s := slotUpd s slot fun x => { x with debouncing := false }
        if fget s .tierSlotStatusPwrEn (slotInst slot) = 1 then slotChange (failSsd s slot 0x07) slot
        else slotChange (fset s .tierSlotStatusState slEmpty (slotInst slot)) slot
      else s
    | .timeouts => if isMember s slot then failSsd s slot 0x04 else s
    | .critical => if isMember s slot then failSsd s slot 0x05 else s
    | .paths => if isMember s slot then failSsd s slot 0x06 else s)

/-- SSD_ASYNC_EVENT (05 R121): the health log is read and the next event is asked for; a critical warning for reliability or
read-only mode fails the SSD. -/
def execSsdAsyncEvent (slot : Slot) (reliability readOnly : Bool) (s : State) : Host.Outcome State Fault Refusal :=
  .next (if isMember s slot then
      let p := if pathUp s slot .a then Path.a else .b
      let s := nvmeOn (nvmeOn s slot p .getSmartLog) slot p .asyncEventRequest
      if reliability || readOnly then failSsd s slot 0x05 else s
    else s)

/-- PATH_LOST (05 R120). -/
def execPathLost (slot : Slot) (path : Path) (s : State) : Host.Outcome State Fault Refusal := .next (losePath s slot path)

/-- PATH_RETURN (05 R120). -/
def execPathReturn (slot : Slot) (path : Path) (s : State) : Host.Outcome State Fault Refusal :=
  .next (if fget s .tierSlotStatusPwrgd (slotInst slot) = 1 ∧ isMember s slot ∧
      s.portDiesOut.contains (pathDie slot path) = false then returnPath s slot path else s)

/-- PATHS_DOWN_TIMEOUT (05 R120). -/
def execPathsDownTimeout (slot : Slot) (s : State) : Host.Outcome State Fault Refusal :=
  .next (if isMember s slot && !pathUp s slot .a && !pathUp s slot .b then failSsd s slot 0x06 else s)

/-- STRIPE_LOCK_EXPIRY (05 R120). -/
def execStripeLockExpiry (c : Cluster) (stripe : Nat) (s : State) : Host.Outcome State Fault Refusal :=
  .next (lockExpiry s c stripe)

/-- DEALLOCATE_COMPLETE (05 R117): an outstanding command that is no read of a block and no write of a write-back or a rebuild
completes. -/
def execDeallocateComplete (slot : Slot) (cmd : Nat) (s : State) : Host.Outcome State Fault Refusal :=
  .next (match ioOf s slot cmd with
    | some io =>
      match io.kind with
      | .deallocateAll =>
        let s := slotUpd (ioGood (ioDrop s io) slot) slot fun x => { x with deallocated := true }
        removalGoesOn ((List.range 256).foldl rebuildBegin s) slot
      | .repair => removalGoesOn (repairDone (ioGood (ioDrop s io) slot) io.block) slot
      | .deallocate | .parityFix => sanSettle (removalGoesOn (ioGood (ioDrop s io) slot) slot)
      | _ => s
    | none => s)

/-- REBUILD_WRITE_COMPLETE (05 R122). -/
def execRebuildWriteComplete (c : Cluster) (s : State) : Host.Outcome State Fault Refusal :=
  .next (if fget s .tierRebuildActive 0x10 = 1 then rebuildStep s c else s)

/-- REBUILD_DONE (05 R122). -/
def execRebuildDone (s : State) : Host.Outcome State Fault Refusal := .next (if rebuildOver s then endRebuild s else s)

/-- BLOCK_DECODE (06 R144): the expander completes a block, and its decoded form enters the cache. -/
def execBlockDecode (block : Nat) (s : State) : Host.Outcome State Fault Refusal :=
  .next (if homeSt s (blockDpa block) = .serve then decodeNext s block else s)

/-- COMPACTOR_COMMIT (06 R151). -/
def execCompactorCommit (block : Nat) (kind : Nat) (form : Candidate) (table : Option (Bool × List Nat)) (s : State) :
    Host.Outcome State Fault Refusal :=
  .next (compactCommit s block form.source kind form.form table)

end Sys2Proof.Machine
end

