-- ==== Sys2Proof/Machine/Qos.lean ====
section
/-! DEFINITION. Guarantees, class shares and RECLAIM (09 R207, R212, R215 to R217), and what boundary action 2 does with
them (R208, R210; Table 9.3). -/

namespace Sys2Proof.Machine

open Sys2Proof

/-- QOS instances: the device, and a class. -/
def qosDev : Nat := 0x20
def qosCls (c : Nat) : Nat := 16 + c

/-! ### Guarantees (R207, R217) -/

/-- Sum of the guarantees written. -/
def guarSum (s : State) : Nat := ((List.range 16).map fun p => fget s .qosGuarGbS p).sum

/-- Sum of the guarantees in force. -/
def guarSumActive (s : State) : Nat := ((List.range 16).map fun p => fget s .qosGuarGbSActive p).sum

/-- A guarantee keeps the sum rule. -/
def guarOk (s : State) (p v : Nat) : Bool := decide (guarSum s - fget s .qosGuarGbS p + v ≤ Config.guaranteeSum)

/-- A write of GB_S. -/
def setGuar (s : State) (p v : Nat) : State :=
  if guarOk s p v then fset s .qosGuarGbS v p else raise s .qosGuarRefused qosDev none (leBytes 1 p ++ leBytes 2 v)

/-- GB_S of an allocated fraction of 255, and the fraction of GB_S (R217). -/
def gbsOfFraction (f : Nat) : Nat := f * Config.guaranteeSum / 255
def fractionOfGbs (g : Nat) : Nat := g * 255 / Config.guaranteeSum

/-! ### RECLAIM (R216) -/

/-- Cache entries of a class beyond its ways are dropped, least recently used first. -/
def trimCache (s : State) (cls : Nat) : State :=
  let ways := fcur s .qosClassCfgCacheWays (qosCls cls)
  let newer := fun (seen : List CacheEntry) (e : CacheEntry) =>
    (seen.filter fun x => decide (x.cls = cls) && cacheMates x.block e.block).length
  { s with cache := (s.cache.foldl (fun seen e => if e.cls = cls ∧ ways ≤ newer seen e then seen else e :: seen) []).reverse }

/-- A write of RECLAIM.START. -/
def setReclaim (s : State) (cls : Nat) (on : Bool) : State :=
  let i := qosCls cls
  if on then
    if s.boot.tiered then
      { fset (fset (trimCache s cls) .qosReclaimStart 1 i) .qosReclaimRunning 1 i with
        qos := { s.qos with stopping := rem s.qos.stopping cls } }
    else s
  else if fget s .qosReclaimRunning i = 1 then { s with qos := { s.qos with stopping := ins s.qos.stopping cls } }
  else s

/-- Every cluster holds the class at or below its share, skipped frames apart. -/
def reclaimOver (s : State) (cls : Nat) : Bool :=
  decide (fget s .qosReclaimRunning (qosCls cls) = 1) && (List.range 256).all fun c => !overShare s c cls ||
    (clusterFrames s c).all fun f => decide (f.cls ≠ cls) || !(evictable s f || decide (f.st = .evicting))

/-- RECLAIM ends, or stops. -/
def endReclaim (s : State) (cls : Nat) : State :=
  fset (fset s .qosReclaimStart 0 (qosCls cls)) .qosReclaimRunning 0 (qosCls cls)

/-! ### Boundary action 2 -/

/-- Settings written take effect (R215). -/
def activateGuar (s : State) (p : Nat) : State := fset s .qosGuarGbSActive (fget s .qosGuarGbS p) p
def activateBudget (s : State) (cls : Nat) : State :=
  fset s .qosClassCfgBudgetActive (fget s .qosClassCfgBudget (qosCls cls)) (qosCls cls)
def activateMode (s : State) : State := { s with qos := { s.qos with mode := fget s .qosCfgMode qosDev } }

/-- Settings written take effect, each of them; in a pair only as their journal entries are applied (R218). -/
def activateQos (s : State) : State :=
  if twinUp s then s
  else fcatch (activateMode ((List.range 16).foldl (fun s k => activateBudget (activateGuar s k) k) s)) fun f =>
    decide (f.desc.blk = .qos)

/-- The clusters at which a partition or class moved or offered bytes in this pitch. -/
def keysOf (m : Assoc Nat Nat) (k : Nat) : List Nat := (m.filter fun e => decide (e.1 % 16 = k)).map fun e => e.1 / 16

/-- The cluster honours credits: it is in service and none of its PCs is frozen or failed (R210; 10 R236). -/
def honours (s : State) (c : Nat) : Bool :=
  !clusterOut s c && (List.range 4).all fun i => decide (pcSt s (c * 4 + i) ≠ pcFrozen ∧ pcSt s (c * 4 + i) ≠ pcFailed)

/-- The partition offered its credit at a cluster that honours it and moved less than 98 % of it (R210). -/
def shortAt (s : State) (p c : Nat) : Bool :=
  let cr := creditOf s c p
  honours s c && decide (cr ≤ aget s.qos.offered (qKey c p) 0) && decide (aget s.qos.used (qKey c p) 0 * 100 < cr * 98)

/-- The ended pitch of a partition is counted. -/
def countPart (s : State) (p : Nat) : State :=
  let s := if (keysOf s.qos.used p).any fun c => decide (creditOf s c p < aget s.qos.used (qKey c p) 0) then
    fwrap s .qosPitchesPitchesOver p else s
  let short := (keysOf s.qos.offered p).filter (shortAt s p)
  let s := if short.isEmpty then s else fwrap s .qosPitchesPitchesShort p
  if short.any fun c => decide (throttleQuarters s c = 4) then raise s .qosGuarMissed p else s

/-- The ended pitch of a class is counted. -/
def countClass (s : State) (k : Nat) : State :=
  if (keysOf s.qos.clsUsed k).any fun c => classOver s c k then fwrap s .qosPitchesPitchesOver (qosCls k) else s

/-- Class that holds most entries of a PC, the lowest number on ties. -/
def topClass (s : State) (pc : Nat) : Nat :=
  (List.range 16).foldl (fun best k => if classEntries s pc best < classEntries s pc k then k else best) 0

/-- Occupancy of the ended pitch: HOT and HOT_PC (Tables 9.3, 9.4). -/
def countHot (s : State) : State :=
  let best := s.pcs.foldl (fun (b : Option (Nat × Nat)) x => match b with
    | some (_, o) => if o < x.2.occSum then some (x.1, x.2.occSum) else b
    | none => if x.2.occSum = 0 then none else some (x.1, x.2.occSum)) none
  let s := match best with
    | some (pc, o) =>
      let s := fset (fset s .qosHotPc (pc % 64) qosDev) .qosHotCluster (pc / 4 % 16) qosDev
      let s := fset (fset s .qosHotDie (pc / 64) qosDev) .qosHotClass (topClass s pc) qosDev
      fset s .qosHotOcc (min 64 (o / pitchCycles s)) qosDev
    | none => fset s .qosHotOcc 0 qosDev
  let hot := s.pcs.filter fun x => decide (48 ≤ x.2.occMin)
  let s := hot.foldl (fun s x => raise s .qosHotPc qosDev none (leBytes 2 x.1)) s
  { s with pcs := s.pcs.map fun x => (x.1, { x.2 with occSum := 0, occMin := x.2.entries.length }) }

/-- No class is over budget in a new pitch: what went at level 2 goes at level 1 (R213, DEMOTE). Budgets of RECLAIM refill (R216). -/
def levelsBack (s : State) : State :=
  let s := { s with pcs := s.pcs.map fun (x : Nat × PcState) =>
    (x.1, { x.2 with entries := x.2.entries.map fun (e : PcEntry) => if e.level = 2 then { e with level := 1 } else e }) }
  { s with tier := { s.tier with reclaimed := s.tier.reclaimed - reclaimBudget s } }

/-- Boundary action 2: the ended pitch is counted, budgets refill, settings take effect (R208, R215). -/
def qosBoundary (s : State) : State :=
  let s := (List.range 16).foldl (fun s k => countClass (countPart s k) k) s
  let s := levelsBack (countHot s)
  let s := s.qos.stopping.foldl endReclaim s
  let last := if s.qos.rsp = 0 then 0 else s.qos.overRsp * 100 / s.qos.rsp
  activateQos { s with qos := { s.qos with used := [], clsUsed := [], offered := [], rsp := 0, overRsp := 0,
                                           lastOver := last, stopping := [] } }

/-! ### Meanings -/

/-- RECLAIM_DONE (09 R216). -/
def execReclaimDone (cls : TaskClass) (s : State) : Host.Outcome State Fault Refusal :=
  .next (if reclaimOver s cls then raise (endReclaim s cls) .qosReclaimDone (qosCls cls) else s)

end Sys2Proof.Machine
end

