-- ==== Sys2Proof/Machine/Cairn.lean ====
section
/-! DEFINITION. Uncorrectable SRAM words (11 R248), the Cairn log's commits and streams (11 R258 to R263), the
management complexes (01 R12), multi-function pins and flow throttling (16 R348 to R351). -/

namespace Sys2Proof.Machine

open Sys2Proof

/-! ### SRAM (R248) -/

/-- The log is declared degraded and its LOG_DEGRADED record goes first (R263). -/
def degradeNow (s : State) (failed : Nat) : State := commitSlot (degradeLog s failed) (srcKey 0x00C0 0)

/-- A step ends before its commit with MEDIA_ERROR. -/
def stepDies (s : State) (p : Part) (ring : Ring) (idx num : Nat) : State :=
  match stepAt s p ring idx num with
  | some x => stepDrop (failJob s p ring idx stMediaError) x
  | none => s

/-- The outcome of an uncorrectable SRAM word by its place (Table 11.1). -/
def sramOutcome (s : State) (site : SramSite) : State :=
  match site with
  | .stepMemory p ring idx step => stepDies s p ring idx step
  | .blockCache b => uncache s b
  | .bufferRead p h dpa =>
    let r : Req := { kind := .read, p := p, src := .host h, dpa := dpa / 64 * 64 }
    if twinUp s then forwardReq s { r with bad := true } [] else answer s r .poison true
  | .metadataCache _ => s
  | .partitionIo p =>
    -- its CXL.io serves nothing until the FLR; its work ends as for Bus Master Enable cleared (DESIGN CHOICE, log 87)
    let s := aerLog s p (headNum ((masterHead s p).getD 0)) .uncorrectableInternal
    cfgUpd (endWork s p haltMaster stMasterOff) p fun c => { c with ioLost := true }
  | .cairnRing inUse => if inUse then degradeNow s 1 else s
  | .spillRing => degradeNow s 2
  | .corrected => aerLog s 16 0 .correctedInternal

/-! ### Cairn (R258, R260, R261) -/

/-- An express record commits; a late commit degrades the log. -/
def expressCommit (s : State) (block inst : Nat) (late : Bool) : State :=
  let k := srcKey block inst
  match s.cairn.slots.find? fun e => decide (e.1 = k) with
  | some e => if expressSev e.2.severity then commitSlot (if late then degradeNow s 0 else s) k else s
  | none => s

/-- A record of the twin. -/
def twinRec (r : TwinRecord) : CRec :=
  { ts := r.timestamp, block := r.block, inst := r.inst, event := r.event, coalesced := r.coalesced,
    severity := r.severity, fromTwin := true, part := r.partition, payload := r.payload }

/-- The link is back: one STREAM_GAP record tells how many records were not streamed. -/
def streamGap (s : State) : State :=
  if s.cairn.unsent = 0 then s
  else raise { s with cairn := { s.cairn with unsent := 0 } } .cairnStreamGap 0 none (leBytes 8 s.cairn.unsent)

/-- A record can still be read: it is in the SRAM ring, or was copied to the spill ring. -/
def readable (s : State) (r : CRec) : Bool :=
  let inRing := decide (fget s .cairnHeadNextSeq ≤ r.seq + ringRecords)
  inRing || !(fget s .cairnStatusFailed).testBit 1

/-- The record shown by READ_SEQ. -/
def shownRec (s : State) : Option CRec :=
  (s.cairn.log.find? fun r => decide (r.seq = fget s .cairnReadSeqSeq)).filter (readable s)

/-- The standby management complex takes over (01 R12). Where the standby's own port die is lost too, the spec gives no
leader; LEADER names the standby all the same (DESIGN CHOICE, log 72). -/
def takeover (s : State) : State := record (fset s .cairnStatusLeader (1 - fget s .cairnStatusLeader)) .complexTakeover

/-! ### Multi-function pins (R348, R349) -/

def pinParked (s : State) (n : Nat) : Bool := (fget s .pinMfpParkingParking).testBit n

/-- The function in force at a pin; a parked pin has none. -/
def pinFunc (s : State) (n : Nat) : Nat := if pinParked s n then 0 else fget s .pinMfpCfgFunc 0 n

/-- The function reads the pin. -/
def inputFunc (f : Nat) : Bool := decide (f = 1 ∨ f = 5)

/-- A write of FUNC: a new value parks the pin. `maker` tells that the session is the maker's. -/
def setFunc (s : State) (n f : Nat) (maker : Bool) : State :=
  if 6 < f ∨ (f = 6 ∧ !maker) ∨ f = fget s .pinMfpCfgFunc 0 n then s
  else fset (fset s .pinMfpCfgFunc f 0 n) .pinMfpParkingParking (bitOn (fget s .pinMfpParkingParking) n)

/-- The park ends; an input starts from the level present, which the spec leaves to the board. -/
def parkEnd (s : State) (n : Nat) : State :=
  if pinParked s n then
    let s := fset s .pinMfpParkingParking (bitOff (fget s .pinMfpParkingParking) n)
    let s := if inputFunc (fget s .pinMfpCfgFunc 0 n) then
        let (d, s) := draw s
        { s with pins := aset s.pins n { level := decide (d % 2 = 1) } }
      else s
    raise s .pinMfpSwitched 0 none (leBytes 1 n)
  else s

/-- The level of a pin. -/
def pinLevel (s : State) (n : Nat) : Bool := (aget s.pins n {}).level

/-- What a pin drives: GPIO_OUT's bit, a head's activity, or 500 ns from each pitch boundary; `none` where it drives nothing. -/
def pinDrives (s : State) (n : Nat) : Option Bool :=
  match pinFunc s n with
  | 2 => some (decide (fget s .pinMfpCfgGpioOut 0 n = 1))
  | 3 => some (linkUp s (n % 16) && (headOf s (n % 16)).tlpLast && decide (fget s .pwrStatusRung < 2))
  | 4 => some (decide (s.tb.phase < 50))
  | _ => none

/-! ### Flow (R351) -/

/-- The pins in function FLOW_OK. -/
def flowPins (s : State) : List Nat := (List.range 64).filter fun n => decide (pinFunc s n = 5)

/-- A FLOW_OK pin reads low. -/
def flowLow (s : State) : Bool := (flowPins s).any fun n => !pinLevel s n

/-- Flow throttling starts or ends. -/
def setFlow (s : State) (on : Bool) : State :=
  raise (fset s .pinThermalFlowThrottle (if on then 1 else 0)) (if on then .pinFlowLost else .pinFlowRestored)

/-! ### Meanings -/

/-- An SRAM word is in error (R248): corrected in place, or counted as uncorrectable. The Corrected Internal Error goes to the
fabric-manager logical device (DESIGN CHOICE, log 87). -/
def sramCounted (s : State) (site : SramSite) : State :=
  if site = .corrected then raise (finc s .rasSramErrsCe) .rasSramCe else raise (finc s .rasSramErrsUe) .rasSramUe

/-- SRAM_UE (11 R248): the word counts, and its place decides the outcome. -/
def execSramUe (site : SramSite) (s : State) : Host.Outcome State Fault Refusal :=
  .next (sramOutcome (sramCounted s site) site)

/-- CAIRN_EXPRESS_COMMIT (11 R258). -/
def execCairnExpressCommit (block inst : Nat) (late : Bool) (s : State) : Host.Outcome State Fault Refusal :=
  .next (expressCommit s block inst late)

/-- CAIRN_STREAM_RECEIVE (11 R261). -/
def execCairnStreamReceive (rec : TwinRecord) (s : State) : Host.Outcome State Fault Refusal :=
  .next (if twinUp s then commitRec (fadd s .cairnStreamStatsReceived 1) (twinRec rec) else s)

/-- COMPLEX_TAKEOVER (01 R12): the complexes run from power good on, in start-up and recovery too. -/
def execComplexTakeover (s : State) : Host.Outcome State Fault Refusal :=
  .next (match s.boot.phase with
    | .auxOnly | .tripped | .dead => s
    | _ => takeover s)

/-- MFP_PARK_END (16 R349). -/
def execMfpParkEnd (pin : Pin) (s : State) : Host.Outcome State Fault Refusal := .next (parkEnd s pin)

/-- MFP_INPUT_CHANGE (16 R351): the filtered level of a pin in an input function. -/
def execMfpInputChange (pin : Pin) (level : Bool) (s : State) : Host.Outcome State Fault Refusal :=
  .next (if inputFunc (pinFunc s pin) then { s with pins := aset s.pins pin.val { level := level } } else s)

/-- FLOW_LOST (16 R351): a FLOW_OK pin has read low for 1 s. -/
def execFlowLost (s : State) : Host.Outcome State Fault Refusal :=
  .next (if flowLow s && decide (fget s .pinThermalFlowThrottle = 0) then setFlow s true else s)

/-- FLOW_RESTORED (16 R351): every FLOW_OK pin has read high for 1 s. -/
def execFlowRestored (s : State) : Host.Outcome State Fault Refusal :=
  .next (if !flowLow s && decide (fget s .pinThermalFlowThrottle = 1) then setFlow s false else s)

end Sys2Proof.Machine
end

