-- ==== Sys2Proof/Machine/Roles.lean ====
section
/-! DEFINITION. Roles (14): SPDM sessions (R310 to R312), anchors (R313), IDE on the heads (R315, R316) and firmware
updates (R321, R322); and how a fabric-manager command is admitted and answered (03 R58). -/

namespace Sys2Proof.Machine

open Sys2Proof

/-! ### Sessions (R310 to R312) -/

/-- The HEARTBEAT period: 10 s (R312). -/
def sessionPeriod : Nat := 10 * 1000 * msCycles

/-- A session that is held. -/
def sesOf (s : State) (k : Nat) : Option SessionState :=
  (s.sessions.find? fun e => decide (e.1 = k)).map (·.2)

/-- MCTP is answered: the management complex runs (13 R302, R303) and the transport carries. -/
def mctpUp (s : State) (t : Transport) : Bool :=
  decide (s.boot.phase ≠ .auxOnly ∧ s.boot.phase ≠ .dead ∧ s.boot.phase ≠ .tripped) &&
    (match t with
      | .i3c _ => true
      | .head h => linkUp s h)

/-- The role that a certificate chain gives over a transport, with the anchor slot of an operator (R311, R313);
none where it is refused. An operator slot is looked at before the installer anchor. -/
def rootRole (s : State) (t : Transport) (r : ChainRoot) : Option (Role × Option Nat) :=
  match r with
  | .hash h claim =>
    match s.flash.anchors.find? fun e => decide (e.2 = h) with
    | some (k, _) => some (.operator, some k)
    | none =>
      if s.flash.installer = some h then some (.installer, none)
      else if s.flash.installer = none ∧ claim = true ∧ t = .i3c 0 then some (.installer, none)
      else none
  | .maker =>
    match t with
    | .i3c _ => if Config.makerPart && decide (fget s .pinStrapsMakerEn = 1) then some (.maker, none) else none
    | .head _ => none

/-- Sessions of a role at once (R312). -/
def roleLimit : Role → Nat
  | .operator => 6
  | .installer => 1
  | .maker => 1

/-- One more session of a chain would exceed a limit (R312). A session whose FINISH is due counts under the role
that its chain will give. -/
def sessionsFull (s : State) (t : Transport) (r : ChainRoot) : Bool :=
  decide (8 ≤ s.sessions.length) ||
    (match rootRole s t r with
      | some (role, _) => decide (roleLimit role ≤
          (s.sessions.filter fun e => decide ((rootRole s e.2.transport e.2.root).map (·.1) = some role ∨ e.2.role = some role)).length)
      | none => false)

/-- A session is refused (R311, R312): counted and recorded; MAKER_REFUSED for the maker root. -/
def refuseSession (s : State) (r : ChainRoot) : State :=
  let s := raise (finc s .roleDeniedSessionsRefused) .roleSessionRefused
  match r with
  | .maker => raise s .roleMakerRefused
  | .hash .. => s

/-- The lowest session index that is free. -/
def freeSession (s : State) : Option Session :=
  (List.finRange 8).find? fun k => (sesOf s k).isNone

/-- KEY_EXCHANGE (R312). -/
def doKeyExchange (s : State) (t : Transport) (r : ChainRoot) : State :=
  if sessionsFull s t r then emit (refuseSession s r) (.spdm none .error_busy [])
  else match freeSession s with
    | none => emit (refuseSession s r) (.spdm none .error_busy [])
    | some k =>
      let st : SessionState := { transport := t, root := r, deadline := now s + sessionPeriod }
      emit { s with sessions := aset s.sessions k.val st } (.spdm (some k) .ok (Config.spdmBytes 7))

/-- The first installer chain enrols (R313). -/
def enrol (s : State) (r : ChainRoot) : State :=
  match s.flash.installer, r with
  | none, .hash h _ => raise { s with flash := { s.flash with installer := some h } } .roleAnchorChanged
  | _, _ => s

/-- FINISH: the role is fixed, or the session is refused (R311). -/
def doFinish (s : State) (ses : Session) (st : SessionState) : State :=
  match rootRole s st.transport st.root with
  | some (role, slot) =>
    let s := if role = .installer then enrol s st.root else s
    let s := { s with sessions := aset s.sessions ses.val { st with role := some role, anchor := slot,
                                                                    deadline := now s + sessionPeriod } }
    emit (raise s .roleSessionOpened 0 none (leBytes 1 ses)) (.spdm (some ses) .ok (Config.spdmBytes 8))
  | none =>
    let s := { s with sessions := adel s.sessions ses.val }
    emit (refuseSession s st.root) (.spdm (some ses) .error_refused [])

/-- A message of a session renews its deadline and makes the pitch active (R312; 13 R294). -/
def sessionMsg (s : State) (ses : Nat) : State :=
  match sesOf s ses with
  | some st => touch { s with sessions := aset s.sessions ses { st with deadline := now s + sessionPeriod } }
  | none => touch s

/-- A session's transport carries its messages; requests outside a session are answered too. -/
def sesUp (s : State) (ses : Session) : Bool :=
  match sesOf s ses with
  | some st => mctpUp s st.transport
  | none => mctpUp s (.i3c 0)

/-- Bytes of an answer: GET_CERTIFICATE's name the part number and the package serial (R310; 00 R2). -/
def spdmPayload (code : Nat) : List Byte :=
  if code = 4 then Config.certificate Config.partNumber Config.serial else Config.spdmBytes code

/-- A message of R310's list that needs no session; `code` is its number in the list. -/
def spdmAnswer (s : State) (ses : Session) (code : Nat) : State :=
  if sesUp s ses then
    emit (sessionMsg s ses) (.spdm (if (sesOf s ses).isSome then some ses else none) .ok (spdmPayload code))
  else s

/-- A message that only a session carries. -/
def spdmIn (s : State) (ses : Session) (code : Nat) : State :=
  if sesUp s ses then
    (if (sesOf s ses).isSome then emit (sessionMsg s ses) (.spdm (some ses) .ok (Config.spdmBytes code))
     else emit (touch s) (.spdm none .error_refused []))
  else s

/-- END_SESSION (R312). -/
def doEndSession (s : State) (ses : Session) : State :=
  if sesUp s ses then
    (if (sesOf s ses).isSome then
      endSession (emit (sessionMsg s ses) (.spdm (some ses) .ok (Config.spdmBytes 11))) ses
     else emit (touch s) (.spdm none .error_refused []))
  else s

/-- A session has had no message for its period (R312). -/
def sessionOver (s : State) (ses : Session) : Bool :=
  match sesOf s ses with
  | some st => decide (st.deadline ≤ now s)
  | none => false

/-! ### Fabric-manager commands (03 R58; 14 R309, R314) -/

/-- Answer a fabric-manager command. -/
def fmAnswer (s : State) (ses : Session) (code : RetCode) (out : List Nat := []) : State :=
  emit s (.fmRsp ses code out)

/-- A fabric-manager command in a session: `need` is the least role that Table 3.1 allows; `head` gives the opcode
and the first bytes of the payload that the audit record of an installer command holds. -/
def fmCmd (s : State) (ses : Session) (need : Nat) (head : Nat × List Byte) (f : State → State) : State :=
  if sesUp s ses then
    let s := sessionMsg s ses
    if roleOf s ses < need then fmAnswer (deny s (.fm ses)) ses .invalidSecurityState
    else f (if need = 2 then auditCmd s ses head.1 head.2 else s)
  else s

/-- A command that operators may send. -/
def fmOp (s : State) (ses : Session) (f : State → State) : State := fmCmd s ses 1 (0, []) f

/-! ### Anchors (R313) -/

/-- The staged SHA-384 hash: ANCHOR_HASH_k holds its bytes 8k to 8k + 7. -/
def stagedHash (s : State) : BitVec 384 :=
  BitVec.ofNat 384 ((List.range 6).foldl (fun n k => n + fget s .roleAnchorHashHash 0 k * 2 ^ (64 * k)) 0)

/-- ANCHOR_CTRL.COMMIT: an operator slot is loaded, or the installer anchor is to be replaced when the session
ends. -/
def commitAnchor (s : State) (ses : Session) : State :=
  let slot := fget s .roleAnchorCtrlSlot
  if fget s .roleAnchorCtrlInstaller = 1 then
    if slot = 7 then
      { s with sessions := s.sessions.map fun e =>
          if e.1 = ses.val then (e.1, { e.2 with newInstaller := some (stagedHash s) }) else e }
    else s
  else
    raise { s with flash := { s.flash with anchors := aset s.flash.anchors slot (stagedHash s) } } .roleAnchorChanged

/-- ANCHOR_CTRL.CLEAR: an operator slot is emptied; the installer anchor only from a maker session. The sessions
that the anchor admitted end at the next boundary (R312). -/
def clearAnchor (s : State) (ses : Session) : State :=
  let slot := fget s .roleAnchorCtrlSlot
  let ends := fun (s : State) (f : SessionState → Bool) =>
    { s with sessions := s.sessions.map fun e => if f e.2 then (e.1, { e.2 with ending := true }) else e }
  if fget s .roleAnchorCtrlInstaller = 1 then
    if slot = 7 ∧ roleOf s ses = 3 ∧ s.flash.installer ≠ none then
      raise (ends { s with flash := { s.flash with installer := none } } fun x => decide (x.role = some .installer))
        .roleAnchorChanged
    else s
  else if ahas s.flash.anchors slot then
    raise (ends { s with flash := { s.flash with anchors := adel s.flash.anchors slot } }
      fun x => decide (x.role = some .operator ∧ x.anchor = some slot)) .roleAnchorChanged
  else s

/-! ### IDE (R315, R316) -/

/-- A head's streams reach the Secure state: its work goes on. -/
def ideSecure (s : State) (h : Head) : State :=
  mastersMoved (emit (headUpd s h fun x => { x with secure := true }) (.ideKmAck h)) h

/-- An integrity failure (R316; 02 Table 2.9): the head's streams leave Secure; requests accepted before complete,
and jobs move. -/
def ideLost (s : State) (h : Head) : State :=
  raise (mastersMoved (headUpd s h fun x => { x with secure := false, cxlRasUnc := true }) h) .roleIdeFail 0 none
    (leBytes 1 h)

/-! ### Firmware (R321, R322) -/

/-- The inactive boot slot: the one that does not run; in recovery the one that is not primary. -/
def inactiveSlot (s : State) : Bool :=
  if s.boot.phase = .recovery then !s.flash.primary1 else decide (fget s .roleFwStatusSlot = 0)

/-- The inactive slot's image changes. -/
def stageUpd (s : State) (f : ImageSlot → ImageSlot) : State :=
  fwChanged { s with flash := imgSet s.flash (inactiveSlot s) f }

/-- A chunk of an image is streamed into the inactive slot; with the last one the image is checked (R321). A slot
whose image is not whole does not boot. -/
def stageChunk (s : State) (last : Option ImageInfo) : State :=
  match last with
  | none => stageUpd s fun _ => {}
  | some i =>
    if i.signatureOk && decide (s.flash.minSvn ≤ i.svn) then
      raise (stageUpd s fun _ => { present := true, svn := i.svn, level := i.pairLevel, raisesMin := i.raisesMin,
                                   stage := .staged }) .roleFwStaged
    else raise (stageUpd s fun _ => { stage := .failed, svn := i.svn }) .roleFwRejected

/-- FW_CTRL.OP = ACCEPT: a staged image is accepted. A recovery image may empty the installer anchor (R313): the
spec does not say which does. -/
def acceptImage (s : State) : State :=
  if (imgOf s.flash (inactiveSlot s)).stage = .staged then
    let s := raise (stageUpd s fun i => { i with stage := .accepted }) .roleFwAccepted
    if s.boot.phase = .recovery then
      let (d, s) := draw s
      if d % 2 = 1 then { s with flash := { s.flash with installer := none } } else s
    else s
  else s

/-- FW_CTRL.OP = REVOKE: the acceptance is cancelled. -/
def revokeImage (s : State) : State :=
  if (imgOf s.flash (inactiveSlot s)).stage = .accepted then stageUpd s fun i => { i with stage := .staged } else s

/-! ### Meanings -/

/-- GET_VERSION (14 R310). -/
def execGetVersion (ses : Session) (s : State) : Host.Outcome State Fault Refusal := .next (spdmAnswer s ses 0)

/-- GET_CAPABILITIES (14 R310). -/
def execGetCapabilities (ses : Session) (s : State) : Host.Outcome State Fault Refusal := .next (spdmAnswer s ses 1)

/-- NEGOTIATE_ALGORITHMS (14 R310). -/
def execNegotiateAlgorithms (ses : Session) (s : State) : Host.Outcome State Fault Refusal :=
  .next (spdmAnswer s ses 2)

/-- GET_DIGESTS (14 R310). -/
def execGetDigests (ses : Session) (s : State) : Host.Outcome State Fault Refusal := .next (spdmAnswer s ses 3)

/-- GET_CERTIFICATE (14 R310). -/
def execGetCertificate (ses : Session) (s : State) : Host.Outcome State Fault Refusal := .next (spdmAnswer s ses 4)

/-- CHALLENGE (14 R310). -/
def execChallenge (ses : Session) (s : State) : Host.Outcome State Fault Refusal := .next (spdmAnswer s ses 5)

/-- GET_MEASUREMENTS (14 R310). -/
def execGetMeasurements (ses : Session) (s : State) : Host.Outcome State Fault Refusal := .next (spdmAnswer s ses 6)

/-- KEY_EXCHANGE (14 R312). -/
def execKeyExchange (transport : Transport) (root : ChainRoot) (s : State) : Host.Outcome State Fault Refusal :=
  .next (if mctpUp s transport then doKeyExchange (touch s) transport root else s)

/-- FINISH (14 R311). -/
def execFinish (ses : Session) (s : State) : Host.Outcome State Fault Refusal :=
  .next (match sesOf s ses with
    | some st => if mctpUp s st.transport && st.role.isNone then doFinish (touch s) ses st else s
    | none => if mctpUp s (.i3c 0) then emit (touch s) (.spdm none .error_refused []) else s)

/-- HEARTBEAT (14 R312). -/
def execHeartbeat (ses : Session) (s : State) : Host.Outcome State Fault Refusal := .next (spdmIn s ses 9)

/-- KEY_UPDATE (14 R310). -/
def execKeyUpdate (ses : Session) (s : State) : Host.Outcome State Fault Refusal := .next (spdmIn s ses 10)

/-- END_SESSION (14 R312). -/
def execEndSession (ses : Session) (s : State) : Host.Outcome State Fault Refusal := .next (doEndSession s ses)

/-- SPDM_UNSUPPORTED (14 R310). -/
def execSpdmUnsupported (ses : Session) (_code : Nat) (s : State) : Host.Outcome State Fault Refusal :=
  .next (if sesUp s ses then
    emit (sessionMsg s ses) (.spdm (if (sesOf s ses).isSome then some ses else none) .error_unsupported []) else s)

/-- SESSION_TIMEOUT (14 R312). -/
def execSessionTimeout (ses : Session) (s : State) : Host.Outcome State Fault Refusal :=
  .next (if sessionOver s ses then endSession s ses else s)

/-- IDE_KM (14 R315): over the head's link. -/
def execIdeKm (h : Head) (s : State) : Host.Outcome State Fault Refusal :=
  .next (if linkUp s h && running s then ideSecure (ioTouch s h) h else s)

/-- IDE_FAIL (14 R316). -/
def execIdeFail (h : Head) (s : State) : Host.Outcome State Fault Refusal :=
  .next (if (headOf s h).secure then ideLost s h else s)

/-- STAGE_IMAGE (14 R321). -/
def execStageImage (ses : Session) (_offset : Nat) (_chunk : List Byte) (last : Option ImageInfo) (s : State) :
    Host.Outcome State Fault Refusal :=
  .next (fmOp s ses fun s => fmAnswer (stageChunk s last) ses .success)

end Sys2Proof.Machine
end

