-- ==== Sys2Proof/Machine/Journal.lean ====
section
/-! DEFINITION. What the Belay journal carries (12 R274) and how an entry is applied; raw access to the fields of
a page register; a binding's effect (03 R57); and the configuration that a resync sends whole (12 R286). -/

namespace Sys2Proof.Machine

open Sys2Proof

/-! ### Fields of a register (15 R324) -/

/-- An instance has the register. -/
def instHas : Inst → Nat → Bool
  | .all, _ => true
  | .part, i => decide (i < 16)
  | .dev, i => decide (i = 0x10 ∨ i = 0x20)
  | .partDev, i => decide (i < 16 ∨ i = 0x10 ∨ i = 0x20)
  | .slot, i => decide (0x20 ≤ i ∧ i < 0x28)
  | .cls, i => decide (0x10 ≤ i ∧ i < 0x20)
  | .partCls, i => decide (i < 0x20)

/-- A field copy in a register: field, copy, lowest bit. -/
structure FldAt where
  fld : Fld
  copy : Nat
  lo : Nat
  deriving DecidableEq, Repr

/-- The row of the register tables that applies to an instance: of QOS, instance 0x10 is a class and the device
instance is 0x20; elsewhere the device instance is 0x10. -/
def fldOn (d : FldDesc) (i : Nat) : Bool :=
  match d.blk, d.on with
  | .qos, .dev => decide (i = 0x20)
  | .qos, .partDev => decide (i < 16 ∨ i = 0x20)
  | _, .dev => decide (i = 0x10)
  | _, .partDev => decide (i ≤ 0x10)
  | _, on => instHas on i

/-- The field copies of a register of an instance. -/
def fieldsAt (b : Blk) (i off : Nat) : List FldAt :=
  (Fld.ofBlk b).flatMap fun f =>
    let d := f.desc
    if fldOn d i then
      (List.range d.cnt).filterMap fun k =>
        if d.off + d.stride * (k / d.per) = off then some ⟨f, k, d.lo + d.bstride * (k % d.per)⟩ else none
    else []

/-- The stored value of a register. -/
def storedReg (s : State) (b : Blk) (i off : Nat) : Nat :=
  (fieldsAt b i off).foldl (fun n x => n + fget s x.fld i x.copy * 2 ^ x.lo) 0

/-- The value that a written word gives a field. -/
def wordFld (x : FldAt) (v : Nat) : Nat := bitsAt v x.lo x.fld.desc.w

/-- Store the read-write fields of a register that a test selects. -/
def storeReg (s : State) (b : Blk) (i off v : Nat) (ok : Fld → Bool) : State :=
  (fieldsAt b i off).foldl (fun s x =>
    match x.fld.desc.acc with
    | .rw | .rwl => if ok x.fld then fsetNow s x.fld (wordFld x v) i x.copy else s
    | _ => s) s

/-! ### Bindings (03 R57) -/

/-- A partition is bound to no head of either package: it is disabled (R56). -/
def disablePart (s : State) (p : Part) : State :=
  let s := closeWindows (endWork (endOffers s p) p haltMaster stMasterOff) p
  let s := destroyKey (clearPartition s p) p
  let s := partUpd s p fun q => { q with leaseExpiry := 0 }
  { fset s .partStateState pDisabled p with cfgs := adel s.cfgs p.val }

/-- A binding takes effect: removed heads no longer carry the partition; a disabled one that has a head is enabled
and its lease starts (R57, R70). -/
def doBind (s : State) (p : Part) (heads : Nat) : State :=
  let gone := (bitList (fget s .partStateHeads p) 16).filter fun h => !heads.testBit h
  let s := gone.foldl (fun s h =>
    let sh := sharerId p h
    { dropSharers s (fun x => decide (x = sh)) with hdms := adel s.hdms sh }) s
  let s := partUpd (fset s .partStateHeads heads p) p fun q => { q with bindDue := none }
  if heads = 0 ∧ aget s.belay.twinHeads p.val 0 = 0 then
    (if pState s p = pDisabled then s else disablePart s p)
  else masterAgain (if pState s p = pDisabled then startLease (fset s .partStateState pActive p) p else s) p

/-- The twin's heads of a partition: it is enabled while a head of either package carries it. -/
def twinBind (s : State) (p : Part) (heads : Nat) : State :=
  let s := { s with belay := { s.belay with twinHeads := aset s.belay.twinHeads p.val heads } }
  if heads = 0 ∧ fget s .partStateHeads p = 0 then
    (if pState s p = pDisabled then s else disablePart s p)
  else if pState s p = pDisabled then startLease (fset s .partStateState pActive p) p else s

/-! ### Configuration of a resync (12 R286) -/

/-- EXT.STATE of a code (03 Table 3.3). -/
def extOfCode : Nat → ExtState
  | 1 => .offered
  | 2 => .active
  | 3 => .releasePending
  | 4 => .reclaimable
  | _ => .sanitising

def cfgBlock (k : SavedBlock) : CfgBlock := (k.block, k.bytes, k.bad)

def savedOf (k : CfgBlock) : SavedBlock := { block := k.1, bytes := k.2.1, bad := k.2.2 }

/-- The registers that travel: QOS settings, the version reserve, BELAY.CFG. -/
def pairRegs : List (Blk × Nat × Nat) :=
  (List.range 16).map (fun i => (Blk.qos, i, 0x048)) ++ (List.range 16).map (fun i => (Blk.qos, 16 + i, 0x050)) ++
    [(.qos, 0x20, 0x040), (.dir, 0x10, 0x0A8), (.belay, 0, 0x040)]

/-- Journal state whole. -/
def pairConfigOf (s : State) (full : Bool) (segs : List Nat) : PairConfig :=
  { full := full, segs := segs,
    parts := (List.finRange 16).map fun (p : Part) =>
      { part := p, state := pState s p, heads := fget s .partStateHeads p, leaseMs := fget s .partCfgLeaseMs p,
        left := (partOf s p).leaseExpiry - now s, epoch := (partOf s p).epoch,
        offers := (partOf s p).offers.map (·.exts) },
    exts := s.exts.map fun e =>
      { base := e.base, len := e.len, attr := attrBits e.attr, tag := e.tag,
        holders := e.holders.map fun h => (h.p.val, extCode h.st),
        sanitising := e.sanitising, publisherGone := e.publisherGone, epoch := e.epoch, unreadable := e.unreadable },
    regs := pairRegs.map fun r => { blk := r.1, inst := r.2.1, off := r.2.2, value := storedReg s r.1 r.2.1 r.2.2 },
    snaps := s.snaps.map fun x =>
      { base := x.base, newest := x.newest, old := x.old.map fun o => (o.num, o.saved.map cfgBlock),
        draft := x.draft.map fun d => d.map cfgBlock, opens := x.opens },
    pins := (s.frames.filter fun f => !f.pins.isEmpty).map (fun f => (f.block, f.pins)) ++ s.pinMarks,
    index := s.index.map fun e =>
      { block := e.1, kind := e.2.kind, rank := e.2.rank, clen := e.2.clen, tslot := e.2.tslot },
    headers := s.segs.map fun g =>
      { seg := g.1, coded := g.2.coded, table0 := g.2.table0, table1 := g.2.table1, elem := g.2.elem, tile := g.2.tile,
        use0 := g.2.use0, use1 := g.2.use1 },
    keys := fget s .roleKeysMaster, nextSeq := s.belay.nextSeq }

/-- A partition's part of the configuration. -/
def takePart (s : State) (c : CfgPart) : State :=
  let s := fset (fset s .partStateState c.state c.part) .partCfgLeaseMs c.leaseMs c.part
  let s := partUpd s c.part fun q =>
    { q with leaseExpiry := now s + c.left, epoch := c.epoch, offers := c.offers.map fun o => ⟨o⟩, bindDue := none }
  { s with belay := { s.belay with twinHeads := aset s.belay.twinHeads c.part c.heads } }

/-- A package's BELAY.CFG takes the pair's MODE, WITNESS_EN, WITNESS_WAIT and RESYNC_RATE; PAIR_EN and PAIR_RANK
are each package's own (R290). -/
def takeBelayCfg (s : State) (v : Nat) : State :=
  storeReg s .belay 0 0x040 v fun f =>
    decide (f = .belayCfgMode ∨ f = .belayCfgWitnessEn ∨ f = .belayCfgWitnessWait ∨ f = .belayCfgResyncRate)

/-- A journalled register. -/
def takeReg (s : State) (r : CfgReg) : State :=
  match r.blk with
  | .belay => takeBelayCfg s r.value
  | .dir => setReserve s (bitsAt r.value 0 21)
  | _ => storeReg s r.blk r.inst r.off r.value fun _ => true

/-- A block index entry and a segment header of the configuration, sealed; blocks travel to their fixed places. -/
def takeIdx (e : CfgIdx) : Nat × IdxEntry := (e.block, idxSeal ⟨e.kind, e.rank, e.clen, e.tslot, 0, 0⟩ (localOf e.block))

def takeSeg (g : CfgSeg) : Nat × SegHeader :=
  (g.seg, segSeal { coded := g.coded, table0 := g.table0, table1 := g.table1, elem := g.elem, tile := g.tile,
                    use0 := g.use0, use1 := g.use1, tag := g.seg })

/-- The target tells the lead of the sharers on its own heads, which the lead's directory tracks from now on (R287). -/
def tellSharers (s : State) : State :=
  s.dir.foldl (fun s d =>
    if (ownSharers s d).isEmpty then s
    else journalSend s (.dirLine (decide (bRole s = roleLead)) false d.line d.exclusive (ownSharers s d))) s

/-- The target of a resync takes the configuration whole and waits for the segments (R286, R287). -/
def takeConfig (s : State) (c : PairConfig) : State :=
  let s := { s with
    exts := c.exts.map fun e =>
      { base := e.base, len := e.len, attr := attrOf e.attr, tag := e.tag,
        holders := e.holders.filterMap fun h =>
          if hp : h.1 < 16 then some ⟨⟨h.1, hp⟩, extOfCode h.2⟩ else none,
        sanitising := e.sanitising, publisherGone := e.publisherGone, epoch := e.epoch, unreadable := e.unreadable },
    snaps := c.snaps.map fun x =>
      { base := x.base, newest := x.newest, old := x.old.map fun o => ⟨o.1, o.2.map savedOf⟩,
        draft := x.draft.map fun d => d.map savedOf, opens := x.opens },
    pinMarks := c.pins, index := c.index.map takeIdx, segs := c.headers.map takeSeg,
    cache := [], reserve := [], attrDue := [], sanHalf := [],
    sanReqs := (c.exts.filter (·.sanitising)).map fun e => granules e.base e.len }
  let s := c.parts.foldl takePart s
  let s := activateMode ((List.range 16).foldl (fun s k => activateBudget (activateGuar s k) k) (c.regs.foldl takeReg s))
  let s := { fset s .roleKeysMaster c.keys with
    belay := { s.belay with unsync := c.segs, changed := [], nextSeq := c.nextSeq } }
  let s := fset (fset s .belayResyncInfoActive 1) .belayResyncInfoFull (if c.full then 1 else 0)
  let s := fset (fset s .belayResyncProgDoneSeg 0) .belayResyncProgTotalSeg c.segs.length
  let s := fset (fset s .belayStatusState bsResync) .belayStatusModeActive (fget s .belayCfgMode)
  listChange (tellSharers s) (List.range 16)

/-! ### A resync starts (R286) -/

/-- Every 64 MiB segment of the exported capacity. -/
def allSegs (s : State) : List Nat := List.range (exportGran s * 4)

/-- The lead becomes the source: it sends the configuration and lists the segments to copy. -/
def startResync (s : State) (full : Bool) : State :=
  let segs := if full then allSegs s else s.belay.changed
  let s := { s with belay := { s.belay with unsync := segs, changed := [] } }
  let s := fset (fset s .belayResyncInfoActive 1) .belayResyncInfoFull (if full then 1 else 0)
  let s := fset (fset s .belayResyncProgDoneSeg 0) .belayResyncProgTotalSeg segs.length
  journalSend (fset s .belayStatusState bsResync) (.config (pairConfigOf s full segs))

/-- A mode takes effect; leaving SOLO mode starts a resync of the changed segments (R268). In MIRROR mode each package tracks
its own sharers again (04 R90). -/
def activatePairMode (s : State) : State :=
  let m := fget s .belayCfgMode
  let was := fget s .belayStatusModeActive
  if !paired s || decide (m = was) then s
  else
    let s := fset s .belayStatusModeActive m
    if was = 2 ∧ bState s = bsInSync then
      (if bRole s = roleLead then startResync s false else fset s .belayStatusState bsJoining)
    else if m = 0 ∧ bState s = bsInSync ∧ bRole s = roleLead then passDirectory s
    else s

/-- The roles are exchanged, in state IN_SYNC only (R267); the new second has yet to measure its offset (01 R26). -/
def swapRoles (s : State) : State :=
  if twinUp s && decide (bState s = bsInSync) then
    let s := { s with tb := { s.tb with offset := 0, markers := [] } }
    fset (fset (setRole s (if bRole s = roleLead then roleSecond else roleLead)) .pitchAlignAligned 0)
      .pitchPhaseTwinOffset 0
  else s

/-! ### Entries (R274) -/

/-- An entry arose at this package. -/
def arose (s : State) (fromLead : Bool) : Bool := decide (fromLead = decide (bRole s = roleLead))

/-- A job descriptor: the package that holds the ring takes the number; the other runs the job beside it
(R276, R279). The twin's jobs have indexes from 2^32 on, so that they stay apart from this package's own. -/
def takeJob (s : State) (fromLead : Bool) (p : Part) (k : Ring) (idx seq : Nat) (bs : List Byte) : State :=
  let s := { s with belay := { s.belay with nextSeq := max s.belay.nextSeq (seq + 1) } }
  if arose s fromLead then
    { s with jobs := s.jobs.map fun j =>
        if j.p = p ∧ j.ring = k ∧ j.idx = idx ∧ j.foreign = false ∧ j.seqDue = true then
          { j with seq := seq, seqDue := false } else j }
  else
    let d := descOf bs
    let both := decide (jobClass d = .both) && decide (fget s .belayStatusModeActive ≠ 2) && decide (bState s = bsInSync)
    if bRole s = roleLead || runsTwin s d || both then
      { s with jobs := s.jobs ++
          [{ p := p, ring := k, idx := idx + 2 ^ 32, seq := seq, desc := d, foreign := true }] }
    else s

/-- A range that is still offered is withdrawn; one that is held is asked back (03 R65, R66, R74). -/
def askBack (s : State) (p : Part) (exts : List GranRange) : State :=
  let off := offeredOf s p exts
  let held := exts.filter fun x => !off.contains x
  let s := if off.isEmpty then s else doWithdraw s p off
  if held.isEmpty then s else doRequestRelease s p held

/-- A register write that the journal carries takes effect. -/
def applyReg (s : State) (b : Blk) (inst off v : Nat) : State :=
  match b with
  | .belay =>
    if off = 0x040 then activatePairMode (takeBelayCfg s v)
    else if v.testBit 1 then swapRoles s else s
  | .dir => setReserve s (bitsAt v 0 21)
  | .part => storeReg s .part inst off v fun _ => true
  | .qos =>
    let s := storeReg s .qos inst off v fun f => decide (f ≠ .qosReclaimStart)
    if off = 0x048 then activateGuar s inst
    else if off = 0x050 then activateBudget s (inst - 16)
    else if off = 0x040 then activateMode s
    else s
  | _ => s

/-- An entry is applied whole (R274). -/
def applyJ (s : State) (b : JBody) : State :=
  match b with
  | .reg blk inst off v => applyReg s blk inst off v.toNat
  | .bind fl p heads => if arose s fl then doBind s p heads.toNat else twinBind s p heads.toNat
  | .extAdd p exts attr tag join =>
    if offerable s p exts join then doOffer s p exts (attrOf attr.toNat) tag join else s
  | .extAccept p exts => doAccept s p exts
  | .extRequest p exts => askBack s p exts
  | .extRelease p exts => sweepWindows (doRelease s p exts)
  | .extForce p exts => sweepWindows (doForce s p exts)
  | .setAttr base mask attr => setAttrNow s base mask attr
  | .reclaim p => sweepWindows (doReclaim s p)
  | .revive p => doRevive s p
  | .leaseRenew fl p => if arose s fl then s else doRenew s p
  | .leaseExpire p => doLeaseExpire s p
  | .sanitised fl g => granMark s fl g
  | .hint fl p op base len => hintJournal s fl p op base len
  | .dirLine ofLead pass line ex shs =>
    if !arose s ofLead then tellTwinPart s line ex shs
    else if pass then takeOwnPart s line ex shs else s
  | .blockForm b src k form table => commitForm s b src k form table
  | .snap fl p op base ver => applySnap s (arose s fl) p op base ver.toNat
  | .jobDesc fl p k idx seq bs => takeJob s fl p k idx seq bs
  | .rung n => if moving s then s else startEntry s n false
  | .wake => doWake s .belay
  | .fwLevel fl l =>
    if arose s fl then s else fwMatch { s with belay := { s.belay with twinLevel := l } }
  | .config c => if bRole s = roleSecond then takeConfig s c else s

/-- A state change of R274: through the journal in a pair, at once alone. -/
def commitJ (s : State) (b : JBody) : State := if twinUp s then journalSend s b else applyJ s b

/-- The state once the entries that wait in the journal have been applied: what a new command is checked against. -/
def foresee (s : State) : State := if twinUp s then s.belay.journal.foldl (fun s e => applyJ s e.body) s else s

/-- Apply the acknowledged entries, in the lead's order, up to the first that is not. -/
def applyAcked (s : State) : State :=
  let due := s.belay.journal.takeWhile (·.acked)
  due.foldl (fun s e => fwrap (applyJ s e.body) .belayJournalApplied)
    { s with belay := { s.belay with journal := s.belay.journal.dropWhile (·.acked) } }

/-- An entry that the second asked for, as the lead issues it: a job descriptor gets its number (R276). -/
def numbered (s : State) (b : JBody) : State × JBody :=
  match b with
  | .jobDesc fl p k idx _ bs =>
    let (seq, s) := nextSeq s
    (s, .jobDesc fl p k idx seq bs)
  | b => (s, b)

/-- The twin is gone: every entry is applied alone (R274, R283). -/
def applyAll (s : State) : State :=
  s.belay.journal.foldl (fun s e =>
    let (s, b) := if e.acked || decide (bRole s = roleLead) then (s, e.body) else numbered s e.body
    fwrap (applyJ s b) .belayJournalApplied) { s with belay := { s.belay with journal := [] } }

end Sys2Proof.Machine
end

