-- ==== Sys2Proof/Machine/Belay.lean ====
section
/-! DEFINITION. The pair (12): forming it (R266, R267), its groups (R269, R271), heartbeats and the loss of the
twin (R272, R282 to R285), mirrored and forwarded requests (R273, R280), resynchronising (R286 to R288), and the
loss of a port die (R280, R281). -/

namespace Sys2Proof.Machine

open Sys2Proof

/-! ### Links and groups (R269, R271) -/

/-- A group is up. -/
def groupUp (s : State) (g : Nat) : Bool := decide (fget s .belayGroupsUp 0 g = 1)

/-- The Belay link is up. -/
def belayUp (s : State) : Bool := (List.range 4).any (groupUp s)

/-- This package's own witness lease lapsed while the link is up: it is fenced and still takes the twin's writes
(R284). -/
def lapsed (s : State) : Bool :=
  decide (bRole s = roleFenced) && !s.belay.twinLost && !s.belay.leaving && decide (bState s = bsFenced) &&
    decide (s.belay.roleBefore = roleLead ∨ s.belay.roleBefore = roleSecond)

/-- The twin's traffic is taken. -/
def hearsTwin (s : State) : Bool := (twinUp s || lapsed s) && belayUp s

/-- One group retrains. -/
def retrainGroup (s : State) (g : Nat) (own : Bool) : State :=
  let s := finc (fadd s .belayGroupsRetrains 1 0 g) .belayTwinStatsRetrains
  let s := { s with belay := { s.belay with retrained := (g, own) :: s.belay.retrained } }
  if own then emit s (.belay 0 (.retrainRequest g)) else s

/-- A retrain of a group is asked for: once per pitch and group; requests of both packages in one pitch are one, and
a further one waits for the boundary (R271). -/
def askRetrain (s : State) (g : Nat) (own : Bool) : State :=
  if s.belay.retrained.contains (g, own) then
    { s with belay := { s.belay with retrainDue := ins s.belay.retrainDue g } }
  else if s.belay.retrained.contains (g, !own) then
    { s with belay := { s.belay with retrained := (g, own) :: s.belay.retrained } }
  else retrainGroup s g own

/-- Every group that is up. -/
def askRetrainAll (s : State) (own : Bool) : State :=
  ((List.range 4).filter (groupUp s)).foldl (fun s g => askRetrain s g own) s

/-- The boundary: groups may retrain again, and the requests that waited go on. -/
def groupsBoundary (s : State) : State :=
  let due := s.belay.retrainDue
  due.foldl (fun s g => if groupUp s g then retrainGroup s g true else s)
    { s with belay := { s.belay with retrained := [], retrainDue := [] } }

/-! ### Losing the twin (R282 to R285) -/

/-- Requests sent to the twin and not answered: writes have not been accepted here and are held; reads are served
from this package's own copy, behind the held writes of their line (R283). -/
def takeBackForwarded (s : State) : State :=
  let reqs := s.belay.forwarded.map (·.req)
  let s := { s with belay := { s.belay with forwarded := [] } }
  reqs.foldl (fun s r =>
    if noService r = .cmp ∨ s.belay.heldWrites.any (fun q => decide (lineOf q.dpa = lineOf r.dpa)) then
      { s with belay := { s.belay with heldWrites := s.belay.heldWrites ++ [r] } }
    else resend s r) s

/-- Jobs after the twin is gone: the twin's own jobs go with their rings, and a SINGLE job that ran at the lost lead
ends with CANCELLED (R279, R289). -/
def dropTwinJobs (s : State) (wasSecond : Bool) : State :=
  let s := (s.jobs.filter (·.foreign)).foldl (fun s j => dropJob (cancelJob s j stCancelled) j) s
  if wasSecond then
    (s.jobs.filter fun j => decide (j.st = .running) && !j.twin && decide (jobClass j.desc ≠ .both) && !j.foreign).foldl
      (fun s j => cancelJob s j stCancelled) s
  else s

/-- The package continues alone as lead: held writes complete, waiting steps commit, unacknowledged entries are
applied (R283). -/
def continueAlone (s : State) : State :=
  let wasSecond := decide (bRole s = roleSecond)
  let s := sanAlone (applyAll s)
  let held := s.belay.heldWrites
  let waits := s.belay.mirror.map (·.req)
  let s := setRole s roleLead
  let s := fset (fset s .belayStatusState bsAlone) .belayResyncInfoActive 0
  let s := { s with belay := { s.belay with twinLost := true, deciding := false, servedAlone := true, changed := [],
                                            heldWrites := [], mirror := [], digests := [] } }
  let s := waits.foldl (fun s r => answer s r .cmp) (dropTwinSharers s)
  commitWaiting (dropTwinJobs (held.foldl resend s) wasSecond)

/-- The witness lease ran and has run out. -/
def witnessOver (s : State) : Bool :=
  decide (s.belay.witnessExpiry ≠ 0) && decide (s.belay.witnessExpiry ≤ now s)

/-- Continue or fence (R283, R288). -/
def decideAlone (s : State) (left : Bool) : State :=
  let st := bState s
  if bRole s = roleFenced then s
  else if st = bsResync ∧ bRole s = roleSecond then
    raise (fset (fenceAlone s bsIncomplete) .belayResyncInfoActive 0) .belayIncomplete
  else if st = bsJoining ∧ bRole s = roleSecond then fenceAlone s bsFenced
  else if st = bsResync then
    let segs := s.belay.unsync ++ s.belay.changed
    let s := continueAlone s
    { s with belay := { s.belay with changed := segs.eraseDups, unsync := [] } }
  else if left then continueAlone s
  else if fcur s .belayCfgWitnessEn = 0 then (if s.boot.pairRank then fenceAlone s bsFenced else continueAlone s)
  else if witnessOver s then fenceAlone s bsFenced
  else { s with belay := { s.belay with deciding := true } }

/-- The twin is declared lost (R283); blocks that it was asked for have the outcome of a package alone (05 R112; 06 R146). -/
def loseTwin (s : State) (left : Bool) : State :=
  let s := raise s .belayTwinLost
  let s := emit { s with fmLog := .twinLost :: s.fmLog } (.notify .twinLost)
  let s := alignOver { s with belay := { s.belay with twinLost := true, hbSeen := true, hbEarly := [] } }
  let s := { s with tier := { s.tier with discards := [] } }
  decideAlone (twinFillsOver (twinWaitsOver (takeBackForwarded s))) left

/-- A heartbeat of this boundary. -/
def heardBeat (s : State) : State :=
  fset { s with belay := { s.belay with hbSeen := true } } .belayTwinStatsHbMissed 0

/-- A boundary without a heartbeat; the tenth in a row loses the twin (R272, R282). -/
def missBeat (s : State) : State :=
  let n := fget s .belayTwinStatsHbMissed + 1
  let s := fset { s with belay := { s.belay with hbSeen := true } } .belayTwinStatsHbMissed (min n 10)
  if 10 ≤ n then loseTwin s false else s

/-- The package leaves FENCED. -/
def unfence (s : State) (role state : Nat) : State :=
  raise (fset (setRole s role) .belayStatusState state) .belayUnfenced

/-- A write of WITNESS.RENEW (R283, R284). -/
def renewWitness (s : State) : State :=
  let s := { s with belay := { s.belay with witnessExpiry := now s + Config.witnessLease } }
  if s.belay.deciding then continueAlone s
  else if lapsed s && belayUp s then
    unfence s s.belay.roleBefore (if fget s .belayResyncInfoActive = 1 then bsResync else bsInSync)
  else s

/-- The witness lease expires: the package fences (R284). -/
def lapseWitness (s : State) : State := fence (raise s .belayWitnessLapsed) bsFenced

/-! ### Forming the pair (R266, R267) -/

/-- The conditions of R266. -/
def pairOk (s : State) (t : TwinInfo) : Bool :=
  t.pairEn && decide (t.tiered = s.boot.tiered) && decide (t.pitchLen = fget s .pitchCfgLenActive) &&
    decide (t.pitchLen ≤ 1) && decide (t.rank ≠ s.boot.pairRank) && decide (t.protoLevel = fget s .idFirmwarePairLevel) &&
    t.keysOk

/-- Pairing is refused: the package goes on in SOLO (R266; 00 R6; 01 R24), a fenced one too. An INCOMPLETE target
stays as it is until APPROVE (R288). -/
def refusePair (s : State) : State :=
  let s := raise s .belayPairRefused
  if bRole s = roleFenced ∧ bState s = bsIncomplete then s
  else
    let s := if bRole s = roleFenced then raise s .belayUnfenced else s
    fset (setRole s roleSolo) .belayStatusState bsRefused

/-- This package leads (R267). -/
def leads (s : State) (t : TwinInfo) : Bool :=
  if s.belay.servedAlone && !t.servedAlone then true
  else if t.servedAlone && !s.belay.servedAlone then false
  else !s.boot.pairRank

/-- The second adopts the lead's count and aligns in the next pitch (01 R25). -/
def alignTwin (s : State) (t : TwinInfo) (lead : Bool) : State :=
  let s := fset s .pitchAlignMode (if t.syncWired then 1 else 2)
  if lead then fset s .pitchAlignAligned 0
  else fset { s with tb := { s.tb with count := t.count, stepDue := true, stepped := false, markers := [] } } .pitchAlignAligned 0

/-- The pair forms, or a package rejoins its twin. -/
def formPair (s : State) (t : TwinInfo) : State :=
  let lead := leads s t
  let fresh := s.boot.cold && t.fromCold && !s.belay.servedAlone && !t.servedAlone
  let wasFenced := decide (bRole s = roleFenced)
  let s := { s with belay := { s.belay with
    journal := [], mirror := [], forwarded := [], heldWrites := [], deciding := false, twinLost := false,
    hbSeen := true, hbEarly := [], twinCap := some t.capGran, twinLevel := t.fwAcceptedLevel, digests := [],
    unsync := [] }, sanHalf := [] }
  let s := fset (fset s .belayTwinStatsHbMissed 0) .belayStatusModeActive (fget s .belayCfgMode)
  let s := setRole s (if lead then roleLead else roleSecond)
  let s := if wasFenced then raise s .belayUnfenced else s
  let s := streamGap (fwMatch (raise (alignTwin s t lead) .belayPaired))
  if fresh then fset s .belayStatusState bsInSync
  else if lead then startResync s (!t.fencedNoReset)
  else fset s .belayStatusState bsJoining

/-! ### Resynchronising (R286 to R288) -/

/-- Blocks of a segment that hold anything, with their stored bytes and poisoned lines. -/
def segBlocks (s : State) (seg : Nat) : List CfgBlock :=
  let inSeg := fun b => decide (segmentOf (blockDpa b) = seg)
  let inMem := (s.mem.map fun c => blockOf c.1) ++ s.poison.map (· / 128)
  let blocks := if s.boot.tiered then s.frames.map (·.block) ++ (s.lbaMap.filter fun e => decide (e.2 = 1 ∨ e.2 = 2)).map (·.1)
    else inMem
  ((blocks.filter inSeg).eraseDups).map fun b =>
    (b, if s.boot.tiered && (frameOf s b).isNone then screeBytes s b else Memory.read s.mem (blockDpa b) 8192,
      (s.poison.filter fun l => decide (l / 128 = b)).map (· % 128))

/-- A block that arrives at the target, in its stored form: in a tiered configuration in a raw frame. A coded block that was
not resident at the source has its index entry from its header, as at a fill. -/
def takeBlock (s : State) (k : CfgBlock) : State :=
  let b := k.1
  let s := { putBlock s b k.2.1 with poison := k.2.2.map (b * 128 + ·) ++ (putBlock s b k.2.1).poison }
  if s.boot.tiered then
    let s := { s with frames := { block := b, st := .dirty, off := (findPlace s b 128 128).getD 0, used := count s } :: s.frames }
    if codedBit s b && !ahas s.index b then idxOfHeader s b k.2.1 else s
  else s

/-- What a segment held at the target goes: its write-backs end, its frames are dropped and its LBAs are deallocated. -/
def clearSegment (s : State) (seg : Nat) : State :=
  let inSeg := fun b => decide (segmentOf (blockDpa b) = seg)
  let blocks := (((s.frames.map (·.block)) ++ s.lbaMap.map (·.1)).filter inSeg).eraseDups
  blocks.foldl (fun s b =>
    let s := match frameOf s b with
      | some f => if f.st = FrameSt.evicting then unlockStripe (stopWriteBack s b) b else endIos s b .fillRead
      | none => s
    let s := { s with frames := s.frames.filter fun f => decide (f.block ≠ b) }
    if stripeLocked s b && decide (lbaOf s b = 1 ∨ lbaOf s b = 2) then lockMap s b fun l => { l with drops := ins l.drops b }
    else deallocateBlock s b) s

/-- A segment is written at the target; blocks of a frozen PC are fetched when it resumes (R287). -/
def takeSegment (s : State) (seg : Nat) (blocks : List CfgBlock) : State :=
  let lo := seg * 0x0400_0000
  let hi := lo + 0x0400_0000
  let inSeg := fun b => decide (segmentOf (blockDpa b) = seg)
  let waiting := (s.frames.filter fun f => inSeg f.block).flatMap (·.waiters)
  let s := if s.boot.tiered then clearSegment s seg else s
  let s := { s with mem := Memory.zero s.mem lo hi, poison := s.poison.filter (fun l => !inSeg (l / 128)),
                    damage := s.damage.filter (fun x => !inSeg (x.1 / 128)) }
  blocks.foldl (fun s k =>
    let pc := pcOfAddr (blockDpa k.1)
    if !inSeg k.1 then s
    else if pcSt s pc = pcFrozen then pcUpd s pc fun st => { st with resync := ins st.resync k.1 }
    else takeBlock s k) s |> fun s => waiting.foldl (fun s r => tierReq s r []) s

/-- Copying waits for the end of a freeze at the source (R287). -/
def copyWaits (s : State) : Bool :=
  decide (bRole s = roleLead) && s.pcs.any fun x => decide (pcSt s x.1 = pcFrozen)

/-- A segment is synchronised. -/
def segmentDone (s : State) (seg : Nat) (blocks : List CfgBlock) : State :=
  let s := if bRole s = roleLead then emit s (.belay 3 (.resyncSegment seg (segBlocks s seg)))
    else takeSegment s seg blocks
  finc { s with belay := { s.belay with unsync := rem s.belay.unsync seg } } .belayResyncProgDoneSeg

/-- Every segment is synchronised: IN_SYNC (R287). -/
def resyncOver (s : State) : State :=
  let s := fset (fset s .belayStatusState bsInSync) .belayResyncInfoActive 0
  -- the target's sharers pass to its own directory where it serves its heads (R287)
  let s := if bRole s = roleLead ∧ fget s .belayStatusModeActive = 0 then passDirectory s else s
  raise { s with belay := { s.belay with servedAlone := false, changed := [], lostSegs := [], healed := [] } }
    .belayResyncDone

/-- CTRL.APPROVE: the unsynchronised segments are lost and the package leads alone (R288). -/
def approve (s : State) : State :=
  let segs := s.belay.unsync
  let s := if s.boot.tiered then
      (segs.flatMap fun g => (List.range 8192).map (g * 8192 + ·)).foldl (fun s b => setLba (dropBlock s b) b 3) s
    else s
  let s := { s with belay := { s.belay with
    lostSegs := segs, healed := [], unsync := [], changed := [], servedAlone := true, twinLost := true } }
  unfence s roleLead bsAlone

/-! ### Requests of the twin (R273, R280) -/

/-- A request of the twin for one of this package's lines. A mirrored write of a shared-with-directory extent collects the
responses of this package's own sharers first (04 R90). -/
def twinReq (s : State) (r : Req) (upset : Upset) : State :=
  match r.src, heldExt s r.p r.dpa with
  | .twin _, _ =>
    (match extOf s r.dpa with
      | some e => routeReq s e r upset
      | none => tierReq s r upset)
  | _, some e => routeReq s e r upset
  | _, none => answer (unheld s r.p r.dpa) r (noService r)

/-- Our request that the twin answers; a poisoned read of an extent that is held raises the event of a package alone
(03 R75). -/
def answered (s : State) (id : Nat) (res : Req → MemRes) : State :=
  match s.belay.forwarded.find? fun m => decide (m.id = id) with
  | some m =>
    let a := res m.req
    let s := answer { s with belay := { s.belay with forwarded := s.belay.forwarded.erase m } } m.req a
      (heldExt s m.req.p m.req.dpa).isSome
    -- a host's read of a line that is bad here, answered from the twin (11 R250)
    match m.req.src, a with
    | .host _, .data _ => if m.req.bad then mediaEvent s m.req.p false m.req.dpa else s
    | _, _ => s
  | none => s

/-- A block that came from the twin: this package's copy is whole again, RAW (06 R146; 10 R235). -/
def replaceCopy (s : State) (b : Nat) (bs : List Byte) : State := noteWrite (putBlock (makeRaw s b) b bs) b

/-- The twin's answer for a block: a fill that failed ends with it, a damaged block is whole again, a PC's resync list is one
block shorter (05 R112; 06 R146; 10 R235); what waited for it goes on. -/
def repairBlock (s : State) (b : Nat) (data : Option (List Byte)) : State :=
  let fills := match frameOf s b with
    | some f => f.atTwin
    | none => false
  let (s, room) := expandRoom s b
  if fills then fillFromTwin s b data
  -- a damaged packed block that has no raw frame yet is asked for again
  else if data.isSome && !room then emit s (.belay 2 (.forward (.block s.belay.nextId b)))
  else
    let pc := pcOfAddr (blockDpa b)
    let s := match data with
      | some bs => replaceCopy s b bs
      | none => s
    let s := pcUpd s pc fun st => { st with resync := rem st.resync b }
    let s := if ahas s.tier.twinWaits b then twinAnswered s b data.isSome else s
    if data.isSome then serveHeld s pc else s

/-- Bytes of a block for the twin, decoded; none where they cannot be read. -/
def blockFor (s : State) (b : Nat) : State × Option (List Byte) :=
  let s := residentNow s b
  if isCoded s b then
    let (s, d) := decodeBlock s b 3
    match d with
    | .ok bs _ _ => (s, some bs)
    | .damaged _ => (s, none)
  else if s.poison.any (fun l => decide (l / 128 = b)) || cellsLost s (blockDpa b) then (s, none)
  else (s, some (Memory.read s.mem (blockDpa b) 8192))

/-- Mirrored writes, acceptances and staged data (R273, R277). -/
def mirrored (s : State) (m : MirrorMsg) : State :=
  match m with
  | .write id p dpa d mask =>
    twinReq s { kind := .write, p := p, src := .twin id, dpa := dpa / 64 * 64, data := d, mask := mask } []
  | .accept id =>
    match s.belay.mirror.find? fun w => decide (w.id = id) with
    | some w => answer { s with belay := { s.belay with mirror := s.belay.mirror.erase w } } w.req .cmp
    | none => s
  | .forward id p dpa d mask via mv =>
    twinReq s { kind := .write, p := p, src := .fwd id, dpa := dpa / 64 * 64, data := d, mask := mask, via := via, mv := mv } []
  | .staging seq operand data =>
    match s.jobs.find? fun j => decide (j.seq = seq) && j.foreign with
    | some j => stageBytes s j operand data
    | none => s

/-- Requests and answers that cross the link (R268, R280). -/
def forwardedMsg (s : State) (m : FwdMsg) : State :=
  match m with
  | .read id p dpa upset via mv =>
    twinReq s { kind := .read, p := p, src := .fwd id, dpa := dpa / 64 * 64, via := via, mv := mv } upset
  | .write id p dpa d mask =>
    twinReq s { kind := .write, p := p, src := .fwd id, dpa := dpa / 64 * 64, data := d, mask := mask } []
  | .block _ b =>
    let (s, d) := blockFor s b
    emit s (.belay 1 (.forward (.blockAnswer b d)))
  | .snoop line kind sh => snoopForTwin s line kind sh
  | .snooped line sh resp => biAnswer s line (twinSharer + sh) resp
  | .cleanEvict p h dpa => evictClean s (lineOf dpa) (twinSharer + sharerId p h)
  | .discarded p base len => twinDiscarded s p base len
  | .readAnswer id d => answered s id fun _ => match d with
    | some x => .data x
    | none => .poison
  | .writeAnswer id => answered s id fun _ => .cmp
  | .blockAnswer b d => repairBlock s b d

/-! ### Journal messages (R274) -/

/-- An entry arrives. At the second it waits for the boundary and is acknowledged; at the lead it is one that the
second asks for, which the lead numbers and issues. An acknowledgement lets the lead's entry be applied, and takes
the second's request off its list. -/
def journalMsg (s : State) (m : JMsg) : State :=
  match m with
  | .entry n b =>
    let s := emit (touch s) (.belay 0 (.journal (.ack n)))
    if bRole s = roleLead then
      let (s, b) := numbered s b
      journalSend s b
    else { s with belay := { s.belay with journal := s.belay.journal ++ [⟨n, b, true⟩] } }
  | .ack n =>
    if bRole s = roleLead then
      { s with belay := { s.belay with journal := s.belay.journal.map fun e =>
          if e.num = n then { e with acked := true } else e } }
    else { s with belay := { s.belay with journal := s.belay.journal.filter fun e => e.acked || decide (e.num ≠ n) } }

/-- At the second its own requests do not hold back what the lead has sent. -/
def applyDue (s : State) : State :=
  if bRole s = roleLead then applyAcked s
  else
    let own := s.belay.journal.filter fun e => !e.acked
    let s := applyAcked { s with belay := { s.belay with journal := s.belay.journal.filter (·.acked) } }
    { s with belay := { s.belay with journal := own ++ s.belay.journal } }

/-! ### A port die is lost (R280, R281) -/

/-- Uncommitted steps of the jobs whose front end is lost rerun under the front end that adopts them (R281). -/
def adoptJobs (s : State) (jobs : List Job) : State :=
  (s.steps.filter fun x => jobs.any (fun j => isStepOf j x) && decide (x.st ≠ .queued ∧ x.st ≠ .unplaced)).foldl
    (fun s x => rerunOn s x (some x.core) id) s

/-- A port die is lost: its heads go down, its group and tier paths move, its jobs are adopted, and the management
complex on it is replaced. -/
def losePortDie (s : State) (d : Nat) : State :=
  if s.portDiesOut.contains d then s
  else
    -- a job's front end sits with its bus-master head
    let jobs := s.jobs.filter fun j => match masterHead s j.p with
      | some h => decide (h / 4 = d)
      | none => false
    let s := { s with portDiesOut := d :: s.portDiesOut }
    let s := adoptJobs s jobs
    let s := ((List.finRange 16).filter fun (h : Head) => decide (h.val / 4 = d)).foldl (fun s h =>
      linkLost s h .detect true true true) s
    let s := if groupUp s d then raise (fset (fset s .belayGroupsUp 0 0 d) .belayGroupsHalf 0 0 d) .belayGroupDown 0 none (leBytes 1 d)
      else s
    let s := (List.finRange 8).foldl (fun s (k : Slot) =>
      let drop := fun (s : State) (p : Path) => if pathDie k p = d ∧ pathUp s k p then losePath s k p else s
      drop (drop s .a) .b) s
    let s := if d = 2 * fget s .cairnStatusLeader then takeover s else s
    coverEvt s (leBytes 1 d)

/-! ### Meanings -/

/-- PAIRING (12 R266). -/
def execPairing (twin : TwinInfo) (s : State) : Host.Outcome State Fault Refusal :=
  .next (if running s && s.boot.pairEn && belayUp s && !s.belay.leaving && !twinUp s && !lapsed s && !s.belay.deciding then
    (if pairOk s twin then formPair s twin else refusePair s) else s)

/-- HEARTBEAT_RECEIVED (12 R272): matched by its count. That of a boundary still to come here waits for it (01 R26);
that of an earlier boundary, whose miss is counted, changes nothing. -/
def execHeartbeatReceived (group : Group) (count : Nat) (s : State) : Host.Outcome State Fault Refusal :=
  .next (if !(groupUp s group && (twinUp s || lapsed s)) then s
    else if count = s.tb.count then heardBeat s
    else if s.tb.count < count then { s with belay := { s.belay with hbEarly := ins s.belay.hbEarly count } }
    else s)

/-- HEARTBEAT_MISS (12 R272): heartbeats are suspended in rest and deeper (13 R298). -/
def execHeartbeatMiss (s : State) : Host.Outcome State Fault Refusal :=
  .next (if (twinUp s || lapsed s) && !s.belay.hbSeen && decide (rung s < 2) && running s then missBeat s else s)

/-- LEAVING (12 R282). -/
def execLeaving (s : State) : Host.Outcome State Fault Refusal :=
  .next (if hearsTwin s then loseTwin s true else s)

/-- GROUP_DOWN (12 R269). -/
def execGroupDown (g : Group) (s : State) : Host.Outcome State Fault Refusal :=
  .next (if groupUp s g then
    raise (fset (fset s .belayGroupsUp 0 0 g) .belayGroupsHalf 0 0 g) .belayGroupDown 0 none (leBytes 1 g) else s)

/-- GROUP_UP (12 R269). -/
def execGroupUp (g : Group) (half : Bool) (s : State) : Host.Outcome State Fault Refusal :=
  .next (if running s && !s.portDiesOut.contains g.val then
    fset (fset s .belayGroupsUp 1 0 g) .belayGroupsHalf (if half then 1 else 0) 0 g else s)

/-- WITNESS_WAIT_EXPIRY (12 R283). -/
def execWitnessWaitExpiry (s : State) : Host.Outcome State Fault Refusal :=
  .next (if s.belay.deciding then fenceAlone s bsFenced else s)

/-- WITNESS_LAPSED (12 R284). -/
def execWitnessLapsed (s : State) : Host.Outcome State Fault Refusal :=
  .next (if fcur s .belayCfgWitnessEn = 1 ∧ paired s ∧ witnessOver s ∧ s.belay.deciding = false then lapseWitness s
    else s)

/-- MIRRORED_WRITE (12 R273). -/
def execMirroredWrite (msg : MirrorMsg) (s : State) : Host.Outcome State Fault Refusal :=
  .next (if hearsTwin s then mirrored s msg else s)

/-- FORWARDED_REQUEST (12 R280). -/
def execForwardedRequest (msg : FwdMsg) (s : State) : Host.Outcome State Fault Refusal :=
  .next (if hearsTwin s then forwardedMsg s msg else s)

/-- JOURNAL_ENTRY (12 R274). -/
def execJournalEntry (msg : JMsg) (s : State) : Host.Outcome State Fault Refusal :=
  .next (if hearsTwin s then journalMsg s msg else s)

/-- JOURNAL_APPLY (12 R274). -/
def execJournalApply (s : State) : Host.Outcome State Fault Refusal :=
  .next (if paired s || lapsed s then applyDue s else s)

/-- RESYNC_SEGMENT_DONE (12 R286). -/
def execResyncSegmentDone (seg : Nat) (blocks : List CfgBlock) (s : State) : Host.Outcome State Fault Refusal :=
  .next (if twinUp s && decide (bState s = bsResync) && s.belay.unsync.contains seg && !copyWaits s then
    segmentDone s seg blocks else s)

/-- RESYNC_DONE (12 R287). -/
def execResyncDone (s : State) : Host.Outcome State Fault Refusal :=
  .next (if twinUp s && decide (bState s = bsResync) && s.belay.unsync.isEmpty then resyncOver s else s)

/-- TWIN_NO_ANSWER (13 R305). -/
def execTwinNoAnswer (s : State) : Host.Outcome State Fault Refusal :=
  .next (if s.boot.phase = .released ∧ s.boot.pairEn ∧ bState s = bsUnpaired ∧ s.belay.deciding = false then
    loseTwin s false else s)

/-- PORT_DIE_LOST (12 R281). -/
def execPortDieLost (d : PortDie) (s : State) : Host.Outcome State Fault Refusal := .next (losePortDie s d)

end Sys2Proof.Machine
end

