-- ==== Sys2Proof/Machine/Cdt.lean ====
section
/-! DEFINITION. The Caura Descriptor Table in the ROM window (15 R336; 02 R43). -/

namespace Sys2Proof.Machine

open Sys2Proof

/-! ### Names -/

/-- Name of an event that sets a bit (11 Table 11.11). -/
def Evt.name : Evt → String
  | .pitchTbLoss => "TB_LOSS"
  | .pitchTbRestored => "TB_RESTORED"
  | .pitchAlignLost => "ALIGN_LOST"
  | .pitchBoundaryLate => "BOUNDARY_LATE"
  | .portLinkUp => "LINK_UP"
  | .portLinkDown => "LINK_DOWN"
  | .portWidthDegraded => "WIDTH_DEGRADED"
  | .portRateDown => "RATE_DOWN"
  | .portNotCxl => "NOT_CXL"
  | .portCapped64 => "CAPPED_64"
  | .partLeaseLow => "LEASE_LOW"
  | .partOrphaned => "ORPHANED"
  | .partAddOffered => "ADD_OFFERED"
  | .partReleaseRequested => "RELEASE_REQUESTED"
  | .partForcedRelease => "FORCED_RELEASE"
  | .partUnheldAccess => "UNHELD_ACCESS"
  | .partRevived => "REVIVED"
  | .extLimitHit => "LIMIT_HIT"
  | .extSanitiseDone => "SANITISE_DONE"
  | .extListChanged => "LIST_CHANGED"
  | .dirReaderWrite => "READER_WRITE"
  | .dirBiTimeout => "BI_TIMEOUT"
  | .dirBiDisabled => "BI_DISABLED"
  | .dirVictimFull => "VICTIM_FULL"
  | .dirCommitted => "COMMITTED"
  | .dirDraftAbandoned => "DRAFT_ABANDONED"
  | .dirReserveLow => "RESERVE_LOW"
  | .tierDegraded => "DEGRADED"
  | .tierRebuildDone => "REBUILD_DONE"
  | .tierBlockLost => "BLOCK_LOST"
  | .tierSlotChange => "SLOT_CHANGE"
  | .tierButton => "BUTTON"
  | .tierPowerFault => "POWER_FAULT"
  | .tierPathLost => "PATH_LOST"
  | .tierNotAdmitted => "NOT_ADMITTED"
  | .tierRemoveRefused => "REMOVE_REFUSED"
  | .tierPinLimit => "PIN_LIMIT"
  | .tierHintIgnored => "HINT_IGNORED"
  | .tierHintHalted => "HINT_HALTED"
  | .cmpDamaged => "DAMAGED"
  | .cmpVerifyFail => "VERIFY_FAIL"
  | .cmpTableBad => "TABLE_BAD"
  | .cmpBacklog => "BACKLOG"
  | .jobRingHalted => "RING_HALTED"
  | .jobJobFailed => "JOB_FAILED"
  | .jobOverflow => "OVERFLOW"
  | .jobRerun => "RERUN"
  | .jobOverrun => "OVERRUN"
  | .jobWindowWrite => "WINDOW_WRITE"
  | .qosGuarRefused => "GUAR_REFUSED"
  | .qosGuarMissed => "GUAR_MISSED"
  | .qosClassOver => "CLASS_OVER"
  | .qosHotPc => "HOT_PC"
  | .qosReclaimDone => "RECLAIM_DONE"
  | .pcFrozen => "FROZEN"
  | .pcFailed => "FAILED"
  | .pcRefresh2x => "REFRESH_2X"
  | .pcThrottle => "THROTTLE"
  | .pcTrip => "TRIP"
  | .pcTempInvalid => "TEMP_INVALID"
  | .pcTrr => "TRR"
  | .pcRetrainDue => "RETRAIN_DUE"
  | .pcTrainDone => "TRAIN_DONE"
  | .pcTrainAborted => "TRAIN_ABORTED"
  | .storeTestFail => "TEST_FAIL"
  | .storeRepaired => "REPAIRED"
  | .storeBankFailed => "BANK_FAILED"
  | .storeTestLate => "TEST_LATE"
  | .rasCeLine => "CE_LINE"
  | .rasUeLine => "UE_LINE"
  | .rasSramCe => "SRAM_CE"
  | .rasSramUe => "SRAM_UE"
  | .rasRetired => "RETIRED"
  | .rasSparesLow => "SPARES_LOW"
  | .rasScrubPass => "SCRUB_PASS"
  | .rasPoisonRead => "POISON_READ"
  | .cairnLogDegraded => "LOG_DEGRADED"
  | .cairnSpillWrap => "SPILL_WRAP"
  | .cairnStreamGap => "STREAM_GAP"
  | .cairnOverflow => "OVERFLOW"
  | .cairnLrWrap => "LR_WRAP"
  | .belayPaired => "PAIRED"
  | .belayPairRefused => "PAIR_REFUSED"
  | .belayTwinLost => "TWIN_LOST"
  | .belayFenced => "FENCED"
  | .belayUnfenced => "UNFENCED"
  | .belayResyncDone => "RESYNC_DONE"
  | .belayIncomplete => "INCOMPLETE"
  | .belayDigestMismatch => "DIGEST_MISMATCH"
  | .belayGroupDown => "GROUP_DOWN"
  | .belayWitnessLapsed => "WITNESS_LAPSED"
  | .belayRoleChanged => "ROLE_CHANGED"
  | .belayCovering => "COVERING"
  | .pwrRungEntered => "RUNG_ENTERED"
  | .pwrRungExited => "RUNG_EXITED"
  | .pwrEntryAborted => "ENTRY_ABORTED"
  | .pwrEntryRefused => "ENTRY_REFUSED"
  | .pwrExitLate => "EXIT_LATE"
  | .pwrBootAltImage => "BOOT_ALT_IMAGE"
  | .pwrClusterResetDone => "CLUSTER_RESET_DONE"
  | .roleSessionOpened => "SESSION_OPENED"
  | .roleSessionRefused => "SESSION_REFUSED"
  | .roleWriteDenied => "WRITE_DENIED"
  | .roleAnchorChanged => "ANCHOR_CHANGED"
  | .roleIdeFail => "IDE_FAIL"
  | .roleFwStaged => "FW_STAGED"
  | .roleFwAccepted => "FW_ACCEPTED"
  | .roleFwRejected => "FW_REJECTED"
  | .roleMakerRefused => "MAKER_REFUSED"
  | .pinRailFault => "RAIL_FAULT"
  | .pinThermtrip => "THERMTRIP"
  | .pinFlowLost => "FLOW_LOST"
  | .pinFlowRestored => "FLOW_RESTORED"
  | .pinMfpSwitched => "MFP_SWITCHED"

/-- The events of Table 11.11, in its order of bits. -/
def evtList : List Evt :=
  [.pitchTbLoss, .pitchTbRestored, .pitchAlignLost, .pitchBoundaryLate, .portLinkUp, .portLinkDown, .portWidthDegraded,
   .portRateDown, .portNotCxl, .portCapped64, .partLeaseLow, .partOrphaned, .partAddOffered, .partReleaseRequested,
   .partForcedRelease, .partUnheldAccess, .partRevived, .extLimitHit, .extSanitiseDone, .extListChanged, .dirReaderWrite,
   .dirBiTimeout, .dirBiDisabled, .dirVictimFull, .dirCommitted, .dirDraftAbandoned, .dirReserveLow, .tierDegraded,
   .tierRebuildDone, .tierBlockLost, .tierSlotChange, .tierButton, .tierPowerFault, .tierPathLost, .tierNotAdmitted,
   .tierRemoveRefused, .tierPinLimit, .tierHintIgnored, .tierHintHalted, .cmpDamaged, .cmpVerifyFail, .cmpTableBad,
   .cmpBacklog, .jobRingHalted, .jobJobFailed, .jobOverflow, .jobRerun, .jobOverrun, .jobWindowWrite, .qosGuarRefused,
   .qosGuarMissed, .qosClassOver, .qosHotPc, .qosReclaimDone, .pcFrozen, .pcFailed, .pcRefresh2x, .pcThrottle, .pcTrip,
   .pcTempInvalid, .pcTrr, .pcRetrainDue, .pcTrainDone, .pcTrainAborted, .storeTestFail, .storeRepaired,
   .storeBankFailed, .storeTestLate, .rasCeLine, .rasUeLine, .rasSramCe, .rasSramUe, .rasRetired, .rasSparesLow,
   .rasScrubPass, .rasPoisonRead, .cairnLogDegraded, .cairnSpillWrap, .cairnStreamGap, .cairnOverflow, .cairnLrWrap,
   .belayPaired, .belayPairRefused, .belayTwinLost, .belayFenced, .belayUnfenced, .belayResyncDone, .belayIncomplete,
   .belayDigestMismatch, .belayGroupDown, .belayWitnessLapsed, .belayRoleChanged, .belayCovering, .pwrRungEntered,
   .pwrRungExited, .pwrEntryAborted, .pwrEntryRefused, .pwrExitLate, .pwrBootAltImage, .pwrClusterResetDone,
   .roleSessionOpened, .roleSessionRefused, .roleWriteDenied, .roleAnchorChanged, .roleIdeFail, .roleFwStaged,
   .roleFwAccepted, .roleFwRejected, .roleMakerRefused, .pinRailFault, .pinThermtrip, .pinFlowLost, .pinFlowRestored,
   .pinMfpSwitched]

/-- Name of an event of Table 11.12. -/
def Rec.name : Rec → String
  | .settingsRecordLost => "SETTINGS_RECORD_LOST"
  | .ldNotCarried => "LD_NOT_CARRIED"
  | .startSlotMissing _ => "START_SLOT_MISSING"
  | .lostWriteDropped => "LOST_WRITE_DROPPED"
  | .partialWritePoison => "PARTIAL_WRITE_POISON"
  | .complexTakeover => "COMPLEX_TAKEOVER"
  | .lostLineRead => "LOST_LINE_READ"
  | .sessionEnded => "SESSION_ENDED"
  | .stepHung => "STEP_HUNG"
  | .dieLost => "DIE_LOST"
  | .lateRenew => "LATE_RENEW"

/-- The events of Table 11.12; START_SLOT_MISSING with the lower of its severities. -/
def recList : List Rec :=
  [.settingsRecordLost, .ldNotCarried, .startSlotMissing false, .lostWriteDropped, .partialWritePoison, .complexTakeover,
   .lostLineRead, .sessionEnded, .stepHung, .dieLost]

/-- Name of a block type (15 Table 15.3). -/
def blkName : Blk → String
  | .id => "ID" | .port => "PORT" | .part => "PART" | .ext => "EXT" | .dir => "DIR" | .tier => "TIER" | .cmp => "CMP"
  | .job => "JOB" | .qos => "QOS" | .pc => "PC" | .store => "STORE" | .ras => "RAS" | .cairn => "CAIRN"
  | .belay => "BELAY" | .pwr => "PWR" | .pin => "PIN" | .role => "ROLE" | .pitch => "PITCH"

/-! ### Entries -/

/-- Runs of consecutive instances: block type, first instance, count, and whether the partition view reads any of them. -/
def pageRuns : List (Blk × Nat × Nat × Bool) :=
  [(.id, 0, 1, true), (.port, 0, 16, true), (.part, 0, 16, true), (.ext, 0, 17, true), (.dir, 0, 17, true),
   (.tier, 0, 17, true), (.tier, 0x20, 8, false), (.cmp, 0, 1, true), (.job, 0, 16, true), (.qos, 0, 33, true),
   (.pc, 0, 1024, false), (.store, 0, 256, false), (.ras, 0, 1, false), (.cairn, 0, 1, false), (.belay, 0, 1, false),
   (.pwr, 0, 1, false), (.pin, 0, 1, false), (.role, 0, 1, false), (.pitch, 0, 1, true)]

/-- An event entry before its name is placed: block type, code, severity, EVT_STATUS bit, name. -/
abbrev CdtEvent := Nat × Nat × Nat × Nat × String

/-- Codes 0x0001 to 0x0004 appear once, with block type 0xFFFF; a summary has the severity of what it counts, so the lowest
stands. -/
def cdtCommon : List CdtEvent :=
  [(0xFFFF, 1, 0, 0xFF, "PENDING_SUMMARY"), (0xFFFF, 2, 1, 2, "STREAM_GAP"), (0xFFFF, 3, 1, 0, "LOG_DEGRADED"),
   (0xFFFF, 4, 5, 0xFF, "AUDIT_WRITE")]

/-- Severity of an event in the table: the lower of its two where it has two (11 Table 11.11). -/
def cdtSev (e : Evt) : Nat :=
  match e with
  | .cmpDamaged | .cmpTableBad | .rasUeLine => 2
  | e => e.info.2.2.code

/-- The event entries. -/
def cdtEvents : List CdtEvent :=
  cdtCommon ++
    ((evtList.filter fun e => decide (e ≠ .cairnLogDegraded ∧ e ≠ .cairnStreamGap)).map fun e =>
      (blkCode e.info.1, e.code, cdtSev e, e.info.2.1, e.name)) ++
    recList.map fun r => (blkCode r.info.1, r.info.2.1, r.info.2.2.code, 0xFF, r.name)

/-- The strings, each once. Their order, and the orders of pages and events, are open (DESIGN CHOICE, log 92). -/
def cdtStrings : List String := ((blkList.map blkName) ++ cdtEvents.map (·.2.2.2.2)).eraseDups

/-- A NUL-terminated ASCII string. -/
def strBytes (n : String) : List Byte := n.toList.map (fun c => BitVec.ofNat 8 c.toNat) ++ [0]

/-- Offset of a string within the string area. -/
def strOffset (n : String) : Nat := ((cdtStrings.takeWhile fun m => decide (m ≠ n)).map fun m => m.length + 1).sum

/-- A page entry of 16 bytes; pages lie as 15 R332 places them. -/
def pageEntry (r : Blk × Nat × Nat × Bool) : List Byte :=
  let (b, first, n, host) := r
  leBytes 2 (blkCode b) ++ leBytes 2 first ++ leBytes 2 n ++ leBytes 2 0x0100 ++
    leBytes 4 (0x100 + blkCode b / 16 * 0x400 + first) ++ leBytes 1 (if host then 3 else 2) ++ leBytes 1 0 ++
    leBytes 2 (strOffset (blkName b))

/-- An event entry of 8 bytes. -/
def eventEntry (e : CdtEvent) : List Byte :=
  leBytes 2 e.1 ++ leBytes 2 e.2.1 ++ leBytes 1 e.2.2.1 ++ leBytes 1 e.2.2.2.1 ++ leBytes 2 (strOffset e.2.2.2.2)

/-! ### The table -/

/-- Offsets and sizes: events, strings, end. -/
def cdtEventsAt : Nat := 64 + 16 * pageRuns.length
def cdtStringsAt : Nat := cdtEventsAt + 8 * cdtEvents.length
def cdtStringsLen : Nat := (cdtStrings.map fun n => n.length + 1).sum

/-- ID.CDT.LENGTH: bytes of the whole table (15 Table 15.4). -/
def cdtLength : Nat := cdtStringsAt + cdtStringsLen

/-- The first 60 bytes of the header. -/
def cdtHeader : List Byte :=
  ("CAURACDT".toList.map fun c => BitVec.ofNat 8 c.toNat) ++ leBytes 4 cdtLength ++ leBytes 2 1 ++ leBytes 2 0 ++
    leBytes 4 pageRuns.length ++ leBytes 4 64 ++ leBytes 4 cdtEvents.length ++ leBytes 4 cdtEventsAt ++
    leBytes 4 cdtStringsAt ++ leBytes 4 cdtStringsLen ++ List.replicate 20 0

/-- What follows the header. -/
def cdtBody : List Byte :=
  pageRuns.flatMap pageEntry ++ cdtEvents.flatMap eventEntry ++ cdtStrings.flatMap strBytes

/-- The table: its CRC-32C stands in bytes 60 to 63 and is computed with these taken as zero. -/
def cdtBytes : List Byte :=
  cdtHeader ++ leBytes 4 (crc32c (cdtHeader ++ [0, 0, 0, 0] ++ cdtBody)) ++ cdtBody

end Sys2Proof.Machine
end

