-- ==== Sys2Proof/Machine/PageRead.lean ====
section
/-! DEFINITION. What a page register reads: the common header (15 Table 15.1), the fields that the state stores, and
those that are computed from it; which view sees a page (Table 15.3), and its rights (14 R307, R308). -/

namespace Sys2Proof.Machine

open Sys2Proof

/-! ### Rights and visibility (14 R307, R308; 15 Table 15.3) -/

/-- Role of a view: 0 for the partition view. -/
def viewRole (s : State) : View → Nat
  | .host _ _ => 0
  | .fm ses => roleOf s ses

/-- A field that an instance lets software write. On the device instance of QOS, GUAR shows the sum only. -/
def writable (i : Nat) (f : Fld) : Bool :=
  decide (f.desc.acc ≠ .ro) && fldOn f.desc i && !(decide (f = .qosGuarGbS) && decide (i = 0x20))

/-- Table 14.1: the view may write the field. -/
def mayField (s : State) (v : View) (f : Fld) : Bool :=
  match v with
  | .host _ _ => f.desc.host
  | .fm ses => decide (f.desc.role ≤ roleOf s ses)

/-- The page's write right under Table 14.1, which holds for its header too (R308, R327). -/
def mayPage (s : State) (v : View) (b : Blk) (i : Nat) : Bool :=
  (Fld.ofBlk b).any fun f => writable i f && mayField s v f

/-- Some role may write a field of the page. -/
def roleWrites (b : Blk) (i role : Nat) : Bool :=
  (Fld.ofBlk b).any fun f => writable i f && decide (f.desc.role ≤ role)

/-- The partition view reads the instance (Table 15.3). -/
def hostSees (s : State) (p : Part) (b : Blk) (i : Nat) : Bool :=
  match b with
  | .id | .cmp | .pitch => true
  | .port => carried s p i
  | .part | .ext | .dir | .job => decide (i = p.val)
  | .tier => decide (i = p.val ∨ i = 0x10)
  | .qos => decide (i = p.val ∨ 0x10 ≤ i)
  | _ => false

/-- The instance is seen by the view. -/
def pageSeen (s : State) (v : View) (b : Blk) (i : Nat) : Bool :=
  blkHasInst b i && match v with
    | .host p _ => hostSees s p b i
    | .fm _ => true

/-- PAGE_ACCESS.RIGHTS. -/
def pageRights (b : Blk) (i : Nat) : Nat :=
  let bit := fun (on : Bool) (n : Nat) => if on then 2 ^ n else 0
  let host := match b with
    | .id | .port | .cmp | .pitch | .part | .job => true
    | .ext | .dir => decide (i < 16)
    | .tier => decide (i < 0x11)
    | .qos => true
    | _ => false
  bit host 0 + bit ((Fld.ofBlk b).any fun f => writable i f && f.desc.host) 1 + 4 + bit (roleWrites b i 1) 3 + 16 +
    bit (roleWrites b i 2) 5 + 64 + bit (roleWrites b i 3) 7

/-- The block is failed, mapped out or on a lost die (15 R330). -/
def pageLost (s : State) (b : Blk) (i : Nat) : Bool :=
  match b with
  | .pc => dieOut s (i / 64) || decide (fget s .pcStateState i = pcFailed)
  | .store => clusterOut s i
  | .port => s.portDiesOut.contains (i / 4)
  | _ => false

/-! ### Computed fields -/

/-- Frame space of units of 64 bytes, in MiB. -/
def unitsMib (n : Nat) : Nat := n / 16384

/-- The entry that EXT.CURSOR selects on an instance (03 R77). -/
def extEntry (s : State) (i : Nat) : Option Extent :=
  (if i < 16 then extsOf s i else s.exts)[fget s .extCursorIndex i]?

/-- EXT.STATE of the entry: the partition's own state, or on the pool instance the lowest holder's (R77). -/
def extEntrySt (e : Extent) (i : Nat) : Nat :=
  if i < 16 then (match holderSt e i with
    | some st => extCode st
    | none => 0)
  else if e.sanitising then extCode .sanitising
  else match ((List.range 16).filterMap fun p => holderSt e p).head? with
    | some st => extCode st
    | none => 0

/-- The snapshot extent of SNAP_SEL that the partition holds. -/
def snapSel (s : State) (p : Nat) : Option Snap :=
  let base := fget s .dirSnapSelBaseGran p
  match (extsOf s p).find? fun e => decide (e.base = base) with
  | some _ => snapOf s base
  | none => none

/-- A block counts as resident (06 Table 6.11). -/
def resident (s : State) (b : Nat) : Bool := !s.boot.tiered || (frameOf s b).isSome

/-- Resident blocks of a kind. -/
def kindCount (s : State) (k : Nat) : Nat :=
  (s.index.filter fun e => decide (e.2.kind = k) && resident s e.1).length

/-- The oldest SEQ that can be read. -/
def oldestSeq (s : State) : Nat :=
  (s.cairn.log.filter (readable s)).foldl (fun m r => min m r.seq) (fget s .cairnHeadNextSeq)

/-- Word `k` of the record shown. -/
def recordWord (s : State) (k : Nat) : Nat :=
  match shownRec s with
  | some r => leAt (recBytes r) (8 * k) 8
  | none => 0

/-- Scrub progress of the pass in thousandths. -/
def scrubPermille (s : State) : Nat :=
  let walked := (s.ras.cursors.map fun c => if s.ras.done.contains c.1 then pcLines else c.2).sum
  min 1000 (walked * 1000 / (1024 * pcLines))

/-- Rebuild progress in thousandths of the clusters' stripes that hold content. -/
def rebuildPermille (s : State) : Nat :=
  if fget s .tierRebuildActive 0x10 = 0 then 0
  else
    let all := ((List.range 256).map fun c => (stripesLeft s c 0).length).sum
    let left := ((List.range 256).map fun c => (stripesLeft s c (rebuildLo s c)).length).sum
    if all = 0 then 1000 else (all - left) * 1000 / all

/-- Units of a class above its share, over all clusters. -/
def overUnits (s : State) (cls : Nat) : Nat :=
  ((List.range 256).map fun c =>
    classUnits s c cls - fcur s .qosClassCfgFrameShare (qosCls cls) * frameUnits / 256).sum

/-- Boot slot's image that runs. -/
def runningImage (s : State) : ImageSlot := imgOf s.flash (decide (fget s .roleFwStatusSlot = 1))

/-- FW_STATUS.STAGED. -/
def stageCode : ImageStage → Nat
  | .none => 0 | .staged => 1 | .accepted => 2 | .failed => 3

/-- A Bool as a field. -/
def flag (b : Bool) : Nat := if b then 1 else 0

/-- The value of a field as it is read; `w` is the view. -/
def readFld (s : State) (w : View) (i : Nat) (x : FldAt) : Nat :=
  match x.fld with
  -- PITCH
  | .pitchCountCount => count s
  | .pitchPhasePhase => s.tb.phase
  | .pitchPhaseTwinOffset => if bRole s = roleSecond then fget s .pitchPhaseTwinOffset else 0
  | .pitchWatchdogStatsCoresOut => s.coresOut.length
  | .pitchLoadQueued => queuedIn s (fget s .pitchLoadSelCluster)
  | .pitchLoadParked =>
    let c := fget s .pitchLoadSelCluster
    (parkedIn s (2 * c)).length + (parkedIn s (2 * c + 1)).length
  | .pitchLoadRunning =>
    let c := fget s .pitchLoadSelCluster
    (s.steps.filter fun y => decide (coreCluster y.core = c) && decide (y.st = .running ∨ y.st = .waiting)).length
  | .pitchLoadGranFree =>
    let c := fget s .pitchLoadSelCluster
    min 255 (2 * groupGranules - granUsed s (2 * c) - granUsed s (2 * c + 1))
  | .pitchLoadRspFree => 64
  | .pitchLoadFillFree =>
    96 - ((clusterFrames s (fget s .pitchLoadSelCluster)).filter fun f =>
      decide (f.st = .filling) && f.issued || decide (f.st = .evicting)).length
  -- PORT
  | .portBindParts => bitMapOf ((List.range 16).filter fun p => carried s p i)
  -- PART
  | .partLeaseRemainingMs => remainingMs s i
  | .partStateExtents => (extsOf s i).length
  | .partHeldGranules => heldGran s i
  -- EXT
  | .extBaseBaseGran => ((extEntry s i).map (·.base)).getD 0
  | .extLengthLenGran => ((extEntry s i).map (·.len)).getD 0
  | .extAttrClass => ((extEntry s i).map (·.attr.cls)).getD 0
  | .extAttrPageHint => ((extEntry s i).map (·.attr.pageHint)).getD 0
  | .extAttrTier => ((extEntry s i).map (·.attr.tier)).getD 0
  | .extAttrElem => ((extEntry s i).map (·.attr.elem)).getD 0
  | .extAttrTile => ((extEntry s i).map (·.attr.tile)).getD 0
  | .extAttrProtected => ((extEntry s i).map (·.attr.prot)).getD 0
  | .extAttrSharing => ((extEntry s i).map (·.attr.sharing)).getD 0
  | .extAttrOwner => ((extEntry s i).map (·.attr.owner)).getD 0
  | .extStateState => ((extEntry s i).map fun e => extEntrySt e i).getD 0
  | .extStateValid => flag (extEntry s i).isSome
  | .extStateHolders => ((extEntry s i).map holdersMap).getD 0
  | .extCountExtents => if i < 16 then (extsOf s i).length else s.exts.length
  | .extCountFreeGran => if i < 16 then 0 else freeCount s
  | .extSanitisePendingGran => ((s.exts.filter (·.sanitising)).map (·.len)).sum
  -- DIR
  | .dirOccupancyTracked =>
    if i < 16 then (s.dir.filter fun d => (entrySharers s d).any fun sh => decide (sh / 16 = i)).length
    else s.dir.length
  | .dirOccupancyCoarse => (s.dir.filter fun d => d.coarse.isSome).length
  | .dirSnapInfoNewest => ((snapSel s i).map (·.newest)).getD 0
  | .dirSnapInfoLive => ((snapSel s i).map snapLive).getD 0
  | .dirSnapInfoDraftOpen => flag (((snapSel s i).map (·.draft.isSome)).getD false)
  | .dirSnapInfoOpenValid => flag (((snapSel s i).map fun y => ahas y.opens i).getD false)
  | .dirSnapOpenOpenVersion => ((snapSel s i).map fun y => aget y.opens i 0).getD 0
  | .dirReserveUseChargedBlk => chargedBlk s
  | .dirReserveHeldHeldBlk => heldBlk s
  -- TIER
  | .tierCacheUseFreeMib => if s.boot.tiered then unitsMib ((List.range 256).map fun c => freeUnits s c).sum else 0
  | .tierCacheUseDirtyMib =>
    unitsMib (unitSum (s.frames.filter fun f => decide (f.st = .dirty ∨ f.st = .evicting)))
  | .tierRebuildPermille => rebuildPermille s
  | .tierPinPinnedGib => pinnedBlocks s i / 131072
  | .tierLostLostBlk => lostBlocks s
  | .tierLostHeldFrames => heldFrames s
  -- CMP
  | .cmpKindsAZeroBlk => kindCount s 1
  | .cmpKindsAConstBlk => kindCount s 2
  | .cmpKindsBResidBlk => kindCount s 3
  | .cmpKindsBLowrankBlk => kindCount s 4
  | .cmpPackingSavedMib =>
    if s.boot.tiered then unitsMib ((s.frames.filter (·.placed)).map fun f => 128 - f.units).sum else 0
  | .cmpExpLoadMeanCost => fget s .cmpExpLoadMeanCost 0 (fget s .cmpExpSelCluster)
  | .cmpExpLoadQueuePeak => fget s .cmpExpLoadQueuePeak 0 (fget s .cmpExpSelCluster)
  | .cmpExpLoadCacheHits => fget s .cmpExpLoadCacheHits 0 (fget s .cmpExpSelCluster)
  -- JOB
  | .jobWindowsOpen => (s.windows.filter fun y => decide (y.p.val = i) && y.opening.isNone).length
  | .jobRingCountRunning => ((ringJobs s i x.copy).filter fun j => decide (j.st = .running)).length
  -- QOS
  | .qosGuarGbS => if i = 0x20 then guarSum s else fget s .qosGuarGbS i
  | .qosGuarGbSActive => if i = 0x20 then guarSumActive s else fget s .qosGuarGbSActive i
  | .qosOccIntIntegral => aget s.qos.occ i 0 / 1024
  | .qosFramesHeldMib => unitsMib ((List.range 256).map fun c => classUnits s c (i - 16)).sum
  | .qosFramesOverMib => if s.boot.tiered then unitsMib (overUnits s (i - 16)) else 0
  -- PC
  | .pcStateState => pcSt s i
  | .pcStateQueued => (pcOf s i).entries.length
  | .pcStateInOrder => (pcOf s i).inOrder.length
  -- RAS
  | .rasScrubStatusPermille => scrubPermille s
  | .rasRetireStatusSparesMin => sparesMin s
  | .rasSpareInfoBlocksLeft => sparesLeft s (fget s .rasSpareSelPc)
  | .rasSpareInfoPprLeft => ((List.range 32).map fun q => pprLeft s (fget s .rasSpareSelPc) q).sum
  | .rasSpareInfoBanksOut => bitMapOf ((List.range 32).filter fun q => bankOut s (fget s .rasSpareSelPc) q)
  -- CAIRN
  | .cairnStatusStreaming => flag (twinUp s && decide (fget s .cairnCfgStreamEn = 1))
  | .cairnOldestOldestSeq => oldestSeq s
  | .cairnReadSeqValid => flag (shownRec s).isSome
  | .cairnReadSeqFuture => flag (decide (fget s .cairnHeadNextSeq ≤ fget s .cairnReadSeqSeq))
  | .cairnReadSeqGone =>
    flag ((shownRec s).isNone && decide (fget s .cairnReadSeqSeq < fget s .cairnHeadNextSeq))
  | .cairnReadSeqFromSpill =>
    flag ((shownRec s).isSome && decide (fget s .cairnReadSeqSeq + ringRecords < fget s .cairnHeadNextSeq))
  | .cairnRecordWord => recordWord s x.copy
  -- BELAY
  | .belayStatusGroupsUp => bitMapOf ((List.range 4).filter (groupUp s))
  | .belayStatusWitnessValid => flag (decide (now s < s.belay.witnessExpiry))
  | .belayStatusWitnessMs => (s.belay.witnessExpiry - now s) / msCycles
  | .belayResyncInfoChangedSeg => s.belay.changed.length
  | .belayJournalPending => (s.belay.journal.filter fun e => !e.acked).length
  -- ROLE
  | .roleStatusOpen => (s.sessions.filter fun e => e.2.role.isSome).length
  | .roleStatusInstallerOn => flag (s.sessions.any fun e => decide (e.2.role = some .installer))
  | .roleStatusMakerOn => flag (s.sessions.any fun e => decide (e.2.role = some .maker))
  | .roleStatusMakerAvail => flag (Config.makerPart && decide (fget s .pinStrapsMakerEn = 1))
  | .roleStatusEnrolled => flag s.flash.installer.isSome
  | .roleStatusCaller => viewRole s w
  | .roleAnchorCtrlValid =>
    flag (if fget s .roleAnchorCtrlInstaller = 1 ∧ fget s .roleAnchorCtrlSlot = 7 then s.flash.installer.isSome
      else ahas s.flash.anchors (fget s .roleAnchorCtrlSlot))
  | .roleIdePolicyActive => bitMapOf ((List.range 16).filter fun h => (headOf s h).secure)
  | .roleFwStatusStaged => stageCode (imgOf s.flash (inactiveSlot s)).stage
  | .roleFwStatusTwinMatch => flag s.flash.twinMatch
  | .roleFwStatusStagedSvn => (imgOf s.flash (inactiveSlot s)).svn
  | .roleFwStatusMinSvn => s.flash.minSvn
  -- ID
  | .idProductMakerPart => flag Config.makerPart
  | .idProductConfig => configCode s
  | .idSerialSerial => Config.serial.toNat
  | .idSiliconStepping => Config.stepping.toNat
  | .idFirmwareMajor => (Config.firmwareMajor (fget s .roleFwStatusSlot)).toNat
  | .idFirmwareMinor => (Config.firmwareMinor (fget s .roleFwStatusSlot)).toNat
  | .idCdtLength => cdtLength
  -- PIN
  | .pinMfpInLevel => bitMapOf ((List.range 64).filter (pinLevel s))
  | .pinThermalDramMaxC => (s.regs.filter fun e => decide (e.1.fld = .pcTempTempC)).foldl (fun m e => max m e.2) 0
  | .pinThermalFlowOk => flag (!flowLow s)
  | f =>
    match f.desc.acc with
    | .wo => 0
    | _ =>
      -- maker fields outside a maker session read 0 (14 R307)
      if f = .pinDriveTrimTrim ∧ viewRole s w ≠ 3 then 0 else fget s f i x.copy

/-! ### Registers (15 R324, R330) -/

/-- PAGE_STATUS.STATE: the low bits of the block's own STATE field. -/
def pageState (s : State) (b : Blk) (i : Nat) : Nat :=
  match b with
  | .part => pState s i % 16
  | .pc => pcSt s i % 16
  | .belay => bState s % 16
  | .tier => if 0x20 ≤ i then slotSt s (i - 0x20) else 0
  | _ => 0

/-- PAGE_STATUS.READY: set at start-up, in recovery on the ROLE page only (13 R303), and 0 during a block reset. -/
def pageReady (s : State) (b : Blk) (i : Nat) : Bool :=
  (s.boot.pagesReady || (decide (s.boot.phase = .recovery) && decide (b = .role))) && !(hget s b i).blockReset

/-- The common header (Table 15.1). -/
def headerReg (s : State) (b : Blk) (i off : Nat) : Nat :=
  let h := hget s b i
  if off = 0x000 then blkPages b + 0x0100 * 2 ^ 16 + i * 2 ^ 32 + blkCode b * 2 ^ 48
  else if off = 0x008 then 1 + 2 * flag h.blockReset + 4 * flag h.lock + 8 * flag h.quiesce
  else if off = 0x010 then
    flag (pageReady s b i) + 2 * flag h.quiesced + 4 * flag h.frozen + 8 * flag h.degraded + 16 * pageState s b i
  else if off = 0x018 then h.evtStatus.toNat
  else if off = 0x020 then h.evtEnable.toNat
  else if off = 0x030 then h.vector + 256 * flag h.msiEn + 512 * h.severity
  else if off = 0x038 then pageRights b i
  else 0

/-- A 64-bit register of a page as a view reads it. Reading changes nothing (R330). -/
def readReg (s : State) (v : View) (b : Blk) (i off : Nat) : Nat :=
  if !pageSeen s v b i then 0
  else if pageLost s b i then (if off = 0x000 ∨ off = 0x038 then headerReg s b i off else 0)
  else if off < 0x040 then headerReg s b i off
  else (fieldsAt b i off).foldl (fun n x => n + readFld s v i x % 2 ^ x.fld.desc.w * 2 ^ x.lo) 0

end Sys2Proof.Machine
end

