-- ==== Sys2Proof/Machine/PageWrite.lean ====
section
/-! DEFINITION. Writes of page registers (15 R324 to R330; 14 R309, R314): rights, lock, ranges, the effect that each
register's chapter gives a write, block reset, and forced events. -/

namespace Sys2Proof.Machine

open Sys2Proof

/-! ### Fields -/

/-- The stated range of a field; a value outside it is ignored and the field keeps its value. -/
def fldRange (f : Fld) (copy n : Nat) : Bool :=
  match f with
  | .partCfgLeaseMs => decide (100 ≤ n ∧ n ≤ 60000)
  | .extSanitiseRate | .tierRebuildRate => decide (n ≠ 0)
  | .dirCfgBiTimeout => decide (0xA ≤ n ∧ n ≤ 0x3E8)
  | .tierCfgIoTimeout => decide (10 ≤ n ∧ n ≤ 1000)
  | .tierHintCtrlSize => decide (n ≤ 9)
  | .cmpCfgBgShare => decide (1 ≤ n ∧ n ≤ 0x40)
  | .cmpCfgCostMax => decide (0x88 ≤ n ∧ n ≤ 0x108)
  | .jobRingCtrlSize => decide (n ≤ 12)
  | .pitchSchedCfgStepMax => decide (1 ≤ n ∧ n ≤ 0x20)
  | .pitchSchedCfgWatchdog => decide (0xA ≤ n)
  | .pitchSchedCfgParkMax => decide (1 ≤ n ∧ n ≤ 20)
  | .pitchWmarkEvictBufs => decide (8 ≤ n ∧ n ≤ 64)
  | .qosCfgAgeMax => decide (5 ≤ n ∧ n ≤ 0xC8)
  | .qosCfgGuarEntries => decide (n ≤ 16)
  | .qosCfgReclaimRate => decide (1 ≤ n)
  | .qosClassCfgFrameShare => decide (n ≤ 256)
  | .qosClassCfgCacheWays => decide (n ≤ 16)
  | .qosClassCfgQueueEntries => decide (1 ≤ n ∧ n ≤ 64)
  | .qosClassCfgBudget => decide (n ≤ 32800)
  | .pcCfgPdTimer | .pcCfgTrrDecay => decide (1 ≤ n)
  | .pcCfgTrrThresh | .pcCfgRetrainDelta => decide (4 ≤ n)
  | .pcCfgFreezeHold => decide (0x64 ≤ n ∧ n ≤ 0x320)
  | .pcTrainCtrlPattern => decide (n ≤ 5)
  | .rasCfgScrubHours => decide (1 ≤ n ∧ n ≤ 168)
  | .rasCfgCeRetire => decide (2 ≤ n)
  | .belayCfgMode => decide (n ≠ 3)
  | .belayCfgWitnessWait => decide (0xA ≤ n ∧ n ≤ 0x50)
  | .belayCfgResyncRate => decide (1 ≤ n)
  | .pwrCfgAutoFloor => decide (n ≤ 4)
  | .pwrIdleTimersP1Us => decide (10 ≤ n)
  | .pwrIdleTimersP2Ms | .pwrIdleTimersP3Ms | .pwrIdleTimersP4S => decide (1 ≤ n)
  | .portLinkCfgMaxRate => decide (n ≤ 6)
  | .pinFilterFilt => !(decide (copy = 1) && decide (n = 3))
  | _ => true

/-- A field that only a maker session has (14 R307). -/
def makerFld (f : Fld) : Bool := decide (f.desc.role = 3) && decide (f.desc.acc ≠ .ro)

/-- A view has the field at all. -/
def hasFld (s : State) (v : View) (i : Nat) (f : Fld) : Bool :=
  writable i f && (!makerFld f || decide (viewRole s v = 3))

/-- The value that a written field holds before the write; a WO field holds none. -/
def heldFld (s : State) (i : Nat) (x : FldAt) : Nat :=
  match x.fld.desc.acc with
  | .wo => 0
  | _ => fget s x.fld i x.copy

/-- The field copies of a register that a written word would change. -/
def changedFlds (s : State) (v : View) (b : Blk) (i off word : Nat) : List FldAt :=
  (fieldsAt b i off).filter fun x => hasFld s v i x.fld && decide (wordFld x word ≠ heldFld s i x)

/-- The value that a field takes from a written word: what RWL fields under LOCK, absent fields and values out of
range keep is their own (R328; 08 R206). -/
def newFld (s : State) (v : View) (b : Blk) (i off word : Nat) (f : Fld) (k : Nat := 0) : Nat :=
  match (fieldsAt b i off).find? fun x => decide (x.fld = f) && decide (x.copy = k) with
  | none => fget s f i k
  | some x =>
    let n := wordFld x word
    if !hasFld s v i f || (decide (f.desc.acc = .rwl) && (hget s b i).lock) || !fldRange f k n then heldFld s i x
    else n

/-- A register's word with one field changed; the WO fields are 0. -/
def wordWith (s : State) (b : Blk) (i off : Nat) (fs : List (Fld × Nat × Nat)) : Nat :=
  (fieldsAt b i off).foldl (fun n x =>
    let v := match fs.find? fun y => decide (y.1 = x.fld) && decide (y.2.1 = x.copy) with
      | some y => y.2.2 % 2 ^ x.fld.desc.w
      | none => (match x.fld.desc.acc with
        | .rw | .rwl => fget s x.fld i x.copy
        | _ => 0)
    n + v * 2 ^ x.lo) 0

/-- Store the fields of a register. -/
def storeFlds (s : State) (b : Blk) (i off : Nat) (nv : Fld → Nat → Nat) : State :=
  (fieldsAt b i off).foldl (fun s x => match x.fld.desc.acc with
    | .rw | .rwl => if writable i x.fld then fset s x.fld (nv x.fld x.copy) i x.copy else s
    | _ => s) s

/-- Store the fields of a register whose values take effect at the next boundary. -/
def storeLate (s : State) (b : Blk) (i off : Nat) (nv : Fld → Nat → Nat) : State :=
  (fieldsAt b i off).foldl (fun s x => match x.fld.desc.acc with
    | .rw | .rwl =>
      if nv x.fld x.copy = fget s x.fld i x.copy then s else fsetLate s x.fld (nv x.fld x.copy) i x.copy
    | _ => s) s

/-! ### Effects of single registers -/

/-- FREE_LOW and FREE_HIGH, or STEP_FLOOR, keep their order; a value that would break it is ignored (08 R202). -/
def setMarks (s : State) (floor low high : Nat) : State :=
  let f0 := fget s .pitchWmarkStepFloor
  let l0 := fget s .tierCfgFreeLow 0x10
  let h0 := fget s .tierCfgFreeHigh 0x10
  let ok := fun f l h : Nat => decide (f < l) && decide (l < h)
  if ok floor low high then
    let s := if floor = f0 then s else fsetLate s .pitchWmarkStepFloor floor
    fset (fset s .tierCfgFreeLow low 0x10) .tierCfgFreeHigh high 0x10
  else if ok f0 low h0 then fset s .tierCfgFreeLow low 0x10
  else if ok f0 l0 high then fset s .tierCfgFreeHigh high 0x10
  else s

/-- A field of the settings record is accepted (R329). -/
def settleRecord (s : State) (f : Settings → Settings) : State :=
  { s with flash := { s.flash with settingsDue := f s.flash.settingsDue } }

/-- A written PART.LEASE (03 R71, R72): a renewal, a late one, or nothing. One that comes after the boundary that
finds the lease run out is late: ignored, counted and recorded in Cairn. -/
def renewPage (s : State) (p : Part) : State :=
  if pState s p = pActive && !leaseOver s p then
    let s := doRenew s p
    if twinUp s then journalSend s (.leaseRenew (decide (bRole s = roleLead)) p) else s
  else if pState s p = pOrphaned ∨ pState s p = pActive then record (finc s .partLateRenewLate p) .lateRenew p p.val
  else s

/-- A written SNAP_CMD: one command at a time (04 R92). -/
def snapCmd (s : State) (p : Part) (op base ver : Nat) : State :=
  if op = 0 ∨ 5 < op ∨ fget s .dirSnapStatusBusy p = 1 then s
  else commitJ (fset s .dirSnapStatusBusy 1 p) (.snap (decide (bRole s = roleLead)) p op base (BitVec.ofNat 32 ver))

/-- TRAIN_CTRL.RUN; a maker session trains outside the training rows (Table 14.1). -/
def trainAs (s : State) (pc : Nat) (maker : Bool) : State :=
  let h := hget s .pc pc
  if maker && (h.quiesced || h.frozen) then
    fset (fset (pcUpd s pc fun st => { st with training := true }) .pcTrainCtrlDone 0 pc) .pcTrainCtrlRefused 0 pc
  else doTrainRun s pc

/-- A ring's RING_CTRL (07 R156, R160): HOST and SIZE only while the ring is off. -/
def ringCtrl (s : State) (p : Part) (k : Ring) (nv : Fld → Nat → Nat) : State :=
  let s := if fget s .jobRingCtrlEnable p k = 1 then s
    else fset (fset s .jobRingCtrlHost (nv .jobRingCtrlHost k) p k) .jobRingCtrlSize (nv .jobRingCtrlSize k) p k
  let s := fset s .jobRingCtrlStopOnError (nv .jobRingCtrlStopOnError k) p k
  let s := fset s .jobRingCtrlInflight (nv .jobRingCtrlInflight k) p k
  setRingEnable s p k (decide (nv .jobRingCtrlEnable k = 1))

/-- A written QOS register: in a pair it takes effect as the journal entry is applied (09 R215, R218). -/
def qosSet (s : State) (i off : Nat) (nv : Fld → Nat → Nat) : State :=
  let was := storedReg s .qos i off
  let s := (fieldsAt .qos i off).foldl (fun s x =>
    let n := nv x.fld x.copy
    let cur := fget s x.fld i
    if x.fld.desc.acc ≠ .rw ∨ n = cur then s
    else if twinUp s then fsetLate s x.fld n i
    else match x.fld with
      | .qosClassCfgFrameShare | .qosClassCfgCacheWays =>
        if n < fcur s x.fld i then fsetLate s x.fld n i else fsetNow s x.fld n i
      | f => fsetNow s f n i) s
  let now := storedReg s .qos i off
  if twinUp s && decide (now ≠ was) then journalSend s (.reg .qos i off (BitVec.ofNat 64 now)) else s

/-- GUAR.GB_S: the sum rule, then as any QOS setting (09 R207, R218). -/
def guarSet (s : State) (p v : Nat) : State :=
  let was := fget s .qosGuarGbS p
  let s := if v = was then s else setGuar s p v
  if twinUp s && decide (fget s .qosGuarGbS p ≠ was) then
    journalSend s (.reg .qos p 0x048 (BitVec.ofNat 64 (storedReg s .qos p 0x048)))
  else s

/-- BELAY.CFG: PAIR_EN and PAIR_RANK go to the settings record, the rest takes effect at the next boundary through the
journal (12 R290). -/
def belayCfg (s : State) (nv : Fld → Nat → Nat) : State :=
  let en := nv .belayCfgPairEn 0
  let rank := nv .belayCfgPairRank 0
  let s := if en = fget s .belayCfgPairEn then s
    else settleRecord (fset s .belayCfgPairEn en) fun r => { r with pairEn := some en }
  let s := if rank = fget s .belayCfgPairRank then s
    else settleRecord (fset s .belayCfgPairRank rank) fun r => { r with pairRank := some rank }
  let was := storedReg s .belay 0 0x040
  let s := storeLate s .belay 0 0x040 nv
  let now := storedReg s .belay 0 0x040
  if twinUp s && decide (now ≠ was) then journalSend s (.reg .belay 0 0x040 (BitVec.ofNat 64 now)) else s

/-- BELAY.CTRL (12 R267, R271, R282, R288). -/
def belayCtrl (s : State) (retrain swap appr leave : Bool) : State :=
  let s := if retrain then askRetrainAll s true else s
  let s := if swap && twinUp s && decide (bState s = bsInSync) then commitJ s (.reg .belay 0 0x050 2) else s
  let s := if appr && decide (bState s = bsIncomplete) then approve s else s
  if leave then sendLeaving s else s

/-- ROLE.IDE_POLICY: a head that now requires IDE and has no Secure stream issues no bus-master request (14 R316). -/
def idePolicy (s : State) (v : Nat) : State :=
  let s := fset s .roleIdePolicyRequired v
  (List.finRange 16).foldl (fun s h => mastersMoved s h) s

/-- One byte of PIN.MFP_CFG (16 R348, R349). -/
def mfpCfg (s : State) (k : Nat) (maker : Bool) (nv : Fld → Nat → Nat) : State :=
  let s := fset (fset s .pinMfpCfgGpioOut (nv .pinMfpCfgGpioOut k) 0 k) .pinMfpCfgPullUp (nv .pinMfpCfgPullUp k) 0 k
  setFunc s k (nv .pinMfpCfgFunc k) maker

/-! ### The effect of a write, register by register -/

/-- The session of a view. -/
def viewSes : View → Option Session
  | .fm ses => some ses
  | .host _ _ => none

/-- A number as a partition, ring, head, slot. -/
def partNum (n : Nat) : Part := ⟨n % 16, by omega⟩
def ringNum (n : Nat) : Ring := ⟨n % 64, by omega⟩
def slotNum (n : Nat) : Slot := ⟨n % 8, by omega⟩

/-- PORT registers (02 R30, R55). -/
def applyPort (s : State) (i off : Nat) (nv : Fld → Nat → Nat) : State :=
  if off = 0x050 then
    let d := nv .portLinkCtrlDisable 0
    let s := if d = fget s .portLinkCtrlDisable i then s else disableHead s (headNum i) (decide (d = 1))
    if nv .portLinkCtrlRetrain 0 = 1 then retrainHead s (headNum i) else s
  else storeFlds s .port i off nv

/-- PART registers (03 R70 to R72). -/
def applyPart (s : State) (i off : Nat) (nv : Fld → Nat → Nat) : State :=
  if off = 0x048 then (if nv .partLeaseRenew 0 = 1 then renewPage s (partNum i) else s)
  else if off = 0x040 ∧ nv .partCfgLeaseMs 0 ≠ fget s .partCfgLeaseMs i then
    let s := storeFlds s .part i off nv
    if twinUp s then journalSend s (.reg .part i off (BitVec.ofNat 64 (nv .partCfgLeaseMs 0))) else s
  else s

/-- DIR registers (04 R89, R92, R96). -/
def applyDir (s : State) (i off : Nat) (nv : Fld → Nat → Nat) : State :=
  if off = 0x080 then snapCmd s (partNum i) (nv .dirSnapCmdOp 0) (nv .dirSnapCmdBaseGran 0) (nv .dirSnapCmdVersion 0)
  else if off = 0x0A8 then
    (if nv .dirReserveGranules 0 = fget s .dirReserveGranules i then s
     else commitJ s (.reg .dir i off (BitVec.ofNat 64 (nv .dirReserveGranules 0))))
  else storeFlds s .dir i off nv

/-- Sum of the pin limits, in GiB, with a new one of a partition (05 R109). -/
def pinLimitSum (s : State) (p v : Nat) : Nat :=
  ((List.range 16).map fun q => if q = p then v else fget s .tierPinLimitGib q).sum

/-- TIER registers (05 R105, R109, R112, R126). -/
def applyTier (s : State) (i off : Nat) (nv : Fld → Nat → Nat) : State :=
  if off = 0x040 then
    let s := fset (fset s .tierCfgIoTimeout (nv .tierCfgIoTimeout 0) i) .tierCfgWrReserve (nv .tierCfgWrReserve 0) i
    setMarks s (fget s .pitchWmarkStepFloor) (nv .tierCfgFreeLow 0) (nv .tierCfgFreeHigh 0)
  else if off = 0x060 then (if fget s .tierHintCtrlEnable i = 1 then s else storeFlds s .tier i off nv)
  else if off = 0x068 then
    let s := if fget s .tierHintCtrlEnable i = 1 then s else fset s .tierHintCtrlSize (nv .tierHintCtrlSize 0) i
    setHintEnable s (partNum i) (decide (nv .tierHintCtrlEnable 0 = 1))
  else if off = 0x080 then
    (if pinLimitSum s i (nv .tierPinLimitGib 0) ≤ 1920 then storeFlds s .tier i off nv else s)
  else if off = 0x070 then setHintProducer s (partNum i) (nv .tierHintProdProducer 0)
  else if off = 0x0C0 then
    let s := showAttn (storeFlds s .tier i off nv) (i - 0x20)
    if nv .tierSlotCtrlButton 0 = 1 then pressButton s (slotNum (i - 0x20)) else s
  else storeFlds s .tier i off nv

/-- JOB registers (07 R156, R160). -/
def applyJob (s : State) (i off : Nat) (nv : Fld → Nat → Nat) : State :=
  let k := ringNum ((off - 0x100) / 32)
  if (off - 0x100) % 32 = 0 then
    (if fget s .jobRingCtrlEnable i k = 1 then s else fset s .jobRingBaseBase (nv .jobRingBaseBase k) i k)
  else if (off - 0x100) % 32 = 8 then ringCtrl s (partNum i) k nv
  else s

/-- QOS registers (09 R207, R215, R216). -/
def applyQos (s : State) (i off : Nat) (nv : Fld → Nat → Nat) : State :=
  if off = 0x048 then guarSet s i (nv .qosGuarGbS 0)
  else if off = 0x058 then setReclaim s (i - 16) (decide (nv .qosReclaimStart 0 = 1))
  else qosSet s i off nv

/-- PC registers (10 R232, R235, R243). -/
def applyPc (s : State) (i off : Nat) (maker : Bool) (nv : Fld → Nat → Nat) : State :=
  if off = 0x040 then storeLate s .pc i off nv
  else if off = 0x060 then freezeAct s i (nv .pcFreezeActAction 0)
  else
    let s := storeFlds s .pc i off nv
    if off = 0x078 ∧ nv .pcTrainCtrlRun 0 = 1 then trainAs s i maker else s

/-- RAS registers (11 R252, R256). -/
def applyRas (s : State) (off : Nat) (nv : Fld → Nat → Nat) : State :=
  if off = 0x078 then
    retireCmd s ⟨nv .rasRetireCmdOp 0, nv .rasRetireCmdPc 0, nv .rasRetireCmdRank 0, nv .rasRetireCmdBank 0,
      nv .rasRetireCmdRow 0, false⟩
  else storeFlds s .ras 0 off nv

/-- BELAY registers (12 R290). -/
def applyBelay (s : State) (off : Nat) (nv : Fld → Nat → Nat) : State :=
  if off = 0x040 then belayCfg s nv
  else if off = 0x050 then
    belayCtrl s (decide (nv .belayCtrlRetrain 0 = 1)) (decide (nv .belayCtrlSwap 0 = 1))
      (decide (nv .belayCtrlApprove 0 = 1)) (decide (nv .belayCtrlLeave 0 = 1))
  else if nv .belayWitnessRenew 0 = 1 then renewWitness s
  else s

/-- PWR registers (13 R294, R300, R301, R306). -/
def applyPwr (s : State) (off : Nat) (nv : Fld → Nat → Nat) : State :=
  if off = 0x050 then
    let s := setTarget s (nv .pwrCtrlTarget 0)
    if nv .pwrCtrlWarmReset 0 = 1 then warmReset s 2 else s
  else if off = 0x090 then
    (if nv .pwrClusterResetGo 0 = 1 then startClusterReset s (nv .pwrClusterResetCluster 0) else s)
  else storeLate s .pwr 0 off nv

/-- ROLE registers (14 R313, R316, R321). -/
def applyRole (s : State) (v : View) (off : Nat) (nv : Fld → Nat → Nat) : State :=
  if off = 0x080 then idePolicy s (nv .roleIdePolicyRequired 0)
  else
    let s := storeFlds s .role 0 off nv
    match viewSes v with
    | none => s
    | some ses =>
      if off = 0x048 then
        let s := if nv .roleAnchorCtrlCommit 0 = 1 then commitAnchor s ses else s
        if nv .roleAnchorCtrlClear 0 = 1 then clearAnchor s ses else s
      else if off = 0x098 then
        (if nv .roleFwCtrlOp 0 = 1 then acceptImage s else if nv .roleFwCtrlOp 0 = 2 then revokeImage s else s)
      else s

/-- PITCH registers (01 R27; 08 R206). -/
def applyPitch (s : State) (off : Nat) (nv : Fld → Nat → Nat) : State :=
  if off = 0x040 then
    let len := nv .pitchCfgLen 0
    let s := if len = fget s .pitchCfgLen then s
      else settleRecord (fset s .pitchCfgLen len) fun r => { r with pitchLen := some len }
    fset s .pitchCfgSyncOutEn (nv .pitchCfgSyncOutEn 0)
  else if off = 0x080 then storeLate s .pitch 0 off nv
  else if off = 0x088 then
    let e := nv .pitchWmarkEvictBufs 0
    let s := if e = fget s .pitchWmarkEvictBufs then s else fsetLate s .pitchWmarkEvictBufs e
    setMarks s (nv .pitchWmarkStepFloor 0) (fget s .tierCfgFreeLow 0x10) (fget s .tierCfgFreeHigh 0x10)
  else storeFlds s .pitch 0 off nv

/-- The write of a block-specific register takes effect. -/
def applyPage (s : State) (v : View) (b : Blk) (i off : Nat) (nv : Fld → Nat → Nat) : State :=
  let maker := decide (viewRole s v = 3)
  match b with
  | .port => applyPort s i off nv
  | .part => applyPart s i off nv
  | .dir => applyDir s i off nv
  | .tier => applyTier s i off nv
  | .job => applyJob s i off nv
  | .qos => applyQos s i off nv
  | .pc => applyPc s i off maker nv
  | .ras => applyRas s off nv
  | .belay => applyBelay s off nv
  | .pwr => applyPwr s off nv
  | .role => applyRole s v off nv
  | .pitch => applyPitch s off nv
  | .id =>
    let t := nv .idConfigSelTiered 0
    if off = 0x070 ∧ t ≠ fget s .idConfigSelTiered then
      settleRecord (fset s .idConfigSelTiered t) fun r => { r with tiered := some t }
    else s
  | .pin =>
    if 0x050 ≤ off ∧ off < 0x090 then
      (List.range 8).foldl (fun s k => mfpCfg s ((off - 0x050) + k) maker nv) s
    else storeFlds s .pin 0 off nv
  | .ext | .cmp | .store | .cairn => storeFlds s b i off nv

/-! ### Block reset (R327) -/

/-- The counters that a block reset clears; those of QOS it keeps (09 R219). -/
def isCounter : Fld → Bool
  | .pitchLateCountLate | .pitchAlignLossCountLosses | .pitchStealCountLocal | .pitchStealCountNeighbour
  | .pitchTraverseCountTraverses | .pitchTraverseCountRebalanced | .pitchParkStatsParks | .pitchParkStatsFloorWaits
  | .pitchOverrunStatsOverruns | .pitchOverrunStatsShrinks | .pitchWatchdogStatsTrips | .pitchRemapRemapped
  | .portErrCountRxErr | .portErrCountReplays | .portErrCountRetrains | .portErrCountEqFail128
  | .partLeaseRenewals | .partLateRenewLate
  | .dirCapEvictEvictions | .dirCapEvictVictimWaits | .dirBiStatsBiSent | .dirBiStatsBiTimeouts
  | .dirCrossingsWbCross | .dirCrossingsCleanCross
  | .tierHintConsIgnored | .tierFillStatsFills | .tierFillStatsSlowFills | .tierSlotIoErrors | .tierSlotIoTimeouts
  | .cmpCompactionAdmitted | .cmpCompactionStoredRaw | .cmpCompactFaultsVerifyFail | .cmpCompactFaultsStale
  | .cmpCheckFailsIndex | .cmpCheckFailsHeader | .cmpCheckFailsFactor | .cmpCheckFailsResidual
  | .cmpExpanderExpanded | .cmpExpanderBacklog | .cmpExpLoadCacheHits
  | .jobStatsCompleted | .jobStatsFailed | .jobStepStatsReruns | .jobStepStatsOverruns | .jobRingCountDone
  | .pcDramStatsActivates | .pcDramStatsInOrderEntries | .pcRefreshStatsTrr | .pcRefreshStatsPostponed
  | .pcRefreshStatsRetired
  | .storeBgtestLate | .storeBgtestPasses | .storeRepairTestFails | .storeConflictsStalls
  | .storeConflictsPromotions | .storeRetainWakes
  | .rasScrubStatusPasses | .rasLineErrsCeLines | .rasLineErrsUeLines | .rasSramErrsCe | .rasSramErrsUe
  | .rasPoisonPoisonReads | .rasPoisonViralIgnored | .rasRetiredBlocks | .rasRetiredRows | .rasRetiredBanks
  | .rasRetiredPcs
  | .cairnCoalesceStatsLatched | .cairnCoalesceStatsSummaries | .cairnStreamStatsSent | .cairnStreamStatsReceived
  | .cairnLrStatsLrWritten
  | .belayDigestStatsCompared | .belayDigestStatsMismatches | .belayTwinStatsGivenUp | .belayTwinStatsRetrains
  | .belayForwardStatsFwdReq | .belayForwardStatsFencedWrites | .belayJournalApplied | .belayGroupsRetrains
  | .pwrResidencyPitches | .pwrTransitionsEntries | .pwrTransitionsAborted
  | .roleDeniedWrites | .roleDeniedSessionsRefused | .roleAuditsRecords | .roleKeysEpochsRetired
  | .idBadAccessCount => true
  | _ => false

/-- The offsets of the registers of a page, those of the highest offset first: a ring is turned off before its base
returns. -/
def rwOffs (b : Blk) (i : Nat) : List Nat :=
  (((Fld.ofBlk b).flatMap fun f =>
    if writable i f && decide (f.desc.acc = .rw) then
      (List.range f.desc.cnt).map fun k => f.desc.off + f.desc.stride * (k / f.desc.per)
    else []).eraseDups).reverse

/-- Each RW field of a register returns to its reset value, with the effect of a write of it. -/
def rwReset (s : State) (v : View) (b : Blk) (i off : Nat) : State :=
  applyPage s v b i off fun f k => match f.desc.acc with
    | .rw => f.desc.rst
    | .wo => 0
    | _ => fget s f i k

/-- What chapters add to a block reset: the rate cap of a head, and the peaks (02 R33; 10 Table 10.5;
16 Table 16.11). -/
def resetMore (s : State) (b : Blk) (i : Nat) : State :=
  match b with
  | .port => headUpd (fset s .portLinkStatusCapped64 0 i) i fun x => { x with eqFails := [] }
  | .pc => fset s .pcTempTempPeak (fget s .pcTempTempC i) i
  | .pin => fset s .pinThermalLogicPeakC (fget s .pinThermalLogicMaxC)
  | _ => s

/-- A block reset starts. -/
def startBlockReset (s : State) (v : View) (b : Blk) (i : Nat) : State :=
  let offs := rwOffs b i
  let s := (offs ++ offs).foldl (fun s off => rwReset s v b i off) s
  let s := if b = .pc ∧ (hget s b i).quiesce then doQuiesce s i false else s
  let s := fclear s fun k => isCounter k.fld && decide (k.fld.desc.blk = b) && decide (k.inst = i)
  resetMore (hupd s b i fun h =>
    { h with blockReset := true, evtStatus := 0, evtEnable := 0, vector := 0, msiEn := false, severity := 0 }) b i

/-! ### Forced events (R326) -/

/-- The events of a block in the order of their EVT_STATUS bits. -/
def evtsOf : Blk → List Evt
  | .pitch => [.pitchTbLoss, .pitchTbRestored, .pitchAlignLost, .pitchBoundaryLate]
  | .port => [.portLinkUp, .portLinkDown, .portWidthDegraded, .portRateDown, .portNotCxl, .portCapped64]
  | .part => [.partLeaseLow, .partOrphaned, .partAddOffered, .partReleaseRequested, .partForcedRelease,
      .partUnheldAccess, .partRevived]
  | .ext => [.extLimitHit, .extSanitiseDone, .extListChanged]
  | .dir => [.dirReaderWrite, .dirBiTimeout, .dirBiDisabled, .dirVictimFull, .dirCommitted, .dirDraftAbandoned,
      .dirReserveLow]
  | .tier => [.tierDegraded, .tierRebuildDone, .tierBlockLost, .tierSlotChange, .tierButton, .tierPowerFault,
      .tierPathLost, .tierNotAdmitted, .tierRemoveRefused, .tierPinLimit, .tierHintIgnored, .tierHintHalted]
  | .cmp => [.cmpDamaged, .cmpVerifyFail, .cmpTableBad, .cmpBacklog]
  | .job => [.jobRingHalted, .jobJobFailed, .jobOverflow, .jobRerun, .jobOverrun, .jobWindowWrite]
  | .qos => [.qosGuarRefused, .qosGuarMissed, .qosClassOver, .qosHotPc, .qosReclaimDone]
  | .pc => [.pcFrozen, .pcFailed, .pcRefresh2x, .pcThrottle, .pcTrip, .pcTempInvalid, .pcTrr, .pcRetrainDue,
      .pcTrainDone, .pcTrainAborted]
  | .store => [.storeTestFail, .storeRepaired, .storeBankFailed, .storeTestLate]
  | .ras => [.rasCeLine, .rasUeLine, .rasSramCe, .rasSramUe, .rasRetired, .rasSparesLow, .rasScrubPass,
      .rasPoisonRead]
  | .cairn => [.cairnLogDegraded, .cairnSpillWrap, .cairnStreamGap, .cairnOverflow, .cairnLrWrap]
  | .belay => [.belayPaired, .belayPairRefused, .belayTwinLost, .belayFenced, .belayUnfenced, .belayResyncDone,
      .belayIncomplete, .belayDigestMismatch, .belayGroupDown, .belayWitnessLapsed, .belayRoleChanged,
      .belayCovering]
  | .pwr => [.pwrRungEntered, .pwrRungExited, .pwrEntryAborted, .pwrEntryRefused, .pwrExitLate, .pwrBootAltImage,
      .pwrClusterResetDone]
  | .role => [.roleSessionOpened, .roleSessionRefused, .roleWriteDenied, .roleAnchorChanged, .roleIdeFail,
      .roleFwStaged, .roleFwAccepted, .roleFwRejected, .roleMakerRefused]
  | .pin => [.pinRailFault, .pinThermtrip, .pinFlowLost, .pinFlowRestored, .pinMfpSwitched]
  | .id => []

/-- The audit record is committed first, so that it has the lower SEQ; then each event named is raised. -/
def forceEvents (s : State) (ses : Session) (b : Blk) (i bits : Nat) : State :=
  let s := commitSlot s (srcKey 0x0100 (0x0300 + ses))
  (evtsOf b).foldl (fun s e => if bits.testBit e.info.2.1 then raise s e i else s) s

/-! ### The write of a register -/

/-- A header write would change what the view may not write (R309, R327): PAGE_CTRL.LOCK, QUIESCE and EVT_FORCE are the
installer's. -/
def headerDenied (s : State) (v : View) (b : Blk) (i off word : Nat) : Bool :=
  let h := hget s b i
  let inst := decide (2 ≤ viewRole s v)
  let page := mayPage s v b i
  if off = 0x008 then
    (word.testBit 1 && !h.blockReset && !page) || (word.testBit 2 && !h.lock && !inst) ||
      (decide (b = .pc) && decide (word.testBit 3 ≠ h.quiesce) && !inst)
  else if off = 0x018 then decide (BitVec.ofNat 64 word &&& h.evtStatus ≠ 0) && !page
  else if off = 0x020 then decide (BitVec.ofNat 64 word ≠ h.evtEnable) && !page
  else if off = 0x028 then decide (word ≠ 0) && !inst
  else if off = 0x030 then
    decide (bitsAt word 0 12 ≠ h.vector + 256 * flag h.msiEn + 512 * h.severity) && !page
  else false

/-- A write of EVT_STATUS clears the bits written as 1 (00 R8). -/
def evtClear (s : State) (b : Blk) (i word : Nat) : State :=
  hupd s b i fun h => { h with evtStatus := h.evtStatus &&& ~~~(BitVec.ofNat 64 word) }

/-- A header write takes effect (Table 15.1); that of EVT_STATUS is `evtClear`. -/
def headerWrite (s : State) (v : View) (b : Blk) (i off word : Nat) : State :=
  let h := hget s b i
  if off = 0x008 then
    let s := if word.testBit 2 then hupd s b i fun h => { h with lock := true } else s
    let s := if b = .pc ∧ word.testBit 3 ≠ h.quiesce then doQuiesce s i (word.testBit 3) else s
    if word.testBit 1 && !h.blockReset then startBlockReset s v b i else s
  else if off = 0x020 then hupd s b i fun h => { h with evtEnable := BitVec.ofNat 64 word }
  else if off = 0x028 then (match viewSes v with
    | some ses => forceEvents s ses b i word
    | none => s)
  else if off = 0x030 then
    hupd s b i fun h => { h with vector := bitsAt word 0 8, msiEn := word.testBit 8, severity := bitsAt word 9 3 }
  else s

/-- A write is without the right (R309). A session whose role is not fixed holds no right. -/
def writeDenied (s : State) (v : View) (b : Blk) (i off word : Nat) : Bool :=
  (match v with
    | .fm ses => decide (roleOf s ses = 0)
    | .host _ _ => false) ||
  (if off < 0x040 then headerDenied s v b i off word
   else (changedFlds s v b i off word).any fun x => !mayField s v x.fld)

/-- LOCK keeps an RWL field that the write would change (R328). -/
def lockCuts (s : State) (v : View) (b : Blk) (i off word : Nat) : Bool :=
  (hget s b i).lock && (changedFlds s v b i off word).any fun x => decide (x.fld.desc.acc = .rwl)

/-- The audit record of an accepted write in an installer or maker session (R314). -/
def auditWrite (s : State) (v : View) (b : Blk) (i off word old : Nat) : State :=
  match v with
  | .fm ses => audit s ses (blkCode b) i off word old
  | .host _ _ => s

/-- A 64-bit write of a page register: dropped where no page or register is (R324, R330, R332), refused without the
right (R309), held to EVT_STATUS during a block reset (R327), cut by LOCK (R328), audited (R314), applied. EVT_STATUS is
cleared first, so that a bit which the hardware sets during the write stays set (00 R9). -/
def writeReg (s : State) (v : View) (b : Blk) (i off word : Nat) : State × RetCode :=
  if !pageSeen s v b i || pageLost s b i then (s, .success)
  else if writeDenied s v b i off word then (deny s v, .invalidSecurityState)
  else if !pageReady s b i && !(decide (off = 0x018) && (hget s b i).blockReset) then (s, .success)
  else
    let cut := lockCuts s v b i off word
    let old := readReg s v b i off
    let s := if off = 0x018 then evtClear s b i word else s
    let s := auditWrite s v b i off word old
    let s := if cut then deny s v else s
    if off < 0x040 then (headerWrite s v b i off word, .success)
    else (applyPage s v b i off fun f k => newFld s v b i off word f k, .success)

/-! ### The ways to a page -/

/-- A write in the fabric-manager view of a session. -/
def fmWrite (s : State) (ses : Session) (b : Blk) (i off word : Nat) : State :=
  if sesUp s ses then (writeReg (sessionMsg s ses) (.fm ses) b i off word).1 else s

/-- A write of single fields of a register in the fabric-manager view; the others keep their values. -/
def fmField (s : State) (ses : Session) (b : Blk) (i off : Nat) (fs : List (Fld × Nat × Nat)) : State :=
  fmWrite s ses b i off (wordWith s b i off fs)

/-- A write of single fields of a register through a partition's BAR0. -/
def hostField (s : State) (h : Head) (p : Part) (b : Blk) (off : Nat) (fs : List (Fld × Nat × Nat)) : State :=
  ioWrite s h p fun s => (writeReg s (.host p h) b p off (wordWith s b p off fs)).1

/-- A write in either view. -/
def viewWrite (s : State) (v : View) (b : Blk) (i off word : Nat) : State :=
  match v with
  | .fm ses => fmWrite s ses b i off word
  | .host p h => ioWrite s h p fun s => (writeReg s v b i off word).1

end Sys2Proof.Machine
end

