-- ==== Sys2Proof/Machine/PageCmds.lean ====
section
/-! DEFINITION. The commands that write or read page registers (15 R324 to R333), and the windows of BAR0 and BAR2
(02 R41 to R44). -/

namespace Sys2Proof.Machine

open Sys2Proof

/-! ### BAR windows -/

/-- The page and offset of a BAR0 offset (15 R332). -/
def bar0Page (bar0 : Nat) : Option (Blk × Nat × Nat) :=
  if bar0 < 0x100000 then none
  else
    let rel := bar0 - 0x100000
    let inst := rel % 0x400000 / 0x1000
    match blkList.find? fun b => decide (blkCode b / 16 = rel / 0x400000) with
    | some b => if blkHasInst b inst then some (b, inst, rel % 0x1000) else none
    | none => none

/-- One double word of an MSI-X table entry: address low, address high, data, and the mask bit in bit 0 of the
last. PRESUMED: the layout of PCI Express Base; the spec gives 16 bytes an entry (02 Table 2.4); log 67. -/
def msixWord (e : MsixEntry) (i v : Nat) : MsixEntry :=
  match i with
  | 0 => { e with addr := BitVec.ofNat 64 (e.addr.toNat / 2 ^ 32 * 2 ^ 32 + v % 2 ^ 32) }
  | 1 => { e with addr := BitVec.ofNat 64 (e.addr.toNat % 2 ^ 32 + v % 2 ^ 32 * 2 ^ 32) }
  | 2 => { e with data := BitVec.ofNat 32 v }
  | _ => { e with masked := v.testBit 0 }

/-- A write of the MSI-X table, of one aligned double word or two; a vector that it unmasks sends its pending
message (R44). -/
def msixWrite (s : State) (o off width value : Nat) : State :=
  let vec := off / 16
  let i := off % 16 / 4
  if off % width ≠ 0 ∨ (width ≠ 4 ∧ width ≠ 8) then s
  else
    let e := msixWord (msixOf s o vec) i value
    let e := if width = 8 then msixWord e (i + 1) (value / 2 ^ 32) else e
    flushVecs (msixSet s o vec e) o

/-- A write of BAR0: pages take 64-bit aligned writes only (15 R330); the MSI-X table; elsewhere dropped (R41). -/
def bar0Write (s : State) (v : View) (owner off width value : Nat) : State :=
  if 0x20000 ≤ off ∧ off < 0x21000 then msixWrite s owner (off - 0x20000) width value
  else if off < 0x100000 then s
  else if width ≠ 8 ∨ off % 8 ≠ 0 then finc s .idBadAccessCount
  else match bar0Page off with
    | some (b, i, o) => (writeReg s v b i o value).1
    | none => s

/-- A write of BAR2: a ring's doorbell, or device-resident ring memory (02 Table 2.5). -/
def bar2Write (s : State) (p : Part) (off : Nat) (bytes : List Byte) : State :=
  let k := off / 0x1000000 % 64
  let o := off % 0x1000000
  if o = 0 ∧ 4 ≤ bytes.length then doDoorbell s p (ringNum k) (leAt bytes 0 4)
  else if 0x800000 ≤ o then { s with ringMem := Memory.write s.ringMem (p.val * 2 ^ 30 + off) bytes }
  else s

/-- A write of a window through a view. -/
def windowWriteIn (s : State) (v : View) (t : RegTarget) (width : Nat) (value : W64) : State :=
  match v, t with
  | .host p h, .bar0 off => ioWrite s h p fun s => bar0Write s v p off width value.toNat
  | .host p h, .bar2 off bs => ioWrite s h p fun s => bar2Write s p off bs
  | .host p h, .rom _ => ioWrite s h p fun s => s
  | .fm ses, .bar0 off => if sesUp s ses then bar0Write (sessionMsg s ses) v 16 off width value.toNat else s
  | .fm ses, _ => if sesUp s ses then sessionMsg s ses else s

/-- The page that a page command names (R333). -/
def cmdPage (blk inst off : Nat) : Option Blk :=
  match blkOfCode blk with
  | some b => if blkHasInst b inst && decide (off % 8 = 0) && decide (off < 0x1000) then some b else none
  | none => none

/-- Registers read in increasing offset. -/
def readRegs (s : State) (v : View) (b : Blk) (inst off count : Nat) : List Nat :=
  (List.range count).map fun k => readReg s v b inst (off + 8 * k)

/-! ### Meanings: page commands -/

/-- READ_PAGE_REGISTER (15 R333). -/
def execReadPageRegister (ses : Session) (blk inst off count : Nat) (s : State) : Host.Outcome State Fault Refusal :=
  .next (fmOp s ses fun s => match cmdPage blk inst off with
    | some b =>
      if count = 0 ∨ 64 < count ∨ 0x1000 < off + 8 * count then fmAnswer s ses .invalidInput
      else fmAnswer s ses .success (readRegs s (.fm ses) b inst off count)
    | none => fmAnswer s ses .invalidInput)

/-- WRITE_PAGE_REGISTER (15 R333). -/
def execWritePageRegister (ses : Session) (blk inst off rsvd : Nat) (value : W64) (s : State) :
    Host.Outcome State Fault Refusal :=
  .next (fmOp s ses fun s => match cmdPage blk inst off with
    | some b =>
      if rsvd ≠ 0 then fmAnswer s ses .invalidInput
      else
        let r := writeReg s (.fm ses) b inst off value.toNat
        fmAnswer r.1 ses r.2
    | none => fmAnswer s ses .invalidInput)

/-- REGISTER_WRITE (15 R330). -/
def execRegisterWrite (view : View) (target : RegTarget) (widthBytes : Nat) (value : W64) (s : State) :
    Host.Outcome State Fault Refusal := .next (windowWriteIn s view target widthBytes value)

/-- BLOCK_RESET (15 R327). -/
def execBlockReset (view : View) (blk : Blk) (inst : Nat) (s : State) : Host.Outcome State Fault Refusal :=
  .next (viewWrite s view blk inst 0x008 2)

/-- BLOCK_RESET_DONE (15 R327). -/
def execBlockResetDone (blk : Blk) (inst : Nat) (s : State) : Host.Outcome State Fault Refusal :=
  .next (if (hget s blk inst).blockReset then hupd s blk inst fun h => { h with blockReset := false } else s)

/-- LOCK (15 R328): QUIESCE keeps its value. -/
def execLock (ses : Session) (blk : Blk) (inst : Nat) (s : State) : Host.Outcome State Fault Refusal :=
  .next (fmWrite s ses blk inst 0x008 (4 + 8 * flag (hget s blk inst).quiesce))

/-- EVT_STATUS_CLEAR (00 R9). -/
def execEvtStatusClear (view : View) (blk : Blk) (inst : Nat) (bits : W64) (s : State) :
    Host.Outcome State Fault Refusal := .next (viewWrite s view blk inst 0x018 bits.toNat)

/-- EVT_FORCE (15 R326). -/
def execEvtForce (ses : Session) (blk : Blk) (inst : Nat) (bits : W64) (s : State) :
    Host.Outcome State Fault Refusal := .next (fmWrite s ses blk inst 0x028 bits.toNat)

/-! ### Meanings: heads, power, pins -/

/-- RETRAIN (02 R30). -/
def execRetrain (ses : Session) (h : Head) (s : State) : Host.Outcome State Fault Refusal :=
  .next (fmField s ses .port h 0x050 [(.portLinkCtrlRetrain, 0, 1)])

/-- DISABLE (02 R55). -/
def execDisable (ses : Session) (h : Head) (on : Bool) (s : State) : Host.Outcome State Fault Refusal :=
  .next (fmField s ses .port h 0x050 [(.portLinkCtrlDisable, 0, flag on)])

/-- TARGET_WRITE (13 R294). -/
def execTargetWrite (ses : Session) (n : Fin 8) (s : State) : Host.Outcome State Fault Refusal :=
  .next (fmField s ses .pwr 0 0x050 [(.pwrCtrlTarget, 0, n)])

/-- WARM_RESET (13 R300). -/
def execWarmReset (ses : Session) (s : State) : Host.Outcome State Fault Refusal :=
  .next (fmField s ses .pwr 0 0x050 [(.pwrCtrlWarmReset, 0, 1)])

/-- CLUSTER_RESET (13 R301). -/
def execClusterReset (ses : Session) (c : Cluster) (s : State) : Host.Outcome State Fault Refusal :=
  .next (fmField s ses .pwr 0 0x090 [(.pwrClusterResetCluster, 0, c), (.pwrClusterResetGo, 0, 1)])

/-- MFP_FUNC_WRITE (16 R349). -/
def execMfpFuncWrite (ses : Session) (pin : Pin) (func : Fin 16) (s : State) : Host.Outcome State Fault Refusal :=
  .next (fmField s ses .pin 0 (0x050 + pin.val / 8 * 8) [(.pinMfpCfgFunc, pin, func)])

/-! ### Meanings: leases, snapshots, hints, rings -/

/-- LEASE_RENEW (03 R71). -/
def execLeaseRenew (h : Head) (p : Part) (s : State) : Host.Outcome State Fault Refusal :=
  .next (hostField s h p .part 0x048 [(.partLeaseRenew, 0, 1)])

/-- The journal already carries the expiry. -/
def expiryDue (s : State) (p : Part) : Bool := s.belay.journal.any fun e => decide (e.body = .leaseExpire p)

/-- The test of one lease against the count of the boundary (R71): the lead of a pair declares the expiry. -/
def leaseTest (s : State) (p : Part) : State :=
  if leaseOver s p && !expiryDue s p && !(twinUp s && decide (bRole s = roleSecond)) then commitJ s (.leaseExpire p) else s

/-- LEASE_EXPIRY (03 R71, R72): the same test, which every boundary makes as its first action (01 Table 1.7). -/
def execLeaseExpiry (p : Part) (s : State) : Host.Outcome State Fault Refusal := .next (leaseTest s p)

/-- A host write of SNAP_CMD. -/
def snapWrite (s : State) (h : Head) (p : Part) (op base ver : Nat) : State :=
  hostField s h p .dir 0x080 [(.dirSnapCmdOp, 0, op), (.dirSnapCmdBaseGran, 0, base), (.dirSnapCmdVersion, 0, ver)]

/-- OPEN (04 R92). -/
def execSnapOpen (h : Head) (p : Part) (base : BitVec 21) (version : BitVec 32) (s : State) :
    Host.Outcome State Fault Refusal := .next (snapWrite s h p snOpen base.toNat version.toNat)

/-- CLOSE (04 R92). -/
def execSnapClose (h : Head) (p : Part) (base : BitVec 21) (s : State) : Host.Outcome State Fault Refusal :=
  .next (snapWrite s h p snClose base.toNat 0)

/-- DRAFT (04 R94). -/
def execSnapDraft (h : Head) (p : Part) (base : BitVec 21) (s : State) : Host.Outcome State Fault Refusal :=
  .next (snapWrite s h p snDraft base.toNat 0)

/-- COMMIT (04 R95). -/
def execSnapCommit (h : Head) (p : Part) (base : BitVec 21) (s : State) : Host.Outcome State Fault Refusal :=
  .next (snapWrite s h p snCommit base.toNat 0)

/-- ABANDON (04 R95). -/
def execSnapAbandon (h : Head) (p : Part) (base : BitVec 21) (s : State) : Host.Outcome State Fault Refusal :=
  .next (snapWrite s h p snAbandon base.toNat 0)

/-- RESERVE_WRITE (04 R96). -/
def execReserveWrite (ses : Session) (granules : BitVec 21) (s : State) : Host.Outcome State Fault Refusal :=
  .next (fmField s ses .dir 0x10 0x0A8 [(.dirReserveGranules, 0, granules.toNat)])

/-- HINT_ENABLE (05 R105). -/
def execHintEnable (h : Head) (p : Part) (on : Bool) (s : State) : Host.Outcome State Fault Refusal :=
  .next (hostField s h p .tier 0x068 [(.tierHintCtrlEnable, 0, flag on)])

/-- HINT_PRODUCER (05 R105). -/
def execHintProducer (h : Head) (p : Part) (producer : BitVec 32) (s : State) : Host.Outcome State Fault Refusal :=
  .next (hostField s h p .tier 0x070 [(.tierHintProdProducer, 0, producer.toNat)])

/-- RING_ENABLE (07 R160). -/
def execRingEnable (h : Head) (p : Part) (ring : Ring) (on : Bool) (s : State) : Host.Outcome State Fault Refusal :=
  .next (hostField s h p .job (0x108 + 32 * ring.val) [(.jobRingCtrlEnable, ring, flag on)])

/-- BUTTON (05 R126). -/
def execButton (ses : Session) (slot : Slot) (s : State) : Host.Outcome State Fault Refusal :=
  .next (fmField s ses .tier (0x20 + slot.val) 0x0C0 [(.tierSlotCtrlButton, 0, 1)])

/-! ### Meanings: regulation -/

/-- GUAR_WRITE (09 R207). -/
def execGuarWrite (ses : Session) (p : Part) (gbs : BitVec 15) (s : State) : Host.Outcome State Fault Refusal :=
  .next (fmField s ses .qos p 0x048 [(.qosGuarGbS, 0, gbs.toNat)])

/-- RECLAIM_START (09 R216). -/
def execReclaimStart (ses : Session) (cls : TaskClass) (on : Bool) (s : State) : Host.Outcome State Fault Refusal :=
  .next (fmField s ses .qos (qosCls cls) 0x058 [(.qosReclaimStart, 0, flag on)])

/-! ### Meanings: PC controllers and retirement -/

/-- A FREEZE_ACT action: Efirazu's own, or a session's write (10 R235). -/
def freezeWrite (s : State) (a : Actor) (pc : PcId) (action : Nat) : State :=
  match a with
  | .efirazu => freezeAct s pc action
  | .session ses => fmField s ses .pc pc 0x060 [(.pcFreezeActAction, 0, action)]

/-- RESUME (10 R235). -/
def execResume (actor : Actor) (pc : PcId) (s : State) : Host.Outcome State Fault Refusal :=
  .next (freezeWrite s actor pc 1)

/-- RETIRE_ROW (10 R235). -/
def execRetireRow (actor : Actor) (pc : PcId) (s : State) : Host.Outcome State Fault Refusal :=
  .next (freezeWrite s actor pc 2)

/-- FAIL (10 R235). -/
def execFail (actor : Actor) (pc : PcId) (s : State) : Host.Outcome State Fault Refusal :=
  .next (freezeWrite s actor pc 3)

/-- QUIESCE (15 R324; 10 R233). -/
def execQuiesce (ses : Session) (pc : PcId) (on : Bool) (s : State) : Host.Outcome State Fault Refusal :=
  .next (fmWrite s ses .pc pc 0x008 (8 * flag on))

/-- TRAIN_RUN (10 R232): a TRAIN_CTRL word with RUN set. -/
def execTrainRun (ses : Session) (pc : PcId) (value : W64) (s : State) : Host.Outcome State Fault Refusal :=
  .next (fmWrite s ses .pc pc 0x078 (value ||| 1#64).toNat)

/-- A write of RETIRE_CMD (11 R256). -/
def retireWrite (s : State) (ses : Session) (op pc rank bank row : Nat) : State :=
  fmField s ses .ras 0 0x078 [(.rasRetireCmdOp, 0, op), (.rasRetireCmdPc, 0, pc), (.rasRetireCmdRank, 0, rank),
    (.rasRetireCmdBank, 0, bank), (.rasRetireCmdRow, 0, row)]

/-- BLOCK (11 R254). -/
def execRetireBlock (ses : Session) (pc : PcId) (rank : Fin 2) (bank : Fin 16) (row : BitVec 16) (s : State) :
    Host.Outcome State Fault Refusal := .next (retireWrite s ses 1 pc rank bank row.toNat)

/-- ROW (11 R256). -/
def execRetireRowCmd (ses : Session) (pc : PcId) (rank : Fin 2) (bank : Fin 16) (row : BitVec 16) (s : State) :
    Host.Outcome State Fault Refusal := .next (retireWrite s ses 2 pc rank bank row.toNat)

/-- BANK (11 R256). -/
def execRetireBank (ses : Session) (pc : PcId) (rank : Fin 2) (bank : Fin 16) (s : State) :
    Host.Outcome State Fault Refusal := .next (retireWrite s ses 3 pc rank bank 0)

/-- PC (11 R256). -/
def execRetirePc (ses : Session) (pc : PcId) (s : State) : Host.Outcome State Fault Refusal :=
  .next (retireWrite s ses 4 pc 0 0 0)

/-- READ_SEQ_WRITE (11 R260). -/
def execReadSeqWrite (ses : Session) (seq : BitVec 40) (s : State) : Host.Outcome State Fault Refusal :=
  .next (fmField s ses .cairn 0 0x060 [(.cairnReadSeqSeq, 0, seq.toNat)])

/-! ### Meanings: the pair -/

/-- LEAVE (12 R282). -/
def execLeave (ses : Session) (s : State) : Host.Outcome State Fault Refusal :=
  .next (fmField s ses .belay 0 0x050 [(.belayCtrlLeave, 0, 1)])

/-- SWAP (12 R267). -/
def execSwap (ses : Session) (s : State) : Host.Outcome State Fault Refusal :=
  .next (fmField s ses .belay 0 0x050 [(.belayCtrlSwap, 0, 1)])

/-- APPROVE (12 R288). -/
def execApprove (ses : Session) (s : State) : Host.Outcome State Fault Refusal :=
  .next (fmField s ses .belay 0 0x050 [(.belayCtrlApprove, 0, 1)])

/-- BELAY_RETRAIN (12 R271): a written CTRL.RETRAIN, or the twin's request. -/
def execBelayRetrain (from' : Option Session) (s : State) : Host.Outcome State Fault Refusal :=
  .next (match from' with
    | some ses => fmField s ses .belay 0 0x050 [(.belayCtrlRetrain, 0, 1)]
    | none => askRetrainAll s false)

/-- RENEW (12 R283, R284). -/
def execRenew (ses : Session) (s : State) : Host.Outcome State Fault Refusal :=
  .next (fmField s ses .belay 0 0x058 [(.belayWitnessRenew, 0, 1)])

/-! ### Meanings: anchors and firmware -/

/-- ANCHOR_COMMIT (14 R313). -/
def execAnchorCommit (ses : Session) (s : State) : Host.Outcome State Fault Refusal :=
  .next (fmField s ses .role 0 0x048 [(.roleAnchorCtrlCommit, 0, 1)])

/-- ANCHOR_CLEAR (14 R313). -/
def execAnchorClear (ses : Session) (s : State) : Host.Outcome State Fault Refusal :=
  .next (fmField s ses .role 0 0x048 [(.roleAnchorCtrlClear, 0, 1)])

/-- FW_ACCEPT (14 R321). -/
def execFwAccept (ses : Session) (s : State) : Host.Outcome State Fault Refusal :=
  .next (fmField s ses .role 0 0x098 [(.roleFwCtrlOp, 0, 1)])

/-- FW_REVOKE (14 R321). -/
def execFwRevoke (ses : Session) (s : State) : Host.Outcome State Fault Refusal :=
  .next (fmField s ses .role 0 0x098 [(.roleFwCtrlOp, 0, 2)])

end Sys2Proof.Machine
end

