-- ==== Sys2Proof/Machine/FmCmds.lean ====
section
/-! DEFINITION. Fabric-manager commands (03 R57 to R67, R71 to R74, R78 to R80; 09 R217; 02 R54), the mailbox commands
of a partition's host (03 R65, R66, R73, R75; 02 R54), and the end of a sanitise (03 R69). -/

namespace Sys2Proof.Machine

open Sys2Proof

/-! ### Payloads of the Caura commands (R78) -/

/-- A partition number. -/
def partOfNum (n : Nat) : Option Part := if h : n < 16 then some ⟨n, h⟩ else none

/-- The first bytes of a payload of `len` bytes: a partition, then `rsvd` reserved bytes. -/
def payPart (bs : List Byte) (len rsvd : Nat) : Option Part :=
  if bs.length = len ∧ leAt bs 1 rsvd = 0 then partOfNum (leAt bs 0 1) else none

/-- A fabric-manager command whose payload begins with a partition. -/
def fmPart (s : State) (ses : Session) (opcode need : Nat) (bs : List Byte) (len rsvd : Nat)
    (f : State → Part → State) : State :=
  fmCmd s ses need (opcode, bs) fun s => match payPart bs len rsvd with
    | some p => f s p
    | none => fmAnswer s ses .invalidInput

/-- Carry out a command that its checks admit. -/
def fmDo (s : State) (ses : Session) (code : RetCode) (f : State → State) : State :=
  if code = .success then fmAnswer (f s) ses .success else fmAnswer s ses code

/-! ### Binding (R57) -/

/-- The partition has an extent in any state but OFFERED. -/
def holdsExtents (s : State) (p : Nat) : Bool := (extsOf s p).any fun e => decide (holderSt e p ≠ some .offered)

/-- A binding would leave the partition without a head on either package. -/
def unbinds (s : State) (p heads : Nat) : Bool := decide (heads = 0 ∧ aget s.belay.twinHeads p 0 = 0)

def bindPart (s : State) (ses : Session) (p : Part) (heads : BitVec 16) : State :=
  if unbinds s p heads.toNat && holdsExtents s p then fmAnswer s ses .invalidInput
  else fmAnswer (partUpd s p fun q => { q with bindDue := some heads }) ses .success

/-- The boundary after a Bind Partition. An unbinding whose partition has come to hold extents does not happen. -/
def bindEffect (s : State) (p : Part) : State :=
  match (partOf s p).bindDue with
  | some heads =>
    if unbinds s p heads.toNat && holdsExtents s p then partUpd s p fun q => { q with bindDue := none }
    else commitJ (partUpd s p fun q => { q with bindDue := none }) (.bind (decide (bRole s = roleLead)) p heads)
  | none => s

/-! ### Adding (R60 to R62, R65, R79, R80) -/

/-- What the target's state says to an add (R57, R65). -/
def addState (s : State) (p : Part) : RetCode :=
  if (match (partOf s p).bindDue with
      | some heads => unbinds s p heads.toNat
      | none => false) then .invalidInput
  else if pState s p = pOrphaned then .busy
  else if pState s p = pActive then .success
  else .invalidInput

/-- What the granules of new extents say (R65). -/
def addGranules (s : State) (exts : List GranRange) : RetCode :=
  let hit := exts.flatMap fun x => overlapping s x.1 x.2
  let reserved := exts.any fun x => s.reserve.any fun g => decide (x.1 ≤ g) && decide (g < x.1 + x.2)
  if hit.isEmpty && !reserved then .success
  else if hit.all (·.sanitising) && !reserved then .busy
  else .invalidInput

/-- Ranges of at least one granule below the exported capacity, none overlapping another. -/
def rangesOk (s : State) (exts : List GranRange) : Bool :=
  !exts.isEmpty && exts.all (fun x => decide (1 ≤ x.2) && decide (x.1 + x.2 ≤ exportGran s)) &&
    decide (exts.Pairwise fun a b => a.1 + a.2 ≤ b.1 ∨ b.1 + b.2 ≤ a.1)

/-- The tag rule (R79). -/
def tagOk (s : State) (sharing tag : Nat) : Bool :=
  if sharing = 0 then decide (tag = 0)
  else decide (tag ≠ 0) && !s.exts.any fun e => sharedExt e && decide (e.tag = tag)

/-- Checks of an add of new extents. -/
def addCode (s : State) (p : Part) (exts : List GranRange) (attr tag : Nat) : RetCode :=
  let a := attrOf attr
  if addState s p ≠ .success then addState s p
  else if !attrOk attr || decide (a.owner ≠ p.val) || !tagOk s a.sharing tag || !rangesOk s exts then .invalidInput
  else if addGranules s exts ≠ .success then addGranules s exts
  else if overLimit s p exts.length false (decide (a.sharing = 2)) then .resourcesExhausted
  else .success

/-- Add new extents: the offer follows, and a refusal at a limit sets LIMIT_HIT (R60). -/
def addExts (s : State) (ses : Session) (p : Part) (exts : List GranRange) (attr tag : Nat) : State :=
  let code := addCode (foresee s) p exts attr tag
  let s := if code = .resourcesExhausted then limitHit s p else s
  fmDo s ses code fun s => commitJ s (.extAdd p exts (BitVec.ofNat 32 attr) tag false)

/-- Checks of a join (R79, R80). -/
def joinCode (s : State) (p : Part) (tag : Nat) (exts : List GranRange) : RetCode :=
  if addState s p ≠ .success then addState s p
  else if exts.length ≠ 1 then .invalidInput
  else match exts.head?.bind fun x => wholeExt s x.1 x.2 with
    | some e =>
      if !sharedExt e || decide (e.tag ≠ tag) then .invalidInput
      else if e.sanitising then .busy
      else if (holderSt e p).isSome then .invalidInput
      else if overLimit s p 1 true false then .resourcesExhausted
      else .success
    | none => .invalidInput

/-- Join a shared extent. -/
def joinExt (s : State) (ses : Session) (p : Part) (tag : Nat) (exts : List GranRange) : State :=
  let code := joinCode (foresee s) p tag exts
  let attr := match exts.head?.bind fun x => wholeExt s x.1 x.2 with
    | some e => attrBits e.attr
    | none => 0
  let s := if code = .resourcesExhausted then limitHit s p else s
  fmDo s ses code fun s => commitJ s (.extAdd p exts (BitVec.ofNat 32 attr) tag true)

/-! ### Releasing (R60, R66, R67, R74) -/

/-- The pieces of a range that lie in extents in which the partition is in one of some states, if they cover it whole;
shared extents and offers only as a whole. -/
def piecesOf (s : State) (p : Part) (ok : List ExtState) (x : GranRange) : Option (List GranRange) :=
  let ps := (overlapping s x.1 x.2).map fun e =>
    let lo := max x.1 e.base
    (e, (lo, min (x.1 + x.2) (e.base + e.len) - lo))
  let good := fun (y : Extent × GranRange) => match holderSt y.1 p with
    | some st => decide (st ∈ ok) && !y.1.sanitising &&
        ((!sharedExt y.1 && decide (st ≠ .offered)) || decide (y.2.2 = y.1.len))
    | none => false
  if decide (1 ≤ x.2) && ps.all good && decide ((ps.map fun y => y.2.2).sum = x.2) then some (ps.map (·.2)) else none

/-- The pieces of several ranges. -/
def allPieces (s : State) (p : Part) (ok : List ExtState) (exts : List GranRange) : Option (List GranRange) :=
  exts.foldr (fun x acc => match piecesOf s p ok x, acc with
    | some l, some r => some (l ++ r)
    | _, _ => none) (some [])

/-- Extents that cutting pieces out of private extents adds. -/
def cutsOf (s : State) (ps : List GranRange) : Nat :=
  (((ps.flatMap fun x => [x.1, x.1 + x.2]).eraseDups).filter fun g => match extOfGran s g with
    | some e => decide (e.base < g)
    | none => false).length

/-- Pieces that leave the partition at once: all of them, or the offers withdrawn. -/
def leaving (s : State) (p : Part) (all : Bool) (ps : List GranRange) : Nat :=
  (ps.filter fun x => all || (match extOfGran s x.1 with
    | some e => decide (holderSt e p = some .offered)
    | none => false)).length

/-- The cuts of a release exceed a limit of R60: counted as the release leaves the lists (DEDUCED, log 18). -/
def overSplit (s : State) (p : Part) (all : Bool) (ps : List GranRange) : Bool :=
  decide (Config.extentsPerPart < (extsOf s p).length + cutsOf s ps - leaving s p all ps) ||
    decide (Config.extentsPerDevice < s.exts.length + cutsOf s ps)

/-- Checks of a release: its pieces, or why it is refused; ranges of one command do not overlap. With `all`, the
pieces leave the partition at once. -/
def releaseCode (s : State) (p : Part) (ok : List ExtState) (all : Bool) (exts : List GranRange) :
    RetCode × List GranRange :=
  if !decide (exts.Pairwise fun a b => a.1 + a.2 ≤ b.1 ∨ b.1 + b.2 ≤ a.1) then (.invalidInput, [])
  else match allPieces s p ok exts with
    | none => (.invalidInput, [])
    | some ps => if overSplit s p all ps then (.resourcesExhausted, []) else (.success, ps)

/-- A release that the fabric manager asks for, or forces. -/
def releaseExts (s : State) (ses : Session) (p : Part) (exts : List GranRange) (forced : Bool) : State :=
  let ok := if forced then [.offered, .active, .releasePending, .reclaimable] else [ExtState.offered, .active, .releasePending]
  let c := if exts.isEmpty then (RetCode.invalidInput, []) else releaseCode (foresee s) p ok forced exts
  let s := if c.1 = .resourcesExhausted then limitHit s p else s
  fmDo s ses c.1 fun s => commitJ s (if forced then .extForce p c.2 else .extRequest p c.2)

/-! ### Attributes (R61, R79) -/

/-- The attributes of Table 3.2: lowest bit and width; the first three may change. -/
def attrFields : List (Nat × Nat × Bool) :=
  [(0, 4, true), (4, 2, true), (6, 2, true), (8, 4, false), (12, 2, false), (14, 1, false), (15, 2, false), (17, 4, false)]

/-- Each attribute's mask bits are all 1 or all 0, and a fixed attribute's are 0. -/
def maskOk (mask : Nat) : Bool :=
  decide (mask < 2 ^ 21) && attrFields.all fun f =>
    let m := bitsAt mask f.1 f.2.1
    decide (m = 0) || (decide (m = 2 ^ f.2.1 - 1) && f.2.2)

/-- No reserved encoding in an attribute that the mask selects. -/
def maskedOk (mask attr : Nat) : Bool :=
  decide (attr < 2 ^ 21) && !(mask.testBit 4 && decide (bitsAt attr 4 2 = 3)) &&
    !(mask.testBit 6 && decide (bitsAt attr 6 2 = 3))

/-- Set Extent Attributes: the change waits for the boundary, in a pair in the journal. -/
def setAttrs (s : State) (ses : Session) (bs : List Byte) : State :=
  let base := leAt bs 0 4
  let mask := leAt bs 4 4
  let attr := leAt bs 8 4
  let ok := decide (bs.length = 12) && maskOk mask && maskedOk mask attr && (foresee s).exts.any fun e => decide (e.base = base)
  let m := BitVec.ofNat 32 mask
  let a := BitVec.ofNat 32 attr
  if !ok then fmAnswer s ses .invalidInput
  else if twinUp s then fmAnswer (journalSend s (.setAttr base m a)) ses .success
  else fmAnswer { s with attrDue := s.attrDue ++ [(base, m, a)] } ses .success

/-! ### Leases (R71 to R73) -/

/-- Renew Lease. -/
def renewFm (s : State) (ses : Session) (p : Part) : State :=
  if pState s p = pDisabled ∨ pState s p = pReclaimed then fmAnswer s ses .invalidInput
  else
    let live := decide (pState s p = pActive) && !leaseOver s p
    let s := renewPage s p
    if live then fmAnswer s ses .success [remainingMs s p] else fmAnswer s ses .busy

/-- Granules SANITISING. -/
def sanitisingGran (s : State) : Nat := ((s.exts.filter (·.sanitising)).map (·.len)).sum

/-- Reclaim Partition (R73); of a partition that is not ORPHANED it is refused with Invalid Input: the spec gives no return code
(DESIGN CHOICE, log 90). -/
def reclaimFm (s : State) (ses : Session) (p : Part) : State :=
  let t := foresee s
  if pState t p = pOrphaned then
    fmAnswer (commitJ s (.reclaim p)) ses .success [sanitisingGran (doReclaim t p) - sanitisingGran t]
  else fmAnswer s ses .invalidInput

/-- Revive Partition. -/
def reviveFm (s : State) (ses : Session) (p : Part) : State :=
  if pState (foresee s) p = pOrphaned ∨ pState (foresee s) p = pReclaimed then fmAnswer (commitJ s (.revive p)) ses .success
  else fmAnswer s ses .invalidInput

/-! ### Discovery (R58, R59) -/

/-- Exported capacity in bytes. -/
def exportBytes (s : State) : Nat := exportGran s * Config.granBytes

/-- Entries `start` to `start + count` of sixteen. -/
def window16 (start count : Nat) : List Nat := ((List.range 16).drop start).take count

/-- A list command whose first entry exists. -/
def fmList (s : State) (ses : Session) (start : Nat) (out : List Nat) : State :=
  if 16 ≤ start then fmAnswer s ses .invalidInput else fmAnswer s ses .success out

/-- Extents of a partition as reported: base and length in bytes, tag, EXT.STATE code. -/
def extReport (l : List Extent) (p : Nat) : List Nat :=
  l.flatMap fun e => [e.base * Config.granBytes, e.len * Config.granBytes, e.tag, extEntrySt e p]

/-! ### QoS commands (09 R217) -/

/-- The guarantees that a command gives the partitions from `start` on. -/
def newGuar (start : Nat) (fr : List Nat) : List (Nat × Nat) :=
  fr.zipIdx.map fun x => (start + x.2, gbsOfFraction x.1)

/-- Set QoS Allocated BW: refused whole where the sum rule breaks; cuts go before raises (09 R207). -/
def setAllocated (s : State) (ses : Session) (start : Nat) (fr : List Nat) : State :=
  let new := newGuar start fr
  let sum := ((List.range 16).map fun p => aget new p (fget s .qosGuarGbS p)).sum
  if 16 < start + fr.length ∨ fr.any (fun f => decide (255 < f)) = true ∨ Config.guaranteeSum < sum then
    fmAnswer s ses .invalidInput
  else
    let cuts := new.filter fun x => decide (x.2 ≤ fget s .qosGuarGbS x.1)
    let raises := new.filter fun x => decide (fget s .qosGuarGbS x.1 < x.2)
    fmAnswer ((cuts ++ raises).foldl (fun s x => guarSet s x.1 x.2) s) ses .success

/-! ### Poison (02 R54; 03 R75) -/

/-- Lines of a DPA range in bytes. -/
def linesOf (base len : Nat) : List Nat := (List.range (len / 64)).map (base / 64 + ·)

/-- Some cells of the package are lost. -/
def anyLost (s : State) : Bool :=
  decide (fget s .pitchRemapDiesOut ≠ 0) || !s.clustersOut.isEmpty || !s.ras.banksOut.isEmpty ||
    s.pcs.any fun x => decide (fget s .pcStateState x.1 = pcFailed)

/-- Lines of an extent whose reads are poisoned for a reason of R75: the poison word, lost memory, a damaged stored
form, a destroyed key. -/
def poisonedLines (s : State) (e : Extent) : List Nat :=
  let lo := e.base * Config.granBytes
  let all := linesOf lo (e.len * Config.granBytes)
  let inE := fun l => decide (lo ≤ l * 64) && decide (l * 64 < lo + e.len * Config.granBytes)
  let blockLines := fun b => linesOf (blockDpa b) 8192
  if e.unreadable then all
  else
    (s.poison ++ (s.damaged.map (·.1) ++ (s.lbaMap.filter fun x => decide (x.2 = 3)).map (·.1) ++
        (s.frames.filter (·.lost)).map (·.block)).flatMap blockLines).filter inE ++
      (if s.boot.tiered = false ∧ anyLost s = true then all.filter fun l => cellsLost s (l * 64) else []) ++
      (if s.belay.lostSegs.isEmpty then [] else all.filter (lineUnsynced s))

/-- The list that Get Poison List returns: DPAs of the lines of what the partition holds. -/
def poisonList (s : State) (p : Part) : List Nat :=
  (((s.exts.filter fun e => served e p).flatMap (poisonedLines s)).eraseDups).map (· * 64)

/-- Poison is injected at a line: its block is raw, and the line holds the poison word. -/
def injectAt (s : State) (dpa : Nat) : State :=
  let b := blockOf dpa
  noteWrite (putPoison (expandBlock (residentNow s b) b) (lineOf dpa)) b

/-! ### Mailbox (02 R54; 03 R65, R66, R73) -/

/-- A mailbox command reaches its partition through a head. -/
def mailbox (s : State) (h : Head) (p : Part) (f : State → State) : State :=
  ioWrite s h p f

/-- Answer a mailbox command. -/
def mbAnswer (s : State) (p : Part) (h : Head) (code : RetCode) (out : List Nat := []) : State :=
  emit s (.mbRsp p h code out)

/-- Offers not yet answered; those whose answers wait in the journal are (R65). -/
def openOffers (s : State) (p : Part) : List Offer := (partOf (foresee s) p).offers

/-- Add Dynamic Capacity Response. -/
def acceptMb (s : State) (h : Head) (p : Part) (exts : List GranRange) : State :=
  if pState s p = pOrphaned ∨ leaseOver s p then mbAnswer s p h .busy
  else match openOffers s p with
    | [] => mbAnswer s p h .invalidInput
    | o :: _ =>
      if exts.all fun x => o.exts.contains x then mbAnswer (commitJ s (.extAccept p exts)) p h .success
      else mbAnswer s p h .invalidInput

/-- Release Dynamic Capacity. -/
def releaseMb (s : State) (h : Head) (p : Part) (exts : List GranRange) : State :=
  if pState s p = pOrphaned ∨ leaseOver s p then mbAnswer s p h .busy
  else if pState s p = pReclaimed then mbAnswer s p h .invalidInput
  else
    let c := releaseCode (foresee s) p [.active, .releasePending] true exts
    if c.1 = .success then mbAnswer (commitJ s (.extRelease p c.2)) p h .success
    else mbAnswer (if c.1 = .resourcesExhausted then limitHit s p else s) p h c.1

/-- Clear Poison writes the line (CXL 3.2); it completes with the write. -/
def clearMb (s : State) (h : Head) (p : Part) (dpa : Nat) (d : Line) : State :=
  match heldExt s p dpa with
  | none => mbAnswer s p h .invalidInput
  | some e =>
    let r : Req := { kind := .write, p := p, src := .mailbox h, dpa := dpa / 64 * 64, data := d, mask := fullMask }
    if bRole s = roleFenced then fencedDrop s r
    else if s.belay.deciding then { s with belay := { s.belay with heldWrites := s.belay.heldWrites ++ [r] } }
    else if mayWrite e p && decide (e.attr.sharing ≠ 2) then windowWrite s r fun s r => sendWrite s e r
    else mbAnswer (readerWrite s p) p h .invalidInput

/-! ### Meanings: discovery -/

/-- IDENTIFY (03 R58): the Vendor ID and the identity registers of the ID page. -/
def execIdentify (ses : Session) (s : State) : Host.Outcome State Fault Refusal :=
  .next (fmOp s ses fun s =>
    fmAnswer s ses .success (Config.vendorId.toNat :: readRegs s (.fm ses) .id 0 0x040 4))

/-- GET_LD_INFO (03 R58): capacity and number of logical devices. -/
def execGetLdInfo (ses : Session) (s : State) : Host.Outcome State Fault Refusal :=
  .next (fmOp s ses fun s => fmAnswer s ses .success [exportBytes s, 16])

/-- GET_LD_ALLOCATIONS (03 R58): every static allocation is 0. -/
def execGetLdAllocations (ses : Session) (start count : Nat) (s : State) : Host.Outcome State Fault Refusal :=
  .next (fmOp s ses fun s => fmList s ses start ((window16 start count).flatMap fun _ => [0, 0]))

/-- SET_LD_ALLOCATIONS (03 R58). -/
def execSetLdAllocations (ses : Session) (s : State) : Host.Outcome State Fault Refusal :=
  .next (fmCmd s ses 0 (0, []) fun s => fmAnswer s ses .unsupported)

/-- GET_MULTI_HEADED_INFO (03 R58): logical devices, heads, and each partition's heads. -/
def execGetMultiHeadedInfo (ses : Session) (s : State) : Host.Outcome State Fault Refusal :=
  .next (fmOp s ses fun s =>
    fmAnswer s ses .success (16 :: 16 :: (List.range 16).map fun p => fget s .partStateHeads p))

/-- GET_HEAD_INFO (03 R58): rate, width and link state of heads. -/
def execGetHeadInfo (ses : Session) (start count : Nat) (s : State) : Host.Outcome State Fault Refusal :=
  .next (fmOp s ses fun s => fmList s ses start ((window16 start count).flatMap fun h =>
    [fget s .portLinkStatusRate h, fget s .portLinkStatusWidth h, fget s .portLinkStatusUp h]))

/-- GET_DCD_INFO (03 R58, R59): hosts, regions each, capacity, block size. -/
def execGetDcdInfo (ses : Session) (s : State) : Host.Outcome State Fault Refusal :=
  .next (fmOp s ses fun s => fmAnswer s ses .success [16, 1, exportBytes s, Config.granBytes])

/-- GET_HOST_DC_REGION_CONFIGURATION (03 R59): region 0's base, length and block size. -/
def execGetHostDcRegionConfiguration (ses : Session) (_p : Part) (s : State) : Host.Outcome State Fault Refusal :=
  .next (fmOp s ses fun s => fmAnswer s ses .success [1, 0, exportBytes s, Config.granBytes])

/-- GET_DC_REGION_EXTENT_LISTS (03 R58): the number of extents, GEN, and the extents asked for. -/
def execGetDcRegionExtentLists (ses : Session) (p : Part) (start count : Nat) (s : State) :
    Host.Outcome State Fault Refusal :=
  .next (fmOp s ses fun s => fmAnswer s ses .success ((extsOf s p).length :: fget s .extStateGen p ::
    extReport (((extsOf s p).drop start).take count) p))

/-- SET_DC_REGION_CONFIGURATION (03 R59). -/
def execSetDcRegionConfiguration (ses : Session) (_p : Part) (region blockSize base length : Nat) (s : State) :
    Host.Outcome State Fault Refusal :=
  .next (fmOp s ses fun s => fmAnswer s ses
    (if region = 0 ∧ blockSize = Config.granBytes ∧ base = 0 ∧ length = exportBytes s then .success else .invalidInput))

/-- GET_PARTITION_STATE (03 R78): the PART registers 0x040 to 0x068, then EVT_STATUS. -/
def execGetPartitionState (ses : Session) (payload : List Byte) (s : State) : Host.Outcome State Fault Refusal :=
  .next (fmPart s ses 0xC001 1 payload 2 1 fun s p =>
    fmAnswer s ses .success (readRegs s (.fm ses) .part p 0x040 6 ++ [readReg s (.fm ses) .part p 0x018]))

/-! ### Meanings: extents -/

/-- INITIATE_DYNAMIC_CAPACITY_ADD (03 R61, R65, R80): default attributes, or a join. -/
def execInitiateDynamicCapacityAdd (ses : Session) (p : Part) (shared : Bool) (tag : Nat) (exts : List GranRange)
    (s : State) : Host.Outcome State Fault Refusal :=
  .next (fmOp s ses fun s =>
    if shared then joinExt s ses p tag exts else addExts s ses p exts (attrBits { owner := p.val }) tag)

/-- INITIATE_DYNAMIC_CAPACITY_RELEASE (03 R66, R67): the forced form needs an installer, and its audit record holds
the first bytes of a payload that CXL 3.2 lays out, which the spec leaves open. -/
def execInitiateDynamicCapacityRelease (ses : Session) (p : Part) (forced : Bool) (exts : List GranRange) (s : State) :
    Host.Outcome State Fault Refusal :=
  .next (if forced then
      fmCmd (draw s).2 ses 2 (0x5605, leBytes 8 (draw s).1) fun s => releaseExts s ses p exts true
    else fmOp s ses fun s => releaseExts s ses p exts false)

/-- INITIATE_EXTENT_ADD (03 R61, R78). -/
def execInitiateExtentAdd (ses : Session) (payload : List Byte) (s : State) : Host.Outcome State Fault Refusal :=
  .next (fmPart s ses 0xC002 1 payload 32 3 fun s p =>
    addExts s ses p [(leAt payload 4 4, leAt payload 8 4)] (leAt payload 12 4) (leAt payload 16 16))

/-- SET_EXTENT_ATTRIBUTES (03 R79). -/
def execSetExtentAttributes (ses : Session) (payload : List Byte) (s : State) : Host.Outcome State Fault Refusal :=
  .next (fmOp s ses fun s => setAttrs s ses payload)

/-- FORCE_EXTENT_RELEASE (03 R67). -/
def execForceExtentRelease (ses : Session) (payload : List Byte) (s : State) : Host.Outcome State Fault Refusal :=
  .next (fmPart s ses 0xC004 2 payload 12 3 fun s p =>
    releaseExts s ses p [(leAt payload 4 4, leAt payload 8 4)] true)

/-- ADD_DYNAMIC_CAPACITY_RESPONSE (03 R65). -/
def execAddDynamicCapacityResponse (h : Head) (p : Part) (exts : List GranRange) (s : State) :
    Host.Outcome State Fault Refusal := .next (mailbox s h p fun s => acceptMb s h p exts)

/-- RELEASE_DYNAMIC_CAPACITY (03 R66). -/
def execReleaseDynamicCapacity (h : Head) (p : Part) (exts : List GranRange) (s : State) :
    Host.Outcome State Fault Refusal := .next (mailbox s h p fun s => releaseMb s h p exts)

/-- DC_REPORT_MAILBOX (03 R72, R73): the region and the extents held; Busy while ORPHANED. -/
def execDcReportMailbox (h : Head) (p : Part) (s : State) : Host.Outcome State Fault Refusal :=
  .next (mailbox s h p fun s =>
    if pState s p = pOrphaned ∨ leaseOver s p then mbAnswer s p h .busy
    else mbAnswer s p h .success (0 :: exportBytes s :: Config.granBytes ::
      extReport (s.exts.filter fun e => served e p) p))

/-- SANITISE_COMPLETE (03 R69). -/
def execSanitiseComplete (gran : Nat) (s : State) : Host.Outcome State Fault Refusal :=
  .next (if running s then sanitised s gran else s)

/-! ### Meanings: bindings and leases -/

/-- BIND_PARTITION (03 R57). -/
def execBindPartition (ses : Session) (payload : List Byte) (s : State) : Host.Outcome State Fault Refusal :=
  .next (fmPart s ses 0xC000 1 payload 4 1 fun s p => bindPart s ses p (BitVec.ofNat 16 (leAt payload 2 2)))

/-- BIND_TAKES_EFFECT (03 R57). -/
def execBindTakesEffect (p : Part) (s : State) : Host.Outcome State Fault Refusal := .next (bindEffect s p)

/-- RENEW_LEASE (03 R71). -/
def execRenewLease (ses : Session) (payload : List Byte) (s : State) : Host.Outcome State Fault Refusal :=
  .next (fmPart s ses 0xC005 1 payload 2 1 fun s p => renewFm s ses p)

/-- RECLAIM_PARTITION (03 R73). -/
def execReclaimPartition (ses : Session) (payload : List Byte) (s : State) : Host.Outcome State Fault Refusal :=
  .next (fmPart s ses 0xC006 1 payload 2 1 fun s p => reclaimFm s ses p)

/-- REVIVE_PARTITION (03 R72). -/
def execRevivePartition (ses : Session) (payload : List Byte) (s : State) : Host.Outcome State Fault Refusal :=
  .next (fmPart s ses 0xC007 1 payload 2 1 fun s p => reviveFm s ses p)

/-- FM_COMMAND_UNSUPPORTED (03 R58). -/
def execFmCommandUnsupported (ses : Session) (_opcode : Nat) (s : State) : Host.Outcome State Fault Refusal :=
  .next (fmCmd s ses 0 (0, []) fun s => fmAnswer s ses .unsupported)

/-! ### Meanings: QoS -/

/-- SET_QOS_ALLOCATED_BW (09 R217). -/
def execSetQosAllocatedBw (ses : Session) (start : Nat) (fractions : List Nat) (s : State) :
    Host.Outcome State Fault Refusal := .next (fmOp s ses fun s => setAllocated s ses start fractions)

/-- GET_QOS_ALLOCATED_BW (09 R217). -/
def execGetQosAllocatedBw (ses : Session) (start count : Nat) (s : State) : Host.Outcome State Fault Refusal :=
  .next (fmOp s ses fun s => fmList s ses start ((window16 start count).map fun p => fractionOfGbs (fget s .qosGuarGbS p)))

/-- GET_QOS_BW_LIMIT (09 R217). -/
def execGetQosBwLimit (ses : Session) (start count : Nat) (s : State) : Host.Outcome State Fault Refusal :=
  .next (fmOp s ses fun s => fmList s ses start ((window16 start count).map fun _ => 255))

/-- SET_QOS_BW_LIMIT (09 R217). -/
def execSetQosBwLimit (ses : Session) (start : Nat) (limits : List Nat) (s : State) : Host.Outcome State Fault Refusal :=
  .next (fmOp s ses fun s => fmAnswer s ses
    (if start + limits.length ≤ 16 ∧ limits.all (fun x => decide (x = 255)) = true then .success else .invalidInput))

/-- GET_QOS_STATUS (09 R217). -/
def execGetQosStatus (ses : Session) (s : State) : Host.Outcome State Fault Refusal :=
  .next (fmOp s ses fun s => fmAnswer s ses .success [s.qos.lastOver])

/-- GET_QOS_CONTROL (09 R217). -/
def execGetQosControl (ses : Session) (s : State) : Host.Outcome State Fault Refusal :=
  .next (fmOp s ses fun s => fmAnswer s ses .success [s.qos.control.toNat])

/-- SET_QOS_CONTROL (09 R217). -/
def execSetQosControl (ses : Session) (values : W64) (s : State) : Host.Outcome State Fault Refusal :=
  .next (fmOp s ses fun s => fmAnswer { s with qos := { s.qos with control := values } } ses .success)

/-! ### Meanings: poison -/

/-- GET_POISON_LIST (03 R75). -/
def execGetPoisonList (h : Head) (p : Part) (s : State) : Host.Outcome State Fault Refusal :=
  .next (mailbox s h p fun s => mbAnswer s p h .success (poisonList s p))

/-- INJECT_POISON (02 R54): installer only; at a line that the partition holds. -/
def execInjectPoison (ses : Session) (p : Part) (dpa : Nat) (s : State) : Host.Outcome State Fault Refusal :=
  .next (fmCmd s ses 2 (0x4301, leBytes 8 dpa) fun s =>
    if (heldExt s p dpa).isSome then fmAnswer (injectAt s dpa) ses .success else fmAnswer s ses .invalidInput)

/-- CLEAR_POISON (02 R54). -/
def execClearPoison (h : Head) (p : Part) (dpa : Nat) (data : Line) (s : State) : Host.Outcome State Fault Refusal :=
  .next (mailbox s h p fun s => clearMb s h p dpa data)

/-- MAILBOX_UNSUPPORTED (02 R54). -/
def execMailboxUnsupported (h : Head) (p : Part) (_opcode : Nat) (s : State) : Host.Outcome State Fault Refusal :=
  .next (mailbox s h p fun s => mbAnswer s p h .unsupported)

end Sys2Proof.Machine
end

