-- ==== Sys2Proof/Machine/Stores.lean ====
section
/-! DEFINITION. The banks of the cluster stores (10 R237 to R240): which masters a bank grants in a core cycle, what two
accesses to one word leave, and the cycles of a cluster that works. -/

namespace Sys2Proof.Machine

open Sys2Proof

/-! ### One cycle of one bank -/

/-- Owner of a bank (R237). -/
def bankOwner (bank : Nat) : Master :=
  match bank with
  | 0 => .groupA
  | 1 => .groupB
  | 2 => .expander
  | _ => .mover

/-- The order in which a bank grants its requesters: the owner, which is not repeated, then the others (R238). -/
def bankOrder (bank : Nat) : List Master :=
  bankOwner bank :: [Master.expander, .mover, .groupA, .groupB].filter fun m => decide (m ≠ bankOwner bank)

/-- A master's request at a bank. -/
def bankAsk (b : BankState) (m : Master) : Option BankReq := b.waiting.find? fun r => decide (r.who = m)

/-- The requester that has stalled 16 consecutive cycles is granted first, one in a cycle (R238). -/
def promoted (b : BankState) (bank : Nat) : Option Master :=
  (bankOrder bank).find? fun m => match bankAsk b m with
    | some r => decide (16 ≤ r.stalled)
    | none => false

/-- Requests granted in a cycle, in the order of R238: two ports. -/
def granted (b : BankState) (bank : Nat) : List BankReq :=
  let first := promoted b bank
  ((first.toList ++ (bankOrder bank).filter fun m => decide (some m ≠ first)).filterMap (bankAsk b)).take 2

/-- The contents after the granted writes: byte by byte the requester that is earlier in the order keeps its value (R239). -/
def bankWrites (lines : Assoc Nat Line) (rs : List BankReq) : Assoc Nat Line :=
  rs.foldr (fun r l => if r.mask = 0 then l else aset l r.line (mergeLine (aget l r.line 0) r.data r.mask)) lines

/-- What the granted reads return: the new data where a write of the same cycle has the word (R239). -/
def bankReads (b : BankState) (bank : Nat) : List (Master × Line) :=
  let lines := bankWrites b.lines (granted b bank)
  ((granted b bank).filter fun r => decide (r.mask = 0)).map fun r => (r.who, aget lines r.line 0)

/-- One core cycle of a bank: the granted accesses are done, every other requester stalls and requests again. -/
def bankCycle (b : BankState) (bank : Nat) : BankState :=
  let go := granted b bank
  { lines := bankWrites b.lines go
    waiting := (b.waiting.filter fun r => !go.contains r).map fun r => { r with stalled := r.stalled + 1 } }

/-! ### The cycles of a cluster that works -/

/-- Masters of a cluster work: a step runs, its expander holds blocks, or its mover has moved bytes in this pitch. -/
def clusterWorks (s : State) (c : Nat) : Bool :=
  s.steps.any (fun x => decide (coreCluster x.core = c) && decide (x.st = .running)) || ahas s.tier.exp c ||
    (List.range 16).any fun p => ahas s.qos.used (qKey c p)

/-- A master asks a bank for a line or for nothing. Which accesses the masters make in a cycle is open: a free value, for each
master that does not wait already (DESIGN CHOICE, log 91). -/
def bankAsks (s : State) (k : Nat) (m : Master) : State :=
  let b := aget s.stores k {}
  if (bankAsk b m).isSome then s
  else match Config.storeAccess s.free with
    | some (line, data, mask) =>
      let b := { b with waiting := b.waiting ++ [⟨m, line % 32768, data, mask, 0⟩] }
      { s with stores := aset s.stores k b, free := s.free + 1 }
    | none => { s with free := s.free + 1 }

/-- One core cycle of a bank of a cluster: requests come, two are granted, and STORE.CONFLICTS counts stalls and
promotions. -/
def bankStep (s : State) (c bank : Nat) : State :=
  let k := c * 4 + bank
  let s := (bankOrder bank).foldl (fun s m => bankAsks s k m) s
  let b := aget s.stores k {}
  let stalls := b.waiting.length - (granted b bank).length
  let s := { s with stores := aset s.stores k (bankCycle b bank) }
  let s := if stalls = 0 then s else fadd s .storeConflictsStalls stalls c
  if (promoted b bank).isSome then finc s .storeConflictsPromotions c else s

/-- The twelve core cycles of one TIMEBASE_IN cycle at the clusters that work; in retention no bank is accessed (R240; 01 Table
1.6). -/
def storeCycles (s : State) : State :=
  let works := (List.range 256).filter fun c =>
    clusterWorks s c && !clusterOut s c && decide (fget s .storeRetainInRetention c = 0)
  (List.range 12).foldl (fun s _ =>
    works.foldl (fun s c => (List.range 4).foldl (fun s bank => bankStep s c bank) s) s) s

end Sys2Proof.Machine
end

