-- ==== Sys2Proof/Machine/Pitch.lean ====
section
/-! DEFINITION. The pitch (01 R17 to R27): the boundary's actions in the order of Table 1.7, the checks of TIMEBASE_IN,
the alignment of a pair, and what one TIMEBASE_IN cycle without a command does. -/

namespace Sys2Proof.Machine

open Sys2Proof

/-! ### TIMEBASE_IN (R19) -/

/-- Timebase loss: the pitch runs from the internal oscillator. -/
def timebaseLoss (s : State) : State :=
  if fget s .pitchAlignHoldover = 1 then s else raise (fset s .pitchAlignHoldover 1) .pitchTbLoss

/-- The frequency check over a pitch: the count differs from the nominal by at most 0.1 %. -/
def freqOk (s : State) (cycles : Nat) : Bool :=
  let n := pitchCycles s
  decide ((if cycles < n then n - cycles else cycles - n) * 1000 ≤ n)

/-- Good pitches that end the holdover. -/
def goodPitches : Nat := 100

/-- The pitch that ends was whole, with no stop, and passed the frequency check. -/
def goodPitch (s : State) (cycles : Nat) : Bool := s.tb.running && s.tb.whole && !s.tb.stopped && freqOk s cycles

/-- The check at the boundary that ends a pitch: a failure declares loss; in holdover the good whole pitches are
counted. -/
def checkTimebase (s : State) (good ok : Bool) : State :=
  if fget s .pitchAlignHoldover = 1 then
    { s with tb := { s.tb with good := if good then min goodPitches (s.tb.good + 1) else 0 } }
  else if ok then s
  else timebaseLoss { s with tb := { s.tb with good := 0 } }

/-- 1 µs without an edge. -/
def stopTimebase (s : State) : State :=
  timebaseLoss { s with tb := { s.tb with running := false, stopped := true, whole := false, good := 0 } }

/-- The pitch switches back to TIMEBASE_IN. -/
def restoreTimebase (s : State) : State :=
  if fget s .pitchAlignHoldover = 1 ∧ goodPitches ≤ s.tb.good then
    raise { fset s .pitchAlignHoldover 0 with tb := { s.tb with good := 0 } } .pitchTbRestored
  else s

/-! ### Order 1 (R20, R21) -/

/-- Cycles by which the pitch that begins differs from the setting (R25). In the step phase one pitch is shortened or
lengthened by the offset, by at most half a pitch; afterwards the drift is corrected by at most one cycle a pitch. -/
def pitchAdjust (s : State) : Int :=
  if !(twinUp s && decide (bRole s = roleSecond)) then 0
  else
    let half : Int := (pitchCycles s / 2 : Nat)
    let cycles := s.tb.offset / 10
    if s.tb.stepDue then -(max (-half) (min half cycles))
    else if s.tb.stepped then (if 1 ≤ cycles then -1 else if s.tb.offset ≤ -10 then 1 else 0)
    else 0

/-- A new pitch begins: the clock moves by the pitch that ended, the count rises, and the first boundary counts 0. The
step phase that was due is done in the pitch that begins (R25). -/
def nextPitch (s : State) : State :=
  { s with tb := { s.tb with
      clock := s.tb.clock + pitchLength s, count := if s.tb.started then (s.tb.count + 1) % 2 ^ 64 else 0, phase := 0,
      started := true, stopped := false, whole := s.tb.running, stepped := s.tb.stepped || s.tb.stepDue,
      stepDue := false, adjust := pitchAdjust s } }

/-- Register writes that wait for a boundary take effect (08 R206; 10 R243; 12 R290; 13 R306). BELAY.CFG waits in the
journal while the twin answers; QOS has its own order. -/
def settingsInForce (s : State) : State :=
  let alone := !twinUp s
  let s := fcatch s fun f =>
    decide (f.desc.blk = .pitch ∨ f.desc.blk = .pc ∨ f.desc.blk = .pwr) || (alone && decide (f.desc.blk = .belay))
  if alone then activatePairMode s else s

/-- Attribute changes take effect (03 R61). -/
def attrsInForce (s : State) : State :=
  s.attrDue.foldl (fun s x => setAttrNow s x.1 x.2.1 x.2.2) { s with attrDue := [] }

/-- The head that carried a message as a TLP. -/
def msgHead : Msg → Option Nat
  | .memRsp _ h _ _ _ | .ioCpl _ h _ | .ioUnsupported _ h | .ioRetry _ h | .biConflictAck _ h _ | .mbRsp _ h _ _
  | .aer _ h _ => some h.val
  | .biSnp sh _ _ => some (sh % 16)
  | .busRead _ h _ _ _ => some h
  | .busWrite _ h _ _ _ => some h
  | .msix _ h _ _ _ => some h
  | _ => none

/-- The ended pitch is counted: residency (13 Table 13.5), idleness (13 R294), and the heads that carried a TLP
(16 Table 16.9). -/
def countPitch (s : State) : State :=
  let idle := if s.power.activity || workGoesOn s then 0 else s.power.idle + 1
  let sent := (s.out.take (s.out.length - s.tb.outMark)).filterMap msgHead
  let s := if rung s = 0 then s else fadd s .pwrResidencyPitches 1 0 (rung s - 1)
  { s with
    power := { s.power with idle := idle, activity := false },
    tb := { s.tb with outMark := s.out.length },
    heads := (List.range 16).map fun h =>
      (h, { headOf s h with tlpLast := (headOf s h).tlpNow || sent.contains h, tlpNow := false }) }

/-- Sessions whose anchor was cleared end (14 R312). -/
def endCleared (s : State) : State := endSessions s (·.ending)

/-! ### Alignment (R25, R26) -/

/-- An offset in ns as TWIN_OFFSET holds it. -/
def offsetField (ns : Int) : Nat :=
  let n := max (-32768) (min 32767 ns)
  if n < 0 then (n + 65536).toNat else n.toNat

/-- The second measures its offset to the lead: within the tolerance it is aligned; over 1 µs after the step phase the
alignment is lost and the step phase is due again. -/
def measured (s : State) (ns : Int) (tol : Nat) : State :=
  let s := fset { s with tb := { s.tb with offset := ns } } .pitchPhaseTwinOffset (offsetField ns)
  let s := fset s .pitchAlignAligned (if ns.natAbs ≤ tol then 1 else 0)
  if 1000 < ns.natAbs ∧ s.tb.stepDue = false then
    raise (finc { s with tb := { s.tb with stepDue := true } } .pitchAlignLossCountLosses) .pitchAlignLost
  else s

/-- The package is the second of a pair that aligns in a mode. -/
def aligns (s : State) (mode : Nat) : Bool :=
  twinUp s && decide (bRole s = roleSecond) && decide (fget s .pitchAlignMode = mode)

/-- Markers whose boundary has come are taken (R26). -/
def markersDue (s : State) : State :=
  let due := s.tb.markers.filter fun m => decide (m.1 ≤ s.tb.count)
  let s := { s with tb := { s.tb with markers := s.tb.markers.filter fun m => !decide (m.1 ≤ s.tb.count) } }
  due.foldl (fun s m => if aligns s 2 then measured s m.2 100 else s) s

/-- A heartbeat that came before its boundary counts for it (R26). -/
def earlyBeat (s : State) : State :=
  let here := s.belay.hbEarly.contains s.tb.count
  let s := { s with belay := { s.belay with hbEarly := s.belay.hbEarly.filter fun n => decide (s.tb.count < n) } }
  if here then heardBeat s else s

/-! ### Orders 2 to 8 -/

/-- Mean cost of the blocks decoded in the ended pitch and the input queue's peak, by cluster, and BACKLOG for each cluster whose
input queue was full throughout (06 Table 6.11). -/
def expanderBoundary (s : State) : State :=
  let means := s.expPitch
  let s := fclear { s with expPitch := [] } fun k => decide (k.fld = .cmpExpLoadMeanCost ∨ k.fld = .cmpExpLoadQueuePeak)
  let s := means.foldl (fun s e => fset s .cmpExpLoadMeanCost (e.2.1 / e.2.2) 0 e.1) s
  let s := s.tier.exp.foldl (fun s e => fset s .cmpExpLoadQueuePeak e.2.peak 0 e.1) s
  let full := (s.tier.exp.filter fun e => decide (expDepth ≤ e.2.least)).length
  let s := { s with tier := { s.tier with exp := s.tier.exp.map fun e =>
    (e.1, { e.2 with peak := e.2.input.length, least := e.2.input.length }) } }
  if full = 0 then s else raise (fadd s .cmpExpanderBacklog full) .cmpBacklog

/-- Order 4: heartbeats on every group that is up, markers, the mirror checkpoint, and the digests of the ended pitch
(12 R272, R278; 01 R25, Table 1.7). A heartbeat that came before its boundary counts for it now (01 R26). -/
def sendBeats (s : State) : State :=
  let s := if hearsTwin s then
      let n := ((List.range 4).filter (groupUp s)).length
      let s := (List.range n).foldl (fun s _ => emit s (.belay 0 (.heartbeat (count s)))) s
      let s := if fget s .pitchAlignMode = 2 then emit s (.belay 0 (.marker (count s) (now s))) else s
      let s := if fget s .belayStatusModeActive = 2 then s else emit s (.belay 0 (.checkpoint (count s) s.belay.nextId))
      s.belay.digests.foldl (fun s d => emit s (.belay 0 (.digest (count s) d.1 d.2.1 d.2.2))) s
    else s
  earlyBeat (groupsBoundary { s with belay := { s.belay with digests := [], hbSeen := false, fencedRec := [] } })

/-- The leases tested against the new count (order 1). -/
def leasesTested (s : State) : State := (List.finRange 16).foldl leaseTest s

/-- The oldest DISCARD of a hint ring that waited for its blocks goes on (05 R107). -/
def hintsBoundary (s : State) : State := (List.finRange 16).foldl (fun s (p : Part) => hintGo s p 5) s

/-- Order 7: the interval K follows SCRUB_HOURS; each PC's read is a command of its own (11 R252). -/
def scrubBoundary (s : State) : State :=
  fset s .rasScrubStatusK (scrubK (fget s .rasCfgScrubHours) (pitchUs s))

/-- Pulses on the pins (16 R343, R348). -/
def pulses (s : State) : State :=
  let s := if twinUp s && decide (bRole s = roleLead) && decide (fget s .pitchCfgSyncOutEn = 1) then
      emit s (.pin .pitchSync) else s
  ((List.range 64).filter fun n => decide (pinFunc s n = 4)).foldl (fun s n => emit s (.pin (.pitchMark n))) s

/-- In rest and deeper, and before the cores are released, orders 1 and 6 run only (13 R293). -/
def restNow (s : State) : Bool := decide (2 ≤ rung s) || !running s

/-- Order 5: steps that are over for their jobs commit or end, waiting ones take their places in the deques, and the dies are
rebalanced (08 R191, R199). -/
def stepsBoundary (s : State) : State := rebalance (placeSteps (endSteps s))

/-- What the tier agents do in a new pitch: the rebuild's rate and stripes, a descent's write-backs, the DISCARDs of the twin,
and granules whose deallocation is done (05 R107, R122; 13 R295; 03 R69). -/
def tierBoundary (s : State) : State := sanSettle (tellDiscards (descentWrites (rebuildTick s)))

/-- Orders 2 to 5 of Table 1.7. -/
def boundaryWork (s : State) : State :=
  if restNow s then s
  else stepsBoundary (sendBeats (ageTables (expanderBoundary (releaseHeldBack (qosBoundary s)))))

/-- Orders 7 and 8. -/
def boundaryTests (s : State) : State := if restNow s then s else storeTests (scrubBoundary s)

/-- A boundary (R21): the actions of Table 1.7 in their order; one that is late is still carried out (R22). -/
def pitchBoundary (s : State) (late : Bool) (cycles : Nat) : State :=
  let good := goodPitch s cycles
  let ok := freqOk s cycles
  let s := nextPitch (countPitch s)
  let s := leasesTested (checkTimebase s good ok)
  let s := deferredTarget (endCleared (attrsInForce (settingsInForce s)))
  let s := boundaryWork (markersDue s)
  let s := commitBatch s (decide (2 ≤ rung s))
  let s := pulses (hintsBoundary (tierBoundary (boundaryTests s)))
  if late then raise (finc s .pitchLateCountLate) .pitchBoundaryLate else s

/-! ### One TIMEBASE_IN cycle -/

/-- Queue entries held by a partition or class are summed over nominal core cycles, twelve to one TIMEBASE_IN cycle
(09 OCC_INT; 01 Table 1.6). -/
def occTick (m : Assoc Nat Nat) (es : List PcEntry) : Assoc Nat Nat :=
  es.foldl (fun m e =>
    let m := match e.part with
      | some p => aupd m p 0 (· + 12)
      | none => m
    match e.cls with
    | some k => aupd m (16 + k) 0 (· + 12)
    | none => m) m

/-- A cycle passes: the phase advances up to the pitch's last cycle; queue occupancy is tallied; store banks are accessed. -/
def idleCycle (s : State) : State :=
  storeCycles { s with
    tb := { s.tb with phase := if s.tb.phase + 1 < pitchLength s then s.tb.phase + 1 else s.tb.phase },
    qos := { s.qos with occ := s.pcs.foldl (fun m x => occTick m x.2.entries) s.qos.occ },
    pcs := s.pcs.map fun x =>
      (x.1, { x.2 with occSum := x.2.occSum + x.2.entries.length, occMin := min x.2.occMin x.2.entries.length }) }

/-! ### Meanings -/

/-- PITCH_BOUNDARY (01 R21): the first one needs TIMEBASE_IN (R20). -/
def execPitchBoundary (late : Bool) (tbCycles : Nat) (s : State) : Host.Outcome State Fault Refusal :=
  .next (if s.tb.started || s.tb.running then pitchBoundary s late tbCycles else s)

/-- TIMEBASE_STOP (01 R19). -/
def execTimebaseStop (s : State) : Host.Outcome State Fault Refusal := .next (stopTimebase s)

/-- TB_RESTORED (01 R19). -/
def execTbRestored (s : State) : Host.Outcome State Fault Refusal := .next (restoreTimebase s)

/-- TIMEBASE_IN_RETURN (01 R19): the partial pitch in which it returns does not count. -/
def execTimebaseInReturn (s : State) : Host.Outcome State Fault Refusal :=
  .next { s with tb := { s.tb with running := true, whole := false } }

/-- PITCH_SYNC_PULSE (01 R25): within 20 ns. -/
def execPitchSyncPulse (offsetNs : Int) (s : State) : Host.Outcome State Fault Refusal :=
  .next (if aligns s 1 then measured s offsetNs 20 else s)

/-- PITCH_MARKER_FLIT (01 R25, R26): within 100 ns; a marker of a boundary that is still to come here waits for it. -/
def execPitchMarkerFlit (count : Nat) (offsetNs : Int) (s : State) : Host.Outcome State Fault Refusal :=
  .next (if !aligns s 2 then s
    else if count ≤ s.tb.count then measured s offsetNs 100
    else { s with tb := { s.tb with markers := s.tb.markers ++ [(count, offsetNs)] } })

end Sys2Proof.Machine
end

