-- ==== Sys2Proof/Machine/Dispatch.lean ====
section
/-! DEFINITION. One arm for each command: its meaning, called once. -/

namespace Sys2Proof.Machine

open Sys2Proof

/-- The effect of a command on everything but the queue. -/
def exec (i : Instr) (s : State) : Host.Outcome State Fault Refusal :=
  match i with
  | .coldPowerOn makerEn => Sys2Proof.Machine.execColdPowerOn makerEn s
  | .powerGood report => Sys2Proof.Machine.execPowerGood report s
  | .basecampFillDone parityFail bankFail => Sys2Proof.Machine.execBasecampFillDone parityFail bankFail s
  | .memActive ms => Sys2Proof.Machine.execMemActive ms s
  | .twinNoAnswer => Sys2Proof.Machine.execTwinNoAnswer s
  | .pkgRst => Sys2Proof.Machine.execPkgRst s
  | .warmReset ses => Sys2Proof.Machine.execWarmReset ses s
  | .settingsRecordWrite => Sys2Proof.Machine.execSettingsRecordWrite s
  | .railFault rail => Sys2Proof.Machine.execRailFault rail s
  | .thermtripRegulatorOff => Sys2Proof.Machine.execThermtripRegulatorOff s
  | .flowLost => Sys2Proof.Machine.execFlowLost s
  | .flowRestored => Sys2Proof.Machine.execFlowRestored s
  | .rungEntry => Sys2Proof.Machine.execRungEntry s
  | .targetWrite ses n => Sys2Proof.Machine.execTargetWrite ses n s
  | .wake cause => Sys2Proof.Machine.execWake cause s
  | .rungExitDone us => Sys2Proof.Machine.execRungExitDone us s
  | .clusterReset ses c => Sys2Proof.Machine.execClusterReset ses c s
  | .clusterResetDone bankFail => Sys2Proof.Machine.execClusterResetDone bankFail s
  | .pitchBoundary late tbCycles => Sys2Proof.Machine.execPitchBoundary late tbCycles s
  | .timebaseStop => Sys2Proof.Machine.execTimebaseStop s
  | .tbRestored => Sys2Proof.Machine.execTbRestored s
  | .pitchSyncPulse offsetNs => Sys2Proof.Machine.execPitchSyncPulse offsetNs s
  | .pitchMarkerFlit count offsetNs => Sys2Proof.Machine.execPitchMarkerFlit count offsetNs s
  | .complexTakeover => Sys2Proof.Machine.execComplexTakeover s
  | .tempRead pc reading => Sys2Proof.Machine.execTempRead pc reading s
  | .refreshDue pc rank => Sys2Proof.Machine.execRefreshDue pc rank s
  | .pcCommandIssue pc parity => Sys2Proof.Machine.execPcCommandIssue pc parity s
  | .openTimeout pc bankq => Sys2Proof.Machine.execOpenTimeout pc bankq s
  | .ageMax pc entry => Sys2Proof.Machine.execAgeMax pc entry s
  | .rankPowerDown pc rank => Sys2Proof.Machine.execRankPowerDown pc rank s
  | .hostMemRead h p dpa mv upset => Sys2Proof.Machine.execHostMemRead h p dpa mv upset s
  | .hostMemWrite h p dpa data mask mv => Sys2Proof.Machine.execHostMemWrite h p dpa data mask mv s
  | .partialWriteMerge dpa upset => Sys2Proof.Machine.execPartialWriteMerge dpa upset s
  | .cleanEviction h p dpa => Sys2Proof.Machine.execCleanEviction h p dpa s
  | .birsp h p dpa resp => Sys2Proof.Machine.execBirsp h p dpa resp s
  | .biconflict h p dpa => Sys2Proof.Machine.execBiconflict h p dpa s
  | .biTimeout h p dpa => Sys2Proof.Machine.execBiTimeout h p dpa s
  | .linkTrained h rate width cxl flit256 partner128 => Sys2Proof.Machine.execLinkTrained h rate width cxl flit256 partner128 s
  | .eqFail128 h => Sys2Proof.Machine.execEqFail128 h s
  | .laneFailure h lanes => Sys2Proof.Machine.execLaneFailure h lanes s
  | .linkDown h forRung unacked => Sys2Proof.Machine.execLinkDown h forRung unacked s
  | .perstAssert h => Sys2Proof.Machine.execPerstAssert h s
  | .perstDeassert h => Sys2Proof.Machine.execPerstDeassert h s
  | .retrain ses h => Sys2Proof.Machine.execRetrain ses h s
  | .linkError h kind => Sys2Proof.Machine.execLinkError h kind s
  | .tlpError h kind p => Sys2Proof.Machine.execTlpError h kind p s
  | .viralReceived h => Sys2Proof.Machine.execViralReceived h s
  | .configWrite h p field value => Sys2Proof.Machine.execConfigWrite h p field value s
  | .busMasterEnableClear h p => Sys2Proof.Machine.execBusMasterEnableClear h p s
  | .busMasterEnableSet h p => Sys2Proof.Machine.execBusMasterEnableSet h p s
  | .flr h p => Sys2Proof.Machine.execFlr h p s
  | .flrComplete p => Sys2Proof.Machine.execFlrComplete p s
  | .cxlReset h p => Sys2Proof.Machine.execCxlReset h p s
  | .cxlResetComplete p => Sys2Proof.Machine.execCxlResetComplete p s
  | .msixUnmask p vec => Sys2Proof.Machine.execMsixUnmask p vec s
  | .completionReceived p tag cpl => Sys2Proof.Machine.execCompletionReceived p tag cpl s
  | .completionTimeout p tag => Sys2Proof.Machine.execCompletionTimeout p tag s
  | .tagLimitWrite h p limit => Sys2Proof.Machine.execTagLimitWrite h p limit s
  | .identify ses => Sys2Proof.Machine.execIdentify ses s
  | .getLdInfo ses => Sys2Proof.Machine.execGetLdInfo ses s
  | .getLdAllocations ses start count => Sys2Proof.Machine.execGetLdAllocations ses start count s
  | .setLdAllocations ses => Sys2Proof.Machine.execSetLdAllocations ses s
  | .getMultiHeadedInfo ses => Sys2Proof.Machine.execGetMultiHeadedInfo ses s
  | .getHeadInfo ses start count => Sys2Proof.Machine.execGetHeadInfo ses start count s
  | .getDcdInfo ses => Sys2Proof.Machine.execGetDcdInfo ses s
  | .getHostDcRegionConfiguration ses p => Sys2Proof.Machine.execGetHostDcRegionConfiguration ses p s
  | .getDcRegionExtentLists ses p start count => Sys2Proof.Machine.execGetDcRegionExtentLists ses p start count s
  | .setDcRegionConfiguration ses p region blockSize base length => Sys2Proof.Machine.execSetDcRegionConfiguration ses p region blockSize base length s
  | .initiateDynamicCapacityAdd ses p shared tag exts => Sys2Proof.Machine.execInitiateDynamicCapacityAdd ses p shared tag exts s
  | .initiateDynamicCapacityRelease ses p forced exts => Sys2Proof.Machine.execInitiateDynamicCapacityRelease ses p forced exts s
  | .setQosAllocatedBw ses start fractions => Sys2Proof.Machine.execSetQosAllocatedBw ses start fractions s
  | .getQosAllocatedBw ses start count => Sys2Proof.Machine.execGetQosAllocatedBw ses start count s
  | .getQosBwLimit ses start count => Sys2Proof.Machine.execGetQosBwLimit ses start count s
  | .setQosBwLimit ses start limits => Sys2Proof.Machine.execSetQosBwLimit ses start limits s
  | .getQosStatus ses => Sys2Proof.Machine.execGetQosStatus ses s
  | .getQosControl ses => Sys2Proof.Machine.execGetQosControl ses s
  | .setQosControl ses values => Sys2Proof.Machine.execSetQosControl ses values s
  | .bindPartition ses payload => Sys2Proof.Machine.execBindPartition ses payload s
  | .bindTakesEffect p => Sys2Proof.Machine.execBindTakesEffect p s
  | .getPartitionState ses payload => Sys2Proof.Machine.execGetPartitionState ses payload s
  | .initiateExtentAdd ses payload => Sys2Proof.Machine.execInitiateExtentAdd ses payload s
  | .setExtentAttributes ses payload => Sys2Proof.Machine.execSetExtentAttributes ses payload s
  | .forceExtentRelease ses payload => Sys2Proof.Machine.execForceExtentRelease ses payload s
  | .renewLease ses payload => Sys2Proof.Machine.execRenewLease ses payload s
  | .reclaimPartition ses payload => Sys2Proof.Machine.execReclaimPartition ses payload s
  | .revivePartition ses payload => Sys2Proof.Machine.execRevivePartition ses payload s
  | .fmCommandUnsupported ses opcode => Sys2Proof.Machine.execFmCommandUnsupported ses opcode s
  | .readPageRegister ses blk inst off count => Sys2Proof.Machine.execReadPageRegister ses blk inst off count s
  | .writePageRegister ses blk inst off rsvd value => Sys2Proof.Machine.execWritePageRegister ses blk inst off rsvd value s
  | .stageImage ses offset chunk last => Sys2Proof.Machine.execStageImage ses offset chunk last s
  | .addDynamicCapacityResponse h p exts => Sys2Proof.Machine.execAddDynamicCapacityResponse h p exts s
  | .releaseDynamicCapacity h p exts => Sys2Proof.Machine.execReleaseDynamicCapacity h p exts s
  | .dcReportMailbox h p => Sys2Proof.Machine.execDcReportMailbox h p s
  | .getPoisonList h p => Sys2Proof.Machine.execGetPoisonList h p s
  | .injectPoison ses p dpa => Sys2Proof.Machine.execInjectPoison ses p dpa s
  | .clearPoison h p dpa data => Sys2Proof.Machine.execClearPoison h p dpa data s
  | .mailboxUnsupported h p opcode => Sys2Proof.Machine.execMailboxUnsupported h p opcode s
  | .leaseRenew h p => Sys2Proof.Machine.execLeaseRenew h p s
  | .leaseLow p => Sys2Proof.Machine.execLeaseLow p s
  | .leaseExpiry p => Sys2Proof.Machine.execLeaseExpiry p s
  | .sanitiseComplete gran => Sys2Proof.Machine.execSanitiseComplete gran s
  | .snapOpen h p base version => Sys2Proof.Machine.execSnapOpen h p base version s
  | .snapClose h p base => Sys2Proof.Machine.execSnapClose h p base s
  | .snapDraft h p base => Sys2Proof.Machine.execSnapDraft h p base s
  | .snapCommit h p base => Sys2Proof.Machine.execSnapCommit h p base s
  | .snapCommitEffect p => Sys2Proof.Machine.execSnapCommitEffect p s
  | .snapAbandon h p base => Sys2Proof.Machine.execSnapAbandon h p base s
  | .reserveWrite ses granules => Sys2Proof.Machine.execReserveWrite ses granules s
  | .hintEnable h p on => Sys2Proof.Machine.execHintEnable h p on s
  | .hintProducer h p producer => Sys2Proof.Machine.execHintProducer h p producer s
  | .hintFetchDone p cpl => Sys2Proof.Machine.execHintFetchDone p cpl s
  | .prefetch p => Sys2Proof.Machine.execPrefetch p s
  | .hintPin p => Sys2Proof.Machine.execHintPin p s
  | .unpin p => Sys2Proof.Machine.execUnpin p s
  | .cold p => Sys2Proof.Machine.execCold p s
  | .discard p => Sys2Proof.Machine.execDiscard p s
  | .hintCompact p => Sys2Proof.Machine.execHintCompact p s
  | .fillComplete block ok => Sys2Proof.Machine.execFillComplete block ok s
  | .ioTimeout slot cmd => Sys2Proof.Machine.execIoTimeout slot cmd s
  | .evictionStart c => Sys2Proof.Machine.execEvictionStart c s
  | .evictionComplete block => Sys2Proof.Machine.execEvictionComplete block s
  | .ssdInsert slot => Sys2Proof.Machine.execSsdInsert slot s
  | .slotDebounceEnd slot => Sys2Proof.Machine.execSlotDebounceEnd slot s
  | .powerFault slot => Sys2Proof.Machine.execPowerFault slot s
  | .ssdAdmit slot info => Sys2Proof.Machine.execSsdAdmit slot info s
  | .attnButton slot => Sys2Proof.Machine.execAttnButton slot s
  | .button ses slot => Sys2Proof.Machine.execButton ses slot s
  | .buttonWaitEnd slot => Sys2Proof.Machine.execButtonWaitEnd slot s
  | .ssdFail slot cause => Sys2Proof.Machine.execSsdFail slot cause s
  | .ssdAsyncEvent slot reliability readOnly => Sys2Proof.Machine.execSsdAsyncEvent slot reliability readOnly s
  | .pathLost slot path => Sys2Proof.Machine.execPathLost slot path s
  | .pathReturn slot path => Sys2Proof.Machine.execPathReturn slot path s
  | .pathsDownTimeout slot => Sys2Proof.Machine.execPathsDownTimeout slot s
  | .rebuildDone => Sys2Proof.Machine.execRebuildDone s
  | .blockDecode block => Sys2Proof.Machine.execBlockDecode block s
  | .compactorCommit block kind form table => Sys2Proof.Machine.execCompactorCommit block kind form table s
  | .doorbell h p ring producer relaxed => Sys2Proof.Machine.execDoorbell h p ring producer relaxed s
  | .descriptorFetch p ring cpl => Sys2Proof.Machine.execDescriptorFetch p ring cpl s
  | .jobStart p ring idx => Sys2Proof.Machine.execJobStart p ring idx s
  | .stepGenerate p ring idx homes remoteOk => Sys2Proof.Machine.execStepGenerate p ring idx homes remoteOk s
  | .stepStart core granules wait => Sys2Proof.Machine.execStepStart core granules wait s
  | .stepResume p ring idx step => Sys2Proof.Machine.execStepResume p ring idx step s
  | .stepOverrun p ring idx step => Sys2Proof.Machine.execStepOverrun p ring idx step s
  | .watchdogTrip p ring idx step => Sys2Proof.Machine.execWatchdogTrip p ring idx step s
  | .stepCommit p ring idx step quick => Sys2Proof.Machine.execStepCommit p ring idx step quick s
  | .steal core => Sys2Proof.Machine.execSteal core s
  | .jobComplete p ring idx => Sys2Proof.Machine.execJobComplete p ring idx s
  | .ringEnable h p ring on => Sys2Proof.Machine.execRingEnable h p ring on s
  | .fill p ring idx => Sys2Proof.Machine.execFill p ring idx s
  | .copy p ring idx => Sys2Proof.Machine.execCopy p ring idx s
  | .gather p ring idx => Sys2Proof.Machine.execGather p ring idx s
  | .scatter p ring idx => Sys2Proof.Machine.execScatter p ring idx s
  | .compare p ring idx => Sys2Proof.Machine.execCompare p ring idx s
  | .search p ring idx => Sys2Proof.Machine.execSearch p ring idx s
  | .hashBuild p ring idx => Sys2Proof.Machine.execHashBuild p ring idx s
  | .hashProbe p ring idx => Sys2Proof.Machine.execHashProbe p ring idx s
  | .intersect p ring idx => Sys2Proof.Machine.execIntersect p ring idx s
  | .union p ring idx => Sys2Proof.Machine.execUnion p ring idx s
  | .difference p ring idx => Sys2Proof.Machine.execDifference p ring idx s
  | .count p ring idx => Sys2Proof.Machine.execCount p ring idx s
  | .dedup p ring idx => Sys2Proof.Machine.execDedup p ring idx s
  | .sort p ring idx => Sys2Proof.Machine.execSort p ring idx s
  | .neighborGather p ring idx => Sys2Proof.Machine.execNeighborGather p ring idx s
  | .bitmap p ring idx => Sys2Proof.Machine.execBitmap p ring idx s
  | .reduce p ring idx => Sys2Proof.Machine.execReduce p ring idx s
  | .segmentReduce p ring idx => Sys2Proof.Machine.execSegmentReduce p ring idx s
  | .windowOpen p ring idx => Sys2Proof.Machine.execWindowOpen p ring idx s
  | .accumulate p ring idx => Sys2Proof.Machine.execAccumulate p ring idx s
  | .windowCommit p ring idx => Sys2Proof.Machine.execWindowCommit p ring idx s
  | .map p ring idx => Sys2Proof.Machine.execMap p ring idx s
  | .compact p ring idx => Sys2Proof.Machine.execCompact p ring idx s
  | .expand p ring idx => Sys2Proof.Machine.execExpand p ring idx s
  | .verify p ring idx => Sys2Proof.Machine.execVerify p ring idx s
  | .queueHoldRelease pc => Sys2Proof.Machine.execQueueHoldRelease pc s
  | .guarWrite ses p gbs => Sys2Proof.Machine.execGuarWrite ses p gbs s
  | .reclaimStart ses cls on => Sys2Proof.Machine.execReclaimStart ses cls on s
  | .reclaimDone cls => Sys2Proof.Machine.execReclaimDone cls s
  | .freezeHold pc => Sys2Proof.Machine.execFreezeHold pc s
  | .resume actor pc => Sys2Proof.Machine.execResume actor pc s
  | .retireRow actor pc => Sys2Proof.Machine.execRetireRow actor pc s
  | .retireRowDone pc => Sys2Proof.Machine.execRetireRowDone pc s
  | .fail actor pc => Sys2Proof.Machine.execFail actor pc s
  | .pcRetrainEnd pc finished => Sys2Proof.Machine.execPcRetrainEnd pc finished s
  | .trainRun ses pc value => Sys2Proof.Machine.execTrainRun ses pc value s
  | .trainDone pc lanes mismatches firstFail => Sys2Proof.Machine.execTrainDone pc lanes mismatches firstFail s
  | .quiesce ses pc on => Sys2Proof.Machine.execQuiesce ses pc on s
  | .storeRegionTestDone c pass => Sys2Proof.Machine.execStoreRegionTestDone c pass s
  | .scrubLine pc upset => Sys2Proof.Machine.execScrubLine pc upset s
  | .sramUe site => Sys2Proof.Machine.execSramUe site s
  | .autoRetire seq => Sys2Proof.Machine.execAutoRetire seq s
  | .retireBlock ses pc rank bank row => Sys2Proof.Machine.execRetireBlock ses pc rank bank row s
  | .retireRowCmd ses pc rank bank row => Sys2Proof.Machine.execRetireRowCmd ses pc rank bank row s
  | .retireBank ses pc rank bank => Sys2Proof.Machine.execRetireBank ses pc rank bank s
  | .retirePc ses pc => Sys2Proof.Machine.execRetirePc ses pc s
  | .retired => Sys2Proof.Machine.execRetired s
  | .cairnExpressCommit block inst late => Sys2Proof.Machine.execCairnExpressCommit block inst late s
  | .readSeqWrite ses seq => Sys2Proof.Machine.execReadSeqWrite ses seq s
  | .cairnStreamReceive rec => Sys2Proof.Machine.execCairnStreamReceive rec s
  | .pairing twin => Sys2Proof.Machine.execPairing twin s
  | .heartbeatReceived group count => Sys2Proof.Machine.execHeartbeatReceived group count s
  | .heartbeatMiss => Sys2Proof.Machine.execHeartbeatMiss s
  | .leaving => Sys2Proof.Machine.execLeaving s
  | .leave ses => Sys2Proof.Machine.execLeave ses s
  | .swap ses => Sys2Proof.Machine.execSwap ses s
  | .approve ses => Sys2Proof.Machine.execApprove ses s
  | .belayRetrain frm => Sys2Proof.Machine.execBelayRetrain frm s
  | .groupDown g => Sys2Proof.Machine.execGroupDown g s
  | .renew ses => Sys2Proof.Machine.execRenew ses s
  | .witnessWaitExpiry => Sys2Proof.Machine.execWitnessWaitExpiry s
  | .witnessLapsed => Sys2Proof.Machine.execWitnessLapsed s
  | .mirroredWrite msg => Sys2Proof.Machine.execMirroredWrite msg s
  | .forwardedRequest msg => Sys2Proof.Machine.execForwardedRequest msg s
  | .journalEntry msg => Sys2Proof.Machine.execJournalEntry msg s
  | .journalApply => Sys2Proof.Machine.execJournalApply s
  | .digestReceived seq step digest => Sys2Proof.Machine.execDigestReceived seq step digest s
  | .digestTimeout seq step => Sys2Proof.Machine.execDigestTimeout seq step s
  | .resyncSegmentDone seg blocks => Sys2Proof.Machine.execResyncSegmentDone seg blocks s
  | .resyncDone => Sys2Proof.Machine.execResyncDone s
  | .dieLost d => Sys2Proof.Machine.execDieLost d s
  | .portDieLost d => Sys2Proof.Machine.execPortDieLost d s
  | .getVersion ses => Sys2Proof.Machine.execGetVersion ses s
  | .getCapabilities ses => Sys2Proof.Machine.execGetCapabilities ses s
  | .negotiateAlgorithms ses => Sys2Proof.Machine.execNegotiateAlgorithms ses s
  | .getDigests ses => Sys2Proof.Machine.execGetDigests ses s
  | .getCertificate ses => Sys2Proof.Machine.execGetCertificate ses s
  | .challenge ses => Sys2Proof.Machine.execChallenge ses s
  | .getMeasurements ses => Sys2Proof.Machine.execGetMeasurements ses s
  | .keyExchange transport root => Sys2Proof.Machine.execKeyExchange transport root s
  | .finish ses => Sys2Proof.Machine.execFinish ses s
  | .heartbeat ses => Sys2Proof.Machine.execHeartbeat ses s
  | .keyUpdate ses => Sys2Proof.Machine.execKeyUpdate ses s
  | .endSession ses => Sys2Proof.Machine.execEndSession ses s
  | .spdmUnsupported ses code => Sys2Proof.Machine.execSpdmUnsupported ses code s
  | .sessionTimeout ses => Sys2Proof.Machine.execSessionTimeout ses s
  | .anchorCommit ses => Sys2Proof.Machine.execAnchorCommit ses s
  | .anchorClear ses => Sys2Proof.Machine.execAnchorClear ses s
  | .ideKm h => Sys2Proof.Machine.execIdeKm h s
  | .ideFail h => Sys2Proof.Machine.execIdeFail h s
  | .fwAccept ses => Sys2Proof.Machine.execFwAccept ses s
  | .fwRevoke ses => Sys2Proof.Machine.execFwRevoke ses s
  | .blockReset view blk inst => Sys2Proof.Machine.execBlockReset view blk inst s
  | .blockResetDone blk inst => Sys2Proof.Machine.execBlockResetDone blk inst s
  | .lock ses blk inst => Sys2Proof.Machine.execLock ses blk inst s
  | .evtStatusClear view blk inst bits => Sys2Proof.Machine.execEvtStatusClear view blk inst bits s
  | .evtForce ses blk inst bits => Sys2Proof.Machine.execEvtForce ses blk inst bits s
  | .registerWrite view target widthBytes value => Sys2Proof.Machine.execRegisterWrite view target widthBytes value s
  | .mfpFuncWrite ses pin func => Sys2Proof.Machine.execMfpFuncWrite ses pin func s
  | .mfpParkEnd pin => Sys2Proof.Machine.execMfpParkEnd pin s
  | .timebaseInReturn => Sys2Proof.Machine.execTimebaseInReturn s
  | .rungEntered => Sys2Proof.Machine.execRungEntered s
  | .railRemoved rail => Sys2Proof.Machine.execRailRemoved rail s
  | .railRestored rail => Sys2Proof.Machine.execRailRestored rail s
  | .mfpInputChange pin level => Sys2Proof.Machine.execMfpInputChange pin level s
  | .pwrgdAsserted slot => Sys2Proof.Machine.execPwrgdAsserted slot s
  | .deallocateComplete slot cmd => Sys2Proof.Machine.execDeallocateComplete slot cmd s
  | .rebuildWriteComplete c => Sys2Proof.Machine.execRebuildWriteComplete c s
  | .pcRetrainStart pc => Sys2Proof.Machine.execPcRetrainStart pc s
  | .logicSensorRead celsius => Sys2Proof.Machine.execLogicSensorRead celsius s
  | .groupUp g half => Sys2Proof.Machine.execGroupUp g half s
  | .l1Entry h => Sys2Proof.Machine.execL1Entry h s
  | .stripeLockExpiry c stripe => Sys2Proof.Machine.execStripeLockExpiry c stripe s
  | .snapCommandDone p => Sys2Proof.Machine.execSnapCommandDone p s
  | .disable ses h on => Sys2Proof.Machine.execDisable ses h on s
  | .hdmDecoderCommit h p base len bi => Sys2Proof.Machine.execHdmDecoderCommit h p base len bi s
  | .clearEventRecords h p log count => Sys2Proof.Machine.execClearEventRecords h p log count s
  | .setEventInterruptPolicy h p log vector => Sys2Proof.Machine.execSetEventInterruptPolicy h p log vector s

end Sys2Proof.Machine
end

