-- ==== Sys2Proof/Safety.lean ====
section
/-! DEFINITION. What the statements call a sound state, what a command keeps, and a safe step. -/

namespace Sys2Proof.Machine

open Sys2Proof

/-- The three byte memories keep their one canonical form: addresses strictly rising, no listed byte equal to
what an unlisted address reads (device memory, 10 R220; SSD contents, 05 R117; ring memory, 02 R43). -/
def State.memoriesWf (s : State) : Bool := Memory.wf s.mem && Memory.wf s.ssd && Memory.wf s.ringMem

/-- Every listed value of a field fits the field's width in its register table (15, Access codes). -/
def fits (m : Assoc RegKey Nat) : Bool := m.all fun e => decide (e.2 < 2 ^ e.1.fld.desc.w)

/-- Every register field, and every value still in force of a field written since, fits its width. -/
def State.fieldsFit (s : State) : Bool := fits s.regs && fits s.lag

/-- What every command does to every state: the queue stays; what was sent stays sent; draws of free values only
advance; sound memories and fitting registers stay so. -/
structure Keeps (s t : State) : Prop where
  pending : t.pending = s.pending
  out : ∃ l, t.out = l ++ s.out
  free : s.free ≤ t.free
  memories : s.memoriesWf = true → t.memoriesWf = true
  fields : s.fieldsFit = true → t.fieldsFit = true

/-- A step that answers a next state. -/
def Completes (o : Host.Outcome State Fault Refusal) : Prop := ∃ t, o = .next t

/-- The EVT_STATUS bit of an event is set on an instance of its page (15 R325). -/
def Signalled (s : State) (e : Evt) (i : Nat := 0) : Prop := (hget s e.info.1 i).evtStatus.getLsbD e.info.2.1 = true

/-! ### Kinds of state, and what a command may change -/

/-- The kinds of state that a frame tells apart. -/
inductive Kind where
  /-- messages sent -/
  | messages
  /-- draws of free values -/
  | draws
  /-- page headers (15 Table 15.1) -/
  | headers
  /-- staging slots, latches and log of Cairn (11), with COALESCE_STATS.LATCHED -/
  | events
  /-- device memory, poison and cell errors -/
  | memory
  /-- start-up (13) -/
  | boot
  /-- boot flash (14, 15 R329) -/
  | flash
  /-- the ladder (13) -/
  | power
  /-- the pitch (01) -/
  | timebase
  /-- the links (02) -/
  | heads
  /-- configuration spaces, MSI-X, AER, event logs, tags (02) -/
  | config
  /-- hosts' HDM decoders (04) -/
  | decoders
  /-- leases and epochs (03) -/
  | partitions
  /-- extents, the reserve, granules in sanitising (03, 04) -/
  | extents
  /-- the fabric manager's event log (03) -/
  | fmLog
  /-- the directory, its transactions and waiting requests (04) -/
  | directory
  /-- versions and snapshot commands (04) -/
  | snapshots
  /-- Basecamp frames (05) -/
  | frames
  /-- the SSDs, their slots and the LBA map (05) -/
  | scree
  /-- fetched hints (05) -/
  | hints
  /-- the block index, the expander, the compactor (06) -/
  | compression
  /-- job rings (07) -/
  | rings
  /-- ring memory of the device (02) -/
  | ringMemory
  /-- jobs and windows (07) -/
  | jobs
  /-- steps and cores (08) -/
  | steps
  /-- tallies of regulation (09) -/
  | regulation
  /-- the PC controllers and the cluster stores (10) -/
  | controllers
  /-- dies and clusters out of service, clusters in reset (10) -/
  | outOfService
  /-- retirement and scrubbing (11) -/
  | ras
  /-- the pair (12) -/
  | pair
  /-- sessions (14) -/
  | sessions
  /-- pins (16) -/
  | pins
  /-- the register fields of a block's page, in force and waiting; of Cairn all but COALESCE_STATS.LATCHED -/
  | page (b : Blk)
  deriving DecidableEq, Repr

/-- A kind of state is the same in two states; every byte of a memory that is the same reads as before. -/
def Same (k : Kind) (s t : State) : Prop :=
  match k with
  | .messages => t.out = s.out
  | .draws => t.free = s.free
  | .headers => t.hdr = s.hdr
  | .events => t.cairn = s.cairn ∧ fget t .cairnCoalesceStatsLatched = fget s .cairnCoalesceStatsLatched
  | .memory => t.mem = s.mem ∧ t.poison = s.poison ∧ t.damage = s.damage
  | .boot => t.boot = s.boot
  | .flash => t.flash = s.flash
  | .power => t.power = s.power
  | .timebase => t.tb = s.tb
  | .heads => t.heads = s.heads
  | .config => t.cfgs = s.cfgs
  | .decoders => t.hdms = s.hdms
  | .partitions => t.parts = s.parts
  | .extents => t.exts = s.exts ∧ t.attrDue = s.attrDue ∧ t.reserve = s.reserve ∧ t.sanReqs = s.sanReqs ∧
      t.sanHalf = s.sanHalf
  | .fmLog => t.fmLog = s.fmLog
  | .directory => t.dir = s.dir ∧ t.trans = s.trans ∧ t.lineq = s.lineq
  | .snapshots => t.snaps = s.snaps ∧ t.snapCmds = s.snapCmds
  | .frames => t.frames = s.frames ∧ t.pinMarks = s.pinMarks ∧ t.draining = s.draining
  | .scree => t.lbaMap = s.lbaMap ∧ t.ssd = s.ssd ∧ t.locks = s.locks ∧ t.ios = s.ios ∧
      t.nextIo = s.nextIo ∧ t.slots = s.slots ∧ t.rebuild = s.rebuild ∧ t.tier = s.tier
  | .hints => t.hints = s.hints
  | .compression => t.index = s.index ∧ t.segs = s.segs ∧ t.cache = s.cache ∧ t.expPitch = s.expPitch ∧
      t.compactQ = s.compactQ ∧ t.stale = s.stale ∧ t.damaged = s.damaged
  | .rings => t.rings = s.rings
  | .ringMemory => t.ringMem = s.ringMem
  | .jobs => t.jobs = s.jobs ∧ t.windows = s.windows ∧ t.applied = s.applied
  | .steps => t.steps = s.steps ∧ t.coreTrips = s.coreTrips ∧ t.coresOut = s.coresOut
  | .regulation => t.qos = s.qos
  | .controllers => t.pcs = s.pcs ∧ t.stores = s.stores
  | .outOfService => t.portDiesOut = s.portDiesOut ∧ t.clustersOut = s.clustersOut ∧ t.resetting = s.resetting ∧
      t.repaired = s.repaired
  | .ras => t.ras = s.ras
  | .pair => t.belay = s.belay
  | .sessions => t.sessions = s.sessions
  | .pins => t.pins = s.pins
  | .page b => ∀ (f : Fld) (i j : Nat), f.desc.blk = b → f ≠ .cairnCoalesceStatsLatched →
      fget t f i j = fget s f i j ∧ fcur t f i j = fcur s f i j

/-- Two states differ at most in the kinds listed. -/
def SameBut (ks : List Kind) (s t : State) : Prop := ∀ k, k ∉ ks → Same k s t

/-- What an event may change: a page header, the staging slots, MSI-X entries, messages (15 R325; 11 R258). -/
def event : List Kind := [.messages, .headers, .events, .config]

/-- Those kinds and others. -/
def eventAnd (l : List Kind) : List Kind := event ++ l

/-- Every block's page. -/
def everyPage : List Kind := [.page .id, .page .port, .page .part, .page .ext, .page .dir, .page .tier, .page
  .cmp, .page .job, .page .qos, .page .pc, .page .store, .page .ras, .page .cairn, .page .belay, .page .pwr, .page
  .pin, .page .role, .page .pitch]

/-- Those kinds, others, and every page. -/
def eventPages (l : List Kind) : List Kind := event ++ l ++ everyPage

/-- Every kind of state. -/
def everyKind : List Kind := event ++ [.draws, .memory, .boot, .flash, .power, .timebase, .heads, .decoders,
  .partitions, .extents, .fmLog, .directory, .snapshots, .frames, .scree, .hints, .compression, .rings,
  .ringMemory, .jobs, .steps, .regulation, .controllers, .outOfService, .ras, .pair, .sessions, .pins] ++
  everyPage

/-- The frame of a command: the two states differ at most in the kinds listed for it (the rules of its row). -/
def Leaves (c : Instr) (s t : State) : Prop :=
  match c with
  | .coldPowerOn .. | .pkgRst | .warmReset .. | .targetWrite .. | .clusterReset .. | .writePageRegister ..
  | .blockReset .. | .registerWrite .. => SameBut everyKind s t
  | .powerGood .. =>
    SameBut (eventAnd [.draws, .memory, .boot, .flash, .snapshots, .frames, .scree, .compression, .jobs, .steps,
      .regulation, .controllers, .outOfService, .ras, .pair, .page .id, .page .cmp, .page .qos, .page .pc,
      .page .ras, .page .cairn, .page .belay, .page .pwr, .page .pin, .page .role, .page .pitch]) s t
  | .basecampFillDone .. =>
    SameBut (eventAnd [.draws, .memory, .boot, .snapshots, .frames, .scree, .compression, .jobs, .steps,
      .regulation, .controllers, .outOfService, .ras, .pair, .page .tier, .page .cmp, .page .qos, .page .pc,
      .page .store, .page .ras, .page .belay, .page .pitch]) s t
  | .memActive .. => SameBut (eventAnd [.boot, .flash, .scree, .pair, .page .tier, .page .pwr]) s t
  | .twinNoAnswer | .heartbeatMiss | .leaving | .journalApply =>
    SameBut (eventPages [.draws, .memory, .flash, .power, .timebase, .decoders, .partitions, .extents, .fmLog,
      .directory, .snapshots, .frames, .scree, .hints, .compression, .rings, .jobs, .steps, .regulation,
      .controllers, .outOfService, .ras, .pair]) s t
  | .settingsRecordWrite => SameBut [.flash] s t
  | .railFault .. => SameBut (eventAnd [.memory, .boot, .heads, .frames, .compression, .page .pin]) s t
  | .thermtripRegulatorOff => SameBut [.boot] s t
  | .flowLost | .flowRestored => SameBut (eventAnd [.page .pin]) s t
  | .rungEntry =>
    SameBut (eventAnd [.memory, .power, .directory, .frames, .scree, .controllers, .ras, .pair, .page .dir,
      .page .pc, .page .ras, .page .pwr]) s t
  | .wake .. => SameBut (eventAnd [.power, .page .pwr]) s t
  | .rungExitDone .. =>
    SameBut (eventAnd [.draws, .memory, .flash, .power, .snapshots, .frames, .scree, .compression, .jobs, .steps,
      .regulation, .controllers, .outOfService, .ras, .pair, .page .cmp, .page .qos, .page .pc, .page .store,
      .page .ras, .page .cairn, .page .belay, .page .pwr]) s t
  | .clusterResetDone .. =>
    SameBut (eventAnd [.draws, .memory, .snapshots, .frames, .scree, .compression, .jobs, .steps, .regulation,
      .controllers, .outOfService, .ras, .pair, .page .cmp, .page .qos, .page .pc, .page .store, .page .ras,
      .page .belay, .page .pwr, .page .pitch]) s t
  | .pitchBoundary .. =>
    SameBut (eventAnd [.draws, .memory, .flash, .power, .timebase, .heads, .partitions, .extents, .fmLog,
      .directory, .snapshots, .frames, .scree, .hints, .compression, .rings, .jobs, .steps, .regulation,
      .controllers, .outOfService, .ras, .pair, .sessions, .page .part, .page .ext, .page .dir, .page .tier,
      .page .cmp, .page .job, .page .qos, .page .pc, .page .store, .page .ras, .page .cairn, .page .belay,
      .page .pwr, .page .role, .page .pitch]) s t
  | .timebaseStop | .tbRestored | .pitchSyncPulse .. | .pitchMarkerFlit .. =>
    SameBut (eventAnd [.timebase, .page .pitch]) s t
  | .complexTakeover | .cairnExpressCommit .. | .cairnStreamReceive .. => SameBut (eventAnd [.page .cairn]) s t
  | .tempRead .. =>
    SameBut (eventAnd [.draws, .memory, .boot, .timebase, .extents, .directory, .snapshots, .frames, .scree,
      .hints, .compression, .jobs, .steps, .regulation, .controllers, .outOfService, .ras, .pair, .page .ext,
      .page .dir, .page .tier, .page .cmp, .page .qos, .page .pc, .page .ras, .page .belay, .page .role,
      .page .pitch]) s t
  | .refreshDue .. => SameBut [.controllers, .page .pc] s t
  | .pcCommandIssue .. | .blockDecode .. | .freezeHold .. | .retireRowDone .. | .pcRetrainEnd .. | .autoRetire .. =>
    SameBut (eventAnd [.draws, .memory, .snapshots, .frames, .scree, .compression, .jobs, .steps, .regulation,
      .controllers, .outOfService, .ras, .pair, .page .cmp, .page .qos, .page .pc, .page .ras, .page .belay]) s t
  | .openTimeout .. | .ageMax .. => SameBut [.controllers] s t
  | .rankPowerDown .. => SameBut [.page .pc] s t
  | .hostMemRead .. | .hostMemWrite .. =>
    SameBut (eventAnd [.draws, .memory, .power, .directory, .snapshots, .frames, .scree, .compression, .jobs,
      .steps, .regulation, .controllers, .outOfService, .ras, .pair, .page .dir, .page .tier, .page .cmp,
      .page .qos, .page .pc, .page .ras, .page .belay]) s t
  | .partialWriteMerge .. | .scrubLine .. =>
    SameBut (eventAnd [.memory, .controllers, .ras, .pair, .page .pc, .page .ras]) s t
  | .cleanEviction .. => SameBut (eventAnd [.power, .directory, .regulation, .pair, .page .dir, .page .qos]) s t
  | .birsp .. | .biTimeout .. =>
    SameBut (eventAnd [.draws, .memory, .extents, .directory, .snapshots, .frames, .scree, .compression, .jobs,
      .steps, .regulation, .controllers, .outOfService, .ras, .pair, .page .ext, .page .dir, .page .tier,
      .page .cmp, .page .qos, .page .pc, .page .ras, .page .belay, .page .role]) s t
  | .biconflict .. => SameBut [.messages] s t
  | .linkTrained .. | .laneFailure .. | .linkDown .. | .l1Entry .. =>
    SameBut (eventAnd [.draws, .memory, .flash, .heads, .extents, .directory, .snapshots, .frames, .scree, .hints,
      .compression, .rings, .jobs, .steps, .regulation, .controllers, .outOfService, .ras, .pair, .sessions,
      .page .port, .page .ext, .page .dir, .page .tier, .page .cmp, .page .job, .page .qos, .page .pc, .page .ras,
      .page .belay, .page .role]) s t
  | .eqFail128 .. | .tlpError .. => SameBut (eventAnd [.heads, .page .port]) s t
  | .perstAssert .. =>
    SameBut (eventAnd [.draws, .memory, .flash, .heads, .partitions, .extents, .directory, .snapshots, .frames,
      .scree, .hints, .compression, .rings, .jobs, .steps, .regulation, .controllers, .outOfService, .ras, .pair,
      .sessions, .page .port, .page .ext, .page .dir, .page .tier, .page .cmp, .page .job, .page .qos, .page .pc,
      .page .ras, .page .belay, .page .role]) s t
  | .perstDeassert .. => SameBut [.heads, .page .port] s t
  | .retrain .. | .disable .. =>
    SameBut (eventAnd [.draws, .memory, .flash, .power, .heads, .extents, .directory, .snapshots, .frames, .scree,
      .hints, .compression, .rings, .jobs, .steps, .regulation, .controllers, .outOfService, .ras, .pair,
      .sessions, .page .port, .page .ext, .page .dir, .page .tier, .page .cmp, .page .job, .page .qos, .page .pc,
      .page .ras, .page .cairn, .page .belay, .page .role]) s t
  | .linkError .. => SameBut [.messages, .heads, .config, .page .port] s t
  | .viralReceived .. => SameBut [.page .ras] s t
  | .configWrite .. | .busMasterEnableSet .. | .tagLimitWrite .. =>
    SameBut (eventAnd [.power, .heads, .rings]) s t
  | .busMasterEnableClear .. | .ideKm .. =>
    SameBut (eventAnd [.power, .heads, .snapshots, .frames, .scree, .hints, .rings, .jobs, .steps, .controllers,
      .outOfService, .page .tier, .page .job]) s t
  | .flr .. | .cxlReset .. =>
    SameBut (eventAnd [.power, .heads, .partitions, .snapshots, .frames, .scree, .hints, .rings, .jobs, .steps,
      .controllers, .outOfService, .page .tier, .page .job]) s t
  | .flrComplete .. | .cxlResetComplete .. =>
    SameBut (eventAnd [.draws, .memory, .partitions, .extents, .snapshots, .frames, .scree, .hints, .compression,
      .rings, .jobs, .steps, .regulation, .controllers, .outOfService, .ras, .pair, .page .part, .page .ext,
      .page .dir, .page .tier, .page .cmp, .page .job, .page .qos, .page .pc, .page .ras, .page .belay,
      .page .role]) s t
  | .msixUnmask .. => SameBut [.messages, .config] s t
  | .completionReceived .. | .hintFetchDone .. =>
    SameBut (eventAnd [.draws, .snapshots, .frames, .scree, .hints, .rings, .jobs, .steps, .controllers,
      .outOfService, .pair, .page .tier, .page .job]) s t
  | .completionTimeout .. => SameBut (eventAnd [.hints, .rings, .jobs, .page .tier, .page .job]) s t
  | .identify .. | .getLdInfo .. | .getLdAllocations .. | .setLdAllocations .. | .getMultiHeadedInfo ..
  | .getHeadInfo .. | .getDcdInfo .. | .getHostDcRegionConfiguration .. | .getDcRegionExtentLists ..
  | .setDcRegionConfiguration .. | .getQosAllocatedBw .. | .getQosBwLimit .. | .setQosBwLimit ..
  | .getQosStatus .. | .getQosControl .. | .getPartitionState .. | .fmCommandUnsupported .. | .readPageRegister ..
  | .readSeqWrite .. | .evtForce .. => SameBut (eventAnd [.power, .sessions, .page .cairn, .page .role]) s t
  | .initiateDynamicCapacityAdd .. | .initiateExtentAdd .. =>
    SameBut (eventAnd [.power, .partitions, .extents, .snapshots, .pair, .sessions, .page .ext, .page .cairn,
      .page .role]) s t
  | .initiateDynamicCapacityRelease .. =>
    SameBut (eventAnd [.draws, .power, .partitions, .extents, .directory, .snapshots, .jobs, .pair, .sessions,
      .page .ext, .page .dir, .page .cairn, .page .role]) s t
  | .setQosAllocatedBw .. =>
    SameBut (eventAnd [.power, .pair, .sessions, .page .qos, .page .cairn, .page .role]) s t
  | .setQosControl .. => SameBut (eventAnd [.power, .regulation, .sessions, .page .cairn, .page .role]) s t
  | .bindPartition .. => SameBut (eventAnd [.power, .partitions, .sessions, .page .cairn, .page .role]) s t
  | .bindTakesEffect .. =>
    SameBut (eventAnd [.draws, .memory, .decoders, .partitions, .extents, .directory, .snapshots, .frames, .scree,
      .hints, .compression, .rings, .jobs, .steps, .regulation, .controllers, .outOfService, .ras, .pair,
      .page .part, .page .ext, .page .dir, .page .tier, .page .cmp, .page .job, .page .qos, .page .pc, .page .ras,
      .page .belay, .page .role]) s t
  | .setExtentAttributes .. =>
    SameBut (eventAnd [.power, .extents, .pair, .sessions, .page .cairn, .page .role]) s t
  | .forceExtentRelease .. =>
    SameBut (eventAnd [.power, .partitions, .extents, .directory, .snapshots, .jobs, .pair, .sessions, .page .ext,
      .page .dir, .page .cairn, .page .role]) s t
  | .renewLease .. =>
    SameBut (eventAnd [.power, .partitions, .pair, .sessions, .page .part, .page .cairn, .page .role]) s t
  | .reclaimPartition .. =>
    SameBut (eventAnd [.power, .extents, .directory, .snapshots, .jobs, .pair, .sessions, .page .part, .page .ext,
      .page .dir, .page .cairn, .page .role]) s t
  | .revivePartition .. =>
    SameBut (eventAnd [.power, .partitions, .extents, .pair, .sessions, .page .part, .page .ext, .page .cairn,
      .page .role]) s t
  | .stageImage .. => SameBut (eventAnd [.flash, .power, .pair, .sessions, .page .cairn, .page .role]) s t
  | .addDynamicCapacityResponse .. =>
    SameBut (eventAnd [.power, .heads, .partitions, .extents, .snapshots, .pair, .page .ext, .page .role]) s t
  | .releaseDynamicCapacity .. =>
    SameBut (eventAnd [.power, .heads, .extents, .directory, .snapshots, .jobs, .pair, .page .ext, .page .dir,
      .page .role]) s t
  | .dcReportMailbox .. | .getPoisonList .. | .mailboxUnsupported .. | .clearEventRecords ..
  | .setEventInterruptPolicy .. => SameBut (eventAnd [.power, .heads]) s t
  | .injectPoison .. =>
    SameBut (eventAnd [.draws, .memory, .power, .snapshots, .frames, .scree, .compression, .jobs, .steps,
      .regulation, .controllers, .outOfService, .ras, .pair, .sessions, .page .tier, .page .cmp, .page .qos,
      .page .pc, .page .ras, .page .cairn, .page .belay, .page .role]) s t
  | .clearPoison .. =>
    SameBut (eventAnd [.draws, .memory, .power, .heads, .directory, .snapshots, .frames, .scree, .compression,
      .jobs, .steps, .regulation, .controllers, .outOfService, .ras, .pair, .page .dir, .page .tier, .page .cmp,
      .page .qos, .page .pc, .page .ras, .page .belay]) s t
  | .leaseRenew .. =>
    SameBut (eventAnd [.power, .heads, .partitions, .pair, .page .part, .page .cairn, .page .role]) s t
  | .leaseLow .. => SameBut event s t
  | .leaseExpiry .. =>
    SameBut (eventAnd [.draws, .memory, .partitions, .extents, .fmLog, .directory, .snapshots, .frames, .scree,
      .hints, .compression, .rings, .jobs, .steps, .regulation, .controllers, .outOfService, .ras, .pair,
      .page .part, .page .ext, .page .dir, .page .tier, .page .cmp, .page .job, .page .qos, .page .pc, .page .ras,
      .page .belay, .page .role]) s t
  | .sanitiseComplete .. =>
    SameBut (eventAnd [.draws, .memory, .extents, .snapshots, .frames, .scree, .compression, .jobs, .steps,
      .regulation, .controllers, .outOfService, .ras, .pair, .page .ext, .page .tier, .page .cmp, .page .qos,
      .page .pc, .page .ras, .page .belay]) s t
  | .snapOpen .. | .snapClose .. | .snapDraft .. | .snapCommit .. | .snapAbandon .. =>
    SameBut (eventAnd [.power, .timebase, .heads, .extents, .snapshots, .frames, .scree, .regulation,
      .controllers, .outOfService, .pair, .page .part, .page .dir, .page .qos, .page .cairn, .page .belay,
      .page .role, .page .pitch]) s t
  | .snapCommitEffect .. | .fillComplete .. | .evictionStart .. | .evictionComplete .. | .resyncSegmentDone .. =>
    SameBut (eventAnd [.draws, .memory, .snapshots, .frames, .scree, .compression, .jobs, .steps, .regulation,
      .controllers, .outOfService, .ras, .pair, .page .tier, .page .cmp, .page .qos, .page .pc, .page .ras,
      .page .belay]) s t
  | .reserveWrite .. =>
    SameBut (eventAnd [.power, .timebase, .extents, .snapshots, .frames, .scree, .regulation, .controllers,
      .outOfService, .pair, .sessions, .page .part, .page .dir, .page .qos, .page .cairn, .page .belay,
      .page .role, .page .pitch]) s t
  | .hintEnable .. | .hintProducer .. =>
    SameBut (eventAnd [.draws, .memory, .power, .heads, .directory, .snapshots, .frames, .scree, .hints,
      .compression, .jobs, .steps, .regulation, .controllers, .outOfService, .ras, .pair, .page .dir, .page .tier,
      .page .cmp, .page .qos, .page .pc, .page .ras, .page .cairn, .page .belay, .page .role, .page .pitch]) s t
  | .prefetch .. | .hintPin .. | .unpin .. | .cold .. | .discard .. | .hintCompact .. | .witnessLapsed =>
    SameBut (eventAnd [.draws, .memory, .directory, .snapshots, .frames, .scree, .hints, .compression, .jobs,
      .steps, .regulation, .controllers, .outOfService, .ras, .pair, .page .dir, .page .tier, .page .cmp,
      .page .qos, .page .pc, .page .ras, .page .belay]) s t
  | .ioTimeout .. | .buttonWaitEnd .. | .ssdFail .. | .ssdAsyncEvent .. | .pathsDownTimeout .. =>
    SameBut (eventAnd [.memory, .frames, .scree, .compression, .jobs, .steps, .regulation, .pair, .page .tier,
      .page .qos]) s t
  | .ssdInsert .. | .slotDebounceEnd .. | .powerFault .. | .ssdAdmit .. | .attnButton .. | .pathLost ..
  | .rebuildDone => SameBut (eventAnd [.scree, .page .tier]) s t
  | .button .. =>
    SameBut (eventAnd [.draws, .memory, .power, .directory, .snapshots, .frames, .scree, .hints, .compression,
      .jobs, .steps, .regulation, .controllers, .outOfService, .ras, .pair, .sessions, .page .dir, .page .tier,
      .page .cmp, .page .qos, .page .pc, .page .ras, .page .cairn, .page .belay, .page .role, .page .pitch]) s t
  | .pathReturn .. => SameBut [.messages, .scree, .page .tier] s t
  | .compactorCommit .. =>
    SameBut (eventAnd [.memory, .frames, .scree, .compression, .controllers, .ras, .pair, .page .cmp, .page .pc,
      .page .ras]) s t
  | .doorbell .. => SameBut (eventAnd [.power, .heads, .rings, .page .job]) s t
  | .descriptorFetch .. =>
    SameBut (eventAnd [.draws, .snapshots, .frames, .scree, .rings, .jobs, .steps, .controllers, .outOfService,
      .pair, .page .job]) s t
  | .jobStart .. => SameBut [.snapshots, .jobs] s t
  | .stepGenerate .. => SameBut [.jobs, .steps] s t
  | .stepStart .. => SameBut [.steps, .page .pitch] s t
  | .stepResume .. => SameBut [.steps] s t
  | .stepOverrun .. => SameBut (eventAnd [.jobs, .steps, .page .job, .page .pitch]) s t
  | .watchdogTrip .. => SameBut (eventAnd [.jobs, .steps, .page .pitch]) s t
  | .stepCommit .. | .digestReceived .. =>
    SameBut (eventAnd [.draws, .memory, .directory, .snapshots, .frames, .scree, .compression, .jobs, .steps,
      .regulation, .controllers, .outOfService, .ras, .pair, .page .dir, .page .tier, .page .cmp, .page .job,
      .page .qos, .page .pc, .page .ras, .page .belay]) s t
  | .steal .. => SameBut [.draws, .steps, .page .pitch] s t
  | .jobComplete .. =>
    SameBut (eventAnd [.draws, .snapshots, .frames, .scree, .jobs, .steps, .controllers, .outOfService,
      .page .job]) s t
  | .ringEnable .. =>
    SameBut (eventAnd [.draws, .power, .heads, .snapshots, .frames, .scree, .rings, .jobs, .steps, .controllers,
      .outOfService, .page .job, .page .cairn, .page .role]) s t
  | .fill .. | .copy .. | .gather .. | .scatter .. | .compare .. | .search .. | .hashBuild .. | .hashProbe ..
  | .intersect .. | .union .. | .difference .. | .count .. | .dedup .. | .sort .. | .neighborGather ..
  | .bitmap .. | .reduce .. | .segmentReduce .. | .windowOpen .. | .accumulate .. | .windowCommit .. | .map ..
  | .queueHoldRelease .. | .mirroredWrite .. =>
    SameBut (eventAnd [.draws, .memory, .directory, .snapshots, .frames, .scree, .compression, .jobs, .steps,
      .regulation, .controllers, .outOfService, .ras, .pair, .page .dir, .page .tier, .page .cmp, .page .qos,
      .page .pc, .page .ras, .page .belay]) s t
  | .compact .. => SameBut (eventAnd [.draws, .compression, .jobs]) s t
  | .expand .. =>
    SameBut (eventAnd [.draws, .memory, .frames, .scree, .compression, .jobs, .controllers, .ras, .pair,
      .page .cmp, .page .pc, .page .ras]) s t
  | .verify .. =>
    SameBut (eventAnd [.memory, .scree, .compression, .jobs, .controllers, .ras, .pair, .page .cmp, .page .pc,
      .page .ras]) s t
  | .guarWrite .. | .reclaimStart .. =>
    SameBut (eventAnd [.power, .compression, .regulation, .pair, .sessions, .page .qos, .page .cairn,
      .page .role]) s t
  | .reclaimDone .. => SameBut (eventAnd [.page .qos]) s t
  | .resume .. | .retireRow .. | .fail .. | .trainRun .. | .quiesce .. | .retireBlock .. | .retireRowCmd ..
  | .retireBank .. | .retirePc .. | .lock .. =>
    SameBut (eventAnd [.draws, .memory, .power, .snapshots, .frames, .scree, .compression, .jobs, .steps,
      .regulation, .controllers, .outOfService, .ras, .pair, .sessions, .page .cmp, .page .qos, .page .pc,
      .page .ras, .page .cairn, .page .belay, .page .role]) s t
  | .trainDone .. => SameBut (eventAnd [.controllers, .page .pc]) s t
  | .storeRegionTestDone .. =>
    SameBut (eventAnd [.draws, .memory, .snapshots, .frames, .scree, .compression, .jobs, .steps, .regulation,
      .controllers, .outOfService, .ras, .pair, .page .cmp, .page .qos, .page .pc, .page .store, .page .ras,
      .page .belay, .page .pitch]) s t
  | .sramUe .. =>
    SameBut (eventAnd [.snapshots, .frames, .scree, .hints, .compression, .rings, .jobs, .steps, .regulation,
      .controllers, .outOfService, .pair, .page .tier, .page .job, .page .qos, .page .ras, .page .cairn,
      .page .belay]) s t
  | .retired =>
    SameBut (eventAnd [.draws, .memory, .flash, .snapshots, .frames, .scree, .compression, .jobs, .steps,
      .regulation, .controllers, .outOfService, .ras, .pair, .page .cmp, .page .qos, .page .pc, .page .ras,
      .page .belay]) s t
  | .pairing .. => SameBut (eventAnd [.flash, .timebase, .extents, .pair, .page .belay, .page .pitch]) s t
  | .heartbeatReceived .. => SameBut [.pair, .page .belay] s t
  | .leave .. | .swap .. | .approve .. | .belayRetrain .. | .renew .. =>
    SameBut (eventPages [.draws, .memory, .flash, .power, .timebase, .decoders, .partitions, .extents, .fmLog,
      .directory, .snapshots, .frames, .scree, .hints, .compression, .rings, .jobs, .steps, .regulation,
      .controllers, .outOfService, .ras, .pair, .sessions]) s t
  | .groupDown .. => SameBut (eventAnd [.page .belay]) s t
  | .witnessWaitExpiry | .forwardedRequest .. =>
    SameBut (eventAnd [.draws, .memory, .extents, .directory, .snapshots, .frames, .scree, .hints, .compression,
      .jobs, .steps, .regulation, .controllers, .outOfService, .ras, .pair, .page .ext, .page .dir, .page .tier,
      .page .cmp, .page .qos, .page .pc, .page .ras, .page .belay, .page .role]) s t
  | .journalEntry .. => SameBut [.messages, .power, .pair] s t
  | .digestTimeout .. => SameBut (eventAnd [.jobs, .steps, .page .job, .page .belay]) s t
  | .resyncDone => SameBut (eventAnd [.pair, .page .belay]) s t
  | .dieLost .. =>
    SameBut (eventAnd [.draws, .memory, .snapshots, .frames, .scree, .compression, .jobs, .steps, .regulation,
      .controllers, .outOfService, .ras, .pair, .page .cmp, .page .qos, .page .pc, .page .ras, .page .belay,
      .page .pitch]) s t
  | .portDieLost .. =>
    SameBut (eventAnd [.draws, .memory, .flash, .heads, .extents, .directory, .snapshots, .frames, .scree, .hints,
      .compression, .rings, .jobs, .steps, .regulation, .controllers, .outOfService, .ras, .pair, .sessions,
      .page .port, .page .ext, .page .dir, .page .tier, .page .cmp, .page .job, .page .qos, .page .pc, .page .ras,
      .page .cairn, .page .belay, .page .role]) s t
  | .getVersion .. | .getCapabilities .. | .negotiateAlgorithms .. | .getDigests .. | .getCertificate ..
  | .challenge .. | .getMeasurements .. | .heartbeat .. | .keyUpdate .. | .spdmUnsupported .. =>
    SameBut [.messages, .power, .sessions] s t
  | .keyExchange .. => SameBut (eventAnd [.power, .sessions, .page .role]) s t
  | .finish .. => SameBut (eventAnd [.flash, .power, .sessions, .page .role]) s t
  | .endSession .. => SameBut (eventAnd [.flash, .power, .sessions]) s t
  | .sessionTimeout .. => SameBut (eventAnd [.flash, .sessions]) s t
  | .anchorCommit .. | .anchorClear .. | .fwAccept .. | .fwRevoke .. =>
    SameBut (eventAnd [.draws, .flash, .power, .snapshots, .frames, .scree, .hints, .rings, .jobs, .steps,
      .controllers, .outOfService, .pair, .sessions, .page .tier, .page .job, .page .cairn, .page .role]) s t
  | .ideFail .. =>
    SameBut (eventAnd [.heads, .snapshots, .frames, .scree, .hints, .rings, .jobs, .steps, .controllers,
      .outOfService, .page .tier, .page .job]) s t
  | .blockResetDone .. => SameBut [.headers] s t
  | .evtStatusClear .. => SameBut (eventAnd [.power, .heads, .sessions, .page .cairn, .page .role]) s t
  | .mfpFuncWrite .. => SameBut (eventAnd [.power, .sessions, .page .cairn, .page .pin, .page .role]) s t
  | .mfpParkEnd .. => SameBut (eventAnd [.draws, .pins, .page .pin]) s t
  | .timebaseInReturn => SameBut [.timebase] s t
  | .rungEntered =>
    SameBut (eventAnd [.memory, .power, .frames, .compression, .pair, .page .pc, .page .store, .page .pwr]) s t
  | .railRemoved .. => SameBut [.memory, .boot, .heads, .frames, .compression, .page .pin] s t
  | .railRestored .. => SameBut [.page .pin] s t
  | .mfpInputChange .. => SameBut [.pins] s t
  | .pwrgdAsserted .. => SameBut (eventAnd [.page .tier]) s t
  | .deallocateComplete .. =>
    SameBut (eventAnd [.memory, .extents, .frames, .scree, .compression, .jobs, .steps, .regulation, .pair,
      .page .ext, .page .tier, .page .qos]) s t
  | .rebuildWriteComplete .. | .stripeLockExpiry .. =>
    SameBut [.messages, .memory, .frames, .scree, .compression, .pair] s t
  | .pcRetrainStart .. => SameBut [.headers, .controllers, .page .pc] s t
  | .logicSensorRead .. =>
    SameBut (eventAnd [.draws, .memory, .boot, .timebase, .extents, .directory, .snapshots, .frames, .scree,
      .hints, .compression, .jobs, .steps, .regulation, .controllers, .outOfService, .ras, .pair, .page .ext,
      .page .dir, .page .tier, .page .cmp, .page .qos, .page .pc, .page .ras, .page .belay, .page .pin,
      .page .role, .page .pitch]) s t
  | .groupUp .. => SameBut [.page .belay] s t
  | .snapCommandDone .. => SameBut [.snapshots, .page .dir] s t
  | .hdmDecoderCommit .. => SameBut (eventAnd [.power, .heads, .decoders]) s t

/-! ### Commands that are carried out -/

/-- A command completes, and its next state has a property. -/
def Gives (c : Instr) (s : State) (Q : State → Prop) : Prop := ∃ t, exec c s = .next t ∧ Q t

/-- A fabric-manager session whose transport is up and whose role suffices (14 R307, R309). -/
def Admits (s : State) (ses : Session) (need : Nat) : Prop := sesUp s ses = true ∧ need ≤ roleOf s ses

/-- A command completes with one answer to the fabric manager. -/
def Answers (c : Instr) (s : State) (ses : Session) (code : RetCode) (out : List Nat) : Prop :=
  Gives c s fun t => t.out = .fmRsp ses code out :: s.out

/-- A view reaches the package: its session's transport is up, or its head's window is open (14 R312; 02 R50). -/
def Reaches (s : State) (v : View) : Prop :=
  match v with
  | .fm ses => sesUp s ses = true
  | .host p h => ioOpen s h p = true

/-- A write of a page register goes through: the view sees the page, its unit is present, the view has the right,
the page is ready, and LOCK keeps nothing of the written word (14 R309; 15 R324, R328, R330). -/
def Writes (s : State) (v : View) (b : Blk) (i off word : Nat) : Prop :=
  pageSeen s v b i = true ∧ pageLost s b i = false ∧ writeDenied s v b i off word = false ∧
    pageReady s b i = true ∧ lockCuts s v b i off word = false

end Sys2Proof.Machine
end

