-- ==== Sys2Proof/Certificates/Slice0/Obligations.lean ====
section
/-! DEFINITION. The statements for the provers, one per rule or group of rules of the specification. Each
docstring names the rules it rests on; a clause that is the model's own choice names its log entry. -/

open Sys2Proof Sys2Proof.Machine

/-- Every step keeps the memories canonical and every register field within its width. For every state whose
three byte memories are in canonical form and whose register values fit their widths, a step that answers a next
state answers one with the same properties. (15 Access codes; 10 R220; 05 R117; 02 R43.) -/
def Obligations.StepsKeepSoundState : Prop :=
  ∀ s t : State, step s = .next t → s.memoriesWf = true → s.fieldsFit = true → t.memoriesWf = true ∧ t.fieldsFit = true

/-- The state after reset has canonical memories and fitting registers, and queues no command. State.reset meets
the invariant of StepsKeepSoundState; no command waits, no message was sent, every field reads its reset value.
Where the spec leaves a point open this rests on the reading of logs 5, 6, 7. (15 Access codes; 13 R299.) -/
def Obligations.ResetIsSound : Prop :=
  State.reset.memoriesWf = true ∧ State.reset.fieldsFit = true ∧ State.reset.pending = [] ∧ State.reset.out = [] ∧
    (∀ (f : Fld) (i j : Nat), fget State.reset f i j = f.desc.rst) ∧ State.reset.boot.phase = .auxOnly ∧
    ∀ a, Memory.get State.reset.mem a = 0

/-- Every command leaves every kind of state that its rules do not name. For every command c: where exec answers
a next state, that state differs from the first at most in the kinds of state listed for c in Leaves: every
other register page, memory byte, list, link, session, pin and message is as before. (15 R324; 15 R325; 11
R258.) -/
def Obligations.CommandsLeaveTheRest : Prop :=
  ∀ (c : Instr) (s t : State), exec c s = .next t → Leaves c s t

/-- Every command completes, keeps the queue, unsends nothing and keeps sound state. For every command and state
exec answers a next state (no command faults or is refused) that keeps the waiting queue, all messages sent
before, the order of free-value draws, canonical memories and fitting registers. Where the spec leaves a point
open this rests on the reading of log 2. (15 R330; 00 R8.) -/
def Obligations.CommandsCompleteAndKeep : Prop :=
  ∀ (c : Instr) (s : State), ∃ t, exec c s = .next t ∧ Keeps s t

/-- A step takes the command at the front of the queue; on an empty queue one timebase cycle passes. With c at
the front, a step is exec of c on the state with the rest of the queue. With nothing waiting, a step is one
cycle: only the phase, the queue-occupancy and PC tallies, the store banks with STORE.CONFLICTS, and draws of
free values change (the model's choice, logs 1 and 91). (01 R27; 09 R214.) -/
def Obligations.StepRunsTheFrontCommand : Prop :=
  (∀ (c : Instr) (rest : List Instr) (s : State),
    step { s with pending := c :: rest } = exec c { s with pending := rest }) ∧
  (∀ s : State, s.pending = [] → ∃ t, step s = .next t ∧ t.pending = [] ∧
    t.tb.phase = (if s.tb.phase + 1 < pitchLength s then s.tb.phase + 1 else s.tb.phase) ∧
    SameBut [.draws, .timebase, .regulation, .controllers, .page .store] s t)

/-- Each discovery and query command of an admitted session answers what the tables give. In a session with a
role, Identify, Get LD Info, Get LD Allocations, Get Multi-Headed Info, Get Head Info, Get DCD Info, Get Host DC
Region Configuration, Get DC Region Extent Lists, Get Partition State and the QoS queries each send one Success
answer with the values read. Where the spec leaves a point open this rests on the reading of log 15. (03 R58; 03
R59; 03 R78; 09 R217.) -/
def Obligations.FabricManagerReadsAnswer : Prop :=
  ∀ (s : State) (ses : Session), Admits s ses 1 →
    (∃ d, Answers (.identify ses) s ses .success (Config.vendorId.toNat :: d)) ∧
    Answers (.getLdInfo ses) s ses .success [exportBytes s, 16] ∧
    (∀ start count : Nat, start < 16 →
      Answers (.getLdAllocations ses start count) s ses .success
        ((((List.range 16).drop start).take count).flatMap fun _ => [0, 0]) ∧
      Answers (.getHeadInfo ses start count) s ses .success ((((List.range 16).drop start).take count).flatMap fun h =>
        [fget s .portLinkStatusRate h, fget s .portLinkStatusWidth h, fget s .portLinkStatusUp h]) ∧
      Answers (.getQosAllocatedBw ses start count) s ses .success
        ((((List.range 16).drop start).take count).map fun p => fractionOfGbs (fget s .qosGuarGbS p)) ∧
      Answers (.getQosBwLimit ses start count) s ses .success
        ((((List.range 16).drop start).take count).map fun _ => 255)) ∧
    Answers (.getMultiHeadedInfo ses) s ses .success
      (16 :: 16 :: (List.range 16).map fun p => fget s .partStateHeads p) ∧
    Answers (.getDcdInfo ses) s ses .success [16, 1, exportBytes s, 0x10000000] ∧
    (∀ p : Part, Answers (.getHostDcRegionConfiguration ses p) s ses .success [1, 0, exportBytes s, 0x10000000] ∧
      (∀ start count : Nat, ∃ l, Answers (.getDcRegionExtentLists ses p start count) s ses .success
        ((extsOf s p).length :: fget s .extStateGen p :: l) ∧
        l.length = 4 * (((extsOf s p).drop start).take count).length) ∧
      (∃ d, Answers (.getPartitionState ses [BitVec.ofNat 8 p, 0]) s ses .success d ∧ d.length = 7)) ∧
    Answers (.getQosStatus ses) s ses .success [s.qos.lastOver] ∧
    Answers (.getQosControl ses) s ses .success [s.qos.control.toNat]

/-- Commands whose subject is fixed, page reads and QoS control answer as their rules say. Set LD Allocations
and unlisted opcodes answer Unsupported in any session. In a session with a role, Set DC Region Configuration
and Set QoS BW Limit succeed exactly with the fixed values, Set QoS Control stores its values, and Read Page
Register answers as many registers as asked, EVT_STATUS among them. Where the spec leaves a point open this
rests on the reading of log 15. (03 R58; 03 R59; 09 R217; 15 R333.) -/
def Obligations.FixedCommandsAnswer : Prop :=
  ∀ (s : State) (ses : Session),
    (sesUp s ses = true → Answers (.setLdAllocations ses) s ses .unsupported [] ∧
      ∀ opcode : Nat, Answers (.fmCommandUnsupported ses opcode) s ses .unsupported []) ∧
    (Admits s ses 1 →
      (∀ (p : Part) (region blockSize base length : Nat),
        (region = 0 ∧ blockSize = 0x10000000 ∧ base = 0 ∧ length = exportBytes s →
          Answers (.setDcRegionConfiguration ses p region blockSize base length) s ses .success []) ∧
        (¬(region = 0 ∧ blockSize = 0x10000000 ∧ base = 0 ∧ length = exportBytes s) →
          Answers (.setDcRegionConfiguration ses p region blockSize base length) s ses .invalidInput [])) ∧
      (∀ (start : Nat) (limits : List Nat),
        (start + limits.length ≤ 16 ∧ (∀ x ∈ limits, x = 255) →
          Answers (.setQosBwLimit ses start limits) s ses .success []) ∧
        (¬(start + limits.length ≤ 16 ∧ ∀ x ∈ limits, x = 255) →
          Answers (.setQosBwLimit ses start limits) s ses .invalidInput [])) ∧
      (∀ values : W64, Gives (.setQosControl ses values) s fun t =>
        t.qos.control = values ∧ t.out = .fmRsp ses .success [] :: s.out) ∧
      (∀ (blk inst off count : Nat) (b : Blk), cmdPage blk inst off = some b → 1 ≤ count → count ≤ 64 →
        off + 8 * count ≤ 0x1000 →
        ∃ d, Answers (.readPageRegister ses blk inst off count) s ses .success d ∧ d.length = count ∧
          (off = 0x018 → pageLost s b inst = false → d.head? = some (hget s b inst).evtStatus.toNat)))

/-- A fabric-manager command without the role it needs changes nothing but the denial. A session whose transport
is up and whose role is too low gets Invalid Security State: DENIED.WRITES counts, WRITE_DENIED is set, and
extents, partitions, QoS settings, memory, flash and pair stay. Shown for an operator command without a role and
for the installer commands. Where the spec leaves a point open this rests on the reading of logs 16, 23. (14
R309; 03 R58.) -/
def Obligations.MessagesWithoutRoleAreDenied : Prop :=
  ∀ (s : State) (ses : Session), sesUp s ses = true →
    let denied := fun c : Instr => Gives c s fun t => t.out.head? = some (.fmRsp ses .invalidSecurityState []) ∧
      fget t .roleDeniedWrites = min (fget s .roleDeniedWrites + 1) (2 ^ 32 - 1) ∧ Signalled t .roleWriteDenied ∧
      t.exts = s.exts ∧ t.parts = s.parts ∧ t.mem = s.mem ∧ t.flash = s.flash ∧ t.belay = s.belay ∧ t.qos = s.qos
    (roleOf s ses < 1 → denied (.identify ses) ∧ denied (.getDcdInfo ses) ∧
      (∀ p sh tag exts, denied (.initiateDynamicCapacityAdd ses p sh tag exts)) ∧
      (∀ payload, denied (.bindPartition ses payload) ∧ denied (.reclaimPartition ses payload)) ∧
      ∀ start fr, denied (.setQosAllocatedBw ses start fr)) ∧
    (roleOf s ses < 2 → (∀ payload, denied (.forceExtentRelease ses payload)) ∧
      ∀ p dpa, denied (.injectPoison ses p dpa))

/-- An add or join that its checks admit offers the extents and tells the host. Alone (no twin), Initiate
Dynamic Capacity Add, with new extents or as a join, and Initiate Extent Add answer Success, append one offer to
the partition, set ADD_OFFERED, and new ranges become extents that the partition holds in state OFFERED. The
checks are those of addCode and joinCode. Where the spec leaves a point open this rests on the reading of logs
16, 19. (03 R61; 03 R65; 03 R79; 03 R80.) -/
def Obligations.ExtentAddsAreOffered : Prop :=
  ∀ (s : State) (ses : Session) (p : Part), Admits s ses 1 → twinUp s = false →
    (∀ exts tag, addCode s p exts (attrBits { owner := p.val }) tag = .success →
      Gives (.initiateDynamicCapacityAdd ses p false tag exts) s fun t =>
        t.out.head? = some (.fmRsp ses .success []) ∧
        (partOf t p).offers = (partOf s p).offers ++ [⟨exts⟩] ∧ Signalled t .partAddOffered p ∧
        ∀ x ∈ exts, ∃ e ∈ t.exts, e.base = x.1 ∧ e.len = x.2 ∧ holderSt e p = some .offered) ∧
    (∀ exts tag, joinCode s p tag exts = .success →
      Gives (.initiateDynamicCapacityAdd ses p true tag exts) s fun t =>
        t.out.head? = some (.fmRsp ses .success []) ∧
        (partOf t p).offers = (partOf s p).offers ++ [⟨exts⟩] ∧ Signalled t .partAddOffered p) ∧
    (∀ payload, payPart payload 32 3 = some p →
      addCode s p [(leAt payload 4 4, leAt payload 8 4)] (leAt payload 12 4) (leAt payload 16 16) = .success →
      Gives (.initiateExtentAdd ses payload) s fun t => t.out.head? = some (.fmRsp ses .success []) ∧
        (partOf t p).offers = (partOf s p).offers ++ [⟨[(leAt payload 4 4, leAt payload 8 4)]⟩] ∧
        Signalled t .partAddOffered p)

/-- A release asked for or forced that its checks admit takes effect and the host is told. Alone, Initiate
Dynamic Capacity Release of held pieces sends the host a release record for each, all but the last with the More
flag, and sets RELEASE_REQUESTED; forced, by that command or Force Extent Release in an installer session, it
sends the forced records and sets FORCED_RELEASE; both answer Success. A refusal at a limit answers Resources
Exhausted and sets LIMIT_HIT. One extent to a record is PRESUMED (log 76). Where the spec leaves a point open
this rests on the reading of logs 16, 18. (03 R60; 03 R66; 03 R67.) -/
def Obligations.ReleasesTellTheHost : Prop :=
  ∀ (s : State) (ses : Session) (p : Part), twinUp s = false →
    let told := fun (t : State) (forced : Bool) (l : List GranRange) =>
      ∀ i x, l[i]? = some x → .dcEvent p false forced (decide (i + 1 < l.length)) x ∈ t.out
    (∀ exts ps, Admits s ses 1 → exts ≠ [] →
      releaseCode s p [.offered, .active, .releasePending] false exts = (.success, ps) →
      (ps.filter fun x => !(offeredOf s p ps).contains x) ≠ [] →
      Gives (.initiateDynamicCapacityRelease ses p false exts) s fun t =>
        t.out.head? = some (.fmRsp ses .success []) ∧ Signalled t .partReleaseRequested p ∧
        told t false (ps.filter fun x => !(offeredOf s p ps).contains x)) ∧
    (∀ exts ps, Admits s ses 2 → exts ≠ [] →
      releaseCode s p [.offered, .active, .releasePending, .reclaimable] true exts = (.success, ps) →
      Gives (.initiateDynamicCapacityRelease ses p true exts) s fun t =>
        t.out.head? = some (.fmRsp ses .success []) ∧ Signalled t .partForcedRelease p ∧
        told t true ps) ∧
    (∀ payload ps, Admits s ses 2 → payPart payload 12 3 = some p →
      releaseCode s p [.offered, .active, .releasePending, .reclaimable] true
        [(leAt payload 4 4, leAt payload 8 4)] = (.success, ps) →
      Gives (.forceExtentRelease ses payload) s fun t =>
        t.out.head? = some (.fmRsp ses .success []) ∧ Signalled t .partForcedRelease p ∧
        told t true ps) ∧
    (∀ exts, Admits s ses 1 → exts ≠ [] →
      (releaseCode s p [.offered, .active, .releasePending] false exts).1 = .resourcesExhausted →
      Gives (.initiateDynamicCapacityRelease ses p false exts) s fun t =>
        t.out.head? = some (.fmRsp ses .resourcesExhausted []) ∧ Signalled t .extLimitHit p ∧
        Signalled t .extLimitHit 16 ∧ t.exts = s.exts)

/-- Binding, attributes, renewal, reclaim and revive commands have their effects. Alone, in an admitted session:
Bind Partition sets the binding due at the boundary; Set Extent Attributes queues the masked change; Renew Lease
starts the lease at full length and answers the whole remaining time; Reclaim Partition makes an orphaned
partition RECLAIMED; Revive Partition makes it ACTIVE with a full lease and sets REVIVED. The binding due takes
effect, the host's own RENEW extends the lease, the lease warns below a quarter and an over lease orphans the
partition. Where the spec leaves a point open this rests on the reading of logs 20, 21. (03 R57; 03 R79; 03 R71;
03 R72; 03 R73; 03 R70.) -/
def Obligations.PartitionCommandsActAlone : Prop :=
  ∀ (s : State) (ses : Session) (p : Part), Admits s ses 1 → twinUp s = false →
    (∀ payload, payPart payload 4 1 = some p →
      ¬(unbinds s p (leAt payload 2 2) = true ∧ holdsExtents s p = true) →
      Gives (.bindPartition ses payload) s fun t => t.out = .fmRsp ses .success [] :: s.out ∧
        (partOf t p).bindDue = some (BitVec.ofNat 16 (leAt payload 2 2))) ∧
    (∀ payload, payload.length = 12 → maskOk (leAt payload 4 4) = true →
      maskedOk (leAt payload 4 4) (leAt payload 8 4) = true → (∃ e ∈ s.exts, e.base = leAt payload 0 4) →
      Gives (.setExtentAttributes ses payload) s fun t => t.out = .fmRsp ses .success [] :: s.out ∧
        t.attrDue = s.attrDue ++
          [(leAt payload 0 4, BitVec.ofNat 32 (leAt payload 4 4), BitVec.ofNat 32 (leAt payload 8 4))]) ∧
    (∀ payload, payPart payload 2 1 = some p →
      (pState s p = pActive → leaseOver s p = false → Gives (.renewLease ses payload) s fun t =>
        (partOf t p).leaseExpiry = now s + fget s .partCfgLeaseMs p * 100000 ∧
        t.out = .fmRsp ses .success [fget s .partCfgLeaseMs p] :: s.out) ∧
      (pState s p = pOrphaned → Gives (.reclaimPartition ses payload) s fun t =>
        pState t p = pReclaimed ∧ ∃ n, t.out.head? = some (.fmRsp ses .success [n])) ∧
      (pState s p = pOrphaned ∨ pState s p = pReclaimed → Gives (.revivePartition ses payload) s fun t =>
        pState t p = pActive ∧ (partOf t p).leaseExpiry = now s + fget s .partCfgLeaseMs p * 100000 ∧
        Signalled t .partRevived p ∧ t.out.head? = some (.fmRsp ses .success []))) ∧
    (∀ heads : BitVec 16, (partOf s p).bindDue = some heads → heads ≠ 0 → pState s p ≠ pDisabled →
      Gives (.bindTakesEffect p) s fun t => fget t .partStateHeads p = heads.toNat ∧ pState t p = pState s p) ∧
    (∀ h : Head, ioOpen s h p = true → Writes s (.host p h) .part p 0x048 (wordWith s .part p 0x048 [(.partLeaseRenew, 0, 1)]) →
      pState s p = pActive → leaseOver s p = false → Gives (.leaseRenew h p) s fun t =>
        (partOf t p).leaseExpiry = now s + fget s .partCfgLeaseMs p * 100000) ∧
    (leaseIsLow s p = true → Gives (.leaseLow p) s fun t => Signalled t .partLeaseLow p) ∧
    (leaseOver s p = true → expiryDue s p = false → Gives (.leaseExpiry p) s fun t => pState t p = pOrphaned)

/-- With a twin the journalled commands become journal entries and change nothing else yet. While the twin
answers, adds, releases, forced releases, reclaim, revive and attribute changes that their checks admit append
one entry of the journal, send it to the twin, answer Success, and leave extents and partitions until the entry
is applied. Where the spec leaves a point open this rests on the reading of log 62. (12 R274; 03 R61.) -/
def Obligations.PairChangesWaitInJournal : Prop :=
  ∀ (s : State) (ses : Session) (p : Part), Admits s ses 1 → twinUp s = true →
    let waits := fun (c : Instr) (b : JBody) => Gives c s fun t => t.exts = s.exts ∧ t.parts = s.parts ∧
      t.belay.journal = s.belay.journal ++ [⟨s.belay.nextNum, b, false⟩] ∧
      .belay 0 (.journal (.entry s.belay.nextNum b)) ∈ t.out ∧ ∃ d, t.out.head? = some (.fmRsp ses .success d)
    (∀ exts tag, addCode (foresee (sessionMsg s ses)) p exts (attrBits { owner := p.val }) tag = .success →
      waits (.initiateDynamicCapacityAdd ses p false tag exts)
        (.extAdd p exts (BitVec.ofNat 32 (attrBits { owner := p.val })) tag false)) ∧
    (∀ exts ps, exts ≠ [] →
      releaseCode (foresee (sessionMsg s ses)) p [.offered, .active, .releasePending] false exts = (.success, ps) →
      waits (.initiateDynamicCapacityRelease ses p false exts) (.extRequest p ps)) ∧
    (∀ payload, payload.length = 12 → maskOk (leAt payload 4 4) = true →
      maskedOk (leAt payload 4 4) (leAt payload 8 4) = true →
      (∃ e ∈ (foresee (sessionMsg s ses)).exts, e.base = leAt payload 0 4) →
      waits (.setExtentAttributes ses payload)
        (.setAttr (leAt payload 0 4) (BitVec.ofNat 32 (leAt payload 4 4)) (BitVec.ofNat 32 (leAt payload 8 4)))) ∧
    (∀ payload, payPart payload 2 1 = some p →
      (pState (foresee (sessionMsg s ses)) p = pOrphaned → waits (.reclaimPartition ses payload) (.reclaim p)) ∧
      (pState (foresee (sessionMsg s ses)) p = pOrphaned ∨
          pState (foresee (sessionMsg s ses)) p = pReclaimed →
        waits (.revivePartition ses payload) (.revive p)))

/-- Every SPDM message that R310 lists is answered, and one it does not list gets the unsupported error. Over a
transport that is up: the seven messages outside a session answer their bytes; HEARTBEAT and KEY_UPDATE answer
in a held session; any other code gets ERROR unsupported. A message of a held session sets its deadline 10 s
ahead. Where the spec leaves a point open this rests on the reading of log 71. (14 R310; 14 R312.) -/
def Obligations.SpdmMessagesAnswer : Prop :=
  ∀ (s : State) (ses : Session), sesUp s ses = true →
    let who := if (sesOf s ses).isSome then some ses else none
    let later := fun t : State => ∀ st, sesOf s ses = some st →
      sesOf t ses = some { st with deadline := now s + 10 * 1000 * 100000 }
    let tells := fun (c : Instr) (n : Nat) => Gives c s fun t =>
      t.out = .spdm who .ok (spdmPayload n) :: s.out ∧ later t
    tells (.getVersion ses) 0 ∧ tells (.getCapabilities ses) 1 ∧ tells (.negotiateAlgorithms ses) 2 ∧
    tells (.getDigests ses) 3 ∧ tells (.getCertificate ses) 4 ∧ tells (.challenge ses) 5 ∧
    tells (.getMeasurements ses) 6 ∧
    ((sesOf s ses).isSome = true → tells (.heartbeat ses) 9 ∧ tells (.keyUpdate ses) 10) ∧
    (∀ code : Nat, Gives (.spdmUnsupported ses code) s fun t =>
      t.out = .spdm who .error_unsupported [] :: s.out ∧ later t)

/-- KEY_EXCHANGE opens a session, FINISH fixes its role, END_SESSION and the timeout end it. Within the limits
of R312 KEY_EXCHANGE takes the lowest free index with a 10 s deadline; FINISH gives the role of the chain and
SESSION_OPENED; END_SESSION answers and removes the session; a session whose deadline has passed is removed.
Beyond the limits KEY_EXCHANGE answers Busy and counts the refusal. Where the spec leaves a point open this
rests on the reading of log 38. (14 R311; 14 R312.) -/
def Obligations.SessionsOpenAndEnd : Prop :=
  ∀ s : State,
    (∀ (tr : Transport) (root : ChainRoot), mctpUp s tr = true →
      (∀ k : Session, sessionsFull s tr root = false → freeSession s = some k →
        Gives (.keyExchange tr root) s fun t => t.out = .spdm (some k) .ok (Config.spdmBytes 7) :: s.out ∧
          sesOf t k = some { transport := tr, root := root, deadline := now s + 10 * 1000 * 100000 }) ∧
      (sessionsFull s tr root = true → Gives (.keyExchange tr root) s fun t =>
        t.out.head? = some (.spdm none .error_busy []) ∧ t.sessions = s.sessions ∧
        Signalled t .roleSessionRefused ∧
        fget t .roleDeniedSessionsRefused = min (fget s .roleDeniedSessionsRefused + 1) (2 ^ 32 - 1))) ∧
    ∀ ses : Session,
      (∀ st role slot, sesOf s ses = some st → st.role = none → mctpUp s st.transport = true →
        rootRole s st.transport st.root = some (role, slot) →
        Gives (.finish ses) s fun t => sesOf t ses = some { st with role := some role, anchor := slot, deadline := now s + 10 * 1000 * 100000 } ∧
          Signalled t .roleSessionOpened ∧ t.out.head? = some (.spdm (some ses) .ok (Config.spdmBytes 8))) ∧
      (sesUp s ses = true → (sesOf s ses).isSome = true → Gives (.endSession ses) s fun t =>
        sesOf t ses = none ∧ .spdm (some ses) .ok (Config.spdmBytes 11) ∈ t.out) ∧
      (sessionOver s ses = true → Gives (.sessionTimeout ses) s fun t => sesOf t ses = none)

/-- Anchor commits and clears and firmware staging, acceptance and revocation change the boot flash. A write
that goes through: ANCHOR_CTRL.COMMIT stores the staged hash in an operator slot, or keeps it for the session
end with INSTALLER and slot 7; CLEAR empties a loaded operator slot; FW_CTRL accepts a staged image and revokes
an accepted one; Stage Image ends with a whole image staged or rejected. Register fields fit their widths. Where
the spec leaves a point open this rests on the reading of log 39. (14 R313; 14 R321.) -/
def Obligations.AnchorsAndImagesChange : Prop :=
  ∀ (s : State) (ses : Session), sesUp s ses = true → s.fieldsFit = true →
    (Writes s (.fm ses) .role 0 0x048 (wordWith s .role 0 0x048 [(.roleAnchorCtrlCommit, 0, 1)]) →
      (fget s .roleAnchorCtrlInstaller = 0 → Gives (.anchorCommit ses) s fun t =>
        aget t.flash.anchors (fget s .roleAnchorCtrlSlot) 0 = stagedHash s ∧ Signalled t .roleAnchorChanged) ∧
      (fget s .roleAnchorCtrlInstaller = 1 → fget s .roleAnchorCtrlSlot = 7 →
        Gives (.anchorCommit ses) s fun t => ∀ st, sesOf s ses = some st →
          ∃ u, sesOf t ses = some u ∧ u.newInstaller = some (stagedHash s))) ∧
    (Writes s (.fm ses) .role 0 0x048 (wordWith s .role 0 0x048 [(.roleAnchorCtrlClear, 0, 1)]) →
      fget s .roleAnchorCtrlInstaller = 0 → ahas s.flash.anchors (fget s .roleAnchorCtrlSlot) = true →
      Gives (.anchorClear ses) s fun t => ahas t.flash.anchors (fget s .roleAnchorCtrlSlot) = false ∧
        Signalled t .roleAnchorChanged) ∧
    (Writes s (.fm ses) .role 0 0x098 (wordWith s .role 0 0x098 [(.roleFwCtrlOp, 0, 1)]) →
       (imgOf s.flash (inactiveSlot s)).stage = .staged →
      Gives (.fwAccept ses) s fun t => (imgOf t.flash (inactiveSlot s)).stage = .accepted ∧
        Signalled t .roleFwAccepted) ∧
    (Writes s (.fm ses) .role 0 0x098 (wordWith s .role 0 0x098 [(.roleFwCtrlOp, 0, 2)]) →
       (imgOf s.flash (inactiveSlot s)).stage = .accepted →
      Gives (.fwRevoke ses) s fun t => (imgOf t.flash (inactiveSlot s)).stage = .staged) ∧
    (1 ≤ roleOf s ses → ∀ (off : Nat) (chunk : List Byte),
      (Gives (.stageImage ses off chunk none) s fun t =>
        imgOf t.flash (inactiveSlot s) = {} ∧ t.out.head? = some (.fmRsp ses .success [])) ∧
      ∀ i : ImageInfo,
        (i.signatureOk = true ∧ s.flash.minSvn ≤ i.svn → Gives (.stageImage ses off chunk (some i)) s fun t =>
          (imgOf t.flash (inactiveSlot s)).stage = .staged ∧ (imgOf t.flash (inactiveSlot s)).svn = i.svn ∧
          Signalled t .roleFwStaged) ∧
        (¬(i.signatureOk = true ∧ s.flash.minSvn ≤ i.svn) → Gives (.stageImage ses off chunk (some i)) s fun t =>
          (imgOf t.flash (inactiveSlot s)).stage = .failed ∧ Signalled t .roleFwRejected))

/-- IDE_KM makes a head Secure; an integrity failure ends it and sets IDE_FAIL. Over a link that is up while
requests are served, IDE_KM sets the head's streams Secure and answers; an integrity failure of Secure streams
leaves Secure, marks the head's CXL RAS uncorrectable status and sets ROLE.IDE_FAIL. (14 R315; 14 R316; 02 Table
2.9.) -/
def Obligations.IdeFollowsKeysAndFailures : Prop :=
  ∀ (s : State) (h : Head),
    (linkUp s h = true → running s = true → Gives (.ideKm h) s fun t =>
      (headOf t h).secure = true ∧ .ideKmAck h ∈ t.out) ∧
    ((headOf s h).secure = true → Gives (.ideFail h) s fun t =>
      (headOf t h).secure = false ∧ (headOf t h).cxlRasUnc = true ∧ Signalled t .roleIdeFail)

/-- Block reset, LOCK, EVT_STATUS clears, forced events and page writes change the page header as stated. For a
write that goes through, in either view where the command has one: a block reset clears EVT_STATUS, EVT_ENABLE
and EVT_CTRL and sets BLOCK_RESET until it is done; LOCK sets; an EVT_STATUS clear leaves the other bits, and
none of its own but what its audit record sets on CAIRN; a forced event sets its bit; Write Page Register and a
BAR0 write store EVT_ENABLE. Where the spec leaves a point open this rests on the reading of logs 23, 26, 28.
(15 R326; 15 R327; 15 R328; 15 R330; 15 R333; 00 R9.) -/
def Obligations.PageHeadersFollowWrites : Prop :=
  ∀ (s : State) (b : Blk) (i : Nat),
    (∀ v : View, Reaches s v →
      (Writes s v b i 0x008 2 → Gives (.blockReset v b i) s fun t => (hget t b i).blockReset = true ∧
        (hget t b i).evtStatus = 0 ∧ (hget t b i).evtEnable = 0 ∧ (hget t b i).vector = 0 ∧
        (hget t b i).msiEn = false ∧ (hget t b i).severity = 0) ∧
      (∀ bits : W64, Writes s v b i 0x018 bits.toNat → Gives (.evtStatusClear v b i bits) s fun t =>
        (∀ n, (hget s b i).evtStatus.getLsbD n = true → bits.getLsbD n = false → (hget t b i).evtStatus.getLsbD n = true) ∧
        (b ≠ .cairn ∨ viewRole s v < 2 → (hget t b i).evtStatus = (hget s b i).evtStatus &&& ~~~bits))) ∧
    ((hget s b i).blockReset = true → Gives (.blockResetDone b i) s fun t =>
      (hget t b i).blockReset = false ∧ ∀ b' i', (b', i') ≠ (b, i) → hget t b' i' = hget s b' i') ∧
    (∀ ses : Session, sesUp s ses = true →
      (Writes s (.fm ses) b i 0x008 (4 + 8 * flag (hget s b i).quiesce) → Gives (.lock ses b i) s fun t =>
        (hget t b i).lock = true ∧ (hget t b i).quiesce = (hget s b i).quiesce) ∧
      (∀ bits : W64, Writes s (.fm ses) b i 0x028 bits.toNat → Gives (.evtForce ses b i bits) s fun t =>
        ∀ e ∈ evtsOf b, bits.toNat.testBit e.info.2.1 = true → Signalled t e i) ∧
      (∀ value : W64, 1 ≤ roleOf s ses → Writes s (.fm ses) b i 0x020 value.toNat →
        Gives (.writePageRegister ses (blkCode b) i 0x020 0 value) s fun t =>
          (hget t b i).evtEnable = value ∧ t.out.head? = some (.fmRsp ses .success []))) ∧
    (∀ (p : Part) (h : Head) (off : Nat) (value : W64), ioOpen s h p = true → off % 8 = 0 →
      bar0Page off = some (b, i, 0x020) → Writes s (.host p h) b i 0x020 value.toNat →
      Gives (.registerWrite (.host p h) (.bar0 off) 8 value) s fun t => (hget t b i).evtEnable = value)

/-- Writes of BAR0 and BAR2 outside pages reach the MSI-X table or ring memory, or are counted or dropped.
Through an open window: a page write that is not 64 bits wide or not aligned counts in BAD_ACCESS and changes no
page; device-resident ring memory takes the bytes; an MSI-X table word sets the vector's data and mask; a write
to the read-only ROM window is dropped. Where the spec leaves a point open this rests on the reading of logs 30,
67. (02 R41; 02 R43; 02 R44; 15 R330.) -/
def Obligations.WindowWritesReachTheirPlace : Prop :=
  ∀ (s : State) (p : Part) (h : Head), ioOpen s h p = true →
    (∀ off width value, 0x100000 ≤ off → (width ≠ 8 ∨ off % 8 ≠ 0) →
      Gives (.registerWrite (.host p h) (.bar0 off) width value) s fun t =>
        fget t .idBadAccessCount = min (fget s .idBadAccessCount + 1) (2 ^ 32 - 1) ∧ t.hdr = s.hdr ∧
        ∀ f i j, f ≠ .idBadAccessCount → fget t f i j = fget s f i j) ∧
    (∀ off bytes width value, s.memoriesWf = true → 0x800000 ≤ off % 0x1000000 →
      Gives (.registerWrite (.host p h) (.bar2 off bytes) width value) s fun t =>
        (∀ k, (hk : k < bytes.length) → Memory.get t.ringMem (p.val * 2 ^ 30 + off + k) = bytes[k]) ∧
        ∀ a, a < p.val * 2 ^ 30 + off ∨ p.val * 2 ^ 30 + off + bytes.length ≤ a →
          Memory.get t.ringMem a = Memory.get s.ringMem a) ∧
    (∀ vec value, vec < 256 → Gives (.registerWrite (.host p h) (.bar0 (0x20000 + 16 * vec + 8)) 4 value) s fun t =>
        (msixOf t p vec).data = BitVec.ofNat 32 value.toNat ∧ (msixOf t p vec).masked = (msixOf s p vec).masked) ∧
    (∀ off width value, Gives (.registerWrite (.host p h) (.rom off) width value) s fun t =>
        SameBut [.power, .heads] s t)

/-- A function change parks the pin, the park ends with MFP_SWITCHED, and an input pin follows its level. A
write of a new FUNC that goes through stores it and parks the pin, which then has no function in force; the end
of the park clears it and sets MFP_SWITCHED; the filtered level of a pin in an input function is taken. Where
the spec leaves a point open this rests on the reading of log 69. (16 R348; 16 R349; 16 R351.) -/
def Obligations.PinsTakeTheirFunction : Prop :=
  ∀ (s : State) (pin : Pin),
    (∀ (ses : Session) (func : Fin 16), sesUp s ses = true → s.fieldsFit = true →
      Writes s (.fm ses) .pin 0 (0x050 + pin.val / 8 * 8)
        (wordWith s .pin 0 (0x050 + pin.val / 8 * 8) [(.pinMfpCfgFunc, pin, func)]) →
      (hget s .pin 0).lock = false → (func.val ≤ 5 ∨ (func.val = 6 ∧ roleOf s ses = 3)) →
      func.val ≠ fget s .pinMfpCfgFunc 0 pin →
      Gives (.mfpFuncWrite ses pin func) s fun t => fget t .pinMfpCfgFunc 0 pin = func.val ∧
        pinParked t pin = true ∧ pinFunc t pin = 0) ∧
    (pinParked s pin = true → Gives (.mfpParkEnd pin) s fun t => pinParked t pin = false ∧
      pinFunc t pin = fget s .pinMfpCfgFunc 0 pin ∧ Signalled t .pinMfpSwitched) ∧
    (∀ level, inputFunc (pinFunc s pin) = true → Gives (.mfpInputChange pin level) s fun t =>
      pinLevel t pin = level)

/-- Cold power-on, PKG_RST# and a warm reset leave the state of Table 13.3. Cold power-on leaves reset values,
empty memory, no extents and no sessions, keeps SSD contents and enrolled anchors, and takes the MAKER_EN strap.
PKG_RST# (a running or tripped part) and a WARM_RESET write return to before power good with their cause, no
sessions, jobs or hints, and, alone, keep extents except offers. Where the spec leaves a point open this rests
on the reading of logs 5, 36, 37. (13 R299; 13 R300; 16 R352.) -/
def Obligations.ResetsRestoreTheirState : Prop :=
  ∀ s : State,
    let kept := fun t : State => twinUp s = false → (s.exts.map (·.base)).Nodup →
      ∀ e ∈ s.exts, (∀ h ∈ e.holders, h.st ≠ .offered) → e ∈ t.exts
    (∀ makerEn : Bool, Gives (.coldPowerOn makerEn) s fun t => t.boot = State.reset.boot ∧
      (∀ f i j, f ≠ .pinStrapsMakerEn → fget t f i j = f.desc.rst) ∧
      fget t .pinStrapsMakerEn = (if makerEn then 1 else 0) ∧ (∀ a, Memory.get t.mem a = 0) ∧ t.exts = [] ∧
      t.sessions = [] ∧ t.ssd = s.ssd ∧ t.flash.anchors = s.flash.anchors ∧ t.flash.slot0 = s.flash.slot0) ∧
    (s.boot.phase ≠ .auxOnly → s.boot.phase ≠ .dead → Gives .pkgRst s fun t => kept t ∧
      t.boot.phase = .auxOnly ∧ t.boot.pkgRstLow = true ∧ t.boot.pagesReady = false ∧ t.sessions = [] ∧
      t.jobs = [] ∧ t.hints = [] ∧
      fget t .pwrResetCauseCause = (if s.boot.phase = .tripped then 3 else 1)) ∧
    (∀ ses : Session, sesUp s ses = true → s.fieldsFit = true →
      Writes s (.fm ses) .pwr 0 0x050 (wordWith s .pwr 0 0x050 [(.pwrCtrlWarmReset, 0, 1)]) →
      Gives (.warmReset ses) s fun t => kept t ∧ t.boot.phase = .auxOnly ∧ t.boot.pagesReady = false ∧ t.sessions = [] ∧
        t.jobs = [] ∧ t.hints = [] ∧ fget t .pwrResetCauseCause = 2)

/-- Power good, the fill and Mem_Active bring the part up, or recovery does where no image boots. After power
good a bootable image starts and names its slot, else the part is in recovery; the fill releases the cores with
pages ready (at a cold start every byte reads zero and no line is poisoned); Mem_Active makes the part active
with its start-up time; the settings record takes what was accepted. Where the spec leaves a point open this
rests on the reading of logs 29, 36. (13 R302; 13 R303; 13 R305; 11 R249; 15 R329.) -/
def Obligations.StartUpReachesMemActive : Prop :=
  ∀ s : State,
    (∀ r : BootReport, s.boot.phase = .auxOnly →
      (bootSlot s r = none → Gives (.powerGood r) s fun t => t.boot.phase = .recovery ∧
        t.boot.pkgRstLow = false) ∧
      (∀ one, bootSlot s r = some one → Gives (.powerGood r) s fun t => t.boot.phase = .starting ∧
        t.boot.pkgRstLow = false ∧ fget t .roleFwStatusSlot = (if one then 1 else 0) ∧
        fget t .roleFwStatusRunningSvn = (imgOf s.flash one).svn % 2 ^ 16)) ∧
    (∀ pf bf, s.boot.phase = .starting → Gives (.basecampFillDone pf bf) s fun t => t.boot.phase = .released ∧
      t.boot.pagesReady = true ∧
      (s.boot.cold = true → pf = [] → bf = [] → (∀ a, Memory.get t.mem a = 0) ∧ t.poison = [])) ∧
    (∀ ms, s.boot.phase = .released → bState s ≠ bsJoining → Gives (.memActive ms) s fun t =>
      t.boot.phase = .active ∧ t.boot.memActive = true ∧ fget t .pwrBootBootMs = min ms 65535) ∧
    (Gives .settingsRecordWrite s fun t => t.flash.settingsDue = {} ∧
      t.flash.settings.tiered = (s.flash.settingsDue.tiered <|> s.flash.settings.tiered) ∧
      t.flash.settings.pairEn = (s.flash.settingsDue.pairEn <|> s.flash.settings.pairEn) ∧
      t.flash.settings.pairRank = (s.flash.settingsDue.pairRank <|> s.flash.settings.pairRank) ∧
      t.flash.settings.pitchLen = (s.flash.settingsDue.pitchLen <|> s.flash.settings.pitchLen))

/-- Rail faults and removals, thermal trips and flow loss act as chapter 16 says. A main rail fault records its
code, sets RAIL_FAULT, drives FAULT# and stops the part with Basecamp empty. Removal of VIN_D or VDD_AUX does
too, of another rail clears its OK bit; restoring sets it. A logic sensor at 110 °C trips the part; regulators
then go off. A FLOW_OK pin low or high for 1 s starts or ends flow throttling. (16 R340; 16 R341; 16 R350; 16
R351; 16 R352.) -/
def Obligations.RailsAndHeatActOnTheWholePart : Prop :=
  ∀ s : State,
    (∀ (rail : Rail) (code : Nat) (f : Fld), railFld rail = some (code, f) →
      (s.boot.pkgRstLow = false → s.boot.phase ≠ .dead → s.boot.phase ≠ .tripped → Gives (.railFault rail) s fun t =>
        t.boot.phase = .dead ∧ t.boot.faultLow = true ∧ fget t .pinRailsLastFault = code ∧ fget t f = 0 ∧
        Signalled t .pinRailFault ∧ (∀ a, Memory.get t.mem a = 0) ∧ ∀ h, linkUp t h = false) ∧
      (s.boot.pkgRstLow = true ∨ s.boot.phase = .tripped ∨ s.boot.phase = .dead → Gives (.railRemoved rail) s fun t =>
        fget t f = 0 ∧ (rail = .vinD → t.boot.phase = .dead ∧ ∀ a, Memory.get t.mem a = 0) ∧
        (rail ≠ .vinD → t.boot = s.boot ∧ t.mem = s.mem)) ∧
      Gives (.railRestored rail) s fun t => fget t f = 1) ∧
    (s.boot.pkgRstLow = true ∨ s.boot.phase = .tripped ∨ s.boot.phase = .dead → Gives (.railRemoved .vddAux) s fun t =>
      t.boot.phase = .dead ∧ ∀ a, Memory.get t.mem a = 0) ∧
    (s.boot.phase = .tripped → Gives .thermtripRegulatorOff s fun t => t.boot.regulatorsOff = true) ∧
    (∀ c, running s = true → c < 256 → Gives (.logicSensorRead c) s fun t =>
      fget t .pinThermalLogicMaxC = c ∧ (c < 110 → t.boot = s.boot) ∧
      (110 ≤ c → t.boot.phase = .tripped ∧ t.boot.thermtripLow = true ∧ Signalled t .pinThermtrip)) ∧
    (flowLow s = true → fget s .pinThermalFlowThrottle = 0 → Gives .flowLost s fun t =>
      fget t .pinThermalFlowThrottle = 1 ∧ Signalled t .pinFlowLost) ∧
    (flowLow s = false → fget s .pinThermalFlowThrottle = 1 → Gives .flowRestored s fun t =>
      fget t .pinThermalFlowThrottle = 0 ∧ Signalled t .pinFlowRestored)

/-- TARGET writes, entry, wake and exit move the part along the power ladder. A TARGET of 1 to 4 is stored and
pending, during a transition it is deferred, 5 to 7 change nothing. An entry begins towards the rung due, or is
refused for descent; the rung is in force with RUNG_ENTERED; a wake starts the exit or aborts an entry; the exit
returns to rung 0 with its time. Where the spec leaves a point open this rests on the reading of log 35. (13
R294; 13 R295; 13 R296; 13 R297.) -/
def Obligations.LadderMovesByItsRules : Prop :=
  ∀ s : State,
    (∀ (ses : Session) (n : Fin 8), sesUp s ses = true →
      Writes s (.fm ses) .pwr 0 0x050 (wordWith s .pwr 0 0x050 [(.pwrCtrlTarget, 0, n)]) →
      (1 ≤ n.val → n.val ≤ 4 → moving s = false → Gives (.targetWrite ses n) s fun t =>
        fget t .pwrCtrlTarget = n.val ∧ fget t .pwrStatusPending = 1) ∧
      (n.val = 0 → moving s = false → Gives (.targetWrite ses n) s fun t =>
        fget t .pwrCtrlTarget = 0 ∧ fget t .pwrStatusPending = 0 ∧
        (rung s ≠ 0 → fget t .pwrStatusExiting = 1)) ∧
      (n.val ≤ 4 → moving s = true → Gives (.targetWrite ses n) s fun t =>
        t.power.deferred = some n.val ∧ fget t .pwrCtrlTarget = fget s .pwrCtrlTarget) ∧
      (5 ≤ n.val → Gives (.targetWrite ses n) s fun t => fget t .pwrCtrlTarget = fget s .pwrCtrlTarget ∧
        fget t .pwrStatusPending = fget s .pwrStatusPending)) ∧
    (∀ n cmd, entryRung s = (n, cmd) → n ≠ 0 → s.boot.phase = .active → moving s = false →
      (twinUp s = true → bRole s ≠ roleSecond) →
      (¬(n = 4 ∧ descentRefused s = true) → Gives .rungEntry s fun t =>
        fget t .pwrStatusEntering = 1 ∧ t.power.entering = n ∧ fget t .pwrStatusPending = 0) ∧
      (n = 4 → descentRefused s = true → Gives .rungEntry s fun t =>
        Signalled t .pwrEntryRefused ∧ fget t .pwrCtrlTarget = 0 ∧ rung t = rung s)) ∧
    (fget s .pwrStatusEntering = 1 → entryReady s = true → s.power.entering ≤ 4 → Gives .rungEntered s fun t =>
      rung t = s.power.entering ∧ fget t .pwrStatusEntering = 0 ∧ Signalled t .pwrRungEntered) ∧
    (∀ c, s.boot.phase = .active → fget s .pwrStatusExiting ≠ 1 →
      (rung s ≠ 0 → Gives (.wake c) s fun t => fget t .pwrStatusExiting = 1 ∧ t.power.exitFrom = rung s ∧
        fget t .pwrStatusLastWake = wakeCode c ∧ fget t .pwrStatusEntering ≠ 1) ∧
      (rung s = 0 → fget s .pwrStatusEntering = 1 → Gives (.wake c) s fun t =>
        fget t .pwrStatusEntering = 0 ∧ Signalled t .pwrEntryAborted ∧
        fget t .pwrStatusExiting = fget s .pwrStatusExiting)) ∧
    (∀ us, us < 2 ^ 32 → fget s .pwrStatusExiting = 1 → Gives (.rungExitDone us) s fun t =>
      rung t = 0 ∧ fget t .pwrStatusExiting = 0 ∧ fget t .pwrExitTimeLastUs = us)

/-- A cluster reset sets BUSY, restarts its steps, and ends with CLUSTER_RESET_DONE. A CLUSTER_RESET write that
goes through while none runs sets BUSY, begins holding the cluster's requests, empties its cached blocks and
frees its cores; when the reset completes with no PC of the cluster frozen BUSY clears and CLUSTER_RESET_DONE is
set. A write while one runs is ignored. (13 R301.) -/
def Obligations.ClusterResetRunsAndEnds : Prop :=
  ∀ s : State,
    (∀ (ses : Session) (c : Cluster), sesUp s ses = true →
      Writes s (.fm ses) .pwr 0 0x090 (wordWith s .pwr 0 0x090 [(.pwrClusterResetCluster, 0, c), (.pwrClusterResetGo, 0, 1)]) →
      (fget s .pwrClusterResetBusy = 0 → Gives (.clusterReset ses c) s fun t =>
        fget t .pwrClusterResetBusy = 1 ∧ ahas t.resetting c.val = true ∧
        (∀ e ∈ t.cache, blockCluster e.block ≠ c.val) ∧ ∀ k ∈ t.coresOut, coreCluster k ≠ c.val) ∧
      (fget s .pwrClusterResetBusy = 1 → Gives (.clusterReset ses c) s fun t =>
        t.resetting = s.resetting ∧ t.steps = s.steps ∧ t.cache = s.cache)) ∧
    (∀ c held rest bf, s.resetting = (c, held) :: rest → (∀ i, i < 4 → pcSt s (c * 4 + i) ≠ pcFrozen) →
      Gives (.clusterResetDone bf) s fun t =>
        fget t .pwrClusterResetBusy = 0 ∧ Signalled t .pwrClusterResetDone)

/-- A boundary ends the pitch and counts; TIMEBASE_IN loss, return and restoration switch the source. A boundary
moves the clock by the pitch, counts up (the first counts 0), starts the phase anew and is recorded when late. A
stop of 1 µs declares loss; a return starts a partial pitch; after 100 good pitches the switch back clears
HOLDOVER; the takeover of the management complex exchanges LEADER. Where the spec leaves a point open this rests
on the reading of log 33. (01 R19; 01 R20; 01 R21; 01 R22; 01 R12.) -/
def Obligations.PitchCountsAndChecksTheTimebase : Prop :=
  ∀ s : State,
    (∀ late cycles, s.tb.started = true ∨ s.tb.running = true → Gives (.pitchBoundary late cycles) s fun t =>
      t.tb.count = (if s.tb.started then (s.tb.count + 1) % 2 ^ 64 else 0) ∧ t.tb.phase = 0 ∧
      t.tb.clock = s.tb.clock + pitchLength s ∧ t.tb.started = true ∧
      (late = true → Signalled t .pitchBoundaryLate)) ∧
    (Gives .timebaseStop s fun t => t.tb.running = false ∧ fget t .pitchAlignHoldover = 1 ∧
      (fget s .pitchAlignHoldover ≠ 1 → Signalled t .pitchTbLoss)) ∧
    (Gives .timebaseInReturn s fun t => t = { s with tb := { s.tb with running := true, whole := false } }) ∧
    (fget s .pitchAlignHoldover = 1 → 100 ≤ s.tb.good → Gives .tbRestored s fun t =>
      fget t .pitchAlignHoldover = 0 ∧ t.tb.good = 0 ∧ Signalled t .pitchTbRestored) ∧
    (s.boot.phase ≠ .auxOnly → s.boot.phase ≠ .tripped → s.boot.phase ≠ .dead → Gives .complexTakeover s fun t =>
      fget t .cairnStatusLeader = 1 - fget s .cairnStatusLeader)

/-- The second of a pair measures its offset by pulse or marker, aligned within 20 ns or 100 ns. On the second
of a pair that aligns by that means, a pulse, or a marker of a boundary that has come, sets TWIN_OFFSET (clamped
to 16 bits, the model's choice) and ALIGNED; an offset over 1 µs after the step phase sets ALIGN_LOST and makes
the step phase due; a marker of a later boundary waits for it. Where the spec leaves a point open this rests on
the reading of log 34. (01 R25; 01 R26; 01 Table 1.9.) -/
def Obligations.TheSecondAligns : Prop :=
  ∀ (s : State) (ns : Int),
    let follows := fun (c : Instr) (tol : Nat) => Gives c s fun t =>
      fget t .pitchPhaseTwinOffset = offsetField ns ∧
      fget t .pitchAlignAligned = (if ns.natAbs ≤ tol then 1 else 0) ∧
      (1000 < ns.natAbs → s.tb.stepDue = false → t.tb.stepDue = true ∧ Signalled t .pitchAlignLost)
    (aligns s 1 = true → follows (.pitchSyncPulse ns) 20) ∧
    (aligns s 2 = true → (∀ n, n ≤ s.tb.count → follows (.pitchMarkerFlit n ns) 100) ∧
      ∀ n, s.tb.count < n → Gives (.pitchMarkerFlit n ns) s fun t =>
        t = { s with tb := { s.tb with markers := s.tb.markers ++ [(n, ns)] } })

/-- A write of 0 or above 0x400 to TAG_LIMIT.LIMIT is ignored; another value is stored. For every state, head,
partition and value: a tag-limit write of 0 or of a value above 0x400 completes and every partition keeps its
limit; one of 1 to 0x400 that reaches an open configuration space not in reset becomes the limit, and the other
partitions keep theirs. (02 R40.) -/
def Obligations.TagLimitIgnoresBadValues : Prop :=
  ∀ (s : State) (h : Head) (p : Part) (limit : BitVec 11),
    (limit = 0 ∨ 0x400 < limit.toNat → Gives (.tagLimitWrite h p limit) s fun t =>
      ∀ q, (cfgOf t q).tagLimit = (cfgOf s q).tagLimit) ∧
    (limit ≠ 0 → limit.toNat ≤ 0x400 → cfgOpen s h p = true → (cfgOf s p).inReset = none →
      Gives (.tagLimitWrite h p limit) s fun t => (cfgOf t p).tagLimit = limit.toNat ∧
        ∀ q, q ≠ p.val → (cfgOf t q).tagLimit = (cfgOf s q).tagLimit)

/-- NOT_HELD, NOT_SNAPSHOT and NO_VERSION are answered exactly where the command meets that condition. For every
state, partition, operation, granule and version: the result of a snapshot command is NOT_HELD exactly where the
partition holds no extent of that base in ACTIVE or RELEASE_PENDING; it is NOT_SNAPSHOT exactly where the extent
held has SHARING other than 0b10, given that every extent of SHARING 0b10 has its version record; it is
NO_VERSION exactly for an OPEN of a version that is not live. (04 R98.) -/
def Obligations.SnapResultsMeanWhatTheySay : Prop :=
  ∀ (s : State) (p op base ver : Nat),
    (∀ e ∈ s.exts, e.attr.sharing = 2 → ∃ x, snapOf s e.base = some x) →
    (snapResult s p op base ver = snNotHeld ↔ ∀ e ∈ s.exts, e.base = base → served e p = false) ∧
    (∀ e, s.exts.find? (fun e => decide (e.base = base) && served e p) = some e →
      (snapResult s p op base ver = snNotSnapshot ↔ e.attr.sharing ≠ 2) ∧
      ∀ x, e.attr.sharing = 2 → snapOf s base = some x →
        (snapResult s p op base ver = snNoVersion ↔
          op = snOpen ∧ ¬(namedVersion x ver = x.newest ∨ ∃ o ∈ x.old, o.num = namedVersion x ver)))

/-- A temperature read sets TEMP_C, refresh, throttle and the retrain due, or trips; a PC's refresh, slots and
timers take effect. While requests are served: a valid read below 105 °C sets TEMP_C and the peak, the doubled
refresh from 85 °C and off again below 83 °C, the cluster's factor by its hottest PC, and the retrain due at
RETRAIN_DELTA; an invalid read sets TEMP_INVALID and counts as 99 °C; a read of 105 °C or more trips the
package. A refresh that nothing delays closes its rank's rows, a slot opens the row of the pick, OPEN_TIMEOUT
closes a row, AGE_MAX raises an entry, an idle rank powers down, a held-back request goes on. Where the spec
leaves a point open this rests on the reading of log 57. (10 R226; 10 R228; 10 R229; 10 R233; 10 R223; 10 R224;
10 R227; 10 R230; 10 R231; 09 R209; 09 R213.) -/
def Obligations.TemperatureReadsSetRefreshAndThrottle : Prop :=
  ∀ (s : State) (pc : PcId), running s = true → s.fieldsFit = true →
    (∀ c, c < 105 → Gives (.tempRead pc (some c)) s fun t =>
      fget t .pcTempTempC pc = c ∧ fget t .pcTempTempPeak pc = max c (fget s .pcTempTempPeak pc) ∧
      (pcOf t pc).tempInvalid = false ∧
      fget t .pcTempRefresh2x pc = (if 85 ≤ c then 1 else if c < 83 then 0 else fget s .pcTempRefresh2x pc) ∧
      fget t .pcTempThrottle (pc.val / 4 * 4) =
        nextFactor (fget s .pcTempThrottle (pc.val / 4 * 4)) (hottest t (pc.val / 4)) ∧
      (fcur s .pcCfgRetrainDelta pc ≤ (if c < fget s .pcTempTempTrained pc
          then fget s .pcTempTempTrained pc - c else c - fget s .pcTempTempTrained pc) →
        (pcOf s pc).retrainDue = false → pcSt s pc ≠ pcFailed →
        (pcOf t pc).retrainDue = true ∧ Signalled t .pcRetrainDue pc)) ∧
    (Gives (.tempRead pc none) s fun t => Signalled t .pcTempInvalid pc ∧ tempOf t pc = 99 ∧
      fget t .pcTempTempC pc = fget s .pcTempTempC pc ∧ fget t .pcTempRefresh2x pc = 1) ∧
    (∀ c, 105 ≤ c → Gives (.tempRead pc (some c)) s fun t => t.boot.phase = .tripped ∧
      t.boot.thermtripLow = true ∧ Signalled t .pcTrip pc ∧ Signalled t .pinThermtrip) ∧
    (∀ rank : Fin 2,
      (levelZeroWaits s pc rank = false → Gives (.refreshDue pc rank) s fun t =>
        ∀ x ∈ (pcOf t pc).openRows, x.1 % 2 ≠ rank.val) ∧
      ((pcOf s pc).entries = [] → Gives (.rankPowerDown pc rank) s fun t =>
        (fget t .pcStateRanksPd pc).testBit rank = true)) ∧
    (∀ q : Fin 32, Gives (.openTimeout pc q) s fun t => ahas (pcOf t pc).openRows q.val = false) ∧
    (∀ e ∈ (pcOf s pc).entries, Gives (.ageMax pc e.id) s fun t =>
      ∃ x ∈ (pcOf t pc).entries, x.id = e.id ∧ x.level = 0) ∧
    (∀ q e, pcSt s pc = pcRun → selfRefreshing s = false → (pcOf s pc).held = [] → (pcOf s pc).due = [] →
      (pcOf s pc).trr = [] → pickNext s pc = some (q, e) → ahas (pcOf s pc).openRows q = false →
      Gives (.pcCommandIssue pc none) s fun t => ahas (pcOf t pc).openRows q = true ∧
        aget (pcOf t pc).openRows q 0 = e.row) ∧
    ∀ (r : Req) (h : Head), (pcOf s pc).heldBack = [r] → (pcOf s pc).entries.length < 32 → r.src = .host h →
      r.kind = .read → heldExt s r.p r.dpa = none → Gives (.queueHoldRelease pc) s fun t => (pcOf t pc).heldBack = [] ∧
        ∃ load, .memRsp r.p h r.dpa .poison load ∈ t.out

/-- Refresh, command slots, row timeouts, ageing and rank power-down act on a PC's queue as stated. A due
refresh is postponed behind level-0 requests at most four times, else closes the rank's rows. A command slot
issues a due refresh first, then a targeted one, else the pick of R223 (activate, column or precharge). A row
left open times out, an entry ages to level 0, an idle rank powers down, and a request held back goes on with
fewer than 32 entries. (10 R223; 10 R224; 10 R227; 10 R230; 10 R231; 09 R209; 09 R213.) -/
def Obligations.ControllersScheduleTheirQueues : Prop :=
  ∀ (s : State) (pc : PcId) (rank : Fin 2),
    let n := aget (pcOf s pc).postponed rank.val 0
    let waits := pcSt s pc = pcRun ∧ (fget s .pcStateRanksPd pc).testBit rank = false ∧
      levelZeroWaits s pc rank = true
    (running s = true →
      (waits → n < 4 → Gives (.refreshDue pc rank) s fun t =>
        aget (pcOf t pc).postponed rank.val 0 = n + 1 ∧ (pcOf t pc).openRows = (pcOf s pc).openRows) ∧
      (waits → 4 ≤ n → Gives (.refreshDue pc rank) s fun t => rank.val ∈ (pcOf t pc).due) ∧
      (¬waits → Gives (.refreshDue pc rank) s fun t => aget (pcOf t pc).postponed rank.val 0 = n - 1 ∧
        ∀ x ∈ (pcOf t pc).openRows, x.1 % 2 ≠ rank.val)) ∧
    (running s = true → pcSt s pc ≠ pcFailed → selfRefreshing s = false → (pcOf s pc).held = [] →
      let slot := fun Q => Gives (.pcCommandIssue pc none) s fun t => Q (pcOf t pc)
      (∀ r rest, (pcOf s pc).due = r :: rest → slot fun u => r ∉ u.due ∧ ∀ x ∈ u.openRows, x.1 % 2 ≠ r) ∧
      (∀ x rest, (pcOf s pc).due = [] → (pcOf s pc).trr = x :: rest → slot fun u => u.trr = rest ∧
        ahas u.openRows x.1 = false) ∧
      (∀ q e, (pcOf s pc).due = [] → (pcOf s pc).trr = [] → pcSt s pc = pcRun → pickNext s pc = some (q, e) →
        (ahas (pcOf s pc).openRows q = false → slot fun u => aget u.openRows q (e.row + 1) = e.row ∧ u.pick = q ∧
          u.entries = (pcOf s pc).entries) ∧
        (ahas (pcOf s pc).openRows q = true → aget (pcOf s pc).openRows q 0 = e.row → slot fun u =>
          ∀ x ∈ u.entries, x.id ≠ e.id) ∧
        (ahas (pcOf s pc).openRows q = true → aget (pcOf s pc).openRows q 0 ≠ e.row → slot fun u =>
          ahas u.openRows q = false ∧ u.entries = (pcOf s pc).entries))) ∧
    (∀ q : Fin 32, Gives (.openTimeout pc q) s fun t => ahas (pcOf t pc).openRows q.val = false ∧
      (pcOf t pc).entries = (pcOf s pc).entries) ∧
    (∀ entry, Gives (.ageMax pc entry) s fun t => ∀ e ∈ (pcOf t pc).entries, e.id = entry → e.level = 0) ∧
    (running s = true → (∀ e ∈ (pcOf s pc).entries, e.bankq % 2 ≠ rank.val) →
      Gives (.rankPowerDown pc rank) s fun t => (fget t .pcStateRanksPd pc).testBit rank = true) ∧
    (∀ r rest, (pcOf s pc).heldBack = r :: rest → (pcOf s pc).entries.length < 32 →
      ∀ h : Head, r.src = .host h → r.kind = .read → heldExt s r.p r.dpa = none →
      Gives (.queueHoldRelease pc) s fun t => (pcOf t pc).heldBack = rest ∧
        ∃ load, .memRsp r.p h r.dpa .poison load ∈ t.out)

/-- A parity error freezes a PC with its place; RESUME, RETIRE_ROW and FAIL end the freeze; FREEZE_HOLD answers
what is held. A DRAM parity error on a serving PC freezes it, records cause and place and sets FROZEN. On a
frozen PC with no repair, the stated action by Efirazu or by a write that goes through resumes it (dropped lines
become poison), starts the row repair, or fails it. After the repair it resumes. In SOLO the end of FREEZE_HOLD
answers a held host read with poison. Where the spec leaves a point open this rests on the reading of log 57.
(10 R234; 10 R235; 10 Table 10.4.) -/
def Obligations.FreezesHoldAndEnd : Prop :=
  ∀ (s : State) (pc : PcId),
    (∀ e : ParityErr, running s = true → pcSt s pc ≠ pcFailed → selfRefreshing s = false →
      fget s .pcStateState pc ≠ pcFrozen → Gives (.pcCommandIssue pc (some e)) s fun t =>
        pcSt t pc = pcFrozen ∧ (hget t .pc pc).frozen = true ∧ fget t .pcFreezeInfoCause pc = 2 ∧
        fget t .pcFreezeInfoRank pc = e.rank % 2 ∧ fget t .pcFreezeInfoBank pc = e.bank % 16 ∧
        fget t .pcFreezeInfoRow pc = e.row % 65536 ∧ fget t .pcFreezeInfoColumn pc = e.column % 32 ∧
        Signalled t .pcFrozen pc ∧ (pcOf t pc).entries = (pcOf s pc).entries) ∧
    (fget s .pcStateState pc = pcFrozen → (pcOf s pc).repairing = false → (pcOf s pc).held = [] →
      ∀ a : Actor,
      let may := fun n => match a with
        | .efirazu => True
        | .session ses => sesUp s ses = true ∧
            Writes s (.fm ses) .pc pc 0x060 (wordWith s .pc pc 0x060 [(.pcFreezeActAction, 0, n)])
      (may 1 → (pcOf s pc).dropped.length ≤ 4096 → s.ras.busy = none → Gives (.resume a pc) s fun t =>
        fget t .pcStateState pc = (if (hget s .pc pc).quiesce then pcQuiesced else pcRun) ∧
        (hget t .pc pc).frozen = false ∧ (pcOf t pc).dropped = [] ∧
        ∀ l ∈ (pcOf s pc).dropped, l ∈ t.poison) ∧
      (may 1 → 4096 < (pcOf s pc).dropped.length → Gives (.resume a pc) s fun t =>
        fget t .pcStateState pc = pcFailed) ∧
      (may 2 → pprLeft s pc (bankqOf (freezeLoc s pc)) ≠ 0 → Gives (.retireRow a pc) s fun t =>
        (pcOf t pc).repairing = true ∧ fget t .pcStateState pc = pcFrozen) ∧
      (may 3 → Gives (.fail a pc) s fun t => fget t .pcStateState pc = pcFailed ∧
        (hget t .pc pc).frozen = false ∧ Signalled t .pcFailed pc ∧ (pcOf t pc).entries = [])) ∧
    ((pcOf s pc).repairing = true → (pcOf s pc).held = [] → (pcOf s pc).dropped = [] → s.ras.busy = none →
      Gives (.retireRowDone pc) s fun t => (pcOf t pc).repairing = false ∧ (hget t .pc pc).frozen = false ∧
        fget t .pcStateState pc = (if (hget s .pc pc).quiesce then pcQuiesced else pcRun) ∧
        (pc.val, bankqOf (freezeLoc s pc), (freezeLoc s pc).row) ∈ t.ras.rows ∧ Signalled t .rasRetired) ∧
    (pcSt s pc = pcFrozen → twinUp s = false →
      ((pcOf s pc).held = [] → Gives (.freezeHold pc) s fun t => (pcOf t pc).holdOver = true) ∧
      ∀ (r : Req) (h : Head), (pcOf s pc).held = [r] → r.src = .host h → r.kind = .read →
        pcOfAddr r.dpa = pc.val → homeSt s r.dpa = .hold →
        Gives (.freezeHold pc) s fun t => (pcOf t pc).held = [] ∧ ∃ load, .memRsp r.p h r.dpa .poison load ∈ t.out)

/-- Retrains start one per cluster and end; the training helpers run and report; QUIESCE stops and starts a PC.
A due retrain starts while no other PC of the cluster retrains, quiescing the PC; it ends with TEMP_TRAINED
updated or TRAIN_ABORTED. RUN starts a helper only while quiesced or frozen, refused outside the training row
except for a maker; its end reports. A QUIESCE write that changes the bit stops or starts the PC. Where the spec
leaves a point open this rests on the reading of log 57. (10 R232; 10 R233; 15 R324; 14 Table 14.1.) -/
def Obligations.TrainingAndQuiesceFollowTheirRules : Prop :=
  ∀ (s : State) (pc : PcId),
    ((pcOf s pc).retrainDue = true → clusterRetrains s pc = false → pcSt s pc = pcRun ∨ pcSt s pc = pcQuiesced →
      Gives (.pcRetrainStart pc) s fun t => fget t .pcStateState pc = pcTraining ∧
        (pcOf t pc).retraining = true ∧ (hget t .pc pc).quiesced = true) ∧
    ((pcOf s pc).retraining = true → (pcOf s pc).held = [] → s.fieldsFit = true →
      ∀ finished, Gives (.pcRetrainEnd pc finished) s fun t =>
        fget t .pcStateState pc = (if (hget s .pc pc).quiesce then pcQuiesced else pcRun) ∧
        (pcOf t pc).retraining = false ∧ (pcOf t pc).retrainDue = !finished ∧
        (finished = true → fget t .pcTempTempTrained pc = fget s .pcTempTempC pc) ∧
        (finished = false → fget t .pcTempTempTrained pc = fget s .pcTempTempTrained pc ∧
          Signalled t .pcTrainAborted pc)) ∧
    (∀ (ses : Session) (value : W64), sesUp s ses = true → s.boot.phase ≠ .starting →
      Writes s (.fm ses) .pc pc 0x078 (value ||| 1#64).toNat →
      let may := (hget s .pc pc).quiesced = true ∨ (hget s .pc pc).frozen = true
      let own := fget s .pcTrainAddrRow pc = 0xFFFF ∧ fget s .pcTrainAddrRows pc ≤ 1
      (may → own ∨ roleOf s ses = 3 → Gives (.trainRun ses pc value) s fun t => (pcOf t pc).training = true ∧
        fget t .pcTrainCtrlDone pc = 0 ∧ fget t .pcTrainCtrlRefused pc = 0) ∧
      (may → ¬own → roleOf s ses ≠ 3 → Gives (.trainRun ses pc value) s fun t =>
        fget t .pcTrainCtrlRefused pc = 1 ∧ (pcOf t pc).training = (pcOf s pc).training) ∧
      (¬may → Gives (.trainRun ses pc value) s fun t => (pcOf t pc).training = (pcOf s pc).training ∧
        fget t .pcTrainCtrlRefused pc = fget s .pcTrainCtrlRefused pc)) ∧
    (∀ (lanes : W64) (mism first : BitVec 32), (pcOf s pc).training = true →
      Gives (.trainDone pc lanes mism first) s fun t => (pcOf t pc).training = false ∧
        fget t .pcTrainCtrlDone pc = 1 ∧ fget t .pcTrainLanesLaneFail pc = lanes.toNat ∧
        fget t .pcTrainResultMismatches pc = mism.toNat ∧ fget t .pcTrainResultFirstFail pc = first.toNat ∧
        Signalled t .pcTrainDone pc) ∧
    (∀ (ses : Session) (on : Bool), sesUp s ses = true → (hget s .pc pc).quiesce ≠ on → (pcOf s pc).held = [] →
      Writes s (.fm ses) .pc pc 0x008 (8 * flag on) →
      (fget s .pcStateState pc = pcRun ∨ fget s .pcStateState pc = pcQuiesced → Gives (.quiesce ses pc on) s fun t =>
        (hget t .pc pc).quiesce = on ∧ (hget t .pc pc).quiesced = on ∧
        fget t .pcStateState pc = (if on then pcQuiesced else pcRun)) ∧
      (fget s .pcStateState pc = pcFrozen → Gives (.quiesce ses pc on) s fun t =>
        (hget t .pc pc).quiesce = on ∧ fget t .pcStateState pc = pcFrozen))

/-- Scrub reads walk each PC, RETIRE_CMD starts or reports its result, a retirement completes, and the policy
acts on records. A scrub turn moves the PC's cursor by one line. A RETIRE_CMD that goes through while none runs
starts a block or row retirement, takes a bank or PC out, or reports why not. RETIRED completes it with the
event. AUTO_RETIRE retires the block of a line with enough corrected errors. Where the spec leaves a point open
this rests on the reading of log 58. (11 R252; 11 R254; 11 R255; 11 R256.) -/
def Obligations.ScrubbingAndRetirementProceed : Prop :=
  ∀ (s : State) (pc : PcId),
    (∀ upset, running s = true → scrubTurn s pc = true → Gives (.scrubLine pc upset) s fun t =>
      aget t.ras.cursors pc.val 0 = (aget s.ras.cursors pc.val 0 + 1) % pcLines ∨
        pcLines ≤ aget s.ras.cursors pc.val 0) ∧
    (∀ (ses : Session) (rank : Fin 2) (bank : Fin 16) (row : BitVec 16), sesUp s ses = true → s.ras.busy = none →
      let may := fun op rank bank row => Writes s (.fm ses) .ras 0 0x078 (wordWith s .ras 0 0x078
        [(.rasRetireCmdOp, 0, op), (.rasRetireCmdPc, 0, pc.val), (.rasRetireCmdRank, 0, rank),
          (.rasRetireCmdBank, 0, bank), (.rasRetireCmdRow, 0, row)])
      let ends := fun (c : Instr) (n : Nat) => Gives c s fun t => t.ras.busy = none ∧
        fget t .rasRetireStatusBusy = 0 ∧ fget t .rasRetireStatusResult = n
      let starts := fun (c : Instr) (op : Nat) => Gives c s fun t =>
        t.ras.busy = some ⟨op, pc, rank, bank, row.toNat, false⟩ ∧ fget t .rasRetireStatusBusy = 1
      (may 1 rank bank row.toNat →
        (fget s .pcStateState pc = pcFailed → ends (.retireBlock ses pc rank bank row) 3) ∧
        (fget s .pcStateState pc ≠ pcFailed →
          (bank.val % 4 ≠ 0 → ends (.retireBlock ses pc rank bank row) 4) ∧
          (bank.val % 4 = 0 → sparesLeft s pc = 0 → ends (.retireBlock ses pc rank bank row) 1) ∧
          (bank.val % 4 = 0 → sparesLeft s pc ≠ 0 → fget s .pcStateState pc ≠ pcFrozen →
            starts (.retireBlock ses pc rank bank row) 1))) ∧
      (may 2 rank bank row.toNat → fget s .pcStateState pc ≠ pcFailed →
        (pprLeft s pc (bank.val * 2 + rank.val) = 0 → ends (.retireRowCmd ses pc rank bank row) 2) ∧
        (pprLeft s pc (bank.val * 2 + rank.val) ≠ 0 → fget s .pcStateState pc ≠ pcFrozen →
          starts (.retireRowCmd ses pc rank bank row) 2)) ∧
      ((pcOf s pc).held = [] → fget s .pcStateState pc ≠ pcFailed → fget s .pcStateState pc ≠ pcFrozen →
        (may 3 rank bank 0 → Gives (.retireBank ses pc rank bank) s fun t => t.ras.busy = none ∧
          fget t .rasRetireStatusResult = 0 ∧ bankOut t pc (bank.val * 2 + rank.val) = true) ∧
        (may 4 0 0 0 → Gives (.retirePc ses pc) s fun t => fget t .pcStateState pc = pcFailed))) ∧
    (∀ r : Retirement, s.ras.busy = some r → r.waiting = false → (pcOf s r.pc).held = [] → Gives .retired s fun t =>
      t.ras.busy = none ∧ fget t .rasRetireStatusBusy = 0 ∧ fget t .rasRetireStatusResult = 0 ∧
      Signalled t .rasRetired ∧
      (r.op = 1 → (⟨r.pc, r.rank, r.bank / 4, r.row⟩ : RetiredBlock) ∈ t.ras.retired) ∧
      (r.op = 2 → (r.pc, r.bank * 2 + r.rank, r.row) ∈ t.ras.rows)) ∧
    (∀ (seq line : Nat) (r : CRec), recOfSeq s seq = some r → fget s .rasCfgAutoRetire = 1 → s.ras.busy = none →
      r.block = blkCode .ras → r.event = (Evt.rasCeLine).code → leAt r.payload 0 8 = line →
      fget s .rasCfgCeRetire ≤ aget s.ras.ce line 0 →
      let pc := pcOfAddr (line * 64)
      let l := locOf s (line * 64)
      (∀ b ∈ s.ras.retired, ¬(b.pc = pc ∧ b.rank = l.rank ∧ b.bankHi = l.bank / 4 ∧ b.row = l.row)) →
      fget s .pcStateState pc ≠ pcFailed → fget s .pcStateState pc ≠ pcFrozen → sparesLeft s pc ≠ 0 →
      Gives (.autoRetire seq) s fun t => t.ras.busy = some ⟨1, pc, l.rank, l.bank, l.row, false⟩)

/-- An uncorrectable SRAM word counts and acts by its place; a store region test passes on or repairs or takes
the cluster out. Every uncorrectable SRAM word sets SRAM_UE, a corrected one SRAM_CE with Corrected Internal
Error for the fabric-manager logical device; a cached block is dropped, a ring or spill-ring word degrades the
log, a buffered host read is poisoned (no twin), a step's job fails, a partition's CXL.io stops until its FLR. A
region test that passes moves to the next region; one that fails uses a spare, or without one fails the bank and
takes the cluster out. A bank grants two requests a cycle, first one that has stalled 16 cycles; the others
stall; of two accesses to one word the read returns the new data and two writes merge, the earlier in the order
last. (11 R248; 10 R238; 10 R239; 10 R241; 10 R242; 11 R263.) -/
def Obligations.SramErrorsAndStoreTestsAct : Prop :=
  ∀ s : State,
    (∀ site : SramSite, site ≠ .corrected → Gives (.sramUe site) s fun t => Signalled t .rasSramUe) ∧
    (Gives (.sramUe .corrected) s fun t => Signalled t .rasSramCe ∧ .aer 16 0 .correctedInternal ∈ t.out) ∧
    (∀ b, Gives (.sramUe (.blockCache b)) s fun t => ∀ e ∈ t.cache, e.block ≠ b) ∧
    (∀ p : Part, Gives (.sramUe (.partitionIo p)) s fun t => canMaster t p = false ∧ ∀ h, ioOpen t h p = false) ∧
    (Gives (.sramUe (.cairnRing true)) s fun t => fget t .cairnStatusLogDegraded = 1) ∧
    (Gives (.sramUe .spillRing) s fun t => fget t .cairnStatusLogDegraded = 1) ∧
    (∀ (p : Part) (h : Head) (dpa : Nat), twinUp s = false → Gives (.sramUe (.bufferRead p h dpa)) s fun t =>
      ∃ load, .memRsp p h (dpa / 64 * 64) .poison load ∈ t.out) ∧
    (∀ (p : Part) (ring : Ring) (idx step : Nat), (stepAt s p ring idx step).isSome = true →
      Gives (.sramUe (.stepMemory p ring idx step)) s fun t =>
        ∀ j ∈ t.jobs, j.p = p → j.ring = ring → j.idx = idx → j.status ≠ 0) ∧
    (∀ c : Cluster, fget s .storeBgtestPhase c ≠ 0 → fget s .storeRetainInRetention c = 0 →
      (Gives (.storeRegionTestDone c true) s fun t => fget t .storeBgtestPhase c = 0 ∧
        (fget s .storeBgtestBank c < 3 → fget t .storeBgtestBank c = fget s .storeBgtestBank c + 1 ∧
          fget t .storeBgtestRegion c = fget s .storeBgtestRegion c) ∧
        (3 ≤ fget s .storeBgtestBank c → fget t .storeBgtestBank c = 0 ∧
          fget t .storeBgtestRegion c =
            (if fget s .storeBgtestRegion c < 2047 then fget s .storeBgtestRegion c + 1 else 0))) ∧
      (fget s .storeRepairSparesLeft c / 4 ^ fget s .storeBgtestBank c % 4 ≠ 0 →
        Gives (.storeRegionTestDone c false) s fun t => Signalled t .storeTestFail c ∧ Signalled t .storeRepaired c ∧
          (c.val, fget s .storeBgtestBank c, fget s .storeBgtestRegion c) ∈ t.repaired) ∧
      (fget s .storeRepairSparesLeft c / 4 ^ fget s .storeBgtestBank c % 4 = 0 → s.fieldsFit = true →
        (∀ i, i < 4 → (pcOf s (c.val * 4 + i)).held = []) → Gives (.storeRegionTestDone c false) s fun t =>
          (fget t .storeRepairBankFailed c).testBit (fget s .storeBgtestBank c) = true ∧ c.val ∈ t.clustersOut)) ∧
    ∀ (b : BankState) (bank : Nat), let lines := (bankCycle b bank).lines
      (granted b bank).length ≤ 2 ∧
      (∀ m r, promoted b bank = some m → bankAsk b m = some r → (granted b bank).head? = some r) ∧
      (∀ r ∈ b.waiting, r ∉ granted b bank → { r with stalled := r.stalled + 1 } ∈ (bankCycle b bank).waiting) ∧
      ∀ x y : BankReq, granted b bank = [x, y] → x.line = y.line → x.mask ≠ 0 →
        let old := aget b.lines x.line 0
        aget lines x.line 0 = mergeLine (if y.mask = 0 then old else mergeLine old y.data y.mask) x.data x.mask ∧
        (y.mask = 0 → (y.who, aget lines x.line 0) ∈ bankReads b bank)

/-- An express record takes the next SEQ at the log's head, a twin's record too, and READ_SEQ stores the SEQ
asked for. An express record that is staged is committed under the next sequence number; committed late, the log
is degraded. A record received from the twin is committed with FROM_TWIN. A READ_SEQ write that goes through
stores its value. Where the SRAM ring is not full yet, what was committed before stays below. (11 R257; 11 R258;
11 R260; 11 R261; 11 R263.) -/
def Obligations.CairnCommitsAndReads : Prop :=
  ∀ s : State,
    (∀ (block inst : Nat) (r : CRec), s.cairn.slots.find? (fun e => decide (e.1 = srcKey block inst)) =
        some (srcKey block inst, r) → expressSev r.severity = true →
      (Gives (.cairnExpressCommit block inst false) s fun t =>
        (∃ rest, t.cairn.log = { r with seq := fget s .cairnHeadNextSeq } :: rest ∧
          (fget s .cairnHeadNextSeq < ringRecords → rest = s.cairn.log)) ∧
        fget t .cairnHeadNextSeq = (fget s .cairnHeadNextSeq + 1) % 2 ^ 40) ∧
      (Gives (.cairnExpressCommit block inst true) s fun t => fget t .cairnStatusLogDegraded = 1)) ∧
    (∀ r : TwinRecord, twinUp s = true → Gives (.cairnStreamReceive r) s fun t =>
      (∃ rest, t.cairn.log = { twinRec r with seq := fget s .cairnHeadNextSeq } :: rest) ∧
      fget t .cairnHeadNextSeq = (fget s .cairnHeadNextSeq + 1) % 2 ^ 40) ∧
    (∀ (ses : Session) (seq : BitVec 40), sesUp s ses = true → s.fieldsFit = true →
      Writes s (.fm ses) .cairn 0 0x060 (wordWith s .cairn 0 0x060 [(.cairnReadSeqSeq, 0, seq.toNat)]) →
      Gives (.readSeqWrite ses seq) s fun t => fget t .cairnReadSeqSeq = seq.toNat)

/-- In SOLO-D a host read returns the stored line and a host write stores its 64 bytes and nothing else. For a
held private extent whose home serves with room in its queue: a read answers the line's bytes, or poison where
the line is poisoned; a full-line write stores exactly its 64 bytes, ends the line's poison and completes; a
partial write waits at its PC with memory unchanged; the merge of the one partial write that waits changes
exactly its line. (01 R14; 01 R15; 11 R247; 11 R251.) -/
def Obligations.HostReadsAndWritesReachMemory : Prop :=
  ∀ (s : State) (h : Head) (p : Part) (dpa : Nat) (e : Extent), s.memoriesWf = true → dpa % 64 = 0 →
    s.boot.tiered = false → twinUp s = false → homeSt s dpa = .serve → needsExpander s (blockOf dpa) = false →
    let pc := pcOfAddr dpa
    let line := dpa / 64
    let elsewhere := fun t : State => ∀ a, a < dpa ∨ dpa + 64 ≤ a → Memory.get t.mem a = Memory.get s.mem a
    (headOpen s h = true → headStop s h p = none → bRole s ≠ roleFenced → s.belay.deciding = false →
      heldExt s p dpa = some e → e.attr.sharing = 0 → (pcOf s pc).held = [] →
      queueRoom s pc (levelOf s (clusterOf dpa) (some p.val) (classOf s dpa)) (classOf s dpa) = true →
      (∀ mv, e.unreadable = false → (∀ x ∈ s.damage, x.1 ≠ line) →
        (∀ r ∈ (pcOf s pc).partials, lineOf r.dpa ≠ line) → lineUnsynced s line = false →
        (s.poison.contains line = false → Gives (.hostMemRead h p dpa mv []) s fun t =>
          (∃ load, .memRsp p h dpa (.data (lineData s line)) load ∈ t.out) ∧ t.mem = s.mem) ∧
        (s.poison.contains line = true → Gives (.hostMemRead h p dpa mv []) s fun t =>
          (∃ load, .memRsp p h dpa .poison load ∈ t.out) ∧ t.mem = s.mem)) ∧
      (∀ (d : Line) (mv : Meta), (∀ i, i < 64 → inWindow s p (dpa + i) = false) →
        (Gives (.hostMemWrite h p dpa d fullMask mv) s fun t =>
          (∀ k, k < 64 → Memory.get t.mem (dpa + k) = d.extractLsb' (8 * k) 8) ∧ elsewhere t ∧
          line ∉ t.poison ∧ ∃ load, .memRsp p h dpa .cmp load ∈ t.out) ∧
        (∀ mask, mask ≠ fullMask → Gives (.hostMemWrite h p dpa d mask mv) s fun t => t.mem = s.mem ∧
          (∃ r ∈ (pcOf t pc).partials, r.dpa = dpa ∧ r.data = d ∧ r.mask = mask) ∧
          ∃ load, .memRsp p h dpa .cmp load ∈ t.out))) ∧
    (∀ r : Req, (pcOf s pc).partials = [r] → r.dpa = dpa → (∀ x ∈ s.damage, x.1 ≠ line) →
      lineUnsynced s line = false →
      (s.poison.contains line = false → Gives (.partialWriteMerge dpa []) s fun t =>
        (∀ k, k < 64 → Memory.get t.mem (dpa + k) =
          if r.mask.getLsbD k then r.data.extractLsb' (8 * k) 8 else Memory.get s.mem (dpa + k)) ∧
        elsewhere t ∧ (pcOf t pc).partials = []) ∧
      (s.poison.contains line = true → Gives (.partialWriteMerge dpa []) s fun t =>
        t.mem = s.mem ∧ (pcOf t pc).partials = []))

/-- A host request that the head does not carry or the partition does not hold is answered without touching
memory. On an open head: for a partition the head does not carry, or for an unheld address where the head checks
pass, a read answers poison and a write completes with memory unchanged, UNHELD_ACCESS set for the latter; in a
fenced package a write completes and is dropped. A clean eviction completes, and the last sharer's entry goes.
(03 R57; 03 R64; 12 R285; 04 R84.) -/
def Obligations.UnservedHostRequestsAreAnswered : Prop :=
  ∀ (s : State) (h : Head) (p : Part) (dpa : Nat), headOpen s h = true → dpa % 64 = 0 →
    let answered := fun (t : State) (res : MemRes) => t.mem = s.mem ∧ ∃ load, .memRsp p h dpa res load ∈ t.out
    (carried s p h = false →
      (∀ mv upset, Gives (.hostMemRead h p dpa mv upset) s fun t => answered t .poison) ∧
      ∀ d mask mv, Gives (.hostMemWrite h p dpa d mask mv) s fun t => answered t .cmp) ∧
    (headStop s h p = none → s.belay.deciding = false → heldExt s p dpa = none →
      (forwardsAll s = false → ∀ mv upset, Gives (.hostMemRead h p dpa mv upset) s fun t =>
        answered t .poison ∧ Signalled t .partUnheldAccess p) ∧
      (bRole s ≠ roleFenced → ∀ d mask mv, Gives (.hostMemWrite h p dpa d mask mv) s fun t =>
        answered t .cmp ∧ Signalled t .partUnheldAccess p)) ∧
    (headStop s h p = none → bRole s = roleFenced → ∀ d mask mv, Gives (.hostMemWrite h p dpa d mask mv) s fun t =>
      answered t .cmp ∧ fget t .belayForwardStatsFencedWrites =
        min (fget s .belayForwardStatsFencedWrites + 1) (2 ^ 32 - 1)) ∧
    (Gives (.cleanEviction h p dpa) s fun t => answered t .cmp ∧ t.exts = s.exts) ∧
    (∀ (e : Extent) (d : DirEntry), carried s p h = true → forwardsAll s = false → heldExt s p dpa = some e →
      e.attr.sharing = 1 → biPending s (dpa / 64) = false →
      dirOf s (dpa / 64) = some d → d.coarse = none → d.sharers = [sharerId p h] → d.twin = [] →
      Gives (.cleanEviction h p dpa) s fun t => dirOf t (dpa / 64) = none)

/-- A BIRsp answers the snoop its sharer owes; BIConflict is acknowledged; BI_TIMEOUT counts, marks the head and
answers for it. A response over a link that is up takes its sharer out of the oldest snoop it owes; the last
response to a victim's snoop frees its buffer. BIConflict gets BIConflictAck and changes nothing else. A timeout
marks the head in BI_FAILED, sets BI_TIMEOUT for the partition and the device and takes the sharer out of what
is owed. Where the spec leaves a point open this rests on the reading of log 25. (04 R85; 04 R89.) -/
def Obligations.BackInvalidatesAreAnswered : Prop :=
  ∀ (s : State) (h : Head) (p : Part) (dpa : Nat) (x : DirTrans),
    let sh := sharerId p h
    let owed := fun x : DirTrans => decide (x.line = lineOf dpa) && x.owed.contains sh
    (linkUp s h = true → Gives (.biconflict h p dpa) s fun t =>
      t = { s with out := .biConflictAck p h (lineOf dpa) :: s.out }) ∧
    (s.trans.reverse.find? owed = some x → rem x.owed sh ≠ [] →
      (∀ resp, linkUp s h = true → Gives (.birsp h p dpa resp) s fun t =>
        t.trans = s.trans.map (fun y => if y = x then
          { x with owed := rem x.owed sh, keptS := if resp = .s then sh :: x.keptS else x.keptS,
                   keptE := if resp = .e then sh :: x.keptE else x.keptE } else y)) ∧
      (Gives (.biTimeout h p dpa) s fun t => (fget t .dirBiFailedHeads p).testBit h = true ∧
        Signalled t .dirBiTimeout p ∧ Signalled t .dirBiTimeout 16 ∧
        t.trans = s.trans.map (fun y => if y = x then { x with owed := rem x.owed sh } else y))) ∧
    (s.trans = [x] → x.line = lineOf dpa → x.owed = [sh] → x.victim = true → s.lineq = [] → linkUp s h = true →
      ∀ resp, Gives (.birsp h p dpa resp) s fun t => t.trans = [])

/-- Training, equalisation and lane failures, PERST#, retrain, disable and L1 set a head's link state and its
status fields. A CXL link that trains is in L0 with its rate (cut as R32 and R33 say) and width; one that is not
CXL is disabled with NOT_CXL. Three 128 GT/s failures within 1 s cap the head. Losing a link clears UP and,
except for a power rung, its sessions and streams; PERST# also resets partitions left without a link. Where the
spec leaves a point open this rests on the reading of logs 24, 25. (02 R29; 02 R30; 02 R33; 02 R34; 02 R37; 02
R51; 02 R55.) -/
def Obligations.LinksTrainAndGoDown : Prop :=
  ∀ (s : State) (h : Head),
    let down := fun (t : State) (st : Ltssm) => (headOf t h).ltssm = st ∧ fget t .portLinkStatusUp h = 0 ∧
      linkUp t h = false
    let quiet := fun t : State => ∀ x ∈ t.sessions, x.2.transport ≠ .head h
    (∀ (rate : Fin 7) (width : Nat) (flit partner : Bool), running s = true → (headOf s h).perst = false →
      s.portDiesOut.contains (h.val / 4) = false → fget s .portLinkCtrlDisable h = 0 →
      width ∈ [1, 2, 4, 8, 16] → (headOf s h).ltssm ≠ .disabled →
      (Gives (.linkTrained h rate width true flit partner) s fun t => linkUp t h = true ∧
        fget t .portLinkStatusUp h = 1 ∧ fget t .portLinkStatusWidth h = width ∧
        fget t .portLinkStatusRate h = rateOf s h rate flit partner) ∧
      (Gives (.linkTrained h rate width false flit partner) s fun t => linkUp t h = false ∧
        (headOf t h).ltssm = .disabled ∧ Signalled t .portNotCxl h ∧ .linkDisabled h ∈ t.out)) ∧
    ((headOf s h).perst = false → fget s .portLinkStatusCapped64 h = 0 →
      let l := (headOf s h).eqFails.filter fun a => decide (now s < a + 1000 * msCycles)
      Gives (.eqFail128 h) s fun t =>
        fget t .portLinkStatusCapped64 h = (if 2 ≤ l.length then 1 else 0) ∧
        (2 ≤ l.length → Signalled t .portCapped64 h) ∧ (headOf t h).eqFails = now s :: l) ∧
    (linkUp s h = true →
      (∀ lanes : BitVec 16, let w := widestWidth lanes.toNat (fget s .portLinkStatusWidth h)
        (w ≠ 0 → Gives (.laneFailure h lanes) s fun t => fget t .portLinkStatusLaneFail h = lanes.toNat ∧
          fget t .portLinkStatusWidth h = w ∧ linkUp t h = true ∧ .linkRetrain h ∈ t.out ∧
          (w < 16 → Signalled t .portWidthDegraded h)) ∧
        (w = 0 → Gives (.laneFailure h lanes) s fun t => down t .detect)) ∧
      (∀ unacked, (Gives (.linkDown h false unacked) s fun t => down t .detect ∧ quiet t ∧
          (headOf t h).secure = false) ∧
        Gives (.linkDown h true unacked) s fun t => down t .l1 ∧ t.sessions = s.sessions) ∧
      (Gives (.l1Entry h) s fun t => down t .l1 ∧ t.sessions = s.sessions) ∧
      (Gives (.perstAssert h) s fun t => down t .detect ∧ quiet t ∧ (headOf t h).perst = true ∧
        ∀ p : Part, carried s p h = true → (cfgOf s p).inReset = none →
          (∀ g ∈ boundHeads s p, g = h.val ∨ linkUp s g = false) → (cfgOf t p).inReset = some .flr)) ∧
    (Gives (.perstDeassert h) s fun t => (headOf t h).perst = false ∧ fget t .portLinkStatusCapped64 h = 0 ∧
      (running s = true → fget s .portLinkCtrlDisable h = 0 → (headOf t h).ltssm = .training)) ∧
    (∀ ses : Session, sesUp s ses = true → s.fieldsFit = true →
      (Writes s (.fm ses) .port h 0x050 (wordWith s .port h 0x050 [(.portLinkCtrlRetrain, 0, 1)]) →
        (headOf s h).perst = false → fget s .portLinkCtrlDisable h = 0 → running s = true →
        Gives (.retrain ses h) s fun t => .linkRetrain h ∈ t.out ∧
          (linkUp s h = false → (headOf t h).ltssm = .training) ∧ (linkUp s h = true → linkUp t h = true)) ∧
      (Writes s (.fm ses) .port h 0x050 (wordWith s .port h 0x050 [(.portLinkCtrlDisable, 0, 1)]) →
        fget s .portLinkCtrlDisable h = 0 → Gives (.disable ses h true) s fun t =>
          fget t .portLinkCtrlDisable h = 1 ∧ (headOf t h).ltssm = .disabled ∧ .linkDisabled h ∈ t.out) ∧
      (Writes s (.fm ses) .port h 0x050 (wordWith s .port h 0x050 [(.portLinkCtrlDisable, 0, 0)]) →
        fget s .portLinkCtrlDisable h = 1 → (headOf s h).ltssm = .disabled → (headOf s h).perst = false →
        Gives (.disable ses h false) s fun t => fget t .portLinkCtrlDisable h = 0 ∧
          (headOf t h).ltssm = .training))

/-- Link errors, TLP errors and viral are logged and answered as Table 2.9 and R53 say. A correctable link error
is logged for the fabric-manager logical device, except a CXL.mem CRC error, which marks the head's CXL RAS;
unless masked its message goes; receiver errors and replays also count. A TLP error over a link that is up is
logged for its partition or head and answered or followed by a retrain. Received viral only counts. Where the
spec leaves a point open this rests on the reading of log 59. (02 R52; 02 R53; 02 R54.) -/
def Obligations.LinkErrorsAreLogged : Prop :=
  ∀ (s : State) (h : Head) (p : Part),
    (Gives (.linkError h .cxlMemCrc) s fun t => (headOf t h).cxlRas = true ∧ t.out = s.out) ∧
    (∀ k : LinkErr, k ≠ .cxlMemCrc → Gives (.linkError h k) s fun t => .aer 16 h (.linkCorrectable k) ∈ t.out ∧
      (aerMasked (cfgOf s 16) (.linkCorrectable k) = false → .errMsg 16 h 0 ∈ t.out) ∧
      fget t .portErrCountRxErr h = (if k = .receiverError then
        min (fget s .portErrCountRxErr h + 1) (2 ^ Fld.portErrCountRxErr.desc.w - 1) else fget s .portErrCountRxErr h) ∧
      fget t .portErrCountReplays h = (if k = .replay then
        min (fget s .portErrCountReplays h + 1) (2 ^ Fld.portErrCountReplays.desc.w - 1)
        else fget s .portErrCountReplays h)) ∧
    (linkUp s h = true →
      (Gives (.tlpError h .unsupportedNonPosted p) s fun t =>
        .aer p h .unsupportedRequestAdvisory ∈ t.out ∧ .ioUnsupported p h ∈ t.out) ∧
      (Gives (.tlpError h .unsupportedPosted p) s fun t => .aer p h .unsupportedRequestPosted ∈ t.out) ∧
      (Gives (.tlpError h .unexpectedLd p) s fun t => .aer 16 h .unsupportedRequestAdvisory ∈ t.out ∧
        .ioUnsupported p h ∈ t.out) ∧
      ∀ k : TlpErr, k ≠ .unsupportedNonPosted → k ≠ .unsupportedPosted → k ≠ .unexpectedLd →
        Gives (.tlpError h k p) s fun t => .linkRetrain h ∈ t.out ∧ ∃ o, .aer o h (.fatal k) ∈ t.out) ∧
    (Gives (.viralReceived h) s fun t => t.hdr = s.hdr ∧ t.out = s.out ∧
      fget t .rasPoisonViralIgnored =
        min (fget s .rasPoisonViralIgnored + 1) (2 ^ Fld.rasPoisonViralIgnored.desc.w - 1))

/-- Configuration writes, Bus Master Enable, MSI-X masks, HDM decoders and event-log commands change what they
name. Through a head that carries a partition not in reset: each configuration field takes its value (Link
Control with bit 0, the L0s enable, 0: its place is PRESUMED, log 86), AER status bits written as 1 clear, and
Bus Master Enable clears or sets. In reset the request is asked to retry and nothing changes. Unmasking a vector
sends its pending message. Through an open window: a committed decoder is stored, the oldest records of a log
go, and an event log's vector is set or cleared. Where the spec leaves a point open this rests on the reading of
logs 7, 30. (02 R36; 02 R44; 02 R49; 02 R50; 02 R54; 03 R65; 04 R83.) -/
def Obligations.ConfigurationWritesTakeEffect : Prop :=
  ∀ (s : State) (h : Head) (p : Part),
    (cfgOpen s h p = true → (cfgOf s p).inReset = none →
      (∀ v : Nat, let on := decide (v % 2 = 1)
        (Gives (.configWrite h p .memorySpaceEnable v) s fun t => (cfgOf t p).mse = on) ∧
        (Gives (.configWrite h p .enableRelaxedOrdering v) s fun t => (cfgOf t p).ro = on) ∧
        (Gives (.configWrite h p .romEnable v) s fun t => (cfgOf t p).romEn = on) ∧
        (Gives (.configWrite h p .tag10Enable v) s fun t => (cfgOf t p).tag10 = on) ∧
        (Gives (.configWrite h p .tag14Enable v) s fun t => (cfgOf t p).tag14 = on) ∧
        (Gives (.configWrite h p .functionMask v) s fun t => (cfgOf t p).funcMask = on) ∧
        (Gives (.configWrite h p .cxlResetMemClrEnable v) s fun t => (cfgOf t p).memClr = on) ∧
        (Gives (.configWrite h p .completionTimeoutUs v) s fun t => (cfgOf t p).cplTimeoutUs = v) ∧
        (Gives (.configWrite h p .linkControl v) s fun t => (headOf t h).linkControl = v / 2 * 2) ∧
        (Gives (.configWrite h p .linkControl2 v) s fun t => (headOf t h).linkControl2 = v) ∧
        (Gives (.configWrite h p .flexBusControl v) s fun t => (headOf t h).flexBus = v) ∧
        (Gives (.configWrite h p .powerState v) s fun t => (cfgOf t p).d3hot = decide (v % 4 = 3)) ∧
        (Gives (.configWrite h p .aerUncMask v) s fun t => (cfgOf t p).aerUncMask = BitVec.ofNat 32 v) ∧
        (Gives (.configWrite h p .aerUncSeverity v) s fun t => (cfgOf t p).aerUncSev = BitVec.ofNat 32 v) ∧
        (Gives (.configWrite h p .aerCorMask v) s fun t => (cfgOf t p).aerCorMask = BitVec.ofNat 32 v) ∧
        (Gives (.configWrite h p .aerUncStatus v) s fun t => ∀ e ∈ (cfgOf t p).aer, ∀ b, uncBit e = some b →
          v.testBit b = false) ∧
        (Gives (.configWrite h p .aerCorStatus v) s fun t => ∀ e ∈ (cfgOf t p).aer, uncBit e = none →
          ∀ b, corBit e = some b → v.testBit b = false) ∧
        ∀ off, Gives (.configWrite h p (.other off) v) s fun t => aget (cfgOf t p).other off 0 = v) ∧
      (Gives (.busMasterEnableClear h p) s fun t => (cfgOf t p).bme = false) ∧
      (Gives (.busMasterEnableSet h p) s fun t => (cfgOf t p).bme = true)) ∧
    (cfgOpen s h p = true → (cfgOf s p).inReset ≠ none → ∀ f v, Gives (.configWrite h p f v) s fun t =>
      t.out = .ioRetry p h :: s.out ∧ t.cfgs = s.cfgs) ∧
    (∀ vec : Fin 256, (cfgOf s p).inReset = none → Gives (.msixUnmask p vec) s fun t =>
      (msixOf t p vec).masked = false ∧
      ((msixOf s p vec).pending = true → canMaster s p = true → (cfgOf s p).funcMask = false →
        (msixOf t p vec).pending = false ∧
        ∃ hd, .msix p hd vec (msixOf s p vec).addr (msixOf s p vec).data ∈ t.out)) ∧
    (ioOpen s h p = true →
      (∀ base len bi, Gives (.hdmDecoderCommit h p base len bi) s fun t =>
        aget (t.hdms.map fun x => (x.1, some x.2)) (sharerId p h) none = some ⟨base, len, bi⟩) ∧
      (∀ n, (Gives (.clearEventRecords h p .dynamicCapacity n) s fun t =>
          (cfgOf t p).logDc = (cfgOf s p).logDc.take ((cfgOf s p).logDc.length - n)) ∧
        (Gives (.clearEventRecords h p .failure n) s fun t => (cfgOf t p).logFail = (cfgOf s p).logFail - n) ∧
        (Gives (.clearEventRecords h p .informational n) s fun t => (cfgOf t p).logInfo = (cfgOf s p).logInfo - n) ∧
        (Gives (.clearEventRecords h p .warning n) s fun t => (cfgOf t p).logWarn = (cfgOf s p).logWarn - n) ∧
        Gives (.clearEventRecords h p .fatal n) s fun t => (cfgOf t p).logFatal = (cfgOf s p).logFatal - n) ∧
      (∀ log : EvLog,
        (∀ v : Fin 256, Gives (.setEventInterruptPolicy h p log (some v)) s fun t =>
          aget (cfgOf t p).evVector (evLogNum log) 256 = v.val) ∧
        Gives (.setEventInterruptPolicy h p log none) s fun t => ahas (cfgOf t p).evVector (evLogNum log) = false))

/-- FLR and CXL Reset start, and their completion leaves the partition's functions at reset. Through an open
configuration space FLR and CXL Reset put the partition in reset. Completed, FLR leaves Bus Master and Memory
Space Enable off, no MSI-X entries, no jobs, rings or hints of the partition. A completed CXL Reset does too,
clears BI_FAILED and renewals, ends reclaimable holdings, and makes an enabled partition ACTIVE with a full
lease. (02 R50; 02 R51; 02 Table 2.8; 03 R76.) -/
def Obligations.PartitionResetsClearAndRestore : Prop :=
  ∀ (s : State) (h : Head) (p : Part),
    (cfgOpen s h p = true → (cfgOf s p).inReset = none →
      (Gives (.flr h p) s fun t => (cfgOf t p).inReset = some .flr) ∧
      Gives (.cxlReset h p) s fun t => (cfgOf t p).inReset = some .cxl) ∧
    let clear := fun t : State => (cfgOf t p).inReset = none ∧ (cfgOf t p).bme = false ∧ (cfgOf t p).mse = false ∧
      ahas t.hints p.val = false ∧ (∀ j ∈ t.jobs, j.p = p → j.foreign = true) ∧
      ∀ k : Ring, fget t .jobRingCtrlEnable p k = 0
    ((cfgOf s p).inReset = some .flr → Gives (.flrComplete p) s fun t => clear t ∧ (cfgOf t p).msix = [] ∧
      (cfgOf t p).tagLimit = ({} : PartCfg).tagLimit) ∧
    ((cfgOf s p).inReset = some .cxl → Gives (.cxlResetComplete p) s fun t => clear t ∧
      fget t .dirBiFailedHeads p = 0 ∧ fget t .partLeaseRenewals p = 0 ∧
      (∀ e ∈ t.exts, holderSt e p ≠ some .reclaimable) ∧
      (pState s p ≠ pDisabled → pState t p = pActive ∧
        (partOf t p).leaseExpiry = now s + fget s .partCfgLeaseMs p * 100000))

/-- Completions and timeouts of bus-master reads serve or end what their tag was for. For a tag that is held and
not discarded: staged bytes are appended to their job's operand, an error or a timeout fails the job with its
status or halts the ring that fetched; a discarded tag's completion changes no job and no hint. A completion for
no held tag is logged as Unexpected Completion. A hint fetch brings its entry or halts the hint ring. (02 R47;
02 R48; 05 R105; 07 R159.) -/
def Obligations.CompletionsServeTheirTags : Prop :=
  ∀ (s : State) (p : Part),
    (∀ (tag : Nat) (cpl : Cpl), heldTag s p tag = none → Gives (.completionReceived p tag cpl) s fun t =>
      (∃ h, .aer p h .unexpectedCompletion ∈ t.out) ∧ (cfgOf t p).tags = (cfgOf s p).tags ∧ t.jobs = s.jobs) ∧
    (∀ (tag : Nat) (x : Tag), heldTag s p tag = some x →
      (x.discard = true → ∀ cpl, Gives (.completionReceived p tag cpl) s fun t =>
        t.jobs = s.jobs ∧ t.hints = s.hints) ∧
      (x.discard = false →
        (∀ ring idx slot j, x.use = .staging ring idx slot → jobOf s p ring idx = some j →
          (∀ data, Gives (.completionReceived p tag (.ok data)) s fun t => ∃ j', jobOf t p ring idx = some j' ∧
            stagedOf j' slot = stagedOf j slot ++ data) ∧
          (j.status = 0 → j.p = p ∧ j.ring = ring ∧ j.idx = idx →
            (Gives (.completionReceived p tag .unsupportedRequest) s fun t => ∃ j', jobOf t p ring idx = some j' ∧
              j'.status = stHostAbort) ∧
            (Gives (.completionReceived p tag .poisoned) s fun t => ∃ j', jobOf t p ring idx = some j' ∧
              j'.status = stHostPoison) ∧
            Gives (.completionTimeout p tag) s fun t => (∃ j', jobOf t p ring idx = some j' ∧
              j'.status = stHostTimeout) ∧ ∃ h, .aer p h .completionTimeout ∈ t.out)) ∧
        (∀ ring, x.use = .descriptor ring → Gives (.completionTimeout p tag) s fun t =>
          fget t .jobRingStatusHalted p ring = 1 ∧ fget t .jobRingStatusCause p ring = haltFetch ∧
          fget t .jobRingStatusHaltStatus p ring = stHostTimeout) ∧
        (x.use = .hint → Gives (.completionTimeout p tag) s fun t => fget t .tierHintCtrlHalted p = 1 ∧
          fget t .tierHintCtrlCause p = haltFetch))) ∧
    (∀ x : Tag, (cfgOf s p).tags.find? (fun t => decide (t.use = .hint) && !t.discard) = some x →
      (∀ data, hintsOf s p = [] →
        (hintBad (hintEntryOf data) = false → Gives (.hintFetchDone p (.ok data)) s fun t =>
          hintsOf t p = [hintEntryOf data]) ∧
        (hintBad (hintEntryOf data) = true → Gives (.hintFetchDone p (.ok data)) s fun t =>
          hintsOf t p = [] ∧ fget t .tierHintConsConsumer p = (fget s .tierHintConsConsumer p + 1) % 2 ^ 32)) ∧
      Gives (.hintFetchDone p .completerAbort) s fun t => fget t .tierHintCtrlHalted p = 1 ∧
        fget t .tierHintCtrlCause p = haltFetch)

/-- Doorbells, descriptor fetches and RING_ENABLE drive the job rings. Through an open window a doorbell of a
running ring sets PRODUCER, or halts it with INDEX_OVERRUN. A fetch turns a good descriptor into a job of the
next index; a failed one halts the ring with FETCH_ERROR. Enabling starts a ring with a clear status; disabling
drops what is fetched and cancels what runs. Where the spec leaves a point open this rests on the reading of log
48. (07 R156; 07 R157; 07 R159; 07 R160.) -/
def Obligations.RingsFetchAndHalt : Prop :=
  ∀ (s : State) (h : Head) (p : Part) (ring : Ring),
    (ioOpen s h p = true → ringOn s p ring = true → ∀ (n : BitVec 32) (relaxed : Bool),
      let gap := (n.toNat + 2 ^ 32 - (ringOf s p ring).consumed) % 2 ^ 32
      (gap ≤ ringSize s p ring → Gives (.doorbell h p ring n relaxed) s fun t =>
        (ringOf t p ring).producer = n.toNat) ∧
      (ringSize s p ring < gap → Gives (.doorbell h p ring n relaxed) s fun t =>
        fget t .jobRingStatusHalted p ring = 1 ∧ fget t .jobRingStatusCause p ring = haltOverrun ∧
        Signalled t .jobRingHalted p)) ∧
    ((ringOf s p ring).fetching = true → ringOn s p ring = true →
      (fget s .jobRingCtrlHost p ring = 1 → ∀ data, ¬(bRole s = roleSecond ∧ twinUp s = true) →
        let bs := (data ++ List.replicate 128 0).take 128
        descStatus bs = stOk → Gives (.descriptorFetch p ring (.ok data)) s fun t =>
          (ringOf t p ring).fetched = ((ringOf s p ring).fetched + 1) % 2 ^ 32 ∧
          ∃ j ∈ t.jobs, j.p = p ∧ j.ring = ring ∧ j.idx = (ringOf s p ring).fetched ∧ j.desc = descOf bs ∧
            j.st = .fetched ∧ j.status = 0) ∧
      (fget s .jobRingCtrlHost p ring = 1 → Gives (.descriptorFetch p ring .unsupportedRequest) s fun t =>
        fget t .jobRingStatusHalted p ring = 1 ∧ fget t .jobRingStatusCause p ring = haltFetch ∧
        fget t .jobRingStatusHaltStatus p ring = stHostAbort)) ∧
    (ioOpen s h p = true → s.fieldsFit = true → ∀ on : Bool,
      Writes s (.host p h) .job p (0x108 + 32 * ring.val)
        (wordWith s .job p (0x108 + 32 * ring.val) [(.jobRingCtrlEnable, ring.val, flag on)]) →
      (on = true → fget s .jobRingCtrlEnable p ring = 0 → Gives (.ringEnable h p ring true) s fun t =>
        fget t .jobRingCtrlEnable p ring = 1 ∧ fget t .jobRingStatusHalted p ring = 0 ∧
        fget t .jobRingStatusCause p ring = 0 ∧ ringOf t p ring = {}) ∧
      (on = false → fget s .jobRingCtrlEnable p ring = 1 → Gives (.ringEnable h p ring false) s fun t =>
        fget t .jobRingCtrlEnable p ring = 0 ∧
        ∀ j ∈ ringJobs t p ring, j.st = .running ∧ j.status ≠ 0))

/-- A job that may start runs; one whose steps have ended leaves with its counter and its completion record. A
fetched job that may start is running, failed with FENCED only where a fenced package would write device memory.
A job whose steps have all ended and whose writes are accepted leaves the ring and, unless the twin sent it,
counts as completed and writes its status word to its completion address; one whose partition's work has ended
leaves without a record. Where the spec leaves a point open this rests on the reading of log 48. (07 R158; 07
R164; 12 R285.) -/
def Obligations.JobsStartAndComplete : Prop :=
  ∀ (s : State) (p : Part) (ring : Ring) (idx : Nat) (j : Job), jobOf s p ring idx = some j →
    (mayStart s j = true → Gives (.jobStart p ring idx) s fun t => ∃ j', jobOf t p ring idx = some j' ∧
      j'.st = .running ∧ j'.desc = j.desc ∧
      j'.status = (if bRole s = roleFenced ∧ writesDevice j.desc = true then stFenced else 0)) ∧
    (jobEnds s j = true → Gives (.jobComplete p ring idx) s fun t => jobOf t p ring idx = none ∧
      (∀ x ∈ t.steps, ¬(x.p = p ∧ x.ring = ring ∧ x.idx = idx)) ∧
      (j.ending = true → t.out = s.out) ∧
      (j.foreign = false → j.ending = false →
        fget t .jobStatsCompleted p = min (fget s .jobStatsCompleted p + 1) (2 ^ 32 - 1) ∧
        (j.desc.completion ≠ 0 → ∃ h, .busWrite p h (j.desc.completion + 24)
          (leBytes 8 (statusWord s j (if j.status ≠ 0 then j.status else (j.outcome.getD {}).status)
            (j.flags ||| (j.outcome.getD {}).flags))) false ∈ t.out)))

/-- Steps are cut and placed, start, park, resume, overrun, trip the watchdog, commit and are stolen. A cut step
takes the next bytes of its job on a core of its home cluster; an idle core starts the head of its deque with
its buffers, parking it at a wait; a waiting or parked step resumes once its wait is over; an overrun sets
OVERRUN; a first watchdog trip requeues the step on another core, a second cancels its job; a commit sends its
host writes and ends the step, or leaves it until its writes are accepted; an idle core steals half a
neighbour's steps. Where the spec leaves a point open this rests on the reading of logs 3, 52. (08 R191; 08
R192; 08 R194; 08 R195; 08 R196; 08 R197; 08 R198; 08 R201.) -/
def Obligations.StepsRunThroughTheirLives : Prop :=
  ∀ (s : State) (p : Part) (ring : Ring) (idx n : Nat),
    (∀ (j : Job) (c : Cluster) (core : Nat) (remoteOk : Bool), jobOf s p ring idx = some j → j.st = .running →
      j.status = 0 → j.cut < jobWork j → (∀ x ∈ s.steps, x.st ≠ .unplaced) →
      let home := stepHome s j j.cut c
      clusterOut s home = false → placeCore s home = some core → Gives (.stepGenerate p ring idx [c] remoteOk) s fun t =>
        ∃ x, t.steps = s.steps ++ [x] ∧ x.num = j.nextStep ∧ x.lo = j.cut ∧ x.home = home ∧ x.core = core ∧
          x.st = .queued ∧ x.remoteOk = remoteOk ∧
          x.hi = min (jobWork j) (j.cut + max 1 (min (min j.stepSize (stepMaxBytes s)) (stepReach s j j.cut remoteOk)))) ∧
    (∀ (core gran : Nat) (x : Step) (rest : List Step) (j : Job), core < 10240 → coreIdle s core = true →
      clusterOut s (coreCluster core) = false → fget s .pwrStatusRung = 0 → deque s core = x :: rest →
      jobOfStep s x = some j → j.status = 0 → jobWait s j = none →
      granUsed s (coreGroup core) + (if x.resumable then 0 else min (max 1 gran) stepGranules) ≤ groupGranules →
      (Gives (.stepStart core gran none) s fun t => ∃ y ∈ t.steps, sameStep x y = true ∧ y.st = .running) ∧
      ∀ c, Gives (.stepStart core gran (some c)) s fun t => ∃ y ∈ t.steps, sameStep x y = true ∧
        (y.st = .parked ∨ y.st = .waiting) ∧ y.cause = some c) ∧
    (∀ x, stepAt s p ring idx n = some x →
      ((jobOfStep s x).bind (jobWait s) = none →
        (x.st = .waiting → Gives (.stepResume p ring idx n) s fun t =>
          ∃ y ∈ t.steps, sameStep x y = true ∧ y.st = .running) ∧
        (x.st = .parked → (deque s x.core).length < 64 → Gives (.stepResume p ring idx n) s fun t =>
          ∃ y ∈ t.steps, sameStep x y = true ∧ y.st = .queued ∧ y.resumable = true)) ∧
      (x.st = .running ∨ x.st = .waiting → x.overrun = false → Gives (.stepOverrun p ring idx n) s fun t =>
        Signalled t .jobOverrun x.p ∧ ∃ y ∈ t.steps, sameStep x y = true ∧ y.overrun = true) ∧
      (x.st = .running ∨ x.st = .waiting →
        (x.trips = 0 → Gives (.watchdogTrip p ring idx n) s fun t =>
          aget t.coreTrips x.core 0 = aget s.coreTrips x.core 0 + 1 ∧
          ∃ y ∈ t.steps, sameStep x y = true ∧ y.trips = 1 ∧ y.granules = 0 ∧
            (y.st = .unplaced ∨ (y.st = .queued ∧ y.core ≠ x.core ∧
              (clusterOut s x.home = false → coreCluster y.core = x.home)))) ∧
        ∀ j, 1 ≤ x.trips → jobOfStep s x = some j → Gives (.watchdogTrip p ring idx n) s fun t =>
          (∃ j', jobOfStep t x = some j' ∧ j'.status ≠ 0) ∧
          ∀ y ∈ t.steps, sameStep x y = false ∧ (isStepOf j y = true → stepOnCore y = true)) ∧
      (∀ (j : Job) (quick : Bool), x.st = .running → jobOf s p ring idx = some j →
        let left := fun t : State => ∀ y ∈ t.steps, sameStep x y = true → y.st = .committing
        (bRole s = roleFenced → writesDevice j.desc = true → Gives (.stepCommit p ring idx n quick) s fun t =>
          (∀ y ∈ t.steps, sameStep x y = false) ∧ t.out = s.out) ∧
        (¬(bRole s = roleFenced ∧ writesDevice j.desc = true) → s.belay.deciding = false →
          (j.status ≠ 0 → Gives (.stepCommit p ring idx n quick) s left) ∧
          (j.status = 0 → j.outcome.isSome = true → (j.twin && twinUp s) = false → commitWaits s j x = none →
            Gives (.stepCommit p ring idx n quick) s fun t => left t ∧
              (j.foreign = false → (∀ w ∈ stepWrites j x, w.host = true) → ∀ w ∈ stepWrites j x,
                ∃ h, .busWrite p h w.addr w.bytes (roOn s p) ∈ t.out))))) ∧
    (∀ core victim : Nat, core < 10240 → coreIdle s core = true → deque s core = [] →
      clusterOut s (coreCluster core) = false → fcur s .pitchSchedCfgStealEn ≠ 1 →
      fcur s .pitchSchedCfgNeighEn = 1 → neighbourVictim s core = some victim → Gives (.steal core) s fun t =>
        deque t core = ((stealable s victim core).drop ((stealable s victim core).length / 2)).map
          fun x => { x with core := core })

/-- Each operator of the catalogue, once its operands are there, leaves its job the kernel's result; compression
control counts its blocks. For a running job of the operator with no result yet, window checks passed, MAP's
program accepted and every operand range asked for and delivered, the command leaves the job the outcome of that
operator's kernel on those bytes: what its steps will write, RESULT0, RESULT1, status and flags. COMPACT, EXPAND
and VERIFY leave their block counts. Where the spec leaves a point open this rests on the reading of logs 12,
49, 50, 51. (07 R170; 07 R171; 07 R172; 07 R173; 07 R174; 07 R175; 07 R176; 07 R179; 07 R180; 07 R181; 07 R182;
07 R184.) -/
def Obligations.OperatorsComputeTheirResults : Prop :=
  ∀ (s : State) (p : Part) (ring : Ring) (idx : Nat) (j : Job), jobOf s p ring idx = some j → j.st = .running →
    j.outcome = none → j.status = 0 → j.p = p → j.ring = ring → j.idx = idx →
    let rs := neighborRange j ++ inRanges s j
    let w := windowOf s j.p (bitsAt j.desc.p0 0 8)
    let rd : Nat → List Byte := fun k => match rs.find? fun r => decide (r.slot = k) with
      | some r => rangeBytes j r
      | none => []
    let x : KIn := { rd := rd, fr := fun i => Config.freeValue (s.free + i), win := w.map fun w => ⟨w.n, w.e, rd 7⟩ }
    let ready := windowStatus s j = stOk ∧ mapStops s j = none ∧
      hitsNeighbours j.desc ((neighborRange j).map (·.size)).sum = false ∧ ∀ r ∈ rs, (r.host = true → r.size ≤ (stagedOf j r.slot).length) ∧
      (r.host = false → ∀ l ∈ rangeLines r, l ∈ j.asked ∧ ahas j.got l = true)
    let gives := fun (c : Instr) (op : Nat) (k : Desc → KIn → KOut) => j.desc.opcode = op → ready →
      Gives c s fun t => ∃ j', jobOf t p ring idx = some j' ∧ j'.outcome = some
        { writes := outWrites j.desc w (k j.desc x), result0 := (k j.desc x).r0, result1 := (k j.desc x).r1,
          status := (k j.desc x).status, flags := (k j.desc x).flags, adds := (k j.desc x).adds }
    gives (.fill p ring idx) 0x01 kFill ∧ gives (.copy p ring idx) 0x02 kCopy ∧
    gives (.gather p ring idx) 0x03 kGather ∧ gives (.scatter p ring idx) 0x04 kScatter ∧
    gives (.compare p ring idx) 0x10 kCompare ∧ gives (.search p ring idx) 0x11 kSearch ∧
    gives (.hashBuild p ring idx) 0x12 kHashBuild ∧ gives (.hashProbe p ring idx) 0x13 kHashProbe ∧
    gives (.intersect p ring idx) 0x20 (kSet 0) ∧ gives (.union p ring idx) 0x21 (kSet 1) ∧
    gives (.difference p ring idx) 0x22 (kSet 2) ∧ gives (.count p ring idx) 0x23 kCount ∧
    gives (.dedup p ring idx) 0x24 kDedup ∧ gives (.sort p ring idx) 0x25 kSort ∧
    gives (.neighborGather p ring idx) 0x30 kNeighbor ∧ gives (.bitmap p ring idx) 0x31 kBitmap ∧
    gives (.reduce p ring idx) 0x40 kReduce ∧ gives (.segmentReduce p ring idx) 0x41 kSegment ∧
    gives (.windowOpen p ring idx) 0x42 kWinOpen ∧ gives (.accumulate p ring idx) 0x43 kAccumulate ∧
    gives (.windowCommit p ring idx) 0x44 kWinCommit ∧ gives (.map p ring idx) 0x50 kMap ∧
    (blocksFail s j = none →
      let count := fun (c : Instr) (a b : Nat) => Gives c s fun t => ∃ j', jobOf t p ring idx = some j' ∧
        j'.outcome = some { result0 := a, result1 := b }
      (j.desc.opcode = 0x60 → secondUp s = false →
        (j.asked ≠ [] → (∀ b ∈ j.asked, b ∉ s.compactQ) → count (.compact p ring idx)
          (j.asked.filter (isCoded s)).length (j.asked.filter fun b => !isCoded s b).length) ∧
        (j.asked = [] → (jobBlocks s j).filter (mayCode s) = [] → count (.compact p ring idx) 0 0)) ∧
      (j.desc.opcode = 0x61 → secondUp s = false →
        let bs := blocksOf j ((jobBlocks s j).filter fun b => mayCode s b && isCoded s b)
        blocksServe s bs = true → (∀ b ∈ bs, isCoded (bs.foldl expandOne (takeBlocks s j bs)) b = false) →
        count (.expand p ring idx) bs.length 0) ∧
      (j.desc.opcode = 0x62 → j.asked = [] → twinUp s = false →
        let bs := (jobBlocks s j).filter (isCoded s)
        blocksServe s bs = true → count (.verify p ring idx) (bs.foldl verifyOne (s, [])).2.length 0))

/-- INTERSECT, UNION and DIFFERENCE of ascending lists are ascending and hold exactly the ids of Table 7.8. For
two strictly ascending id lists the set kernels' output is strictly ascending and holds an id exactly where A
and B both do, either does, or A does and B does not. A list is accepted as sorted exactly where each id is
below the next. (07 R174; 07 R175.) -/
def Obligations.SetOperatorsAreExact : Prop :=
  (∀ l : List Nat, sortedPrefix true l = l.length ↔ l.Pairwise (· < ·)) ∧
  ∀ a b : List Nat, a.Pairwise (· < ·) → b.Pairwise (· < ·) →
    (∀ k, (setOp k a b).Pairwise (· < ·)) ∧
    ∀ v, (v ∈ setOp 0 a b ↔ v ∈ a ∧ v ∈ b) ∧ (v ∈ setOp 1 a b ↔ v ∈ a ∨ v ∈ b) ∧
      (v ∈ setOp 2 a b ↔ v ∈ a ∧ v ∉ b)

/-- SORT writes a stable reordering of its keys, ascending or descending. The order of SORT is a permutation of
the N positions; keys do not decrease (increase, with DESCENDING) along it, and positions of equal keys keep
their order. (07 R174.) -/
def Obligations.SortIsStable : Prop :=
  ∀ (key : Nat → Int) (desc : Bool) (n : Nat),
    let le := fun i j => if desc then decide (key j ≤ key i) else decide (key i ≤ key j)
    let order := (List.range n).foldr (stableInsert le) []
    order.Perm (List.range n) ∧
    order.Pairwise fun i j => (if desc then key j ≤ key i else key i ≤ key j) ∧ (key i = key j → i < j)

/-- The long form of a sum does not depend on the order or the grouping of its addends. Adding the same values
in any order gives the same long form, and joining the long forms of two parts gives that of the whole: every
reduction is exact until its one rounding. (07 R177; 07 R178.) -/
def Obligations.SumsDoNotDependOnOrder : Prop :=
  (∀ a b : List FV, a.Perm b → a.foldl longAdd {} = b.foldl longAdd {}) ∧
  ∀ a b : List FV, (a ++ b).foldl longAdd {} = longJoin (a.foldl longAdd {}) (b.foldl longAdd {})

/-- Equal digests commit a twin step, different ones rerun it and the third mismatch ends its job. A digest that
comes before the package's own is kept; equal to the package's own it commits the step; different it reruns the
step with RERUN set, and at the third mismatch ends its job. A digest missing for WATCHDOG pitches counts as
different. Where the spec leaves a point open this rests on the reading of log 54. (12 R278.) -/
def Obligations.DigestsDecideTwinSteps : Prop :=
  ∀ (s : State) (seq n : Nat) (x : Step), stepOfSeq s seq n = some x →
    let reruns := fun t : State => Signalled t .jobRerun x.p ∧
      ∃ y ∈ t.steps, sameStep x y = true ∧ (y.st = .queued ∨ y.st = .unplaced) ∧
        y.mismatches = x.mismatches + 1 ∧ y.digest = none
    let ends := fun t : State => ∀ j, jobOfStep s x = some j → (∃ j', jobOfStep t x = some j' ∧ j'.status ≠ 0) ∧
      ∀ y ∈ t.steps, sameStep x y = false ∧ (isStepOf j y = true → stepOnCore y = true)
    (∀ d : W64, x.digest = none → Gives (.digestReceived seq n d) s fun t =>
      ∃ y ∈ t.steps, sameStep x y = true ∧ y.twinDigest = some d) ∧
    (∀ own, x.digest = some own → x.st = .finished →
      (Gives (.digestReceived seq n own) s fun t => ∀ y ∈ t.steps, sameStep x y = true → y.st = .committing) ∧
      ∀ d, d ≠ own →
        (x.mismatches < 2 → Gives (.digestReceived seq n d) s reruns) ∧
        (2 ≤ x.mismatches → Gives (.digestReceived seq n d) s ends)) ∧
    (x.st = .finished → fcur s .pitchSchedCfgWatchdog ≤ count s - x.waitPitch →
      (x.mismatches < 2 → Gives (.digestTimeout seq n) s reruns) ∧
      (2 ≤ x.mismatches → Gives (.digestTimeout seq n) s ends))

/-- A renewal in time renews, a late one is counted, an expired lease orphans the partition, and a binding takes
effect. A host write of RENEW that goes through sets the expiry to now plus LEASE_MS and counts, late it only
counts in LATE_RENEW, and a RECLAIMED partition keeps both counts. LEASE_LOW comes below a quarter. Alone, an
expired lease makes the partition ORPHANED, EXPIRED, unheld, without offers, with its record; with a twin the
lead journals it. Alone, a pending binding sets HEADS, enables a disabled partition with a full lease, and
disables one left without heads. Where the spec leaves a point open this rests on the reading of logs 20, 21.
(03 R57; 03 R70; 03 R71; 03 R72; 03 R76; 03 Table 3.4.) -/
def Obligations.LeasesAndBindingsTakeEffect : Prop :=
  ∀ (s : State) (p : Part),
    (∀ h : Head, ioOpen s h p = true →
      Writes s (.host p h) .part p 0x048 (wordWith s .part p 0x048 [(.partLeaseRenew, 0, 1)]) →
      (pState s p = pActive → leaseOver s p = false → Gives (.leaseRenew h p) s fun t =>
        (partOf t p).leaseExpiry = now s + fget s .partCfgLeaseMs p * 100000 ∧
        fget t .partLeaseRenewals p = min (fget s .partLeaseRenewals p + 1) (2 ^ Fld.partLeaseRenewals.desc.w - 1)) ∧
      (pState s p = pOrphaned ∨ (pState s p = pActive ∧ leaseOver s p = true) →
        Gives (.leaseRenew h p) s fun t => (partOf t p).leaseExpiry = (partOf s p).leaseExpiry ∧
          pState t p = pState s p ∧
          fget t .partLateRenewLate p = min (fget s .partLateRenewLate p + 1) (2 ^ Fld.partLateRenewLate.desc.w - 1)) ∧
      (pState s p = pReclaimed → Gives (.leaseRenew h p) s fun t => Same (.page .part) s t ∧ t.parts = s.parts)) ∧
    (leaseIsLow s p = true → Gives (.leaseLow p) s fun t => Signalled t .partLeaseLow p) ∧
    (leaseOver s p = true → twinUp s = false → expiryDue s p = false → Gives (.leaseExpiry p) s fun t =>
      pState t p = pOrphaned ∧ fget t .partLeaseExpired p = 1 ∧ Signalled t .partOrphaned p ∧
      (partOf t p).offers = [] ∧ (∀ e ∈ t.exts, served e p = false) ∧ t.fmLog = .partitionOrphaned p :: s.fmLog) ∧
    (leaseOver s p = true → twinUp s = true → expiryDue s p = false → bRole s = roleLead →
      Gives (.leaseExpiry p) s fun t => pState t p = pActive ∧
        t.belay.journal = s.belay.journal ++ [⟨s.belay.nextNum, .leaseExpire p, false⟩]) ∧
    ∀ heads, (partOf s p).bindDue = some heads → twinUp s = false →
      ¬(unbinds s p heads.toNat = true ∧ holdsExtents s p = true) →
      Gives (.bindTakesEffect p) s fun t => fget t .partStateHeads p = heads.toNat ∧ (partOf t p).bindDue = none ∧
        (heads ≠ 0 → pState t p = (if pState s p = pDisabled then pActive else pState s p) ∧
          (pState s p = pDisabled → (partOf t p).leaseExpiry = now s + fget s .partCfgLeaseMs p * 100000)) ∧
        (heads = 0 → aget s.belay.twinHeads p 0 = 0 → pState t p = pDisabled)

/-- The mailbox accepts offers, releases what is held, reports, and lists, injects and clears poison. Alone,
through an open window: a response that names only extents of the oldest offer makes them ACTIVE and the rest of
that offer leaves OFFERED; an admitted release leaves no named granule held; a report lists what is served, and
ORPHANED or an over lease answers Busy to all three. The poison list holds every poisoned line held; an
installer's injection writes the poison word; Clear Poison writes the line and its poison goes, and answers
Invalid Input where nothing is held (that part PRESUMED, log 31). An unsupported opcode answers Unsupported. (03
R65; 03 R66; 03 R72; 03 R75; 02 R54.) -/
def Obligations.MailboxCommandsAnswer : Prop :=
  ∀ (s : State) (h : Head) (p : Part), ioOpen s h p = true →
    let says' := fun (t : State) (code : RetCode) => ∃ d, t.out.head? = some (.mbRsp p h code d)
    (twinUp s = false → pState s p ≠ pOrphaned → leaseOver s p = false → ∀ (o : Offer) (rest : List Offer) (exts : List GranRange),
      (partOf s p).offers = o :: rest → (∀ x ∈ exts, x ∈ o.exts) → (o.exts.map (·.1)).Nodup →
      (s.exts.map (·.base)).Nodup →
      Gives (.addDynamicCapacityResponse h p exts) s fun t => says' t .success ∧ (partOf t p).offers = rest ∧
        (∀ x ∈ exts, (∃ e ∈ s.exts, e.base = x.1 ∧ (holderSt e p).isSome = true) →
          ∃ e ∈ t.exts, e.base = x.1 ∧ holderSt e p = some .active) ∧
        ∀ x ∈ o.exts, x ∉ exts → ∀ e ∈ t.exts, e.base = x.1 → holderSt e p ≠ some .offered) ∧
    (pState s p ≠ pOrphaned → leaseOver s p = false → ∀ (o : Offer) (rest : List Offer) (exts : List GranRange),
      (partOf (foresee s) p).offers = o :: rest → (∃ x ∈ exts, x ∉ o.exts) →
      Gives (.addDynamicCapacityResponse h p exts) s fun t =>
        t.out = .mbRsp p h .invalidInput [] :: s.out ∧ t.exts = s.exts ∧ t.parts = s.parts) ∧
    (twinUp s = false → pState s p ≠ pOrphaned → leaseOver s p = false → pState s p ≠ pReclaimed → ∀ exts ps,
      (∀ e ∈ s.exts, 1 ≤ e.len) → (s.exts.Pairwise fun a b => a.base + a.len ≤ b.base) →
      releaseCode s p [.active, .releasePending] true exts = (.success, ps) →
      Gives (.releaseDynamicCapacity h p exts) s fun t => says' t .success ∧
        ∀ x ∈ exts, ∀ g, x.1 ≤ g → g < x.1 + x.2 → ∀ e ∈ t.exts, e.base ≤ g → g < e.base + e.len →
          served e p = false) ∧
    (pState s p = pOrphaned ∨ leaseOver s p = true → ∀ exts,
      (Gives (.addDynamicCapacityResponse h p exts) s fun t => t.out = .mbRsp p h .busy [] :: s.out) ∧
      (Gives (.releaseDynamicCapacity h p exts) s fun t => t.out = .mbRsp p h .busy [] :: s.out) ∧
      Gives (.dcReportMailbox h p) s fun t => t.out = .mbRsp p h .busy [] :: s.out) ∧
    (pState s p ≠ pOrphaned → leaseOver s p = false → Gives (.dcReportMailbox h p) s fun t =>
      t.out = .mbRsp p h .success (0 :: exportBytes s :: Config.granBytes ::
        extReport (s.exts.filter fun e => served e p) p) :: s.out) ∧
    (Gives (.getPoisonList h p) s fun t => ∃ l, t.out = .mbRsp p h .success l :: s.out ∧
      ∀ line ∈ s.poison, (heldExt s p (line * 64)).isSome = true → line * 64 ∈ l) ∧
    (∀ opcode, Gives (.mailboxUnsupported h p opcode) s fun t => t.out = .mbRsp p h .unsupported [] :: s.out) ∧
    (∀ (ses : Session) (dpa : Nat), Admits s ses 2 → (heldExt s p dpa).isSome = true →
      Gives (.injectPoison ses p dpa) s fun t => dpa / 64 ∈ t.poison ∧
        t.out.head? = some (.fmRsp ses .success [])) ∧
    ∀ (dpa : Nat) (d : Line), dpa % 64 = 0 →
      (heldExt s p dpa = none → Gives (.clearPoison h p dpa d) s fun t =>
        t.out = .mbRsp p h .invalidInput [] :: s.out ∧ Same .memory s t) ∧
      ∀ e, heldExt s p dpa = some e → e.attr.sharing = 0 → s.memoriesWf = true → s.boot.tiered = false →
        twinUp s = false → bRole s ≠ roleFenced → s.belay.deciding = false → homeSt s dpa = .serve →
        needsExpander s (blockOf dpa) = false → (pcOf s (pcOfAddr dpa)).held = [] →
        queueRoom s (pcOfAddr dpa) (levelOf s (clusterOf dpa) (some p.val) (classOf s dpa)) (classOf s dpa) = true →
        (∀ i, i < 64 → inWindow s p (dpa + i) = false) →
        Gives (.clearPoison h p dpa d) s fun t => dpa / 64 ∉ t.poison ∧ .mbRsp p h .success [] ∈ t.out ∧
          ∀ k, k < 64 → Memory.get t.mem (dpa + k) = d.extractLsb' (8 * k) 8

/-- Guarantees change under their sum rule; RECLAIM starts in the tiered configurations, stops, and ends with
its event. Set QoS Allocated BW within the sum gives each partition named its part of 28,000 and no other;
beyond it, it is refused whole. A write of GB_S within the sum takes the value; beyond it the value stays and
GUAR_REFUSED is set on the device instance. A write of START in a tiered configuration sets START and RUNNING,
elsewhere START stays 0; a write of 0 marks a running RECLAIM to stop. Where every cluster is at or below the
share, RECLAIM ends with RECLAIM_DONE. Where the spec leaves a point open this rests on the reading of log 22.
(09 R207; 09 R216; 09 R217.) -/
def Obligations.GuaranteesKeepTheirSum : Prop :=
  ∀ (s : State) (ses : Session),
    (∀ (start : Nat) (fr : List Nat), Admits s ses 1 → start + fr.length ≤ 16 → (∀ f ∈ fr, f ≤ 255) →
      let total := ((List.range 16).map fun p => aget (newGuar start fr) p (fget s .qosGuarGbS p)).sum
      (guarSum s ≤ 28000 → total ≤ 28000 → Gives (.setQosAllocatedBw ses start fr) s fun t =>
        (∀ k, (hk : k < fr.length) → fget t .qosGuarGbS (start + k) = fr[k] * 28000 / 255) ∧
        (∀ p, p < start ∨ start + fr.length ≤ p → fget t .qosGuarGbS p = fget s .qosGuarGbS p) ∧
        t.out.head? = some (.fmRsp ses .success [])) ∧
      (28000 < total → Gives (.setQosAllocatedBw ses start fr) s fun t =>
        t.out = .fmRsp ses .invalidInput [] :: s.out ∧ Same (.page .qos) s t)) ∧
    (∀ (p : Part) (v : BitVec 15), sesUp s ses = true →
      Writes s (.fm ses) .qos p 0x048 (wordWith s .qos p 0x048 [(.qosGuarGbS, 0, v.toNat)]) →
      (guarSum s - fget s .qosGuarGbS p + v.toNat ≤ 28000 →
        Gives (.guarWrite ses p v) s fun t => fget t .qosGuarGbS p = v.toNat) ∧
      (28000 < guarSum s - fget s .qosGuarGbS p + v.toNat → v.toNat ≠ fget s .qosGuarGbS p →
        Gives (.guarWrite ses p v) s fun t => fget t .qosGuarGbS p = fget s .qosGuarGbS p ∧
          Signalled t .qosGuarRefused qosDev)) ∧
    (∀ (cls : TaskClass) (on : Bool), sesUp s ses = true →
      Writes s (.fm ses) .qos (qosCls cls) 0x058
        (wordWith s .qos (qosCls cls) 0x058 [(.qosReclaimStart, 0, flag on)]) →
      (on = true → s.boot.tiered = true → Gives (.reclaimStart ses cls on) s fun t =>
        fget t .qosReclaimStart (qosCls cls) = 1 ∧ fget t .qosReclaimRunning (qosCls cls) = 1 ∧
        cls.val ∉ t.qos.stopping) ∧
      (on = true → s.boot.tiered = false → Gives (.reclaimStart ses cls on) s fun t => Same (.page .qos) s t) ∧
      (on = false → fget s .qosReclaimRunning (qosCls cls) = 1 → Gives (.reclaimStart ses cls on) s fun t =>
        Same (.page .qos) s t ∧ cls.val ∈ t.qos.stopping)) ∧
    ∀ cls : TaskClass, reclaimOver s cls = true → Gives (.reclaimDone cls) s fun t =>
      fget t .qosReclaimStart (qosCls cls) = 0 ∧ fget t .qosReclaimRunning (qosCls cls) = 0 ∧
      Signalled t .qosReclaimDone (qosCls cls)

/-- Snapshot commands are carried out, COMMIT makes the next version at its boundary, the reserve changes, and a
sanitised granule is free and zero. Alone, a written SNAP_CMD sets BUSY; if it fails its RESULT waits; else OPEN
opens the version named, CLOSE closes it, DRAFT opens and ABANDON ends a draft, COMMIT waits. At the boundary
the draft becomes version newest+1 with COMMITTED; the end of a command clears BUSY with RESULT and VERSION.
RESERVE takes what free granules and charged blocks admit. A granule with no frame or deallocation outstanding
that is sanitised is zero and in no extent, with SANITISE_DONE after the last; with a twin its end is
journalled, as the command is. (04 R92; 04 R94; 04 R95; 04 R96; 04 R98; 03 R69; 12 R274.) -/
def Obligations.SnapshotsOpenDraftAndCommit : Prop :=
  ∀ s : State,
    (∀ (h : Head) (p : Part) (base : BitVec 21), ioOpen s h p = true → fget s .dirSnapStatusBusy p = 0 →
      let b := base.toNat
      let cmd := fun (c : Instr) (op ver : Nat) (effect : Option Snap → Prop) =>
        Writes s (.host p h) .dir p 0x080 (wordWith s .dir p 0x080
          [(.dirSnapCmdOp, 0, op), (.dirSnapCmdBaseGran, 0, b), (.dirSnapCmdVersion, 0, ver)]) →
        let r := snapResult s p op b ver
        let left := fun (t : State) (x : SnapCmd) => t.snapCmds.find? (fun c => decide (c.1 = p.val)) = some (p.val, x)
        (twinUp s = false → r ≠ snOk → Gives c s fun t => fget t .dirSnapStatusBusy p = 1 ∧ t.snaps = s.snaps ∧
          left t ⟨0, b, r, 0⟩) ∧
        (twinUp s = false → r = snOk → Gives c s fun t => fget t .dirSnapStatusBusy p = 1 ∧ effect (snapOf t b) ∧
          ∃ v, left t ⟨if op = snCommit then snCommit else 0, b, 0, v⟩) ∧
        (twinUp s = true → Gives c s fun t => fget t .dirSnapStatusBusy p = 1 ∧ t.snaps = s.snaps ∧
          t.belay.journal = s.belay.journal ++
            [⟨s.belay.nextNum, .snap (decide (bRole s = roleLead)) p op b (BitVec.ofNat 32 ver), false⟩])
      (∀ ver : BitVec 32, cmd (.snapOpen h p base ver) snOpen ver.toNat fun x => ∃ y y', snapOf s b = some y ∧
        x = some y' ∧ versionFor y' p = namedVersion y ver.toNat) ∧
      cmd (.snapClose h p base) snClose 0 (fun x => ∃ y', x = some y' ∧ versionFor y' p = y'.newest) ∧
      cmd (.snapDraft h p base) snDraft 0 (fun x => ∃ y', x = some y' ∧ y'.draft = some []) ∧
      cmd (.snapCommit h p base) snCommit 0 (fun x => x = snapOf s b) ∧
      cmd (.snapAbandon h p base) snAbandon 0 fun x => ∃ y', x = some y' ∧ y'.draft = none) ∧
    (∀ (p : Part) (c : SnapCmd), s.snapCmds.find? (fun c => decide (c.1 = p.val)) = some (p.val, c) →
      (∀ (x : Snap) (d : List SavedBlock), c.op = snCommit → snapOf s c.base = some x → x.draft = some d →
        s.boot.tiered = false ∨ d = [] → s.snapCmds.find? (fun c => decide (c.1 = 16 + p.val)) = none →
        Gives (.snapCommitEffect p) s fun t => Signalled t .dirCommitted p ∧
          (∃ y, snapOf t c.base = some y ∧ y.newest = x.newest + 1 ∧ y.draft = none) ∧
          (s.memoriesWf = true → (d.map (·.block)).Nodup → ∀ k ∈ d, k.bytes.length = 8192 →
            Memory.read t.mem (blockDpa k.block) 8192 = k.bytes)) ∧
      (c.op = 0 → Gives (.snapCommandDone p) s fun t => fget t .dirSnapStatusBusy p = 0 ∧
        fget t .dirSnapStatusResult p = c.result % 8 ∧ fget t .dirSnapStatusVersion p = c.version % 2 ^ 32 ∧
        t.snapCmds.find? (fun c => decide (c.1 = p.val)) = none)) ∧
    (∀ (ses : Session) (n : BitVec 21), sesUp s ses = true → twinUp s = false → n.toNat ≠ fget s .dirReserveGranules 16 →
      Writes s (.fm ses) .dir 0x10 0x0A8 (wordWith s .dir 0x10 0x0A8 [(.dirReserveGranules, 0, n.toNat)]) →
      let had := s.reserve.length
      (had ≤ n.toNat → n.toNat - had ≤ freeCount s →
        n.toNat - had ≤ ((List.range (exportGran s)).filter (freeGran s)).length →
        Gives (.reserveWrite ses n) s fun t => fget t .dirReserveGranules 16 = n.toNat ∧
          t.reserve.length = n.toNat ∧ s.reserve <+: t.reserve) ∧
      (n.toNat < had → chargedBlk s ≤ n.toNat * granBlocks → Gives (.reserveWrite ses n) s fun t =>
        fget t .dirReserveGranules 16 = n.toNat ∧ t.reserve = s.reserve.take n.toNat) ∧
      ((had < n.toNat ∧ freeCount s < n.toNat - had) ∨ (n.toNat < had ∧ n.toNat * granBlocks < chargedBlk s) →
        Gives (.reserveWrite ses n) s fun t => t.reserve = s.reserve ∧
          fget t .dirReserveGranules 16 = fget s .dirReserveGranules 16)) ∧
    ∀ (g : Nat) (e : Extent), running s = true → extOfGran s g = some e → e.sanitising = true →
      (∀ x ∈ s.pcs, pcSt s x.1 ≠ pcFrozen) → granBusy s g = false →
      (s.boot.tiered = true → ∀ b, blockIn g b = true → ahas s.lbaMap b = false ∧ ahas s.index b = false) →
      let zero := fun t : State => ∀ a, g * Config.granBytes ≤ a → a < (g + 1) * Config.granBytes → Memory.get t.mem a = 0
      (twinUp s = false → (∀ e ∈ s.exts, 1 ≤ e.len) → (s.exts.Pairwise fun a b => a.base + a.len ≤ b.base) →
        Gives (.sanitiseComplete g) s fun t => zero t ∧ (∀ e ∈ t.exts, ¬(e.base ≤ g ∧ g < e.base + e.len)) ∧
          ([g] ∈ s.sanReqs → Signalled t .extSanitiseDone 16)) ∧
      (twinUp s = true → s.tier.sanWaits = [] → Gives (.sanitiseComplete g) s fun t => zero t ∧ t.exts = s.exts ∧
        t.belay.journal = s.belay.journal ++ [⟨s.belay.nextNum, .sanitised (decide (bRole s = roleLead)) g, false⟩])

/-- The hint ring starts, stops and halts, and each hint has its effect on the blocks of its range. Writing
ENABLE to 1 clears both indexes and the halt; a PRODUCER write within the ring is kept, beyond it halts the
ring. Alone, the one fetched entry: PREFETCH makes an absent block resident or filling, PIN sets the pin within
the limit and PIN_LIMIT beyond, UNPIN clears it, COLD marks, DISCARD zeroes a private block, COMPACT queues what
may be coded; CONSUMER passes, blocks not held count once in IGNORED. With a twin the hint is journalled. Where
the spec leaves a point open this rests on the reading of log 46. (05 R105; 05 R107; 05 R108; 05 R109; 05 R110;
05 Table 5.4; 06 R149.) -/
def Obligations.HintsMarkTheirBlocks : Prop :=
  ∀ (s : State) (p : Part),
    (∀ h : Head, ioOpen s h p = true → s.fieldsFit = true →
      (∀ on : Bool, Writes s (.host p h) .tier p 0x068 (wordWith s .tier p 0x068 [(.tierHintCtrlEnable, 0, flag on)]) →
        (on = true → fget s .tierHintCtrlEnable p = 0 → Gives (.hintEnable h p on) s fun t =>
          fget t .tierHintCtrlEnable p = 1 ∧ fget t .tierHintProdProducer p = 0 ∧ fget t .tierHintConsConsumer p = 0 ∧
          fget t .tierHintCtrlHalted p = 0 ∧ fget t .tierHintCtrlCause p = 0 ∧ fget t .tierHintCtrlHaltStatus p = 0) ∧
        (on = false → fget s .tierHintCtrlEnable p = 1 → Gives (.hintEnable h p on) s fun t =>
          fget t .tierHintCtrlEnable p = 0 ∧ ∀ u ∈ (cfgOf t p).tags, u.use = .hint → u.discard = true)) ∧
      ∀ v : BitVec 32, Writes s (.host p h) .tier p 0x070
          (wordWith s .tier p 0x070 [(.tierHintProdProducer, 0, v.toNat)]) →
        let ahead := (v.toNat + 2 ^ 32 - fget s .tierHintConsConsumer p) % 2 ^ 32
        (fget s .tierHintCtrlEnable p = 1 → fget s .tierHintCtrlHalted p = 0 →
          (ahead ≤ hintSize s p → Gives (.hintProducer h p v) s fun t => fget t .tierHintProdProducer p = v.toNat) ∧
          (hintSize s p < ahead → Gives (.hintProducer h p v) s fun t => fget t .tierHintCtrlHalted p = 1 ∧
            fget t .tierHintCtrlCause p = haltOverrun ∧ Signalled t .tierHintHalted p)) ∧
        (fget s .tierHintCtrlEnable p = 0 ∨ fget s .tierHintCtrlHalted p = 1 →
          Gives (.hintProducer h p v) s fun t => Same (.page .tier) s t)) ∧
    ∀ e : HintEntry, hintsOf s p = [e] → e.phase = 0 →
      let r := hintRange (hintOp e) e.base.toNat e.len.toNat
      let blocks := (hintBlocks s p r.1 r.2).map (·.2)
      let passes := fun t : State => fget t .tierHintConsConsumer p = (fget s .tierHintConsConsumer p + 1) % 2 ^ 32 ∧
        hintsOf t p = [] ∧ (blocks.length < r.2 - r.1 → Signalled t .tierHintIgnored p)
      let cmd := fun (op : Nat) (c : Instr) (effect : State → Prop) => hintOp e = op →
        (twinUp s = false → Gives c s fun t => passes t ∧ effect t) ∧
        (twinUp s = true → Gives c s fun t => hintsOf t p = [{ e with phase := 1 }] ∧ t.frames = s.frames ∧
          t.belay.journal = s.belay.journal ++
            [⟨s.belay.nextNum, .hint (decide (bRole s = roleLead)) p op e.base.toNat e.len.toNat, false⟩])
      cmd 1 (.prefetch p) (fun t => ∀ b, s.boot.tiered = true → blocks = [b] → lbaOf s b ≠ 3 →
        (frameOf t b).isSome = true) ∧
      cmd 2 (.hintPin p) (fun t => ∀ b, s.boot.tiered = true → blocks = [b] →
        (lbaOf s b ≠ 3 → pinnedBlocks s p + 1 < pinLimit s p →
          ∃ f, frameOf t b = some f ∧ p.val ∈ f.pins ∧ f.cold = false) ∧
        ∀ f, frameOf s b = some f → p.val ∉ f.pins → pinLimit s p ≤ pinnedBlocks s p →
          frameOf t b = some f ∧ Signalled t .tierPinLimit p) ∧
      cmd 3 (.unpin p) (fun t => ∀ f ∈ t.frames, f.block ∈ blocks → p.val ∉ f.pins) ∧
      cmd 4 (.cold p) (fun t => ∀ f ∈ t.frames, f.block ∈ blocks → f.cold = true) ∧
      cmd 6 (.hintCompact p) (fun t => (∀ b ∈ blocks, mayCode s b = true →
          (s.boot.tiered = true → (frameOf s b).isSome = true) → b ∈ t.compactQ) ∧
        ∀ b ∈ t.compactQ, b ∈ s.compactQ ∨ (b ∈ blocks ∧ mayCode s b = true)) ∧
      (let zero := fun t : State => ∀ b ∈ blocks, ∀ a, blockDpa b ≤ a → a < blockDpa b + 8192 → Memory.get t.mem a = 0;
      discardWaits s p r.1 r.2 = false → (∀ x ∈ hintBlocks s p r.1 r.2, x.1.attr.sharing = 0) →
        (s.boot.tiered = false → cmd 5 (.discard p) zero) ∧
        (s.boot.tiered = true →
          (∀ f ∈ s.frames, f.block ∈ blocks → f.st ≠ .filling ∧ f.st ≠ .evicting ∧ f.waiters = []) →
          (∀ x ∈ s.tier.exp, ∀ y ∈ x.2.input ++ x.2.middle, y.block ∉ blocks) →
          (∀ b ∈ blocks, stripeLocked s b = false) → hintOp e = 5 → twinUp s = false →
          Gives (.discard p) s fun t => zero t ∧ (∀ b ∈ blocks, lbaOf t b = 0 ∧ frameOf t b = none) ∧
            ((∀ b ∈ blocks, lbaOf s b = 0) → passes t)))

/-- Fills, write-backs, rebuild writes, decodes and compactor commits move a block as their rules have it. A
fill that completes with no waiters leaves its frame CLEAN with the bytes of Scree; a failed own read is rebuilt
from the other seven, a failed rebuild frees the frame. The victim of a low cluster is freed CLEAN or starts its
write-back, whose old contents are read first and which at its end moves data, map and frame; a timed-out
command is aborted and counted, twice in a row failing the SSD. A rebuilt stripe passes the cursors. A decoded
block enters the cache and answers its reads, a damaged one is reported; a verified candidate becomes the stored
form, a failed or stale one counts. What a lost frame or waiting fill adds is left to other statements. Where
the spec leaves a point open this rests on the reading of logs 43, 44, 47. (05 R104; 05 R111; 05 R112; 05 R113;
05 R117; 05 R120; 05 R122; 06 R146; 06 R151; 06 R153.) -/
def Obligations.TierCommandsMoveTheirBlocks : Prop :=
  ∀ (s : State) (b : Nat), let pl := placeOf b
    (∀ (f : Frame), frameOf s b = some f → f.st = .filling → f.issued = true → f.waiters = [] →
      (ownRead s b = true → s.memoriesWf = true → Gives (.fillComplete b true) s fun t =>
        (∃ g, frameOf t b = some g ∧ g.st = .clean) ∧
        ∀ k, k < 8192 → Memory.get t.mem (blockDpa b + k) = (screeBytes s b).getD k 0) ∧
      (ownRead s b = true → stripeMissing s b = [] → Gives (.fillComplete b false) s fun t =>
        frameOf t b = some f ∧ ∀ k, k < 8 → k ≠ pl.slot → ∃ i ∈ t.ios, i.slot.val = k ∧ i.kind = .fillRead ∧ i.block = b) ∧
      (ownRead s b = false → (∃ i ∈ s.ios, i.block = b ∧ i.kind = .fillRead) → twinUp s = false →
        Gives (.fillComplete b false) s fun t => frameOf t b = none)) ∧
    (∀ (slot : Slot) (cmd : Nat) (io : Io), ioOf s slot cmd = some io →
      (Gives (.ioTimeout slot cmd) s fun t => .nvme slot io.path (.abort io.num) ∈ t.out ∧
        fget t .tierSlotIoTimeouts (slotInst slot) =
          min (fget s .tierSlotIoTimeouts (slotInst slot) + 1) (2 ^ Fld.tierSlotIoTimeouts.desc.w - 1) ∧
        (1 ≤ (slotOf s slot).timeoutRun → slotSt t slot = slFailed)) ∧
      (slotSt s slot ≠ slRemoving → (∀ i ∈ s.ios, i.num < s.nextIo) →
        io.kind = .deallocateAll ∨ io.kind = .deallocate ∨ io.kind = .parityFix ∨ io.kind = .repair →
        Gives (.deallocateComplete slot cmd) s fun t => (∀ i ∈ t.ios, i.num ≠ cmd) ∧
          (io.kind = .deallocateAll → (slotOf t slot).deallocated = true))) ∧
    (∀ (c : Cluster) (f : Frame), s.power.entering ≠ 4 → (∀ g ∈ s.frames, g.st ≠ .filling ∧ g.waiters = []) →
      belowMark (freeUnits s c) (fget s .tierCfgFreeLow 0x10) = true →
      belowMark (freeSoon s c) (fget s .tierCfgFreeHigh 0x10) = true →
      victimOf s c (fun g => decide (g.st = .clean) || mayWriteBack s g.block) = some f →
      (f.st = .clean → Gives (.evictionStart c) s fun t => frameOf t f.block = none) ∧
      (f.st = .dirty → s.damage = [] → s.poison = [] → s.belay.lostSegs = [] → Gives (.evictionStart c) s fun t =>
        (∀ g ∈ t.frames, g.block = f.block → g.st = .evicting ∧ g.copy = formBytes s f.block) ∧
        stripeLocked t f.block = true ∧
        (∀ k ∈ oldReads s f.block, ∃ i ∈ t.ios, i.slot.val = k ∧ i.block = f.block ∧ i.kind = .oldRead) ∧
        (oldReads s f.block = [] → slotWritable s (placeOf f.block).slot = true → lbaFor (formBytes s f.block) ≠ 0 →
          ∃ i ∈ t.ios, i.block = f.block ∧ i.kind = .writeData))) ∧
    (∀ f : Frame, frameOf s b = some f → f.st = .evicting → (∀ g ∈ s.frames, g.st ≠ .filling ∧ g.waiters = []) →
      s.power.entering ≠ 4 → (∀ k, k < 8 → slotSt s k ≠ slRemoving) → (∀ l ∈ s.locks, l.drops = []) →
      f.discardDue = false →
      (f.rewritten = true → Gives (.evictionComplete b) s fun t => (∃ g, frameOf t b = some g ∧ g.st = .dirty) ∧
        lbaOf t b = lbaFor f.copy) ∧
      (f.rewritten = false → expWaits s b = false → Gives (.evictionComplete b) s fun t => frameOf t b = none ∧
        lbaOf t b = lbaFor f.copy ∧
        (slotWritable s pl.slot = true → s.memoriesWf = true → f.copy.length ≤ 8192 →
          placeBytes t pl.slot pl.u = f.copy ++ List.replicate (8192 - f.copy.length) 0))) ∧
    (∀ (c : Cluster) (n : Nat), Gives (.stripeLockExpiry c n) s fun t =>
      ∀ l ∈ t.locks, l.c = c → l.t = n → l.late = false) ∧
    (∀ (c : Cluster) (b0 : Nat), fget s .tierRebuildActive 0x10 = 1 →
      (rebuildsNow s).find? (fun x => decide (blockCluster x = c)) = some b0 → Gives (.rebuildWriteComplete c) s fun t =>
        (∀ k ∈ rebuilding s, (placeOf b0).t < rebuildCursor t k c) ∧
        ∀ k, stripeMissing s b0 = [k] → (stripeBlocks b0).filter (fun x => decide ((placeOf x).slot = k)) = [b] →
          frameOf s b = none → s.memoriesWf = true → (∀ l ∈ s.locks, l.drops = []) → rebuildBudget s ≤ s.tier.rebuilt →
          placeBytes t k (placeOf b0).u =
            xorPlaces s (placeOf b0).u ((List.range 8).filter fun i => decide (i ≠ k))) ∧
    (let x := expOf s (blockCluster b);
      needsExpander s b = true → homeSt s (blockDpa b) = .serve → x.input = [] → x.held = [] →
      (∀ bs r e, (decodeBlock s b 0).2 = .ok bs r e → x.middle = [] ∨ (∃ prio rs, x.middle = [⟨b, prio, rs⟩]) →
        Gives (.blockDecode b) s fun t => t.cache.head? = some ⟨b, (classOf s (blockDpa b)).getD 16, bs⟩ ∧
          ∀ y ∈ x.middle, ∀ q ∈ y.waiters, ∀ h, q.src = .host h →
            ∃ load, .memRsp q.p h q.dpa (.data (lineIn bs (lineOf q.dpa % 128))) load ∈ t.out) ∧
      ∀ c, (decodeBlock s b 0).2 = .damaged c → x.middle = [] → Gives (.blockDecode b) s fun t =>
        Signalled t (if c = causeTable then .cmpTableBad else .cmpDamaged) ∧ aget t.damaged b 0 = c) ∧
    ∀ (source : List Byte) (kind : Nat) (form : List Byte), mayCompact s b = true → source.length = 8192 →
      let same := fun t : State => idxOf t b = idxOf s b ∧ t.mem = s.mem
      let cand := candidateOf s b kind form
      (kind ≠ 0 → (∀ rank esc, cand ≠ .ok source rank esc) → Gives (.compactorCommit b kind ⟨source, form⟩ none) s fun t =>
        b ∉ t.compactQ ∧ same t ∧ Signalled t .cmpVerifyFail) ∧
      (kind = 0 ∨ (∃ rank esc, cand = .ok source rank esc) →
        (twinUp s = true → Gives (.compactorCommit b kind ⟨source, form⟩ none) s fun t => same t ∧
          t.belay.journal = s.belay.journal ++ [⟨s.belay.nextNum, .blockForm b source kind form none, false⟩]) ∧
        (twinUp s = false → s.stale.contains b = true → Gives (.compactorCommit b kind ⟨source, form⟩ none) s fun t =>
          b ∉ t.compactQ ∧ same t ∧ fget t .cmpCompactFaultsStale =
            min (fget s .cmpCompactFaultsStale + 1) (2 ^ Fld.cmpCompactFaultsStale.desc.w - 1))) ∧
      (twinUp s = false → s.stale.contains b = false → kind ≠ 0 → ∀ rank esc,
        (compactSource s b).2 = some source → cand = .ok source rank esc → s.memoriesWf = true →
        admitted kind (descOfBlock s b).1 form.length rank esc (fget s .cmpCfgCostMax) = true →
        Gives (.compactorCommit b kind ⟨source, form⟩ none) s fun t => b ∉ t.compactQ ∧ (idxOf t b).kind = kind ∧
          (idxOf t b).clen = form.length ∧
          ∀ k, (hk : k < form.length) → Memory.get t.mem (blockDpa b + k) = form[k])

/-- A slot takes its SSD from insertion to service, asks before removal, and fails it with its code. Insertion,
debounce, power, admission (by size and requirements), button presses with their 5 s, failures by each cause,
lost and returned paths, and the end of a rebuild each leave SLOT_STATUS, the indicators, the events and the
stripe set as their rules have it. What state an unpowered or not-admitted slot shows is the model's choice (log
42). (05 R115; 05 R120; 05 R121; 05 R122; 05 R125; 05 R126.) -/
def Obligations.SlotsPowerAdmitAndFail : Prop :=
  ∀ (s : State) (k : Slot), let i := slotInst k
    let attn := if fget s .tierSlotCtrlLocate i = 1 then indBlink else indOn
    let fails := fun (c : Instr) (code : Nat) => Gives c s fun t => slotSt t k = slFailed ∧
      fget t .tierSlotStatusPwrEn i = 0 ∧ fget t .tierSlotStatusAttnInd i = attn ∧ fget t .tierSlotStatusFault i = code ∧
      (isMember s k = true → Signalled t .tierDegraded 0x10 ∧ (hget t .tier 0x10).degraded = true)
    (fget s .tierSlotStatusPresent i = 0 → Gives (.ssdInsert k) s fun t => fget t .tierSlotStatusPresent i = 1 ∧
      slotSt t k = slOff ∧ (slotOf t k).debouncing = true ∧ Signalled t .tierSlotChange i) ∧
    ((slotOf s k).debouncing = true →
      (slotsOn s = true → fget s .tierSlotCtrlAutoPower i = 1 → Gives (.slotDebounceEnd k) s fun t =>
        fget t .tierSlotStatusPwrEn i = 1 ∧ slotSt t k = slPowering ∧ .pin (.slotPower k true) ∈ t.out) ∧
      (slotsOn s = false ∨ fget s .tierSlotCtrlAutoPower i = 0 → Gives (.slotDebounceEnd k) s fun t =>
        Same (.page .tier) s t ∧ (slotOf t k).debouncing = false)) ∧
    (slotSt s k = slPowering →
      (Gives (.pwrgdAsserted k) s fun t => fget t .tierSlotStatusPwrgd i = 1 ∧ slotSt t k = slAdmitting) ∧
      Gives (.powerFault k) s fun t => fget t .tierSlotStatusPwrEn i = 0 ∧ slotSt t k = slOff ∧
        fget t .tierSlotStatusFault i = 1 ∧ fget t .tierSlotStatusAttnInd i = attn ∧ Signalled t .tierPowerFault i) ∧
    (slotSt s k = slAdmitting → ∀ info : SsdInfo,
      let n := min (info.lbas / 512) 33554432
      let good := info.e3s = true ∧ info.multiPort = true ∧ info.multiController = true ∧ info.sharedNamespace = true ∧
        info.lanes = 2 ∧ (0 < info.rate ∧ info.rate ≤ 64) ∧ info.nsid1 = true ∧ info.lbaBytes = 4096 ∧
        info.metadataBytes = 0 ∧ info.deallocatedZero = true ∧ 16 ≤ info.queuePairs ∧ 256 ≤ info.queueDepth ∧
        (∀ m, info.mdts = some m → 8192 ≤ m) ∧ 2 ^ 40 ≤ info.lbas * 4096
      let refused := fun (code : Nat) => Gives (.ssdAdmit k info) s fun t => slotSt t k = slOff ∧
        fget t .tierSlotStatusPwrEn i = 0 ∧ fget t .tierSlotStatusFault i = code ∧ Signalled t .tierNotAdmitted i
      (¬good → refused 2) ∧ (good → n < s.tier.inUse → refused 3) ∧
      (good → s.tier.inUse ≤ n → Gives (.ssdAdmit k info) s fun t =>
        slotSt t k = (if s.tier.inUse ≠ 0 then slRebuilding else slInService) ∧ (slotOf t k).counted = n ∧
        ∀ p : Path, pathUp t k p = decide (pathDie k p ∉ s.portDiesOut))) ∧
    (let press := fun c : Instr =>
        (Gives c s fun t => Signalled t .tierButton i) ∧
        ((slotOf s k).buttonWait = none → slotSt s k = slInService →
          (othersMissing s k = true → Gives c s fun t => Signalled t .tierRemoveRefused i ∧
            (slotOf t k).buttonWait = none) ∧
          (othersMissing s k = false → Gives c s fun t => (slotOf t k).buttonWait = some false ∧
            fget t .tierSlotStatusPwrInd i = indBlink)) ∧
        ((slotOf s k).buttonWait = none → slotsOn s = true → slotSt s k = slOff → fget s .tierSlotStatusPresent i = 1 →
          (slotOf s k).debouncing = false → Gives c s fun t => (slotOf t k).buttonWait = some true) ∧
        ((slotOf s k).buttonWait.isSome = true → Gives c s fun t => (slotOf t k).buttonWait = none);
      press (.attnButton k) ∧
      ∀ ses : Session, sesUp s ses = true → s.fieldsFit = true →
        Writes s (.fm ses) .tier i 0x0C0 (wordWith s .tier i 0x0C0 [(.tierSlotCtrlButton, 0, 1)]) →
        press (.button ses k)) ∧
    ((slotOf s k).buttonWait = some true → Gives (.buttonWaitEnd k) s fun t => (slotOf t k).buttonWait = none ∧
      (slotsOn s = true → fget t .tierSlotStatusPwrEn i = 1 ∧ slotSt t k = slPowering)) ∧
    ((slotOf s k).buttonWait = some false →
      ((∃ o ∈ s.ios, o.slot = k) → Gives (.buttonWaitEnd k) s fun t => slotSt t k = slRemoving) ∧
      ((∀ o ∈ s.ios, o.slot ≠ k) → Gives (.buttonWaitEnd k) s fun t => slotSt t k = slOff ∧
        fget t .tierSlotStatusPwrEn i = 0 ∧ Signalled t .tierDegraded 0x10)) ∧
    (fget s .tierSlotStatusPresent i = 1 →
      (fget s .tierSlotStatusPwrEn i = 1 → fails (.ssdFail k .removal) 7 ∧
        Gives (.ssdFail k .removal) s fun t => fget t .tierSlotStatusPresent i = 0) ∧
      (fget s .tierSlotStatusPwrEn i ≠ 1 → Gives (.ssdFail k .removal) s fun t => slotSt t k = slEmpty ∧
        fget t .tierSlotStatusPresent i = 0)) ∧
    (isMember s k = true → fails (.ssdFail k .timeouts) 4 ∧ fails (.ssdFail k .critical) 5 ∧ fails (.ssdFail k .paths) 6 ∧
      fails (.ssdAsyncEvent k true false) 5 ∧ fails (.ssdAsyncEvent k false true) 5 ∧
      (Gives (.ssdAsyncEvent k false false) s fun t => slotSt t k = slotSt s k) ∧
      (pathUp s k .a = false → pathUp s k .b = false → fails (.pathsDownTimeout k) 6)) ∧
    (∀ p : Path, (pathUp s k p = true → Gives (.pathLost k p) s fun t => pathUp t k p = false ∧
        Signalled t .tierPathLost i ∧
        (pathUp s k (otherPath p) = true → ∀ o ∈ t.ios, o.slot = k → o.path = otherPath p)) ∧
      (fget s .tierSlotStatusPwrgd i = 1 → isMember s k = true → pathDie k p ∉ s.portDiesOut →
        Gives (.pathReturn k p) s fun t => pathUp t k p = true ∧
          (pathUp s k .a = false → pathUp s k .b = false → ∀ o ∈ t.ios, o.slot = k → o.path = p))) ∧
    (rebuildOver s = true → Gives .rebuildDone s fun t => fget t .tierRebuildActive 0x10 = 0 ∧
      Signalled t .tierRebuildDone 0x10 ∧ (hget t .tier 0x10).degraded = false ∧
      (slotSt s k = slRebuilding → slotSt t k = slInService))

/-- A pair forms or is refused, heartbeats keep it, and a package that loses its twin continues, fences or waits
for its witness. Pairing sets the roles of R267 and starts the resync where due, or is refused. A heartbeat
clears HB_MISSED; the tenth miss, LEAVING or no answer in time sets TWIN_LOST, notifies, and continues alone,
fences, becomes INCOMPLETE or waits, as R283 and R288 have it. RENEW, the end of the wait, a lapsed witness,
LEAVE, SWAP, APPROVE and retrains have their effects; groups go down and come up. Where the spec leaves a point
open this rests on the reading of logs 61, 64. (12 R266; 12 R267; 12 R269; 12 R271; 12 R272; 12 R282; 12 R283;
12 R284; 12 R288; 13 R305.) -/
def Obligations.PairFormsSplitsAndRejoins : Prop :=
  ∀ s : State,
    let alone := fun t : State => bRole t = roleLead ∧ bState t = bsAlone ∧ t.belay.servedAlone = true
    let fenced := fun t : State => bRole t = roleFenced ∧ bState t = bsFenced ∧ Signalled t .belayFenced
    let loses := fun (c : Instr) (left : Bool) =>
      (Gives c s fun t => Signalled t .belayTwinLost ∧ .notify .twinLost ∈ t.out) ∧
      (bRole s ≠ roleFenced →
        (bState s = bsResync → bRole s = roleSecond → Gives c s fun t =>
          bRole t = roleFenced ∧ bState t = bsIncomplete ∧ Signalled t .belayIncomplete) ∧
        (bState s ≠ bsResync → bState s ≠ bsJoining →
          (left = true ∨ (fcur s .belayCfgWitnessEn = 0 ∧ s.boot.pairRank = false) → Gives c s alone) ∧
          (left = false → (fcur s .belayCfgWitnessEn = 0 ∧ s.boot.pairRank = true) ∨
              (fcur s .belayCfgWitnessEn ≠ 0 ∧ witnessOver s = true) → Gives c s fenced) ∧
          (left = false → fcur s .belayCfgWitnessEn ≠ 0 → witnessOver s = false → Gives c s fun t =>
            t.belay.deciding = true ∧ bRole t = bRole s)))
    (s.boot.phase = .released → s.boot.pairEn = true → bState s = bsUnpaired → s.belay.deciding = false →
      loses .twinNoAnswer false) ∧
    (hearsTwin s = true → loses .leaving true) ∧
    (twinUp s = true ∨ lapsed s = true →
      (s.belay.hbSeen = false → rung s < 2 → running s = true →
        (9 ≤ fget s .belayTwinStatsHbMissed → loses .heartbeatMiss false) ∧
        (fget s .belayTwinStatsHbMissed < 9 → Gives .heartbeatMiss s fun t =>
          fget t .belayTwinStatsHbMissed = fget s .belayTwinStatsHbMissed + 1 ∧ bRole t = bRole s)) ∧
      ∀ g : Group, groupUp s g = true → Gives (.heartbeatReceived g s.tb.count) s fun t =>
        fget t .belayTwinStatsHbMissed = 0 ∧ t.belay.hbSeen = true) ∧
    (running s = true → s.boot.pairEn = true → belayUp s = true → s.belay.leaving = false → twinUp s = false →
      lapsed s = false → s.belay.deciding = false → ∀ w : TwinInfo,
      (pairOk s w = true →
        let lead := if s.belay.servedAlone = w.servedAlone then s.boot.pairRank = false else s.belay.servedAlone = true
        let fresh := s.boot.cold = true ∧ w.fromCold = true ∧ s.belay.servedAlone = false ∧ w.servedAlone = false
        Gives (.pairing w) s fun t => Signalled t .belayPaired ∧ (lead → bRole t = roleLead) ∧
          (¬lead → bRole t = roleSecond) ∧ (fresh → bState t = bsInSync) ∧
          (¬fresh → lead → bState t = bsResync) ∧ (¬fresh → ¬lead → bState t = bsJoining)) ∧
      (pairOk s w = false → Gives (.pairing w) s fun t => Signalled t .belayPairRefused ∧
        (¬(bRole s = roleFenced ∧ bState s = bsIncomplete) → bRole t = roleSolo ∧ bState t = bsRefused) ∧
        (bRole s = roleFenced → bState s = bsIncomplete → bRole t = roleFenced ∧ bState t = bsIncomplete))) ∧
    (∀ ses : Session, sesUp s ses = true →
      let writes := fun (off : Nat) (f : Fld) => Writes s (.fm ses) .belay 0 off (wordWith s .belay 0 off [(f, 0, 1)])
      (writes 0x050 .belayCtrlLeave → twinUp s = true → Gives (.leave ses) s fun t =>
        .belay 0 .leaving ∈ t.out ∧ fenced t ∧ t.belay.leaving = true) ∧
      (writes 0x050 .belayCtrlSwap →
        (twinUp s = true → bState s = bsInSync → Gives (.swap ses) s fun t => t.belay.journal =
          s.belay.journal ++ [⟨s.belay.nextNum, .reg .belay 0 0x050 2, false⟩] ∧ bRole t = bRole s) ∧
        (bState s ≠ bsInSync → Gives (.swap ses) s fun t => Same (.page .belay) s t ∧ Same .pair s t)) ∧
      (writes 0x050 .belayCtrlApprove → bState s = bsIncomplete → Gives (.approve ses) s fun t =>
        alone t ∧ t.belay.lostSegs = s.belay.unsync ∧ Signalled t .belayUnfenced) ∧
      (∀ g : Group, writes 0x050 .belayCtrlRetrain → groupUp s g = true →
        (g.val, true) ∉ s.belay.retrained → (g.val, false) ∉ s.belay.retrained →
        Gives (.belayRetrain (some ses)) s fun t => .belay 0 (.retrainRequest g) ∈ t.out ∧
          fget t .belayGroupsRetrains 0 g =
            min (fget s .belayGroupsRetrains 0 g + 1) (2 ^ Fld.belayGroupsRetrains.desc.w - 1)) ∧
      (writes 0x058 .belayWitnessRenew →
        (s.belay.deciding = true → Gives (.renew ses) s alone) ∧
        (s.belay.deciding = false → Gives (.renew ses) s fun t =>
          t.belay.witnessExpiry = now s + Config.witnessLease ∧
          (lapsed s = true → belayUp s = true → bRole t = s.belay.roleBefore ∧ Signalled t .belayUnfenced)))) ∧
    (∀ g : Group, groupUp s g = true → (g.val, true) ∉ s.belay.retrained →
      ((g.val, false) ∉ s.belay.retrained → Gives (.belayRetrain none) s fun t =>
        fget t .belayGroupsRetrains 0 g =
          min (fget s .belayGroupsRetrains 0 g + 1) (2 ^ Fld.belayGroupsRetrains.desc.w - 1)) ∧
      ((g.val, false) ∈ s.belay.retrained → Gives (.belayRetrain none) s fun t => g.val ∈ t.belay.retrainDue)) ∧
    (∀ g : Group, (groupUp s g = true → Gives (.groupDown g) s fun t => groupUp t g = false ∧
        Signalled t .belayGroupDown) ∧
      (∀ half, running s = true → g.val ∉ s.portDiesOut → Gives (.groupUp g half) s fun t =>
        groupUp t g = true ∧ fget t .belayGroupsHalf 0 g = flag half)) ∧
    (s.belay.deciding = true → Gives .witnessWaitExpiry s fenced) ∧
    (fcur s .belayCfgWitnessEn = 1 → paired s = true → witnessOver s = true → s.belay.deciding = false →
      Gives .witnessLapsed s fun t => fenced t ∧ Signalled t .belayWitnessLapsed)

/-- Mirrored writes, forwarded requests, journal entries and resync segments of the twin are taken, and lost
dies go out of service. An untiered package that hears its twin stores a mirrored line and accepts it, completes
its own write at the twin's acceptance, answers a forwarded read from its copy, passes the twin's answers on,
and mends a block it is sent. The second acknowledges an entry and keeps it; the lead takes the acknowledgement
and both apply in order. A resync segment is sent or taken and counted, and the last one ends in IN_SYNC. A lost
engine die or port die goes out of service. Where the spec leaves a point open this rests on the reading of log
65. (12 R273; 12 R274; 12 R280; 12 R281; 12 R286; 12 R287; 08 R205.) -/
def Obligations.TwinTrafficIsTaken : Prop :=
  ∀ s : State,
    (hearsTwin s = true →
      (∀ (id dpa : Nat) (p : Part), dpa % 64 = 0 → s.boot.tiered = false → s.memoriesWf = true → homeSt s dpa = .serve →
        needsExpander s (blockOf dpa) = false → (pcOf s (pcOfAddr dpa)).held = [] →
        queueRoom s (pcOfAddr dpa) (levelOf s (clusterOf dpa) (some p.val) (classOf s dpa)) (classOf s dpa) = true →
        (∀ d : Line, (∀ e, extOf s dpa = some e → e.attr.sharing = 0) →
          Gives (.mirroredWrite (.write id p dpa d fullMask)) s fun t =>
          (∀ k, k < 64 → Memory.get t.mem (dpa + k) = d.extractLsb' (8 * k) 8) ∧
          .belay 1 (.mirror (.accept id)) ∈ t.out) ∧
        ∀ e, heldExt s p dpa = some e → e.attr.sharing = 0 → e.unreadable = false → s.poison.contains (dpa / 64) = false →
          (∀ x ∈ s.damage, x.1 ≠ dpa / 64) → (∀ r ∈ (pcOf s (pcOfAddr dpa)).partials, lineOf r.dpa ≠ dpa / 64) →
          lineUnsynced s (dpa / 64) = false → ∀ via mv,
          Gives (.forwardedRequest (.read id p dpa [] via mv)) s fun t =>
            .belay 1 (.forward (.readAnswer id (some (lineData s (dpa / 64))))) ∈ t.out ∧ t.mem = s.mem) ∧
      (∀ (id : Nat) (w : MirrorWait) (h : Head), s.belay.mirror.find? (fun w => decide (w.id = id)) = some w →
        w.req.src = .host h → Gives (.mirroredWrite (.accept id)) s fun t =>
          t.belay.mirror = s.belay.mirror.erase w ∧ ∃ load, .memRsp w.req.p h w.req.dpa .cmp load ∈ t.out) ∧
      (∀ (id : Nat) (w : MirrorWait) (h : Head), s.belay.forwarded.find? (fun w => decide (w.id = id)) = some w →
        w.req.src = .host h →
        (∀ d, Gives (.forwardedRequest (.readAnswer id (some d))) s fun t =>
          ∃ load, .memRsp w.req.p h w.req.dpa (.data d) load ∈ t.out) ∧
        (Gives (.forwardedRequest (.readAnswer id none)) s fun t =>
          ∃ load, .memRsp w.req.p h w.req.dpa .poison load ∈ t.out) ∧
        Gives (.forwardedRequest (.writeAnswer id)) s fun t =>
          t.belay.forwarded = s.belay.forwarded.erase w ∧ ∃ load, .memRsp w.req.p h w.req.dpa .cmp load ∈ t.out) ∧
      (∀ id b, (Gives (.forwardedRequest (.block id b)) s fun t =>
          ∃ d, .belay 1 (.forward (.blockAnswer b d)) ∈ t.out) ∧
        ∀ bs : List Byte, s.memoriesWf = true → frameOf s b = none → ahas s.tier.twinWaits b = false →
          (pcOf s (pcOfAddr (blockDpa b))).held = [] →
          Gives (.forwardedRequest (.blockAnswer b (some bs))) s fun t =>
            (∀ k, (hk : k < bs.length) → Memory.get t.mem (blockDpa b + k) = bs[k]) ∧
            b ∉ (pcOf t (pcOfAddr (blockDpa b))).resync) ∧
      (∀ n body, bRole s ≠ roleLead → Gives (.journalEntry (.entry n body)) s fun t =>
        .belay 0 (.journal (.ack n)) ∈ t.out ∧ t.belay.journal = s.belay.journal ++ [⟨n, body, true⟩]) ∧
      (∀ n, (bRole s = roleLead → Gives (.journalEntry (.ack n)) s fun t => t.belay.journal =
          s.belay.journal.map fun e => if e.num = n then { e with acked := true } else e) ∧
        (bRole s ≠ roleLead → Gives (.journalEntry (.ack n)) s fun t => t.belay.journal =
          s.belay.journal.filter fun e => e.acked || decide (e.num ≠ n)))) ∧
    (paired s = true →
      (∀ n p, s.belay.journal = [⟨n, .revive p, true⟩] → Gives .journalApply s fun t => t.belay.journal = [] ∧
        pState t p = pActive ∧
        fget t .belayJournalApplied = (fget s .belayJournalApplied + 1) % 2 ^ Fld.belayJournalApplied.desc.w) ∧
      ((∀ e ∈ s.belay.journal, e.acked = false) → Gives .journalApply s fun t =>
        t.belay.journal = s.belay.journal ∧ t.exts = s.exts ∧ t.parts = s.parts)) ∧
    (twinUp s = true → bState s = bsResync →
      (∀ seg blocks, seg ∈ s.belay.unsync → copyWaits s = false → Gives (.resyncSegmentDone seg blocks) s fun t =>
        seg ∉ t.belay.unsync ∧ fget t .belayResyncProgDoneSeg =
          min (fget s .belayResyncProgDoneSeg + 1) (2 ^ Fld.belayResyncProgDoneSeg.desc.w - 1) ∧
        (bRole s = roleLead → .belay 3 (.resyncSegment seg (segBlocks s seg)) ∈ t.out) ∧
        ∀ b bs bad, bRole s ≠ roleLead → s.boot.tiered = false → s.frames = [] → s.memoriesWf = true → blocks = [(b, bs, bad)] →
          segmentOf (blockDpa b) = seg → pcSt s (pcOfAddr (blockDpa b)) ≠ pcFrozen →
          ∀ k, (hk : k < bs.length) → Memory.get t.mem (blockDpa b + k) = bs[k]) ∧
      (s.belay.unsync = [] → Gives .resyncDone s fun t => bState t = bsInSync ∧
        fget t .belayResyncInfoActive = 0 ∧ Signalled t .belayResyncDone)) ∧
    (∀ d : Die, dieOut s d = false → Gives (.dieLost d) s fun t => dieOut t d = true ∧
      (twinUp s = true → Signalled t .belayCovering)) ∧
    ∀ d : PortDie, d.val ∉ s.portDiesOut → Gives (.portDieLost d) s fun t => d.val ∈ t.portDiesOut ∧
      (∀ h : Head, h.val / 4 = d.val → linkUp t h = false) ∧ groupUp t d = false ∧
      ∀ (k : Slot) (p : Path), pathDie k p = d.val → pathUp t k p = false
end

