-- ==== Sys2Proof/Laws/Memory.lean ====
section
/-! SUPPORT. The laws of the byte memory: a read after a write, every other byte, and the canonical form. -/

namespace Sys2Proof.Machine.Memory

open Sys2Proof

theorem wfFrom_mono {m : List Host.Cell} {a b : Nat} (h : wfFrom m a = true) (le : b ≤ a) : wfFrom m b = true := by
  cases m with
  | nil => rfl
  | cons c r =>
    simp only [wfFrom, Bool.and_eq_true, decide_eq_true_eq] at h ⊢
    exact ⟨⟨Nat.le_trans le h.1.1, h.1.2⟩, h.2⟩

theorem wfFrom_set {m : List Host.Cell} {lo a : Nat} {v : Byte} (h : wfFrom m lo = true) (ha : lo ≤ a) :
    wfFrom (set m a v) lo = true := by
  induction m generalizing lo with
  | nil =>
    unfold set
    split
    · rfl
    · next hv =>
      simp only [wfFrom, Bool.and_eq_true, decide_eq_true_eq]
      exact ⟨⟨ha, hv⟩, trivial⟩
  | cons c r ih =>
    simp only [wfFrom, Bool.and_eq_true, decide_eq_true_eq] at h
    unfold set
    split
    · next hc =>
      simp only [wfFrom, Bool.and_eq_true, decide_eq_true_eq]
      exact ⟨h.1, ih h.2 hc⟩
    · split
      · next hc =>
        split
        · exact wfFrom_mono h.2 (by omega)
        · next hv =>
          simp only [wfFrom, Bool.and_eq_true, decide_eq_true_eq]
          exact ⟨⟨ha, hv⟩, hc ▸ h.2⟩
      · split
        · simpa [wfFrom] using h
        · next hv =>
          simp only [wfFrom, Bool.and_eq_true, decide_eq_true_eq]
          exact ⟨⟨ha, hv⟩, ⟨by omega, h.1.2⟩, h.2⟩

theorem wf_nil : wf [] = true := rfl

/-- Writing one byte keeps the canonical form. -/
theorem wf_set {m : List Host.Cell} (h : wf m = true) (a : Nat) (v : Byte) : wf (set m a v) = true :=
  wfFrom_set h (Nat.zero_le a)

/-- Writing bytes keeps the canonical form. -/
theorem wf_write {m : List Host.Cell} (h : wf m = true) (a : Nat) (bs : List Byte) : wf (write m a bs) = true := by
  induction bs generalizing m a with
  | nil => exact h
  | cons b r ih => exact ih (wf_set h a b) (a + 1)

theorem wfFrom_filter {m : List Host.Cell} {lo : Nat} (h : wfFrom m lo = true) (p : Host.Cell → Bool) :
    wfFrom (m.filter p) lo = true := by
  induction m generalizing lo with
  | nil => rfl
  | cons c r ih =>
    simp only [wfFrom, Bool.and_eq_true, decide_eq_true_eq] at h
    rw [List.filter_cons]
    split
    · simp only [wfFrom, Bool.and_eq_true, decide_eq_true_eq]
      exact ⟨h.1, ih h.2⟩
    · exact ih (wfFrom_mono h.2 (by omega))

/-- Zeroing a range keeps the canonical form. -/
theorem wf_zero {m : List Host.Cell} (h : wf m = true) (lo hi : Nat) : wf (zero m lo hi) = true :=
  wfFrom_filter h _

theorem get_of_lt {m : List Host.Cell} {lo a : Nat} (h : wfFrom m lo = true) (lt : a < lo) : get m a = 0 := by
  induction m generalizing lo with
  | nil => rfl
  | cons c r ih =>
    simp only [wfFrom, Bool.and_eq_true, decide_eq_true_eq] at h
    rw [get, if_neg (by omega)]
    exact ih h.2 (by omega)

theorem get_set_from {m : List Host.Cell} {lo : Nat} (h : wfFrom m lo = true) (a b : Nat) (v : Byte) :
    get (set m a v) b = if b = a then v else get m b := by
  induction m generalizing lo with
  | nil =>
    unfold set
    split
    · next hv =>
      by_cases hb : b = a
      · rw [if_pos hb, hv]; rfl
      · rw [if_neg hb]
    · simp only [get]
      by_cases hb : b = a
      · rw [if_pos hb, if_pos hb.symm]
      · rw [if_neg hb, if_neg (Ne.symm hb)]
  | cons c r ih =>
    simp only [wfFrom, Bool.and_eq_true, decide_eq_true_eq] at h
    unfold set
    split
    · next hc =>
      simp only [get]
      by_cases hb : c.1 = b
      · simp [hb]; intro h'; omega
      · rw [if_neg hb, if_neg hb, ih h.2]
    · split
      · next hc =>
        split
        · next hv =>
          by_cases hb : b = a
          · subst hb; simp [hv, get_of_lt h.2 (by omega : b < c.1 + 1)]
          · simp [get, hb, hc, Ne.symm hb]
        · simp only [get]
          by_cases hb : b = a
          · simp [hb]
          · simp [hb, hc, Ne.symm hb]
      · next hlt hne =>
        split
        · next hv =>
          by_cases hb : b = a
          · subst hb
            simp only [hv, if_true]
            rw [get, if_neg (by omega), get_of_lt h.2 (by omega)]
          · simp [hb]
        · simp only [get]
          by_cases hb : b = a
          · simp [hb]
          · simp [hb, Ne.symm hb]

/-- A read after a write of one byte: the byte written, or what was there. -/
theorem get_set {m : List Host.Cell} (h : wf m = true) (a b : Nat) (v : Byte) :
    get (set m a v) b = if b = a then v else get m b := get_set_from h a b v

/-- A byte outside the bytes written reads as before. -/
theorem get_write_ne {m : List Host.Cell} (h : wf m = true) (a b : Nat) (bs : List Byte)
    (hb : b < a ∨ a + bs.length ≤ b) : get (write m a bs) b = get m b := by
  induction bs generalizing m a with
  | nil => rfl
  | cons x r ih =>
    simp only [List.length_cons] at hb
    rw [write, ih (wf_set h a x) (a + 1) (by omega), get_set h, if_neg (by omega)]

/-- A byte among the bytes written reads as written. -/
theorem get_write {m : List Host.Cell} (h : wf m = true) (a i : Nat) (bs : List Byte) (hi : i < bs.length) :
    get (write m a bs) (a + i) = bs[i] := by
  induction bs generalizing m a i with
  | nil => simp at hi
  | cons x r ih =>
    cases i with
    | zero =>
      rw [write, get_write_ne (wf_set h a x) _ _ _ (by omega), get_set h]
      simp
    | succ i =>
      have := ih (wf_set h a x) (a + 1) i (by simpa using hi)
      rw [write, show a + (i + 1) = a + 1 + i by omega, this]
      rfl

/-- A zeroed range reads zero, and every other byte reads as before. -/
theorem get_zero (m : List Host.Cell) (lo hi a : Nat) :
    get (zero m lo hi) a = if lo ≤ a ∧ a < hi then 0 else get m a := by
  induction m with
  | nil => simp [zero, get]
  | cons c r ih =>
    simp only [zero] at ih ⊢
    rw [List.filter_cons]
    split
    · next hc =>
      simp only [decide_eq_true_eq] at hc
      simp only [get, ih]
      by_cases h : c.1 = a
      · rw [if_pos h, if_pos h, if_neg (by omega)]
      · rw [if_neg h, if_neg h]
    · next hc =>
      simp only [decide_eq_true_eq] at hc
      rw [ih, get]
      by_cases h : c.1 = a
      · rw [if_pos (by omega), if_pos (by omega)]
      · rw [if_neg h]

end Sys2Proof.Machine.Memory
end

