-- ==== Sys2Proof/Laws/State.lean ====
section
/-! SUPPORT. One lemma for each field of `State` and each named update of Machine/Ops.lean: the update leaves the
field, or sets it. After them, what each accessor reads after each update. -/

set_option linter.all false

namespace Sys2Proof.Machine

open Sys2Proof

/-! ### Maps -/

@[simp] theorem aget_nil {κ α : Type} [DecidableEq κ] (k : κ) (d : α) : aget ([] : Assoc κ α) k d = d := rfl

theorem aget_adel_ne {κ α : Type} [DecidableEq κ] (m : Assoc κ α) {k l : κ} (d : α) (h : l ≠ k) :
    aget (adel m k) l d = aget m l d := by
  induction m with
  | nil => rfl
  | cons e r ih =>
    unfold adel at ih ⊢
    by_cases hk : e.1 = k
    · rw [List.filter_cons_of_neg (by simp [hk]), ih]
      conv => rhs; unfold aget
      rw [if_neg (fun c => h (c.symm.trans hk))]
    · rw [List.filter_cons_of_pos (by simp [hk])]
      unfold aget
      rw [ih]

theorem aget_adel_self {κ α : Type} [DecidableEq κ] (m : Assoc κ α) (k : κ) (d : α) : aget (adel m k) k d = d := by
  induction m with
  | nil => rfl
  | cons e r ih =>
    unfold adel at ih ⊢
    by_cases hk : e.1 = k
    · rw [List.filter_cons_of_neg (by simp [hk]), ih]
    · rw [List.filter_cons_of_pos (by simp [hk])]
      unfold aget
      rw [if_neg hk, ih]

@[simp] theorem aget_aset_self {κ α : Type} [DecidableEq κ] (m : Assoc κ α) (k : κ) (v d : α) :
    aget (aset m k v) k d = v := by
  unfold aset aget
  exact if_pos rfl

theorem aget_aset_ne {κ α : Type} [DecidableEq κ] (m : Assoc κ α) {k l : κ} (v d : α) (h : l ≠ k) :
    aget (aset m k v) l d = aget m l d := by
  unfold aset
  conv => lhs; unfold aget
  rw [if_neg (fun c => h c.symm), aget_adel_ne m d h]

/-! ### Fields under updates -/
@[simp] theorem fset_pending (s : State) (f : Fld) (v i j : Nat) : (fset s f v i j).pending = s.pending := rfl
@[simp] theorem fset_out (s : State) (f : Fld) (v i j : Nat) : (fset s f v i j).out = s.out := rfl
@[simp] theorem fset_free (s : State) (f : Fld) (v i j : Nat) : (fset s f v i j).free = s.free := rfl
@[simp] theorem fset_lag (s : State) (f : Fld) (v i j : Nat) : (fset s f v i j).lag = s.lag := rfl
@[simp] theorem fset_hdr (s : State) (f : Fld) (v i j : Nat) : (fset s f v i j).hdr = s.hdr := rfl
@[simp] theorem fset_mem (s : State) (f : Fld) (v i j : Nat) : (fset s f v i j).mem = s.mem := rfl
@[simp] theorem fset_poison (s : State) (f : Fld) (v i j : Nat) : (fset s f v i j).poison = s.poison := rfl
@[simp] theorem fset_damage (s : State) (f : Fld) (v i j : Nat) : (fset s f v i j).damage = s.damage := rfl
@[simp] theorem fset_boot (s : State) (f : Fld) (v i j : Nat) : (fset s f v i j).boot = s.boot := rfl
@[simp] theorem fset_flash (s : State) (f : Fld) (v i j : Nat) : (fset s f v i j).flash = s.flash := rfl
@[simp] theorem fset_power (s : State) (f : Fld) (v i j : Nat) : (fset s f v i j).power = s.power := rfl
@[simp] theorem fset_tb (s : State) (f : Fld) (v i j : Nat) : (fset s f v i j).tb = s.tb := rfl
@[simp] theorem fset_heads (s : State) (f : Fld) (v i j : Nat) : (fset s f v i j).heads = s.heads := rfl
@[simp] theorem fset_cfgs (s : State) (f : Fld) (v i j : Nat) : (fset s f v i j).cfgs = s.cfgs := rfl
@[simp] theorem fset_hdms (s : State) (f : Fld) (v i j : Nat) : (fset s f v i j).hdms = s.hdms := rfl
@[simp] theorem fset_parts (s : State) (f : Fld) (v i j : Nat) : (fset s f v i j).parts = s.parts := rfl
@[simp] theorem fset_exts (s : State) (f : Fld) (v i j : Nat) : (fset s f v i j).exts = s.exts := rfl
@[simp] theorem fset_attrDue (s : State) (f : Fld) (v i j : Nat) : (fset s f v i j).attrDue = s.attrDue := rfl
@[simp] theorem fset_reserve (s : State) (f : Fld) (v i j : Nat) : (fset s f v i j).reserve = s.reserve := rfl
@[simp] theorem fset_sanReqs (s : State) (f : Fld) (v i j : Nat) : (fset s f v i j).sanReqs = s.sanReqs := rfl
@[simp] theorem fset_sanHalf (s : State) (f : Fld) (v i j : Nat) : (fset s f v i j).sanHalf = s.sanHalf := rfl
@[simp] theorem fset_fmLog (s : State) (f : Fld) (v i j : Nat) : (fset s f v i j).fmLog = s.fmLog := rfl
@[simp] theorem fset_dir (s : State) (f : Fld) (v i j : Nat) : (fset s f v i j).dir = s.dir := rfl
@[simp] theorem fset_trans (s : State) (f : Fld) (v i j : Nat) : (fset s f v i j).trans = s.trans := rfl
@[simp] theorem fset_lineq (s : State) (f : Fld) (v i j : Nat) : (fset s f v i j).lineq = s.lineq := rfl
@[simp] theorem fset_snaps (s : State) (f : Fld) (v i j : Nat) : (fset s f v i j).snaps = s.snaps := rfl
@[simp] theorem fset_snapCmds (s : State) (f : Fld) (v i j : Nat) : (fset s f v i j).snapCmds = s.snapCmds := rfl
@[simp] theorem fset_frames (s : State) (f : Fld) (v i j : Nat) : (fset s f v i j).frames = s.frames := rfl
@[simp] theorem fset_pinMarks (s : State) (f : Fld) (v i j : Nat) : (fset s f v i j).pinMarks = s.pinMarks := rfl
@[simp] theorem fset_lbaMap (s : State) (f : Fld) (v i j : Nat) : (fset s f v i j).lbaMap = s.lbaMap := rfl
@[simp] theorem fset_ssd (s : State) (f : Fld) (v i j : Nat) : (fset s f v i j).ssd = s.ssd := rfl
@[simp] theorem fset_locks (s : State) (f : Fld) (v i j : Nat) : (fset s f v i j).locks = s.locks := rfl
@[simp] theorem fset_ios (s : State) (f : Fld) (v i j : Nat) : (fset s f v i j).ios = s.ios := rfl
@[simp] theorem fset_nextIo (s : State) (f : Fld) (v i j : Nat) : (fset s f v i j).nextIo = s.nextIo := rfl
@[simp] theorem fset_slots (s : State) (f : Fld) (v i j : Nat) : (fset s f v i j).slots = s.slots := rfl
@[simp] theorem fset_rebuild (s : State) (f : Fld) (v i j : Nat) : (fset s f v i j).rebuild = s.rebuild := rfl
@[simp] theorem fset_tier (s : State) (f : Fld) (v i j : Nat) : (fset s f v i j).tier = s.tier := rfl
@[simp] theorem fset_draining (s : State) (f : Fld) (v i j : Nat) : (fset s f v i j).draining = s.draining := rfl
@[simp] theorem fset_hints (s : State) (f : Fld) (v i j : Nat) : (fset s f v i j).hints = s.hints := rfl
@[simp] theorem fset_index (s : State) (f : Fld) (v i j : Nat) : (fset s f v i j).index = s.index := rfl
@[simp] theorem fset_segs (s : State) (f : Fld) (v i j : Nat) : (fset s f v i j).segs = s.segs := rfl
@[simp] theorem fset_cache (s : State) (f : Fld) (v i j : Nat) : (fset s f v i j).cache = s.cache := rfl
@[simp] theorem fset_expPitch (s : State) (f : Fld) (v i j : Nat) : (fset s f v i j).expPitch = s.expPitch := rfl
@[simp] theorem fset_compactQ (s : State) (f : Fld) (v i j : Nat) : (fset s f v i j).compactQ = s.compactQ := rfl
@[simp] theorem fset_stale (s : State) (f : Fld) (v i j : Nat) : (fset s f v i j).stale = s.stale := rfl
@[simp] theorem fset_damaged (s : State) (f : Fld) (v i j : Nat) : (fset s f v i j).damaged = s.damaged := rfl
@[simp] theorem fset_rings (s : State) (f : Fld) (v i j : Nat) : (fset s f v i j).rings = s.rings := rfl
@[simp] theorem fset_ringMem (s : State) (f : Fld) (v i j : Nat) : (fset s f v i j).ringMem = s.ringMem := rfl
@[simp] theorem fset_jobs (s : State) (f : Fld) (v i j : Nat) : (fset s f v i j).jobs = s.jobs := rfl
@[simp] theorem fset_windows (s : State) (f : Fld) (v i j : Nat) : (fset s f v i j).windows = s.windows := rfl
@[simp] theorem fset_applied (s : State) (f : Fld) (v i j : Nat) : (fset s f v i j).applied = s.applied := rfl
@[simp] theorem fset_steps (s : State) (f : Fld) (v i j : Nat) : (fset s f v i j).steps = s.steps := rfl
@[simp] theorem fset_coreTrips (s : State) (f : Fld) (v i j : Nat) : (fset s f v i j).coreTrips = s.coreTrips := rfl
@[simp] theorem fset_coresOut (s : State) (f : Fld) (v i j : Nat) : (fset s f v i j).coresOut = s.coresOut := rfl
@[simp] theorem fset_qos (s : State) (f : Fld) (v i j : Nat) : (fset s f v i j).qos = s.qos := rfl
@[simp] theorem fset_pcs (s : State) (f : Fld) (v i j : Nat) : (fset s f v i j).pcs = s.pcs := rfl
@[simp] theorem fset_portDiesOut (s : State) (f : Fld) (v i j : Nat) : (fset s f v i j).portDiesOut = s.portDiesOut := rfl
@[simp] theorem fset_clustersOut (s : State) (f : Fld) (v i j : Nat) : (fset s f v i j).clustersOut = s.clustersOut := rfl
@[simp] theorem fset_resetting (s : State) (f : Fld) (v i j : Nat) : (fset s f v i j).resetting = s.resetting := rfl
@[simp] theorem fset_stores (s : State) (f : Fld) (v i j : Nat) : (fset s f v i j).stores = s.stores := rfl
@[simp] theorem fset_repaired (s : State) (f : Fld) (v i j : Nat) : (fset s f v i j).repaired = s.repaired := rfl
@[simp] theorem fset_ras (s : State) (f : Fld) (v i j : Nat) : (fset s f v i j).ras = s.ras := rfl
@[simp] theorem fset_cairn (s : State) (f : Fld) (v i j : Nat) : (fset s f v i j).cairn = s.cairn := rfl
@[simp] theorem fset_belay (s : State) (f : Fld) (v i j : Nat) : (fset s f v i j).belay = s.belay := rfl
@[simp] theorem fset_sessions (s : State) (f : Fld) (v i j : Nat) : (fset s f v i j).sessions = s.sessions := rfl
@[simp] theorem fset_pins (s : State) (f : Fld) (v i j : Nat) : (fset s f v i j).pins = s.pins := rfl
@[simp] theorem fsetLate_pending (s : State) (f : Fld) (v i j : Nat) : (fsetLate s f v i j).pending = s.pending := rfl
@[simp] theorem fsetLate_out (s : State) (f : Fld) (v i j : Nat) : (fsetLate s f v i j).out = s.out := rfl
@[simp] theorem fsetLate_free (s : State) (f : Fld) (v i j : Nat) : (fsetLate s f v i j).free = s.free := rfl
@[simp] theorem fsetLate_hdr (s : State) (f : Fld) (v i j : Nat) : (fsetLate s f v i j).hdr = s.hdr := rfl
@[simp] theorem fsetLate_mem (s : State) (f : Fld) (v i j : Nat) : (fsetLate s f v i j).mem = s.mem := rfl
@[simp] theorem fsetLate_poison (s : State) (f : Fld) (v i j : Nat) : (fsetLate s f v i j).poison = s.poison := rfl
@[simp] theorem fsetLate_damage (s : State) (f : Fld) (v i j : Nat) : (fsetLate s f v i j).damage = s.damage := rfl
@[simp] theorem fsetLate_boot (s : State) (f : Fld) (v i j : Nat) : (fsetLate s f v i j).boot = s.boot := rfl
@[simp] theorem fsetLate_flash (s : State) (f : Fld) (v i j : Nat) : (fsetLate s f v i j).flash = s.flash := rfl
@[simp] theorem fsetLate_power (s : State) (f : Fld) (v i j : Nat) : (fsetLate s f v i j).power = s.power := rfl
@[simp] theorem fsetLate_tb (s : State) (f : Fld) (v i j : Nat) : (fsetLate s f v i j).tb = s.tb := rfl
@[simp] theorem fsetLate_heads (s : State) (f : Fld) (v i j : Nat) : (fsetLate s f v i j).heads = s.heads := rfl
@[simp] theorem fsetLate_cfgs (s : State) (f : Fld) (v i j : Nat) : (fsetLate s f v i j).cfgs = s.cfgs := rfl
@[simp] theorem fsetLate_hdms (s : State) (f : Fld) (v i j : Nat) : (fsetLate s f v i j).hdms = s.hdms := rfl
@[simp] theorem fsetLate_parts (s : State) (f : Fld) (v i j : Nat) : (fsetLate s f v i j).parts = s.parts := rfl
@[simp] theorem fsetLate_exts (s : State) (f : Fld) (v i j : Nat) : (fsetLate s f v i j).exts = s.exts := rfl
@[simp] theorem fsetLate_attrDue (s : State) (f : Fld) (v i j : Nat) : (fsetLate s f v i j).attrDue = s.attrDue := rfl
@[simp] theorem fsetLate_reserve (s : State) (f : Fld) (v i j : Nat) : (fsetLate s f v i j).reserve = s.reserve := rfl
@[simp] theorem fsetLate_sanReqs (s : State) (f : Fld) (v i j : Nat) : (fsetLate s f v i j).sanReqs = s.sanReqs := rfl
@[simp] theorem fsetLate_sanHalf (s : State) (f : Fld) (v i j : Nat) : (fsetLate s f v i j).sanHalf = s.sanHalf := rfl
@[simp] theorem fsetLate_fmLog (s : State) (f : Fld) (v i j : Nat) : (fsetLate s f v i j).fmLog = s.fmLog := rfl
@[simp] theorem fsetLate_dir (s : State) (f : Fld) (v i j : Nat) : (fsetLate s f v i j).dir = s.dir := rfl
@[simp] theorem fsetLate_trans (s : State) (f : Fld) (v i j : Nat) : (fsetLate s f v i j).trans = s.trans := rfl
@[simp] theorem fsetLate_lineq (s : State) (f : Fld) (v i j : Nat) : (fsetLate s f v i j).lineq = s.lineq := rfl
@[simp] theorem fsetLate_snaps (s : State) (f : Fld) (v i j : Nat) : (fsetLate s f v i j).snaps = s.snaps := rfl
@[simp] theorem fsetLate_snapCmds (s : State) (f : Fld) (v i j : Nat) : (fsetLate s f v i j).snapCmds = s.snapCmds := rfl
@[simp] theorem fsetLate_frames (s : State) (f : Fld) (v i j : Nat) : (fsetLate s f v i j).frames = s.frames := rfl
@[simp] theorem fsetLate_pinMarks (s : State) (f : Fld) (v i j : Nat) : (fsetLate s f v i j).pinMarks = s.pinMarks := rfl
@[simp] theorem fsetLate_lbaMap (s : State) (f : Fld) (v i j : Nat) : (fsetLate s f v i j).lbaMap = s.lbaMap := rfl
@[simp] theorem fsetLate_ssd (s : State) (f : Fld) (v i j : Nat) : (fsetLate s f v i j).ssd = s.ssd := rfl
@[simp] theorem fsetLate_locks (s : State) (f : Fld) (v i j : Nat) : (fsetLate s f v i j).locks = s.locks := rfl
@[simp] theorem fsetLate_ios (s : State) (f : Fld) (v i j : Nat) : (fsetLate s f v i j).ios = s.ios := rfl
@[simp] theorem fsetLate_nextIo (s : State) (f : Fld) (v i j : Nat) : (fsetLate s f v i j).nextIo = s.nextIo := rfl
@[simp] theorem fsetLate_slots (s : State) (f : Fld) (v i j : Nat) : (fsetLate s f v i j).slots = s.slots := rfl
@[simp] theorem fsetLate_rebuild (s : State) (f : Fld) (v i j : Nat) : (fsetLate s f v i j).rebuild = s.rebuild := rfl
@[simp] theorem fsetLate_tier (s : State) (f : Fld) (v i j : Nat) : (fsetLate s f v i j).tier = s.tier := rfl
@[simp] theorem fsetLate_draining (s : State) (f : Fld) (v i j : Nat) : (fsetLate s f v i j).draining = s.draining := rfl
@[simp] theorem fsetLate_hints (s : State) (f : Fld) (v i j : Nat) : (fsetLate s f v i j).hints = s.hints := rfl
@[simp] theorem fsetLate_index (s : State) (f : Fld) (v i j : Nat) : (fsetLate s f v i j).index = s.index := rfl
@[simp] theorem fsetLate_segs (s : State) (f : Fld) (v i j : Nat) : (fsetLate s f v i j).segs = s.segs := rfl
@[simp] theorem fsetLate_cache (s : State) (f : Fld) (v i j : Nat) : (fsetLate s f v i j).cache = s.cache := rfl
@[simp] theorem fsetLate_expPitch (s : State) (f : Fld) (v i j : Nat) : (fsetLate s f v i j).expPitch = s.expPitch := rfl
@[simp] theorem fsetLate_compactQ (s : State) (f : Fld) (v i j : Nat) : (fsetLate s f v i j).compactQ = s.compactQ := rfl
@[simp] theorem fsetLate_stale (s : State) (f : Fld) (v i j : Nat) : (fsetLate s f v i j).stale = s.stale := rfl
@[simp] theorem fsetLate_damaged (s : State) (f : Fld) (v i j : Nat) : (fsetLate s f v i j).damaged = s.damaged := rfl
@[simp] theorem fsetLate_rings (s : State) (f : Fld) (v i j : Nat) : (fsetLate s f v i j).rings = s.rings := rfl
@[simp] theorem fsetLate_ringMem (s : State) (f : Fld) (v i j : Nat) : (fsetLate s f v i j).ringMem = s.ringMem := rfl
@[simp] theorem fsetLate_jobs (s : State) (f : Fld) (v i j : Nat) : (fsetLate s f v i j).jobs = s.jobs := rfl
@[simp] theorem fsetLate_windows (s : State) (f : Fld) (v i j : Nat) : (fsetLate s f v i j).windows = s.windows := rfl
@[simp] theorem fsetLate_applied (s : State) (f : Fld) (v i j : Nat) : (fsetLate s f v i j).applied = s.applied := rfl
@[simp] theorem fsetLate_steps (s : State) (f : Fld) (v i j : Nat) : (fsetLate s f v i j).steps = s.steps := rfl
@[simp] theorem fsetLate_coreTrips (s : State) (f : Fld) (v i j : Nat) : (fsetLate s f v i j).coreTrips = s.coreTrips := rfl
@[simp] theorem fsetLate_coresOut (s : State) (f : Fld) (v i j : Nat) : (fsetLate s f v i j).coresOut = s.coresOut := rfl
@[simp] theorem fsetLate_qos (s : State) (f : Fld) (v i j : Nat) : (fsetLate s f v i j).qos = s.qos := rfl
@[simp] theorem fsetLate_pcs (s : State) (f : Fld) (v i j : Nat) : (fsetLate s f v i j).pcs = s.pcs := rfl
@[simp] theorem fsetLate_portDiesOut (s : State) (f : Fld) (v i j : Nat) : (fsetLate s f v i j).portDiesOut = s.portDiesOut := rfl
@[simp] theorem fsetLate_clustersOut (s : State) (f : Fld) (v i j : Nat) : (fsetLate s f v i j).clustersOut = s.clustersOut := rfl
@[simp] theorem fsetLate_resetting (s : State) (f : Fld) (v i j : Nat) : (fsetLate s f v i j).resetting = s.resetting := rfl
@[simp] theorem fsetLate_stores (s : State) (f : Fld) (v i j : Nat) : (fsetLate s f v i j).stores = s.stores := rfl
@[simp] theorem fsetLate_repaired (s : State) (f : Fld) (v i j : Nat) : (fsetLate s f v i j).repaired = s.repaired := rfl
@[simp] theorem fsetLate_ras (s : State) (f : Fld) (v i j : Nat) : (fsetLate s f v i j).ras = s.ras := rfl
@[simp] theorem fsetLate_cairn (s : State) (f : Fld) (v i j : Nat) : (fsetLate s f v i j).cairn = s.cairn := rfl
@[simp] theorem fsetLate_belay (s : State) (f : Fld) (v i j : Nat) : (fsetLate s f v i j).belay = s.belay := rfl
@[simp] theorem fsetLate_sessions (s : State) (f : Fld) (v i j : Nat) : (fsetLate s f v i j).sessions = s.sessions := rfl
@[simp] theorem fsetLate_pins (s : State) (f : Fld) (v i j : Nat) : (fsetLate s f v i j).pins = s.pins := rfl
@[simp] theorem fsetNow_pending (s : State) (f : Fld) (v i j : Nat) : (fsetNow s f v i j).pending = s.pending := rfl
@[simp] theorem fsetNow_out (s : State) (f : Fld) (v i j : Nat) : (fsetNow s f v i j).out = s.out := rfl
@[simp] theorem fsetNow_free (s : State) (f : Fld) (v i j : Nat) : (fsetNow s f v i j).free = s.free := rfl
@[simp] theorem fsetNow_hdr (s : State) (f : Fld) (v i j : Nat) : (fsetNow s f v i j).hdr = s.hdr := rfl
@[simp] theorem fsetNow_mem (s : State) (f : Fld) (v i j : Nat) : (fsetNow s f v i j).mem = s.mem := rfl
@[simp] theorem fsetNow_poison (s : State) (f : Fld) (v i j : Nat) : (fsetNow s f v i j).poison = s.poison := rfl
@[simp] theorem fsetNow_damage (s : State) (f : Fld) (v i j : Nat) : (fsetNow s f v i j).damage = s.damage := rfl
@[simp] theorem fsetNow_boot (s : State) (f : Fld) (v i j : Nat) : (fsetNow s f v i j).boot = s.boot := rfl
@[simp] theorem fsetNow_flash (s : State) (f : Fld) (v i j : Nat) : (fsetNow s f v i j).flash = s.flash := rfl
@[simp] theorem fsetNow_power (s : State) (f : Fld) (v i j : Nat) : (fsetNow s f v i j).power = s.power := rfl
@[simp] theorem fsetNow_tb (s : State) (f : Fld) (v i j : Nat) : (fsetNow s f v i j).tb = s.tb := rfl
@[simp] theorem fsetNow_heads (s : State) (f : Fld) (v i j : Nat) : (fsetNow s f v i j).heads = s.heads := rfl
@[simp] theorem fsetNow_cfgs (s : State) (f : Fld) (v i j : Nat) : (fsetNow s f v i j).cfgs = s.cfgs := rfl
@[simp] theorem fsetNow_hdms (s : State) (f : Fld) (v i j : Nat) : (fsetNow s f v i j).hdms = s.hdms := rfl
@[simp] theorem fsetNow_parts (s : State) (f : Fld) (v i j : Nat) : (fsetNow s f v i j).parts = s.parts := rfl
@[simp] theorem fsetNow_exts (s : State) (f : Fld) (v i j : Nat) : (fsetNow s f v i j).exts = s.exts := rfl
@[simp] theorem fsetNow_attrDue (s : State) (f : Fld) (v i j : Nat) : (fsetNow s f v i j).attrDue = s.attrDue := rfl
@[simp] theorem fsetNow_reserve (s : State) (f : Fld) (v i j : Nat) : (fsetNow s f v i j).reserve = s.reserve := rfl
@[simp] theorem fsetNow_sanReqs (s : State) (f : Fld) (v i j : Nat) : (fsetNow s f v i j).sanReqs = s.sanReqs := rfl
@[simp] theorem fsetNow_sanHalf (s : State) (f : Fld) (v i j : Nat) : (fsetNow s f v i j).sanHalf = s.sanHalf := rfl
@[simp] theorem fsetNow_fmLog (s : State) (f : Fld) (v i j : Nat) : (fsetNow s f v i j).fmLog = s.fmLog := rfl
@[simp] theorem fsetNow_dir (s : State) (f : Fld) (v i j : Nat) : (fsetNow s f v i j).dir = s.dir := rfl
@[simp] theorem fsetNow_trans (s : State) (f : Fld) (v i j : Nat) : (fsetNow s f v i j).trans = s.trans := rfl
@[simp] theorem fsetNow_lineq (s : State) (f : Fld) (v i j : Nat) : (fsetNow s f v i j).lineq = s.lineq := rfl
@[simp] theorem fsetNow_snaps (s : State) (f : Fld) (v i j : Nat) : (fsetNow s f v i j).snaps = s.snaps := rfl
@[simp] theorem fsetNow_snapCmds (s : State) (f : Fld) (v i j : Nat) : (fsetNow s f v i j).snapCmds = s.snapCmds := rfl
@[simp] theorem fsetNow_frames (s : State) (f : Fld) (v i j : Nat) : (fsetNow s f v i j).frames = s.frames := rfl
@[simp] theorem fsetNow_pinMarks (s : State) (f : Fld) (v i j : Nat) : (fsetNow s f v i j).pinMarks = s.pinMarks := rfl
@[simp] theorem fsetNow_lbaMap (s : State) (f : Fld) (v i j : Nat) : (fsetNow s f v i j).lbaMap = s.lbaMap := rfl
@[simp] theorem fsetNow_ssd (s : State) (f : Fld) (v i j : Nat) : (fsetNow s f v i j).ssd = s.ssd := rfl
@[simp] theorem fsetNow_locks (s : State) (f : Fld) (v i j : Nat) : (fsetNow s f v i j).locks = s.locks := rfl
@[simp] theorem fsetNow_ios (s : State) (f : Fld) (v i j : Nat) : (fsetNow s f v i j).ios = s.ios := rfl
@[simp] theorem fsetNow_nextIo (s : State) (f : Fld) (v i j : Nat) : (fsetNow s f v i j).nextIo = s.nextIo := rfl
@[simp] theorem fsetNow_slots (s : State) (f : Fld) (v i j : Nat) : (fsetNow s f v i j).slots = s.slots := rfl
@[simp] theorem fsetNow_rebuild (s : State) (f : Fld) (v i j : Nat) : (fsetNow s f v i j).rebuild = s.rebuild := rfl
@[simp] theorem fsetNow_tier (s : State) (f : Fld) (v i j : Nat) : (fsetNow s f v i j).tier = s.tier := rfl
@[simp] theorem fsetNow_draining (s : State) (f : Fld) (v i j : Nat) : (fsetNow s f v i j).draining = s.draining := rfl
@[simp] theorem fsetNow_hints (s : State) (f : Fld) (v i j : Nat) : (fsetNow s f v i j).hints = s.hints := rfl
@[simp] theorem fsetNow_index (s : State) (f : Fld) (v i j : Nat) : (fsetNow s f v i j).index = s.index := rfl
@[simp] theorem fsetNow_segs (s : State) (f : Fld) (v i j : Nat) : (fsetNow s f v i j).segs = s.segs := rfl
@[simp] theorem fsetNow_cache (s : State) (f : Fld) (v i j : Nat) : (fsetNow s f v i j).cache = s.cache := rfl
@[simp] theorem fsetNow_expPitch (s : State) (f : Fld) (v i j : Nat) : (fsetNow s f v i j).expPitch = s.expPitch := rfl
@[simp] theorem fsetNow_compactQ (s : State) (f : Fld) (v i j : Nat) : (fsetNow s f v i j).compactQ = s.compactQ := rfl
@[simp] theorem fsetNow_stale (s : State) (f : Fld) (v i j : Nat) : (fsetNow s f v i j).stale = s.stale := rfl
@[simp] theorem fsetNow_damaged (s : State) (f : Fld) (v i j : Nat) : (fsetNow s f v i j).damaged = s.damaged := rfl
@[simp] theorem fsetNow_rings (s : State) (f : Fld) (v i j : Nat) : (fsetNow s f v i j).rings = s.rings := rfl
@[simp] theorem fsetNow_ringMem (s : State) (f : Fld) (v i j : Nat) : (fsetNow s f v i j).ringMem = s.ringMem := rfl
@[simp] theorem fsetNow_jobs (s : State) (f : Fld) (v i j : Nat) : (fsetNow s f v i j).jobs = s.jobs := rfl
@[simp] theorem fsetNow_windows (s : State) (f : Fld) (v i j : Nat) : (fsetNow s f v i j).windows = s.windows := rfl
@[simp] theorem fsetNow_applied (s : State) (f : Fld) (v i j : Nat) : (fsetNow s f v i j).applied = s.applied := rfl
@[simp] theorem fsetNow_steps (s : State) (f : Fld) (v i j : Nat) : (fsetNow s f v i j).steps = s.steps := rfl
@[simp] theorem fsetNow_coreTrips (s : State) (f : Fld) (v i j : Nat) : (fsetNow s f v i j).coreTrips = s.coreTrips := rfl
@[simp] theorem fsetNow_coresOut (s : State) (f : Fld) (v i j : Nat) : (fsetNow s f v i j).coresOut = s.coresOut := rfl
@[simp] theorem fsetNow_qos (s : State) (f : Fld) (v i j : Nat) : (fsetNow s f v i j).qos = s.qos := rfl
@[simp] theorem fsetNow_pcs (s : State) (f : Fld) (v i j : Nat) : (fsetNow s f v i j).pcs = s.pcs := rfl
@[simp] theorem fsetNow_portDiesOut (s : State) (f : Fld) (v i j : Nat) : (fsetNow s f v i j).portDiesOut = s.portDiesOut := rfl
@[simp] theorem fsetNow_clustersOut (s : State) (f : Fld) (v i j : Nat) : (fsetNow s f v i j).clustersOut = s.clustersOut := rfl
@[simp] theorem fsetNow_resetting (s : State) (f : Fld) (v i j : Nat) : (fsetNow s f v i j).resetting = s.resetting := rfl
@[simp] theorem fsetNow_stores (s : State) (f : Fld) (v i j : Nat) : (fsetNow s f v i j).stores = s.stores := rfl
@[simp] theorem fsetNow_repaired (s : State) (f : Fld) (v i j : Nat) : (fsetNow s f v i j).repaired = s.repaired := rfl
@[simp] theorem fsetNow_ras (s : State) (f : Fld) (v i j : Nat) : (fsetNow s f v i j).ras = s.ras := rfl
@[simp] theorem fsetNow_cairn (s : State) (f : Fld) (v i j : Nat) : (fsetNow s f v i j).cairn = s.cairn := rfl
@[simp] theorem fsetNow_belay (s : State) (f : Fld) (v i j : Nat) : (fsetNow s f v i j).belay = s.belay := rfl
@[simp] theorem fsetNow_sessions (s : State) (f : Fld) (v i j : Nat) : (fsetNow s f v i j).sessions = s.sessions := rfl
@[simp] theorem fsetNow_pins (s : State) (f : Fld) (v i j : Nat) : (fsetNow s f v i j).pins = s.pins := rfl
@[simp] theorem fcatch_pending (s : State) (p : Fld → Bool) : (fcatch s p).pending = s.pending := rfl
@[simp] theorem fcatch_out (s : State) (p : Fld → Bool) : (fcatch s p).out = s.out := rfl
@[simp] theorem fcatch_free (s : State) (p : Fld → Bool) : (fcatch s p).free = s.free := rfl
@[simp] theorem fcatch_regs (s : State) (p : Fld → Bool) : (fcatch s p).regs = s.regs := rfl
@[simp] theorem fcatch_hdr (s : State) (p : Fld → Bool) : (fcatch s p).hdr = s.hdr := rfl
@[simp] theorem fcatch_mem (s : State) (p : Fld → Bool) : (fcatch s p).mem = s.mem := rfl
@[simp] theorem fcatch_poison (s : State) (p : Fld → Bool) : (fcatch s p).poison = s.poison := rfl
@[simp] theorem fcatch_damage (s : State) (p : Fld → Bool) : (fcatch s p).damage = s.damage := rfl
@[simp] theorem fcatch_boot (s : State) (p : Fld → Bool) : (fcatch s p).boot = s.boot := rfl
@[simp] theorem fcatch_flash (s : State) (p : Fld → Bool) : (fcatch s p).flash = s.flash := rfl
@[simp] theorem fcatch_power (s : State) (p : Fld → Bool) : (fcatch s p).power = s.power := rfl
@[simp] theorem fcatch_tb (s : State) (p : Fld → Bool) : (fcatch s p).tb = s.tb := rfl
@[simp] theorem fcatch_heads (s : State) (p : Fld → Bool) : (fcatch s p).heads = s.heads := rfl
@[simp] theorem fcatch_cfgs (s : State) (p : Fld → Bool) : (fcatch s p).cfgs = s.cfgs := rfl
@[simp] theorem fcatch_hdms (s : State) (p : Fld → Bool) : (fcatch s p).hdms = s.hdms := rfl
@[simp] theorem fcatch_parts (s : State) (p : Fld → Bool) : (fcatch s p).parts = s.parts := rfl
@[simp] theorem fcatch_exts (s : State) (p : Fld → Bool) : (fcatch s p).exts = s.exts := rfl
@[simp] theorem fcatch_attrDue (s : State) (p : Fld → Bool) : (fcatch s p).attrDue = s.attrDue := rfl
@[simp] theorem fcatch_reserve (s : State) (p : Fld → Bool) : (fcatch s p).reserve = s.reserve := rfl
@[simp] theorem fcatch_sanReqs (s : State) (p : Fld → Bool) : (fcatch s p).sanReqs = s.sanReqs := rfl
@[simp] theorem fcatch_sanHalf (s : State) (p : Fld → Bool) : (fcatch s p).sanHalf = s.sanHalf := rfl
@[simp] theorem fcatch_fmLog (s : State) (p : Fld → Bool) : (fcatch s p).fmLog = s.fmLog := rfl
@[simp] theorem fcatch_dir (s : State) (p : Fld → Bool) : (fcatch s p).dir = s.dir := rfl
@[simp] theorem fcatch_trans (s : State) (p : Fld → Bool) : (fcatch s p).trans = s.trans := rfl
@[simp] theorem fcatch_lineq (s : State) (p : Fld → Bool) : (fcatch s p).lineq = s.lineq := rfl
@[simp] theorem fcatch_snaps (s : State) (p : Fld → Bool) : (fcatch s p).snaps = s.snaps := rfl
@[simp] theorem fcatch_snapCmds (s : State) (p : Fld → Bool) : (fcatch s p).snapCmds = s.snapCmds := rfl
@[simp] theorem fcatch_frames (s : State) (p : Fld → Bool) : (fcatch s p).frames = s.frames := rfl
@[simp] theorem fcatch_pinMarks (s : State) (p : Fld → Bool) : (fcatch s p).pinMarks = s.pinMarks := rfl
@[simp] theorem fcatch_lbaMap (s : State) (p : Fld → Bool) : (fcatch s p).lbaMap = s.lbaMap := rfl
@[simp] theorem fcatch_ssd (s : State) (p : Fld → Bool) : (fcatch s p).ssd = s.ssd := rfl
@[simp] theorem fcatch_locks (s : State) (p : Fld → Bool) : (fcatch s p).locks = s.locks := rfl
@[simp] theorem fcatch_ios (s : State) (p : Fld → Bool) : (fcatch s p).ios = s.ios := rfl
@[simp] theorem fcatch_nextIo (s : State) (p : Fld → Bool) : (fcatch s p).nextIo = s.nextIo := rfl
@[simp] theorem fcatch_slots (s : State) (p : Fld → Bool) : (fcatch s p).slots = s.slots := rfl
@[simp] theorem fcatch_rebuild (s : State) (p : Fld → Bool) : (fcatch s p).rebuild = s.rebuild := rfl
@[simp] theorem fcatch_tier (s : State) (p : Fld → Bool) : (fcatch s p).tier = s.tier := rfl
@[simp] theorem fcatch_draining (s : State) (p : Fld → Bool) : (fcatch s p).draining = s.draining := rfl
@[simp] theorem fcatch_hints (s : State) (p : Fld → Bool) : (fcatch s p).hints = s.hints := rfl
@[simp] theorem fcatch_index (s : State) (p : Fld → Bool) : (fcatch s p).index = s.index := rfl
@[simp] theorem fcatch_segs (s : State) (p : Fld → Bool) : (fcatch s p).segs = s.segs := rfl
@[simp] theorem fcatch_cache (s : State) (p : Fld → Bool) : (fcatch s p).cache = s.cache := rfl
@[simp] theorem fcatch_expPitch (s : State) (p : Fld → Bool) : (fcatch s p).expPitch = s.expPitch := rfl
@[simp] theorem fcatch_compactQ (s : State) (p : Fld → Bool) : (fcatch s p).compactQ = s.compactQ := rfl
@[simp] theorem fcatch_stale (s : State) (p : Fld → Bool) : (fcatch s p).stale = s.stale := rfl
@[simp] theorem fcatch_damaged (s : State) (p : Fld → Bool) : (fcatch s p).damaged = s.damaged := rfl
@[simp] theorem fcatch_rings (s : State) (p : Fld → Bool) : (fcatch s p).rings = s.rings := rfl
@[simp] theorem fcatch_ringMem (s : State) (p : Fld → Bool) : (fcatch s p).ringMem = s.ringMem := rfl
@[simp] theorem fcatch_jobs (s : State) (p : Fld → Bool) : (fcatch s p).jobs = s.jobs := rfl
@[simp] theorem fcatch_windows (s : State) (p : Fld → Bool) : (fcatch s p).windows = s.windows := rfl
@[simp] theorem fcatch_applied (s : State) (p : Fld → Bool) : (fcatch s p).applied = s.applied := rfl
@[simp] theorem fcatch_steps (s : State) (p : Fld → Bool) : (fcatch s p).steps = s.steps := rfl
@[simp] theorem fcatch_coreTrips (s : State) (p : Fld → Bool) : (fcatch s p).coreTrips = s.coreTrips := rfl
@[simp] theorem fcatch_coresOut (s : State) (p : Fld → Bool) : (fcatch s p).coresOut = s.coresOut := rfl
@[simp] theorem fcatch_qos (s : State) (p : Fld → Bool) : (fcatch s p).qos = s.qos := rfl
@[simp] theorem fcatch_pcs (s : State) (p : Fld → Bool) : (fcatch s p).pcs = s.pcs := rfl
@[simp] theorem fcatch_portDiesOut (s : State) (p : Fld → Bool) : (fcatch s p).portDiesOut = s.portDiesOut := rfl
@[simp] theorem fcatch_clustersOut (s : State) (p : Fld → Bool) : (fcatch s p).clustersOut = s.clustersOut := rfl
@[simp] theorem fcatch_resetting (s : State) (p : Fld → Bool) : (fcatch s p).resetting = s.resetting := rfl
@[simp] theorem fcatch_stores (s : State) (p : Fld → Bool) : (fcatch s p).stores = s.stores := rfl
@[simp] theorem fcatch_repaired (s : State) (p : Fld → Bool) : (fcatch s p).repaired = s.repaired := rfl
@[simp] theorem fcatch_ras (s : State) (p : Fld → Bool) : (fcatch s p).ras = s.ras := rfl
@[simp] theorem fcatch_cairn (s : State) (p : Fld → Bool) : (fcatch s p).cairn = s.cairn := rfl
@[simp] theorem fcatch_belay (s : State) (p : Fld → Bool) : (fcatch s p).belay = s.belay := rfl
@[simp] theorem fcatch_sessions (s : State) (p : Fld → Bool) : (fcatch s p).sessions = s.sessions := rfl
@[simp] theorem fcatch_pins (s : State) (p : Fld → Bool) : (fcatch s p).pins = s.pins := rfl
@[simp] theorem fadd_pending (s : State) (f : Fld) (n i j : Nat) : (fadd s f n i j).pending = s.pending := rfl
@[simp] theorem fadd_out (s : State) (f : Fld) (n i j : Nat) : (fadd s f n i j).out = s.out := rfl
@[simp] theorem fadd_free (s : State) (f : Fld) (n i j : Nat) : (fadd s f n i j).free = s.free := rfl
@[simp] theorem fadd_lag (s : State) (f : Fld) (n i j : Nat) : (fadd s f n i j).lag = s.lag := rfl
@[simp] theorem fadd_hdr (s : State) (f : Fld) (n i j : Nat) : (fadd s f n i j).hdr = s.hdr := rfl
@[simp] theorem fadd_mem (s : State) (f : Fld) (n i j : Nat) : (fadd s f n i j).mem = s.mem := rfl
@[simp] theorem fadd_poison (s : State) (f : Fld) (n i j : Nat) : (fadd s f n i j).poison = s.poison := rfl
@[simp] theorem fadd_damage (s : State) (f : Fld) (n i j : Nat) : (fadd s f n i j).damage = s.damage := rfl
@[simp] theorem fadd_boot (s : State) (f : Fld) (n i j : Nat) : (fadd s f n i j).boot = s.boot := rfl
@[simp] theorem fadd_flash (s : State) (f : Fld) (n i j : Nat) : (fadd s f n i j).flash = s.flash := rfl
@[simp] theorem fadd_power (s : State) (f : Fld) (n i j : Nat) : (fadd s f n i j).power = s.power := rfl
@[simp] theorem fadd_tb (s : State) (f : Fld) (n i j : Nat) : (fadd s f n i j).tb = s.tb := rfl
@[simp] theorem fadd_heads (s : State) (f : Fld) (n i j : Nat) : (fadd s f n i j).heads = s.heads := rfl
@[simp] theorem fadd_cfgs (s : State) (f : Fld) (n i j : Nat) : (fadd s f n i j).cfgs = s.cfgs := rfl
@[simp] theorem fadd_hdms (s : State) (f : Fld) (n i j : Nat) : (fadd s f n i j).hdms = s.hdms := rfl
@[simp] theorem fadd_parts (s : State) (f : Fld) (n i j : Nat) : (fadd s f n i j).parts = s.parts := rfl
@[simp] theorem fadd_exts (s : State) (f : Fld) (n i j : Nat) : (fadd s f n i j).exts = s.exts := rfl
@[simp] theorem fadd_attrDue (s : State) (f : Fld) (n i j : Nat) : (fadd s f n i j).attrDue = s.attrDue := rfl
@[simp] theorem fadd_reserve (s : State) (f : Fld) (n i j : Nat) : (fadd s f n i j).reserve = s.reserve := rfl
@[simp] theorem fadd_sanReqs (s : State) (f : Fld) (n i j : Nat) : (fadd s f n i j).sanReqs = s.sanReqs := rfl
@[simp] theorem fadd_sanHalf (s : State) (f : Fld) (n i j : Nat) : (fadd s f n i j).sanHalf = s.sanHalf := rfl
@[simp] theorem fadd_fmLog (s : State) (f : Fld) (n i j : Nat) : (fadd s f n i j).fmLog = s.fmLog := rfl
@[simp] theorem fadd_dir (s : State) (f : Fld) (n i j : Nat) : (fadd s f n i j).dir = s.dir := rfl
@[simp] theorem fadd_trans (s : State) (f : Fld) (n i j : Nat) : (fadd s f n i j).trans = s.trans := rfl
@[simp] theorem fadd_lineq (s : State) (f : Fld) (n i j : Nat) : (fadd s f n i j).lineq = s.lineq := rfl
@[simp] theorem fadd_snaps (s : State) (f : Fld) (n i j : Nat) : (fadd s f n i j).snaps = s.snaps := rfl
@[simp] theorem fadd_snapCmds (s : State) (f : Fld) (n i j : Nat) : (fadd s f n i j).snapCmds = s.snapCmds := rfl
@[simp] theorem fadd_frames (s : State) (f : Fld) (n i j : Nat) : (fadd s f n i j).frames = s.frames := rfl
@[simp] theorem fadd_pinMarks (s : State) (f : Fld) (n i j : Nat) : (fadd s f n i j).pinMarks = s.pinMarks := rfl
@[simp] theorem fadd_lbaMap (s : State) (f : Fld) (n i j : Nat) : (fadd s f n i j).lbaMap = s.lbaMap := rfl
@[simp] theorem fadd_ssd (s : State) (f : Fld) (n i j : Nat) : (fadd s f n i j).ssd = s.ssd := rfl
@[simp] theorem fadd_locks (s : State) (f : Fld) (n i j : Nat) : (fadd s f n i j).locks = s.locks := rfl
@[simp] theorem fadd_ios (s : State) (f : Fld) (n i j : Nat) : (fadd s f n i j).ios = s.ios := rfl
@[simp] theorem fadd_nextIo (s : State) (f : Fld) (n i j : Nat) : (fadd s f n i j).nextIo = s.nextIo := rfl
@[simp] theorem fadd_slots (s : State) (f : Fld) (n i j : Nat) : (fadd s f n i j).slots = s.slots := rfl
@[simp] theorem fadd_rebuild (s : State) (f : Fld) (n i j : Nat) : (fadd s f n i j).rebuild = s.rebuild := rfl
@[simp] theorem fadd_tier (s : State) (f : Fld) (n i j : Nat) : (fadd s f n i j).tier = s.tier := rfl
@[simp] theorem fadd_draining (s : State) (f : Fld) (n i j : Nat) : (fadd s f n i j).draining = s.draining := rfl
@[simp] theorem fadd_hints (s : State) (f : Fld) (n i j : Nat) : (fadd s f n i j).hints = s.hints := rfl
@[simp] theorem fadd_index (s : State) (f : Fld) (n i j : Nat) : (fadd s f n i j).index = s.index := rfl
@[simp] theorem fadd_segs (s : State) (f : Fld) (n i j : Nat) : (fadd s f n i j).segs = s.segs := rfl
@[simp] theorem fadd_cache (s : State) (f : Fld) (n i j : Nat) : (fadd s f n i j).cache = s.cache := rfl
@[simp] theorem fadd_expPitch (s : State) (f : Fld) (n i j : Nat) : (fadd s f n i j).expPitch = s.expPitch := rfl
@[simp] theorem fadd_compactQ (s : State) (f : Fld) (n i j : Nat) : (fadd s f n i j).compactQ = s.compactQ := rfl
@[simp] theorem fadd_stale (s : State) (f : Fld) (n i j : Nat) : (fadd s f n i j).stale = s.stale := rfl
@[simp] theorem fadd_damaged (s : State) (f : Fld) (n i j : Nat) : (fadd s f n i j).damaged = s.damaged := rfl
@[simp] theorem fadd_rings (s : State) (f : Fld) (n i j : Nat) : (fadd s f n i j).rings = s.rings := rfl
@[simp] theorem fadd_ringMem (s : State) (f : Fld) (n i j : Nat) : (fadd s f n i j).ringMem = s.ringMem := rfl
@[simp] theorem fadd_jobs (s : State) (f : Fld) (n i j : Nat) : (fadd s f n i j).jobs = s.jobs := rfl
@[simp] theorem fadd_windows (s : State) (f : Fld) (n i j : Nat) : (fadd s f n i j).windows = s.windows := rfl
@[simp] theorem fadd_applied (s : State) (f : Fld) (n i j : Nat) : (fadd s f n i j).applied = s.applied := rfl
@[simp] theorem fadd_steps (s : State) (f : Fld) (n i j : Nat) : (fadd s f n i j).steps = s.steps := rfl
@[simp] theorem fadd_coreTrips (s : State) (f : Fld) (n i j : Nat) : (fadd s f n i j).coreTrips = s.coreTrips := rfl
@[simp] theorem fadd_coresOut (s : State) (f : Fld) (n i j : Nat) : (fadd s f n i j).coresOut = s.coresOut := rfl
@[simp] theorem fadd_qos (s : State) (f : Fld) (n i j : Nat) : (fadd s f n i j).qos = s.qos := rfl
@[simp] theorem fadd_pcs (s : State) (f : Fld) (n i j : Nat) : (fadd s f n i j).pcs = s.pcs := rfl
@[simp] theorem fadd_portDiesOut (s : State) (f : Fld) (n i j : Nat) : (fadd s f n i j).portDiesOut = s.portDiesOut := rfl
@[simp] theorem fadd_clustersOut (s : State) (f : Fld) (n i j : Nat) : (fadd s f n i j).clustersOut = s.clustersOut := rfl
@[simp] theorem fadd_resetting (s : State) (f : Fld) (n i j : Nat) : (fadd s f n i j).resetting = s.resetting := rfl
@[simp] theorem fadd_stores (s : State) (f : Fld) (n i j : Nat) : (fadd s f n i j).stores = s.stores := rfl
@[simp] theorem fadd_repaired (s : State) (f : Fld) (n i j : Nat) : (fadd s f n i j).repaired = s.repaired := rfl
@[simp] theorem fadd_ras (s : State) (f : Fld) (n i j : Nat) : (fadd s f n i j).ras = s.ras := rfl
@[simp] theorem fadd_cairn (s : State) (f : Fld) (n i j : Nat) : (fadd s f n i j).cairn = s.cairn := rfl
@[simp] theorem fadd_belay (s : State) (f : Fld) (n i j : Nat) : (fadd s f n i j).belay = s.belay := rfl
@[simp] theorem fadd_sessions (s : State) (f : Fld) (n i j : Nat) : (fadd s f n i j).sessions = s.sessions := rfl
@[simp] theorem fadd_pins (s : State) (f : Fld) (n i j : Nat) : (fadd s f n i j).pins = s.pins := rfl
@[simp] theorem finc_pending (s : State) (f : Fld) (i j : Nat) : (finc s f i j).pending = s.pending := rfl
@[simp] theorem finc_out (s : State) (f : Fld) (i j : Nat) : (finc s f i j).out = s.out := rfl
@[simp] theorem finc_free (s : State) (f : Fld) (i j : Nat) : (finc s f i j).free = s.free := rfl
@[simp] theorem finc_lag (s : State) (f : Fld) (i j : Nat) : (finc s f i j).lag = s.lag := rfl
@[simp] theorem finc_hdr (s : State) (f : Fld) (i j : Nat) : (finc s f i j).hdr = s.hdr := rfl
@[simp] theorem finc_mem (s : State) (f : Fld) (i j : Nat) : (finc s f i j).mem = s.mem := rfl
@[simp] theorem finc_poison (s : State) (f : Fld) (i j : Nat) : (finc s f i j).poison = s.poison := rfl
@[simp] theorem finc_damage (s : State) (f : Fld) (i j : Nat) : (finc s f i j).damage = s.damage := rfl
@[simp] theorem finc_boot (s : State) (f : Fld) (i j : Nat) : (finc s f i j).boot = s.boot := rfl
@[simp] theorem finc_flash (s : State) (f : Fld) (i j : Nat) : (finc s f i j).flash = s.flash := rfl
@[simp] theorem finc_power (s : State) (f : Fld) (i j : Nat) : (finc s f i j).power = s.power := rfl
@[simp] theorem finc_tb (s : State) (f : Fld) (i j : Nat) : (finc s f i j).tb = s.tb := rfl
@[simp] theorem finc_heads (s : State) (f : Fld) (i j : Nat) : (finc s f i j).heads = s.heads := rfl
@[simp] theorem finc_cfgs (s : State) (f : Fld) (i j : Nat) : (finc s f i j).cfgs = s.cfgs := rfl
@[simp] theorem finc_hdms (s : State) (f : Fld) (i j : Nat) : (finc s f i j).hdms = s.hdms := rfl
@[simp] theorem finc_parts (s : State) (f : Fld) (i j : Nat) : (finc s f i j).parts = s.parts := rfl
@[simp] theorem finc_exts (s : State) (f : Fld) (i j : Nat) : (finc s f i j).exts = s.exts := rfl
@[simp] theorem finc_attrDue (s : State) (f : Fld) (i j : Nat) : (finc s f i j).attrDue = s.attrDue := rfl
@[simp] theorem finc_reserve (s : State) (f : Fld) (i j : Nat) : (finc s f i j).reserve = s.reserve := rfl
@[simp] theorem finc_sanReqs (s : State) (f : Fld) (i j : Nat) : (finc s f i j).sanReqs = s.sanReqs := rfl
@[simp] theorem finc_sanHalf (s : State) (f : Fld) (i j : Nat) : (finc s f i j).sanHalf = s.sanHalf := rfl
@[simp] theorem finc_fmLog (s : State) (f : Fld) (i j : Nat) : (finc s f i j).fmLog = s.fmLog := rfl
@[simp] theorem finc_dir (s : State) (f : Fld) (i j : Nat) : (finc s f i j).dir = s.dir := rfl
@[simp] theorem finc_trans (s : State) (f : Fld) (i j : Nat) : (finc s f i j).trans = s.trans := rfl
@[simp] theorem finc_lineq (s : State) (f : Fld) (i j : Nat) : (finc s f i j).lineq = s.lineq := rfl
@[simp] theorem finc_snaps (s : State) (f : Fld) (i j : Nat) : (finc s f i j).snaps = s.snaps := rfl
@[simp] theorem finc_snapCmds (s : State) (f : Fld) (i j : Nat) : (finc s f i j).snapCmds = s.snapCmds := rfl
@[simp] theorem finc_frames (s : State) (f : Fld) (i j : Nat) : (finc s f i j).frames = s.frames := rfl
@[simp] theorem finc_pinMarks (s : State) (f : Fld) (i j : Nat) : (finc s f i j).pinMarks = s.pinMarks := rfl
@[simp] theorem finc_lbaMap (s : State) (f : Fld) (i j : Nat) : (finc s f i j).lbaMap = s.lbaMap := rfl
@[simp] theorem finc_ssd (s : State) (f : Fld) (i j : Nat) : (finc s f i j).ssd = s.ssd := rfl
@[simp] theorem finc_locks (s : State) (f : Fld) (i j : Nat) : (finc s f i j).locks = s.locks := rfl
@[simp] theorem finc_ios (s : State) (f : Fld) (i j : Nat) : (finc s f i j).ios = s.ios := rfl
@[simp] theorem finc_nextIo (s : State) (f : Fld) (i j : Nat) : (finc s f i j).nextIo = s.nextIo := rfl
@[simp] theorem finc_slots (s : State) (f : Fld) (i j : Nat) : (finc s f i j).slots = s.slots := rfl
@[simp] theorem finc_rebuild (s : State) (f : Fld) (i j : Nat) : (finc s f i j).rebuild = s.rebuild := rfl
@[simp] theorem finc_tier (s : State) (f : Fld) (i j : Nat) : (finc s f i j).tier = s.tier := rfl
@[simp] theorem finc_draining (s : State) (f : Fld) (i j : Nat) : (finc s f i j).draining = s.draining := rfl
@[simp] theorem finc_hints (s : State) (f : Fld) (i j : Nat) : (finc s f i j).hints = s.hints := rfl
@[simp] theorem finc_index (s : State) (f : Fld) (i j : Nat) : (finc s f i j).index = s.index := rfl
@[simp] theorem finc_segs (s : State) (f : Fld) (i j : Nat) : (finc s f i j).segs = s.segs := rfl
@[simp] theorem finc_cache (s : State) (f : Fld) (i j : Nat) : (finc s f i j).cache = s.cache := rfl
@[simp] theorem finc_expPitch (s : State) (f : Fld) (i j : Nat) : (finc s f i j).expPitch = s.expPitch := rfl
@[simp] theorem finc_compactQ (s : State) (f : Fld) (i j : Nat) : (finc s f i j).compactQ = s.compactQ := rfl
@[simp] theorem finc_stale (s : State) (f : Fld) (i j : Nat) : (finc s f i j).stale = s.stale := rfl
@[simp] theorem finc_damaged (s : State) (f : Fld) (i j : Nat) : (finc s f i j).damaged = s.damaged := rfl
@[simp] theorem finc_rings (s : State) (f : Fld) (i j : Nat) : (finc s f i j).rings = s.rings := rfl
@[simp] theorem finc_ringMem (s : State) (f : Fld) (i j : Nat) : (finc s f i j).ringMem = s.ringMem := rfl
@[simp] theorem finc_jobs (s : State) (f : Fld) (i j : Nat) : (finc s f i j).jobs = s.jobs := rfl
@[simp] theorem finc_windows (s : State) (f : Fld) (i j : Nat) : (finc s f i j).windows = s.windows := rfl
@[simp] theorem finc_applied (s : State) (f : Fld) (i j : Nat) : (finc s f i j).applied = s.applied := rfl
@[simp] theorem finc_steps (s : State) (f : Fld) (i j : Nat) : (finc s f i j).steps = s.steps := rfl
@[simp] theorem finc_coreTrips (s : State) (f : Fld) (i j : Nat) : (finc s f i j).coreTrips = s.coreTrips := rfl
@[simp] theorem finc_coresOut (s : State) (f : Fld) (i j : Nat) : (finc s f i j).coresOut = s.coresOut := rfl
@[simp] theorem finc_qos (s : State) (f : Fld) (i j : Nat) : (finc s f i j).qos = s.qos := rfl
@[simp] theorem finc_pcs (s : State) (f : Fld) (i j : Nat) : (finc s f i j).pcs = s.pcs := rfl
@[simp] theorem finc_portDiesOut (s : State) (f : Fld) (i j : Nat) : (finc s f i j).portDiesOut = s.portDiesOut := rfl
@[simp] theorem finc_clustersOut (s : State) (f : Fld) (i j : Nat) : (finc s f i j).clustersOut = s.clustersOut := rfl
@[simp] theorem finc_resetting (s : State) (f : Fld) (i j : Nat) : (finc s f i j).resetting = s.resetting := rfl
@[simp] theorem finc_stores (s : State) (f : Fld) (i j : Nat) : (finc s f i j).stores = s.stores := rfl
@[simp] theorem finc_repaired (s : State) (f : Fld) (i j : Nat) : (finc s f i j).repaired = s.repaired := rfl
@[simp] theorem finc_ras (s : State) (f : Fld) (i j : Nat) : (finc s f i j).ras = s.ras := rfl
@[simp] theorem finc_cairn (s : State) (f : Fld) (i j : Nat) : (finc s f i j).cairn = s.cairn := rfl
@[simp] theorem finc_belay (s : State) (f : Fld) (i j : Nat) : (finc s f i j).belay = s.belay := rfl
@[simp] theorem finc_sessions (s : State) (f : Fld) (i j : Nat) : (finc s f i j).sessions = s.sessions := rfl
@[simp] theorem finc_pins (s : State) (f : Fld) (i j : Nat) : (finc s f i j).pins = s.pins := rfl
@[simp] theorem fwrap_pending (s : State) (f : Fld) (i j : Nat) : (fwrap s f i j).pending = s.pending := rfl
@[simp] theorem fwrap_out (s : State) (f : Fld) (i j : Nat) : (fwrap s f i j).out = s.out := rfl
@[simp] theorem fwrap_free (s : State) (f : Fld) (i j : Nat) : (fwrap s f i j).free = s.free := rfl
@[simp] theorem fwrap_lag (s : State) (f : Fld) (i j : Nat) : (fwrap s f i j).lag = s.lag := rfl
@[simp] theorem fwrap_hdr (s : State) (f : Fld) (i j : Nat) : (fwrap s f i j).hdr = s.hdr := rfl
@[simp] theorem fwrap_mem (s : State) (f : Fld) (i j : Nat) : (fwrap s f i j).mem = s.mem := rfl
@[simp] theorem fwrap_poison (s : State) (f : Fld) (i j : Nat) : (fwrap s f i j).poison = s.poison := rfl
@[simp] theorem fwrap_damage (s : State) (f : Fld) (i j : Nat) : (fwrap s f i j).damage = s.damage := rfl
@[simp] theorem fwrap_boot (s : State) (f : Fld) (i j : Nat) : (fwrap s f i j).boot = s.boot := rfl
@[simp] theorem fwrap_flash (s : State) (f : Fld) (i j : Nat) : (fwrap s f i j).flash = s.flash := rfl
@[simp] theorem fwrap_power (s : State) (f : Fld) (i j : Nat) : (fwrap s f i j).power = s.power := rfl
@[simp] theorem fwrap_tb (s : State) (f : Fld) (i j : Nat) : (fwrap s f i j).tb = s.tb := rfl
@[simp] theorem fwrap_heads (s : State) (f : Fld) (i j : Nat) : (fwrap s f i j).heads = s.heads := rfl
@[simp] theorem fwrap_cfgs (s : State) (f : Fld) (i j : Nat) : (fwrap s f i j).cfgs = s.cfgs := rfl
@[simp] theorem fwrap_hdms (s : State) (f : Fld) (i j : Nat) : (fwrap s f i j).hdms = s.hdms := rfl
@[simp] theorem fwrap_parts (s : State) (f : Fld) (i j : Nat) : (fwrap s f i j).parts = s.parts := rfl
@[simp] theorem fwrap_exts (s : State) (f : Fld) (i j : Nat) : (fwrap s f i j).exts = s.exts := rfl
@[simp] theorem fwrap_attrDue (s : State) (f : Fld) (i j : Nat) : (fwrap s f i j).attrDue = s.attrDue := rfl
@[simp] theorem fwrap_reserve (s : State) (f : Fld) (i j : Nat) : (fwrap s f i j).reserve = s.reserve := rfl
@[simp] theorem fwrap_sanReqs (s : State) (f : Fld) (i j : Nat) : (fwrap s f i j).sanReqs = s.sanReqs := rfl
@[simp] theorem fwrap_sanHalf (s : State) (f : Fld) (i j : Nat) : (fwrap s f i j).sanHalf = s.sanHalf := rfl
@[simp] theorem fwrap_fmLog (s : State) (f : Fld) (i j : Nat) : (fwrap s f i j).fmLog = s.fmLog := rfl
@[simp] theorem fwrap_dir (s : State) (f : Fld) (i j : Nat) : (fwrap s f i j).dir = s.dir := rfl
@[simp] theorem fwrap_trans (s : State) (f : Fld) (i j : Nat) : (fwrap s f i j).trans = s.trans := rfl
@[simp] theorem fwrap_lineq (s : State) (f : Fld) (i j : Nat) : (fwrap s f i j).lineq = s.lineq := rfl
@[simp] theorem fwrap_snaps (s : State) (f : Fld) (i j : Nat) : (fwrap s f i j).snaps = s.snaps := rfl
@[simp] theorem fwrap_snapCmds (s : State) (f : Fld) (i j : Nat) : (fwrap s f i j).snapCmds = s.snapCmds := rfl
@[simp] theorem fwrap_frames (s : State) (f : Fld) (i j : Nat) : (fwrap s f i j).frames = s.frames := rfl
@[simp] theorem fwrap_pinMarks (s : State) (f : Fld) (i j : Nat) : (fwrap s f i j).pinMarks = s.pinMarks := rfl
@[simp] theorem fwrap_lbaMap (s : State) (f : Fld) (i j : Nat) : (fwrap s f i j).lbaMap = s.lbaMap := rfl
@[simp] theorem fwrap_ssd (s : State) (f : Fld) (i j : Nat) : (fwrap s f i j).ssd = s.ssd := rfl
@[simp] theorem fwrap_locks (s : State) (f : Fld) (i j : Nat) : (fwrap s f i j).locks = s.locks := rfl
@[simp] theorem fwrap_ios (s : State) (f : Fld) (i j : Nat) : (fwrap s f i j).ios = s.ios := rfl
@[simp] theorem fwrap_nextIo (s : State) (f : Fld) (i j : Nat) : (fwrap s f i j).nextIo = s.nextIo := rfl
@[simp] theorem fwrap_slots (s : State) (f : Fld) (i j : Nat) : (fwrap s f i j).slots = s.slots := rfl
@[simp] theorem fwrap_rebuild (s : State) (f : Fld) (i j : Nat) : (fwrap s f i j).rebuild = s.rebuild := rfl
@[simp] theorem fwrap_tier (s : State) (f : Fld) (i j : Nat) : (fwrap s f i j).tier = s.tier := rfl
@[simp] theorem fwrap_draining (s : State) (f : Fld) (i j : Nat) : (fwrap s f i j).draining = s.draining := rfl
@[simp] theorem fwrap_hints (s : State) (f : Fld) (i j : Nat) : (fwrap s f i j).hints = s.hints := rfl
@[simp] theorem fwrap_index (s : State) (f : Fld) (i j : Nat) : (fwrap s f i j).index = s.index := rfl
@[simp] theorem fwrap_segs (s : State) (f : Fld) (i j : Nat) : (fwrap s f i j).segs = s.segs := rfl
@[simp] theorem fwrap_cache (s : State) (f : Fld) (i j : Nat) : (fwrap s f i j).cache = s.cache := rfl
@[simp] theorem fwrap_expPitch (s : State) (f : Fld) (i j : Nat) : (fwrap s f i j).expPitch = s.expPitch := rfl
@[simp] theorem fwrap_compactQ (s : State) (f : Fld) (i j : Nat) : (fwrap s f i j).compactQ = s.compactQ := rfl
@[simp] theorem fwrap_stale (s : State) (f : Fld) (i j : Nat) : (fwrap s f i j).stale = s.stale := rfl
@[simp] theorem fwrap_damaged (s : State) (f : Fld) (i j : Nat) : (fwrap s f i j).damaged = s.damaged := rfl
@[simp] theorem fwrap_rings (s : State) (f : Fld) (i j : Nat) : (fwrap s f i j).rings = s.rings := rfl
@[simp] theorem fwrap_ringMem (s : State) (f : Fld) (i j : Nat) : (fwrap s f i j).ringMem = s.ringMem := rfl
@[simp] theorem fwrap_jobs (s : State) (f : Fld) (i j : Nat) : (fwrap s f i j).jobs = s.jobs := rfl
@[simp] theorem fwrap_windows (s : State) (f : Fld) (i j : Nat) : (fwrap s f i j).windows = s.windows := rfl
@[simp] theorem fwrap_applied (s : State) (f : Fld) (i j : Nat) : (fwrap s f i j).applied = s.applied := rfl
@[simp] theorem fwrap_steps (s : State) (f : Fld) (i j : Nat) : (fwrap s f i j).steps = s.steps := rfl
@[simp] theorem fwrap_coreTrips (s : State) (f : Fld) (i j : Nat) : (fwrap s f i j).coreTrips = s.coreTrips := rfl
@[simp] theorem fwrap_coresOut (s : State) (f : Fld) (i j : Nat) : (fwrap s f i j).coresOut = s.coresOut := rfl
@[simp] theorem fwrap_qos (s : State) (f : Fld) (i j : Nat) : (fwrap s f i j).qos = s.qos := rfl
@[simp] theorem fwrap_pcs (s : State) (f : Fld) (i j : Nat) : (fwrap s f i j).pcs = s.pcs := rfl
@[simp] theorem fwrap_portDiesOut (s : State) (f : Fld) (i j : Nat) : (fwrap s f i j).portDiesOut = s.portDiesOut := rfl
@[simp] theorem fwrap_clustersOut (s : State) (f : Fld) (i j : Nat) : (fwrap s f i j).clustersOut = s.clustersOut := rfl
@[simp] theorem fwrap_resetting (s : State) (f : Fld) (i j : Nat) : (fwrap s f i j).resetting = s.resetting := rfl
@[simp] theorem fwrap_stores (s : State) (f : Fld) (i j : Nat) : (fwrap s f i j).stores = s.stores := rfl
@[simp] theorem fwrap_repaired (s : State) (f : Fld) (i j : Nat) : (fwrap s f i j).repaired = s.repaired := rfl
@[simp] theorem fwrap_ras (s : State) (f : Fld) (i j : Nat) : (fwrap s f i j).ras = s.ras := rfl
@[simp] theorem fwrap_cairn (s : State) (f : Fld) (i j : Nat) : (fwrap s f i j).cairn = s.cairn := rfl
@[simp] theorem fwrap_belay (s : State) (f : Fld) (i j : Nat) : (fwrap s f i j).belay = s.belay := rfl
@[simp] theorem fwrap_sessions (s : State) (f : Fld) (i j : Nat) : (fwrap s f i j).sessions = s.sessions := rfl
@[simp] theorem fwrap_pins (s : State) (f : Fld) (i j : Nat) : (fwrap s f i j).pins = s.pins := rfl
@[simp] theorem freset_pending (s : State) (f : Fld) (i j : Nat) : (freset s f i j).pending = s.pending := rfl
@[simp] theorem freset_out (s : State) (f : Fld) (i j : Nat) : (freset s f i j).out = s.out := rfl
@[simp] theorem freset_free (s : State) (f : Fld) (i j : Nat) : (freset s f i j).free = s.free := rfl
@[simp] theorem freset_lag (s : State) (f : Fld) (i j : Nat) : (freset s f i j).lag = s.lag := rfl
@[simp] theorem freset_hdr (s : State) (f : Fld) (i j : Nat) : (freset s f i j).hdr = s.hdr := rfl
@[simp] theorem freset_mem (s : State) (f : Fld) (i j : Nat) : (freset s f i j).mem = s.mem := rfl
@[simp] theorem freset_poison (s : State) (f : Fld) (i j : Nat) : (freset s f i j).poison = s.poison := rfl
@[simp] theorem freset_damage (s : State) (f : Fld) (i j : Nat) : (freset s f i j).damage = s.damage := rfl
@[simp] theorem freset_boot (s : State) (f : Fld) (i j : Nat) : (freset s f i j).boot = s.boot := rfl
@[simp] theorem freset_flash (s : State) (f : Fld) (i j : Nat) : (freset s f i j).flash = s.flash := rfl
@[simp] theorem freset_power (s : State) (f : Fld) (i j : Nat) : (freset s f i j).power = s.power := rfl
@[simp] theorem freset_tb (s : State) (f : Fld) (i j : Nat) : (freset s f i j).tb = s.tb := rfl
@[simp] theorem freset_heads (s : State) (f : Fld) (i j : Nat) : (freset s f i j).heads = s.heads := rfl
@[simp] theorem freset_cfgs (s : State) (f : Fld) (i j : Nat) : (freset s f i j).cfgs = s.cfgs := rfl
@[simp] theorem freset_hdms (s : State) (f : Fld) (i j : Nat) : (freset s f i j).hdms = s.hdms := rfl
@[simp] theorem freset_parts (s : State) (f : Fld) (i j : Nat) : (freset s f i j).parts = s.parts := rfl
@[simp] theorem freset_exts (s : State) (f : Fld) (i j : Nat) : (freset s f i j).exts = s.exts := rfl
@[simp] theorem freset_attrDue (s : State) (f : Fld) (i j : Nat) : (freset s f i j).attrDue = s.attrDue := rfl
@[simp] theorem freset_reserve (s : State) (f : Fld) (i j : Nat) : (freset s f i j).reserve = s.reserve := rfl
@[simp] theorem freset_sanReqs (s : State) (f : Fld) (i j : Nat) : (freset s f i j).sanReqs = s.sanReqs := rfl
@[simp] theorem freset_sanHalf (s : State) (f : Fld) (i j : Nat) : (freset s f i j).sanHalf = s.sanHalf := rfl
@[simp] theorem freset_fmLog (s : State) (f : Fld) (i j : Nat) : (freset s f i j).fmLog = s.fmLog := rfl
@[simp] theorem freset_dir (s : State) (f : Fld) (i j : Nat) : (freset s f i j).dir = s.dir := rfl
@[simp] theorem freset_trans (s : State) (f : Fld) (i j : Nat) : (freset s f i j).trans = s.trans := rfl
@[simp] theorem freset_lineq (s : State) (f : Fld) (i j : Nat) : (freset s f i j).lineq = s.lineq := rfl
@[simp] theorem freset_snaps (s : State) (f : Fld) (i j : Nat) : (freset s f i j).snaps = s.snaps := rfl
@[simp] theorem freset_snapCmds (s : State) (f : Fld) (i j : Nat) : (freset s f i j).snapCmds = s.snapCmds := rfl
@[simp] theorem freset_frames (s : State) (f : Fld) (i j : Nat) : (freset s f i j).frames = s.frames := rfl
@[simp] theorem freset_pinMarks (s : State) (f : Fld) (i j : Nat) : (freset s f i j).pinMarks = s.pinMarks := rfl
@[simp] theorem freset_lbaMap (s : State) (f : Fld) (i j : Nat) : (freset s f i j).lbaMap = s.lbaMap := rfl
@[simp] theorem freset_ssd (s : State) (f : Fld) (i j : Nat) : (freset s f i j).ssd = s.ssd := rfl
@[simp] theorem freset_locks (s : State) (f : Fld) (i j : Nat) : (freset s f i j).locks = s.locks := rfl
@[simp] theorem freset_ios (s : State) (f : Fld) (i j : Nat) : (freset s f i j).ios = s.ios := rfl
@[simp] theorem freset_nextIo (s : State) (f : Fld) (i j : Nat) : (freset s f i j).nextIo = s.nextIo := rfl
@[simp] theorem freset_slots (s : State) (f : Fld) (i j : Nat) : (freset s f i j).slots = s.slots := rfl
@[simp] theorem freset_rebuild (s : State) (f : Fld) (i j : Nat) : (freset s f i j).rebuild = s.rebuild := rfl
@[simp] theorem freset_tier (s : State) (f : Fld) (i j : Nat) : (freset s f i j).tier = s.tier := rfl
@[simp] theorem freset_draining (s : State) (f : Fld) (i j : Nat) : (freset s f i j).draining = s.draining := rfl
@[simp] theorem freset_hints (s : State) (f : Fld) (i j : Nat) : (freset s f i j).hints = s.hints := rfl
@[simp] theorem freset_index (s : State) (f : Fld) (i j : Nat) : (freset s f i j).index = s.index := rfl
@[simp] theorem freset_segs (s : State) (f : Fld) (i j : Nat) : (freset s f i j).segs = s.segs := rfl
@[simp] theorem freset_cache (s : State) (f : Fld) (i j : Nat) : (freset s f i j).cache = s.cache := rfl
@[simp] theorem freset_expPitch (s : State) (f : Fld) (i j : Nat) : (freset s f i j).expPitch = s.expPitch := rfl
@[simp] theorem freset_compactQ (s : State) (f : Fld) (i j : Nat) : (freset s f i j).compactQ = s.compactQ := rfl
@[simp] theorem freset_stale (s : State) (f : Fld) (i j : Nat) : (freset s f i j).stale = s.stale := rfl
@[simp] theorem freset_damaged (s : State) (f : Fld) (i j : Nat) : (freset s f i j).damaged = s.damaged := rfl
@[simp] theorem freset_rings (s : State) (f : Fld) (i j : Nat) : (freset s f i j).rings = s.rings := rfl
@[simp] theorem freset_ringMem (s : State) (f : Fld) (i j : Nat) : (freset s f i j).ringMem = s.ringMem := rfl
@[simp] theorem freset_jobs (s : State) (f : Fld) (i j : Nat) : (freset s f i j).jobs = s.jobs := rfl
@[simp] theorem freset_windows (s : State) (f : Fld) (i j : Nat) : (freset s f i j).windows = s.windows := rfl
@[simp] theorem freset_applied (s : State) (f : Fld) (i j : Nat) : (freset s f i j).applied = s.applied := rfl
@[simp] theorem freset_steps (s : State) (f : Fld) (i j : Nat) : (freset s f i j).steps = s.steps := rfl
@[simp] theorem freset_coreTrips (s : State) (f : Fld) (i j : Nat) : (freset s f i j).coreTrips = s.coreTrips := rfl
@[simp] theorem freset_coresOut (s : State) (f : Fld) (i j : Nat) : (freset s f i j).coresOut = s.coresOut := rfl
@[simp] theorem freset_qos (s : State) (f : Fld) (i j : Nat) : (freset s f i j).qos = s.qos := rfl
@[simp] theorem freset_pcs (s : State) (f : Fld) (i j : Nat) : (freset s f i j).pcs = s.pcs := rfl
@[simp] theorem freset_portDiesOut (s : State) (f : Fld) (i j : Nat) : (freset s f i j).portDiesOut = s.portDiesOut := rfl
@[simp] theorem freset_clustersOut (s : State) (f : Fld) (i j : Nat) : (freset s f i j).clustersOut = s.clustersOut := rfl
@[simp] theorem freset_resetting (s : State) (f : Fld) (i j : Nat) : (freset s f i j).resetting = s.resetting := rfl
@[simp] theorem freset_stores (s : State) (f : Fld) (i j : Nat) : (freset s f i j).stores = s.stores := rfl
@[simp] theorem freset_repaired (s : State) (f : Fld) (i j : Nat) : (freset s f i j).repaired = s.repaired := rfl
@[simp] theorem freset_ras (s : State) (f : Fld) (i j : Nat) : (freset s f i j).ras = s.ras := rfl
@[simp] theorem freset_cairn (s : State) (f : Fld) (i j : Nat) : (freset s f i j).cairn = s.cairn := rfl
@[simp] theorem freset_belay (s : State) (f : Fld) (i j : Nat) : (freset s f i j).belay = s.belay := rfl
@[simp] theorem freset_sessions (s : State) (f : Fld) (i j : Nat) : (freset s f i j).sessions = s.sessions := rfl
@[simp] theorem freset_pins (s : State) (f : Fld) (i j : Nat) : (freset s f i j).pins = s.pins := rfl
@[simp] theorem fclear_pending (s : State) (p : RegKey → Bool) : (fclear s p).pending = s.pending := rfl
@[simp] theorem fclear_out (s : State) (p : RegKey → Bool) : (fclear s p).out = s.out := rfl
@[simp] theorem fclear_free (s : State) (p : RegKey → Bool) : (fclear s p).free = s.free := rfl
@[simp] theorem fclear_lag (s : State) (p : RegKey → Bool) : (fclear s p).lag = s.lag := rfl
@[simp] theorem fclear_hdr (s : State) (p : RegKey → Bool) : (fclear s p).hdr = s.hdr := rfl
@[simp] theorem fclear_mem (s : State) (p : RegKey → Bool) : (fclear s p).mem = s.mem := rfl
@[simp] theorem fclear_poison (s : State) (p : RegKey → Bool) : (fclear s p).poison = s.poison := rfl
@[simp] theorem fclear_damage (s : State) (p : RegKey → Bool) : (fclear s p).damage = s.damage := rfl
@[simp] theorem fclear_boot (s : State) (p : RegKey → Bool) : (fclear s p).boot = s.boot := rfl
@[simp] theorem fclear_flash (s : State) (p : RegKey → Bool) : (fclear s p).flash = s.flash := rfl
@[simp] theorem fclear_power (s : State) (p : RegKey → Bool) : (fclear s p).power = s.power := rfl
@[simp] theorem fclear_tb (s : State) (p : RegKey → Bool) : (fclear s p).tb = s.tb := rfl
@[simp] theorem fclear_heads (s : State) (p : RegKey → Bool) : (fclear s p).heads = s.heads := rfl
@[simp] theorem fclear_cfgs (s : State) (p : RegKey → Bool) : (fclear s p).cfgs = s.cfgs := rfl
@[simp] theorem fclear_hdms (s : State) (p : RegKey → Bool) : (fclear s p).hdms = s.hdms := rfl
@[simp] theorem fclear_parts (s : State) (p : RegKey → Bool) : (fclear s p).parts = s.parts := rfl
@[simp] theorem fclear_exts (s : State) (p : RegKey → Bool) : (fclear s p).exts = s.exts := rfl
@[simp] theorem fclear_attrDue (s : State) (p : RegKey → Bool) : (fclear s p).attrDue = s.attrDue := rfl
@[simp] theorem fclear_reserve (s : State) (p : RegKey → Bool) : (fclear s p).reserve = s.reserve := rfl
@[simp] theorem fclear_sanReqs (s : State) (p : RegKey → Bool) : (fclear s p).sanReqs = s.sanReqs := rfl
@[simp] theorem fclear_sanHalf (s : State) (p : RegKey → Bool) : (fclear s p).sanHalf = s.sanHalf := rfl
@[simp] theorem fclear_fmLog (s : State) (p : RegKey → Bool) : (fclear s p).fmLog = s.fmLog := rfl
@[simp] theorem fclear_dir (s : State) (p : RegKey → Bool) : (fclear s p).dir = s.dir := rfl
@[simp] theorem fclear_trans (s : State) (p : RegKey → Bool) : (fclear s p).trans = s.trans := rfl
@[simp] theorem fclear_lineq (s : State) (p : RegKey → Bool) : (fclear s p).lineq = s.lineq := rfl
@[simp] theorem fclear_snaps (s : State) (p : RegKey → Bool) : (fclear s p).snaps = s.snaps := rfl
@[simp] theorem fclear_snapCmds (s : State) (p : RegKey → Bool) : (fclear s p).snapCmds = s.snapCmds := rfl
@[simp] theorem fclear_frames (s : State) (p : RegKey → Bool) : (fclear s p).frames = s.frames := rfl
@[simp] theorem fclear_pinMarks (s : State) (p : RegKey → Bool) : (fclear s p).pinMarks = s.pinMarks := rfl
@[simp] theorem fclear_lbaMap (s : State) (p : RegKey → Bool) : (fclear s p).lbaMap = s.lbaMap := rfl
@[simp] theorem fclear_ssd (s : State) (p : RegKey → Bool) : (fclear s p).ssd = s.ssd := rfl
@[simp] theorem fclear_locks (s : State) (p : RegKey → Bool) : (fclear s p).locks = s.locks := rfl
@[simp] theorem fclear_ios (s : State) (p : RegKey → Bool) : (fclear s p).ios = s.ios := rfl
@[simp] theorem fclear_nextIo (s : State) (p : RegKey → Bool) : (fclear s p).nextIo = s.nextIo := rfl
@[simp] theorem fclear_slots (s : State) (p : RegKey → Bool) : (fclear s p).slots = s.slots := rfl
@[simp] theorem fclear_rebuild (s : State) (p : RegKey → Bool) : (fclear s p).rebuild = s.rebuild := rfl
@[simp] theorem fclear_tier (s : State) (p : RegKey → Bool) : (fclear s p).tier = s.tier := rfl
@[simp] theorem fclear_draining (s : State) (p : RegKey → Bool) : (fclear s p).draining = s.draining := rfl
@[simp] theorem fclear_hints (s : State) (p : RegKey → Bool) : (fclear s p).hints = s.hints := rfl
@[simp] theorem fclear_index (s : State) (p : RegKey → Bool) : (fclear s p).index = s.index := rfl
@[simp] theorem fclear_segs (s : State) (p : RegKey → Bool) : (fclear s p).segs = s.segs := rfl
@[simp] theorem fclear_cache (s : State) (p : RegKey → Bool) : (fclear s p).cache = s.cache := rfl
@[simp] theorem fclear_expPitch (s : State) (p : RegKey → Bool) : (fclear s p).expPitch = s.expPitch := rfl
@[simp] theorem fclear_compactQ (s : State) (p : RegKey → Bool) : (fclear s p).compactQ = s.compactQ := rfl
@[simp] theorem fclear_stale (s : State) (p : RegKey → Bool) : (fclear s p).stale = s.stale := rfl
@[simp] theorem fclear_damaged (s : State) (p : RegKey → Bool) : (fclear s p).damaged = s.damaged := rfl
@[simp] theorem fclear_rings (s : State) (p : RegKey → Bool) : (fclear s p).rings = s.rings := rfl
@[simp] theorem fclear_ringMem (s : State) (p : RegKey → Bool) : (fclear s p).ringMem = s.ringMem := rfl
@[simp] theorem fclear_jobs (s : State) (p : RegKey → Bool) : (fclear s p).jobs = s.jobs := rfl
@[simp] theorem fclear_windows (s : State) (p : RegKey → Bool) : (fclear s p).windows = s.windows := rfl
@[simp] theorem fclear_applied (s : State) (p : RegKey → Bool) : (fclear s p).applied = s.applied := rfl
@[simp] theorem fclear_steps (s : State) (p : RegKey → Bool) : (fclear s p).steps = s.steps := rfl
@[simp] theorem fclear_coreTrips (s : State) (p : RegKey → Bool) : (fclear s p).coreTrips = s.coreTrips := rfl
@[simp] theorem fclear_coresOut (s : State) (p : RegKey → Bool) : (fclear s p).coresOut = s.coresOut := rfl
@[simp] theorem fclear_qos (s : State) (p : RegKey → Bool) : (fclear s p).qos = s.qos := rfl
@[simp] theorem fclear_pcs (s : State) (p : RegKey → Bool) : (fclear s p).pcs = s.pcs := rfl
@[simp] theorem fclear_portDiesOut (s : State) (p : RegKey → Bool) : (fclear s p).portDiesOut = s.portDiesOut := rfl
@[simp] theorem fclear_clustersOut (s : State) (p : RegKey → Bool) : (fclear s p).clustersOut = s.clustersOut := rfl
@[simp] theorem fclear_resetting (s : State) (p : RegKey → Bool) : (fclear s p).resetting = s.resetting := rfl
@[simp] theorem fclear_stores (s : State) (p : RegKey → Bool) : (fclear s p).stores = s.stores := rfl
@[simp] theorem fclear_repaired (s : State) (p : RegKey → Bool) : (fclear s p).repaired = s.repaired := rfl
@[simp] theorem fclear_ras (s : State) (p : RegKey → Bool) : (fclear s p).ras = s.ras := rfl
@[simp] theorem fclear_cairn (s : State) (p : RegKey → Bool) : (fclear s p).cairn = s.cairn := rfl
@[simp] theorem fclear_belay (s : State) (p : RegKey → Bool) : (fclear s p).belay = s.belay := rfl
@[simp] theorem fclear_sessions (s : State) (p : RegKey → Bool) : (fclear s p).sessions = s.sessions := rfl
@[simp] theorem fclear_pins (s : State) (p : RegKey → Bool) : (fclear s p).pins = s.pins := rfl
@[simp] theorem hupd_pending (s : State) (b : Blk) (i : Nat) (g : Hdr → Hdr) : (hupd s b i g).pending = s.pending := rfl
@[simp] theorem hupd_out (s : State) (b : Blk) (i : Nat) (g : Hdr → Hdr) : (hupd s b i g).out = s.out := rfl
@[simp] theorem hupd_free (s : State) (b : Blk) (i : Nat) (g : Hdr → Hdr) : (hupd s b i g).free = s.free := rfl
@[simp] theorem hupd_regs (s : State) (b : Blk) (i : Nat) (g : Hdr → Hdr) : (hupd s b i g).regs = s.regs := rfl
@[simp] theorem hupd_lag (s : State) (b : Blk) (i : Nat) (g : Hdr → Hdr) : (hupd s b i g).lag = s.lag := rfl
@[simp] theorem hupd_mem (s : State) (b : Blk) (i : Nat) (g : Hdr → Hdr) : (hupd s b i g).mem = s.mem := rfl
@[simp] theorem hupd_poison (s : State) (b : Blk) (i : Nat) (g : Hdr → Hdr) : (hupd s b i g).poison = s.poison := rfl
@[simp] theorem hupd_damage (s : State) (b : Blk) (i : Nat) (g : Hdr → Hdr) : (hupd s b i g).damage = s.damage := rfl
@[simp] theorem hupd_boot (s : State) (b : Blk) (i : Nat) (g : Hdr → Hdr) : (hupd s b i g).boot = s.boot := rfl
@[simp] theorem hupd_flash (s : State) (b : Blk) (i : Nat) (g : Hdr → Hdr) : (hupd s b i g).flash = s.flash := rfl
@[simp] theorem hupd_power (s : State) (b : Blk) (i : Nat) (g : Hdr → Hdr) : (hupd s b i g).power = s.power := rfl
@[simp] theorem hupd_tb (s : State) (b : Blk) (i : Nat) (g : Hdr → Hdr) : (hupd s b i g).tb = s.tb := rfl
@[simp] theorem hupd_heads (s : State) (b : Blk) (i : Nat) (g : Hdr → Hdr) : (hupd s b i g).heads = s.heads := rfl
@[simp] theorem hupd_cfgs (s : State) (b : Blk) (i : Nat) (g : Hdr → Hdr) : (hupd s b i g).cfgs = s.cfgs := rfl
@[simp] theorem hupd_hdms (s : State) (b : Blk) (i : Nat) (g : Hdr → Hdr) : (hupd s b i g).hdms = s.hdms := rfl
@[simp] theorem hupd_parts (s : State) (b : Blk) (i : Nat) (g : Hdr → Hdr) : (hupd s b i g).parts = s.parts := rfl
@[simp] theorem hupd_exts (s : State) (b : Blk) (i : Nat) (g : Hdr → Hdr) : (hupd s b i g).exts = s.exts := rfl
@[simp] theorem hupd_attrDue (s : State) (b : Blk) (i : Nat) (g : Hdr → Hdr) : (hupd s b i g).attrDue = s.attrDue := rfl
@[simp] theorem hupd_reserve (s : State) (b : Blk) (i : Nat) (g : Hdr → Hdr) : (hupd s b i g).reserve = s.reserve := rfl
@[simp] theorem hupd_sanReqs (s : State) (b : Blk) (i : Nat) (g : Hdr → Hdr) : (hupd s b i g).sanReqs = s.sanReqs := rfl
@[simp] theorem hupd_sanHalf (s : State) (b : Blk) (i : Nat) (g : Hdr → Hdr) : (hupd s b i g).sanHalf = s.sanHalf := rfl
@[simp] theorem hupd_fmLog (s : State) (b : Blk) (i : Nat) (g : Hdr → Hdr) : (hupd s b i g).fmLog = s.fmLog := rfl
@[simp] theorem hupd_dir (s : State) (b : Blk) (i : Nat) (g : Hdr → Hdr) : (hupd s b i g).dir = s.dir := rfl
@[simp] theorem hupd_trans (s : State) (b : Blk) (i : Nat) (g : Hdr → Hdr) : (hupd s b i g).trans = s.trans := rfl
@[simp] theorem hupd_lineq (s : State) (b : Blk) (i : Nat) (g : Hdr → Hdr) : (hupd s b i g).lineq = s.lineq := rfl
@[simp] theorem hupd_snaps (s : State) (b : Blk) (i : Nat) (g : Hdr → Hdr) : (hupd s b i g).snaps = s.snaps := rfl
@[simp] theorem hupd_snapCmds (s : State) (b : Blk) (i : Nat) (g : Hdr → Hdr) : (hupd s b i g).snapCmds = s.snapCmds := rfl
@[simp] theorem hupd_frames (s : State) (b : Blk) (i : Nat) (g : Hdr → Hdr) : (hupd s b i g).frames = s.frames := rfl
@[simp] theorem hupd_pinMarks (s : State) (b : Blk) (i : Nat) (g : Hdr → Hdr) : (hupd s b i g).pinMarks = s.pinMarks := rfl
@[simp] theorem hupd_lbaMap (s : State) (b : Blk) (i : Nat) (g : Hdr → Hdr) : (hupd s b i g).lbaMap = s.lbaMap := rfl
@[simp] theorem hupd_ssd (s : State) (b : Blk) (i : Nat) (g : Hdr → Hdr) : (hupd s b i g).ssd = s.ssd := rfl
@[simp] theorem hupd_locks (s : State) (b : Blk) (i : Nat) (g : Hdr → Hdr) : (hupd s b i g).locks = s.locks := rfl
@[simp] theorem hupd_ios (s : State) (b : Blk) (i : Nat) (g : Hdr → Hdr) : (hupd s b i g).ios = s.ios := rfl
@[simp] theorem hupd_nextIo (s : State) (b : Blk) (i : Nat) (g : Hdr → Hdr) : (hupd s b i g).nextIo = s.nextIo := rfl
@[simp] theorem hupd_slots (s : State) (b : Blk) (i : Nat) (g : Hdr → Hdr) : (hupd s b i g).slots = s.slots := rfl
@[simp] theorem hupd_rebuild (s : State) (b : Blk) (i : Nat) (g : Hdr → Hdr) : (hupd s b i g).rebuild = s.rebuild := rfl
@[simp] theorem hupd_tier (s : State) (b : Blk) (i : Nat) (g : Hdr → Hdr) : (hupd s b i g).tier = s.tier := rfl
@[simp] theorem hupd_draining (s : State) (b : Blk) (i : Nat) (g : Hdr → Hdr) : (hupd s b i g).draining = s.draining := rfl
@[simp] theorem hupd_hints (s : State) (b : Blk) (i : Nat) (g : Hdr → Hdr) : (hupd s b i g).hints = s.hints := rfl
@[simp] theorem hupd_index (s : State) (b : Blk) (i : Nat) (g : Hdr → Hdr) : (hupd s b i g).index = s.index := rfl
@[simp] theorem hupd_segs (s : State) (b : Blk) (i : Nat) (g : Hdr → Hdr) : (hupd s b i g).segs = s.segs := rfl
@[simp] theorem hupd_cache (s : State) (b : Blk) (i : Nat) (g : Hdr → Hdr) : (hupd s b i g).cache = s.cache := rfl
@[simp] theorem hupd_expPitch (s : State) (b : Blk) (i : Nat) (g : Hdr → Hdr) : (hupd s b i g).expPitch = s.expPitch := rfl
@[simp] theorem hupd_compactQ (s : State) (b : Blk) (i : Nat) (g : Hdr → Hdr) : (hupd s b i g).compactQ = s.compactQ := rfl
@[simp] theorem hupd_stale (s : State) (b : Blk) (i : Nat) (g : Hdr → Hdr) : (hupd s b i g).stale = s.stale := rfl
@[simp] theorem hupd_damaged (s : State) (b : Blk) (i : Nat) (g : Hdr → Hdr) : (hupd s b i g).damaged = s.damaged := rfl
@[simp] theorem hupd_rings (s : State) (b : Blk) (i : Nat) (g : Hdr → Hdr) : (hupd s b i g).rings = s.rings := rfl
@[simp] theorem hupd_ringMem (s : State) (b : Blk) (i : Nat) (g : Hdr → Hdr) : (hupd s b i g).ringMem = s.ringMem := rfl
@[simp] theorem hupd_jobs (s : State) (b : Blk) (i : Nat) (g : Hdr → Hdr) : (hupd s b i g).jobs = s.jobs := rfl
@[simp] theorem hupd_windows (s : State) (b : Blk) (i : Nat) (g : Hdr → Hdr) : (hupd s b i g).windows = s.windows := rfl
@[simp] theorem hupd_applied (s : State) (b : Blk) (i : Nat) (g : Hdr → Hdr) : (hupd s b i g).applied = s.applied := rfl
@[simp] theorem hupd_steps (s : State) (b : Blk) (i : Nat) (g : Hdr → Hdr) : (hupd s b i g).steps = s.steps := rfl
@[simp] theorem hupd_coreTrips (s : State) (b : Blk) (i : Nat) (g : Hdr → Hdr) : (hupd s b i g).coreTrips = s.coreTrips := rfl
@[simp] theorem hupd_coresOut (s : State) (b : Blk) (i : Nat) (g : Hdr → Hdr) : (hupd s b i g).coresOut = s.coresOut := rfl
@[simp] theorem hupd_qos (s : State) (b : Blk) (i : Nat) (g : Hdr → Hdr) : (hupd s b i g).qos = s.qos := rfl
@[simp] theorem hupd_pcs (s : State) (b : Blk) (i : Nat) (g : Hdr → Hdr) : (hupd s b i g).pcs = s.pcs := rfl
@[simp] theorem hupd_portDiesOut (s : State) (b : Blk) (i : Nat) (g : Hdr → Hdr) : (hupd s b i g).portDiesOut = s.portDiesOut := rfl
@[simp] theorem hupd_clustersOut (s : State) (b : Blk) (i : Nat) (g : Hdr → Hdr) : (hupd s b i g).clustersOut = s.clustersOut := rfl
@[simp] theorem hupd_resetting (s : State) (b : Blk) (i : Nat) (g : Hdr → Hdr) : (hupd s b i g).resetting = s.resetting := rfl
@[simp] theorem hupd_stores (s : State) (b : Blk) (i : Nat) (g : Hdr → Hdr) : (hupd s b i g).stores = s.stores := rfl
@[simp] theorem hupd_repaired (s : State) (b : Blk) (i : Nat) (g : Hdr → Hdr) : (hupd s b i g).repaired = s.repaired := rfl
@[simp] theorem hupd_ras (s : State) (b : Blk) (i : Nat) (g : Hdr → Hdr) : (hupd s b i g).ras = s.ras := rfl
@[simp] theorem hupd_cairn (s : State) (b : Blk) (i : Nat) (g : Hdr → Hdr) : (hupd s b i g).cairn = s.cairn := rfl
@[simp] theorem hupd_belay (s : State) (b : Blk) (i : Nat) (g : Hdr → Hdr) : (hupd s b i g).belay = s.belay := rfl
@[simp] theorem hupd_sessions (s : State) (b : Blk) (i : Nat) (g : Hdr → Hdr) : (hupd s b i g).sessions = s.sessions := rfl
@[simp] theorem hupd_pins (s : State) (b : Blk) (i : Nat) (g : Hdr → Hdr) : (hupd s b i g).pins = s.pins := rfl
@[simp] theorem emit_pending (s : State) (m : Msg) : (emit s m).pending = s.pending := rfl
@[simp] theorem emit_free (s : State) (m : Msg) : (emit s m).free = s.free := rfl
@[simp] theorem emit_regs (s : State) (m : Msg) : (emit s m).regs = s.regs := rfl
@[simp] theorem emit_lag (s : State) (m : Msg) : (emit s m).lag = s.lag := rfl
@[simp] theorem emit_hdr (s : State) (m : Msg) : (emit s m).hdr = s.hdr := rfl
@[simp] theorem emit_mem (s : State) (m : Msg) : (emit s m).mem = s.mem := rfl
@[simp] theorem emit_poison (s : State) (m : Msg) : (emit s m).poison = s.poison := rfl
@[simp] theorem emit_damage (s : State) (m : Msg) : (emit s m).damage = s.damage := rfl
@[simp] theorem emit_boot (s : State) (m : Msg) : (emit s m).boot = s.boot := rfl
@[simp] theorem emit_flash (s : State) (m : Msg) : (emit s m).flash = s.flash := rfl
@[simp] theorem emit_power (s : State) (m : Msg) : (emit s m).power = s.power := rfl
@[simp] theorem emit_tb (s : State) (m : Msg) : (emit s m).tb = s.tb := rfl
@[simp] theorem emit_heads (s : State) (m : Msg) : (emit s m).heads = s.heads := rfl
@[simp] theorem emit_cfgs (s : State) (m : Msg) : (emit s m).cfgs = s.cfgs := rfl
@[simp] theorem emit_hdms (s : State) (m : Msg) : (emit s m).hdms = s.hdms := rfl
@[simp] theorem emit_parts (s : State) (m : Msg) : (emit s m).parts = s.parts := rfl
@[simp] theorem emit_exts (s : State) (m : Msg) : (emit s m).exts = s.exts := rfl
@[simp] theorem emit_attrDue (s : State) (m : Msg) : (emit s m).attrDue = s.attrDue := rfl
@[simp] theorem emit_reserve (s : State) (m : Msg) : (emit s m).reserve = s.reserve := rfl
@[simp] theorem emit_sanReqs (s : State) (m : Msg) : (emit s m).sanReqs = s.sanReqs := rfl
@[simp] theorem emit_sanHalf (s : State) (m : Msg) : (emit s m).sanHalf = s.sanHalf := rfl
@[simp] theorem emit_fmLog (s : State) (m : Msg) : (emit s m).fmLog = s.fmLog := rfl
@[simp] theorem emit_dir (s : State) (m : Msg) : (emit s m).dir = s.dir := rfl
@[simp] theorem emit_trans (s : State) (m : Msg) : (emit s m).trans = s.trans := rfl
@[simp] theorem emit_lineq (s : State) (m : Msg) : (emit s m).lineq = s.lineq := rfl
@[simp] theorem emit_snaps (s : State) (m : Msg) : (emit s m).snaps = s.snaps := rfl
@[simp] theorem emit_snapCmds (s : State) (m : Msg) : (emit s m).snapCmds = s.snapCmds := rfl
@[simp] theorem emit_frames (s : State) (m : Msg) : (emit s m).frames = s.frames := rfl
@[simp] theorem emit_pinMarks (s : State) (m : Msg) : (emit s m).pinMarks = s.pinMarks := rfl
@[simp] theorem emit_lbaMap (s : State) (m : Msg) : (emit s m).lbaMap = s.lbaMap := rfl
@[simp] theorem emit_ssd (s : State) (m : Msg) : (emit s m).ssd = s.ssd := rfl
@[simp] theorem emit_locks (s : State) (m : Msg) : (emit s m).locks = s.locks := rfl
@[simp] theorem emit_ios (s : State) (m : Msg) : (emit s m).ios = s.ios := rfl
@[simp] theorem emit_nextIo (s : State) (m : Msg) : (emit s m).nextIo = s.nextIo := rfl
@[simp] theorem emit_slots (s : State) (m : Msg) : (emit s m).slots = s.slots := rfl
@[simp] theorem emit_rebuild (s : State) (m : Msg) : (emit s m).rebuild = s.rebuild := rfl
@[simp] theorem emit_tier (s : State) (m : Msg) : (emit s m).tier = s.tier := rfl
@[simp] theorem emit_draining (s : State) (m : Msg) : (emit s m).draining = s.draining := rfl
@[simp] theorem emit_hints (s : State) (m : Msg) : (emit s m).hints = s.hints := rfl
@[simp] theorem emit_index (s : State) (m : Msg) : (emit s m).index = s.index := rfl
@[simp] theorem emit_segs (s : State) (m : Msg) : (emit s m).segs = s.segs := rfl
@[simp] theorem emit_cache (s : State) (m : Msg) : (emit s m).cache = s.cache := rfl
@[simp] theorem emit_expPitch (s : State) (m : Msg) : (emit s m).expPitch = s.expPitch := rfl
@[simp] theorem emit_compactQ (s : State) (m : Msg) : (emit s m).compactQ = s.compactQ := rfl
@[simp] theorem emit_stale (s : State) (m : Msg) : (emit s m).stale = s.stale := rfl
@[simp] theorem emit_damaged (s : State) (m : Msg) : (emit s m).damaged = s.damaged := rfl
@[simp] theorem emit_rings (s : State) (m : Msg) : (emit s m).rings = s.rings := rfl
@[simp] theorem emit_ringMem (s : State) (m : Msg) : (emit s m).ringMem = s.ringMem := rfl
@[simp] theorem emit_jobs (s : State) (m : Msg) : (emit s m).jobs = s.jobs := rfl
@[simp] theorem emit_windows (s : State) (m : Msg) : (emit s m).windows = s.windows := rfl
@[simp] theorem emit_applied (s : State) (m : Msg) : (emit s m).applied = s.applied := rfl
@[simp] theorem emit_steps (s : State) (m : Msg) : (emit s m).steps = s.steps := rfl
@[simp] theorem emit_coreTrips (s : State) (m : Msg) : (emit s m).coreTrips = s.coreTrips := rfl
@[simp] theorem emit_coresOut (s : State) (m : Msg) : (emit s m).coresOut = s.coresOut := rfl
@[simp] theorem emit_qos (s : State) (m : Msg) : (emit s m).qos = s.qos := rfl
@[simp] theorem emit_pcs (s : State) (m : Msg) : (emit s m).pcs = s.pcs := rfl
@[simp] theorem emit_portDiesOut (s : State) (m : Msg) : (emit s m).portDiesOut = s.portDiesOut := rfl
@[simp] theorem emit_clustersOut (s : State) (m : Msg) : (emit s m).clustersOut = s.clustersOut := rfl
@[simp] theorem emit_resetting (s : State) (m : Msg) : (emit s m).resetting = s.resetting := rfl
@[simp] theorem emit_stores (s : State) (m : Msg) : (emit s m).stores = s.stores := rfl
@[simp] theorem emit_repaired (s : State) (m : Msg) : (emit s m).repaired = s.repaired := rfl
@[simp] theorem emit_ras (s : State) (m : Msg) : (emit s m).ras = s.ras := rfl
@[simp] theorem emit_cairn (s : State) (m : Msg) : (emit s m).cairn = s.cairn := rfl
@[simp] theorem emit_belay (s : State) (m : Msg) : (emit s m).belay = s.belay := rfl
@[simp] theorem emit_sessions (s : State) (m : Msg) : (emit s m).sessions = s.sessions := rfl
@[simp] theorem emit_pins (s : State) (m : Msg) : (emit s m).pins = s.pins := rfl
@[simp] theorem headUpd_pending (s : State) (h : Nat) (g : HeadState → HeadState) : (headUpd s h g).pending = s.pending := rfl
@[simp] theorem headUpd_out (s : State) (h : Nat) (g : HeadState → HeadState) : (headUpd s h g).out = s.out := rfl
@[simp] theorem headUpd_free (s : State) (h : Nat) (g : HeadState → HeadState) : (headUpd s h g).free = s.free := rfl
@[simp] theorem headUpd_regs (s : State) (h : Nat) (g : HeadState → HeadState) : (headUpd s h g).regs = s.regs := rfl
@[simp] theorem headUpd_lag (s : State) (h : Nat) (g : HeadState → HeadState) : (headUpd s h g).lag = s.lag := rfl
@[simp] theorem headUpd_hdr (s : State) (h : Nat) (g : HeadState → HeadState) : (headUpd s h g).hdr = s.hdr := rfl
@[simp] theorem headUpd_mem (s : State) (h : Nat) (g : HeadState → HeadState) : (headUpd s h g).mem = s.mem := rfl
@[simp] theorem headUpd_poison (s : State) (h : Nat) (g : HeadState → HeadState) : (headUpd s h g).poison = s.poison := rfl
@[simp] theorem headUpd_damage (s : State) (h : Nat) (g : HeadState → HeadState) : (headUpd s h g).damage = s.damage := rfl
@[simp] theorem headUpd_boot (s : State) (h : Nat) (g : HeadState → HeadState) : (headUpd s h g).boot = s.boot := rfl
@[simp] theorem headUpd_flash (s : State) (h : Nat) (g : HeadState → HeadState) : (headUpd s h g).flash = s.flash := rfl
@[simp] theorem headUpd_power (s : State) (h : Nat) (g : HeadState → HeadState) : (headUpd s h g).power = s.power := rfl
@[simp] theorem headUpd_tb (s : State) (h : Nat) (g : HeadState → HeadState) : (headUpd s h g).tb = s.tb := rfl
@[simp] theorem headUpd_cfgs (s : State) (h : Nat) (g : HeadState → HeadState) : (headUpd s h g).cfgs = s.cfgs := rfl
@[simp] theorem headUpd_hdms (s : State) (h : Nat) (g : HeadState → HeadState) : (headUpd s h g).hdms = s.hdms := rfl
@[simp] theorem headUpd_parts (s : State) (h : Nat) (g : HeadState → HeadState) : (headUpd s h g).parts = s.parts := rfl
@[simp] theorem headUpd_exts (s : State) (h : Nat) (g : HeadState → HeadState) : (headUpd s h g).exts = s.exts := rfl
@[simp] theorem headUpd_attrDue (s : State) (h : Nat) (g : HeadState → HeadState) : (headUpd s h g).attrDue = s.attrDue := rfl
@[simp] theorem headUpd_reserve (s : State) (h : Nat) (g : HeadState → HeadState) : (headUpd s h g).reserve = s.reserve := rfl
@[simp] theorem headUpd_sanReqs (s : State) (h : Nat) (g : HeadState → HeadState) : (headUpd s h g).sanReqs = s.sanReqs := rfl
@[simp] theorem headUpd_sanHalf (s : State) (h : Nat) (g : HeadState → HeadState) : (headUpd s h g).sanHalf = s.sanHalf := rfl
@[simp] theorem headUpd_fmLog (s : State) (h : Nat) (g : HeadState → HeadState) : (headUpd s h g).fmLog = s.fmLog := rfl
@[simp] theorem headUpd_dir (s : State) (h : Nat) (g : HeadState → HeadState) : (headUpd s h g).dir = s.dir := rfl
@[simp] theorem headUpd_trans (s : State) (h : Nat) (g : HeadState → HeadState) : (headUpd s h g).trans = s.trans := rfl
@[simp] theorem headUpd_lineq (s : State) (h : Nat) (g : HeadState → HeadState) : (headUpd s h g).lineq = s.lineq := rfl
@[simp] theorem headUpd_snaps (s : State) (h : Nat) (g : HeadState → HeadState) : (headUpd s h g).snaps = s.snaps := rfl
@[simp] theorem headUpd_snapCmds (s : State) (h : Nat) (g : HeadState → HeadState) : (headUpd s h g).snapCmds = s.snapCmds := rfl
@[simp] theorem headUpd_frames (s : State) (h : Nat) (g : HeadState → HeadState) : (headUpd s h g).frames = s.frames := rfl
@[simp] theorem headUpd_pinMarks (s : State) (h : Nat) (g : HeadState → HeadState) : (headUpd s h g).pinMarks = s.pinMarks := rfl
@[simp] theorem headUpd_lbaMap (s : State) (h : Nat) (g : HeadState → HeadState) : (headUpd s h g).lbaMap = s.lbaMap := rfl
@[simp] theorem headUpd_ssd (s : State) (h : Nat) (g : HeadState → HeadState) : (headUpd s h g).ssd = s.ssd := rfl
@[simp] theorem headUpd_locks (s : State) (h : Nat) (g : HeadState → HeadState) : (headUpd s h g).locks = s.locks := rfl
@[simp] theorem headUpd_ios (s : State) (h : Nat) (g : HeadState → HeadState) : (headUpd s h g).ios = s.ios := rfl
@[simp] theorem headUpd_nextIo (s : State) (h : Nat) (g : HeadState → HeadState) : (headUpd s h g).nextIo = s.nextIo := rfl
@[simp] theorem headUpd_slots (s : State) (h : Nat) (g : HeadState → HeadState) : (headUpd s h g).slots = s.slots := rfl
@[simp] theorem headUpd_rebuild (s : State) (h : Nat) (g : HeadState → HeadState) : (headUpd s h g).rebuild = s.rebuild := rfl
@[simp] theorem headUpd_tier (s : State) (h : Nat) (g : HeadState → HeadState) : (headUpd s h g).tier = s.tier := rfl
@[simp] theorem headUpd_draining (s : State) (h : Nat) (g : HeadState → HeadState) : (headUpd s h g).draining = s.draining := rfl
@[simp] theorem headUpd_hints (s : State) (h : Nat) (g : HeadState → HeadState) : (headUpd s h g).hints = s.hints := rfl
@[simp] theorem headUpd_index (s : State) (h : Nat) (g : HeadState → HeadState) : (headUpd s h g).index = s.index := rfl
@[simp] theorem headUpd_segs (s : State) (h : Nat) (g : HeadState → HeadState) : (headUpd s h g).segs = s.segs := rfl
@[simp] theorem headUpd_cache (s : State) (h : Nat) (g : HeadState → HeadState) : (headUpd s h g).cache = s.cache := rfl
@[simp] theorem headUpd_expPitch (s : State) (h : Nat) (g : HeadState → HeadState) : (headUpd s h g).expPitch = s.expPitch := rfl
@[simp] theorem headUpd_compactQ (s : State) (h : Nat) (g : HeadState → HeadState) : (headUpd s h g).compactQ = s.compactQ := rfl
@[simp] theorem headUpd_stale (s : State) (h : Nat) (g : HeadState → HeadState) : (headUpd s h g).stale = s.stale := rfl
@[simp] theorem headUpd_damaged (s : State) (h : Nat) (g : HeadState → HeadState) : (headUpd s h g).damaged = s.damaged := rfl
@[simp] theorem headUpd_rings (s : State) (h : Nat) (g : HeadState → HeadState) : (headUpd s h g).rings = s.rings := rfl
@[simp] theorem headUpd_ringMem (s : State) (h : Nat) (g : HeadState → HeadState) : (headUpd s h g).ringMem = s.ringMem := rfl
@[simp] theorem headUpd_jobs (s : State) (h : Nat) (g : HeadState → HeadState) : (headUpd s h g).jobs = s.jobs := rfl
@[simp] theorem headUpd_windows (s : State) (h : Nat) (g : HeadState → HeadState) : (headUpd s h g).windows = s.windows := rfl
@[simp] theorem headUpd_applied (s : State) (h : Nat) (g : HeadState → HeadState) : (headUpd s h g).applied = s.applied := rfl
@[simp] theorem headUpd_steps (s : State) (h : Nat) (g : HeadState → HeadState) : (headUpd s h g).steps = s.steps := rfl
@[simp] theorem headUpd_coreTrips (s : State) (h : Nat) (g : HeadState → HeadState) : (headUpd s h g).coreTrips = s.coreTrips := rfl
@[simp] theorem headUpd_coresOut (s : State) (h : Nat) (g : HeadState → HeadState) : (headUpd s h g).coresOut = s.coresOut := rfl
@[simp] theorem headUpd_qos (s : State) (h : Nat) (g : HeadState → HeadState) : (headUpd s h g).qos = s.qos := rfl
@[simp] theorem headUpd_pcs (s : State) (h : Nat) (g : HeadState → HeadState) : (headUpd s h g).pcs = s.pcs := rfl
@[simp] theorem headUpd_portDiesOut (s : State) (h : Nat) (g : HeadState → HeadState) : (headUpd s h g).portDiesOut = s.portDiesOut := rfl
@[simp] theorem headUpd_clustersOut (s : State) (h : Nat) (g : HeadState → HeadState) : (headUpd s h g).clustersOut = s.clustersOut := rfl
@[simp] theorem headUpd_resetting (s : State) (h : Nat) (g : HeadState → HeadState) : (headUpd s h g).resetting = s.resetting := rfl
@[simp] theorem headUpd_stores (s : State) (h : Nat) (g : HeadState → HeadState) : (headUpd s h g).stores = s.stores := rfl
@[simp] theorem headUpd_repaired (s : State) (h : Nat) (g : HeadState → HeadState) : (headUpd s h g).repaired = s.repaired := rfl
@[simp] theorem headUpd_ras (s : State) (h : Nat) (g : HeadState → HeadState) : (headUpd s h g).ras = s.ras := rfl
@[simp] theorem headUpd_cairn (s : State) (h : Nat) (g : HeadState → HeadState) : (headUpd s h g).cairn = s.cairn := rfl
@[simp] theorem headUpd_belay (s : State) (h : Nat) (g : HeadState → HeadState) : (headUpd s h g).belay = s.belay := rfl
@[simp] theorem headUpd_sessions (s : State) (h : Nat) (g : HeadState → HeadState) : (headUpd s h g).sessions = s.sessions := rfl
@[simp] theorem headUpd_pins (s : State) (h : Nat) (g : HeadState → HeadState) : (headUpd s h g).pins = s.pins := rfl
@[simp] theorem cfgUpd_pending (s : State) (o : Nat) (g : PartCfg → PartCfg) : (cfgUpd s o g).pending = s.pending := rfl
@[simp] theorem cfgUpd_out (s : State) (o : Nat) (g : PartCfg → PartCfg) : (cfgUpd s o g).out = s.out := rfl
@[simp] theorem cfgUpd_free (s : State) (o : Nat) (g : PartCfg → PartCfg) : (cfgUpd s o g).free = s.free := rfl
@[simp] theorem cfgUpd_regs (s : State) (o : Nat) (g : PartCfg → PartCfg) : (cfgUpd s o g).regs = s.regs := rfl
@[simp] theorem cfgUpd_lag (s : State) (o : Nat) (g : PartCfg → PartCfg) : (cfgUpd s o g).lag = s.lag := rfl
@[simp] theorem cfgUpd_hdr (s : State) (o : Nat) (g : PartCfg → PartCfg) : (cfgUpd s o g).hdr = s.hdr := rfl
@[simp] theorem cfgUpd_mem (s : State) (o : Nat) (g : PartCfg → PartCfg) : (cfgUpd s o g).mem = s.mem := rfl
@[simp] theorem cfgUpd_poison (s : State) (o : Nat) (g : PartCfg → PartCfg) : (cfgUpd s o g).poison = s.poison := rfl
@[simp] theorem cfgUpd_damage (s : State) (o : Nat) (g : PartCfg → PartCfg) : (cfgUpd s o g).damage = s.damage := rfl
@[simp] theorem cfgUpd_boot (s : State) (o : Nat) (g : PartCfg → PartCfg) : (cfgUpd s o g).boot = s.boot := rfl
@[simp] theorem cfgUpd_flash (s : State) (o : Nat) (g : PartCfg → PartCfg) : (cfgUpd s o g).flash = s.flash := rfl
@[simp] theorem cfgUpd_power (s : State) (o : Nat) (g : PartCfg → PartCfg) : (cfgUpd s o g).power = s.power := rfl
@[simp] theorem cfgUpd_tb (s : State) (o : Nat) (g : PartCfg → PartCfg) : (cfgUpd s o g).tb = s.tb := rfl
@[simp] theorem cfgUpd_heads (s : State) (o : Nat) (g : PartCfg → PartCfg) : (cfgUpd s o g).heads = s.heads := rfl
@[simp] theorem cfgUpd_hdms (s : State) (o : Nat) (g : PartCfg → PartCfg) : (cfgUpd s o g).hdms = s.hdms := rfl
@[simp] theorem cfgUpd_parts (s : State) (o : Nat) (g : PartCfg → PartCfg) : (cfgUpd s o g).parts = s.parts := rfl
@[simp] theorem cfgUpd_exts (s : State) (o : Nat) (g : PartCfg → PartCfg) : (cfgUpd s o g).exts = s.exts := rfl
@[simp] theorem cfgUpd_attrDue (s : State) (o : Nat) (g : PartCfg → PartCfg) : (cfgUpd s o g).attrDue = s.attrDue := rfl
@[simp] theorem cfgUpd_reserve (s : State) (o : Nat) (g : PartCfg → PartCfg) : (cfgUpd s o g).reserve = s.reserve := rfl
@[simp] theorem cfgUpd_sanReqs (s : State) (o : Nat) (g : PartCfg → PartCfg) : (cfgUpd s o g).sanReqs = s.sanReqs := rfl
@[simp] theorem cfgUpd_sanHalf (s : State) (o : Nat) (g : PartCfg → PartCfg) : (cfgUpd s o g).sanHalf = s.sanHalf := rfl
@[simp] theorem cfgUpd_fmLog (s : State) (o : Nat) (g : PartCfg → PartCfg) : (cfgUpd s o g).fmLog = s.fmLog := rfl
@[simp] theorem cfgUpd_dir (s : State) (o : Nat) (g : PartCfg → PartCfg) : (cfgUpd s o g).dir = s.dir := rfl
@[simp] theorem cfgUpd_trans (s : State) (o : Nat) (g : PartCfg → PartCfg) : (cfgUpd s o g).trans = s.trans := rfl
@[simp] theorem cfgUpd_lineq (s : State) (o : Nat) (g : PartCfg → PartCfg) : (cfgUpd s o g).lineq = s.lineq := rfl
@[simp] theorem cfgUpd_snaps (s : State) (o : Nat) (g : PartCfg → PartCfg) : (cfgUpd s o g).snaps = s.snaps := rfl
@[simp] theorem cfgUpd_snapCmds (s : State) (o : Nat) (g : PartCfg → PartCfg) : (cfgUpd s o g).snapCmds = s.snapCmds := rfl
@[simp] theorem cfgUpd_frames (s : State) (o : Nat) (g : PartCfg → PartCfg) : (cfgUpd s o g).frames = s.frames := rfl
@[simp] theorem cfgUpd_pinMarks (s : State) (o : Nat) (g : PartCfg → PartCfg) : (cfgUpd s o g).pinMarks = s.pinMarks := rfl
@[simp] theorem cfgUpd_lbaMap (s : State) (o : Nat) (g : PartCfg → PartCfg) : (cfgUpd s o g).lbaMap = s.lbaMap := rfl
@[simp] theorem cfgUpd_ssd (s : State) (o : Nat) (g : PartCfg → PartCfg) : (cfgUpd s o g).ssd = s.ssd := rfl
@[simp] theorem cfgUpd_locks (s : State) (o : Nat) (g : PartCfg → PartCfg) : (cfgUpd s o g).locks = s.locks := rfl
@[simp] theorem cfgUpd_ios (s : State) (o : Nat) (g : PartCfg → PartCfg) : (cfgUpd s o g).ios = s.ios := rfl
@[simp] theorem cfgUpd_nextIo (s : State) (o : Nat) (g : PartCfg → PartCfg) : (cfgUpd s o g).nextIo = s.nextIo := rfl
@[simp] theorem cfgUpd_slots (s : State) (o : Nat) (g : PartCfg → PartCfg) : (cfgUpd s o g).slots = s.slots := rfl
@[simp] theorem cfgUpd_rebuild (s : State) (o : Nat) (g : PartCfg → PartCfg) : (cfgUpd s o g).rebuild = s.rebuild := rfl
@[simp] theorem cfgUpd_tier (s : State) (o : Nat) (g : PartCfg → PartCfg) : (cfgUpd s o g).tier = s.tier := rfl
@[simp] theorem cfgUpd_draining (s : State) (o : Nat) (g : PartCfg → PartCfg) : (cfgUpd s o g).draining = s.draining := rfl
@[simp] theorem cfgUpd_hints (s : State) (o : Nat) (g : PartCfg → PartCfg) : (cfgUpd s o g).hints = s.hints := rfl
@[simp] theorem cfgUpd_index (s : State) (o : Nat) (g : PartCfg → PartCfg) : (cfgUpd s o g).index = s.index := rfl
@[simp] theorem cfgUpd_segs (s : State) (o : Nat) (g : PartCfg → PartCfg) : (cfgUpd s o g).segs = s.segs := rfl
@[simp] theorem cfgUpd_cache (s : State) (o : Nat) (g : PartCfg → PartCfg) : (cfgUpd s o g).cache = s.cache := rfl
@[simp] theorem cfgUpd_expPitch (s : State) (o : Nat) (g : PartCfg → PartCfg) : (cfgUpd s o g).expPitch = s.expPitch := rfl
@[simp] theorem cfgUpd_compactQ (s : State) (o : Nat) (g : PartCfg → PartCfg) : (cfgUpd s o g).compactQ = s.compactQ := rfl
@[simp] theorem cfgUpd_stale (s : State) (o : Nat) (g : PartCfg → PartCfg) : (cfgUpd s o g).stale = s.stale := rfl
@[simp] theorem cfgUpd_damaged (s : State) (o : Nat) (g : PartCfg → PartCfg) : (cfgUpd s o g).damaged = s.damaged := rfl
@[simp] theorem cfgUpd_rings (s : State) (o : Nat) (g : PartCfg → PartCfg) : (cfgUpd s o g).rings = s.rings := rfl
@[simp] theorem cfgUpd_ringMem (s : State) (o : Nat) (g : PartCfg → PartCfg) : (cfgUpd s o g).ringMem = s.ringMem := rfl
@[simp] theorem cfgUpd_jobs (s : State) (o : Nat) (g : PartCfg → PartCfg) : (cfgUpd s o g).jobs = s.jobs := rfl
@[simp] theorem cfgUpd_windows (s : State) (o : Nat) (g : PartCfg → PartCfg) : (cfgUpd s o g).windows = s.windows := rfl
@[simp] theorem cfgUpd_applied (s : State) (o : Nat) (g : PartCfg → PartCfg) : (cfgUpd s o g).applied = s.applied := rfl
@[simp] theorem cfgUpd_steps (s : State) (o : Nat) (g : PartCfg → PartCfg) : (cfgUpd s o g).steps = s.steps := rfl
@[simp] theorem cfgUpd_coreTrips (s : State) (o : Nat) (g : PartCfg → PartCfg) : (cfgUpd s o g).coreTrips = s.coreTrips := rfl
@[simp] theorem cfgUpd_coresOut (s : State) (o : Nat) (g : PartCfg → PartCfg) : (cfgUpd s o g).coresOut = s.coresOut := rfl
@[simp] theorem cfgUpd_qos (s : State) (o : Nat) (g : PartCfg → PartCfg) : (cfgUpd s o g).qos = s.qos := rfl
@[simp] theorem cfgUpd_pcs (s : State) (o : Nat) (g : PartCfg → PartCfg) : (cfgUpd s o g).pcs = s.pcs := rfl
@[simp] theorem cfgUpd_portDiesOut (s : State) (o : Nat) (g : PartCfg → PartCfg) : (cfgUpd s o g).portDiesOut = s.portDiesOut := rfl
@[simp] theorem cfgUpd_clustersOut (s : State) (o : Nat) (g : PartCfg → PartCfg) : (cfgUpd s o g).clustersOut = s.clustersOut := rfl
@[simp] theorem cfgUpd_resetting (s : State) (o : Nat) (g : PartCfg → PartCfg) : (cfgUpd s o g).resetting = s.resetting := rfl
@[simp] theorem cfgUpd_stores (s : State) (o : Nat) (g : PartCfg → PartCfg) : (cfgUpd s o g).stores = s.stores := rfl
@[simp] theorem cfgUpd_repaired (s : State) (o : Nat) (g : PartCfg → PartCfg) : (cfgUpd s o g).repaired = s.repaired := rfl
@[simp] theorem cfgUpd_ras (s : State) (o : Nat) (g : PartCfg → PartCfg) : (cfgUpd s o g).ras = s.ras := rfl
@[simp] theorem cfgUpd_cairn (s : State) (o : Nat) (g : PartCfg → PartCfg) : (cfgUpd s o g).cairn = s.cairn := rfl
@[simp] theorem cfgUpd_belay (s : State) (o : Nat) (g : PartCfg → PartCfg) : (cfgUpd s o g).belay = s.belay := rfl
@[simp] theorem cfgUpd_sessions (s : State) (o : Nat) (g : PartCfg → PartCfg) : (cfgUpd s o g).sessions = s.sessions := rfl
@[simp] theorem cfgUpd_pins (s : State) (o : Nat) (g : PartCfg → PartCfg) : (cfgUpd s o g).pins = s.pins := rfl
@[simp] theorem partUpd_pending (s : State) (p : Nat) (g : PartState → PartState) : (partUpd s p g).pending = s.pending := rfl
@[simp] theorem partUpd_out (s : State) (p : Nat) (g : PartState → PartState) : (partUpd s p g).out = s.out := rfl
@[simp] theorem partUpd_free (s : State) (p : Nat) (g : PartState → PartState) : (partUpd s p g).free = s.free := rfl
@[simp] theorem partUpd_regs (s : State) (p : Nat) (g : PartState → PartState) : (partUpd s p g).regs = s.regs := rfl
@[simp] theorem partUpd_lag (s : State) (p : Nat) (g : PartState → PartState) : (partUpd s p g).lag = s.lag := rfl
@[simp] theorem partUpd_hdr (s : State) (p : Nat) (g : PartState → PartState) : (partUpd s p g).hdr = s.hdr := rfl
@[simp] theorem partUpd_mem (s : State) (p : Nat) (g : PartState → PartState) : (partUpd s p g).mem = s.mem := rfl
@[simp] theorem partUpd_poison (s : State) (p : Nat) (g : PartState → PartState) : (partUpd s p g).poison = s.poison := rfl
@[simp] theorem partUpd_damage (s : State) (p : Nat) (g : PartState → PartState) : (partUpd s p g).damage = s.damage := rfl
@[simp] theorem partUpd_boot (s : State) (p : Nat) (g : PartState → PartState) : (partUpd s p g).boot = s.boot := rfl
@[simp] theorem partUpd_flash (s : State) (p : Nat) (g : PartState → PartState) : (partUpd s p g).flash = s.flash := rfl
@[simp] theorem partUpd_power (s : State) (p : Nat) (g : PartState → PartState) : (partUpd s p g).power = s.power := rfl
@[simp] theorem partUpd_tb (s : State) (p : Nat) (g : PartState → PartState) : (partUpd s p g).tb = s.tb := rfl
@[simp] theorem partUpd_heads (s : State) (p : Nat) (g : PartState → PartState) : (partUpd s p g).heads = s.heads := rfl
@[simp] theorem partUpd_cfgs (s : State) (p : Nat) (g : PartState → PartState) : (partUpd s p g).cfgs = s.cfgs := rfl
@[simp] theorem partUpd_hdms (s : State) (p : Nat) (g : PartState → PartState) : (partUpd s p g).hdms = s.hdms := rfl
@[simp] theorem partUpd_exts (s : State) (p : Nat) (g : PartState → PartState) : (partUpd s p g).exts = s.exts := rfl
@[simp] theorem partUpd_attrDue (s : State) (p : Nat) (g : PartState → PartState) : (partUpd s p g).attrDue = s.attrDue := rfl
@[simp] theorem partUpd_reserve (s : State) (p : Nat) (g : PartState → PartState) : (partUpd s p g).reserve = s.reserve := rfl
@[simp] theorem partUpd_sanReqs (s : State) (p : Nat) (g : PartState → PartState) : (partUpd s p g).sanReqs = s.sanReqs := rfl
@[simp] theorem partUpd_sanHalf (s : State) (p : Nat) (g : PartState → PartState) : (partUpd s p g).sanHalf = s.sanHalf := rfl
@[simp] theorem partUpd_fmLog (s : State) (p : Nat) (g : PartState → PartState) : (partUpd s p g).fmLog = s.fmLog := rfl
@[simp] theorem partUpd_dir (s : State) (p : Nat) (g : PartState → PartState) : (partUpd s p g).dir = s.dir := rfl
@[simp] theorem partUpd_trans (s : State) (p : Nat) (g : PartState → PartState) : (partUpd s p g).trans = s.trans := rfl
@[simp] theorem partUpd_lineq (s : State) (p : Nat) (g : PartState → PartState) : (partUpd s p g).lineq = s.lineq := rfl
@[simp] theorem partUpd_snaps (s : State) (p : Nat) (g : PartState → PartState) : (partUpd s p g).snaps = s.snaps := rfl
@[simp] theorem partUpd_snapCmds (s : State) (p : Nat) (g : PartState → PartState) : (partUpd s p g).snapCmds = s.snapCmds := rfl
@[simp] theorem partUpd_frames (s : State) (p : Nat) (g : PartState → PartState) : (partUpd s p g).frames = s.frames := rfl
@[simp] theorem partUpd_pinMarks (s : State) (p : Nat) (g : PartState → PartState) : (partUpd s p g).pinMarks = s.pinMarks := rfl
@[simp] theorem partUpd_lbaMap (s : State) (p : Nat) (g : PartState → PartState) : (partUpd s p g).lbaMap = s.lbaMap := rfl
@[simp] theorem partUpd_ssd (s : State) (p : Nat) (g : PartState → PartState) : (partUpd s p g).ssd = s.ssd := rfl
@[simp] theorem partUpd_locks (s : State) (p : Nat) (g : PartState → PartState) : (partUpd s p g).locks = s.locks := rfl
@[simp] theorem partUpd_ios (s : State) (p : Nat) (g : PartState → PartState) : (partUpd s p g).ios = s.ios := rfl
@[simp] theorem partUpd_nextIo (s : State) (p : Nat) (g : PartState → PartState) : (partUpd s p g).nextIo = s.nextIo := rfl
@[simp] theorem partUpd_slots (s : State) (p : Nat) (g : PartState → PartState) : (partUpd s p g).slots = s.slots := rfl
@[simp] theorem partUpd_rebuild (s : State) (p : Nat) (g : PartState → PartState) : (partUpd s p g).rebuild = s.rebuild := rfl
@[simp] theorem partUpd_tier (s : State) (p : Nat) (g : PartState → PartState) : (partUpd s p g).tier = s.tier := rfl
@[simp] theorem partUpd_draining (s : State) (p : Nat) (g : PartState → PartState) : (partUpd s p g).draining = s.draining := rfl
@[simp] theorem partUpd_hints (s : State) (p : Nat) (g : PartState → PartState) : (partUpd s p g).hints = s.hints := rfl
@[simp] theorem partUpd_index (s : State) (p : Nat) (g : PartState → PartState) : (partUpd s p g).index = s.index := rfl
@[simp] theorem partUpd_segs (s : State) (p : Nat) (g : PartState → PartState) : (partUpd s p g).segs = s.segs := rfl
@[simp] theorem partUpd_cache (s : State) (p : Nat) (g : PartState → PartState) : (partUpd s p g).cache = s.cache := rfl
@[simp] theorem partUpd_expPitch (s : State) (p : Nat) (g : PartState → PartState) : (partUpd s p g).expPitch = s.expPitch := rfl
@[simp] theorem partUpd_compactQ (s : State) (p : Nat) (g : PartState → PartState) : (partUpd s p g).compactQ = s.compactQ := rfl
@[simp] theorem partUpd_stale (s : State) (p : Nat) (g : PartState → PartState) : (partUpd s p g).stale = s.stale := rfl
@[simp] theorem partUpd_damaged (s : State) (p : Nat) (g : PartState → PartState) : (partUpd s p g).damaged = s.damaged := rfl
@[simp] theorem partUpd_rings (s : State) (p : Nat) (g : PartState → PartState) : (partUpd s p g).rings = s.rings := rfl
@[simp] theorem partUpd_ringMem (s : State) (p : Nat) (g : PartState → PartState) : (partUpd s p g).ringMem = s.ringMem := rfl
@[simp] theorem partUpd_jobs (s : State) (p : Nat) (g : PartState → PartState) : (partUpd s p g).jobs = s.jobs := rfl
@[simp] theorem partUpd_windows (s : State) (p : Nat) (g : PartState → PartState) : (partUpd s p g).windows = s.windows := rfl
@[simp] theorem partUpd_applied (s : State) (p : Nat) (g : PartState → PartState) : (partUpd s p g).applied = s.applied := rfl
@[simp] theorem partUpd_steps (s : State) (p : Nat) (g : PartState → PartState) : (partUpd s p g).steps = s.steps := rfl
@[simp] theorem partUpd_coreTrips (s : State) (p : Nat) (g : PartState → PartState) : (partUpd s p g).coreTrips = s.coreTrips := rfl
@[simp] theorem partUpd_coresOut (s : State) (p : Nat) (g : PartState → PartState) : (partUpd s p g).coresOut = s.coresOut := rfl
@[simp] theorem partUpd_qos (s : State) (p : Nat) (g : PartState → PartState) : (partUpd s p g).qos = s.qos := rfl
@[simp] theorem partUpd_pcs (s : State) (p : Nat) (g : PartState → PartState) : (partUpd s p g).pcs = s.pcs := rfl
@[simp] theorem partUpd_portDiesOut (s : State) (p : Nat) (g : PartState → PartState) : (partUpd s p g).portDiesOut = s.portDiesOut := rfl
@[simp] theorem partUpd_clustersOut (s : State) (p : Nat) (g : PartState → PartState) : (partUpd s p g).clustersOut = s.clustersOut := rfl
@[simp] theorem partUpd_resetting (s : State) (p : Nat) (g : PartState → PartState) : (partUpd s p g).resetting = s.resetting := rfl
@[simp] theorem partUpd_stores (s : State) (p : Nat) (g : PartState → PartState) : (partUpd s p g).stores = s.stores := rfl
@[simp] theorem partUpd_repaired (s : State) (p : Nat) (g : PartState → PartState) : (partUpd s p g).repaired = s.repaired := rfl
@[simp] theorem partUpd_ras (s : State) (p : Nat) (g : PartState → PartState) : (partUpd s p g).ras = s.ras := rfl
@[simp] theorem partUpd_cairn (s : State) (p : Nat) (g : PartState → PartState) : (partUpd s p g).cairn = s.cairn := rfl
@[simp] theorem partUpd_belay (s : State) (p : Nat) (g : PartState → PartState) : (partUpd s p g).belay = s.belay := rfl
@[simp] theorem partUpd_sessions (s : State) (p : Nat) (g : PartState → PartState) : (partUpd s p g).sessions = s.sessions := rfl
@[simp] theorem partUpd_pins (s : State) (p : Nat) (g : PartState → PartState) : (partUpd s p g).pins = s.pins := rfl
@[simp] theorem pcUpd_pending (s : State) (pc : Nat) (g : PcState → PcState) : (pcUpd s pc g).pending = s.pending := rfl
@[simp] theorem pcUpd_out (s : State) (pc : Nat) (g : PcState → PcState) : (pcUpd s pc g).out = s.out := rfl
@[simp] theorem pcUpd_free (s : State) (pc : Nat) (g : PcState → PcState) : (pcUpd s pc g).free = s.free := rfl
@[simp] theorem pcUpd_regs (s : State) (pc : Nat) (g : PcState → PcState) : (pcUpd s pc g).regs = s.regs := rfl
@[simp] theorem pcUpd_lag (s : State) (pc : Nat) (g : PcState → PcState) : (pcUpd s pc g).lag = s.lag := rfl
@[simp] theorem pcUpd_hdr (s : State) (pc : Nat) (g : PcState → PcState) : (pcUpd s pc g).hdr = s.hdr := rfl
@[simp] theorem pcUpd_mem (s : State) (pc : Nat) (g : PcState → PcState) : (pcUpd s pc g).mem = s.mem := rfl
@[simp] theorem pcUpd_poison (s : State) (pc : Nat) (g : PcState → PcState) : (pcUpd s pc g).poison = s.poison := rfl
@[simp] theorem pcUpd_damage (s : State) (pc : Nat) (g : PcState → PcState) : (pcUpd s pc g).damage = s.damage := rfl
@[simp] theorem pcUpd_boot (s : State) (pc : Nat) (g : PcState → PcState) : (pcUpd s pc g).boot = s.boot := rfl
@[simp] theorem pcUpd_flash (s : State) (pc : Nat) (g : PcState → PcState) : (pcUpd s pc g).flash = s.flash := rfl
@[simp] theorem pcUpd_power (s : State) (pc : Nat) (g : PcState → PcState) : (pcUpd s pc g).power = s.power := rfl
@[simp] theorem pcUpd_tb (s : State) (pc : Nat) (g : PcState → PcState) : (pcUpd s pc g).tb = s.tb := rfl
@[simp] theorem pcUpd_heads (s : State) (pc : Nat) (g : PcState → PcState) : (pcUpd s pc g).heads = s.heads := rfl
@[simp] theorem pcUpd_cfgs (s : State) (pc : Nat) (g : PcState → PcState) : (pcUpd s pc g).cfgs = s.cfgs := rfl
@[simp] theorem pcUpd_hdms (s : State) (pc : Nat) (g : PcState → PcState) : (pcUpd s pc g).hdms = s.hdms := rfl
@[simp] theorem pcUpd_parts (s : State) (pc : Nat) (g : PcState → PcState) : (pcUpd s pc g).parts = s.parts := rfl
@[simp] theorem pcUpd_exts (s : State) (pc : Nat) (g : PcState → PcState) : (pcUpd s pc g).exts = s.exts := rfl
@[simp] theorem pcUpd_attrDue (s : State) (pc : Nat) (g : PcState → PcState) : (pcUpd s pc g).attrDue = s.attrDue := rfl
@[simp] theorem pcUpd_reserve (s : State) (pc : Nat) (g : PcState → PcState) : (pcUpd s pc g).reserve = s.reserve := rfl
@[simp] theorem pcUpd_sanReqs (s : State) (pc : Nat) (g : PcState → PcState) : (pcUpd s pc g).sanReqs = s.sanReqs := rfl
@[simp] theorem pcUpd_sanHalf (s : State) (pc : Nat) (g : PcState → PcState) : (pcUpd s pc g).sanHalf = s.sanHalf := rfl
@[simp] theorem pcUpd_fmLog (s : State) (pc : Nat) (g : PcState → PcState) : (pcUpd s pc g).fmLog = s.fmLog := rfl
@[simp] theorem pcUpd_dir (s : State) (pc : Nat) (g : PcState → PcState) : (pcUpd s pc g).dir = s.dir := rfl
@[simp] theorem pcUpd_trans (s : State) (pc : Nat) (g : PcState → PcState) : (pcUpd s pc g).trans = s.trans := rfl
@[simp] theorem pcUpd_lineq (s : State) (pc : Nat) (g : PcState → PcState) : (pcUpd s pc g).lineq = s.lineq := rfl
@[simp] theorem pcUpd_snaps (s : State) (pc : Nat) (g : PcState → PcState) : (pcUpd s pc g).snaps = s.snaps := rfl
@[simp] theorem pcUpd_snapCmds (s : State) (pc : Nat) (g : PcState → PcState) : (pcUpd s pc g).snapCmds = s.snapCmds := rfl
@[simp] theorem pcUpd_frames (s : State) (pc : Nat) (g : PcState → PcState) : (pcUpd s pc g).frames = s.frames := rfl
@[simp] theorem pcUpd_pinMarks (s : State) (pc : Nat) (g : PcState → PcState) : (pcUpd s pc g).pinMarks = s.pinMarks := rfl
@[simp] theorem pcUpd_lbaMap (s : State) (pc : Nat) (g : PcState → PcState) : (pcUpd s pc g).lbaMap = s.lbaMap := rfl
@[simp] theorem pcUpd_ssd (s : State) (pc : Nat) (g : PcState → PcState) : (pcUpd s pc g).ssd = s.ssd := rfl
@[simp] theorem pcUpd_locks (s : State) (pc : Nat) (g : PcState → PcState) : (pcUpd s pc g).locks = s.locks := rfl
@[simp] theorem pcUpd_ios (s : State) (pc : Nat) (g : PcState → PcState) : (pcUpd s pc g).ios = s.ios := rfl
@[simp] theorem pcUpd_nextIo (s : State) (pc : Nat) (g : PcState → PcState) : (pcUpd s pc g).nextIo = s.nextIo := rfl
@[simp] theorem pcUpd_slots (s : State) (pc : Nat) (g : PcState → PcState) : (pcUpd s pc g).slots = s.slots := rfl
@[simp] theorem pcUpd_rebuild (s : State) (pc : Nat) (g : PcState → PcState) : (pcUpd s pc g).rebuild = s.rebuild := rfl
@[simp] theorem pcUpd_tier (s : State) (pc : Nat) (g : PcState → PcState) : (pcUpd s pc g).tier = s.tier := rfl
@[simp] theorem pcUpd_draining (s : State) (pc : Nat) (g : PcState → PcState) : (pcUpd s pc g).draining = s.draining := rfl
@[simp] theorem pcUpd_hints (s : State) (pc : Nat) (g : PcState → PcState) : (pcUpd s pc g).hints = s.hints := rfl
@[simp] theorem pcUpd_index (s : State) (pc : Nat) (g : PcState → PcState) : (pcUpd s pc g).index = s.index := rfl
@[simp] theorem pcUpd_segs (s : State) (pc : Nat) (g : PcState → PcState) : (pcUpd s pc g).segs = s.segs := rfl
@[simp] theorem pcUpd_cache (s : State) (pc : Nat) (g : PcState → PcState) : (pcUpd s pc g).cache = s.cache := rfl
@[simp] theorem pcUpd_expPitch (s : State) (pc : Nat) (g : PcState → PcState) : (pcUpd s pc g).expPitch = s.expPitch := rfl
@[simp] theorem pcUpd_compactQ (s : State) (pc : Nat) (g : PcState → PcState) : (pcUpd s pc g).compactQ = s.compactQ := rfl
@[simp] theorem pcUpd_stale (s : State) (pc : Nat) (g : PcState → PcState) : (pcUpd s pc g).stale = s.stale := rfl
@[simp] theorem pcUpd_damaged (s : State) (pc : Nat) (g : PcState → PcState) : (pcUpd s pc g).damaged = s.damaged := rfl
@[simp] theorem pcUpd_rings (s : State) (pc : Nat) (g : PcState → PcState) : (pcUpd s pc g).rings = s.rings := rfl
@[simp] theorem pcUpd_ringMem (s : State) (pc : Nat) (g : PcState → PcState) : (pcUpd s pc g).ringMem = s.ringMem := rfl
@[simp] theorem pcUpd_jobs (s : State) (pc : Nat) (g : PcState → PcState) : (pcUpd s pc g).jobs = s.jobs := rfl
@[simp] theorem pcUpd_windows (s : State) (pc : Nat) (g : PcState → PcState) : (pcUpd s pc g).windows = s.windows := rfl
@[simp] theorem pcUpd_applied (s : State) (pc : Nat) (g : PcState → PcState) : (pcUpd s pc g).applied = s.applied := rfl
@[simp] theorem pcUpd_steps (s : State) (pc : Nat) (g : PcState → PcState) : (pcUpd s pc g).steps = s.steps := rfl
@[simp] theorem pcUpd_coreTrips (s : State) (pc : Nat) (g : PcState → PcState) : (pcUpd s pc g).coreTrips = s.coreTrips := rfl
@[simp] theorem pcUpd_coresOut (s : State) (pc : Nat) (g : PcState → PcState) : (pcUpd s pc g).coresOut = s.coresOut := rfl
@[simp] theorem pcUpd_qos (s : State) (pc : Nat) (g : PcState → PcState) : (pcUpd s pc g).qos = s.qos := rfl
@[simp] theorem pcUpd_portDiesOut (s : State) (pc : Nat) (g : PcState → PcState) : (pcUpd s pc g).portDiesOut = s.portDiesOut := rfl
@[simp] theorem pcUpd_clustersOut (s : State) (pc : Nat) (g : PcState → PcState) : (pcUpd s pc g).clustersOut = s.clustersOut := rfl
@[simp] theorem pcUpd_resetting (s : State) (pc : Nat) (g : PcState → PcState) : (pcUpd s pc g).resetting = s.resetting := rfl
@[simp] theorem pcUpd_stores (s : State) (pc : Nat) (g : PcState → PcState) : (pcUpd s pc g).stores = s.stores := rfl
@[simp] theorem pcUpd_repaired (s : State) (pc : Nat) (g : PcState → PcState) : (pcUpd s pc g).repaired = s.repaired := rfl
@[simp] theorem pcUpd_ras (s : State) (pc : Nat) (g : PcState → PcState) : (pcUpd s pc g).ras = s.ras := rfl
@[simp] theorem pcUpd_cairn (s : State) (pc : Nat) (g : PcState → PcState) : (pcUpd s pc g).cairn = s.cairn := rfl
@[simp] theorem pcUpd_belay (s : State) (pc : Nat) (g : PcState → PcState) : (pcUpd s pc g).belay = s.belay := rfl
@[simp] theorem pcUpd_sessions (s : State) (pc : Nat) (g : PcState → PcState) : (pcUpd s pc g).sessions = s.sessions := rfl
@[simp] theorem pcUpd_pins (s : State) (pc : Nat) (g : PcState → PcState) : (pcUpd s pc g).pins = s.pins := rfl
@[simp] theorem slotUpd_pending (s : State) (k : Nat) (g : SlotState → SlotState) : (slotUpd s k g).pending = s.pending := rfl
@[simp] theorem slotUpd_out (s : State) (k : Nat) (g : SlotState → SlotState) : (slotUpd s k g).out = s.out := rfl
@[simp] theorem slotUpd_free (s : State) (k : Nat) (g : SlotState → SlotState) : (slotUpd s k g).free = s.free := rfl
@[simp] theorem slotUpd_regs (s : State) (k : Nat) (g : SlotState → SlotState) : (slotUpd s k g).regs = s.regs := rfl
@[simp] theorem slotUpd_lag (s : State) (k : Nat) (g : SlotState → SlotState) : (slotUpd s k g).lag = s.lag := rfl
@[simp] theorem slotUpd_hdr (s : State) (k : Nat) (g : SlotState → SlotState) : (slotUpd s k g).hdr = s.hdr := rfl
@[simp] theorem slotUpd_mem (s : State) (k : Nat) (g : SlotState → SlotState) : (slotUpd s k g).mem = s.mem := rfl
@[simp] theorem slotUpd_poison (s : State) (k : Nat) (g : SlotState → SlotState) : (slotUpd s k g).poison = s.poison := rfl
@[simp] theorem slotUpd_damage (s : State) (k : Nat) (g : SlotState → SlotState) : (slotUpd s k g).damage = s.damage := rfl
@[simp] theorem slotUpd_boot (s : State) (k : Nat) (g : SlotState → SlotState) : (slotUpd s k g).boot = s.boot := rfl
@[simp] theorem slotUpd_flash (s : State) (k : Nat) (g : SlotState → SlotState) : (slotUpd s k g).flash = s.flash := rfl
@[simp] theorem slotUpd_power (s : State) (k : Nat) (g : SlotState → SlotState) : (slotUpd s k g).power = s.power := rfl
@[simp] theorem slotUpd_tb (s : State) (k : Nat) (g : SlotState → SlotState) : (slotUpd s k g).tb = s.tb := rfl
@[simp] theorem slotUpd_heads (s : State) (k : Nat) (g : SlotState → SlotState) : (slotUpd s k g).heads = s.heads := rfl
@[simp] theorem slotUpd_cfgs (s : State) (k : Nat) (g : SlotState → SlotState) : (slotUpd s k g).cfgs = s.cfgs := rfl
@[simp] theorem slotUpd_hdms (s : State) (k : Nat) (g : SlotState → SlotState) : (slotUpd s k g).hdms = s.hdms := rfl
@[simp] theorem slotUpd_parts (s : State) (k : Nat) (g : SlotState → SlotState) : (slotUpd s k g).parts = s.parts := rfl
@[simp] theorem slotUpd_exts (s : State) (k : Nat) (g : SlotState → SlotState) : (slotUpd s k g).exts = s.exts := rfl
@[simp] theorem slotUpd_attrDue (s : State) (k : Nat) (g : SlotState → SlotState) : (slotUpd s k g).attrDue = s.attrDue := rfl
@[simp] theorem slotUpd_reserve (s : State) (k : Nat) (g : SlotState → SlotState) : (slotUpd s k g).reserve = s.reserve := rfl
@[simp] theorem slotUpd_sanReqs (s : State) (k : Nat) (g : SlotState → SlotState) : (slotUpd s k g).sanReqs = s.sanReqs := rfl
@[simp] theorem slotUpd_sanHalf (s : State) (k : Nat) (g : SlotState → SlotState) : (slotUpd s k g).sanHalf = s.sanHalf := rfl
@[simp] theorem slotUpd_fmLog (s : State) (k : Nat) (g : SlotState → SlotState) : (slotUpd s k g).fmLog = s.fmLog := rfl
@[simp] theorem slotUpd_dir (s : State) (k : Nat) (g : SlotState → SlotState) : (slotUpd s k g).dir = s.dir := rfl
@[simp] theorem slotUpd_trans (s : State) (k : Nat) (g : SlotState → SlotState) : (slotUpd s k g).trans = s.trans := rfl
@[simp] theorem slotUpd_lineq (s : State) (k : Nat) (g : SlotState → SlotState) : (slotUpd s k g).lineq = s.lineq := rfl
@[simp] theorem slotUpd_snaps (s : State) (k : Nat) (g : SlotState → SlotState) : (slotUpd s k g).snaps = s.snaps := rfl
@[simp] theorem slotUpd_snapCmds (s : State) (k : Nat) (g : SlotState → SlotState) : (slotUpd s k g).snapCmds = s.snapCmds := rfl
@[simp] theorem slotUpd_frames (s : State) (k : Nat) (g : SlotState → SlotState) : (slotUpd s k g).frames = s.frames := rfl
@[simp] theorem slotUpd_pinMarks (s : State) (k : Nat) (g : SlotState → SlotState) : (slotUpd s k g).pinMarks = s.pinMarks := rfl
@[simp] theorem slotUpd_lbaMap (s : State) (k : Nat) (g : SlotState → SlotState) : (slotUpd s k g).lbaMap = s.lbaMap := rfl
@[simp] theorem slotUpd_ssd (s : State) (k : Nat) (g : SlotState → SlotState) : (slotUpd s k g).ssd = s.ssd := rfl
@[simp] theorem slotUpd_locks (s : State) (k : Nat) (g : SlotState → SlotState) : (slotUpd s k g).locks = s.locks := rfl
@[simp] theorem slotUpd_ios (s : State) (k : Nat) (g : SlotState → SlotState) : (slotUpd s k g).ios = s.ios := rfl
@[simp] theorem slotUpd_nextIo (s : State) (k : Nat) (g : SlotState → SlotState) : (slotUpd s k g).nextIo = s.nextIo := rfl
@[simp] theorem slotUpd_rebuild (s : State) (k : Nat) (g : SlotState → SlotState) : (slotUpd s k g).rebuild = s.rebuild := rfl
@[simp] theorem slotUpd_tier (s : State) (k : Nat) (g : SlotState → SlotState) : (slotUpd s k g).tier = s.tier := rfl
@[simp] theorem slotUpd_draining (s : State) (k : Nat) (g : SlotState → SlotState) : (slotUpd s k g).draining = s.draining := rfl
@[simp] theorem slotUpd_hints (s : State) (k : Nat) (g : SlotState → SlotState) : (slotUpd s k g).hints = s.hints := rfl
@[simp] theorem slotUpd_index (s : State) (k : Nat) (g : SlotState → SlotState) : (slotUpd s k g).index = s.index := rfl
@[simp] theorem slotUpd_segs (s : State) (k : Nat) (g : SlotState → SlotState) : (slotUpd s k g).segs = s.segs := rfl
@[simp] theorem slotUpd_cache (s : State) (k : Nat) (g : SlotState → SlotState) : (slotUpd s k g).cache = s.cache := rfl
@[simp] theorem slotUpd_expPitch (s : State) (k : Nat) (g : SlotState → SlotState) : (slotUpd s k g).expPitch = s.expPitch := rfl
@[simp] theorem slotUpd_compactQ (s : State) (k : Nat) (g : SlotState → SlotState) : (slotUpd s k g).compactQ = s.compactQ := rfl
@[simp] theorem slotUpd_stale (s : State) (k : Nat) (g : SlotState → SlotState) : (slotUpd s k g).stale = s.stale := rfl
@[simp] theorem slotUpd_damaged (s : State) (k : Nat) (g : SlotState → SlotState) : (slotUpd s k g).damaged = s.damaged := rfl
@[simp] theorem slotUpd_rings (s : State) (k : Nat) (g : SlotState → SlotState) : (slotUpd s k g).rings = s.rings := rfl
@[simp] theorem slotUpd_ringMem (s : State) (k : Nat) (g : SlotState → SlotState) : (slotUpd s k g).ringMem = s.ringMem := rfl
@[simp] theorem slotUpd_jobs (s : State) (k : Nat) (g : SlotState → SlotState) : (slotUpd s k g).jobs = s.jobs := rfl
@[simp] theorem slotUpd_windows (s : State) (k : Nat) (g : SlotState → SlotState) : (slotUpd s k g).windows = s.windows := rfl
@[simp] theorem slotUpd_applied (s : State) (k : Nat) (g : SlotState → SlotState) : (slotUpd s k g).applied = s.applied := rfl
@[simp] theorem slotUpd_steps (s : State) (k : Nat) (g : SlotState → SlotState) : (slotUpd s k g).steps = s.steps := rfl
@[simp] theorem slotUpd_coreTrips (s : State) (k : Nat) (g : SlotState → SlotState) : (slotUpd s k g).coreTrips = s.coreTrips := rfl
@[simp] theorem slotUpd_coresOut (s : State) (k : Nat) (g : SlotState → SlotState) : (slotUpd s k g).coresOut = s.coresOut := rfl
@[simp] theorem slotUpd_qos (s : State) (k : Nat) (g : SlotState → SlotState) : (slotUpd s k g).qos = s.qos := rfl
@[simp] theorem slotUpd_pcs (s : State) (k : Nat) (g : SlotState → SlotState) : (slotUpd s k g).pcs = s.pcs := rfl
@[simp] theorem slotUpd_portDiesOut (s : State) (k : Nat) (g : SlotState → SlotState) : (slotUpd s k g).portDiesOut = s.portDiesOut := rfl
@[simp] theorem slotUpd_clustersOut (s : State) (k : Nat) (g : SlotState → SlotState) : (slotUpd s k g).clustersOut = s.clustersOut := rfl
@[simp] theorem slotUpd_resetting (s : State) (k : Nat) (g : SlotState → SlotState) : (slotUpd s k g).resetting = s.resetting := rfl
@[simp] theorem slotUpd_stores (s : State) (k : Nat) (g : SlotState → SlotState) : (slotUpd s k g).stores = s.stores := rfl
@[simp] theorem slotUpd_repaired (s : State) (k : Nat) (g : SlotState → SlotState) : (slotUpd s k g).repaired = s.repaired := rfl
@[simp] theorem slotUpd_ras (s : State) (k : Nat) (g : SlotState → SlotState) : (slotUpd s k g).ras = s.ras := rfl
@[simp] theorem slotUpd_cairn (s : State) (k : Nat) (g : SlotState → SlotState) : (slotUpd s k g).cairn = s.cairn := rfl
@[simp] theorem slotUpd_belay (s : State) (k : Nat) (g : SlotState → SlotState) : (slotUpd s k g).belay = s.belay := rfl
@[simp] theorem slotUpd_sessions (s : State) (k : Nat) (g : SlotState → SlotState) : (slotUpd s k g).sessions = s.sessions := rfl
@[simp] theorem slotUpd_pins (s : State) (k : Nat) (g : SlotState → SlotState) : (slotUpd s k g).pins = s.pins := rfl
@[simp] theorem ringUpd_pending (s : State) (p r : Nat) (g : RingState → RingState) : (ringUpd s p r g).pending = s.pending := rfl
@[simp] theorem ringUpd_out (s : State) (p r : Nat) (g : RingState → RingState) : (ringUpd s p r g).out = s.out := rfl
@[simp] theorem ringUpd_free (s : State) (p r : Nat) (g : RingState → RingState) : (ringUpd s p r g).free = s.free := rfl
@[simp] theorem ringUpd_regs (s : State) (p r : Nat) (g : RingState → RingState) : (ringUpd s p r g).regs = s.regs := rfl
@[simp] theorem ringUpd_lag (s : State) (p r : Nat) (g : RingState → RingState) : (ringUpd s p r g).lag = s.lag := rfl
@[simp] theorem ringUpd_hdr (s : State) (p r : Nat) (g : RingState → RingState) : (ringUpd s p r g).hdr = s.hdr := rfl
@[simp] theorem ringUpd_mem (s : State) (p r : Nat) (g : RingState → RingState) : (ringUpd s p r g).mem = s.mem := rfl
@[simp] theorem ringUpd_poison (s : State) (p r : Nat) (g : RingState → RingState) : (ringUpd s p r g).poison = s.poison := rfl
@[simp] theorem ringUpd_damage (s : State) (p r : Nat) (g : RingState → RingState) : (ringUpd s p r g).damage = s.damage := rfl
@[simp] theorem ringUpd_boot (s : State) (p r : Nat) (g : RingState → RingState) : (ringUpd s p r g).boot = s.boot := rfl
@[simp] theorem ringUpd_flash (s : State) (p r : Nat) (g : RingState → RingState) : (ringUpd s p r g).flash = s.flash := rfl
@[simp] theorem ringUpd_power (s : State) (p r : Nat) (g : RingState → RingState) : (ringUpd s p r g).power = s.power := rfl
@[simp] theorem ringUpd_tb (s : State) (p r : Nat) (g : RingState → RingState) : (ringUpd s p r g).tb = s.tb := rfl
@[simp] theorem ringUpd_heads (s : State) (p r : Nat) (g : RingState → RingState) : (ringUpd s p r g).heads = s.heads := rfl
@[simp] theorem ringUpd_cfgs (s : State) (p r : Nat) (g : RingState → RingState) : (ringUpd s p r g).cfgs = s.cfgs := rfl
@[simp] theorem ringUpd_hdms (s : State) (p r : Nat) (g : RingState → RingState) : (ringUpd s p r g).hdms = s.hdms := rfl
@[simp] theorem ringUpd_parts (s : State) (p r : Nat) (g : RingState → RingState) : (ringUpd s p r g).parts = s.parts := rfl
@[simp] theorem ringUpd_exts (s : State) (p r : Nat) (g : RingState → RingState) : (ringUpd s p r g).exts = s.exts := rfl
@[simp] theorem ringUpd_attrDue (s : State) (p r : Nat) (g : RingState → RingState) : (ringUpd s p r g).attrDue = s.attrDue := rfl
@[simp] theorem ringUpd_reserve (s : State) (p r : Nat) (g : RingState → RingState) : (ringUpd s p r g).reserve = s.reserve := rfl
@[simp] theorem ringUpd_sanReqs (s : State) (p r : Nat) (g : RingState → RingState) : (ringUpd s p r g).sanReqs = s.sanReqs := rfl
@[simp] theorem ringUpd_sanHalf (s : State) (p r : Nat) (g : RingState → RingState) : (ringUpd s p r g).sanHalf = s.sanHalf := rfl
@[simp] theorem ringUpd_fmLog (s : State) (p r : Nat) (g : RingState → RingState) : (ringUpd s p r g).fmLog = s.fmLog := rfl
@[simp] theorem ringUpd_dir (s : State) (p r : Nat) (g : RingState → RingState) : (ringUpd s p r g).dir = s.dir := rfl
@[simp] theorem ringUpd_trans (s : State) (p r : Nat) (g : RingState → RingState) : (ringUpd s p r g).trans = s.trans := rfl
@[simp] theorem ringUpd_lineq (s : State) (p r : Nat) (g : RingState → RingState) : (ringUpd s p r g).lineq = s.lineq := rfl
@[simp] theorem ringUpd_snaps (s : State) (p r : Nat) (g : RingState → RingState) : (ringUpd s p r g).snaps = s.snaps := rfl
@[simp] theorem ringUpd_snapCmds (s : State) (p r : Nat) (g : RingState → RingState) : (ringUpd s p r g).snapCmds = s.snapCmds := rfl
@[simp] theorem ringUpd_frames (s : State) (p r : Nat) (g : RingState → RingState) : (ringUpd s p r g).frames = s.frames := rfl
@[simp] theorem ringUpd_pinMarks (s : State) (p r : Nat) (g : RingState → RingState) : (ringUpd s p r g).pinMarks = s.pinMarks := rfl
@[simp] theorem ringUpd_lbaMap (s : State) (p r : Nat) (g : RingState → RingState) : (ringUpd s p r g).lbaMap = s.lbaMap := rfl
@[simp] theorem ringUpd_ssd (s : State) (p r : Nat) (g : RingState → RingState) : (ringUpd s p r g).ssd = s.ssd := rfl
@[simp] theorem ringUpd_locks (s : State) (p r : Nat) (g : RingState → RingState) : (ringUpd s p r g).locks = s.locks := rfl
@[simp] theorem ringUpd_ios (s : State) (p r : Nat) (g : RingState → RingState) : (ringUpd s p r g).ios = s.ios := rfl
@[simp] theorem ringUpd_nextIo (s : State) (p r : Nat) (g : RingState → RingState) : (ringUpd s p r g).nextIo = s.nextIo := rfl
@[simp] theorem ringUpd_slots (s : State) (p r : Nat) (g : RingState → RingState) : (ringUpd s p r g).slots = s.slots := rfl
@[simp] theorem ringUpd_rebuild (s : State) (p r : Nat) (g : RingState → RingState) : (ringUpd s p r g).rebuild = s.rebuild := rfl
@[simp] theorem ringUpd_tier (s : State) (p r : Nat) (g : RingState → RingState) : (ringUpd s p r g).tier = s.tier := rfl
@[simp] theorem ringUpd_draining (s : State) (p r : Nat) (g : RingState → RingState) : (ringUpd s p r g).draining = s.draining := rfl
@[simp] theorem ringUpd_hints (s : State) (p r : Nat) (g : RingState → RingState) : (ringUpd s p r g).hints = s.hints := rfl
@[simp] theorem ringUpd_index (s : State) (p r : Nat) (g : RingState → RingState) : (ringUpd s p r g).index = s.index := rfl
@[simp] theorem ringUpd_segs (s : State) (p r : Nat) (g : RingState → RingState) : (ringUpd s p r g).segs = s.segs := rfl
@[simp] theorem ringUpd_cache (s : State) (p r : Nat) (g : RingState → RingState) : (ringUpd s p r g).cache = s.cache := rfl
@[simp] theorem ringUpd_expPitch (s : State) (p r : Nat) (g : RingState → RingState) : (ringUpd s p r g).expPitch = s.expPitch := rfl
@[simp] theorem ringUpd_compactQ (s : State) (p r : Nat) (g : RingState → RingState) : (ringUpd s p r g).compactQ = s.compactQ := rfl
@[simp] theorem ringUpd_stale (s : State) (p r : Nat) (g : RingState → RingState) : (ringUpd s p r g).stale = s.stale := rfl
@[simp] theorem ringUpd_damaged (s : State) (p r : Nat) (g : RingState → RingState) : (ringUpd s p r g).damaged = s.damaged := rfl
@[simp] theorem ringUpd_ringMem (s : State) (p r : Nat) (g : RingState → RingState) : (ringUpd s p r g).ringMem = s.ringMem := rfl
@[simp] theorem ringUpd_jobs (s : State) (p r : Nat) (g : RingState → RingState) : (ringUpd s p r g).jobs = s.jobs := rfl
@[simp] theorem ringUpd_windows (s : State) (p r : Nat) (g : RingState → RingState) : (ringUpd s p r g).windows = s.windows := rfl
@[simp] theorem ringUpd_applied (s : State) (p r : Nat) (g : RingState → RingState) : (ringUpd s p r g).applied = s.applied := rfl
@[simp] theorem ringUpd_steps (s : State) (p r : Nat) (g : RingState → RingState) : (ringUpd s p r g).steps = s.steps := rfl
@[simp] theorem ringUpd_coreTrips (s : State) (p r : Nat) (g : RingState → RingState) : (ringUpd s p r g).coreTrips = s.coreTrips := rfl
@[simp] theorem ringUpd_coresOut (s : State) (p r : Nat) (g : RingState → RingState) : (ringUpd s p r g).coresOut = s.coresOut := rfl
@[simp] theorem ringUpd_qos (s : State) (p r : Nat) (g : RingState → RingState) : (ringUpd s p r g).qos = s.qos := rfl
@[simp] theorem ringUpd_pcs (s : State) (p r : Nat) (g : RingState → RingState) : (ringUpd s p r g).pcs = s.pcs := rfl
@[simp] theorem ringUpd_portDiesOut (s : State) (p r : Nat) (g : RingState → RingState) : (ringUpd s p r g).portDiesOut = s.portDiesOut := rfl
@[simp] theorem ringUpd_clustersOut (s : State) (p r : Nat) (g : RingState → RingState) : (ringUpd s p r g).clustersOut = s.clustersOut := rfl
@[simp] theorem ringUpd_resetting (s : State) (p r : Nat) (g : RingState → RingState) : (ringUpd s p r g).resetting = s.resetting := rfl
@[simp] theorem ringUpd_stores (s : State) (p r : Nat) (g : RingState → RingState) : (ringUpd s p r g).stores = s.stores := rfl
@[simp] theorem ringUpd_repaired (s : State) (p r : Nat) (g : RingState → RingState) : (ringUpd s p r g).repaired = s.repaired := rfl
@[simp] theorem ringUpd_ras (s : State) (p r : Nat) (g : RingState → RingState) : (ringUpd s p r g).ras = s.ras := rfl
@[simp] theorem ringUpd_cairn (s : State) (p r : Nat) (g : RingState → RingState) : (ringUpd s p r g).cairn = s.cairn := rfl
@[simp] theorem ringUpd_belay (s : State) (p r : Nat) (g : RingState → RingState) : (ringUpd s p r g).belay = s.belay := rfl
@[simp] theorem ringUpd_sessions (s : State) (p r : Nat) (g : RingState → RingState) : (ringUpd s p r g).sessions = s.sessions := rfl
@[simp] theorem ringUpd_pins (s : State) (p r : Nat) (g : RingState → RingState) : (ringUpd s p r g).pins = s.pins := rfl
@[simp] theorem touch_pending (s : State) : (touch s).pending = s.pending := rfl
@[simp] theorem touch_out (s : State) : (touch s).out = s.out := rfl
@[simp] theorem touch_free (s : State) : (touch s).free = s.free := rfl
@[simp] theorem touch_regs (s : State) : (touch s).regs = s.regs := rfl
@[simp] theorem touch_lag (s : State) : (touch s).lag = s.lag := rfl
@[simp] theorem touch_hdr (s : State) : (touch s).hdr = s.hdr := rfl
@[simp] theorem touch_mem (s : State) : (touch s).mem = s.mem := rfl
@[simp] theorem touch_poison (s : State) : (touch s).poison = s.poison := rfl
@[simp] theorem touch_damage (s : State) : (touch s).damage = s.damage := rfl
@[simp] theorem touch_boot (s : State) : (touch s).boot = s.boot := rfl
@[simp] theorem touch_flash (s : State) : (touch s).flash = s.flash := rfl
@[simp] theorem touch_tb (s : State) : (touch s).tb = s.tb := rfl
@[simp] theorem touch_heads (s : State) : (touch s).heads = s.heads := rfl
@[simp] theorem touch_cfgs (s : State) : (touch s).cfgs = s.cfgs := rfl
@[simp] theorem touch_hdms (s : State) : (touch s).hdms = s.hdms := rfl
@[simp] theorem touch_parts (s : State) : (touch s).parts = s.parts := rfl
@[simp] theorem touch_exts (s : State) : (touch s).exts = s.exts := rfl
@[simp] theorem touch_attrDue (s : State) : (touch s).attrDue = s.attrDue := rfl
@[simp] theorem touch_reserve (s : State) : (touch s).reserve = s.reserve := rfl
@[simp] theorem touch_sanReqs (s : State) : (touch s).sanReqs = s.sanReqs := rfl
@[simp] theorem touch_sanHalf (s : State) : (touch s).sanHalf = s.sanHalf := rfl
@[simp] theorem touch_fmLog (s : State) : (touch s).fmLog = s.fmLog := rfl
@[simp] theorem touch_dir (s : State) : (touch s).dir = s.dir := rfl
@[simp] theorem touch_trans (s : State) : (touch s).trans = s.trans := rfl
@[simp] theorem touch_lineq (s : State) : (touch s).lineq = s.lineq := rfl
@[simp] theorem touch_snaps (s : State) : (touch s).snaps = s.snaps := rfl
@[simp] theorem touch_snapCmds (s : State) : (touch s).snapCmds = s.snapCmds := rfl
@[simp] theorem touch_frames (s : State) : (touch s).frames = s.frames := rfl
@[simp] theorem touch_pinMarks (s : State) : (touch s).pinMarks = s.pinMarks := rfl
@[simp] theorem touch_lbaMap (s : State) : (touch s).lbaMap = s.lbaMap := rfl
@[simp] theorem touch_ssd (s : State) : (touch s).ssd = s.ssd := rfl
@[simp] theorem touch_locks (s : State) : (touch s).locks = s.locks := rfl
@[simp] theorem touch_ios (s : State) : (touch s).ios = s.ios := rfl
@[simp] theorem touch_nextIo (s : State) : (touch s).nextIo = s.nextIo := rfl
@[simp] theorem touch_slots (s : State) : (touch s).slots = s.slots := rfl
@[simp] theorem touch_rebuild (s : State) : (touch s).rebuild = s.rebuild := rfl
@[simp] theorem touch_tier (s : State) : (touch s).tier = s.tier := rfl
@[simp] theorem touch_draining (s : State) : (touch s).draining = s.draining := rfl
@[simp] theorem touch_hints (s : State) : (touch s).hints = s.hints := rfl
@[simp] theorem touch_index (s : State) : (touch s).index = s.index := rfl
@[simp] theorem touch_segs (s : State) : (touch s).segs = s.segs := rfl
@[simp] theorem touch_cache (s : State) : (touch s).cache = s.cache := rfl
@[simp] theorem touch_expPitch (s : State) : (touch s).expPitch = s.expPitch := rfl
@[simp] theorem touch_compactQ (s : State) : (touch s).compactQ = s.compactQ := rfl
@[simp] theorem touch_stale (s : State) : (touch s).stale = s.stale := rfl
@[simp] theorem touch_damaged (s : State) : (touch s).damaged = s.damaged := rfl
@[simp] theorem touch_rings (s : State) : (touch s).rings = s.rings := rfl
@[simp] theorem touch_ringMem (s : State) : (touch s).ringMem = s.ringMem := rfl
@[simp] theorem touch_jobs (s : State) : (touch s).jobs = s.jobs := rfl
@[simp] theorem touch_windows (s : State) : (touch s).windows = s.windows := rfl
@[simp] theorem touch_applied (s : State) : (touch s).applied = s.applied := rfl
@[simp] theorem touch_steps (s : State) : (touch s).steps = s.steps := rfl
@[simp] theorem touch_coreTrips (s : State) : (touch s).coreTrips = s.coreTrips := rfl
@[simp] theorem touch_coresOut (s : State) : (touch s).coresOut = s.coresOut := rfl
@[simp] theorem touch_qos (s : State) : (touch s).qos = s.qos := rfl
@[simp] theorem touch_pcs (s : State) : (touch s).pcs = s.pcs := rfl
@[simp] theorem touch_portDiesOut (s : State) : (touch s).portDiesOut = s.portDiesOut := rfl
@[simp] theorem touch_clustersOut (s : State) : (touch s).clustersOut = s.clustersOut := rfl
@[simp] theorem touch_resetting (s : State) : (touch s).resetting = s.resetting := rfl
@[simp] theorem touch_stores (s : State) : (touch s).stores = s.stores := rfl
@[simp] theorem touch_repaired (s : State) : (touch s).repaired = s.repaired := rfl
@[simp] theorem touch_ras (s : State) : (touch s).ras = s.ras := rfl
@[simp] theorem touch_cairn (s : State) : (touch s).cairn = s.cairn := rfl
@[simp] theorem touch_belay (s : State) : (touch s).belay = s.belay := rfl
@[simp] theorem touch_sessions (s : State) : (touch s).sessions = s.sessions := rfl
@[simp] theorem touch_pins (s : State) : (touch s).pins = s.pins := rfl
@[simp] theorem ioTouch_pending (s : State) (h : Nat) : (ioTouch s h).pending = s.pending := rfl
@[simp] theorem ioTouch_out (s : State) (h : Nat) : (ioTouch s h).out = s.out := rfl
@[simp] theorem ioTouch_free (s : State) (h : Nat) : (ioTouch s h).free = s.free := rfl
@[simp] theorem ioTouch_regs (s : State) (h : Nat) : (ioTouch s h).regs = s.regs := rfl
@[simp] theorem ioTouch_lag (s : State) (h : Nat) : (ioTouch s h).lag = s.lag := rfl
@[simp] theorem ioTouch_hdr (s : State) (h : Nat) : (ioTouch s h).hdr = s.hdr := rfl
@[simp] theorem ioTouch_mem (s : State) (h : Nat) : (ioTouch s h).mem = s.mem := rfl
@[simp] theorem ioTouch_poison (s : State) (h : Nat) : (ioTouch s h).poison = s.poison := rfl
@[simp] theorem ioTouch_damage (s : State) (h : Nat) : (ioTouch s h).damage = s.damage := rfl
@[simp] theorem ioTouch_boot (s : State) (h : Nat) : (ioTouch s h).boot = s.boot := rfl
@[simp] theorem ioTouch_flash (s : State) (h : Nat) : (ioTouch s h).flash = s.flash := rfl
@[simp] theorem ioTouch_tb (s : State) (h : Nat) : (ioTouch s h).tb = s.tb := rfl
@[simp] theorem ioTouch_cfgs (s : State) (h : Nat) : (ioTouch s h).cfgs = s.cfgs := rfl
@[simp] theorem ioTouch_hdms (s : State) (h : Nat) : (ioTouch s h).hdms = s.hdms := rfl
@[simp] theorem ioTouch_parts (s : State) (h : Nat) : (ioTouch s h).parts = s.parts := rfl
@[simp] theorem ioTouch_exts (s : State) (h : Nat) : (ioTouch s h).exts = s.exts := rfl
@[simp] theorem ioTouch_attrDue (s : State) (h : Nat) : (ioTouch s h).attrDue = s.attrDue := rfl
@[simp] theorem ioTouch_reserve (s : State) (h : Nat) : (ioTouch s h).reserve = s.reserve := rfl
@[simp] theorem ioTouch_sanReqs (s : State) (h : Nat) : (ioTouch s h).sanReqs = s.sanReqs := rfl
@[simp] theorem ioTouch_sanHalf (s : State) (h : Nat) : (ioTouch s h).sanHalf = s.sanHalf := rfl
@[simp] theorem ioTouch_fmLog (s : State) (h : Nat) : (ioTouch s h).fmLog = s.fmLog := rfl
@[simp] theorem ioTouch_dir (s : State) (h : Nat) : (ioTouch s h).dir = s.dir := rfl
@[simp] theorem ioTouch_trans (s : State) (h : Nat) : (ioTouch s h).trans = s.trans := rfl
@[simp] theorem ioTouch_lineq (s : State) (h : Nat) : (ioTouch s h).lineq = s.lineq := rfl
@[simp] theorem ioTouch_snaps (s : State) (h : Nat) : (ioTouch s h).snaps = s.snaps := rfl
@[simp] theorem ioTouch_snapCmds (s : State) (h : Nat) : (ioTouch s h).snapCmds = s.snapCmds := rfl
@[simp] theorem ioTouch_frames (s : State) (h : Nat) : (ioTouch s h).frames = s.frames := rfl
@[simp] theorem ioTouch_pinMarks (s : State) (h : Nat) : (ioTouch s h).pinMarks = s.pinMarks := rfl
@[simp] theorem ioTouch_lbaMap (s : State) (h : Nat) : (ioTouch s h).lbaMap = s.lbaMap := rfl
@[simp] theorem ioTouch_ssd (s : State) (h : Nat) : (ioTouch s h).ssd = s.ssd := rfl
@[simp] theorem ioTouch_locks (s : State) (h : Nat) : (ioTouch s h).locks = s.locks := rfl
@[simp] theorem ioTouch_ios (s : State) (h : Nat) : (ioTouch s h).ios = s.ios := rfl
@[simp] theorem ioTouch_nextIo (s : State) (h : Nat) : (ioTouch s h).nextIo = s.nextIo := rfl
@[simp] theorem ioTouch_slots (s : State) (h : Nat) : (ioTouch s h).slots = s.slots := rfl
@[simp] theorem ioTouch_rebuild (s : State) (h : Nat) : (ioTouch s h).rebuild = s.rebuild := rfl
@[simp] theorem ioTouch_tier (s : State) (h : Nat) : (ioTouch s h).tier = s.tier := rfl
@[simp] theorem ioTouch_draining (s : State) (h : Nat) : (ioTouch s h).draining = s.draining := rfl
@[simp] theorem ioTouch_hints (s : State) (h : Nat) : (ioTouch s h).hints = s.hints := rfl
@[simp] theorem ioTouch_index (s : State) (h : Nat) : (ioTouch s h).index = s.index := rfl
@[simp] theorem ioTouch_segs (s : State) (h : Nat) : (ioTouch s h).segs = s.segs := rfl
@[simp] theorem ioTouch_cache (s : State) (h : Nat) : (ioTouch s h).cache = s.cache := rfl
@[simp] theorem ioTouch_expPitch (s : State) (h : Nat) : (ioTouch s h).expPitch = s.expPitch := rfl
@[simp] theorem ioTouch_compactQ (s : State) (h : Nat) : (ioTouch s h).compactQ = s.compactQ := rfl
@[simp] theorem ioTouch_stale (s : State) (h : Nat) : (ioTouch s h).stale = s.stale := rfl
@[simp] theorem ioTouch_damaged (s : State) (h : Nat) : (ioTouch s h).damaged = s.damaged := rfl
@[simp] theorem ioTouch_rings (s : State) (h : Nat) : (ioTouch s h).rings = s.rings := rfl
@[simp] theorem ioTouch_ringMem (s : State) (h : Nat) : (ioTouch s h).ringMem = s.ringMem := rfl
@[simp] theorem ioTouch_jobs (s : State) (h : Nat) : (ioTouch s h).jobs = s.jobs := rfl
@[simp] theorem ioTouch_windows (s : State) (h : Nat) : (ioTouch s h).windows = s.windows := rfl
@[simp] theorem ioTouch_applied (s : State) (h : Nat) : (ioTouch s h).applied = s.applied := rfl
@[simp] theorem ioTouch_steps (s : State) (h : Nat) : (ioTouch s h).steps = s.steps := rfl
@[simp] theorem ioTouch_coreTrips (s : State) (h : Nat) : (ioTouch s h).coreTrips = s.coreTrips := rfl
@[simp] theorem ioTouch_coresOut (s : State) (h : Nat) : (ioTouch s h).coresOut = s.coresOut := rfl
@[simp] theorem ioTouch_qos (s : State) (h : Nat) : (ioTouch s h).qos = s.qos := rfl
@[simp] theorem ioTouch_pcs (s : State) (h : Nat) : (ioTouch s h).pcs = s.pcs := rfl
@[simp] theorem ioTouch_portDiesOut (s : State) (h : Nat) : (ioTouch s h).portDiesOut = s.portDiesOut := rfl
@[simp] theorem ioTouch_clustersOut (s : State) (h : Nat) : (ioTouch s h).clustersOut = s.clustersOut := rfl
@[simp] theorem ioTouch_resetting (s : State) (h : Nat) : (ioTouch s h).resetting = s.resetting := rfl
@[simp] theorem ioTouch_stores (s : State) (h : Nat) : (ioTouch s h).stores = s.stores := rfl
@[simp] theorem ioTouch_repaired (s : State) (h : Nat) : (ioTouch s h).repaired = s.repaired := rfl
@[simp] theorem ioTouch_ras (s : State) (h : Nat) : (ioTouch s h).ras = s.ras := rfl
@[simp] theorem ioTouch_cairn (s : State) (h : Nat) : (ioTouch s h).cairn = s.cairn := rfl
@[simp] theorem ioTouch_belay (s : State) (h : Nat) : (ioTouch s h).belay = s.belay := rfl
@[simp] theorem ioTouch_sessions (s : State) (h : Nat) : (ioTouch s h).sessions = s.sessions := rfl
@[simp] theorem ioTouch_pins (s : State) (h : Nat) : (ioTouch s h).pins = s.pins := rfl

@[simp] theorem emit_out (s : State) (m : Msg) : (emit s m).out = m :: s.out := rfl

/-! ### Accessors under updates -/

@[simp] theorem hget_fset (s : State) (f : Fld) (v i j : Nat) (c : Blk) (a : Nat) : hget (fset s f v i j) c a = hget s c a := rfl
@[simp] theorem headOf_fset (s : State) (f : Fld) (v i j : Nat) (a : Nat) : headOf (fset s f v i j) a = headOf s a := rfl
@[simp] theorem cfgOf_fset (s : State) (f : Fld) (v i j : Nat) (a : Nat) : cfgOf (fset s f v i j) a = cfgOf s a := rfl
@[simp] theorem partOf_fset (s : State) (f : Fld) (v i j : Nat) (a : Nat) : partOf (fset s f v i j) a = partOf s a := rfl
@[simp] theorem pcOf_fset (s : State) (f : Fld) (v i j : Nat) (a : Nat) : pcOf (fset s f v i j) a = pcOf s a := rfl
@[simp] theorem slotOf_fset (s : State) (f : Fld) (v i j : Nat) (a : Nat) : slotOf (fset s f v i j) a = slotOf s a := rfl
@[simp] theorem ringOf_fset (s : State) (f : Fld) (v i j : Nat) (k l : Nat) : ringOf (fset s f v i j) k l = ringOf s k l := rfl
@[simp] theorem hget_fsetLate (s : State) (f : Fld) (v i j : Nat) (c : Blk) (a : Nat) : hget (fsetLate s f v i j) c a = hget s c a := rfl
@[simp] theorem headOf_fsetLate (s : State) (f : Fld) (v i j : Nat) (a : Nat) : headOf (fsetLate s f v i j) a = headOf s a := rfl
@[simp] theorem cfgOf_fsetLate (s : State) (f : Fld) (v i j : Nat) (a : Nat) : cfgOf (fsetLate s f v i j) a = cfgOf s a := rfl
@[simp] theorem partOf_fsetLate (s : State) (f : Fld) (v i j : Nat) (a : Nat) : partOf (fsetLate s f v i j) a = partOf s a := rfl
@[simp] theorem pcOf_fsetLate (s : State) (f : Fld) (v i j : Nat) (a : Nat) : pcOf (fsetLate s f v i j) a = pcOf s a := rfl
@[simp] theorem slotOf_fsetLate (s : State) (f : Fld) (v i j : Nat) (a : Nat) : slotOf (fsetLate s f v i j) a = slotOf s a := rfl
@[simp] theorem ringOf_fsetLate (s : State) (f : Fld) (v i j : Nat) (k l : Nat) : ringOf (fsetLate s f v i j) k l = ringOf s k l := rfl
@[simp] theorem hget_fsetNow (s : State) (f : Fld) (v i j : Nat) (c : Blk) (a : Nat) : hget (fsetNow s f v i j) c a = hget s c a := rfl
@[simp] theorem headOf_fsetNow (s : State) (f : Fld) (v i j : Nat) (a : Nat) : headOf (fsetNow s f v i j) a = headOf s a := rfl
@[simp] theorem cfgOf_fsetNow (s : State) (f : Fld) (v i j : Nat) (a : Nat) : cfgOf (fsetNow s f v i j) a = cfgOf s a := rfl
@[simp] theorem partOf_fsetNow (s : State) (f : Fld) (v i j : Nat) (a : Nat) : partOf (fsetNow s f v i j) a = partOf s a := rfl
@[simp] theorem pcOf_fsetNow (s : State) (f : Fld) (v i j : Nat) (a : Nat) : pcOf (fsetNow s f v i j) a = pcOf s a := rfl
@[simp] theorem slotOf_fsetNow (s : State) (f : Fld) (v i j : Nat) (a : Nat) : slotOf (fsetNow s f v i j) a = slotOf s a := rfl
@[simp] theorem ringOf_fsetNow (s : State) (f : Fld) (v i j : Nat) (k l : Nat) : ringOf (fsetNow s f v i j) k l = ringOf s k l := rfl
@[simp] theorem fget_fcatch (s : State) (p : Fld → Bool) (q : Fld) (k l : Nat) : fget (fcatch s p) q k l = fget s q k l := rfl
@[simp] theorem hget_fcatch (s : State) (p : Fld → Bool) (c : Blk) (a : Nat) : hget (fcatch s p) c a = hget s c a := rfl
@[simp] theorem headOf_fcatch (s : State) (p : Fld → Bool) (a : Nat) : headOf (fcatch s p) a = headOf s a := rfl
@[simp] theorem cfgOf_fcatch (s : State) (p : Fld → Bool) (a : Nat) : cfgOf (fcatch s p) a = cfgOf s a := rfl
@[simp] theorem partOf_fcatch (s : State) (p : Fld → Bool) (a : Nat) : partOf (fcatch s p) a = partOf s a := rfl
@[simp] theorem pcOf_fcatch (s : State) (p : Fld → Bool) (a : Nat) : pcOf (fcatch s p) a = pcOf s a := rfl
@[simp] theorem slotOf_fcatch (s : State) (p : Fld → Bool) (a : Nat) : slotOf (fcatch s p) a = slotOf s a := rfl
@[simp] theorem ringOf_fcatch (s : State) (p : Fld → Bool) (k l : Nat) : ringOf (fcatch s p) k l = ringOf s k l := rfl
@[simp] theorem hget_fadd (s : State) (f : Fld) (n i j : Nat) (c : Blk) (a : Nat) : hget (fadd s f n i j) c a = hget s c a := rfl
@[simp] theorem headOf_fadd (s : State) (f : Fld) (n i j : Nat) (a : Nat) : headOf (fadd s f n i j) a = headOf s a := rfl
@[simp] theorem cfgOf_fadd (s : State) (f : Fld) (n i j : Nat) (a : Nat) : cfgOf (fadd s f n i j) a = cfgOf s a := rfl
@[simp] theorem partOf_fadd (s : State) (f : Fld) (n i j : Nat) (a : Nat) : partOf (fadd s f n i j) a = partOf s a := rfl
@[simp] theorem pcOf_fadd (s : State) (f : Fld) (n i j : Nat) (a : Nat) : pcOf (fadd s f n i j) a = pcOf s a := rfl
@[simp] theorem slotOf_fadd (s : State) (f : Fld) (n i j : Nat) (a : Nat) : slotOf (fadd s f n i j) a = slotOf s a := rfl
@[simp] theorem ringOf_fadd (s : State) (f : Fld) (n i j : Nat) (k l : Nat) : ringOf (fadd s f n i j) k l = ringOf s k l := rfl
@[simp] theorem hget_finc (s : State) (f : Fld) (i j : Nat) (c : Blk) (a : Nat) : hget (finc s f i j) c a = hget s c a := rfl
@[simp] theorem headOf_finc (s : State) (f : Fld) (i j : Nat) (a : Nat) : headOf (finc s f i j) a = headOf s a := rfl
@[simp] theorem cfgOf_finc (s : State) (f : Fld) (i j : Nat) (a : Nat) : cfgOf (finc s f i j) a = cfgOf s a := rfl
@[simp] theorem partOf_finc (s : State) (f : Fld) (i j : Nat) (a : Nat) : partOf (finc s f i j) a = partOf s a := rfl
@[simp] theorem pcOf_finc (s : State) (f : Fld) (i j : Nat) (a : Nat) : pcOf (finc s f i j) a = pcOf s a := rfl
@[simp] theorem slotOf_finc (s : State) (f : Fld) (i j : Nat) (a : Nat) : slotOf (finc s f i j) a = slotOf s a := rfl
@[simp] theorem ringOf_finc (s : State) (f : Fld) (i j : Nat) (k l : Nat) : ringOf (finc s f i j) k l = ringOf s k l := rfl
@[simp] theorem hget_fwrap (s : State) (f : Fld) (i j : Nat) (c : Blk) (a : Nat) : hget (fwrap s f i j) c a = hget s c a := rfl
@[simp] theorem headOf_fwrap (s : State) (f : Fld) (i j : Nat) (a : Nat) : headOf (fwrap s f i j) a = headOf s a := rfl
@[simp] theorem cfgOf_fwrap (s : State) (f : Fld) (i j : Nat) (a : Nat) : cfgOf (fwrap s f i j) a = cfgOf s a := rfl
@[simp] theorem partOf_fwrap (s : State) (f : Fld) (i j : Nat) (a : Nat) : partOf (fwrap s f i j) a = partOf s a := rfl
@[simp] theorem pcOf_fwrap (s : State) (f : Fld) (i j : Nat) (a : Nat) : pcOf (fwrap s f i j) a = pcOf s a := rfl
@[simp] theorem slotOf_fwrap (s : State) (f : Fld) (i j : Nat) (a : Nat) : slotOf (fwrap s f i j) a = slotOf s a := rfl
@[simp] theorem ringOf_fwrap (s : State) (f : Fld) (i j : Nat) (k l : Nat) : ringOf (fwrap s f i j) k l = ringOf s k l := rfl
@[simp] theorem hget_freset (s : State) (f : Fld) (i j : Nat) (c : Blk) (a : Nat) : hget (freset s f i j) c a = hget s c a := rfl
@[simp] theorem headOf_freset (s : State) (f : Fld) (i j : Nat) (a : Nat) : headOf (freset s f i j) a = headOf s a := rfl
@[simp] theorem cfgOf_freset (s : State) (f : Fld) (i j : Nat) (a : Nat) : cfgOf (freset s f i j) a = cfgOf s a := rfl
@[simp] theorem partOf_freset (s : State) (f : Fld) (i j : Nat) (a : Nat) : partOf (freset s f i j) a = partOf s a := rfl
@[simp] theorem pcOf_freset (s : State) (f : Fld) (i j : Nat) (a : Nat) : pcOf (freset s f i j) a = pcOf s a := rfl
@[simp] theorem slotOf_freset (s : State) (f : Fld) (i j : Nat) (a : Nat) : slotOf (freset s f i j) a = slotOf s a := rfl
@[simp] theorem ringOf_freset (s : State) (f : Fld) (i j : Nat) (k l : Nat) : ringOf (freset s f i j) k l = ringOf s k l := rfl
@[simp] theorem hget_fclear (s : State) (p : RegKey → Bool) (c : Blk) (a : Nat) : hget (fclear s p) c a = hget s c a := rfl
@[simp] theorem headOf_fclear (s : State) (p : RegKey → Bool) (a : Nat) : headOf (fclear s p) a = headOf s a := rfl
@[simp] theorem cfgOf_fclear (s : State) (p : RegKey → Bool) (a : Nat) : cfgOf (fclear s p) a = cfgOf s a := rfl
@[simp] theorem partOf_fclear (s : State) (p : RegKey → Bool) (a : Nat) : partOf (fclear s p) a = partOf s a := rfl
@[simp] theorem pcOf_fclear (s : State) (p : RegKey → Bool) (a : Nat) : pcOf (fclear s p) a = pcOf s a := rfl
@[simp] theorem slotOf_fclear (s : State) (p : RegKey → Bool) (a : Nat) : slotOf (fclear s p) a = slotOf s a := rfl
@[simp] theorem ringOf_fclear (s : State) (p : RegKey → Bool) (k l : Nat) : ringOf (fclear s p) k l = ringOf s k l := rfl
@[simp] theorem fget_hupd (s : State) (b : Blk) (i : Nat) (g : Hdr → Hdr) (q : Fld) (k l : Nat) : fget (hupd s b i g) q k l = fget s q k l := rfl
@[simp] theorem headOf_hupd (s : State) (b : Blk) (i : Nat) (g : Hdr → Hdr) (a : Nat) : headOf (hupd s b i g) a = headOf s a := rfl
@[simp] theorem cfgOf_hupd (s : State) (b : Blk) (i : Nat) (g : Hdr → Hdr) (a : Nat) : cfgOf (hupd s b i g) a = cfgOf s a := rfl
@[simp] theorem partOf_hupd (s : State) (b : Blk) (i : Nat) (g : Hdr → Hdr) (a : Nat) : partOf (hupd s b i g) a = partOf s a := rfl
@[simp] theorem pcOf_hupd (s : State) (b : Blk) (i : Nat) (g : Hdr → Hdr) (a : Nat) : pcOf (hupd s b i g) a = pcOf s a := rfl
@[simp] theorem slotOf_hupd (s : State) (b : Blk) (i : Nat) (g : Hdr → Hdr) (a : Nat) : slotOf (hupd s b i g) a = slotOf s a := rfl
@[simp] theorem ringOf_hupd (s : State) (b : Blk) (i : Nat) (g : Hdr → Hdr) (k l : Nat) : ringOf (hupd s b i g) k l = ringOf s k l := rfl
@[simp] theorem fget_emit (s : State) (m : Msg) (q : Fld) (k l : Nat) : fget (emit s m) q k l = fget s q k l := rfl
@[simp] theorem hget_emit (s : State) (m : Msg) (c : Blk) (a : Nat) : hget (emit s m) c a = hget s c a := rfl
@[simp] theorem headOf_emit (s : State) (m : Msg) (a : Nat) : headOf (emit s m) a = headOf s a := rfl
@[simp] theorem cfgOf_emit (s : State) (m : Msg) (a : Nat) : cfgOf (emit s m) a = cfgOf s a := rfl
@[simp] theorem partOf_emit (s : State) (m : Msg) (a : Nat) : partOf (emit s m) a = partOf s a := rfl
@[simp] theorem pcOf_emit (s : State) (m : Msg) (a : Nat) : pcOf (emit s m) a = pcOf s a := rfl
@[simp] theorem slotOf_emit (s : State) (m : Msg) (a : Nat) : slotOf (emit s m) a = slotOf s a := rfl
@[simp] theorem ringOf_emit (s : State) (m : Msg) (k l : Nat) : ringOf (emit s m) k l = ringOf s k l := rfl
@[simp] theorem fget_headUpd (s : State) (h : Nat) (g : HeadState → HeadState) (q : Fld) (k l : Nat) : fget (headUpd s h g) q k l = fget s q k l := rfl
@[simp] theorem hget_headUpd (s : State) (h : Nat) (g : HeadState → HeadState) (c : Blk) (a : Nat) : hget (headUpd s h g) c a = hget s c a := rfl
@[simp] theorem cfgOf_headUpd (s : State) (h : Nat) (g : HeadState → HeadState) (a : Nat) : cfgOf (headUpd s h g) a = cfgOf s a := rfl
@[simp] theorem partOf_headUpd (s : State) (h : Nat) (g : HeadState → HeadState) (a : Nat) : partOf (headUpd s h g) a = partOf s a := rfl
@[simp] theorem pcOf_headUpd (s : State) (h : Nat) (g : HeadState → HeadState) (a : Nat) : pcOf (headUpd s h g) a = pcOf s a := rfl
@[simp] theorem slotOf_headUpd (s : State) (h : Nat) (g : HeadState → HeadState) (a : Nat) : slotOf (headUpd s h g) a = slotOf s a := rfl
@[simp] theorem ringOf_headUpd (s : State) (h : Nat) (g : HeadState → HeadState) (k l : Nat) : ringOf (headUpd s h g) k l = ringOf s k l := rfl
@[simp] theorem fget_cfgUpd (s : State) (o : Nat) (g : PartCfg → PartCfg) (q : Fld) (k l : Nat) : fget (cfgUpd s o g) q k l = fget s q k l := rfl
@[simp] theorem hget_cfgUpd (s : State) (o : Nat) (g : PartCfg → PartCfg) (c : Blk) (a : Nat) : hget (cfgUpd s o g) c a = hget s c a := rfl
@[simp] theorem headOf_cfgUpd (s : State) (o : Nat) (g : PartCfg → PartCfg) (a : Nat) : headOf (cfgUpd s o g) a = headOf s a := rfl
@[simp] theorem partOf_cfgUpd (s : State) (o : Nat) (g : PartCfg → PartCfg) (a : Nat) : partOf (cfgUpd s o g) a = partOf s a := rfl
@[simp] theorem pcOf_cfgUpd (s : State) (o : Nat) (g : PartCfg → PartCfg) (a : Nat) : pcOf (cfgUpd s o g) a = pcOf s a := rfl
@[simp] theorem slotOf_cfgUpd (s : State) (o : Nat) (g : PartCfg → PartCfg) (a : Nat) : slotOf (cfgUpd s o g) a = slotOf s a := rfl
@[simp] theorem ringOf_cfgUpd (s : State) (o : Nat) (g : PartCfg → PartCfg) (k l : Nat) : ringOf (cfgUpd s o g) k l = ringOf s k l := rfl
@[simp] theorem fget_partUpd (s : State) (p : Nat) (g : PartState → PartState) (q : Fld) (k l : Nat) : fget (partUpd s p g) q k l = fget s q k l := rfl
@[simp] theorem hget_partUpd (s : State) (p : Nat) (g : PartState → PartState) (c : Blk) (a : Nat) : hget (partUpd s p g) c a = hget s c a := rfl
@[simp] theorem headOf_partUpd (s : State) (p : Nat) (g : PartState → PartState) (a : Nat) : headOf (partUpd s p g) a = headOf s a := rfl
@[simp] theorem cfgOf_partUpd (s : State) (p : Nat) (g : PartState → PartState) (a : Nat) : cfgOf (partUpd s p g) a = cfgOf s a := rfl
@[simp] theorem pcOf_partUpd (s : State) (p : Nat) (g : PartState → PartState) (a : Nat) : pcOf (partUpd s p g) a = pcOf s a := rfl
@[simp] theorem slotOf_partUpd (s : State) (p : Nat) (g : PartState → PartState) (a : Nat) : slotOf (partUpd s p g) a = slotOf s a := rfl
@[simp] theorem ringOf_partUpd (s : State) (p : Nat) (g : PartState → PartState) (k l : Nat) : ringOf (partUpd s p g) k l = ringOf s k l := rfl
@[simp] theorem fget_pcUpd (s : State) (pc : Nat) (g : PcState → PcState) (q : Fld) (k l : Nat) : fget (pcUpd s pc g) q k l = fget s q k l := rfl
@[simp] theorem hget_pcUpd (s : State) (pc : Nat) (g : PcState → PcState) (c : Blk) (a : Nat) : hget (pcUpd s pc g) c a = hget s c a := rfl
@[simp] theorem headOf_pcUpd (s : State) (pc : Nat) (g : PcState → PcState) (a : Nat) : headOf (pcUpd s pc g) a = headOf s a := rfl
@[simp] theorem cfgOf_pcUpd (s : State) (pc : Nat) (g : PcState → PcState) (a : Nat) : cfgOf (pcUpd s pc g) a = cfgOf s a := rfl
@[simp] theorem partOf_pcUpd (s : State) (pc : Nat) (g : PcState → PcState) (a : Nat) : partOf (pcUpd s pc g) a = partOf s a := rfl
@[simp] theorem slotOf_pcUpd (s : State) (pc : Nat) (g : PcState → PcState) (a : Nat) : slotOf (pcUpd s pc g) a = slotOf s a := rfl
@[simp] theorem ringOf_pcUpd (s : State) (pc : Nat) (g : PcState → PcState) (k l : Nat) : ringOf (pcUpd s pc g) k l = ringOf s k l := rfl
@[simp] theorem fget_slotUpd (s : State) (n : Nat) (g : SlotState → SlotState) (q : Fld) (k l : Nat) : fget (slotUpd s n g) q k l = fget s q k l := rfl
@[simp] theorem hget_slotUpd (s : State) (k : Nat) (g : SlotState → SlotState) (c : Blk) (a : Nat) : hget (slotUpd s k g) c a = hget s c a := rfl
@[simp] theorem headOf_slotUpd (s : State) (k : Nat) (g : SlotState → SlotState) (a : Nat) : headOf (slotUpd s k g) a = headOf s a := rfl
@[simp] theorem cfgOf_slotUpd (s : State) (k : Nat) (g : SlotState → SlotState) (a : Nat) : cfgOf (slotUpd s k g) a = cfgOf s a := rfl
@[simp] theorem partOf_slotUpd (s : State) (k : Nat) (g : SlotState → SlotState) (a : Nat) : partOf (slotUpd s k g) a = partOf s a := rfl
@[simp] theorem pcOf_slotUpd (s : State) (k : Nat) (g : SlotState → SlotState) (a : Nat) : pcOf (slotUpd s k g) a = pcOf s a := rfl
@[simp] theorem ringOf_slotUpd (s : State) (n : Nat) (g : SlotState → SlotState) (k l : Nat) : ringOf (slotUpd s n g) k l = ringOf s k l := rfl
@[simp] theorem fget_ringUpd (s : State) (p r : Nat) (g : RingState → RingState) (q : Fld) (k l : Nat) : fget (ringUpd s p r g) q k l = fget s q k l := rfl
@[simp] theorem hget_ringUpd (s : State) (p r : Nat) (g : RingState → RingState) (c : Blk) (a : Nat) : hget (ringUpd s p r g) c a = hget s c a := rfl
@[simp] theorem headOf_ringUpd (s : State) (p r : Nat) (g : RingState → RingState) (a : Nat) : headOf (ringUpd s p r g) a = headOf s a := rfl
@[simp] theorem cfgOf_ringUpd (s : State) (p r : Nat) (g : RingState → RingState) (a : Nat) : cfgOf (ringUpd s p r g) a = cfgOf s a := rfl
@[simp] theorem partOf_ringUpd (s : State) (p r : Nat) (g : RingState → RingState) (a : Nat) : partOf (ringUpd s p r g) a = partOf s a := rfl
@[simp] theorem pcOf_ringUpd (s : State) (p r : Nat) (g : RingState → RingState) (a : Nat) : pcOf (ringUpd s p r g) a = pcOf s a := rfl
@[simp] theorem slotOf_ringUpd (s : State) (p r : Nat) (g : RingState → RingState) (a : Nat) : slotOf (ringUpd s p r g) a = slotOf s a := rfl
@[simp] theorem fget_touch (s : State) (q : Fld) (k l : Nat) : fget (touch s) q k l = fget s q k l := rfl
@[simp] theorem hget_touch (s : State) (c : Blk) (a : Nat) : hget (touch s) c a = hget s c a := rfl
@[simp] theorem headOf_touch (s : State) (a : Nat) : headOf (touch s) a = headOf s a := rfl
@[simp] theorem cfgOf_touch (s : State) (a : Nat) : cfgOf (touch s) a = cfgOf s a := rfl
@[simp] theorem partOf_touch (s : State) (a : Nat) : partOf (touch s) a = partOf s a := rfl
@[simp] theorem pcOf_touch (s : State) (a : Nat) : pcOf (touch s) a = pcOf s a := rfl
@[simp] theorem slotOf_touch (s : State) (a : Nat) : slotOf (touch s) a = slotOf s a := rfl
@[simp] theorem ringOf_touch (s : State) (k l : Nat) : ringOf (touch s) k l = ringOf s k l := rfl
@[simp] theorem fget_ioTouch (s : State) (h : Nat) (q : Fld) (k l : Nat) : fget (ioTouch s h) q k l = fget s q k l := rfl
@[simp] theorem hget_ioTouch (s : State) (h : Nat) (c : Blk) (a : Nat) : hget (ioTouch s h) c a = hget s c a := rfl
@[simp] theorem cfgOf_ioTouch (s : State) (h : Nat) (a : Nat) : cfgOf (ioTouch s h) a = cfgOf s a := rfl
@[simp] theorem partOf_ioTouch (s : State) (h : Nat) (a : Nat) : partOf (ioTouch s h) a = partOf s a := rfl
@[simp] theorem pcOf_ioTouch (s : State) (h : Nat) (a : Nat) : pcOf (ioTouch s h) a = pcOf s a := rfl
@[simp] theorem slotOf_ioTouch (s : State) (h : Nat) (a : Nat) : slotOf (ioTouch s h) a = slotOf s a := rfl
@[simp] theorem ringOf_ioTouch (s : State) (h : Nat) (k l : Nat) : ringOf (ioTouch s h) k l = ringOf s k l := rfl

/-! ### What was written reads back -/

@[simp] theorem fget_fset_self (s : State) (f : Fld) (v i j : Nat) : fget (fset s f v i j) f i j = v % 2 ^ f.desc.w :=
  aget_aset_self _ _ _ _

@[simp] theorem fget_fset_fld (s : State) {f g : Fld} (v i j k l : Nat) (h : g ≠ f) :
    fget (fset s f v i j) g k l = fget s g k l :=
  aget_aset_ne _ _ _ fun c => h (congrArg RegKey.fld c)

theorem fget_fset_idx (s : State) {f g : Fld} (v : Nat) {i j k l : Nat} (h : k ≠ i ∨ l ≠ j) :
    fget (fset s f v i j) g k l = fget s g k l :=
  aget_aset_ne _ _ _ fun c => by cases c; simp at h

@[simp] theorem fget_fadd_fld (s : State) {f g : Fld} (v i j k l : Nat) (h : g ≠ f) :
    fget (fadd s f v i j) g k l = fget s g k l := fget_fset_fld _ _ _ _ _ _ h

@[simp] theorem fget_finc_fld (s : State) {f g : Fld} (i j k l : Nat) (h : g ≠ f) :
    fget (finc s f i j) g k l = fget s g k l := fget_fset_fld _ _ _ _ _ _ h

@[simp] theorem fget_fwrap_fld (s : State) {f g : Fld} (i j k l : Nat) (h : g ≠ f) :
    fget (fwrap s f i j) g k l = fget s g k l := fget_fset_fld _ _ _ _ _ _ h

@[simp] theorem fget_fsetLate_self (s : State) (f : Fld) (v i j : Nat) :
    fget (fsetLate s f v i j) f i j = v % 2 ^ f.desc.w := aget_aset_self _ _ _ _

@[simp] theorem fget_fsetLate_fld (s : State) {f g : Fld} (v i j k l : Nat) (h : g ≠ f) :
    fget (fsetLate s f v i j) g k l = fget s g k l := aget_aset_ne _ _ _ fun c => h (congrArg RegKey.fld c)

@[simp] theorem fget_fsetNow_self (s : State) (f : Fld) (v i j : Nat) :
    fget (fsetNow s f v i j) f i j = v % 2 ^ f.desc.w := aget_aset_self _ _ _ _

@[simp] theorem fget_fsetNow_fld (s : State) {f g : Fld} (v i j k l : Nat) (h : g ≠ f) :
    fget (fsetNow s f v i j) g k l = fget s g k l := aget_aset_ne _ _ _ fun c => h (congrArg RegKey.fld c)

/-- A value that waits for a boundary leaves the value in force. -/
@[simp] theorem fcur_fsetLate_self (s : State) (f : Fld) (v i j : Nat) : fcur (fsetLate s f v i j) f i j = fcur s f i j :=
  aget_aset_self _ _ _ _

@[simp] theorem fcur_fsetNow_self (s : State) (f : Fld) (v i j : Nat) :
    fcur (fsetNow s f v i j) f i j = v % 2 ^ f.desc.w := by
  have h : fcur (fsetNow s f v i j) f i j = aget (adel s.lag ⟨f, i, j⟩) ⟨f, i, j⟩ (fget (fsetNow s f v i j) f i j) := rfl
  rw [h, aget_adel_self, fget_fsetNow_self]

/-- A saturating increment. -/
@[simp] theorem fget_finc_self (s : State) (f : Fld) (i j : Nat) :
    fget (finc s f i j) f i j = min (fget s f i j + 1) (2 ^ f.desc.w - 1) := by
  have h : 0 < 2 ^ f.desc.w := Nat.pos_of_ne_zero (by simp)
  refine (fget_fset_self _ _ _ _ _).trans (Nat.mod_eq_of_lt ?_)
  omega

/-- A wrapping increment. -/
@[simp] theorem fget_fwrap_self (s : State) (f : Fld) (i j : Nat) :
    fget (fwrap s f i j) f i j = (fget s f i j + 1) % 2 ^ f.desc.w := fget_fset_self _ _ _ _ _

@[simp] theorem hget_hupd_self (s : State) (b : Blk) (i : Nat) (g : Hdr → Hdr) : hget (hupd s b i g) b i = g (hget s b i) :=
  aget_aset_self _ _ _ _

theorem hget_hupd_ne (s : State) {b c : Blk} {i k : Nat} (g : Hdr → Hdr) (h : c ≠ b ∨ k ≠ i) :
    hget (hupd s b i g) c k = hget s c k :=
  aget_aset_ne _ _ _ fun e => by cases e; simp at h

@[simp] theorem hget_hupd_blk (s : State) {b c : Blk} (i k : Nat) (g : Hdr → Hdr) (h : c ≠ b) :
    hget (hupd s b i g) c k = hget s c k := hget_hupd_ne s g (.inl h)

@[simp] theorem headOf_headUpd_self (s : State) (n : Nat) (g : HeadState → HeadState) : headOf (headUpd s n g) n = g (headOf s n) :=
  aget_aset_self _ _ _ _

theorem headOf_headUpd_ne (s : State) {n m : Nat} (g : HeadState → HeadState) (h : m ≠ n) : headOf (headUpd s n g) m = headOf s m :=
  aget_aset_ne _ _ _ h

@[simp] theorem cfgOf_cfgUpd_self (s : State) (n : Nat) (g : PartCfg → PartCfg) : cfgOf (cfgUpd s n g) n = g (cfgOf s n) :=
  aget_aset_self _ _ _ _

theorem cfgOf_cfgUpd_ne (s : State) {n m : Nat} (g : PartCfg → PartCfg) (h : m ≠ n) : cfgOf (cfgUpd s n g) m = cfgOf s m :=
  aget_aset_ne _ _ _ h

@[simp] theorem partOf_partUpd_self (s : State) (n : Nat) (g : PartState → PartState) : partOf (partUpd s n g) n = g (partOf s n) :=
  aget_aset_self _ _ _ _

theorem partOf_partUpd_ne (s : State) {n m : Nat} (g : PartState → PartState) (h : m ≠ n) : partOf (partUpd s n g) m = partOf s m :=
  aget_aset_ne _ _ _ h

@[simp] theorem pcOf_pcUpd_self (s : State) (n : Nat) (g : PcState → PcState) : pcOf (pcUpd s n g) n = g (pcOf s n) :=
  aget_aset_self _ _ _ _

theorem pcOf_pcUpd_ne (s : State) {n m : Nat} (g : PcState → PcState) (h : m ≠ n) : pcOf (pcUpd s n g) m = pcOf s m :=
  aget_aset_ne _ _ _ h

@[simp] theorem slotOf_slotUpd_self (s : State) (n : Nat) (g : SlotState → SlotState) : slotOf (slotUpd s n g) n = g (slotOf s n) :=
  aget_aset_self _ _ _ _

theorem slotOf_slotUpd_ne (s : State) {n m : Nat} (g : SlotState → SlotState) (h : m ≠ n) : slotOf (slotUpd s n g) m = slotOf s m :=
  aget_aset_ne _ _ _ h

@[simp] theorem ringOf_ringUpd_self (s : State) (p r : Nat) (g : RingState → RingState) :
    ringOf (ringUpd s p r g) p r = g (ringOf s p r) := aget_aset_self _ _ _ _

/-- A change through an accessor that a list of changes leaves. -/
theorem foldl_same {σ α β : Type} (q : σ → β) {f : σ → α → σ} (hf : ∀ s x, q (f s x) = q s) (l : List α) (s : σ) :
    q (l.foldl f s) = q s := by
  induction l generalizing s with
  | nil => rfl
  | cons x r ih => exact (ih (f s x)).trans (hf s x)

end Sys2Proof.Machine
end

