-- ==== Sys2Proof/Laws/Frames.lean ====
section
/-! SUPPORT. What an event, a record and a denied write touch (15 R325; 11 R258; 14 R309): page headers, the Cairn
staging slots with COALESCE_STATS.LATCHED, the MSI-X entries and the messages sent; nothing else. -/

set_option linter.all false

namespace Sys2Proof.Machine

open Sys2Proof

theorem signalVec_proj {α : Type} (q : State → α) (hc : ∀ s x, q { s with cfgs := x } = q s)
    (ho : ∀ s x, q { s with out := x } = q s) (s : State) (o vec : Nat) : q (signalVec s o vec) = q s := by
  unfold signalVec signalThrough
  dsimp only
  split
  · exact hc _ _
  · exact ho _ _

theorem stageRec_proj {α : Type} (q : State → α) (hk : ∀ s x, q { s with cairn := x } = q s)
    (hf : ∀ s n, q (fadd s .cairnCoalesceStatsLatched n) = q s) (s : State) (r : CRec) :
    q (stageRec s r).1 = q s := by
  unfold stageRec
  dsimp only
  split
  · exact (hf _ _).trans (hk _ _)
  · exact hk _ _

theorem eventBit_proj {α : Type} (q : State → α) (hh : ∀ s x, q { s with hdr := x } = q s)
    (hc : ∀ s x, q { s with cfgs := x } = q s) (ho : ∀ s x, q { s with out := x } = q s) (s : State) (b : Blk)
    (i bit : Nat) (stage : State → State × Bool) (hs : ∀ s, q (stage s).1 = q s) :
    q (eventBit s b i bit stage).1 = q s := by
  unfold eventBit
  dsimp only
  split
  · exact (signalVec_proj q hc ho _ _ _).trans ((hs _).trans (hh _ _))
  · exact (hs _).trans (hh _ _)

theorem noteOverflow_proj {α : Type} (q : State → α) (hh : ∀ s x, q { s with hdr := x } = q s)
    (hc : ∀ s x, q { s with cfgs := x } = q s) (ho : ∀ s x, q { s with out := x } = q s)
    (hk : ∀ s x, q { s with cairn := x } = q s) (hf : ∀ s n, q (fadd s .cairnCoalesceStatsLatched n) = q s)
    (x : State × Bool) : q (noteOverflow x) = q x.1 := by
  unfold noteOverflow
  split
  · refine eventBit_proj q hh hc ho _ _ _ _ _ fun s => ?_
    split
    · exact stageRec_proj q hk hf _ _
    · rfl
  · rfl

/-- An event leaves whatever does not read headers, MSI-X entries, messages, the staging slots or their counter. -/
theorem raise_proj {α : Type} (q : State → α) (hh : ∀ s x, q { s with hdr := x } = q s)
    (hc : ∀ s x, q { s with cfgs := x } = q s) (ho : ∀ s x, q { s with out := x } = q s)
    (hk : ∀ s x, q { s with cairn := x } = q s) (hf : ∀ s n, q (fadd s .cairnCoalesceStatsLatched n) = q s)
    (s : State) (e : Evt) (i : Nat) (part : Option Nat) (pl : List Byte) (src : Option Nat) (sev : Option Sev) :
    q (raise s e i part pl src sev) = q s := by
  unfold raise
  dsimp only
  refine (noteOverflow_proj q hh hc ho hk hf _).trans (eventBit_proj q hh hc ho _ _ _ _ _ fun s => ?_)
  split
  · exact stageRec_proj q hk hf _ _
  · rfl

theorem record_proj {α : Type} (q : State → α) (hh : ∀ s x, q { s with hdr := x } = q s)
    (hc : ∀ s x, q { s with cfgs := x } = q s) (ho : ∀ s x, q { s with out := x } = q s)
    (hk : ∀ s x, q { s with cairn := x } = q s) (hf : ∀ s n, q (fadd s .cairnCoalesceStatsLatched n) = q s)
    (s : State) (r : Rec) (src : Nat) (part : Option Nat) (pl : List Byte) :
    q (record s r src part pl) = q s := by
  unfold record
  dsimp only
  split
  · exact (noteOverflow_proj q hh hc ho hk hf _).trans (stageRec_proj q hk hf _ _)
  · rfl

theorem deny_proj {α : Type} (q : State → α) (hh : ∀ s x, q { s with hdr := x } = q s)
    (hc : ∀ s x, q { s with cfgs := x } = q s) (ho : ∀ s x, q { s with out := x } = q s)
    (hk : ∀ s x, q { s with cairn := x } = q s) (hf : ∀ s n, q (fadd s .cairnCoalesceStatsLatched n) = q s)
    (hd : ∀ s, q (finc s .roleDeniedWrites) = q s) (s : State) (v : View) : q (deny s v) = q s := by
  unfold deny
  exact (raise_proj q hh hc ho hk hf _ _ _ _ _ _ _).trans (hd _)

theorem aerLog_proj {α : Type} (q : State → α) (hc : ∀ s x, q { s with cfgs := x } = q s)
    (ho : ∀ s x, q { s with out := x } = q s) (s : State) (o : Nat) (h : Head) (e : AerErr) :
    q (aerLog s o h e) = q s := by
  unfold aerLog
  dsimp only
  split
  · exact (ho _ _).trans ((ho _ _).trans (hc _ _))
  · exact (ho _ _).trans (hc _ _)

@[simp] theorem signalVec_pending (s : State) (o vec : Nat) :
    (signalVec s o vec).pending = s.pending := signalVec_proj (·.pending) (fun _ _ => rfl) (fun _ _ => rfl) _ _ _
@[simp] theorem signalVec_free (s : State) (o vec : Nat) :
    (signalVec s o vec).free = s.free := signalVec_proj (·.free) (fun _ _ => rfl) (fun _ _ => rfl) _ _ _
@[simp] theorem signalVec_regs (s : State) (o vec : Nat) :
    (signalVec s o vec).regs = s.regs := signalVec_proj (·.regs) (fun _ _ => rfl) (fun _ _ => rfl) _ _ _
@[simp] theorem signalVec_lag (s : State) (o vec : Nat) :
    (signalVec s o vec).lag = s.lag := signalVec_proj (·.lag) (fun _ _ => rfl) (fun _ _ => rfl) _ _ _
@[simp] theorem signalVec_hdr (s : State) (o vec : Nat) :
    (signalVec s o vec).hdr = s.hdr := signalVec_proj (·.hdr) (fun _ _ => rfl) (fun _ _ => rfl) _ _ _
@[simp] theorem signalVec_mem (s : State) (o vec : Nat) :
    (signalVec s o vec).mem = s.mem := signalVec_proj (·.mem) (fun _ _ => rfl) (fun _ _ => rfl) _ _ _
@[simp] theorem signalVec_poison (s : State) (o vec : Nat) :
    (signalVec s o vec).poison = s.poison := signalVec_proj (·.poison) (fun _ _ => rfl) (fun _ _ => rfl) _ _ _
@[simp] theorem signalVec_damage (s : State) (o vec : Nat) :
    (signalVec s o vec).damage = s.damage := signalVec_proj (·.damage) (fun _ _ => rfl) (fun _ _ => rfl) _ _ _
@[simp] theorem signalVec_boot (s : State) (o vec : Nat) :
    (signalVec s o vec).boot = s.boot := signalVec_proj (·.boot) (fun _ _ => rfl) (fun _ _ => rfl) _ _ _
@[simp] theorem signalVec_flash (s : State) (o vec : Nat) :
    (signalVec s o vec).flash = s.flash := signalVec_proj (·.flash) (fun _ _ => rfl) (fun _ _ => rfl) _ _ _
@[simp] theorem signalVec_power (s : State) (o vec : Nat) :
    (signalVec s o vec).power = s.power := signalVec_proj (·.power) (fun _ _ => rfl) (fun _ _ => rfl) _ _ _
@[simp] theorem signalVec_tb (s : State) (o vec : Nat) :
    (signalVec s o vec).tb = s.tb := signalVec_proj (·.tb) (fun _ _ => rfl) (fun _ _ => rfl) _ _ _
@[simp] theorem signalVec_heads (s : State) (o vec : Nat) :
    (signalVec s o vec).heads = s.heads := signalVec_proj (·.heads) (fun _ _ => rfl) (fun _ _ => rfl) _ _ _
@[simp] theorem signalVec_hdms (s : State) (o vec : Nat) :
    (signalVec s o vec).hdms = s.hdms := signalVec_proj (·.hdms) (fun _ _ => rfl) (fun _ _ => rfl) _ _ _
@[simp] theorem signalVec_parts (s : State) (o vec : Nat) :
    (signalVec s o vec).parts = s.parts := signalVec_proj (·.parts) (fun _ _ => rfl) (fun _ _ => rfl) _ _ _
@[simp] theorem signalVec_exts (s : State) (o vec : Nat) :
    (signalVec s o vec).exts = s.exts := signalVec_proj (·.exts) (fun _ _ => rfl) (fun _ _ => rfl) _ _ _
@[simp] theorem signalVec_attrDue (s : State) (o vec : Nat) :
    (signalVec s o vec).attrDue = s.attrDue := signalVec_proj (·.attrDue) (fun _ _ => rfl) (fun _ _ => rfl) _ _ _
@[simp] theorem signalVec_reserve (s : State) (o vec : Nat) :
    (signalVec s o vec).reserve = s.reserve := signalVec_proj (·.reserve) (fun _ _ => rfl) (fun _ _ => rfl) _ _ _
@[simp] theorem signalVec_sanReqs (s : State) (o vec : Nat) :
    (signalVec s o vec).sanReqs = s.sanReqs := signalVec_proj (·.sanReqs) (fun _ _ => rfl) (fun _ _ => rfl) _ _ _
@[simp] theorem signalVec_sanHalf (s : State) (o vec : Nat) :
    (signalVec s o vec).sanHalf = s.sanHalf := signalVec_proj (·.sanHalf) (fun _ _ => rfl) (fun _ _ => rfl) _ _ _
@[simp] theorem signalVec_fmLog (s : State) (o vec : Nat) :
    (signalVec s o vec).fmLog = s.fmLog := signalVec_proj (·.fmLog) (fun _ _ => rfl) (fun _ _ => rfl) _ _ _
@[simp] theorem signalVec_dir (s : State) (o vec : Nat) :
    (signalVec s o vec).dir = s.dir := signalVec_proj (·.dir) (fun _ _ => rfl) (fun _ _ => rfl) _ _ _
@[simp] theorem signalVec_trans (s : State) (o vec : Nat) :
    (signalVec s o vec).trans = s.trans := signalVec_proj (·.trans) (fun _ _ => rfl) (fun _ _ => rfl) _ _ _
@[simp] theorem signalVec_lineq (s : State) (o vec : Nat) :
    (signalVec s o vec).lineq = s.lineq := signalVec_proj (·.lineq) (fun _ _ => rfl) (fun _ _ => rfl) _ _ _
@[simp] theorem signalVec_snaps (s : State) (o vec : Nat) :
    (signalVec s o vec).snaps = s.snaps := signalVec_proj (·.snaps) (fun _ _ => rfl) (fun _ _ => rfl) _ _ _
@[simp] theorem signalVec_snapCmds (s : State) (o vec : Nat) :
    (signalVec s o vec).snapCmds = s.snapCmds := signalVec_proj (·.snapCmds) (fun _ _ => rfl) (fun _ _ => rfl) _ _ _
@[simp] theorem signalVec_frames (s : State) (o vec : Nat) :
    (signalVec s o vec).frames = s.frames := signalVec_proj (·.frames) (fun _ _ => rfl) (fun _ _ => rfl) _ _ _
@[simp] theorem signalVec_pinMarks (s : State) (o vec : Nat) :
    (signalVec s o vec).pinMarks = s.pinMarks := signalVec_proj (·.pinMarks) (fun _ _ => rfl) (fun _ _ => rfl) _ _ _
@[simp] theorem signalVec_lbaMap (s : State) (o vec : Nat) :
    (signalVec s o vec).lbaMap = s.lbaMap := signalVec_proj (·.lbaMap) (fun _ _ => rfl) (fun _ _ => rfl) _ _ _
@[simp] theorem signalVec_ssd (s : State) (o vec : Nat) :
    (signalVec s o vec).ssd = s.ssd := signalVec_proj (·.ssd) (fun _ _ => rfl) (fun _ _ => rfl) _ _ _
@[simp] theorem signalVec_locks (s : State) (o vec : Nat) :
    (signalVec s o vec).locks = s.locks := signalVec_proj (·.locks) (fun _ _ => rfl) (fun _ _ => rfl) _ _ _
@[simp] theorem signalVec_ios (s : State) (o vec : Nat) :
    (signalVec s o vec).ios = s.ios := signalVec_proj (·.ios) (fun _ _ => rfl) (fun _ _ => rfl) _ _ _
@[simp] theorem signalVec_nextIo (s : State) (o vec : Nat) :
    (signalVec s o vec).nextIo = s.nextIo := signalVec_proj (·.nextIo) (fun _ _ => rfl) (fun _ _ => rfl) _ _ _
@[simp] theorem signalVec_slots (s : State) (o vec : Nat) :
    (signalVec s o vec).slots = s.slots := signalVec_proj (·.slots) (fun _ _ => rfl) (fun _ _ => rfl) _ _ _
@[simp] theorem signalVec_rebuild (s : State) (o vec : Nat) :
    (signalVec s o vec).rebuild = s.rebuild := signalVec_proj (·.rebuild) (fun _ _ => rfl) (fun _ _ => rfl) _ _ _
@[simp] theorem signalVec_tier (s : State) (o vec : Nat) :
    (signalVec s o vec).tier = s.tier := signalVec_proj (·.tier) (fun _ _ => rfl) (fun _ _ => rfl) _ _ _
@[simp] theorem signalVec_draining (s : State) (o vec : Nat) :
    (signalVec s o vec).draining = s.draining := signalVec_proj (·.draining) (fun _ _ => rfl) (fun _ _ => rfl) _ _ _
@[simp] theorem signalVec_hints (s : State) (o vec : Nat) :
    (signalVec s o vec).hints = s.hints := signalVec_proj (·.hints) (fun _ _ => rfl) (fun _ _ => rfl) _ _ _
@[simp] theorem signalVec_index (s : State) (o vec : Nat) :
    (signalVec s o vec).index = s.index := signalVec_proj (·.index) (fun _ _ => rfl) (fun _ _ => rfl) _ _ _
@[simp] theorem signalVec_segs (s : State) (o vec : Nat) :
    (signalVec s o vec).segs = s.segs := signalVec_proj (·.segs) (fun _ _ => rfl) (fun _ _ => rfl) _ _ _
@[simp] theorem signalVec_cache (s : State) (o vec : Nat) :
    (signalVec s o vec).cache = s.cache := signalVec_proj (·.cache) (fun _ _ => rfl) (fun _ _ => rfl) _ _ _
@[simp] theorem signalVec_expPitch (s : State) (o vec : Nat) :
    (signalVec s o vec).expPitch = s.expPitch := signalVec_proj (·.expPitch) (fun _ _ => rfl) (fun _ _ => rfl) _ _ _
@[simp] theorem signalVec_compactQ (s : State) (o vec : Nat) :
    (signalVec s o vec).compactQ = s.compactQ := signalVec_proj (·.compactQ) (fun _ _ => rfl) (fun _ _ => rfl) _ _ _
@[simp] theorem signalVec_stale (s : State) (o vec : Nat) :
    (signalVec s o vec).stale = s.stale := signalVec_proj (·.stale) (fun _ _ => rfl) (fun _ _ => rfl) _ _ _
@[simp] theorem signalVec_damaged (s : State) (o vec : Nat) :
    (signalVec s o vec).damaged = s.damaged := signalVec_proj (·.damaged) (fun _ _ => rfl) (fun _ _ => rfl) _ _ _
@[simp] theorem signalVec_rings (s : State) (o vec : Nat) :
    (signalVec s o vec).rings = s.rings := signalVec_proj (·.rings) (fun _ _ => rfl) (fun _ _ => rfl) _ _ _
@[simp] theorem signalVec_ringMem (s : State) (o vec : Nat) :
    (signalVec s o vec).ringMem = s.ringMem := signalVec_proj (·.ringMem) (fun _ _ => rfl) (fun _ _ => rfl) _ _ _
@[simp] theorem signalVec_jobs (s : State) (o vec : Nat) :
    (signalVec s o vec).jobs = s.jobs := signalVec_proj (·.jobs) (fun _ _ => rfl) (fun _ _ => rfl) _ _ _
@[simp] theorem signalVec_windows (s : State) (o vec : Nat) :
    (signalVec s o vec).windows = s.windows := signalVec_proj (·.windows) (fun _ _ => rfl) (fun _ _ => rfl) _ _ _
@[simp] theorem signalVec_applied (s : State) (o vec : Nat) :
    (signalVec s o vec).applied = s.applied := signalVec_proj (·.applied) (fun _ _ => rfl) (fun _ _ => rfl) _ _ _
@[simp] theorem signalVec_steps (s : State) (o vec : Nat) :
    (signalVec s o vec).steps = s.steps := signalVec_proj (·.steps) (fun _ _ => rfl) (fun _ _ => rfl) _ _ _
@[simp] theorem signalVec_coreTrips (s : State) (o vec : Nat) :
    (signalVec s o vec).coreTrips = s.coreTrips := signalVec_proj (·.coreTrips) (fun _ _ => rfl) (fun _ _ => rfl) _ _ _
@[simp] theorem signalVec_coresOut (s : State) (o vec : Nat) :
    (signalVec s o vec).coresOut = s.coresOut := signalVec_proj (·.coresOut) (fun _ _ => rfl) (fun _ _ => rfl) _ _ _
@[simp] theorem signalVec_qos (s : State) (o vec : Nat) :
    (signalVec s o vec).qos = s.qos := signalVec_proj (·.qos) (fun _ _ => rfl) (fun _ _ => rfl) _ _ _
@[simp] theorem signalVec_pcs (s : State) (o vec : Nat) :
    (signalVec s o vec).pcs = s.pcs := signalVec_proj (·.pcs) (fun _ _ => rfl) (fun _ _ => rfl) _ _ _
@[simp] theorem signalVec_portDiesOut (s : State) (o vec : Nat) :
    (signalVec s o vec).portDiesOut = s.portDiesOut := signalVec_proj (·.portDiesOut) (fun _ _ => rfl) (fun _ _ => rfl) _ _ _
@[simp] theorem signalVec_clustersOut (s : State) (o vec : Nat) :
    (signalVec s o vec).clustersOut = s.clustersOut := signalVec_proj (·.clustersOut) (fun _ _ => rfl) (fun _ _ => rfl) _ _ _
@[simp] theorem signalVec_resetting (s : State) (o vec : Nat) :
    (signalVec s o vec).resetting = s.resetting := signalVec_proj (·.resetting) (fun _ _ => rfl) (fun _ _ => rfl) _ _ _
@[simp] theorem signalVec_stores (s : State) (o vec : Nat) :
    (signalVec s o vec).stores = s.stores := signalVec_proj (·.stores) (fun _ _ => rfl) (fun _ _ => rfl) _ _ _
@[simp] theorem signalVec_repaired (s : State) (o vec : Nat) :
    (signalVec s o vec).repaired = s.repaired := signalVec_proj (·.repaired) (fun _ _ => rfl) (fun _ _ => rfl) _ _ _
@[simp] theorem signalVec_ras (s : State) (o vec : Nat) :
    (signalVec s o vec).ras = s.ras := signalVec_proj (·.ras) (fun _ _ => rfl) (fun _ _ => rfl) _ _ _
@[simp] theorem signalVec_cairn (s : State) (o vec : Nat) :
    (signalVec s o vec).cairn = s.cairn := signalVec_proj (·.cairn) (fun _ _ => rfl) (fun _ _ => rfl) _ _ _
@[simp] theorem signalVec_belay (s : State) (o vec : Nat) :
    (signalVec s o vec).belay = s.belay := signalVec_proj (·.belay) (fun _ _ => rfl) (fun _ _ => rfl) _ _ _
@[simp] theorem signalVec_sessions (s : State) (o vec : Nat) :
    (signalVec s o vec).sessions = s.sessions := signalVec_proj (·.sessions) (fun _ _ => rfl) (fun _ _ => rfl) _ _ _
@[simp] theorem signalVec_pins (s : State) (o vec : Nat) :
    (signalVec s o vec).pins = s.pins := signalVec_proj (·.pins) (fun _ _ => rfl) (fun _ _ => rfl) _ _ _
@[simp] theorem headOf_signalVec (s : State) (o vec : Nat) (a : Nat) :
    headOf (signalVec s o vec) a = headOf s a := signalVec_proj (fun u => headOf u a) (fun _ _ => rfl) (fun _ _ => rfl) _ _ _
@[simp] theorem partOf_signalVec (s : State) (o vec : Nat) (a : Nat) :
    partOf (signalVec s o vec) a = partOf s a := signalVec_proj (fun u => partOf u a) (fun _ _ => rfl) (fun _ _ => rfl) _ _ _
@[simp] theorem pcOf_signalVec (s : State) (o vec : Nat) (a : Nat) :
    pcOf (signalVec s o vec) a = pcOf s a := signalVec_proj (fun u => pcOf u a) (fun _ _ => rfl) (fun _ _ => rfl) _ _ _
@[simp] theorem slotOf_signalVec (s : State) (o vec : Nat) (a : Nat) :
    slotOf (signalVec s o vec) a = slotOf s a := signalVec_proj (fun u => slotOf u a) (fun _ _ => rfl) (fun _ _ => rfl) _ _ _
@[simp] theorem hget_signalVec (s : State) (o vec : Nat) (c : Blk) (a : Nat) :
    hget (signalVec s o vec) c a = hget s c a := signalVec_proj (fun u => hget u c a) (fun _ _ => rfl) (fun _ _ => rfl) _ _ _
@[simp] theorem fget_signalVec (s : State) (o vec : Nat) (q : Fld) (k l : Nat) :
    fget (signalVec s o vec) q k l = fget s q k l := signalVec_proj (fun u => fget u q k l) (fun _ _ => rfl) (fun _ _ => rfl) _ _ _
@[simp] theorem raise_pending (s : State) (e : Evt) (i : Nat) (part : Option Nat) (pl : List Byte) (src : Option Nat) (sev : Option Sev) :
    (raise s e i part pl src sev).pending = s.pending := raise_proj (·.pending) (fun _ _ => rfl) (fun _ _ => rfl) (fun _ _ => rfl) (fun _ _ => rfl)
    (fun _ _ => rfl) _ _ _ _ _ _ _
@[simp] theorem raise_free (s : State) (e : Evt) (i : Nat) (part : Option Nat) (pl : List Byte) (src : Option Nat) (sev : Option Sev) :
    (raise s e i part pl src sev).free = s.free := raise_proj (·.free) (fun _ _ => rfl) (fun _ _ => rfl) (fun _ _ => rfl) (fun _ _ => rfl)
    (fun _ _ => rfl) _ _ _ _ _ _ _
@[simp] theorem raise_lag (s : State) (e : Evt) (i : Nat) (part : Option Nat) (pl : List Byte) (src : Option Nat) (sev : Option Sev) :
    (raise s e i part pl src sev).lag = s.lag := raise_proj (·.lag) (fun _ _ => rfl) (fun _ _ => rfl) (fun _ _ => rfl) (fun _ _ => rfl)
    (fun _ _ => rfl) _ _ _ _ _ _ _
@[simp] theorem raise_mem (s : State) (e : Evt) (i : Nat) (part : Option Nat) (pl : List Byte) (src : Option Nat) (sev : Option Sev) :
    (raise s e i part pl src sev).mem = s.mem := raise_proj (·.mem) (fun _ _ => rfl) (fun _ _ => rfl) (fun _ _ => rfl) (fun _ _ => rfl)
    (fun _ _ => rfl) _ _ _ _ _ _ _
@[simp] theorem raise_poison (s : State) (e : Evt) (i : Nat) (part : Option Nat) (pl : List Byte) (src : Option Nat) (sev : Option Sev) :
    (raise s e i part pl src sev).poison = s.poison := raise_proj (·.poison) (fun _ _ => rfl) (fun _ _ => rfl) (fun _ _ => rfl) (fun _ _ => rfl)
    (fun _ _ => rfl) _ _ _ _ _ _ _
@[simp] theorem raise_damage (s : State) (e : Evt) (i : Nat) (part : Option Nat) (pl : List Byte) (src : Option Nat) (sev : Option Sev) :
    (raise s e i part pl src sev).damage = s.damage := raise_proj (·.damage) (fun _ _ => rfl) (fun _ _ => rfl) (fun _ _ => rfl) (fun _ _ => rfl)
    (fun _ _ => rfl) _ _ _ _ _ _ _
@[simp] theorem raise_boot (s : State) (e : Evt) (i : Nat) (part : Option Nat) (pl : List Byte) (src : Option Nat) (sev : Option Sev) :
    (raise s e i part pl src sev).boot = s.boot := raise_proj (·.boot) (fun _ _ => rfl) (fun _ _ => rfl) (fun _ _ => rfl) (fun _ _ => rfl)
    (fun _ _ => rfl) _ _ _ _ _ _ _
@[simp] theorem raise_flash (s : State) (e : Evt) (i : Nat) (part : Option Nat) (pl : List Byte) (src : Option Nat) (sev : Option Sev) :
    (raise s e i part pl src sev).flash = s.flash := raise_proj (·.flash) (fun _ _ => rfl) (fun _ _ => rfl) (fun _ _ => rfl) (fun _ _ => rfl)
    (fun _ _ => rfl) _ _ _ _ _ _ _
@[simp] theorem raise_power (s : State) (e : Evt) (i : Nat) (part : Option Nat) (pl : List Byte) (src : Option Nat) (sev : Option Sev) :
    (raise s e i part pl src sev).power = s.power := raise_proj (·.power) (fun _ _ => rfl) (fun _ _ => rfl) (fun _ _ => rfl) (fun _ _ => rfl)
    (fun _ _ => rfl) _ _ _ _ _ _ _
@[simp] theorem raise_tb (s : State) (e : Evt) (i : Nat) (part : Option Nat) (pl : List Byte) (src : Option Nat) (sev : Option Sev) :
    (raise s e i part pl src sev).tb = s.tb := raise_proj (·.tb) (fun _ _ => rfl) (fun _ _ => rfl) (fun _ _ => rfl) (fun _ _ => rfl)
    (fun _ _ => rfl) _ _ _ _ _ _ _
@[simp] theorem raise_heads (s : State) (e : Evt) (i : Nat) (part : Option Nat) (pl : List Byte) (src : Option Nat) (sev : Option Sev) :
    (raise s e i part pl src sev).heads = s.heads := raise_proj (·.heads) (fun _ _ => rfl) (fun _ _ => rfl) (fun _ _ => rfl) (fun _ _ => rfl)
    (fun _ _ => rfl) _ _ _ _ _ _ _
@[simp] theorem raise_hdms (s : State) (e : Evt) (i : Nat) (part : Option Nat) (pl : List Byte) (src : Option Nat) (sev : Option Sev) :
    (raise s e i part pl src sev).hdms = s.hdms := raise_proj (·.hdms) (fun _ _ => rfl) (fun _ _ => rfl) (fun _ _ => rfl) (fun _ _ => rfl)
    (fun _ _ => rfl) _ _ _ _ _ _ _
@[simp] theorem raise_parts (s : State) (e : Evt) (i : Nat) (part : Option Nat) (pl : List Byte) (src : Option Nat) (sev : Option Sev) :
    (raise s e i part pl src sev).parts = s.parts := raise_proj (·.parts) (fun _ _ => rfl) (fun _ _ => rfl) (fun _ _ => rfl) (fun _ _ => rfl)
    (fun _ _ => rfl) _ _ _ _ _ _ _
@[simp] theorem raise_exts (s : State) (e : Evt) (i : Nat) (part : Option Nat) (pl : List Byte) (src : Option Nat) (sev : Option Sev) :
    (raise s e i part pl src sev).exts = s.exts := raise_proj (·.exts) (fun _ _ => rfl) (fun _ _ => rfl) (fun _ _ => rfl) (fun _ _ => rfl)
    (fun _ _ => rfl) _ _ _ _ _ _ _
@[simp] theorem raise_attrDue (s : State) (e : Evt) (i : Nat) (part : Option Nat) (pl : List Byte) (src : Option Nat) (sev : Option Sev) :
    (raise s e i part pl src sev).attrDue = s.attrDue := raise_proj (·.attrDue) (fun _ _ => rfl) (fun _ _ => rfl) (fun _ _ => rfl) (fun _ _ => rfl)
    (fun _ _ => rfl) _ _ _ _ _ _ _
@[simp] theorem raise_reserve (s : State) (e : Evt) (i : Nat) (part : Option Nat) (pl : List Byte) (src : Option Nat) (sev : Option Sev) :
    (raise s e i part pl src sev).reserve = s.reserve := raise_proj (·.reserve) (fun _ _ => rfl) (fun _ _ => rfl) (fun _ _ => rfl) (fun _ _ => rfl)
    (fun _ _ => rfl) _ _ _ _ _ _ _
@[simp] theorem raise_sanReqs (s : State) (e : Evt) (i : Nat) (part : Option Nat) (pl : List Byte) (src : Option Nat) (sev : Option Sev) :
    (raise s e i part pl src sev).sanReqs = s.sanReqs := raise_proj (·.sanReqs) (fun _ _ => rfl) (fun _ _ => rfl) (fun _ _ => rfl) (fun _ _ => rfl)
    (fun _ _ => rfl) _ _ _ _ _ _ _
@[simp] theorem raise_sanHalf (s : State) (e : Evt) (i : Nat) (part : Option Nat) (pl : List Byte) (src : Option Nat) (sev : Option Sev) :
    (raise s e i part pl src sev).sanHalf = s.sanHalf := raise_proj (·.sanHalf) (fun _ _ => rfl) (fun _ _ => rfl) (fun _ _ => rfl) (fun _ _ => rfl)
    (fun _ _ => rfl) _ _ _ _ _ _ _
@[simp] theorem raise_fmLog (s : State) (e : Evt) (i : Nat) (part : Option Nat) (pl : List Byte) (src : Option Nat) (sev : Option Sev) :
    (raise s e i part pl src sev).fmLog = s.fmLog := raise_proj (·.fmLog) (fun _ _ => rfl) (fun _ _ => rfl) (fun _ _ => rfl) (fun _ _ => rfl)
    (fun _ _ => rfl) _ _ _ _ _ _ _
@[simp] theorem raise_dir (s : State) (e : Evt) (i : Nat) (part : Option Nat) (pl : List Byte) (src : Option Nat) (sev : Option Sev) :
    (raise s e i part pl src sev).dir = s.dir := raise_proj (·.dir) (fun _ _ => rfl) (fun _ _ => rfl) (fun _ _ => rfl) (fun _ _ => rfl)
    (fun _ _ => rfl) _ _ _ _ _ _ _
@[simp] theorem raise_trans (s : State) (e : Evt) (i : Nat) (part : Option Nat) (pl : List Byte) (src : Option Nat) (sev : Option Sev) :
    (raise s e i part pl src sev).trans = s.trans := raise_proj (·.trans) (fun _ _ => rfl) (fun _ _ => rfl) (fun _ _ => rfl) (fun _ _ => rfl)
    (fun _ _ => rfl) _ _ _ _ _ _ _
@[simp] theorem raise_lineq (s : State) (e : Evt) (i : Nat) (part : Option Nat) (pl : List Byte) (src : Option Nat) (sev : Option Sev) :
    (raise s e i part pl src sev).lineq = s.lineq := raise_proj (·.lineq) (fun _ _ => rfl) (fun _ _ => rfl) (fun _ _ => rfl) (fun _ _ => rfl)
    (fun _ _ => rfl) _ _ _ _ _ _ _
@[simp] theorem raise_snaps (s : State) (e : Evt) (i : Nat) (part : Option Nat) (pl : List Byte) (src : Option Nat) (sev : Option Sev) :
    (raise s e i part pl src sev).snaps = s.snaps := raise_proj (·.snaps) (fun _ _ => rfl) (fun _ _ => rfl) (fun _ _ => rfl) (fun _ _ => rfl)
    (fun _ _ => rfl) _ _ _ _ _ _ _
@[simp] theorem raise_snapCmds (s : State) (e : Evt) (i : Nat) (part : Option Nat) (pl : List Byte) (src : Option Nat) (sev : Option Sev) :
    (raise s e i part pl src sev).snapCmds = s.snapCmds := raise_proj (·.snapCmds) (fun _ _ => rfl) (fun _ _ => rfl) (fun _ _ => rfl) (fun _ _ => rfl)
    (fun _ _ => rfl) _ _ _ _ _ _ _
@[simp] theorem raise_frames (s : State) (e : Evt) (i : Nat) (part : Option Nat) (pl : List Byte) (src : Option Nat) (sev : Option Sev) :
    (raise s e i part pl src sev).frames = s.frames := raise_proj (·.frames) (fun _ _ => rfl) (fun _ _ => rfl) (fun _ _ => rfl) (fun _ _ => rfl)
    (fun _ _ => rfl) _ _ _ _ _ _ _
@[simp] theorem raise_pinMarks (s : State) (e : Evt) (i : Nat) (part : Option Nat) (pl : List Byte) (src : Option Nat) (sev : Option Sev) :
    (raise s e i part pl src sev).pinMarks = s.pinMarks := raise_proj (·.pinMarks) (fun _ _ => rfl) (fun _ _ => rfl) (fun _ _ => rfl) (fun _ _ => rfl)
    (fun _ _ => rfl) _ _ _ _ _ _ _
@[simp] theorem raise_lbaMap (s : State) (e : Evt) (i : Nat) (part : Option Nat) (pl : List Byte) (src : Option Nat) (sev : Option Sev) :
    (raise s e i part pl src sev).lbaMap = s.lbaMap := raise_proj (·.lbaMap) (fun _ _ => rfl) (fun _ _ => rfl) (fun _ _ => rfl) (fun _ _ => rfl)
    (fun _ _ => rfl) _ _ _ _ _ _ _
@[simp] theorem raise_ssd (s : State) (e : Evt) (i : Nat) (part : Option Nat) (pl : List Byte) (src : Option Nat) (sev : Option Sev) :
    (raise s e i part pl src sev).ssd = s.ssd := raise_proj (·.ssd) (fun _ _ => rfl) (fun _ _ => rfl) (fun _ _ => rfl) (fun _ _ => rfl)
    (fun _ _ => rfl) _ _ _ _ _ _ _
@[simp] theorem raise_locks (s : State) (e : Evt) (i : Nat) (part : Option Nat) (pl : List Byte) (src : Option Nat) (sev : Option Sev) :
    (raise s e i part pl src sev).locks = s.locks := raise_proj (·.locks) (fun _ _ => rfl) (fun _ _ => rfl) (fun _ _ => rfl) (fun _ _ => rfl)
    (fun _ _ => rfl) _ _ _ _ _ _ _
@[simp] theorem raise_ios (s : State) (e : Evt) (i : Nat) (part : Option Nat) (pl : List Byte) (src : Option Nat) (sev : Option Sev) :
    (raise s e i part pl src sev).ios = s.ios := raise_proj (·.ios) (fun _ _ => rfl) (fun _ _ => rfl) (fun _ _ => rfl) (fun _ _ => rfl)
    (fun _ _ => rfl) _ _ _ _ _ _ _
@[simp] theorem raise_nextIo (s : State) (e : Evt) (i : Nat) (part : Option Nat) (pl : List Byte) (src : Option Nat) (sev : Option Sev) :
    (raise s e i part pl src sev).nextIo = s.nextIo := raise_proj (·.nextIo) (fun _ _ => rfl) (fun _ _ => rfl) (fun _ _ => rfl) (fun _ _ => rfl)
    (fun _ _ => rfl) _ _ _ _ _ _ _
@[simp] theorem raise_slots (s : State) (e : Evt) (i : Nat) (part : Option Nat) (pl : List Byte) (src : Option Nat) (sev : Option Sev) :
    (raise s e i part pl src sev).slots = s.slots := raise_proj (·.slots) (fun _ _ => rfl) (fun _ _ => rfl) (fun _ _ => rfl) (fun _ _ => rfl)
    (fun _ _ => rfl) _ _ _ _ _ _ _
@[simp] theorem raise_rebuild (s : State) (e : Evt) (i : Nat) (part : Option Nat) (pl : List Byte) (src : Option Nat) (sev : Option Sev) :
    (raise s e i part pl src sev).rebuild = s.rebuild := raise_proj (·.rebuild) (fun _ _ => rfl) (fun _ _ => rfl) (fun _ _ => rfl) (fun _ _ => rfl)
    (fun _ _ => rfl) _ _ _ _ _ _ _
@[simp] theorem raise_tier (s : State) (e : Evt) (i : Nat) (part : Option Nat) (pl : List Byte) (src : Option Nat) (sev : Option Sev) :
    (raise s e i part pl src sev).tier = s.tier := raise_proj (·.tier) (fun _ _ => rfl) (fun _ _ => rfl) (fun _ _ => rfl) (fun _ _ => rfl)
    (fun _ _ => rfl) _ _ _ _ _ _ _
@[simp] theorem raise_draining (s : State) (e : Evt) (i : Nat) (part : Option Nat) (pl : List Byte) (src : Option Nat) (sev : Option Sev) :
    (raise s e i part pl src sev).draining = s.draining := raise_proj (·.draining) (fun _ _ => rfl) (fun _ _ => rfl) (fun _ _ => rfl) (fun _ _ => rfl)
    (fun _ _ => rfl) _ _ _ _ _ _ _
@[simp] theorem raise_hints (s : State) (e : Evt) (i : Nat) (part : Option Nat) (pl : List Byte) (src : Option Nat) (sev : Option Sev) :
    (raise s e i part pl src sev).hints = s.hints := raise_proj (·.hints) (fun _ _ => rfl) (fun _ _ => rfl) (fun _ _ => rfl) (fun _ _ => rfl)
    (fun _ _ => rfl) _ _ _ _ _ _ _
@[simp] theorem raise_index (s : State) (e : Evt) (i : Nat) (part : Option Nat) (pl : List Byte) (src : Option Nat) (sev : Option Sev) :
    (raise s e i part pl src sev).index = s.index := raise_proj (·.index) (fun _ _ => rfl) (fun _ _ => rfl) (fun _ _ => rfl) (fun _ _ => rfl)
    (fun _ _ => rfl) _ _ _ _ _ _ _
@[simp] theorem raise_segs (s : State) (e : Evt) (i : Nat) (part : Option Nat) (pl : List Byte) (src : Option Nat) (sev : Option Sev) :
    (raise s e i part pl src sev).segs = s.segs := raise_proj (·.segs) (fun _ _ => rfl) (fun _ _ => rfl) (fun _ _ => rfl) (fun _ _ => rfl)
    (fun _ _ => rfl) _ _ _ _ _ _ _
@[simp] theorem raise_cache (s : State) (e : Evt) (i : Nat) (part : Option Nat) (pl : List Byte) (src : Option Nat) (sev : Option Sev) :
    (raise s e i part pl src sev).cache = s.cache := raise_proj (·.cache) (fun _ _ => rfl) (fun _ _ => rfl) (fun _ _ => rfl) (fun _ _ => rfl)
    (fun _ _ => rfl) _ _ _ _ _ _ _
@[simp] theorem raise_expPitch (s : State) (e : Evt) (i : Nat) (part : Option Nat) (pl : List Byte) (src : Option Nat) (sev : Option Sev) :
    (raise s e i part pl src sev).expPitch = s.expPitch := raise_proj (·.expPitch) (fun _ _ => rfl) (fun _ _ => rfl) (fun _ _ => rfl) (fun _ _ => rfl)
    (fun _ _ => rfl) _ _ _ _ _ _ _
@[simp] theorem raise_compactQ (s : State) (e : Evt) (i : Nat) (part : Option Nat) (pl : List Byte) (src : Option Nat) (sev : Option Sev) :
    (raise s e i part pl src sev).compactQ = s.compactQ := raise_proj (·.compactQ) (fun _ _ => rfl) (fun _ _ => rfl) (fun _ _ => rfl) (fun _ _ => rfl)
    (fun _ _ => rfl) _ _ _ _ _ _ _
@[simp] theorem raise_stale (s : State) (e : Evt) (i : Nat) (part : Option Nat) (pl : List Byte) (src : Option Nat) (sev : Option Sev) :
    (raise s e i part pl src sev).stale = s.stale := raise_proj (·.stale) (fun _ _ => rfl) (fun _ _ => rfl) (fun _ _ => rfl) (fun _ _ => rfl)
    (fun _ _ => rfl) _ _ _ _ _ _ _
@[simp] theorem raise_damaged (s : State) (e : Evt) (i : Nat) (part : Option Nat) (pl : List Byte) (src : Option Nat) (sev : Option Sev) :
    (raise s e i part pl src sev).damaged = s.damaged := raise_proj (·.damaged) (fun _ _ => rfl) (fun _ _ => rfl) (fun _ _ => rfl) (fun _ _ => rfl)
    (fun _ _ => rfl) _ _ _ _ _ _ _
@[simp] theorem raise_rings (s : State) (e : Evt) (i : Nat) (part : Option Nat) (pl : List Byte) (src : Option Nat) (sev : Option Sev) :
    (raise s e i part pl src sev).rings = s.rings := raise_proj (·.rings) (fun _ _ => rfl) (fun _ _ => rfl) (fun _ _ => rfl) (fun _ _ => rfl)
    (fun _ _ => rfl) _ _ _ _ _ _ _
@[simp] theorem raise_ringMem (s : State) (e : Evt) (i : Nat) (part : Option Nat) (pl : List Byte) (src : Option Nat) (sev : Option Sev) :
    (raise s e i part pl src sev).ringMem = s.ringMem := raise_proj (·.ringMem) (fun _ _ => rfl) (fun _ _ => rfl) (fun _ _ => rfl) (fun _ _ => rfl)
    (fun _ _ => rfl) _ _ _ _ _ _ _
@[simp] theorem raise_jobs (s : State) (e : Evt) (i : Nat) (part : Option Nat) (pl : List Byte) (src : Option Nat) (sev : Option Sev) :
    (raise s e i part pl src sev).jobs = s.jobs := raise_proj (·.jobs) (fun _ _ => rfl) (fun _ _ => rfl) (fun _ _ => rfl) (fun _ _ => rfl)
    (fun _ _ => rfl) _ _ _ _ _ _ _
@[simp] theorem raise_windows (s : State) (e : Evt) (i : Nat) (part : Option Nat) (pl : List Byte) (src : Option Nat) (sev : Option Sev) :
    (raise s e i part pl src sev).windows = s.windows := raise_proj (·.windows) (fun _ _ => rfl) (fun _ _ => rfl) (fun _ _ => rfl) (fun _ _ => rfl)
    (fun _ _ => rfl) _ _ _ _ _ _ _
@[simp] theorem raise_applied (s : State) (e : Evt) (i : Nat) (part : Option Nat) (pl : List Byte) (src : Option Nat) (sev : Option Sev) :
    (raise s e i part pl src sev).applied = s.applied := raise_proj (·.applied) (fun _ _ => rfl) (fun _ _ => rfl) (fun _ _ => rfl) (fun _ _ => rfl)
    (fun _ _ => rfl) _ _ _ _ _ _ _
@[simp] theorem raise_steps (s : State) (e : Evt) (i : Nat) (part : Option Nat) (pl : List Byte) (src : Option Nat) (sev : Option Sev) :
    (raise s e i part pl src sev).steps = s.steps := raise_proj (·.steps) (fun _ _ => rfl) (fun _ _ => rfl) (fun _ _ => rfl) (fun _ _ => rfl)
    (fun _ _ => rfl) _ _ _ _ _ _ _
@[simp] theorem raise_coreTrips (s : State) (e : Evt) (i : Nat) (part : Option Nat) (pl : List Byte) (src : Option Nat) (sev : Option Sev) :
    (raise s e i part pl src sev).coreTrips = s.coreTrips := raise_proj (·.coreTrips) (fun _ _ => rfl) (fun _ _ => rfl) (fun _ _ => rfl) (fun _ _ => rfl)
    (fun _ _ => rfl) _ _ _ _ _ _ _
@[simp] theorem raise_coresOut (s : State) (e : Evt) (i : Nat) (part : Option Nat) (pl : List Byte) (src : Option Nat) (sev : Option Sev) :
    (raise s e i part pl src sev).coresOut = s.coresOut := raise_proj (·.coresOut) (fun _ _ => rfl) (fun _ _ => rfl) (fun _ _ => rfl) (fun _ _ => rfl)
    (fun _ _ => rfl) _ _ _ _ _ _ _
@[simp] theorem raise_qos (s : State) (e : Evt) (i : Nat) (part : Option Nat) (pl : List Byte) (src : Option Nat) (sev : Option Sev) :
    (raise s e i part pl src sev).qos = s.qos := raise_proj (·.qos) (fun _ _ => rfl) (fun _ _ => rfl) (fun _ _ => rfl) (fun _ _ => rfl)
    (fun _ _ => rfl) _ _ _ _ _ _ _
@[simp] theorem raise_pcs (s : State) (e : Evt) (i : Nat) (part : Option Nat) (pl : List Byte) (src : Option Nat) (sev : Option Sev) :
    (raise s e i part pl src sev).pcs = s.pcs := raise_proj (·.pcs) (fun _ _ => rfl) (fun _ _ => rfl) (fun _ _ => rfl) (fun _ _ => rfl)
    (fun _ _ => rfl) _ _ _ _ _ _ _
@[simp] theorem raise_portDiesOut (s : State) (e : Evt) (i : Nat) (part : Option Nat) (pl : List Byte) (src : Option Nat) (sev : Option Sev) :
    (raise s e i part pl src sev).portDiesOut = s.portDiesOut := raise_proj (·.portDiesOut) (fun _ _ => rfl) (fun _ _ => rfl) (fun _ _ => rfl) (fun _ _ => rfl)
    (fun _ _ => rfl) _ _ _ _ _ _ _
@[simp] theorem raise_clustersOut (s : State) (e : Evt) (i : Nat) (part : Option Nat) (pl : List Byte) (src : Option Nat) (sev : Option Sev) :
    (raise s e i part pl src sev).clustersOut = s.clustersOut := raise_proj (·.clustersOut) (fun _ _ => rfl) (fun _ _ => rfl) (fun _ _ => rfl) (fun _ _ => rfl)
    (fun _ _ => rfl) _ _ _ _ _ _ _
@[simp] theorem raise_resetting (s : State) (e : Evt) (i : Nat) (part : Option Nat) (pl : List Byte) (src : Option Nat) (sev : Option Sev) :
    (raise s e i part pl src sev).resetting = s.resetting := raise_proj (·.resetting) (fun _ _ => rfl) (fun _ _ => rfl) (fun _ _ => rfl) (fun _ _ => rfl)
    (fun _ _ => rfl) _ _ _ _ _ _ _
@[simp] theorem raise_stores (s : State) (e : Evt) (i : Nat) (part : Option Nat) (pl : List Byte) (src : Option Nat) (sev : Option Sev) :
    (raise s e i part pl src sev).stores = s.stores := raise_proj (·.stores) (fun _ _ => rfl) (fun _ _ => rfl) (fun _ _ => rfl) (fun _ _ => rfl)
    (fun _ _ => rfl) _ _ _ _ _ _ _
@[simp] theorem raise_repaired (s : State) (e : Evt) (i : Nat) (part : Option Nat) (pl : List Byte) (src : Option Nat) (sev : Option Sev) :
    (raise s e i part pl src sev).repaired = s.repaired := raise_proj (·.repaired) (fun _ _ => rfl) (fun _ _ => rfl) (fun _ _ => rfl) (fun _ _ => rfl)
    (fun _ _ => rfl) _ _ _ _ _ _ _
@[simp] theorem raise_ras (s : State) (e : Evt) (i : Nat) (part : Option Nat) (pl : List Byte) (src : Option Nat) (sev : Option Sev) :
    (raise s e i part pl src sev).ras = s.ras := raise_proj (·.ras) (fun _ _ => rfl) (fun _ _ => rfl) (fun _ _ => rfl) (fun _ _ => rfl)
    (fun _ _ => rfl) _ _ _ _ _ _ _
@[simp] theorem raise_belay (s : State) (e : Evt) (i : Nat) (part : Option Nat) (pl : List Byte) (src : Option Nat) (sev : Option Sev) :
    (raise s e i part pl src sev).belay = s.belay := raise_proj (·.belay) (fun _ _ => rfl) (fun _ _ => rfl) (fun _ _ => rfl) (fun _ _ => rfl)
    (fun _ _ => rfl) _ _ _ _ _ _ _
@[simp] theorem raise_sessions (s : State) (e : Evt) (i : Nat) (part : Option Nat) (pl : List Byte) (src : Option Nat) (sev : Option Sev) :
    (raise s e i part pl src sev).sessions = s.sessions := raise_proj (·.sessions) (fun _ _ => rfl) (fun _ _ => rfl) (fun _ _ => rfl) (fun _ _ => rfl)
    (fun _ _ => rfl) _ _ _ _ _ _ _
@[simp] theorem raise_pins (s : State) (e : Evt) (i : Nat) (part : Option Nat) (pl : List Byte) (src : Option Nat) (sev : Option Sev) :
    (raise s e i part pl src sev).pins = s.pins := raise_proj (·.pins) (fun _ _ => rfl) (fun _ _ => rfl) (fun _ _ => rfl) (fun _ _ => rfl)
    (fun _ _ => rfl) _ _ _ _ _ _ _
@[simp] theorem headOf_raise (s : State) (e : Evt) (i : Nat) (part : Option Nat) (pl : List Byte) (src : Option Nat) (sev : Option Sev) (a : Nat) :
    headOf (raise s e i part pl src sev) a = headOf s a := raise_proj (fun u => headOf u a) (fun _ _ => rfl) (fun _ _ => rfl) (fun _ _ => rfl) (fun _ _ => rfl)
    (fun _ _ => rfl) _ _ _ _ _ _ _
@[simp] theorem partOf_raise (s : State) (e : Evt) (i : Nat) (part : Option Nat) (pl : List Byte) (src : Option Nat) (sev : Option Sev) (a : Nat) :
    partOf (raise s e i part pl src sev) a = partOf s a := raise_proj (fun u => partOf u a) (fun _ _ => rfl) (fun _ _ => rfl) (fun _ _ => rfl) (fun _ _ => rfl)
    (fun _ _ => rfl) _ _ _ _ _ _ _
@[simp] theorem pcOf_raise (s : State) (e : Evt) (i : Nat) (part : Option Nat) (pl : List Byte) (src : Option Nat) (sev : Option Sev) (a : Nat) :
    pcOf (raise s e i part pl src sev) a = pcOf s a := raise_proj (fun u => pcOf u a) (fun _ _ => rfl) (fun _ _ => rfl) (fun _ _ => rfl) (fun _ _ => rfl)
    (fun _ _ => rfl) _ _ _ _ _ _ _
@[simp] theorem slotOf_raise (s : State) (e : Evt) (i : Nat) (part : Option Nat) (pl : List Byte) (src : Option Nat) (sev : Option Sev) (a : Nat) :
    slotOf (raise s e i part pl src sev) a = slotOf s a := raise_proj (fun u => slotOf u a) (fun _ _ => rfl) (fun _ _ => rfl) (fun _ _ => rfl) (fun _ _ => rfl)
    (fun _ _ => rfl) _ _ _ _ _ _ _
@[simp] theorem fget_raise (s : State) (e : Evt) (i : Nat) (part : Option Nat) (pl : List Byte) (src : Option Nat) (sev : Option Sev) {q : Fld} (k l : Nat) (hq : q ≠ .cairnCoalesceStatsLatched) :
    fget (raise s e i part pl src sev) q k l = fget s q k l :=
  raise_proj (fun u => fget u q k l) (fun _ _ => rfl) (fun _ _ => rfl) (fun _ _ => rfl) (fun _ _ => rfl)
    (fun _ _ => fget_fset_fld _ _ _ _ _ _ hq) _ _ _ _ _ _ _
@[simp] theorem record_pending (s : State) (r : Rec) (src : Nat) (part : Option Nat) (pl : List Byte) :
    (record s r src part pl).pending = s.pending := record_proj (·.pending) (fun _ _ => rfl) (fun _ _ => rfl) (fun _ _ => rfl) (fun _ _ => rfl)
    (fun _ _ => rfl) _ _ _ _ _
@[simp] theorem record_free (s : State) (r : Rec) (src : Nat) (part : Option Nat) (pl : List Byte) :
    (record s r src part pl).free = s.free := record_proj (·.free) (fun _ _ => rfl) (fun _ _ => rfl) (fun _ _ => rfl) (fun _ _ => rfl)
    (fun _ _ => rfl) _ _ _ _ _
@[simp] theorem record_lag (s : State) (r : Rec) (src : Nat) (part : Option Nat) (pl : List Byte) :
    (record s r src part pl).lag = s.lag := record_proj (·.lag) (fun _ _ => rfl) (fun _ _ => rfl) (fun _ _ => rfl) (fun _ _ => rfl)
    (fun _ _ => rfl) _ _ _ _ _
@[simp] theorem record_mem (s : State) (r : Rec) (src : Nat) (part : Option Nat) (pl : List Byte) :
    (record s r src part pl).mem = s.mem := record_proj (·.mem) (fun _ _ => rfl) (fun _ _ => rfl) (fun _ _ => rfl) (fun _ _ => rfl)
    (fun _ _ => rfl) _ _ _ _ _
@[simp] theorem record_poison (s : State) (r : Rec) (src : Nat) (part : Option Nat) (pl : List Byte) :
    (record s r src part pl).poison = s.poison := record_proj (·.poison) (fun _ _ => rfl) (fun _ _ => rfl) (fun _ _ => rfl) (fun _ _ => rfl)
    (fun _ _ => rfl) _ _ _ _ _
@[simp] theorem record_damage (s : State) (r : Rec) (src : Nat) (part : Option Nat) (pl : List Byte) :
    (record s r src part pl).damage = s.damage := record_proj (·.damage) (fun _ _ => rfl) (fun _ _ => rfl) (fun _ _ => rfl) (fun _ _ => rfl)
    (fun _ _ => rfl) _ _ _ _ _
@[simp] theorem record_boot (s : State) (r : Rec) (src : Nat) (part : Option Nat) (pl : List Byte) :
    (record s r src part pl).boot = s.boot := record_proj (·.boot) (fun _ _ => rfl) (fun _ _ => rfl) (fun _ _ => rfl) (fun _ _ => rfl)
    (fun _ _ => rfl) _ _ _ _ _
@[simp] theorem record_flash (s : State) (r : Rec) (src : Nat) (part : Option Nat) (pl : List Byte) :
    (record s r src part pl).flash = s.flash := record_proj (·.flash) (fun _ _ => rfl) (fun _ _ => rfl) (fun _ _ => rfl) (fun _ _ => rfl)
    (fun _ _ => rfl) _ _ _ _ _
@[simp] theorem record_power (s : State) (r : Rec) (src : Nat) (part : Option Nat) (pl : List Byte) :
    (record s r src part pl).power = s.power := record_proj (·.power) (fun _ _ => rfl) (fun _ _ => rfl) (fun _ _ => rfl) (fun _ _ => rfl)
    (fun _ _ => rfl) _ _ _ _ _
@[simp] theorem record_tb (s : State) (r : Rec) (src : Nat) (part : Option Nat) (pl : List Byte) :
    (record s r src part pl).tb = s.tb := record_proj (·.tb) (fun _ _ => rfl) (fun _ _ => rfl) (fun _ _ => rfl) (fun _ _ => rfl)
    (fun _ _ => rfl) _ _ _ _ _
@[simp] theorem record_heads (s : State) (r : Rec) (src : Nat) (part : Option Nat) (pl : List Byte) :
    (record s r src part pl).heads = s.heads := record_proj (·.heads) (fun _ _ => rfl) (fun _ _ => rfl) (fun _ _ => rfl) (fun _ _ => rfl)
    (fun _ _ => rfl) _ _ _ _ _
@[simp] theorem record_hdms (s : State) (r : Rec) (src : Nat) (part : Option Nat) (pl : List Byte) :
    (record s r src part pl).hdms = s.hdms := record_proj (·.hdms) (fun _ _ => rfl) (fun _ _ => rfl) (fun _ _ => rfl) (fun _ _ => rfl)
    (fun _ _ => rfl) _ _ _ _ _
@[simp] theorem record_parts (s : State) (r : Rec) (src : Nat) (part : Option Nat) (pl : List Byte) :
    (record s r src part pl).parts = s.parts := record_proj (·.parts) (fun _ _ => rfl) (fun _ _ => rfl) (fun _ _ => rfl) (fun _ _ => rfl)
    (fun _ _ => rfl) _ _ _ _ _
@[simp] theorem record_exts (s : State) (r : Rec) (src : Nat) (part : Option Nat) (pl : List Byte) :
    (record s r src part pl).exts = s.exts := record_proj (·.exts) (fun _ _ => rfl) (fun _ _ => rfl) (fun _ _ => rfl) (fun _ _ => rfl)
    (fun _ _ => rfl) _ _ _ _ _
@[simp] theorem record_attrDue (s : State) (r : Rec) (src : Nat) (part : Option Nat) (pl : List Byte) :
    (record s r src part pl).attrDue = s.attrDue := record_proj (·.attrDue) (fun _ _ => rfl) (fun _ _ => rfl) (fun _ _ => rfl) (fun _ _ => rfl)
    (fun _ _ => rfl) _ _ _ _ _
@[simp] theorem record_reserve (s : State) (r : Rec) (src : Nat) (part : Option Nat) (pl : List Byte) :
    (record s r src part pl).reserve = s.reserve := record_proj (·.reserve) (fun _ _ => rfl) (fun _ _ => rfl) (fun _ _ => rfl) (fun _ _ => rfl)
    (fun _ _ => rfl) _ _ _ _ _
@[simp] theorem record_sanReqs (s : State) (r : Rec) (src : Nat) (part : Option Nat) (pl : List Byte) :
    (record s r src part pl).sanReqs = s.sanReqs := record_proj (·.sanReqs) (fun _ _ => rfl) (fun _ _ => rfl) (fun _ _ => rfl) (fun _ _ => rfl)
    (fun _ _ => rfl) _ _ _ _ _
@[simp] theorem record_sanHalf (s : State) (r : Rec) (src : Nat) (part : Option Nat) (pl : List Byte) :
    (record s r src part pl).sanHalf = s.sanHalf := record_proj (·.sanHalf) (fun _ _ => rfl) (fun _ _ => rfl) (fun _ _ => rfl) (fun _ _ => rfl)
    (fun _ _ => rfl) _ _ _ _ _
@[simp] theorem record_fmLog (s : State) (r : Rec) (src : Nat) (part : Option Nat) (pl : List Byte) :
    (record s r src part pl).fmLog = s.fmLog := record_proj (·.fmLog) (fun _ _ => rfl) (fun _ _ => rfl) (fun _ _ => rfl) (fun _ _ => rfl)
    (fun _ _ => rfl) _ _ _ _ _
@[simp] theorem record_dir (s : State) (r : Rec) (src : Nat) (part : Option Nat) (pl : List Byte) :
    (record s r src part pl).dir = s.dir := record_proj (·.dir) (fun _ _ => rfl) (fun _ _ => rfl) (fun _ _ => rfl) (fun _ _ => rfl)
    (fun _ _ => rfl) _ _ _ _ _
@[simp] theorem record_trans (s : State) (r : Rec) (src : Nat) (part : Option Nat) (pl : List Byte) :
    (record s r src part pl).trans = s.trans := record_proj (·.trans) (fun _ _ => rfl) (fun _ _ => rfl) (fun _ _ => rfl) (fun _ _ => rfl)
    (fun _ _ => rfl) _ _ _ _ _
@[simp] theorem record_lineq (s : State) (r : Rec) (src : Nat) (part : Option Nat) (pl : List Byte) :
    (record s r src part pl).lineq = s.lineq := record_proj (·.lineq) (fun _ _ => rfl) (fun _ _ => rfl) (fun _ _ => rfl) (fun _ _ => rfl)
    (fun _ _ => rfl) _ _ _ _ _
@[simp] theorem record_snaps (s : State) (r : Rec) (src : Nat) (part : Option Nat) (pl : List Byte) :
    (record s r src part pl).snaps = s.snaps := record_proj (·.snaps) (fun _ _ => rfl) (fun _ _ => rfl) (fun _ _ => rfl) (fun _ _ => rfl)
    (fun _ _ => rfl) _ _ _ _ _
@[simp] theorem record_snapCmds (s : State) (r : Rec) (src : Nat) (part : Option Nat) (pl : List Byte) :
    (record s r src part pl).snapCmds = s.snapCmds := record_proj (·.snapCmds) (fun _ _ => rfl) (fun _ _ => rfl) (fun _ _ => rfl) (fun _ _ => rfl)
    (fun _ _ => rfl) _ _ _ _ _
@[simp] theorem record_frames (s : State) (r : Rec) (src : Nat) (part : Option Nat) (pl : List Byte) :
    (record s r src part pl).frames = s.frames := record_proj (·.frames) (fun _ _ => rfl) (fun _ _ => rfl) (fun _ _ => rfl) (fun _ _ => rfl)
    (fun _ _ => rfl) _ _ _ _ _
@[simp] theorem record_pinMarks (s : State) (r : Rec) (src : Nat) (part : Option Nat) (pl : List Byte) :
    (record s r src part pl).pinMarks = s.pinMarks := record_proj (·.pinMarks) (fun _ _ => rfl) (fun _ _ => rfl) (fun _ _ => rfl) (fun _ _ => rfl)
    (fun _ _ => rfl) _ _ _ _ _
@[simp] theorem record_lbaMap (s : State) (r : Rec) (src : Nat) (part : Option Nat) (pl : List Byte) :
    (record s r src part pl).lbaMap = s.lbaMap := record_proj (·.lbaMap) (fun _ _ => rfl) (fun _ _ => rfl) (fun _ _ => rfl) (fun _ _ => rfl)
    (fun _ _ => rfl) _ _ _ _ _
@[simp] theorem record_ssd (s : State) (r : Rec) (src : Nat) (part : Option Nat) (pl : List Byte) :
    (record s r src part pl).ssd = s.ssd := record_proj (·.ssd) (fun _ _ => rfl) (fun _ _ => rfl) (fun _ _ => rfl) (fun _ _ => rfl)
    (fun _ _ => rfl) _ _ _ _ _
@[simp] theorem record_locks (s : State) (r : Rec) (src : Nat) (part : Option Nat) (pl : List Byte) :
    (record s r src part pl).locks = s.locks := record_proj (·.locks) (fun _ _ => rfl) (fun _ _ => rfl) (fun _ _ => rfl) (fun _ _ => rfl)
    (fun _ _ => rfl) _ _ _ _ _
@[simp] theorem record_ios (s : State) (r : Rec) (src : Nat) (part : Option Nat) (pl : List Byte) :
    (record s r src part pl).ios = s.ios := record_proj (·.ios) (fun _ _ => rfl) (fun _ _ => rfl) (fun _ _ => rfl) (fun _ _ => rfl)
    (fun _ _ => rfl) _ _ _ _ _
@[simp] theorem record_nextIo (s : State) (r : Rec) (src : Nat) (part : Option Nat) (pl : List Byte) :
    (record s r src part pl).nextIo = s.nextIo := record_proj (·.nextIo) (fun _ _ => rfl) (fun _ _ => rfl) (fun _ _ => rfl) (fun _ _ => rfl)
    (fun _ _ => rfl) _ _ _ _ _
@[simp] theorem record_slots (s : State) (r : Rec) (src : Nat) (part : Option Nat) (pl : List Byte) :
    (record s r src part pl).slots = s.slots := record_proj (·.slots) (fun _ _ => rfl) (fun _ _ => rfl) (fun _ _ => rfl) (fun _ _ => rfl)
    (fun _ _ => rfl) _ _ _ _ _
@[simp] theorem record_rebuild (s : State) (r : Rec) (src : Nat) (part : Option Nat) (pl : List Byte) :
    (record s r src part pl).rebuild = s.rebuild := record_proj (·.rebuild) (fun _ _ => rfl) (fun _ _ => rfl) (fun _ _ => rfl) (fun _ _ => rfl)
    (fun _ _ => rfl) _ _ _ _ _
@[simp] theorem record_tier (s : State) (r : Rec) (src : Nat) (part : Option Nat) (pl : List Byte) :
    (record s r src part pl).tier = s.tier := record_proj (·.tier) (fun _ _ => rfl) (fun _ _ => rfl) (fun _ _ => rfl) (fun _ _ => rfl)
    (fun _ _ => rfl) _ _ _ _ _
@[simp] theorem record_draining (s : State) (r : Rec) (src : Nat) (part : Option Nat) (pl : List Byte) :
    (record s r src part pl).draining = s.draining := record_proj (·.draining) (fun _ _ => rfl) (fun _ _ => rfl) (fun _ _ => rfl) (fun _ _ => rfl)
    (fun _ _ => rfl) _ _ _ _ _
@[simp] theorem record_hints (s : State) (r : Rec) (src : Nat) (part : Option Nat) (pl : List Byte) :
    (record s r src part pl).hints = s.hints := record_proj (·.hints) (fun _ _ => rfl) (fun _ _ => rfl) (fun _ _ => rfl) (fun _ _ => rfl)
    (fun _ _ => rfl) _ _ _ _ _
@[simp] theorem record_index (s : State) (r : Rec) (src : Nat) (part : Option Nat) (pl : List Byte) :
    (record s r src part pl).index = s.index := record_proj (·.index) (fun _ _ => rfl) (fun _ _ => rfl) (fun _ _ => rfl) (fun _ _ => rfl)
    (fun _ _ => rfl) _ _ _ _ _
@[simp] theorem record_segs (s : State) (r : Rec) (src : Nat) (part : Option Nat) (pl : List Byte) :
    (record s r src part pl).segs = s.segs := record_proj (·.segs) (fun _ _ => rfl) (fun _ _ => rfl) (fun _ _ => rfl) (fun _ _ => rfl)
    (fun _ _ => rfl) _ _ _ _ _
@[simp] theorem record_cache (s : State) (r : Rec) (src : Nat) (part : Option Nat) (pl : List Byte) :
    (record s r src part pl).cache = s.cache := record_proj (·.cache) (fun _ _ => rfl) (fun _ _ => rfl) (fun _ _ => rfl) (fun _ _ => rfl)
    (fun _ _ => rfl) _ _ _ _ _
@[simp] theorem record_expPitch (s : State) (r : Rec) (src : Nat) (part : Option Nat) (pl : List Byte) :
    (record s r src part pl).expPitch = s.expPitch := record_proj (·.expPitch) (fun _ _ => rfl) (fun _ _ => rfl) (fun _ _ => rfl) (fun _ _ => rfl)
    (fun _ _ => rfl) _ _ _ _ _
@[simp] theorem record_compactQ (s : State) (r : Rec) (src : Nat) (part : Option Nat) (pl : List Byte) :
    (record s r src part pl).compactQ = s.compactQ := record_proj (·.compactQ) (fun _ _ => rfl) (fun _ _ => rfl) (fun _ _ => rfl) (fun _ _ => rfl)
    (fun _ _ => rfl) _ _ _ _ _
@[simp] theorem record_stale (s : State) (r : Rec) (src : Nat) (part : Option Nat) (pl : List Byte) :
    (record s r src part pl).stale = s.stale := record_proj (·.stale) (fun _ _ => rfl) (fun _ _ => rfl) (fun _ _ => rfl) (fun _ _ => rfl)
    (fun _ _ => rfl) _ _ _ _ _
@[simp] theorem record_damaged (s : State) (r : Rec) (src : Nat) (part : Option Nat) (pl : List Byte) :
    (record s r src part pl).damaged = s.damaged := record_proj (·.damaged) (fun _ _ => rfl) (fun _ _ => rfl) (fun _ _ => rfl) (fun _ _ => rfl)
    (fun _ _ => rfl) _ _ _ _ _
@[simp] theorem record_rings (s : State) (r : Rec) (src : Nat) (part : Option Nat) (pl : List Byte) :
    (record s r src part pl).rings = s.rings := record_proj (·.rings) (fun _ _ => rfl) (fun _ _ => rfl) (fun _ _ => rfl) (fun _ _ => rfl)
    (fun _ _ => rfl) _ _ _ _ _
@[simp] theorem record_ringMem (s : State) (r : Rec) (src : Nat) (part : Option Nat) (pl : List Byte) :
    (record s r src part pl).ringMem = s.ringMem := record_proj (·.ringMem) (fun _ _ => rfl) (fun _ _ => rfl) (fun _ _ => rfl) (fun _ _ => rfl)
    (fun _ _ => rfl) _ _ _ _ _
@[simp] theorem record_jobs (s : State) (r : Rec) (src : Nat) (part : Option Nat) (pl : List Byte) :
    (record s r src part pl).jobs = s.jobs := record_proj (·.jobs) (fun _ _ => rfl) (fun _ _ => rfl) (fun _ _ => rfl) (fun _ _ => rfl)
    (fun _ _ => rfl) _ _ _ _ _
@[simp] theorem record_windows (s : State) (r : Rec) (src : Nat) (part : Option Nat) (pl : List Byte) :
    (record s r src part pl).windows = s.windows := record_proj (·.windows) (fun _ _ => rfl) (fun _ _ => rfl) (fun _ _ => rfl) (fun _ _ => rfl)
    (fun _ _ => rfl) _ _ _ _ _
@[simp] theorem record_applied (s : State) (r : Rec) (src : Nat) (part : Option Nat) (pl : List Byte) :
    (record s r src part pl).applied = s.applied := record_proj (·.applied) (fun _ _ => rfl) (fun _ _ => rfl) (fun _ _ => rfl) (fun _ _ => rfl)
    (fun _ _ => rfl) _ _ _ _ _
@[simp] theorem record_steps (s : State) (r : Rec) (src : Nat) (part : Option Nat) (pl : List Byte) :
    (record s r src part pl).steps = s.steps := record_proj (·.steps) (fun _ _ => rfl) (fun _ _ => rfl) (fun _ _ => rfl) (fun _ _ => rfl)
    (fun _ _ => rfl) _ _ _ _ _
@[simp] theorem record_coreTrips (s : State) (r : Rec) (src : Nat) (part : Option Nat) (pl : List Byte) :
    (record s r src part pl).coreTrips = s.coreTrips := record_proj (·.coreTrips) (fun _ _ => rfl) (fun _ _ => rfl) (fun _ _ => rfl) (fun _ _ => rfl)
    (fun _ _ => rfl) _ _ _ _ _
@[simp] theorem record_coresOut (s : State) (r : Rec) (src : Nat) (part : Option Nat) (pl : List Byte) :
    (record s r src part pl).coresOut = s.coresOut := record_proj (·.coresOut) (fun _ _ => rfl) (fun _ _ => rfl) (fun _ _ => rfl) (fun _ _ => rfl)
    (fun _ _ => rfl) _ _ _ _ _
@[simp] theorem record_qos (s : State) (r : Rec) (src : Nat) (part : Option Nat) (pl : List Byte) :
    (record s r src part pl).qos = s.qos := record_proj (·.qos) (fun _ _ => rfl) (fun _ _ => rfl) (fun _ _ => rfl) (fun _ _ => rfl)
    (fun _ _ => rfl) _ _ _ _ _
@[simp] theorem record_pcs (s : State) (r : Rec) (src : Nat) (part : Option Nat) (pl : List Byte) :
    (record s r src part pl).pcs = s.pcs := record_proj (·.pcs) (fun _ _ => rfl) (fun _ _ => rfl) (fun _ _ => rfl) (fun _ _ => rfl)
    (fun _ _ => rfl) _ _ _ _ _
@[simp] theorem record_portDiesOut (s : State) (r : Rec) (src : Nat) (part : Option Nat) (pl : List Byte) :
    (record s r src part pl).portDiesOut = s.portDiesOut := record_proj (·.portDiesOut) (fun _ _ => rfl) (fun _ _ => rfl) (fun _ _ => rfl) (fun _ _ => rfl)
    (fun _ _ => rfl) _ _ _ _ _
@[simp] theorem record_clustersOut (s : State) (r : Rec) (src : Nat) (part : Option Nat) (pl : List Byte) :
    (record s r src part pl).clustersOut = s.clustersOut := record_proj (·.clustersOut) (fun _ _ => rfl) (fun _ _ => rfl) (fun _ _ => rfl) (fun _ _ => rfl)
    (fun _ _ => rfl) _ _ _ _ _
@[simp] theorem record_resetting (s : State) (r : Rec) (src : Nat) (part : Option Nat) (pl : List Byte) :
    (record s r src part pl).resetting = s.resetting := record_proj (·.resetting) (fun _ _ => rfl) (fun _ _ => rfl) (fun _ _ => rfl) (fun _ _ => rfl)
    (fun _ _ => rfl) _ _ _ _ _
@[simp] theorem record_stores (s : State) (r : Rec) (src : Nat) (part : Option Nat) (pl : List Byte) :
    (record s r src part pl).stores = s.stores := record_proj (·.stores) (fun _ _ => rfl) (fun _ _ => rfl) (fun _ _ => rfl) (fun _ _ => rfl)
    (fun _ _ => rfl) _ _ _ _ _
@[simp] theorem record_repaired (s : State) (r : Rec) (src : Nat) (part : Option Nat) (pl : List Byte) :
    (record s r src part pl).repaired = s.repaired := record_proj (·.repaired) (fun _ _ => rfl) (fun _ _ => rfl) (fun _ _ => rfl) (fun _ _ => rfl)
    (fun _ _ => rfl) _ _ _ _ _
@[simp] theorem record_ras (s : State) (r : Rec) (src : Nat) (part : Option Nat) (pl : List Byte) :
    (record s r src part pl).ras = s.ras := record_proj (·.ras) (fun _ _ => rfl) (fun _ _ => rfl) (fun _ _ => rfl) (fun _ _ => rfl)
    (fun _ _ => rfl) _ _ _ _ _
@[simp] theorem record_belay (s : State) (r : Rec) (src : Nat) (part : Option Nat) (pl : List Byte) :
    (record s r src part pl).belay = s.belay := record_proj (·.belay) (fun _ _ => rfl) (fun _ _ => rfl) (fun _ _ => rfl) (fun _ _ => rfl)
    (fun _ _ => rfl) _ _ _ _ _
@[simp] theorem record_sessions (s : State) (r : Rec) (src : Nat) (part : Option Nat) (pl : List Byte) :
    (record s r src part pl).sessions = s.sessions := record_proj (·.sessions) (fun _ _ => rfl) (fun _ _ => rfl) (fun _ _ => rfl) (fun _ _ => rfl)
    (fun _ _ => rfl) _ _ _ _ _
@[simp] theorem record_pins (s : State) (r : Rec) (src : Nat) (part : Option Nat) (pl : List Byte) :
    (record s r src part pl).pins = s.pins := record_proj (·.pins) (fun _ _ => rfl) (fun _ _ => rfl) (fun _ _ => rfl) (fun _ _ => rfl)
    (fun _ _ => rfl) _ _ _ _ _
@[simp] theorem headOf_record (s : State) (r : Rec) (src : Nat) (part : Option Nat) (pl : List Byte) (a : Nat) :
    headOf (record s r src part pl) a = headOf s a := record_proj (fun u => headOf u a) (fun _ _ => rfl) (fun _ _ => rfl) (fun _ _ => rfl) (fun _ _ => rfl)
    (fun _ _ => rfl) _ _ _ _ _
@[simp] theorem partOf_record (s : State) (r : Rec) (src : Nat) (part : Option Nat) (pl : List Byte) (a : Nat) :
    partOf (record s r src part pl) a = partOf s a := record_proj (fun u => partOf u a) (fun _ _ => rfl) (fun _ _ => rfl) (fun _ _ => rfl) (fun _ _ => rfl)
    (fun _ _ => rfl) _ _ _ _ _
@[simp] theorem pcOf_record (s : State) (r : Rec) (src : Nat) (part : Option Nat) (pl : List Byte) (a : Nat) :
    pcOf (record s r src part pl) a = pcOf s a := record_proj (fun u => pcOf u a) (fun _ _ => rfl) (fun _ _ => rfl) (fun _ _ => rfl) (fun _ _ => rfl)
    (fun _ _ => rfl) _ _ _ _ _
@[simp] theorem slotOf_record (s : State) (r : Rec) (src : Nat) (part : Option Nat) (pl : List Byte) (a : Nat) :
    slotOf (record s r src part pl) a = slotOf s a := record_proj (fun u => slotOf u a) (fun _ _ => rfl) (fun _ _ => rfl) (fun _ _ => rfl) (fun _ _ => rfl)
    (fun _ _ => rfl) _ _ _ _ _
@[simp] theorem fget_record (s : State) (r : Rec) (src : Nat) (part : Option Nat) (pl : List Byte) {q : Fld} (k l : Nat) (hq : q ≠ .cairnCoalesceStatsLatched) :
    fget (record s r src part pl) q k l = fget s q k l :=
  record_proj (fun u => fget u q k l) (fun _ _ => rfl) (fun _ _ => rfl) (fun _ _ => rfl) (fun _ _ => rfl)
    (fun _ _ => fget_fset_fld _ _ _ _ _ _ hq) _ _ _ _ _
@[simp] theorem deny_pending (s : State) (v : View) :
    (deny s v).pending = s.pending := deny_proj (·.pending) (fun _ _ => rfl) (fun _ _ => rfl) (fun _ _ => rfl) (fun _ _ => rfl)
    (fun _ _ => rfl) (fun _ => rfl) _ _
@[simp] theorem deny_free (s : State) (v : View) :
    (deny s v).free = s.free := deny_proj (·.free) (fun _ _ => rfl) (fun _ _ => rfl) (fun _ _ => rfl) (fun _ _ => rfl)
    (fun _ _ => rfl) (fun _ => rfl) _ _
@[simp] theorem deny_lag (s : State) (v : View) :
    (deny s v).lag = s.lag := deny_proj (·.lag) (fun _ _ => rfl) (fun _ _ => rfl) (fun _ _ => rfl) (fun _ _ => rfl)
    (fun _ _ => rfl) (fun _ => rfl) _ _
@[simp] theorem deny_mem (s : State) (v : View) :
    (deny s v).mem = s.mem := deny_proj (·.mem) (fun _ _ => rfl) (fun _ _ => rfl) (fun _ _ => rfl) (fun _ _ => rfl)
    (fun _ _ => rfl) (fun _ => rfl) _ _
@[simp] theorem deny_poison (s : State) (v : View) :
    (deny s v).poison = s.poison := deny_proj (·.poison) (fun _ _ => rfl) (fun _ _ => rfl) (fun _ _ => rfl) (fun _ _ => rfl)
    (fun _ _ => rfl) (fun _ => rfl) _ _
@[simp] theorem deny_damage (s : State) (v : View) :
    (deny s v).damage = s.damage := deny_proj (·.damage) (fun _ _ => rfl) (fun _ _ => rfl) (fun _ _ => rfl) (fun _ _ => rfl)
    (fun _ _ => rfl) (fun _ => rfl) _ _
@[simp] theorem deny_boot (s : State) (v : View) :
    (deny s v).boot = s.boot := deny_proj (·.boot) (fun _ _ => rfl) (fun _ _ => rfl) (fun _ _ => rfl) (fun _ _ => rfl)
    (fun _ _ => rfl) (fun _ => rfl) _ _
@[simp] theorem deny_flash (s : State) (v : View) :
    (deny s v).flash = s.flash := deny_proj (·.flash) (fun _ _ => rfl) (fun _ _ => rfl) (fun _ _ => rfl) (fun _ _ => rfl)
    (fun _ _ => rfl) (fun _ => rfl) _ _
@[simp] theorem deny_power (s : State) (v : View) :
    (deny s v).power = s.power := deny_proj (·.power) (fun _ _ => rfl) (fun _ _ => rfl) (fun _ _ => rfl) (fun _ _ => rfl)
    (fun _ _ => rfl) (fun _ => rfl) _ _
@[simp] theorem deny_tb (s : State) (v : View) :
    (deny s v).tb = s.tb := deny_proj (·.tb) (fun _ _ => rfl) (fun _ _ => rfl) (fun _ _ => rfl) (fun _ _ => rfl)
    (fun _ _ => rfl) (fun _ => rfl) _ _
@[simp] theorem deny_heads (s : State) (v : View) :
    (deny s v).heads = s.heads := deny_proj (·.heads) (fun _ _ => rfl) (fun _ _ => rfl) (fun _ _ => rfl) (fun _ _ => rfl)
    (fun _ _ => rfl) (fun _ => rfl) _ _
@[simp] theorem deny_hdms (s : State) (v : View) :
    (deny s v).hdms = s.hdms := deny_proj (·.hdms) (fun _ _ => rfl) (fun _ _ => rfl) (fun _ _ => rfl) (fun _ _ => rfl)
    (fun _ _ => rfl) (fun _ => rfl) _ _
@[simp] theorem deny_parts (s : State) (v : View) :
    (deny s v).parts = s.parts := deny_proj (·.parts) (fun _ _ => rfl) (fun _ _ => rfl) (fun _ _ => rfl) (fun _ _ => rfl)
    (fun _ _ => rfl) (fun _ => rfl) _ _
@[simp] theorem deny_exts (s : State) (v : View) :
    (deny s v).exts = s.exts := deny_proj (·.exts) (fun _ _ => rfl) (fun _ _ => rfl) (fun _ _ => rfl) (fun _ _ => rfl)
    (fun _ _ => rfl) (fun _ => rfl) _ _
@[simp] theorem deny_attrDue (s : State) (v : View) :
    (deny s v).attrDue = s.attrDue := deny_proj (·.attrDue) (fun _ _ => rfl) (fun _ _ => rfl) (fun _ _ => rfl) (fun _ _ => rfl)
    (fun _ _ => rfl) (fun _ => rfl) _ _
@[simp] theorem deny_reserve (s : State) (v : View) :
    (deny s v).reserve = s.reserve := deny_proj (·.reserve) (fun _ _ => rfl) (fun _ _ => rfl) (fun _ _ => rfl) (fun _ _ => rfl)
    (fun _ _ => rfl) (fun _ => rfl) _ _
@[simp] theorem deny_sanReqs (s : State) (v : View) :
    (deny s v).sanReqs = s.sanReqs := deny_proj (·.sanReqs) (fun _ _ => rfl) (fun _ _ => rfl) (fun _ _ => rfl) (fun _ _ => rfl)
    (fun _ _ => rfl) (fun _ => rfl) _ _
@[simp] theorem deny_sanHalf (s : State) (v : View) :
    (deny s v).sanHalf = s.sanHalf := deny_proj (·.sanHalf) (fun _ _ => rfl) (fun _ _ => rfl) (fun _ _ => rfl) (fun _ _ => rfl)
    (fun _ _ => rfl) (fun _ => rfl) _ _
@[simp] theorem deny_fmLog (s : State) (v : View) :
    (deny s v).fmLog = s.fmLog := deny_proj (·.fmLog) (fun _ _ => rfl) (fun _ _ => rfl) (fun _ _ => rfl) (fun _ _ => rfl)
    (fun _ _ => rfl) (fun _ => rfl) _ _
@[simp] theorem deny_dir (s : State) (v : View) :
    (deny s v).dir = s.dir := deny_proj (·.dir) (fun _ _ => rfl) (fun _ _ => rfl) (fun _ _ => rfl) (fun _ _ => rfl)
    (fun _ _ => rfl) (fun _ => rfl) _ _
@[simp] theorem deny_trans (s : State) (v : View) :
    (deny s v).trans = s.trans := deny_proj (·.trans) (fun _ _ => rfl) (fun _ _ => rfl) (fun _ _ => rfl) (fun _ _ => rfl)
    (fun _ _ => rfl) (fun _ => rfl) _ _
@[simp] theorem deny_lineq (s : State) (v : View) :
    (deny s v).lineq = s.lineq := deny_proj (·.lineq) (fun _ _ => rfl) (fun _ _ => rfl) (fun _ _ => rfl) (fun _ _ => rfl)
    (fun _ _ => rfl) (fun _ => rfl) _ _
@[simp] theorem deny_snaps (s : State) (v : View) :
    (deny s v).snaps = s.snaps := deny_proj (·.snaps) (fun _ _ => rfl) (fun _ _ => rfl) (fun _ _ => rfl) (fun _ _ => rfl)
    (fun _ _ => rfl) (fun _ => rfl) _ _
@[simp] theorem deny_snapCmds (s : State) (v : View) :
    (deny s v).snapCmds = s.snapCmds := deny_proj (·.snapCmds) (fun _ _ => rfl) (fun _ _ => rfl) (fun _ _ => rfl) (fun _ _ => rfl)
    (fun _ _ => rfl) (fun _ => rfl) _ _
@[simp] theorem deny_frames (s : State) (v : View) :
    (deny s v).frames = s.frames := deny_proj (·.frames) (fun _ _ => rfl) (fun _ _ => rfl) (fun _ _ => rfl) (fun _ _ => rfl)
    (fun _ _ => rfl) (fun _ => rfl) _ _
@[simp] theorem deny_pinMarks (s : State) (v : View) :
    (deny s v).pinMarks = s.pinMarks := deny_proj (·.pinMarks) (fun _ _ => rfl) (fun _ _ => rfl) (fun _ _ => rfl) (fun _ _ => rfl)
    (fun _ _ => rfl) (fun _ => rfl) _ _
@[simp] theorem deny_lbaMap (s : State) (v : View) :
    (deny s v).lbaMap = s.lbaMap := deny_proj (·.lbaMap) (fun _ _ => rfl) (fun _ _ => rfl) (fun _ _ => rfl) (fun _ _ => rfl)
    (fun _ _ => rfl) (fun _ => rfl) _ _
@[simp] theorem deny_ssd (s : State) (v : View) :
    (deny s v).ssd = s.ssd := deny_proj (·.ssd) (fun _ _ => rfl) (fun _ _ => rfl) (fun _ _ => rfl) (fun _ _ => rfl)
    (fun _ _ => rfl) (fun _ => rfl) _ _
@[simp] theorem deny_locks (s : State) (v : View) :
    (deny s v).locks = s.locks := deny_proj (·.locks) (fun _ _ => rfl) (fun _ _ => rfl) (fun _ _ => rfl) (fun _ _ => rfl)
    (fun _ _ => rfl) (fun _ => rfl) _ _
@[simp] theorem deny_ios (s : State) (v : View) :
    (deny s v).ios = s.ios := deny_proj (·.ios) (fun _ _ => rfl) (fun _ _ => rfl) (fun _ _ => rfl) (fun _ _ => rfl)
    (fun _ _ => rfl) (fun _ => rfl) _ _
@[simp] theorem deny_nextIo (s : State) (v : View) :
    (deny s v).nextIo = s.nextIo := deny_proj (·.nextIo) (fun _ _ => rfl) (fun _ _ => rfl) (fun _ _ => rfl) (fun _ _ => rfl)
    (fun _ _ => rfl) (fun _ => rfl) _ _
@[simp] theorem deny_slots (s : State) (v : View) :
    (deny s v).slots = s.slots := deny_proj (·.slots) (fun _ _ => rfl) (fun _ _ => rfl) (fun _ _ => rfl) (fun _ _ => rfl)
    (fun _ _ => rfl) (fun _ => rfl) _ _
@[simp] theorem deny_rebuild (s : State) (v : View) :
    (deny s v).rebuild = s.rebuild := deny_proj (·.rebuild) (fun _ _ => rfl) (fun _ _ => rfl) (fun _ _ => rfl) (fun _ _ => rfl)
    (fun _ _ => rfl) (fun _ => rfl) _ _
@[simp] theorem deny_tier (s : State) (v : View) :
    (deny s v).tier = s.tier := deny_proj (·.tier) (fun _ _ => rfl) (fun _ _ => rfl) (fun _ _ => rfl) (fun _ _ => rfl)
    (fun _ _ => rfl) (fun _ => rfl) _ _
@[simp] theorem deny_draining (s : State) (v : View) :
    (deny s v).draining = s.draining := deny_proj (·.draining) (fun _ _ => rfl) (fun _ _ => rfl) (fun _ _ => rfl) (fun _ _ => rfl)
    (fun _ _ => rfl) (fun _ => rfl) _ _
@[simp] theorem deny_hints (s : State) (v : View) :
    (deny s v).hints = s.hints := deny_proj (·.hints) (fun _ _ => rfl) (fun _ _ => rfl) (fun _ _ => rfl) (fun _ _ => rfl)
    (fun _ _ => rfl) (fun _ => rfl) _ _
@[simp] theorem deny_index (s : State) (v : View) :
    (deny s v).index = s.index := deny_proj (·.index) (fun _ _ => rfl) (fun _ _ => rfl) (fun _ _ => rfl) (fun _ _ => rfl)
    (fun _ _ => rfl) (fun _ => rfl) _ _
@[simp] theorem deny_segs (s : State) (v : View) :
    (deny s v).segs = s.segs := deny_proj (·.segs) (fun _ _ => rfl) (fun _ _ => rfl) (fun _ _ => rfl) (fun _ _ => rfl)
    (fun _ _ => rfl) (fun _ => rfl) _ _
@[simp] theorem deny_cache (s : State) (v : View) :
    (deny s v).cache = s.cache := deny_proj (·.cache) (fun _ _ => rfl) (fun _ _ => rfl) (fun _ _ => rfl) (fun _ _ => rfl)
    (fun _ _ => rfl) (fun _ => rfl) _ _
@[simp] theorem deny_expPitch (s : State) (v : View) :
    (deny s v).expPitch = s.expPitch := deny_proj (·.expPitch) (fun _ _ => rfl) (fun _ _ => rfl) (fun _ _ => rfl) (fun _ _ => rfl)
    (fun _ _ => rfl) (fun _ => rfl) _ _
@[simp] theorem deny_compactQ (s : State) (v : View) :
    (deny s v).compactQ = s.compactQ := deny_proj (·.compactQ) (fun _ _ => rfl) (fun _ _ => rfl) (fun _ _ => rfl) (fun _ _ => rfl)
    (fun _ _ => rfl) (fun _ => rfl) _ _
@[simp] theorem deny_stale (s : State) (v : View) :
    (deny s v).stale = s.stale := deny_proj (·.stale) (fun _ _ => rfl) (fun _ _ => rfl) (fun _ _ => rfl) (fun _ _ => rfl)
    (fun _ _ => rfl) (fun _ => rfl) _ _
@[simp] theorem deny_damaged (s : State) (v : View) :
    (deny s v).damaged = s.damaged := deny_proj (·.damaged) (fun _ _ => rfl) (fun _ _ => rfl) (fun _ _ => rfl) (fun _ _ => rfl)
    (fun _ _ => rfl) (fun _ => rfl) _ _
@[simp] theorem deny_rings (s : State) (v : View) :
    (deny s v).rings = s.rings := deny_proj (·.rings) (fun _ _ => rfl) (fun _ _ => rfl) (fun _ _ => rfl) (fun _ _ => rfl)
    (fun _ _ => rfl) (fun _ => rfl) _ _
@[simp] theorem deny_ringMem (s : State) (v : View) :
    (deny s v).ringMem = s.ringMem := deny_proj (·.ringMem) (fun _ _ => rfl) (fun _ _ => rfl) (fun _ _ => rfl) (fun _ _ => rfl)
    (fun _ _ => rfl) (fun _ => rfl) _ _
@[simp] theorem deny_jobs (s : State) (v : View) :
    (deny s v).jobs = s.jobs := deny_proj (·.jobs) (fun _ _ => rfl) (fun _ _ => rfl) (fun _ _ => rfl) (fun _ _ => rfl)
    (fun _ _ => rfl) (fun _ => rfl) _ _
@[simp] theorem deny_windows (s : State) (v : View) :
    (deny s v).windows = s.windows := deny_proj (·.windows) (fun _ _ => rfl) (fun _ _ => rfl) (fun _ _ => rfl) (fun _ _ => rfl)
    (fun _ _ => rfl) (fun _ => rfl) _ _
@[simp] theorem deny_applied (s : State) (v : View) :
    (deny s v).applied = s.applied := deny_proj (·.applied) (fun _ _ => rfl) (fun _ _ => rfl) (fun _ _ => rfl) (fun _ _ => rfl)
    (fun _ _ => rfl) (fun _ => rfl) _ _
@[simp] theorem deny_steps (s : State) (v : View) :
    (deny s v).steps = s.steps := deny_proj (·.steps) (fun _ _ => rfl) (fun _ _ => rfl) (fun _ _ => rfl) (fun _ _ => rfl)
    (fun _ _ => rfl) (fun _ => rfl) _ _
@[simp] theorem deny_coreTrips (s : State) (v : View) :
    (deny s v).coreTrips = s.coreTrips := deny_proj (·.coreTrips) (fun _ _ => rfl) (fun _ _ => rfl) (fun _ _ => rfl) (fun _ _ => rfl)
    (fun _ _ => rfl) (fun _ => rfl) _ _
@[simp] theorem deny_coresOut (s : State) (v : View) :
    (deny s v).coresOut = s.coresOut := deny_proj (·.coresOut) (fun _ _ => rfl) (fun _ _ => rfl) (fun _ _ => rfl) (fun _ _ => rfl)
    (fun _ _ => rfl) (fun _ => rfl) _ _
@[simp] theorem deny_qos (s : State) (v : View) :
    (deny s v).qos = s.qos := deny_proj (·.qos) (fun _ _ => rfl) (fun _ _ => rfl) (fun _ _ => rfl) (fun _ _ => rfl)
    (fun _ _ => rfl) (fun _ => rfl) _ _
@[simp] theorem deny_pcs (s : State) (v : View) :
    (deny s v).pcs = s.pcs := deny_proj (·.pcs) (fun _ _ => rfl) (fun _ _ => rfl) (fun _ _ => rfl) (fun _ _ => rfl)
    (fun _ _ => rfl) (fun _ => rfl) _ _
@[simp] theorem deny_portDiesOut (s : State) (v : View) :
    (deny s v).portDiesOut = s.portDiesOut := deny_proj (·.portDiesOut) (fun _ _ => rfl) (fun _ _ => rfl) (fun _ _ => rfl) (fun _ _ => rfl)
    (fun _ _ => rfl) (fun _ => rfl) _ _
@[simp] theorem deny_clustersOut (s : State) (v : View) :
    (deny s v).clustersOut = s.clustersOut := deny_proj (·.clustersOut) (fun _ _ => rfl) (fun _ _ => rfl) (fun _ _ => rfl) (fun _ _ => rfl)
    (fun _ _ => rfl) (fun _ => rfl) _ _
@[simp] theorem deny_resetting (s : State) (v : View) :
    (deny s v).resetting = s.resetting := deny_proj (·.resetting) (fun _ _ => rfl) (fun _ _ => rfl) (fun _ _ => rfl) (fun _ _ => rfl)
    (fun _ _ => rfl) (fun _ => rfl) _ _
@[simp] theorem deny_stores (s : State) (v : View) :
    (deny s v).stores = s.stores := deny_proj (·.stores) (fun _ _ => rfl) (fun _ _ => rfl) (fun _ _ => rfl) (fun _ _ => rfl)
    (fun _ _ => rfl) (fun _ => rfl) _ _
@[simp] theorem deny_repaired (s : State) (v : View) :
    (deny s v).repaired = s.repaired := deny_proj (·.repaired) (fun _ _ => rfl) (fun _ _ => rfl) (fun _ _ => rfl) (fun _ _ => rfl)
    (fun _ _ => rfl) (fun _ => rfl) _ _
@[simp] theorem deny_ras (s : State) (v : View) :
    (deny s v).ras = s.ras := deny_proj (·.ras) (fun _ _ => rfl) (fun _ _ => rfl) (fun _ _ => rfl) (fun _ _ => rfl)
    (fun _ _ => rfl) (fun _ => rfl) _ _
@[simp] theorem deny_belay (s : State) (v : View) :
    (deny s v).belay = s.belay := deny_proj (·.belay) (fun _ _ => rfl) (fun _ _ => rfl) (fun _ _ => rfl) (fun _ _ => rfl)
    (fun _ _ => rfl) (fun _ => rfl) _ _
@[simp] theorem deny_sessions (s : State) (v : View) :
    (deny s v).sessions = s.sessions := deny_proj (·.sessions) (fun _ _ => rfl) (fun _ _ => rfl) (fun _ _ => rfl) (fun _ _ => rfl)
    (fun _ _ => rfl) (fun _ => rfl) _ _
@[simp] theorem deny_pins (s : State) (v : View) :
    (deny s v).pins = s.pins := deny_proj (·.pins) (fun _ _ => rfl) (fun _ _ => rfl) (fun _ _ => rfl) (fun _ _ => rfl)
    (fun _ _ => rfl) (fun _ => rfl) _ _
@[simp] theorem headOf_deny (s : State) (v : View) (a : Nat) :
    headOf (deny s v) a = headOf s a := deny_proj (fun u => headOf u a) (fun _ _ => rfl) (fun _ _ => rfl) (fun _ _ => rfl) (fun _ _ => rfl)
    (fun _ _ => rfl) (fun _ => rfl) _ _
@[simp] theorem partOf_deny (s : State) (v : View) (a : Nat) :
    partOf (deny s v) a = partOf s a := deny_proj (fun u => partOf u a) (fun _ _ => rfl) (fun _ _ => rfl) (fun _ _ => rfl) (fun _ _ => rfl)
    (fun _ _ => rfl) (fun _ => rfl) _ _
@[simp] theorem pcOf_deny (s : State) (v : View) (a : Nat) :
    pcOf (deny s v) a = pcOf s a := deny_proj (fun u => pcOf u a) (fun _ _ => rfl) (fun _ _ => rfl) (fun _ _ => rfl) (fun _ _ => rfl)
    (fun _ _ => rfl) (fun _ => rfl) _ _
@[simp] theorem slotOf_deny (s : State) (v : View) (a : Nat) :
    slotOf (deny s v) a = slotOf s a := deny_proj (fun u => slotOf u a) (fun _ _ => rfl) (fun _ _ => rfl) (fun _ _ => rfl) (fun _ _ => rfl)
    (fun _ _ => rfl) (fun _ => rfl) _ _
@[simp] theorem fget_deny (s : State) (v : View) {q : Fld} (k l : Nat) (hq : q ≠ .cairnCoalesceStatsLatched)
    (hw : q ≠ .roleDeniedWrites) : fget (deny s v) q k l = fget s q k l :=
  deny_proj (fun u => fget u q k l) (fun _ _ => rfl) (fun _ _ => rfl) (fun _ _ => rfl) (fun _ _ => rfl)
    (fun _ _ => fget_fset_fld _ _ _ _ _ _ hq) (fun _ => fget_finc_fld _ _ _ _ _ hw) _ _
@[simp] theorem aerLog_pending (s : State) (o : Nat) (h : Head) (e : AerErr) :
    (aerLog s o h e).pending = s.pending := aerLog_proj (·.pending) (fun _ _ => rfl) (fun _ _ => rfl) _ _ _ _
@[simp] theorem aerLog_free (s : State) (o : Nat) (h : Head) (e : AerErr) :
    (aerLog s o h e).free = s.free := aerLog_proj (·.free) (fun _ _ => rfl) (fun _ _ => rfl) _ _ _ _
@[simp] theorem aerLog_regs (s : State) (o : Nat) (h : Head) (e : AerErr) :
    (aerLog s o h e).regs = s.regs := aerLog_proj (·.regs) (fun _ _ => rfl) (fun _ _ => rfl) _ _ _ _
@[simp] theorem aerLog_lag (s : State) (o : Nat) (h : Head) (e : AerErr) :
    (aerLog s o h e).lag = s.lag := aerLog_proj (·.lag) (fun _ _ => rfl) (fun _ _ => rfl) _ _ _ _
@[simp] theorem aerLog_hdr (s : State) (o : Nat) (h : Head) (e : AerErr) :
    (aerLog s o h e).hdr = s.hdr := aerLog_proj (·.hdr) (fun _ _ => rfl) (fun _ _ => rfl) _ _ _ _
@[simp] theorem aerLog_mem (s : State) (o : Nat) (h : Head) (e : AerErr) :
    (aerLog s o h e).mem = s.mem := aerLog_proj (·.mem) (fun _ _ => rfl) (fun _ _ => rfl) _ _ _ _
@[simp] theorem aerLog_poison (s : State) (o : Nat) (h : Head) (e : AerErr) :
    (aerLog s o h e).poison = s.poison := aerLog_proj (·.poison) (fun _ _ => rfl) (fun _ _ => rfl) _ _ _ _
@[simp] theorem aerLog_damage (s : State) (o : Nat) (h : Head) (e : AerErr) :
    (aerLog s o h e).damage = s.damage := aerLog_proj (·.damage) (fun _ _ => rfl) (fun _ _ => rfl) _ _ _ _
@[simp] theorem aerLog_boot (s : State) (o : Nat) (h : Head) (e : AerErr) :
    (aerLog s o h e).boot = s.boot := aerLog_proj (·.boot) (fun _ _ => rfl) (fun _ _ => rfl) _ _ _ _
@[simp] theorem aerLog_flash (s : State) (o : Nat) (h : Head) (e : AerErr) :
    (aerLog s o h e).flash = s.flash := aerLog_proj (·.flash) (fun _ _ => rfl) (fun _ _ => rfl) _ _ _ _
@[simp] theorem aerLog_power (s : State) (o : Nat) (h : Head) (e : AerErr) :
    (aerLog s o h e).power = s.power := aerLog_proj (·.power) (fun _ _ => rfl) (fun _ _ => rfl) _ _ _ _
@[simp] theorem aerLog_tb (s : State) (o : Nat) (h : Head) (e : AerErr) :
    (aerLog s o h e).tb = s.tb := aerLog_proj (·.tb) (fun _ _ => rfl) (fun _ _ => rfl) _ _ _ _
@[simp] theorem aerLog_heads (s : State) (o : Nat) (h : Head) (e : AerErr) :
    (aerLog s o h e).heads = s.heads := aerLog_proj (·.heads) (fun _ _ => rfl) (fun _ _ => rfl) _ _ _ _
@[simp] theorem aerLog_hdms (s : State) (o : Nat) (h : Head) (e : AerErr) :
    (aerLog s o h e).hdms = s.hdms := aerLog_proj (·.hdms) (fun _ _ => rfl) (fun _ _ => rfl) _ _ _ _
@[simp] theorem aerLog_parts (s : State) (o : Nat) (h : Head) (e : AerErr) :
    (aerLog s o h e).parts = s.parts := aerLog_proj (·.parts) (fun _ _ => rfl) (fun _ _ => rfl) _ _ _ _
@[simp] theorem aerLog_exts (s : State) (o : Nat) (h : Head) (e : AerErr) :
    (aerLog s o h e).exts = s.exts := aerLog_proj (·.exts) (fun _ _ => rfl) (fun _ _ => rfl) _ _ _ _
@[simp] theorem aerLog_attrDue (s : State) (o : Nat) (h : Head) (e : AerErr) :
    (aerLog s o h e).attrDue = s.attrDue := aerLog_proj (·.attrDue) (fun _ _ => rfl) (fun _ _ => rfl) _ _ _ _
@[simp] theorem aerLog_reserve (s : State) (o : Nat) (h : Head) (e : AerErr) :
    (aerLog s o h e).reserve = s.reserve := aerLog_proj (·.reserve) (fun _ _ => rfl) (fun _ _ => rfl) _ _ _ _
@[simp] theorem aerLog_sanReqs (s : State) (o : Nat) (h : Head) (e : AerErr) :
    (aerLog s o h e).sanReqs = s.sanReqs := aerLog_proj (·.sanReqs) (fun _ _ => rfl) (fun _ _ => rfl) _ _ _ _
@[simp] theorem aerLog_sanHalf (s : State) (o : Nat) (h : Head) (e : AerErr) :
    (aerLog s o h e).sanHalf = s.sanHalf := aerLog_proj (·.sanHalf) (fun _ _ => rfl) (fun _ _ => rfl) _ _ _ _
@[simp] theorem aerLog_fmLog (s : State) (o : Nat) (h : Head) (e : AerErr) :
    (aerLog s o h e).fmLog = s.fmLog := aerLog_proj (·.fmLog) (fun _ _ => rfl) (fun _ _ => rfl) _ _ _ _
@[simp] theorem aerLog_dir (s : State) (o : Nat) (h : Head) (e : AerErr) :
    (aerLog s o h e).dir = s.dir := aerLog_proj (·.dir) (fun _ _ => rfl) (fun _ _ => rfl) _ _ _ _
@[simp] theorem aerLog_trans (s : State) (o : Nat) (h : Head) (e : AerErr) :
    (aerLog s o h e).trans = s.trans := aerLog_proj (·.trans) (fun _ _ => rfl) (fun _ _ => rfl) _ _ _ _
@[simp] theorem aerLog_lineq (s : State) (o : Nat) (h : Head) (e : AerErr) :
    (aerLog s o h e).lineq = s.lineq := aerLog_proj (·.lineq) (fun _ _ => rfl) (fun _ _ => rfl) _ _ _ _
@[simp] theorem aerLog_snaps (s : State) (o : Nat) (h : Head) (e : AerErr) :
    (aerLog s o h e).snaps = s.snaps := aerLog_proj (·.snaps) (fun _ _ => rfl) (fun _ _ => rfl) _ _ _ _
@[simp] theorem aerLog_snapCmds (s : State) (o : Nat) (h : Head) (e : AerErr) :
    (aerLog s o h e).snapCmds = s.snapCmds := aerLog_proj (·.snapCmds) (fun _ _ => rfl) (fun _ _ => rfl) _ _ _ _
@[simp] theorem aerLog_frames (s : State) (o : Nat) (h : Head) (e : AerErr) :
    (aerLog s o h e).frames = s.frames := aerLog_proj (·.frames) (fun _ _ => rfl) (fun _ _ => rfl) _ _ _ _
@[simp] theorem aerLog_pinMarks (s : State) (o : Nat) (h : Head) (e : AerErr) :
    (aerLog s o h e).pinMarks = s.pinMarks := aerLog_proj (·.pinMarks) (fun _ _ => rfl) (fun _ _ => rfl) _ _ _ _
@[simp] theorem aerLog_lbaMap (s : State) (o : Nat) (h : Head) (e : AerErr) :
    (aerLog s o h e).lbaMap = s.lbaMap := aerLog_proj (·.lbaMap) (fun _ _ => rfl) (fun _ _ => rfl) _ _ _ _
@[simp] theorem aerLog_ssd (s : State) (o : Nat) (h : Head) (e : AerErr) :
    (aerLog s o h e).ssd = s.ssd := aerLog_proj (·.ssd) (fun _ _ => rfl) (fun _ _ => rfl) _ _ _ _
@[simp] theorem aerLog_locks (s : State) (o : Nat) (h : Head) (e : AerErr) :
    (aerLog s o h e).locks = s.locks := aerLog_proj (·.locks) (fun _ _ => rfl) (fun _ _ => rfl) _ _ _ _
@[simp] theorem aerLog_ios (s : State) (o : Nat) (h : Head) (e : AerErr) :
    (aerLog s o h e).ios = s.ios := aerLog_proj (·.ios) (fun _ _ => rfl) (fun _ _ => rfl) _ _ _ _
@[simp] theorem aerLog_nextIo (s : State) (o : Nat) (h : Head) (e : AerErr) :
    (aerLog s o h e).nextIo = s.nextIo := aerLog_proj (·.nextIo) (fun _ _ => rfl) (fun _ _ => rfl) _ _ _ _
@[simp] theorem aerLog_slots (s : State) (o : Nat) (h : Head) (e : AerErr) :
    (aerLog s o h e).slots = s.slots := aerLog_proj (·.slots) (fun _ _ => rfl) (fun _ _ => rfl) _ _ _ _
@[simp] theorem aerLog_rebuild (s : State) (o : Nat) (h : Head) (e : AerErr) :
    (aerLog s o h e).rebuild = s.rebuild := aerLog_proj (·.rebuild) (fun _ _ => rfl) (fun _ _ => rfl) _ _ _ _
@[simp] theorem aerLog_tier (s : State) (o : Nat) (h : Head) (e : AerErr) :
    (aerLog s o h e).tier = s.tier := aerLog_proj (·.tier) (fun _ _ => rfl) (fun _ _ => rfl) _ _ _ _
@[simp] theorem aerLog_draining (s : State) (o : Nat) (h : Head) (e : AerErr) :
    (aerLog s o h e).draining = s.draining := aerLog_proj (·.draining) (fun _ _ => rfl) (fun _ _ => rfl) _ _ _ _
@[simp] theorem aerLog_hints (s : State) (o : Nat) (h : Head) (e : AerErr) :
    (aerLog s o h e).hints = s.hints := aerLog_proj (·.hints) (fun _ _ => rfl) (fun _ _ => rfl) _ _ _ _
@[simp] theorem aerLog_index (s : State) (o : Nat) (h : Head) (e : AerErr) :
    (aerLog s o h e).index = s.index := aerLog_proj (·.index) (fun _ _ => rfl) (fun _ _ => rfl) _ _ _ _
@[simp] theorem aerLog_segs (s : State) (o : Nat) (h : Head) (e : AerErr) :
    (aerLog s o h e).segs = s.segs := aerLog_proj (·.segs) (fun _ _ => rfl) (fun _ _ => rfl) _ _ _ _
@[simp] theorem aerLog_cache (s : State) (o : Nat) (h : Head) (e : AerErr) :
    (aerLog s o h e).cache = s.cache := aerLog_proj (·.cache) (fun _ _ => rfl) (fun _ _ => rfl) _ _ _ _
@[simp] theorem aerLog_expPitch (s : State) (o : Nat) (h : Head) (e : AerErr) :
    (aerLog s o h e).expPitch = s.expPitch := aerLog_proj (·.expPitch) (fun _ _ => rfl) (fun _ _ => rfl) _ _ _ _
@[simp] theorem aerLog_compactQ (s : State) (o : Nat) (h : Head) (e : AerErr) :
    (aerLog s o h e).compactQ = s.compactQ := aerLog_proj (·.compactQ) (fun _ _ => rfl) (fun _ _ => rfl) _ _ _ _
@[simp] theorem aerLog_stale (s : State) (o : Nat) (h : Head) (e : AerErr) :
    (aerLog s o h e).stale = s.stale := aerLog_proj (·.stale) (fun _ _ => rfl) (fun _ _ => rfl) _ _ _ _
@[simp] theorem aerLog_damaged (s : State) (o : Nat) (h : Head) (e : AerErr) :
    (aerLog s o h e).damaged = s.damaged := aerLog_proj (·.damaged) (fun _ _ => rfl) (fun _ _ => rfl) _ _ _ _
@[simp] theorem aerLog_rings (s : State) (o : Nat) (h : Head) (e : AerErr) :
    (aerLog s o h e).rings = s.rings := aerLog_proj (·.rings) (fun _ _ => rfl) (fun _ _ => rfl) _ _ _ _
@[simp] theorem aerLog_ringMem (s : State) (o : Nat) (h : Head) (e : AerErr) :
    (aerLog s o h e).ringMem = s.ringMem := aerLog_proj (·.ringMem) (fun _ _ => rfl) (fun _ _ => rfl) _ _ _ _
@[simp] theorem aerLog_jobs (s : State) (o : Nat) (h : Head) (e : AerErr) :
    (aerLog s o h e).jobs = s.jobs := aerLog_proj (·.jobs) (fun _ _ => rfl) (fun _ _ => rfl) _ _ _ _
@[simp] theorem aerLog_windows (s : State) (o : Nat) (h : Head) (e : AerErr) :
    (aerLog s o h e).windows = s.windows := aerLog_proj (·.windows) (fun _ _ => rfl) (fun _ _ => rfl) _ _ _ _
@[simp] theorem aerLog_applied (s : State) (o : Nat) (h : Head) (e : AerErr) :
    (aerLog s o h e).applied = s.applied := aerLog_proj (·.applied) (fun _ _ => rfl) (fun _ _ => rfl) _ _ _ _
@[simp] theorem aerLog_steps (s : State) (o : Nat) (h : Head) (e : AerErr) :
    (aerLog s o h e).steps = s.steps := aerLog_proj (·.steps) (fun _ _ => rfl) (fun _ _ => rfl) _ _ _ _
@[simp] theorem aerLog_coreTrips (s : State) (o : Nat) (h : Head) (e : AerErr) :
    (aerLog s o h e).coreTrips = s.coreTrips := aerLog_proj (·.coreTrips) (fun _ _ => rfl) (fun _ _ => rfl) _ _ _ _
@[simp] theorem aerLog_coresOut (s : State) (o : Nat) (h : Head) (e : AerErr) :
    (aerLog s o h e).coresOut = s.coresOut := aerLog_proj (·.coresOut) (fun _ _ => rfl) (fun _ _ => rfl) _ _ _ _
@[simp] theorem aerLog_qos (s : State) (o : Nat) (h : Head) (e : AerErr) :
    (aerLog s o h e).qos = s.qos := aerLog_proj (·.qos) (fun _ _ => rfl) (fun _ _ => rfl) _ _ _ _
@[simp] theorem aerLog_pcs (s : State) (o : Nat) (h : Head) (e : AerErr) :
    (aerLog s o h e).pcs = s.pcs := aerLog_proj (·.pcs) (fun _ _ => rfl) (fun _ _ => rfl) _ _ _ _
@[simp] theorem aerLog_portDiesOut (s : State) (o : Nat) (h : Head) (e : AerErr) :
    (aerLog s o h e).portDiesOut = s.portDiesOut := aerLog_proj (·.portDiesOut) (fun _ _ => rfl) (fun _ _ => rfl) _ _ _ _
@[simp] theorem aerLog_clustersOut (s : State) (o : Nat) (h : Head) (e : AerErr) :
    (aerLog s o h e).clustersOut = s.clustersOut := aerLog_proj (·.clustersOut) (fun _ _ => rfl) (fun _ _ => rfl) _ _ _ _
@[simp] theorem aerLog_resetting (s : State) (o : Nat) (h : Head) (e : AerErr) :
    (aerLog s o h e).resetting = s.resetting := aerLog_proj (·.resetting) (fun _ _ => rfl) (fun _ _ => rfl) _ _ _ _
@[simp] theorem aerLog_stores (s : State) (o : Nat) (h : Head) (e : AerErr) :
    (aerLog s o h e).stores = s.stores := aerLog_proj (·.stores) (fun _ _ => rfl) (fun _ _ => rfl) _ _ _ _
@[simp] theorem aerLog_repaired (s : State) (o : Nat) (h : Head) (e : AerErr) :
    (aerLog s o h e).repaired = s.repaired := aerLog_proj (·.repaired) (fun _ _ => rfl) (fun _ _ => rfl) _ _ _ _
@[simp] theorem aerLog_ras (s : State) (o : Nat) (h : Head) (e : AerErr) :
    (aerLog s o h e).ras = s.ras := aerLog_proj (·.ras) (fun _ _ => rfl) (fun _ _ => rfl) _ _ _ _
@[simp] theorem aerLog_cairn (s : State) (o : Nat) (h : Head) (e : AerErr) :
    (aerLog s o h e).cairn = s.cairn := aerLog_proj (·.cairn) (fun _ _ => rfl) (fun _ _ => rfl) _ _ _ _
@[simp] theorem aerLog_belay (s : State) (o : Nat) (h : Head) (e : AerErr) :
    (aerLog s o h e).belay = s.belay := aerLog_proj (·.belay) (fun _ _ => rfl) (fun _ _ => rfl) _ _ _ _
@[simp] theorem aerLog_sessions (s : State) (o : Nat) (h : Head) (e : AerErr) :
    (aerLog s o h e).sessions = s.sessions := aerLog_proj (·.sessions) (fun _ _ => rfl) (fun _ _ => rfl) _ _ _ _
@[simp] theorem aerLog_pins (s : State) (o : Nat) (h : Head) (e : AerErr) :
    (aerLog s o h e).pins = s.pins := aerLog_proj (·.pins) (fun _ _ => rfl) (fun _ _ => rfl) _ _ _ _
@[simp] theorem headOf_aerLog (s : State) (o : Nat) (h : Head) (e : AerErr) (a : Nat) :
    headOf (aerLog s o h e) a = headOf s a := aerLog_proj (fun u => headOf u a) (fun _ _ => rfl) (fun _ _ => rfl) _ _ _ _
@[simp] theorem partOf_aerLog (s : State) (o : Nat) (h : Head) (e : AerErr) (a : Nat) :
    partOf (aerLog s o h e) a = partOf s a := aerLog_proj (fun u => partOf u a) (fun _ _ => rfl) (fun _ _ => rfl) _ _ _ _
@[simp] theorem pcOf_aerLog (s : State) (o : Nat) (h : Head) (e : AerErr) (a : Nat) :
    pcOf (aerLog s o h e) a = pcOf s a := aerLog_proj (fun u => pcOf u a) (fun _ _ => rfl) (fun _ _ => rfl) _ _ _ _
@[simp] theorem slotOf_aerLog (s : State) (o : Nat) (h : Head) (e : AerErr) (a : Nat) :
    slotOf (aerLog s o h e) a = slotOf s a := aerLog_proj (fun u => slotOf u a) (fun _ _ => rfl) (fun _ _ => rfl) _ _ _ _
@[simp] theorem hget_aerLog (s : State) (o : Nat) (h : Head) (e : AerErr) (c : Blk) (a : Nat) :
    hget (aerLog s o h e) c a = hget s c a := aerLog_proj (fun u => hget u c a) (fun _ _ => rfl) (fun _ _ => rfl) _ _ _ _
@[simp] theorem fget_aerLog (s : State) (o : Nat) (h : Head) (e : AerErr) (q : Fld) (k l : Nat) :
    fget (aerLog s o h e) q k l = fget s q k l := aerLog_proj (fun u => fget u q k l) (fun _ _ => rfl) (fun _ _ => rfl) _ _ _ _

/-! ### The bit of an event -/

/-- A header's EVT_STATUS bits that are set stay set. -/
theorem eventBit_bit (s : State) (b : Blk) (i bit : Nat) (stage : State → State × Bool)
    (hs : ∀ u, (stage u).1.hdr = u.hdr) :
    (hget (eventBit s b i bit stage).1 b i).evtStatus = (hget s b i).evtStatus ||| (1#64 <<< bit) := by
  have h1 : ∀ u, hget (stage u).1 b i = hget u b i := fun u => by unfold hget; rw [hs]
  unfold eventBit
  dsimp only
  split
  · rw [hget_signalVec, h1, hget_hupd_self]
  · rw [h1, hget_hupd_self]

theorem eventBit_other (s : State) {b c : Blk} {i k : Nat} (bit : Nat) (stage : State → State × Bool)
    (hs : ∀ u, (stage u).1.hdr = u.hdr) (h : c ≠ b ∨ k ≠ i) :
    hget (eventBit s b i bit stage).1 c k = hget s c k := by
  have h1 : ∀ u, hget (stage u).1 c k = hget u c k := fun u => by unfold hget; rw [hs]
  unfold eventBit
  dsimp only
  split
  · rw [hget_signalVec, h1, hget_hupd_ne _ _ h]
  · rw [h1, hget_hupd_ne _ _ h]

theorem stageRec_hdr (s : State) (r : CRec) : (stageRec s r).1.hdr = s.hdr :=
  stageRec_proj (·.hdr) (fun _ _ => rfl) (fun _ _ => rfl) s r

/-- A latch that overflows sets a bit more of CAIRN.EVT_STATUS and leaves every other header. -/
theorem noteOverflow_mono (x : State × Bool) (b : Blk) (i n : Nat) (h : (hget x.1 b i).evtStatus.getLsbD n = true) :
    (hget (noteOverflow x) b i).evtStatus.getLsbD n = true := by
  unfold noteOverflow
  split
  · have hs : ∀ u : State, ((if recorded u .cairn 0 .warning then
        stageRec u (recOf u .cairn 0 (Evt.cairnOverflow).code .warning none [])
      else (u, false) : State × Bool)).1.hdr = u.hdr := by
      intro u
      split
      · exact stageRec_hdr _ _
      · rfl
    by_cases hb : b = .cairn ∧ i = 0
    · obtain ⟨rfl, rfl⟩ := hb
      rw [eventBit_bit _ _ _ _ _ hs, BitVec.getLsbD_or, h, Bool.true_or]
    · rw [eventBit_other _ _ _ hs (by
        by_cases hb1 : b = .cairn
        · exact .inr fun hi => hb ⟨hb1, hi⟩
        · exact .inl hb1)]
      exact h
  · exact h

/-- A bit that is set stays set through an event. -/
theorem raise_mono (s : State) (e : Evt) (i : Nat) (part : Option Nat) (pl : List Byte) (src : Option Nat)
    (sev : Option Sev) (b : Blk) (k n : Nat) (h : (hget s b k).evtStatus.getLsbD n = true) :
    (hget (raise s e i part pl src sev) b k).evtStatus.getLsbD n = true := by
  unfold raise
  dsimp only
  refine noteOverflow_mono _ _ _ _ ?_
  have hs : ∀ u : State, ((if recorded u e.info.1 (src.getD i) (sev.getD e.info.2.2) then
      stageRec u (recOf u e.info.1 (src.getD i) e.code (sev.getD e.info.2.2)
        (if msixOwner e.info.1 i < 16 then some (msixOwner e.info.1 i) else part) pl)
    else (u, false) : State × Bool)).1.hdr = u.hdr := by
    intro u
    split
    · exact stageRec_hdr _ _
    · rfl
  by_cases hb : b = e.info.1 ∧ k = i
  · obtain ⟨rfl, rfl⟩ := hb
    rw [eventBit_bit _ _ _ _ _ hs, BitVec.getLsbD_or, h, Bool.true_or]
  · rw [eventBit_other _ _ _ hs (by
      by_cases hb1 : b = e.info.1
      · exact .inr fun hi => hb ⟨hb1, hi⟩
      · exact .inl hb1)]
    exact h

/-- An event sets its bit. -/
theorem raise_signalled (s : State) (e : Evt) (i : Nat) (part : Option Nat) (pl : List Byte) (src : Option Nat)
    (sev : Option Sev) : Signalled (raise s e i part pl src sev) e i := by
  unfold Signalled raise
  dsimp only
  refine noteOverflow_mono _ _ _ _ ?_
  have hs : ∀ u : State, ((if recorded u e.info.1 (src.getD i) (sev.getD e.info.2.2) then
      stageRec u (recOf u e.info.1 (src.getD i) e.code (sev.getD e.info.2.2)
        (if msixOwner e.info.1 i < 16 then some (msixOwner e.info.1 i) else part) pl)
    else (u, false) : State × Bool)).1.hdr = u.hdr := by
    intro u
    split
    · exact stageRec_hdr _ _
    · rfl
  rw [eventBit_bit _ _ _ _ _ hs, BitVec.getLsbD_or]
  have hb : (1#64 <<< e.info.2.1).getLsbD e.info.2.1 = true := by cases e <;> decide
  rw [hb, Bool.or_true]

theorem signalled_raise (s : State) (e f : Evt) (i k : Nat) (part : Option Nat) (pl : List Byte) (src : Option Nat)
    (sev : Option Sev) (h : Signalled s f k) : Signalled (raise s e i part pl src sev) f k := raise_mono _ _ _ _ _ _ _ _ _ _ h

theorem deny_signalled (s : State) (v : View) : Signalled (deny s v) .roleWriteDenied := by
  unfold deny
  exact raise_signalled _ _ _ _ _ _ _

@[simp] theorem deny_count (s : State) (v : View) :
    fget (deny s v) .roleDeniedWrites = min (fget s .roleDeniedWrites + 1) (2 ^ (Fld.roleDeniedWrites).desc.w - 1) := by
  unfold deny
  exact (fget_raise _ _ _ _ _ _ _ 0 0 (by decide)).trans (fget_finc_self _ _ _ _)

end Sys2Proof.Machine
end

