-- ==== Sys2Proof/Laws/Moves.lean ====
section
/-! SUPPORT. What every command keeps (`Keeps`) and which kinds of state it may change, for the operations that all
meanings are made of; the lemmas about the functions of each file stand in `Laws/Moves<File>.lean`. A set of kinds
is a number whose bits are `Kind.num`. -/

set_option linter.all false

namespace Sys2Proof.Machine

open Sys2Proof

/-- The place of a kind in a set of kinds. -/
def Kind.num : Kind → Nat
  | .messages => 0
  | .draws => 1
  | .headers => 2
  | .events => 3
  | .memory => 4
  | .boot => 5
  | .flash => 6
  | .power => 7
  | .timebase => 8
  | .heads => 9
  | .config => 10
  | .decoders => 11
  | .partitions => 12
  | .extents => 13
  | .fmLog => 14
  | .directory => 15
  | .snapshots => 16
  | .frames => 17
  | .scree => 18
  | .hints => 19
  | .compression => 20
  | .rings => 21
  | .ringMemory => 22
  | .jobs => 23
  | .steps => 24
  | .regulation => 25
  | .controllers => 26
  | .outOfService => 27
  | .ras => 28
  | .pair => 29
  | .sessions => 30
  | .pins => 31
  | .page b => match b with
    | .id => 32
    | .port => 33
    | .part => 34
    | .ext => 35
    | .dir => 36
    | .tier => 37
    | .cmp => 38
    | .job => 39
    | .qos => 40
    | .pc => 41
    | .store => 42
    | .ras => 43
    | .cairn => 44
    | .belay => 45
    | .pwr => 46
    | .pin => 47
    | .role => 48
    | .pitch => 49

/-- The kind that holds a register field. -/
def Fld.kind (f : Fld) : Kind := if f = .cairnCoalesceStatsLatched then .events else .page f.desc.blk

/-- A set of kinds lies in another. -/
def Sub (a b : Nat) : Prop := Nat.lor a b = b

theorem Sub.trans {a b c : Nat} (h : Sub a b) (k : Sub b c) : Sub a c := by
  unfold Sub at *
  rw [← k]
  show a ||| (b ||| c) = b ||| c
  rw [← Nat.or_assoc]
  exact congrArg (· ||| c) h

theorem Sub.up {a b F : Nat} (hF : Sub b F) (h : Nat.lor a b = b) : Sub a F := Sub.trans h hF

theorem Sub.bit {n F i : Nat} (h : Sub n F) (hn : n.testBit i = true) : F.testBit i = true := by
  have e : n ||| F = F := h
  rw [← e, Nat.testBit_or, hn, Bool.true_or]

theorem Sub.no {n F i : Nat} (h : Sub n F) (hk : F.testBit i = false) (hn : n.testBit i = true) : False := by
  rw [h.bit hn] at hk
  cases hk

/-- What a command keeps, and the kinds of state that it leaves. -/
structure Moves (F : Nat) (s t : State) : Prop where
  keeps : Keeps s t
  frame : ∀ k : Kind, F.testBit k.num = false → Same k s t

theorem Keeps.refl (s : State) : Keeps s s := ⟨rfl, ⟨[], rfl⟩, Nat.le_refl _, id, id⟩

theorem Keeps.trans {s t u : State} (h : Keeps s t) (k : Keeps t u) : Keeps s u := by
  obtain ⟨l, hl⟩ := h.out
  obtain ⟨m, hm⟩ := k.out
  exact ⟨k.pending.trans h.pending, ⟨m ++ l, by rw [hm, hl, List.append_assoc]⟩, Nat.le_trans h.free k.free,
    fun x => k.memories (h.memories x), fun x => k.fields (h.fields x)⟩

theorem Same.refl (k : Kind) (s : State) : Same k s s := by
  cases k <;> simp [Same]

theorem Same.trans {k : Kind} {s t u : State} (h : Same k s t) (g : Same k t u) : Same k s u := by
  cases k <;> simp_all [Same]

theorem Moves.refl (F : Nat) (s : State) : Moves F s s := ⟨.refl s, fun k _ => .refl k s⟩

theorem Moves.trans {F : Nat} {s t u : State} (h : Moves F s t) (k : Moves F t u) : Moves F s u :=
  ⟨h.keeps.trans k.keeps, fun q hq => (h.frame q hq).trans (k.frame q hq)⟩

theorem memoriesWf_iff (s : State) :
    s.memoriesWf = true ↔ Memory.wf s.mem = true ∧ Memory.wf s.ssd = true ∧ Memory.wf s.ringMem = true := by
  simp [State.memoriesWf, and_assoc]

/-- An update that leaves the memories, the registers and the messages. -/
theorem Moves.upd {F : Nat} {s t : State}
    {x_hdr : Assoc PageId Hdr} {x_poison : List Nat} {x_damage : List (Nat × Nat × Byte)} {x_boot : BootState}
      {x_flash : Flash} {x_power : PowerState} {x_tb : Timebase} {x_heads : Assoc Nat HeadState} {x_cfgs : Assoc
      Nat PartCfg} {x_hdms : Assoc Nat Hdm} {x_parts : Assoc Nat PartState} {x_exts : List Extent} {x_attrDue :
      List (Nat × BitVec 32 × BitVec 32)} {x_reserve : List Nat} {x_sanReqs : List (List Nat)} {x_sanHalf : List
      (Bool × Nat)} {x_fmLog : List Notify} {x_dir : List DirEntry} {x_trans : List DirTrans} {x_lineq : List
      Req} {x_snaps : List Snap} {x_snapCmds : Assoc Nat SnapCmd} {x_frames : List Frame} {x_pinMarks : Assoc Nat
      (List Nat)} {x_lbaMap : Assoc Nat Nat} {x_locks : List StripeLock} {x_ios : List Io} {x_nextIo : Nat}
      {x_slots : Assoc Nat SlotState} {x_rebuild : Assoc Nat Nat} {x_tier : TierState} {x_draining : List Nat}
      {x_hints : Assoc Nat (List HintEntry)} {x_index : Assoc Nat IdxEntry} {x_segs : Assoc Nat SegHeader}
      {x_cache : List CacheEntry} {x_expPitch : Assoc Nat (Nat × Nat)} {x_compactQ : List Nat} {x_stale : List
      Nat} {x_damaged : Assoc Nat Nat} {x_rings : Assoc Nat RingState} {x_jobs : List Job} {x_windows : List
      Window} {x_applied : List (Nat × Nat)} {x_steps : List Step} {x_coreTrips : Assoc Nat Nat} {x_coresOut :
      List Nat} {x_qos : QosState} {x_pcs : Assoc Nat PcState} {x_portDiesOut : List Nat} {x_clustersOut : List
      Nat} {x_resetting : Assoc Nat (List Req)} {x_stores : Assoc Nat BankState} {x_repaired : List (Nat × Nat ×
      Nat)} {x_ras : RasState} {x_cairn : CairnState} {x_belay : BelayState} {x_sessions : Assoc Nat
      SessionState} {x_pins : Assoc Nat PinState}
    (h : Moves F s t) (c_headers : x_hdr = t.hdr ∨ Sub 4 F) (c_events : x_cairn = t.cairn ∨ Sub 8 F) (c_memory :
      (x_poison, x_damage) = (t.poison, t.damage) ∨ Sub 16 F) (c_boot : x_boot = t.boot ∨ Sub 32 F) (c_flash :
      x_flash = t.flash ∨ Sub 64 F) (c_power : x_power = t.power ∨ Sub 128 F) (c_timebase : x_tb = t.tb ∨ Sub 256
      F) (c_heads : x_heads = t.heads ∨ Sub 512 F) (c_config : x_cfgs = t.cfgs ∨ Sub 1024 F) (c_decoders : x_hdms
      = t.hdms ∨ Sub 2048 F) (c_partitions : x_parts = t.parts ∨ Sub 4096 F) (c_extents : (x_exts, x_attrDue,
      x_reserve, x_sanReqs, x_sanHalf) = (t.exts, t.attrDue, t.reserve, t.sanReqs, t.sanHalf) ∨ Sub 8192 F)
      (c_fmLog : x_fmLog = t.fmLog ∨ Sub 16384 F) (c_directory : (x_dir, x_trans, x_lineq) = (t.dir, t.trans,
      t.lineq) ∨ Sub 32768 F) (c_snapshots : (x_snaps, x_snapCmds) = (t.snaps, t.snapCmds) ∨ Sub 65536 F)
      (c_frames : (x_frames, x_pinMarks, x_draining) = (t.frames, t.pinMarks, t.draining) ∨ Sub 131072 F)
      (c_scree : (x_lbaMap, x_locks, x_ios, x_nextIo, x_slots, x_rebuild, x_tier) = (t.lbaMap, t.locks, t.ios,
      t.nextIo, t.slots, t.rebuild, t.tier) ∨ Sub 262144 F) (c_hints : x_hints = t.hints ∨ Sub 524288 F)
      (c_compression : (x_index, x_segs, x_cache, x_expPitch, x_compactQ, x_stale, x_damaged) = (t.index, t.segs,
      t.cache, t.expPitch, t.compactQ, t.stale, t.damaged) ∨ Sub 1048576 F) (c_rings : x_rings = t.rings ∨ Sub
      2097152 F) (c_jobs : (x_jobs, x_windows, x_applied) = (t.jobs, t.windows, t.applied) ∨ Sub 8388608 F)
      (c_steps : (x_steps, x_coreTrips, x_coresOut) = (t.steps, t.coreTrips, t.coresOut) ∨ Sub 16777216 F)
      (c_regulation : x_qos = t.qos ∨ Sub 33554432 F) (c_controllers : (x_pcs, x_stores) = (t.pcs, t.stores) ∨
      Sub 67108864 F) (c_outOfService : (x_portDiesOut, x_clustersOut, x_resetting, x_repaired) = (t.portDiesOut,
      t.clustersOut, t.resetting, t.repaired) ∨ Sub 134217728 F) (c_ras : x_ras = t.ras ∨ Sub 268435456 F)
      (c_pair : x_belay = t.belay ∨ Sub 536870912 F) (c_sessions : x_sessions = t.sessions ∨ Sub 1073741824 F)
      (c_pins : x_pins = t.pins ∨ Sub 2147483648 F) :
    Moves F s ⟨t.pending, t.out, t.free, t.regs, t.lag, x_hdr, t.mem, x_poison, x_damage, x_boot, x_flash,
      x_power, x_tb, x_heads, x_cfgs, x_hdms, x_parts, x_exts, x_attrDue, x_reserve, x_sanReqs, x_sanHalf,
      x_fmLog, x_dir, x_trans, x_lineq, x_snaps, x_snapCmds, x_frames, x_pinMarks, x_lbaMap, t.ssd, x_locks,
      x_ios, x_nextIo, x_slots, x_rebuild, x_tier, x_draining, x_hints, x_index, x_segs, x_cache, x_expPitch,
      x_compactQ, x_stale, x_damaged, x_rings, t.ringMem, x_jobs, x_windows, x_applied, x_steps, x_coreTrips,
      x_coresOut, x_qos, x_pcs, x_portDiesOut, x_clustersOut, x_resetting, x_stores, x_repaired, x_ras, x_cairn,
      x_belay, x_sessions, x_pins⟩ := by
  refine h.trans ⟨⟨rfl, ⟨[], rfl⟩, Nat.le_refl _, id, id⟩, fun k hk => ?_⟩
  cases k with
  | messages => exact rfl
  | draws => exact rfl
  | headers =>
    rcases c_headers with e | e
    · exact e
    · exact (e.no hk (by decide)).elim
  | events =>
    rcases c_events with e | e
    · exact ⟨e, rfl⟩
    · exact (e.no hk (by decide)).elim
  | memory =>
    rcases c_memory with e | e
    · simp only [Prod.mk.injEq] at e
      obtain ⟨e0, e1⟩ := e
      exact ⟨rfl, e0, e1⟩
    · exact (e.no hk (by decide)).elim
  | boot =>
    rcases c_boot with e | e
    · exact e
    · exact (e.no hk (by decide)).elim
  | flash =>
    rcases c_flash with e | e
    · exact e
    · exact (e.no hk (by decide)).elim
  | power =>
    rcases c_power with e | e
    · exact e
    · exact (e.no hk (by decide)).elim
  | timebase =>
    rcases c_timebase with e | e
    · exact e
    · exact (e.no hk (by decide)).elim
  | heads =>
    rcases c_heads with e | e
    · exact e
    · exact (e.no hk (by decide)).elim
  | config =>
    rcases c_config with e | e
    · exact e
    · exact (e.no hk (by decide)).elim
  | decoders =>
    rcases c_decoders with e | e
    · exact e
    · exact (e.no hk (by decide)).elim
  | partitions =>
    rcases c_partitions with e | e
    · exact e
    · exact (e.no hk (by decide)).elim
  | extents =>
    rcases c_extents with e | e
    · simp only [Prod.mk.injEq] at e
      obtain ⟨e0, e1, e2, e3, e4⟩ := e
      exact ⟨e0, e1, e2, e3, e4⟩
    · exact (e.no hk (by decide)).elim
  | fmLog =>
    rcases c_fmLog with e | e
    · exact e
    · exact (e.no hk (by decide)).elim
  | directory =>
    rcases c_directory with e | e
    · simp only [Prod.mk.injEq] at e
      obtain ⟨e0, e1, e2⟩ := e
      exact ⟨e0, e1, e2⟩
    · exact (e.no hk (by decide)).elim
  | snapshots =>
    rcases c_snapshots with e | e
    · simp only [Prod.mk.injEq] at e
      obtain ⟨e0, e1⟩ := e
      exact ⟨e0, e1⟩
    · exact (e.no hk (by decide)).elim
  | frames =>
    rcases c_frames with e | e
    · simp only [Prod.mk.injEq] at e
      obtain ⟨e0, e1, e2⟩ := e
      exact ⟨e0, e1, e2⟩
    · exact (e.no hk (by decide)).elim
  | scree =>
    rcases c_scree with e | e
    · simp only [Prod.mk.injEq] at e
      obtain ⟨e0, e1, e2, e3, e4, e5, e6⟩ := e
      exact ⟨e0, rfl, e1, e2, e3, e4, e5, e6⟩
    · exact (e.no hk (by decide)).elim
  | hints =>
    rcases c_hints with e | e
    · exact e
    · exact (e.no hk (by decide)).elim
  | compression =>
    rcases c_compression with e | e
    · simp only [Prod.mk.injEq] at e
      obtain ⟨e0, e1, e2, e3, e4, e5, e6⟩ := e
      exact ⟨e0, e1, e2, e3, e4, e5, e6⟩
    · exact (e.no hk (by decide)).elim
  | rings =>
    rcases c_rings with e | e
    · exact e
    · exact (e.no hk (by decide)).elim
  | ringMemory => exact rfl
  | jobs =>
    rcases c_jobs with e | e
    · simp only [Prod.mk.injEq] at e
      obtain ⟨e0, e1, e2⟩ := e
      exact ⟨e0, e1, e2⟩
    · exact (e.no hk (by decide)).elim
  | steps =>
    rcases c_steps with e | e
    · simp only [Prod.mk.injEq] at e
      obtain ⟨e0, e1, e2⟩ := e
      exact ⟨e0, e1, e2⟩
    · exact (e.no hk (by decide)).elim
  | regulation =>
    rcases c_regulation with e | e
    · exact e
    · exact (e.no hk (by decide)).elim
  | controllers =>
    rcases c_controllers with e | e
    · simp only [Prod.mk.injEq] at e
      obtain ⟨e0, e1⟩ := e
      exact ⟨e0, e1⟩
    · exact (e.no hk (by decide)).elim
  | outOfService =>
    rcases c_outOfService with e | e
    · simp only [Prod.mk.injEq] at e
      obtain ⟨e0, e1, e2, e3⟩ := e
      exact ⟨e0, e1, e2, e3⟩
    · exact (e.no hk (by decide)).elim
  | ras =>
    rcases c_ras with e | e
    · exact e
    · exact (e.no hk (by decide)).elim
  | pair =>
    rcases c_pair with e | e
    · exact e
    · exact (e.no hk (by decide)).elim
  | sessions =>
    rcases c_sessions with e | e
    · exact e
    · exact (e.no hk (by decide)).elim
  | pins =>
    rcases c_pins with e | e
    · exact e
    · exact (e.no hk (by decide)).elim
  | page b => exact fun f i j _ _ => ⟨rfl, rfl⟩

/-- An update of the memories by operations that keep their form. -/
theorem Moves.updMem {F : Nat} {s t : State}
    {x_hdr : Assoc PageId Hdr} {x_mem : List Host.Cell} {x_poison : List Nat} {x_damage : List (Nat × Nat ×
      Byte)} {x_boot : BootState} {x_flash : Flash} {x_power : PowerState} {x_tb : Timebase} {x_heads : Assoc Nat
      HeadState} {x_cfgs : Assoc Nat PartCfg} {x_hdms : Assoc Nat Hdm} {x_parts : Assoc Nat PartState} {x_exts :
      List Extent} {x_attrDue : List (Nat × BitVec 32 × BitVec 32)} {x_reserve : List Nat} {x_sanReqs : List
      (List Nat)} {x_sanHalf : List (Bool × Nat)} {x_fmLog : List Notify} {x_dir : List DirEntry} {x_trans : List
      DirTrans} {x_lineq : List Req} {x_snaps : List Snap} {x_snapCmds : Assoc Nat SnapCmd} {x_frames : List
      Frame} {x_pinMarks : Assoc Nat (List Nat)} {x_lbaMap : Assoc Nat Nat} {x_ssd : List Host.Cell} {x_locks :
      List StripeLock} {x_ios : List Io} {x_nextIo : Nat} {x_slots : Assoc Nat SlotState} {x_rebuild : Assoc Nat
      Nat} {x_tier : TierState} {x_draining : List Nat} {x_hints : Assoc Nat (List HintEntry)} {x_index : Assoc
      Nat IdxEntry} {x_segs : Assoc Nat SegHeader} {x_cache : List CacheEntry} {x_expPitch : Assoc Nat (Nat ×
      Nat)} {x_compactQ : List Nat} {x_stale : List Nat} {x_damaged : Assoc Nat Nat} {x_rings : Assoc Nat
      RingState} {x_ringMem : List Host.Cell} {x_jobs : List Job} {x_windows : List Window} {x_applied : List
      (Nat × Nat)} {x_steps : List Step} {x_coreTrips : Assoc Nat Nat} {x_coresOut : List Nat} {x_qos : QosState}
      {x_pcs : Assoc Nat PcState} {x_portDiesOut : List Nat} {x_clustersOut : List Nat} {x_resetting : Assoc Nat
      (List Req)} {x_stores : Assoc Nat BankState} {x_repaired : List (Nat × Nat × Nat)} {x_ras : RasState}
      {x_cairn : CairnState} {x_belay : BelayState} {x_sessions : Assoc Nat SessionState} {x_pins : Assoc Nat
      PinState}
    (h : Moves F s t) (hm : Memory.wf t.mem = true → Memory.wf x_mem = true)
    (hd : Memory.wf t.ssd = true → Memory.wf x_ssd = true)
    (hr : Memory.wf t.ringMem = true → Memory.wf x_ringMem = true) (c_headers : x_hdr = t.hdr ∨ Sub 4 F)
      (c_events : x_cairn = t.cairn ∨ Sub 8 F) (c_memory : (x_mem, x_poison, x_damage) = (t.mem, t.poison,
      t.damage) ∨ Sub 16 F) (c_boot : x_boot = t.boot ∨ Sub 32 F) (c_flash : x_flash = t.flash ∨ Sub 64 F)
      (c_power : x_power = t.power ∨ Sub 128 F) (c_timebase : x_tb = t.tb ∨ Sub 256 F) (c_heads : x_heads =
      t.heads ∨ Sub 512 F) (c_config : x_cfgs = t.cfgs ∨ Sub 1024 F) (c_decoders : x_hdms = t.hdms ∨ Sub 2048 F)
      (c_partitions : x_parts = t.parts ∨ Sub 4096 F) (c_extents : (x_exts, x_attrDue, x_reserve, x_sanReqs,
      x_sanHalf) = (t.exts, t.attrDue, t.reserve, t.sanReqs, t.sanHalf) ∨ Sub 8192 F) (c_fmLog : x_fmLog =
      t.fmLog ∨ Sub 16384 F) (c_directory : (x_dir, x_trans, x_lineq) = (t.dir, t.trans, t.lineq) ∨ Sub 32768 F)
      (c_snapshots : (x_snaps, x_snapCmds) = (t.snaps, t.snapCmds) ∨ Sub 65536 F) (c_frames : (x_frames,
      x_pinMarks, x_draining) = (t.frames, t.pinMarks, t.draining) ∨ Sub 131072 F) (c_scree : (x_lbaMap, x_ssd,
      x_locks, x_ios, x_nextIo, x_slots, x_rebuild, x_tier) = (t.lbaMap, t.ssd, t.locks, t.ios, t.nextIo,
      t.slots, t.rebuild, t.tier) ∨ Sub 262144 F) (c_hints : x_hints = t.hints ∨ Sub 524288 F) (c_compression :
      (x_index, x_segs, x_cache, x_expPitch, x_compactQ, x_stale, x_damaged) = (t.index, t.segs, t.cache,
      t.expPitch, t.compactQ, t.stale, t.damaged) ∨ Sub 1048576 F) (c_rings : x_rings = t.rings ∨ Sub 2097152 F)
      (c_ringMemory : x_ringMem = t.ringMem ∨ Sub 4194304 F) (c_jobs : (x_jobs, x_windows, x_applied) = (t.jobs,
      t.windows, t.applied) ∨ Sub 8388608 F) (c_steps : (x_steps, x_coreTrips, x_coresOut) = (t.steps,
      t.coreTrips, t.coresOut) ∨ Sub 16777216 F) (c_regulation : x_qos = t.qos ∨ Sub 33554432 F) (c_controllers :
      (x_pcs, x_stores) = (t.pcs, t.stores) ∨ Sub 67108864 F) (c_outOfService : (x_portDiesOut, x_clustersOut,
      x_resetting, x_repaired) = (t.portDiesOut, t.clustersOut, t.resetting, t.repaired) ∨ Sub 134217728 F)
      (c_ras : x_ras = t.ras ∨ Sub 268435456 F) (c_pair : x_belay = t.belay ∨ Sub 536870912 F) (c_sessions :
      x_sessions = t.sessions ∨ Sub 1073741824 F) (c_pins : x_pins = t.pins ∨ Sub 2147483648 F) :
    Moves F s ⟨t.pending, t.out, t.free, t.regs, t.lag, x_hdr, x_mem, x_poison, x_damage, x_boot, x_flash,
      x_power, x_tb, x_heads, x_cfgs, x_hdms, x_parts, x_exts, x_attrDue, x_reserve, x_sanReqs, x_sanHalf,
      x_fmLog, x_dir, x_trans, x_lineq, x_snaps, x_snapCmds, x_frames, x_pinMarks, x_lbaMap, x_ssd, x_locks,
      x_ios, x_nextIo, x_slots, x_rebuild, x_tier, x_draining, x_hints, x_index, x_segs, x_cache, x_expPitch,
      x_compactQ, x_stale, x_damaged, x_rings, x_ringMem, x_jobs, x_windows, x_applied, x_steps, x_coreTrips,
      x_coresOut, x_qos, x_pcs, x_portDiesOut, x_clustersOut, x_resetting, x_stores, x_repaired, x_ras, x_cairn,
      x_belay, x_sessions, x_pins⟩ := by
  refine h.trans ⟨⟨rfl, ⟨[], rfl⟩, Nat.le_refl _, fun x => by
    rw [memoriesWf_iff] at x ⊢
    exact ⟨hm x.1, hd x.2.1, hr x.2.2⟩, id⟩, fun k hk => ?_⟩
  cases k with
  | messages => exact rfl
  | draws => exact rfl
  | headers =>
    rcases c_headers with e | e
    · exact e
    · exact (e.no hk (by decide)).elim
  | events =>
    rcases c_events with e | e
    · exact ⟨e, rfl⟩
    · exact (e.no hk (by decide)).elim
  | memory =>
    rcases c_memory with e | e
    · simp only [Prod.mk.injEq] at e
      obtain ⟨e0, e1, e2⟩ := e
      exact ⟨e0, e1, e2⟩
    · exact (e.no hk (by decide)).elim
  | boot =>
    rcases c_boot with e | e
    · exact e
    · exact (e.no hk (by decide)).elim
  | flash =>
    rcases c_flash with e | e
    · exact e
    · exact (e.no hk (by decide)).elim
  | power =>
    rcases c_power with e | e
    · exact e
    · exact (e.no hk (by decide)).elim
  | timebase =>
    rcases c_timebase with e | e
    · exact e
    · exact (e.no hk (by decide)).elim
  | heads =>
    rcases c_heads with e | e
    · exact e
    · exact (e.no hk (by decide)).elim
  | config =>
    rcases c_config with e | e
    · exact e
    · exact (e.no hk (by decide)).elim
  | decoders =>
    rcases c_decoders with e | e
    · exact e
    · exact (e.no hk (by decide)).elim
  | partitions =>
    rcases c_partitions with e | e
    · exact e
    · exact (e.no hk (by decide)).elim
  | extents =>
    rcases c_extents with e | e
    · simp only [Prod.mk.injEq] at e
      obtain ⟨e0, e1, e2, e3, e4⟩ := e
      exact ⟨e0, e1, e2, e3, e4⟩
    · exact (e.no hk (by decide)).elim
  | fmLog =>
    rcases c_fmLog with e | e
    · exact e
    · exact (e.no hk (by decide)).elim
  | directory =>
    rcases c_directory with e | e
    · simp only [Prod.mk.injEq] at e
      obtain ⟨e0, e1, e2⟩ := e
      exact ⟨e0, e1, e2⟩
    · exact (e.no hk (by decide)).elim
  | snapshots =>
    rcases c_snapshots with e | e
    · simp only [Prod.mk.injEq] at e
      obtain ⟨e0, e1⟩ := e
      exact ⟨e0, e1⟩
    · exact (e.no hk (by decide)).elim
  | frames =>
    rcases c_frames with e | e
    · simp only [Prod.mk.injEq] at e
      obtain ⟨e0, e1, e2⟩ := e
      exact ⟨e0, e1, e2⟩
    · exact (e.no hk (by decide)).elim
  | scree =>
    rcases c_scree with e | e
    · simp only [Prod.mk.injEq] at e
      obtain ⟨e0, e1, e2, e3, e4, e5, e6, e7⟩ := e
      exact ⟨e0, e1, e2, e3, e4, e5, e6, e7⟩
    · exact (e.no hk (by decide)).elim
  | hints =>
    rcases c_hints with e | e
    · exact e
    · exact (e.no hk (by decide)).elim
  | compression =>
    rcases c_compression with e | e
    · simp only [Prod.mk.injEq] at e
      obtain ⟨e0, e1, e2, e3, e4, e5, e6⟩ := e
      exact ⟨e0, e1, e2, e3, e4, e5, e6⟩
    · exact (e.no hk (by decide)).elim
  | rings =>
    rcases c_rings with e | e
    · exact e
    · exact (e.no hk (by decide)).elim
  | ringMemory =>
    rcases c_ringMemory with e | e
    · exact e
    · exact (e.no hk (by decide)).elim
  | jobs =>
    rcases c_jobs with e | e
    · simp only [Prod.mk.injEq] at e
      obtain ⟨e0, e1, e2⟩ := e
      exact ⟨e0, e1, e2⟩
    · exact (e.no hk (by decide)).elim
  | steps =>
    rcases c_steps with e | e
    · simp only [Prod.mk.injEq] at e
      obtain ⟨e0, e1, e2⟩ := e
      exact ⟨e0, e1, e2⟩
    · exact (e.no hk (by decide)).elim
  | regulation =>
    rcases c_regulation with e | e
    · exact e
    · exact (e.no hk (by decide)).elim
  | controllers =>
    rcases c_controllers with e | e
    · simp only [Prod.mk.injEq] at e
      obtain ⟨e0, e1⟩ := e
      exact ⟨e0, e1⟩
    · exact (e.no hk (by decide)).elim
  | outOfService =>
    rcases c_outOfService with e | e
    · simp only [Prod.mk.injEq] at e
      obtain ⟨e0, e1, e2, e3⟩ := e
      exact ⟨e0, e1, e2, e3⟩
    · exact (e.no hk (by decide)).elim
  | ras =>
    rcases c_ras with e | e
    · exact e
    · exact (e.no hk (by decide)).elim
  | pair =>
    rcases c_pair with e | e
    · exact e
    · exact (e.no hk (by decide)).elim
  | sessions =>
    rcases c_sessions with e | e
    · exact e
    · exact (e.no hk (by decide)).elim
  | pins =>
    rcases c_pins with e | e
    · exact e
    · exact (e.no hk (by decide)).elim
  | page b => exact fun f i j _ _ => ⟨rfl, rfl⟩

theorem Moves.ite {F : Nat} {s a b : State} {c : Prop} [Decidable c] (h1 : c → Moves F s a) (h2 : ¬c → Moves F s b) :
    Moves F s (if c then a else b) := by
  split
  · next h => exact h1 h
  · next h => exact h2 h

theorem Moves.foldl {α : Type} {F : Nat} {s : State} {f : State → α → State} (hf : ∀ u x, Moves F s u → Moves F s (f u x))
    (l : List α) {t : State} (h : Moves F s t) : Moves F s (l.foldl f t) := by
  induction l generalizing t with
  | nil => exact h
  | cons x r ih => exact ih (hf t x h)

theorem Moves.foldlFst {α β : Type} {F : Nat} {s : State} {f : State × β → α → State × β}
    (hf : ∀ u x, Moves F s u.1 → Moves F s (f u x).1) (l : List α) {t : State × β} (h : Moves F s t.1) :
    Moves F s (l.foldl f t).1 := by
  induction l generalizing t with
  | nil => exact h
  | cons x r ih => exact ih (hf t x h)

theorem Moves.getD {F : Nat} {s d : State} {o : Option State} (ho : ∀ u, o = some u → Moves F s u) (h : Moves F s d) :
    Moves F s (o.getD d) := by
  cases o with
  | none => exact h
  | some u => exact ho u rfl

/-! ### Fields -/

theorem fits_iff (m : Assoc RegKey Nat) : fits m = true ↔ ∀ e ∈ m, e.2 < 2 ^ e.1.fld.desc.w := by
  simp [fits]

theorem fits_filter {m : Assoc RegKey Nat} (p : RegKey × Nat → Bool) (h : fits m = true) :
    fits (m.filter p) = true := by
  rw [fits_iff] at h ⊢
  exact fun e he => h e (List.mem_filter.1 he).1

theorem fits_aset {m : Assoc RegKey Nat} {k : RegKey} {v : Nat} (h : fits m = true) (hv : v < 2 ^ k.fld.desc.w) :
    fits (aset m k v) = true := by
  rw [fits_iff]
  intro e he
  rcases List.mem_cons.1 he with rfl | he
  · exact hv
  · exact (fits_iff _).1 (fits_filter _ h) e he

/-- The reset value of every field fits its width. -/
theorem rst_lt (f : Fld) : f.desc.rst < 2 ^ f.desc.w := by
  cases f <;> decide

theorem aget_fit {m : Assoc RegKey Nat} {k : RegKey} {d : Nat} (h : fits m = true) (hd : d < 2 ^ k.fld.desc.w) :
    aget m k d < 2 ^ k.fld.desc.w := by
  induction m with
  | nil => exact hd
  | cons e r ih =>
    have hh := (fits_iff _).1 h
    unfold aget
    split
    · next he => exact he ▸ hh e (by simp)
    · exact ih ((fits_iff _).2 fun x hx => hh x (by simp [hx]))

theorem fieldsFit_iff (s : State) : s.fieldsFit = true ↔ fits s.regs = true ∧ fits s.lag = true := by
  simp [State.fieldsFit]

/-- A field reads within its width. -/
theorem fget_lt {s : State} (h : s.fieldsFit = true) (f : Fld) (i j : Nat) : fget s f i j < 2 ^ f.desc.w :=
  aget_fit (k := ⟨f, i, j⟩) ((fieldsFit_iff s).1 h).1 (rst_lt f)

theorem fcur_lt {s : State} (h : s.fieldsFit = true) (f : Fld) (i j : Nat) : fcur s f i j < 2 ^ f.desc.w :=
  aget_fit (k := ⟨f, i, j⟩) ((fieldsFit_iff s).1 h).2 (fget_lt h f i j)

/-- A state whose registers of one kind alone changed, and still fit. -/
theorem Moves.fieldsOnly {F : Nat} {s t : State} {r l : Assoc RegKey Nat} (h : Moves F s t)
    (fit : t.fieldsFit = true → fits r = true ∧ fits l = true)
    (same : ∀ (f : Fld) (i j : Nat), F.testBit f.kind.num = false →
      aget r ⟨f, i, j⟩ f.desc.rst = fget t f i j ∧ aget l ⟨f, i, j⟩ (aget r ⟨f, i, j⟩ f.desc.rst) = fcur t f i j) :
    Moves F s { t with regs := r, lag := l } := by
  refine h.trans ⟨⟨rfl, ⟨[], rfl⟩, Nat.le_refl _, id, fun x => (fieldsFit_iff _).2 (fit x)⟩, fun k hk => ?_⟩
  cases k with
  | events => exact ⟨rfl, (same .cairnCoalesceStatsLatched 0 0 hk).1⟩
  | page b =>
    intro f i j hb hf
    have hk' : F.testBit f.kind.num = false := by unfold Fld.kind; rw [if_neg hf, hb]; exact hk
    exact same f i j hk'
  | _ => simp [Same]

theorem fset_moves {F : Nat} {s t : State} {f : Fld} {v i j : Nat} (hF : Sub (2 ^ f.kind.num) F) (h : Moves F s t) :
    Moves F s (fset t f v i j) := by
  refine h.fieldsOnly (r := aset t.regs ⟨f, i, j⟩ (v % 2 ^ f.desc.w)) (l := t.lag) (fun x => ?_) (fun g k l hg => ?_)
  · have y := (fieldsFit_iff _).1 x
    exact ⟨fits_aset y.1 (Nat.mod_lt _ (by positivity)), y.2⟩
  · have e : g ≠ f := by
      rintro rfl
      rw [hF.bit (by rw [Nat.testBit_two_pow_self])] at hg
      cases hg
    have e' := fget_fset_fld t v i j k l e
    exact ⟨e', by unfold fcur; exact congrArg _ e'⟩

theorem fsetLate_moves {F : Nat} {s t : State} {f : Fld} {v i j : Nat} (hF : Sub (2 ^ f.kind.num) F)
    (h : Moves F s t) : Moves F s (fsetLate t f v i j) := by
  refine fset_moves hF (h.fieldsOnly (r := t.regs) (l := aset t.lag ⟨f, i, j⟩ (fcur t f i j)) (fun x => ?_) (fun g k l hg => ?_))
  · have y := (fieldsFit_iff _).1 x
    exact ⟨y.1, fits_aset y.2 (fcur_lt x f i j)⟩
  · have e : g ≠ f := by
      rintro rfl
      rw [hF.bit (by rw [Nat.testBit_two_pow_self])] at hg
      cases hg
    exact ⟨rfl, aget_aset_ne _ _ _ fun c => e (congrArg RegKey.fld c)⟩

theorem fsetNow_moves {F : Nat} {s t : State} {f : Fld} {v i j : Nat} (hF : Sub (2 ^ f.kind.num) F)
    (h : Moves F s t) : Moves F s (fsetNow t f v i j) := by
  refine fset_moves hF (h.fieldsOnly (r := t.regs) (l := adel t.lag ⟨f, i, j⟩) (fun x => ?_) (fun g k l hg => ?_))
  · have y := (fieldsFit_iff _).1 x
    exact ⟨y.1, fits_filter _ y.2⟩
  · have e : g ≠ f := by
      rintro rfl
      rw [hF.bit (by rw [Nat.testBit_two_pow_self])] at hg
      cases hg
    exact ⟨rfl, aget_adel_ne _ _ fun c => e (congrArg RegKey.fld c)⟩

theorem freset_moves {F : Nat} {s t : State} {f : Fld} {i j : Nat} (hF : Sub (2 ^ f.kind.num) F)
    (h : Moves F s t) : Moves F s (freset t f i j) := by
  refine h.fieldsOnly (r := adel t.regs ⟨f, i, j⟩) (l := t.lag) (fun x => ?_) (fun g k l hg => ?_)
  · have y := (fieldsFit_iff _).1 x
    exact ⟨fits_filter _ y.1, y.2⟩
  · have e : g ≠ f := by
      rintro rfl
      rw [hF.bit (by rw [Nat.testBit_two_pow_self])] at hg
      cases hg
    have e' : aget (adel t.regs ⟨f, i, j⟩) ⟨g, k, l⟩ g.desc.rst = fget t g k l :=
      aget_adel_ne _ _ fun c => e (congrArg RegKey.fld c)
    exact ⟨e', by unfold fcur; exact congrArg _ e'⟩

theorem aget_filter_of {κ α : Type} [DecidableEq κ] (m : Assoc κ α) (p : κ × α → Bool) {k : κ} (d : α)
    (h : ∀ v, p (k, v) = true) : aget (m.filter p) k d = aget m k d := by
  induction m with
  | nil => rfl
  | cons e r ih =>
    by_cases hp : p e = true
    · rw [List.filter_cons_of_pos hp]
      unfold aget
      rw [ih]
    · rw [List.filter_cons_of_neg hp, ih]
      conv => rhs; unfold aget
      rw [if_neg]
      rintro rfl
      exact hp (h _)

/-- Fields that a test selects return to their reset values. -/
theorem fclear_moves {F : Nat} {s t : State} {p : RegKey → Bool}
    (hp : ∀ (f : Fld) (i j : Nat), p ⟨f, i, j⟩ = true → F.testBit f.kind.num = true) (h : Moves F s t) :
    Moves F s (fclear t p) := by
  refine h.fieldsOnly (r := t.regs.filter fun e => !p e.1) (l := t.lag) (fun x => ?_) (fun g k l hg => ?_)
  · have y := (fieldsFit_iff _).1 x
    exact ⟨fits_filter _ y.1, y.2⟩
  · have e' : aget (t.regs.filter fun e => !p e.1) ⟨g, k, l⟩ g.desc.rst = fget t g k l :=
      aget_filter_of _ _ _ fun v => by
        show (!p ⟨g, k, l⟩) = true
        cases hq : p ⟨g, k, l⟩ with
        | false => rfl
        | true => rw [hp g k l hq] at hg; cases hg
    exact ⟨e', by unfold fcur; exact congrArg _ e'⟩

/-- Waiting values of the fields that a test selects take effect. -/
theorem fcatch_moves {F : Nat} {s t : State} {p : Fld → Bool}
    (hp : ∀ f : Fld, p f = true → F.testBit f.kind.num = true) (h : Moves F s t) : Moves F s (fcatch t p) := by
  refine h.fieldsOnly (r := t.regs) (l := t.lag.filter fun e => !p e.1.fld) (fun x => ?_) (fun g k l hg => ?_)
  · have y := (fieldsFit_iff _).1 x
    exact ⟨y.1, fits_filter _ y.2⟩
  · exact ⟨rfl, aget_filter_of _ _ _ fun v => by
      show (!p g) = true
      cases hq : p g with
      | false => rfl
      | true => rw [hp g hq] at hg; cases hg⟩

theorem fadd_moves {F : Nat} {s t : State} {f : Fld} {n i j : Nat} (hF : Sub (2 ^ f.kind.num) F) (h : Moves F s t) :
    Moves F s (fadd t f n i j) := fset_moves hF h

theorem finc_moves {F : Nat} {s t : State} {f : Fld} {i j : Nat} (hF : Sub (2 ^ f.kind.num) F) (h : Moves F s t) :
    Moves F s (finc t f i j) := fset_moves hF h

theorem fwrap_moves {F : Nat} {s t : State} {f : Fld} {i j : Nat} (hF : Sub (2 ^ f.kind.num) F) (h : Moves F s t) :
    Moves F s (fwrap t f i j) := fset_moves hF h

theorem fwadd_moves {F : Nat} {s t : State} {f : Fld} {n i j : Nat} (hF : Sub (2 ^ f.kind.num) F) (h : Moves F s t) :
    Moves F s (fwadd t f n i j) := fset_moves hF h

/-! ### Messages and draws -/

theorem emit_moves {F : Nat} {s t : State} {m : Msg} (hF : Sub 1 F) (h : Moves F s t) : Moves F s (emit t m) :=
  h.trans ⟨⟨rfl, ⟨[m], rfl⟩, Nat.le_refl _, id, id⟩, fun k hk => by
    cases k with
    | messages => rw [show Kind.num .messages = 0 from rfl, hF.bit (by decide)] at hk; cases hk
    | page b => exact fun f i j _ _ => ⟨rfl, rfl⟩
    | events => exact ⟨rfl, rfl⟩
    | _ => simp [Same]⟩

/-- Draws of free values only advance. -/
theorem Moves.drawTo {F : Nat} {s t : State} {n : Nat} (hF : Sub 2 F) (hn : t.free ≤ n) (h : Moves F s t) :
    Moves F s { t with free := n } :=
  h.trans ⟨⟨rfl, ⟨[], rfl⟩, hn, id, id⟩, fun k hk => by
    cases k with
    | draws => rw [show Kind.num .draws = 1 from rfl, hF.bit (by decide)] at hk; cases hk
    | page b => exact fun f i j _ _ => ⟨rfl, rfl⟩
    | events => exact ⟨rfl, rfl⟩
    | _ => simp [Same]⟩

theorem draw_moves {F : Nat} {s t : State} (hF : Sub 2 F) (h : Moves F s t) : Moves F s (draw t).2 :=
  h.drawTo hF (Nat.le_succ _)

theorem draw_movesE {F : Nat} {s t u : State} {d : Nat} (e : draw t = (d, u)) (hF : Sub 2 F) (h : Moves F s t) :
    Moves F s u := by
  have := draw_moves hF h
  rwa [e] at this

end Sys2Proof.Machine
end

