-- ==== Sys2Proof/Laws/MovesOps.lean ====
section
/-! SUPPORT. What the functions of Machine/Ops.lean keep, and the kinds of state they may change (`Moves`). -/

set_option linter.all false

namespace Sys2Proof.Machine

open Sys2Proof

theorem hupd_moves {F : ℕ} {s t : State} {a1 : Blk} {a2 : ℕ} {a3 : Hdr → Hdr} (hF : Sub 4 F) (h : Moves F s t) :
    Moves F s (hupd t a1 a2 a3) := by
  unfold hupd
  repeat'
    (first | (with_reducible assumption) | ((with_reducible refine hF.up ?_); rfl)
            | ((with_reducible refine Or.inr (hF.up ?_)); rfl) | (with_reducible exact Or.inl rfl)
            | (with_reducible apply Moves.upd))

theorem headUpd_moves {F : ℕ} {s t : State} {a1 : ℕ} {a2 : HeadState → HeadState} (hF : Sub 512 F) (h : Moves F s t)
    : Moves F s (headUpd t a1 a2) := by
  unfold headUpd
  repeat'
    (first | (with_reducible assumption) | ((with_reducible refine hF.up ?_); rfl)
            | ((with_reducible refine Or.inr (hF.up ?_)); rfl) | (with_reducible exact Or.inl rfl)
            | (with_reducible apply Moves.upd))

theorem cfgUpd_moves {F : ℕ} {s t : State} {a1 : ℕ} {a2 : PartCfg → PartCfg} (hF : Sub 1024 F) (h : Moves F s t) :
    Moves F s (cfgUpd t a1 a2) := by
  unfold cfgUpd
  repeat'
    (first | (with_reducible assumption) | ((with_reducible refine hF.up ?_); rfl)
            | ((with_reducible refine Or.inr (hF.up ?_)); rfl) | (with_reducible exact Or.inl rfl)
            | (with_reducible apply Moves.upd))

theorem partUpd_moves {F : ℕ} {s t : State} {a1 : ℕ} {a2 : PartState → PartState} (hF : Sub 4096 F) (h :
    Moves F s t) : Moves F s (partUpd t a1 a2) := by
  unfold partUpd
  repeat'
    (first | (with_reducible assumption) | ((with_reducible refine hF.up ?_); rfl)
            | ((with_reducible refine Or.inr (hF.up ?_)); rfl) | (with_reducible exact Or.inl rfl)
            | (with_reducible apply Moves.upd))

theorem pcUpd_moves {F : ℕ} {s t : State} {a1 : ℕ} {a2 : PcState → PcState} (hF : Sub 67108864 F) (h : Moves F s t)
    : Moves F s (pcUpd t a1 a2) := by
  unfold pcUpd
  repeat'
    (first | (with_reducible assumption) | ((with_reducible refine hF.up ?_); rfl)
            | ((with_reducible refine Or.inr (hF.up ?_)); rfl) | (with_reducible exact Or.inl rfl)
            | (with_reducible apply Moves.upd))

theorem slotUpd_moves {F : ℕ} {s t : State} {a1 : ℕ} {a2 : SlotState → SlotState} (hF : Sub 262144 F) (h :
    Moves F s t) : Moves F s (slotUpd t a1 a2) := by
  unfold slotUpd
  repeat'
    (first | (with_reducible assumption) | ((with_reducible refine hF.up ?_); rfl)
            | ((with_reducible refine Or.inr (hF.up ?_)); rfl) | (with_reducible exact Or.inl rfl)
            | (with_reducible apply Moves.upd))

theorem ringUpd_moves {F : ℕ} {s t : State} {a1 : ℕ} {a2 : ℕ} {a3 : RingState → RingState} (hF : Sub 2097152 F) (h :
    Moves F s t) : Moves F s (ringUpd t a1 a2 a3) := by
  unfold ringUpd
  repeat'
    (first | (with_reducible assumption) | ((with_reducible refine hF.up ?_); rfl)
            | ((with_reducible refine Or.inr (hF.up ?_)); rfl) | (with_reducible exact Or.inl rfl)
            | (with_reducible apply Moves.upd))

theorem touch_moves {F : ℕ} {s t : State} (hF : Sub 128 F) (h : Moves F s t) : Moves F s (touch t) := by
  unfold touch
  repeat'
    (first | (with_reducible assumption) | ((with_reducible refine hF.up ?_); rfl)
            | ((with_reducible refine Or.inr (hF.up ?_)); rfl) | (with_reducible exact Or.inl rfl)
            | (extract_lets +onlyGivenNames x; have hx : Moves F s x := ?_; (on_goal 1 => clear_value x); (on_goal 2 => subst x))
            | (extract_lets +onlyGivenNames x; clear_value x) | (with_reducible apply Moves.upd))

theorem ioTouch_moves {F : ℕ} {s t : State} {a1 : ℕ} (hF : Sub 640 F) (h : Moves F s t) : Moves F s (ioTouch t a1)
    := by
  unfold ioTouch
  repeat'
    (first | (with_reducible assumption) | ((with_reducible refine hF.up ?_); rfl)
            | ((with_reducible refine Or.inr (hF.up ?_)); rfl) | (with_reducible exact Or.inl rfl) | (intro)
            | (with_reducible apply headUpd_moves) | (with_reducible apply touch_moves)
            | (with_reducible apply Moves.upd))

end Sys2Proof.Machine
end

