-- ==== Sys2Proof/Laws/MovesFlags.lean ====
section
/-! SUPPORT. What the functions of Machine/Flags.lean keep, and the kinds of state they may change (`Moves`). -/

set_option linter.all false

namespace Sys2Proof.Machine

open Sys2Proof

theorem msixSet_moves {F : ℕ} {s t : State} {a1 : ℕ} {a2 : ℕ} {a3 : MsixEntry} (hF : Sub 1024 F) (h : Moves F s t) :
    Moves F s (msixSet t a1 a2 a3) := by
  unfold msixSet
  repeat'
    (first | (with_reducible assumption) | ((with_reducible refine hF.up ?_); rfl)
            | ((with_reducible refine Or.inr (hF.up ?_)); rfl) | (with_reducible exact Or.inl rfl) | (intro)
            | (with_reducible apply cfgUpd_moves) | (with_reducible apply Moves.upd))

theorem signalThrough_moves {F : ℕ} {s t : State} {a1 : ℕ} {a2 : ℕ} {a3 : ℕ} (hF : Sub 1025 F) (h : Moves F s t) :
    Moves F s (signalThrough t a1 a2 a3) := by
  unfold signalThrough
  repeat'
    (first | (with_reducible assumption) | ((with_reducible refine hF.up ?_); rfl)
            | ((with_reducible refine Or.inr (hF.up ?_)); rfl) | (with_reducible exact Or.inl rfl) | (intro)
            | (extract_lets +onlyGivenNames x; have hx : Moves F s x := ?_; (on_goal 1 => clear_value x); (on_goal 2 => subst x))
            | (extract_lets +onlyGivenNames x; clear_value x) | (with_reducible apply Moves.ite)
            | (with_reducible apply emit_moves) | (with_reducible apply msixSet_moves)
            | (with_reducible apply Moves.upd))

theorem signalVec_moves {F : ℕ} {s t : State} {a1 : ℕ} {a2 : ℕ} (hF : Sub 1025 F) (h : Moves F s t) : Moves F s
    (signalVec t a1 a2) := by
  unfold signalVec
  repeat'
    (first | (with_reducible assumption) | ((with_reducible refine hF.up ?_); rfl)
            | (with_reducible apply signalThrough_moves))

theorem flushVecs_moves {F : ℕ} {s t : State} {a1 : ℕ} (hF : Sub 1025 F) (h : Moves F s t) : Moves F s
    (flushVecs t a1) := by
  unfold flushVecs
  repeat'
    (first | (with_reducible assumption) | ((with_reducible refine hF.up ?_); rfl)
            | ((with_reducible refine Or.inr (hF.up ?_)); rfl) | (with_reducible exact Or.inl rfl) | (intro)
            | (with_reducible apply Moves.ite) | (split) | (with_reducible apply emit_moves)
            | (with_reducible apply msixSet_moves) | (with_reducible apply Moves.foldl)
            | (with_reducible apply Moves.upd))

theorem aerLog_moves {F : ℕ} {s t : State} {a1 : ℕ} {a2 : Head} {a3 : AerErr} (hF : Sub 1025 F) (h : Moves F s t) :
    Moves F s (aerLog t a1 a2 a3) := by
  unfold aerLog
  repeat'
    (first | (with_reducible assumption) | ((with_reducible refine hF.up ?_); rfl)
            | ((with_reducible refine Or.inr (hF.up ?_)); rfl) | (with_reducible exact Or.inl rfl) | (intro)
            | (extract_lets +onlyGivenNames x; have hx : Moves F s x := ?_; (on_goal 1 => clear_value x); (on_goal 2 => subst x))
            | (extract_lets +onlyGivenNames x; clear_value x) | (with_reducible apply Moves.ite)
            | (with_reducible apply emit_moves) | (with_reducible apply cfgUpd_moves)
            | (with_reducible apply Moves.upd))

theorem aerLink_moves {F : ℕ} {s t : State} {a1 : Head} {a2 : AerErr} (hF : Sub 1025 F) (h : Moves F s t) :
    Moves F s (aerLink t a1 a2) := by
  unfold aerLink
  repeat'
    (first | (with_reducible assumption) | ((with_reducible refine hF.up ?_); rfl) | (intro)
            | (with_reducible apply aerLog_moves) | (with_reducible apply Moves.foldl))

theorem logSignal_moves {F : ℕ} {s t : State} {a1 : Part} {a2 : ℕ} (hF : Sub 1025 F) (h : Moves F s t) : Moves F s
    (logSignal t a1 a2) := by
  unfold logSignal
  repeat'
    (first | (with_reducible assumption) | ((with_reducible refine hF.up ?_); rfl)
            | ((with_reducible refine Or.inr (hF.up ?_)); rfl) | (with_reducible exact Or.inl rfl) | (intro)
            | (split) | (with_reducible apply signalVec_moves) | (with_reducible apply Moves.upd))

theorem dcRecords_moves {F : ℕ} {s t : State} {a1 : Part} {a2 a3 : Bool} {a4 : List GranRange}
    (hF : Sub 1025 F) (h : Moves F s t) : Moves F s (dcRecords t a1 a2 a3 a4) := by
  induction a4 generalizing t with
  | nil => exact h
  | cons x rest ih =>
    unfold dcRecords
    exact ih (emit_moves (hF.up rfl) (cfgUpd_moves (hF.up rfl) h))

theorem dcEvent_moves {F : ℕ} {s t : State} {a1 : Part} {a2 : Bool} {a3 : Bool} {a4 : List GranRange} (hF
    : Sub 1025 F) (h : Moves F s t) : Moves F s (dcEvent t a1 a2 a3 a4) := by
  unfold dcEvent
  repeat'
    (first | (with_reducible assumption) | ((with_reducible refine hF.up ?_); rfl)
            | (with_reducible apply logSignal_moves) | (with_reducible apply dcRecords_moves))

theorem mediaEvent_moves {F : ℕ} {s t : State} {a1 : Part} {a2 : Bool} {a3 : ℕ} (hF : Sub 1025 F) (h : Moves F s t)
    : Moves F s (mediaEvent t a1 a2 a3) := by
  unfold mediaEvent
  repeat'
    (first | (with_reducible assumption) | ((with_reducible refine hF.up ?_); rfl)
            | ((with_reducible refine Or.inr (hF.up ?_)); rfl) | (with_reducible exact Or.inl rfl) | (intro)
            | (with_reducible apply Moves.ite) | (with_reducible apply emit_moves)
            | (with_reducible apply cfgUpd_moves) | (with_reducible apply logSignal_moves)
            | (with_reducible apply Moves.upd))

theorem stageRec_moves {F : ℕ} {s t : State} {a1 : CRec} (hF : Sub 8 F) (h : Moves F s t) :
    Moves F s (stageRec t a1).1 := by
  simp only [stageRec]
  split
  · repeat'
      (first | (with_reducible assumption)
             | ((with_reducible refine hF.up ?_); rfl)
             | ((with_reducible refine Or.inr (hF.up ?_)); rfl)
             | (with_reducible exact Or.inl rfl)
             | (with_reducible apply fadd_moves)
             | (with_reducible apply Moves.upd))
  · repeat'
      (first | (with_reducible assumption)
             | ((with_reducible refine hF.up ?_); rfl)
             | ((with_reducible refine Or.inr (hF.up ?_)); rfl)
             | (with_reducible exact Or.inl rfl)
             | (with_reducible apply Moves.upd))

theorem stageRec_movesE {F : ℕ} {s t : State} {a1 : CRec} {u : State} {x : Bool} (e : (stageRec t a1) = (u, x)) (hF
    : Sub 8 F) (h : Moves F s t) : Moves F s u := by
  have k : Moves F s (stageRec t a1).1 := stageRec_moves hF h
  rwa [e] at k

theorem eventBit_moves {F : ℕ} {s t : State} {b : Blk} {i n : Nat} {f : State → State × Bool}
    (hF : Sub 1029 F) (k : ∀ u, Moves F s u → Moves F s (f u).1) (h : Moves F s t) :
    Moves F s (eventBit t b i n f).1 := by
  have := k _ (hupd_moves (a1 := b) (a2 := i) (a3 := fun h => { h with evtStatus := h.evtStatus ||| (1#64 <<< n) })
    (hF.up rfl) h)
  simp only [eventBit]
  split
  · exact signalVec_moves (hF.up rfl) this
  · exact this

theorem noteOverflow_moves {F : ℕ} {s : State} {x : State × Bool} (hF : Sub 1037 F) (h : Moves F s x.1) :
    Moves F s (noteOverflow x) := by
  unfold noteOverflow
  split
  · refine eventBit_moves (hF.up rfl) (fun u hu => ?_) h
    split
    · exact stageRec_moves (hF.up rfl) hu
    · exact hu
  · exact h

theorem raise_moves {F : ℕ} {s t : State} {e : Evt} {i : Nat} {p : Option Nat} {pl : List Byte} {src : Option Nat}
    {sev : Option Sev} (hF : Sub 1037 F) (h : Moves F s t) : Moves F s (raise t e i p pl src sev) := by
  unfold raise
  generalize e.info = q
  obtain ⟨b, n, v⟩ := q
  refine noteOverflow_moves (hF.up rfl) (eventBit_moves (hF.up rfl) (fun u hu => ?_) h)
  split
  · exact stageRec_moves (hF.up rfl) hu
  · exact hu

theorem record_moves {F : ℕ} {s t : State} {r : Rec} {i : Nat} {p : Option Nat} {pl : List Byte}
    (hF : Sub 1037 F) (h : Moves F s t) : Moves F s (record t r i p pl) := by
  unfold record
  generalize r.info = q
  obtain ⟨b, n, v⟩ := q
  dsimp only
  split
  · exact noteOverflow_moves (hF.up rfl) (stageRec_moves (hF.up rfl) h)
  · exact h

theorem lastResort_moves {F : ℕ} {s t : State} {a1 : CRec} (hF : Sub 17592186045453 F) (h : Moves F s t) : Moves F s
    (lastResort t a1) := by
  unfold lastResort
  repeat'
    (first | (with_reducible assumption) | ((with_reducible refine hF.up ?_); rfl)
            | ((with_reducible refine Or.inr (hF.up ?_)); rfl) | (with_reducible exact Or.inl rfl) | (intro)
            | (extract_lets +onlyGivenNames x; have hx : Moves F s x := ?_; (on_goal 1 => clear_value x); (on_goal 2 => subst x))
            | (extract_lets +onlyGivenNames x; clear_value x) | (with_reducible apply Moves.ite)
            | (with_reducible apply fset_moves) | (with_reducible apply fadd_moves)
            | (with_reducible apply raise_moves) | (with_reducible apply Moves.upd))

theorem streamRec_moves {F : ℕ} {s t : State} {a1 : CRec} (hF : Sub 17592186044425 F) (h : Moves F s t) : Moves F s
    (streamRec t a1) := by
  unfold streamRec
  repeat'
    (first | (with_reducible assumption) | ((with_reducible refine hF.up ?_); rfl)
            | ((with_reducible refine Or.inr (hF.up ?_)); rfl) | (with_reducible exact Or.inl rfl) | (intro)
            | (extract_lets +onlyGivenNames x; have hx : Moves F s x := ?_; (on_goal 1 => clear_value x); (on_goal 2 => subst x))
            | (extract_lets +onlyGivenNames x; clear_value x) | (with_reducible apply Moves.ite)
            | (with_reducible apply fadd_moves) | (with_reducible apply emit_moves)
            | (with_reducible apply Moves.upd))

theorem spillStep_moves {F : ℕ} {s t : State} {a1 : ℕ} (hF : Sub 1037 F) (h : Moves F s t) : Moves F s
    (spillStep t a1) := by
  unfold spillStep
  repeat'
    (first | (with_reducible assumption) | ((with_reducible refine hF.up ?_); rfl)
            | ((with_reducible refine Or.inr (hF.up ?_)); rfl) | (with_reducible exact Or.inl rfl) | (intro)
            | (extract_lets +onlyGivenNames x; have hx : Moves F s x := ?_; (on_goal 1 => clear_value x); (on_goal 2 => subst x))
            | (extract_lets +onlyGivenNames x; clear_value x) | (with_reducible apply Moves.ite)
            | (with_reducible apply raise_moves) | (with_reducible apply Moves.upd))

theorem commitRec_moves {F : ℕ} {s t : State} {a1 : CRec} (hF : Sub 17592186045453 F) (h : Moves F s t) : Moves F s
    (commitRec t a1) := by
  unfold commitRec
  repeat'
    (first | (with_reducible assumption) | ((with_reducible refine hF.up ?_); rfl)
            | ((with_reducible refine Or.inr (hF.up ?_)); rfl) | (with_reducible exact Or.inl rfl) | (intro)
            | (extract_lets +onlyGivenNames x; have hx : Moves F s x := ?_; (on_goal 1 => clear_value x); (on_goal 2 => subst x))
            | (extract_lets +onlyGivenNames x; clear_value x) | (with_reducible apply Moves.ite)
            | (with_reducible apply fset_moves) | (with_reducible apply emit_moves)
            | (with_reducible apply lastResort_moves) | (with_reducible apply streamRec_moves)
            | (with_reducible apply spillStep_moves) | (with_reducible apply Moves.upd))

theorem commitSlot_moves {F : ℕ} {s t : State} {a1 : ℕ} (hF : Sub 17592186045453 F) (h : Moves F s t) : Moves F s
    (commitSlot t a1) := by
  unfold commitSlot
  repeat'
    (first | (with_reducible assumption) | ((with_reducible refine hF.up ?_); rfl)
            | ((with_reducible refine Or.inr (hF.up ?_)); rfl) | (with_reducible exact Or.inl rfl) | (intro)
            | (extract_lets +onlyGivenNames x; have hx : Moves F s x := ?_; (on_goal 1 => clear_value x); (on_goal 2 => subst x))
            | (extract_lets +onlyGivenNames x; clear_value x) | (split) | (with_reducible apply commitRec_moves)
            | (with_reducible apply Moves.upd))

theorem commitSummary_moves {F : ℕ} {s t : State} {a1 : ℕ} (hF : Sub 17592186045453 F) (h : Moves F s t) : Moves F s
    (commitSummary t a1) := by
  unfold commitSummary
  repeat'
    (first | (with_reducible assumption) | ((with_reducible refine hF.up ?_); rfl)
            | ((with_reducible refine Or.inr (hF.up ?_)); rfl) | (with_reducible exact Or.inl rfl)
            | (extract_lets +onlyGivenNames x; have hx : Moves F s x := ?_; (on_goal 1 => clear_value x); (on_goal 2 => subst x))
            | (extract_lets +onlyGivenNames x; clear_value x) | (with_reducible apply fadd_moves)
            | (with_reducible apply commitRec_moves) | (with_reducible apply Moves.upd))

theorem commitBatch_moves {F : ℕ} {s t : State} {a1 : Bool} (hF : Sub 17592186045453 F) (h : Moves F s t) :
    Moves F s (commitBatch t a1) := by
  unfold commitBatch
  repeat'
    (first | (with_reducible assumption) | ((with_reducible refine hF.up ?_); rfl) | (intro)
            | (extract_lets +onlyGivenNames x; have hx : Moves F s x := ?_; (on_goal 1 => clear_value x); (on_goal 2 => subst x))
            | (extract_lets +onlyGivenNames x; clear_value x) | (with_reducible apply commitSlot_moves)
            | (with_reducible apply commitSummary_moves) | (with_reducible apply Moves.foldl))

theorem degradeLog_moves {F : ℕ} {s t : State} {a1 : ℕ} (hF : Sub 17592186045453 F) (h : Moves F s t) : Moves F s
    (degradeLog t a1) := by
  unfold degradeLog
  repeat'
    (first | (with_reducible assumption) | ((with_reducible refine hF.up ?_); rfl) | (intro)
            | (extract_lets +onlyGivenNames x; have hx : Moves F s x := ?_; (on_goal 1 => clear_value x); (on_goal 2 => subst x))
            | (extract_lets +onlyGivenNames x; clear_value x) | (with_reducible apply Moves.ite)
            | (with_reducible apply fset_moves) | (with_reducible apply aerLog_moves)
            | (with_reducible apply raise_moves))

theorem deny_moves {F : ℕ} {s t : State} {a1 : View} (hF : Sub 281474976711693 F) (h : Moves F s t) : Moves F s
    (deny t a1) := by
  unfold deny
  repeat'
    (first | (with_reducible assumption) | ((with_reducible refine hF.up ?_); rfl)
            | ((with_reducible refine Or.inr (hF.up ?_)); rfl) | (with_reducible exact Or.inl rfl)
            | (extract_lets +onlyGivenNames x; have hx : Moves F s x := ?_; (on_goal 1 => clear_value x); (on_goal 2 => subst x))
            | (extract_lets +onlyGivenNames x; clear_value x) | (split) | (with_reducible apply finc_moves)
            | (with_reducible apply raise_moves) | (with_reducible apply Moves.upd))

theorem audit_moves {F : ℕ} {s t : State} {a1 : Session} {a2 : ℕ} {a3 : ℕ} {a4 : ℕ} {a5 : ℕ} {a6 : ℕ} (hF
    : Sub 299067162756109 F) (h : Moves F s t) : Moves F s (audit t a1 a2 a3 a4 a5 a6) := by
  unfold audit
  repeat'
    (first | (with_reducible assumption) | ((with_reducible refine hF.up ?_); rfl) | (intro)
            | (extract_lets +onlyGivenNames x; have hx : Moves F s x := ?_; (on_goal 1 => clear_value x); (on_goal 2 => subst x))
            | (extract_lets +onlyGivenNames x; have hx : Moves F s x.1 := ?_; (on_goal 1 => clear_value x); (on_goal 2 => subst x))
            | (extract_lets +onlyGivenNames x; clear_value x) | (with_reducible apply Moves.ite) | (split)
            | (with_reducible apply finc_moves)
            | (refine stageRec_movesE (by with_reducible assumption) (hF.up rfl) ?_)
            | (with_reducible apply stageRec_moves) | (with_reducible apply commitSlot_moves))

theorem auditCmd_moves {F : ℕ} {s t : State} {a1 : Session} {a2 : ℕ} {a3 : List Byte} (hF : Sub 299067162756109 F)
    (h : Moves F s t) : Moves F s (auditCmd t a1 a2 a3) := by
  unfold auditCmd
  repeat'
    (first | (with_reducible assumption) | ((with_reducible refine hF.up ?_); rfl)
            | (with_reducible apply audit_moves))

theorem endSession_moves {F : ℕ} {s t : State} {a1 : ℕ} (hF : Sub 1073742925 F) (h : Moves F s t) : Moves F s
    (endSession t a1) := by
  unfold endSession
  repeat'
    (first | (with_reducible assumption) | ((with_reducible refine hF.up ?_); rfl)
            | ((with_reducible refine Or.inr (hF.up ?_)); rfl) | (with_reducible exact Or.inl rfl) | (intro)
            | (extract_lets +onlyGivenNames x; have hx : Moves F s x := ?_; (on_goal 1 => clear_value x); (on_goal 2 => subst x))
            | (extract_lets +onlyGivenNames x; clear_value x) | (with_reducible apply Moves.ite) | (split)
            | (with_reducible apply raise_moves) | (with_reducible apply record_moves)
            | (with_reducible apply Moves.upd))

theorem endSessions_moves {F : ℕ} {s t : State} {a1 : SessionState → Bool} (hF : Sub 1073742925 F) (h : Moves F s t)
    : Moves F s (endSessions t a1) := by
  unfold endSessions
  repeat'
    (first | (with_reducible assumption) | ((with_reducible refine hF.up ?_); rfl) | (intro)
            | (with_reducible apply endSession_moves) | (with_reducible apply Moves.foldl))

end Sys2Proof.Machine
end

