-- ==== Sys2Proof/Laws/MovesExtents.lean ====
section
/-! SUPPORT. What the functions of Machine/Extents.lean keep, and the kinds of state they may change (`Moves`). -/

set_option linter.all false

namespace Sys2Proof.Machine

open Sys2Proof

theorem journalSend_moves {F : ℕ} {s t : State} {a1 : JBody} (hF : Sub 536870913 F) (h : Moves F s t) : Moves F s
    (journalSend t a1) := by
  unfold journalSend
  repeat'
    (first | (with_reducible assumption) | ((with_reducible refine hF.up ?_); rfl)
            | ((with_reducible refine Or.inr (hF.up ?_)); rfl) | (with_reducible exact Or.inl rfl)
            | (extract_lets +onlyGivenNames x; have hx : Moves F s x := ?_; (on_goal 1 => clear_value x); (on_goal 2 => subst x))
            | (extract_lets +onlyGivenNames x; clear_value x) | (with_reducible apply emit_moves)
            | (with_reducible apply Moves.upd))

theorem listChange_moves {F : ℕ} {s t : State} {a1 : List ℕ} (hF : Sub 34359739405 F) (h : Moves F s t) : Moves F s
    (listChange t a1) := by
  unfold listChange
  repeat'
    (first | (with_reducible assumption) | ((with_reducible refine hF.up ?_); rfl) | (intro)
            | (with_reducible apply fwrap_moves) | (with_reducible apply raise_moves)
            | (with_reducible apply Moves.foldl))

theorem extMap_moves {F : ℕ} {s t : State} {a1 : ℕ} {a2 : Extent → Extent} (hF : Sub 8192 F) (h : Moves F s t) :
    Moves F s (extMap t a1 a2) := by
  unfold extMap
  repeat'
    (first | (with_reducible assumption) | ((with_reducible refine hF.up ?_); rfl)
            | ((with_reducible refine Or.inr (hF.up ?_)); rfl) | (with_reducible exact Or.inl rfl) | (intro)
            | (with_reducible apply Moves.ite) | (with_reducible apply Moves.upd))

theorem extDrop_moves {F : ℕ} {s t : State} {a1 : ℕ} (hF : Sub 8192 F) (h : Moves F s t) : Moves F s (extDrop t a1)
    := by
  unfold extDrop
  repeat'
    (first | (with_reducible assumption) | ((with_reducible refine hF.up ?_); rfl)
            | ((with_reducible refine Or.inr (hF.up ?_)); rfl) | (with_reducible exact Or.inl rfl) | (intro)
            | (with_reducible apply Moves.upd))

theorem snapMap_moves {F : ℕ} {s t : State} {a1 : ℕ} {a2 : Snap → Snap} (hF : Sub 65536 F) (h : Moves F s t) :
    Moves F s (snapMap t a1 a2) := by
  unfold snapMap
  repeat'
    (first | (with_reducible assumption) | ((with_reducible refine hF.up ?_); rfl)
            | ((with_reducible refine Or.inr (hF.up ?_)); rfl) | (with_reducible exact Or.inl rfl) | (intro)
            | (with_reducible apply Moves.ite) | (with_reducible apply Moves.upd))

theorem reserveLow_moves {F : ℕ} {s t : State} {a0 : State} (hF : Sub 1037 F) (h : Moves F s t) : Moves F s
    (reserveLow a0 t) := by
  unfold reserveLow
  repeat'
    (first | (with_reducible assumption) | ((with_reducible refine hF.up ?_); rfl) | (intro)
            | (extract_lets +onlyGivenNames x; have hx : Moves F s x := ?_; (on_goal 1 => clear_value x); (on_goal 2 => subst x))
            | (extract_lets +onlyGivenNames x; clear_value x) | (with_reducible apply Moves.ite)
            | (with_reducible apply raise_moves))

theorem abandonDraft_moves {F : ℕ} {s t : State} {a1 : ℕ} {a2 : ℕ} (hF : Sub 66573 F) (h : Moves F s t) : Moves F s
    (abandonDraft t a1 a2) := by
  unfold abandonDraft
  repeat'
    (first | (with_reducible assumption) | ((with_reducible refine hF.up ?_); rfl)
            | ((with_reducible refine Or.inr (hF.up ?_)); rfl) | (with_reducible exact Or.inl rfl) | (intro)
            | (with_reducible apply Moves.ite) | (split) | (with_reducible apply raise_moves)
            | (with_reducible apply snapMap_moves) | (with_reducible apply Moves.upd))

theorem closeVersion_moves {F : ℕ} {s t : State} {a1 : ℕ} {a2 : ℕ} (hF : Sub 65536 F) (h : Moves F s t) : Moves F s
    (closeVersion t a1 a2) := by
  unfold closeVersion
  repeat'
    (first | (with_reducible assumption) | ((with_reducible refine hF.up ?_); rfl)
            | ((with_reducible refine Or.inr (hF.up ?_)); rfl) | (with_reducible exact Or.inl rfl) | (intro)
            | (with_reducible apply snapMap_moves) | (with_reducible apply Moves.upd))

theorem snapLeave_moves {F : ℕ} {s t : State} {a1 : Extent} {a2 : ℕ} (hF : Sub 66573 F) (h : Moves F s t) :
    Moves F s (snapLeave t a1 a2) := by
  unfold snapLeave
  repeat'
    (first | (with_reducible assumption) | ((with_reducible refine hF.up ?_); rfl) | (intro)
            | (extract_lets +onlyGivenNames x; have hx : Moves F s x := ?_; (on_goal 1 => clear_value x); (on_goal 2 => subst x))
            | (extract_lets +onlyGivenNames x; clear_value x) | (with_reducible apply Moves.ite)
            | (with_reducible apply abandonDraft_moves) | (with_reducible apply closeVersion_moves))

theorem dirTell_moves {F : ℕ} {s t : State} {a0 : State} {a2 : ℕ} (hF : Sub 536870913 F) (h : Moves F s t) :
    Moves F s (dirTell a0 t a2) := by
  unfold dirTell
  repeat'
    (first | (with_reducible assumption) | ((with_reducible refine hF.up ?_); rfl) | (intro)
            | (with_reducible apply Moves.ite) | (split) | (with_reducible apply journalSend_moves))

theorem dirDrop_moves {F : ℕ} {s t : State} {a1 : ℕ} (hF : Sub 536903681 F) (h : Moves F s t) : Moves F s
    (dirDrop t a1) := by
  unfold dirDrop
  repeat'
    (first | (with_reducible assumption) | ((with_reducible refine hF.up ?_); rfl)
            | ((with_reducible refine Or.inr (hF.up ?_)); rfl) | (with_reducible exact Or.inl rfl) | (intro)
            | (with_reducible apply dirTell_moves) | (with_reducible apply Moves.upd))

theorem dirPut_moves {F : ℕ} {s t : State} {a1 : DirEntry} (hF : Sub 536903681 F) (h : Moves F s t) : Moves F s
    (dirPut t a1) := by
  unfold dirPut
  repeat'
    (first | (with_reducible assumption) | ((with_reducible refine hF.up ?_); rfl)
            | ((with_reducible refine Or.inr (hF.up ?_)); rfl) | (with_reducible exact Or.inl rfl) | (intro)
            | (with_reducible apply dirTell_moves) | (with_reducible apply Moves.upd))

theorem dirSet_moves {F : ℕ} {s t : State} {a1 : DirEntry} (hF : Sub 536903681 F) (h : Moves F s t) : Moves F s
    (dirSet t a1) := by
  unfold dirSet
  repeat'
    (first | (with_reducible assumption) | ((with_reducible refine hF.up ?_); rfl)
            | ((with_reducible refine Or.inr (hF.up ?_)); rfl) | (with_reducible exact Or.inl rfl) | (intro)
            | (with_reducible apply Moves.ite) | (with_reducible apply dirTell_moves)
            | (with_reducible apply Moves.upd))

theorem forgetOn_moves {F : ℕ} {s t : State} {a1 : ℕ} {a2 : ℕ → Bool} (hF : Sub 536903681 F) (h : Moves F s t) :
    Moves F s (forgetOn t a1 a2) := by
  unfold forgetOn
  repeat'
    (first | (with_reducible assumption) | ((with_reducible refine hF.up ?_); rfl)
            | ((with_reducible refine Or.inr (hF.up ?_)); rfl) | (with_reducible exact Or.inl rfl) | (intro)
            | (with_reducible apply Moves.ite) | (split) | (with_reducible apply dirDrop_moves)
            | (with_reducible apply dirSet_moves) | (with_reducible apply Moves.upd))

theorem snoopOne_moves {F : ℕ} {s t : State} {a1 : ℕ} {a2 : Sys2Proof.Snp} {a3 : ℕ} (hF : Sub 68719476737 F) (h :
    Moves F s t) : Moves F s (snoopOne t a1 a2 a3) := by
  unfold snoopOne
  repeat'
    (first | (with_reducible assumption) | ((with_reducible refine hF.up ?_); rfl) | (intro)
            | (with_reducible apply Moves.ite) | (with_reducible apply finc_moves)
            | (with_reducible apply emit_moves))

theorem snoop_moves {F : ℕ} {s t : State} {a1 : DirTrans} (hF : Sub 68719509505 F) (h : Moves F s t) : Moves F s
    (snoop t a1) := by
  unfold snoop
  repeat'
    (first | (with_reducible assumption) | ((with_reducible refine hF.up ?_); rfl)
            | ((with_reducible refine Or.inr (hF.up ?_)); rfl) | (with_reducible exact Or.inl rfl) | (intro)
            | (extract_lets +onlyGivenNames x; have hx : Moves F s x := ?_; (on_goal 1 => clear_value x); (on_goal 2 => subst x))
            | (extract_lets +onlyGivenNames x; clear_value x) | (with_reducible apply snoopOne_moves)
            | (with_reducible apply Moves.foldl) | (with_reducible apply Moves.upd))

theorem recallHolder_moves {F : ℕ} {s t : State} {a1 : Extent} {a2 : ℕ} (hF : Sub 68719509505 F) (h : Moves F s t) :
    Moves F s (recallHolder t a1 a2) := by
  unfold recallHolder
  repeat'
    (first | (with_reducible assumption) | ((with_reducible refine hF.up ?_); rfl) | (intro)
            | (with_reducible apply snoop_moves) | (with_reducible apply Moves.foldl))

theorem forgetSharers_moves {F : ℕ} {s t : State} {a1 : ℕ → Bool} (hF : Sub 536903681 F) (h : Moves F s t) :
    Moves F s (forgetSharers t a1) := by
  unfold forgetSharers
  repeat'
    (first | (with_reducible assumption) | ((with_reducible refine hF.up ?_); rfl) | (intro)
            | (with_reducible apply forgetOn_moves) | (with_reducible apply Moves.foldl))

theorem limitHit_moves {F : ℕ} {s t : State} {a1 : ℕ} (hF : Sub 1037 F) (h : Moves F s t) : Moves F s
    (limitHit t a1) := by
  unfold limitHit
  repeat'
    (first | (with_reducible assumption) | ((with_reducible refine hF.up ?_); rfl)
            | (with_reducible apply raise_moves))

theorem doOffer_moves {F : ℕ} {s t : State} {a1 : Part} {a2 : List GranRange} {a3 : Attr} {a4 : ℕ} {a5 : Bool} (hF
    : Sub 34359817229 F) (h : Moves F s t) : Moves F s (doOffer t a1 a2 a3 a4 a5) := by
  unfold doOffer
  repeat'
    (first | (with_reducible assumption) | ((with_reducible refine hF.up ?_); rfl)
            | ((with_reducible refine Or.inr (hF.up ?_)); rfl) | (with_reducible exact Or.inl rfl) | (intro)
            | (extract_lets +onlyGivenNames x; have hx : Moves F s x := ?_; (on_goal 1 => clear_value x); (on_goal 2 => subst x))
            | (extract_lets +onlyGivenNames x; clear_value x) | (with_reducible apply Moves.ite) | (split)
            | (with_reducible apply partUpd_moves) | (with_reducible apply dcEvent_moves)
            | (with_reducible apply raise_moves) | (with_reducible apply listChange_moves)
            | (with_reducible apply extMap_moves) | (with_reducible apply Moves.foldl)
            | (with_reducible apply Moves.upd))

theorem toSanitising_moves {F : ℕ} {s t : State} {a1 : ℕ} (hF : Sub 281474976784384 F) (h : Moves F s t) : Moves F s
    (toSanitising t a1) := by
  unfold toSanitising
  repeat'
    (first | (with_reducible assumption) | ((with_reducible refine hF.up ?_); rfl)
            | ((with_reducible refine Or.inr (hF.up ?_)); rfl) | (with_reducible exact Or.inl rfl) | (intro)
            | (extract_lets +onlyGivenNames x; have hx : Moves F s x := ?_; (on_goal 1 => clear_value x); (on_goal 2 => subst x))
            | (extract_lets +onlyGivenNames x; clear_value x) | (with_reducible apply Moves.ite) | (split)
            | (with_reducible apply finc_moves) | (with_reducible apply extMap_moves)
            | (with_reducible apply Moves.upd))

theorem endOffer_moves {F : ℕ} {s t : State} {a1 : ℕ} {a2 : ℕ} (hF : Sub 281509336523789 F) (h : Moves F s t) :
    Moves F s (endOffer t a1 a2) := by
  unfold endOffer
  repeat'
    (first | (with_reducible assumption) | ((with_reducible refine hF.up ?_); rfl)
            | ((with_reducible refine Or.inr (hF.up ?_)); rfl) | (with_reducible exact Or.inl rfl) | (intro)
            | (extract_lets +onlyGivenNames x; have hx : Moves F s x := ?_; (on_goal 1 => clear_value x); (on_goal 2 => subst x))
            | (extract_lets +onlyGivenNames x; clear_value x) | (with_reducible apply Moves.ite) | (split)
            | (with_reducible apply listChange_moves) | (with_reducible apply extMap_moves)
            | (with_reducible apply extDrop_moves) | (with_reducible apply toSanitising_moves)
            | (with_reducible apply Moves.upd))

theorem endOffers_moves {F : ℕ} {s t : State} {a1 : ℕ} (hF : Sub 281509336527885 F) (h : Moves F s t) : Moves F s
    (endOffers t a1) := by
  unfold endOffers
  repeat'
    (first | (with_reducible assumption) | ((with_reducible refine hF.up ?_); rfl)
            | ((with_reducible refine Or.inr (hF.up ?_)); rfl) | (with_reducible exact Or.inl rfl) | (intro)
            | (extract_lets +onlyGivenNames x; have hx : Moves F s x := ?_; (on_goal 1 => clear_value x); (on_goal 2 => subst x))
            | (extract_lets +onlyGivenNames x; clear_value x) | (with_reducible apply partUpd_moves)
            | (with_reducible apply endOffer_moves) | (with_reducible apply Moves.foldl)
            | (with_reducible apply Moves.upd))

theorem doAccept_moves {F : ℕ} {s t : State} {a1 : Part} {a2 : List GranRange} (hF : Sub 281509336527885 F) (h :
    Moves F s t) : Moves F s (doAccept t a1 a2) := by
  unfold doAccept
  repeat'
    (first | (with_reducible assumption) | ((with_reducible refine hF.up ?_); rfl)
            | ((with_reducible refine Or.inr (hF.up ?_)); rfl) | (with_reducible exact Or.inl rfl) | (intro)
            | (extract_lets +onlyGivenNames x; have hx : Moves F s x := ?_; (on_goal 1 => clear_value x); (on_goal 2 => subst x))
            | (extract_lets +onlyGivenNames x; clear_value x) | (with_reducible apply Moves.ite) | (split)
            | (with_reducible apply fset_moves) | (with_reducible apply partUpd_moves)
            | (with_reducible apply listChange_moves) | (with_reducible apply extMap_moves)
            | (with_reducible apply endOffer_moves) | (with_reducible apply Moves.foldl)
            | (with_reducible apply Moves.upd))

theorem carve_moves {F : ℕ} {s t : State} {e : Extent} {b n : Nat} (hF : Sub 8192 F) (h : Moves F s t) : Moves F s
    (carve t e b n) := by
  have k : ∀ u b l, Moves F s u → Moves F s (if l = 0 then u else
      { u with exts := extInsert { e with base := b, len := l } u.exts }) :=
    fun u b l hu => .ite (fun _ => hu) (fun _ => by
      repeat'
        (first | (with_reducible assumption)
               | ((with_reducible refine hF.up ?_); rfl)
               | ((with_reducible refine Or.inr (hF.up ?_)); rfl)
               | (with_reducible exact Or.inl rfl)
               | (with_reducible apply Moves.upd)))
  exact k _ _ _ (k _ _ _ (k _ _ _ (extDrop_moves (hF.up rfl) h)))

theorem finishRemoval_moves {F : ℕ} {s t : State} {a1 : ℕ} {a2 : ℕ} (hF : Sub 281509336523789 F) (h : Moves F s t) :
    Moves F s (finishRemoval t a1 a2) := by
  unfold finishRemoval
  repeat'
    (first | (with_reducible assumption) | ((with_reducible refine hF.up ?_); rfl)
            | ((with_reducible refine Or.inr (hF.up ?_)); rfl) | (with_reducible exact Or.inl rfl) | (intro)
            | (extract_lets +onlyGivenNames x; have hx : Moves F s x := ?_; (on_goal 1 => clear_value x); (on_goal 2 => subst x))
            | (extract_lets +onlyGivenNames x; clear_value x) | (with_reducible apply Moves.ite) | (split)
            | (with_reducible apply listChange_moves) | (with_reducible apply extMap_moves)
            | (with_reducible apply toSanitising_moves) | (with_reducible apply Moves.upd))

theorem startRemoval_moves {F : ℕ} {s t : State} {a1 : ℕ} {a2 : ℕ} (hF : Sub 281578056033293 F) (h : Moves F s t) :
    Moves F s (startRemoval t a1 a2) := by
  unfold startRemoval
  repeat'
    (first | (with_reducible assumption) | ((with_reducible refine hF.up ?_); rfl)
            | ((with_reducible refine Or.inr (hF.up ?_)); rfl) | (with_reducible exact Or.inl rfl) | (intro)
            | (extract_lets +onlyGivenNames x; have hx : Moves F s x := ?_; (on_goal 1 => clear_value x); (on_goal 2 => subst x))
            | (extract_lets +onlyGivenNames x; clear_value x) | (with_reducible apply Moves.ite) | (split)
            | (with_reducible apply listChange_moves) | (with_reducible apply extMap_moves)
            | (with_reducible apply snapLeave_moves) | (with_reducible apply recallHolder_moves)
            | (with_reducible apply finishRemoval_moves) | (with_reducible apply Moves.upd))

theorem leaveExt_moves {F : ℕ} {s t : State} {a1 : ℕ} {a2 : ℕ} (hF : Sub 281578056033293 F) (h : Moves F s t) :
    Moves F s (leaveExt t a1 a2) := by
  unfold leaveExt
  repeat'
    (first | (with_reducible assumption) | ((with_reducible refine hF.up ?_); rfl)
            | ((with_reducible refine Or.inr (hF.up ?_)); rfl) | (with_reducible exact Or.inl rfl) | (intro)
            | (with_reducible apply Moves.ite) | (split) | (with_reducible apply listChange_moves)
            | (with_reducible apply toSanitising_moves) | (with_reducible apply startRemoval_moves)
            | (with_reducible apply Moves.upd))

theorem doRelease_moves {F : ℕ} {s t : State} {a1 : Part} {a2 : List GranRange} (hF : Sub 281578056033293 F) (h :
    Moves F s t) : Moves F s (doRelease t a1 a2) := by
  unfold doRelease
  repeat'
    (first | (with_reducible assumption) | ((with_reducible refine hF.up ?_); rfl)
            | ((with_reducible refine Or.inr (hF.up ?_)); rfl) | (with_reducible exact Or.inl rfl) | (intro)
            | (with_reducible apply Moves.ite) | (split) | (with_reducible apply carve_moves)
            | (with_reducible apply leaveExt_moves) | (with_reducible apply Moves.foldl)
            | (with_reducible apply Moves.upd))

theorem doRequestRelease_moves {F : ℕ} {s t : State} {a1 : Part} {a2 : List GranRange} (hF : Sub 34359747597 F) (h :
    Moves F s t) : Moves F s (doRequestRelease t a1 a2) := by
  unfold doRequestRelease
  repeat'
    (first | (with_reducible assumption) | ((with_reducible refine hF.up ?_); rfl)
            | ((with_reducible refine Or.inr (hF.up ?_)); rfl) | (with_reducible exact Or.inl rfl) | (intro)
            | (extract_lets +onlyGivenNames x; have hx : Moves F s x := ?_; (on_goal 1 => clear_value x); (on_goal 2 => subst x))
            | (extract_lets +onlyGivenNames x; clear_value x) | (with_reducible apply Moves.ite) | (split)
            | (with_reducible apply dcEvent_moves) | (with_reducible apply raise_moves)
            | (with_reducible apply listChange_moves) | (with_reducible apply extMap_moves)
            | (with_reducible apply carve_moves) | (with_reducible apply Moves.foldl)
            | (with_reducible apply Moves.upd))

theorem doWithdraw_moves {F : ℕ} {s t : State} {a1 : Part} {a2 : List GranRange} (hF : Sub 281509336527885 F) (h :
    Moves F s t) : Moves F s (doWithdraw t a1 a2) := by
  unfold doWithdraw
  repeat'
    (first | (with_reducible assumption) | ((with_reducible refine hF.up ?_); rfl)
            | ((with_reducible refine Or.inr (hF.up ?_)); rfl) | (with_reducible exact Or.inl rfl) | (intro)
            | (extract_lets +onlyGivenNames x; have hx : Moves F s x := ?_; (on_goal 1 => clear_value x); (on_goal 2 => subst x))
            | (extract_lets +onlyGivenNames x; clear_value x) | (with_reducible apply partUpd_moves)
            | (with_reducible apply endOffer_moves) | (with_reducible apply Moves.foldl)
            | (with_reducible apply Moves.upd))

theorem doForce_moves {F : ℕ} {s t : State} {a1 : Part} {a2 : List GranRange} (hF : Sub 281578056037389 F) (h :
    Moves F s t) : Moves F s (doForce t a1 a2) := by
  unfold doForce
  repeat'
    (first | (with_reducible assumption) | ((with_reducible refine hF.up ?_); rfl) | (intro)
            | (extract_lets +onlyGivenNames x; have hx : Moves F s x := ?_; (on_goal 1 => clear_value x); (on_goal 2 => subst x))
            | (extract_lets +onlyGivenNames x; clear_value x) | (with_reducible apply Moves.ite)
            | (with_reducible apply dcEvent_moves) | (with_reducible apply raise_moves)
            | (with_reducible apply doRelease_moves) | (with_reducible apply doWithdraw_moves))

theorem doSetAttr_moves {F : ℕ} {s t : State} {a1 : ℕ} {a2 : ℕ} {a3 : ℕ} (hF : Sub 34359747597 F) (h : Moves F s t)
    : Moves F s (doSetAttr t a1 a2 a3) := by
  unfold doSetAttr
  repeat'
    (first | (with_reducible assumption) | ((with_reducible refine hF.up ?_); rfl)
            | ((with_reducible refine Or.inr (hF.up ?_)); rfl) | (with_reducible exact Or.inl rfl) | (intro)
            | (extract_lets +onlyGivenNames x; have hx : Moves F s x := ?_; (on_goal 1 => clear_value x); (on_goal 2 => subst x))
            | (extract_lets +onlyGivenNames x; clear_value x) | (with_reducible apply Moves.ite) | (split)
            | (with_reducible apply listChange_moves) | (with_reducible apply extMap_moves)
            | (with_reducible apply Moves.upd))

theorem startLease_moves {F : ℕ} {s t : State} {a1 : ℕ} (hF : Sub 17179873280 F) (h : Moves F s t) : Moves F s
    (startLease t a1) := by
  unfold startLease
  repeat'
    (first | (with_reducible assumption) | ((with_reducible refine hF.up ?_); rfl)
            | ((with_reducible refine Or.inr (hF.up ?_)); rfl) | (with_reducible exact Or.inl rfl) | (intro)
            | (with_reducible apply fset_moves) | (with_reducible apply partUpd_moves)
            | (with_reducible apply Moves.upd))

theorem doRenew_moves {F : ℕ} {s t : State} {a1 : ℕ} (hF : Sub 17179873280 F) (h : Moves F s t) : Moves F s
    (doRenew t a1) := by
  unfold doRenew
  repeat'
    (first | (with_reducible assumption) | ((with_reducible refine hF.up ?_); rfl)
            | (with_reducible apply finc_moves) | (with_reducible apply startLease_moves))

theorem turnHoldings_moves {F : ℕ} {s t : State} {a1 : ℕ} {a2 : List ExtState} {a3 : ExtState} (hF
    : Sub 34359747597 F) (h : Moves F s t) : Moves F s (turnHoldings t a1 a2 a3) := by
  unfold turnHoldings
  repeat'
    (first | (with_reducible assumption) | ((with_reducible refine hF.up ?_); rfl)
            | ((with_reducible refine Or.inr (hF.up ?_)); rfl) | (with_reducible exact Or.inl rfl) | (intro)
            | (with_reducible apply Moves.ite) | (split) | (with_reducible apply listChange_moves)
            | (with_reducible apply extMap_moves) | (with_reducible apply Moves.foldl)
            | (with_reducible apply Moves.upd))

theorem doRevive_moves {F : ℕ} {s t : State} {a1 : ℕ} (hF : Sub 51539620877 F) (h : Moves F s t) : Moves F s
    (doRevive t a1) := by
  unfold doRevive
  repeat'
    (first | (with_reducible assumption) | ((with_reducible refine hF.up ?_); rfl)
            | (extract_lets +onlyGivenNames x; have hx : Moves F s x := ?_; (on_goal 1 => clear_value x); (on_goal 2 => subst x))
            | (extract_lets +onlyGivenNames x; clear_value x) | (with_reducible apply fset_moves)
            | (with_reducible apply raise_moves) | (with_reducible apply startLease_moves)
            | (with_reducible apply turnHoldings_moves))

theorem destroyKey_moves {F : ℕ} {s t : State} {a1 : ℕ} (hF : Sub 281474976718848 F) (h : Moves F s t) : Moves F s
    (destroyKey t a1) := by
  unfold destroyKey
  repeat'
    (first | (with_reducible assumption) | ((with_reducible refine hF.up ?_); rfl)
            | ((with_reducible refine Or.inr (hF.up ?_)); rfl) | (with_reducible exact Or.inl rfl) | (intro)
            | (extract_lets +onlyGivenNames x; have hx : Moves F s x := ?_; (on_goal 1 => clear_value x); (on_goal 2 => subst x))
            | (extract_lets +onlyGivenNames x; clear_value x) | (with_reducible apply Moves.ite)
            | (with_reducible apply fset_moves) | (with_reducible apply Moves.upd))

theorem doReclaim_moves {F : ℕ} {s t : State} {a1 : ℕ} (hF : Sub 281595235902477 F) (h : Moves F s t) : Moves F s
    (doReclaim t a1) := by
  unfold doReclaim
  repeat'
    (first | (with_reducible assumption) | ((with_reducible refine hF.up ?_); rfl) | (intro)
            | (extract_lets +onlyGivenNames x; have hx : Moves F s x := ?_; (on_goal 1 => clear_value x); (on_goal 2 => subst x))
            | (extract_lets +onlyGivenNames x; clear_value x) | (with_reducible apply fset_moves)
            | (with_reducible apply leaveExt_moves) | (with_reducible apply destroyKey_moves)
            | (with_reducible apply Moves.foldl))

end Sys2Proof.Machine
end

