-- ==== Sys2Proof/Laws/MovesDram.lean ====
section
/-! SUPPORT. What the functions of Machine/Dram.lean keep, and the kinds of state they may change (`Moves`). -/

set_option linter.all false

namespace Sys2Proof.Machine

open Sys2Proof

theorem setPcSt_moves {F : ℕ} {s t : State} {a1 : ℕ} {a2 : ℕ} (hF : Sub 2199023255552 F) (h : Moves F s t) :
    Moves F s (setPcSt t a1 a2) := by
  unfold setPcSt
  repeat'
    (first | (with_reducible assumption) | ((with_reducible refine hF.up ?_); rfl)
            | (with_reducible apply fset_moves))

theorem qosMove_moves {F : ℕ} {s t : State} {a1 : ℕ} {a2 : Option ℕ} {a3 : Option ℕ} {a4 : ℕ} {a5 : Bool} {a6
    : Option ℕ} (hF : Sub 1099545183245 F) (h : Moves F s t) : Moves F s (qosMove t a1 a2 a3 a4 a5 a6) := by
  unfold qosMove
  repeat'
    (first | (with_reducible assumption) | ((with_reducible refine hF.up ?_); rfl)
            | ((with_reducible refine Or.inr (hF.up ?_)); rfl) | (with_reducible exact Or.inl rfl) | (intro)
            | (extract_lets +onlyGivenNames x; have hx : Moves F s x := ?_; (on_goal 1 => clear_value x); (on_goal 2 => subst x))
            | (extract_lets +onlyGivenNames x; have hx : ∀ u , Moves F s u → Moves F s (x u ) := ?_; (on_goal 1 => clear_value x); (on_goal 2 => subst x))
            | (extract_lets +onlyGivenNames x; have hx : ∀ u a, Moves F s u → Moves F s (x u a) := ?_; (on_goal 1 => clear_value x); (on_goal 2 => subst x))
            | (extract_lets +onlyGivenNames x; have hx : ∀ u a b, Moves F s u → Moves F s (x u a b) := ?_; (on_goal 1 => clear_value x); (on_goal 2 => subst x))
            | (extract_lets +onlyGivenNames x; clear_value x) | (with_reducible apply Moves.ite) | (split)
            | (with_reducible apply raise_moves) | (with_reducible apply fwadd_moves)
            | (with_reducible apply_assumption) | (with_reducible apply Moves.upd))

theorem qosOffer_moves {F : ℕ} {s t : State} {a1 : ℕ} {a2 : Option ℕ} {a3 : ℕ} (hF : Sub 33554432 F) (h :
    Moves F s t) : Moves F s (qosOffer t a1 a2 a3) := by
  unfold qosOffer
  repeat'
    (first | (with_reducible assumption) | ((with_reducible refine hF.up ?_); rfl)
            | ((with_reducible refine Or.inr (hF.up ?_)); rfl) | (with_reducible exact Or.inl rfl)
            | (extract_lets +onlyGivenNames x; have hx : Moves F s x := ?_; (on_goal 1 => clear_value x); (on_goal 2 => subst x))
            | (extract_lets +onlyGivenNames x; clear_value x) | (split) | (with_reducible apply Moves.upd))

theorem wakeRank_moves {F : ℕ} {s t : State} {a1 : ℕ} {a2 : ℕ} (hF : Sub 2199023255552 F) (h : Moves F s t) :
    Moves F s (wakeRank t a1 a2) := by
  unfold wakeRank
  repeat'
    (first | (with_reducible assumption) | ((with_reducible refine hF.up ?_); rfl)
            | (with_reducible apply fset_moves))

theorem enqueue_moves {F : ℕ} {s t : State} {a1 : ℕ} {a2 : Bool} {a3 : ℕ} {a4 : ℕ} {a5 : Option ℕ} {a6 : Option ℕ}
    {a7 : ℕ} (hF : Sub 2199090364416 F) (h : Moves F s t) : Moves F s (enqueue t a1 a2 a3 a4 a5 a6 a7) := by
  unfold enqueue
  repeat'
    (first | (with_reducible assumption) | ((with_reducible refine hF.up ?_); rfl)
            | ((with_reducible refine Or.inr (hF.up ?_)); rfl) | (with_reducible exact Or.inl rfl) | (intro)
            | (extract_lets +onlyGivenNames x; have hx : Moves F s x := ?_; (on_goal 1 => clear_value x); (on_goal 2 => subst x))
            | (extract_lets +onlyGivenNames x; clear_value x) | (with_reducible apply Moves.ite)
            | (with_reducible apply finc_moves) | (with_reducible apply pcUpd_moves)
            | (with_reducible apply wakeRank_moves) | (with_reducible apply Moves.upd))

theorem activate_moves {F : ℕ} {s t : State} {a1 : ℕ} {a2 : ℕ} {a3 : ℕ} (hF : Sub 2199090365453 F) (h : Moves F s t)
    : Moves F s (activate t a1 a2 a3) := by
  unfold activate
  repeat'
    (first | (with_reducible assumption) | ((with_reducible refine hF.up ?_); rfl)
            | ((with_reducible refine Or.inr (hF.up ?_)); rfl) | (with_reducible exact Or.inl rfl) | (intro)
            | (extract_lets +onlyGivenNames x; have hx : Moves F s x := ?_; (on_goal 1 => clear_value x); (on_goal 2 => subst x))
            | (extract_lets +onlyGivenNames x; clear_value x) | (with_reducible apply Moves.ite) | (split)
            | (with_reducible apply finc_moves) | (with_reducible apply pcUpd_moves)
            | (with_reducible apply raise_moves) | (with_reducible apply Moves.upd))

theorem columnCmd_moves {F : ℕ} {s t : State} {a1 : ℕ} {a2 : ℕ} {a3 : PcEntry} (hF : Sub 67108864 F) (h :
    Moves F s t) : Moves F s (columnCmd t a1 a2 a3) := by
  unfold columnCmd
  repeat'
    (first | (with_reducible assumption) | ((with_reducible refine hF.up ?_); rfl)
            | ((with_reducible refine Or.inr (hF.up ?_)); rfl) | (with_reducible exact Or.inl rfl) | (intro)
            | (extract_lets +onlyGivenNames x; have hx : Moves F s x := ?_; (on_goal 1 => clear_value x); (on_goal 2 => subst x))
            | (extract_lets +onlyGivenNames x; clear_value x) | (with_reducible apply Moves.ite) | (split)
            | (with_reducible apply pcUpd_moves) | (with_reducible apply Moves.upd))

theorem refreshRank_moves {F : ℕ} {s t : State} {a1 : ℕ} {a2 : ℕ} (hF : Sub 2199090364416 F) (h : Moves F s t) :
    Moves F s (refreshRank t a1 a2) := by
  unfold refreshRank
  repeat'
    (first | (with_reducible assumption) | ((with_reducible refine hF.up ?_); rfl)
            | ((with_reducible refine Or.inr (hF.up ?_)); rfl) | (with_reducible exact Or.inl rfl) | (intro)
            | (with_reducible apply pcUpd_moves) | (with_reducible apply wakeRank_moves)
            | (with_reducible apply Moves.upd))

theorem issueCmd_moves {F : ℕ} {s t : State} {a1 : ℕ} (hF : Sub 2199090365453 F) (h : Moves F s t) : Moves F s
    (issueCmd t a1) := by
  unfold issueCmd
  repeat'
    (first | (with_reducible assumption) | ((with_reducible refine hF.up ?_); rfl)
            | ((with_reducible refine Or.inr (hF.up ?_)); rfl) | (with_reducible exact Or.inl rfl) | (intro)
            | (extract_lets +onlyGivenNames x; have hx : Moves F s x := ?_; (on_goal 1 => clear_value x); (on_goal 2 => subst x))
            | (extract_lets +onlyGivenNames x; clear_value x) | (with_reducible apply Moves.ite) | (split)
            | (with_reducible apply finc_moves) | (with_reducible apply pcUpd_moves)
            | (with_reducible apply activate_moves) | (with_reducible apply columnCmd_moves)
            | (with_reducible apply refreshRank_moves) | (with_reducible apply Moves.upd))

theorem ageTables_moves {F : ℕ} {s t : State} (hF : Sub 67108864 F) (h : Moves F s t) : Moves F s (ageTables t)
    := by
  unfold ageTables
  repeat'
    (first | (with_reducible assumption) | ((with_reducible refine hF.up ?_); rfl)
            | ((with_reducible refine Or.inr (hF.up ?_)); rfl) | (with_reducible exact Or.inl rfl) | (intro)
            | (extract_lets +onlyGivenNames x; have hx : Moves F s x := ?_; (on_goal 1 => clear_value x); (on_goal 2 => subst x))
            | (extract_lets +onlyGivenNames x; clear_value x) | (with_reducible apply Moves.upd))

theorem doRefreshDue_moves {F : ℕ} {s t : State} {a1 : ℕ} {a2 : ℕ} (hF : Sub 2199090364416 F) (h : Moves F s t) :
    Moves F s (doRefreshDue t a1 a2) := by
  unfold doRefreshDue
  repeat'
    (first | (with_reducible assumption) | ((with_reducible refine hF.up ?_); rfl)
            | ((with_reducible refine Or.inr (hF.up ?_)); rfl) | (with_reducible exact Or.inl rfl) | (intro)
            | (extract_lets +onlyGivenNames x; have hx : Moves F s x := ?_; (on_goal 1 => clear_value x); (on_goal 2 => subst x))
            | (extract_lets +onlyGivenNames x; clear_value x) | (with_reducible apply Moves.ite)
            | (with_reducible apply finc_moves) | (with_reducible apply pcUpd_moves)
            | (with_reducible apply refreshRank_moves) | (with_reducible apply Moves.upd))

theorem setFreezeInfo_moves {F : ℕ} {s t : State} {a1 : ℕ} {a2 : ℕ} {a3 : Loc} (hF : Sub 2199023255552 F) (h :
    Moves F s t) : Moves F s (setFreezeInfo t a1 a2 a3) := by
  unfold setFreezeInfo
  repeat'
    (first | (with_reducible assumption) | ((with_reducible refine hF.up ?_); rfl)
            | (extract_lets +onlyGivenNames x; have hx : Moves F s x := ?_; (on_goal 1 => clear_value x); (on_goal 2 => subst x))
            | (extract_lets +onlyGivenNames x; clear_value x) | (with_reducible apply fset_moves))

theorem freezePc_moves {F : ℕ} {s t : State} {a1 : ℕ} {a2 : ℕ} {a3 : Loc} (hF : Sub 2199090365453 F) (h :
    Moves F s t) : Moves F s (freezePc t a1 a2 a3) := by
  unfold freezePc
  repeat'
    (first | (with_reducible assumption) | ((with_reducible refine hF.up ?_); rfl)
            | ((with_reducible refine Or.inr (hF.up ?_)); rfl) | (with_reducible exact Or.inl rfl) | (intro)
            | (extract_lets +onlyGivenNames x; have hx : Moves F s x := ?_; (on_goal 1 => clear_value x); (on_goal 2 => subst x))
            | (extract_lets +onlyGivenNames x; clear_value x) | (with_reducible apply Moves.ite)
            | (with_reducible apply finc_moves) | (with_reducible apply hupd_moves)
            | (with_reducible apply pcUpd_moves) | (with_reducible apply raise_moves)
            | (with_reducible apply setPcSt_moves) | (with_reducible apply setFreezeInfo_moves)
            | (with_reducible apply Moves.upd))

theorem setThrottle_moves {F : ℕ} {s t : State} {a1 : ℕ} (hF : Sub 2199023256589 F) (h : Moves F s t) : Moves F s
    (setThrottle t a1) := by
  unfold setThrottle
  repeat'
    (first | (with_reducible assumption) | ((with_reducible refine hF.up ?_); rfl) | (intro)
            | (extract_lets +onlyGivenNames x; have hx : Moves F s x := ?_; (on_goal 1 => clear_value x); (on_goal 2 => subst x))
            | (extract_lets +onlyGivenNames x; clear_value x) | (with_reducible apply Moves.ite)
            | (with_reducible apply fset_moves) | (with_reducible apply raise_moves)
            | (with_reducible apply Moves.foldl))

theorem checkRetrain_moves {F : ℕ} {s t : State} {a1 : ℕ} (hF : Sub 67109901 F) (h : Moves F s t) : Moves F s
    (checkRetrain t a1) := by
  unfold checkRetrain
  repeat'
    (first | (with_reducible assumption) | ((with_reducible refine hF.up ?_); rfl)
            | ((with_reducible refine Or.inr (hF.up ?_)); rfl) | (with_reducible exact Or.inl rfl) | (intro)
            | (extract_lets +onlyGivenNames x; have hx : Moves F s x := ?_; (on_goal 1 => clear_value x); (on_goal 2 => subst x))
            | (extract_lets +onlyGivenNames x; clear_value x) | (with_reducible apply Moves.ite) | (split)
            | (with_reducible apply pcUpd_moves) | (with_reducible apply raise_moves)
            | (with_reducible apply Moves.upd))

theorem doTempRead_moves {F : ℕ} {s t : State} {a1 : ℕ} {a2 : Option ℕ} (hF : Sub 2199090365453 F) (h : Moves F s t)
    : Moves F s (doTempRead t a1 a2) := by
  unfold doTempRead
  repeat'
    (first | (with_reducible assumption) | ((with_reducible refine hF.up ?_); rfl)
            | ((with_reducible refine Or.inr (hF.up ?_)); rfl) | (with_reducible exact Or.inl rfl) | (intro)
            | (extract_lets +onlyGivenNames x; have hx : Moves F s x := ?_; (on_goal 1 => clear_value x); (on_goal 2 => subst x))
            | (extract_lets +onlyGivenNames x; clear_value x) | (with_reducible apply Moves.ite) | (split)
            | (with_reducible apply fset_moves) | (with_reducible apply pcUpd_moves)
            | (with_reducible apply raise_moves) | (with_reducible apply setThrottle_moves)
            | (with_reducible apply checkRetrain_moves) | (with_reducible apply Moves.upd))

end Sys2Proof.Machine
end

