-- ==== Sys2Proof/Laws/MovesHome.lean ====
section
/-! SUPPORT. What the functions of Machine/Home.lean keep, and the kinds of state they may change (`Moves`). -/

set_option linter.all false

namespace Sys2Proof.Machine

open Sys2Proof

theorem heal_moves {F : ℕ} {s t : State} {a1 : ℕ} (hF : Sub 536870912 F) (h : Moves F s t) : Moves F s (heal t a1)
    := by
  unfold heal
  repeat'
    (first | (with_reducible assumption) | ((with_reducible refine hF.up ?_); rfl)
            | ((with_reducible refine Or.inr (hF.up ?_)); rfl) | (with_reducible exact Or.inl rfl) | (intro)
            | (extract_lets +onlyGivenNames x; have hx : Moves F s x := ?_; (on_goal 1 => clear_value x); (on_goal 2 => subst x))
            | (extract_lets +onlyGivenNames x; clear_value x) | (with_reducible apply Moves.ite)
            | (with_reducible apply Moves.upd))

theorem putLine_moves {F : ℕ} {s t : State} {a1 : ℕ} {a2 : Line} (hF : Sub 536870928 F) (h : Moves F s t) :
    Moves F s (putLine t a1 a2) := by
  unfold putLine
  repeat'
    (first | (with_reducible assumption) | ((with_reducible refine hF.up ?_); rfl)
            | ((with_reducible refine Or.inr (hF.up ?_)); rfl) | (with_reducible exact Or.inl rfl)
            | (with_reducible exact fun h => Memory.wf_write h _ _)
            | (with_reducible exact fun h => Memory.wf_write (Memory.wf_zero h _ _) _ _)
            | (with_reducible exact fun h => Memory.wf_zero h _ _) | (with_reducible exact id)
            | (with_reducible exact fun _ => Memory.wf_nil) | (intro) | (with_reducible apply heal_moves)
            | (with_reducible apply Moves.upd) | (with_reducible apply Moves.updMem))

theorem putPoison_moves {F : ℕ} {s t : State} {a1 : ℕ} (hF : Sub 16 F) (h : Moves F s t) : Moves F s
    (putPoison t a1) := by
  unfold putPoison
  repeat'
    (first | (with_reducible assumption) | ((with_reducible refine hF.up ?_); rfl)
            | ((with_reducible refine Or.inr (hF.up ?_)); rfl) | (with_reducible exact Or.inl rfl)
            | (with_reducible exact fun h => Memory.wf_write h _ _)
            | (with_reducible exact fun h => Memory.wf_write (Memory.wf_zero h _ _) _ _)
            | (with_reducible exact fun h => Memory.wf_zero h _ _) | (with_reducible exact id)
            | (with_reducible exact fun _ => Memory.wf_nil) | (intro) | (with_reducible apply Moves.upd)
            | (with_reducible apply Moves.updMem))

theorem putBlock_moves {F : ℕ} {s t : State} {a1 : ℕ} {a2 : List Byte} (hF : Sub 536870928 F) (h : Moves F s t) :
    Moves F s (putBlock t a1 a2) := by
  unfold putBlock
  repeat'
    (first | (with_reducible assumption) | ((with_reducible refine hF.up ?_); rfl)
            | ((with_reducible refine Or.inr (hF.up ?_)); rfl) | (with_reducible exact Or.inl rfl)
            | (with_reducible exact fun h => Memory.wf_write h _ _)
            | (with_reducible exact fun h => Memory.wf_write (Memory.wf_zero h _ _) _ _)
            | (with_reducible exact fun h => Memory.wf_zero h _ _) | (with_reducible exact id)
            | (with_reducible exact fun _ => Memory.wf_nil) | (intro)
            | (extract_lets +onlyGivenNames x; have hx : Moves F s x := ?_; (on_goal 1 => clear_value x); (on_goal 2 => subst x))
            | (extract_lets +onlyGivenNames x; clear_value x) | (with_reducible apply heal_moves)
            | (with_reducible apply Moves.foldl) | (with_reducible apply Moves.upd)
            | (with_reducible apply Moves.updMem))

theorem setLastUe_moves {F : ℕ} {s t : State} {a1 : ℕ} {a2 : Loc} {a3 : ℕ} (hF : Sub 8796093022208 F) (h :
    Moves F s t) : Moves F s (setLastUe t a1 a2 a3) := by
  unfold setLastUe
  repeat'
    (first | (with_reducible assumption) | ((with_reducible refine hF.up ?_); rfl)
            | (extract_lets +onlyGivenNames x; have hx : Moves F s x := ?_; (on_goal 1 => clear_value x); (on_goal 2 => subst x))
            | (extract_lets +onlyGivenNames x; clear_value x) | (with_reducible apply fset_moves))

theorem writeBackLine_moves {F : ℕ} {s t : State} {a1 : ℕ} (hF : Sub 2199090364416 F) (h : Moves F s t) : Moves F s
    (writeBackLine t a1) := by
  unfold writeBackLine
  repeat'
    (first | (with_reducible assumption) | ((with_reducible refine hF.up ?_); rfl) | (intro)
            | (extract_lets +onlyGivenNames x; have hx : Moves F s x := ?_; (on_goal 1 => clear_value x); (on_goal 2 => subst x))
            | (extract_lets +onlyGivenNames x; clear_value x) | (with_reducible apply Moves.ite)
            | (with_reducible apply enqueue_moves))

theorem readLine_moves {F : ℕ} {s t : State} {a1 : ℕ} {a2 : Upset} {a3 : ℕ} (hF : Sub 10995988694045 F) (h :
    Moves F s t) : Moves F s (readLine t a1 a2 a3).1 := by
  unfold readLine
  repeat'
    (first | (with_reducible assumption) | ((with_reducible refine hF.up ?_); rfl)
            | ((with_reducible refine Or.inr (hF.up ?_)); rfl) | (with_reducible exact Or.inl rfl) | (intro)
            | (extract_lets +onlyGivenNames x; have hx : Moves F s x := ?_; (on_goal 1 => clear_value x); (on_goal 2 => subst x))
            | (extract_lets +onlyGivenNames x; clear_value x) | (with_reducible apply Moves.ite) | (split)
            | (with_reducible apply finc_moves) | (with_reducible apply raise_moves)
            | (with_reducible apply freezePc_moves) | (with_reducible apply putLine_moves)
            | (with_reducible apply setLastUe_moves) | (with_reducible apply writeBackLine_moves)
            | (with_reducible apply Moves.upd))

theorem readLine_movesE {F : ℕ} {s t : State} {a1 : ℕ} {a2 : Upset} {a3 : ℕ} {u : State} {x : LineRead} (e :
    (readLine t a1 a2 a3) = (u, x)) (hF : Sub 10995988694045 F) (h : Moves F s t) : Moves F s u := by
  have k : Moves F s (readLine t a1 a2 a3).1 := readLine_moves hF h
  rwa [e] at k

theorem frameMap_moves {F : ℕ} {s t : State} {a1 : ℕ} {a2 : Frame → Frame} (hF : Sub 131072 F) (h : Moves F s t) :
    Moves F s (frameMap t a1 a2) := by
  unfold frameMap
  repeat'
    (first | (with_reducible assumption) | ((with_reducible refine hF.up ?_); rfl)
            | ((with_reducible refine Or.inr (hF.up ?_)); rfl) | (with_reducible exact Or.inl rfl) | (intro)
            | (with_reducible apply Moves.ite) | (with_reducible apply Moves.upd))

theorem uncache_moves {F : ℕ} {s t : State} {a1 : ℕ} (hF : Sub 1048576 F) (h : Moves F s t) : Moves F s
    (uncache t a1) := by
  unfold uncache
  repeat'
    (first | (with_reducible assumption) | ((with_reducible refine hF.up ?_); rfl)
            | ((with_reducible refine Or.inr (hF.up ?_)); rfl) | (with_reducible exact Or.inl rfl) | (intro)
            | (with_reducible apply Moves.upd))

theorem freeFrame_moves {F : ℕ} {s t : State} {a1 : ℕ} (hF : Sub 538050576 F) (h : Moves F s t) : Moves F s
    (freeFrame t a1) := by
  unfold freeFrame
  repeat'
    (first | (with_reducible assumption) | ((with_reducible refine hF.up ?_); rfl)
            | ((with_reducible refine Or.inr (hF.up ?_)); rfl) | (with_reducible exact Or.inl rfl) | (intro)
            | (extract_lets +onlyGivenNames x; have hx : Moves F s x := ?_; (on_goal 1 => clear_value x); (on_goal 2 => subst x))
            | (extract_lets +onlyGivenNames x; clear_value x) | (with_reducible apply putBlock_moves)
            | (with_reducible apply uncache_moves) | (with_reducible apply Moves.upd))

theorem makeRoom_moves {F : ℕ} {s : State} (n : ℕ) {t : State} {b : ℕ} (hF : Sub 538050576 F) (h : Moves F s t) :
    Moves F s (makeRoom n t b) := by
  induction n generalizing t with
  | zero => exact h
  | succ n ih =>
    unfold makeRoom
    split
    · exact h
    · split
      · exact ih (freeFrame_moves (hF.up rfl) h)
      · exact h

theorem takePlace_moves {F : ℕ} {s t : State} {a1 : ℕ} {a2 : ℕ} (hF : Sub 538050576 F) (h : Moves F s t) : Moves F s
    (takePlace t a1 a2).1 := by
  unfold takePlace
  repeat'
    (first | (with_reducible assumption) | ((with_reducible refine hF.up ?_); rfl) | (intro)
            | (extract_lets +onlyGivenNames x; have hx : Moves F s x := ?_; (on_goal 1 => clear_value x); (on_goal 2 => subst x))
            | (extract_lets +onlyGivenNames x; clear_value x) | (with_reducible apply Moves.ite) | (split)
            | (with_reducible apply makeRoom_moves))

theorem takePlace_movesE {F : ℕ} {s t : State} {a1 : ℕ} {a2 : ℕ} {u : State} {x : Option ℕ} (e :
    (takePlace t a1 a2) = (u, x)) (hF : Sub 538050576 F) (h : Moves F s t) : Moves F s u := by
  have k : Moves F s (takePlace t a1 a2).1 := takePlace_moves hF h
  rwa [e] at k

theorem segMark_moves {F : ℕ} {s t : State} {a1 : ℕ} {a2 : Bool} {a3 : Bool} (hF : Sub 1048576 F) (h : Moves F s t)
    : Moves F s (segMark t a1 a2 a3) := by
  unfold segMark
  repeat'
    (first | (with_reducible assumption) | ((with_reducible refine hF.up ?_); rfl)
            | ((with_reducible refine Or.inr (hF.up ?_)); rfl) | (with_reducible exact Or.inl rfl) | (intro)
            | (extract_lets +onlyGivenNames x; have hx : Moves F s x := ?_; (on_goal 1 => clear_value x); (on_goal 2 => subst x))
            | (extract_lets +onlyGivenNames x; clear_value x) | (with_reducible apply Moves.ite)
            | (with_reducible apply Moves.upd))

theorem makeRaw_moves {F : ℕ} {s t : State} {a1 : ℕ} (hF : Sub 1048576 F) (h : Moves F s t) : Moves F s
    (makeRaw t a1) := by
  unfold makeRaw
  repeat'
    (first | (with_reducible assumption) | ((with_reducible refine hF.up ?_); rfl)
            | ((with_reducible refine Or.inr (hF.up ?_)); rfl) | (with_reducible exact Or.inl rfl) | (intro)
            | (extract_lets +onlyGivenNames x; have hx : Moves F s x := ?_; (on_goal 1 => clear_value x); (on_goal 2 => subst x))
            | (extract_lets +onlyGivenNames x; clear_value x) | (with_reducible apply Moves.ite)
            | (with_reducible apply uncache_moves) | (with_reducible apply segMark_moves)
            | (with_reducible apply Moves.upd))

theorem poisonBlock_moves {F : ℕ} {s t : State} {a1 : ℕ} (hF : Sub 536870928 F) (h : Moves F s t) : Moves F s
    (poisonBlock t a1) := by
  unfold poisonBlock
  repeat'
    (first | (with_reducible assumption) | ((with_reducible refine hF.up ?_); rfl)
            | ((with_reducible refine Or.inr (hF.up ?_)); rfl) | (with_reducible exact Or.inl rfl)
            | (extract_lets +onlyGivenNames x; have hx : Moves F s x := ?_; (on_goal 1 => clear_value x); (on_goal 2 => subst x))
            | (extract_lets +onlyGivenNames x; clear_value x) | (with_reducible apply putBlock_moves)
            | (with_reducible apply Moves.upd))

theorem packFrame_moves {F : ℕ} {s t : State} {a1 : ℕ} {a2 : ℕ} (hF : Sub 131072 F) (h : Moves F s t) : Moves F s
    (packFrame t a1 a2) := by
  unfold packFrame
  repeat'
    (first | (with_reducible assumption) | ((with_reducible refine hF.up ?_); rfl)
            | ((with_reducible refine Or.inr (hF.up ?_)); rfl) | (with_reducible exact Or.inl rfl) | (intro)
            | (with_reducible apply Moves.ite) | (with_reducible apply frameMap_moves)
            | (with_reducible apply Moves.upd))

theorem setIdx_moves {F : ℕ} {s t : State} {a1 : ℕ} {a2 : ℕ} {a3 : ℕ} {a4 : ℕ} {a5 : Bool} (hF : Sub 1048576 F) (h :
    Moves F s t) : Moves F s (setIdx t a1 a2 a3 a4 a5) := by
  unfold setIdx
  repeat'
    (first | (with_reducible assumption) | ((with_reducible refine hF.up ?_); rfl)
            | ((with_reducible refine Or.inr (hF.up ?_)); rfl) | (with_reducible exact Or.inl rfl) | (intro)
            | (extract_lets +onlyGivenNames x; have hx : Moves F s x := ?_; (on_goal 1 => clear_value x); (on_goal 2 => subst x))
            | (extract_lets +onlyGivenNames x; clear_value x) | (with_reducible apply Moves.ite) | (split)
            | (with_reducible apply Moves.upd))

theorem damageBlock_moves {F : ℕ} {s t : State} {a1 : ℕ} {a2 : ℕ} (hF : Sub 274878956557 F) (h : Moves F s t) :
    Moves F s (damageBlock t a1 a2) := by
  unfold damageBlock
  repeat'
    (first | (with_reducible assumption) | ((with_reducible refine hF.up ?_); rfl)
            | ((with_reducible refine Or.inr (hF.up ?_)); rfl) | (with_reducible exact Or.inl rfl)
            | (extract_lets +onlyGivenNames x; have hx : Sub (2 ^ x.kind.num) F := ?_; (on_goal 1 => clear_value x); (on_goal 2 => subst x))
            | (intro)
            | (extract_lets +onlyGivenNames x; have hx : Moves F s x := ?_; (on_goal 1 => clear_value x); (on_goal 2 => subst x))
            | (extract_lets +onlyGivenNames x; clear_value x) | (with_reducible apply Moves.ite) | (split)
            | (with_reducible apply fset_moves) | (with_reducible apply finc_moves)
            | (with_reducible apply raise_moves) | (with_reducible apply Moves.upd))

theorem readForm_moves {F : ℕ} {s t : State} {a1 : ℕ} {a2 : ℕ} {a3 : ℕ} (hF : Sub 10995988694045 F) (h :
    Moves F s t) :
    Moves F s (readForm t a1 a2 a3).1 := by
  refine Moves.foldlFst (fun u x hu => ?_) _ h
  split
  next v w e =>
    have := readLine_movesE e (hF.up rfl) hu
    split <;> exact this

theorem readForm_movesE {F : ℕ} {s t : State} {a1 : ℕ} {a2 : ℕ} {a3 : ℕ} {u : State} {x : Bool} (e :
    (readForm t a1 a2 a3) = (u, x)) (hF : Sub 10995988694045 F) (h : Moves F s t) : Moves F s u := by
  have k : Moves F s (readForm t a1 a2 a3).1 := readForm_moves hF h
  rwa [e] at k

theorem expanded_moves {F : ℕ} {s t : State} {a1 : ℕ} {a2 : ℕ} {a3 : ℕ} {a4 : ℕ} {a5 : List ℕ} (hF
    : Sub 274878955520 F) (h : Moves F s t) : Moves F s (expanded t a1 a2 a3 a4 a5) := by
  unfold expanded
  repeat'
    (first | (with_reducible assumption) | ((with_reducible refine hF.up ?_); rfl)
            | ((with_reducible refine Or.inr (hF.up ?_)); rfl) | (with_reducible exact Or.inl rfl) | (intro)
            | (extract_lets +onlyGivenNames x; have hx : Moves F s x := ?_; (on_goal 1 => clear_value x); (on_goal 2 => subst x))
            | (extract_lets +onlyGivenNames x; clear_value x) | (with_reducible apply finc_moves)
            | (with_reducible apply Moves.upd))

theorem decodeBlock_moves {F : ℕ} {s t : State} {a1 a2 : ℕ} (hF : Sub 11270867649565 F) (h : Moves F s t) :
    Moves F s (decodeBlock t a1 a2).1 := by
  unfold decodeBlock
  extract_lets e
  have k : Moves F s (if idxOk e (localOf a1) = true then readForm t a1 e.clen a2 else (t, true)).1 := by
    split
    · exact readForm_moves (hF.up rfl) h
    · exact h
  generalize (if idxOk e (localOf a1) = true then readForm t a1 e.clen a2 else (t, true)) = x at k ⊢
  obtain ⟨u, ok⟩ := x
  dsimp only at k ⊢
  generalize (if ok = true then decodeStored u a1 else Decoded.damaged causeMedia) = d
  cases d with
  | ok _ _ _ => exact expanded_moves (hF.up rfl) k
  | damaged _ => exact damageBlock_moves (hF.up rfl) k

theorem decodeBlock_movesE {F : ℕ} {s t : State} {a1 : ℕ} {a2 : ℕ} {u : State} {x : Decoded} (e :
    (decodeBlock t a1 a2) = (u, x)) (hF : Sub 11270867649565 F) (h : Moves F s t) : Moves F s u := by
  have k : Moves F s (decodeBlock t a1 a2).1 := decodeBlock_moves hF h
  rwa [e] at k

theorem cachePut_moves {F : ℕ} {s t : State} {a1 : ℕ} {a2 : ℕ} {a3 : List Byte} (hF : Sub 1048576 F) (h :
    Moves F s t) : Moves F s (cachePut t a1 a2 a3) := by
  unfold cachePut
  repeat'
    (first | (with_reducible assumption) | ((with_reducible refine hF.up ?_); rfl)
            | ((with_reducible refine Or.inr (hF.up ?_)); rfl) | (with_reducible exact Or.inl rfl) | (intro)
            | (extract_lets +onlyGivenNames x; have hx : Moves F s x := ?_; (on_goal 1 => clear_value x); (on_goal 2 => subst x))
            | (extract_lets +onlyGivenNames x; clear_value x) | (with_reducible apply Moves.ite) | (split)
            | (with_reducible apply Moves.upd))

theorem cacheHit_moves {F : ℕ} {s t : State} {a1 : ℕ} {a2 : ℕ} {a3 : List Byte} (hF : Sub 274878955520 F) (h :
    Moves F s t) : Moves F s (cacheHit t a1 a2 a3) := by
  unfold cacheHit
  repeat'
    (first | (with_reducible assumption) | ((with_reducible refine hF.up ?_); rfl)
            | (with_reducible apply finc_moves) | (with_reducible apply cachePut_moves))

theorem codedBytes_moves {F : ℕ} {s t : State} {a1 a2 a3 : ℕ} (hF : Sub 11270867649565 F) (h : Moves F s t) :
    Moves F s (codedBytes t a1 a2 a3).1 := by
  unfold codedBytes
  generalize cached t a1 = c
  cases c with
  | some bs => exact cacheHit_moves (hF.up rfl) h
  | none =>
    have k := decodeBlock_moves (a1 := a1) (a2 := a3) (hF.up rfl) h
    generalize decodeBlock t a1 a3 = x at k
    obtain ⟨u, d⟩ := x
    cases d with
    | ok _ _ _ => exact cachePut_moves (hF.up rfl) k
    | damaged _ => exact k

theorem codedBytes_movesE {F : ℕ} {s t : State} {a1 : ℕ} {a2 : ℕ} {a3 : ℕ} {u : State} {x : Decoded} (e :
    (codedBytes t a1 a2 a3) = (u, x)) (hF : Sub 11270867649565 F) (h : Moves F s t) : Moves F s u := by
  have k : Moves F s (codedBytes t a1 a2 a3).1 := codedBytes_moves hF h
  rwa [e] at k

theorem expandRoom_moves {F : ℕ} {s t : State} {a1 : ℕ} (hF : Sub 538050576 F) (h : Moves F s t) : Moves F s
    (expandRoom t a1).1 := by
  unfold expandRoom
  repeat'
    (first | (with_reducible assumption) | ((with_reducible refine hF.up ?_); rfl)
            | ((with_reducible refine Or.inr (hF.up ?_)); rfl) | (with_reducible exact Or.inl rfl) | (intro)
            | (with_reducible apply Moves.ite) | (split) | (with_reducible apply frameMap_moves)
            | (refine takePlace_movesE (by with_reducible assumption) (hF.up rfl) ?_)
            | (with_reducible apply takePlace_moves) | (with_reducible apply Moves.upd))

theorem expandRoom_movesE {F : ℕ} {s t : State} {a1 : ℕ} {u : State} {x : Bool} (e : (expandRoom t a1) = (u, x)) (hF
    : Sub 538050576 F) (h : Moves F s t) : Moves F s u := by
  have k : Moves F s (expandRoom t a1).1 := expandRoom_moves hF h
  rwa [e] at k

theorem dirtied_moves {F : ℕ} {s t : State} {a1 : ℕ} (hF : Sub 131072 F) (h : Moves F s t) : Moves F s
    (dirtied t a1) := by
  unfold dirtied
  repeat'
    (first | (with_reducible assumption) | ((with_reducible refine hF.up ?_); rfl)
            | ((with_reducible refine Or.inr (hF.up ?_)); rfl) | (with_reducible exact Or.inl rfl) | (intro)
            | (with_reducible apply Moves.ite) | (with_reducible apply frameMap_moves)
            | (with_reducible apply Moves.upd))

theorem rawBlock_moves {F : ℕ} {s t : State} {a1 : ℕ} {a2 : List Byte} (hF : Sub 538050576 F) (h : Moves F s t) :
    Moves F s (rawBlock t a1 a2) := by
  unfold rawBlock
  repeat'
    (first | (with_reducible assumption) | ((with_reducible refine hF.up ?_); rfl)
            | (with_reducible apply putBlock_moves) | (with_reducible apply makeRaw_moves)
            | (with_reducible apply dirtied_moves))

theorem discardPartial_moves {F : ℕ} {s t : State} {a1 : Part} (hF : Sub 1037 F) (h : Moves F s t) : Moves F s
    (discardPartial t a1) := by
  unfold discardPartial
  repeat'
    (first | (with_reducible assumption) | ((with_reducible refine hF.up ?_); rfl)
            | (with_reducible apply record_moves))

theorem mergeOne_moves {F : ℕ} {s t : State} {a1 : Req} {a2 : Upset} (hF : Sub 10995988694045 F) (h : Moves F s t) :
    Moves F s (mergeOne t a1 a2) := by
  unfold mergeOne
  repeat'
    (first | (with_reducible assumption) | ((with_reducible refine hF.up ?_); rfl)
            | ((with_reducible refine Or.inr (hF.up ?_)); rfl) | (with_reducible exact Or.inl rfl) | (intro)
            | (extract_lets +onlyGivenNames x; have hx : Moves F s x := ?_; (on_goal 1 => clear_value x); (on_goal 2 => subst x))
            | (extract_lets +onlyGivenNames x; have hx : Moves F s x.1 := ?_; (on_goal 1 => clear_value x); (on_goal 2 => subst x))
            | (extract_lets +onlyGivenNames x; clear_value x) | (with_reducible apply Moves.ite) | (split)
            | (with_reducible apply pcUpd_moves) | (with_reducible apply putLine_moves)
            | (refine readLine_movesE (by with_reducible assumption) (hF.up rfl) ?_)
            | (with_reducible apply readLine_moves) | (with_reducible apply discardPartial_moves)
            | (with_reducible apply Moves.upd))

theorem mergeLineAll_moves {F : ℕ} {s t : State} {a1 : ℕ} {a2 : Upset} (hF : Sub 10995988694045 F) (h : Moves F s t)
    : Moves F s (mergeLineAll t a1 a2) := by
  unfold mergeLineAll
  repeat'
    (first | (with_reducible assumption) | ((with_reducible refine hF.up ?_); rfl)
            | ((with_reducible refine Or.inr (hF.up ?_)); rfl) | (with_reducible exact Or.inl rfl) | (intro)
            | (extract_lets +onlyGivenNames x; have hx : Moves F s x := ?_; (on_goal 1 => clear_value x); (on_goal 2 => subst x))
            | (extract_lets +onlyGivenNames x; clear_value x) | (split) | (with_reducible apply mergeOne_moves)
            | (with_reducible apply Moves.foldl) | (with_reducible apply Moves.upd))

theorem copyBlock_moves {F : ℕ} {s t : State} {a1 : ℕ} (hF : Sub 11270867649565 F) (h : Moves F s t) : Moves F s
    (copyBlock t a1).1 := by
  unfold copyBlock
  repeat'
    (first | (with_reducible assumption) | ((with_reducible refine hF.up ?_); rfl)
            | ((with_reducible refine Or.inr (hF.up ?_)); rfl) | (with_reducible exact Or.inl rfl) | (intro)
            | (with_reducible apply Moves.ite) | (split)
            | (refine decodeBlock_movesE (by with_reducible assumption) (hF.up rfl) ?_)
            | (with_reducible apply decodeBlock_moves) | (with_reducible apply Moves.upd))

theorem copyBlock_movesE {F : ℕ} {s t : State} {a1 : ℕ} {u : State} {x : SavedBlock} (e : (copyBlock t a1) = (u, x))
    (hF : Sub 11270867649565 F) (h : Moves F s t) : Moves F s u := by
  have k : Moves F s (copyBlock t a1).1 := copyBlock_moves hF h
  rwa [e] at k

theorem draftBlock_moves {F : ℕ} {s t : State} {a1 : Extent} {a2 : ℕ} (hF : Sub 11270867715101 F) (h : Moves F s t)
    : Moves F s (draftBlock t a1 a2) := by
  unfold draftBlock
  repeat'
    (first | (with_reducible assumption) | ((with_reducible refine hF.up ?_); rfl)
            | ((with_reducible refine Or.inr (hF.up ?_)); rfl) | (with_reducible exact Or.inl rfl) | (intro)
            | (extract_lets +onlyGivenNames x; have hx : Moves F s x := ?_; (on_goal 1 => clear_value x); (on_goal 2 => subst x))
            | (extract_lets +onlyGivenNames x; have hx : Moves F s x.1 := ?_; (on_goal 1 => clear_value x); (on_goal 2 => subst x))
            | (extract_lets +onlyGivenNames x; clear_value x) | (with_reducible apply Moves.ite) | (split)
            | (with_reducible apply snapMap_moves)
            | (refine copyBlock_movesE (by with_reducible assumption) (hF.up rfl) ?_)
            | (with_reducible apply copyBlock_moves) | (with_reducible apply Moves.upd))

theorem draftWrite_moves {F : ℕ} {s t : State} {a1 : Extent} {a2 : ℕ} {a3 : Line} {a4 : BitVec 64} (hF
    : Sub 11270867715101 F) (h : Moves F s t) : Moves F s (draftWrite t a1 a2 a3 a4) := by
  unfold draftWrite
  repeat'
    (first | (with_reducible assumption) | ((with_reducible refine hF.up ?_); rfl)
            | ((with_reducible refine Or.inr (hF.up ?_)); rfl) | (with_reducible exact Or.inl rfl) | (intro)
            | (extract_lets +onlyGivenNames x; have hx : Moves F s x := ?_; (on_goal 1 => clear_value x); (on_goal 2 => subst x))
            | (extract_lets +onlyGivenNames x; clear_value x) | (with_reducible apply Moves.ite)
            | (with_reducible apply snapMap_moves) | (with_reducible apply draftBlock_moves)
            | (with_reducible apply Moves.upd))

theorem jobMap_moves {F : ℕ} {s t : State} {a1 : ℕ} {a2 : ℕ} {a3 : ℕ} {a4 : Job → Job} (hF : Sub 8388608 F) (h :
    Moves F s t) : Moves F s (jobMap t a1 a2 a3 a4) := by
  unfold jobMap
  repeat'
    (first | (with_reducible assumption) | ((with_reducible refine hF.up ?_); rfl)
            | ((with_reducible refine Or.inr (hF.up ?_)); rfl) | (with_reducible exact Or.inl rfl) | (intro)
            | (with_reducible apply Moves.ite) | (with_reducible apply Moves.upd))

theorem failJob_moves {F : ℕ} {s t : State} {a1 : Part} {a2 : Ring} {a3 : ℕ} {a4 : ℕ} (hF : Sub 8388608 F) (h :
    Moves F s t) : Moves F s (failJob t a1 a2 a3 a4) := by
  unfold failJob
  repeat'
    (first | (with_reducible assumption) | ((with_reducible refine hF.up ?_); rfl)
            | ((with_reducible refine Or.inr (hF.up ?_)); rfl) | (with_reducible exact Or.inl rfl) | (intro)
            | (with_reducible apply Moves.ite) | (with_reducible apply Moves.upd))

theorem stepAccepted_moves {F : ℕ} {s t : State} {a1 : Req} (hF : Sub 16777216 F) (h : Moves F s t) : Moves F s
    (stepAccepted t a1) := by
  unfold stepAccepted
  repeat'
    (first | (with_reducible assumption) | ((with_reducible refine hF.up ?_); rfl)
            | ((with_reducible refine Or.inr (hF.up ?_)); rfl) | (with_reducible exact Or.inl rfl) | (intro)
            | (extract_lets +onlyGivenNames x; have hx : Moves F s x := ?_; (on_goal 1 => clear_value x); (on_goal 2 => subst x))
            | (extract_lets +onlyGivenNames x; clear_value x) | (with_reducible apply Moves.ite)
            | (with_reducible apply Moves.upd))

theorem mapHeld_moves {F : ℕ} {s t : State} {a1 : Req → Req} (hF : Sub 201719808 F) (h : Moves F s t) : Moves F s
    (mapHeld t a1) := by
  unfold mapHeld
  repeat'
    (first | (with_reducible assumption) | ((with_reducible refine hF.up ?_); rfl)
            | ((with_reducible refine Or.inr (hF.up ?_)); rfl) | (with_reducible exact Or.inl rfl) | (intro)
            | (extract_lets +onlyGivenNames x; have hx : Moves F s x := ?_; (on_goal 1 => clear_value x); (on_goal 2 => subst x))
            | (extract_lets +onlyGivenNames x; clear_value x) | (with_reducible apply Moves.upd))

theorem fixReads_moves {F : ℕ} {s t : State} {a1 : ℕ} (hF : Sub 201719808 F) (h : Moves F s t) : Moves F s
    (fixReads t a1) := by
  unfold fixReads
  repeat'
    (first | (with_reducible assumption) | ((with_reducible refine hF.up ?_); rfl)
            | ((with_reducible refine Or.inr (hF.up ?_)); rfl) | (with_reducible exact Or.inl rfl) | (intro)
            | (with_reducible apply Moves.ite) | (split) | (with_reducible apply mapHeld_moves)
            | (with_reducible apply Moves.upd))

theorem fixReplaced_moves {F : ℕ} {s t : State} {a1 : SavedBlock} (hF : Sub 201719808 F) (h : Moves F s t) :
    Moves F s (fixReplaced t a1) := by
  unfold fixReplaced
  repeat'
    (first | (with_reducible assumption) | ((with_reducible refine hF.up ?_); rfl)
            | ((with_reducible refine Or.inr (hF.up ?_)); rfl) | (with_reducible exact Or.inl rfl) | (intro)
            | (with_reducible apply Moves.ite) | (split) | (with_reducible apply mapHeld_moves)
            | (with_reducible apply Moves.upd))

theorem hostRsp_moves {F : ℕ} {s t : State} {a1 : Part} {a2 : Head} {a3 : ℕ} {a4 : MemRes} (hF
    : Sub 1099545182209 F) (h : Moves F s t) : Moves F s (hostRsp t a1 a2 a3 a4) := by
  unfold hostRsp
  repeat'
    (first | (with_reducible assumption) | ((with_reducible refine hF.up ?_); rfl)
            | ((with_reducible refine Or.inr (hF.up ?_)); rfl) | (with_reducible exact Or.inl rfl)
            | (extract_lets +onlyGivenNames x; have hx : Sub (2 ^ x.kind.num) F := ?_; (on_goal 1 => clear_value x); (on_goal 2 => subst x))
            | (extract_lets +onlyGivenNames x; have hx : Moves F s x := ?_; (on_goal 1 => clear_value x); (on_goal 2 => subst x))
            | (extract_lets +onlyGivenNames x; clear_value x) | (split) | (with_reducible apply emit_moves)
            | (with_reducible apply fwadd_moves) | (with_reducible apply Moves.upd))

theorem answer_moves {F : ℕ} {s t : State} {a1 : Req} {a2 : MemRes} {a3 : Bool} (hF : Sub 1099570349057 F) (h :
    Moves F s t) : Moves F s (answer t a1 a2 a3) := by
  unfold answer
  repeat'
    (first | (with_reducible assumption) | ((with_reducible refine hF.up ?_); rfl)
            | ((with_reducible refine Or.inr (hF.up ?_)); rfl) | (with_reducible exact Or.inl rfl) | (intro)
            | (extract_lets +onlyGivenNames x; have hx : Moves F s x := ?_; (on_goal 1 => clear_value x); (on_goal 2 => subst x))
            | (extract_lets +onlyGivenNames x; clear_value x) | (with_reducible apply Moves.ite) | (split)
            | (with_reducible apply emit_moves) | (with_reducible apply mediaEvent_moves)
            | (with_reducible apply jobMap_moves) | (with_reducible apply failJob_moves)
            | (with_reducible apply stepAccepted_moves) | (with_reducible apply hostRsp_moves)
            | (with_reducible apply Moves.upd))

theorem newId_moves {F : ℕ} {s t : State} (hF : Sub 536870912 F) (h : Moves F s t) : Moves F s (newId t).2 := by
  unfold newId
  repeat'
    (first | (with_reducible assumption) | ((with_reducible refine hF.up ?_); rfl)
            | ((with_reducible refine Or.inr (hF.up ?_)); rfl) | (with_reducible exact Or.inl rfl) | (intro)
            | (extract_lets +onlyGivenNames x; have hx : Moves F s x := ?_; (on_goal 1 => clear_value x); (on_goal 2 => subst x))
            | (extract_lets +onlyGivenNames x; clear_value x) | (with_reducible apply Moves.ite) | (split)
            | (with_reducible apply Moves.upd))

theorem newId_movesE {F : ℕ} {s t : State} {u : State} {x : ℕ} (e : (newId t) = (x, u)) (hF : Sub 536870912 F) (h :
    Moves F s t) : Moves F s u := by
  have k : Moves F s (newId t).2 := newId_moves hF h
  rwa [e] at k

theorem forwardReq_moves {F : ℕ} {s t : State} {a1 : Req} {a2 : Upset} (hF : Sub 35184908959745 F) (h : Moves F s t)
    : Moves F s (forwardReq t a1 a2) := by
  unfold forwardReq
  repeat'
    (first | (with_reducible assumption) | ((with_reducible refine hF.up ?_); rfl)
            | ((with_reducible refine Or.inr (hF.up ?_)); rfl) | (with_reducible exact Or.inl rfl) | (intro)
            | (extract_lets +onlyGivenNames x; have hx : Moves F s x := ?_; (on_goal 1 => clear_value x); (on_goal 2 => subst x))
            | (extract_lets +onlyGivenNames x; have hx : Moves F s x.2 := ?_; (on_goal 1 => clear_value x); (on_goal 2 => subst x))
            | (extract_lets +onlyGivenNames x; clear_value x) | (with_reducible apply Moves.ite) | (split)
            | (with_reducible apply finc_moves) | (with_reducible apply emit_moves)
            | (refine newId_movesE (by with_reducible assumption) (hF.up rfl) ?_)
            | (with_reducible apply newId_moves) | (with_reducible apply Moves.upd))

theorem twinAccept_moves {F : ℕ} {s t : State} {a1 : Req} {a2 : ℕ} (hF : Sub 1100107219969 F) (h : Moves F s t) :
    Moves F s (twinAccept t a1 a2) := by
  unfold twinAccept
  repeat'
    (first | (with_reducible assumption) | ((with_reducible refine hF.up ?_); rfl)
            | ((with_reducible refine Or.inr (hF.up ?_)); rfl) | (with_reducible exact Or.inl rfl) | (intro)
            | (extract_lets +onlyGivenNames x; have hx : Moves F s x := ?_; (on_goal 1 => clear_value x); (on_goal 2 => subst x))
            | (extract_lets +onlyGivenNames x; clear_value x) | (split) | (with_reducible apply answer_moves)
            | (with_reducible apply Moves.upd))

theorem acceptDone_moves {F : ℕ} {s t : State} {a1 : Req} (hF : Sub 1100107219969 F) (h : Moves F s t) : Moves F s
    (acceptDone t a1) := by
  unfold acceptDone
  repeat'
    (first | (with_reducible assumption) | ((with_reducible refine hF.up ?_); rfl)
            | ((with_reducible refine Or.inr (hF.up ?_)); rfl) | (with_reducible exact Or.inl rfl) | (intro)
            | (extract_lets +onlyGivenNames x; have hx : Moves F s x := ?_; (on_goal 1 => clear_value x); (on_goal 2 => subst x))
            | (extract_lets +onlyGivenNames x; have hx : Moves F s x.2 := ?_; (on_goal 1 => clear_value x); (on_goal 2 => subst x))
            | (extract_lets +onlyGivenNames x; clear_value x) | (with_reducible apply Moves.ite) | (split)
            | (with_reducible apply emit_moves) | (with_reducible apply answer_moves)
            | (refine newId_movesE (by with_reducible assumption) (hF.up rfl) ?_)
            | (with_reducible apply newId_moves) | (with_reducible apply twinAccept_moves)
            | (with_reducible apply Moves.upd))

theorem readData_moves {F : ℕ} {s t : State} {a1 : Part} {a2 : ℕ} {a3 : Upset} {a4 : ℕ} {a5 : Option ℕ} (hF
    : Sub 11270867649565 F) (h : Moves F s t) : Moves F s (readData t a1 a2 a3 a4 a5).1 := by
  unfold readData
  repeat'
    (first | (with_reducible assumption) | ((with_reducible refine hF.up ?_); rfl)
            | ((with_reducible refine Or.inr (hF.up ?_)); rfl) | (with_reducible exact Or.inl rfl) | (intro)
            | (extract_lets +onlyGivenNames x; have hx : Moves F s x := ?_; (on_goal 1 => clear_value x); (on_goal 2 => subst x))
            | (extract_lets +onlyGivenNames x; have hx : Moves F s x.1 := ?_; (on_goal 1 => clear_value x); (on_goal 2 => subst x))
            | (extract_lets +onlyGivenNames x; clear_value x) | (with_reducible apply Moves.ite) | (split)
            | (with_reducible apply mediaEvent_moves)
            | (refine readLine_movesE (by with_reducible assumption) (hF.up rfl) ?_)
            | (with_reducible apply readLine_moves)
            | (refine codedBytes_movesE (by with_reducible assumption) (hF.up rfl) ?_)
            | (with_reducible apply codedBytes_moves) | (with_reducible apply mergeLineAll_moves)
            | (with_reducible apply Moves.upd))

theorem readData_movesE {F : ℕ} {s t : State} {a1 : Part} {a2 : ℕ} {a3 : Upset} {a4 : ℕ} {a5 : Option ℕ} {u : State}
    {x : RdRes} (e : (readData t a1 a2 a3 a4 a5) = (u, x)) (hF : Sub 11270867649565 F) (h : Moves F s t) :
    Moves F s u := by
  have k : Moves F s (readData t a1 a2 a3 a4 a5).1 := readData_moves hF h
  rwa [e] at k

theorem moveBytes_moves {F : ℕ} {s t : State} {a1 : Req} {a2 : Bool} (hF : Sub 1099545183245 F) (h : Moves F s t) :
    Moves F s (moveBytes t a1 a2) := by
  unfold moveBytes
  repeat'
    (first | (with_reducible assumption) | ((with_reducible refine hF.up ?_); rfl) | (intro)
            | (extract_lets +onlyGivenNames x; have hx : Moves F s x := ?_; (on_goal 1 => clear_value x); (on_goal 2 => subst x))
            | (extract_lets +onlyGivenNames x; clear_value x) | (with_reducible apply Moves.ite)
            | (with_reducible apply qosMove_moves))

theorem noteWrite_moves {F : ℕ} {s t : State} {a1 : ℕ} (hF : Sub 1179648 F) (h : Moves F s t) : Moves F s
    (noteWrite t a1) := by
  unfold noteWrite
  repeat'
    (first | (with_reducible assumption) | ((with_reducible refine hF.up ?_); rfl)
            | ((with_reducible refine Or.inr (hF.up ?_)); rfl) | (with_reducible exact Or.inl rfl) | (intro)
            | (extract_lets +onlyGivenNames x; have hx : Moves F s x := ?_; (on_goal 1 => clear_value x); (on_goal 2 => subst x))
            | (extract_lets +onlyGivenNames x; clear_value x) | (with_reducible apply Moves.ite)
            | (with_reducible apply frameMap_moves) | (with_reducible apply dirtied_moves)
            | (with_reducible apply Moves.upd))

theorem applyWrite_moves {F : ℕ} {s t : State} {a1 : Req} (hF : Sub 11270867846173 F) (h : Moves F s t) : Moves F s
    (applyWrite t a1) := by
  unfold applyWrite
  repeat'
    (first | (with_reducible assumption) | ((with_reducible refine hF.up ?_); rfl)
            | ((with_reducible refine Or.inr (hF.up ?_)); rfl) | (with_reducible exact Or.inl rfl) | (intro)
            | (extract_lets +onlyGivenNames x; have hx : Moves F s x := ?_; (on_goal 1 => clear_value x); (on_goal 2 => subst x))
            | (extract_lets +onlyGivenNames x; clear_value x) | (with_reducible apply Moves.ite) | (split)
            | (with_reducible apply pcUpd_moves) | (with_reducible apply putLine_moves)
            | (with_reducible apply draftWrite_moves) | (with_reducible apply noteWrite_moves)
            | (with_reducible apply Moves.upd))

theorem hintOf_moves {F : ℕ} {s t : State} {a1 : Req} (hF : Sub 2 F) (h : Moves F s t) : Moves F s (hintOf t a1).2
    := by
  unfold hintOf
  repeat'
    (first | (with_reducible assumption) | ((with_reducible refine hF.up ?_); rfl)
            | ((with_reducible refine Or.inr (hF.up ?_)); rfl) | (with_reducible exact Or.inl rfl) | (split)
            | (refine draw_movesE (by with_reducible assumption) (hF.up rfl) ?_) | (with_reducible apply draw_moves)
            | (with_reducible apply Moves.upd))

theorem hintOf_movesE {F : ℕ} {s t : State} {a1 : Req} {u : State} {x : ℕ} (e : (hintOf t a1) = (x, u)) (hF
    : Sub 2 F) (h : Moves F s t) : Moves F s u := by
  have k : Moves F s (hintOf t a1).2 := hintOf_moves hF h
  rwa [e] at k

theorem expUpd_moves {F : ℕ} {s t : State} {a1 : ℕ} {a2 : Expander → Expander} (hF : Sub 262144 F) (h : Moves F s t)
    : Moves F s (expUpd t a1 a2) := by
  unfold expUpd
  repeat'
    (first | (with_reducible assumption) | ((with_reducible refine hF.up ?_); rfl)
            | ((with_reducible refine Or.inr (hF.up ?_)); rfl) | (with_reducible exact Or.inl rfl)
            | (extract_lets +onlyGivenNames x; have hx : Moves F s x := ?_; (on_goal 1 => clear_value x); (on_goal 2 => subst x))
            | (extract_lets +onlyGivenNames x; clear_value x) | (with_reducible apply Moves.upd))

theorem expTake_moves {F : ℕ} {s t : State} {a1 : ℕ} (hF : Sub 262144 F) (h : Moves F s t) : Moves F s
    (expTake t a1).1 := by
  unfold expTake
  repeat'
    (first | (with_reducible assumption) | ((with_reducible refine hF.up ?_); rfl)
            | ((with_reducible refine Or.inr (hF.up ?_)); rfl) | (with_reducible exact Or.inl rfl) | (intro)
            | (extract_lets +onlyGivenNames x; have hx : Moves F s x := ?_; (on_goal 1 => clear_value x); (on_goal 2 => subst x))
            | (extract_lets +onlyGivenNames x; clear_value x) | (with_reducible apply Moves.ite) | (split)
            | (with_reducible apply expUpd_moves) | (with_reducible apply Moves.upd))

theorem expTake_movesE {F : ℕ} {s t : State} {a1 : ℕ} {u : State} {x : List Req} (e : (expTake t a1) = (u, x)) (hF
    : Sub 262144 F) (h : Moves F s t) : Moves F s u := by
  have k : Moves F s (expTake t a1).1 := expTake_moves hF h
  rwa [e] at k

theorem answerLines_moves {F : ℕ} {s t : State} {a1 : List Req} {a2 : List Byte} (hF : Sub 1099570349057 F) (h :
    Moves F s t) : Moves F s (answerLines t a1 a2) := by
  unfold answerLines
  repeat'
    (first | (with_reducible assumption) | ((with_reducible refine hF.up ?_); rfl) | (intro)
            | (with_reducible apply answer_moves) | (with_reducible apply Moves.foldl))

theorem askTwin_moves {F : ℕ} {s t : State} {a1 : ℕ} {a2 : List Req} (hF : Sub 262145 F) (h : Moves F s t) :
    Moves F s (askTwin t a1 a2) := by
  unfold askTwin
  repeat'
    (first | (with_reducible assumption) | ((with_reducible refine hF.up ?_); rfl)
            | ((with_reducible refine Or.inr (hF.up ?_)); rfl) | (with_reducible exact Or.inl rfl) | (intro)
            | (extract_lets +onlyGivenNames x; have hx : Moves F s x := ?_; (on_goal 1 => clear_value x); (on_goal 2 => subst x))
            | (extract_lets +onlyGivenNames x; clear_value x) | (with_reducible apply Moves.ite)
            | (with_reducible apply emit_moves) | (with_reducible apply Moves.upd))

theorem awaitTwin_moves {F : ℕ} {s t : State} {a1 : Req} (hF : Sub 262145 F) (h : Moves F s t) : Moves F s
    (awaitTwin t a1) := by
  unfold awaitTwin
  repeat'
    (first | (with_reducible assumption) | ((with_reducible refine hF.up ?_); rfl)
            | (with_reducible apply askTwin_moves))

theorem soloDamaged_moves {F : ℕ} {s t : State} {a1 : Req} (hF : Sub 12370438194205 F) (h : Moves F s t) : Moves F s
    (soloDamaged t a1) := by
  unfold soloDamaged
  repeat'
    (first | (with_reducible assumption) | ((with_reducible refine hF.up ?_); rfl) | (intro)
            | (with_reducible apply Moves.ite) | (with_reducible apply poisonBlock_moves)
            | (with_reducible apply rawBlock_moves) | (with_reducible apply answer_moves)
            | (with_reducible apply acceptDone_moves) | (with_reducible apply applyWrite_moves))

theorem expandBlock_moves {F : ℕ} {s t : State} {a1 : ℕ} (hF : Sub 11270868042781 F) (h : Moves F s t) :
    Moves F s (expandBlock t a1) := by
  unfold expandBlock
  refine .ite (fun _ => ?_) (fun _ => h)
  have k := expandRoom_moves (a1 := a1) (hF.up rfl) h
  generalize expandRoom t a1 = x at k
  obtain ⟨u, ok⟩ := x
  cases ok with
  | false => exact k
  | true =>
    have l := decodeBlock_moves (a1 := a1) (a2 := 1) (hF.up rfl) k
    dsimp only at l ⊢
    generalize decodeBlock u a1 1 = y at l
    obtain ⟨v, d⟩ := y
    cases d with
    | ok _ _ _ => exact rawBlock_moves (hF.up rfl) l
    | damaged _ => exact .ite (fun _ => askTwin_moves (hF.up rfl) l) (fun _ => l)

theorem damagedReq_moves {F : ℕ} {s t : State} {a1 : Req} (hF : Sub 12370438456349 F) (h : Moves F s t) : Moves F s
    (damagedReq t a1) := by
  unfold damagedReq
  repeat'
    (first | (with_reducible assumption) | ((with_reducible refine hF.up ?_); rfl) | (intro)
            | (with_reducible apply Moves.ite) | (with_reducible apply awaitTwin_moves)
            | (with_reducible apply soloDamaged_moves))

theorem expandedWrite_moves {F : ℕ} {s t : State} {a1 : Req} (hF : Sub 12370438456349 F) (h : Moves F s t) :
    Moves F s (expandedWrite t a1) := by
  unfold expandedWrite
  extract_lets b
  refine .ite (fun _ => awaitTwin_moves (hF.up rfl) h) (fun _ => ?_)
  have k := expandRoom_moves (a1 := b) (hF.up rfl) h
  generalize expandRoom t b = x at k
  obtain ⟨u, ok⟩ := x
  cases ok with
  | false => exact frameMap_moves (hF.up rfl) k
  | true =>
    have l := decodeBlock_moves (a1 := b) (a2 := 3) (hF.up rfl) k
    dsimp only at l ⊢
    generalize decodeBlock u b 3 = y at l
    obtain ⟨v, d⟩ := y
    cases d with
    | ok bs _ _ =>
      have m := expTake_moves (a1 := b) (hF.up rfl) l
      dsimp only at m ⊢
      generalize expTake v b = z at m
      obtain ⟨w, rs⟩ := z
      exact acceptDone_moves (hF.up rfl) (applyWrite_moves (hF.up rfl) (rawBlock_moves (hF.up rfl)
        (answerLines_moves (hF.up rfl) m)))
    | damaged _ => exact damagedReq_moves (hF.up rfl) l

theorem readerWrite_moves {F : ℕ} {s t : State} {a1 : ℕ} (hF : Sub 1037 F) (h : Moves F s t) : Moves F s
    (readerWrite t a1) := by
  unfold readerWrite
  repeat'
    (first | (with_reducible assumption) | ((with_reducible refine hF.up ?_); rfl)
            | (with_reducible apply raise_moves))

theorem serveWrite_moves {F : ℕ} {s t : State} {a1 : Req} (hF : Sub 12370438456349 F) (h : Moves F s t) : Moves F s
    (serveWrite t a1) := by
  unfold serveWrite
  repeat'
    (first | (with_reducible assumption) | ((with_reducible refine hF.up ?_); rfl)
            | ((with_reducible refine Or.inr (hF.up ?_)); rfl) | (with_reducible exact Or.inl rfl) | (intro)
            | (extract_lets +onlyGivenNames x; have hx : Moves F s x := ?_; (on_goal 1 => clear_value x); (on_goal 2 => subst x))
            | (extract_lets +onlyGivenNames x; clear_value x) | (with_reducible apply Moves.ite) | (split)
            | (with_reducible apply failJob_moves) | (with_reducible apply answer_moves)
            | (with_reducible apply acceptDone_moves) | (with_reducible apply applyWrite_moves)
            | (with_reducible apply expandedWrite_moves) | (with_reducible apply readerWrite_moves)
            | (with_reducible apply Moves.upd))

theorem expandedRead_moves {F : ℕ} {s t : State} {a1 : Req} (hF : Sub 1374449566721 F) (h : Moves F s t) : Moves F s
    (expandedRead t a1) := by
  unfold expandedRead
  repeat'
    (first | (with_reducible assumption) | ((with_reducible refine hF.up ?_); rfl)
            | ((with_reducible refine Or.inr (hF.up ?_)); rfl) | (with_reducible exact Or.inl rfl) | (intro)
            | (extract_lets +onlyGivenNames x; have hx : Moves F s x := ?_; (on_goal 1 => clear_value x); (on_goal 2 => subst x))
            | (extract_lets +onlyGivenNames x; clear_value x) | (with_reducible apply Moves.ite) | (split)
            | (with_reducible apply cacheHit_moves) | (with_reducible apply expUpd_moves)
            | (with_reducible apply answerLines_moves) | (with_reducible apply awaitTwin_moves)
            | (with_reducible apply Moves.upd))

theorem serveRead_moves {F : ℕ} {s t : State} {a1 : Req} {a2 : Upset} (hF : Sub 47554810348573 F) (h : Moves F s t)
    : Moves F s (serveRead t a1 a2) := by
  unfold serveRead
  repeat'
    (first | (with_reducible assumption) | ((with_reducible refine hF.up ?_); rfl)
            | ((with_reducible refine Or.inr (hF.up ?_)); rfl) | (with_reducible exact Or.inl rfl) | (intro)
            | (extract_lets +onlyGivenNames x; have hx : Moves F s x := ?_; (on_goal 1 => clear_value x); (on_goal 2 => subst x))
            | (extract_lets +onlyGivenNames x; have hx : Moves F s x.1 := ?_; (on_goal 1 => clear_value x); (on_goal 2 => subst x))
            | (extract_lets +onlyGivenNames x; clear_value x) | (with_reducible apply Moves.ite) | (split)
            | (with_reducible apply answer_moves) | (with_reducible apply forwardReq_moves)
            | (refine readData_movesE (by with_reducible assumption) (hF.up rfl) ?_)
            | (with_reducible apply readData_moves) | (with_reducible apply expandedRead_moves)
            | (with_reducible apply Moves.upd))

theorem perform_moves {F : ℕ} {s t : State} {a1 : Req} {a2 : Upset} (hF : Sub 47554810545183 F) (h : Moves F s t) :
    Moves F s (perform t a1 a2) := by
  unfold perform
  repeat'
    (first | (with_reducible assumption) | ((with_reducible refine hF.up ?_); rfl)
            | ((with_reducible refine Or.inr (hF.up ?_)); rfl) | (with_reducible exact Or.inl rfl) | (intro)
            | (extract_lets +onlyGivenNames x; have hx : Moves F s x := ?_; (on_goal 1 => clear_value x); (on_goal 2 => subst x))
            | (extract_lets +onlyGivenNames x; have hx : Moves F s x.2 := ?_; (on_goal 1 => clear_value x); (on_goal 2 => subst x))
            | (extract_lets +onlyGivenNames x; clear_value x) | (with_reducible apply Moves.ite) | (split)
            | (with_reducible apply enqueue_moves) | (with_reducible apply answer_moves)
            | (with_reducible apply moveBytes_moves)
            | (refine hintOf_movesE (by with_reducible assumption) (hF.up rfl) ?_)
            | (with_reducible apply hintOf_moves) | (with_reducible apply serveWrite_moves)
            | (with_reducible apply serveRead_moves) | (with_reducible apply Moves.upd))

theorem holdReq_moves {F : ℕ} {s t : State} {a1 : Req} (hF : Sub 201326592 F) (h : Moves F s t) : Moves F s
    (holdReq t a1) := by
  unfold holdReq
  repeat'
    (first | (with_reducible assumption) | ((with_reducible refine hF.up ?_); rfl)
            | ((with_reducible refine Or.inr (hF.up ?_)); rfl) | (with_reducible exact Or.inl rfl) | (intro)
            | (extract_lets +onlyGivenNames x; have hx : Moves F s x := ?_; (on_goal 1 => clear_value x); (on_goal 2 => subst x))
            | (extract_lets +onlyGivenNames x; clear_value x) | (with_reducible apply Moves.ite)
            | (with_reducible apply pcUpd_moves) | (with_reducible apply Moves.upd))

theorem loseReq_moves {F : ℕ} {s t : State} {a1 : Req} {a2 : Bool} (hF : Sub 1099637457921 F) (h : Moves F s t) :
    Moves F s (loseReq t a1 a2) := by
  unfold loseReq
  repeat'
    (first | (with_reducible assumption) | ((with_reducible refine hF.up ?_); rfl)
            | ((with_reducible refine Or.inr (hF.up ?_)); rfl) | (with_reducible exact Or.inl rfl) | (intro)
            | (extract_lets +onlyGivenNames x; have hx : Moves F s x := ?_; (on_goal 1 => clear_value x); (on_goal 2 => subst x))
            | (extract_lets +onlyGivenNames x; clear_value x) | (with_reducible apply Moves.ite) | (split)
            | (with_reducible apply pcUpd_moves) | (with_reducible apply failJob_moves)
            | (with_reducible apply answer_moves) | (with_reducible apply Moves.upd))

theorem coverReq_moves {F : ℕ} {s t : State} {a1 : Req} {a2 : Upset} {a3 : Bool} (hF : Sub 36284680635393 F) (h :
    Moves F s t) : Moves F s (coverReq t a1 a2 a3) := by
  unfold coverReq
  repeat'
    (first | (with_reducible assumption) | ((with_reducible refine hF.up ?_); rfl)
            | ((with_reducible refine Or.inr (hF.up ?_)); rfl) | (with_reducible exact Or.inl rfl) | (intro)
            | (extract_lets +onlyGivenNames x; have hx : Moves F s x := ?_; (on_goal 1 => clear_value x); (on_goal 2 => subst x))
            | (extract_lets +onlyGivenNames x; clear_value x) | (with_reducible apply Moves.ite) | (split)
            | (with_reducible apply pcUpd_moves) | (with_reducible apply forwardReq_moves)
            | (with_reducible apply twinAccept_moves) | (with_reducible apply holdReq_moves)
            | (with_reducible apply loseReq_moves) | (with_reducible apply Moves.upd))

theorem homeReq_moves {F : ℕ} {s t : State} {a1 : Req} {a2 : Upset} (hF : Sub 47554944762911 F) (h : Moves F s t) :
    Moves F s (homeReq t a1 a2) := by
  unfold homeReq
  repeat'
    (first | (with_reducible assumption) | ((with_reducible refine hF.up ?_); rfl)
            | ((with_reducible refine Or.inr (hF.up ?_)); rfl) | (with_reducible exact Or.inl rfl) | (intro)
            | (extract_lets +onlyGivenNames x; have hx : Moves F s x := ?_; (on_goal 1 => clear_value x); (on_goal 2 => subst x))
            | (extract_lets +onlyGivenNames x; clear_value x) | (with_reducible apply Moves.ite) | (split)
            | (with_reducible apply qosOffer_moves) | (with_reducible apply perform_moves)
            | (with_reducible apply holdReq_moves) | (with_reducible apply loseReq_moves)
            | (with_reducible apply coverReq_moves) | (with_reducible apply Moves.upd))

theorem admitHeld_moves {F : ℕ} {s : State} (n : ℕ) {t : State} {pc : ℕ} (hF : Sub 47554944762911 F) (h :
    Moves F s t) :
    Moves F s (admitHeld n t pc) := by
  induction n generalizing t with
  | zero => exact h
  | succ n ih =>
    unfold admitHeld
    split
    · exact h
    · split
      · split
        · exact ih (perform_moves (hF.up rfl) (pcUpd_moves (hF.up rfl) h))
        · exact h
      · split
        · exact ih (coverReq_moves (hF.up rfl) (pcUpd_moves (hF.up rfl) h))
        · exact h
      · exact ih (loseReq_moves (hF.up rfl) (pcUpd_moves (hF.up rfl) h))
      · refine ih ?_
        split
        · exact coverReq_moves (hF.up rfl) (pcUpd_moves (hF.up rfl) h)
        · exact loseReq_moves (hF.up rfl) (pcUpd_moves (hF.up rfl) h)

theorem serveHeld_moves {F : ℕ} {s t : State} {a1 : ℕ} (hF : Sub 47554944762911 F) (h : Moves F s t) : Moves F s
    (serveHeld t a1) := by
  unfold serveHeld
  repeat'
    (first | (with_reducible assumption) | ((with_reducible refine hF.up ?_); rfl)
            | (with_reducible apply admitHeld_moves))

theorem rehome_moves {F : ℕ} {s t : State} {a1 : List Req} (hF : Sub 47554944762911 F) (h : Moves F s t) : Moves F s
    (rehome t a1) := by
  unfold rehome
  repeat'
    (first | (with_reducible assumption) | ((with_reducible refine hF.up ?_); rfl) | (intro)
            | (with_reducible apply homeReq_moves) | (with_reducible apply Moves.foldl))

theorem rerunReads_moves {F : ℕ} {s t : State} {a1 : ℕ} (hF : Sub 47554944762911 F) (h : Moves F s t) : Moves F s
    (rerunReads t a1) := by
  unfold rerunReads
  repeat'
    (first | (with_reducible assumption) | ((with_reducible refine hF.up ?_); rfl)
            | (extract_lets +onlyGivenNames x; have hx : Moves F s x := ?_; (on_goal 1 => clear_value x); (on_goal 2 => subst x))
            | (extract_lets +onlyGivenNames x; have hx : Moves F s x.1 := ?_; (on_goal 1 => clear_value x); (on_goal 2 => subst x))
            | (extract_lets +onlyGivenNames x; clear_value x) | (split)
            | (refine expTake_movesE (by with_reducible assumption) (hF.up rfl) ?_)
            | (with_reducible apply expTake_moves) | (with_reducible apply rehome_moves))

theorem rerunCluster_moves {F : ℕ} {s t : State} {a1 : ℕ} (hF : Sub 47554944762911 F) (h : Moves F s t) : Moves F s
    (rerunCluster t a1) := by
  unfold rerunCluster
  repeat'
    (first | (with_reducible assumption) | ((with_reducible refine hF.up ?_); rfl)
            | ((with_reducible refine Or.inr (hF.up ?_)); rfl) | (with_reducible exact Or.inl rfl) | (intro)
            | (extract_lets +onlyGivenNames x; have hx : Moves F s x := ?_; (on_goal 1 => clear_value x); (on_goal 2 => subst x))
            | (extract_lets +onlyGivenNames x; clear_value x) | (with_reducible apply Moves.ite)
            | (with_reducible apply rehome_moves) | (with_reducible apply Moves.upd))

theorem finishDecode_moves {F : ℕ} {s t : State} {a1 : ℕ} {a2 : List Req} (hF : Sub 47554944762911 F) (h :
    Moves F s t) : Moves F s (finishDecode t a1 a2) := by
  unfold finishDecode
  repeat'
    (first | (with_reducible assumption) | ((with_reducible refine hF.up ?_); rfl)
            | ((with_reducible refine Or.inr (hF.up ?_)); rfl) | (with_reducible exact Or.inl rfl) | (intro)
            | (with_reducible apply Moves.ite) | (split)
            | (refine decodeBlock_movesE (by with_reducible assumption) (hF.up rfl) ?_)
            | (with_reducible apply decodeBlock_moves) | (with_reducible apply cachePut_moves)
            | (with_reducible apply answerLines_moves) | (with_reducible apply damagedReq_moves)
            | (with_reducible apply rehome_moves) | (with_reducible apply Moves.foldl)
            | (with_reducible apply Moves.upd))

theorem decodeNext_moves {F : ℕ} {s t : State} {a1 : ℕ} (hF : Sub 47554944762911 F) (h : Moves F s t) : Moves F s
    (decodeNext t a1) := by
  unfold decodeNext
  repeat'
    (first | (with_reducible assumption) | ((with_reducible refine hF.up ?_); rfl)
            | ((with_reducible refine Or.inr (hF.up ?_)); rfl) | (with_reducible exact Or.inl rfl) | (intro)
            | (extract_lets +onlyGivenNames x; have hx : Moves F s x := ?_; (on_goal 1 => clear_value x); (on_goal 2 => subst x))
            | (extract_lets +onlyGivenNames x; clear_value x) | (with_reducible apply Moves.ite) | (split)
            | (with_reducible apply expUpd_moves) | (with_reducible apply finishDecode_moves)
            | (with_reducible apply Moves.upd))

theorem twinAnswered_moves {F : ℕ} {s t : State} {a1 : ℕ} {a2 : Bool} (hF : Sub 47554944762911 F) (h : Moves F s t)
    : Moves F s (twinAnswered t a1 a2) := by
  unfold twinAnswered
  repeat'
    (first | (with_reducible assumption) | ((with_reducible refine hF.up ?_); rfl)
            | ((with_reducible refine Or.inr (hF.up ?_)); rfl) | (with_reducible exact Or.inl rfl) | (intro)
            | (extract_lets +onlyGivenNames x; have hx : Moves F s x := ?_; (on_goal 1 => clear_value x); (on_goal 2 => subst x))
            | (extract_lets +onlyGivenNames x; clear_value x) | (with_reducible apply Moves.ite)
            | (with_reducible apply soloDamaged_moves) | (with_reducible apply rehome_moves)
            | (with_reducible apply Moves.foldl) | (with_reducible apply Moves.upd))

theorem twinWaitsOver_moves {F : ℕ} {s t : State} (hF : Sub 47554944762911 F) (h : Moves F s t) : Moves F s
    (twinWaitsOver t) := by
  unfold twinWaitsOver
  repeat'
    (first | (with_reducible assumption) | ((with_reducible refine hF.up ?_); rfl) | (intro)
            | (with_reducible apply twinAnswered_moves) | (with_reducible apply Moves.foldl))

end Sys2Proof.Machine
end

