-- ==== Sys2Proof/Laws/MovesTier.lean ====
section
/-! SUPPORT. What the functions of Machine/Tier.lean keep, and the kinds of state they may change (`Moves`). -/

set_option linter.all false

namespace Sys2Proof.Machine

open Sys2Proof

theorem issueIo_moves {F : ℕ} {s t : State} {a1 : ℕ} {a2 : IoKind} {a3 : ℕ} {a4 : NvmeOp} (hF : Sub 262145 F) (h :
    Moves F s t) : Moves F s (issueIo t a1 a2 a3 a4) := by
  unfold issueIo
  repeat'
    (first | (with_reducible assumption) | ((with_reducible refine hF.up ?_); rfl)
            | ((with_reducible refine Or.inr (hF.up ?_)); rfl) | (with_reducible exact Or.inl rfl) | (intro)
            | (extract_lets +onlyGivenNames x; have hx : Moves F s x := ?_; (on_goal 1 => clear_value x); (on_goal 2 => subst x))
            | (extract_lets +onlyGivenNames x; clear_value x) | (with_reducible apply Moves.ite)
            | (with_reducible apply emit_moves) | (with_reducible apply Moves.upd))

theorem pumpCredits_moves {F : ℕ} {s t : State} {a1 : Slot} (hF : Sub 262145 F) (h : Moves F s t) : Moves F s
    (pumpCredits t a1) := by
  unfold pumpCredits
  repeat'
    (first | (with_reducible assumption) | ((with_reducible refine hF.up ?_); rfl)
            | ((with_reducible refine Or.inr (hF.up ?_)); rfl) | (with_reducible exact Or.inl rfl) | (intro)
            | (extract_lets +onlyGivenNames x; have hx : Moves F s x := ?_; (on_goal 1 => clear_value x); (on_goal 2 => subst x))
            | (extract_lets +onlyGivenNames x; clear_value x) | (with_reducible apply Moves.ite)
            | (with_reducible apply emit_moves) | (with_reducible apply Moves.foldl)
            | (with_reducible apply Moves.upd))

theorem endIosIf_moves {F : ℕ} {s t : State} {a1 : Io → Bool} (hF : Sub 262145 F) (h : Moves F s t) : Moves F s
    (endIosIf t a1) := by
  unfold endIosIf
  repeat'
    (first | (with_reducible assumption) | ((with_reducible refine hF.up ?_); rfl)
            | ((with_reducible refine Or.inr (hF.up ?_)); rfl) | (with_reducible exact Or.inl rfl) | (intro)
            | (with_reducible apply pumpCredits_moves) | (with_reducible apply Moves.foldl)
            | (with_reducible apply Moves.upd))

theorem endIos_moves {F : ℕ} {s t : State} {a1 : ℕ} {a2 : IoKind} (hF : Sub 262145 F) (h : Moves F s t) : Moves F s
    (endIos t a1 a2) := by
  unfold endIos
  repeat'
    (first | (with_reducible assumption) | ((with_reducible refine hF.up ?_); rfl) | (intro)
            | (with_reducible apply endIosIf_moves))

theorem slotChange_moves {F : ℕ} {s t : State} {a1 : ℕ} (hF : Sub 1037 F) (h : Moves F s t) : Moves F s
    (slotChange t a1) := by
  unfold slotChange
  repeat'
    (first | (with_reducible assumption) | ((with_reducible refine hF.up ?_); rfl)
            | (with_reducible apply raise_moves))

theorem setSlot_moves {F : ℕ} {s t : State} {a1 : ℕ} {a2 : ℕ} (hF : Sub 137438954509 F) (h : Moves F s t) :
    Moves F s (setSlot t a1 a2) := by
  unfold setSlot
  repeat'
    (first | (with_reducible assumption) | ((with_reducible refine hF.up ?_); rfl) | (intro)
            | (with_reducible apply Moves.ite) | (with_reducible apply fset_moves)
            | (with_reducible apply slotChange_moves))

theorem setPwrInd_moves {F : ℕ} {s t : State} {a1 : ℕ} {a2 : ℕ} (hF : Sub 137438953472 F) (h : Moves F s t) :
    Moves F s (setPwrInd t a1 a2) := by
  unfold setPwrInd
  repeat'
    (first | (with_reducible assumption) | ((with_reducible refine hF.up ?_); rfl)
            | (with_reducible apply fset_moves))

theorem showAttn_moves {F : ℕ} {s t : State} {a1 : ℕ} (hF : Sub 137438953472 F) (h : Moves F s t) : Moves F s
    (showAttn t a1) := by
  unfold showAttn
  repeat'
    (first | (with_reducible assumption) | ((with_reducible refine hF.up ?_); rfl)
            | (with_reducible apply fset_moves))

theorem setFault_moves {F : ℕ} {s t : State} {a1 : ℕ} {a2 : ℕ} (hF : Sub 137438953472 F) (h : Moves F s t) :
    Moves F s (setFault t a1 a2) := by
  unfold setFault
  repeat'
    (first | (with_reducible assumption) | ((with_reducible refine hF.up ?_); rfl)
            | (with_reducible apply fset_moves) | (with_reducible apply showAttn_moves))

theorem powerSlot_moves {F : ℕ} {s t : State} {a1 : Slot} (hF : Sub 137439216653 F) (h : Moves F s t) : Moves F s
    (powerSlot t a1) := by
  unfold powerSlot
  repeat'
    (first | (with_reducible assumption) | ((with_reducible refine hF.up ?_); rfl)
            | ((with_reducible refine Or.inr (hF.up ?_)); rfl) | (with_reducible exact Or.inl rfl) | (intro)
            | (extract_lets +onlyGivenNames x; have hx : Moves F s x := ?_; (on_goal 1 => clear_value x); (on_goal 2 => subst x))
            | (extract_lets +onlyGivenNames x; clear_value x) | (with_reducible apply fset_moves)
            | (with_reducible apply emit_moves) | (with_reducible apply slotUpd_moves)
            | (with_reducible apply setSlot_moves) | (with_reducible apply setPwrInd_moves)
            | (with_reducible apply Moves.upd))

theorem powerSlots_moves {F : ℕ} {s t : State} (hF : Sub 137439216653 F) (h : Moves F s t) : Moves F s
    (powerSlots t) := by
  unfold powerSlots
  repeat'
    (first | (with_reducible assumption) | ((with_reducible refine hF.up ?_); rfl) | (intro)
            | (with_reducible apply Moves.ite) | (with_reducible apply powerSlot_moves)
            | (with_reducible apply Moves.foldl))

theorem placeWrite_moves {F : ℕ} {s t : State} {a1 : ℕ} {a2 : ℕ} {a3 : List Byte} (hF : Sub 262144 F) (h :
    Moves F s t) : Moves F s (placeWrite t a1 a2 a3) := by
  unfold placeWrite
  repeat'
    (first | (with_reducible assumption) | ((with_reducible refine hF.up ?_); rfl)
            | ((with_reducible refine Or.inr (hF.up ?_)); rfl) | (with_reducible exact Or.inl rfl)
            | (with_reducible exact fun h => Memory.wf_write h _ _)
            | (with_reducible exact fun h => Memory.wf_write (Memory.wf_zero h _ _) _ _)
            | (with_reducible exact fun h => Memory.wf_zero h _ _) | (with_reducible exact id)
            | (with_reducible exact fun _ => Memory.wf_nil)
            | (extract_lets +onlyGivenNames x; have hx : Moves F s x := ?_; (on_goal 1 => clear_value x); (on_goal 2 => subst x))
            | (extract_lets +onlyGivenNames x; clear_value x) | (with_reducible apply Moves.upd)
            | (with_reducible apply Moves.updMem))

theorem setLba_moves {F : ℕ} {s t : State} {a1 : ℕ} {a2 : ℕ} (hF : Sub 262144 F) (h : Moves F s t) : Moves F s
    (setLba t a1 a2) := by
  unfold setLba
  repeat'
    (first | (with_reducible assumption) | ((with_reducible refine hF.up ?_); rfl)
            | ((with_reducible refine Or.inr (hF.up ?_)); rfl) | (with_reducible exact Or.inl rfl) | (intro)
            | (with_reducible apply Moves.ite) | (with_reducible apply Moves.upd))

theorem pinByPolicy_moves {F : ℕ} {s t : State} {a1 : ℕ} (hF : Sub 132109 F) (h : Moves F s t) : Moves F s
    (pinByPolicy t a1) := by
  unfold pinByPolicy
  repeat'
    (first | (with_reducible assumption) | ((with_reducible refine hF.up ?_); rfl)
            | ((with_reducible refine Or.inr (hF.up ?_)); rfl) | (with_reducible exact Or.inl rfl) | (intro)
            | (with_reducible apply Moves.ite) | (split) | (with_reducible apply raise_moves)
            | (with_reducible apply frameMap_moves) | (with_reducible apply Moves.upd))

theorem repin_moves {F : ℕ} {s t : State} {a1 : ℕ} (hF : Sub 132109 F) (h : Moves F s t) : Moves F s (repin t a1)
    := by
  unfold repin
  repeat'
    (first | (with_reducible assumption) | ((with_reducible refine hF.up ?_); rfl)
            | ((with_reducible refine Or.inr (hF.up ?_)); rfl) | (with_reducible exact Or.inl rfl) | (intro)
            | (extract_lets +onlyGivenNames x; have hx : Moves F s x := ?_; (on_goal 1 => clear_value x); (on_goal 2 => subst x))
            | (extract_lets +onlyGivenNames x; clear_value x) | (split) | (with_reducible apply pinByPolicy_moves)
            | (with_reducible apply Moves.foldl) | (with_reducible apply Moves.upd))

theorem setAttrNow_moves {F : ℕ} {s t : State} {a1 : ℕ} {a2 : BitVec 32} {a3 : BitVec 32} (hF : Sub 34359878669 F)
    (h : Moves F s t) : Moves F s (setAttrNow t a1 a2 a3) := by
  unfold setAttrNow
  repeat'
    (first | (with_reducible assumption) | ((with_reducible refine hF.up ?_); rfl)
            | (with_reducible apply doSetAttr_moves) | (with_reducible apply repin_moves))

theorem lockStripe_moves {F : ℕ} {s t : State} {a1 : ℕ} (hF : Sub 262144 F) (h : Moves F s t) : Moves F s
    (lockStripe t a1) := by
  unfold lockStripe
  repeat'
    (first | (with_reducible assumption) | ((with_reducible refine hF.up ?_); rfl)
            | ((with_reducible refine Or.inr (hF.up ?_)); rfl) | (with_reducible exact Or.inl rfl)
            | (with_reducible apply Moves.upd))

theorem lockMap_moves {F : ℕ} {s t : State} {a1 : ℕ} {a2 : StripeLock → StripeLock} (hF : Sub 262144 F) (h :
    Moves F s t) : Moves F s (lockMap t a1 a2) := by
  unfold lockMap
  repeat'
    (first | (with_reducible assumption) | ((with_reducible refine hF.up ?_); rfl)
            | ((with_reducible refine Or.inr (hF.up ?_)); rfl) | (with_reducible exact Or.inl rfl) | (intro)
            | (with_reducible apply Moves.ite) | (with_reducible apply Moves.upd))

theorem issueFill_moves {F : ℕ} {s t : State} {a1 : ℕ} (hF : Sub 393217 F) (h : Moves F s t) : Moves F s
    (issueFill t a1) := by
  unfold issueFill
  repeat'
    (first | (with_reducible assumption) | ((with_reducible refine hF.up ?_); rfl)
            | ((with_reducible refine Or.inr (hF.up ?_)); rfl) | (with_reducible exact Or.inl rfl) | (intro)
            | (extract_lets +onlyGivenNames x; have hx : Moves F s x := ?_; (on_goal 1 => clear_value x); (on_goal 2 => subst x))
            | (extract_lets +onlyGivenNames x; clear_value x) | (with_reducible apply Moves.ite) | (split)
            | (with_reducible apply frameMap_moves) | (with_reducible apply issueIo_moves)
            | (with_reducible apply Moves.foldl) | (with_reducible apply Moves.upd))

theorem startFill_moves {F : ℕ} {s t : State} {a1 : ℕ} {a2 : ℕ} {a3 : Option ℕ} {a4 : List Req} (hF
    : Sub 137439085581 F) (h : Moves F s t) : Moves F s (startFill t a1 a2 a3 a4) := by
  unfold startFill
  repeat'
    (first | (with_reducible assumption) | ((with_reducible refine hF.up ?_); rfl)
            | ((with_reducible refine Or.inr (hF.up ?_)); rfl) | (with_reducible exact Or.inl rfl)
            | (extract_lets +onlyGivenNames x; have hx : Moves F s x := ?_; (on_goal 1 => clear_value x); (on_goal 2 => subst x))
            | (extract_lets +onlyGivenNames x; clear_value x) | (split) | (with_reducible apply finc_moves)
            | (with_reducible apply pinByPolicy_moves) | (with_reducible apply Moves.upd))

theorem idxOfHeader_moves {F : ℕ} {s t : State} {a1 : ℕ} {a2 : List Byte} (hF : Sub 1048576 F) (h : Moves F s t) :
    Moves F s (idxOfHeader t a1 a2) := by
  unfold idxOfHeader
  repeat'
    (first | (with_reducible assumption) | ((with_reducible refine hF.up ?_); rfl) | (intro)
            | (extract_lets +onlyGivenNames x; have hx : Moves F s x := ?_; (on_goal 1 => clear_value x); (on_goal 2 => subst x))
            | (extract_lets +onlyGivenNames x; clear_value x) | (with_reducible apply Moves.ite) | (split)
            | (with_reducible apply setIdx_moves))

theorem idxFilled_moves {F : ℕ} {s t : State} {a1 : ℕ} {a2 : List Byte} (hF : Sub 274879087629 F) (h : Moves F s t)
    : Moves F s (idxFilled t a1 a2) := by
  unfold idxFilled
  repeat'
    (first | (with_reducible assumption) | ((with_reducible refine hF.up ?_); rfl) | (intro)
            | (extract_lets +onlyGivenNames x; have hx : Moves F s x := ?_; (on_goal 1 => clear_value x); (on_goal 2 => subst x))
            | (extract_lets +onlyGivenNames x; clear_value x) | (with_reducible apply Moves.ite) | (split)
            | (with_reducible apply packFrame_moves) | (with_reducible apply damageBlock_moves)
            | (with_reducible apply idxOfHeader_moves))

theorem leaveSegment_moves {F : ℕ} {s t : State} {a1 : ℕ} (hF : Sub 1048576 F) (h : Moves F s t) : Moves F s
    (leaveSegment t a1) := by
  unfold leaveSegment
  repeat'
    (first | (with_reducible assumption) | ((with_reducible refine hF.up ?_); rfl) | (intro)
            | (with_reducible apply Moves.ite) | (split) | (with_reducible apply segMark_moves))

theorem stopWriteBack_moves {F : ℕ} {s t : State} {a1 : ℕ} (hF : Sub 393217 F) (h : Moves F s t) : Moves F s
    (stopWriteBack t a1) := by
  unfold stopWriteBack
  repeat'
    (first | (with_reducible assumption) | ((with_reducible refine hF.up ?_); rfl)
            | ((with_reducible refine Or.inr (hF.up ?_)); rfl) | (with_reducible exact Or.inl rfl) | (intro)
            | (extract_lets +onlyGivenNames x; have hx : Moves F s x := ?_; (on_goal 1 => clear_value x); (on_goal 2 => subst x))
            | (extract_lets +onlyGivenNames x; clear_value x) | (with_reducible apply Moves.ite)
            | (with_reducible apply frameMap_moves) | (with_reducible apply endIosIf_moves)
            | (with_reducible apply Moves.upd))

theorem deallocateBlock_moves {F : ℕ} {s t : State} {a1 : ℕ} (hF : Sub 393217 F) (h : Moves F s t) : Moves F s
    (deallocateBlock t a1) := by
  unfold deallocateBlock
  repeat'
    (first | (with_reducible assumption) | ((with_reducible refine hF.up ?_); rfl)
            | ((with_reducible refine Or.inr (hF.up ?_)); rfl) | (with_reducible exact Or.inl rfl) | (intro)
            | (extract_lets +onlyGivenNames x; have hx : Moves F s x := ?_; (on_goal 1 => clear_value x); (on_goal 2 => subst x))
            | (extract_lets +onlyGivenNames x; clear_value x) | (with_reducible apply Moves.ite)
            | (with_reducible apply issueIo_moves) | (with_reducible apply placeWrite_moves)
            | (with_reducible apply setLba_moves) | (with_reducible apply Moves.upd))

theorem dropBlock_moves {F : ℕ} {s t : State} {a1 : ℕ} (hF : Sub 538312721 F) (h : Moves F s t) : Moves F s
    (dropBlock t a1) := by
  unfold dropBlock
  repeat'
    (first | (with_reducible assumption) | ((with_reducible refine hF.up ?_); rfl)
            | ((with_reducible refine Or.inr (hF.up ?_)); rfl) | (with_reducible exact Or.inl rfl) | (intro)
            | (extract_lets +onlyGivenNames x; have hx : Moves F s x := ?_; (on_goal 1 => clear_value x); (on_goal 2 => subst x))
            | (extract_lets +onlyGivenNames x; clear_value x) | (with_reducible apply Moves.ite)
            | (with_reducible apply freeFrame_moves) | (with_reducible apply lockMap_moves)
            | (with_reducible apply leaveSegment_moves) | (with_reducible apply deallocateBlock_moves)
            | (with_reducible apply Moves.upd))

theorem serveWaiters_moves {F : ℕ} {s t : State} {b : ℕ} {rs : List Req} {fr : Frame}
    (hF : Sub 47554944762911 F) (h : Moves F s t) : Moves F s (serveWaiters t b rs fr) := by
  induction rs generalizing t with
  | nil => exact h
  | cons r rest ih =>
    unfold serveWaiters
    refine .ite (fun _ => ?_) (fun _ => ih (homeReq_moves (hF.up rfl) h))
    extract_lets x
    have hx : Moves F s x := dropBlock_moves (hF.up rfl) h
    clear_value x
    refine .ite (fun _ => hx) (fun _ => ih ?_)
    repeat'
      (first | (with_reducible assumption)
             | ((with_reducible refine hF.up ?_); rfl)
             | ((with_reducible refine Or.inr (hF.up ?_)); rfl)
             | (with_reducible exact Or.inl rfl)
             | (with_reducible apply Moves.upd))

theorem slowFill_moves {F : ℕ} {s t : State} {a1 : Frame} (hF : Sub 137438953472 F) (h : Moves F s t) : Moves F s
    (slowFill t a1) := by
  unfold slowFill
  repeat'
    (first | (with_reducible assumption) | ((with_reducible refine hF.up ?_); rfl)
            | ((with_reducible refine Or.inr (hF.up ?_)); rfl) | (with_reducible exact Or.inl rfl) | (intro)
            | (with_reducible apply Moves.ite) | (split) | (with_reducible apply finc_moves)
            | (with_reducible apply Moves.upd))

theorem fillDone_moves {F : ℕ} {s t : State} {a1 : ℕ} (hF : Sub 47692383716383 F) (h : Moves F s t) : Moves F s
    (fillDone t a1) := by
  unfold fillDone
  repeat'
    (first | (with_reducible assumption) | ((with_reducible refine hF.up ?_); rfl)
            | ((with_reducible refine Or.inr (hF.up ?_)); rfl) | (with_reducible exact Or.inl rfl) | (intro)
            | (extract_lets +onlyGivenNames x; have hx : Moves F s x := ?_; (on_goal 1 => clear_value x); (on_goal 2 => subst x))
            | (extract_lets +onlyGivenNames x; clear_value x) | (with_reducible apply Moves.ite) | (split)
            | (with_reducible apply putBlock_moves) | (with_reducible apply frameMap_moves)
            | (with_reducible apply endIos_moves) | (with_reducible apply idxFilled_moves)
            | (with_reducible apply serveWaiters_moves) | (with_reducible apply slowFill_moves)
            | (with_reducible apply Moves.upd))

theorem fillLost_moves {F : ℕ} {s t : State} {a1 : ℕ} (hF : Sub 1237547615249 F) (h : Moves F s t) : Moves F s
    (fillLost t a1) := by
  unfold fillLost
  repeat'
    (first | (with_reducible assumption) | ((with_reducible refine hF.up ?_); rfl)
            | ((with_reducible refine Or.inr (hF.up ?_)); rfl) | (with_reducible exact Or.inl rfl) | (intro)
            | (extract_lets +onlyGivenNames x; have hx : Moves F s x := ?_; (on_goal 1 => clear_value x); (on_goal 2 => subst x))
            | (extract_lets +onlyGivenNames x; clear_value x) | (with_reducible apply Moves.ite) | (split)
            | (with_reducible apply freeFrame_moves) | (with_reducible apply answer_moves)
            | (with_reducible apply endIos_moves) | (with_reducible apply dropBlock_moves)
            | (with_reducible apply slowFill_moves) | (with_reducible apply Moves.foldl)
            | (with_reducible apply Moves.upd))

theorem fillFailed_moves {F : ℕ} {s t : State} {a1 : ℕ} (hF : Sub 1237547615249 F) (h : Moves F s t) : Moves F s
    (fillFailed t a1) := by
  unfold fillFailed
  repeat'
    (first | (with_reducible assumption) | ((with_reducible refine hF.up ?_); rfl)
            | ((with_reducible refine Or.inr (hF.up ?_)); rfl) | (with_reducible exact Or.inl rfl) | (intro)
            | (with_reducible apply Moves.ite) | (split) | (with_reducible apply emit_moves)
            | (with_reducible apply frameMap_moves) | (with_reducible apply endIos_moves)
            | (with_reducible apply fillLost_moves) | (with_reducible apply Moves.upd))

theorem fillFromTwin_moves {F : ℕ} {s t : State} {a1 : ℕ} {a2 : Option (List Byte)} (hF : Sub 47692383716383 F) (h :
    Moves F s t) : Moves F s (fillFromTwin t a1 a2) := by
  unfold fillFromTwin
  repeat'
    (first | (with_reducible assumption) | ((with_reducible refine hF.up ?_); rfl)
            | ((with_reducible refine Or.inr (hF.up ?_)); rfl) | (with_reducible exact Or.inl rfl) | (intro)
            | (extract_lets +onlyGivenNames x; have hx : Moves F s x := ?_; (on_goal 1 => clear_value x); (on_goal 2 => subst x))
            | (extract_lets +onlyGivenNames x; clear_value x) | (with_reducible apply Moves.ite) | (split)
            | (with_reducible apply putBlock_moves) | (with_reducible apply frameMap_moves)
            | (with_reducible apply leaveSegment_moves) | (with_reducible apply serveWaiters_moves)
            | (with_reducible apply slowFill_moves) | (with_reducible apply fillLost_moves)
            | (with_reducible apply Moves.upd))

theorem twinFillsOver_moves {F : ℕ} {s t : State} (hF : Sub 1237547615249 F) (h : Moves F s t) : Moves F s
    (twinFillsOver t) := by
  unfold twinFillsOver
  repeat'
    (first | (with_reducible assumption) | ((with_reducible refine hF.up ?_); rfl) | (intro)
            | (with_reducible apply fillLost_moves) | (with_reducible apply Moves.foldl))

theorem advanceFill_moves {F : ℕ} {s t : State} {a1 : ℕ} (hF : Sub 47692383716383 F) (h : Moves F s t) : Moves F s
    (advanceFill t a1) := by
  unfold advanceFill
  repeat'
    (first | (with_reducible assumption) | ((with_reducible refine hF.up ?_); rfl)
            | ((with_reducible refine Or.inr (hF.up ?_)); rfl) | (with_reducible exact Or.inl rfl) | (intro)
            | (extract_lets +onlyGivenNames x; have hx : Moves F s x := ?_; (on_goal 1 => clear_value x); (on_goal 2 => subst x))
            | (extract_lets +onlyGivenNames x; have hx : Moves F s x.1 := ?_; (on_goal 1 => clear_value x); (on_goal 2 => subst x))
            | (extract_lets +onlyGivenNames x; clear_value x) | (with_reducible apply Moves.ite) | (split)
            | (with_reducible apply frameMap_moves)
            | (refine takePlace_movesE (by with_reducible assumption) (hF.up rfl) ?_)
            | (with_reducible apply takePlace_moves) | (with_reducible apply issueFill_moves)
            | (with_reducible apply fillDone_moves) | (with_reducible apply Moves.upd))

theorem poisonedFrame_moves {F : ℕ} {s t : State} {a1 : ℕ} {a2 : ℕ} (hF : Sub 538312720 F) (h : Moves F s t) :
    Moves F s (poisonedFrame t a1 a2) := by
  unfold poisonedFrame
  repeat'
    (first | (with_reducible assumption) | ((with_reducible refine hF.up ?_); rfl)
            | ((with_reducible refine Or.inr (hF.up ?_)); rfl) | (with_reducible exact Or.inl rfl)
            | (extract_lets +onlyGivenNames x; have hx : Moves F s x := ?_; (on_goal 1 => clear_value x); (on_goal 2 => subst x))
            | (extract_lets +onlyGivenNames x; have hx : Moves F s x.1 := ?_; (on_goal 1 => clear_value x); (on_goal 2 => subst x))
            | (extract_lets +onlyGivenNames x; clear_value x) | (split)
            | (refine takePlace_movesE (by with_reducible assumption) (hF.up rfl) ?_)
            | (with_reducible apply takePlace_moves) | (with_reducible apply poisonBlock_moves)
            | (with_reducible apply setLba_moves) | (with_reducible apply Moves.upd))

theorem tierReq_moves {F : ℕ} {s t : State} {a1 : Req} {a2 : Upset} (hF : Sub 47692383716383 F) (h : Moves F s t) :
    Moves F s (tierReq t a1 a2) := by
  unfold tierReq
  repeat'
    (first | (with_reducible assumption) | ((with_reducible refine hF.up ?_); rfl)
            | ((with_reducible refine Or.inr (hF.up ?_)); rfl) | (with_reducible exact Or.inl rfl) | (intro)
            | (extract_lets +onlyGivenNames x; have hx : Moves F s x := ?_; (on_goal 1 => clear_value x); (on_goal 2 => subst x))
            | (extract_lets +onlyGivenNames x; clear_value x) | (with_reducible apply Moves.ite) | (split)
            | (with_reducible apply record_moves) | (with_reducible apply frameMap_moves)
            | (with_reducible apply answer_moves) | (with_reducible apply forwardReq_moves)
            | (with_reducible apply homeReq_moves) | (with_reducible apply startFill_moves)
            | (with_reducible apply advanceFill_moves) | (with_reducible apply poisonedFrame_moves)
            | (with_reducible apply Moves.upd))

theorem unlockStripe_moves {F : ℕ} {s t : State} {a1 : ℕ} (hF : Sub 538312721 F) (h : Moves F s t) : Moves F s
    (unlockStripe t a1) := by
  unfold unlockStripe
  repeat'
    (first | (with_reducible assumption) | ((with_reducible refine hF.up ?_); rfl)
            | ((with_reducible refine Or.inr (hF.up ?_)); rfl) | (with_reducible exact Or.inl rfl) | (intro)
            | (extract_lets +onlyGivenNames x; have hx : Moves F s x := ?_; (on_goal 1 => clear_value x); (on_goal 2 => subst x))
            | (extract_lets +onlyGivenNames x; clear_value x) | (with_reducible apply Moves.ite) | (split)
            | (with_reducible apply issueIo_moves) | (with_reducible apply lockStripe_moves)
            | (with_reducible apply lockMap_moves) | (with_reducible apply dropBlock_moves)
            | (with_reducible apply Moves.foldl) | (with_reducible apply Moves.upd))

theorem writePlace_moves {F : ℕ} {s t : State} {a1 : ℕ} {a2 : IoKind} {a3 : ℕ} {a4 : List Byte} (hF : Sub 262145 F)
    (h : Moves F s t) : Moves F s (writePlace t a1 a2 a3 a4) := by
  unfold writePlace
  repeat'
    (first | (with_reducible assumption) | ((with_reducible refine hF.up ?_); rfl)
            | ((with_reducible refine Or.inr (hF.up ?_)); rfl) | (with_reducible exact Or.inl rfl)
            | (extract_lets +onlyGivenNames x; have hx : Moves F s x := ?_; (on_goal 1 => clear_value x); (on_goal 2 => subst x))
            | (extract_lets +onlyGivenNames x; clear_value x) | (split) | (with_reducible apply issueIo_moves)
            | (with_reducible apply Moves.upd))

theorem writesGo_moves {F : ℕ} {s t : State} {a1 : ℕ} (hF : Sub 262145 F) (h : Moves F s t) : Moves F s
    (writesGo t a1) := by
  unfold writesGo
  repeat'
    (first | (with_reducible assumption) | ((with_reducible refine hF.up ?_); rfl)
            | ((with_reducible refine Or.inr (hF.up ?_)); rfl) | (with_reducible exact Or.inl rfl) | (intro)
            | (extract_lets +onlyGivenNames x; have hx : Moves F s x := ?_; (on_goal 1 => clear_value x); (on_goal 2 => subst x))
            | (extract_lets +onlyGivenNames x; clear_value x) | (with_reducible apply Moves.ite) | (split)
            | (with_reducible apply issueIo_moves) | (with_reducible apply endIos_moves)
            | (with_reducible apply writePlace_moves) | (with_reducible apply Moves.upd))

theorem startWriteBack_moves {F : ℕ} {s t : State} {a1 : ℕ} (hF : Sub 10995989087261 F) (h : Moves F s t) :
    Moves F s (startWriteBack t a1) := by
  unfold startWriteBack
  repeat'
    (first | (with_reducible assumption) | ((with_reducible refine hF.up ?_); rfl)
            | ((with_reducible refine Or.inr (hF.up ?_)); rfl) | (with_reducible exact Or.inl rfl) | (intro)
            | (extract_lets +onlyGivenNames x; have hx : Moves F s x := ?_; (on_goal 1 => clear_value x); (on_goal 2 => subst x))
            | (extract_lets +onlyGivenNames x; have hx : Moves F s x.1 := ?_; (on_goal 1 => clear_value x); (on_goal 2 => subst x))
            | (extract_lets +onlyGivenNames x; clear_value x) | (with_reducible apply Moves.ite) | (split)
            | (with_reducible apply emit_moves) | (with_reducible apply frameMap_moves)
            | (refine readForm_movesE (by with_reducible assumption) (hF.up rfl) ?_)
            | (with_reducible apply readForm_moves) | (with_reducible apply issueIo_moves)
            | (with_reducible apply lockStripe_moves) | (with_reducible apply writesGo_moves)
            | (with_reducible apply Moves.foldl) | (with_reducible apply Moves.upd))

theorem writeBackDone_moves {F : ℕ} {s t : State} {a1 : ℕ} (hF : Sub 538312721 F) (h : Moves F s t) : Moves F s
    (writeBackDone t a1) := by
  unfold writeBackDone
  repeat'
    (first | (with_reducible assumption) | ((with_reducible refine hF.up ?_); rfl)
            | ((with_reducible refine Or.inr (hF.up ?_)); rfl) | (with_reducible exact Or.inl rfl) | (intro)
            | (extract_lets +onlyGivenNames x; have hx : Moves F s x := ?_; (on_goal 1 => clear_value x); (on_goal 2 => subst x))
            | (extract_lets +onlyGivenNames x; clear_value x) | (with_reducible apply Moves.ite) | (split)
            | (with_reducible apply frameMap_moves) | (with_reducible apply freeFrame_moves)
            | (with_reducible apply endIos_moves) | (with_reducible apply placeWrite_moves)
            | (with_reducible apply setLba_moves) | (with_reducible apply dropBlock_moves)
            | (with_reducible apply unlockStripe_moves) | (with_reducible apply writesGo_moves)
            | (with_reducible apply Moves.upd))

theorem retryExpand_moves {F : ℕ} {s t : State} {a1 : ℕ} (hF : Sub 47554944762911 F) (h : Moves F s t) : Moves F s
    (retryExpand t a1) := by
  unfold retryExpand
  repeat'
    (first | (with_reducible assumption) | ((with_reducible refine hF.up ?_); rfl)
            | ((with_reducible refine Or.inr (hF.up ?_)); rfl) | (with_reducible exact Or.inl rfl) | (intro)
            | (extract_lets +onlyGivenNames x; have hx : Moves F s x := ?_; (on_goal 1 => clear_value x); (on_goal 2 => subst x))
            | (extract_lets +onlyGivenNames x; have hx : Moves F s x.1 := ?_; (on_goal 1 => clear_value x); (on_goal 2 => subst x))
            | (extract_lets +onlyGivenNames x; clear_value x) | (with_reducible apply Moves.ite) | (split)
            | (with_reducible apply frameMap_moves)
            | (refine expandRoom_movesE (by with_reducible assumption) (hF.up rfl) ?_)
            | (with_reducible apply expandRoom_moves) | (with_reducible apply serveWaiters_moves)
            | (with_reducible apply Moves.upd))

theorem retryFills_moves {F : ℕ} {s t : State} {a1 : ℕ} (hF : Sub 47692383716383 F) (h : Moves F s t) : Moves F s
    (retryFills t a1) := by
  unfold retryFills
  repeat'
    (first | (with_reducible assumption) | ((with_reducible refine hF.up ?_); rfl) | (intro)
            | (with_reducible apply Moves.ite) | (with_reducible apply advanceFill_moves)
            | (with_reducible apply retryExpand_moves) | (with_reducible apply Moves.foldl))

theorem prefetchBlock_moves {F : ℕ} {s t : State} {a1 : ℕ} {a2 : ℕ} (hF : Sub 47692383716383 F) (h : Moves F s t) :
    Moves F s (prefetchBlock t a1 a2) := by
  unfold prefetchBlock
  repeat'
    (first | (with_reducible assumption) | ((with_reducible refine hF.up ?_); rfl) | (intro)
            | (with_reducible apply Moves.ite) | (with_reducible apply startFill_moves)
            | (with_reducible apply advanceFill_moves))

theorem pinBlock_moves {F : ℕ} {s t : State} {a1 : ℕ} {a2 : ℕ} (hF : Sub 47692383716383 F) (h : Moves F s t) :
    Moves F s (pinBlock t a1 a2) := by
  unfold pinBlock
  repeat'
    (first | (with_reducible assumption) | ((with_reducible refine hF.up ?_); rfl)
            | ((with_reducible refine Or.inr (hF.up ?_)); rfl) | (with_reducible exact Or.inl rfl) | (intro)
            | (extract_lets +onlyGivenNames x; have hx : Moves F s x := ?_; (on_goal 1 => clear_value x); (on_goal 2 => subst x))
            | (extract_lets +onlyGivenNames x; clear_value x) | (with_reducible apply Moves.ite) | (split)
            | (with_reducible apply raise_moves) | (with_reducible apply frameMap_moves)
            | (with_reducible apply prefetchBlock_moves) | (with_reducible apply Moves.upd))

theorem unpinBlock_moves {F : ℕ} {s t : State} {a1 : ℕ} {a2 : ℕ} (hF : Sub 131072 F) (h : Moves F s t) : Moves F s
    (unpinBlock t a1 a2) := by
  unfold unpinBlock
  repeat'
    (first | (with_reducible assumption) | ((with_reducible refine hF.up ?_); rfl)
            | ((with_reducible refine Or.inr (hF.up ?_)); rfl) | (with_reducible exact Or.inl rfl) | (intro)
            | (extract_lets +onlyGivenNames x; have hx : Moves F s x := ?_; (on_goal 1 => clear_value x); (on_goal 2 => subst x))
            | (extract_lets +onlyGivenNames x; clear_value x) | (with_reducible apply Moves.ite)
            | (with_reducible apply frameMap_moves) | (with_reducible apply Moves.upd))

theorem coldBlock_moves {F : ℕ} {s t : State} {a1 : ℕ} (hF : Sub 131072 F) (h : Moves F s t) : Moves F s
    (coldBlock t a1) := by
  unfold coldBlock
  repeat'
    (first | (with_reducible assumption) | ((with_reducible refine hF.up ?_); rfl)
            | ((with_reducible refine Or.inr (hF.up ?_)); rfl) | (with_reducible exact Or.inl rfl) | (intro)
            | (with_reducible apply frameMap_moves) | (with_reducible apply Moves.upd))

theorem zeroBlock_moves {F : ℕ} {s t : State} {a1 : ℕ} (hF : Sub 47554944762911 F) (h : Moves F s t) : Moves F s
    (zeroBlock t a1) := by
  unfold zeroBlock
  repeat'
    (first | (with_reducible assumption) | ((with_reducible refine hF.up ?_); rfl)
            | (with_reducible apply putBlock_moves) | (with_reducible apply makeRaw_moves)
            | (with_reducible apply noteWrite_moves) | (with_reducible apply rerunReads_moves))

theorem discardBlock_moves {F : ℕ} {s t : State} {a1 : Part} {a2 : ℕ} (hF : Sub 47692383716383 F) (h : Moves F s t)
    : Moves F s (discardBlock t a1 a2) := by
  unfold discardBlock
  repeat'
    (first | (with_reducible assumption) | ((with_reducible refine hF.up ?_); rfl)
            | ((with_reducible refine Or.inr (hF.up ?_)); rfl) | (with_reducible exact Or.inl rfl) | (intro)
            | (extract_lets +onlyGivenNames x; have hx : Moves F s x := ?_; (on_goal 1 => clear_value x); (on_goal 2 => subst x))
            | (extract_lets +onlyGivenNames x; have hx : Moves F s x.1 := ?_; (on_goal 1 => clear_value x); (on_goal 2 => subst x))
            | (extract_lets +onlyGivenNames x; clear_value x) | (with_reducible apply Moves.ite) | (split)
            | (with_reducible apply frameMap_moves)
            | (refine expTake_movesE (by with_reducible assumption) (hF.up rfl) ?_)
            | (with_reducible apply expTake_moves) | (with_reducible apply dropBlock_moves)
            | (with_reducible apply tierReq_moves) | (with_reducible apply zeroBlock_moves)
            | (with_reducible apply Moves.foldl) | (with_reducible apply Moves.upd))

theorem compactBlock_moves {F : ℕ} {s t : State} {a1 : ℕ} (hF : Sub 1048576 F) (h : Moves F s t) : Moves F s
    (compactBlock t a1) := by
  unfold compactBlock
  repeat'
    (first | (with_reducible assumption) | ((with_reducible refine hF.up ?_); rfl)
            | ((with_reducible refine Or.inr (hF.up ?_)); rfl) | (with_reducible exact Or.inl rfl) | (intro)
            | (with_reducible apply Moves.ite) | (with_reducible apply Moves.upd))

theorem loseFrames_moves {F : ℕ} {s t : State} (hF : Sub 538050576 F) (h : Moves F s t) : Moves F s (loseFrames t)
    := by
  unfold loseFrames
  repeat'
    (first | (with_reducible assumption) | ((with_reducible refine hF.up ?_); rfl)
            | ((with_reducible refine Or.inr (hF.up ?_)); rfl) | (with_reducible exact Or.inl rfl) | (intro)
            | (extract_lets +onlyGivenNames x; have hx : Moves F s x := ?_; (on_goal 1 => clear_value x); (on_goal 2 => subst x))
            | (extract_lets +onlyGivenNames x; clear_value x) | (with_reducible apply Moves.ite) | (split)
            | (with_reducible apply frameMap_moves) | (with_reducible apply freeFrame_moves)
            | (with_reducible apply Moves.foldl) | (with_reducible apply Moves.upd))

end Sys2Proof.Machine
end

