-- ==== Sys2Proof/Laws/MovesDir.lean ====
section
/-! SUPPORT. What the functions of Machine/Dir.lean keep, and the kinds of state they may change (`Moves`). -/

set_option linter.all false

namespace Sys2Proof.Machine

open Sys2Proof

theorem makeEntryRoom_moves {F : ℕ} {s t : State} {a1 : ℕ} (hF : Sub 69256380417 F) (h : Moves F s t) : Moves F s
    (makeEntryRoom t a1) := by
  unfold makeEntryRoom
  repeat'
    (first | (with_reducible assumption) | ((with_reducible refine hF.up ?_); rfl)
            | ((with_reducible refine Or.inr (hF.up ?_)); rfl) | (with_reducible exact Or.inl rfl) | (intro)
            | (extract_lets +onlyGivenNames x; have hx : Moves F s x := ?_; (on_goal 1 => clear_value x); (on_goal 2 => subst x))
            | (extract_lets +onlyGivenNames x; clear_value x) | (with_reducible apply Moves.ite) | (split)
            | (with_reducible apply finc_moves) | (with_reducible apply dirDrop_moves)
            | (with_reducible apply snoop_moves) | (with_reducible apply Moves.upd))

theorem install_moves {F : ℕ} {s t : State} {a1 : ℕ} {a2 : Bool} {a3 : List ℕ} (hF : Sub 69256380417 F) (h :
    Moves F s t) : Moves F s (install t a1 a2 a3) := by
  unfold install
  repeat'
    (first | (with_reducible assumption) | ((with_reducible refine hF.up ?_); rfl) | (intro)
            | (extract_lets +onlyGivenNames x; have hx : Moves F s x := ?_; (on_goal 1 => clear_value x); (on_goal 2 => subst x))
            | (extract_lets +onlyGivenNames x; clear_value x) | (with_reducible apply dirPut_moves)
            | (with_reducible apply makeEntryRoom_moves) | (with_reducible apply Moves.foldl))

theorem shareLine_moves {F : ℕ} {s t : State} {a1 : ℕ} {a2 : ℕ} (hF : Sub 69256380417 F) (h : Moves F s t) :
    Moves F s (shareLine t a1 a2) := by
  unfold shareLine
  repeat'
    (first | (with_reducible assumption) | ((with_reducible refine hF.up ?_); rfl)
            | ((with_reducible refine Or.inr (hF.up ?_)); rfl) | (with_reducible exact Or.inl rfl)
            | (extract_lets +onlyGivenNames x; have hx : Moves F s x := ?_; (on_goal 1 => clear_value x); (on_goal 2 => subst x))
            | (extract_lets +onlyGivenNames x; clear_value x) | (split) | (with_reducible apply dirPut_moves)
            | (with_reducible apply install_moves) | (with_reducible apply Moves.upd))

theorem useEntry_moves {F : ℕ} {s t : State} {a1 : ℕ} (hF : Sub 536903681 F) (h : Moves F s t) : Moves F s
    (useEntry t a1) := by
  unfold useEntry
  repeat'
    (first | (with_reducible assumption) | ((with_reducible refine hF.up ?_); rfl)
            | ((with_reducible refine Or.inr (hF.up ?_)); rfl) | (with_reducible exact Or.inl rfl) | (split)
            | (with_reducible apply dirPut_moves) | (with_reducible apply Moves.upd))

theorem settle_moves {F : ℕ} {s t : State} {a1 : Req} {a2 : Bool} {a3 : Bool} {a4 : List ℕ} {a5 : List ℕ} (hF
    : Sub 69256380417 F) (h : Moves F s t) : Moves F s (settle t a1 a2 a3 a4 a5) := by
  unfold settle
  repeat'
    (first | (with_reducible assumption) | ((with_reducible refine hF.up ?_); rfl)
            | ((with_reducible refine Or.inr (hF.up ?_)); rfl) | (with_reducible exact Or.inl rfl) | (intro)
            | (extract_lets +onlyGivenNames x; have hx : Moves F s x := ?_; (on_goal 1 => clear_value x); (on_goal 2 => subst x))
            | (extract_lets +onlyGivenNames x; clear_value x) | (with_reducible apply Moves.ite) | (split)
            | (with_reducible apply dirDrop_moves) | (with_reducible apply install_moves)
            | (with_reducible apply shareLine_moves) | (with_reducible apply useEntry_moves)
            | (with_reducible apply Moves.upd))

theorem dirServe_moves {F : ℕ} {s t : State} {a1 : Req} {a2 : Upset} (hF : Sub 47761103225887 F) (h : Moves F s t) :
    Moves F s (dirServe t a1 a2) := by
  unfold dirServe
  repeat'
    (first | (with_reducible assumption) | ((with_reducible refine hF.up ?_); rfl) | (intro)
            | (extract_lets +onlyGivenNames x; have hx : Moves F s x := ?_; (on_goal 1 => clear_value x); (on_goal 2 => subst x))
            | (extract_lets +onlyGivenNames x; clear_value x) | (with_reducible apply Moves.ite) | (split)
            | (with_reducible apply snoop_moves) | (with_reducible apply answer_moves)
            | (with_reducible apply readerWrite_moves) | (with_reducible apply tierReq_moves)
            | (with_reducible apply settle_moves))

theorem victimWait_moves {F : ℕ} {s t : State} (hF : Sub 68719477773 F) (h : Moves F s t) : Moves F s (victimWait t)
    := by
  unfold victimWait
  repeat'
    (first | (with_reducible assumption) | ((with_reducible refine hF.up ?_); rfl)
            | (with_reducible apply finc_moves) | (with_reducible apply raise_moves))

theorem dirReq_moves {F : ℕ} {s t : State} {a1 : Req} {a2 : Upset} (hF : Sub 47761103225887 F) (h : Moves F s t) :
    Moves F s (dirReq t a1 a2) := by
  unfold dirReq
  repeat'
    (first | (with_reducible assumption) | ((with_reducible refine hF.up ?_); rfl)
            | ((with_reducible refine Or.inr (hF.up ?_)); rfl) | (with_reducible exact Or.inl rfl) | (intro)
            | (extract_lets +onlyGivenNames x; have hx : Moves F s x := ?_; (on_goal 1 => clear_value x); (on_goal 2 => subst x))
            | (extract_lets +onlyGivenNames x; clear_value x) | (with_reducible apply Moves.ite)
            | (with_reducible apply finc_moves) | (with_reducible apply tierReq_moves)
            | (with_reducible apply dirServe_moves) | (with_reducible apply victimWait_moves)
            | (with_reducible apply Moves.upd))

theorem drainLine_moves {F : ℕ} {s t : State} {a0 : ℕ} {a2 : ℕ} (hF : Sub 47761103225887 F) (h : Moves F s t) :
    Moves F s (drainLine a0 t a2) := by
  induction a0 generalizing t with
  | zero => exact h
  | succ n ih =>
    unfold drainLine
    repeat'
      (first | (with_reducible assumption) | (with_reducible apply ih) | ((with_reducible refine hF.up ?_); rfl)
              | ((with_reducible refine Or.inr (hF.up ?_)); rfl) | (with_reducible exact Or.inl rfl) | (intro)
              | (with_reducible apply Moves.ite) | (split) | (with_reducible apply dirServe_moves)
              | (with_reducible apply Moves.upd))

theorem drainSlice_moves {F : ℕ} {s t : State} {a1 : ℕ} (hF : Sub 47761103225887 F) (h : Moves F s t) : Moves F s
    (drainSlice t a1) := by
  unfold drainSlice
  repeat'
    (first | (with_reducible assumption) | ((with_reducible refine hF.up ?_); rfl) | (intro)
            | (extract_lets +onlyGivenNames x; have hx : Moves F s x := ?_; (on_goal 1 => clear_value x); (on_goal 2 => subst x))
            | (extract_lets +onlyGivenNames x; clear_value x) | (with_reducible apply drainLine_moves)
            | (with_reducible apply Moves.foldl))

theorem finishTrans_moves {F : ℕ} {s t : State} {a1 : DirTrans} (hF : Sub 47761103225887 F) (h : Moves F s t) :
    Moves F s (finishTrans t a1) := by
  unfold finishTrans
  repeat'
    (first | (with_reducible assumption) | ((with_reducible refine hF.up ?_); rfl)
            | ((with_reducible refine Or.inr (hF.up ?_)); rfl) | (with_reducible exact Or.inl rfl) | (intro)
            | (extract_lets +onlyGivenNames x; have hx : Moves F s x := ?_; (on_goal 1 => clear_value x); (on_goal 2 => subst x))
            | (extract_lets +onlyGivenNames x; clear_value x) | (with_reducible apply Moves.ite) | (split)
            | (with_reducible apply forgetOn_moves) | (with_reducible apply tierReq_moves)
            | (with_reducible apply settle_moves) | (with_reducible apply Moves.upd))

theorem lineDone_moves {F : ℕ} {s t : State} {a1 : ℕ} (hF : Sub 47761103225887 F) (h : Moves F s t) : Moves F s
    (lineDone t a1) := by
  unfold lineDone
  repeat'
    (first | (with_reducible assumption) | ((with_reducible refine hF.up ?_); rfl)
            | ((with_reducible refine Or.inr (hF.up ?_)); rfl) | (with_reducible exact Or.inl rfl) | (intro)
            | (extract_lets +onlyGivenNames x; have hx : Moves F s x := ?_; (on_goal 1 => clear_value x); (on_goal 2 => subst x))
            | (extract_lets +onlyGivenNames x; clear_value x) | (with_reducible apply Moves.ite)
            | (with_reducible apply victimWait_moves) | (with_reducible apply drainLine_moves)
            | (with_reducible apply drainSlice_moves) | (with_reducible apply finishTrans_moves)
            | (with_reducible apply Moves.foldl) | (with_reducible apply Moves.upd))

theorem leaveDone_moves {F : ℕ} {s t : State} {a1 : ℕ} {a2 : ℕ} (hF : Sub 281509336523789 F) (h : Moves F s t) :
    Moves F s (leaveDone t a1 a2) := by
  unfold leaveDone
  repeat'
    (first | (with_reducible assumption) | ((with_reducible refine hF.up ?_); rfl)
            | ((with_reducible refine Or.inr (hF.up ?_)); rfl) | (with_reducible exact Or.inl rfl) | (intro)
            | (with_reducible apply Moves.ite) | (split) | (with_reducible apply finishRemoval_moves)
            | (with_reducible apply Moves.upd))

theorem biAnswer_moves {F : ℕ} {s t : State} {a1 : ℕ} {a2 : ℕ} {a3 : Sys2Proof.BiResp} (hF : Sub 329270439683103 F)
    (h : Moves F s t) : Moves F s (biAnswer t a1 a2 a3) := by
  unfold biAnswer
  repeat'
    (first | (with_reducible assumption) | ((with_reducible refine hF.up ?_); rfl)
            | ((with_reducible refine Or.inr (hF.up ?_)); rfl) | (with_reducible exact Or.inl rfl) | (intro)
            | (extract_lets +onlyGivenNames x; have hx : Moves F s x := ?_; (on_goal 1 => clear_value x); (on_goal 2 => subst x))
            | (extract_lets +onlyGivenNames x; clear_value x) | (with_reducible apply Moves.ite) | (split)
            | (with_reducible apply finc_moves) | (with_reducible apply emit_moves)
            | (with_reducible apply dirSet_moves) | (with_reducible apply forgetOn_moves)
            | (with_reducible apply lineDone_moves) | (with_reducible apply leaveDone_moves)
            | (with_reducible apply Moves.upd))

theorem answerAll_moves {F : ℕ} {s t : State} {a1 : ℕ → Bool} (hF : Sub 329270439683103 F) (h : Moves F s t) :
    Moves F s (answerAll t a1) := by
  unfold answerAll
  repeat'
    (first | (with_reducible assumption) | ((with_reducible refine hF.up ?_); rfl) | (intro)
            | (extract_lets +onlyGivenNames x; have hx : Moves F s x := ?_; (on_goal 1 => clear_value x); (on_goal 2 => subst x))
            | (extract_lets +onlyGivenNames x; clear_value x) | (with_reducible apply biAnswer_moves)
            | (with_reducible apply Moves.foldl))

theorem dropSharers_moves {F : ℕ} {s t : State} {a1 : ℕ → Bool} (hF : Sub 329270439683103 F) (h : Moves F s t) :
    Moves F s (dropSharers t a1) := by
  unfold dropSharers
  repeat'
    (first | (with_reducible assumption) | ((with_reducible refine hF.up ?_); rfl)
            | (with_reducible apply forgetSharers_moves) | (with_reducible apply answerAll_moves))

theorem evictClean_moves {F : ℕ} {s t : State} {a1 : ℕ} {a2 : ℕ} (hF : Sub 69256380417 F) (h : Moves F s t) :
    Moves F s (evictClean t a1 a2) := by
  unfold evictClean
  repeat'
    (first | (with_reducible assumption) | ((with_reducible refine hF.up ?_); rfl) | (intro)
            | (extract_lets +onlyGivenNames x; have hx : Moves F s x := ?_; (on_goal 1 => clear_value x); (on_goal 2 => subst x))
            | (extract_lets +onlyGivenNames x; clear_value x) | (with_reducible apply Moves.ite)
            | (with_reducible apply finc_moves) | (with_reducible apply forgetOn_moves))

theorem snoopForTwin_moves {F : ℕ} {s t : State} {a1 : ℕ} {a2 : Sys2Proof.Snp} {a3 : ℕ} (hF : Sub 68719509505 F) (h
    : Moves F s t) : Moves F s (snoopForTwin t a1 a2 a3) := by
  unfold snoopForTwin
  repeat'
    (first | (with_reducible assumption) | ((with_reducible refine hF.up ?_); rfl) | (intro)
            | (with_reducible apply Moves.ite) | (with_reducible apply emit_moves)
            | (with_reducible apply snoop_moves))

theorem tellTwinPart_moves {F : ℕ} {s t : State} {a1 : ℕ} {a2 : Bool} {a3 : List ℕ} (hF : Sub 69256380417 F) (h :
    Moves F s t) : Moves F s (tellTwinPart t a1 a2 a3) := by
  unfold tellTwinPart
  repeat'
    (first | (with_reducible assumption) | ((with_reducible refine hF.up ?_); rfl)
            | ((with_reducible refine Or.inr (hF.up ?_)); rfl) | (with_reducible exact Or.inl rfl) | (intro)
            | (extract_lets +onlyGivenNames x; have hx : Moves F s x := ?_; (on_goal 1 => clear_value x); (on_goal 2 => subst x))
            | (extract_lets +onlyGivenNames x; clear_value x) | (with_reducible apply Moves.ite) | (split)
            | (with_reducible apply dirDrop_moves) | (with_reducible apply dirSet_moves)
            | (with_reducible apply install_moves) | (with_reducible apply Moves.upd))

theorem takeOwnPart_moves {F : ℕ} {s t : State} {a1 : ℕ} {a2 : Bool} {a3 : List ℕ} (hF : Sub 69256380417 F) (h :
    Moves F s t) : Moves F s (takeOwnPart t a1 a2 a3) := by
  unfold takeOwnPart
  repeat'
    (first | (with_reducible assumption) | ((with_reducible refine hF.up ?_); rfl)
            | ((with_reducible refine Or.inr (hF.up ?_)); rfl) | (with_reducible exact Or.inl rfl) | (intro)
            | (with_reducible apply Moves.ite) | (split) | (with_reducible apply dirPut_moves)
            | (with_reducible apply install_moves) | (with_reducible apply Moves.foldl)
            | (with_reducible apply Moves.upd))

theorem passDirectory_moves {F : ℕ} {s t : State} (hF : Sub 536870913 F) (h : Moves F s t) : Moves F s
    (passDirectory t) := by
  unfold passDirectory
  repeat'
    (first | (with_reducible assumption) | ((with_reducible refine hF.up ?_); rfl) | (intro)
            | (extract_lets +onlyGivenNames x; have hx : Moves F s x := ?_; (on_goal 1 => clear_value x); (on_goal 2 => subst x))
            | (extract_lets +onlyGivenNames x; clear_value x) | (with_reducible apply Moves.ite)
            | (with_reducible apply journalSend_moves) | (with_reducible apply Moves.foldl))

theorem dropTwinSharers_moves {F : ℕ} {s t : State} (hF : Sub 329270439683103 F) (h : Moves F s t) : Moves F s
    (dropTwinSharers t) := by
  unfold dropTwinSharers
  repeat'
    (first | (with_reducible assumption) | ((with_reducible refine hF.up ?_); rfl) | (intro)
            | (with_reducible apply dropSharers_moves))

end Sys2Proof.Machine
end

