-- ==== Sys2Proof/Laws/MovesHostMem.lean ====
section
/-! SUPPORT. What the functions of Machine/HostMem.lean keep, and the kinds of state they may change (`Moves`). -/

set_option linter.all false

namespace Sys2Proof.Machine

open Sys2Proof

theorem setRole_moves {F : ℕ} {s t : State} {a1 : ℕ} (hF : Sub 35184372089869 F) (h : Moves F s t) : Moves F s
    (setRole t a1) := by
  unfold setRole
  repeat'
    (first | (with_reducible assumption) | ((with_reducible refine hF.up ?_); rfl) | (intro)
            | (with_reducible apply Moves.ite) | (with_reducible apply fset_moves)
            | (with_reducible apply raise_moves))

theorem alignOver_moves {F : ℕ} {s t : State} (hF : Sub 562949953421568 F) (h : Moves F s t) : Moves F s
    (alignOver t) := by
  unfold alignOver
  repeat'
    (first | (with_reducible assumption) | ((with_reducible refine hF.up ?_); rfl)
            | ((with_reducible refine Or.inr (hF.up ?_)); rfl) | (with_reducible exact Or.inl rfl)
            | (extract_lets +onlyGivenNames x; have hx : Moves F s x := ?_; (on_goal 1 => clear_value x); (on_goal 2 => subst x))
            | (extract_lets +onlyGivenNames x; clear_value x) | (with_reducible apply fset_moves)
            | (with_reducible apply Moves.upd))

theorem fencedDrop_moves {F : ℕ} {s t : State} {a1 : Req} (hF : Sub 36284479308801 F) (h : Moves F s t) : Moves F s
    (fencedDrop t a1) := by
  unfold fencedDrop
  repeat'
    (first | (with_reducible assumption) | ((with_reducible refine hF.up ?_); rfl)
            | ((with_reducible refine Or.inr (hF.up ?_)); rfl) | (with_reducible exact Or.inl rfl) | (intro)
            | (extract_lets +onlyGivenNames x; have hx : Moves F s x := ?_; (on_goal 1 => clear_value x); (on_goal 2 => subst x))
            | (extract_lets +onlyGivenNames x; clear_value x) | (with_reducible apply Moves.ite)
            | (with_reducible apply finc_moves) | (with_reducible apply emit_moves)
            | (with_reducible apply cfgUpd_moves) | (with_reducible apply logSignal_moves)
            | (with_reducible apply answer_moves) | (with_reducible apply Moves.upd))

theorem routeReq_moves {F : ℕ} {s t : State} {a1 : Extent} {a2 : Req} {a3 : Upset} (hF : Sub 47761103225887 F) (h :
    Moves F s t) : Moves F s (routeReq t a1 a2 a3) := by
  unfold routeReq
  repeat'
    (first | (with_reducible assumption) | ((with_reducible refine hF.up ?_); rfl) | (intro)
            | (with_reducible apply Moves.ite) | (with_reducible apply tierReq_moves)
            | (with_reducible apply dirReq_moves))

theorem unheld_moves {F : ℕ} {s t : State} {a1 : ℕ} {a2 : ℕ} (hF : Sub 1037 F) (h : Moves F s t) : Moves F s
    (unheld t a1 a2) := by
  unfold unheld
  repeat'
    (first | (with_reducible assumption) | ((with_reducible refine hF.up ?_); rfl)
            | (with_reducible apply raise_moves))

theorem goneReq_moves {F : ℕ} {s t : State} {a1 : Req} (hF : Sub 1099570349069 F) (h : Moves F s t) : Moves F s
    (goneReq t a1) := by
  unfold goneReq
  repeat'
    (first | (with_reducible assumption) | ((with_reducible refine hF.up ?_); rfl)
            | ((with_reducible refine Or.inr (hF.up ?_)); rfl) | (with_reducible exact Or.inl rfl) | (intro)
            | (extract_lets +onlyGivenNames x; have hx : Moves F s x := ?_; (on_goal 1 => clear_value x); (on_goal 2 => subst x))
            | (extract_lets +onlyGivenNames x; clear_value x) | (with_reducible apply Moves.ite) | (split)
            | (with_reducible apply failJob_moves) | (with_reducible apply answer_moves)
            | (with_reducible apply unheld_moves) | (with_reducible apply Moves.upd))

theorem windowWrite_moves {F : ℕ} {s t : State} {a1 : Req} {a2 : State → Req → State} (hF : Sub 1099570349069 F) (k2
    : ∀ u0 u1, Moves F s u0 → Moves F s (a2 u0 u1)) (h : Moves F s t) : Moves F s (windowWrite t a1 a2) := by
  unfold windowWrite
  repeat'
    (first | (with_reducible assumption) | (with_reducible apply k2) | ((with_reducible refine hF.up ?_); rfl)
            | ((with_reducible refine Or.inr (hF.up ?_)); rfl) | (with_reducible exact Or.inl rfl) | (intro)
            | (extract_lets +onlyGivenNames x; have hx : Moves F s x := ?_; (on_goal 1 => clear_value x); (on_goal 2 => subst x))
            | (extract_lets +onlyGivenNames x; clear_value x) | (with_reducible apply Moves.ite)
            | (with_reducible apply raise_moves) | (with_reducible apply answer_moves)
            | (with_reducible apply Moves.upd))

theorem sendWrite_moves {F : ℕ} {s t : State} {a1 : Extent} {a2 : Req} (hF : Sub 47761103225887 F) (h : Moves F s t)
    : Moves F s (sendWrite t a1 a2) := by
  unfold sendWrite
  repeat'
    (first | (with_reducible assumption) | ((with_reducible refine hF.up ?_); rfl)
            | ((with_reducible refine Or.inr (hF.up ?_)); rfl) | (with_reducible exact Or.inl rfl) | (intro)
            | (extract_lets +onlyGivenNames x; have hx : Moves F s x := ?_; (on_goal 1 => clear_value x); (on_goal 2 => subst x))
            | (extract_lets +onlyGivenNames x; have hx : Moves F s x.2 := ?_; (on_goal 1 => clear_value x); (on_goal 2 => subst x))
            | (extract_lets +onlyGivenNames x; clear_value x) | (with_reducible apply Moves.ite) | (split)
            | (with_reducible apply finc_moves) | (with_reducible apply emit_moves)
            | (refine newId_movesE (by with_reducible assumption) (hF.up rfl) ?_)
            | (with_reducible apply newId_moves) | (with_reducible apply routeReq_moves)
            | (with_reducible apply Moves.upd))

theorem checkedWrite_moves {F : ℕ} {s t : State} {a1 : Req} (hF : Sub 47761103225887 F) (h : Moves F s t) :
    Moves F s (checkedWrite t a1) := by
  unfold checkedWrite
  repeat'
    (first | (with_reducible assumption) | ((with_reducible refine hF.up ?_); rfl)
            | ((with_reducible refine Or.inr (hF.up ?_)); rfl) | (with_reducible exact Or.inl rfl) | (intro)
            | (with_reducible apply Moves.ite) | (split) | (with_reducible apply answer_moves)
            | (with_reducible apply readerWrite_moves) | (with_reducible apply goneReq_moves)
            | (with_reducible apply windowWrite_moves) | (with_reducible apply sendWrite_moves)
            | (with_reducible apply Moves.upd))

theorem resend_moves {F : ℕ} {s t : State} {a1 : Req} (hF : Sub 47761103225887 F) (h : Moves F s t) : Moves F s
    (resend t a1) := by
  unfold resend
  repeat'
    (first | (with_reducible assumption) | ((with_reducible refine hF.up ?_); rfl)
            | ((with_reducible refine Or.inr (hF.up ?_)); rfl) | (with_reducible exact Or.inl rfl) | (intro)
            | (with_reducible apply Moves.ite) | (split) | (with_reducible apply routeReq_moves)
            | (with_reducible apply goneReq_moves) | (with_reducible apply checkedWrite_moves)
            | (with_reducible apply Moves.upd))

theorem fence_moves {F : ℕ} {s t : State} {a1 : ℕ} (hF : Sub 47761103750175 F) (h : Moves F s t) : Moves F s
    (fence t a1) := by
  unfold fence
  repeat'
    (first | (with_reducible assumption) | ((with_reducible refine hF.up ?_); rfl)
            | ((with_reducible refine Or.inr (hF.up ?_)); rfl) | (with_reducible exact Or.inl rfl) | (intro)
            | (extract_lets +onlyGivenNames x; have hx : Moves F s x := ?_; (on_goal 1 => clear_value x); (on_goal 2 => subst x))
            | (extract_lets +onlyGivenNames x; clear_value x) | (with_reducible apply Moves.ite)
            | (with_reducible apply fset_moves) | (with_reducible apply raise_moves)
            | (with_reducible apply setRole_moves) | (with_reducible apply fencedDrop_moves)
            | (with_reducible apply resend_moves) | (with_reducible apply Moves.foldl)
            | (with_reducible apply Moves.upd))

theorem fenceAlone_moves {F : ℕ} {s t : State} {a1 : ℕ} (hF : Sub 329270440207391 F) (h : Moves F s t) : Moves F s
    (fenceAlone t a1) := by
  unfold fenceAlone
  repeat'
    (first | (with_reducible assumption) | ((with_reducible refine hF.up ?_); rfl)
            | ((with_reducible refine Or.inr (hF.up ?_)); rfl) | (with_reducible exact Or.inl rfl) | (intro)
            | (extract_lets +onlyGivenNames x; have hx : Moves F s x := ?_; (on_goal 1 => clear_value x); (on_goal 2 => subst x))
            | (extract_lets +onlyGivenNames x; clear_value x) | (with_reducible apply dropTwinSharers_moves)
            | (with_reducible apply fencedDrop_moves) | (with_reducible apply fence_moves)
            | (with_reducible apply Moves.foldl) | (with_reducible apply Moves.upd))

theorem sendLeaving_moves {F : ℕ} {s t : State} (hF : Sub 892220393628959 F) (h : Moves F s t) : Moves F s
    (sendLeaving t) := by
  unfold sendLeaving
  repeat'
    (first | (with_reducible assumption) | ((with_reducible refine hF.up ?_); rfl)
            | ((with_reducible refine Or.inr (hF.up ?_)); rfl) | (with_reducible exact Or.inl rfl) | (intro)
            | (extract_lets +onlyGivenNames x; have hx : Moves F s x := ?_; (on_goal 1 => clear_value x); (on_goal 2 => subst x))
            | (extract_lets +onlyGivenNames x; clear_value x) | (with_reducible apply Moves.ite)
            | (with_reducible apply emit_moves) | (with_reducible apply alignOver_moves)
            | (with_reducible apply fenceAlone_moves) | (with_reducible apply Moves.upd))

theorem notCarried_moves {F : ℕ} {s t : State} {a1 : Head} {a2 : Part} (hF : Sub 1037 F) (h : Moves F s t) :
    Moves F s (notCarried t a1 a2) := by
  unfold notCarried
  repeat'
    (first | (with_reducible assumption) | ((with_reducible refine hF.up ?_); rfl)
            | (with_reducible apply record_moves))

theorem doHostRead_moves {F : ℕ} {s t : State} {a1 : Head} {a2 : Part} {a3 : ℕ} {a4 : Meta} {a5 : Upset} (hF
    : Sub 47761103225887 F) (h : Moves F s t) : Moves F s (doHostRead t a1 a2 a3 a4 a5) := by
  unfold doHostRead
  repeat'
    (first | (with_reducible assumption) | ((with_reducible refine hF.up ?_); rfl)
            | ((with_reducible refine Or.inr (hF.up ?_)); rfl) | (with_reducible exact Or.inl rfl) | (intro)
            | (extract_lets +onlyGivenNames x; have hx : Moves F s x := ?_; (on_goal 1 => clear_value x); (on_goal 2 => subst x))
            | (extract_lets +onlyGivenNames x; clear_value x) | (with_reducible apply Moves.ite) | (split)
            | (with_reducible apply raise_moves) | (with_reducible apply record_moves)
            | (with_reducible apply answer_moves) | (with_reducible apply forwardReq_moves)
            | (with_reducible apply routeReq_moves) | (with_reducible apply goneReq_moves)
            | (with_reducible apply notCarried_moves) | (with_reducible apply Moves.upd))

theorem doHostWrite_moves {F : ℕ} {s t : State} {a1 : Head} {a2 : Part} {a3 : ℕ} {a4 : Line} {a5 : BitVec 64} {a6
    : Meta} (hF : Sub 47761103225887 F) (h : Moves F s t) : Moves F s (doHostWrite t a1 a2 a3 a4 a5 a6) := by
  unfold doHostWrite
  repeat'
    (first | (with_reducible assumption) | ((with_reducible refine hF.up ?_); rfl)
            | ((with_reducible refine Or.inr (hF.up ?_)); rfl) | (with_reducible exact Or.inl rfl) | (intro)
            | (extract_lets +onlyGivenNames x; have hx : Moves F s x := ?_; (on_goal 1 => clear_value x); (on_goal 2 => subst x))
            | (extract_lets +onlyGivenNames x; clear_value x) | (with_reducible apply Moves.ite) | (split)
            | (with_reducible apply answer_moves) | (with_reducible apply fencedDrop_moves)
            | (with_reducible apply checkedWrite_moves) | (with_reducible apply notCarried_moves)
            | (with_reducible apply Moves.upd))

theorem doCleanEviction_moves {F : ℕ} {s t : State} {a1 : Head} {a2 : Part} {a3 : ℕ} (hF : Sub 1168801563661 F) (h :
    Moves F s t) : Moves F s (doCleanEviction t a1 a2 a3) := by
  unfold doCleanEviction
  repeat'
    (first | (with_reducible assumption) | ((with_reducible refine hF.up ?_); rfl)
            | ((with_reducible refine Or.inr (hF.up ?_)); rfl) | (with_reducible exact Or.inl rfl) | (intro)
            | (extract_lets +onlyGivenNames x; have hx : Moves F s x := ?_; (on_goal 1 => clear_value x); (on_goal 2 => subst x))
            | (extract_lets +onlyGivenNames x; clear_value x) | (with_reducible apply Moves.ite) | (split)
            | (with_reducible apply emit_moves) | (with_reducible apply hostRsp_moves)
            | (with_reducible apply evictClean_moves) | (with_reducible apply notCarried_moves)
            | (with_reducible apply Moves.upd))

theorem doBiTimeout_moves {F : ℕ} {s t : State} {a1 : Head} {a2 : Part} {a3 : ℕ} (hF : Sub 329270439683103 F) (h :
    Moves F s t) : Moves F s (doBiTimeout t a1 a2 a3) := by
  unfold doBiTimeout
  repeat'
    (first | (with_reducible assumption) | ((with_reducible refine hF.up ?_); rfl)
            | (extract_lets +onlyGivenNames x; have hx : Moves F s x := ?_; (on_goal 1 => clear_value x); (on_goal 2 => subst x))
            | (extract_lets +onlyGivenNames x; clear_value x) | (with_reducible apply fset_moves)
            | (with_reducible apply finc_moves) | (with_reducible apply mediaEvent_moves)
            | (with_reducible apply raise_moves) | (with_reducible apply biAnswer_moves))

theorem clearBiFailed_moves {F : ℕ} {s t : State} {a1 : ℕ} (hF : Sub 68719476736 F) (h : Moves F s t) : Moves F s
    (clearBiFailed t a1) := by
  unfold clearBiFailed
  repeat'
    (first | (with_reducible assumption) | ((with_reducible refine hF.up ?_); rfl) | (intro)
            | (with_reducible apply Moves.ite) | (with_reducible apply fset_moves)
            | (with_reducible apply Moves.foldl))

theorem execHostMemRead_moves {F : ℕ} {s t : State} {a0 : Head} {a1 : Part} {a2 : ℕ} {a3 : Meta} {a4 : Upset} (hF
    : Sub 47761103226015 F) (h : Moves F s t) : ∃ u, (execHostMemRead a0 a1 a2 a3 a4 t) = .next u ∧ Moves F s u
    := by
  unfold execHostMemRead
  refine ⟨_, rfl, ?_⟩
  repeat'
    (first | (with_reducible assumption) | ((with_reducible refine hF.up ?_); rfl) | (intro)
            | (with_reducible apply Moves.ite) | (split) | (with_reducible apply touch_moves)
            | (with_reducible apply doHostRead_moves))

theorem execHostMemWrite_moves {F : ℕ} {s t : State} {a0 : Head} {a1 : Part} {a2 : ℕ} {a3 : Line} {a4 : BitVec 64}
    {a5 : Meta} (hF : Sub 47761103226015 F) (h : Moves F s t) : ∃ u,
    (execHostMemWrite a0 a1 a2 a3 a4 a5 t) = .next u ∧ Moves F s u := by
  unfold execHostMemWrite
  refine ⟨_, rfl, ?_⟩
  repeat'
    (first | (with_reducible assumption) | ((with_reducible refine hF.up ?_); rfl) | (intro)
            | (with_reducible apply Moves.ite) | (split) | (with_reducible apply touch_moves)
            | (with_reducible apply doHostWrite_moves))

theorem execPartialWriteMerge_moves {F : ℕ} {s t : State} {a0 : ℕ} {a1 : Upset} (hF : Sub 10995988694045 F) (h :
    Moves F s t) : ∃ u, (execPartialWriteMerge a0 a1 t) = .next u ∧ Moves F s u := by
  unfold execPartialWriteMerge
  refine ⟨_, rfl, ?_⟩
  repeat'
    (first | (with_reducible assumption) | ((with_reducible refine hF.up ?_); rfl) | (intro)
            | (with_reducible apply Moves.ite) | (split) | (with_reducible apply mergeLineAll_moves))

theorem execCleanEviction_moves {F : ℕ} {s t : State} {a0 : Head} {a1 : Part} {a2 : ℕ} (hF : Sub 1168801563789 F) (h
    : Moves F s t) : ∃ u, (execCleanEviction a0 a1 a2 t) = .next u ∧ Moves F s u := by
  unfold execCleanEviction
  refine ⟨_, rfl, ?_⟩
  repeat'
    (first | (with_reducible assumption) | ((with_reducible refine hF.up ?_); rfl) | (intro)
            | (with_reducible apply Moves.ite) | (split) | (with_reducible apply touch_moves)
            | (with_reducible apply doCleanEviction_moves))

theorem execBirsp_moves {F : ℕ} {s t : State} {a0 : Head} {a1 : Part} {a2 : ℕ} {a3 : Sys2Proof.BiResp} (hF
    : Sub 329270439683103 F) (h : Moves F s t) : ∃ u, (execBirsp a0 a1 a2 a3 t) = .next u ∧ Moves F s u := by
  unfold execBirsp
  refine ⟨_, rfl, ?_⟩
  repeat'
    (first | (with_reducible assumption) | ((with_reducible refine hF.up ?_); rfl) | (intro)
            | (with_reducible apply Moves.ite) | (split) | (with_reducible apply biAnswer_moves))

theorem execBiconflict_moves {F : ℕ} {s t : State} {a0 : Head} {a1 : Part} {a2 : ℕ} (hF : Sub 1 F) (h : Moves F s t)
    : ∃ u, (execBiconflict a0 a1 a2 t) = .next u ∧ Moves F s u := by
  unfold execBiconflict
  refine ⟨_, rfl, ?_⟩
  repeat'
    (first | (with_reducible assumption) | ((with_reducible refine hF.up ?_); rfl) | (intro)
            | (with_reducible apply Moves.ite) | (split) | (with_reducible apply emit_moves))

theorem execBiTimeout_moves {F : ℕ} {s t : State} {a0 : Head} {a1 : Part} {a2 : ℕ} (hF : Sub 329270439683103 F) (h :
    Moves F s t) : ∃ u, (execBiTimeout a0 a1 a2 t) = .next u ∧ Moves F s u := by
  unfold execBiTimeout
  refine ⟨_, rfl, ?_⟩
  repeat'
    (first | (with_reducible assumption) | ((with_reducible refine hF.up ?_); rfl) | (intro)
            | (with_reducible apply Moves.ite) | (split) | (with_reducible apply doBiTimeout_moves))

end Sys2Proof.Machine
end

