-- ==== Sys2Proof/Laws/MovesPcOps.lean ====
section
/-! SUPPORT. What the functions of Machine/PcOps.lean keep, and the kinds of state they may change (`Moves`). -/

set_option linter.all false

namespace Sys2Proof.Machine

open Sys2Proof

theorem settleLine_moves {F : ℕ} {s t : State} {a1 : ℕ} {a2 : ℕ} (hF : Sub 603979792 F) (h : Moves F s t) :
    Moves F s (settleLine t a1 a2) := by
  unfold settleLine
  repeat'
    (first | (with_reducible assumption) | ((with_reducible refine hF.up ?_); rfl)
            | ((with_reducible refine Or.inr (hF.up ?_)); rfl) | (with_reducible exact Or.inl rfl) | (intro)
            | (extract_lets +onlyGivenNames x; have hx : Moves F s x := ?_; (on_goal 1 => clear_value x); (on_goal 2 => subst x))
            | (extract_lets +onlyGivenNames x; clear_value x) | (with_reducible apply Moves.ite) | (split)
            | (with_reducible apply pcUpd_moves) | (with_reducible apply putLine_moves)
            | (with_reducible apply putPoison_moves) | (with_reducible apply Moves.upd))

theorem settleLines_moves {F : ℕ} {s t : State} {a1 : ℕ} {a2 : List ℕ} (hF : Sub 603979792 F) (h : Moves F s t) :
    Moves F s (settleLines t a1 a2) := by
  unfold settleLines
  repeat'
    (first | (with_reducible assumption) | ((with_reducible refine hF.up ?_); rfl) | (intro)
            | (with_reducible apply settleLine_moves) | (with_reducible apply Moves.foldl))

theorem retiredEvt_moves {F : ℕ} {s t : State} {a1 : ℕ} {a2 : ℕ} {a3 : ℕ} {a4 : ℕ} {a5 : ℕ} (hF : Sub 1037 F) (h :
    Moves F s t) : Moves F s (retiredEvt t a1 a2 a3 a4 a5) := by
  unfold retiredEvt
  repeat'
    (first | (with_reducible assumption) | ((with_reducible refine hF.up ?_); rfl)
            | (with_reducible apply raise_moves))

theorem coverEvt_moves {F : ℕ} {s t : State} {a1 : List Byte} (hF : Sub 1037 F) (h : Moves F s t) : Moves F s
    (coverEvt t a1) := by
  unfold coverEvt
  repeat'
    (first | (with_reducible assumption) | ((with_reducible refine hF.up ?_); rfl) | (intro)
            | (with_reducible apply Moves.ite) | (with_reducible apply raise_moves))

theorem failPc_moves {F : ℕ} {s t : State} {a1 : ℕ} (hF : Sub 47554944762911 F) (h : Moves F s t) : Moves F s
    (failPc t a1) := by
  unfold failPc
  repeat'
    (first | (with_reducible assumption) | ((with_reducible refine hF.up ?_); rfl)
            | ((with_reducible refine Or.inr (hF.up ?_)); rfl) | (with_reducible exact Or.inl rfl) | (intro)
            | (extract_lets +onlyGivenNames x; have hx : Moves F s x := ?_; (on_goal 1 => clear_value x); (on_goal 2 => subst x))
            | (extract_lets +onlyGivenNames x; clear_value x) | (with_reducible apply Moves.ite) | (split)
            | (with_reducible apply fset_moves) | (with_reducible apply finc_moves)
            | (with_reducible apply hupd_moves) | (with_reducible apply pcUpd_moves)
            | (with_reducible apply raise_moves) | (with_reducible apply setPcSt_moves)
            | (with_reducible apply serveHeld_moves) | (with_reducible apply loseFrames_moves)
            | (with_reducible apply retiredEvt_moves) | (with_reducible apply coverEvt_moves)
            | (with_reducible apply Moves.upd))

theorem mapOutBank_moves {F : ℕ} {s t : State} {a1 : ℕ} {a2 : ℕ} (hF : Sub 47554944762911 F) (h : Moves F s t) :
    Moves F s (mapOutBank t a1 a2) := by
  unfold mapOutBank
  repeat'
    (first | (with_reducible assumption) | ((with_reducible refine hF.up ?_); rfl)
            | ((with_reducible refine Or.inr (hF.up ?_)); rfl) | (with_reducible exact Or.inl rfl) | (intro)
            | (extract_lets +onlyGivenNames x; have hx : Moves F s x := ?_; (on_goal 1 => clear_value x); (on_goal 2 => subst x))
            | (extract_lets +onlyGivenNames x; clear_value x) | (with_reducible apply Moves.ite)
            | (with_reducible apply finc_moves) | (with_reducible apply serveHeld_moves)
            | (with_reducible apply loseFrames_moves) | (with_reducible apply retiredEvt_moves)
            | (with_reducible apply coverEvt_moves) | (with_reducible apply Moves.upd))

theorem retireEnd_moves {F : ℕ} {s t : State} {a1 : ℕ} (hF : Sub 8796361457664 F) (h : Moves F s t) : Moves F s
    (retireEnd t a1) := by
  unfold retireEnd
  repeat'
    (first | (with_reducible assumption) | ((with_reducible refine hF.up ?_); rfl)
            | ((with_reducible refine Or.inr (hF.up ?_)); rfl) | (with_reducible exact Or.inl rfl)
            | (extract_lets +onlyGivenNames x; have hx : Moves F s x := ?_; (on_goal 1 => clear_value x); (on_goal 2 => subst x))
            | (extract_lets +onlyGivenNames x; clear_value x) | (with_reducible apply fset_moves)
            | (with_reducible apply Moves.upd))

theorem retireNow_moves {F : ℕ} {s t : State} {a1 : Retirement} (hF : Sub 47554944762911 F) (h : Moves F s t) :
    Moves F s (retireNow t a1) := by
  unfold retireNow
  repeat'
    (first | (with_reducible assumption) | ((with_reducible refine hF.up ?_); rfl) | (intro)
            | (with_reducible apply Moves.ite) | (with_reducible apply failPc_moves)
            | (with_reducible apply mapOutBank_moves) | (with_reducible apply retireEnd_moves))

theorem startRetire_moves {F : ℕ} {s t : State} {a1 : Retirement} (hF : Sub 47554944762911 F) (h : Moves F s t) :
    Moves F s (startRetire t a1) := by
  unfold startRetire
  repeat'
    (first | (with_reducible assumption) | ((with_reducible refine hF.up ?_); rfl)
            | ((with_reducible refine Or.inr (hF.up ?_)); rfl) | (with_reducible exact Or.inl rfl) | (intro)
            | (extract_lets +onlyGivenNames x; have hx : Moves F s x := ?_; (on_goal 1 => clear_value x); (on_goal 2 => subst x))
            | (extract_lets +onlyGivenNames x; clear_value x) | (with_reducible apply Moves.ite)
            | (with_reducible apply fset_moves) | (with_reducible apply retireNow_moves)
            | (with_reducible apply Moves.upd))

theorem retireCmd_moves {F : ℕ} {s t : State} {a1 : Retirement} (hF : Sub 47554944762911 F) (h : Moves F s t) :
    Moves F s (retireCmd t a1) := by
  unfold retireCmd
  repeat'
    (first | (with_reducible assumption) | ((with_reducible refine hF.up ?_); rfl) | (intro)
            | (with_reducible apply Moves.ite) | (with_reducible apply retireEnd_moves)
            | (with_reducible apply startRetire_moves))

theorem repairRow_moves {F : ℕ} {s t : State} {a1 : ℕ} {a2 : ℕ} {a3 : ℕ} {a4 : ℕ} (hF : Sub 8796965437456 F) (h :
    Moves F s t) : Moves F s (repairRow t a1 a2 a3 a4) := by
  unfold repairRow
  repeat'
    (first | (with_reducible assumption) | ((with_reducible refine hF.up ?_); rfl)
            | ((with_reducible refine Or.inr (hF.up ?_)); rfl) | (with_reducible exact Or.inl rfl)
            | (extract_lets +onlyGivenNames x; have hx : Moves F s x := ?_; (on_goal 1 => clear_value x); (on_goal 2 => subst x))
            | (extract_lets +onlyGivenNames x; clear_value x) | (with_reducible apply finc_moves)
            | (with_reducible apply settleLines_moves) | (with_reducible apply Moves.upd))

theorem retireBlockPlace_moves {F : ℕ} {s t : State} {a1 : Retirement} (hF : Sub 8796965438557 F) (h : Moves F s t)
    : Moves F s (retireBlockPlace t a1) := by
  unfold retireBlockPlace
  repeat'
    (first | (with_reducible assumption) | ((with_reducible refine hF.up ?_); rfl)
            | ((with_reducible refine Or.inr (hF.up ?_)); rfl) | (with_reducible exact Or.inl rfl) | (intro)
            | (extract_lets +onlyGivenNames x; have hx : Moves F s x := ?_; (on_goal 1 => clear_value x); (on_goal 2 => subst x))
            | (extract_lets +onlyGivenNames x; clear_value x) | (with_reducible apply Moves.ite)
            | (with_reducible apply finc_moves) | (with_reducible apply raise_moves)
            | (with_reducible apply settleLines_moves) | (with_reducible apply Moves.upd))

theorem repairRowAll_moves {F : ℕ} {s t : State} {a1 : Retirement} (hF : Sub 8796965437520 F) (h : Moves F s t) :
    Moves F s (repairRowAll t a1) := by
  unfold repairRowAll
  repeat'
    (first | (with_reducible assumption) | ((with_reducible refine hF.up ?_); rfl)
            | ((with_reducible refine Or.inr (hF.up ?_)); rfl) | (with_reducible exact Or.inl rfl) | (intro)
            | (extract_lets +onlyGivenNames x; have hx : Moves F s x := ?_; (on_goal 1 => clear_value x); (on_goal 2 => subst x))
            | (extract_lets +onlyGivenNames x; clear_value x) | (with_reducible apply repairRow_moves)
            | (with_reducible apply Moves.foldl) | (with_reducible apply Moves.upd))

theorem doRetired_moves {F : ℕ} {s t : State} (hF : Sub 47554944762975 F) (h : Moves F s t) : Moves F s
    (doRetired t) := by
  unfold doRetired
  repeat'
    (first | (with_reducible assumption) | ((with_reducible refine hF.up ?_); rfl)
            | ((with_reducible refine Or.inr (hF.up ?_)); rfl) | (with_reducible exact Or.inl rfl) | (intro)
            | (extract_lets +onlyGivenNames x; have hx : Moves F s x := ?_; (on_goal 1 => clear_value x); (on_goal 2 => subst x))
            | (extract_lets +onlyGivenNames x; clear_value x) | (with_reducible apply Moves.ite) | (split)
            | (with_reducible apply serveHeld_moves) | (with_reducible apply retiredEvt_moves)
            | (with_reducible apply retireEnd_moves) | (with_reducible apply repairRow_moves)
            | (with_reducible apply retireBlockPlace_moves) | (with_reducible apply repairRowAll_moves)
            | (with_reducible apply Moves.upd))

theorem retireGoesOn_moves {F : ℕ} {s t : State} {a1 : ℕ} (hF : Sub 47554944762911 F) (h : Moves F s t) : Moves F s
    (retireGoesOn t a1) := by
  unfold retireGoesOn
  repeat'
    (first | (with_reducible assumption) | ((with_reducible refine hF.up ?_); rfl)
            | ((with_reducible refine Or.inr (hF.up ?_)); rfl) | (with_reducible exact Or.inl rfl) | (intro)
            | (extract_lets +onlyGivenNames x; have hx : Moves F s x := ?_; (on_goal 1 => clear_value x); (on_goal 2 => subst x))
            | (extract_lets +onlyGivenNames x; clear_value x) | (with_reducible apply Moves.ite) | (split)
            | (with_reducible apply retireNow_moves) | (with_reducible apply Moves.upd))

theorem fetchBlock_moves {F : ℕ} {s t : State} {a1 : ℕ} (hF : Sub 1 F) (h : Moves F s t) : Moves F s
    (fetchBlock t a1) := by
  unfold fetchBlock
  repeat'
    (first | (with_reducible assumption) | ((with_reducible refine hF.up ?_); rfl)
            | (with_reducible apply emit_moves))

theorem restState_moves {F : ℕ} {s t : State} {a1 : ℕ} (hF : Sub 2199023255556 F) (h : Moves F s t) : Moves F s
    (restState t a1) := by
  unfold restState
  repeat'
    (first | (with_reducible assumption) | ((with_reducible refine hF.up ?_); rfl)
            | ((with_reducible refine Or.inr (hF.up ?_)); rfl) | (with_reducible exact Or.inl rfl) | (intro)
            | (extract_lets +onlyGivenNames x; have hx : Moves F s x := ?_; (on_goal 1 => clear_value x); (on_goal 2 => subst x))
            | (extract_lets +onlyGivenNames x; clear_value x) | (with_reducible apply Moves.ite) | (split)
            | (with_reducible apply hupd_moves) | (with_reducible apply setPcSt_moves)
            | (with_reducible apply Moves.upd))

theorem resumePc_moves {F : ℕ} {s t : State} {a1 : ℕ} (hF : Sub 47554944762911 F) (h : Moves F s t) : Moves F s
    (resumePc t a1) := by
  unfold resumePc
  repeat'
    (first | (with_reducible assumption) | ((with_reducible refine hF.up ?_); rfl)
            | ((with_reducible refine Or.inr (hF.up ?_)); rfl) | (with_reducible exact Or.inl rfl) | (intro)
            | (extract_lets +onlyGivenNames x; have hx : Moves F s x := ?_; (on_goal 1 => clear_value x); (on_goal 2 => subst x))
            | (extract_lets +onlyGivenNames x; clear_value x) | (with_reducible apply Moves.ite) | (split)
            | (with_reducible apply hupd_moves) | (with_reducible apply pcUpd_moves)
            | (with_reducible apply putPoison_moves) | (with_reducible apply serveHeld_moves)
            | (with_reducible apply failPc_moves) | (with_reducible apply retireGoesOn_moves)
            | (with_reducible apply fetchBlock_moves) | (with_reducible apply restState_moves)
            | (with_reducible apply Moves.foldl) | (with_reducible apply Moves.upd))

theorem retireRowStart_moves {F : ℕ} {s t : State} {a1 : ℕ} (hF : Sub 47554944762911 F) (h : Moves F s t) :
    Moves F s (retireRowStart t a1) := by
  unfold retireRowStart
  repeat'
    (first | (with_reducible assumption) | ((with_reducible refine hF.up ?_); rfl)
            | ((with_reducible refine Or.inr (hF.up ?_)); rfl) | (with_reducible exact Or.inl rfl) | (intro)
            | (with_reducible apply Moves.ite) | (with_reducible apply pcUpd_moves)
            | (with_reducible apply resumePc_moves) | (with_reducible apply Moves.upd))

theorem retireRowEnd_moves {F : ℕ} {s t : State} {a1 : ℕ} (hF : Sub 47554944762911 F) (h : Moves F s t) : Moves F s
    (retireRowEnd t a1) := by
  unfold retireRowEnd
  repeat'
    (first | (with_reducible assumption) | ((with_reducible refine hF.up ?_); rfl)
            | (extract_lets +onlyGivenNames x; have hx : Moves F s x := ?_; (on_goal 1 => clear_value x); (on_goal 2 => subst x))
            | (extract_lets +onlyGivenNames x; clear_value x) | (with_reducible apply finc_moves)
            | (with_reducible apply retiredEvt_moves) | (with_reducible apply repairRow_moves)
            | (with_reducible apply resumePc_moves))

theorem freezeAct_moves {F : ℕ} {s t : State} {a1 : ℕ} {a2 : ℕ} (hF : Sub 47554944762911 F) (h : Moves F s t) :
    Moves F s (freezeAct t a1 a2) := by
  unfold freezeAct
  repeat'
    (first | (with_reducible assumption) | ((with_reducible refine hF.up ?_); rfl) | (intro)
            | (with_reducible apply Moves.ite) | (with_reducible apply failPc_moves)
            | (with_reducible apply resumePc_moves) | (with_reducible apply retireRowStart_moves))

theorem doFreezeHold_moves {F : ℕ} {s t : State} {a1 : ℕ} (hF : Sub 47554944762911 F) (h : Moves F s t) : Moves F s
    (doFreezeHold t a1) := by
  unfold doFreezeHold
  repeat'
    (first | (with_reducible assumption) | ((with_reducible refine hF.up ?_); rfl)
            | ((with_reducible refine Or.inr (hF.up ?_)); rfl) | (with_reducible exact Or.inl rfl) | (intro)
            | (with_reducible apply pcUpd_moves) | (with_reducible apply serveHeld_moves)
            | (with_reducible apply rerunCluster_moves) | (with_reducible apply Moves.upd))

theorem doQuiesce_moves {F : ℕ} {s t : State} {a1 : ℕ} {a2 : Bool} (hF : Sub 47554944762911 F) (h : Moves F s t) :
    Moves F s (doQuiesce t a1 a2) := by
  unfold doQuiesce
  repeat'
    (first | (with_reducible assumption) | ((with_reducible refine hF.up ?_); rfl)
            | ((with_reducible refine Or.inr (hF.up ?_)); rfl) | (with_reducible exact Or.inl rfl) | (intro)
            | (extract_lets +onlyGivenNames x; have hx : Moves F s x := ?_; (on_goal 1 => clear_value x); (on_goal 2 => subst x))
            | (extract_lets +onlyGivenNames x; clear_value x) | (with_reducible apply Moves.ite)
            | (with_reducible apply hupd_moves) | (with_reducible apply pcUpd_moves)
            | (with_reducible apply serveHeld_moves) | (with_reducible apply restState_moves)
            | (with_reducible apply Moves.upd))

theorem doRetrainStart_moves {F : ℕ} {s t : State} {a1 : ℕ} (hF : Sub 2199090364420 F) (h : Moves F s t) : Moves F s
    (doRetrainStart t a1) := by
  unfold doRetrainStart
  repeat'
    (first | (with_reducible assumption) | ((with_reducible refine hF.up ?_); rfl)
            | ((with_reducible refine Or.inr (hF.up ?_)); rfl) | (with_reducible exact Or.inl rfl) | (intro)
            | (with_reducible apply hupd_moves) | (with_reducible apply pcUpd_moves)
            | (with_reducible apply setPcSt_moves) | (with_reducible apply Moves.upd))

theorem doRetrainEnd_moves {F : ℕ} {s t : State} {a1 : ℕ} {a2 : Bool} (hF : Sub 47554944762911 F) (h : Moves F s t)
    : Moves F s (doRetrainEnd t a1 a2) := by
  unfold doRetrainEnd
  repeat'
    (first | (with_reducible assumption) | ((with_reducible refine hF.up ?_); rfl)
            | ((with_reducible refine Or.inr (hF.up ?_)); rfl) | (with_reducible exact Or.inl rfl) | (intro)
            | (extract_lets +onlyGivenNames x; have hx : Moves F s x := ?_; (on_goal 1 => clear_value x); (on_goal 2 => subst x))
            | (extract_lets +onlyGivenNames x; clear_value x) | (with_reducible apply Moves.ite)
            | (with_reducible apply fset_moves) | (with_reducible apply pcUpd_moves)
            | (with_reducible apply raise_moves) | (with_reducible apply serveHeld_moves)
            | (with_reducible apply restState_moves) | (with_reducible apply Moves.upd))

theorem doTrainRun_moves {F : ℕ} {s t : State} {a1 : ℕ} (hF : Sub 2199090364416 F) (h : Moves F s t) : Moves F s
    (doTrainRun t a1) := by
  unfold doTrainRun
  repeat'
    (first | (with_reducible assumption) | ((with_reducible refine hF.up ?_); rfl)
            | ((with_reducible refine Or.inr (hF.up ?_)); rfl) | (with_reducible exact Or.inl rfl) | (intro)
            | (extract_lets +onlyGivenNames x; have hx : Moves F s x := ?_; (on_goal 1 => clear_value x); (on_goal 2 => subst x))
            | (extract_lets +onlyGivenNames x; clear_value x) | (with_reducible apply Moves.ite)
            | (with_reducible apply fset_moves) | (with_reducible apply pcUpd_moves)
            | (with_reducible apply Moves.upd))

theorem doTrainDone_moves {F : ℕ} {s t : State} {a1 : ℕ} {a2 : W64} {a3 : ℕ} {a4 : ℕ} (hF : Sub 2199090365453 F) (h
    : Moves F s t) : Moves F s (doTrainDone t a1 a2 a3 a4) := by
  unfold doTrainDone
  repeat'
    (first | (with_reducible assumption) | ((with_reducible refine hF.up ?_); rfl)
            | ((with_reducible refine Or.inr (hF.up ?_)); rfl) | (with_reducible exact Or.inl rfl) | (intro)
            | (extract_lets +onlyGivenNames x; have hx : Moves F s x := ?_; (on_goal 1 => clear_value x); (on_goal 2 => subst x))
            | (extract_lets +onlyGivenNames x; clear_value x) | (with_reducible apply fset_moves)
            | (with_reducible apply pcUpd_moves) | (with_reducible apply raise_moves)
            | (with_reducible apply Moves.upd))

theorem tripPackage_moves {F : ℕ} {s t : State} {a1 : ℕ} (hF : Sub 892220393628991 F) (h : Moves F s t) : Moves F s
    (tripPackage t a1) := by
  unfold tripPackage
  repeat'
    (first | (with_reducible assumption) | ((with_reducible refine hF.up ?_); rfl)
            | ((with_reducible refine Or.inr (hF.up ?_)); rfl) | (with_reducible exact Or.inl rfl)
            | (extract_lets +onlyGivenNames x; have hx : Moves F s x := ?_; (on_goal 1 => clear_value x); (on_goal 2 => subst x))
            | (extract_lets +onlyGivenNames x; clear_value x) | (with_reducible apply raise_moves)
            | (with_reducible apply sendLeaving_moves) | (with_reducible apply Moves.upd))

theorem scrubPass_moves {F : ℕ} {s t : State} (hF : Sub 8796361458701 F) (h : Moves F s t) : Moves F s (scrubPass t)
    := by
  unfold scrubPass
  repeat'
    (first | (with_reducible assumption) | ((with_reducible refine hF.up ?_); rfl)
            | ((with_reducible refine Or.inr (hF.up ?_)); rfl) | (with_reducible exact Or.inl rfl) | (intro)
            | (extract_lets +onlyGivenNames x; have hx : Moves F s x := ?_; (on_goal 1 => clear_value x); (on_goal 2 => subst x))
            | (extract_lets +onlyGivenNames x; clear_value x) | (with_reducible apply Moves.ite)
            | (with_reducible apply finc_moves) | (with_reducible apply raise_moves)
            | (with_reducible apply Moves.upd))

theorem doScrub_moves {F : ℕ} {s t : State} {a1 : ℕ} {a2 : Upset} (hF : Sub 10995988694045 F) (h : Moves F s t) :
    Moves F s (doScrub t a1 a2) := by
  unfold doScrub
  repeat'
    (first | (with_reducible assumption) | ((with_reducible refine hF.up ?_); rfl)
            | ((with_reducible refine Or.inr (hF.up ?_)); rfl) | (with_reducible exact Or.inl rfl) | (intro)
            | (extract_lets +onlyGivenNames x; have hx : Moves F s x := ?_; (on_goal 1 => clear_value x); (on_goal 2 => subst x))
            | (extract_lets +onlyGivenNames x; have hx : Moves F s x.1 := ?_; (on_goal 1 => clear_value x); (on_goal 2 => subst x))
            | (extract_lets +onlyGivenNames x; clear_value x) | (with_reducible apply Moves.ite) | (split)
            | (with_reducible apply enqueue_moves)
            | (refine readLine_movesE (by with_reducible assumption) (hF.up rfl) ?_)
            | (with_reducible apply readLine_moves) | (with_reducible apply scrubPass_moves)
            | (with_reducible apply Moves.upd))

theorem policyBlock_moves {F : ℕ} {s t : State} {a1 : ℕ} {a2 : Loc} (hF : Sub 47554944762911 F) (h : Moves F s t) :
    Moves F s (policyBlock t a1 a2) := by
  unfold policyBlock
  repeat'
    (first | (with_reducible assumption) | ((with_reducible refine hF.up ?_); rfl) | (intro)
            | (with_reducible apply Moves.ite) | (with_reducible apply startRetire_moves))

theorem policyCe_moves {F : ℕ} {s t : State} {a1 : ℕ} (hF : Sub 47554944762911 F) (h : Moves F s t) : Moves F s
    (policyCe t a1) := by
  unfold policyCe
  repeat'
    (first | (with_reducible assumption) | ((with_reducible refine hF.up ?_); rfl) | (intro)
            | (with_reducible apply Moves.ite) | (with_reducible apply policyBlock_moves))

theorem policyFreeze_moves {F : ℕ} {s t : State} {a1 : ℕ} (hF : Sub 47554944762911 F) (h : Moves F s t) : Moves F s
    (policyFreeze t a1) := by
  unfold policyFreeze
  repeat'
    (first | (with_reducible assumption) | ((with_reducible refine hF.up ?_); rfl) | (intro)
            | (extract_lets +onlyGivenNames x; have hx : Moves F s x := ?_; (on_goal 1 => clear_value x); (on_goal 2 => subst x))
            | (extract_lets +onlyGivenNames x; clear_value x) | (with_reducible apply Moves.ite)
            | (with_reducible apply failPc_moves) | (with_reducible apply resumePc_moves)
            | (with_reducible apply retireRowStart_moves) | (with_reducible apply policyBlock_moves))

theorem policyRetired_moves {F : ℕ} {s t : State} {a1 : ℕ} {a2 : ℕ} {a3 : ℕ} {a4 : ℕ} {a5 : ℕ} (hF
    : Sub 47554944762911 F) (h : Moves F s t) : Moves F s (policyRetired t a1 a2 a3 a4 a5) := by
  unfold policyRetired
  repeat'
    (first | (with_reducible assumption) | ((with_reducible refine hF.up ?_); rfl) | (intro)
            | (extract_lets +onlyGivenNames x; have hx : Moves F s x := ?_; (on_goal 1 => clear_value x); (on_goal 2 => subst x))
            | (extract_lets +onlyGivenNames x; clear_value x) | (with_reducible apply Moves.ite) | (split)
            | (with_reducible apply startRetire_moves))

theorem doAutoRetire_moves {F : ℕ} {s t : State} {a1 : CRec} (hF : Sub 47554944762911 F) (h : Moves F s t) :
    Moves F s (doAutoRetire t a1) := by
  unfold doAutoRetire
  repeat'
    (first | (with_reducible assumption) | ((with_reducible refine hF.up ?_); rfl) | (intro)
            | (with_reducible apply Moves.ite) | (with_reducible apply policyCe_moves)
            | (with_reducible apply policyFreeze_moves) | (with_reducible apply policyRetired_moves))

theorem execTempRead_moves {F : ℕ} {s t : State} {a0 : PcId} {a1 : Option ℕ} (hF : Sub 892220393628991 F) (h :
    Moves F s t) : ∃ u, (execTempRead a0 a1 t) = .next u ∧ Moves F s u := by
  unfold execTempRead
  refine ⟨_, rfl, ?_⟩
  repeat'
    (first | (with_reducible assumption) | ((with_reducible refine hF.up ?_); rfl)
            | ((with_reducible refine Or.inr (hF.up ?_)); rfl) | (with_reducible exact Or.inl rfl) | (intro)
            | (extract_lets +onlyGivenNames x; have hx : Moves F s x := ?_; (on_goal 1 => clear_value x); (on_goal 2 => subst x))
            | (extract_lets +onlyGivenNames x; clear_value x) | (with_reducible apply Moves.ite) | (split)
            | (with_reducible apply doTempRead_moves) | (with_reducible apply tripPackage_moves)
            | (with_reducible apply Moves.upd))

theorem execRefreshDue_moves {F : ℕ} {s t : State} {a0 : PcId} {a1 : Fin 2} (hF : Sub 2199090364416 F) (h :
    Moves F s t) : ∃ u, (execRefreshDue a0 a1 t) = .next u ∧ Moves F s u := by
  unfold execRefreshDue
  refine ⟨_, rfl, ?_⟩
  repeat'
    (first | (with_reducible assumption) | ((with_reducible refine hF.up ?_); rfl) | (intro)
            | (with_reducible apply Moves.ite) | (split) | (with_reducible apply doRefreshDue_moves))

theorem execPcCommandIssue_moves {F : ℕ} {s t : State} {a0 : PcId} {a1 : Option Sys2Proof.ParityErr} (hF
    : Sub 47554944762911 F) (h : Moves F s t) : ∃ u, (execPcCommandIssue a0 a1 t) = .next u ∧ Moves F s u := by
  unfold execPcCommandIssue
  refine ⟨_, rfl, ?_⟩
  repeat'
    (first | (with_reducible assumption) | ((with_reducible refine hF.up ?_); rfl)
            | ((with_reducible refine Or.inr (hF.up ?_)); rfl) | (with_reducible exact Or.inl rfl) | (intro)
            | (with_reducible apply Moves.ite) | (split) | (with_reducible apply issueCmd_moves)
            | (with_reducible apply freezePc_moves) | (with_reducible apply serveHeld_moves)
            | (with_reducible apply Moves.upd))

theorem execOpenTimeout_moves {F : ℕ} {s t : State} {a0 : PcId} {a1 : Fin 32} (hF : Sub 67108864 F) (h :
    Moves F s t) : ∃ u, (execOpenTimeout a0 a1 t) = .next u ∧ Moves F s u := by
  unfold execOpenTimeout
  refine ⟨_, rfl, ?_⟩
  repeat'
    (first | (with_reducible assumption) | ((with_reducible refine hF.up ?_); rfl)
            | ((with_reducible refine Or.inr (hF.up ?_)); rfl) | (with_reducible exact Or.inl rfl) | (intro)
            | (with_reducible apply pcUpd_moves) | (with_reducible apply Moves.upd))

theorem execAgeMax_moves {F : ℕ} {s t : State} {a0 : PcId} {a1 : ℕ} (hF : Sub 67108864 F) (h : Moves F s t) : ∃ u,
    (execAgeMax a0 a1 t) = .next u ∧ Moves F s u := by
  unfold execAgeMax
  refine ⟨_, rfl, ?_⟩
  repeat'
    (first | (with_reducible assumption) | ((with_reducible refine hF.up ?_); rfl)
            | ((with_reducible refine Or.inr (hF.up ?_)); rfl) | (with_reducible exact Or.inl rfl) | (intro)
            | (extract_lets +onlyGivenNames x; have hx : Moves F s x := ?_; (on_goal 1 => clear_value x); (on_goal 2 => subst x))
            | (extract_lets +onlyGivenNames x; clear_value x) | (with_reducible apply Moves.ite)
            | (with_reducible apply pcUpd_moves) | (with_reducible apply Moves.upd))

theorem execRankPowerDown_moves {F : ℕ} {s t : State} {a0 : PcId} {a1 : Fin 2} (hF : Sub 2199023255552 F) (h :
    Moves F s t) : ∃ u, (execRankPowerDown a0 a1 t) = .next u ∧ Moves F s u := by
  unfold execRankPowerDown
  refine ⟨_, rfl, ?_⟩
  repeat'
    (first | (with_reducible assumption) | ((with_reducible refine hF.up ?_); rfl) | (intro)
            | (with_reducible apply Moves.ite) | (split) | (with_reducible apply fset_moves))

theorem execFreezeHold_moves {F : ℕ} {s t : State} {a0 : PcId} (hF : Sub 47554944762911 F) (h : Moves F s t) : ∃ u,
    (execFreezeHold a0 t) = .next u ∧ Moves F s u := by
  unfold execFreezeHold
  refine ⟨_, rfl, ?_⟩
  repeat'
    (first | (with_reducible assumption) | ((with_reducible refine hF.up ?_); rfl) | (intro)
            | (with_reducible apply Moves.ite) | (split) | (with_reducible apply doFreezeHold_moves))

theorem execRetireRowDone_moves {F : ℕ} {s t : State} {a0 : PcId} (hF : Sub 47554944762911 F) (h : Moves F s t) :
    ∃ u, (execRetireRowDone a0 t) = .next u ∧ Moves F s u := by
  unfold execRetireRowDone
  refine ⟨_, rfl, ?_⟩
  repeat'
    (first | (with_reducible assumption) | ((with_reducible refine hF.up ?_); rfl) | (intro)
            | (with_reducible apply Moves.ite) | (split) | (with_reducible apply retireRowEnd_moves))

theorem execPcRetrainStart_moves {F : ℕ} {s t : State} {a0 : PcId} (hF : Sub 2199090364420 F) (h : Moves F s t) :
    ∃ u, (execPcRetrainStart a0 t) = .next u ∧ Moves F s u := by
  unfold execPcRetrainStart
  refine ⟨_, rfl, ?_⟩
  repeat'
    (first | (with_reducible assumption) | ((with_reducible refine hF.up ?_); rfl) | (intro)
            | (with_reducible apply Moves.ite) | (split) | (with_reducible apply doRetrainStart_moves))

theorem execPcRetrainEnd_moves {F : ℕ} {s t : State} {a0 : PcId} {a1 : Bool} (hF : Sub 47554944762911 F) (h :
    Moves F s t) : ∃ u, (execPcRetrainEnd a0 a1 t) = .next u ∧ Moves F s u := by
  unfold execPcRetrainEnd
  refine ⟨_, rfl, ?_⟩
  repeat'
    (first | (with_reducible assumption) | ((with_reducible refine hF.up ?_); rfl) | (intro)
            | (with_reducible apply Moves.ite) | (split) | (with_reducible apply doRetrainEnd_moves))

theorem execTrainDone_moves {F : ℕ} {s t : State} {a0 : PcId} {a1 : W64} {a2 : BitVec 32} {a3 : BitVec 32} (hF
    : Sub 2199090365453 F) (h : Moves F s t) : ∃ u, (execTrainDone a0 a1 a2 a3 t) = .next u ∧ Moves F s u := by
  unfold execTrainDone
  refine ⟨_, rfl, ?_⟩
  repeat'
    (first | (with_reducible assumption) | ((with_reducible refine hF.up ?_); rfl) | (intro)
            | (with_reducible apply Moves.ite) | (split) | (with_reducible apply doTrainDone_moves))

theorem execScrubLine_moves {F : ℕ} {s t : State} {a0 : PcId} {a1 : Upset} (hF : Sub 10995988694045 F) (h :
    Moves F s t) : ∃ u, (execScrubLine a0 a1 t) = .next u ∧ Moves F s u := by
  unfold execScrubLine
  refine ⟨_, rfl, ?_⟩
  repeat'
    (first | (with_reducible assumption) | ((with_reducible refine hF.up ?_); rfl) | (intro)
            | (with_reducible apply Moves.ite) | (split) | (with_reducible apply doScrub_moves))

theorem execAutoRetire_moves {F : ℕ} {s t : State} {a0 : ℕ} (hF : Sub 47554944762911 F) (h : Moves F s t) : ∃ u,
    (execAutoRetire a0 t) = .next u ∧ Moves F s u := by
  unfold execAutoRetire
  refine ⟨_, rfl, ?_⟩
  repeat'
    (first | (with_reducible assumption) | ((with_reducible refine hF.up ?_); rfl)
            | ((with_reducible refine Or.inr (hF.up ?_)); rfl) | (with_reducible exact Or.inl rfl) | (intro)
            | (with_reducible apply Moves.ite) | (split) | (with_reducible apply doAutoRetire_moves)
            | (with_reducible apply Moves.upd))

theorem execRetired_moves {F : ℕ} {s t : State} (hF : Sub 47554944762975 F) (h : Moves F s t) : ∃ u,
    (execRetired t) = .next u ∧ Moves F s u := by
  unfold execRetired
  refine ⟨_, rfl, ?_⟩
  repeat'
    (first | (with_reducible assumption) | ((with_reducible refine hF.up ?_); rfl) | (intro)
            | (with_reducible apply doRetired_moves))

end Sys2Proof.Machine
end

