-- ==== Sys2Proof/Laws/MovesJobs.lean ====
section
/-! SUPPORT. What the functions of Machine/Jobs.lean keep, and the kinds of state they may change (`Moves`). -/

set_option linter.all false

namespace Sys2Proof.Machine

open Sys2Proof

theorem haltRing_moves {F : ℕ} {s t : State} {a1 : ℕ} {a2 : ℕ} {a3 : ℕ} {a4 : ℕ} (hF : Sub 549755814925 F) (h :
    Moves F s t) : Moves F s (haltRing t a1 a2 a3 a4) := by
  unfold haltRing
  repeat'
    (first | (with_reducible assumption) | ((with_reducible refine hF.up ?_); rfl)
            | (extract_lets +onlyGivenNames x; have hx : Moves F s x := ?_; (on_goal 1 => clear_value x); (on_goal 2 => subst x))
            | (extract_lets +onlyGivenNames x; clear_value x) | (with_reducible apply fset_moves)
            | (with_reducible apply raise_moves))

theorem issueRead_moves {F : ℕ} {s t : State} {a1 : Part} {a2 : TagUse} {a3 a4 : ℕ} {u : State}
    (hF : Sub 1025 F) (e : issueRead t a1 a2 a3 a4 = some u) (h : Moves F s t) : Moves F s u := by
  unfold issueRead at e
  split at e
  · split at e
    · cases e; exact emit_moves (hF.up rfl) (cfgUpd_moves (hF.up rfl) h)
    · cases e
  · cases e

theorem dropTag_moves {F : ℕ} {s t : State} {a1 : ℕ} {a2 : ℕ} (hF : Sub 1024 F) (h : Moves F s t) : Moves F s
    (dropTag t a1 a2) := by
  unfold dropTag
  repeat'
    (first | (with_reducible assumption) | ((with_reducible refine hF.up ?_); rfl)
            | ((with_reducible refine Or.inr (hF.up ?_)); rfl) | (with_reducible exact Or.inl rfl) | (intro)
            | (with_reducible apply cfgUpd_moves) | (with_reducible apply Moves.upd))

theorem discardTags_moves {F : ℕ} {s t : State} {a1 : ℕ} {a2 : TagUse → Bool} (hF : Sub 1024 F) (h : Moves F s t) :
    Moves F s (discardTags t a1 a2) := by
  unfold discardTags
  repeat'
    (first | (with_reducible assumption) | ((with_reducible refine hF.up ?_); rfl)
            | ((with_reducible refine Or.inr (hF.up ?_)); rfl) | (with_reducible exact Or.inl rfl) | (intro)
            | (extract_lets +onlyGivenNames x; have hx : Moves F s x := ?_; (on_goal 1 => clear_value x); (on_goal 2 => subst x))
            | (extract_lets +onlyGivenNames x; clear_value x) | (with_reducible apply Moves.ite)
            | (with_reducible apply cfgUpd_moves) | (with_reducible apply Moves.upd))

theorem pumpRing_moves {F : ℕ} {s t : State} {a1 : Part} {a2 : Ring} (hF : Sub 2098177 F) (h : Moves F s t) :
    Moves F s (pumpRing t a1 a2) := by
  unfold pumpRing
  repeat'
    (first | (with_reducible assumption) | ((with_reducible refine hF.up ?_); rfl)
            | ((with_reducible refine Or.inr (hF.up ?_)); rfl) | (with_reducible exact Or.inl rfl) | (intro)
            | (extract_lets +onlyGivenNames x; have hx : Moves F s x := ?_; (on_goal 1 => clear_value x); (on_goal 2 => subst x))
            | (extract_lets +onlyGivenNames x; clear_value x) | (with_reducible apply Moves.ite) | (split)
            | (with_reducible apply ringUpd_moves)
            | (refine issueRead_moves (hF.up rfl) (by with_reducible assumption) ?_)
            | (with_reducible apply Moves.getD) | (with_reducible apply Moves.upd))

theorem pumpHint_moves {F : ℕ} {s t : State} {a1 : Part} (hF : Sub 1025 F) (h : Moves F s t) : Moves F s
    (pumpHint t a1) := by
  unfold pumpHint
  repeat'
    (first | (with_reducible assumption) | ((with_reducible refine hF.up ?_); rfl) | (intro)
            | (extract_lets +onlyGivenNames x; have hx : Moves F s x := ?_; (on_goal 1 => clear_value x); (on_goal 2 => subst x))
            | (extract_lets +onlyGivenNames x; clear_value x) | (with_reducible apply Moves.ite)
            | (refine issueRead_moves (hF.up rfl) (by with_reducible assumption) ?_)
            | (with_reducible apply Moves.getD))

theorem haltHint_moves {F : ℕ} {s t : State} {a1 : ℕ} {a2 : ℕ} {a3 : ℕ} (hF : Sub 137439478797 F) (h : Moves F s t)
    : Moves F s (haltHint t a1 a2 a3) := by
  unfold haltHint
  repeat'
    (first | (with_reducible assumption) | ((with_reducible refine hF.up ?_); rfl)
            | ((with_reducible refine Or.inr (hF.up ?_)); rfl) | (with_reducible exact Or.inl rfl) | (intro)
            | (extract_lets +onlyGivenNames x; have hx : Moves F s x := ?_; (on_goal 1 => clear_value x); (on_goal 2 => subst x))
            | (extract_lets +onlyGivenNames x; clear_value x) | (with_reducible apply fset_moves)
            | (with_reducible apply raise_moves) | (with_reducible apply Moves.upd))

theorem pumpRings_moves {F : ℕ} {s t : State} {a1 : Part} (hF : Sub 2098177 F) (h : Moves F s t) : Moves F s
    (pumpRings t a1) := by
  unfold pumpRings
  repeat'
    (first | (with_reducible assumption) | ((with_reducible refine hF.up ?_); rfl) | (intro)
            | (with_reducible apply pumpRing_moves) | (with_reducible apply pumpHint_moves)
            | (with_reducible apply Moves.foldl))

theorem doDoorbell_moves {F : ℕ} {s t : State} {a1 : Part} {a2 : Ring} {a3 : ℕ} (hF : Sub 549757912077 F) (h :
    Moves F s t) : Moves F s (doDoorbell t a1 a2 a3) := by
  unfold doDoorbell
  repeat'
    (first | (with_reducible assumption) | ((with_reducible refine hF.up ?_); rfl)
            | ((with_reducible refine Or.inr (hF.up ?_)); rfl) | (with_reducible exact Or.inl rfl) | (intro)
            | (with_reducible apply Moves.ite) | (with_reducible apply ringUpd_moves)
            | (with_reducible apply haltRing_moves) | (with_reducible apply pumpRing_moves)
            | (with_reducible apply Moves.upd))

theorem closeWindow_moves {F : ℕ} {s t : State} {a1 : ℕ} {a2 : ℕ} (hF : Sub 8388608 F) (h : Moves F s t) : Moves F s
    (closeWindow t a1 a2) := by
  unfold closeWindow
  repeat'
    (first | (with_reducible assumption) | ((with_reducible refine hF.up ?_); rfl)
            | ((with_reducible refine Or.inr (hF.up ?_)); rfl) | (with_reducible exact Or.inl rfl) | (intro)
            | (with_reducible apply Moves.upd))

theorem sweepWindows_moves {F : ℕ} {s t : State} (hF : Sub 8388608 F) (h : Moves F s t) : Moves F s (sweepWindows t)
    := by
  unfold sweepWindows
  repeat'
    (first | (with_reducible assumption) | ((with_reducible refine hF.up ?_); rfl)
            | ((with_reducible refine Or.inr (hF.up ?_)); rfl) | (with_reducible exact Or.inl rfl) | (intro)
            | (with_reducible apply Moves.upd))

theorem closeWindows_moves {F : ℕ} {s t : State} {a1 : ℕ} (hF : Sub 8388608 F) (h : Moves F s t) : Moves F s
    (closeWindows t a1) := by
  unfold closeWindows
  repeat'
    (first | (with_reducible assumption) | ((with_reducible refine hF.up ?_); rfl)
            | ((with_reducible refine Or.inr (hF.up ?_)); rfl) | (with_reducible exact Or.inl rfl) | (intro)
            | (with_reducible apply Moves.upd))

theorem dropJob_moves {F : ℕ} {s t : State} {a1 : Job} (hF : Sub 226951168 F) (h : Moves F s t) : Moves F s
    (dropJob t a1) := by
  unfold dropJob
  repeat'
    (first | (with_reducible assumption) | ((with_reducible refine hF.up ?_); rfl)
            | ((with_reducible refine Or.inr (hF.up ?_)); rfl) | (with_reducible exact Or.inl rfl) | (intro)
            | (extract_lets +onlyGivenNames x; have hx : Moves F s x := ?_; (on_goal 1 => clear_value x); (on_goal 2 => subst x))
            | (extract_lets +onlyGivenNames x; clear_value x) | (with_reducible apply fixReads_moves)
            | (with_reducible apply Moves.foldl) | (with_reducible apply Moves.upd))

theorem writeRecord_moves {F : ℕ} {s t : State} {a1 : Job} {a2 : ℕ} {a3 : ℕ} {a4 : ℕ} {a5 : ℕ} (hF : Sub 1025 F) (h
    : Moves F s t) : Moves F s (writeRecord t a1 a2 a3 a4 a5) := by
  unfold writeRecord
  repeat'
    (first | (with_reducible assumption) | ((with_reducible refine hF.up ?_); rfl) | (intro)
            | (extract_lets +onlyGivenNames x; have hx : Moves F s x := ?_; (on_goal 1 => clear_value x); (on_goal 2 => subst x))
            | (extract_lets +onlyGivenNames x; clear_value x) | (with_reducible apply Moves.ite)
            | (with_reducible apply emit_moves) | (with_reducible apply signalThrough_moves))

theorem countJob_moves {F : ℕ} {s t : State} {a1 : Job} {a2 : ℕ} {a3 : ℕ} (hF : Sub 549755814925 F) (h :
    Moves F s t) : Moves F s (countJob t a1 a2 a3) := by
  unfold countJob
  repeat'
    (first | (with_reducible assumption) | ((with_reducible refine hF.up ?_); rfl) | (intro)
            | (extract_lets +onlyGivenNames x; have hx : Moves F s x := ?_; (on_goal 1 => clear_value x); (on_goal 2 => subst x))
            | (extract_lets +onlyGivenNames x; clear_value x) | (with_reducible apply Moves.ite)
            | (with_reducible apply fset_moves) | (with_reducible apply finc_moves)
            | (with_reducible apply fwrap_moves) | (with_reducible apply raise_moves))

theorem finishJob_moves {F : ℕ} {s t : State} {a1 : Job} (hF : Sub 549982766095 F) (h : Moves F s t) : Moves F s
    (finishJob t a1) := by
  unfold finishJob
  repeat'
    (first | (with_reducible assumption) | ((with_reducible refine hF.up ?_); rfl)
            | ((with_reducible refine Or.inr (hF.up ?_)); rfl) | (with_reducible exact Or.inl rfl) | (intro)
            | (extract_lets +onlyGivenNames x; have hx : Moves F s x := ?_; (on_goal 1 => clear_value x); (on_goal 2 => subst x))
            | (extract_lets +onlyGivenNames x; have hx : Moves F s x.2 := ?_; (on_goal 1 => clear_value x); (on_goal 2 => subst x))
            | (extract_lets +onlyGivenNames x; clear_value x) | (with_reducible apply Moves.ite) | (split)
            | (refine draw_movesE (by with_reducible assumption) (hF.up rfl) ?_) | (with_reducible apply draw_moves)
            | (with_reducible apply haltRing_moves) | (with_reducible apply closeWindow_moves)
            | (with_reducible apply dropJob_moves) | (with_reducible apply writeRecord_moves)
            | (with_reducible apply countJob_moves) | (with_reducible apply Moves.upd))

theorem nextSeq_moves {F : ℕ} {s t : State} (hF : Sub 536870912 F) (h : Moves F s t) : Moves F s (nextSeq t).2 := by
  unfold nextSeq
  repeat'
    (first | (with_reducible assumption) | ((with_reducible refine hF.up ?_); rfl)
            | ((with_reducible refine Or.inr (hF.up ?_)); rfl) | (with_reducible exact Or.inl rfl)
            | (extract_lets +onlyGivenNames x; have hx : Moves F s x := ?_; (on_goal 1 => clear_value x); (on_goal 2 => subst x))
            | (extract_lets +onlyGivenNames x; clear_value x) | (split) | (with_reducible apply Moves.upd))

theorem nextSeq_movesE {F : ℕ} {s t : State} {u : State} {x : ℕ} (e : (nextSeq t) = (x, u)) (hF : Sub 536870912 F)
    (h : Moves F s t) : Moves F s u := by
  have k : Moves F s (nextSeq t).2 := nextSeq_moves hF h
  rwa [e] at k

theorem takeDesc_moves {F : ℕ} {s t : State} {a1 : Part} {a2 : Ring} {a3 : List Byte} (hF : Sub 550521734159 F) (h :
    Moves F s t) : Moves F s (takeDesc t a1 a2 a3) := by
  unfold takeDesc
  repeat'
    (first | (with_reducible assumption) | ((with_reducible refine hF.up ?_); rfl)
            | ((with_reducible refine Or.inr (hF.up ?_)); rfl) | (with_reducible exact Or.inl rfl) | (intro)
            | (extract_lets +onlyGivenNames x; have hx : Moves F s x := ?_; (on_goal 1 => clear_value x); (on_goal 2 => subst x))
            | (extract_lets +onlyGivenNames x; have hx : Moves F s x.2 := ?_; (on_goal 1 => clear_value x); (on_goal 2 => subst x))
            | (extract_lets +onlyGivenNames x; clear_value x) | (with_reducible apply Moves.ite) | (split)
            | (with_reducible apply ringUpd_moves) | (with_reducible apply journalSend_moves)
            | (with_reducible apply finishJob_moves)
            | (refine nextSeq_movesE (by with_reducible assumption) (hF.up rfl) ?_)
            | (with_reducible apply nextSeq_moves) | (with_reducible apply Moves.upd))

theorem descFetched_moves {F : ℕ} {s t : State} {a1 : Part} {a2 : Ring} {a3 : Cpl} (hF : Sub 550521734159 F) (h :
    Moves F s t) : Moves F s (descFetched t a1 a2 a3) := by
  unfold descFetched
  repeat'
    (first | (with_reducible assumption) | ((with_reducible refine hF.up ?_); rfl)
            | ((with_reducible refine Or.inr (hF.up ?_)); rfl) | (with_reducible exact Or.inl rfl) | (intro)
            | (extract_lets +onlyGivenNames x; have hx : Moves F s x := ?_; (on_goal 1 => clear_value x); (on_goal 2 => subst x))
            | (extract_lets +onlyGivenNames x; have hx : ∀ u , Moves F s u → Moves F s (x u ) := ?_; (on_goal 1 => clear_value x); (on_goal 2 => subst x))
            | (extract_lets +onlyGivenNames x; have hx : ∀ u a, Moves F s u → Moves F s (x u a) := ?_; (on_goal 1 => clear_value x); (on_goal 2 => subst x))
            | (extract_lets +onlyGivenNames x; have hx : ∀ u a b, Moves F s u → Moves F s (x u a b) := ?_; (on_goal 1 => clear_value x); (on_goal 2 => subst x))
            | (extract_lets +onlyGivenNames x; clear_value x) | (with_reducible apply Moves.ite) | (split)
            | (with_reducible apply ringUpd_moves) | (with_reducible apply haltRing_moves)
            | (with_reducible apply pumpRing_moves) | (with_reducible apply takeDesc_moves)
            | (with_reducible apply_assumption) | (with_reducible apply Moves.upd))

theorem pinVersions_moves {F : ℕ} {s t : State} {a1 : Job} (hF : Sub 65536 F) (h : Moves F s t) : Moves F s
    (pinVersions t a1) := by
  unfold pinVersions
  repeat'
    (first | (with_reducible assumption) | ((with_reducible refine hF.up ?_); rfl)
            | ((with_reducible refine Or.inr (hF.up ?_)); rfl) | (with_reducible exact Or.inl rfl) | (intro)
            | (extract_lets +onlyGivenNames x; have hx : Moves F s x := ?_; (on_goal 1 => clear_value x); (on_goal 2 => subst x))
            | (extract_lets +onlyGivenNames x; clear_value x) | (with_reducible apply Moves.ite) | (split)
            | (with_reducible apply Moves.upd))

theorem startJob_moves {F : ℕ} {s t : State} {a1 : Job} (hF : Sub 8454144 F) (h : Moves F s t) : Moves F s
    (startJob t a1) := by
  unfold startJob
  repeat'
    (first | (with_reducible assumption) | ((with_reducible refine hF.up ?_); rfl)
            | ((with_reducible refine Or.inr (hF.up ?_)); rfl) | (with_reducible exact Or.inl rfl) | (intro)
            | (extract_lets +onlyGivenNames x; have hx : Moves F s x := ?_; (on_goal 1 => clear_value x); (on_goal 2 => subst x))
            | (extract_lets +onlyGivenNames x; clear_value x) | (with_reducible apply Moves.ite)
            | (with_reducible apply jobMap_moves) | (with_reducible apply pinVersions_moves)
            | (with_reducible apply Moves.upd))

theorem stageNext_moves {F : ℕ} {s t : State} {a1 : Job} {a2 : ℕ} {a3 : ℕ} {a4 : ℕ} (hF : Sub 1025 F) (h :
    Moves F s t) : Moves F s (stageNext t a1 a2 a3 a4) := by
  unfold stageNext
  repeat'
    (first | (with_reducible assumption) | ((with_reducible refine hF.up ?_); rfl) | (intro)
            | (extract_lets +onlyGivenNames x; have hx : Moves F s x := ?_; (on_goal 1 => clear_value x); (on_goal 2 => subst x))
            | (extract_lets +onlyGivenNames x; clear_value x) | (with_reducible apply Moves.ite)
            | (refine issueRead_moves (hF.up rfl) (by with_reducible assumption) ?_)
            | (with_reducible apply Moves.getD))

theorem stageBytes_moves {F : ℕ} {s t : State} {a1 : Job} {a2 : ℕ} {a3 : List Byte} (hF : Sub 8388609 F) (h :
    Moves F s t) : Moves F s (stageBytes t a1 a2 a3) := by
  unfold stageBytes
  repeat'
    (first | (with_reducible assumption) | ((with_reducible refine hF.up ?_); rfl)
            | ((with_reducible refine Or.inr (hF.up ?_)); rfl) | (with_reducible exact Or.inl rfl) | (intro)
            | (extract_lets +onlyGivenNames x; have hx : Moves F s x := ?_; (on_goal 1 => clear_value x); (on_goal 2 => subst x))
            | (extract_lets +onlyGivenNames x; clear_value x) | (with_reducible apply Moves.ite)
            | (with_reducible apply emit_moves) | (with_reducible apply jobMap_moves)
            | (with_reducible apply Moves.upd))

theorem stageDone_moves {F : ℕ} {s t : State} {a1 : Part} {a2 : Ring} {a3 : ℕ} {a4 : ℕ} {a5 : Cpl} (hF
    : Sub 8388609 F) (h : Moves F s t) : Moves F s (stageDone t a1 a2 a3 a4 a5) := by
  unfold stageDone
  repeat'
    (first | (with_reducible assumption) | ((with_reducible refine hF.up ?_); rfl)
            | ((with_reducible refine Or.inr (hF.up ?_)); rfl) | (with_reducible exact Or.inl rfl) | (split)
            | (with_reducible apply failJob_moves) | (with_reducible apply stageBytes_moves)
            | (with_reducible apply Moves.upd))

theorem cancelJob_moves {F : ℕ} {s t : State} {a1 : Job} {a2 : ℕ} (hF : Sub 25165824 F) (h : Moves F s t) :
    Moves F s (cancelJob t a1 a2) := by
  unfold cancelJob
  repeat'
    (first | (with_reducible assumption) | ((with_reducible refine hF.up ?_); rfl)
            | ((with_reducible refine Or.inr (hF.up ?_)); rfl) | (with_reducible exact Or.inl rfl) | (intro)
            | (extract_lets +onlyGivenNames x; have hx : Moves F s x := ?_; (on_goal 1 => clear_value x); (on_goal 2 => subst x))
            | (extract_lets +onlyGivenNames x; clear_value x) | (with_reducible apply failJob_moves)
            | (with_reducible apply Moves.upd))

theorem endJob_moves {F : ℕ} {s t : State} {a1 : Job} {a2 : ℕ} (hF : Sub 226951168 F) (h : Moves F s t) : Moves F s
    (endJob t a1 a2) := by
  unfold endJob
  repeat'
    (first | (with_reducible assumption) | ((with_reducible refine hF.up ?_); rfl)
            | ((with_reducible refine Or.inr (hF.up ?_)); rfl) | (with_reducible exact Or.inl rfl) | (intro)
            | (with_reducible apply Moves.ite) | (with_reducible apply jobMap_moves)
            | (with_reducible apply dropJob_moves) | (with_reducible apply cancelJob_moves)
            | (with_reducible apply Moves.upd))

theorem endWork_moves {F : ℕ} {s t : State} {a1 : Part} {a2 : ℕ} {a3 : ℕ} (hF : Sub 687424341005 F) (h :
    Moves F s t) : Moves F s (endWork t a1 a2 a3) := by
  unfold endWork
  repeat'
    (first | (with_reducible assumption) | ((with_reducible refine hF.up ?_); rfl)
            | ((with_reducible refine Or.inr (hF.up ?_)); rfl) | (with_reducible exact Or.inl rfl) | (intro)
            | (extract_lets +onlyGivenNames x; have hx : Moves F s x := ?_; (on_goal 1 => clear_value x); (on_goal 2 => subst x))
            | (extract_lets +onlyGivenNames x; clear_value x) | (with_reducible apply Moves.ite)
            | (with_reducible apply ringUpd_moves) | (with_reducible apply haltRing_moves)
            | (with_reducible apply discardTags_moves) | (with_reducible apply haltHint_moves)
            | (with_reducible apply endJob_moves) | (with_reducible apply Moves.foldl)
            | (with_reducible apply Moves.upd))

theorem setRingEnable_moves {F : ℕ} {s t : State} {a1 : Part} {a2 : Ring} {a3 : Bool} (hF : Sub 549984863247 F) (h :
    Moves F s t) : Moves F s (setRingEnable t a1 a2 a3) := by
  unfold setRingEnable
  repeat'
    (first | (with_reducible assumption) | ((with_reducible refine hF.up ?_); rfl)
            | ((with_reducible refine Or.inr (hF.up ?_)); rfl) | (with_reducible exact Or.inl rfl) | (intro)
            | (extract_lets +onlyGivenNames x; have hx : Moves F s x := ?_; (on_goal 1 => clear_value x); (on_goal 2 => subst x))
            | (extract_lets +onlyGivenNames x; clear_value x) | (with_reducible apply Moves.ite)
            | (with_reducible apply fset_moves) | (with_reducible apply ringUpd_moves)
            | (with_reducible apply discardTags_moves) | (with_reducible apply dropJob_moves)
            | (with_reducible apply finishJob_moves) | (with_reducible apply cancelJob_moves)
            | (with_reducible apply Moves.foldl) | (with_reducible apply Moves.upd))

theorem resetJobs_moves {F : ℕ} {s t : State} {a1 : Part} (hF : Sub 549984863236 F) (h : Moves F s t) :
    Moves F s (resetJobs t a1) := by
  unfold resetJobs
  refine fclear_moves (fun f i j hp => ?_) ?_
  · simp only [Bool.and_eq_true, decide_eq_true_eq] at hp
    have hk : f.kind = .page .job := by
      unfold Fld.kind
      rw [if_neg (by rintro rfl; exact absurd hp.1 (by decide)), hp.1]
    rw [hk]
    exact hF.bit (by decide)
  · repeat'
      (first | (with_reducible assumption)
             | ((with_reducible refine hF.up ?_); rfl)
             | ((with_reducible refine Or.inr (hF.up ?_)); rfl)
             | (with_reducible exact Or.inl rfl)
             | (extract_lets +onlyGivenNames x; have hx : Moves F s x := ?_; (on_goal 1 => clear_value x); (on_goal 2 => subst x))
             | (intro)
             | (with_reducible apply closeWindows_moves)
             | (with_reducible apply discardTags_moves)
             | (with_reducible apply dropJob_moves)
             | (with_reducible apply Moves.foldl)
             | (with_reducible apply Moves.upd))

theorem notCarriedIo_moves {F : ℕ} {s t : State} {a1 : Head} {a2 : Part} {a3 : Bool} (hF : Sub 1677 F) (h :
    Moves F s t) : Moves F s (notCarriedIo t a1 a2 a3) := by
  unfold notCarriedIo
  repeat'
    (first | (with_reducible assumption) | ((with_reducible refine hF.up ?_); rfl) | (intro)
            | (extract_lets +onlyGivenNames x; have hx : Moves F s x := ?_; (on_goal 1 => clear_value x); (on_goal 2 => subst x))
            | (extract_lets +onlyGivenNames x; clear_value x) | (with_reducible apply Moves.ite) | (split)
            | (with_reducible apply emit_moves) | (with_reducible apply ioTouch_moves)
            | (with_reducible apply aerLog_moves) | (with_reducible apply record_moves))

theorem ioWrite_moves {F : ℕ} {s t : State} {a1 : Head} {a2 : Part} {a3 : State → State} (hF : Sub 1677 F) (k3
    : ∀ u0, Moves F s u0 → Moves F s (a3 u0)) (h : Moves F s t) : Moves F s (ioWrite t a1 a2 a3) := by
  unfold ioWrite
  repeat'
    (first | (with_reducible assumption) | (with_reducible apply k3) | ((with_reducible refine hF.up ?_); rfl)
            | (intro) | (with_reducible apply Moves.ite) | (with_reducible apply ioTouch_moves)
            | (with_reducible apply notCarriedIo_moves))

theorem execDoorbell_moves {F : ℕ} {s t : State} {a0 : Head} {a1 : Part} {a2 : Ring} {a3 : BitVec 32} {a4 : Bool}
    (hF : Sub 549757912717 F) (h : Moves F s t) : ∃ u, (execDoorbell a0 a1 a2 a3 a4 t) = .next u ∧ Moves F s u := by
  unfold execDoorbell
  refine ⟨_, rfl, ?_⟩
  repeat'
    (first | (with_reducible assumption) | ((with_reducible refine hF.up ?_); rfl) | (intro)
            | (with_reducible apply doDoorbell_moves) | (with_reducible apply ioWrite_moves))

theorem execDescriptorFetch_moves {F : ℕ} {s t : State} {a0 : Part} {a1 : Ring} {a2 : Cpl} (hF : Sub 550521734159 F)
    (h : Moves F s t) : ∃ u, (execDescriptorFetch a0 a1 a2 t) = .next u ∧ Moves F s u := by
  unfold execDescriptorFetch
  refine ⟨_, rfl, ?_⟩
  repeat'
    (first | (with_reducible assumption) | ((with_reducible refine hF.up ?_); rfl)
            | ((with_reducible refine Or.inr (hF.up ?_)); rfl) | (with_reducible exact Or.inl rfl) | (intro)
            | (extract_lets +onlyGivenNames x; have hx : Moves F s x := ?_; (on_goal 1 => clear_value x); (on_goal 2 => subst x))
            | (extract_lets +onlyGivenNames x; clear_value x) | (with_reducible apply Moves.ite) | (split)
            | (with_reducible apply aerLog_moves) | (with_reducible apply dropTag_moves)
            | (with_reducible apply pumpRings_moves) | (with_reducible apply descFetched_moves)
            | (with_reducible apply Moves.upd))

theorem execJobStart_moves {F : ℕ} {s t : State} {a0 : Part} {a1 : Ring} {a2 : ℕ} (hF : Sub 8454144 F) (h :
    Moves F s t) : ∃ u, (execJobStart a0 a1 a2 t) = .next u ∧ Moves F s u := by
  unfold execJobStart
  refine ⟨_, rfl, ?_⟩
  repeat'
    (first | (with_reducible assumption) | ((with_reducible refine hF.up ?_); rfl)
            | ((with_reducible refine Or.inr (hF.up ?_)); rfl) | (with_reducible exact Or.inl rfl) | (intro)
            | (with_reducible apply Moves.ite) | (split) | (with_reducible apply startJob_moves)
            | (with_reducible apply Moves.upd))

theorem execJobComplete_moves {F : ℕ} {s t : State} {a0 : Part} {a1 : Ring} {a2 : ℕ} (hF : Sub 549982766095 F) (h :
    Moves F s t) : ∃ u, (execJobComplete a0 a1 a2 t) = .next u ∧ Moves F s u := by
  unfold execJobComplete
  refine ⟨_, rfl, ?_⟩
  repeat'
    (first | (with_reducible assumption) | ((with_reducible refine hF.up ?_); rfl)
            | ((with_reducible refine Or.inr (hF.up ?_)); rfl) | (with_reducible exact Or.inl rfl) | (intro)
            | (with_reducible apply Moves.ite) | (split) | (with_reducible apply dropJob_moves)
            | (with_reducible apply finishJob_moves) | (with_reducible apply Moves.upd))

end Sys2Proof.Machine
end

