-- ==== Sys2Proof/Laws/MovesSteps.lean ====
section
/-! SUPPORT. What the functions of Machine/Steps.lean keep, and the kinds of state they may change (`Moves`). -/

set_option linter.all false

namespace Sys2Proof.Machine

open Sys2Proof

theorem stepMap_moves {F : ℕ} {s t : State} {a1 : Step} {a2 : Step → Step} (hF : Sub 16777216 F) (h : Moves F s t) :
    Moves F s (stepMap t a1 a2) := by
  unfold stepMap
  repeat'
    (first | (with_reducible assumption) | ((with_reducible refine hF.up ?_); rfl)
            | ((with_reducible refine Or.inr (hF.up ?_)); rfl) | (with_reducible exact Or.inl rfl) | (intro)
            | (with_reducible apply Moves.ite) | (with_reducible apply Moves.upd))

theorem stepDrop_moves {F : ℕ} {s t : State} {a1 : Step} (hF : Sub 16777216 F) (h : Moves F s t) : Moves F s
    (stepDrop t a1) := by
  unfold stepDrop
  repeat'
    (first | (with_reducible assumption) | ((with_reducible refine hF.up ?_); rfl)
            | ((with_reducible refine Or.inr (hF.up ?_)); rfl) | (with_reducible exact Or.inl rfl) | (intro)
            | (with_reducible apply Moves.upd))

theorem cutStep_moves {F : ℕ} {s t : State} {a1 : Job} {a2 : ℕ} {a3 : Bool} (hF : Sub 25165824 F) (h : Moves F s t)
    : Moves F s (cutStep t a1 a2 a3) := by
  unfold cutStep
  repeat'
    (first | (with_reducible assumption) | ((with_reducible refine hF.up ?_); rfl)
            | ((with_reducible refine Or.inr (hF.up ?_)); rfl) | (with_reducible exact Or.inl rfl) | (intro)
            | (extract_lets +onlyGivenNames x; have hx : Moves F s x := ?_; (on_goal 1 => clear_value x); (on_goal 2 => subst x))
            | (extract_lets +onlyGivenNames x; clear_value x) | (with_reducible apply Moves.ite) | (split)
            | (with_reducible apply jobMap_moves) | (with_reducible apply failJob_moves)
            | (with_reducible apply Moves.upd))

theorem parkStep_moves {F : ℕ} {s t : State} {a1 : Step} {a2 : Sys2Proof.ParkCause} (hF : Sub 562949970198528 F) (h
    : Moves F s t) : Moves F s (parkStep t a1 a2) := by
  unfold parkStep
  repeat'
    (first | (with_reducible assumption) | ((with_reducible refine hF.up ?_); rfl)
            | ((with_reducible refine Or.inr (hF.up ?_)); rfl) | (with_reducible exact Or.inl rfl) | (intro)
            | (extract_lets +onlyGivenNames x; have hx : Moves F s x := ?_; (on_goal 1 => clear_value x); (on_goal 2 => subst x))
            | (extract_lets +onlyGivenNames x; clear_value x) | (with_reducible apply Moves.ite)
            | (with_reducible apply finc_moves) | (with_reducible apply stepMap_moves)
            | (with_reducible apply Moves.upd))

theorem doStepStart_moves {F : ℕ} {s t : State} {a1 : ℕ} {a2 : ℕ} {a3 : Option Sys2Proof.ParkCause} (hF
    : Sub 562949970198528 F) (h : Moves F s t) : Moves F s (doStepStart t a1 a2 a3) := by
  unfold doStepStart
  repeat'
    (first | (with_reducible assumption) | ((with_reducible refine hF.up ?_); rfl)
            | ((with_reducible refine Or.inr (hF.up ?_)); rfl) | (with_reducible exact Or.inl rfl) | (intro)
            | (extract_lets +onlyGivenNames x; have hx : Moves F s x := ?_; (on_goal 1 => clear_value x); (on_goal 2 => subst x))
            | (extract_lets +onlyGivenNames x; clear_value x) | (with_reducible apply Moves.ite) | (split)
            | (with_reducible apply stepMap_moves) | (with_reducible apply stepDrop_moves)
            | (with_reducible apply parkStep_moves) | (with_reducible apply Moves.upd))

theorem doStepResume_moves {F : ℕ} {s t : State} {a1 : Step} (hF : Sub 16777216 F) (h : Moves F s t) : Moves F s
    (doStepResume t a1) := by
  unfold doStepResume
  repeat'
    (first | (with_reducible assumption) | ((with_reducible refine hF.up ?_); rfl)
            | ((with_reducible refine Or.inr (hF.up ?_)); rfl) | (with_reducible exact Or.inl rfl) | (intro)
            | (extract_lets +onlyGivenNames x; have hx : Moves F s x := ?_; (on_goal 1 => clear_value x); (on_goal 2 => subst x))
            | (extract_lets +onlyGivenNames x; clear_value x) | (with_reducible apply Moves.ite)
            | (with_reducible apply stepMap_moves) | (with_reducible apply stepDrop_moves)
            | (with_reducible apply Moves.upd))

theorem rerunOn_moves {F : ℕ} {s t : State} {a1 : Step} {a2 : Option ℕ} {a3 : Step → Step} (hF : Sub 16777216 F) (h
    : Moves F s t) : Moves F s (rerunOn t a1 a2 a3) := by
  unfold rerunOn
  repeat'
    (first | (with_reducible assumption) | ((with_reducible refine hF.up ?_); rfl)
            | ((with_reducible refine Or.inr (hF.up ?_)); rfl) | (with_reducible exact Or.inl rfl) | (intro)
            | (extract_lets +onlyGivenNames x; have hx : Moves F s x := ?_; (on_goal 1 => clear_value x); (on_goal 2 => subst x))
            | (extract_lets +onlyGivenNames x; clear_value x) | (split) | (with_reducible apply stepMap_moves)
            | (with_reducible apply Moves.upd))

theorem placeSteps_moves {F : ℕ} {s t : State} (hF : Sub 16777216 F) (h : Moves F s t) : Moves F s (placeSteps t)
    := by
  unfold placeSteps
  repeat'
    (first | (with_reducible assumption) | ((with_reducible refine hF.up ?_); rfl)
            | ((with_reducible refine Or.inr (hF.up ?_)); rfl) | (with_reducible exact Or.inl rfl) | (intro)
            | (split) | (with_reducible apply stepMap_moves) | (with_reducible apply Moves.foldl)
            | (with_reducible apply Moves.upd))

theorem doOverrun_moves {F : ℕ} {s t : State} {a1 : Step} (hF : Sub 563499734402061 F) (h : Moves F s t) : Moves F s
    (doOverrun t a1) := by
  unfold doOverrun
  repeat'
    (first | (with_reducible assumption) | ((with_reducible refine hF.up ?_); rfl)
            | ((with_reducible refine Or.inr (hF.up ?_)); rfl) | (with_reducible exact Or.inl rfl) | (intro)
            | (extract_lets +onlyGivenNames x; have hx : Moves F s x := ?_; (on_goal 1 => clear_value x); (on_goal 2 => subst x))
            | (extract_lets +onlyGivenNames x; clear_value x) | (with_reducible apply Moves.ite) | (split)
            | (with_reducible apply finc_moves) | (with_reducible apply raise_moves)
            | (with_reducible apply jobMap_moves) | (with_reducible apply stepMap_moves)
            | (with_reducible apply Moves.upd))

theorem countQuick_moves {F : ℕ} {s t : State} {a1 : Step} {a2 : Bool} (hF : Sub 8388608 F) (h : Moves F s t) :
    Moves F s (countQuick t a1 a2) := by
  unfold countQuick
  repeat'
    (first | (with_reducible assumption) | ((with_reducible refine hF.up ?_); rfl)
            | ((with_reducible refine Or.inr (hF.up ?_)); rfl) | (with_reducible exact Or.inl rfl) | (intro)
            | (with_reducible apply Moves.ite) | (split) | (with_reducible apply jobMap_moves)
            | (with_reducible apply Moves.upd))

theorem doWatchdog_moves {F : ℕ} {s t : State} {a1 : Step} (hF : Sub 562949978588173 F) (h : Moves F s t) :
    Moves F s (doWatchdog t a1) := by
  unfold doWatchdog
  repeat'
    (first | (with_reducible assumption) | ((with_reducible refine hF.up ?_); rfl)
            | ((with_reducible refine Or.inr (hF.up ?_)); rfl) | (with_reducible exact Or.inl rfl) | (intro)
            | (extract_lets +onlyGivenNames x; have hx : Moves F s x := ?_; (on_goal 1 => clear_value x); (on_goal 2 => subst x))
            | (extract_lets +onlyGivenNames x; clear_value x) | (with_reducible apply Moves.ite) | (split)
            | (with_reducible apply finc_moves) | (with_reducible apply record_moves)
            | (with_reducible apply cancelJob_moves) | (with_reducible apply stepDrop_moves)
            | (with_reducible apply rerunOn_moves) | (with_reducible apply Moves.upd))

theorem jobReq_moves {F : ℕ} {s t : State} {a1 : Req} (hF : Sub 47761103225887 F) (h : Moves F s t) : Moves F s
    (jobReq t a1) := by
  unfold jobReq
  repeat'
    (first | (with_reducible assumption) | ((with_reducible refine hF.up ?_); rfl)
            | ((with_reducible refine Or.inr (hF.up ?_)); rfl) | (with_reducible exact Or.inl rfl) | (intro)
            | (with_reducible apply Moves.ite) | (split) | (with_reducible apply pcUpd_moves)
            | (with_reducible apply routeReq_moves) | (with_reducible apply Moves.upd))

theorem accessFails_moves {F : ℕ} {s t : State} {a1 : Job} {a2 : ℕ} {a3 : Bool} {u : State}
    (hF : Sub 8389645 F) (e : accessFails t a1 a2 a3 = some u) (h : Moves F s t) : Moves F s u := by
  unfold accessFails at e
  split at e
  · cases e; exact failJob_moves (hF.up rfl) (unheld_moves (hF.up rfl) h)
  · extract_lets d at e
    clear_value d
    split at e
    · cases e; exact failJob_moves (hF.up rfl) (readerWrite_moves (hF.up rfl) h)
    · cases e

theorem sendPiece_moves {F : ℕ} {s t : State} {a1 : Job} {a2 : Step} {a3 : OutWrite} (hF : Sub 47761103225887 F) (h
    : Moves F s t) : Moves F s (sendPiece t a1 a2 a3) := by
  unfold sendPiece
  repeat'
    (first | (with_reducible assumption) | ((with_reducible refine hF.up ?_); rfl)
            | ((with_reducible refine Or.inr (hF.up ?_)); rfl) | (with_reducible exact Or.inl rfl) | (intro)
            | (extract_lets +onlyGivenNames x; have hx : Moves F s x := ?_; (on_goal 1 => clear_value x); (on_goal 2 => subst x))
            | (extract_lets +onlyGivenNames x; clear_value x) | (with_reducible apply Moves.ite)
            | (with_reducible apply emit_moves) | (with_reducible apply jobMap_moves)
            | (with_reducible apply stepMap_moves) | (with_reducible apply jobReq_moves)
            | (with_reducible apply Moves.foldl) | (with_reducible apply Moves.upd))

theorem sendPieces_moves {F : ℕ} {s t : State} {j : Job} {x : Step} {ws : List OutWrite}
    (hF : Sub 47761103225887 F) (h : Moves F s t) : Moves F s (sendPieces t j x ws) := by
  induction ws generalizing t with
  | nil => exact h
  | cons w rest ih =>
    unfold sendPieces
    refine .ite (fun _ => ?_) (fun _ => ih h)
    split
    · next u e =>
      split at e
      · cases e
      · exact accessFails_moves (hF.up rfl) e h
    · exact ih (sendPiece_moves (hF.up rfl) h)

theorem askLine_moves {F : ℕ} {s t : State} {a1 : Part} {a2 : Ring} {a3 : ℕ} {a4 : ℕ} (hF : Sub 47761103225887 F) (h
    : Moves F s t) : Moves F s (askLine t a1 a2 a3 a4) := by
  unfold askLine
  repeat'
    (first | (with_reducible assumption) | ((with_reducible refine hF.up ?_); rfl)
            | ((with_reducible refine Or.inr (hF.up ?_)); rfl) | (with_reducible exact Or.inl rfl) | (intro)
            | (extract_lets +onlyGivenNames x; have hx : Moves F s x := ?_; (on_goal 1 => clear_value x); (on_goal 2 => subst x))
            | (extract_lets +onlyGivenNames x; clear_value x) | (with_reducible apply Moves.ite) | (split)
            | (with_reducible apply jobMap_moves) | (with_reducible apply jobReq_moves)
            | (refine accessFails_moves (hF.up rfl) (by with_reducible assumption) ?_)
            | (with_reducible apply Moves.getD) | (with_reducible apply Moves.upd))

theorem commitWaits_moves {F : ℕ} {s t : State} {a1 : Job} {a2 : Step} {u : State} (hF : Sub 47761103225887 F)
    (e : commitWaits t a1 a2 = some u) (h : Moves F s t) : Moves F s u := by
  unfold commitWaits at e
  extract_lets lines bad st away again v at e
  clear_value st away bad lines
  split at e
  · cases e
    exact stepDrop_moves (hF.up rfl) (failJob_moves (hF.up rfl) h)
  · split at e
    · cases e
    · cases e
      exact Moves.foldl (fun v l hv => askLine_moves (hF.up rfl) hv) _ (jobMap_moves (hF.up rfl) h)

theorem applyAdd_moves {F : ℕ} {s t : State} {a1 : Job} {a2 : Step} {a3 : Window} {a4 : ℕ × ℤ × ℕ} (hF
    : Sub 47761103225887 F) (h : Moves F s t) : Moves F s (applyAdd t a1 a2 a3 a4) := by
  unfold applyAdd
  repeat'
    (first | (with_reducible assumption) | ((with_reducible refine hF.up ?_); rfl) | (intro)
            | (extract_lets +onlyGivenNames x; have hx : Moves F s x := ?_; (on_goal 1 => clear_value x); (on_goal 2 => subst x))
            | (extract_lets +onlyGivenNames x; clear_value x) | (with_reducible apply Moves.ite) | (split)
            | (with_reducible apply sendPieces_moves))

theorem applyAdds_moves {F : ℕ} {s t : State} {a1 : Job} {a2 : Step} (hF : Sub 47761103225887 F) (h : Moves F s t) :
    Moves F s (applyAdds t a1 a2) := by
  unfold applyAdds
  repeat'
    (first | (with_reducible assumption) | ((with_reducible refine hF.up ?_); rfl)
            | ((with_reducible refine Or.inr (hF.up ?_)); rfl) | (with_reducible exact Or.inl rfl) | (intro)
            | (with_reducible apply Moves.ite) | (split) | (with_reducible apply applyAdd_moves)
            | (with_reducible apply Moves.foldl) | (with_reducible apply Moves.upd))

theorem writesLeft_moves {F : ℕ} {s t : State} {a1 : Step} (hF : Sub 16777216 F) (h : Moves F s t) : Moves F s
    (writesLeft t a1) := by
  unfold writesLeft
  repeat'
    (first | (with_reducible assumption) | ((with_reducible refine hF.up ?_); rfl)
            | ((with_reducible refine Or.inr (hF.up ?_)); rfl) | (with_reducible exact Or.inl rfl) | (intro)
            | (with_reducible apply Moves.ite) | (split) | (with_reducible apply stepMap_moves)
            | (with_reducible apply stepDrop_moves) | (with_reducible apply Moves.upd))

theorem commitStep_moves {F : ℕ} {s t : State} {a1 : Step} (hF : Sub 47761103225887 F) (h : Moves F s t) : Moves F s
    (commitStep t a1) := by
  unfold commitStep
  repeat'
    (first | (with_reducible assumption) | ((with_reducible refine hF.up ?_); rfl)
            | ((with_reducible refine Or.inr (hF.up ?_)); rfl) | (with_reducible exact Or.inl rfl) | (split)
            | (with_reducible apply stepDrop_moves) | (with_reducible apply sendPieces_moves)
            | (with_reducible apply applyAdds_moves) | (with_reducible apply writesLeft_moves)
            | (with_reducible apply Moves.upd))

theorem drawSome_moves {F : ℕ} {s t : State} {α : Type} {l : List α} (hF : Sub 2 F) (h : Moves F s t) :
    Moves F s (drawSome t l).2 := h.drawTo (hF.up rfl) (Nat.le_add_right _ _)

theorem drawSome_movesE {F : ℕ} {s t u : State} {α : Type} {l x : List α} (e : drawSome t l = (x, u))
    (hF : Sub 2 F) (h : Moves F s t) : Moves F s u := by
  have k := drawSome_moves (l := l) hF h
  rwa [e] at k

theorem lateCommit_moves {F : ℕ} {s t : State} {a1 : Job} {a2 : Step} (hF : Sub 47761103225887 F) (h : Moves F s t)
    : Moves F s (lateCommit t a1 a2) := by
  unfold lateCommit
  repeat'
    (first | (with_reducible assumption) | ((with_reducible refine hF.up ?_); rfl) | (intro)
            | (extract_lets +onlyGivenNames x; have hx : Moves F s x := ?_; (on_goal 1 => clear_value x); (on_goal 2 => subst x))
            | (extract_lets +onlyGivenNames x; have hx : Moves F s x.2 := ?_; (on_goal 1 => clear_value x); (on_goal 2 => subst x))
            | (extract_lets +onlyGivenNames x; clear_value x) | (with_reducible apply Moves.ite) | (split)
            | (refine draw_movesE (by with_reducible assumption) (hF.up rfl) ?_) | (with_reducible apply draw_moves)
            | (with_reducible apply stepDrop_moves) | (with_reducible apply sendPieces_moves)
            | (with_reducible apply applyAdds_moves) | (with_reducible apply writesLeft_moves)
            | (with_reducible apply commitStep_moves)
            | (refine drawSome_movesE (by with_reducible assumption) (hF.up rfl) ?_)
            | (with_reducible apply drawSome_moves))

theorem endSteps_moves {F : ℕ} {s t : State} (hF : Sub 47761103225887 F) (h : Moves F s t) : Moves F s (endSteps t)
    := by
  unfold endSteps
  repeat'
    (first | (with_reducible assumption) | ((with_reducible refine hF.up ?_); rfl)
            | ((with_reducible refine Or.inr (hF.up ?_)); rfl) | (with_reducible exact Or.inl rfl) | (intro)
            | (extract_lets +onlyGivenNames x; have hx : Moves F s x := ?_; (on_goal 1 => clear_value x); (on_goal 2 => subst x))
            | (extract_lets +onlyGivenNames x; clear_value x) | (with_reducible apply Moves.ite) | (split)
            | (with_reducible apply dropJob_moves) | (with_reducible apply stepDrop_moves)
            | (with_reducible apply lateCommit_moves) | (with_reducible apply Moves.foldl)
            | (with_reducible apply Moves.upd))

theorem digestDiffers_moves {F : ℕ} {s t : State} {a1 : Step} (hF : Sub 35734153069581 F) (h : Moves F s t) :
    Moves F s (digestDiffers t a1) := by
  unfold digestDiffers
  repeat'
    (first | (with_reducible assumption) | ((with_reducible refine hF.up ?_); rfl)
            | ((with_reducible refine Or.inr (hF.up ?_)); rfl) | (with_reducible exact Or.inl rfl) | (intro)
            | (extract_lets +onlyGivenNames x; have hx : Moves F s x := ?_; (on_goal 1 => clear_value x); (on_goal 2 => subst x))
            | (extract_lets +onlyGivenNames x; clear_value x) | (with_reducible apply Moves.ite) | (split)
            | (with_reducible apply finc_moves) | (with_reducible apply raise_moves)
            | (with_reducible apply jobMap_moves) | (with_reducible apply cancelJob_moves)
            | (with_reducible apply stepDrop_moves) | (with_reducible apply rerunOn_moves)
            | (with_reducible apply Moves.upd))

theorem compareDigests_moves {F : ℕ} {s t : State} {a1 : Step} {a2 : W64} {a3 : W64} (hF : Sub 48310859039775 F) (h
    : Moves F s t) : Moves F s (compareDigests t a1 a2 a3) := by
  unfold compareDigests
  repeat'
    (first | (with_reducible assumption) | ((with_reducible refine hF.up ?_); rfl) | (intro)
            | (extract_lets +onlyGivenNames x; have hx : Moves F s x := ?_; (on_goal 1 => clear_value x); (on_goal 2 => subst x))
            | (extract_lets +onlyGivenNames x; clear_value x) | (with_reducible apply Moves.ite)
            | (with_reducible apply finc_moves) | (with_reducible apply commitStep_moves)
            | (with_reducible apply digestDiffers_moves))

theorem finishTwinStep_moves {F : ℕ} {s t : State} {a1 : Job} {a2 : Step} (hF : Sub 48310859039775 F) (h :
    Moves F s t) : Moves F s (finishTwinStep t a1 a2) := by
  unfold finishTwinStep
  repeat'
    (first | (with_reducible assumption) | ((with_reducible refine hF.up ?_); rfl)
            | ((with_reducible refine Or.inr (hF.up ?_)); rfl) | (with_reducible exact Or.inl rfl) | (intro)
            | (extract_lets +onlyGivenNames x; have hx : Moves F s x := ?_; (on_goal 1 => clear_value x); (on_goal 2 => subst x))
            | (extract_lets +onlyGivenNames x; clear_value x) | (split) | (with_reducible apply stepMap_moves)
            | (with_reducible apply compareDigests_moves) | (with_reducible apply Moves.upd))

theorem commitWaiting_moves {F : ℕ} {s t : State} (hF : Sub 47761103225887 F) (h : Moves F s t) : Moves F s
    (commitWaiting t) := by
  unfold commitWaiting
  repeat'
    (first | (with_reducible assumption) | ((with_reducible refine hF.up ?_); rfl) | (intro)
            | (with_reducible apply commitStep_moves) | (with_reducible apply Moves.foldl))

theorem takeSteps_moves {F : ℕ} {s t : State} {a1 : ℕ} {a2 : ℕ} (hF : Sub 16777216 F) (h : Moves F s t) : Moves F s
    (takeSteps t a1 a2) := by
  unfold takeSteps
  repeat'
    (first | (with_reducible assumption) | ((with_reducible refine hF.up ?_); rfl)
            | ((with_reducible refine Or.inr (hF.up ?_)); rfl) | (with_reducible exact Or.inl rfl) | (intro)
            | (extract_lets +onlyGivenNames x; have hx : Moves F s x := ?_; (on_goal 1 => clear_value x); (on_goal 2 => subst x))
            | (extract_lets +onlyGivenNames x; clear_value x) | (with_reducible apply stepDrop_moves)
            | (with_reducible apply Moves.foldl) | (with_reducible apply Moves.upd))

theorem ownVictim_moves {F : ℕ} {s t : State} {a0 : ℕ} {a2 : ℕ} (hF : Sub 2 F) (h : Moves F s t) : Moves F s
    (ownVictim a0 t a2).1 := by
  induction a0 generalizing t with
  | zero => exact h
  | succ n ih =>
    unfold ownVictim
    repeat'
      (first | (with_reducible assumption) | (with_reducible apply ih) | ((with_reducible refine hF.up ?_); rfl)
              | (intro)
              | (extract_lets +onlyGivenNames x; have hx : Moves F s x := ?_; (on_goal 1 => clear_value x); (on_goal 2 => subst x))
              | (extract_lets +onlyGivenNames x; have hx : Moves F s x.2 := ?_; (on_goal 1 => clear_value x); (on_goal 2 => subst x))
              | (extract_lets +onlyGivenNames x; clear_value x) | (with_reducible apply Moves.ite) | (split)
              | (refine draw_movesE (by with_reducible assumption) (hF.up rfl) ?_)
              | (with_reducible apply draw_moves))

theorem ownVictim_movesE {F : ℕ} {s t : State} {a0 : ℕ} {a2 : ℕ} {u : State} {x : Option ℕ} (e :
    (ownVictim a0 t a2) = (u, x)) (hF : Sub 2 F) (h : Moves F s t) : Moves F s u := by
  have k : Moves F s (ownVictim a0 t a2).1 := ownVictim_moves hF h
  rwa [e] at k

theorem doSteal_moves {F : ℕ} {s t : State} {a1 : ℕ} (hF : Sub 562949970198530 F) (h : Moves F s t) :
    Moves F s (doSteal t a1) := by
  unfold doSteal
  have k : Moves F s (if fcur t .pitchSchedCfgStealEn = 1 then ownVictim 4 t a1 else (t, none)).1 := by
    split
    · exact ownVictim_moves (hF.up rfl) h
    · exact h
  generalize (if fcur t .pitchSchedCfgStealEn = 1 then ownVictim 4 t a1 else (t, none)) = x at k
  obtain ⟨u, own⟩ := x
  dsimp only at k ⊢
  split
  · exact finc_moves (hF.up rfl) (takeSteps_moves (hF.up rfl) k)
  · split
    · exact finc_moves (hF.up rfl) (takeSteps_moves (hF.up rfl) k)
    · split
      · exact finc_moves (hF.up rfl) (takeSteps_moves (hF.up rfl) k)
      · exact k

theorem moveOne_moves {F : ℕ} {s t : State} {a1 : ℕ} {a2 : ℕ} (hF : Sub 562949970198528 F) (h : Moves F s t) :
    Moves F s (moveOne t a1 a2) := by
  unfold moveOne
  repeat'
    (first | (with_reducible assumption) | ((with_reducible refine hF.up ?_); rfl)
            | ((with_reducible refine Or.inr (hF.up ?_)); rfl) | (with_reducible exact Or.inl rfl) | (intro)
            | (extract_lets +onlyGivenNames x; have hx : Moves F s x := ?_; (on_goal 1 => clear_value x); (on_goal 2 => subst x))
            | (extract_lets +onlyGivenNames x; clear_value x) | (split) | (with_reducible apply finc_moves)
            | (with_reducible apply stepDrop_moves) | (with_reducible apply Moves.upd))

theorem moveMany_moves {F : ℕ} {s t : State} {a0 : ℕ} {a2 : ℕ} {a3 : ℕ} (hF : Sub 562949970198528 F) (h :
    Moves F s t) : Moves F s (moveMany a0 t a2 a3) := by
  induction a0 generalizing t with
  | zero => exact h
  | succ n ih =>
    unfold moveMany
    repeat'
      (first | (with_reducible assumption) | (with_reducible apply ih) | ((with_reducible refine hF.up ?_); rfl)
              | (with_reducible apply moveOne_moves))

theorem rebalanceDie_moves {F : ℕ} {s t : State} {a1 : ℕ} (hF : Sub 562949970198528 F) (h : Moves F s t) : Moves F s
    (rebalanceDie t a1) := by
  unfold rebalanceDie
  repeat'
    (first | (with_reducible assumption) | ((with_reducible refine hF.up ?_); rfl) | (intro)
            | (extract_lets +onlyGivenNames x; have hx : Moves F s x := ?_; (on_goal 1 => clear_value x); (on_goal 2 => subst x))
            | (extract_lets +onlyGivenNames x; clear_value x) | (with_reducible apply Moves.ite)
            | (with_reducible apply moveMany_moves) | (with_reducible apply Moves.foldl))

theorem rebalance_moves {F : ℕ} {s t : State} (hF : Sub 562949970198528 F) (h : Moves F s t) : Moves F s
    (rebalance t) := by
  unfold rebalance
  repeat'
    (first | (with_reducible assumption) | ((with_reducible refine hF.up ?_); rfl) | (intro)
            | (with_reducible apply Moves.ite) | (with_reducible apply rebalanceDie_moves)
            | (with_reducible apply Moves.foldl))

theorem remapStep_moves {F : ℕ} {s t : State} {a1 : Step} (hF : Sub 562949978587136 F) (h : Moves F s t) : Moves F s
    (remapStep t a1) := by
  unfold remapStep
  repeat'
    (first | (with_reducible assumption) | ((with_reducible refine hF.up ?_); rfl)
            | ((with_reducible refine Or.inr (hF.up ?_)); rfl) | (with_reducible exact Or.inl rfl) | (intro)
            | (split) | (with_reducible apply finc_moves) | (with_reducible apply failJob_moves)
            | (with_reducible apply stepDrop_moves) | (with_reducible apply rerunOn_moves)
            | (with_reducible apply Moves.upd))

theorem remapSteps_moves {F : ℕ} {s t : State} (hF : Sub 562949978587136 F) (h : Moves F s t) : Moves F s
    (remapSteps t) := by
  unfold remapSteps
  repeat'
    (first | (with_reducible assumption) | ((with_reducible refine hF.up ?_); rfl) | (intro)
            | (with_reducible apply remapStep_moves) | (with_reducible apply Moves.foldl))

theorem execStepGenerate_moves {F : ℕ} {s t : State} {a0 : Part} {a1 : Ring} {a2 : ℕ} {a3 : List Cluster} {a4
    : Bool} (hF : Sub 25165824 F) (h : Moves F s t) : ∃ u, (execStepGenerate a0 a1 a2 a3 a4 t) = .next u ∧
    Moves F s u := by
  unfold execStepGenerate
  refine ⟨_, rfl, ?_⟩
  repeat'
    (first | (with_reducible assumption) | ((with_reducible refine hF.up ?_); rfl)
            | ((with_reducible refine Or.inr (hF.up ?_)); rfl) | (with_reducible exact Or.inl rfl) | (intro)
            | (with_reducible apply Moves.ite) | (split) | (with_reducible apply cutStep_moves)
            | (with_reducible apply placeSteps_moves) | (with_reducible apply Moves.foldl)
            | (with_reducible apply Moves.upd))

theorem execStepStart_moves {F : ℕ} {s t : State} {a0 : ℕ} {a1 : ℕ} {a2 : Option Sys2Proof.ParkCause} (hF
    : Sub 562949970198528 F) (h : Moves F s t) : ∃ u, (execStepStart a0 a1 a2 t) = .next u ∧ Moves F s u := by
  unfold execStepStart
  refine ⟨_, rfl, ?_⟩
  repeat'
    (first | (with_reducible assumption) | ((with_reducible refine hF.up ?_); rfl) | (intro)
            | (with_reducible apply Moves.ite) | (split) | (with_reducible apply doStepStart_moves))

theorem execStepResume_moves {F : ℕ} {s t : State} {a0 : Part} {a1 : Ring} {a2 : ℕ} {a3 : ℕ} (hF : Sub 16777216 F)
    (h : Moves F s t) : ∃ u, (execStepResume a0 a1 a2 a3 t) = .next u ∧ Moves F s u := by
  unfold execStepResume
  refine ⟨_, rfl, ?_⟩
  repeat'
    (first | (with_reducible assumption) | ((with_reducible refine hF.up ?_); rfl)
            | ((with_reducible refine Or.inr (hF.up ?_)); rfl) | (with_reducible exact Or.inl rfl) | (intro)
            | (split) | (with_reducible apply doStepResume_moves) | (with_reducible apply Moves.upd))

theorem execStepOverrun_moves {F : ℕ} {s t : State} {a0 : Part} {a1 : Ring} {a2 : ℕ} {a3 : ℕ} (hF
    : Sub 563499734402061 F) (h : Moves F s t) : ∃ u, (execStepOverrun a0 a1 a2 a3 t) = .next u ∧ Moves F s u := by
  unfold execStepOverrun
  refine ⟨_, rfl, ?_⟩
  repeat'
    (first | (with_reducible assumption) | ((with_reducible refine hF.up ?_); rfl)
            | ((with_reducible refine Or.inr (hF.up ?_)); rfl) | (with_reducible exact Or.inl rfl) | (intro)
            | (with_reducible apply Moves.ite) | (split) | (with_reducible apply doOverrun_moves)
            | (with_reducible apply Moves.upd))

theorem execWatchdogTrip_moves {F : ℕ} {s t : State} {a0 : Part} {a1 : Ring} {a2 : ℕ} {a3 : ℕ} (hF
    : Sub 562949978588173 F) (h : Moves F s t) : ∃ u, (execWatchdogTrip a0 a1 a2 a3 t) = .next u ∧ Moves F s u := by
  unfold execWatchdogTrip
  refine ⟨_, rfl, ?_⟩
  repeat'
    (first | (with_reducible assumption) | ((with_reducible refine hF.up ?_); rfl)
            | ((with_reducible refine Or.inr (hF.up ?_)); rfl) | (with_reducible exact Or.inl rfl) | (intro)
            | (with_reducible apply Moves.ite) | (split) | (with_reducible apply doWatchdog_moves)
            | (with_reducible apply Moves.upd))

theorem finishStep_moves {F : ℕ} {s t : State} {a1 : Job} {a2 : Step} {a3 : Bool} (hF : Sub 48310859039775 F) (h :
    Moves F s t) : Moves F s (finishStep t a1 a2 a3) := by
  unfold finishStep
  repeat'
    (first | (with_reducible assumption) | ((with_reducible refine hF.up ?_); rfl) | (intro)
            | (extract_lets +onlyGivenNames x; have hx : Moves F s x := ?_; (on_goal 1 => clear_value x); (on_goal 2 => subst x))
            | (extract_lets +onlyGivenNames x; clear_value x) | (with_reducible apply Moves.ite)
            | (with_reducible apply countQuick_moves) | (with_reducible apply commitStep_moves)
            | (with_reducible apply finishTwinStep_moves))

theorem execStepCommit_moves {F : ℕ} {s t : State} {a0 : Part} {a1 : Ring} {a2 : ℕ} {a3 : ℕ} {a4 : Bool} (hF
    : Sub 48310859039775 F) (h : Moves F s t) : ∃ u, (execStepCommit a0 a1 a2 a3 a4 t) = .next u ∧ Moves F s u := by
  unfold execStepCommit
  refine ⟨_, rfl, ?_⟩
  repeat'
    (first | (with_reducible assumption) | ((with_reducible refine hF.up ?_); rfl)
            | ((with_reducible refine Or.inr (hF.up ?_)); rfl) | (with_reducible exact Or.inl rfl) | (intro)
            | (with_reducible apply Moves.ite) | (split) | (with_reducible apply failJob_moves)
            | (with_reducible apply stepDrop_moves)
            | (refine commitWaits_moves (hF.up rfl) (by with_reducible assumption) ?_)
            | (with_reducible apply lateCommit_moves) | (with_reducible apply finishStep_moves)
            | (with_reducible apply Moves.getD) | (with_reducible apply Moves.upd))

theorem execSteal_moves {F : ℕ} {s t : State} {a0 : ℕ} (hF : Sub 562949970198530 F) (h : Moves F s t) : ∃ u,
    (execSteal a0 t) = .next u ∧ Moves F s u := by
  unfold execSteal
  refine ⟨_, rfl, ?_⟩
  repeat'
    (first | (with_reducible assumption) | ((with_reducible refine hF.up ?_); rfl) | (intro)
            | (with_reducible apply Moves.ite) | (split) | (with_reducible apply doSteal_moves))

theorem execDigestReceived_moves {F : ℕ} {s t : State} {a0 : ℕ} {a1 : ℕ} {a2 : W64} (hF : Sub 48310859039775 F) (h :
    Moves F s t) : ∃ u, (execDigestReceived a0 a1 a2 t) = .next u ∧ Moves F s u := by
  unfold execDigestReceived
  refine ⟨_, rfl, ?_⟩
  repeat'
    (first | (with_reducible assumption) | ((with_reducible refine hF.up ?_); rfl)
            | ((with_reducible refine Or.inr (hF.up ?_)); rfl) | (with_reducible exact Or.inl rfl) | (intro)
            | (extract_lets +onlyGivenNames x; have hx : Moves F s x := ?_; (on_goal 1 => clear_value x); (on_goal 2 => subst x))
            | (extract_lets +onlyGivenNames x; clear_value x) | (with_reducible apply Moves.ite) | (split)
            | (with_reducible apply stepMap_moves) | (with_reducible apply compareDigests_moves)
            | (with_reducible apply Moves.upd))

theorem execDigestTimeout_moves {F : ℕ} {s t : State} {a0 : ℕ} {a1 : ℕ} (hF : Sub 35734153069581 F) (h :
    Moves F s t) : ∃ u, (execDigestTimeout a0 a1 t) = .next u ∧ Moves F s u := by
  unfold execDigestTimeout
  refine ⟨_, rfl, ?_⟩
  repeat'
    (first | (with_reducible assumption) | ((with_reducible refine hF.up ?_); rfl)
            | ((with_reducible refine Or.inr (hF.up ?_)); rfl) | (with_reducible exact Or.inl rfl) | (intro)
            | (with_reducible apply Moves.ite) | (split) | (with_reducible apply digestDiffers_moves)
            | (with_reducible apply Moves.upd))

theorem execQueueHoldRelease_moves {F : ℕ} {s t : State} {a0 : PcId} (hF : Sub 47761103225887 F) (h : Moves F s t) :
    ∃ u, (execQueueHoldRelease a0 t) = .next u ∧ Moves F s u := by
  unfold execQueueHoldRelease
  refine ⟨_, rfl, ?_⟩
  repeat'
    (first | (with_reducible assumption) | ((with_reducible refine hF.up ?_); rfl)
            | ((with_reducible refine Or.inr (hF.up ?_)); rfl) | (with_reducible exact Or.inl rfl) | (intro)
            | (with_reducible apply Moves.ite) | (split) | (with_reducible apply pcUpd_moves)
            | (with_reducible apply resend_moves) | (with_reducible apply Moves.upd))

theorem releaseHeldBack_moves {F : ℕ} {s t : State} (hF : Sub 47761103225887 F) (h : Moves F s t) : Moves F s
    (releaseHeldBack t) := by
  unfold releaseHeldBack
  repeat'
    (first | (with_reducible assumption) | ((with_reducible refine hF.up ?_); rfl)
            | ((with_reducible refine Or.inr (hF.up ?_)); rfl) | (with_reducible exact Or.inl rfl) | (intro)
            | (extract_lets +onlyGivenNames x; have hx : Moves F s x := ?_; (on_goal 1 => clear_value x); (on_goal 2 => subst x))
            | (extract_lets +onlyGivenNames x; clear_value x) | (with_reducible apply resend_moves)
            | (with_reducible apply Moves.foldl) | (with_reducible apply Moves.upd))

end Sys2Proof.Machine
end

