-- ==== Sys2Proof/Laws/MovesOperators.lean ====
section
/-! SUPPORT. What the functions of Machine/Operators.lean keep, and the kinds of state they may change (`Moves`). -/

set_option linter.all false

namespace Sys2Proof.Machine

open Sys2Proof

theorem askRange_moves {F : ℕ} {s t : State} {a1 : Job} {a2 : InRange} (hF : Sub 47761103225887 F) (h : Moves F s t)
    : Moves F s (askRange t a1 a2) := by
  unfold askRange
  repeat'
    (first | (with_reducible assumption) | ((with_reducible refine hF.up ?_); rfl)
            | ((with_reducible refine Or.inr (hF.up ?_)); rfl) | (with_reducible exact Or.inl rfl) | (intro)
            | (with_reducible apply Moves.ite) | (split) | (with_reducible apply stageNext_moves)
            | (with_reducible apply askLine_moves) | (with_reducible apply Moves.foldl)
            | (with_reducible apply Moves.upd))

theorem openWindow_moves {F : ℕ} {s t : State} {a1 : Job} (hF : Sub 8388608 F) (h : Moves F s t) : Moves F s
    (openWindow t a1) := by
  unfold openWindow
  repeat'
    (first | (with_reducible assumption) | ((with_reducible refine hF.up ?_); rfl)
            | ((with_reducible refine Or.inr (hF.up ?_)); rfl) | (with_reducible exact Or.inl rfl) | (intro)
            | (extract_lets +onlyGivenNames x; have hx : Moves F s x := ?_; (on_goal 1 => clear_value x); (on_goal 2 => subst x))
            | (extract_lets +onlyGivenNames x; clear_value x) | (with_reducible apply Moves.ite)
            | (with_reducible apply Moves.upd))

theorem runKernel_moves {F : ℕ} {s t : State} {a1 : Job} {a2 : List InRange} (hF : Sub 8388610 F)
    (h : Moves F s t) : Moves F s (runKernel t a1 a2) := by
  have k : Moves F s { t with free := t.free + a1.desc.n + 1 } := h.drawTo (hF.up rfl) (by omega)
  unfold runKernel
  extract_lets
  exact jobMap_moves (hF.up rfl) (openWindow_moves (hF.up rfl) k)

theorem wholeResult_moves {F : ℕ} {s t : State} {a1 : Job} {a2 : Outcome} (hF : Sub 8388608 F) (h : Moves F s t) :
    Moves F s (wholeResult t a1 a2) := by
  unfold wholeResult
  repeat'
    (first | (with_reducible assumption) | ((with_reducible refine hF.up ?_); rfl)
            | ((with_reducible refine Or.inr (hF.up ?_)); rfl) | (with_reducible exact Or.inl rfl) | (intro)
            | (with_reducible apply jobMap_moves) | (with_reducible apply Moves.upd))

theorem mapStops_moves {F : ℕ} {s t : State} {a1 : Job} {u : State} (hF : Sub 47761103225887 F)
    (e : mapStops t a1 = some u) (h : Moves F s t) : Moves F s u := by
  unfold mapStops at e
  split at e
  · split at e
    · split at e
      · split at e
        · cases e
          exact wholeResult_moves (hF.up rfl) h
        · split at e
          · cases e
            exact wholeResult_moves (hF.up rfl) h
          · cases e
      · cases e
        exact askRange_moves (hF.up rfl) h
    · cases e
  · cases e

theorem runOperator_moves {F : ℕ} {s t : State} {a1 : Job} (hF : Sub 47761103225887 F) (h : Moves F s t) : Moves F s
    (runOperator t a1) := by
  unfold runOperator
  repeat'
    (first | (with_reducible assumption) | ((with_reducible refine hF.up ?_); rfl)
            | ((with_reducible refine Or.inr (hF.up ?_)); rfl) | (with_reducible exact Or.inl rfl) | (intro)
            | (extract_lets +onlyGivenNames x; have hx : Moves F s x := ?_; (on_goal 1 => clear_value x); (on_goal 2 => subst x))
            | (extract_lets +onlyGivenNames x; clear_value x) | (with_reducible apply Moves.ite) | (split)
            | (with_reducible apply jobMap_moves) | (with_reducible apply failJob_moves)
            | (with_reducible apply askRange_moves) | (with_reducible apply runKernel_moves)
            | (refine mapStops_moves (hF.up rfl) (by with_reducible assumption) ?_)
            | (with_reducible apply Moves.getD) | (with_reducible apply Moves.foldl)
            | (with_reducible apply Moves.upd))

theorem blocksFail_moves {F : ℕ} {s t : State} {a1 : Job} {u : State} (hF : Sub 8389645 F)
    (e : blocksFail t a1 = some u) (h : Moves F s t) : Moves F s u := by
  obtain ⟨a, _, ha⟩ := List.exists_of_findSome?_eq_some e
  exact accessFails_moves (hF.up rfl) ha h

theorem setOutcome_moves {F : ℕ} {s t : State} {a1 : Job} {a2 : ℕ} {a3 : ℕ} (hF : Sub 8388608 F) (h : Moves F s t) :
    Moves F s (setOutcome t a1 a2 a3) := by
  unfold setOutcome
  repeat'
    (first | (with_reducible assumption) | ((with_reducible refine hF.up ?_); rfl)
            | ((with_reducible refine Or.inr (hF.up ?_)); rfl) | (with_reducible exact Or.inl rfl) | (intro)
            | (with_reducible apply jobMap_moves) | (with_reducible apply Moves.upd))

theorem leadResults_moves {F : ℕ} {s t : State} {a1 : Job} (hF : Sub 8388610 F) (h : Moves F s t) : Moves F s
    (leadResults t a1) := by
  unfold leadResults
  repeat'
    (first | (with_reducible assumption) | ((with_reducible refine hF.up ?_); rfl)
            | (extract_lets +onlyGivenNames x; have hx : Moves F s x := ?_; (on_goal 1 => clear_value x); (on_goal 2 => subst x))
            | (extract_lets +onlyGivenNames x; have hx : Moves F s x.2 := ?_; (on_goal 1 => clear_value x); (on_goal 2 => subst x))
            | (extract_lets +onlyGivenNames x; clear_value x) | (split)
            | (refine draw_movesE (by with_reducible assumption) (hF.up rfl) ?_) | (with_reducible apply draw_moves)
            | (with_reducible apply setOutcome_moves))

theorem takeBlocks_moves {F : ℕ} {s t : State} {a1 : Job} {a2 : List ℕ} (hF : Sub 8388608 F) (h : Moves F s t) :
    Moves F s (takeBlocks t a1 a2) := by
  unfold takeBlocks
  repeat'
    (first | (with_reducible assumption) | ((with_reducible refine hF.up ?_); rfl)
            | ((with_reducible refine Or.inr (hF.up ?_)); rfl) | (with_reducible exact Or.inl rfl) | (intro)
            | (with_reducible apply jobMap_moves) | (with_reducible apply Moves.upd))

theorem runCompact_moves {F : ℕ} {s t : State} {a1 : Job} (hF : Sub 9438223 F) (h : Moves F s t) : Moves F s
    (runCompact t a1) := by
  unfold runCompact
  repeat'
    (first | (with_reducible assumption) | ((with_reducible refine hF.up ?_); rfl)
            | ((with_reducible refine Or.inr (hF.up ?_)); rfl) | (with_reducible exact Or.inl rfl) | (intro)
            | (extract_lets +onlyGivenNames x; have hx : Moves F s x := ?_; (on_goal 1 => clear_value x); (on_goal 2 => subst x))
            | (extract_lets +onlyGivenNames x; clear_value x) | (with_reducible apply Moves.ite) | (split)
            | (with_reducible apply compactBlock_moves)
            | (refine blocksFail_moves (hF.up rfl) (by with_reducible assumption) ?_)
            | (with_reducible apply setOutcome_moves) | (with_reducible apply leadResults_moves)
            | (with_reducible apply takeBlocks_moves) | (with_reducible apply Moves.getD)
            | (with_reducible apply Moves.foldl) | (with_reducible apply Moves.upd))

theorem expandOne_moves {F : ℕ} {s t : State} {a1 : ℕ} (hF : Sub 11270868042781 F) (h : Moves F s t) : Moves F s
    (expandOne t a1) := by
  unfold expandOne
  repeat'
    (first | (with_reducible assumption) | ((with_reducible refine hF.up ?_); rfl) | (intro)
            | (with_reducible apply Moves.ite) | (split) | (with_reducible apply journalSend_moves)
            | (with_reducible apply expandBlock_moves))

theorem runExpand_moves {F : ℕ} {s t : State} {a1 : Job} (hF : Sub 11270876431391 F) (h : Moves F s t) : Moves F s
    (runExpand t a1) := by
  unfold runExpand
  repeat'
    (first | (with_reducible assumption) | ((with_reducible refine hF.up ?_); rfl)
            | ((with_reducible refine Or.inr (hF.up ?_)); rfl) | (with_reducible exact Or.inl rfl) | (intro)
            | (extract_lets +onlyGivenNames x; have hx : Moves F s x := ?_; (on_goal 1 => clear_value x); (on_goal 2 => subst x))
            | (extract_lets +onlyGivenNames x; clear_value x) | (with_reducible apply Moves.ite) | (split)
            | (with_reducible apply failJob_moves)
            | (refine blocksFail_moves (hF.up rfl) (by with_reducible assumption) ?_)
            | (with_reducible apply setOutcome_moves) | (with_reducible apply leadResults_moves)
            | (with_reducible apply takeBlocks_moves) | (with_reducible apply expandOne_moves)
            | (with_reducible apply Moves.getD) | (with_reducible apply Moves.foldl)
            | (with_reducible apply Moves.upd))

theorem verifyOne_moves {F : ℕ} {s t : State} {l : List ℕ} {b : ℕ} (hF : Sub 11270867911709 F) (h : Moves F s t) :
    Moves F s (verifyOne (t, l) b).1 := by
  unfold verifyOne
  have k := decodeBlock_moves (a1 := b) (a2 := 1) (hF.up rfl) h
  dsimp only at k ⊢
  generalize decodeBlock t b 1 = x at k
  obtain ⟨u, d⟩ := x
  cases d with
  | ok _ _ _ => exact k
  | damaged _ => exact .ite (fun _ => askTwin_moves (hF.up rfl) k) (fun _ => k)

theorem runVerify_moves {F : ℕ} {s t : State} {a1 : Job} (hF : Sub 11270876300317 F) (h : Moves F s t) :
    Moves F s (runVerify t a1) := by
  unfold runVerify
  split
  · next u e => exact blocksFail_moves (hF.up rfl) e h
  · refine .ite (fun _ => ?_) (fun _ => .ite (fun _ => h) (fun _ => setOutcome_moves (hF.up rfl) h))
    extract_lets bs
    refine .ite (fun _ => h) (fun _ => ?_)
    have k : Moves F s (bs.foldl verifyOne (t, [])).1 :=
      Moves.foldlFst (fun u b hu => verifyOne_moves (l := u.2) (hF.up rfl) hu) _ h
    generalize bs.foldl verifyOne (t, []) = x at k
    obtain ⟨u, bad⟩ := x
    exact .ite (fun _ => setOutcome_moves (hF.up rfl) k) (fun _ => takeBlocks_moves (hF.up rfl) k)

theorem runJob_moves {F : ℕ} {s t : State} {a1 : Part} {a2 : Ring} {a3 : ℕ} {a4 : ℕ} {a5 : State → Job → State} (hF
    : Sub 0 F) (k5 : ∀ u0 u1, Moves F s u0 → Moves F s (a5 u0 u1)) (h : Moves F s t) : Moves F s
    (runJob t a1 a2 a3 a4 a5) := by
  unfold runJob
  repeat'
    (first | (with_reducible assumption) | (with_reducible apply k5) | ((with_reducible refine hF.up ?_); rfl)
            | ((with_reducible refine Or.inr (hF.up ?_)); rfl) | (with_reducible exact Or.inl rfl) | (intro)
            | (with_reducible apply Moves.ite) | (split) | (with_reducible apply Moves.upd))

theorem execFill_moves {F : ℕ} {s t : State} {a0 : Part} {a1 : Ring} {a2 : ℕ} (hF : Sub 47761103225887 F) (h :
    Moves F s t) : ∃ u, (execFill a0 a1 a2 t) = .next u ∧ Moves F s u := by
  unfold execFill
  refine ⟨_, rfl, ?_⟩
  repeat'
    (first | (with_reducible assumption) | ((with_reducible refine hF.up ?_); rfl) | (intro)
            | (with_reducible apply runOperator_moves) | (with_reducible apply runJob_moves))

theorem execCopy_moves {F : ℕ} {s t : State} {a0 : Part} {a1 : Ring} {a2 : ℕ} (hF : Sub 47761103225887 F) (h :
    Moves F s t) : ∃ u, (execCopy a0 a1 a2 t) = .next u ∧ Moves F s u := by
  unfold execCopy
  refine ⟨_, rfl, ?_⟩
  repeat'
    (first | (with_reducible assumption) | ((with_reducible refine hF.up ?_); rfl) | (intro)
            | (with_reducible apply runOperator_moves) | (with_reducible apply runJob_moves))

theorem execGather_moves {F : ℕ} {s t : State} {a0 : Part} {a1 : Ring} {a2 : ℕ} (hF : Sub 47761103225887 F) (h :
    Moves F s t) : ∃ u, (execGather a0 a1 a2 t) = .next u ∧ Moves F s u := by
  unfold execGather
  refine ⟨_, rfl, ?_⟩
  repeat'
    (first | (with_reducible assumption) | ((with_reducible refine hF.up ?_); rfl) | (intro)
            | (with_reducible apply runOperator_moves) | (with_reducible apply runJob_moves))

theorem execScatter_moves {F : ℕ} {s t : State} {a0 : Part} {a1 : Ring} {a2 : ℕ} (hF : Sub 47761103225887 F) (h :
    Moves F s t) : ∃ u, (execScatter a0 a1 a2 t) = .next u ∧ Moves F s u := by
  unfold execScatter
  refine ⟨_, rfl, ?_⟩
  repeat'
    (first | (with_reducible assumption) | ((with_reducible refine hF.up ?_); rfl) | (intro)
            | (with_reducible apply runOperator_moves) | (with_reducible apply runJob_moves))

theorem execCompare_moves {F : ℕ} {s t : State} {a0 : Part} {a1 : Ring} {a2 : ℕ} (hF : Sub 47761103225887 F) (h :
    Moves F s t) : ∃ u, (execCompare a0 a1 a2 t) = .next u ∧ Moves F s u := by
  unfold execCompare
  refine ⟨_, rfl, ?_⟩
  repeat'
    (first | (with_reducible assumption) | ((with_reducible refine hF.up ?_); rfl) | (intro)
            | (with_reducible apply runOperator_moves) | (with_reducible apply runJob_moves))

theorem execSearch_moves {F : ℕ} {s t : State} {a0 : Part} {a1 : Ring} {a2 : ℕ} (hF : Sub 47761103225887 F) (h :
    Moves F s t) : ∃ u, (execSearch a0 a1 a2 t) = .next u ∧ Moves F s u := by
  unfold execSearch
  refine ⟨_, rfl, ?_⟩
  repeat'
    (first | (with_reducible assumption) | ((with_reducible refine hF.up ?_); rfl) | (intro)
            | (with_reducible apply runOperator_moves) | (with_reducible apply runJob_moves))

theorem execHashBuild_moves {F : ℕ} {s t : State} {a0 : Part} {a1 : Ring} {a2 : ℕ} (hF : Sub 47761103225887 F) (h :
    Moves F s t) : ∃ u, (execHashBuild a0 a1 a2 t) = .next u ∧ Moves F s u := by
  unfold execHashBuild
  refine ⟨_, rfl, ?_⟩
  repeat'
    (first | (with_reducible assumption) | ((with_reducible refine hF.up ?_); rfl) | (intro)
            | (with_reducible apply runOperator_moves) | (with_reducible apply runJob_moves))

theorem execHashProbe_moves {F : ℕ} {s t : State} {a0 : Part} {a1 : Ring} {a2 : ℕ} (hF : Sub 47761103225887 F) (h :
    Moves F s t) : ∃ u, (execHashProbe a0 a1 a2 t) = .next u ∧ Moves F s u := by
  unfold execHashProbe
  refine ⟨_, rfl, ?_⟩
  repeat'
    (first | (with_reducible assumption) | ((with_reducible refine hF.up ?_); rfl) | (intro)
            | (with_reducible apply runOperator_moves) | (with_reducible apply runJob_moves))

theorem execIntersect_moves {F : ℕ} {s t : State} {a0 : Part} {a1 : Ring} {a2 : ℕ} (hF : Sub 47761103225887 F) (h :
    Moves F s t) : ∃ u, (execIntersect a0 a1 a2 t) = .next u ∧ Moves F s u := by
  unfold execIntersect
  refine ⟨_, rfl, ?_⟩
  repeat'
    (first | (with_reducible assumption) | ((with_reducible refine hF.up ?_); rfl) | (intro)
            | (with_reducible apply runOperator_moves) | (with_reducible apply runJob_moves))

theorem execUnion_moves {F : ℕ} {s t : State} {a0 : Part} {a1 : Ring} {a2 : ℕ} (hF : Sub 47761103225887 F) (h :
    Moves F s t) : ∃ u, (execUnion a0 a1 a2 t) = .next u ∧ Moves F s u := by
  unfold execUnion
  refine ⟨_, rfl, ?_⟩
  repeat'
    (first | (with_reducible assumption) | ((with_reducible refine hF.up ?_); rfl) | (intro)
            | (with_reducible apply runOperator_moves) | (with_reducible apply runJob_moves))

theorem execDifference_moves {F : ℕ} {s t : State} {a0 : Part} {a1 : Ring} {a2 : ℕ} (hF : Sub 47761103225887 F) (h :
    Moves F s t) : ∃ u, (execDifference a0 a1 a2 t) = .next u ∧ Moves F s u := by
  unfold execDifference
  refine ⟨_, rfl, ?_⟩
  repeat'
    (first | (with_reducible assumption) | ((with_reducible refine hF.up ?_); rfl) | (intro)
            | (with_reducible apply runOperator_moves) | (with_reducible apply runJob_moves))

theorem execCount_moves {F : ℕ} {s t : State} {a0 : Part} {a1 : Ring} {a2 : ℕ} (hF : Sub 47761103225887 F) (h :
    Moves F s t) : ∃ u, (execCount a0 a1 a2 t) = .next u ∧ Moves F s u := by
  unfold execCount
  refine ⟨_, rfl, ?_⟩
  repeat'
    (first | (with_reducible assumption) | ((with_reducible refine hF.up ?_); rfl) | (intro)
            | (with_reducible apply runOperator_moves) | (with_reducible apply runJob_moves))

theorem execDedup_moves {F : ℕ} {s t : State} {a0 : Part} {a1 : Ring} {a2 : ℕ} (hF : Sub 47761103225887 F) (h :
    Moves F s t) : ∃ u, (execDedup a0 a1 a2 t) = .next u ∧ Moves F s u := by
  unfold execDedup
  refine ⟨_, rfl, ?_⟩
  repeat'
    (first | (with_reducible assumption) | ((with_reducible refine hF.up ?_); rfl) | (intro)
            | (with_reducible apply runOperator_moves) | (with_reducible apply runJob_moves))

theorem execSort_moves {F : ℕ} {s t : State} {a0 : Part} {a1 : Ring} {a2 : ℕ} (hF : Sub 47761103225887 F) (h :
    Moves F s t) : ∃ u, (execSort a0 a1 a2 t) = .next u ∧ Moves F s u := by
  unfold execSort
  refine ⟨_, rfl, ?_⟩
  repeat'
    (first | (with_reducible assumption) | ((with_reducible refine hF.up ?_); rfl) | (intro)
            | (with_reducible apply runOperator_moves) | (with_reducible apply runJob_moves))

theorem execNeighborGather_moves {F : ℕ} {s t : State} {a0 : Part} {a1 : Ring} {a2 : ℕ} (hF : Sub 47761103225887 F)
    (h : Moves F s t) : ∃ u, (execNeighborGather a0 a1 a2 t) = .next u ∧ Moves F s u := by
  unfold execNeighborGather
  refine ⟨_, rfl, ?_⟩
  repeat'
    (first | (with_reducible assumption) | ((with_reducible refine hF.up ?_); rfl) | (intro)
            | (with_reducible apply runOperator_moves) | (with_reducible apply runJob_moves))

theorem execBitmap_moves {F : ℕ} {s t : State} {a0 : Part} {a1 : Ring} {a2 : ℕ} (hF : Sub 47761103225887 F) (h :
    Moves F s t) : ∃ u, (execBitmap a0 a1 a2 t) = .next u ∧ Moves F s u := by
  unfold execBitmap
  refine ⟨_, rfl, ?_⟩
  repeat'
    (first | (with_reducible assumption) | ((with_reducible refine hF.up ?_); rfl) | (intro)
            | (with_reducible apply runOperator_moves) | (with_reducible apply runJob_moves))

theorem execReduce_moves {F : ℕ} {s t : State} {a0 : Part} {a1 : Ring} {a2 : ℕ} (hF : Sub 47761103225887 F) (h :
    Moves F s t) : ∃ u, (execReduce a0 a1 a2 t) = .next u ∧ Moves F s u := by
  unfold execReduce
  refine ⟨_, rfl, ?_⟩
  repeat'
    (first | (with_reducible assumption) | ((with_reducible refine hF.up ?_); rfl) | (intro)
            | (with_reducible apply runOperator_moves) | (with_reducible apply runJob_moves))

theorem execSegmentReduce_moves {F : ℕ} {s t : State} {a0 : Part} {a1 : Ring} {a2 : ℕ} (hF : Sub 47761103225887 F)
    (h : Moves F s t) : ∃ u, (execSegmentReduce a0 a1 a2 t) = .next u ∧ Moves F s u := by
  unfold execSegmentReduce
  refine ⟨_, rfl, ?_⟩
  repeat'
    (first | (with_reducible assumption) | ((with_reducible refine hF.up ?_); rfl) | (intro)
            | (with_reducible apply runOperator_moves) | (with_reducible apply runJob_moves))

theorem execWindowOpen_moves {F : ℕ} {s t : State} {a0 : Part} {a1 : Ring} {a2 : ℕ} (hF : Sub 47761103225887 F) (h :
    Moves F s t) : ∃ u, (execWindowOpen a0 a1 a2 t) = .next u ∧ Moves F s u := by
  unfold execWindowOpen
  refine ⟨_, rfl, ?_⟩
  repeat'
    (first | (with_reducible assumption) | ((with_reducible refine hF.up ?_); rfl) | (intro)
            | (with_reducible apply runOperator_moves) | (with_reducible apply runJob_moves))

theorem execAccumulate_moves {F : ℕ} {s t : State} {a0 : Part} {a1 : Ring} {a2 : ℕ} (hF : Sub 47761103225887 F) (h :
    Moves F s t) : ∃ u, (execAccumulate a0 a1 a2 t) = .next u ∧ Moves F s u := by
  unfold execAccumulate
  refine ⟨_, rfl, ?_⟩
  repeat'
    (first | (with_reducible assumption) | ((with_reducible refine hF.up ?_); rfl) | (intro)
            | (with_reducible apply runOperator_moves) | (with_reducible apply runJob_moves))

theorem execWindowCommit_moves {F : ℕ} {s t : State} {a0 : Part} {a1 : Ring} {a2 : ℕ} (hF : Sub 47761103225887 F) (h
    : Moves F s t) : ∃ u, (execWindowCommit a0 a1 a2 t) = .next u ∧ Moves F s u := by
  unfold execWindowCommit
  refine ⟨_, rfl, ?_⟩
  repeat'
    (first | (with_reducible assumption) | ((with_reducible refine hF.up ?_); rfl) | (intro)
            | (with_reducible apply runOperator_moves) | (with_reducible apply runJob_moves))

theorem execMap_moves {F : ℕ} {s t : State} {a0 : Part} {a1 : Ring} {a2 : ℕ} (hF : Sub 47761103225887 F) (h :
    Moves F s t) : ∃ u, (execMap a0 a1 a2 t) = .next u ∧ Moves F s u := by
  unfold execMap
  refine ⟨_, rfl, ?_⟩
  repeat'
    (first | (with_reducible assumption) | ((with_reducible refine hF.up ?_); rfl) | (intro)
            | (with_reducible apply runOperator_moves) | (with_reducible apply runJob_moves))

theorem execCompact_moves {F : ℕ} {s t : State} {a0 : Part} {a1 : Ring} {a2 : ℕ} (hF : Sub 9438223 F) (h :
    Moves F s t) : ∃ u, (execCompact a0 a1 a2 t) = .next u ∧ Moves F s u := by
  unfold execCompact
  refine ⟨_, rfl, ?_⟩
  repeat'
    (first | (with_reducible assumption) | ((with_reducible refine hF.up ?_); rfl) | (intro)
            | (with_reducible apply runCompact_moves) | (with_reducible apply runJob_moves))

theorem execExpand_moves {F : ℕ} {s t : State} {a0 : Part} {a1 : Ring} {a2 : ℕ} (hF : Sub 11270876431391 F) (h :
    Moves F s t) : ∃ u, (execExpand a0 a1 a2 t) = .next u ∧ Moves F s u := by
  unfold execExpand
  refine ⟨_, rfl, ?_⟩
  repeat'
    (first | (with_reducible assumption) | ((with_reducible refine hF.up ?_); rfl) | (intro)
            | (with_reducible apply runExpand_moves) | (with_reducible apply runJob_moves))

theorem execVerify_moves {F : ℕ} {s t : State} {a0 : Part} {a1 : Ring} {a2 : ℕ} (hF : Sub 11270876300317 F) (h :
    Moves F s t) : ∃ u, (execVerify a0 a1 a2 t) = .next u ∧ Moves F s u := by
  unfold execVerify
  refine ⟨_, rfl, ?_⟩
  repeat'
    (first | (with_reducible assumption) | ((with_reducible refine hF.up ?_); rfl) | (intro)
            | (with_reducible apply runVerify_moves) | (with_reducible apply runJob_moves))

end Sys2Proof.Machine
end

