-- ==== Sys2Proof/Laws/MovesSnapshots.lean ====
section
/-! SUPPORT. What the functions of Machine/Snapshots.lean keep, and the kinds of state they may change (`Moves`). -/

set_option linter.all false

namespace Sys2Proof.Machine

open Sys2Proof

theorem snapEffect_moves {F : ℕ} {s t : State} {a1 : ℕ} {a2 : ℕ} {a3 : ℕ} {a4 : ℕ} (hF : Sub 201786381 F) (h :
    Moves F s t) : Moves F s (snapEffect t a1 a2 a3 a4) := by
  unfold snapEffect
  repeat'
    (first | (with_reducible assumption) | ((with_reducible refine hF.up ?_); rfl)
            | ((with_reducible refine Or.inr (hF.up ?_)); rfl) | (with_reducible exact Or.inl rfl) | (intro)
            | (extract_lets +onlyGivenNames x; have hx : Moves F s x := ?_; (on_goal 1 => clear_value x); (on_goal 2 => subst x))
            | (extract_lets +onlyGivenNames x; clear_value x) | (with_reducible apply Moves.ite)
            | (with_reducible apply snapMap_moves) | (with_reducible apply reserveLow_moves)
            | (with_reducible apply closeVersion_moves) | (with_reducible apply fixReads_moves)
            | (with_reducible apply Moves.upd))

theorem applySnap_moves {F : ℕ} {s t : State} {a1 : Bool} {a2 : Part} {a3 : ℕ} {a4 : ℕ} {a5 : ℕ} (hF
    : Sub 201786381 F) (h : Moves F s t) : Moves F s (applySnap t a1 a2 a3 a4 a5) := by
  unfold applySnap
  repeat'
    (first | (with_reducible assumption) | ((with_reducible refine hF.up ?_); rfl)
            | ((with_reducible refine Or.inr (hF.up ?_)); rfl) | (with_reducible exact Or.inl rfl) | (intro)
            | (extract_lets +onlyGivenNames x; have hx : Moves F s x := ?_; (on_goal 1 => clear_value x); (on_goal 2 => subst x))
            | (extract_lets +onlyGivenNames x; have hx : ∀ u , Moves F s u → Moves F s (x u ) := ?_; (on_goal 1 => clear_value x); (on_goal 2 => subst x))
            | (extract_lets +onlyGivenNames x; have hx : ∀ u a, Moves F s u → Moves F s (x u a) := ?_; (on_goal 1 => clear_value x); (on_goal 2 => subst x))
            | (extract_lets +onlyGivenNames x; have hx : ∀ u a b, Moves F s u → Moves F s (x u a b) := ?_; (on_goal 1 => clear_value x); (on_goal 2 => subst x))
            | (extract_lets +onlyGivenNames x; clear_value x) | (with_reducible apply Moves.ite) | (split)
            | (with_reducible apply snapEffect_moves) | (with_reducible apply_assumption)
            | (with_reducible apply Moves.upd))

theorem placeNow_moves {F : ℕ} {s t : State} {a1 : ℕ} (hF : Sub 538050576 F) (h : Moves F s t) : Moves F s
    (placeNow t a1) := by
  unfold placeNow
  repeat'
    (first | (with_reducible assumption) | ((with_reducible refine hF.up ?_); rfl)
            | ((with_reducible refine Or.inr (hF.up ?_)); rfl) | (with_reducible exact Or.inl rfl) | (intro)
            | (extract_lets +onlyGivenNames x; have hx : Moves F s x := ?_; (on_goal 1 => clear_value x); (on_goal 2 => subst x))
            | (extract_lets +onlyGivenNames x; have hx : Moves F s x.1 := ?_; (on_goal 1 => clear_value x); (on_goal 2 => subst x))
            | (extract_lets +onlyGivenNames x; clear_value x) | (with_reducible apply Moves.ite) | (split)
            | (with_reducible apply frameMap_moves)
            | (refine takePlace_movesE (by with_reducible assumption) (hF.up rfl) ?_)
            | (with_reducible apply takePlace_moves) | (with_reducible apply Moves.upd))

theorem residentNow_moves {F : ℕ} {s t : State} {a1 : ℕ} (hF : Sub 47692383716383 F) (h : Moves F s t) : Moves F s
    (residentNow t a1) := by
  unfold residentNow
  repeat'
    (first | (with_reducible assumption) | ((with_reducible refine hF.up ?_); rfl) | (intro)
            | (extract_lets +onlyGivenNames x; have hx : Moves F s x := ?_; (on_goal 1 => clear_value x); (on_goal 2 => subst x))
            | (extract_lets +onlyGivenNames x; clear_value x) | (with_reducible apply Moves.ite)
            | (with_reducible apply startFill_moves) | (with_reducible apply fillDone_moves)
            | (with_reducible apply poisonedFrame_moves) | (with_reducible apply placeNow_moves))

theorem replaceBlock_moves {F : ℕ} {s t : State} {a1 : SavedBlock} (hF : Sub 47692383716383 F) (h : Moves F s t) :
    Moves F s (replaceBlock t a1).1 := by
  unfold replaceBlock
  repeat'
    (first | (with_reducible assumption) | ((with_reducible refine hF.up ?_); rfl)
            | ((with_reducible refine Or.inr (hF.up ?_)); rfl) | (with_reducible exact Or.inl rfl)
            | (extract_lets +onlyGivenNames x; have hx : Moves F s x := ?_; (on_goal 1 => clear_value x); (on_goal 2 => subst x))
            | (extract_lets +onlyGivenNames x; have hx : Moves F s x.1 := ?_; (on_goal 1 => clear_value x); (on_goal 2 => subst x))
            | (extract_lets +onlyGivenNames x; clear_value x) | (split) | (with_reducible apply putBlock_moves)
            | (refine copyBlock_movesE (by with_reducible assumption) (hF.up rfl) ?_)
            | (with_reducible apply copyBlock_moves) | (with_reducible apply fixReads_moves)
            | (with_reducible apply fixReplaced_moves) | (with_reducible apply noteWrite_moves)
            | (with_reducible apply residentNow_moves) | (with_reducible apply Moves.upd))

theorem replaceBlock_movesE {F : ℕ} {s t : State} {a1 : SavedBlock} {u : State} {x : SavedBlock} (e :
    (replaceBlock t a1) = (u, x)) (hF : Sub 47692383716383 F) (h : Moves F s t) : Moves F s u := by
  have k : Moves F s (replaceBlock t a1).1 := replaceBlock_moves hF h
  rwa [e] at k

theorem commitDraft_moves {F : ℕ} {s t : State} {a1 : Part} {a2 : ℕ} (hF : Sub 47692383716383 F)
    (h : Moves F s t) : Moves F s (commitDraft t a1 a2) := by
  unfold commitDraft
  split
  · split
    · extract_lets r x
      refine raise_moves (hF.up rfl) (snapMap_moves (hF.up rfl) ?_)
      refine Moves.foldlFst (t := (t, [])) (fun u k hu => ?_) _ h
      exact replaceBlock_moves (hF.up rfl) hu
    · exact h
  · exact h

theorem snapCommitted_moves {F : ℕ} {s t : State} {a1 : Bool} {a2 : Part} (hF : Sub 47692383716383 F) (h :
    Moves F s t) : Moves F s (snapCommitted t a1 a2) := by
  unfold snapCommitted
  repeat'
    (first | (with_reducible assumption) | ((with_reducible refine hF.up ?_); rfl)
            | ((with_reducible refine Or.inr (hF.up ?_)); rfl) | (with_reducible exact Or.inl rfl) | (intro)
            | (extract_lets +onlyGivenNames x; have hx : Moves F s x := ?_; (on_goal 1 => clear_value x); (on_goal 2 => subst x))
            | (extract_lets +onlyGivenNames x; clear_value x) | (with_reducible apply Moves.ite) | (split)
            | (with_reducible apply commitDraft_moves) | (with_reducible apply Moves.upd))

theorem snapAtBoundary_moves {F : ℕ} {s t : State} {a1 : Part} (hF : Sub 47692383716383 F) (h : Moves F s t) :
    Moves F s (snapAtBoundary t a1) := by
  unfold snapAtBoundary
  repeat'
    (first | (with_reducible assumption) | ((with_reducible refine hF.up ?_); rfl)
            | (with_reducible apply snapCommitted_moves))

theorem snapDone_moves {F : ℕ} {s t : State} {a1 : Part} (hF : Sub 68719542272 F) (h : Moves F s t) : Moves F s
    (snapDone t a1) := by
  unfold snapDone
  repeat'
    (first | (with_reducible assumption) | ((with_reducible refine hF.up ?_); rfl)
            | ((with_reducible refine Or.inr (hF.up ?_)); rfl) | (with_reducible exact Or.inl rfl) | (intro)
            | (extract_lets +onlyGivenNames x; have hx : Moves F s x := ?_; (on_goal 1 => clear_value x); (on_goal 2 => subst x))
            | (extract_lets +onlyGivenNames x; clear_value x) | (with_reducible apply Moves.ite) | (split)
            | (with_reducible apply fset_moves) | (with_reducible apply Moves.upd))

theorem setReserve_moves {F : ℕ} {s t : State} {a1 : ℕ} (hF : Sub 68719485965 F) (h : Moves F s t) : Moves F s
    (setReserve t a1) := by
  unfold setReserve
  repeat'
    (first | (with_reducible assumption) | ((with_reducible refine hF.up ?_); rfl)
            | ((with_reducible refine Or.inr (hF.up ?_)); rfl) | (with_reducible exact Or.inl rfl) | (intro)
            | (extract_lets +onlyGivenNames x; have hx : Moves F s x := ?_; (on_goal 1 => clear_value x); (on_goal 2 => subst x))
            | (extract_lets +onlyGivenNames x; clear_value x) | (with_reducible apply Moves.ite)
            | (with_reducible apply fset_moves) | (with_reducible apply reserveLow_moves)
            | (with_reducible apply Moves.upd))

theorem startStoreTest_moves {F : ℕ} {s t : State} {a1 : ℕ} (hF : Sub 4398046512141 F) (h : Moves F s t) : Moves F s
    (startStoreTest t a1) := by
  unfold startStoreTest
  repeat'
    (first | (with_reducible assumption) | ((with_reducible refine hF.up ?_); rfl) | (intro)
            | (with_reducible apply Moves.ite) | (with_reducible apply fset_moves)
            | (with_reducible apply finc_moves) | (with_reducible apply raise_moves))

theorem storeTests_moves {F : ℕ} {s t : State} (hF : Sub 4398046512141 F) (h : Moves F s t) : Moves F s
    (storeTests t) := by
  unfold storeTests
  repeat'
    (first | (with_reducible assumption) | ((with_reducible refine hF.up ?_); rfl) | (intro)
            | (with_reducible apply Moves.ite) | (with_reducible apply startStoreTest_moves)
            | (with_reducible apply Moves.foldl))

theorem nextRegion_moves {F : ℕ} {s t : State} {a1 : ℕ} (hF : Sub 4398046511104 F) (h : Moves F s t) : Moves F s
    (nextRegion t a1) := by
  unfold nextRegion
  repeat'
    (first | (with_reducible assumption) | ((with_reducible refine hF.up ?_); rfl) | (intro)
            | (extract_lets +onlyGivenNames x; have hx : Moves F s x := ?_; (on_goal 1 => clear_value x); (on_goal 2 => subst x))
            | (extract_lets +onlyGivenNames x; clear_value x) | (with_reducible apply Moves.ite)
            | (with_reducible apply fset_moves) | (with_reducible apply finc_moves))

theorem takeClusterOut_moves {F : ℕ} {s t : State} {a1 : ℕ} (hF : Sub 610504898184223 F) (h : Moves F s t) :
    Moves F s (takeClusterOut t a1) := by
  unfold takeClusterOut
  repeat'
    (first | (with_reducible assumption) | ((with_reducible refine hF.up ?_); rfl)
            | ((with_reducible refine Or.inr (hF.up ?_)); rfl) | (with_reducible exact Or.inl rfl) | (intro)
            | (extract_lets +onlyGivenNames x; have hx : Moves F s x := ?_; (on_goal 1 => clear_value x); (on_goal 2 => subst x))
            | (extract_lets +onlyGivenNames x; clear_value x) | (with_reducible apply Moves.ite)
            | (with_reducible apply serveHeld_moves) | (with_reducible apply rerunCluster_moves)
            | (with_reducible apply loseFrames_moves) | (with_reducible apply coverEvt_moves)
            | (with_reducible apply remapSteps_moves) | (with_reducible apply Moves.foldl)
            | (with_reducible apply Moves.upd))

theorem regionFails_moves {F : ℕ} {s t : State} {a1 : ℕ} {a2 : ℕ} {a3 : ℕ} (hF : Sub 614902944695327 F) (h :
    Moves F s t) : Moves F s (regionFails t a1 a2 a3) := by
  unfold regionFails
  repeat'
    (first | (with_reducible assumption) | ((with_reducible refine hF.up ?_); rfl)
            | ((with_reducible refine Or.inr (hF.up ?_)); rfl) | (with_reducible exact Or.inl rfl) | (intro)
            | (extract_lets +onlyGivenNames x; have hx : Moves F s x := ?_; (on_goal 1 => clear_value x); (on_goal 2 => subst x))
            | (extract_lets +onlyGivenNames x; clear_value x) | (with_reducible apply Moves.ite)
            | (with_reducible apply fset_moves) | (with_reducible apply finc_moves)
            | (with_reducible apply raise_moves) | (with_reducible apply takeClusterOut_moves)
            | (with_reducible apply Moves.upd))

theorem storeTestDone_moves {F : ℕ} {s t : State} {a1 : ℕ} {a2 : Bool} (hF : Sub 614902944695327 F) (h :
    Moves F s t) : Moves F s (storeTestDone t a1 a2) := by
  unfold storeTestDone
  repeat'
    (first | (with_reducible assumption) | ((with_reducible refine hF.up ?_); rfl) | (intro)
            | (extract_lets +onlyGivenNames x; have hx : Moves F s x := ?_; (on_goal 1 => clear_value x); (on_goal 2 => subst x))
            | (extract_lets +onlyGivenNames x; clear_value x) | (with_reducible apply Moves.ite)
            | (with_reducible apply fset_moves) | (with_reducible apply nextRegion_moves)
            | (with_reducible apply regionFails_moves))

theorem execSnapCommitEffect_moves {F : ℕ} {s t : State} {a0 : Part} (hF : Sub 47692383716383 F) (h : Moves F s t) :
    ∃ u, (execSnapCommitEffect a0 t) = .next u ∧ Moves F s u := by
  unfold execSnapCommitEffect
  refine ⟨_, rfl, ?_⟩
  repeat'
    (first | (with_reducible assumption) | ((with_reducible refine hF.up ?_); rfl) | (intro)
            | (with_reducible apply snapAtBoundary_moves))

theorem execSnapCommandDone_moves {F : ℕ} {s t : State} {a0 : Part} (hF : Sub 68719542272 F) (h : Moves F s t) :
    ∃ u, (execSnapCommandDone a0 t) = .next u ∧ Moves F s u := by
  unfold execSnapCommandDone
  refine ⟨_, rfl, ?_⟩
  repeat'
    (first | (with_reducible assumption) | ((with_reducible refine hF.up ?_); rfl) | (intro)
            | (with_reducible apply snapDone_moves))

theorem execStoreRegionTestDone_moves {F : ℕ} {s t : State} {a0 : Cluster} {a1 : Bool} (hF : Sub 614902944695327 F)
    (h : Moves F s t) : ∃ u, (execStoreRegionTestDone a0 a1 t) = .next u ∧ Moves F s u := by
  unfold execStoreRegionTestDone
  refine ⟨_, rfl, ?_⟩
  repeat'
    (first | (with_reducible assumption) | ((with_reducible refine hF.up ?_); rfl) | (intro)
            | (with_reducible apply Moves.ite) | (split) | (with_reducible apply storeTestDone_moves))

end Sys2Proof.Machine
end

