-- ==== Sys2Proof/Laws/MovesPower.lean ====
section
/-! SUPPORT. What the functions of Machine/Power.lean keep, and the kinds of state they may change (`Moves`). -/

set_option linter.all false

namespace Sys2Proof.Machine

open Sys2Proof

theorem descentWrites_moves {F : ℕ} {s t : State} (hF : Sub 10995989087261 F) (h : Moves F s t) : Moves F s
    (descentWrites t) := by
  unfold descentWrites
  repeat'
    (first | (with_reducible assumption) | ((with_reducible refine hF.up ?_); rfl) | (intro)
            | (with_reducible apply Moves.ite) | (with_reducible apply startWriteBack_moves)
            | (with_reducible apply Moves.foldl))

theorem startEntry_moves {F : ℕ} {s t : State} {a1 : ℕ} {a2 : Bool} (hF : Sub 81433452774557 F) (h : Moves F s t) :
    Moves F s (startEntry t a1 a2) := by
  unfold startEntry
  repeat'
    (first | (with_reducible assumption) | ((with_reducible refine hF.up ?_); rfl)
            | ((with_reducible refine Or.inr (hF.up ?_)); rfl) | (with_reducible exact Or.inl rfl) | (intro)
            | (extract_lets +onlyGivenNames x; have hx : Moves F s x := ?_; (on_goal 1 => clear_value x); (on_goal 2 => subst x))
            | (extract_lets +onlyGivenNames x; clear_value x) | (with_reducible apply Moves.ite)
            | (with_reducible apply fset_moves) | (with_reducible apply snoop_moves)
            | (with_reducible apply descentWrites_moves) | (with_reducible apply Moves.foldl)
            | (with_reducible apply Moves.upd))

theorem doRungEntry_moves {F : ℕ} {s t : State} (hF : Sub 81433452774557 F) (h : Moves F s t) : Moves F s
    (doRungEntry t) := by
  unfold doRungEntry
  repeat'
    (first | (with_reducible assumption) | ((with_reducible refine hF.up ?_); rfl)
            | ((with_reducible refine Or.inr (hF.up ?_)); rfl) | (with_reducible exact Or.inl rfl) | (intro)
            | (with_reducible apply Moves.ite) | (split) | (with_reducible apply fset_moves)
            | (with_reducible apply raise_moves) | (with_reducible apply journalSend_moves)
            | (with_reducible apply startEntry_moves) | (with_reducible apply Moves.upd))

theorem enterRung_moves {F : ℕ} {s t : State} {a1 : ℕ} (hF : Sub 76966351996061 F) (h : Moves F s t) : Moves F s
    (enterRung t a1) := by
  unfold enterRung
  repeat'
    (first | (with_reducible assumption) | ((with_reducible refine hF.up ?_); rfl)
            | ((with_reducible refine Or.inr (hF.up ?_)); rfl) | (with_reducible exact Or.inl rfl) | (intro)
            | (extract_lets +onlyGivenNames x; have hx : Moves F s x := ?_; (on_goal 1 => clear_value x); (on_goal 2 => subst x))
            | (extract_lets +onlyGivenNames x; clear_value x) | (with_reducible apply Moves.ite)
            | (with_reducible apply fset_moves) | (with_reducible apply raise_moves)
            | (with_reducible apply freeFrame_moves) | (with_reducible apply Moves.foldl)
            | (with_reducible apply Moves.upd))

theorem doWake_moves {F : ℕ} {s t : State} {a1 : Sys2Proof.WakeCause} (hF : Sub 70368744178829 F) (h : Moves F s t)
    : Moves F s (doWake t a1) := by
  unfold doWake
  repeat'
    (first | (with_reducible assumption) | ((with_reducible refine hF.up ?_); rfl)
            | ((with_reducible refine Or.inr (hF.up ?_)); rfl) | (with_reducible exact Or.inl rfl) | (intro)
            | (extract_lets +onlyGivenNames x; have hx : Moves F s x := ?_; (on_goal 1 => clear_value x); (on_goal 2 => subst x))
            | (extract_lets +onlyGivenNames x; clear_value x) | (with_reducible apply Moves.ite)
            | (with_reducible apply fset_moves) | (with_reducible apply finc_moves)
            | (with_reducible apply emit_moves) | (with_reducible apply raise_moves)
            | (with_reducible apply Moves.upd))

theorem trainPc_moves {F : ℕ} {s t : State} {a1 : Sys2Proof.BootReport} {a2 : ℕ} (hF : Sub 117923688940639 F) (h :
    Moves F s t) : Moves F s (trainPc t a1 a2) := by
  unfold trainPc
  repeat'
    (first | (with_reducible assumption) | ((with_reducible refine hF.up ?_); rfl)
            | ((with_reducible refine Or.inr (hF.up ?_)); rfl) | (with_reducible exact Or.inl rfl) | (intro)
            | (extract_lets +onlyGivenNames x; have hx : Moves F s x := ?_; (on_goal 1 => clear_value x); (on_goal 2 => subst x))
            | (extract_lets +onlyGivenNames x; clear_value x) | (with_reducible apply Moves.ite) | (split)
            | (with_reducible apply fset_moves) | (with_reducible apply finc_moves)
            | (with_reducible apply failPc_moves) | (with_reducible apply Moves.upd))

theorem restoreBasecamp_moves {F : ℕ} {s t : State} (hF : Sub 117923688940639 F) (h : Moves F s t) : Moves F s
    (restoreBasecamp t) := by
  unfold restoreBasecamp
  repeat'
    (first | (with_reducible assumption) | ((with_reducible refine hF.up ?_); rfl)
            | ((with_reducible refine Or.inr (hF.up ?_)); rfl) | (with_reducible exact Or.inl rfl) | (intro)
            | (extract_lets +onlyGivenNames x; have hx : Moves F s x := ?_; (on_goal 1 => clear_value x); (on_goal 2 => subst x))
            | (extract_lets +onlyGivenNames x; clear_value x) | (with_reducible apply trainPc_moves)
            | (with_reducible apply Moves.foldl) | (with_reducible apply Moves.upd))

theorem spillGone_moves {F : ℕ} {s t : State} (hF : Sub 17592186045453 F) (h : Moves F s t) : Moves F s (spillGone t) := by
  unfold spillGone
  repeat'
    (first | (with_reducible assumption) | ((with_reducible refine hF.up ?_); rfl)
            | (with_reducible apply commitSlot_moves) | (with_reducible apply raise_moves))

theorem doExitDone_moves {F : ℕ} {s t : State} {a1 : ℕ} (hF : Sub 139913921496287 F) (h : Moves F s t) : Moves F s
    (doExitDone t a1) := by
  unfold doExitDone
  repeat'
    (first | (with_reducible assumption) | ((with_reducible refine hF.up ?_); rfl)
            | ((with_reducible refine Or.inr (hF.up ?_)); rfl) | (with_reducible exact Or.inl rfl) | (intro)
            | (extract_lets +onlyGivenNames x; have hx : Moves F s x := ?_; (on_goal 1 => clear_value x); (on_goal 2 => subst x))
            | (extract_lets +onlyGivenNames x; clear_value x) | (with_reducible apply Moves.ite) | (split)
            | (with_reducible apply fset_moves) | (with_reducible apply finc_moves)
            | (with_reducible apply raise_moves) | (with_reducible apply serveHeld_moves)
            | (with_reducible apply restoreBasecamp_moves) | (with_reducible apply spillGone_moves)
            | (with_reducible apply Moves.foldl) | (with_reducible apply Moves.upd))

theorem setTarget_moves {F : ℕ} {s t : State} {a1 : ℕ} (hF : Sub 70368744178829 F) (h : Moves F s t) : Moves F s
    (setTarget t a1) := by
  unfold setTarget
  repeat'
    (first | (with_reducible assumption) | ((with_reducible refine hF.up ?_); rfl)
            | ((with_reducible refine Or.inr (hF.up ?_)); rfl) | (with_reducible exact Or.inl rfl) | (intro)
            | (extract_lets +onlyGivenNames x; have hx : Moves F s x := ?_; (on_goal 1 => clear_value x); (on_goal 2 => subst x))
            | (extract_lets +onlyGivenNames x; clear_value x) | (with_reducible apply Moves.ite)
            | (with_reducible apply fset_moves) | (with_reducible apply doWake_moves)
            | (with_reducible apply Moves.upd))

theorem deferredTarget_moves {F : ℕ} {s t : State} (hF : Sub 70368744178829 F) (h : Moves F s t) : Moves F s
    (deferredTarget t) := by
  unfold deferredTarget
  repeat'
    (first | (with_reducible assumption) | ((with_reducible refine hF.up ?_); rfl)
            | ((with_reducible refine Or.inr (hF.up ?_)); rfl) | (with_reducible exact Or.inl rfl) | (intro)
            | (extract_lets +onlyGivenNames x; have hx : Moves F s x := ?_; (on_goal 1 => clear_value x); (on_goal 2 => subst x))
            | (extract_lets +onlyGivenNames x; clear_value x) | (with_reducible apply Moves.ite) | (split)
            | (with_reducible apply setTarget_moves) | (with_reducible apply Moves.upd))

theorem mergeAll_moves {F : ℕ} {s t : State} (hF : Sub 10995988694045 F) (h : Moves F s t) : Moves F s (mergeAll t)
    := by
  unfold mergeAll
  repeat'
    (first | (with_reducible assumption) | ((with_reducible refine hF.up ?_); rfl) | (intro)
            | (with_reducible apply mergeOne_moves) | (with_reducible apply Moves.foldl))

theorem resetLogic_moves {F : ℕ} {s t : State} (hF : Sub 1125899906842623 F) (h : Moves F s t) :
    Moves F s (resetLogic t) := by
  refine h.trans ⟨⟨rfl, ⟨[], rfl⟩, Nat.le_refl _, fun x => ?_, fun x => ?_⟩, fun k hk => ?_⟩
  · rw [memoriesWf_iff] at x ⊢
    exact ⟨x.1, x.2.1, rfl⟩
  · rw [fieldsFit_iff] at x ⊢
    exact ⟨fits_filter _ x.1, rfl⟩
  · cases k with
    | page b => exact (hF.no hk (by cases b <;> decide)).elim
    | messages => exact rfl
    | draws => exact rfl
    | memory => exact ⟨rfl, rfl, rfl⟩
    | flash => exact rfl
    | _ => exact (hF.no hk (by decide)).elim

theorem warmReset_moves {F : ℕ} {s t : State} {a1 : ℕ} (hF : Sub 1125899906842623 F) (h : Moves F s t) : Moves F s
    (warmReset t a1) := by
  unfold warmReset
  repeat'
    (first | (with_reducible assumption) | ((with_reducible refine hF.up ?_); rfl) | (intro)
            | (extract_lets +onlyGivenNames x; have hx : Moves F s x := ?_; (on_goal 1 => clear_value x); (on_goal 2 => subst x))
            | (extract_lets +onlyGivenNames x; clear_value x) | (with_reducible apply Moves.ite)
            | (with_reducible apply fset_moves) | (with_reducible apply aerLink_moves)
            | (with_reducible apply endSessions_moves) | (with_reducible apply endOffers_moves)
            | (with_reducible apply startLease_moves) | (with_reducible apply showAttn_moves)
            | (with_reducible apply sendLeaving_moves) | (with_reducible apply mergeAll_moves)
            | (with_reducible apply resetLogic_moves) | (with_reducible apply Moves.foldl))

theorem coldPowerOn_moves {F : ℕ} {s t : State} {a1 : Bool} (hF : Sub 1125899906842623 F) (h : Moves F s t) :
    Moves F s (coldPowerOn t a1) := by
  unfold coldPowerOn
  split
  next d u e =>
    have k := draw_movesE e (hF.up rfl) h
    extract_lets flash v
    refine fset_moves (hF.up rfl) (k.trans ⟨⟨rfl, ⟨[], rfl⟩, Nat.le_refl _, fun x => ?_, fun x => ?_⟩, fun k hk => ?_⟩)
    · rw [memoriesWf_iff] at x ⊢
      exact ⟨rfl, x.2.1, rfl⟩
    · rw [fieldsFit_iff]
      exact ⟨rfl, rfl⟩
    · cases k with
      | page b => exact (hF.no hk (by cases b <;> decide)).elim
      | messages => exact rfl
      | _ => exact (hF.no hk (by decide)).elim

theorem loadSettings_moves {F : ℕ} {s t : State} {a1 : Bool} (hF : Sub 598138620478573 F) (h : Moves F s t) :
    Moves F s (loadSettings t a1) := by
  unfold loadSettings
  repeat'
    (first | (with_reducible assumption) | ((with_reducible refine hF.up ?_); rfl)
            | ((with_reducible refine Or.inr (hF.up ?_)); rfl) | (with_reducible exact Or.inl rfl) | (intro)
            | (extract_lets +onlyGivenNames x; have hx : Moves F s x := ?_; (on_goal 1 => clear_value x); (on_goal 2 => subst x))
            | (extract_lets +onlyGivenNames x; clear_value x) | (with_reducible apply Moves.ite)
            | (with_reducible apply fset_moves) | (with_reducible apply record_moves)
            | (with_reducible apply Moves.upd))

theorem powerGood_moves {F : ℕ} {s t : State} {a1 : Sys2Proof.BootReport} (hF : Sub 1120682588439679 F) (h :
    Moves F s t) : Moves F s (powerGood t a1) := by
  unfold powerGood
  repeat'
    (first | (with_reducible assumption) | ((with_reducible refine hF.up ?_); rfl)
            | ((with_reducible refine Or.inr (hF.up ?_)); rfl) | (with_reducible exact Or.inl rfl) | (intro)
            | (extract_lets +onlyGivenNames x; have hx : Moves F s x := ?_; (on_goal 1 => clear_value x); (on_goal 2 => subst x))
            | (extract_lets +onlyGivenNames x; clear_value x) | (with_reducible apply Moves.ite) | (split)
            | (with_reducible apply fset_moves) | (with_reducible apply raise_moves)
            | (with_reducible apply record_moves) | (with_reducible apply trainPc_moves)
            | (with_reducible apply loadSettings_moves) | (with_reducible apply Moves.foldl)
            | (with_reducible apply Moves.upd))

theorem fillDoneAll_moves {F : ℕ} {s t : State} {a1 : List PcId} {a2 : List (Cluster × Fin 4)} (hF
    : Sub 615040383648831 F) (h : Moves F s t) : Moves F s (fillDoneAll t a1 a2) := by
  unfold fillDoneAll
  repeat'
    (first | (with_reducible assumption) | ((with_reducible refine hF.up ?_); rfl)
            | ((with_reducible refine Or.inr (hF.up ?_)); rfl) | (with_reducible exact Or.inl rfl)
            | (with_reducible exact fun h => Memory.wf_write h _ _)
            | (with_reducible exact fun h => Memory.wf_write (Memory.wf_zero h _ _) _ _)
            | (with_reducible exact fun h => Memory.wf_zero h _ _) | (with_reducible exact id)
            | (with_reducible exact fun _ => Memory.wf_nil) | (intro)
            | (extract_lets +onlyGivenNames x; have hx : Moves F s x := ?_; (on_goal 1 => clear_value x); (on_goal 2 => subst x))
            | (extract_lets +onlyGivenNames x; clear_value x) | (with_reducible apply Moves.ite) | (split)
            | (with_reducible apply fset_moves) | (with_reducible apply raise_moves)
            | (with_reducible apply powerSlots_moves) | (with_reducible apply failPc_moves)
            | (with_reducible apply takeClusterOut_moves) | (with_reducible apply Moves.foldl)
            | (with_reducible apply Moves.upd) | (with_reducible apply Moves.updMem))

theorem exportCapacity_moves {F : ℕ} {s t : State} (hF : Sub 137439216685 F) (h : Moves F s t) : Moves F s
    (exportCapacity t) := by
  unfold exportCapacity
  repeat'
    (first | (with_reducible assumption) | ((with_reducible refine hF.up ?_); rfl)
            | ((with_reducible refine Or.inr (hF.up ?_)); rfl) | (with_reducible exact Or.inl rfl) | (intro)
            | (extract_lets +onlyGivenNames x; have hx : Moves F s x := ?_; (on_goal 1 => clear_value x); (on_goal 2 => subst x))
            | (extract_lets +onlyGivenNames x; clear_value x) | (with_reducible apply Moves.ite) | (split)
            | (with_reducible apply fset_moves) | (with_reducible apply hupd_moves)
            | (with_reducible apply record_moves) | (with_reducible apply Moves.foldl)
            | (with_reducible apply Moves.upd))

theorem fwMatch_moves {F : ℕ} {s t : State} (hF : Sub 64 F) (h : Moves F s t) : Moves F s (fwMatch t) := by
  unfold fwMatch
  repeat'
    (first | (with_reducible assumption) | ((with_reducible refine hF.up ?_); rfl)
            | ((with_reducible refine Or.inr (hF.up ?_)); rfl) | (with_reducible exact Or.inl rfl)
            | (extract_lets +onlyGivenNames x; have hx : Moves F s x := ?_; (on_goal 1 => clear_value x); (on_goal 2 => subst x))
            | (extract_lets +onlyGivenNames x; clear_value x) | (with_reducible apply Moves.upd))

theorem fwChanged_moves {F : ℕ} {s t : State} (hF : Sub 536870977 F) (h : Moves F s t) : Moves F s (fwChanged t)
    := by
  unfold fwChanged
  repeat'
    (first | (with_reducible assumption) | ((with_reducible refine hF.up ?_); rfl) | (intro)
            | (extract_lets +onlyGivenNames x; have hx : Moves F s x := ?_; (on_goal 1 => clear_value x); (on_goal 2 => subst x))
            | (extract_lets +onlyGivenNames x; clear_value x) | (with_reducible apply Moves.ite)
            | (with_reducible apply journalSend_moves) | (with_reducible apply fwMatch_moves))

theorem commitImage_moves {F : ℕ} {s t : State} (hF : Sub 536870977 F) (h : Moves F s t) : Moves F s (commitImage t)
    := by
  unfold commitImage
  repeat'
    (first | (with_reducible assumption) | ((with_reducible refine hF.up ?_); rfl)
            | ((with_reducible refine Or.inr (hF.up ?_)); rfl) | (with_reducible exact Or.inl rfl) | (intro)
            | (extract_lets +onlyGivenNames x; have hx : Moves F s x := ?_; (on_goal 1 => clear_value x); (on_goal 2 => subst x))
            | (extract_lets +onlyGivenNames x; clear_value x) | (with_reducible apply Moves.ite)
            | (with_reducible apply fwChanged_moves) | (with_reducible apply Moves.upd))

theorem doMemActive_moves {F : ℕ} {s t : State} {a1 : ℕ} (hF : Sub 70506720265325 F) (h : Moves F s t) : Moves F s
    (doMemActive t a1) := by
  unfold doMemActive
  repeat'
    (first | (with_reducible assumption) | ((with_reducible refine hF.up ?_); rfl)
            | ((with_reducible refine Or.inr (hF.up ?_)); rfl) | (with_reducible exact Or.inl rfl) | (intro)
            | (extract_lets +onlyGivenNames x; have hx : Moves F s x := ?_; (on_goal 1 => clear_value x); (on_goal 2 => subst x))
            | (extract_lets +onlyGivenNames x; clear_value x) | (with_reducible apply Moves.ite)
            | (with_reducible apply fset_moves) | (with_reducible apply exportCapacity_moves)
            | (with_reducible apply commitImage_moves) | (with_reducible apply Moves.upd))

theorem startClusterReset_moves {F : ℕ} {s t : State} {a1 : ℕ} (hF : Sub 117923688940575 F) (h : Moves F s t) :
    Moves F s (startClusterReset t a1) := by
  unfold startClusterReset
  repeat'
    (first | (with_reducible assumption) | ((with_reducible refine hF.up ?_); rfl)
            | ((with_reducible refine Or.inr (hF.up ?_)); rfl) | (with_reducible exact Or.inl rfl) | (intro)
            | (extract_lets +onlyGivenNames x; have hx : Moves F s x := ?_; (on_goal 1 => clear_value x); (on_goal 2 => subst x))
            | (extract_lets +onlyGivenNames x; clear_value x) | (with_reducible apply Moves.ite) | (split)
            | (with_reducible apply fset_moves) | (with_reducible apply rerunCluster_moves)
            | (with_reducible apply rerunOn_moves) | (with_reducible apply Moves.foldl)
            | (with_reducible apply Moves.upd))

theorem endClusterReset_moves {F : ℕ} {s t : State} {a1 : List (Fin 4)} (hF : Sub 685271688872991 F) (h :
    Moves F s t) : Moves F s (endClusterReset t a1) := by
  unfold endClusterReset
  repeat'
    (first | (with_reducible assumption) | ((with_reducible refine hF.up ?_); rfl)
            | ((with_reducible refine Or.inr (hF.up ?_)); rfl) | (with_reducible exact Or.inl rfl) | (intro)
            | (extract_lets +onlyGivenNames x; have hx : Moves F s x := ?_; (on_goal 1 => clear_value x); (on_goal 2 => subst x))
            | (extract_lets +onlyGivenNames x; clear_value x) | (with_reducible apply Moves.ite) | (split)
            | (with_reducible apply fset_moves) | (with_reducible apply raise_moves)
            | (with_reducible apply homeReq_moves) | (with_reducible apply takeClusterOut_moves)
            | (with_reducible apply Moves.foldl) | (with_reducible apply Moves.upd))

theorem loseBasecamp_moves {F : ℕ} {s t : State} (hF : Sub 1179664 F) (h : Moves F s t) : Moves F s (loseBasecamp t)
    := by
  unfold loseBasecamp
  repeat'
    (first | (with_reducible assumption) | ((with_reducible refine hF.up ?_); rfl)
            | ((with_reducible refine Or.inr (hF.up ?_)); rfl) | (with_reducible exact Or.inl rfl)
            | (with_reducible exact fun h => Memory.wf_write h _ _)
            | (with_reducible exact fun h => Memory.wf_write (Memory.wf_zero h _ _) _ _)
            | (with_reducible exact fun h => Memory.wf_zero h _ _) | (with_reducible exact id)
            | (with_reducible exact fun _ => Memory.wf_nil) | (with_reducible apply Moves.upd)
            | (with_reducible apply Moves.updMem))

theorem goDead_moves {F : ℕ} {s t : State} (hF : Sub 1180208 F) (h : Moves F s t) : Moves F s (goDead t) := by
  unfold goDead
  repeat'
    (first | (with_reducible assumption) | ((with_reducible refine hF.up ?_); rfl)
            | ((with_reducible refine Or.inr (hF.up ?_)); rfl) | (with_reducible exact Or.inl rfl) | (intro)
            | (extract_lets +onlyGivenNames x; have hx : Moves F s x := ?_; (on_goal 1 => clear_value x); (on_goal 2 => subst x))
            | (extract_lets +onlyGivenNames x; clear_value x) | (with_reducible apply loseBasecamp_moves)
            | (with_reducible apply Moves.upd))

theorem railFld_kind {r : Rail} {n : ℕ} {f : Fld} (e : railFld r = some (n, f)) : f.kind = .page .pin := by
  cases r <;> simp [railFld] at e <;> (obtain ⟨_, rfl⟩ := e; rfl)

theorem doRailFault_moves {F : ℕ} {s t : State} {r : Rail} (hF : Sub 140737489536573 F) (h : Moves F s t) :
    Moves F s (doRailFault t r) := by
  unfold doRailFault
  split
  · exact h
  · next code f e =>
    have hf := railFld_kind e
    repeat'
      (first | (with_reducible assumption)
             | ((with_reducible refine hF.up ?_); rfl)
             | ((with_reducible refine Or.inr (hF.up ?_)); rfl)
             | (with_reducible exact Or.inl rfl)
             | (rw [hf]; exact hF.up rfl)
             | (intro)
             | (extract_lets +onlyGivenNames x; have hx : Moves F s x := ?_; (on_goal 1 => clear_value x); (on_goal 2 => subst x))
             | (with_reducible apply Moves.ite)
             | (with_reducible apply goDead_moves)
             | (with_reducible apply raise_moves)
             | (with_reducible apply aerLink_moves)
             | (with_reducible apply fset_moves)
             | (with_reducible apply Moves.foldl)
             | (with_reducible apply Moves.upd))

theorem doRailRemoved_moves {F : ℕ} {s t : State} {r : Rail} (hF : Sub 140737489535536 F) (h : Moves F s t) :
    Moves F s (doRailRemoved t r) := by
  unfold doRailRemoved
  split
  · exact goDead_moves (hF.up rfl) h
  · next code f e =>
    have hf := railFld_kind e
    have hs : Moves F s (fset t f 0) := fset_moves (by rw [hf]; exact hF.up rfl) h
    exact .ite (fun _ => goDead_moves (hF.up rfl) hs) (fun _ => hs)

theorem doLogicSensor_moves {F : ℕ} {s t : State} {a1 : ℕ} (hF : Sub 1032957881984319 F) (h : Moves F s t) :
    Moves F s (doLogicSensor t a1) := by
  unfold doLogicSensor
  repeat'
    (first | (with_reducible assumption) | ((with_reducible refine hF.up ?_); rfl)
            | ((with_reducible refine Or.inr (hF.up ?_)); rfl) | (with_reducible exact Or.inl rfl) | (intro)
            | (extract_lets +onlyGivenNames x; have hx : Moves F s x := ?_; (on_goal 1 => clear_value x); (on_goal 2 => subst x))
            | (extract_lets +onlyGivenNames x; clear_value x) | (with_reducible apply Moves.ite)
            | (with_reducible apply fset_moves) | (with_reducible apply raise_moves)
            | (with_reducible apply sendLeaving_moves) | (with_reducible apply Moves.upd))

theorem loseDie_moves {F : ℕ} {s t : State} {a1 : ℕ} (hF : Sub 610504898184223 F) (h : Moves F s t) : Moves F s
    (loseDie t a1) := by
  unfold loseDie
  repeat'
    (first | (with_reducible assumption) | ((with_reducible refine hF.up ?_); rfl) | (intro)
            | (extract_lets +onlyGivenNames x; have hx : Moves F s x := ?_; (on_goal 1 => clear_value x); (on_goal 2 => subst x))
            | (extract_lets +onlyGivenNames x; clear_value x) | (with_reducible apply Moves.ite)
            | (with_reducible apply fset_moves) | (with_reducible apply record_moves)
            | (with_reducible apply serveHeld_moves) | (with_reducible apply rerunCluster_moves)
            | (with_reducible apply loseFrames_moves) | (with_reducible apply coverEvt_moves)
            | (with_reducible apply remapSteps_moves) | (with_reducible apply Moves.foldl))

theorem execColdPowerOn_moves {F : ℕ} {s t : State} {a0 : Bool} (hF : Sub 1125899906842623 F) (h : Moves F s t) :
    ∃ u, (execColdPowerOn a0 t) = .next u ∧ Moves F s u := by
  unfold execColdPowerOn
  refine ⟨_, rfl, ?_⟩
  repeat'
    (first | (with_reducible assumption) | ((with_reducible refine hF.up ?_); rfl) | (intro)
            | (with_reducible apply coldPowerOn_moves))

theorem execPowerGood_moves {F : ℕ} {s t : State} {a0 : Sys2Proof.BootReport} (hF : Sub 1120682588439679 F) (h :
    Moves F s t) : ∃ u, (execPowerGood a0 t) = .next u ∧ Moves F s u := by
  unfold execPowerGood
  refine ⟨_, rfl, ?_⟩
  repeat'
    (first | (with_reducible assumption) | ((with_reducible refine hF.up ?_); rfl) | (intro)
            | (with_reducible apply Moves.ite) | (split) | (with_reducible apply powerGood_moves))

theorem execBasecampFillDone_moves {F : ℕ} {s t : State} {a0 : List PcId} {a1 : List (Cluster × Fin 4)} (hF
    : Sub 615040383648831 F) (h : Moves F s t) : ∃ u, (execBasecampFillDone a0 a1 t) = .next u ∧ Moves F s u := by
  unfold execBasecampFillDone
  refine ⟨_, rfl, ?_⟩
  repeat'
    (first | (with_reducible assumption) | ((with_reducible refine hF.up ?_); rfl) | (intro)
            | (with_reducible apply Moves.ite) | (split) | (with_reducible apply fillDoneAll_moves))

theorem execMemActive_moves {F : ℕ} {s t : State} {a0 : ℕ} (hF : Sub 70506720265325 F) (h : Moves F s t) : ∃ u,
    (execMemActive a0 t) = .next u ∧ Moves F s u := by
  unfold execMemActive
  refine ⟨_, rfl, ?_⟩
  repeat'
    (first | (with_reducible assumption) | ((with_reducible refine hF.up ?_); rfl) | (intro)
            | (with_reducible apply Moves.ite) | (split) | (with_reducible apply doMemActive_moves))

theorem execPkgRst_moves {F : ℕ} {s t : State} (hF : Sub 1125899906842623 F) (h : Moves F s t) : ∃ u,
    (execPkgRst t) = .next u ∧ Moves F s u := by
  unfold execPkgRst
  refine ⟨_, rfl, ?_⟩
  repeat'
    (first | (with_reducible assumption) | ((with_reducible refine hF.up ?_); rfl)
            | ((with_reducible refine Or.inr (hF.up ?_)); rfl) | (with_reducible exact Or.inl rfl) | (intro)
            | (extract_lets +onlyGivenNames x; have hx : Moves F s x := ?_; (on_goal 1 => clear_value x); (on_goal 2 => subst x))
            | (extract_lets +onlyGivenNames x; clear_value x) | (split) | (with_reducible apply warmReset_moves)
            | (with_reducible apply Moves.upd))

theorem execSettingsRecordWrite_moves {F : ℕ} {s t : State} (hF : Sub 64 F) (h : Moves F s t) : ∃ u,
    (execSettingsRecordWrite t) = .next u ∧ Moves F s u := by
  unfold execSettingsRecordWrite
  refine ⟨_, rfl, ?_⟩
  repeat'
    (first | (with_reducible assumption) | ((with_reducible refine hF.up ?_); rfl)
            | ((with_reducible refine Or.inr (hF.up ?_)); rfl) | (with_reducible exact Or.inl rfl) | (intro)
            | (with_reducible apply Moves.upd))

theorem execRailFault_moves {F : ℕ} {s t : State} {a0 : Sys2Proof.Rail} (hF : Sub 140737489536573 F) (h :
    Moves F s t) : ∃ u, (execRailFault a0 t) = .next u ∧ Moves F s u := by
  unfold execRailFault
  refine ⟨_, rfl, ?_⟩
  repeat'
    (first | (with_reducible assumption) | ((with_reducible refine hF.up ?_); rfl) | (intro)
            | (with_reducible apply Moves.ite) | (split) | (with_reducible apply doRailFault_moves))

theorem execThermtripRegulatorOff_moves {F : ℕ} {s t : State} (hF : Sub 32 F) (h : Moves F s t) : ∃ u,
    (execThermtripRegulatorOff t) = .next u ∧ Moves F s u := by
  unfold execThermtripRegulatorOff
  refine ⟨_, rfl, ?_⟩
  repeat'
    (first | (with_reducible assumption) | ((with_reducible refine hF.up ?_); rfl)
            | ((with_reducible refine Or.inr (hF.up ?_)); rfl) | (with_reducible exact Or.inl rfl) | (intro)
            | (extract_lets +onlyGivenNames x; have hx : Moves F s x := ?_; (on_goal 1 => clear_value x); (on_goal 2 => subst x))
            | (extract_lets +onlyGivenNames x; clear_value x) | (with_reducible apply Moves.ite) | (split)
            | (with_reducible apply Moves.upd))

theorem execRungEntry_moves {F : ℕ} {s t : State} (hF : Sub 81433452774557 F) (h : Moves F s t) : ∃ u,
    (execRungEntry t) = .next u ∧ Moves F s u := by
  unfold execRungEntry
  refine ⟨_, rfl, ?_⟩
  repeat'
    (first | (with_reducible assumption) | ((with_reducible refine hF.up ?_); rfl) | (intro)
            | (with_reducible apply Moves.ite) | (split) | (with_reducible apply doRungEntry_moves))

theorem execRungEntered_moves {F : ℕ} {s t : State} (hF : Sub 76966351996061 F) (h : Moves F s t) : ∃ u,
    (execRungEntered t) = .next u ∧ Moves F s u := by
  unfold execRungEntered
  refine ⟨_, rfl, ?_⟩
  repeat'
    (first | (with_reducible assumption) | ((with_reducible refine hF.up ?_); rfl) | (intro)
            | (with_reducible apply Moves.ite) | (split) | (with_reducible apply enterRung_moves))

theorem execWake_moves {F : ℕ} {s t : State} {a0 : Sys2Proof.WakeCause} (hF : Sub 70368744178829 F) (h :
    Moves F s t) : ∃ u, (execWake a0 t) = .next u ∧ Moves F s u := by
  unfold execWake
  refine ⟨_, rfl, ?_⟩
  repeat'
    (first | (with_reducible assumption) | ((with_reducible refine hF.up ?_); rfl) | (intro)
            | (with_reducible apply Moves.ite) | (split) | (with_reducible apply doWake_moves))

theorem execRungExitDone_moves {F : ℕ} {s t : State} {a0 : ℕ} (hF : Sub 139913921496287 F) (h : Moves F s t) : ∃ u,
    (execRungExitDone a0 t) = .next u ∧ Moves F s u := by
  unfold execRungExitDone
  refine ⟨_, rfl, ?_⟩
  repeat'
    (first | (with_reducible assumption) | ((with_reducible refine hF.up ?_); rfl) | (intro)
            | (with_reducible apply Moves.ite) | (split) | (with_reducible apply doExitDone_moves))

theorem execClusterResetDone_moves {F : ℕ} {s t : State} {a0 : List (Fin 4)} (hF : Sub 685271688872991 F) (h :
    Moves F s t) : ∃ u, (execClusterResetDone a0 t) = .next u ∧ Moves F s u := by
  unfold execClusterResetDone
  refine ⟨_, rfl, ?_⟩
  repeat'
    (first | (with_reducible assumption) | ((with_reducible refine hF.up ?_); rfl) | (intro)
            | (with_reducible apply endClusterReset_moves))

theorem execRailRemoved_moves {F : ℕ} {s t : State} {a0 : Sys2Proof.Rail} (hF : Sub 140737489535536 F) (h :
    Moves F s t) : ∃ u, (execRailRemoved a0 t) = .next u ∧ Moves F s u := by
  unfold execRailRemoved
  refine ⟨_, rfl, ?_⟩
  repeat'
    (first | (with_reducible assumption) | ((with_reducible refine hF.up ?_); rfl) | (intro)
            | (with_reducible apply Moves.ite) | (split) | (with_reducible apply doRailRemoved_moves))

theorem execRailRestored_moves {F : ℕ} {s t : State} {r : Rail} (hF : Sub 140737488355328 F) (h : Moves F s t) :
    ∃ u, execRailRestored r t = .next u ∧ Moves F s u := by
  unfold execRailRestored
  refine ⟨_, rfl, ?_⟩
  split
  · next code f e => exact fset_moves (by rw [railFld_kind e]; exact hF.up rfl) h
  · exact h

theorem execLogicSensorRead_moves {F : ℕ} {s t : State} {a0 : ℕ} (hF : Sub 1032957881984319 F) (h : Moves F s t) :
    ∃ u, (execLogicSensorRead a0 t) = .next u ∧ Moves F s u := by
  unfold execLogicSensorRead
  refine ⟨_, rfl, ?_⟩
  repeat'
    (first | (with_reducible assumption) | ((with_reducible refine hF.up ?_); rfl) | (intro)
            | (with_reducible apply Moves.ite) | (split) | (with_reducible apply doLogicSensor_moves))

theorem execDieLost_moves {F : ℕ} {s t : State} {a0 : Die} (hF : Sub 610504898184223 F) (h : Moves F s t) : ∃ u,
    (execDieLost a0 t) = .next u ∧ Moves F s u := by
  unfold execDieLost
  refine ⟨_, rfl, ?_⟩
  repeat'
    (first | (with_reducible assumption) | ((with_reducible refine hF.up ?_); rfl) | (intro)
            | (with_reducible apply loseDie_moves))

end Sys2Proof.Machine
end

