-- ==== Sys2Proof/Laws/MovesHeads.lean ====
section
/-! SUPPORT. What the functions of Machine/Heads.lean keep, and the kinds of state they may change (`Moves`). -/

set_option linter.all false

namespace Sys2Proof.Machine

open Sys2Proof

theorem masterAgain_moves {F : ℕ} {s t : State} {a1 : Part} (hF : Sub 687424341005 F) (h : Moves F s t) : Moves F s
    (masterAgain t a1) := by
  unfold masterAgain
  repeat'
    (first | (with_reducible assumption) | ((with_reducible refine hF.up ?_); rfl) | (intro)
            | (with_reducible apply Moves.ite) | (split) | (with_reducible apply flushVecs_moves)
            | (with_reducible apply pumpRings_moves) | (with_reducible apply endWork_moves))

theorem mastersMoved_moves {F : ℕ} {s t : State} {a1 : Head} (hF : Sub 687424341005 F) (h : Moves F s t) : Moves F s
    (mastersMoved t a1) := by
  unfold mastersMoved
  repeat'
    (first | (with_reducible assumption) | ((with_reducible refine hF.up ?_); rfl) | (intro)
            | (with_reducible apply flushVecs_moves) | (with_reducible apply masterAgain_moves)
            | (with_reducible apply Moves.foldl))

theorem headGone_moves {F : ℕ} {s t : State} {a1 : ℕ} {a2 : Bool} (hF : Sub 8388608 F) (h : Moves F s t) : Moves F s
    (headGone t a1 a2) := by
  unfold headGone
  repeat'
    (first | (with_reducible assumption) | ((with_reducible refine hF.up ?_); rfl)
            | ((with_reducible refine Or.inr (hF.up ?_)); rfl) | (with_reducible exact Or.inl rfl) | (intro)
            | (extract_lets +onlyGivenNames x; have hx : Moves F s x := ?_; (on_goal 1 => clear_value x); (on_goal 2 => subst x))
            | (extract_lets +onlyGivenNames x; clear_value x) | (with_reducible apply Moves.ite)
            | (with_reducible apply failJob_moves) | (with_reducible apply Moves.foldl)
            | (with_reducible apply Moves.upd))

theorem headOut_moves {F : ℕ} {s t : State} {a1 : Head} (hF : Sub 329271513424991 F) (h : Moves F s t) : Moves F s
    (headOut t a1) := by
  unfold headOut
  repeat'
    (first | (with_reducible assumption) | ((with_reducible refine hF.up ?_); rfl) | (intro)
            | (with_reducible apply endSessions_moves) | (with_reducible apply dropSharers_moves))

theorem linkLost_moves {F : ℕ} {s t : State} {a1 : Head} {a2 : Ltssm} {a3 : Bool} {a4 : Bool} {a5 : Bool} (hF
    : Sub 329829861795423 F) (h : Moves F s t) : Moves F s (linkLost t a1 a2 a3 a4 a5) := by
  unfold linkLost
  repeat'
    (first | (with_reducible assumption) | ((with_reducible refine hF.up ?_); rfl)
            | ((with_reducible refine Or.inr (hF.up ?_)); rfl) | (with_reducible exact Or.inl rfl) | (intro)
            | (extract_lets +onlyGivenNames x; have hx : Moves F s x := ?_; (on_goal 1 => clear_value x); (on_goal 2 => subst x))
            | (extract_lets +onlyGivenNames x; clear_value x) | (with_reducible apply Moves.ite) | (split)
            | (with_reducible apply fset_moves) | (with_reducible apply headUpd_moves)
            | (with_reducible apply aerLink_moves) | (with_reducible apply raise_moves)
            | (with_reducible apply mastersMoved_moves) | (with_reducible apply headGone_moves)
            | (with_reducible apply headOut_moves) | (with_reducible apply Moves.upd))

theorem doTrained_moves {F : ℕ} {s t : State} {a1 : Head} {a2 : ℕ} {a3 : ℕ} {a4 : Bool} {a5 : Bool} {a6 : Bool} (hF
    : Sub 329829861795423 F) (h : Moves F s t) : Moves F s (doTrained t a1 a2 a3 a4 a5 a6) := by
  unfold doTrained
  repeat'
    (first | (with_reducible assumption) | ((with_reducible refine hF.up ?_); rfl)
            | ((with_reducible refine Or.inr (hF.up ?_)); rfl) | (with_reducible exact Or.inl rfl) | (intro)
            | (extract_lets +onlyGivenNames x; have hx : Moves F s x := ?_; (on_goal 1 => clear_value x); (on_goal 2 => subst x))
            | (extract_lets +onlyGivenNames x; clear_value x) | (with_reducible apply Moves.ite) | (split)
            | (with_reducible apply fset_moves) | (with_reducible apply finc_moves)
            | (with_reducible apply emit_moves) | (with_reducible apply headUpd_moves)
            | (with_reducible apply raise_moves) | (with_reducible apply clearBiFailed_moves)
            | (with_reducible apply mastersMoved_moves) | (with_reducible apply linkLost_moves)
            | (with_reducible apply Moves.upd))

theorem doEqFail_moves {F : ℕ} {s t : State} {a1 : Head} (hF : Sub 8589936141 F) (h : Moves F s t) : Moves F s
    (doEqFail t a1) := by
  unfold doEqFail
  repeat'
    (first | (with_reducible assumption) | ((with_reducible refine hF.up ?_); rfl)
            | ((with_reducible refine Or.inr (hF.up ?_)); rfl) | (with_reducible exact Or.inl rfl) | (intro)
            | (extract_lets +onlyGivenNames x; have hx : Moves F s x := ?_; (on_goal 1 => clear_value x); (on_goal 2 => subst x))
            | (extract_lets +onlyGivenNames x; clear_value x) | (with_reducible apply Moves.ite)
            | (with_reducible apply fset_moves) | (with_reducible apply finc_moves)
            | (with_reducible apply headUpd_moves) | (with_reducible apply raise_moves)
            | (with_reducible apply Moves.upd))

theorem retrainNow_moves {F : ℕ} {s t : State} {a1 : Head} (hF : Sub 8589935105 F) (h : Moves F s t) : Moves F s
    (retrainNow t a1) := by
  unfold retrainNow
  repeat'
    (first | (with_reducible assumption) | ((with_reducible refine hF.up ?_); rfl)
            | ((with_reducible refine Or.inr (hF.up ?_)); rfl) | (with_reducible exact Or.inl rfl) | (intro)
            | (with_reducible apply finc_moves) | (with_reducible apply emit_moves)
            | (with_reducible apply headUpd_moves) | (with_reducible apply Moves.upd))

theorem doLaneFailure_moves {F : ℕ} {s t : State} {a1 : Head} {a2 : ℕ} (hF : Sub 329829861795423 F) (h :
    Moves F s t) : Moves F s (doLaneFailure t a1 a2) := by
  unfold doLaneFailure
  repeat'
    (first | (with_reducible assumption) | ((with_reducible refine hF.up ?_); rfl) | (intro)
            | (extract_lets +onlyGivenNames x; have hx : Moves F s x := ?_; (on_goal 1 => clear_value x); (on_goal 2 => subst x))
            | (extract_lets +onlyGivenNames x; clear_value x) | (with_reducible apply Moves.ite)
            | (with_reducible apply fset_moves) | (with_reducible apply raise_moves)
            | (with_reducible apply linkLost_moves) | (with_reducible apply retrainNow_moves))

theorem retrainHead_moves {F : ℕ} {s t : State} {a1 : Head} (hF : Sub 8589935105 F) (h : Moves F s t) : Moves F s
    (retrainHead t a1) := by
  unfold retrainHead
  repeat'
    (first | (with_reducible assumption) | ((with_reducible refine hF.up ?_); rfl)
            | ((with_reducible refine Or.inr (hF.up ?_)); rfl) | (with_reducible exact Or.inl rfl) | (intro)
            | (with_reducible apply Moves.ite) | (with_reducible apply emit_moves)
            | (with_reducible apply headUpd_moves) | (with_reducible apply retrainNow_moves)
            | (with_reducible apply Moves.upd))

theorem disableHead_moves {F : ℕ} {s t : State} {a1 : Head} {a2 : Bool} (hF : Sub 329829861795423 F) (h :
    Moves F s t) : Moves F s (disableHead t a1 a2) := by
  unfold disableHead
  repeat'
    (first | (with_reducible assumption) | ((with_reducible refine hF.up ?_); rfl)
            | ((with_reducible refine Or.inr (hF.up ?_)); rfl) | (with_reducible exact Or.inl rfl) | (intro)
            | (extract_lets +onlyGivenNames x; have hx : Moves F s x := ?_; (on_goal 1 => clear_value x); (on_goal 2 => subst x))
            | (extract_lets +onlyGivenNames x; clear_value x) | (with_reducible apply Moves.ite) | (split)
            | (with_reducible apply fset_moves) | (with_reducible apply emit_moves)
            | (with_reducible apply headUpd_moves) | (with_reducible apply linkLost_moves)
            | (with_reducible apply Moves.upd))

theorem doLinkError_moves {F : ℕ} {s t : State} {a1 : Head} {a2 : LinkErr} (hF : Sub 8589936129 F) (h : Moves F s t)
    : Moves F s (doLinkError t a1 a2) := by
  unfold doLinkError
  repeat'
    (first | (with_reducible assumption) | ((with_reducible refine hF.up ?_); rfl)
            | ((with_reducible refine Or.inr (hF.up ?_)); rfl) | (with_reducible exact Or.inl rfl) | (intro)
            | (split) | (with_reducible apply finc_moves) | (with_reducible apply headUpd_moves)
            | (with_reducible apply aerLink_moves) | (with_reducible apply Moves.upd))

theorem doTlpError_moves {F : ℕ} {s t : State} {a1 : Head} {a2 : TlpErr} {a3 : Part} (hF : Sub 8589936141 F) (h :
    Moves F s t) : Moves F s (doTlpError t a1 a2 a3) := by
  unfold doTlpError
  repeat'
    (first | (with_reducible assumption) | ((with_reducible refine hF.up ?_); rfl)
            | ((with_reducible refine Or.inr (hF.up ?_)); rfl) | (with_reducible exact Or.inl rfl) | (intro)
            | (extract_lets +onlyGivenNames x; have hx : Moves F s x := ?_; (on_goal 1 => clear_value x); (on_goal 2 => subst x))
            | (extract_lets +onlyGivenNames x; have hx : ∀ u , Moves F s u → Moves F s (x u ) := ?_; (on_goal 1 => clear_value x); (on_goal 2 => subst x))
            | (extract_lets +onlyGivenNames x; have hx : ∀ u a, Moves F s u → Moves F s (x u a) := ?_; (on_goal 1 => clear_value x); (on_goal 2 => subst x))
            | (extract_lets +onlyGivenNames x; have hx : ∀ u a b, Moves F s u → Moves F s (x u a b) := ?_; (on_goal 1 => clear_value x); (on_goal 2 => subst x))
            | (extract_lets +onlyGivenNames x; clear_value x) | (split) | (with_reducible apply emit_moves)
            | (with_reducible apply aerLog_moves) | (with_reducible apply aerLink_moves)
            | (with_reducible apply record_moves) | (with_reducible apply retrainNow_moves)
            | (with_reducible apply_assumption) | (with_reducible apply Moves.upd))

theorem cfgWrite_moves {F : ℕ} {s t : State} {a1 : Head} {a2 : Part} {a3 : State → State} (hF : Sub 1677 F) (k3
    : ∀ u0, Moves F s u0 → Moves F s (a3 u0)) (h : Moves F s t) : Moves F s (cfgWrite t a1 a2 a3) := by
  unfold cfgWrite
  repeat'
    (first | (with_reducible assumption) | (with_reducible apply k3) | ((with_reducible refine hF.up ?_); rfl)
            | (intro) | (with_reducible apply Moves.ite) | (with_reducible apply emit_moves)
            | (with_reducible apply ioTouch_moves) | (with_reducible apply notCarriedIo_moves))

theorem setCfg_moves {F : ℕ} {s t : State} {a1 : Head} {a2 : Part} {a3 : CfgField} {a4 : ℕ} (hF : Sub 2098689 F) (h
    : Moves F s t) : Moves F s (setCfg t a1 a2 a3 a4) := by
  unfold setCfg
  repeat'
    (first | (with_reducible assumption) | ((with_reducible refine hF.up ?_); rfl)
            | ((with_reducible refine Or.inr (hF.up ?_)); rfl) | (with_reducible exact Or.inl rfl) | (intro)
            | (extract_lets +onlyGivenNames x; have hx : Moves F s x := ?_; (on_goal 1 => clear_value x); (on_goal 2 => subst x))
            | (extract_lets +onlyGivenNames x; clear_value x) | (split) | (with_reducible apply headUpd_moves)
            | (with_reducible apply cfgUpd_moves) | (with_reducible apply flushVecs_moves)
            | (with_reducible apply pumpRings_moves) | (with_reducible apply Moves.upd))

theorem clearBme_moves {F : ℕ} {s t : State} {a1 : Part} (hF : Sub 687424341005 F) (h : Moves F s t) : Moves F s
    (clearBme t a1) := by
  unfold clearBme
  repeat'
    (first | (with_reducible assumption) | ((with_reducible refine hF.up ?_); rfl)
            | ((with_reducible refine Or.inr (hF.up ?_)); rfl) | (with_reducible exact Or.inl rfl) | (intro)
            | (with_reducible apply Moves.ite) | (with_reducible apply cfgUpd_moves)
            | (with_reducible apply endWork_moves) | (with_reducible apply Moves.upd))

theorem setBme_moves {F : ℕ} {s t : State} {a1 : Part} (hF : Sub 2098177 F) (h : Moves F s t) : Moves F s
    (setBme t a1) := by
  unfold setBme
  repeat'
    (first | (with_reducible assumption) | ((with_reducible refine hF.up ?_); rfl)
            | ((with_reducible refine Or.inr (hF.up ?_)); rfl) | (with_reducible exact Or.inl rfl) | (intro)
            | (with_reducible apply cfgUpd_moves) | (with_reducible apply flushVecs_moves)
            | (with_reducible apply pumpRings_moves) | (with_reducible apply Moves.upd))

theorem setTagLimit_moves {F : ℕ} {s t : State} {a1 : Part} {a2 : ℕ} (hF : Sub 2098177 F) (h : Moves F s t) :
    Moves F s (setTagLimit t a1 a2) := by
  unfold setTagLimit
  repeat'
    (first | (with_reducible assumption) | ((with_reducible refine hF.up ?_); rfl)
            | ((with_reducible refine Or.inr (hF.up ?_)); rfl) | (with_reducible exact Or.inl rfl) | (intro)
            | (with_reducible apply Moves.ite) | (with_reducible apply cfgUpd_moves)
            | (with_reducible apply pumpRings_moves) | (with_reducible apply Moves.upd))

theorem startReset_moves {F : ℕ} {s t : State} {a1 : Part} {a2 : ResetKind} (hF : Sub 687424345101 F) (h :
    Moves F s t) : Moves F s (startReset t a1 a2) := by
  unfold startReset
  repeat'
    (first | (with_reducible assumption) | ((with_reducible refine hF.up ?_); rfl)
            | ((with_reducible refine Or.inr (hF.up ?_)); rfl) | (with_reducible exact Or.inl rfl) | (intro)
            | (extract_lets +onlyGivenNames x; have hx : Moves F s x := ?_; (on_goal 1 => clear_value x); (on_goal 2 => subst x))
            | (extract_lets +onlyGivenNames x; clear_value x) | (with_reducible apply Moves.ite)
            | (with_reducible apply cfgUpd_moves) | (with_reducible apply partUpd_moves)
            | (with_reducible apply endWork_moves) | (with_reducible apply Moves.upd))

theorem clearPartition_moves {F : ℕ} {s t : State} {a1 : Part} (hF : Sub 687424340996 F) (h : Moves F s t) :
    Moves F s (clearPartition t a1) := by
  unfold clearPartition
  refine cfgUpd_moves (hF.up rfl) (fclear_moves (fun f i j hp => ?_) ?_)
  · have hh : hintReg f = true := (Bool.and_eq_true _ _ ▸ hp : _ ∧ _).1
    have hb : f.kind = .page .tier := by
      revert hh
      cases f <;> first | exact fun h => absurd h (by decide) | exact fun _ => rfl
    rw [hb]
    exact hF.bit (by decide)
  · repeat'
      (first | (with_reducible assumption)
             | ((with_reducible refine hF.up ?_); rfl)
             | ((with_reducible refine Or.inr (hF.up ?_)); rfl)
             | (with_reducible exact Or.inl rfl)
             | (with_reducible apply resetJobs_moves)
             | (with_reducible apply Moves.upd))

theorem zeroGranule_moves {F : ℕ} {s t : State} {a1 : Part} {a2 : ℕ} (hF : Sub 47692383716383 F) (h : Moves F s t) :
    Moves F s (zeroGranule t a1 a2) := by
  unfold zeroGranule
  repeat'
    (first | (with_reducible assumption) | ((with_reducible refine hF.up ?_); rfl)
            | ((with_reducible refine Or.inr (hF.up ?_)); rfl) | (with_reducible exact Or.inl rfl)
            | (with_reducible exact fun h => Memory.wf_write h _ _)
            | (with_reducible exact fun h => Memory.wf_write (Memory.wf_zero h _ _) _ _)
            | (with_reducible exact fun h => Memory.wf_zero h _ _) | (with_reducible exact id)
            | (with_reducible exact fun _ => Memory.wf_nil) | (intro)
            | (extract_lets +onlyGivenNames x; have hx : Moves F s x := ?_; (on_goal 1 => clear_value x); (on_goal 2 => subst x))
            | (extract_lets +onlyGivenNames x; clear_value x) | (with_reducible apply Moves.ite) | (split)
            | (with_reducible apply makeRaw_moves) | (with_reducible apply discardBlock_moves)
            | (with_reducible apply Moves.foldl) | (with_reducible apply Moves.upd)
            | (with_reducible apply Moves.updMem))

theorem freeOf_moves {F : ℕ} {s t : State} {e : Extent} {g : Nat} (hF : Sub 8192 F) (h : Moves F s t) : Moves F s
    (freeOf t e g) := by
  have k : ∀ u b l, Moves F s u → Moves F s (if l = 0 then u else
      { u with exts := extInsert { e with base := b, len := l } u.exts }) :=
    fun u b l hu => .ite (fun _ => hu) (fun _ => by
      repeat'
        (first | (with_reducible assumption)
               | ((with_reducible refine hF.up ?_); rfl)
               | ((with_reducible refine Or.inr (hF.up ?_)); rfl)
               | (with_reducible exact Or.inl rfl)
               | (with_reducible apply Moves.upd)))
  exact k _ _ _ (k _ _ _ (extDrop_moves (hF.up rfl) h))

theorem clearSegs_moves {F : ℕ} {s t : State} {a1 : ℕ} (hF : Sub 1048576 F) (h : Moves F s t) : Moves F s
    (clearSegs t a1) := by
  unfold clearSegs
  repeat'
    (first | (with_reducible assumption) | ((with_reducible refine hF.up ?_); rfl)
            | ((with_reducible refine Or.inr (hF.up ?_)); rfl) | (with_reducible exact Or.inl rfl) | (intro)
            | (with_reducible apply Moves.upd))

theorem granFree_moves {F : ℕ} {s t : State} {a1 : ℕ} (hF : Sub 34360796173 F) (h : Moves F s t) : Moves F s
    (granFree t a1) := by
  unfold granFree
  repeat'
    (first | (with_reducible assumption) | ((with_reducible refine hF.up ?_); rfl)
            | ((with_reducible refine Or.inr (hF.up ?_)); rfl) | (with_reducible exact Or.inl rfl) | (intro)
            | (extract_lets +onlyGivenNames x; have hx : Moves F s x := ?_; (on_goal 1 => clear_value x); (on_goal 2 => subst x))
            | (extract_lets +onlyGivenNames x; clear_value x) | (with_reducible apply Moves.ite) | (split)
            | (with_reducible apply raise_moves) | (with_reducible apply listChange_moves)
            | (with_reducible apply freeOf_moves) | (with_reducible apply clearSegs_moves)
            | (with_reducible apply Moves.upd))

theorem granDone_moves {F : ℕ} {s t : State} {a1 : ℕ} (hF : Sub 34897667085 F) (h : Moves F s t) : Moves F s
    (granDone t a1) := by
  unfold granDone
  repeat'
    (first | (with_reducible assumption) | ((with_reducible refine hF.up ?_); rfl) | (intro)
            | (with_reducible apply Moves.ite) | (with_reducible apply journalSend_moves)
            | (with_reducible apply granFree_moves))

theorem sanSettle_moves {F : ℕ} {s t : State} (hF : Sub 34897929229 F) (h : Moves F s t) : Moves F s (sanSettle t)
    := by
  unfold sanSettle
  repeat'
    (first | (with_reducible assumption) | ((with_reducible refine hF.up ?_); rfl)
            | ((with_reducible refine Or.inr (hF.up ?_)); rfl) | (with_reducible exact Or.inl rfl) | (intro)
            | (extract_lets +onlyGivenNames x; have hx : Moves F s x := ?_; (on_goal 1 => clear_value x); (on_goal 2 => subst x))
            | (extract_lets +onlyGivenNames x; clear_value x) | (with_reducible apply granDone_moves)
            | (with_reducible apply Moves.foldl) | (with_reducible apply Moves.upd))

theorem granMark_moves {F : ℕ} {s t : State} {a1 : Bool} {a2 : ℕ} (hF : Sub 34360796173 F) (h : Moves F s t) :
    Moves F s (granMark t a1 a2) := by
  unfold granMark
  repeat'
    (first | (with_reducible assumption) | ((with_reducible refine hF.up ?_); rfl)
            | ((with_reducible refine Or.inr (hF.up ?_)); rfl) | (with_reducible exact Or.inl rfl) | (intro)
            | (with_reducible apply Moves.ite) | (with_reducible apply granFree_moves)
            | (with_reducible apply Moves.upd))

theorem sanAlone_moves {F : ℕ} {s t : State} (hF : Sub 34360796173 F) (h : Moves F s t) : Moves F s (sanAlone t)
    := by
  unfold sanAlone
  repeat'
    (first | (with_reducible assumption) | ((with_reducible refine hF.up ?_); rfl)
            | ((with_reducible refine Or.inr (hF.up ?_)); rfl) | (with_reducible exact Or.inl rfl) | (intro)
            | (extract_lets +onlyGivenNames x; have hx : Moves F s x := ?_; (on_goal 1 => clear_value x); (on_goal 2 => subst x))
            | (extract_lets +onlyGivenNames x; clear_value x) | (with_reducible apply granFree_moves)
            | (with_reducible apply Moves.foldl) | (with_reducible apply Moves.upd))

theorem sanitised_moves {F : ℕ} {s t : State} {a1 : ℕ} (hF : Sub 47726743462943 F) (h : Moves F s t) : Moves F s
    (sanitised t a1) := by
  unfold sanitised
  repeat'
    (first | (with_reducible assumption) | ((with_reducible refine hF.up ?_); rfl)
            | ((with_reducible refine Or.inr (hF.up ?_)); rfl) | (with_reducible exact Or.inl rfl) | (intro)
            | (extract_lets +onlyGivenNames x; have hx : Moves F s x := ?_; (on_goal 1 => clear_value x); (on_goal 2 => subst x))
            | (extract_lets +onlyGivenNames x; clear_value x) | (with_reducible apply Moves.ite) | (split)
            | (with_reducible apply zeroGranule_moves) | (with_reducible apply sanSettle_moves)
            | (with_reducible apply Moves.upd))

theorem newKey_moves {F : ℕ} {s t : State} {a1 : Part} (hF : Sub 281474976722944 F) (h : Moves F s t) : Moves F s
    (newKey t a1) := by
  unfold newKey
  repeat'
    (first | (with_reducible assumption) | ((with_reducible refine hF.up ?_); rfl)
            | ((with_reducible refine Or.inr (hF.up ?_)); rfl) | (with_reducible exact Or.inl rfl) | (intro)
            | (extract_lets +onlyGivenNames x; have hx : Moves F s x := ?_; (on_goal 1 => clear_value x); (on_goal 2 => subst x))
            | (extract_lets +onlyGivenNames x; clear_value x) | (with_reducible apply Moves.ite)
            | (with_reducible apply fset_moves) | (with_reducible apply partUpd_moves)
            | (with_reducible apply extMap_moves) | (with_reducible apply Moves.foldl)
            | (with_reducible apply Moves.upd))

theorem heldAgain_moves {F : ℕ} {s t : State} {a1 : Part} {a2 : Extent} (hF : Sub 34359747597 F) (h : Moves F s t) :
    Moves F s (heldAgain t a1 a2) := by
  unfold heldAgain
  repeat'
    (first | (with_reducible assumption) | ((with_reducible refine hF.up ?_); rfl)
            | ((with_reducible refine Or.inr (hF.up ?_)); rfl) | (with_reducible exact Or.inl rfl) | (intro)
            | (with_reducible apply Moves.ite) | (split) | (with_reducible apply listChange_moves)
            | (with_reducible apply extMap_moves) | (with_reducible apply Moves.upd))

theorem restoreHoldings_moves {F : ℕ} {s t : State} {a1 : Part} {a2 : Bool} (hF : Sub 329201720177695 F) (h :
    Moves F s t) : Moves F s (restoreHoldings t a1 a2) := by
  unfold restoreHoldings
  repeat'
    (first | (with_reducible assumption) | ((with_reducible refine hF.up ?_); rfl)
            | ((with_reducible refine Or.inr (hF.up ?_)); rfl) | (with_reducible exact Or.inl rfl) | (intro)
            | (extract_lets +onlyGivenNames x; have hx : Moves F s x := ?_; (on_goal 1 => clear_value x); (on_goal 2 => subst x))
            | (extract_lets +onlyGivenNames x; clear_value x) | (with_reducible apply Moves.ite)
            | (with_reducible apply partUpd_moves) | (with_reducible apply dcEvent_moves)
            | (with_reducible apply raise_moves) | (with_reducible apply snapLeave_moves)
            | (with_reducible apply endOffers_moves) | (with_reducible apply turnHoldings_moves)
            | (with_reducible apply destroyKey_moves) | (with_reducible apply zeroGranule_moves)
            | (with_reducible apply newKey_moves) | (with_reducible apply heldAgain_moves)
            | (with_reducible apply Moves.foldl) | (with_reducible apply Moves.upd))

theorem endReset_moves {F : ℕ} {s t : State} {a1 : Part} {a2 : ResetKind} (hF : Sub 329837377958943 F) (h :
    Moves F s t) : Moves F s (endReset t a1 a2) := by
  unfold endReset
  repeat'
    (first | (with_reducible assumption) | ((with_reducible refine hF.up ?_); rfl)
            | ((with_reducible refine Or.inr (hF.up ?_)); rfl) | (with_reducible exact Or.inl rfl) | (intro)
            | (extract_lets +onlyGivenNames x; have hx : Moves F s x := ?_; (on_goal 1 => clear_value x); (on_goal 2 => subst x))
            | (extract_lets +onlyGivenNames x; clear_value x) | (with_reducible apply Moves.ite) | (split)
            | (with_reducible apply fset_moves) | (with_reducible apply startLease_moves)
            | (with_reducible apply clearPartition_moves) | (with_reducible apply restoreHoldings_moves)
            | (with_reducible apply Moves.upd))

theorem perstOn_moves {F : ℕ} {s t : State} {a1 : Head} (hF : Sub 329829861799519 F) (h : Moves F s t) : Moves F s
    (perstOn t a1) := by
  unfold perstOn
  repeat'
    (first | (with_reducible assumption) | ((with_reducible refine hF.up ?_); rfl)
            | ((with_reducible refine Or.inr (hF.up ?_)); rfl) | (with_reducible exact Or.inl rfl) | (intro)
            | (extract_lets +onlyGivenNames x; have hx : Moves F s x := ?_; (on_goal 1 => clear_value x); (on_goal 2 => subst x))
            | (extract_lets +onlyGivenNames x; clear_value x) | (with_reducible apply headUpd_moves)
            | (with_reducible apply linkLost_moves) | (with_reducible apply startReset_moves)
            | (with_reducible apply Moves.foldl) | (with_reducible apply Moves.upd))

theorem perstOff_moves {F : ℕ} {s t : State} {a1 : Head} (hF : Sub 8589935104 F) (h : Moves F s t) : Moves F s
    (perstOff t a1) := by
  unfold perstOff
  repeat'
    (first | (with_reducible assumption) | ((with_reducible refine hF.up ?_); rfl)
            | ((with_reducible refine Or.inr (hF.up ?_)); rfl) | (with_reducible exact Or.inl rfl) | (intro)
            | (extract_lets +onlyGivenNames x; have hx : Moves F s x := ?_; (on_goal 1 => clear_value x); (on_goal 2 => subst x))
            | (extract_lets +onlyGivenNames x; clear_value x) | (with_reducible apply Moves.ite)
            | (with_reducible apply fset_moves) | (with_reducible apply headUpd_moves)
            | (with_reducible apply Moves.upd))

theorem doLeaseExpire_moves {F : ℕ} {s t : State} {a1 : Part} (hF : Sub 329837378008095 F) (h : Moves F s t) :
    Moves F s (doLeaseExpire t a1) := by
  unfold doLeaseExpire
  repeat'
    (first | (with_reducible assumption) | ((with_reducible refine hF.up ?_); rfl)
            | ((with_reducible refine Or.inr (hF.up ?_)); rfl) | (with_reducible exact Or.inl rfl) | (intro)
            | (extract_lets +onlyGivenNames x; have hx : Moves F s x := ?_; (on_goal 1 => clear_value x); (on_goal 2 => subst x))
            | (extract_lets +onlyGivenNames x; clear_value x) | (with_reducible apply fset_moves)
            | (with_reducible apply emit_moves) | (with_reducible apply raise_moves)
            | (with_reducible apply snapLeave_moves) | (with_reducible apply endOffers_moves)
            | (with_reducible apply turnHoldings_moves) | (with_reducible apply dropSharers_moves)
            | (with_reducible apply closeWindows_moves) | (with_reducible apply endWork_moves)
            | (with_reducible apply Moves.foldl) | (with_reducible apply Moves.upd))

theorem execLinkTrained_moves {F : ℕ} {s t : State} {a0 : Head} {a1 : Fin 7} {a2 : ℕ} {a3 : Bool} {a4 : Bool} {a5
    : Bool} (hF : Sub 329829861795423 F) (h : Moves F s t) : ∃ u, (execLinkTrained a0 a1 a2 a3 a4 a5 t) = .next u ∧
    Moves F s u := by
  unfold execLinkTrained
  refine ⟨_, rfl, ?_⟩
  repeat'
    (first | (with_reducible assumption) | ((with_reducible refine hF.up ?_); rfl) | (intro)
            | (with_reducible apply Moves.ite) | (split) | (with_reducible apply doTrained_moves))

theorem execEqFail128_moves {F : ℕ} {s t : State} {a0 : Head} (hF : Sub 8589936141 F) (h : Moves F s t) : ∃ u,
    (execEqFail128 a0 t) = .next u ∧ Moves F s u := by
  unfold execEqFail128
  refine ⟨_, rfl, ?_⟩
  repeat'
    (first | (with_reducible assumption) | ((with_reducible refine hF.up ?_); rfl) | (intro)
            | (with_reducible apply Moves.ite) | (split) | (with_reducible apply doEqFail_moves))

theorem execLaneFailure_moves {F : ℕ} {s t : State} {a0 : Head} {a1 : BitVec 16} (hF : Sub 329829861795423 F) (h :
    Moves F s t) : ∃ u, (execLaneFailure a0 a1 t) = .next u ∧ Moves F s u := by
  unfold execLaneFailure
  refine ⟨_, rfl, ?_⟩
  repeat'
    (first | (with_reducible assumption) | ((with_reducible refine hF.up ?_); rfl) | (intro)
            | (with_reducible apply Moves.ite) | (split) | (with_reducible apply doLaneFailure_moves))

theorem execLinkDown_moves {F : ℕ} {s t : State} {a0 : Head} {a1 : Bool} {a2 : Bool} (hF : Sub 329829861795423 F) (h
    : Moves F s t) : ∃ u, (execLinkDown a0 a1 a2 t) = .next u ∧ Moves F s u := by
  unfold execLinkDown
  refine ⟨_, rfl, ?_⟩
  repeat'
    (first | (with_reducible assumption) | ((with_reducible refine hF.up ?_); rfl) | (intro)
            | (with_reducible apply Moves.ite) | (split) | (with_reducible apply linkLost_moves))

theorem execPerstAssert_moves {F : ℕ} {s t : State} {a0 : Head} (hF : Sub 329829861799519 F) (h : Moves F s t) :
    ∃ u, (execPerstAssert a0 t) = .next u ∧ Moves F s u := by
  unfold execPerstAssert
  refine ⟨_, rfl, ?_⟩
  repeat'
    (first | (with_reducible assumption) | ((with_reducible refine hF.up ?_); rfl) | (intro)
            | (with_reducible apply perstOn_moves))

theorem execPerstDeassert_moves {F : ℕ} {s t : State} {a0 : Head} (hF : Sub 8589935104 F) (h : Moves F s t) : ∃ u,
    (execPerstDeassert a0 t) = .next u ∧ Moves F s u := by
  unfold execPerstDeassert
  refine ⟨_, rfl, ?_⟩
  repeat'
    (first | (with_reducible assumption) | ((with_reducible refine hF.up ?_); rfl) | (intro)
            | (with_reducible apply perstOff_moves))

theorem execLinkError_moves {F : ℕ} {s t : State} {a0 : Head} {a1 : LinkErr} (hF : Sub 8589936129 F) (h :
    Moves F s t) : ∃ u, (execLinkError a0 a1 t) = .next u ∧ Moves F s u := by
  unfold execLinkError
  refine ⟨_, rfl, ?_⟩
  repeat'
    (first | (with_reducible assumption) | ((with_reducible refine hF.up ?_); rfl) | (intro)
            | (with_reducible apply doLinkError_moves))

theorem execTlpError_moves {F : ℕ} {s t : State} {a0 : Head} {a1 : TlpErr} {a2 : Part} (hF : Sub 8589936141 F) (h :
    Moves F s t) : ∃ u, (execTlpError a0 a1 a2 t) = .next u ∧ Moves F s u := by
  unfold execTlpError
  refine ⟨_, rfl, ?_⟩
  repeat'
    (first | (with_reducible assumption) | ((with_reducible refine hF.up ?_); rfl) | (intro)
            | (with_reducible apply Moves.ite) | (split) | (with_reducible apply doTlpError_moves))

theorem execViralReceived_moves {F : ℕ} {s t : State} {a0 : Head} (hF : Sub 8796093022208 F) (h : Moves F s t) :
    ∃ u, (execViralReceived a0 t) = .next u ∧ Moves F s u := by
  unfold execViralReceived
  refine ⟨_, rfl, ?_⟩
  repeat'
    (first | (with_reducible assumption) | ((with_reducible refine hF.up ?_); rfl) | (intro)
            | (with_reducible apply finc_moves))

theorem execConfigWrite_moves {F : ℕ} {s t : State} {a0 : Head} {a1 : Part} {a2 : CfgField} {a3 : ℕ} (hF
    : Sub 2098829 F) (h : Moves F s t) : ∃ u, (execConfigWrite a0 a1 a2 a3 t) = .next u ∧ Moves F s u := by
  unfold execConfigWrite
  refine ⟨_, rfl, ?_⟩
  repeat'
    (first | (with_reducible assumption) | ((with_reducible refine hF.up ?_); rfl) | (intro)
            | (with_reducible apply cfgWrite_moves) | (with_reducible apply setCfg_moves))

theorem execBusMasterEnableClear_moves {F : ℕ} {s t : State} {a0 : Head} {a1 : Part} (hF : Sub 687424341645 F) (h :
    Moves F s t) : ∃ u, (execBusMasterEnableClear a0 a1 t) = .next u ∧ Moves F s u := by
  unfold execBusMasterEnableClear
  refine ⟨_, rfl, ?_⟩
  repeat'
    (first | (with_reducible assumption) | ((with_reducible refine hF.up ?_); rfl) | (intro)
            | (with_reducible apply cfgWrite_moves) | (with_reducible apply clearBme_moves))

theorem execBusMasterEnableSet_moves {F : ℕ} {s t : State} {a0 : Head} {a1 : Part} (hF : Sub 2098829 F) (h :
    Moves F s t) : ∃ u, (execBusMasterEnableSet a0 a1 t) = .next u ∧ Moves F s u := by
  unfold execBusMasterEnableSet
  refine ⟨_, rfl, ?_⟩
  repeat'
    (first | (with_reducible assumption) | ((with_reducible refine hF.up ?_); rfl) | (intro)
            | (with_reducible apply cfgWrite_moves) | (with_reducible apply setBme_moves))

theorem execFlr_moves {F : ℕ} {s t : State} {a0 : Head} {a1 : Part} (hF : Sub 687424345741 F) (h : Moves F s t) :
    ∃ u, (execFlr a0 a1 t) = .next u ∧ Moves F s u := by
  unfold execFlr
  refine ⟨_, rfl, ?_⟩
  repeat'
    (first | (with_reducible assumption) | ((with_reducible refine hF.up ?_); rfl) | (intro)
            | (with_reducible apply cfgWrite_moves) | (with_reducible apply startReset_moves))

theorem execFlrComplete_moves {F : ℕ} {s t : State} {a0 : Part} (hF : Sub 329837377958943 F) (h : Moves F s t) :
    ∃ u, (execFlrComplete a0 t) = .next u ∧ Moves F s u := by
  unfold execFlrComplete
  refine ⟨_, rfl, ?_⟩
  repeat'
    (first | (with_reducible assumption) | ((with_reducible refine hF.up ?_); rfl) | (intro)
            | (with_reducible apply Moves.ite) | (split) | (with_reducible apply endReset_moves))

theorem execCxlReset_moves {F : ℕ} {s t : State} {a0 : Head} {a1 : Part} (hF : Sub 687424345741 F) (h : Moves F s t)
    : ∃ u, (execCxlReset a0 a1 t) = .next u ∧ Moves F s u := by
  unfold execCxlReset
  refine ⟨_, rfl, ?_⟩
  repeat'
    (first | (with_reducible assumption) | ((with_reducible refine hF.up ?_); rfl) | (intro)
            | (with_reducible apply cfgWrite_moves) | (with_reducible apply startReset_moves))

theorem execCxlResetComplete_moves {F : ℕ} {s t : State} {a0 : Part} (hF : Sub 329837377958943 F) (h : Moves F s t)
    : ∃ u, (execCxlResetComplete a0 t) = .next u ∧ Moves F s u := by
  unfold execCxlResetComplete
  refine ⟨_, rfl, ?_⟩
  repeat'
    (first | (with_reducible assumption) | ((with_reducible refine hF.up ?_); rfl) | (intro)
            | (with_reducible apply Moves.ite) | (split) | (with_reducible apply endReset_moves))

theorem execMsixUnmask_moves {F : ℕ} {s t : State} {a0 : Part} {a1 : Fin 256} (hF : Sub 1025 F) (h : Moves F s t) :
    ∃ u, (execMsixUnmask a0 a1 t) = .next u ∧ Moves F s u := by
  unfold execMsixUnmask
  refine ⟨_, rfl, ?_⟩
  repeat'
    (first | (with_reducible assumption) | ((with_reducible refine hF.up ?_); rfl)
            | ((with_reducible refine Or.inr (hF.up ?_)); rfl) | (with_reducible exact Or.inl rfl) | (intro)
            | (extract_lets +onlyGivenNames x; have hx : Moves F s x := ?_; (on_goal 1 => clear_value x); (on_goal 2 => subst x))
            | (extract_lets +onlyGivenNames x; clear_value x) | (with_reducible apply Moves.ite) | (split)
            | (with_reducible apply msixSet_moves) | (with_reducible apply flushVecs_moves)
            | (with_reducible apply Moves.upd))

theorem execTagLimitWrite_moves {F : ℕ} {s t : State} {a0 : Head} {a1 : Part} {a2 : BitVec 11} (hF : Sub 2098829 F)
    (h : Moves F s t) : ∃ u, (execTagLimitWrite a0 a1 a2 t) = .next u ∧ Moves F s u := by
  unfold execTagLimitWrite
  refine ⟨_, rfl, ?_⟩
  repeat'
    (first | (with_reducible assumption) | ((with_reducible refine hF.up ?_); rfl) | (intro)
            | (with_reducible apply cfgWrite_moves) | (with_reducible apply setTagLimit_moves))

theorem execL1Entry_moves {F : ℕ} {s t : State} {a0 : Head} (hF : Sub 329829861795423 F) (h : Moves F s t) : ∃ u,
    (execL1Entry a0 t) = .next u ∧ Moves F s u := by
  unfold execL1Entry
  refine ⟨_, rfl, ?_⟩
  repeat'
    (first | (with_reducible assumption) | ((with_reducible refine hF.up ?_); rfl) | (intro)
            | (with_reducible apply Moves.ite) | (split) | (with_reducible apply linkLost_moves))

theorem execHdmDecoderCommit_moves {F : ℕ} {s t : State} {a0 : Head} {a1 : Part} {a2 : ℕ} {a3 : ℕ} {a4 : Bool} (hF
    : Sub 3725 F) (h : Moves F s t) : ∃ u, (execHdmDecoderCommit a0 a1 a2 a3 a4 t) = .next u ∧ Moves F s u := by
  unfold execHdmDecoderCommit
  refine ⟨_, rfl, ?_⟩
  repeat'
    (first | (with_reducible assumption) | ((with_reducible refine hF.up ?_); rfl)
            | ((with_reducible refine Or.inr (hF.up ?_)); rfl) | (with_reducible exact Or.inl rfl) | (intro)
            | (with_reducible apply ioWrite_moves) | (with_reducible apply Moves.upd))

theorem execClearEventRecords_moves {F : ℕ} {s t : State} {a0 : Head} {a1 : Part} {a2 : Sys2Proof.EvLog} {a3 : ℕ}
    (hF : Sub 1677 F) (h : Moves F s t) : ∃ u, (execClearEventRecords a0 a1 a2 a3 t) = .next u ∧ Moves F s u := by
  unfold execClearEventRecords
  refine ⟨_, rfl, ?_⟩
  repeat'
    (first | (with_reducible assumption) | ((with_reducible refine hF.up ?_); rfl)
            | ((with_reducible refine Or.inr (hF.up ?_)); rfl) | (with_reducible exact Or.inl rfl) | (intro)
            | (split) | (with_reducible apply cfgUpd_moves) | (with_reducible apply ioWrite_moves)
            | (with_reducible apply Moves.upd))

theorem execSetEventInterruptPolicy_moves {F : ℕ} {s t : State} {a0 : Head} {a1 : Part} {a2 : Sys2Proof.EvLog} {a3
    : Option (Fin 256)} (hF : Sub 1677 F) (h : Moves F s t) : ∃ u,
    (execSetEventInterruptPolicy a0 a1 a2 a3 t) = .next u ∧ Moves F s u := by
  unfold execSetEventInterruptPolicy
  refine ⟨_, rfl, ?_⟩
  repeat'
    (first | (with_reducible assumption) | ((with_reducible refine hF.up ?_); rfl)
            | ((with_reducible refine Or.inr (hF.up ?_)); rfl) | (with_reducible exact Or.inl rfl) | (intro)
            | (extract_lets +onlyGivenNames x; have hx : Moves F s x := ?_; (on_goal 1 => clear_value x); (on_goal 2 => subst x))
            | (extract_lets +onlyGivenNames x; clear_value x) | (split) | (with_reducible apply cfgUpd_moves)
            | (with_reducible apply ioWrite_moves) | (with_reducible apply Moves.upd))

theorem execLeaseLow_moves {F : ℕ} {s t : State} {a0 : Part} (hF : Sub 1037 F) (h : Moves F s t) : ∃ u,
    (execLeaseLow a0 t) = .next u ∧ Moves F s u := by
  unfold execLeaseLow
  refine ⟨_, rfl, ?_⟩
  repeat'
    (first | (with_reducible assumption) | ((with_reducible refine hF.up ?_); rfl) | (intro)
            | (with_reducible apply Moves.ite) | (split) | (with_reducible apply raise_moves))

end Sys2Proof.Machine
end

