-- ==== Sys2Proof/Laws/MovesHints.lean ====
section
/-! SUPPORT. What the functions of Machine/Hints.lean keep, and the kinds of state they may change (`Moves`). -/

set_option linter.all false

namespace Sys2Proof.Machine

open Sys2Proof

theorem hintIgnored_moves {F : ℕ} {s t : State} {a1 : ℕ} (hF : Sub 137438954509 F) (h : Moves F s t) : Moves F s
    (hintIgnored t a1) := by
  unfold hintIgnored
  repeat'
    (first | (with_reducible assumption) | ((with_reducible refine hF.up ?_); rfl)
            | (with_reducible apply finc_moves) | (with_reducible apply raise_moves))

theorem hintPass_moves {F : ℕ} {s t : State} {a1 : ℕ} (hF : Sub 137439477760 F) (h : Moves F s t) : Moves F s
    (hintPass t a1) := by
  unfold hintPass
  repeat'
    (first | (with_reducible assumption) | ((with_reducible refine hF.up ?_); rfl)
            | ((with_reducible refine Or.inr (hF.up ?_)); rfl) | (with_reducible exact Or.inl rfl)
            | (with_reducible apply fwrap_moves) | (with_reducible apply Moves.upd))

theorem hintSkip_moves {F : ℕ} {s t : State} {a0 : ℕ} {a2 : ℕ} (hF : Sub 137439478797 F) (h : Moves F s t) :
    Moves F s (hintSkip a0 t a2) := by
  induction a0 generalizing t with
  | zero => exact h
  | succ n ih =>
    unfold hintSkip
    repeat'
      (first | (with_reducible assumption) | (with_reducible apply ih) | ((with_reducible refine hF.up ?_); rfl)
              | ((with_reducible refine Or.inr (hF.up ?_)); rfl) | (with_reducible exact Or.inl rfl) | (intro)
              | (with_reducible apply Moves.ite) | (split) | (with_reducible apply hintIgnored_moves)
              | (with_reducible apply hintPass_moves) | (with_reducible apply Moves.upd))

theorem hintSettle_moves {F : ℕ} {s t : State} {a1 : ℕ} (hF : Sub 137439478797 F) (h : Moves F s t) : Moves F s
    (hintSettle t a1) := by
  unfold hintSettle
  repeat'
    (first | (with_reducible assumption) | ((with_reducible refine hF.up ?_); rfl)
            | (with_reducible apply hintSkip_moves))

theorem hintDiscard_moves {F : ℕ} {s t : State} {a1 : Part} {a2 : Extent} {a3 : ℕ} (hF : Sub 47761103225887 F) (h :
    Moves F s t) : Moves F s (hintDiscard t a1 a2 a3) := by
  unfold hintDiscard
  repeat'
    (first | (with_reducible assumption) | ((with_reducible refine hF.up ?_); rfl) | (intro)
            | (with_reducible apply Moves.ite) | (with_reducible apply discardBlock_moves)
            | (with_reducible apply dirReq_moves) | (with_reducible apply Moves.foldl))

theorem hintCompact_moves {F : ℕ} {s t : State} {a1 : ℕ} (hF : Sub 1048576 F) (h : Moves F s t) : Moves F s
    (hintCompact t a1) := by
  unfold hintCompact
  repeat'
    (first | (with_reducible assumption) | ((with_reducible refine hF.up ?_); rfl) | (intro)
            | (with_reducible apply Moves.ite) | (with_reducible apply compactBlock_moves))

theorem hintEffect_moves {F : ℕ} {s t : State} {a1 : Part} {a2 : ℕ} {a3 : ℕ} {a4 : ℕ} (hF : Sub 47761103225887 F) (h
    : Moves F s t) : Moves F s (hintEffect t a1 a2 a3 a4) := by
  unfold hintEffect
  repeat'
    (first | (with_reducible assumption) | ((with_reducible refine hF.up ?_); rfl)
            | ((with_reducible refine Or.inr (hF.up ?_)); rfl) | (with_reducible exact Or.inl rfl) | (intro)
            | (extract_lets +onlyGivenNames x; have hx : Moves F s x := ?_; (on_goal 1 => clear_value x); (on_goal 2 => subst x))
            | (extract_lets +onlyGivenNames x; clear_value x) | (split) | (with_reducible apply prefetchBlock_moves)
            | (with_reducible apply pinBlock_moves) | (with_reducible apply unpinBlock_moves)
            | (with_reducible apply coldBlock_moves) | (with_reducible apply hintDiscard_moves)
            | (with_reducible apply hintCompact_moves) | (with_reducible apply Moves.foldl)
            | (with_reducible apply Moves.upd))

theorem hintShort_moves {F : ℕ} {s t : State} {a1 : Part} {a2 : HintEntry} (hF : Sub 137438954509 F) (h :
    Moves F s t) : Moves F s (hintShort t a1 a2) := by
  unfold hintShort
  repeat'
    (first | (with_reducible assumption) | ((with_reducible refine hF.up ?_); rfl) | (intro)
            | (extract_lets +onlyGivenNames x; have hx : Moves F s x := ?_; (on_goal 1 => clear_value x); (on_goal 2 => subst x))
            | (extract_lets +onlyGivenNames x; clear_value x) | (with_reducible apply Moves.ite) | (split)
            | (with_reducible apply hintIgnored_moves))

theorem hintRun_moves {F : ℕ} {s t : State} {a1 : Part} {a2 : HintEntry} (hF : Sub 47761103750175 F) (h :
    Moves F s t) : Moves F s (hintRun t a1 a2) := by
  unfold hintRun
  repeat'
    (first | (with_reducible assumption) | ((with_reducible refine hF.up ?_); rfl)
            | ((with_reducible refine Or.inr (hF.up ?_)); rfl) | (with_reducible exact Or.inl rfl) | (intro)
            | (extract_lets +onlyGivenNames x; have hx : Moves F s x := ?_; (on_goal 1 => clear_value x); (on_goal 2 => subst x))
            | (extract_lets +onlyGivenNames x; clear_value x) | (with_reducible apply Moves.ite)
            | (with_reducible apply hintPass_moves) | (with_reducible apply hintSettle_moves)
            | (with_reducible apply hintEffect_moves) | (with_reducible apply hintShort_moves)
            | (with_reducible apply Moves.upd))

theorem hintSend_moves {F : ℕ} {s t : State} {a1 : Part} {a2 : HintEntry} (hF : Sub 536870913 F) (h : Moves F s t) :
    Moves F s (hintSend t a1 a2) := by
  unfold hintSend
  repeat'
    (first | (with_reducible assumption) | ((with_reducible refine hF.up ?_); rfl)
            | (with_reducible apply journalSend_moves))

theorem hintGo_moves {F : ℕ} {s t : State} {a1 : Part} {a2 : ℕ} (hF : Sub 47761103750175 F) (h : Moves F s t) :
    Moves F s (hintGo t a1 a2) := by
  unfold hintGo
  repeat'
    (first | (with_reducible assumption) | ((with_reducible refine hF.up ?_); rfl)
            | ((with_reducible refine Or.inr (hF.up ?_)); rfl) | (with_reducible exact Or.inl rfl) | (intro)
            | (extract_lets +onlyGivenNames x; have hx : Moves F s x := ?_; (on_goal 1 => clear_value x); (on_goal 2 => subst x))
            | (extract_lets +onlyGivenNames x; clear_value x) | (with_reducible apply Moves.ite) | (split)
            | (with_reducible apply pumpHint_moves) | (with_reducible apply hintPass_moves)
            | (with_reducible apply hintSettle_moves) | (with_reducible apply hintRun_moves)
            | (with_reducible apply hintSend_moves) | (with_reducible apply Moves.upd))

theorem hintJournal_moves {F : ℕ} {s t : State} {a1 : Bool} {a2 : Part} {a3 : ℕ} {a4 : ℕ} {a5 : ℕ} (hF
    : Sub 47761103750175 F) (h : Moves F s t) : Moves F s (hintJournal t a1 a2 a3 a4 a5) := by
  unfold hintJournal
  repeat'
    (first | (with_reducible assumption) | ((with_reducible refine hF.up ?_); rfl)
            | ((with_reducible refine Or.inr (hF.up ?_)); rfl) | (with_reducible exact Or.inl rfl) | (intro)
            | (extract_lets +onlyGivenNames x; have hx : Moves F s x := ?_; (on_goal 1 => clear_value x); (on_goal 2 => subst x))
            | (extract_lets +onlyGivenNames x; clear_value x) | (with_reducible apply Moves.ite) | (split)
            | (with_reducible apply hintEffect_moves) | (with_reducible apply hintRun_moves)
            | (with_reducible apply Moves.upd))

theorem tellDiscards_moves {F : ℕ} {s t : State} (hF : Sub 262145 F) (h : Moves F s t) : Moves F s (tellDiscards t)
    := by
  unfold tellDiscards
  repeat'
    (first | (with_reducible assumption) | ((with_reducible refine hF.up ?_); rfl)
            | ((with_reducible refine Or.inr (hF.up ?_)); rfl) | (with_reducible exact Or.inl rfl) | (intro)
            | (extract_lets +onlyGivenNames x; have hx : Moves F s x := ?_; (on_goal 1 => clear_value x); (on_goal 2 => subst x))
            | (extract_lets +onlyGivenNames x; clear_value x) | (with_reducible apply Moves.ite) | (split)
            | (with_reducible apply emit_moves) | (with_reducible apply Moves.foldl)
            | (with_reducible apply Moves.upd))

theorem twinDiscarded_moves {F : ℕ} {s t : State} {a1 : Part} {a2 : ℕ} {a3 : ℕ} (hF : Sub 524288 F) (h :
    Moves F s t) : Moves F s (twinDiscarded t a1 a2 a3) := by
  unfold twinDiscarded
  repeat'
    (first | (with_reducible assumption) | ((with_reducible refine hF.up ?_); rfl)
            | ((with_reducible refine Or.inr (hF.up ?_)); rfl) | (with_reducible exact Or.inl rfl) | (intro)
            | (extract_lets +onlyGivenNames x; have hx : Moves F s x := ?_; (on_goal 1 => clear_value x); (on_goal 2 => subst x))
            | (extract_lets +onlyGivenNames x; clear_value x) | (with_reducible apply Moves.ite) | (split)
            | (with_reducible apply Moves.upd))

theorem hintFetched_moves {F : ℕ} {s t : State} {a1 : Part} {a2 : Cpl} (hF : Sub 137439478797 F) (h : Moves F s t) :
    Moves F s (hintFetched t a1 a2) := by
  unfold hintFetched
  repeat'
    (first | (with_reducible assumption) | ((with_reducible refine hF.up ?_); rfl)
            | ((with_reducible refine Or.inr (hF.up ?_)); rfl) | (with_reducible exact Or.inl rfl) | (split)
            | (with_reducible apply haltHint_moves) | (with_reducible apply hintSettle_moves)
            | (with_reducible apply Moves.upd))

theorem hintFlush_moves {F : ℕ} {s t : State} {a1 : Part} (hF : Sub 47761103225887 F) (h : Moves F s t) : Moves F s
    (hintFlush t a1) := by
  unfold hintFlush
  repeat'
    (first | (with_reducible assumption) | ((with_reducible refine hF.up ?_); rfl) | (intro)
            | (extract_lets +onlyGivenNames x; have hx : Moves F s x := ?_; (on_goal 1 => clear_value x); (on_goal 2 => subst x))
            | (extract_lets +onlyGivenNames x; clear_value x) | (with_reducible apply Moves.ite)
            | (with_reducible apply hintIgnored_moves) | (with_reducible apply hintEffect_moves)
            | (with_reducible apply hintShort_moves) | (with_reducible apply hintSend_moves)
            | (with_reducible apply Moves.foldl))

theorem setHintEnable_moves {F : ℕ} {s t : State} {a1 : Part} {a2 : Bool} (hF : Sub 47761103750175 F) (h :
    Moves F s t) : Moves F s (setHintEnable t a1 a2) := by
  unfold setHintEnable
  repeat'
    (first | (with_reducible assumption) | ((with_reducible refine hF.up ?_); rfl)
            | ((with_reducible refine Or.inr (hF.up ?_)); rfl) | (with_reducible exact Or.inl rfl) | (intro)
            | (extract_lets +onlyGivenNames x; have hx : Moves F s x := ?_; (on_goal 1 => clear_value x); (on_goal 2 => subst x))
            | (extract_lets +onlyGivenNames x; clear_value x) | (with_reducible apply Moves.ite)
            | (with_reducible apply fset_moves) | (with_reducible apply discardTags_moves)
            | (with_reducible apply hintFlush_moves) | (with_reducible apply Moves.upd))

theorem setHintProducer_moves {F : ℕ} {s t : State} {a1 : Part} {a2 : ℕ} (hF : Sub 137439478797 F) (h : Moves F s t)
    : Moves F s (setHintProducer t a1 a2) := by
  unfold setHintProducer
  repeat'
    (first | (with_reducible assumption) | ((with_reducible refine hF.up ?_); rfl) | (intro)
            | (with_reducible apply Moves.ite) | (with_reducible apply fset_moves)
            | (with_reducible apply pumpHint_moves) | (with_reducible apply haltHint_moves))

theorem cplDone_moves {F : ℕ} {s t : State} {a1 : Part} {a2 : Tag} {a3 : Cpl} (hF : Sub 687961211919 F) (h :
    Moves F s t) : Moves F s (cplDone t a1 a2 a3) := by
  unfold cplDone
  repeat'
    (first | (with_reducible assumption) | ((with_reducible refine hF.up ?_); rfl)
            | ((with_reducible refine Or.inr (hF.up ?_)); rfl) | (with_reducible exact Or.inl rfl) | (intro)
            | (extract_lets +onlyGivenNames x; have hx : Moves F s x := ?_; (on_goal 1 => clear_value x); (on_goal 2 => subst x))
            | (extract_lets +onlyGivenNames x; clear_value x) | (with_reducible apply Moves.ite) | (split)
            | (with_reducible apply aerLog_moves) | (with_reducible apply dropTag_moves)
            | (with_reducible apply pumpRings_moves) | (with_reducible apply descFetched_moves)
            | (with_reducible apply stageDone_moves) | (with_reducible apply hintFetched_moves)
            | (with_reducible apply Moves.upd))

theorem cplTimeout_moves {F : ℕ} {s t : State} {a1 : Part} {a2 : Tag} (hF : Sub 687205778445 F) (h : Moves F s t) :
    Moves F s (cplTimeout t a1 a2) := by
  unfold cplTimeout
  repeat'
    (first | (with_reducible assumption) | ((with_reducible refine hF.up ?_); rfl)
            | ((with_reducible refine Or.inr (hF.up ?_)); rfl) | (with_reducible exact Or.inl rfl) | (intro)
            | (extract_lets +onlyGivenNames x; have hx : Moves F s x := ?_; (on_goal 1 => clear_value x); (on_goal 2 => subst x))
            | (extract_lets +onlyGivenNames x; clear_value x) | (with_reducible apply Moves.ite) | (split)
            | (with_reducible apply ringUpd_moves) | (with_reducible apply aerLog_moves)
            | (with_reducible apply failJob_moves) | (with_reducible apply haltRing_moves)
            | (with_reducible apply dropTag_moves) | (with_reducible apply haltHint_moves)
            | (with_reducible apply pumpRings_moves) | (with_reducible apply Moves.upd))

theorem execCompletionReceived_moves {F : ℕ} {s t : State} {a0 : Part} {a1 : ℕ} {a2 : Cpl} (hF : Sub 687961211919 F)
    (h : Moves F s t) : ∃ u, (execCompletionReceived a0 a1 a2 t) = .next u ∧ Moves F s u := by
  unfold execCompletionReceived
  refine ⟨_, rfl, ?_⟩
  repeat'
    (first | (with_reducible assumption) | ((with_reducible refine hF.up ?_); rfl)
            | ((with_reducible refine Or.inr (hF.up ?_)); rfl) | (with_reducible exact Or.inl rfl) | (intro)
            | (split) | (with_reducible apply aerLog_moves) | (with_reducible apply cplDone_moves)
            | (with_reducible apply Moves.upd))

theorem execCompletionTimeout_moves {F : ℕ} {s t : State} {a0 : Part} {a1 : ℕ} (hF : Sub 687205778445 F) (h :
    Moves F s t) : ∃ u, (execCompletionTimeout a0 a1 t) = .next u ∧ Moves F s u := by
  unfold execCompletionTimeout
  refine ⟨_, rfl, ?_⟩
  repeat'
    (first | (with_reducible assumption) | ((with_reducible refine hF.up ?_); rfl)
            | ((with_reducible refine Or.inr (hF.up ?_)); rfl) | (with_reducible exact Or.inl rfl) | (intro)
            | (split) | (with_reducible apply cplTimeout_moves) | (with_reducible apply Moves.upd))

theorem execHintFetchDone_moves {F : ℕ} {s t : State} {a0 : Part} {a1 : Cpl} (hF : Sub 687961211919 F) (h :
    Moves F s t) : ∃ u, (execHintFetchDone a0 a1 t) = .next u ∧ Moves F s u := by
  unfold execHintFetchDone
  refine ⟨_, rfl, ?_⟩
  repeat'
    (first | (with_reducible assumption) | ((with_reducible refine hF.up ?_); rfl)
            | ((with_reducible refine Or.inr (hF.up ?_)); rfl) | (with_reducible exact Or.inl rfl) | (intro)
            | (split) | (with_reducible apply cplDone_moves) | (with_reducible apply Moves.upd))

theorem execPrefetch_moves {F : ℕ} {s t : State} {a0 : Part} (hF : Sub 47761103750175 F) (h : Moves F s t) : ∃ u,
    (execPrefetch a0 t) = .next u ∧ Moves F s u := by
  unfold execPrefetch
  refine ⟨_, rfl, ?_⟩
  repeat'
    (first | (with_reducible assumption) | ((with_reducible refine hF.up ?_); rfl) | (intro)
            | (with_reducible apply hintGo_moves))

theorem execHintPin_moves {F : ℕ} {s t : State} {a0 : Part} (hF : Sub 47761103750175 F) (h : Moves F s t) : ∃ u,
    (execHintPin a0 t) = .next u ∧ Moves F s u := by
  unfold execHintPin
  refine ⟨_, rfl, ?_⟩
  repeat'
    (first | (with_reducible assumption) | ((with_reducible refine hF.up ?_); rfl) | (intro)
            | (with_reducible apply hintGo_moves))

theorem execUnpin_moves {F : ℕ} {s t : State} {a0 : Part} (hF : Sub 47761103750175 F) (h : Moves F s t) : ∃ u,
    (execUnpin a0 t) = .next u ∧ Moves F s u := by
  unfold execUnpin
  refine ⟨_, rfl, ?_⟩
  repeat'
    (first | (with_reducible assumption) | ((with_reducible refine hF.up ?_); rfl) | (intro)
            | (with_reducible apply hintGo_moves))

theorem execCold_moves {F : ℕ} {s t : State} {a0 : Part} (hF : Sub 47761103750175 F) (h : Moves F s t) : ∃ u,
    (execCold a0 t) = .next u ∧ Moves F s u := by
  unfold execCold
  refine ⟨_, rfl, ?_⟩
  repeat'
    (first | (with_reducible assumption) | ((with_reducible refine hF.up ?_); rfl) | (intro)
            | (with_reducible apply hintGo_moves))

theorem execDiscard_moves {F : ℕ} {s t : State} {a0 : Part} (hF : Sub 47761103750175 F) (h : Moves F s t) : ∃ u,
    (execDiscard a0 t) = .next u ∧ Moves F s u := by
  unfold execDiscard
  refine ⟨_, rfl, ?_⟩
  repeat'
    (first | (with_reducible assumption) | ((with_reducible refine hF.up ?_); rfl) | (intro)
            | (with_reducible apply hintGo_moves))

theorem execHintCompact_moves {F : ℕ} {s t : State} {a0 : Part} (hF : Sub 47761103750175 F) (h : Moves F s t) : ∃ u,
    (execHintCompact a0 t) = .next u ∧ Moves F s u := by
  unfold execHintCompact
  refine ⟨_, rfl, ?_⟩
  repeat'
    (first | (with_reducible assumption) | ((with_reducible refine hF.up ?_); rfl) | (intro)
            | (with_reducible apply hintGo_moves))

end Sys2Proof.Machine
end

