-- ==== Sys2Proof/Laws/MovesSlots.lean ====
section
/-! SUPPORT. What the functions of Machine/Slots.lean keep, and the kinds of state they may change (`Moves`). -/

set_option linter.all false

namespace Sys2Proof.Machine

open Sys2Proof

theorem ioDrop_moves {F : ℕ} {s t : State} {a1 : Io} (hF : Sub 262145 F) (h : Moves F s t) : Moves F s (ioDrop t a1)
    := by
  unfold ioDrop
  repeat'
    (first | (with_reducible assumption) | ((with_reducible refine hF.up ?_); rfl) | (intro)
            | (with_reducible apply endIosIf_moves))

theorem reissue_moves {F : ℕ} {s t : State} {a1 : Slot} {a2 : Io → Bool} {a3 : Sys2Proof.Path} (hF : Sub 262145 F)
    (h : Moves F s t) : Moves F s (reissue t a1 a2 a3) := by
  unfold reissue
  repeat'
    (first | (with_reducible assumption) | ((with_reducible refine hF.up ?_); rfl)
            | ((with_reducible refine Or.inr (hF.up ?_)); rfl) | (with_reducible exact Or.inl rfl) | (intro)
            | (extract_lets +onlyGivenNames x; have hx : Moves F s x := ?_; (on_goal 1 => clear_value x); (on_goal 2 => subst x))
            | (extract_lets +onlyGivenNames x; clear_value x) | (with_reducible apply Moves.ite)
            | (with_reducible apply emit_moves) | (with_reducible apply Moves.foldl)
            | (with_reducible apply Moves.upd))

theorem ioGood_moves {F : ℕ} {s t : State} {a1 : ℕ} (hF : Sub 262144 F) (h : Moves F s t) : Moves F s (ioGood t a1)
    := by
  unfold ioGood
  repeat'
    (first | (with_reducible assumption) | ((with_reducible refine hF.up ?_); rfl)
            | ((with_reducible refine Or.inr (hF.up ?_)); rfl) | (with_reducible exact Or.inl rfl) | (intro)
            | (with_reducible apply slotUpd_moves) | (with_reducible apply Moves.upd))

theorem nvmeOn_moves {F : ℕ} {s t : State} {a1 : Slot} {a2 : Sys2Proof.Path} {a3 : NvmeOp} (hF : Sub 1 F) (h :
    Moves F s t) : Moves F s (nvmeOn t a1 a2 a3) := by
  unfold nvmeOn
  repeat'
    (first | (with_reducible assumption) | ((with_reducible refine hF.up ?_); rfl) | (intro)
            | (with_reducible apply Moves.ite) | (with_reducible apply emit_moves))

theorem initController_moves {F : ℕ} {s t : State} {a1 : Slot} {a2 : Sys2Proof.Path} (hF : Sub 1 F) (h :
    Moves F s t) : Moves F s (initController t a1 a2) := by
  unfold initController
  repeat'
    (first | (with_reducible assumption) | ((with_reducible refine hF.up ?_); rfl) | (intro)
            | (with_reducible apply nvmeOn_moves) | (with_reducible apply Moves.foldl))

theorem identify_moves {F : ℕ} {s t : State} {a1 : Slot} {a2 : Sys2Proof.Path} (hF : Sub 1 F) (h : Moves F s t) :
    Moves F s (identify t a1 a2) := by
  unfold identify
  repeat'
    (first | (with_reducible assumption) | ((with_reducible refine hF.up ?_); rfl) | (intro)
            | (with_reducible apply nvmeOn_moves) | (with_reducible apply Moves.foldl))

theorem setDegraded_moves {F : ℕ} {s t : State} {a1 : Bool} (hF : Sub 4 F) (h : Moves F s t) : Moves F s
    (setDegraded t a1) := by
  unfold setDegraded
  repeat'
    (first | (with_reducible assumption) | ((with_reducible refine hF.up ?_); rfl)
            | ((with_reducible refine Or.inr (hF.up ?_)); rfl) | (with_reducible exact Or.inl rfl) | (intro)
            | (with_reducible apply hupd_moves) | (with_reducible apply Moves.upd))

theorem unpowerSlot_moves {F : ℕ} {s t : State} {a1 : Slot} (hF : Sub 137439215617 F) (h : Moves F s t) : Moves F s
    (unpowerSlot t a1) := by
  unfold unpowerSlot
  repeat'
    (first | (with_reducible assumption) | ((with_reducible refine hF.up ?_); rfl)
            | ((with_reducible refine Or.inr (hF.up ?_)); rfl) | (with_reducible exact Or.inl rfl) | (intro)
            | (extract_lets +onlyGivenNames x; have hx : Moves F s x := ?_; (on_goal 1 => clear_value x); (on_goal 2 => subst x))
            | (extract_lets +onlyGivenNames x; clear_value x) | (with_reducible apply fset_moves)
            | (with_reducible apply emit_moves) | (with_reducible apply slotUpd_moves)
            | (with_reducible apply setPwrInd_moves) | (with_reducible apply Moves.upd))

theorem redoEvictions_moves {F : ℕ} {s t : State} {a1 : List ℕ} (hF : Sub 538312721 F) (h : Moves F s t) : Moves F s
    (redoEvictions t a1) := by
  unfold redoEvictions
  repeat'
    (first | (with_reducible assumption) | ((with_reducible refine hF.up ?_); rfl)
            | ((with_reducible refine Or.inr (hF.up ?_)); rfl) | (with_reducible exact Or.inl rfl) | (intro)
            | (extract_lets +onlyGivenNames x; have hx : Moves F s x := ?_; (on_goal 1 => clear_value x); (on_goal 2 => subst x))
            | (extract_lets +onlyGivenNames x; clear_value x) | (with_reducible apply Moves.ite) | (split)
            | (with_reducible apply stopWriteBack_moves) | (with_reducible apply dropBlock_moves)
            | (with_reducible apply unlockStripe_moves) | (with_reducible apply Moves.foldl)
            | (with_reducible apply Moves.upd))

theorem stopStripe_moves {F : ℕ} {s t : State} {a1 : ℕ} (hF : Sub 538312721 F) (h : Moves F s t) : Moves F s
    (stopStripe t a1) := by
  unfold stopStripe
  repeat'
    (first | (with_reducible assumption) | ((with_reducible refine hF.up ?_); rfl) | (intro)
            | (with_reducible apply endIosIf_moves) | (with_reducible apply unlockStripe_moves))

theorem markLost_moves {F : ℕ} {s t : State} (hF : Sub 1237547615261 F) (h : Moves F s t) : Moves F s (markLost t)
    := by
  unfold markLost
  repeat'
    (first | (with_reducible assumption) | ((with_reducible refine hF.up ?_); rfl)
            | ((with_reducible refine Or.inr (hF.up ?_)); rfl) | (with_reducible exact Or.inl rfl) | (intro)
            | (extract_lets +onlyGivenNames x; have hx : Moves F s x := ?_; (on_goal 1 => clear_value x); (on_goal 2 => subst x))
            | (extract_lets +onlyGivenNames x; clear_value x) | (with_reducible apply Moves.ite) | (split)
            | (with_reducible apply raise_moves) | (with_reducible apply frameMap_moves)
            | (with_reducible apply setLba_moves) | (with_reducible apply stopWriteBack_moves)
            | (with_reducible apply fillFailed_moves) | (with_reducible apply unlockStripe_moves)
            | (with_reducible apply Moves.foldl) | (with_reducible apply Moves.upd))

theorem ioLost_moves {F : ℕ} {s t : State} {a1 : IoKind} {a2 : ℕ} (hF : Sub 1237547615249 F) (h : Moves F s t) :
    Moves F s (ioLost t a1 a2) := by
  unfold ioLost
  repeat'
    (first | (with_reducible assumption) | ((with_reducible refine hF.up ?_); rfl)
            | ((with_reducible refine Or.inr (hF.up ?_)); rfl) | (with_reducible exact Or.inl rfl) | (intro)
            | (with_reducible apply Moves.ite) | (split) | (with_reducible apply endIos_moves)
            | (with_reducible apply issueFill_moves) | (with_reducible apply fillFailed_moves)
            | (with_reducible apply unlockStripe_moves) | (with_reducible apply redoEvictions_moves)
            | (with_reducible apply stopStripe_moves) | (with_reducible apply Moves.upd))

theorem dropSlotIos_moves {F : ℕ} {s t : State} {a1 : Slot} (hF : Sub 1237547615249 F) (h : Moves F s t) : Moves F s
    (dropSlotIos t a1) := by
  unfold dropSlotIos
  repeat'
    (first | (with_reducible assumption) | ((with_reducible refine hF.up ?_); rfl) | (intro)
            | (extract_lets +onlyGivenNames x; have hx : Moves F s x := ?_; (on_goal 1 => clear_value x); (on_goal 2 => subst x))
            | (extract_lets +onlyGivenNames x; clear_value x) | (with_reducible apply endIosIf_moves)
            | (with_reducible apply ioLost_moves) | (with_reducible apply Moves.foldl))

theorem leaveSet_moves {F : ℕ} {s t : State} {a1 : Slot} {a2 : ℕ} (hF : Sub 137977267229 F) (h : Moves F s t) :
    Moves F s (leaveSet t a1 a2) := by
  unfold leaveSet
  repeat'
    (first | (with_reducible assumption) | ((with_reducible refine hF.up ?_); rfl)
            | ((with_reducible refine Or.inr (hF.up ?_)); rfl) | (with_reducible exact Or.inl rfl) | (intro)
            | (extract_lets +onlyGivenNames x; have hx : Moves F s x := ?_; (on_goal 1 => clear_value x); (on_goal 2 => subst x))
            | (extract_lets +onlyGivenNames x; clear_value x) | (with_reducible apply Moves.ite) | (split)
            | (with_reducible apply fset_moves) | (with_reducible apply raise_moves)
            | (with_reducible apply setSlot_moves) | (with_reducible apply setDegraded_moves)
            | (with_reducible apply unpowerSlot_moves) | (with_reducible apply stopStripe_moves)
            | (with_reducible apply Moves.foldl) | (with_reducible apply Moves.upd))

theorem failSsd_moves {F : ℕ} {s t : State} {a1 : Slot} {a2 : ℕ} (hF : Sub 1237547615261 F) (h : Moves F s t) :
    Moves F s (failSsd t a1 a2) := by
  unfold failSsd
  repeat'
    (first | (with_reducible assumption) | ((with_reducible refine hF.up ?_); rfl) | (intro)
            | (extract_lets +onlyGivenNames x; have hx : Moves F s x := ?_; (on_goal 1 => clear_value x); (on_goal 2 => subst x))
            | (extract_lets +onlyGivenNames x; clear_value x) | (with_reducible apply Moves.ite) | (split)
            | (with_reducible apply setSlot_moves) | (with_reducible apply setFault_moves)
            | (with_reducible apply unpowerSlot_moves) | (with_reducible apply markLost_moves)
            | (with_reducible apply dropSlotIos_moves) | (with_reducible apply leaveSet_moves))

theorem removalGoesOn_moves {F : ℕ} {s t : State} {a1 : Slot} (hF : Sub 1237547615261 F) (h : Moves F s t) :
    Moves F s (removalGoesOn t a1) := by
  unfold removalGoesOn
  repeat'
    (first | (with_reducible assumption) | ((with_reducible refine hF.up ?_); rfl) | (intro)
            | (with_reducible apply Moves.ite) | (with_reducible apply nvmeOn_moves)
            | (with_reducible apply markLost_moves) | (with_reducible apply leaveSet_moves))

theorem rebuildReads_moves {F : ℕ} {s t : State} {a1 : ℕ} (hF : Sub 262145 F) (h : Moves F s t) : Moves F s
    (rebuildReads t a1) := by
  unfold rebuildReads
  repeat'
    (first | (with_reducible assumption) | ((with_reducible refine hF.up ?_); rfl) | (intro)
            | (extract_lets +onlyGivenNames x; have hx : Moves F s x := ?_; (on_goal 1 => clear_value x); (on_goal 2 => subst x))
            | (extract_lets +onlyGivenNames x; clear_value x) | (with_reducible apply issueIo_moves)
            | (with_reducible apply Moves.foldl))

theorem repairMember_moves {F : ℕ} {s t : State} {a1 : ℕ} (hF : Sub 262145 F) (h : Moves F s t) : Moves F s
    (repairMember t a1) := by
  unfold repairMember
  repeat'
    (first | (with_reducible assumption) | ((with_reducible refine hF.up ?_); rfl)
            | ((with_reducible refine Or.inr (hF.up ?_)); rfl) | (with_reducible exact Or.inl rfl) | (intro)
            | (extract_lets +onlyGivenNames x; have hx : Moves F s x := ?_; (on_goal 1 => clear_value x); (on_goal 2 => subst x))
            | (extract_lets +onlyGivenNames x; clear_value x) | (with_reducible apply Moves.ite) | (split)
            | (with_reducible apply issueIo_moves) | (with_reducible apply lockStripe_moves)
            | (with_reducible apply lockMap_moves) | (with_reducible apply Moves.upd))

theorem repairDone_moves {F : ℕ} {s t : State} {a1 : ℕ} (hF : Sub 538312721 F) (h : Moves F s t) : Moves F s
    (repairDone t a1) := by
  unfold repairDone
  repeat'
    (first | (with_reducible assumption) | ((with_reducible refine hF.up ?_); rfl) | (intro)
            | (extract_lets +onlyGivenNames x; have hx : Moves F s x := ?_; (on_goal 1 => clear_value x); (on_goal 2 => subst x))
            | (extract_lets +onlyGivenNames x; clear_value x) | (with_reducible apply placeWrite_moves)
            | (with_reducible apply unlockStripe_moves))

theorem fillReads_moves {F : ℕ} {s t : State} {a1 : ℕ} (hF : Sub 47692383716383 F) (h : Moves F s t) : Moves F s
    (fillReads t a1) := by
  unfold fillReads
  repeat'
    (first | (with_reducible assumption) | ((with_reducible refine hF.up ?_); rfl) | (intro)
            | (extract_lets +onlyGivenNames x; have hx : Moves F s x := ?_; (on_goal 1 => clear_value x); (on_goal 2 => subst x))
            | (extract_lets +onlyGivenNames x; clear_value x) | (with_reducible apply Moves.ite) | (split)
            | (with_reducible apply fillDone_moves) | (with_reducible apply ioGood_moves)
            | (with_reducible apply repairMember_moves) | (with_reducible apply Moves.foldl))

theorem fillReadFailed_moves {F : ℕ} {s t : State} {a1 : ℕ} (hF : Sub 1237547615249 F) (h : Moves F s t) : Moves F s
    (fillReadFailed t a1) := by
  unfold fillReadFailed
  repeat'
    (first | (with_reducible assumption) | ((with_reducible refine hF.up ?_); rfl) | (intro)
            | (with_reducible apply Moves.ite) | (with_reducible apply endIos_moves)
            | (with_reducible apply fillFailed_moves) | (with_reducible apply rebuildReads_moves))

theorem oldReadFailed_moves {F : ℕ} {s t : State} {a1 : ℕ} (hF : Sub 538312721 F) (h : Moves F s t) : Moves F s
    (oldReadFailed t a1) := by
  unfold oldReadFailed
  repeat'
    (first | (with_reducible assumption) | ((with_reducible refine hF.up ?_); rfl) | (intro)
            | (extract_lets +onlyGivenNames x; have hx : Moves F s x := ?_; (on_goal 1 => clear_value x); (on_goal 2 => subst x))
            | (extract_lets +onlyGivenNames x; clear_value x) | (with_reducible apply Moves.ite)
            | (with_reducible apply issueIo_moves) | (with_reducible apply endIos_moves)
            | (with_reducible apply redoEvictions_moves) | (with_reducible apply Moves.foldl))

theorem reclaimCounts_moves {F : ℕ} {s t : State} {a1 : Bool} {a2 : Frame} (hF : Sub 262144 F) (h : Moves F s t) :
    Moves F s (reclaimCounts t a1 a2) := by
  unfold reclaimCounts
  repeat'
    (first | (with_reducible assumption) | ((with_reducible refine hF.up ?_); rfl)
            | ((with_reducible refine Or.inr (hF.up ?_)); rfl) | (with_reducible exact Or.inl rfl) | (intro)
            | (extract_lets +onlyGivenNames x; have hx : Moves F s x := ?_; (on_goal 1 => clear_value x); (on_goal 2 => subst x))
            | (extract_lets +onlyGivenNames x; clear_value x) | (with_reducible apply Moves.ite)
            | (with_reducible apply Moves.upd))

theorem takeVictim_moves {F : ℕ} {s t : State} {a1 : ℕ} (hF : Sub 47692383716383 F) (h : Moves F s t) : Moves F s
    (takeVictim t a1) := by
  unfold takeVictim
  repeat'
    (first | (with_reducible assumption) | ((with_reducible refine hF.up ?_); rfl)
            | ((with_reducible refine Or.inr (hF.up ?_)); rfl) | (with_reducible exact Or.inl rfl) | (intro)
            | (extract_lets +onlyGivenNames x; have hx : Moves F s x := ?_; (on_goal 1 => clear_value x); (on_goal 2 => subst x))
            | (extract_lets +onlyGivenNames x; clear_value x) | (with_reducible apply Moves.ite) | (split)
            | (with_reducible apply freeFrame_moves) | (with_reducible apply startWriteBack_moves)
            | (with_reducible apply retryFills_moves) | (with_reducible apply reclaimCounts_moves)
            | (with_reducible apply Moves.upd))

theorem evictionDone_moves {F : ℕ} {s t : State} {a1 : ℕ} (hF : Sub 47692383716383 F) (h : Moves F s t) : Moves F s
    (evictionDone t a1) := by
  unfold evictionDone
  repeat'
    (first | (with_reducible assumption) | ((with_reducible refine hF.up ?_); rfl) | (intro)
            | (extract_lets +onlyGivenNames x; have hx : Moves F s x := ?_; (on_goal 1 => clear_value x); (on_goal 2 => subst x))
            | (extract_lets +onlyGivenNames x; clear_value x) | (with_reducible apply writeBackDone_moves)
            | (with_reducible apply retryFills_moves) | (with_reducible apply ioGood_moves)
            | (with_reducible apply removalGoesOn_moves) | (with_reducible apply Moves.foldl))

theorem startRebuild_moves {F : ℕ} {s t : State} (hF : Sub 137438953472 F) (h : Moves F s t) : Moves F s
    (startRebuild t) := by
  unfold startRebuild
  repeat'
    (first | (with_reducible assumption) | ((with_reducible refine hF.up ?_); rfl)
            | ((with_reducible refine Or.inr (hF.up ?_)); rfl) | (with_reducible exact Or.inl rfl) | (intro)
            | (with_reducible apply Moves.ite) | (split) | (with_reducible apply fset_moves)
            | (with_reducible apply Moves.upd))

theorem stripeDone_moves {F : ℕ} {s t : State} {a1 : ℕ} (hF : Sub 538312721 F) (h : Moves F s t) : Moves F s
    (stripeDone t a1) := by
  unfold stripeDone
  repeat'
    (first | (with_reducible assumption) | ((with_reducible refine hF.up ?_); rfl)
            | ((with_reducible refine Or.inr (hF.up ?_)); rfl) | (with_reducible exact Or.inl rfl) | (intro)
            | (extract_lets +onlyGivenNames x; have hx : Moves F s x := ?_; (on_goal 1 => clear_value x); (on_goal 2 => subst x))
            | (extract_lets +onlyGivenNames x; clear_value x) | (with_reducible apply frameMap_moves)
            | (with_reducible apply endIosIf_moves) | (with_reducible apply placeWrite_moves)
            | (with_reducible apply unlockStripe_moves) | (with_reducible apply Moves.foldl)
            | (with_reducible apply Moves.upd))

theorem writeFresh_moves {F : ℕ} {s t : State} {a1 : ℕ} {a2 : ℕ} {a3 : List Byte} (hF : Sub 262145 F) (h :
    Moves F s t) : Moves F s (writeFresh t a1 a2 a3) := by
  unfold writeFresh
  repeat'
    (first | (with_reducible assumption) | ((with_reducible refine hF.up ?_); rfl)
            | ((with_reducible refine Or.inr (hF.up ?_)); rfl) | (with_reducible exact Or.inl rfl)
            | (extract_lets +onlyGivenNames x; have hx : Moves F s x := ?_; (on_goal 1 => clear_value x); (on_goal 2 => subst x))
            | (extract_lets +onlyGivenNames x; clear_value x) | (split) | (with_reducible apply issueIo_moves)
            | (with_reducible apply Moves.upd))

theorem stripeWrites_moves {F : ℕ} {s t : State} {a1 : ℕ} (hF : Sub 538312721 F) (h : Moves F s t) : Moves F s
    (stripeWrites t a1) := by
  unfold stripeWrites
  repeat'
    (first | (with_reducible assumption) | ((with_reducible refine hF.up ?_); rfl) | (intro)
            | (extract_lets +onlyGivenNames x; have hx : Moves F s x := ?_; (on_goal 1 => clear_value x); (on_goal 2 => subst x))
            | (extract_lets +onlyGivenNames x; clear_value x) | (with_reducible apply Moves.ite) | (split)
            | (with_reducible apply endIos_moves) | (with_reducible apply writePlace_moves)
            | (with_reducible apply stripeDone_moves) | (with_reducible apply writeFresh_moves)
            | (with_reducible apply Moves.foldl))

theorem rebuildBegin_moves {F : ℕ} {s t : State} {a1 : ℕ} (hF : Sub 538312721 F) (h : Moves F s t) : Moves F s
    (rebuildBegin t a1) := by
  unfold rebuildBegin
  repeat'
    (first | (with_reducible assumption) | ((with_reducible refine hF.up ?_); rfl)
            | ((with_reducible refine Or.inr (hF.up ?_)); rfl) | (with_reducible exact Or.inl rfl) | (intro)
            | (extract_lets +onlyGivenNames x; have hx : Moves F s x := ?_; (on_goal 1 => clear_value x); (on_goal 2 => subst x))
            | (extract_lets +onlyGivenNames x; clear_value x) | (with_reducible apply Moves.ite) | (split)
            | (with_reducible apply issueIo_moves) | (with_reducible apply lockStripe_moves)
            | (with_reducible apply stripeWrites_moves) | (with_reducible apply Moves.foldl)
            | (with_reducible apply Moves.upd))

theorem rebuildTick_moves {F : ℕ} {s t : State} (hF : Sub 538312721 F) (h : Moves F s t) : Moves F s (rebuildTick t)
    := by
  unfold rebuildTick
  repeat'
    (first | (with_reducible assumption) | ((with_reducible refine hF.up ?_); rfl)
            | ((with_reducible refine Or.inr (hF.up ?_)); rfl) | (with_reducible exact Or.inl rfl) | (intro)
            | (extract_lets +onlyGivenNames x; have hx : Moves F s x := ?_; (on_goal 1 => clear_value x); (on_goal 2 => subst x))
            | (extract_lets +onlyGivenNames x; clear_value x) | (with_reducible apply Moves.ite)
            | (with_reducible apply rebuildBegin_moves) | (with_reducible apply Moves.foldl)
            | (with_reducible apply Moves.upd))

theorem rebuildStep_moves {F : ℕ} {s t : State} {a1 : ℕ} (hF : Sub 538312721 F) (h : Moves F s t) : Moves F s
    (rebuildStep t a1) := by
  unfold rebuildStep
  repeat'
    (first | (with_reducible assumption) | ((with_reducible refine hF.up ?_); rfl)
            | ((with_reducible refine Or.inr (hF.up ?_)); rfl) | (with_reducible exact Or.inl rfl) | (intro)
            | (extract_lets +onlyGivenNames x; have hx : Moves F s x := ?_; (on_goal 1 => clear_value x); (on_goal 2 => subst x))
            | (extract_lets +onlyGivenNames x; clear_value x) | (split) | (with_reducible apply ioGood_moves)
            | (with_reducible apply stripeDone_moves) | (with_reducible apply rebuildBegin_moves)
            | (with_reducible apply Moves.foldl) | (with_reducible apply Moves.upd))

theorem endRebuild_moves {F : ℕ} {s t : State} (hF : Sub 137439216653 F) (h : Moves F s t) : Moves F s
    (endRebuild t) := by
  unfold endRebuild
  repeat'
    (first | (with_reducible assumption) | ((with_reducible refine hF.up ?_); rfl)
            | ((with_reducible refine Or.inr (hF.up ?_)); rfl) | (with_reducible exact Or.inl rfl) | (intro)
            | (extract_lets +onlyGivenNames x; have hx : Moves F s x := ?_; (on_goal 1 => clear_value x); (on_goal 2 => subst x))
            | (extract_lets +onlyGivenNames x; clear_value x) | (with_reducible apply fset_moves)
            | (with_reducible apply raise_moves) | (with_reducible apply setSlot_moves)
            | (with_reducible apply setPwrInd_moves) | (with_reducible apply setDegraded_moves)
            | (with_reducible apply Moves.foldl) | (with_reducible apply Moves.upd))

theorem ioTimedOut_moves {F : ℕ} {s t : State} {a1 : Io} (hF : Sub 1237547615261 F) (h : Moves F s t) : Moves F s
    (ioTimedOut t a1) := by
  unfold ioTimedOut
  repeat'
    (first | (with_reducible assumption) | ((with_reducible refine hF.up ?_); rfl)
            | ((with_reducible refine Or.inr (hF.up ?_)); rfl) | (with_reducible exact Or.inl rfl) | (intro)
            | (extract_lets +onlyGivenNames x; have hx : Moves F s x := ?_; (on_goal 1 => clear_value x); (on_goal 2 => subst x))
            | (extract_lets +onlyGivenNames x; clear_value x) | (with_reducible apply Moves.ite) | (split)
            | (with_reducible apply finc_moves) | (with_reducible apply emit_moves)
            | (with_reducible apply slotUpd_moves) | (with_reducible apply issueIo_moves)
            | (with_reducible apply ioDrop_moves) | (with_reducible apply ioLost_moves)
            | (with_reducible apply failSsd_moves) | (with_reducible apply removalGoesOn_moves)
            | (with_reducible apply fillReadFailed_moves) | (with_reducible apply oldReadFailed_moves)
            | (with_reducible apply Moves.upd))

theorem refuseSsd_moves {F : ℕ} {s t : State} {a1 : Slot} {a2 : ℕ} (hF : Sub 137439216653 F) (h : Moves F s t) :
    Moves F s (refuseSsd t a1 a2) := by
  unfold refuseSsd
  repeat'
    (first | (with_reducible assumption) | ((with_reducible refine hF.up ?_); rfl)
            | (with_reducible apply raise_moves) | (with_reducible apply setSlot_moves)
            | (with_reducible apply setFault_moves) | (with_reducible apply unpowerSlot_moves))

theorem admitSsd_moves {F : ℕ} {s t : State} {a1 : Slot} {a2 : ℕ} (hF : Sub 137439216653 F) (h : Moves F s t) :
    Moves F s (admitSsd t a1 a2) := by
  unfold admitSsd
  repeat'
    (first | (with_reducible assumption) | ((with_reducible refine hF.up ?_); rfl)
            | ((with_reducible refine Or.inr (hF.up ?_)); rfl) | (with_reducible exact Or.inl rfl)
            | (with_reducible exact fun h => Memory.wf_write h _ _)
            | (with_reducible exact fun h => Memory.wf_write (Memory.wf_zero h _ _) _ _)
            | (with_reducible exact fun h => Memory.wf_zero h _ _) | (with_reducible exact id)
            | (with_reducible exact fun _ => Memory.wf_nil) | (intro)
            | (extract_lets +onlyGivenNames x; have hx : Moves F s x := ?_; (on_goal 1 => clear_value x); (on_goal 2 => subst x))
            | (extract_lets +onlyGivenNames x; clear_value x) | (with_reducible apply Moves.ite)
            | (with_reducible apply slotUpd_moves) | (with_reducible apply issueIo_moves)
            | (with_reducible apply setSlot_moves) | (with_reducible apply setPwrInd_moves)
            | (with_reducible apply setFault_moves) | (with_reducible apply initController_moves)
            | (with_reducible apply startRebuild_moves) | (with_reducible apply Moves.upd)
            | (with_reducible apply Moves.updMem))

theorem checkSsd_moves {F : ℕ} {s t : State} {a1 : Slot} {a2 : Sys2Proof.SsdInfo} (hF : Sub 137439216653 F) (h :
    Moves F s t) : Moves F s (checkSsd t a1 a2) := by
  unfold checkSsd
  repeat'
    (first | (with_reducible assumption) | ((with_reducible refine hF.up ?_); rfl) | (intro)
            | (extract_lets +onlyGivenNames x; have hx : Moves F s x := ?_; (on_goal 1 => clear_value x); (on_goal 2 => subst x))
            | (extract_lets +onlyGivenNames x; clear_value x) | (with_reducible apply Moves.ite)
            | (with_reducible apply fset_moves) | (with_reducible apply emit_moves)
            | (with_reducible apply identify_moves) | (with_reducible apply refuseSsd_moves)
            | (with_reducible apply admitSsd_moves))

theorem insertSsd_moves {F : ℕ} {s t : State} {a1 : Slot} (hF : Sub 137439216653 F) (h : Moves F s t) : Moves F s
    (insertSsd t a1) := by
  unfold insertSsd
  repeat'
    (first | (with_reducible assumption) | ((with_reducible refine hF.up ?_); rfl)
            | ((with_reducible refine Or.inr (hF.up ?_)); rfl) | (with_reducible exact Or.inl rfl) | (intro)
            | (extract_lets +onlyGivenNames x; have hx : Moves F s x := ?_; (on_goal 1 => clear_value x); (on_goal 2 => subst x))
            | (extract_lets +onlyGivenNames x; clear_value x) | (with_reducible apply Moves.ite)
            | (with_reducible apply fset_moves) | (with_reducible apply slotUpd_moves)
            | (with_reducible apply slotChange_moves) | (with_reducible apply setFault_moves)
            | (with_reducible apply Moves.upd))

theorem debounceEnd_moves {F : ℕ} {s t : State} {a1 : Slot} (hF : Sub 137439216653 F) (h : Moves F s t) : Moves F s
    (debounceEnd t a1) := by
  unfold debounceEnd
  repeat'
    (first | (with_reducible assumption) | ((with_reducible refine hF.up ?_); rfl)
            | ((with_reducible refine Or.inr (hF.up ?_)); rfl) | (with_reducible exact Or.inl rfl) | (intro)
            | (extract_lets +onlyGivenNames x; have hx : Moves F s x := ?_; (on_goal 1 => clear_value x); (on_goal 2 => subst x))
            | (extract_lets +onlyGivenNames x; clear_value x) | (with_reducible apply Moves.ite)
            | (with_reducible apply slotUpd_moves) | (with_reducible apply powerSlot_moves)
            | (with_reducible apply Moves.upd))

theorem pressButton_moves {F : ℕ} {s t : State} {a1 : Slot} (hF : Sub 137439216653 F) (h : Moves F s t) : Moves F s
    (pressButton t a1) := by
  unfold pressButton
  repeat'
    (first | (with_reducible assumption) | ((with_reducible refine hF.up ?_); rfl)
            | ((with_reducible refine Or.inr (hF.up ?_)); rfl) | (with_reducible exact Or.inl rfl) | (intro)
            | (extract_lets +onlyGivenNames x; have hx : Moves F s x := ?_; (on_goal 1 => clear_value x); (on_goal 2 => subst x))
            | (extract_lets +onlyGivenNames x; clear_value x) | (with_reducible apply Moves.ite) | (split)
            | (with_reducible apply slotUpd_moves) | (with_reducible apply raise_moves)
            | (with_reducible apply setPwrInd_moves) | (with_reducible apply Moves.upd))

theorem buttonEnd_moves {F : ℕ} {s t : State} {a1 : Slot} (hF : Sub 1237547615261 F) (h : Moves F s t) : Moves F s
    (buttonEnd t a1) := by
  unfold buttonEnd
  repeat'
    (first | (with_reducible assumption) | ((with_reducible refine hF.up ?_); rfl)
            | ((with_reducible refine Or.inr (hF.up ?_)); rfl) | (with_reducible exact Or.inl rfl) | (intro)
            | (extract_lets +onlyGivenNames x; have hx : Moves F s x := ?_; (on_goal 1 => clear_value x); (on_goal 2 => subst x))
            | (extract_lets +onlyGivenNames x; clear_value x) | (with_reducible apply Moves.ite) | (split)
            | (with_reducible apply slotUpd_moves) | (with_reducible apply setSlot_moves)
            | (with_reducible apply setPwrInd_moves) | (with_reducible apply powerSlot_moves)
            | (with_reducible apply removalGoesOn_moves) | (with_reducible apply Moves.upd))

theorem lockLate_moves {F : ℕ} {s t : State} {a1 : ℕ} (hF : Sub 262144 F) (h : Moves F s t) : Moves F s
    (lockLate t a1) := by
  unfold lockLate
  repeat'
    (first | (with_reducible assumption) | ((with_reducible refine hF.up ?_); rfl)
            | ((with_reducible refine Or.inr (hF.up ?_)); rfl) | (with_reducible exact Or.inl rfl) | (intro)
            | (with_reducible apply Moves.ite) | (split) | (with_reducible apply lockStripe_moves)
            | (with_reducible apply lockMap_moves) | (with_reducible apply Moves.upd))

theorem losePath_moves {F : ℕ} {s t : State} {k : Slot} {p : Path} (hF : Sub 137439216653 F) (h : Moves F s t) :
    Moves F s (losePath t k p) := by
  unfold losePath
  refine .ite (fun _ => ?_) (fun _ => h)
  extract_lets v w x
  have hv : Moves F s v := fset_moves (by cases p <;> exact hF.up rfl) h
  clear_value v
  have hw : Moves F s w := raise_moves (hF.up rfl) hv
  clear_value w
  have hx : Moves F s x := Moves.foldl (fun u i hu => lockLate_moves (hF.up rfl) hu) _ hw
  clear_value x
  exact .ite (fun _ => reissue_moves (hF.up rfl) hx) (fun _ => hx)

theorem returnPath_moves {F : ℕ} {s t : State} {k : Slot} {p : Path} (hF : Sub 137439215617 F) (h : Moves F s t) :
    Moves F s (returnPath t k p) := by
  unfold returnPath
  extract_lets both v w
  have hv : Moves F s v := fset_moves (by cases p <;> exact hF.up rfl) h
  clear_value v
  have hw : Moves F s w := initController_moves (hF.up rfl) (nvmeOn_moves (hF.up rfl) hv)
  clear_value w
  exact .ite (fun _ => reissue_moves (hF.up rfl) hw) (fun _ => hw)

theorem lockExpiry_moves {F : ℕ} {s t : State} {a1 : ℕ} {a2 : ℕ} (hF : Sub 538312721 F) (h : Moves F s t) :
    Moves F s (lockExpiry t a1 a2) := by
  unfold lockExpiry
  repeat'
    (first | (with_reducible assumption) | ((with_reducible refine hF.up ?_); rfl)
            | ((with_reducible refine Or.inr (hF.up ?_)); rfl) | (with_reducible exact Or.inl rfl) | (intro)
            | (extract_lets +onlyGivenNames x; have hx : Moves F s x := ?_; (on_goal 1 => clear_value x); (on_goal 2 => subst x))
            | (extract_lets +onlyGivenNames x; clear_value x) | (with_reducible apply Moves.ite)
            | (with_reducible apply unlockStripe_moves) | (with_reducible apply Moves.upd))

theorem compactEnd_moves {F : ℕ} {s t : State} {a1 : ℕ} (hF : Sub 1048576 F) (h : Moves F s t) : Moves F s
    (compactEnd t a1) := by
  unfold compactEnd
  repeat'
    (first | (with_reducible assumption) | ((with_reducible refine hF.up ?_); rfl)
            | ((with_reducible refine Or.inr (hF.up ?_)); rfl) | (with_reducible exact Or.inl rfl)
            | (with_reducible apply Moves.upd))

theorem putTable_moves {F : ℕ} {s t : State} {a1 : ℕ} {a2 : Option (Bool × List ℕ)} (hF : Sub 1048576 F) (h :
    Moves F s t) : Moves F s (putTable t a1 a2) := by
  unfold putTable
  repeat'
    (first | (with_reducible assumption) | ((with_reducible refine hF.up ?_); rfl)
            | ((with_reducible refine Or.inr (hF.up ?_)); rfl) | (with_reducible exact Or.inl rfl) | (intro)
            | (extract_lets +onlyGivenNames x; have hx : Moves F s x := ?_; (on_goal 1 => clear_value x); (on_goal 2 => subst x))
            | (extract_lets +onlyGivenNames x; clear_value x) | (with_reducible apply Moves.ite) | (split)
            | (with_reducible apply Moves.upd))

theorem compactSource_moves {F : ℕ} {s t : State} {a1 : ℕ} (hF : Sub 11270867649565 F) (h : Moves F s t) : Moves F s
    (compactSource t a1).1 := by
  unfold compactSource
  repeat'
    (first | (with_reducible assumption) | ((with_reducible refine hF.up ?_); rfl)
            | ((with_reducible refine Or.inr (hF.up ?_)); rfl) | (with_reducible exact Or.inl rfl) | (intro)
            | (with_reducible apply Moves.ite) | (split)
            | (refine readForm_movesE (by with_reducible assumption) (hF.up rfl) ?_)
            | (with_reducible apply readForm_moves)
            | (refine decodeBlock_movesE (by with_reducible assumption) (hF.up rfl) ?_)
            | (with_reducible apply decodeBlock_moves) | (with_reducible apply Moves.upd))

theorem compactSource_movesE {F : ℕ} {s t : State} {a1 : ℕ} {u : State} {x : Option (List Byte)} (e :
    (compactSource t a1) = (u, x)) (hF : Sub 11270867649565 F) (h : Moves F s t) : Moves F s u := by
  have k : Moves F s (compactSource t a1).1 := compactSource_moves hF h
  rwa [e] at k

theorem verdictOf_moves {F : ℕ} {s t : State} {a1 : ℕ} {a2 : List Byte} {a3 : ℕ} {a4 : List Byte} (hF
    : Sub 274878955520 F) (h : Moves F s t) : Moves F s (verdictOf t a1 a2 a3 a4).1 := by
  unfold verdictOf
  repeat'
    (first | (with_reducible assumption) | ((with_reducible refine hF.up ?_); rfl)
            | ((with_reducible refine Or.inr (hF.up ?_)); rfl) | (with_reducible exact Or.inl rfl) | (intro)
            | (extract_lets +onlyGivenNames x; have hx : Moves F s x := ?_; (on_goal 1 => clear_value x); (on_goal 2 => subst x))
            | (extract_lets +onlyGivenNames x; clear_value x) | (with_reducible apply Moves.ite) | (split)
            | (with_reducible apply expanded_moves) | (with_reducible apply Moves.upd))

theorem verdictOf_movesE {F : ℕ} {s t : State} {a1 : ℕ} {a2 : List Byte} {a3 : ℕ} {a4 : List Byte} {u : State} {x
    : Option Bool} (e : (verdictOf t a1 a2 a3 a4) = (u, x)) (hF : Sub 274878955520 F) (h : Moves F s t) :
    Moves F s u := by
  have k : Moves F s (verdictOf t a1 a2 a3 a4).1 := verdictOf_moves hF h
  rwa [e] at k

theorem verifyFailed_moves {F : ℕ} {s t : State} {a1 : ℕ} (hF : Sub 274877907981 F) (h : Moves F s t) : Moves F s
    (verifyFailed t a1) := by
  unfold verifyFailed
  repeat'
    (first | (with_reducible assumption) | ((with_reducible refine hF.up ?_); rfl)
            | (with_reducible apply finc_moves) | (with_reducible apply raise_moves))

theorem storeForm_moves {F : ℕ} {s t : State} {a1 : ℕ} {a2 : ℕ} {a3 : List Byte} (hF : Sub 275415957520 F) (h :
    Moves F s t) : Moves F s (storeForm t a1 a2 a3) := by
  unfold storeForm
  repeat'
    (first | (with_reducible assumption) | ((with_reducible refine hF.up ?_); rfl) | (intro)
            | (extract_lets +onlyGivenNames x; have hx : Moves F s x := ?_; (on_goal 1 => clear_value x); (on_goal 2 => subst x))
            | (extract_lets +onlyGivenNames x; clear_value x) | (with_reducible apply Moves.ite) | (split)
            | (with_reducible apply finc_moves) | (with_reducible apply putBlock_moves)
            | (with_reducible apply segMark_moves) | (with_reducible apply makeRaw_moves)
            | (with_reducible apply packFrame_moves) | (with_reducible apply setIdx_moves)
            | (with_reducible apply dirtied_moves))

theorem storeRaw_moves {F : ℕ} {s t : State} {a1 : ℕ} (hF : Sub 11270868042781 F) (h : Moves F s t) : Moves F s
    (storeRaw t a1) := by
  unfold storeRaw
  repeat'
    (first | (with_reducible assumption) | ((with_reducible refine hF.up ?_); rfl)
            | (with_reducible apply finc_moves) | (with_reducible apply expandBlock_moves))

theorem commitForm_moves {F : ℕ} {s t : State} {a1 : ℕ} {a2 : List Byte} {a3 : ℕ} {a4 : List Byte} {a5 : Option
    (Bool × List ℕ)} (hF : Sub 11270868042781 F) (h : Moves F s t) : Moves F s (commitForm t a1 a2 a3 a4 a5) := by
  unfold commitForm
  repeat'
    (first | (with_reducible assumption) | ((with_reducible refine hF.up ?_); rfl)
            | ((with_reducible refine Or.inr (hF.up ?_)); rfl) | (with_reducible exact Or.inl rfl) | (intro)
            | (with_reducible apply Moves.ite) | (split) | (with_reducible apply finc_moves)
            | (with_reducible apply expandBlock_moves) | (with_reducible apply compactEnd_moves)
            | (with_reducible apply putTable_moves)
            | (refine compactSource_movesE (by with_reducible assumption) (hF.up rfl) ?_)
            | (with_reducible apply compactSource_moves)
            | (refine verdictOf_movesE (by with_reducible assumption) (hF.up rfl) ?_)
            | (with_reducible apply verdictOf_moves) | (with_reducible apply verifyFailed_moves)
            | (with_reducible apply storeForm_moves) | (with_reducible apply storeRaw_moves)
            | (with_reducible apply Moves.upd))

theorem compactCommit_moves {F : ℕ} {s t : State} {a1 : ℕ} {a2 : List Byte} {a3 : ℕ} {a4 : List Byte} {a5 : Option
    (Bool × List ℕ)} (hF : Sub 11270868042781 F) (h : Moves F s t) : Moves F s (compactCommit t a1 a2 a3 a4 a5)
    := by
  unfold compactCommit
  repeat'
    (first | (with_reducible assumption) | ((with_reducible refine hF.up ?_); rfl)
            | ((with_reducible refine Or.inr (hF.up ?_)); rfl) | (with_reducible exact Or.inl rfl) | (intro)
            | (with_reducible apply Moves.ite) | (split) | (with_reducible apply journalSend_moves)
            | (with_reducible apply compactEnd_moves) | (with_reducible apply putTable_moves)
            | (refine verdictOf_movesE (by with_reducible assumption) (hF.up rfl) ?_)
            | (with_reducible apply verdictOf_moves) | (with_reducible apply verifyFailed_moves)
            | (with_reducible apply commitForm_moves) | (with_reducible apply Moves.upd))

theorem readsDone_moves {F : ℕ} {s t : State} {a1 : IoKind} {a2 : ℕ} (hF : Sub 47692383716383 F) (h : Moves F s t) :
    Moves F s (readsDone t a1 a2) := by
  unfold readsDone
  repeat'
    (first | (with_reducible assumption) | ((with_reducible refine hF.up ?_); rfl)
            | ((with_reducible refine Or.inr (hF.up ?_)); rfl) | (with_reducible exact Or.inl rfl) | (split)
            | (with_reducible apply writesGo_moves) | (with_reducible apply fillReads_moves)
            | (with_reducible apply stripeWrites_moves) | (with_reducible apply Moves.upd))

theorem readsFailed_moves {F : ℕ} {s t : State} {a1 : IoKind} {a2 : ℕ} (hF : Sub 1237547615249 F) (h : Moves F s t)
    : Moves F s (readsFailed t a1 a2) := by
  unfold readsFailed
  repeat'
    (first | (with_reducible assumption) | ((with_reducible refine hF.up ?_); rfl)
            | ((with_reducible refine Or.inr (hF.up ?_)); rfl) | (with_reducible exact Or.inl rfl) | (split)
            | (with_reducible apply stopStripe_moves) | (with_reducible apply fillReadFailed_moves)
            | (with_reducible apply oldReadFailed_moves) | (with_reducible apply Moves.upd))

theorem readError_moves {F : ℕ} {s t : State} {a1 : Io} (hF : Sub 137438953473 F) (h : Moves F s t) : Moves F s
    (readError t a1) := by
  unfold readError
  repeat'
    (first | (with_reducible assumption) | ((with_reducible refine hF.up ?_); rfl)
            | (with_reducible apply finc_moves) | (with_reducible apply nvmeOn_moves))

theorem execFillComplete_moves {F : ℕ} {s t : State} {a0 : ℕ} {a1 : Bool} (hF : Sub 47692383716383 F) (h :
    Moves F s t) : ∃ u, (execFillComplete a0 a1 t) = .next u ∧ Moves F s u := by
  unfold execFillComplete
  refine ⟨_, rfl, ?_⟩
  repeat'
    (first | (with_reducible assumption) | ((with_reducible refine hF.up ?_); rfl)
            | ((with_reducible refine Or.inr (hF.up ?_)); rfl) | (with_reducible exact Or.inl rfl) | (intro)
            | (with_reducible apply Moves.ite) | (split) | (with_reducible apply readsDone_moves)
            | (with_reducible apply readsFailed_moves) | (with_reducible apply readError_moves)
            | (with_reducible apply Moves.upd))

theorem execIoTimeout_moves {F : ℕ} {s t : State} {a0 : Slot} {a1 : ℕ} (hF : Sub 1237547615261 F) (h : Moves F s t)
    : ∃ u, (execIoTimeout a0 a1 t) = .next u ∧ Moves F s u := by
  unfold execIoTimeout
  refine ⟨_, rfl, ?_⟩
  repeat'
    (first | (with_reducible assumption) | ((with_reducible refine hF.up ?_); rfl)
            | ((with_reducible refine Or.inr (hF.up ?_)); rfl) | (with_reducible exact Or.inl rfl) | (intro)
            | (split) | (with_reducible apply ioTimedOut_moves) | (with_reducible apply Moves.upd))

theorem execEvictionStart_moves {F : ℕ} {s t : State} {a0 : Cluster} (hF : Sub 47692383716383 F) (h : Moves F s t) :
    ∃ u, (execEvictionStart a0 t) = .next u ∧ Moves F s u := by
  unfold execEvictionStart
  refine ⟨_, rfl, ?_⟩
  repeat'
    (first | (with_reducible assumption) | ((with_reducible refine hF.up ?_); rfl) | (intro)
            | (with_reducible apply takeVictim_moves))

theorem execEvictionComplete_moves {F : ℕ} {s t : State} {a0 : ℕ} (hF : Sub 47692383716383 F) (h : Moves F s t) :
    ∃ u, (execEvictionComplete a0 t) = .next u ∧ Moves F s u := by
  unfold execEvictionComplete
  refine ⟨_, rfl, ?_⟩
  repeat'
    (first | (with_reducible assumption) | ((with_reducible refine hF.up ?_); rfl) | (intro)
            | (with_reducible apply evictionDone_moves))

theorem execSsdInsert_moves {F : ℕ} {s t : State} {a0 : Slot} (hF : Sub 137439216653 F) (h : Moves F s t) : ∃ u,
    (execSsdInsert a0 t) = .next u ∧ Moves F s u := by
  unfold execSsdInsert
  refine ⟨_, rfl, ?_⟩
  repeat'
    (first | (with_reducible assumption) | ((with_reducible refine hF.up ?_); rfl) | (intro)
            | (with_reducible apply insertSsd_moves))

theorem execSlotDebounceEnd_moves {F : ℕ} {s t : State} {a0 : Slot} (hF : Sub 137439216653 F) (h : Moves F s t) :
    ∃ u, (execSlotDebounceEnd a0 t) = .next u ∧ Moves F s u := by
  unfold execSlotDebounceEnd
  refine ⟨_, rfl, ?_⟩
  repeat'
    (first | (with_reducible assumption) | ((with_reducible refine hF.up ?_); rfl) | (intro)
            | (with_reducible apply debounceEnd_moves))

theorem execPwrgdAsserted_moves {F : ℕ} {s t : State} {a0 : Slot} (hF : Sub 137438954509 F) (h : Moves F s t) : ∃ u,
    (execPwrgdAsserted a0 t) = .next u ∧ Moves F s u := by
  unfold execPwrgdAsserted
  refine ⟨_, rfl, ?_⟩
  repeat'
    (first | (with_reducible assumption) | ((with_reducible refine hF.up ?_); rfl) | (intro)
            | (with_reducible apply Moves.ite) | (split) | (with_reducible apply fset_moves)
            | (with_reducible apply setSlot_moves))

theorem execPowerFault_moves {F : ℕ} {s t : State} {a0 : Slot} (hF : Sub 137439216653 F) (h : Moves F s t) : ∃ u,
    (execPowerFault a0 t) = .next u ∧ Moves F s u := by
  unfold execPowerFault
  refine ⟨_, rfl, ?_⟩
  repeat'
    (first | (with_reducible assumption) | ((with_reducible refine hF.up ?_); rfl) | (intro)
            | (with_reducible apply Moves.ite) | (split) | (with_reducible apply raise_moves)
            | (with_reducible apply setSlot_moves) | (with_reducible apply setFault_moves)
            | (with_reducible apply unpowerSlot_moves))

theorem execSsdAdmit_moves {F : ℕ} {s t : State} {a0 : Slot} {a1 : Sys2Proof.SsdInfo} (hF : Sub 137439216653 F) (h :
    Moves F s t) : ∃ u, (execSsdAdmit a0 a1 t) = .next u ∧ Moves F s u := by
  unfold execSsdAdmit
  refine ⟨_, rfl, ?_⟩
  repeat'
    (first | (with_reducible assumption) | ((with_reducible refine hF.up ?_); rfl) | (intro)
            | (with_reducible apply Moves.ite) | (split) | (with_reducible apply checkSsd_moves))

theorem execAttnButton_moves {F : ℕ} {s t : State} {a0 : Slot} (hF : Sub 137439216653 F) (h : Moves F s t) : ∃ u,
    (execAttnButton a0 t) = .next u ∧ Moves F s u := by
  unfold execAttnButton
  refine ⟨_, rfl, ?_⟩
  repeat'
    (first | (with_reducible assumption) | ((with_reducible refine hF.up ?_); rfl) | (intro)
            | (with_reducible apply pressButton_moves))

theorem execButtonWaitEnd_moves {F : ℕ} {s t : State} {a0 : Slot} (hF : Sub 1237547615261 F) (h : Moves F s t) :
    ∃ u, (execButtonWaitEnd a0 t) = .next u ∧ Moves F s u := by
  unfold execButtonWaitEnd
  refine ⟨_, rfl, ?_⟩
  repeat'
    (first | (with_reducible assumption) | ((with_reducible refine hF.up ?_); rfl) | (intro)
            | (with_reducible apply buttonEnd_moves))

theorem execSsdFail_moves {F : ℕ} {s t : State} {a0 : Slot} {a1 : Sys2Proof.SsdFailCause} (hF : Sub 1237547615261 F)
    (h : Moves F s t) : ∃ u, (execSsdFail a0 a1 t) = .next u ∧ Moves F s u := by
  unfold execSsdFail
  refine ⟨_, rfl, ?_⟩
  repeat'
    (first | (with_reducible assumption) | ((with_reducible refine hF.up ?_); rfl)
            | ((with_reducible refine Or.inr (hF.up ?_)); rfl) | (with_reducible exact Or.inl rfl) | (intro)
            | (extract_lets +onlyGivenNames x; have hx : Moves F s x := ?_; (on_goal 1 => clear_value x); (on_goal 2 => subst x))
            | (extract_lets +onlyGivenNames x; clear_value x) | (with_reducible apply Moves.ite) | (split)
            | (with_reducible apply fset_moves) | (with_reducible apply slotUpd_moves)
            | (with_reducible apply slotChange_moves) | (with_reducible apply failSsd_moves)
            | (with_reducible apply Moves.upd))

theorem execSsdAsyncEvent_moves {F : ℕ} {s t : State} {a0 : Slot} {a1 : Bool} {a2 : Bool} (hF : Sub 1237547615261 F)
    (h : Moves F s t) : ∃ u, (execSsdAsyncEvent a0 a1 a2 t) = .next u ∧ Moves F s u := by
  unfold execSsdAsyncEvent
  refine ⟨_, rfl, ?_⟩
  repeat'
    (first | (with_reducible assumption) | ((with_reducible refine hF.up ?_); rfl) | (intro)
            | (extract_lets +onlyGivenNames x; have hx : Moves F s x := ?_; (on_goal 1 => clear_value x); (on_goal 2 => subst x))
            | (extract_lets +onlyGivenNames x; clear_value x) | (with_reducible apply Moves.ite) | (split)
            | (with_reducible apply nvmeOn_moves) | (with_reducible apply failSsd_moves))

theorem execPathLost_moves {F : ℕ} {s t : State} {a0 : Slot} {a1 : Sys2Proof.Path} (hF : Sub 137439216653 F) (h :
    Moves F s t) : ∃ u, (execPathLost a0 a1 t) = .next u ∧ Moves F s u := by
  unfold execPathLost
  refine ⟨_, rfl, ?_⟩
  repeat'
    (first | (with_reducible assumption) | ((with_reducible refine hF.up ?_); rfl) | (intro)
            | (with_reducible apply losePath_moves))

theorem execPathReturn_moves {F : ℕ} {s t : State} {a0 : Slot} {a1 : Sys2Proof.Path} (hF : Sub 137439215617 F) (h :
    Moves F s t) : ∃ u, (execPathReturn a0 a1 t) = .next u ∧ Moves F s u := by
  unfold execPathReturn
  refine ⟨_, rfl, ?_⟩
  repeat'
    (first | (with_reducible assumption) | ((with_reducible refine hF.up ?_); rfl) | (intro)
            | (with_reducible apply Moves.ite) | (split) | (with_reducible apply returnPath_moves))

theorem execPathsDownTimeout_moves {F : ℕ} {s t : State} {a0 : Slot} (hF : Sub 1237547615261 F) (h : Moves F s t) :
    ∃ u, (execPathsDownTimeout a0 t) = .next u ∧ Moves F s u := by
  unfold execPathsDownTimeout
  refine ⟨_, rfl, ?_⟩
  repeat'
    (first | (with_reducible assumption) | ((with_reducible refine hF.up ?_); rfl) | (intro)
            | (with_reducible apply Moves.ite) | (split) | (with_reducible apply failSsd_moves))

theorem execStripeLockExpiry_moves {F : ℕ} {s t : State} {a0 : Cluster} {a1 : ℕ} (hF : Sub 538312721 F) (h :
    Moves F s t) : ∃ u, (execStripeLockExpiry a0 a1 t) = .next u ∧ Moves F s u := by
  unfold execStripeLockExpiry
  refine ⟨_, rfl, ?_⟩
  repeat'
    (first | (with_reducible assumption) | ((with_reducible refine hF.up ?_); rfl) | (intro)
            | (with_reducible apply lockExpiry_moves))

theorem execDeallocateComplete_moves {F : ℕ} {s t : State} {a0 : Slot} {a1 : ℕ} (hF : Sub 1271907361821 F) (h :
    Moves F s t) : ∃ u, (execDeallocateComplete a0 a1 t) = .next u ∧ Moves F s u := by
  unfold execDeallocateComplete
  refine ⟨_, rfl, ?_⟩
  repeat'
    (first | (with_reducible assumption) | ((with_reducible refine hF.up ?_); rfl)
            | ((with_reducible refine Or.inr (hF.up ?_)); rfl) | (with_reducible exact Or.inl rfl) | (intro)
            | (extract_lets +onlyGivenNames x; have hx : Moves F s x := ?_; (on_goal 1 => clear_value x); (on_goal 2 => subst x))
            | (extract_lets +onlyGivenNames x; clear_value x) | (split) | (with_reducible apply slotUpd_moves)
            | (with_reducible apply sanSettle_moves) | (with_reducible apply ioDrop_moves)
            | (with_reducible apply ioGood_moves) | (with_reducible apply removalGoesOn_moves)
            | (with_reducible apply repairDone_moves) | (with_reducible apply rebuildBegin_moves)
            | (with_reducible apply Moves.foldl) | (with_reducible apply Moves.upd))

theorem execRebuildWriteComplete_moves {F : ℕ} {s t : State} {a0 : Cluster} (hF : Sub 538312721 F) (h : Moves F s t)
    : ∃ u, (execRebuildWriteComplete a0 t) = .next u ∧ Moves F s u := by
  unfold execRebuildWriteComplete
  refine ⟨_, rfl, ?_⟩
  repeat'
    (first | (with_reducible assumption) | ((with_reducible refine hF.up ?_); rfl) | (intro)
            | (with_reducible apply Moves.ite) | (split) | (with_reducible apply rebuildStep_moves))

theorem execRebuildDone_moves {F : ℕ} {s t : State} (hF : Sub 137439216653 F) (h : Moves F s t) : ∃ u,
    (execRebuildDone t) = .next u ∧ Moves F s u := by
  unfold execRebuildDone
  refine ⟨_, rfl, ?_⟩
  repeat'
    (first | (with_reducible assumption) | ((with_reducible refine hF.up ?_); rfl) | (intro)
            | (with_reducible apply Moves.ite) | (split) | (with_reducible apply endRebuild_moves))

theorem execBlockDecode_moves {F : ℕ} {s t : State} {a0 : ℕ} (hF : Sub 47554944762911 F) (h : Moves F s t) : ∃ u,
    (execBlockDecode a0 t) = .next u ∧ Moves F s u := by
  unfold execBlockDecode
  refine ⟨_, rfl, ?_⟩
  repeat'
    (first | (with_reducible assumption) | ((with_reducible refine hF.up ?_); rfl) | (intro)
            | (with_reducible apply Moves.ite) | (split) | (with_reducible apply decodeNext_moves))

theorem execCompactorCommit_moves {F : ℕ} {s t : State} {a0 a1 : ℕ} {a2 : Candidate} {a3 : Option (Bool × List ℕ)}
    (hF : Sub 11270868042781 F) (h : Moves F s t) : ∃ u,
    (execCompactorCommit a0 a1 a2 a3 t) = .next u ∧ Moves F s u := by
  unfold execCompactorCommit
  refine ⟨_, rfl, ?_⟩
  repeat'
    (first | (with_reducible assumption) | ((with_reducible refine hF.up ?_); rfl) | (intro)
            | (with_reducible apply compactCommit_moves))

end Sys2Proof.Machine
end

