-- ==== Sys2Proof/Laws/MovesQos.lean ====
section
/-! SUPPORT. What the functions of Machine/Qos.lean keep, and the kinds of state they may change (`Moves`). -/

set_option linter.all false

namespace Sys2Proof.Machine

open Sys2Proof

theorem setGuar_moves {F : ℕ} {s t : State} {a1 : ℕ} {a2 : ℕ} (hF : Sub 1099511628813 F) (h : Moves F s t) :
    Moves F s (setGuar t a1 a2) := by
  unfold setGuar
  repeat'
    (first | (with_reducible assumption) | ((with_reducible refine hF.up ?_); rfl) | (intro)
            | (with_reducible apply Moves.ite) | (with_reducible apply fset_moves)
            | (with_reducible apply raise_moves))

theorem trimCache_moves {F : ℕ} {s t : State} {a1 : ℕ} (hF : Sub 1048576 F) (h : Moves F s t) : Moves F s
    (trimCache t a1) := by
  unfold trimCache
  repeat'
    (first | (with_reducible assumption) | ((with_reducible refine hF.up ?_); rfl)
            | ((with_reducible refine Or.inr (hF.up ?_)); rfl) | (with_reducible exact Or.inl rfl) | (intro)
            | (extract_lets +onlyGivenNames x; have hx : Moves F s x := ?_; (on_goal 1 => clear_value x); (on_goal 2 => subst x))
            | (extract_lets +onlyGivenNames x; clear_value x) | (with_reducible apply Moves.ite)
            | (with_reducible apply Moves.foldl) | (with_reducible apply Moves.upd))

theorem setReclaim_moves {F : ℕ} {s t : State} {a1 : ℕ} {a2 : Bool} (hF : Sub 1099546230784 F) (h : Moves F s t) :
    Moves F s (setReclaim t a1 a2) := by
  unfold setReclaim
  repeat'
    (first | (with_reducible assumption) | ((with_reducible refine hF.up ?_); rfl)
            | ((with_reducible refine Or.inr (hF.up ?_)); rfl) | (with_reducible exact Or.inl rfl) | (intro)
            | (extract_lets +onlyGivenNames x; have hx : Moves F s x := ?_; (on_goal 1 => clear_value x); (on_goal 2 => subst x))
            | (extract_lets +onlyGivenNames x; clear_value x) | (with_reducible apply Moves.ite)
            | (with_reducible apply fset_moves) | (with_reducible apply trimCache_moves)
            | (with_reducible apply Moves.upd))

theorem endReclaim_moves {F : ℕ} {s t : State} {a1 : ℕ} (hF : Sub 1099511627776 F) (h : Moves F s t) : Moves F s
    (endReclaim t a1) := by
  unfold endReclaim
  repeat'
    (first | (with_reducible assumption) | ((with_reducible refine hF.up ?_); rfl)
            | (with_reducible apply fset_moves))

theorem activateGuar_moves {F : ℕ} {s t : State} {a1 : ℕ} (hF : Sub 1099511627776 F) (h : Moves F s t) : Moves F s
    (activateGuar t a1) := by
  unfold activateGuar
  repeat'
    (first | (with_reducible assumption) | ((with_reducible refine hF.up ?_); rfl)
            | (with_reducible apply fset_moves))

theorem activateBudget_moves {F : ℕ} {s t : State} {a1 : ℕ} (hF : Sub 1099511627776 F) (h : Moves F s t) : Moves F s
    (activateBudget t a1) := by
  unfold activateBudget
  repeat'
    (first | (with_reducible assumption) | ((with_reducible refine hF.up ?_); rfl)
            | (with_reducible apply fset_moves))

theorem activateMode_moves {F : ℕ} {s t : State} (hF : Sub 33554432 F) (h : Moves F s t) : Moves F s
    (activateMode t) := by
  unfold activateMode
  repeat'
    (first | (with_reducible assumption) | ((with_reducible refine hF.up ?_); rfl)
            | ((with_reducible refine Or.inr (hF.up ?_)); rfl) | (with_reducible exact Or.inl rfl)
            | (extract_lets +onlyGivenNames x; have hx : Moves F s x := ?_; (on_goal 1 => clear_value x); (on_goal 2 => subst x))
            | (extract_lets +onlyGivenNames x; clear_value x) | (with_reducible apply Moves.upd))

theorem activateQos_moves {F : ℕ} {s t : State} (hF : Sub 1099545182208 F) (h : Moves F s t) : Moves F s
    (activateQos t) := by
  unfold activateQos
  refine .ite (fun _ => h) (fun _ => fcatch_moves (fun f hp => ?_) (activateMode_moves (hF.up rfl) (Moves.foldl (fun u k hu =>
    activateBudget_moves (hF.up rfl) (activateGuar_moves (hF.up rfl) hu)) _ h)))
  unfold Fld.kind
  split
  · next e => rw [e] at hp; exact absurd hp (by decide)
  · rw [of_decide_eq_true hp]
    exact hF.bit (by decide)

theorem countPart_moves {F : ℕ} {s t : State} {a1 : ℕ} (hF : Sub 1099511628813 F) (h : Moves F s t) : Moves F s
    (countPart t a1) := by
  unfold countPart
  repeat'
    (first | (with_reducible assumption) | ((with_reducible refine hF.up ?_); rfl) | (intro)
            | (extract_lets +onlyGivenNames x; have hx : Moves F s x := ?_; (on_goal 1 => clear_value x); (on_goal 2 => subst x))
            | (extract_lets +onlyGivenNames x; clear_value x) | (with_reducible apply Moves.ite)
            | (with_reducible apply fwrap_moves) | (with_reducible apply raise_moves))

theorem countClass_moves {F : ℕ} {s t : State} {a1 : ℕ} (hF : Sub 1099511627776 F) (h : Moves F s t) : Moves F s
    (countClass t a1) := by
  unfold countClass
  repeat'
    (first | (with_reducible assumption) | ((with_reducible refine hF.up ?_); rfl) | (intro)
            | (with_reducible apply Moves.ite) | (with_reducible apply fwrap_moves))

theorem countHot_moves {F : ℕ} {s t : State} (hF : Sub 1099578737677 F) (h : Moves F s t) : Moves F s (countHot t)
    := by
  unfold countHot
  repeat'
    (first | (with_reducible assumption) | ((with_reducible refine hF.up ?_); rfl)
            | ((with_reducible refine Or.inr (hF.up ?_)); rfl) | (with_reducible exact Or.inl rfl) | (intro)
            | (extract_lets +onlyGivenNames x; have hx : Moves F s x := ?_; (on_goal 1 => clear_value x); (on_goal 2 => subst x))
            | (extract_lets +onlyGivenNames x; clear_value x) | (with_reducible apply Moves.ite) | (split)
            | (with_reducible apply fset_moves) | (with_reducible apply raise_moves)
            | (with_reducible apply Moves.foldl) | (with_reducible apply Moves.upd))

theorem levelsBack_moves {F : ℕ} {s t : State} (hF : Sub 67371008 F) (h : Moves F s t) : Moves F s (levelsBack t)
    := by
  unfold levelsBack
  repeat'
    (first | (with_reducible assumption) | ((with_reducible refine hF.up ?_); rfl)
            | ((with_reducible refine Or.inr (hF.up ?_)); rfl) | (with_reducible exact Or.inl rfl) | (intro)
            | (extract_lets +onlyGivenNames x; have hx : Moves F s x := ?_; (on_goal 1 => clear_value x); (on_goal 2 => subst x))
            | (extract_lets +onlyGivenNames x; clear_value x) | (with_reducible apply Moves.ite)
            | (with_reducible apply Moves.upd))

theorem qosBoundary_moves {F : ℕ} {s t : State} (hF : Sub 1099612554253 F) (h : Moves F s t) : Moves F s
    (qosBoundary t) := by
  unfold qosBoundary
  repeat'
    (first | (with_reducible assumption) | ((with_reducible refine hF.up ?_); rfl)
            | ((with_reducible refine Or.inr (hF.up ?_)); rfl) | (with_reducible exact Or.inl rfl) | (intro)
            | (extract_lets +onlyGivenNames x; have hx : Moves F s x := ?_; (on_goal 1 => clear_value x); (on_goal 2 => subst x))
            | (extract_lets +onlyGivenNames x; clear_value x) | (with_reducible apply Moves.ite)
            | (with_reducible apply endReclaim_moves) | (with_reducible apply activateQos_moves)
            | (with_reducible apply countPart_moves) | (with_reducible apply countClass_moves)
            | (with_reducible apply countHot_moves) | (with_reducible apply levelsBack_moves)
            | (with_reducible apply Moves.foldl) | (with_reducible apply Moves.upd))

theorem execReclaimDone_moves {F : ℕ} {s t : State} {a0 : TaskClass} (hF : Sub 1099511628813 F) (h : Moves F s t) :
    ∃ u, (execReclaimDone a0 t) = .next u ∧ Moves F s u := by
  unfold execReclaimDone
  refine ⟨_, rfl, ?_⟩
  repeat'
    (first | (with_reducible assumption) | ((with_reducible refine hF.up ?_); rfl) | (intro)
            | (with_reducible apply Moves.ite) | (split) | (with_reducible apply raise_moves)
            | (with_reducible apply endReclaim_moves))

end Sys2Proof.Machine
end

