-- ==== Sys2Proof/Laws/MovesCairn.lean ====
section
/-! SUPPORT. What the functions of Machine/Cairn.lean keep, and the kinds of state they may change (`Moves`). -/

set_option linter.all false

namespace Sys2Proof.Machine

open Sys2Proof

theorem degradeNow_moves {F : ℕ} {s t : State} {a1 : ℕ} (hF : Sub 17592186045453 F) (h : Moves F s t) : Moves F s
    (degradeNow t a1) := by
  unfold degradeNow
  repeat'
    (first | (with_reducible assumption) | ((with_reducible refine hF.up ?_); rfl)
            | (with_reducible apply commitSlot_moves) | (with_reducible apply degradeLog_moves))

theorem stepDies_moves {F : ℕ} {s t : State} {a1 : Part} {a2 : Ring} {a3 : ℕ} {a4 : ℕ} (hF : Sub 25165824 F) (h :
    Moves F s t) : Moves F s (stepDies t a1 a2 a3 a4) := by
  unfold stepDies
  repeat'
    (first | (with_reducible assumption) | ((with_reducible refine hF.up ?_); rfl)
            | ((with_reducible refine Or.inr (hF.up ?_)); rfl) | (with_reducible exact Or.inl rfl) | (split)
            | (with_reducible apply failJob_moves) | (with_reducible apply stepDrop_moves)
            | (with_reducible apply Moves.upd))

theorem sramOutcome_moves {F : ℕ} {s t : State} {a1 : Sys2Proof.SramSite} (hF : Sub 54564065575949 F) (h :
    Moves F s t) : Moves F s (sramOutcome t a1) := by
  unfold sramOutcome
  repeat'
    (first | (with_reducible assumption) | ((with_reducible refine hF.up ?_); rfl)
            | ((with_reducible refine Or.inr (hF.up ?_)); rfl) | (with_reducible exact Or.inl rfl) | (intro)
            | (extract_lets +onlyGivenNames x; have hx : Moves F s x := ?_; (on_goal 1 => clear_value x); (on_goal 2 => subst x))
            | (extract_lets +onlyGivenNames x; clear_value x) | (with_reducible apply Moves.ite) | (split)
            | (with_reducible apply cfgUpd_moves) | (with_reducible apply aerLog_moves)
            | (with_reducible apply uncache_moves) | (with_reducible apply answer_moves)
            | (with_reducible apply forwardReq_moves) | (with_reducible apply endWork_moves)
            | (with_reducible apply degradeNow_moves) | (with_reducible apply stepDies_moves)
            | (with_reducible apply Moves.upd))

theorem expressCommit_moves {F : ℕ} {s t : State} {a1 : ℕ} {a2 : ℕ} {a3 : Bool} (hF : Sub 17592186045453 F) (h :
    Moves F s t) : Moves F s (expressCommit t a1 a2 a3) := by
  unfold expressCommit
  repeat'
    (first | (with_reducible assumption) | ((with_reducible refine hF.up ?_); rfl)
            | ((with_reducible refine Or.inr (hF.up ?_)); rfl) | (with_reducible exact Or.inl rfl) | (intro)
            | (extract_lets +onlyGivenNames x; have hx : Moves F s x := ?_; (on_goal 1 => clear_value x); (on_goal 2 => subst x))
            | (extract_lets +onlyGivenNames x; clear_value x) | (with_reducible apply Moves.ite) | (split)
            | (with_reducible apply commitSlot_moves) | (with_reducible apply degradeNow_moves)
            | (with_reducible apply Moves.upd))

theorem streamGap_moves {F : ℕ} {s t : State} (hF : Sub 1037 F) (h : Moves F s t) : Moves F s (streamGap t) := by
  unfold streamGap
  repeat'
    (first | (with_reducible assumption) | ((with_reducible refine hF.up ?_); rfl)
            | ((with_reducible refine Or.inr (hF.up ?_)); rfl) | (with_reducible exact Or.inl rfl) | (intro)
            | (extract_lets +onlyGivenNames x; have hx : Moves F s x := ?_; (on_goal 1 => clear_value x); (on_goal 2 => subst x))
            | (extract_lets +onlyGivenNames x; clear_value x) | (with_reducible apply Moves.ite)
            | (with_reducible apply raise_moves) | (with_reducible apply Moves.upd))

theorem takeover_moves {F : ℕ} {s t : State} (hF : Sub 17592186045453 F) (h : Moves F s t) : Moves F s (takeover t)
    := by
  unfold takeover
  repeat'
    (first | (with_reducible assumption) | ((with_reducible refine hF.up ?_); rfl)
            | (with_reducible apply fset_moves) | (with_reducible apply record_moves))

theorem setFunc_moves {F : ℕ} {s t : State} {a1 : ℕ} {a2 : ℕ} {a3 : Bool} (hF : Sub 140737488355328 F) (h :
    Moves F s t) : Moves F s (setFunc t a1 a2 a3) := by
  unfold setFunc
  repeat'
    (first | (with_reducible assumption) | ((with_reducible refine hF.up ?_); rfl) | (intro)
            | (with_reducible apply Moves.ite) | (with_reducible apply fset_moves))

theorem parkEnd_moves {F : ℕ} {s t : State} {a1 : ℕ} (hF : Sub 140739635840015 F) (h : Moves F s t) : Moves F s
    (parkEnd t a1) := by
  unfold parkEnd
  repeat'
    (first | (with_reducible assumption) | ((with_reducible refine hF.up ?_); rfl)
            | ((with_reducible refine Or.inr (hF.up ?_)); rfl) | (with_reducible exact Or.inl rfl) | (intro)
            | (extract_lets +onlyGivenNames x; have hx : Moves F s x := ?_; (on_goal 1 => clear_value x); (on_goal 2 => subst x))
            | (extract_lets +onlyGivenNames x; have hx : Moves F s x.2 := ?_; (on_goal 1 => clear_value x); (on_goal 2 => subst x))
            | (extract_lets +onlyGivenNames x; clear_value x) | (with_reducible apply Moves.ite) | (split)
            | (with_reducible apply fset_moves) | (refine draw_movesE (by with_reducible assumption) (hF.up rfl) ?_)
            | (with_reducible apply draw_moves) | (with_reducible apply raise_moves)
            | (with_reducible apply Moves.upd))

theorem setFlow_moves {F : ℕ} {s t : State} {a1 : Bool} (hF : Sub 140737488356365 F) (h : Moves F s t) : Moves F s
    (setFlow t a1) := by
  unfold setFlow
  repeat'
    (first | (with_reducible assumption) | ((with_reducible refine hF.up ?_); rfl) | (intro)
            | (with_reducible apply Moves.ite) | (split) | (with_reducible apply fset_moves)
            | (with_reducible apply raise_moves))

theorem sramCounted_moves {F : ℕ} {s t : State} {a1 : Sys2Proof.SramSite} (hF : Sub 8796093023245 F) (h :
    Moves F s t) : Moves F s (sramCounted t a1) := by
  unfold sramCounted
  repeat'
    (first | (with_reducible assumption) | ((with_reducible refine hF.up ?_); rfl) | (intro)
            | (with_reducible apply Moves.ite) | (with_reducible apply finc_moves)
            | (with_reducible apply raise_moves))

theorem execSramUe_moves {F : ℕ} {s t : State} {a0 : Sys2Proof.SramSite} (hF : Sub 63360158598157 F) (h :
    Moves F s t) : ∃ u, (execSramUe a0 t) = .next u ∧ Moves F s u := by
  unfold execSramUe
  refine ⟨_, rfl, ?_⟩
  repeat'
    (first | (with_reducible assumption) | ((with_reducible refine hF.up ?_); rfl) | (intro)
            | (with_reducible apply sramOutcome_moves) | (with_reducible apply sramCounted_moves))

theorem execCairnExpressCommit_moves {F : ℕ} {s t : State} {a0 : ℕ} {a1 : ℕ} {a2 : Bool} (hF : Sub 17592186045453 F)
    (h : Moves F s t) : ∃ u, (execCairnExpressCommit a0 a1 a2 t) = .next u ∧ Moves F s u := by
  unfold execCairnExpressCommit
  refine ⟨_, rfl, ?_⟩
  repeat'
    (first | (with_reducible assumption) | ((with_reducible refine hF.up ?_); rfl) | (intro)
            | (with_reducible apply expressCommit_moves))

theorem execCairnStreamReceive_moves {F : ℕ} {s t : State} {a0 : Sys2Proof.TwinRecord} (hF : Sub 17592186045453 F)
    (h : Moves F s t) : ∃ u, (execCairnStreamReceive a0 t) = .next u ∧ Moves F s u := by
  unfold execCairnStreamReceive
  refine ⟨_, rfl, ?_⟩
  repeat'
    (first | (with_reducible assumption) | ((with_reducible refine hF.up ?_); rfl) | (intro)
            | (with_reducible apply Moves.ite) | (split) | (with_reducible apply fadd_moves)
            | (with_reducible apply commitRec_moves))

theorem execComplexTakeover_moves {F : ℕ} {s t : State} (hF : Sub 17592186045453 F) (h : Moves F s t) : ∃ u,
    (execComplexTakeover t) = .next u ∧ Moves F s u := by
  unfold execComplexTakeover
  refine ⟨_, rfl, ?_⟩
  repeat'
    (first | (with_reducible assumption) | ((with_reducible refine hF.up ?_); rfl)
            | ((with_reducible refine Or.inr (hF.up ?_)); rfl) | (with_reducible exact Or.inl rfl) | (intro)
            | (split) | (with_reducible apply takeover_moves) | (with_reducible apply Moves.upd))

theorem execMfpParkEnd_moves {F : ℕ} {s t : State} {a0 : Pin} (hF : Sub 140739635840015 F) (h : Moves F s t) : ∃ u,
    (execMfpParkEnd a0 t) = .next u ∧ Moves F s u := by
  unfold execMfpParkEnd
  refine ⟨_, rfl, ?_⟩
  repeat'
    (first | (with_reducible assumption) | ((with_reducible refine hF.up ?_); rfl) | (intro)
            | (with_reducible apply parkEnd_moves))

theorem execMfpInputChange_moves {F : ℕ} {s t : State} {a0 : Pin} {a1 : Bool} (hF : Sub 2147483648 F) (h :
    Moves F s t) : ∃ u, (execMfpInputChange a0 a1 t) = .next u ∧ Moves F s u := by
  unfold execMfpInputChange
  refine ⟨_, rfl, ?_⟩
  repeat'
    (first | (with_reducible assumption) | ((with_reducible refine hF.up ?_); rfl)
            | ((with_reducible refine Or.inr (hF.up ?_)); rfl) | (with_reducible exact Or.inl rfl) | (intro)
            | (with_reducible apply Moves.ite) | (split) | (with_reducible apply Moves.upd))

theorem execFlowLost_moves {F : ℕ} {s t : State} (hF : Sub 140737488356365 F) (h : Moves F s t) : ∃ u,
    (execFlowLost t) = .next u ∧ Moves F s u := by
  unfold execFlowLost
  refine ⟨_, rfl, ?_⟩
  repeat'
    (first | (with_reducible assumption) | ((with_reducible refine hF.up ?_); rfl) | (intro)
            | (with_reducible apply Moves.ite) | (split) | (with_reducible apply setFlow_moves))

theorem execFlowRestored_moves {F : ℕ} {s t : State} (hF : Sub 140737488356365 F) (h : Moves F s t) : ∃ u,
    (execFlowRestored t) = .next u ∧ Moves F s u := by
  unfold execFlowRestored
  refine ⟨_, rfl, ?_⟩
  repeat'
    (first | (with_reducible assumption) | ((with_reducible refine hF.up ?_); rfl) | (intro)
            | (with_reducible apply Moves.ite) | (split) | (with_reducible apply setFlow_moves))

end Sys2Proof.Machine
end

