-- ==== Sys2Proof/Laws/MovesRoles.lean ====
section
/-! SUPPORT. What the functions of Machine/Roles.lean keep, and the kinds of state they may change (`Moves`). -/

set_option linter.all false

namespace Sys2Proof.Machine

open Sys2Proof

theorem refuseSession_moves {F : ℕ} {s t : State} {a1 : ChainRoot} (hF : Sub 281474976711693 F) (h : Moves F s t) :
    Moves F s (refuseSession t a1) := by
  unfold refuseSession
  repeat'
    (first | (with_reducible assumption) | ((with_reducible refine hF.up ?_); rfl)
            | ((with_reducible refine Or.inr (hF.up ?_)); rfl) | (with_reducible exact Or.inl rfl)
            | (extract_lets +onlyGivenNames x; have hx : Moves F s x := ?_; (on_goal 1 => clear_value x); (on_goal 2 => subst x))
            | (extract_lets +onlyGivenNames x; clear_value x) | (split) | (with_reducible apply finc_moves)
            | (with_reducible apply raise_moves) | (with_reducible apply Moves.upd))

theorem doKeyExchange_moves {F : ℕ} {s t : State} {a1 : Transport} {a2 : ChainRoot} (hF : Sub 281476050453517 F) (h
    : Moves F s t) : Moves F s (doKeyExchange t a1 a2) := by
  unfold doKeyExchange
  repeat'
    (first | (with_reducible assumption) | ((with_reducible refine hF.up ?_); rfl)
            | ((with_reducible refine Or.inr (hF.up ?_)); rfl) | (with_reducible exact Or.inl rfl) | (intro)
            | (extract_lets +onlyGivenNames x; have hx : Moves F s x := ?_; (on_goal 1 => clear_value x); (on_goal 2 => subst x))
            | (extract_lets +onlyGivenNames x; clear_value x) | (with_reducible apply Moves.ite) | (split)
            | (with_reducible apply emit_moves) | (with_reducible apply refuseSession_moves)
            | (with_reducible apply Moves.upd))

theorem enrol_moves {F : ℕ} {s t : State} {a1 : ChainRoot} (hF : Sub 1101 F) (h : Moves F s t) : Moves F s
    (enrol t a1) := by
  unfold enrol
  repeat'
    (first | (with_reducible assumption) | ((with_reducible refine hF.up ?_); rfl)
            | ((with_reducible refine Or.inr (hF.up ?_)); rfl) | (with_reducible exact Or.inl rfl)
            | (extract_lets +onlyGivenNames x; have hx : Moves F s x := ?_; (on_goal 1 => clear_value x); (on_goal 2 => subst x))
            | (extract_lets +onlyGivenNames x; clear_value x) | (split) | (with_reducible apply raise_moves)
            | (with_reducible apply Moves.upd))

theorem doFinish_moves {F : ℕ} {s t : State} {a1 : Session} {a2 : SessionState} (hF : Sub 281476050453581 F) (h :
    Moves F s t) : Moves F s (doFinish t a1 a2) := by
  unfold doFinish
  repeat'
    (first | (with_reducible assumption) | ((with_reducible refine hF.up ?_); rfl)
            | ((with_reducible refine Or.inr (hF.up ?_)); rfl) | (with_reducible exact Or.inl rfl) | (intro)
            | (extract_lets +onlyGivenNames x; have hx : Moves F s x := ?_; (on_goal 1 => clear_value x); (on_goal 2 => subst x))
            | (extract_lets +onlyGivenNames x; clear_value x) | (with_reducible apply Moves.ite) | (split)
            | (with_reducible apply emit_moves) | (with_reducible apply raise_moves)
            | (with_reducible apply refuseSession_moves) | (with_reducible apply enrol_moves)
            | (with_reducible apply Moves.upd))

theorem sessionMsg_moves {F : ℕ} {s t : State} {a1 : ℕ} (hF : Sub 1073741952 F) (h : Moves F s t) : Moves F s
    (sessionMsg t a1) := by
  unfold sessionMsg
  repeat'
    (first | (with_reducible assumption) | ((with_reducible refine hF.up ?_); rfl)
            | ((with_reducible refine Or.inr (hF.up ?_)); rfl) | (with_reducible exact Or.inl rfl)
            | (extract_lets +onlyGivenNames x; have hx : Moves F s x := ?_; (on_goal 1 => clear_value x); (on_goal 2 => subst x))
            | (extract_lets +onlyGivenNames x; clear_value x) | (split) | (with_reducible apply touch_moves)
            | (with_reducible apply Moves.upd))

theorem spdmAnswer_moves {F : ℕ} {s t : State} {a1 : Session} {a2 : ℕ} (hF : Sub 1073741953 F) (h : Moves F s t) :
    Moves F s (spdmAnswer t a1 a2) := by
  unfold spdmAnswer
  repeat'
    (first | (with_reducible assumption) | ((with_reducible refine hF.up ?_); rfl) | (intro)
            | (with_reducible apply Moves.ite) | (split) | (with_reducible apply emit_moves)
            | (with_reducible apply sessionMsg_moves))

theorem spdmIn_moves {F : ℕ} {s t : State} {a1 : Session} {a2 : ℕ} (hF : Sub 1073741953 F) (h : Moves F s t) :
    Moves F s (spdmIn t a1 a2) := by
  unfold spdmIn
  repeat'
    (first | (with_reducible assumption) | ((with_reducible refine hF.up ?_); rfl) | (intro)
            | (with_reducible apply Moves.ite) | (split) | (with_reducible apply emit_moves)
            | (with_reducible apply touch_moves) | (with_reducible apply sessionMsg_moves))

theorem doEndSession_moves {F : ℕ} {s t : State} {a1 : Session} (hF : Sub 1073743053 F) (h : Moves F s t) :
    Moves F s (doEndSession t a1) := by
  unfold doEndSession
  repeat'
    (first | (with_reducible assumption) | ((with_reducible refine hF.up ?_); rfl) | (intro)
            | (with_reducible apply Moves.ite) | (split) | (with_reducible apply emit_moves)
            | (with_reducible apply touch_moves) | (with_reducible apply endSession_moves)
            | (with_reducible apply sessionMsg_moves))

theorem fmAnswer_moves {F : ℕ} {s t : State} {a1 : Session} {a2 : RetCode} {a3 : List ℕ} (hF : Sub 1 F) (h :
    Moves F s t) : Moves F s (fmAnswer t a1 a2 a3) := by
  unfold fmAnswer
  repeat'
    (first | (with_reducible assumption) | ((with_reducible refine hF.up ?_); rfl)
            | (with_reducible apply emit_moves))

theorem fmCmd_moves {F : ℕ} {s t : State} {a1 : Session} {a2 : ℕ} {a3 : ℕ × List Byte} {a4 : State → State} (hF
    : Sub 299068236498061 F) (k4 : ∀ u0, Moves F s u0 → Moves F s (a4 u0)) (h : Moves F s t) : Moves F s
    (fmCmd t a1 a2 a3 a4) := by
  unfold fmCmd
  repeat'
    (first | (with_reducible assumption) | (with_reducible apply k4) | ((with_reducible refine hF.up ?_); rfl)
            | (intro)
            | (extract_lets +onlyGivenNames x; have hx : Moves F s x := ?_; (on_goal 1 => clear_value x); (on_goal 2 => subst x))
            | (extract_lets +onlyGivenNames x; clear_value x) | (with_reducible apply Moves.ite) | (split)
            | (with_reducible apply deny_moves) | (with_reducible apply auditCmd_moves)
            | (with_reducible apply sessionMsg_moves) | (with_reducible apply fmAnswer_moves))

theorem fmOp_moves {F : ℕ} {s t : State} {a1 : Session} {a2 : State → State} (hF : Sub 299068236498061 F) (k2
    : ∀ u0, Moves F s u0 → Moves F s (a2 u0)) (h : Moves F s t) : Moves F s (fmOp t a1 a2) := by
  unfold fmOp
  repeat'
    (first | (with_reducible assumption) | (with_reducible apply k2) | ((with_reducible refine hF.up ?_); rfl)
            | (with_reducible apply fmCmd_moves))

theorem commitAnchor_moves {F : ℕ} {s t : State} {a1 : Session} (hF : Sub 1073742925 F) (h : Moves F s t) :
    Moves F s (commitAnchor t a1) := by
  unfold commitAnchor
  repeat'
    (first | (with_reducible assumption) | ((with_reducible refine hF.up ?_); rfl)
            | ((with_reducible refine Or.inr (hF.up ?_)); rfl) | (with_reducible exact Or.inl rfl) | (intro)
            | (extract_lets +onlyGivenNames x; have hx : Moves F s x := ?_; (on_goal 1 => clear_value x); (on_goal 2 => subst x))
            | (extract_lets +onlyGivenNames x; clear_value x) | (with_reducible apply Moves.ite) | (split)
            | (with_reducible apply raise_moves) | (with_reducible apply Moves.upd))

theorem clearAnchor_moves {F : ℕ} {s t : State} {a1 : Session} (hF : Sub 1073742925 F) (h : Moves F s t) :
    Moves F s (clearAnchor t a1) := by
  unfold clearAnchor
  extract_lets slot ends
  have k : ∀ u f, Moves F s u → Moves F s (ends u f) := fun u f hu => by
    repeat'
      (first | (with_reducible assumption)
             | ((with_reducible refine hF.up ?_); rfl)
             | ((with_reducible refine Or.inr (hF.up ?_)); rfl)
             | (with_reducible exact Or.inl rfl)
             | (with_reducible apply Moves.upd))
  clear_value ends
  refine .ite (fun _ => .ite (fun _ => ?_) (fun _ => h)) (fun _ => .ite (fun _ => ?_) (fun _ => h))
  · refine raise_moves (hF.up rfl) (k _ _ ?_)
    repeat'
      (first | (with_reducible assumption)
             | ((with_reducible refine hF.up ?_); rfl)
             | ((with_reducible refine Or.inr (hF.up ?_)); rfl)
             | (with_reducible exact Or.inl rfl)
             | (with_reducible apply Moves.upd))
  · refine raise_moves (hF.up rfl) (k _ _ ?_)
    repeat'
      (first | (with_reducible assumption)
             | ((with_reducible refine hF.up ?_); rfl)
             | ((with_reducible refine Or.inr (hF.up ?_)); rfl)
             | (with_reducible exact Or.inl rfl)
             | (with_reducible apply Moves.upd))

theorem ideSecure_moves {F : ℕ} {s t : State} {a1 : Head} (hF : Sub 687424341517 F) (h : Moves F s t) : Moves F s
    (ideSecure t a1) := by
  unfold ideSecure
  repeat'
    (first | (with_reducible assumption) | ((with_reducible refine hF.up ?_); rfl)
            | ((with_reducible refine Or.inr (hF.up ?_)); rfl) | (with_reducible exact Or.inl rfl) | (intro)
            | (with_reducible apply emit_moves) | (with_reducible apply headUpd_moves)
            | (with_reducible apply mastersMoved_moves) | (with_reducible apply Moves.upd))

theorem ideLost_moves {F : ℕ} {s t : State} {a1 : Head} (hF : Sub 687424341517 F) (h : Moves F s t) : Moves F s
    (ideLost t a1) := by
  unfold ideLost
  repeat'
    (first | (with_reducible assumption) | ((with_reducible refine hF.up ?_); rfl)
            | ((with_reducible refine Or.inr (hF.up ?_)); rfl) | (with_reducible exact Or.inl rfl) | (intro)
            | (with_reducible apply headUpd_moves) | (with_reducible apply raise_moves)
            | (with_reducible apply mastersMoved_moves) | (with_reducible apply Moves.upd))

theorem stageUpd_moves {F : ℕ} {s t : State} {a1 : ImageSlot → ImageSlot} (hF : Sub 536870977 F) (h : Moves F s t) :
    Moves F s (stageUpd t a1) := by
  unfold stageUpd
  repeat'
    (first | (with_reducible assumption) | ((with_reducible refine hF.up ?_); rfl)
            | ((with_reducible refine Or.inr (hF.up ?_)); rfl) | (with_reducible exact Or.inl rfl)
            | (with_reducible apply fwChanged_moves) | (with_reducible apply Moves.upd))

theorem stageChunk_moves {F : ℕ} {s t : State} {a1 : Option Sys2Proof.ImageInfo} (hF : Sub 536872013 F) (h :
    Moves F s t) : Moves F s (stageChunk t a1) := by
  unfold stageChunk
  repeat'
    (first | (with_reducible assumption) | ((with_reducible refine hF.up ?_); rfl)
            | ((with_reducible refine Or.inr (hF.up ?_)); rfl) | (with_reducible exact Or.inl rfl) | (intro)
            | (with_reducible apply Moves.ite) | (split) | (with_reducible apply raise_moves)
            | (with_reducible apply stageUpd_moves) | (with_reducible apply Moves.upd))

theorem acceptImage_moves {F : ℕ} {s t : State} (hF : Sub 536872015 F) (h : Moves F s t) : Moves F s (acceptImage t)
    := by
  unfold acceptImage
  repeat'
    (first | (with_reducible assumption) | ((with_reducible refine hF.up ?_); rfl)
            | ((with_reducible refine Or.inr (hF.up ?_)); rfl) | (with_reducible exact Or.inl rfl) | (intro)
            | (extract_lets +onlyGivenNames x; have hx : Moves F s x := ?_; (on_goal 1 => clear_value x); (on_goal 2 => subst x))
            | (extract_lets +onlyGivenNames x; have hx : Moves F s x.2 := ?_; (on_goal 1 => clear_value x); (on_goal 2 => subst x))
            | (extract_lets +onlyGivenNames x; clear_value x) | (with_reducible apply Moves.ite) | (split)
            | (refine draw_movesE (by with_reducible assumption) (hF.up rfl) ?_) | (with_reducible apply draw_moves)
            | (with_reducible apply raise_moves) | (with_reducible apply stageUpd_moves)
            | (with_reducible apply Moves.upd))

theorem revokeImage_moves {F : ℕ} {s t : State} (hF : Sub 536870977 F) (h : Moves F s t) : Moves F s (revokeImage t)
    := by
  unfold revokeImage
  repeat'
    (first | (with_reducible assumption) | ((with_reducible refine hF.up ?_); rfl)
            | ((with_reducible refine Or.inr (hF.up ?_)); rfl) | (with_reducible exact Or.inl rfl) | (intro)
            | (with_reducible apply Moves.ite) | (with_reducible apply stageUpd_moves)
            | (with_reducible apply Moves.upd))

theorem execGetVersion_moves {F : ℕ} {s t : State} {a0 : Session} (hF : Sub 1073741953 F) (h : Moves F s t) : ∃ u,
    (execGetVersion a0 t) = .next u ∧ Moves F s u := by
  unfold execGetVersion
  refine ⟨_, rfl, ?_⟩
  repeat'
    (first | (with_reducible assumption) | ((with_reducible refine hF.up ?_); rfl) | (intro)
            | (with_reducible apply spdmAnswer_moves))

theorem execGetCapabilities_moves {F : ℕ} {s t : State} {a0 : Session} (hF : Sub 1073741953 F) (h : Moves F s t) :
    ∃ u, (execGetCapabilities a0 t) = .next u ∧ Moves F s u := by
  unfold execGetCapabilities
  refine ⟨_, rfl, ?_⟩
  repeat'
    (first | (with_reducible assumption) | ((with_reducible refine hF.up ?_); rfl) | (intro)
            | (with_reducible apply spdmAnswer_moves))

theorem execNegotiateAlgorithms_moves {F : ℕ} {s t : State} {a0 : Session} (hF : Sub 1073741953 F) (h : Moves F s t)
    : ∃ u, (execNegotiateAlgorithms a0 t) = .next u ∧ Moves F s u := by
  unfold execNegotiateAlgorithms
  refine ⟨_, rfl, ?_⟩
  repeat'
    (first | (with_reducible assumption) | ((with_reducible refine hF.up ?_); rfl) | (intro)
            | (with_reducible apply spdmAnswer_moves))

theorem execGetDigests_moves {F : ℕ} {s t : State} {a0 : Session} (hF : Sub 1073741953 F) (h : Moves F s t) : ∃ u,
    (execGetDigests a0 t) = .next u ∧ Moves F s u := by
  unfold execGetDigests
  refine ⟨_, rfl, ?_⟩
  repeat'
    (first | (with_reducible assumption) | ((with_reducible refine hF.up ?_); rfl) | (intro)
            | (with_reducible apply spdmAnswer_moves))

theorem execGetCertificate_moves {F : ℕ} {s t : State} {a0 : Session} (hF : Sub 1073741953 F) (h : Moves F s t) :
    ∃ u, (execGetCertificate a0 t) = .next u ∧ Moves F s u := by
  unfold execGetCertificate
  refine ⟨_, rfl, ?_⟩
  repeat'
    (first | (with_reducible assumption) | ((with_reducible refine hF.up ?_); rfl) | (intro)
            | (with_reducible apply spdmAnswer_moves))

theorem execChallenge_moves {F : ℕ} {s t : State} {a0 : Session} (hF : Sub 1073741953 F) (h : Moves F s t) : ∃ u,
    (execChallenge a0 t) = .next u ∧ Moves F s u := by
  unfold execChallenge
  refine ⟨_, rfl, ?_⟩
  repeat'
    (first | (with_reducible assumption) | ((with_reducible refine hF.up ?_); rfl) | (intro)
            | (with_reducible apply spdmAnswer_moves))

theorem execGetMeasurements_moves {F : ℕ} {s t : State} {a0 : Session} (hF : Sub 1073741953 F) (h : Moves F s t) :
    ∃ u, (execGetMeasurements a0 t) = .next u ∧ Moves F s u := by
  unfold execGetMeasurements
  refine ⟨_, rfl, ?_⟩
  repeat'
    (first | (with_reducible assumption) | ((with_reducible refine hF.up ?_); rfl) | (intro)
            | (with_reducible apply spdmAnswer_moves))

theorem execKeyExchange_moves {F : ℕ} {s t : State} {a0 : Transport} {a1 : ChainRoot} (hF : Sub 281476050453645 F)
    (h : Moves F s t) : ∃ u, (execKeyExchange a0 a1 t) = .next u ∧ Moves F s u := by
  unfold execKeyExchange
  refine ⟨_, rfl, ?_⟩
  repeat'
    (first | (with_reducible assumption) | ((with_reducible refine hF.up ?_); rfl) | (intro)
            | (with_reducible apply Moves.ite) | (split) | (with_reducible apply touch_moves)
            | (with_reducible apply doKeyExchange_moves))

theorem execFinish_moves {F : ℕ} {s t : State} {a0 : Session} (hF : Sub 281476050453709 F) (h : Moves F s t) : ∃ u,
    (execFinish a0 t) = .next u ∧ Moves F s u := by
  unfold execFinish
  refine ⟨_, rfl, ?_⟩
  repeat'
    (first | (with_reducible assumption) | ((with_reducible refine hF.up ?_); rfl)
            | ((with_reducible refine Or.inr (hF.up ?_)); rfl) | (with_reducible exact Or.inl rfl) | (intro)
            | (with_reducible apply Moves.ite) | (split) | (with_reducible apply emit_moves)
            | (with_reducible apply touch_moves) | (with_reducible apply doFinish_moves)
            | (with_reducible apply Moves.upd))

theorem execHeartbeat_moves {F : ℕ} {s t : State} {a0 : Session} (hF : Sub 1073741953 F) (h : Moves F s t) : ∃ u,
    (execHeartbeat a0 t) = .next u ∧ Moves F s u := by
  unfold execHeartbeat
  refine ⟨_, rfl, ?_⟩
  repeat'
    (first | (with_reducible assumption) | ((with_reducible refine hF.up ?_); rfl) | (intro)
            | (with_reducible apply spdmIn_moves))

theorem execKeyUpdate_moves {F : ℕ} {s t : State} {a0 : Session} (hF : Sub 1073741953 F) (h : Moves F s t) : ∃ u,
    (execKeyUpdate a0 t) = .next u ∧ Moves F s u := by
  unfold execKeyUpdate
  refine ⟨_, rfl, ?_⟩
  repeat'
    (first | (with_reducible assumption) | ((with_reducible refine hF.up ?_); rfl) | (intro)
            | (with_reducible apply spdmIn_moves))

theorem execEndSession_moves {F : ℕ} {s t : State} {a0 : Session} (hF : Sub 1073743053 F) (h : Moves F s t) : ∃ u,
    (execEndSession a0 t) = .next u ∧ Moves F s u := by
  unfold execEndSession
  refine ⟨_, rfl, ?_⟩
  repeat'
    (first | (with_reducible assumption) | ((with_reducible refine hF.up ?_); rfl) | (intro)
            | (with_reducible apply doEndSession_moves))

theorem execSpdmUnsupported_moves {F : ℕ} {s t : State} {a0 : Session} {a1 : ℕ} (hF : Sub 1073741953 F) (h :
    Moves F s t) : ∃ u, (execSpdmUnsupported a0 a1 t) = .next u ∧ Moves F s u := by
  unfold execSpdmUnsupported
  refine ⟨_, rfl, ?_⟩
  repeat'
    (first | (with_reducible assumption) | ((with_reducible refine hF.up ?_); rfl) | (intro)
            | (with_reducible apply Moves.ite) | (split) | (with_reducible apply emit_moves)
            | (with_reducible apply sessionMsg_moves))

theorem execSessionTimeout_moves {F : ℕ} {s t : State} {a0 : Session} (hF : Sub 1073742925 F) (h : Moves F s t) :
    ∃ u, (execSessionTimeout a0 t) = .next u ∧ Moves F s u := by
  unfold execSessionTimeout
  refine ⟨_, rfl, ?_⟩
  repeat'
    (first | (with_reducible assumption) | ((with_reducible refine hF.up ?_); rfl) | (intro)
            | (with_reducible apply Moves.ite) | (split) | (with_reducible apply endSession_moves))

theorem execIdeKm_moves {F : ℕ} {s t : State} {a0 : Head} (hF : Sub 687424341645 F) (h : Moves F s t) : ∃ u,
    (execIdeKm a0 t) = .next u ∧ Moves F s u := by
  unfold execIdeKm
  refine ⟨_, rfl, ?_⟩
  repeat'
    (first | (with_reducible assumption) | ((with_reducible refine hF.up ?_); rfl) | (intro)
            | (with_reducible apply Moves.ite) | (split) | (with_reducible apply ioTouch_moves)
            | (with_reducible apply ideSecure_moves))

theorem execIdeFail_moves {F : ℕ} {s t : State} {a0 : Head} (hF : Sub 687424341517 F) (h : Moves F s t) : ∃ u,
    (execIdeFail a0 t) = .next u ∧ Moves F s u := by
  unfold execIdeFail
  refine ⟨_, rfl, ?_⟩
  repeat'
    (first | (with_reducible assumption) | ((with_reducible refine hF.up ?_); rfl) | (intro)
            | (with_reducible apply Moves.ite) | (split) | (with_reducible apply ideLost_moves))

theorem execStageImage_moves {F : ℕ} {s t : State} {a0 : Session} {a1 : ℕ} {a2 : List Byte} {a3
    : Option Sys2Proof.ImageInfo} (hF : Sub 299068773369037 F) (h : Moves F s t) : ∃ u,
    (execStageImage a0 a1 a2 a3 t) = .next u ∧ Moves F s u := by
  unfold execStageImage
  refine ⟨_, rfl, ?_⟩
  repeat'
    (first | (with_reducible assumption) | ((with_reducible refine hF.up ?_); rfl) | (intro)
            | (with_reducible apply fmAnswer_moves) | (with_reducible apply fmOp_moves)
            | (with_reducible apply stageChunk_moves))

end Sys2Proof.Machine
end

