-- ==== Sys2Proof/Laws/MovesJournal.lean ====
section
/-! SUPPORT. What the functions of Machine/Journal.lean keep, and the kinds of state they may change (`Moves`). -/

set_option linter.all false

namespace Sys2Proof.Machine

open Sys2Proof

theorem ofBlk_blk (b : Blk) : ∀ f ∈ Fld.ofBlk b, f.desc.blk = b := by
  cases b <;> decide

theorem fieldsAt_blk {b : Blk} {i off : ℕ} {x : FldAt} (hx : x ∈ fieldsAt b i off) : x.fld.desc.blk = b := by
  unfold fieldsAt at hx
  obtain ⟨f, hf, hx⟩ := List.mem_flatMap.1 hx
  dsimp only at hx
  split at hx
  · obtain ⟨k, _, hk⟩ := List.mem_filterMap.1 hx
    split at hk
    · cases hk
      exact ofBlk_blk b f hf
    · cases hk
  · cases hx

/-- A field that software writes lies in its page's kind. -/
theorem kind_rw {f : Fld} {b : Blk} (hb : f.desc.blk = b) (h : f.desc.acc = .rw ∨ f.desc.acc = .rwl)
    : f.kind = .page b := by
  unfold Fld.kind
  rw [if_neg, hb]
  rintro rfl
  revert h
  decide

theorem Moves.foldlMem {F : ℕ} {α : Type} {s : State} {f : State → α → State} (l : List α)
    (hf : ∀ u x, x ∈ l → Moves F s u → Moves F s (f u x)) {t : State} (h : Moves F s t) : Moves F s (l.foldl f t) := by
  induction l generalizing t with
  | nil => exact h
  | cons x r ih => exact ih (fun u y hy => hf u y (List.mem_cons_of_mem _ hy)) (hf t x (by simp) h)

theorem storeReg_moves {F : ℕ} {s t : State} {b : Blk} {i off v : ℕ} {ok : Fld → Bool}
    (hF : Sub (2 ^ (Kind.page b).num) F) (h : Moves F s t) : Moves F s (storeReg t b i off v ok) := by
  refine Moves.foldlMem _ (fun u x hx hu => ?_) h
  split
  · next e => exact .ite (fun _ => fsetNow_moves (by rw [kind_rw (fieldsAt_blk hx) (.inl e)]; exact hF) hu) (fun _ => hu)
  · next e => exact .ite (fun _ => fsetNow_moves (by rw [kind_rw (fieldsAt_blk hx) (.inr e)]; exact hF) hu) (fun _ => hu)
  · exact hu

theorem disablePart_moves {F : ℕ} {s t : State} {a1 : Part} (hF : Sub 282213940671501 F) (h : Moves F s t) :
    Moves F s (disablePart t a1) := by
  unfold disablePart
  repeat'
    (first | (with_reducible assumption) | ((with_reducible refine hF.up ?_); rfl)
            | ((with_reducible refine Or.inr (hF.up ?_)); rfl) | (with_reducible exact Or.inl rfl) | (intro)
            | (extract_lets +onlyGivenNames x; have hx : Moves F s x := ?_; (on_goal 1 => clear_value x); (on_goal 2 => subst x))
            | (extract_lets +onlyGivenNames x; clear_value x) | (with_reducible apply fset_moves)
            | (with_reducible apply partUpd_moves) | (with_reducible apply endOffers_moves)
            | (with_reducible apply destroyKey_moves) | (with_reducible apply closeWindows_moves)
            | (with_reducible apply endWork_moves) | (with_reducible apply clearPartition_moves)
            | (with_reducible apply Moves.upd))

theorem doBind_moves {F : ℕ} {s t : State} {a1 : Part} {a2 : ℕ} (hF : Sub 329837377993759 F) (h : Moves F s t) :
    Moves F s (doBind t a1 a2) := by
  unfold doBind
  repeat'
    (first | (with_reducible assumption) | ((with_reducible refine hF.up ?_); rfl)
            | ((with_reducible refine Or.inr (hF.up ?_)); rfl) | (with_reducible exact Or.inl rfl) | (intro)
            | (extract_lets +onlyGivenNames x; have hx : Moves F s x := ?_; (on_goal 1 => clear_value x); (on_goal 2 => subst x))
            | (extract_lets +onlyGivenNames x; clear_value x) | (with_reducible apply Moves.ite) | (split)
            | (with_reducible apply fset_moves) | (with_reducible apply partUpd_moves)
            | (with_reducible apply startLease_moves) | (with_reducible apply dropSharers_moves)
            | (with_reducible apply masterAgain_moves) | (with_reducible apply disablePart_moves)
            | (with_reducible apply Moves.foldl) | (with_reducible apply Moves.upd))

theorem twinBind_moves {F : ℕ} {s t : State} {a1 : Part} {a2 : ℕ} (hF : Sub 282214477542413 F) (h : Moves F s t) :
    Moves F s (twinBind t a1 a2) := by
  unfold twinBind
  repeat'
    (first | (with_reducible assumption) | ((with_reducible refine hF.up ?_); rfl)
            | ((with_reducible refine Or.inr (hF.up ?_)); rfl) | (with_reducible exact Or.inl rfl) | (intro)
            | (extract_lets +onlyGivenNames x; have hx : Moves F s x := ?_; (on_goal 1 => clear_value x); (on_goal 2 => subst x))
            | (extract_lets +onlyGivenNames x; clear_value x) | (with_reducible apply Moves.ite) | (split)
            | (with_reducible apply fset_moves) | (with_reducible apply startLease_moves)
            | (with_reducible apply disablePart_moves) | (with_reducible apply Moves.upd))

theorem takePart_moves {F : ℕ} {s t : State} {a1 : Sys2Proof.CfgPart} (hF : Sub 17716744192 F) (h : Moves F s t) :
    Moves F s (takePart t a1) := by
  unfold takePart
  repeat'
    (first | (with_reducible assumption) | ((with_reducible refine hF.up ?_); rfl)
            | ((with_reducible refine Or.inr (hF.up ?_)); rfl) | (with_reducible exact Or.inl rfl) | (intro)
            | (extract_lets +onlyGivenNames x; have hx : Moves F s x := ?_; (on_goal 1 => clear_value x); (on_goal 2 => subst x))
            | (extract_lets +onlyGivenNames x; clear_value x) | (with_reducible apply fset_moves)
            | (with_reducible apply partUpd_moves) | (with_reducible apply Moves.upd))

theorem takeBelayCfg_moves {F : ℕ} {s t : State} {a1 : ℕ} (hF : Sub 35184372088832 F) (h : Moves F s t) : Moves F s
    (takeBelayCfg t a1) := by
  unfold takeBelayCfg
  repeat'
    (first | (with_reducible assumption) | ((with_reducible refine hF.up ?_); rfl) | (intro)
            | (with_reducible apply storeReg_moves))

theorem takeReg_moves {F : ℕ} {s t : State} {r : CfgReg} (hF : Sub 1125895611884557 F) (h : Moves F s t) :
    Moves F s (takeReg t r) := by
  unfold takeReg
  split
  · exact takeBelayCfg_moves (hF.up rfl) h
  · exact setReserve_moves (hF.up rfl) h
  · refine storeReg_moves ?_ h
    cases r.blk <;> exact hF.up rfl

theorem tellSharers_moves {F : ℕ} {s t : State} (hF : Sub 536870913 F) (h : Moves F s t) : Moves F s (tellSharers t)
    := by
  unfold tellSharers
  repeat'
    (first | (with_reducible assumption) | ((with_reducible refine hF.up ?_); rfl) | (intro)
            | (with_reducible apply Moves.ite) | (with_reducible apply journalSend_moves)
            | (with_reducible apply Moves.foldl))

theorem takeConfig_moves {F : ℕ} {s t : State} {a1 : Sys2Proof.PairConfig} (hF : Sub 1125896183559181 F) (h :
    Moves F s t) : Moves F s (takeConfig t a1) := by
  unfold takeConfig
  repeat'
    (first | (with_reducible assumption) | ((with_reducible refine hF.up ?_); rfl)
            | ((with_reducible refine Or.inr (hF.up ?_)); rfl) | (with_reducible exact Or.inl rfl) | (intro)
            | (extract_lets +onlyGivenNames x; have hx : Moves F s x := ?_; (on_goal 1 => clear_value x); (on_goal 2 => subst x))
            | (extract_lets +onlyGivenNames x; clear_value x) | (with_reducible apply Moves.ite) | (split)
            | (with_reducible apply fset_moves) | (with_reducible apply listChange_moves)
            | (with_reducible apply activateGuar_moves) | (with_reducible apply activateBudget_moves)
            | (with_reducible apply activateMode_moves) | (with_reducible apply takePart_moves)
            | (with_reducible apply takeReg_moves) | (with_reducible apply tellSharers_moves)
            | (with_reducible apply Moves.foldl) | (with_reducible apply Moves.upd))

theorem startResync_moves {F : ℕ} {s t : State} {a1 : Bool} (hF : Sub 35184908959745 F) (h : Moves F s t) :
    Moves F s (startResync t a1) := by
  unfold startResync
  repeat'
    (first | (with_reducible assumption) | ((with_reducible refine hF.up ?_); rfl)
            | ((with_reducible refine Or.inr (hF.up ?_)); rfl) | (with_reducible exact Or.inl rfl) | (intro)
            | (extract_lets +onlyGivenNames x; have hx : Moves F s x := ?_; (on_goal 1 => clear_value x); (on_goal 2 => subst x))
            | (extract_lets +onlyGivenNames x; clear_value x) | (with_reducible apply Moves.ite) | (split)
            | (with_reducible apply fset_moves) | (with_reducible apply journalSend_moves)
            | (with_reducible apply Moves.upd))

theorem activatePairMode_moves {F : ℕ} {s t : State} (hF : Sub 35184908959745 F) (h : Moves F s t) : Moves F s
    (activatePairMode t) := by
  unfold activatePairMode
  repeat'
    (first | (with_reducible assumption) | ((with_reducible refine hF.up ?_); rfl) | (intro)
            | (extract_lets +onlyGivenNames x; have hx : Moves F s x := ?_; (on_goal 1 => clear_value x); (on_goal 2 => subst x))
            | (extract_lets +onlyGivenNames x; clear_value x) | (with_reducible apply Moves.ite) | (split)
            | (with_reducible apply fset_moves) | (with_reducible apply passDirectory_moves)
            | (with_reducible apply startResync_moves))

theorem swapRoles_moves {F : ℕ} {s t : State} (hF : Sub 598134325511437 F) (h : Moves F s t) : Moves F s
    (swapRoles t) := by
  unfold swapRoles
  repeat'
    (first | (with_reducible assumption) | ((with_reducible refine hF.up ?_); rfl)
            | ((with_reducible refine Or.inr (hF.up ?_)); rfl) | (with_reducible exact Or.inl rfl) | (intro)
            | (extract_lets +onlyGivenNames x; have hx : Moves F s x := ?_; (on_goal 1 => clear_value x); (on_goal 2 => subst x))
            | (extract_lets +onlyGivenNames x; clear_value x) | (with_reducible apply Moves.ite) | (split)
            | (with_reducible apply fset_moves) | (with_reducible apply setRole_moves)
            | (with_reducible apply Moves.upd))

theorem takeJob_moves {F : ℕ} {s t : State} {a1 : Bool} {a2 : Part} {a3 : Ring} {a4 : ℕ} {a5 : ℕ} {a6 : List Byte}
    (hF : Sub 545259520 F) (h : Moves F s t) : Moves F s (takeJob t a1 a2 a3 a4 a5 a6) := by
  unfold takeJob
  repeat'
    (first | (with_reducible assumption) | ((with_reducible refine hF.up ?_); rfl)
            | ((with_reducible refine Or.inr (hF.up ?_)); rfl) | (with_reducible exact Or.inl rfl) | (intro)
            | (extract_lets +onlyGivenNames x; have hx : Moves F s x := ?_; (on_goal 1 => clear_value x); (on_goal 2 => subst x))
            | (extract_lets +onlyGivenNames x; clear_value x) | (with_reducible apply Moves.ite)
            | (with_reducible apply Moves.upd))

theorem askBack_moves {F : ℕ} {s t : State} {a1 : Part} {a2 : List GranRange} (hF : Sub 281509336527885 F) (h :
    Moves F s t) : Moves F s (askBack t a1 a2) := by
  unfold askBack
  repeat'
    (first | (with_reducible assumption) | ((with_reducible refine hF.up ?_); rfl) | (intro)
            | (extract_lets +onlyGivenNames x; have hx : Moves F s x := ?_; (on_goal 1 => clear_value x); (on_goal 2 => subst x))
            | (extract_lets +onlyGivenNames x; clear_value x) | (with_reducible apply Moves.ite)
            | (with_reducible apply doRequestRelease_moves) | (with_reducible apply doWithdraw_moves))

theorem applyReg_moves {F : ℕ} {s t : State} {a1 : Blk} {a2 : ℕ} {a3 : ℕ} {a4 : ℕ} (hF : Sub 599320306918669 F) (h :
    Moves F s t) : Moves F s (applyReg t a1 a2 a3 a4) := by
  unfold applyReg
  repeat'
    (first | (with_reducible assumption) | ((with_reducible refine hF.up ?_); rfl)
            | ((with_reducible refine Or.inr (hF.up ?_)); rfl) | (with_reducible exact Or.inl rfl) | (intro)
            | (extract_lets +onlyGivenNames x; have hx : Moves F s x := ?_; (on_goal 1 => clear_value x); (on_goal 2 => subst x))
            | (extract_lets +onlyGivenNames x; clear_value x) | (with_reducible apply Moves.ite) | (split)
            | (with_reducible apply setReserve_moves) | (with_reducible apply activateGuar_moves)
            | (with_reducible apply activateBudget_moves) | (with_reducible apply activateMode_moves)
            | (with_reducible apply storeReg_moves) | (with_reducible apply takeBelayCfg_moves)
            | (with_reducible apply activatePairMode_moves) | (with_reducible apply swapRoles_moves)
            | (with_reducible apply Moves.upd))

theorem applyJ_reg_moves {F : ℕ} {s t : State} {blk : Blk} {inst off : Nat} {value : W64} (hF
    : Sub 599320306918669 F) (h : Moves F s t) :
    Moves F s (applyJ t (.reg blk inst off value)) := by
  unfold applyJ
  dsimp only
  repeat'
    (first | (with_reducible assumption) | ((with_reducible refine hF.up ?_); rfl)
            | (with_reducible apply Moves.ite) | (split) | (intro) | (with_reducible apply applyReg_moves)
            | (with_reducible apply Moves.upd))

theorem applyJ_bind_moves {F : ℕ} {s t : State} {fromLead : Bool} {p : Part} {heads : BitVec 16} (hF
    : Sub 329837377993759 F) (h : Moves F s t) :
    Moves F s (applyJ t (.bind fromLead p heads)) := by
  unfold applyJ
  dsimp only
  repeat'
    (first | (with_reducible assumption) | ((with_reducible refine hF.up ?_); rfl)
            | (with_reducible apply Moves.ite) | (split) | (intro) | (with_reducible apply doBind_moves)
            | (with_reducible apply twinBind_moves) | (with_reducible apply Moves.upd))

theorem applyJ_extAdd_moves {F : ℕ} {s t : State} {p : Part} {exts : List GranRange} {attr : BitVec 32} {tag : Nat}
    {join : Bool} (hF : Sub 34359817229 F) (h : Moves F s t) :
    Moves F s (applyJ t (.extAdd p exts attr tag join)) := by
  unfold applyJ
  dsimp only
  repeat'
    (first | (with_reducible assumption) | ((with_reducible refine hF.up ?_); rfl)
            | (with_reducible apply Moves.ite) | (split) | (intro) | (with_reducible apply doOffer_moves)
            | (with_reducible apply Moves.upd))

theorem applyJ_extAccept_moves {F : ℕ} {s t : State} {p : Part} {exts : List GranRange} (hF : Sub 281509336527885 F)
    (h : Moves F s t) :
    Moves F s (applyJ t (.extAccept p exts)) := by
  unfold applyJ
  dsimp only
  repeat'
    (first | (with_reducible assumption) | ((with_reducible refine hF.up ?_); rfl)
            | (with_reducible apply Moves.ite) | (split) | (intro) | (with_reducible apply doAccept_moves)
            | (with_reducible apply Moves.upd))

theorem applyJ_extRequest_moves {F : ℕ} {s t : State} {p : Part} {exts : List GranRange} (hF
    : Sub 281509336527885 F) (h : Moves F s t) :
    Moves F s (applyJ t (.extRequest p exts)) := by
  unfold applyJ
  dsimp only
  repeat'
    (first | (with_reducible assumption) | ((with_reducible refine hF.up ?_); rfl)
            | (with_reducible apply Moves.ite) | (split) | (intro) | (with_reducible apply askBack_moves)
            | (with_reducible apply Moves.upd))

theorem applyJ_extRelease_moves {F : ℕ} {s t : State} {p : Part} {exts : List GranRange} (hF
    : Sub 281578064421901 F) (h : Moves F s t) :
    Moves F s (applyJ t (.extRelease p exts)) := by
  unfold applyJ
  dsimp only
  repeat'
    (first | (with_reducible assumption) | ((with_reducible refine hF.up ?_); rfl)
            | (with_reducible apply Moves.ite) | (split) | (intro) | (with_reducible apply doRelease_moves)
            | (with_reducible apply sweepWindows_moves) | (with_reducible apply Moves.upd))

theorem applyJ_extForce_moves {F : ℕ} {s t : State} {p : Part} {exts : List GranRange} (hF : Sub 281578064425997 F)
    (h : Moves F s t) :
    Moves F s (applyJ t (.extForce p exts)) := by
  unfold applyJ
  dsimp only
  repeat'
    (first | (with_reducible assumption) | ((with_reducible refine hF.up ?_); rfl)
            | (with_reducible apply Moves.ite) | (split) | (intro) | (with_reducible apply doForce_moves)
            | (with_reducible apply sweepWindows_moves) | (with_reducible apply Moves.upd))

theorem applyJ_setAttr_moves {F : ℕ} {s t : State} {base : Nat} {mask attr : BitVec 32} (hF : Sub 34359878669 F) (h
    : Moves F s t) :
    Moves F s (applyJ t (.setAttr base mask attr)) := by
  unfold applyJ
  dsimp only
  repeat'
    (first | (with_reducible assumption) | ((with_reducible refine hF.up ?_); rfl)
            | (with_reducible apply Moves.ite) | (split) | (intro) | (with_reducible apply setAttrNow_moves)
            | (with_reducible apply Moves.upd))

theorem applyJ_reclaim_moves {F : ℕ} {s t : State} {p : Part} (hF : Sub 281595244291085 F) (h : Moves F s t) :
    Moves F s (applyJ t (.reclaim p)) := by
  unfold applyJ
  dsimp only
  repeat'
    (first | (with_reducible assumption) | ((with_reducible refine hF.up ?_); rfl)
            | (with_reducible apply Moves.ite) | (split) | (intro) | (with_reducible apply doReclaim_moves)
            | (with_reducible apply sweepWindows_moves) | (with_reducible apply Moves.upd))

theorem applyJ_revive_moves {F : ℕ} {s t : State} {p : Part} (hF : Sub 51539620877 F) (h : Moves F s t) :
    Moves F s (applyJ t (.revive p)) := by
  unfold applyJ
  dsimp only
  repeat'
    (first | (with_reducible assumption) | ((with_reducible refine hF.up ?_); rfl)
            | (with_reducible apply Moves.ite) | (split) | (intro) | (with_reducible apply doRevive_moves)
            | (with_reducible apply Moves.upd))

theorem applyJ_leaseRenew_moves {F : ℕ} {s t : State} {fromLead : Bool} {p : Part} (hF : Sub 17179873280 F) (h :
    Moves F s t) :
    Moves F s (applyJ t (.leaseRenew fromLead p)) := by
  unfold applyJ
  dsimp only
  repeat'
    (first | (with_reducible assumption) | ((with_reducible refine hF.up ?_); rfl)
            | (with_reducible apply Moves.ite) | (split) | (intro) | (with_reducible apply doRenew_moves)
            | (with_reducible apply Moves.upd))

theorem applyJ_leaseExpire_moves {F : ℕ} {s t : State} {p : Part} (hF : Sub 329837378008095 F) (h : Moves F s t) :
    Moves F s (applyJ t (.leaseExpire p)) := by
  unfold applyJ
  dsimp only
  repeat'
    (first | (with_reducible assumption) | ((with_reducible refine hF.up ?_); rfl)
            | (with_reducible apply Moves.ite) | (split) | (intro) | (with_reducible apply doLeaseExpire_moves)
            | (with_reducible apply Moves.upd))

theorem applyJ_sanitised_moves {F : ℕ} {s t : State} {fromLead : Bool} {gran : Nat} (hF : Sub 34360796173 F) (h :
    Moves F s t) :
    Moves F s (applyJ t (.sanitised fromLead gran)) := by
  unfold applyJ
  dsimp only
  repeat'
    (first | (with_reducible assumption) | ((with_reducible refine hF.up ?_); rfl)
            | (with_reducible apply Moves.ite) | (split) | (intro) | (with_reducible apply granMark_moves)
            | (with_reducible apply Moves.upd))

theorem applyJ_hint_moves {F : ℕ} {s t : State} {fromLead : Bool} {p : Part} {op : Nat} {base len : Nat} (hF
    : Sub 47761103750175 F) (h : Moves F s t) :
    Moves F s (applyJ t (.hint fromLead p op base len)) := by
  unfold applyJ
  dsimp only
  repeat'
    (first | (with_reducible assumption) | ((with_reducible refine hF.up ?_); rfl)
            | (with_reducible apply Moves.ite) | (split) | (intro) | (with_reducible apply hintJournal_moves)
            | (with_reducible apply Moves.upd))

theorem applyJ_dirLine_moves {F : ℕ} {s t : State} {ofLead pass : Bool} {line : Nat} {exclusive : Bool} {sharers
    : List Nat} (hF : Sub 69256380417 F) (h : Moves F s t) :
    Moves F s (applyJ t (.dirLine ofLead pass line exclusive sharers)) := by
  unfold applyJ
  dsimp only
  repeat'
    (first | (with_reducible assumption) | ((with_reducible refine hF.up ?_); rfl)
            | (with_reducible apply Moves.ite) | (split) | (intro) | (with_reducible apply tellTwinPart_moves)
            | (with_reducible apply takeOwnPart_moves) | (with_reducible apply Moves.upd))

theorem applyJ_blockForm_moves {F : ℕ} {s t : State} {block : Nat} {source : List Byte} {kind : Nat} {form
    : List Byte} {table : Option (Bool × List Nat)} (hF : Sub 11270868042781 F) (h : Moves F s t) :
    Moves F s (applyJ t (.blockForm block source kind form table)) := by
  unfold applyJ
  dsimp only
  repeat'
    (first | (with_reducible assumption) | ((with_reducible refine hF.up ?_); rfl)
            | (with_reducible apply Moves.ite) | (split) | (intro) | (with_reducible apply commitForm_moves)
            | (with_reducible apply Moves.upd))

theorem applyJ_snap_moves {F : ℕ} {s t : State} {fromLead : Bool} {p : Part} {op : Nat} {base : Nat} {version
    : BitVec 32} (hF : Sub 201786381 F) (h : Moves F s t) :
    Moves F s (applyJ t (.snap fromLead p op base version)) := by
  unfold applyJ
  dsimp only
  repeat'
    (first | (with_reducible assumption) | ((with_reducible refine hF.up ?_); rfl)
            | (with_reducible apply Moves.ite) | (split) | (intro) | (with_reducible apply applySnap_moves)
            | (with_reducible apply Moves.upd))

theorem applyJ_jobDesc_moves {F : ℕ} {s t : State} {fromLead : Bool} {p : Part} {ring : Ring} {idx seq : Nat} {desc
    : List Byte} (hF : Sub 545259520 F) (h : Moves F s t) :
    Moves F s (applyJ t (.jobDesc fromLead p ring idx seq desc)) := by
  unfold applyJ
  dsimp only
  repeat'
    (first | (with_reducible assumption) | ((with_reducible refine hF.up ?_); rfl)
            | (with_reducible apply Moves.ite) | (split) | (intro) | (with_reducible apply takeJob_moves)
            | (with_reducible apply Moves.upd))

theorem applyJ_rung_moves {F : ℕ} {s t : State} {n : Nat} (hF : Sub 81433452774557 F) (h : Moves F s t) :
    Moves F s (applyJ t (.rung n)) := by
  unfold applyJ
  dsimp only
  repeat'
    (first | (with_reducible assumption) | ((with_reducible refine hF.up ?_); rfl)
            | (with_reducible apply Moves.ite) | (split) | (intro) | (with_reducible apply startEntry_moves)
            | (with_reducible apply Moves.upd))

theorem applyJ_wake_moves {F : ℕ} {s t : State} (hF : Sub 70368744178829 F) (h : Moves F s t) :
    Moves F s (applyJ t (.wake )) := by
  unfold applyJ
  dsimp only
  repeat'
    (first | (with_reducible assumption) | ((with_reducible refine hF.up ?_); rfl)
            | (with_reducible apply Moves.ite) | (split) | (intro) | (with_reducible apply doWake_moves)
            | (with_reducible apply Moves.upd))

theorem applyJ_fwLevel_moves {F : ℕ} {s t : State} {fromLead : Bool} {level : Option Nat} (hF : Sub 536870976 F) (h
    : Moves F s t) :
    Moves F s (applyJ t (.fwLevel fromLead level)) := by
  unfold applyJ
  dsimp only
  repeat'
    (first | (with_reducible assumption) | ((with_reducible refine hF.up ?_); rfl)
            | ((with_reducible refine Or.inr (hF.up ?_)); rfl) | (with_reducible exact Or.inl rfl)
            | (with_reducible apply Moves.ite) | (split) | (intro) | (with_reducible apply fwMatch_moves)
            | (with_reducible apply Moves.upd))

theorem applyJ_config_moves {F : ℕ} {s t : State} {c : PairConfig} (hF : Sub 1125896183559181 F) (h : Moves F s t) :
    Moves F s (applyJ t (.config c)) := by
  unfold applyJ
  dsimp only
  repeat'
    (first | (with_reducible assumption) | ((with_reducible refine hF.up ?_); rfl)
            | (with_reducible apply Moves.ite) | (split) | (intro) | (with_reducible apply takeConfig_moves)
            | (with_reducible apply Moves.upd))

theorem applyJ_moves {F : ℕ} {s t : State} {b : JBody} (hF : Sub 1125896681422303 F) (h : Moves F s t) : Moves F s
    (applyJ t b) := by
  cases b
  · exact applyJ_reg_moves (hF.up rfl) h
  · exact applyJ_bind_moves (hF.up rfl) h
  · exact applyJ_extAdd_moves (hF.up rfl) h
  · exact applyJ_extAccept_moves (hF.up rfl) h
  · exact applyJ_extRequest_moves (hF.up rfl) h
  · exact applyJ_extRelease_moves (hF.up rfl) h
  · exact applyJ_extForce_moves (hF.up rfl) h
  · exact applyJ_setAttr_moves (hF.up rfl) h
  · exact applyJ_reclaim_moves (hF.up rfl) h
  · exact applyJ_revive_moves (hF.up rfl) h
  · exact applyJ_leaseRenew_moves (hF.up rfl) h
  · exact applyJ_leaseExpire_moves (hF.up rfl) h
  · exact applyJ_sanitised_moves (hF.up rfl) h
  · exact applyJ_hint_moves (hF.up rfl) h
  · exact applyJ_dirLine_moves (hF.up rfl) h
  · exact applyJ_blockForm_moves (hF.up rfl) h
  · exact applyJ_snap_moves (hF.up rfl) h
  · exact applyJ_jobDesc_moves (hF.up rfl) h
  · exact applyJ_rung_moves (hF.up rfl) h
  · exact applyJ_wake_moves (hF.up rfl) h
  · exact applyJ_fwLevel_moves (hF.up rfl) h
  · exact applyJ_config_moves (hF.up rfl) h

theorem commitJ_moves {F : ℕ} {s t : State} {a1 : JBody} (hF : Sub 536870913 F) (kb : ∀ u, Moves F s u → Moves F s
    (applyJ u a1)) (h : Moves F s t) : Moves F s (commitJ t a1) := by
  unfold commitJ
  repeat'
    (first | (with_reducible assumption) | (with_reducible apply kb) | ((with_reducible refine hF.up ?_); rfl)
            | (intro) | (with_reducible apply Moves.ite) | (with_reducible apply journalSend_moves)
            | (with_reducible apply applyJ_moves))

theorem applyAcked_moves {F : ℕ} {s t : State} (hF : Sub 1125896681422303 F) (h : Moves F s t) : Moves F s
    (applyAcked t) := by
  unfold applyAcked
  repeat'
    (first | (with_reducible assumption) | ((with_reducible refine hF.up ?_); rfl)
            | ((with_reducible refine Or.inr (hF.up ?_)); rfl) | (with_reducible exact Or.inl rfl) | (intro)
            | (extract_lets +onlyGivenNames x; have hx : Moves F s x := ?_; (on_goal 1 => clear_value x); (on_goal 2 => subst x))
            | (extract_lets +onlyGivenNames x; clear_value x) | (with_reducible apply fwrap_moves)
            | (with_reducible apply applyJ_moves) | (with_reducible apply Moves.foldl)
            | (with_reducible apply Moves.upd))

theorem numbered_moves {F : ℕ} {s t : State} {a1 : JBody} (hF : Sub 536870912 F) (h : Moves F s t) : Moves F s
    (numbered t a1).1 := by
  unfold numbered
  repeat'
    (first | (with_reducible assumption) | ((with_reducible refine hF.up ?_); rfl)
            | ((with_reducible refine Or.inr (hF.up ?_)); rfl) | (with_reducible exact Or.inl rfl)
            | (extract_lets +onlyGivenNames x; have hx : Moves F s x := ?_; (on_goal 1 => clear_value x); (on_goal 2 => subst x))
            | (extract_lets +onlyGivenNames x; have hx : Moves F s x.2 := ?_; (on_goal 1 => clear_value x); (on_goal 2 => subst x))
            | (extract_lets +onlyGivenNames x; clear_value x) | (split)
            | (refine nextSeq_movesE (by with_reducible assumption) (hF.up rfl) ?_)
            | (with_reducible apply nextSeq_moves) | (with_reducible apply Moves.upd))

theorem numbered_movesE {F : ℕ} {s t : State} {a1 : JBody} {u : State} {x : JBody} (e : (numbered t a1) = (u, x))
    (hF : Sub 536870912 F) (h : Moves F s t) : Moves F s u := by
  have k : Moves F s (numbered t a1).1 := numbered_moves hF h
  rwa [e] at k

theorem applyAll_moves {F : ℕ} {s t : State} (hF : Sub 1125896681422303 F) (h : Moves F s t) : Moves F s
    (applyAll t) := by
  unfold applyAll
  refine Moves.foldl (fun u e hu => ?_) _ ?_
  · have k : Moves F s (if (e.acked || decide (bRole u = roleLead)) = true then (u, e.body) else numbered u e.body).1 := by
      split
      · exact hu
      · exact numbered_moves (hF.up rfl) hu
    split
    next v b q =>
      rw [q] at k
      exact fwrap_moves (hF.up rfl) (applyJ_moves (hF.up rfl) k)
  · repeat'
      (first | (with_reducible assumption)
             | ((with_reducible refine hF.up ?_); rfl)
             | ((with_reducible refine Or.inr (hF.up ?_)); rfl)
             | (with_reducible exact Or.inl rfl)
             | (with_reducible apply Moves.upd))

end Sys2Proof.Machine
end

