-- ==== Sys2Proof/Laws/MovesBelay.lean ====
section
/-! SUPPORT. What the functions of Machine/Belay.lean keep, and the kinds of state they may change (`Moves`). -/

set_option linter.all false

namespace Sys2Proof.Machine

open Sys2Proof

theorem retrainGroup_moves {F : ℕ} {s t : State} {a1 : ℕ} {a2 : Bool} (hF : Sub 35184908959745 F) (h : Moves F s t)
    : Moves F s (retrainGroup t a1 a2) := by
  unfold retrainGroup
  repeat'
    (first | (with_reducible assumption) | ((with_reducible refine hF.up ?_); rfl)
            | ((with_reducible refine Or.inr (hF.up ?_)); rfl) | (with_reducible exact Or.inl rfl) | (intro)
            | (extract_lets +onlyGivenNames x; have hx : Moves F s x := ?_; (on_goal 1 => clear_value x); (on_goal 2 => subst x))
            | (extract_lets +onlyGivenNames x; clear_value x) | (with_reducible apply Moves.ite)
            | (with_reducible apply fadd_moves) | (with_reducible apply finc_moves)
            | (with_reducible apply emit_moves) | (with_reducible apply Moves.upd))

theorem askRetrain_moves {F : ℕ} {s t : State} {a1 : ℕ} {a2 : Bool} (hF : Sub 35184908959745 F) (h : Moves F s t) :
    Moves F s (askRetrain t a1 a2) := by
  unfold askRetrain
  repeat'
    (first | (with_reducible assumption) | ((with_reducible refine hF.up ?_); rfl)
            | ((with_reducible refine Or.inr (hF.up ?_)); rfl) | (with_reducible exact Or.inl rfl) | (intro)
            | (extract_lets +onlyGivenNames x; have hx : Moves F s x := ?_; (on_goal 1 => clear_value x); (on_goal 2 => subst x))
            | (extract_lets +onlyGivenNames x; clear_value x) | (with_reducible apply Moves.ite)
            | (with_reducible apply retrainGroup_moves) | (with_reducible apply Moves.upd))

theorem askRetrainAll_moves {F : ℕ} {s t : State} {a1 : Bool} (hF : Sub 35184908959745 F) (h : Moves F s t) :
    Moves F s (askRetrainAll t a1) := by
  unfold askRetrainAll
  repeat'
    (first | (with_reducible assumption) | ((with_reducible refine hF.up ?_); rfl) | (intro)
            | (with_reducible apply askRetrain_moves) | (with_reducible apply Moves.foldl))

theorem groupsBoundary_moves {F : ℕ} {s t : State} (hF : Sub 35184908959745 F) (h : Moves F s t) : Moves F s
    (groupsBoundary t) := by
  unfold groupsBoundary
  repeat'
    (first | (with_reducible assumption) | ((with_reducible refine hF.up ?_); rfl)
            | ((with_reducible refine Or.inr (hF.up ?_)); rfl) | (with_reducible exact Or.inl rfl) | (intro)
            | (extract_lets +onlyGivenNames x; have hx : Moves F s x := ?_; (on_goal 1 => clear_value x); (on_goal 2 => subst x))
            | (extract_lets +onlyGivenNames x; clear_value x) | (with_reducible apply Moves.ite)
            | (with_reducible apply retrainGroup_moves) | (with_reducible apply Moves.foldl)
            | (with_reducible apply Moves.upd))

theorem takeBackForwarded_moves {F : ℕ} {s t : State} (hF : Sub 47761103225887 F) (h : Moves F s t) : Moves F s
    (takeBackForwarded t) := by
  unfold takeBackForwarded
  repeat'
    (first | (with_reducible assumption) | ((with_reducible refine hF.up ?_); rfl)
            | ((with_reducible refine Or.inr (hF.up ?_)); rfl) | (with_reducible exact Or.inl rfl) | (intro)
            | (extract_lets +onlyGivenNames x; have hx : Moves F s x := ?_; (on_goal 1 => clear_value x); (on_goal 2 => subst x))
            | (extract_lets +onlyGivenNames x; clear_value x) | (with_reducible apply Moves.ite)
            | (with_reducible apply resend_moves) | (with_reducible apply Moves.foldl)
            | (with_reducible apply Moves.upd))

theorem dropTwinJobs_moves {F : ℕ} {s t : State} {a1 : Bool} (hF : Sub 226951168 F) (h : Moves F s t) : Moves F s
    (dropTwinJobs t a1) := by
  unfold dropTwinJobs
  repeat'
    (first | (with_reducible assumption) | ((with_reducible refine hF.up ?_); rfl) | (intro)
            | (extract_lets +onlyGivenNames x; have hx : Moves F s x := ?_; (on_goal 1 => clear_value x); (on_goal 2 => subst x))
            | (extract_lets +onlyGivenNames x; clear_value x) | (with_reducible apply Moves.ite)
            | (with_reducible apply dropJob_moves) | (with_reducible apply cancelJob_moves)
            | (with_reducible apply Moves.foldl))

theorem continueAlone_moves {F : ℕ} {s t : State} (hF : Sub 1125896681422303 F) (h : Moves F s t) : Moves F s
    (continueAlone t) := by
  unfold continueAlone
  repeat'
    (first | (with_reducible assumption) | ((with_reducible refine hF.up ?_); rfl)
            | ((with_reducible refine Or.inr (hF.up ?_)); rfl) | (with_reducible exact Or.inl rfl) | (intro)
            | (extract_lets +onlyGivenNames x; have hx : Moves F s x := ?_; (on_goal 1 => clear_value x); (on_goal 2 => subst x))
            | (extract_lets +onlyGivenNames x; clear_value x) | (with_reducible apply fset_moves)
            | (with_reducible apply answer_moves) | (with_reducible apply dropTwinSharers_moves)
            | (with_reducible apply setRole_moves) | (with_reducible apply resend_moves)
            | (with_reducible apply commitWaiting_moves) | (with_reducible apply sanAlone_moves)
            | (with_reducible apply applyAll_moves) | (with_reducible apply dropTwinJobs_moves)
            | (with_reducible apply Moves.foldl) | (with_reducible apply Moves.upd))

theorem decideAlone_moves {F : ℕ} {s t : State} {a1 : Bool} (hF : Sub 1125896681422303 F) (h : Moves F s t) :
    Moves F s (decideAlone t a1) := by
  unfold decideAlone
  repeat'
    (first | (with_reducible assumption) | ((with_reducible refine hF.up ?_); rfl)
            | ((with_reducible refine Or.inr (hF.up ?_)); rfl) | (with_reducible exact Or.inl rfl) | (intro)
            | (extract_lets +onlyGivenNames x; have hx : Moves F s x := ?_; (on_goal 1 => clear_value x); (on_goal 2 => subst x))
            | (extract_lets +onlyGivenNames x; clear_value x) | (with_reducible apply Moves.ite) | (split)
            | (with_reducible apply fset_moves) | (with_reducible apply raise_moves)
            | (with_reducible apply fenceAlone_moves) | (with_reducible apply continueAlone_moves)
            | (with_reducible apply Moves.upd))

theorem loseTwin_moves {F : ℕ} {s t : State} {a1 : Bool} (hF : Sub 1125896681422303 F) (h : Moves F s t) : Moves F s
    (loseTwin t a1) := by
  unfold loseTwin
  repeat'
    (first | (with_reducible assumption) | ((with_reducible refine hF.up ?_); rfl)
            | ((with_reducible refine Or.inr (hF.up ?_)); rfl) | (with_reducible exact Or.inl rfl)
            | (extract_lets +onlyGivenNames x; have hx : Moves F s x := ?_; (on_goal 1 => clear_value x); (on_goal 2 => subst x))
            | (extract_lets +onlyGivenNames x; clear_value x) | (with_reducible apply emit_moves)
            | (with_reducible apply raise_moves) | (with_reducible apply twinWaitsOver_moves)
            | (with_reducible apply twinFillsOver_moves) | (with_reducible apply alignOver_moves)
            | (with_reducible apply takeBackForwarded_moves) | (with_reducible apply decideAlone_moves)
            | (with_reducible apply Moves.upd))

theorem heardBeat_moves {F : ℕ} {s t : State} (hF : Sub 35184908959744 F) (h : Moves F s t) : Moves F s
    (heardBeat t) := by
  unfold heardBeat
  repeat'
    (first | (with_reducible assumption) | ((with_reducible refine hF.up ?_); rfl)
            | ((with_reducible refine Or.inr (hF.up ?_)); rfl) | (with_reducible exact Or.inl rfl)
            | (extract_lets +onlyGivenNames x; have hx : Moves F s x := ?_; (on_goal 1 => clear_value x); (on_goal 2 => subst x))
            | (extract_lets +onlyGivenNames x; clear_value x) | (with_reducible apply fset_moves)
            | (with_reducible apply Moves.upd))

theorem missBeat_moves {F : ℕ} {s t : State} (hF : Sub 1125896681422303 F) (h : Moves F s t) : Moves F s
    (missBeat t) := by
  unfold missBeat
  repeat'
    (first | (with_reducible assumption) | ((with_reducible refine hF.up ?_); rfl)
            | ((with_reducible refine Or.inr (hF.up ?_)); rfl) | (with_reducible exact Or.inl rfl) | (intro)
            | (extract_lets +onlyGivenNames x; have hx : Moves F s x := ?_; (on_goal 1 => clear_value x); (on_goal 2 => subst x))
            | (extract_lets +onlyGivenNames x; clear_value x) | (with_reducible apply Moves.ite)
            | (with_reducible apply fset_moves) | (with_reducible apply loseTwin_moves)
            | (with_reducible apply Moves.upd))

theorem unfence_moves {F : ℕ} {s t : State} {a1 : ℕ} {a2 : ℕ} (hF : Sub 35184372089869 F) (h : Moves F s t) :
    Moves F s (unfence t a1 a2) := by
  unfold unfence
  repeat'
    (first | (with_reducible assumption) | ((with_reducible refine hF.up ?_); rfl)
            | (with_reducible apply fset_moves) | (with_reducible apply raise_moves)
            | (with_reducible apply setRole_moves))

theorem renewWitness_moves {F : ℕ} {s t : State} (hF : Sub 1125896681422303 F) (h : Moves F s t) : Moves F s
    (renewWitness t) := by
  unfold renewWitness
  repeat'
    (first | (with_reducible assumption) | ((with_reducible refine hF.up ?_); rfl)
            | ((with_reducible refine Or.inr (hF.up ?_)); rfl) | (with_reducible exact Or.inl rfl) | (intro)
            | (extract_lets +onlyGivenNames x; have hx : Moves F s x := ?_; (on_goal 1 => clear_value x); (on_goal 2 => subst x))
            | (extract_lets +onlyGivenNames x; clear_value x) | (with_reducible apply Moves.ite) | (split)
            | (with_reducible apply continueAlone_moves) | (with_reducible apply unfence_moves)
            | (with_reducible apply Moves.upd))

theorem lapseWitness_moves {F : ℕ} {s t : State} (hF : Sub 47761103750175 F) (h : Moves F s t) : Moves F s
    (lapseWitness t) := by
  unfold lapseWitness
  repeat'
    (first | (with_reducible assumption) | ((with_reducible refine hF.up ?_); rfl)
            | (with_reducible apply raise_moves) | (with_reducible apply fence_moves))

theorem refusePair_moves {F : ℕ} {s t : State} (hF : Sub 35184372089869 F) (h : Moves F s t) : Moves F s
    (refusePair t) := by
  unfold refusePair
  repeat'
    (first | (with_reducible assumption) | ((with_reducible refine hF.up ?_); rfl) | (intro)
            | (extract_lets +onlyGivenNames x; have hx : Moves F s x := ?_; (on_goal 1 => clear_value x); (on_goal 2 => subst x))
            | (extract_lets +onlyGivenNames x; clear_value x) | (with_reducible apply Moves.ite)
            | (with_reducible apply fset_moves) | (with_reducible apply raise_moves)
            | (with_reducible apply setRole_moves))

theorem alignTwin_moves {F : ℕ} {s t : State} {a1 : Sys2Proof.TwinInfo} {a2 : Bool} (hF : Sub 562949953421568 F) (h
    : Moves F s t) : Moves F s (alignTwin t a1 a2) := by
  unfold alignTwin
  repeat'
    (first | (with_reducible assumption) | ((with_reducible refine hF.up ?_); rfl)
            | ((with_reducible refine Or.inr (hF.up ?_)); rfl) | (with_reducible exact Or.inl rfl) | (intro)
            | (extract_lets +onlyGivenNames x; have hx : Moves F s x := ?_; (on_goal 1 => clear_value x); (on_goal 2 => subst x))
            | (extract_lets +onlyGivenNames x; clear_value x) | (with_reducible apply Moves.ite) | (split)
            | (with_reducible apply fset_moves) | (with_reducible apply Moves.upd))

theorem formPair_moves {F : ℕ} {s t : State} {a1 : Sys2Proof.TwinInfo} (hF : Sub 598134862390605 F) (h :
    Moves F s t) : Moves F s (formPair t a1) := by
  unfold formPair
  repeat'
    (first | (with_reducible assumption) | ((with_reducible refine hF.up ?_); rfl)
            | ((with_reducible refine Or.inr (hF.up ?_)); rfl) | (with_reducible exact Or.inl rfl) | (intro)
            | (extract_lets +onlyGivenNames x; have hx : Moves F s x := ?_; (on_goal 1 => clear_value x); (on_goal 2 => subst x))
            | (extract_lets +onlyGivenNames x; clear_value x) | (with_reducible apply Moves.ite) | (split)
            | (with_reducible apply fset_moves) | (with_reducible apply raise_moves)
            | (with_reducible apply setRole_moves) | (with_reducible apply fwMatch_moves)
            | (with_reducible apply streamGap_moves) | (with_reducible apply startResync_moves)
            | (with_reducible apply alignTwin_moves) | (with_reducible apply Moves.upd))

theorem takeBlock_moves {F : ℕ} {s t : State} {a1 : Sys2Proof.CfgBlock} (hF : Sub 538050576 F) (h : Moves F s t) :
    Moves F s (takeBlock t a1) := by
  unfold takeBlock
  repeat'
    (first | (with_reducible assumption) | ((with_reducible refine hF.up ?_); rfl)
            | ((with_reducible refine Or.inr (hF.up ?_)); rfl) | (with_reducible exact Or.inl rfl) | (intro)
            | (extract_lets +onlyGivenNames x; have hx : Moves F s x := ?_; (on_goal 1 => clear_value x); (on_goal 2 => subst x))
            | (extract_lets +onlyGivenNames x; clear_value x) | (with_reducible apply Moves.ite) | (split)
            | (with_reducible apply putBlock_moves) | (with_reducible apply idxOfHeader_moves)
            | (with_reducible apply Moves.upd))

theorem clearSegment_moves {F : ℕ} {s t : State} {a1 : ℕ} (hF : Sub 538312721 F) (h : Moves F s t) : Moves F s
    (clearSegment t a1) := by
  unfold clearSegment
  repeat'
    (first | (with_reducible assumption) | ((with_reducible refine hF.up ?_); rfl)
            | ((with_reducible refine Or.inr (hF.up ?_)); rfl) | (with_reducible exact Or.inl rfl) | (intro)
            | (extract_lets +onlyGivenNames x; have hx : Moves F s x := ?_; (on_goal 1 => clear_value x); (on_goal 2 => subst x))
            | (extract_lets +onlyGivenNames x; clear_value x) | (with_reducible apply Moves.ite) | (split)
            | (with_reducible apply endIos_moves) | (with_reducible apply lockMap_moves)
            | (with_reducible apply stopWriteBack_moves) | (with_reducible apply deallocateBlock_moves)
            | (with_reducible apply unlockStripe_moves) | (with_reducible apply Moves.foldl)
            | (with_reducible apply Moves.upd))

theorem takeSegment_moves {F : ℕ} {s t : State} {a1 : ℕ} {a2 : List Sys2Proof.CfgBlock} (hF : Sub 47692383716383 F)
    (h : Moves F s t) : Moves F s (takeSegment t a1 a2) := by
  unfold takeSegment
  repeat'
    (first | (with_reducible assumption) | ((with_reducible refine hF.up ?_); rfl)
            | ((with_reducible refine Or.inr (hF.up ?_)); rfl) | (with_reducible exact Or.inl rfl)
            | (with_reducible exact fun h => Memory.wf_write h _ _)
            | (with_reducible exact fun h => Memory.wf_write (Memory.wf_zero h _ _) _ _)
            | (with_reducible exact fun h => Memory.wf_zero h _ _) | (with_reducible exact id)
            | (with_reducible exact fun _ => Memory.wf_nil) | (intro)
            | (extract_lets +onlyGivenNames x; have hx : Moves F s x := ?_; (on_goal 1 => clear_value x); (on_goal 2 => subst x))
            | (extract_lets +onlyGivenNames x; clear_value x) | (with_reducible apply Moves.ite) | (split)
            | (with_reducible apply pcUpd_moves) | (with_reducible apply tierReq_moves)
            | (with_reducible apply takeBlock_moves) | (with_reducible apply clearSegment_moves)
            | (with_reducible apply Moves.foldl) | (with_reducible apply Moves.upd)
            | (with_reducible apply Moves.updMem))

theorem segmentDone_moves {F : ℕ} {s t : State} {a1 : ℕ} {a2 : List Sys2Proof.CfgBlock} (hF : Sub 47692383716383 F)
    (h : Moves F s t) : Moves F s (segmentDone t a1 a2) := by
  unfold segmentDone
  repeat'
    (first | (with_reducible assumption) | ((with_reducible refine hF.up ?_); rfl)
            | ((with_reducible refine Or.inr (hF.up ?_)); rfl) | (with_reducible exact Or.inl rfl) | (intro)
            | (extract_lets +onlyGivenNames x; have hx : Moves F s x := ?_; (on_goal 1 => clear_value x); (on_goal 2 => subst x))
            | (extract_lets +onlyGivenNames x; clear_value x) | (with_reducible apply Moves.ite)
            | (with_reducible apply finc_moves) | (with_reducible apply emit_moves)
            | (with_reducible apply takeSegment_moves) | (with_reducible apply Moves.upd))

theorem resyncOver_moves {F : ℕ} {s t : State} (hF : Sub 35184908960781 F) (h : Moves F s t) : Moves F s
    (resyncOver t) := by
  unfold resyncOver
  repeat'
    (first | (with_reducible assumption) | ((with_reducible refine hF.up ?_); rfl)
            | ((with_reducible refine Or.inr (hF.up ?_)); rfl) | (with_reducible exact Or.inl rfl) | (intro)
            | (extract_lets +onlyGivenNames x; have hx : Moves F s x := ?_; (on_goal 1 => clear_value x); (on_goal 2 => subst x))
            | (extract_lets +onlyGivenNames x; clear_value x) | (with_reducible apply Moves.ite)
            | (with_reducible apply fset_moves) | (with_reducible apply raise_moves)
            | (with_reducible apply passDirectory_moves) | (with_reducible apply Moves.upd))

theorem approve_moves {F : ℕ} {s t : State} (hF : Sub 35184910402589 F) (h : Moves F s t) : Moves F s (approve t)
    := by
  unfold approve
  repeat'
    (first | (with_reducible assumption) | ((with_reducible refine hF.up ?_); rfl)
            | ((with_reducible refine Or.inr (hF.up ?_)); rfl) | (with_reducible exact Or.inl rfl) | (intro)
            | (extract_lets +onlyGivenNames x; have hx : Moves F s x := ?_; (on_goal 1 => clear_value x); (on_goal 2 => subst x))
            | (extract_lets +onlyGivenNames x; clear_value x) | (with_reducible apply Moves.ite)
            | (with_reducible apply setLba_moves) | (with_reducible apply dropBlock_moves)
            | (with_reducible apply unfence_moves) | (with_reducible apply Moves.foldl)
            | (with_reducible apply Moves.upd))

theorem twinReq_moves {F : ℕ} {s t : State} {a1 : Req} {a2 : Upset} (hF : Sub 47761103225887 F) (h : Moves F s t) :
    Moves F s (twinReq t a1 a2) := by
  unfold twinReq
  repeat'
    (first | (with_reducible assumption) | ((with_reducible refine hF.up ?_); rfl)
            | ((with_reducible refine Or.inr (hF.up ?_)); rfl) | (with_reducible exact Or.inl rfl) | (split)
            | (with_reducible apply answer_moves) | (with_reducible apply tierReq_moves)
            | (with_reducible apply routeReq_moves) | (with_reducible apply unheld_moves)
            | (with_reducible apply Moves.upd))

theorem answered_moves {F : ℕ} {s t : State} {a1 : ℕ} {a2 : Req → MemRes} (hF : Sub 1100107219969 F) (h :
    Moves F s t) : Moves F s (answered t a1 a2) := by
  unfold answered
  repeat'
    (first | (with_reducible assumption) | ((with_reducible refine hF.up ?_); rfl)
            | ((with_reducible refine Or.inr (hF.up ?_)); rfl) | (with_reducible exact Or.inl rfl) | (intro)
            | (extract_lets +onlyGivenNames x; have hx : Moves F s x := ?_; (on_goal 1 => clear_value x); (on_goal 2 => subst x))
            | (extract_lets +onlyGivenNames x; clear_value x) | (with_reducible apply Moves.ite) | (split)
            | (with_reducible apply mediaEvent_moves) | (with_reducible apply answer_moves)
            | (with_reducible apply Moves.upd))

theorem replaceCopy_moves {F : ℕ} {s t : State} {a1 : ℕ} {a2 : List Byte} (hF : Sub 538050576 F) (h : Moves F s t) :
    Moves F s (replaceCopy t a1 a2) := by
  unfold replaceCopy
  repeat'
    (first | (with_reducible assumption) | ((with_reducible refine hF.up ?_); rfl)
            | (with_reducible apply putBlock_moves) | (with_reducible apply makeRaw_moves)
            | (with_reducible apply noteWrite_moves))

theorem repairBlock_moves {F : ℕ} {s t : State} {a1 : ℕ} {a2 : Option (List Byte)} (hF : Sub 47692383716383 F) (h :
    Moves F s t) : Moves F s (repairBlock t a1 a2) := by
  unfold repairBlock
  repeat'
    (first | (with_reducible assumption) | ((with_reducible refine hF.up ?_); rfl)
            | ((with_reducible refine Or.inr (hF.up ?_)); rfl) | (with_reducible exact Or.inl rfl) | (intro)
            | (extract_lets +onlyGivenNames x; have hx : Moves F s x := ?_; (on_goal 1 => clear_value x); (on_goal 2 => subst x))
            | (extract_lets +onlyGivenNames x; have hx : Moves F s x.1 := ?_; (on_goal 1 => clear_value x); (on_goal 2 => subst x))
            | (extract_lets +onlyGivenNames x; clear_value x) | (with_reducible apply Moves.ite) | (split)
            | (with_reducible apply emit_moves) | (with_reducible apply pcUpd_moves)
            | (refine expandRoom_movesE (by with_reducible assumption) (hF.up rfl) ?_)
            | (with_reducible apply expandRoom_moves) | (with_reducible apply serveHeld_moves)
            | (with_reducible apply twinAnswered_moves) | (with_reducible apply fillFromTwin_moves)
            | (with_reducible apply replaceCopy_moves) | (with_reducible apply Moves.upd))

theorem blockFor_moves {F : ℕ} {s t : State} {a1 : ℕ} (hF : Sub 47692383716383 F) (h : Moves F s t) : Moves F s
    (blockFor t a1).1 := by
  unfold blockFor
  repeat'
    (first | (with_reducible assumption) | ((with_reducible refine hF.up ?_); rfl)
            | ((with_reducible refine Or.inr (hF.up ?_)); rfl) | (with_reducible exact Or.inl rfl) | (intro)
            | (extract_lets +onlyGivenNames x; have hx : Moves F s x := ?_; (on_goal 1 => clear_value x); (on_goal 2 => subst x))
            | (extract_lets +onlyGivenNames x; have hx : Moves F s x.1 := ?_; (on_goal 1 => clear_value x); (on_goal 2 => subst x))
            | (extract_lets +onlyGivenNames x; clear_value x) | (with_reducible apply Moves.ite) | (split)
            | (refine decodeBlock_movesE (by with_reducible assumption) (hF.up rfl) ?_)
            | (with_reducible apply decodeBlock_moves) | (with_reducible apply residentNow_moves)
            | (with_reducible apply Moves.upd))

theorem blockFor_movesE {F : ℕ} {s t : State} {a1 : ℕ} {u : State} {x : Option (List Byte)} (e : (blockFor t a1) =
    (u, x)) (hF : Sub 47692383716383 F) (h : Moves F s t) : Moves F s u := by
  have k : Moves F s (blockFor t a1).1 := blockFor_moves hF h
  rwa [e] at k

theorem mirrored_moves {F : ℕ} {s t : State} {a1 : Sys2Proof.MirrorMsg} (hF : Sub 47761103225887 F) (h :
    Moves F s t) : Moves F s (mirrored t a1) := by
  unfold mirrored
  repeat'
    (first | (with_reducible assumption) | ((with_reducible refine hF.up ?_); rfl)
            | ((with_reducible refine Or.inr (hF.up ?_)); rfl) | (with_reducible exact Or.inl rfl) | (intro)
            | (extract_lets +onlyGivenNames x; have hx : Moves F s x := ?_; (on_goal 1 => clear_value x); (on_goal 2 => subst x))
            | (extract_lets +onlyGivenNames x; clear_value x) | (split) | (with_reducible apply answer_moves)
            | (with_reducible apply stageBytes_moves) | (with_reducible apply twinReq_moves)
            | (with_reducible apply Moves.upd))

theorem forwardedMsg_moves {F : ℕ} {s t : State} {a1 : Sys2Proof.FwdMsg} (hF : Sub 329270440207391 F) (h :
    Moves F s t) : Moves F s (forwardedMsg t a1) := by
  unfold forwardedMsg
  repeat'
    (first | (with_reducible assumption) | ((with_reducible refine hF.up ?_); rfl)
            | ((with_reducible refine Or.inr (hF.up ?_)); rfl) | (with_reducible exact Or.inl rfl) | (intro)
            | (extract_lets +onlyGivenNames x; have hx : Moves F s x := ?_; (on_goal 1 => clear_value x); (on_goal 2 => subst x))
            | (extract_lets +onlyGivenNames x; have hx : Moves F s x.1 := ?_; (on_goal 1 => clear_value x); (on_goal 2 => subst x))
            | (extract_lets +onlyGivenNames x; clear_value x) | (split) | (with_reducible apply emit_moves)
            | (with_reducible apply biAnswer_moves) | (with_reducible apply evictClean_moves)
            | (with_reducible apply snoopForTwin_moves) | (with_reducible apply twinDiscarded_moves)
            | (with_reducible apply twinReq_moves) | (with_reducible apply answered_moves)
            | (with_reducible apply repairBlock_moves)
            | (refine blockFor_movesE (by with_reducible assumption) (hF.up rfl) ?_)
            | (with_reducible apply blockFor_moves) | (with_reducible apply Moves.upd))

theorem journalMsg_moves {F : ℕ} {s t : State} {a1 : Sys2Proof.JMsg} (hF : Sub 536871041 F) (h : Moves F s t) :
    Moves F s (journalMsg t a1) := by
  unfold journalMsg
  repeat'
    (first | (with_reducible assumption) | ((with_reducible refine hF.up ?_); rfl)
            | ((with_reducible refine Or.inr (hF.up ?_)); rfl) | (with_reducible exact Or.inl rfl) | (intro)
            | (extract_lets +onlyGivenNames x; have hx : Moves F s x := ?_; (on_goal 1 => clear_value x); (on_goal 2 => subst x))
            | (extract_lets +onlyGivenNames x; have hx : Moves F s x.1 := ?_; (on_goal 1 => clear_value x); (on_goal 2 => subst x))
            | (extract_lets +onlyGivenNames x; clear_value x) | (with_reducible apply Moves.ite) | (split)
            | (with_reducible apply emit_moves) | (with_reducible apply touch_moves)
            | (with_reducible apply journalSend_moves)
            | (refine numbered_movesE (by with_reducible assumption) (hF.up rfl) ?_)
            | (with_reducible apply numbered_moves) | (with_reducible apply Moves.upd))

theorem applyDue_moves {F : ℕ} {s t : State} (hF : Sub 1125896681422303 F) (h : Moves F s t) : Moves F s
    (applyDue t) := by
  unfold applyDue
  repeat'
    (first | (with_reducible assumption) | ((with_reducible refine hF.up ?_); rfl)
            | ((with_reducible refine Or.inr (hF.up ?_)); rfl) | (with_reducible exact Or.inl rfl) | (intro)
            | (extract_lets +onlyGivenNames x; have hx : Moves F s x := ?_; (on_goal 1 => clear_value x); (on_goal 2 => subst x))
            | (extract_lets +onlyGivenNames x; clear_value x) | (with_reducible apply Moves.ite)
            | (with_reducible apply applyAcked_moves) | (with_reducible apply Moves.upd))

theorem adoptJobs_moves {F : ℕ} {s t : State} {a1 : List Job} (hF : Sub 16777216 F) (h : Moves F s t) : Moves F s
    (adoptJobs t a1) := by
  unfold adoptJobs
  repeat'
    (first | (with_reducible assumption) | ((with_reducible refine hF.up ?_); rfl) | (intro)
            | (with_reducible apply rerunOn_moves) | (with_reducible apply Moves.foldl))

theorem losePortDie_moves {F : ℕ} {s t : State} {a1 : ℕ} (hF : Sub 347422047839839 F) (h : Moves F s t) : Moves F s
    (losePortDie t a1) := by
  unfold losePortDie
  repeat'
    (first | (with_reducible assumption) | ((with_reducible refine hF.up ?_); rfl)
            | ((with_reducible refine Or.inr (hF.up ?_)); rfl) | (with_reducible exact Or.inl rfl) | (intro)
            | (extract_lets +onlyGivenNames x; have hx : Moves F s x := ?_; (on_goal 1 => clear_value x); (on_goal 2 => subst x))
            | (extract_lets +onlyGivenNames x; have hx : ∀ u , Moves F s u → Moves F s (x u ) := ?_; (on_goal 1 => clear_value x); (on_goal 2 => subst x))
            | (extract_lets +onlyGivenNames x; have hx : ∀ u a, Moves F s u → Moves F s (x u a) := ?_; (on_goal 1 => clear_value x); (on_goal 2 => subst x))
            | (extract_lets +onlyGivenNames x; have hx : ∀ u a b, Moves F s u → Moves F s (x u a b) := ?_; (on_goal 1 => clear_value x); (on_goal 2 => subst x))
            | (extract_lets +onlyGivenNames x; clear_value x) | (with_reducible apply Moves.ite) | (split)
            | (with_reducible apply fset_moves) | (with_reducible apply raise_moves)
            | (with_reducible apply coverEvt_moves) | (with_reducible apply linkLost_moves)
            | (with_reducible apply losePath_moves) | (with_reducible apply takeover_moves)
            | (with_reducible apply adoptJobs_moves) | (with_reducible apply_assumption)
            | (with_reducible apply Moves.foldl) | (with_reducible apply Moves.upd))

theorem execPairing_moves {F : ℕ} {s t : State} {a0 : Sys2Proof.TwinInfo} (hF : Sub 598134862390605 F) (h :
    Moves F s t) : ∃ u, (execPairing a0 t) = .next u ∧ Moves F s u := by
  unfold execPairing
  refine ⟨_, rfl, ?_⟩
  repeat'
    (first | (with_reducible assumption) | ((with_reducible refine hF.up ?_); rfl) | (intro)
            | (with_reducible apply Moves.ite) | (split) | (with_reducible apply refusePair_moves)
            | (with_reducible apply formPair_moves))

theorem execHeartbeatReceived_moves {F : ℕ} {s t : State} {a0 : Group} {a1 : ℕ} (hF : Sub 35184908959744 F) (h :
    Moves F s t) : ∃ u, (execHeartbeatReceived a0 a1 t) = .next u ∧ Moves F s u := by
  unfold execHeartbeatReceived
  refine ⟨_, rfl, ?_⟩
  repeat'
    (first | (with_reducible assumption) | ((with_reducible refine hF.up ?_); rfl)
            | ((with_reducible refine Or.inr (hF.up ?_)); rfl) | (with_reducible exact Or.inl rfl) | (intro)
            | (extract_lets +onlyGivenNames x; have hx : Moves F s x := ?_; (on_goal 1 => clear_value x); (on_goal 2 => subst x))
            | (extract_lets +onlyGivenNames x; clear_value x) | (with_reducible apply Moves.ite) | (split)
            | (with_reducible apply heardBeat_moves) | (with_reducible apply Moves.upd))

theorem execHeartbeatMiss_moves {F : ℕ} {s t : State} (hF : Sub 1125896681422303 F) (h : Moves F s t) : ∃ u,
    (execHeartbeatMiss t) = .next u ∧ Moves F s u := by
  unfold execHeartbeatMiss
  refine ⟨_, rfl, ?_⟩
  repeat'
    (first | (with_reducible assumption) | ((with_reducible refine hF.up ?_); rfl) | (intro)
            | (with_reducible apply Moves.ite) | (split) | (with_reducible apply missBeat_moves))

theorem execLeaving_moves {F : ℕ} {s t : State} (hF : Sub 1125896681422303 F) (h : Moves F s t) : ∃ u,
    (execLeaving t) = .next u ∧ Moves F s u := by
  unfold execLeaving
  refine ⟨_, rfl, ?_⟩
  repeat'
    (first | (with_reducible assumption) | ((with_reducible refine hF.up ?_); rfl) | (intro)
            | (with_reducible apply Moves.ite) | (split) | (with_reducible apply loseTwin_moves))

theorem execGroupDown_moves {F : ℕ} {s t : State} {a0 : Group} (hF : Sub 35184372089869 F) (h : Moves F s t) : ∃ u,
    (execGroupDown a0 t) = .next u ∧ Moves F s u := by
  unfold execGroupDown
  refine ⟨_, rfl, ?_⟩
  repeat'
    (first | (with_reducible assumption) | ((with_reducible refine hF.up ?_); rfl) | (intro)
            | (with_reducible apply Moves.ite) | (split) | (with_reducible apply fset_moves)
            | (with_reducible apply raise_moves))

theorem execGroupUp_moves {F : ℕ} {s t : State} {a0 : Group} {a1 : Bool} (hF : Sub 35184372088832 F) (h :
    Moves F s t) : ∃ u, (execGroupUp a0 a1 t) = .next u ∧ Moves F s u := by
  unfold execGroupUp
  refine ⟨_, rfl, ?_⟩
  repeat'
    (first | (with_reducible assumption) | ((with_reducible refine hF.up ?_); rfl) | (intro)
            | (with_reducible apply Moves.ite) | (split) | (with_reducible apply fset_moves))

theorem execWitnessWaitExpiry_moves {F : ℕ} {s t : State} (hF : Sub 329270440207391 F) (h : Moves F s t) : ∃ u,
    (execWitnessWaitExpiry t) = .next u ∧ Moves F s u := by
  unfold execWitnessWaitExpiry
  refine ⟨_, rfl, ?_⟩
  repeat'
    (first | (with_reducible assumption) | ((with_reducible refine hF.up ?_); rfl) | (intro)
            | (with_reducible apply Moves.ite) | (split) | (with_reducible apply fenceAlone_moves))

theorem execWitnessLapsed_moves {F : ℕ} {s t : State} (hF : Sub 47761103750175 F) (h : Moves F s t) : ∃ u,
    (execWitnessLapsed t) = .next u ∧ Moves F s u := by
  unfold execWitnessLapsed
  refine ⟨_, rfl, ?_⟩
  repeat'
    (first | (with_reducible assumption) | ((with_reducible refine hF.up ?_); rfl) | (intro)
            | (with_reducible apply Moves.ite) | (split) | (with_reducible apply lapseWitness_moves))

theorem execMirroredWrite_moves {F : ℕ} {s t : State} {a0 : Sys2Proof.MirrorMsg} (hF : Sub 47761103225887 F) (h :
    Moves F s t) : ∃ u, (execMirroredWrite a0 t) = .next u ∧ Moves F s u := by
  unfold execMirroredWrite
  refine ⟨_, rfl, ?_⟩
  repeat'
    (first | (with_reducible assumption) | ((with_reducible refine hF.up ?_); rfl) | (intro)
            | (with_reducible apply Moves.ite) | (split) | (with_reducible apply mirrored_moves))

theorem execForwardedRequest_moves {F : ℕ} {s t : State} {a0 : Sys2Proof.FwdMsg} (hF : Sub 329270440207391 F) (h :
    Moves F s t) : ∃ u, (execForwardedRequest a0 t) = .next u ∧ Moves F s u := by
  unfold execForwardedRequest
  refine ⟨_, rfl, ?_⟩
  repeat'
    (first | (with_reducible assumption) | ((with_reducible refine hF.up ?_); rfl) | (intro)
            | (with_reducible apply Moves.ite) | (split) | (with_reducible apply forwardedMsg_moves))

theorem execJournalEntry_moves {F : ℕ} {s t : State} {a0 : Sys2Proof.JMsg} (hF : Sub 536871041 F) (h : Moves F s t)
    : ∃ u, (execJournalEntry a0 t) = .next u ∧ Moves F s u := by
  unfold execJournalEntry
  refine ⟨_, rfl, ?_⟩
  repeat'
    (first | (with_reducible assumption) | ((with_reducible refine hF.up ?_); rfl) | (intro)
            | (with_reducible apply Moves.ite) | (split) | (with_reducible apply journalMsg_moves))

theorem execJournalApply_moves {F : ℕ} {s t : State} (hF : Sub 1125896681422303 F) (h : Moves F s t) : ∃ u,
    (execJournalApply t) = .next u ∧ Moves F s u := by
  unfold execJournalApply
  refine ⟨_, rfl, ?_⟩
  repeat'
    (first | (with_reducible assumption) | ((with_reducible refine hF.up ?_); rfl) | (intro)
            | (with_reducible apply Moves.ite) | (split) | (with_reducible apply applyDue_moves))

theorem execResyncSegmentDone_moves {F : ℕ} {s t : State} {a0 : ℕ} {a1 : List Sys2Proof.CfgBlock} (hF
    : Sub 47692383716383 F) (h : Moves F s t) : ∃ u, (execResyncSegmentDone a0 a1 t) = .next u ∧ Moves F s u := by
  unfold execResyncSegmentDone
  refine ⟨_, rfl, ?_⟩
  repeat'
    (first | (with_reducible assumption) | ((with_reducible refine hF.up ?_); rfl) | (intro)
            | (with_reducible apply Moves.ite) | (split) | (with_reducible apply segmentDone_moves))

theorem execResyncDone_moves {F : ℕ} {s t : State} (hF : Sub 35184908960781 F) (h : Moves F s t) : ∃ u,
    (execResyncDone t) = .next u ∧ Moves F s u := by
  unfold execResyncDone
  refine ⟨_, rfl, ?_⟩
  repeat'
    (first | (with_reducible assumption) | ((with_reducible refine hF.up ?_); rfl) | (intro)
            | (with_reducible apply Moves.ite) | (split) | (with_reducible apply resyncOver_moves))

theorem execTwinNoAnswer_moves {F : ℕ} {s t : State} (hF : Sub 1125896681422303 F) (h : Moves F s t) : ∃ u,
    (execTwinNoAnswer t) = .next u ∧ Moves F s u := by
  unfold execTwinNoAnswer
  refine ⟨_, rfl, ?_⟩
  repeat'
    (first | (with_reducible assumption) | ((with_reducible refine hF.up ?_); rfl) | (intro)
            | (with_reducible apply Moves.ite) | (split) | (with_reducible apply loseTwin_moves))

theorem execPortDieLost_moves {F : ℕ} {s t : State} {a0 : PortDie} (hF : Sub 347422047839839 F) (h : Moves F s t) :
    ∃ u, (execPortDieLost a0 t) = .next u ∧ Moves F s u := by
  unfold execPortDieLost
  refine ⟨_, rfl, ?_⟩
  repeat'
    (first | (with_reducible assumption) | ((with_reducible refine hF.up ?_); rfl) | (intro)
            | (with_reducible apply losePortDie_moves))

end Sys2Proof.Machine
end

