-- ==== Sys2Proof/Laws/MovesPageWrite.lean ====
section
/-! SUPPORT. What the functions of Machine/PageWrite.lean keep, and the kinds of state they may change (`Moves`). -/

set_option linter.all false

namespace Sys2Proof.Machine

open Sys2Proof

theorem storeFlds_moves {F : ℕ} {s t : State} {b : Blk} {i off : ℕ} {nv : Fld → ℕ → ℕ}
    (hF : Sub (2 ^ (Kind.page b).num) F) (h : Moves F s t) : Moves F s (storeFlds t b i off nv) := by
  refine Moves.foldlMem _ (fun u x hx hu => ?_) h
  split
  · next e => exact .ite (fun _ => fset_moves (by rw [kind_rw (fieldsAt_blk hx) (.inl e)]; exact hF) hu) (fun _ => hu)
  · next e => exact .ite (fun _ => fset_moves (by rw [kind_rw (fieldsAt_blk hx) (.inr e)]; exact hF) hu) (fun _ => hu)
  · exact hu

theorem storeLate_moves {F : ℕ} {s t : State} {b : Blk} {i off : ℕ} {nv : Fld → ℕ → ℕ}
    (hF : Sub (2 ^ (Kind.page b).num) F) (h : Moves F s t) : Moves F s (storeLate t b i off nv) := by
  refine Moves.foldlMem _ (fun u x hx hu => ?_) h
  split
  · next e => exact .ite (fun _ => hu) (fun _ => fsetLate_moves (by rw [kind_rw (fieldsAt_blk hx) (.inl e)]; exact hF) hu)
  · next e => exact .ite (fun _ => hu) (fun _ => fsetLate_moves (by rw [kind_rw (fieldsAt_blk hx) (.inr e)]; exact hF) hu)
  · exact hu

theorem setMarks_moves {F : ℕ} {s t : State} {a1 : ℕ} {a2 : ℕ} {a3 : ℕ} (hF : Sub 563087392374784 F) (h :
    Moves F s t) : Moves F s (setMarks t a1 a2 a3) := by
  unfold setMarks
  repeat'
    (first | (with_reducible assumption) | ((with_reducible refine hF.up ?_); rfl) | (intro)
            | (extract_lets +onlyGivenNames x; have hx : Moves F s x := ?_; (on_goal 1 => clear_value x); (on_goal 2 => subst x))
            | (extract_lets +onlyGivenNames x; clear_value x) | (with_reducible apply Moves.ite)
            | (with_reducible apply fset_moves) | (with_reducible apply fsetLate_moves))

theorem settleRecord_moves {F : ℕ} {s t : State} {a1 : Settings → Settings} (hF : Sub 64 F) (h : Moves F s t) :
    Moves F s (settleRecord t a1) := by
  unfold settleRecord
  repeat'
    (first | (with_reducible assumption) | ((with_reducible refine hF.up ?_); rfl)
            | ((with_reducible refine Or.inr (hF.up ?_)); rfl) | (with_reducible exact Or.inl rfl)
            | (extract_lets +onlyGivenNames x; have hx : Moves F s x := ?_; (on_goal 1 => clear_value x); (on_goal 2 => subst x))
            | (extract_lets +onlyGivenNames x; clear_value x) | (with_reducible apply Moves.upd))

theorem renewPage_moves {F : ℕ} {s t : State} {a1 : Part} (hF : Sub 17716745229 F) (h : Moves F s t) : Moves F s
    (renewPage t a1) := by
  unfold renewPage
  repeat'
    (first | (with_reducible assumption) | ((with_reducible refine hF.up ?_); rfl) | (intro)
            | (extract_lets +onlyGivenNames x; have hx : Moves F s x := ?_; (on_goal 1 => clear_value x); (on_goal 2 => subst x))
            | (extract_lets +onlyGivenNames x; clear_value x) | (with_reducible apply Moves.ite)
            | (with_reducible apply finc_moves) | (with_reducible apply record_moves)
            | (with_reducible apply journalSend_moves) | (with_reducible apply doRenew_moves))

theorem snapCmd_moves {F : ℕ} {s t : State} {a1 : Part} {a2 : ℕ} {a3 : ℕ} {a4 : ℕ} (hF : Sub 69458134029 F) (h :
    Moves F s t) : Moves F s (snapCmd t a1 a2 a3 a4) := by
  unfold snapCmd
  repeat'
    (first | (with_reducible assumption) | ((with_reducible refine hF.up ?_); rfl) | (intro u hu)
            | (with_reducible apply applyJ_snap_moves) | (intro) | (with_reducible apply Moves.ite)
            | (with_reducible apply fset_moves) | (with_reducible apply commitJ_moves))

theorem trainAs_moves {F : ℕ} {s t : State} {a1 : ℕ} {a2 : Bool} (hF : Sub 2199090364416 F) (h : Moves F s t) :
    Moves F s (trainAs t a1 a2) := by
  unfold trainAs
  repeat'
    (first | (with_reducible assumption) | ((with_reducible refine hF.up ?_); rfl)
            | ((with_reducible refine Or.inr (hF.up ?_)); rfl) | (with_reducible exact Or.inl rfl) | (intro)
            | (extract_lets +onlyGivenNames x; have hx : Moves F s x := ?_; (on_goal 1 => clear_value x); (on_goal 2 => subst x))
            | (extract_lets +onlyGivenNames x; clear_value x) | (with_reducible apply Moves.ite)
            | (with_reducible apply fset_moves) | (with_reducible apply pcUpd_moves)
            | (with_reducible apply doTrainRun_moves) | (with_reducible apply Moves.upd))

theorem ringCtrl_moves {F : ℕ} {s t : State} {a1 : Part} {a2 : Ring} {a3 : Fld → ℕ → ℕ} (hF : Sub 549984863247 F) (h
    : Moves F s t) : Moves F s (ringCtrl t a1 a2 a3) := by
  unfold ringCtrl
  repeat'
    (first | (with_reducible assumption) | ((with_reducible refine hF.up ?_); rfl) | (intro)
            | (extract_lets +onlyGivenNames x; have hx : Moves F s x := ?_; (on_goal 1 => clear_value x); (on_goal 2 => subst x))
            | (extract_lets +onlyGivenNames x; clear_value x) | (with_reducible apply Moves.ite)
            | (with_reducible apply fset_moves) | (with_reducible apply setRingEnable_moves))

theorem qosSet_moves {F : ℕ} {s t : State} {i off : ℕ} {nv : Fld → ℕ → ℕ} (hF : Sub 1100048498689 F) (h :
    Moves F s t) :
    Moves F s (qosSet t i off nv) := by
  unfold qosSet
  extract_lets was v now
  have hv : Moves F s v := by
    refine Moves.foldlMem _ (fun u x hx hu => ?_) h
    extract_lets n cur
    refine .ite (fun _ => hu) (fun hne => ?_)
    have hacc : x.fld.desc.acc = .rw := by
      by_contra hc
      exact hne (.inl hc)
    have hk := kind_rw (fieldsAt_blk hx) (.inl hacc)
    have hS : Sub (2 ^ x.fld.kind.num) F := by rw [hk]; exact hF.up rfl
    refine .ite (fun _ => fsetLate_moves hS hu) (fun _ => ?_)
    split
    · exact .ite (fun _ => fsetLate_moves hS hu) (fun _ => fsetNow_moves hS hu)
    · exact .ite (fun _ => fsetLate_moves hS hu) (fun _ => fsetNow_moves hS hu)
    · exact fsetNow_moves hS hu
  clear_value v
  exact .ite (fun _ => journalSend_moves (hF.up rfl) hv) (fun _ => hv)

theorem guarSet_moves {F : ℕ} {s t : State} {a1 : ℕ} {a2 : ℕ} (hF : Sub 1100048499725 F) (h : Moves F s t) :
    Moves F s (guarSet t a1 a2) := by
  unfold guarSet
  repeat'
    (first | (with_reducible assumption) | ((with_reducible refine hF.up ?_); rfl) | (intro)
            | (extract_lets +onlyGivenNames x; have hx : Moves F s x := ?_; (on_goal 1 => clear_value x); (on_goal 2 => subst x))
            | (extract_lets +onlyGivenNames x; clear_value x) | (with_reducible apply Moves.ite)
            | (with_reducible apply journalSend_moves) | (with_reducible apply setGuar_moves))

theorem belayCfg_moves {F : ℕ} {s t : State} {a1 : Fld → ℕ → ℕ} (hF : Sub 35184908959809 F) (h : Moves F s t) :
    Moves F s (belayCfg t a1) := by
  unfold belayCfg
  repeat'
    (first | (with_reducible assumption) | ((with_reducible refine hF.up ?_); rfl)
            | ((with_reducible refine Or.inr (hF.up ?_)); rfl) | (with_reducible exact Or.inl rfl) | (intro)
            | (extract_lets +onlyGivenNames x; have hx : Moves F s x := ?_; (on_goal 1 => clear_value x); (on_goal 2 => subst x))
            | (extract_lets +onlyGivenNames x; clear_value x) | (with_reducible apply Moves.ite)
            | (with_reducible apply fset_moves) | (with_reducible apply journalSend_moves)
            | (with_reducible apply storeLate_moves) | (with_reducible apply settleRecord_moves)
            | (with_reducible apply Moves.upd))

theorem belayCtrl_moves {F : ℕ} {s t : State} {a1 : Bool} {a2 : Bool} {a3 : Bool} {a4 : Bool} (hF
    : Sub 892237573498143 F) (h : Moves F s t) : Moves F s (belayCtrl t a1 a2 a3 a4) := by
  unfold belayCtrl
  repeat'
    (first | (with_reducible assumption) | ((with_reducible refine hF.up ?_); rfl) | (intro u hu)
            | (with_reducible apply applyJ_reg_moves) | (intro)
            | (extract_lets +onlyGivenNames x; have hx : Moves F s x := ?_; (on_goal 1 => clear_value x); (on_goal 2 => subst x))
            | (extract_lets +onlyGivenNames x; clear_value x) | (with_reducible apply Moves.ite)
            | (with_reducible apply sendLeaving_moves) | (with_reducible apply commitJ_moves)
            | (with_reducible apply askRetrainAll_moves) | (with_reducible apply approve_moves))

theorem idePolicy_moves {F : ℕ} {s t : State} {a1 : ℕ} (hF : Sub 282162401051661 F) (h : Moves F s t) : Moves F s
    (idePolicy t a1) := by
  unfold idePolicy
  repeat'
    (first | (with_reducible assumption) | ((with_reducible refine hF.up ?_); rfl) | (intro)
            | (extract_lets +onlyGivenNames x; have hx : Moves F s x := ?_; (on_goal 1 => clear_value x); (on_goal 2 => subst x))
            | (extract_lets +onlyGivenNames x; clear_value x) | (with_reducible apply fset_moves)
            | (with_reducible apply mastersMoved_moves) | (with_reducible apply Moves.foldl))

theorem mfpCfg_moves {F : ℕ} {s t : State} {a1 : ℕ} {a2 : Bool} {a3 : Fld → ℕ → ℕ} (hF : Sub 140737488355328 F) (h :
    Moves F s t) : Moves F s (mfpCfg t a1 a2 a3) := by
  unfold mfpCfg
  repeat'
    (first | (with_reducible assumption) | ((with_reducible refine hF.up ?_); rfl)
            | (extract_lets +onlyGivenNames x; have hx : Moves F s x := ?_; (on_goal 1 => clear_value x); (on_goal 2 => subst x))
            | (extract_lets +onlyGivenNames x; clear_value x) | (with_reducible apply fset_moves)
            | (with_reducible apply setFunc_moves))

theorem applyPort_moves {F : ℕ} {s t : State} {a1 : ℕ} {a2 : ℕ} {a3 : Fld → ℕ → ℕ} (hF : Sub 329829861795423 F) (h :
    Moves F s t) : Moves F s (applyPort t a1 a2 a3) := by
  unfold applyPort
  repeat'
    (first | (with_reducible assumption) | ((with_reducible refine hF.up ?_); rfl) | (intro)
            | (extract_lets +onlyGivenNames x; have hx : Moves F s x := ?_; (on_goal 1 => clear_value x); (on_goal 2 => subst x))
            | (extract_lets +onlyGivenNames x; clear_value x) | (with_reducible apply Moves.ite)
            | (with_reducible apply retrainHead_moves) | (with_reducible apply disableHead_moves)
            | (with_reducible apply storeFlds_moves))

theorem applyPart_moves {F : ℕ} {s t : State} {a1 : ℕ} {a2 : ℕ} {a3 : Fld → ℕ → ℕ} (hF : Sub 17716745229 F) (h :
    Moves F s t) : Moves F s (applyPart t a1 a2 a3) := by
  unfold applyPart
  repeat'
    (first | (with_reducible assumption) | ((with_reducible refine hF.up ?_); rfl) | (intro)
            | (extract_lets +onlyGivenNames x; have hx : Moves F s x := ?_; (on_goal 1 => clear_value x); (on_goal 2 => subst x))
            | (extract_lets +onlyGivenNames x; clear_value x) | (with_reducible apply Moves.ite) | (split)
            | (with_reducible apply journalSend_moves) | (with_reducible apply storeFlds_moves)
            | (with_reducible apply renewPage_moves))

theorem applyDir_moves {F : ℕ} {s t : State} {a1 : ℕ} {a2 : ℕ} {a3 : Fld → ℕ → ℕ} (hF : Sub 599320508704013 F) (h :
    Moves F s t) : Moves F s (applyDir t a1 a2 a3) := by
  unfold applyDir
  repeat'
    (first | (with_reducible assumption) | ((with_reducible refine hF.up ?_); rfl) | (intro u hu)
            | (with_reducible apply applyJ_reg_moves) | (intro) | (with_reducible apply Moves.ite) | (split)
            | (with_reducible apply commitJ_moves) | (with_reducible apply storeFlds_moves)
            | (with_reducible apply snapCmd_moves))

theorem applyTier_moves {F : ℕ} {s t : State} {a1 : ℕ} {a2 : ℕ} {a3 : Fld → ℕ → ℕ} (hF : Sub 610711057171487 F) (h :
    Moves F s t) : Moves F s (applyTier t a1 a2 a3) := by
  unfold applyTier
  repeat'
    (first | (with_reducible assumption) | ((with_reducible refine hF.up ?_); rfl) | (intro)
            | (extract_lets +onlyGivenNames x; have hx : Moves F s x := ?_; (on_goal 1 => clear_value x); (on_goal 2 => subst x))
            | (extract_lets +onlyGivenNames x; clear_value x) | (with_reducible apply Moves.ite) | (split)
            | (with_reducible apply fset_moves) | (with_reducible apply showAttn_moves)
            | (with_reducible apply setHintEnable_moves) | (with_reducible apply setHintProducer_moves)
            | (with_reducible apply pressButton_moves) | (with_reducible apply storeFlds_moves)
            | (with_reducible apply setMarks_moves))

theorem applyJob_moves {F : ℕ} {s t : State} {a1 : ℕ} {a2 : ℕ} {a3 : Fld → ℕ → ℕ} (hF : Sub 549984863247 F) (h :
    Moves F s t) : Moves F s (applyJob t a1 a2 a3) := by
  unfold applyJob
  repeat'
    (first | (with_reducible assumption) | ((with_reducible refine hF.up ?_); rfl) | (intro)
            | (extract_lets +onlyGivenNames x; have hx : Moves F s x := ?_; (on_goal 1 => clear_value x); (on_goal 2 => subst x))
            | (extract_lets +onlyGivenNames x; clear_value x) | (with_reducible apply Moves.ite) | (split)
            | (with_reducible apply fset_moves) | (with_reducible apply ringCtrl_moves))

theorem applyQos_moves {F : ℕ} {s t : State} {a1 : ℕ} {a2 : ℕ} {a3 : Fld → ℕ → ℕ} (hF : Sub 1100083102733 F) (h :
    Moves F s t) : Moves F s (applyQos t a1 a2 a3) := by
  unfold applyQos
  repeat'
    (first | (with_reducible assumption) | ((with_reducible refine hF.up ?_); rfl) | (intro)
            | (with_reducible apply Moves.ite) | (with_reducible apply setReclaim_moves)
            | (with_reducible apply qosSet_moves) | (with_reducible apply guarSet_moves))

theorem applyPc_moves {F : ℕ} {s t : State} {a1 : ℕ} {a2 : ℕ} {a3 : Bool} {a4 : Fld → ℕ → ℕ} (hF
    : Sub 47554944762911 F) (h : Moves F s t) : Moves F s (applyPc t a1 a2 a3 a4) := by
  unfold applyPc
  repeat'
    (first | (with_reducible assumption) | ((with_reducible refine hF.up ?_); rfl) | (intro)
            | (extract_lets +onlyGivenNames x; have hx : Moves F s x := ?_; (on_goal 1 => clear_value x); (on_goal 2 => subst x))
            | (extract_lets +onlyGivenNames x; clear_value x) | (with_reducible apply Moves.ite)
            | (with_reducible apply freezeAct_moves) | (with_reducible apply storeFlds_moves)
            | (with_reducible apply storeLate_moves) | (with_reducible apply trainAs_moves))

theorem applyRas_moves {F : ℕ} {s t : State} {a1 : ℕ} {a2 : Fld → ℕ → ℕ} (hF : Sub 47554944762911 F) (h :
    Moves F s t) : Moves F s (applyRas t a1 a2) := by
  unfold applyRas
  repeat'
    (first | (with_reducible assumption) | ((with_reducible refine hF.up ?_); rfl) | (intro)
            | (with_reducible apply Moves.ite) | (with_reducible apply retireCmd_moves)
            | (with_reducible apply storeFlds_moves))

theorem applyBelay_moves {F : ℕ} {s t : State} {a1 : ℕ} {a2 : Fld → ℕ → ℕ} (hF : Sub 1125896681422303 F) (h :
    Moves F s t) : Moves F s (applyBelay t a1 a2) := by
  unfold applyBelay
  repeat'
    (first | (with_reducible assumption) | ((with_reducible refine hF.up ?_); rfl) | (intro)
            | (with_reducible apply Moves.ite) | (with_reducible apply renewWitness_moves)
            | (with_reducible apply belayCfg_moves) | (with_reducible apply belayCtrl_moves))

theorem applyPwr_moves {F : ℕ} {s t : State} {a1 : ℕ} {a2 : Fld → ℕ → ℕ} (hF : Sub 1125899906842623 F) (h :
    Moves F s t) : Moves F s (applyPwr t a1 a2) := by
  unfold applyPwr
  repeat'
    (first | (with_reducible assumption) | ((with_reducible refine hF.up ?_); rfl) | (intro)
            | (extract_lets +onlyGivenNames x; have hx : Moves F s x := ?_; (on_goal 1 => clear_value x); (on_goal 2 => subst x))
            | (extract_lets +onlyGivenNames x; clear_value x) | (with_reducible apply Moves.ite) | (split)
            | (with_reducible apply setTarget_moves) | (with_reducible apply warmReset_moves)
            | (with_reducible apply startClusterReset_moves) | (with_reducible apply storeLate_moves))

theorem applyRole_moves {F : ℕ} {s t : State} {a1 : View} {a2 : ℕ} {a3 : Fld → ℕ → ℕ} (hF : Sub 282164011664463 F)
    (h : Moves F s t) : Moves F s (applyRole t a1 a2 a3) := by
  unfold applyRole
  repeat'
    (first | (with_reducible assumption) | ((with_reducible refine hF.up ?_); rfl)
            | ((with_reducible refine Or.inr (hF.up ?_)); rfl) | (with_reducible exact Or.inl rfl) | (intro)
            | (extract_lets +onlyGivenNames x; have hx : Moves F s x := ?_; (on_goal 1 => clear_value x); (on_goal 2 => subst x))
            | (extract_lets +onlyGivenNames x; clear_value x) | (with_reducible apply Moves.ite) | (split)
            | (with_reducible apply commitAnchor_moves) | (with_reducible apply clearAnchor_moves)
            | (with_reducible apply acceptImage_moves) | (with_reducible apply revokeImage_moves)
            | (with_reducible apply storeFlds_moves) | (with_reducible apply idePolicy_moves)
            | (with_reducible apply Moves.upd))

theorem applyPitch_moves {F : ℕ} {s t : State} {a1 : ℕ} {a2 : Fld → ℕ → ℕ} (hF : Sub 563087392374848 F) (h :
    Moves F s t) : Moves F s (applyPitch t a1 a2) := by
  unfold applyPitch
  repeat'
    (first | (with_reducible assumption) | ((with_reducible refine hF.up ?_); rfl)
            | ((with_reducible refine Or.inr (hF.up ?_)); rfl) | (with_reducible exact Or.inl rfl) | (intro)
            | (extract_lets +onlyGivenNames x; have hx : Moves F s x := ?_; (on_goal 1 => clear_value x); (on_goal 2 => subst x))
            | (extract_lets +onlyGivenNames x; clear_value x) | (with_reducible apply Moves.ite)
            | (with_reducible apply fset_moves) | (with_reducible apply fsetLate_moves)
            | (with_reducible apply storeFlds_moves) | (with_reducible apply storeLate_moves)
            | (with_reducible apply setMarks_moves) | (with_reducible apply settleRecord_moves)
            | (with_reducible apply Moves.upd))

theorem applyPage_id_moves {F : ℕ} {s t : State} {v : View} {i off : ℕ} {nv : Fld → ℕ → ℕ} (hF : Sub 4294968397 F)
    (h : Moves F s t) :
    Moves F s (applyPage t v .id i off nv) := by
  unfold applyPage
  dsimp only
  repeat'
    (first | (with_reducible assumption) | ((with_reducible refine hF.up ?_); rfl) | (intro)
            | (extract_lets +onlyGivenNames x; clear_value x) | (with_reducible apply Moves.ite)
            | (with_reducible apply fset_moves) | (with_reducible apply settleRecord_moves)
            | (with_reducible apply Moves.foldl))

theorem applyPage_port_moves {F : ℕ} {s t : State} {v : View} {i off : ℕ} {nv : Fld → ℕ → ℕ} (hF
    : Sub 329829861795423 F) (h : Moves F s t) :
    Moves F s (applyPage t v .port i off nv) := by
  unfold applyPage
  dsimp only
  repeat'
    (first | (with_reducible assumption) | ((with_reducible refine hF.up ?_); rfl) | (intro)
            | (extract_lets +onlyGivenNames x; clear_value x) | (with_reducible apply Moves.ite)
            | (with_reducible apply applyPort_moves) | (with_reducible apply Moves.foldl))

theorem applyPage_part_moves {F : ℕ} {s t : State} {v : View} {i off : ℕ} {nv : Fld → ℕ → ℕ} (hF
    : Sub 17716745229 F) (h : Moves F s t) :
    Moves F s (applyPage t v .part i off nv) := by
  unfold applyPage
  dsimp only
  repeat'
    (first | (with_reducible assumption) | ((with_reducible refine hF.up ?_); rfl) | (intro)
            | (extract_lets +onlyGivenNames x; clear_value x) | (with_reducible apply Moves.ite)
            | (with_reducible apply applyPart_moves) | (with_reducible apply Moves.foldl))

theorem applyPage_ext_moves {F : ℕ} {s t : State} {v : View} {i off : ℕ} {nv : Fld → ℕ → ℕ} (hF : Sub 34359739405 F)
    (h : Moves F s t) :
    Moves F s (applyPage t v .ext i off nv) := by
  unfold applyPage
  dsimp only
  repeat'
    (first | (with_reducible assumption) | ((with_reducible refine hF.up ?_); rfl) | (intro)
            | (extract_lets +onlyGivenNames x; clear_value x) | (with_reducible apply Moves.ite)
            | (with_reducible apply storeFlds_moves) | (with_reducible apply Moves.foldl))

theorem applyPage_dir_moves {F : ℕ} {s t : State} {v : View} {i off : ℕ} {nv : Fld → ℕ → ℕ} (hF
    : Sub 599320508704013 F) (h : Moves F s t) :
    Moves F s (applyPage t v .dir i off nv) := by
  unfold applyPage
  dsimp only
  repeat'
    (first | (with_reducible assumption) | ((with_reducible refine hF.up ?_); rfl) | (intro)
            | (extract_lets +onlyGivenNames x; clear_value x) | (with_reducible apply Moves.ite)
            | (with_reducible apply applyDir_moves) | (with_reducible apply Moves.foldl))

theorem applyPage_tier_moves {F : ℕ} {s t : State} {v : View} {i off : ℕ} {nv : Fld → ℕ → ℕ} (hF
    : Sub 610711057171487 F) (h : Moves F s t) :
    Moves F s (applyPage t v .tier i off nv) := by
  unfold applyPage
  dsimp only
  repeat'
    (first | (with_reducible assumption) | ((with_reducible refine hF.up ?_); rfl) | (intro)
            | (extract_lets +onlyGivenNames x; clear_value x) | (with_reducible apply Moves.ite)
            | (with_reducible apply applyTier_moves) | (with_reducible apply Moves.foldl))

theorem applyPage_cmp_moves {F : ℕ} {s t : State} {v : View} {i off : ℕ} {nv : Fld → ℕ → ℕ} (hF
    : Sub 274877907981 F) (h : Moves F s t) :
    Moves F s (applyPage t v .cmp i off nv) := by
  unfold applyPage
  dsimp only
  repeat'
    (first | (with_reducible assumption) | ((with_reducible refine hF.up ?_); rfl) | (intro)
            | (extract_lets +onlyGivenNames x; clear_value x) | (with_reducible apply Moves.ite)
            | (with_reducible apply storeFlds_moves) | (with_reducible apply Moves.foldl))

theorem applyPage_job_moves {F : ℕ} {s t : State} {v : View} {i off : ℕ} {nv : Fld → ℕ → ℕ} (hF
    : Sub 549984863247 F) (h : Moves F s t) :
    Moves F s (applyPage t v .job i off nv) := by
  unfold applyPage
  dsimp only
  repeat'
    (first | (with_reducible assumption) | ((with_reducible refine hF.up ?_); rfl) | (intro)
            | (extract_lets +onlyGivenNames x; clear_value x) | (with_reducible apply Moves.ite)
            | (with_reducible apply applyJob_moves) | (with_reducible apply Moves.foldl))

theorem applyPage_qos_moves {F : ℕ} {s t : State} {v : View} {i off : ℕ} {nv : Fld → ℕ → ℕ} (hF
    : Sub 1100083102733 F) (h : Moves F s t) :
    Moves F s (applyPage t v .qos i off nv) := by
  unfold applyPage
  dsimp only
  repeat'
    (first | (with_reducible assumption) | ((with_reducible refine hF.up ?_); rfl) | (intro)
            | (extract_lets +onlyGivenNames x; clear_value x) | (with_reducible apply Moves.ite)
            | (with_reducible apply applyQos_moves) | (with_reducible apply Moves.foldl))

theorem applyPage_pc_moves {F : ℕ} {s t : State} {v : View} {i off : ℕ} {nv : Fld → ℕ → ℕ} (hF
    : Sub 47554944762911 F) (h : Moves F s t) :
    Moves F s (applyPage t v .pc i off nv) := by
  unfold applyPage
  dsimp only
  repeat'
    (first | (with_reducible assumption) | ((with_reducible refine hF.up ?_); rfl) | (intro)
            | (extract_lets +onlyGivenNames x; clear_value x) | (with_reducible apply Moves.ite)
            | (with_reducible apply applyPc_moves) | (with_reducible apply Moves.foldl))

theorem applyPage_store_moves {F : ℕ} {s t : State} {v : View} {i off : ℕ} {nv : Fld → ℕ → ℕ} (hF
    : Sub 4398046512141 F) (h : Moves F s t) :
    Moves F s (applyPage t v .store i off nv) := by
  unfold applyPage
  dsimp only
  repeat'
    (first | (with_reducible assumption) | ((with_reducible refine hF.up ?_); rfl) | (intro)
            | (extract_lets +onlyGivenNames x; clear_value x) | (with_reducible apply Moves.ite)
            | (with_reducible apply storeFlds_moves) | (with_reducible apply Moves.foldl))

theorem applyPage_ras_moves {F : ℕ} {s t : State} {v : View} {i off : ℕ} {nv : Fld → ℕ → ℕ} (hF
    : Sub 47554944762911 F) (h : Moves F s t) :
    Moves F s (applyPage t v .ras i off nv) := by
  unfold applyPage
  dsimp only
  repeat'
    (first | (with_reducible assumption) | ((with_reducible refine hF.up ?_); rfl) | (intro)
            | (extract_lets +onlyGivenNames x; clear_value x) | (with_reducible apply Moves.ite)
            | (with_reducible apply applyRas_moves) | (with_reducible apply Moves.foldl))

theorem applyPage_cairn_moves {F : ℕ} {s t : State} {v : View} {i off : ℕ} {nv : Fld → ℕ → ℕ} (hF
    : Sub 17592186045453 F) (h : Moves F s t) :
    Moves F s (applyPage t v .cairn i off nv) := by
  unfold applyPage
  dsimp only
  repeat'
    (first | (with_reducible assumption) | ((with_reducible refine hF.up ?_); rfl) | (intro)
            | (extract_lets +onlyGivenNames x; clear_value x) | (with_reducible apply Moves.ite)
            | (with_reducible apply storeFlds_moves) | (with_reducible apply Moves.foldl))

theorem applyPage_belay_moves {F : ℕ} {s t : State} {v : View} {i off : ℕ} {nv : Fld → ℕ → ℕ} (hF
    : Sub 1125896681422303 F) (h : Moves F s t) :
    Moves F s (applyPage t v .belay i off nv) := by
  unfold applyPage
  dsimp only
  repeat'
    (first | (with_reducible assumption) | ((with_reducible refine hF.up ?_); rfl) | (intro)
            | (extract_lets +onlyGivenNames x; clear_value x) | (with_reducible apply Moves.ite)
            | (with_reducible apply applyBelay_moves) | (with_reducible apply Moves.foldl))

theorem applyPage_pwr_moves {F : ℕ} {s t : State} {v : View} {i off : ℕ} {nv : Fld → ℕ → ℕ} (hF
    : Sub 1125899906842623 F) (h : Moves F s t) :
    Moves F s (applyPage t v .pwr i off nv) := by
  unfold applyPage
  dsimp only
  repeat'
    (first | (with_reducible assumption) | ((with_reducible refine hF.up ?_); rfl) | (intro)
            | (extract_lets +onlyGivenNames x; clear_value x) | (with_reducible apply Moves.ite)
            | (with_reducible apply applyPwr_moves) | (with_reducible apply Moves.foldl))

theorem applyPage_pin_moves {F : ℕ} {s t : State} {v : View} {i off : ℕ} {nv : Fld → ℕ → ℕ} (hF
    : Sub 140737488356365 F) (h : Moves F s t) :
    Moves F s (applyPage t v .pin i off nv) := by
  unfold applyPage
  dsimp only
  repeat'
    (first | (with_reducible assumption) | ((with_reducible refine hF.up ?_); rfl) | (intro)
            | (extract_lets +onlyGivenNames x; clear_value x) | (with_reducible apply Moves.ite)
            | (with_reducible apply setFunc_moves) | (with_reducible apply mfpCfg_moves)
            | (with_reducible apply storeFlds_moves) | (with_reducible apply Moves.foldl))

theorem applyPage_role_moves {F : ℕ} {s t : State} {v : View} {i off : ℕ} {nv : Fld → ℕ → ℕ} (hF
    : Sub 282164011664463 F) (h : Moves F s t) :
    Moves F s (applyPage t v .role i off nv) := by
  unfold applyPage
  dsimp only
  repeat'
    (first | (with_reducible assumption) | ((with_reducible refine hF.up ?_); rfl) | (intro)
            | (extract_lets +onlyGivenNames x; clear_value x) | (with_reducible apply Moves.ite)
            | (with_reducible apply applyRole_moves) | (with_reducible apply Moves.foldl))

theorem applyPage_pitch_moves {F : ℕ} {s t : State} {v : View} {i off : ℕ} {nv : Fld → ℕ → ℕ} (hF
    : Sub 563087392375885 F) (h : Moves F s t) :
    Moves F s (applyPage t v .pitch i off nv) := by
  unfold applyPage
  dsimp only
  repeat'
    (first | (with_reducible assumption) | ((with_reducible refine hF.up ?_); rfl) | (intro)
            | (extract_lets +onlyGivenNames x; clear_value x) | (with_reducible apply Moves.ite)
            | (with_reducible apply applyPitch_moves) | (with_reducible apply Moves.foldl))

/-- What a page's writes may change, for any page of a block type. -/
structure PageMoves (F : ℕ) (b : Blk) : Prop where
  page : Sub (2 ^ (Kind.page b).num) F
  apply : ∀ {s u : State} {v : View} {i off : ℕ} {nv : Fld → ℕ → ℕ}, Moves F s u → Moves F s (applyPage u v b i off nv)
  port : b = .port → Sub 512 F
  quiesce : b = .pc → Sub 47554944762911 F

theorem pageMoves_id {F : ℕ} (hF : Sub 4294968397 F) : PageMoves F .id :=
  ⟨hF.up rfl, fun h => applyPage_id_moves (hF.up rfl) h, (fun h => by cases h), (fun h => by cases h)⟩

theorem pageMoves_port {F : ℕ} (hF : Sub 329829861795423 F) : PageMoves F .port :=
  ⟨hF.up rfl, fun h => applyPage_port_moves (hF.up rfl) h, fun _ => hF.up rfl, (fun h => by cases h)⟩

theorem pageMoves_part {F : ℕ} (hF : Sub 17716745229 F) : PageMoves F .part :=
  ⟨hF.up rfl, fun h => applyPage_part_moves (hF.up rfl) h, (fun h => by cases h), (fun h => by cases h)⟩

theorem pageMoves_ext {F : ℕ} (hF : Sub 34359739405 F) : PageMoves F .ext :=
  ⟨hF.up rfl, fun h => applyPage_ext_moves (hF.up rfl) h, (fun h => by cases h), (fun h => by cases h)⟩

theorem pageMoves_dir {F : ℕ} (hF : Sub 599320508704013 F) : PageMoves F .dir :=
  ⟨hF.up rfl, fun h => applyPage_dir_moves (hF.up rfl) h, (fun h => by cases h), (fun h => by cases h)⟩

theorem pageMoves_tier {F : ℕ} (hF : Sub 610711057171487 F) : PageMoves F .tier :=
  ⟨hF.up rfl, fun h => applyPage_tier_moves (hF.up rfl) h, (fun h => by cases h), (fun h => by cases h)⟩

theorem pageMoves_cmp {F : ℕ} (hF : Sub 274877907981 F) : PageMoves F .cmp :=
  ⟨hF.up rfl, fun h => applyPage_cmp_moves (hF.up rfl) h, (fun h => by cases h), (fun h => by cases h)⟩

theorem pageMoves_job {F : ℕ} (hF : Sub 549984863247 F) : PageMoves F .job :=
  ⟨hF.up rfl, fun h => applyPage_job_moves (hF.up rfl) h, (fun h => by cases h), (fun h => by cases h)⟩

theorem pageMoves_qos {F : ℕ} (hF : Sub 1100083102733 F) : PageMoves F .qos :=
  ⟨hF.up rfl, fun h => applyPage_qos_moves (hF.up rfl) h, (fun h => by cases h), (fun h => by cases h)⟩

theorem pageMoves_pc {F : ℕ} (hF : Sub 47554944762911 F) : PageMoves F .pc :=
  ⟨hF.up rfl, fun h => applyPage_pc_moves (hF.up rfl) h, (fun h => by cases h), fun _ => hF.up rfl⟩

theorem pageMoves_store {F : ℕ} (hF : Sub 4398046512141 F) : PageMoves F .store :=
  ⟨hF.up rfl, fun h => applyPage_store_moves (hF.up rfl) h, (fun h => by cases h), (fun h => by cases h)⟩

theorem pageMoves_ras {F : ℕ} (hF : Sub 47554944762911 F) : PageMoves F .ras :=
  ⟨hF.up rfl, fun h => applyPage_ras_moves (hF.up rfl) h, (fun h => by cases h), (fun h => by cases h)⟩

theorem pageMoves_cairn {F : ℕ} (hF : Sub 17592186045453 F) : PageMoves F .cairn :=
  ⟨hF.up rfl, fun h => applyPage_cairn_moves (hF.up rfl) h, (fun h => by cases h), (fun h => by cases h)⟩

theorem pageMoves_belay {F : ℕ} (hF : Sub 1125896681422303 F) : PageMoves F .belay :=
  ⟨hF.up rfl, fun h => applyPage_belay_moves (hF.up rfl) h, (fun h => by cases h), (fun h => by cases h)⟩

theorem pageMoves_pwr {F : ℕ} (hF : Sub 1125899906842623 F) : PageMoves F .pwr :=
  ⟨hF.up rfl, fun h => applyPage_pwr_moves (hF.up rfl) h, (fun h => by cases h), (fun h => by cases h)⟩

theorem pageMoves_pin {F : ℕ} (hF : Sub 140737488356365 F) : PageMoves F .pin :=
  ⟨hF.up rfl, fun h => applyPage_pin_moves (hF.up rfl) h, (fun h => by cases h), (fun h => by cases h)⟩

theorem pageMoves_role {F : ℕ} (hF : Sub 282164011664463 F) : PageMoves F .role :=
  ⟨hF.up rfl, fun h => applyPage_role_moves (hF.up rfl) h, (fun h => by cases h), (fun h => by cases h)⟩

theorem pageMoves_pitch {F : ℕ} (hF : Sub 563087392375885 F) : PageMoves F .pitch :=
  ⟨hF.up rfl, fun h => applyPage_pitch_moves (hF.up rfl) h, (fun h => by cases h), (fun h => by cases h)⟩

theorem pageMoves_all {F : ℕ} (hF : Sub 1125899906842623 F) (b : Blk) : PageMoves F b := by
  cases b
  · exact pageMoves_id (hF.up rfl)
  · exact pageMoves_port (hF.up rfl)
  · exact pageMoves_part (hF.up rfl)
  · exact pageMoves_ext (hF.up rfl)
  · exact pageMoves_dir (hF.up rfl)
  · exact pageMoves_tier (hF.up rfl)
  · exact pageMoves_cmp (hF.up rfl)
  · exact pageMoves_job (hF.up rfl)
  · exact pageMoves_qos (hF.up rfl)
  · exact pageMoves_pc (hF.up rfl)
  · exact pageMoves_store (hF.up rfl)
  · exact pageMoves_ras (hF.up rfl)
  · exact pageMoves_cairn (hF.up rfl)
  · exact pageMoves_belay (hF.up rfl)
  · exact pageMoves_pwr (hF.up rfl)
  · exact pageMoves_pin (hF.up rfl)
  · exact pageMoves_role (hF.up rfl)
  · exact pageMoves_pitch (hF.up rfl)


theorem rwReset_moves {F : ℕ} {s t : State} {v : View} {b : Blk} {i off : ℕ} (P : PageMoves F b) (h : Moves F s t) :
    Moves F s (rwReset t v b i off) := P.apply h

theorem resetMore_moves {F : ℕ} {s t : State} {b : Blk} {i : ℕ} (P : PageMoves F b) (h : Moves F s t) :
    Moves F s (resetMore t b i) := by
  unfold resetMore
  split
  · exact headUpd_moves ((P.port rfl).up rfl) (fset_moves (P.page.up rfl) h)
  · exact fset_moves (P.page.up rfl) h
  · exact fset_moves (P.page.up rfl) h
  · exact h

theorem startBlockReset_moves {F : ℕ} {s t : State} {v : View} {b : Blk} {i : ℕ} (hF : Sub 1037 F) (P : PageMoves F b)
    (h : Moves F s t) : Moves F s (startBlockReset t v b i) := by
  unfold startBlockReset
  extract_lets offs x y z
  have hx : Moves F s x := Moves.foldl (fun u off hu => rwReset_moves P hu) _ h
  clear_value x
  have hy : Moves F s y := .ite (fun c => doQuiesce_moves (P.quiesce c.1) hx) (fun _ => hx)
  clear_value y
  have hz : Moves F s z := by
    refine fclear_moves (fun f i j hp => ?_) hy
    unfold Fld.kind
    split
    · exact hF.bit (by decide)
    · simp only [Bool.and_eq_true, decide_eq_true_eq] at hp
      rw [hp.1.2]
      exact P.page.bit (by rw [Nat.testBit_two_pow_self])
  clear_value z
  exact resetMore_moves P (hupd_moves (hF.up rfl) hz)

theorem forceEvents_moves {F : ℕ} {s t : State} {a1 : Session} {a2 : Blk} {a3 : ℕ} {a4 : ℕ} (hF
    : Sub 17592186045453 F) (h : Moves F s t) : Moves F s (forceEvents t a1 a2 a3 a4) := by
  unfold forceEvents
  repeat'
    (first | (with_reducible assumption) | ((with_reducible refine hF.up ?_); rfl) | (intro)
            | (extract_lets +onlyGivenNames x; have hx : Moves F s x := ?_; (on_goal 1 => clear_value x); (on_goal 2 => subst x))
            | (extract_lets +onlyGivenNames x; clear_value x) | (with_reducible apply Moves.ite) | (split)
            | (with_reducible apply raise_moves) | (with_reducible apply commitSlot_moves)
            | (with_reducible apply Moves.foldl))

theorem evtClear_moves {F : ℕ} {s t : State} {a1 : Blk} {a2 : ℕ} {a3 : ℕ} (hF : Sub 4 F) (h : Moves F s t) :
    Moves F s (evtClear t a1 a2 a3) := by
  unfold evtClear
  repeat'
    (first | (with_reducible assumption) | ((with_reducible refine hF.up ?_); rfl)
            | ((with_reducible refine Or.inr (hF.up ?_)); rfl) | (with_reducible exact Or.inl rfl) | (intro)
            | (with_reducible apply hupd_moves) | (with_reducible apply Moves.upd))

theorem headerWrite_moves {F : ℕ} {s t : State} {v : View} {b : Blk} {i off word : ℕ}
    (hF : Sub 17592186045453 F) (P : PageMoves F b) (h : Moves F s t) : Moves F s (headerWrite t v b i off word) := by
  unfold headerWrite
  extract_lets hd x y
  refine .ite (fun _ => ?_) (fun _ => .ite (fun _ => hupd_moves (hF.up rfl) h) (fun _ => .ite (fun _ => ?_)
    (fun _ => .ite (fun _ => hupd_moves (hF.up rfl) h) (fun _ => h))))
  · have hx : Moves F s x := .ite (fun _ => hupd_moves (hF.up rfl) h) (fun _ => h)
    clear_value x
    have hy : Moves F s y := .ite (fun c => doQuiesce_moves (P.quiesce c.1) hx) (fun _ => hx)
    clear_value y
    exact .ite (fun _ => startBlockReset_moves (hF.up rfl) P hy) (fun _ => hy)
  · split
    · exact forceEvents_moves (hF.up rfl) h
    · exact h

theorem auditWrite_moves {F : ℕ} {s t : State} {a1 : View} {a2 : Blk} {a3 : ℕ} {a4 : ℕ} {a5 : ℕ} {a6 : ℕ} (hF
    : Sub 299067162756109 F) (h : Moves F s t) : Moves F s (auditWrite t a1 a2 a3 a4 a5 a6) := by
  unfold auditWrite
  repeat'
    (first | (with_reducible assumption) | ((with_reducible refine hF.up ?_); rfl)
            | ((with_reducible refine Or.inr (hF.up ?_)); rfl) | (with_reducible exact Or.inl rfl) | (split)
            | (with_reducible apply audit_moves) | (with_reducible apply Moves.upd))

/-- A register write, given what the header's write and the page's write may change. -/
theorem writeReg_movesOf {F : ℕ} {s t : State} {v : View} {b : Blk} {i off word : ℕ} (hF : Sub 299067162756109 F)
    (hD : Sub 281474976711693 F)
    (k : ∀ u nv, Moves F s u → Moves F s (if off < 0x040 then headerWrite u v b i off word else applyPage u v b i off nv))
    (h : Moves F s t) : Moves F s (writeReg t v b i off word).1 := by
  unfold writeReg
  split
  · exact h
  · split
    · exact deny_moves hD h
    · split
      · exact h
      · extract_lets cut old z x y
        have hz : Moves F s z := .ite (fun _ => evtClear_moves (hF.up rfl) h) (fun _ => h)
        clear_value z
        have hx : Moves F s x := auditWrite_moves hF hz
        clear_value x
        have hy : Moves F s y := .ite (fun _ => deny_moves hD hx) (fun _ => hx)
        clear_value y
        have hk := k y (fun f k => newFld y v b i off word f k) hy
        split
        · next c => rw [if_pos c] at hk; exact hk
        · next c => rw [if_neg c] at hk; exact hk

theorem writeReg_moves {F : ℕ} {s t : State} {v : View} {b : Blk} {i off word : ℕ} (hF : Sub 299067162756109 F)
    (P : PageMoves F b) (h : Moves F s t) : Moves F s (writeReg t v b i off word).1 :=
  writeReg_movesOf (hF.up rfl) (hF.up rfl)
    (fun u nv hu => .ite (fun _ => headerWrite_moves (hF.up rfl) P hu) (fun _ => P.apply hu)) h

theorem fmWrite_moves {F : ℕ} {s t : State} {ses : Session} {b : Blk} {i off word : ℕ} (hF : Sub 299068236498061 F)
    (P : PageMoves F b) (h : Moves F s t) : Moves F s (fmWrite t ses b i off word) := by
  unfold fmWrite
  exact .ite (fun _ => writeReg_moves (hF.up rfl) P (sessionMsg_moves (hF.up rfl) h)) (fun _ => h)

theorem fmField_moves {F : ℕ} {s t : State} {ses : Session} {b : Blk} {i off : ℕ} {fs : List (Fld × ℕ × ℕ)}
    (hF : Sub 299068236498061 F) (P : PageMoves F b) (h : Moves F s t) : Moves F s (fmField t ses b i off fs) :=
  fmWrite_moves (hF.up rfl) P h

theorem hostField_moves {F : ℕ} {s t : State} {hd : Head} {p : Part} {b : Blk} {off : ℕ} {fs : List (Fld × ℕ × ℕ)}
    (hF : Sub 299067162756749 F) (P : PageMoves F b) (h : Moves F s t) : Moves F s (hostField t hd p b off fs) := by
  unfold hostField
  exact ioWrite_moves (hF.up rfl) (fun u hu => writeReg_moves (hF.up rfl) P hu) h

theorem viewWrite_moves {F : ℕ} {s t : State} {v : View} {b : Blk} {i off word : ℕ} (hF : Sub 299068236498573 F)
    (P : PageMoves F b) (h : Moves F s t) : Moves F s (viewWrite t v b i off word) := by
  unfold viewWrite
  split
  · exact fmWrite_moves (hF.up rfl) P h
  · exact ioWrite_moves (hF.up rfl) (fun u hu => writeReg_moves (hF.up rfl) P hu) h

end Sys2Proof.Machine
end

