-- ==== Sys2Proof/Laws/MovesPageCmds.lean ====
section
/-! SUPPORT. What the functions of Machine/PageCmds.lean keep, and the kinds of state they may change (`Moves`). -/

set_option linter.all false

namespace Sys2Proof.Machine

open Sys2Proof

theorem msixWrite_moves {F : ℕ} {s t : State} {a1 : ℕ} {a2 : ℕ} {a3 : ℕ} {a4 : ℕ} (hF : Sub 1025 F) (h :
    Moves F s t) : Moves F s (msixWrite t a1 a2 a3 a4) := by
  unfold msixWrite
  repeat'
    (first | (with_reducible assumption) | ((with_reducible refine hF.up ?_); rfl) | (intro)
            | (extract_lets +onlyGivenNames x; have hx : Moves F s x := ?_; (on_goal 1 => clear_value x); (on_goal 2 => subst x))
            | (extract_lets +onlyGivenNames x; clear_value x) | (with_reducible apply Moves.ite)
            | (with_reducible apply msixSet_moves) | (with_reducible apply flushVecs_moves))

theorem bar0Write_moves {F : ℕ} {s t : State} {v : View} {owner off width value : ℕ} (hF : Sub 1125899906842623 F)
    (h : Moves F s t) : Moves F s (bar0Write t v owner off width value) := by
  unfold bar0Write
  refine .ite (fun _ => msixWrite_moves (hF.up rfl) h) (fun _ => .ite (fun _ => h) (fun _ => .ite (fun _ => finc_moves (hF.up rfl) h)
    (fun _ => ?_)))
  split
  · exact writeReg_moves (hF.up rfl) (pageMoves_all (hF.up rfl) _) h
  · exact h

theorem bar2Write_moves {F : ℕ} {s t : State} {a1 : Part} {a2 : ℕ} {a3 : List Byte} (hF : Sub 549762106381 F) (h :
    Moves F s t) : Moves F s (bar2Write t a1 a2 a3) := by
  unfold bar2Write
  repeat'
    (first | (with_reducible assumption) | ((with_reducible refine hF.up ?_); rfl)
            | ((with_reducible refine Or.inr (hF.up ?_)); rfl) | (with_reducible exact Or.inl rfl)
            | (with_reducible exact fun h => Memory.wf_write h _ _)
            | (with_reducible exact fun h => Memory.wf_write (Memory.wf_zero h _ _) _ _)
            | (with_reducible exact fun h => Memory.wf_zero h _ _) | (with_reducible exact id)
            | (with_reducible exact fun _ => Memory.wf_nil) | (intro)
            | (extract_lets +onlyGivenNames x; have hx : Moves F s x := ?_; (on_goal 1 => clear_value x); (on_goal 2 => subst x))
            | (extract_lets +onlyGivenNames x; clear_value x) | (with_reducible apply Moves.ite)
            | (with_reducible apply doDoorbell_moves) | (with_reducible apply Moves.upd)
            | (with_reducible apply Moves.updMem))

theorem windowWriteIn_moves {F : ℕ} {s t : State} {a1 : View} {a2 : Sys2Proof.RegTarget} {a3 : ℕ} {a4 : W64} (hF
    : Sub 1125899906842623 F) (h : Moves F s t) : Moves F s (windowWriteIn t a1 a2 a3 a4) := by
  unfold windowWriteIn
  repeat'
    (first | (with_reducible assumption) | ((with_reducible refine hF.up ?_); rfl)
            | ((with_reducible refine Or.inr (hF.up ?_)); rfl) | (with_reducible exact Or.inl rfl) | (intro)
            | (with_reducible apply Moves.ite) | (split) | (with_reducible apply ioWrite_moves)
            | (with_reducible apply sessionMsg_moves) | (with_reducible apply bar0Write_moves)
            | (with_reducible apply bar2Write_moves) | (with_reducible apply Moves.upd))

theorem execReadPageRegister_moves {F : ℕ} {s t : State} {a0 : Session} {a1 : ℕ} {a2 : ℕ} {a3 : ℕ} {a4 : ℕ} (hF
    : Sub 299068236498061 F) (h : Moves F s t) : ∃ u, (execReadPageRegister a0 a1 a2 a3 a4 t) = .next u ∧
    Moves F s u := by
  unfold execReadPageRegister
  refine ⟨_, rfl, ?_⟩
  repeat'
    (first | (with_reducible assumption) | ((with_reducible refine hF.up ?_); rfl)
            | ((with_reducible refine Or.inr (hF.up ?_)); rfl) | (with_reducible exact Or.inl rfl) | (intro)
            | (with_reducible apply Moves.ite) | (split) | (with_reducible apply fmAnswer_moves)
            | (with_reducible apply fmOp_moves) | (with_reducible apply Moves.upd))

theorem execWritePageRegister_moves {F : ℕ} {s t : State} {ses : Session} {blk inst off rsvd : ℕ} {value : W64}
    (hF : Sub 1125899906842623 F) (h : Moves F s t) :
    ∃ u, execWritePageRegister ses blk inst off rsvd value t = .next u ∧ Moves F s u := by
  refine ⟨_, rfl, fmOp_moves (hF.up rfl) (fun u hu => ?_) h⟩
  split
  · refine .ite (fun _ => fmAnswer_moves (hF.up rfl) hu) (fun _ => ?_)
    exact fmAnswer_moves (hF.up rfl) (writeReg_moves (hF.up rfl) (pageMoves_all (hF.up rfl) _) hu)
  · exact fmAnswer_moves (hF.up rfl) hu

theorem execRegisterWrite_moves {F : ℕ} {s t : State} {a0 : View} {a1 : Sys2Proof.RegTarget} {a2 : ℕ} {a3 : W64} (hF
    : Sub 1125899906842623 F) (h : Moves F s t) : ∃ u, (execRegisterWrite a0 a1 a2 a3 t) = .next u ∧ Moves F s u
    := by
  unfold execRegisterWrite
  refine ⟨_, rfl, ?_⟩
  repeat'
    (first | (with_reducible assumption) | ((with_reducible refine hF.up ?_); rfl) | (intro)
            | (with_reducible apply windowWriteIn_moves))

theorem execBlockReset_moves {F : ℕ} {s t : State} {v : View} {b : Blk} {i : ℕ} (hF : Sub 1125899906842623 F)
    (h : Moves F s t) : ∃ u, execBlockReset v b i t = .next u ∧ Moves F s u :=
  ⟨_, rfl, viewWrite_moves (hF.up rfl) (pageMoves_all (hF.up rfl) _) h⟩

theorem execBlockResetDone_moves {F : ℕ} {s t : State} {a0 : Blk} {a1 : ℕ} (hF : Sub 4 F) (h : Moves F s t) : ∃ u,
    (execBlockResetDone a0 a1 t) = .next u ∧ Moves F s u := by
  unfold execBlockResetDone
  refine ⟨_, rfl, ?_⟩
  repeat'
    (first | (with_reducible assumption) | ((with_reducible refine hF.up ?_); rfl)
            | ((with_reducible refine Or.inr (hF.up ?_)); rfl) | (with_reducible exact Or.inl rfl) | (intro)
            | (with_reducible apply Moves.ite) | (split) | (with_reducible apply hupd_moves)
            | (with_reducible apply Moves.upd))

theorem execLock_moves {F : ℕ} {s t : State} {ses : Session} {b : Blk} {i : ℕ} (hF : Sub 346623181259935 F) (h :
    Moves F s t) :
    ∃ u, execLock ses b i t = .next u ∧ Moves F s u := by
  refine ⟨_, rfl, ?_⟩
  unfold fmWrite
  refine .ite (fun _ => writeReg_movesOf (hF.up rfl) (hF.up rfl) (fun u nv hu => ?_) (sessionMsg_moves (hF.up rfl) h)) (fun _ => h)
  rw [if_pos (by decide)]
  have h1 : (4 + 8 * flag (hget t b i).quiesce).testBit 1 = false := by unfold flag; cases (hget t b i).quiesce <;> decide
  unfold headerWrite
  extract_lets hd x y
  rw [if_pos rfl, h1]
  have hx : Moves F s x := .ite (fun _ => hupd_moves (hF.up rfl) hu) (fun _ => hu)
  clear_value x
  have hy : Moves F s y := .ite (fun _ => doQuiesce_moves (hF.up rfl) hx) (fun _ => hx)
  clear_value y
  exact .ite (fun c => absurd c (by simp)) (fun _ => hy)

theorem writeEvtClear_moves {F : ℕ} {s t : State} {v : View} {b : Blk} {i word : ℕ} (hF : Sub 299067162756109 F) (h
    : Moves F s t) :
    Moves F s (writeReg t v b i 0x018 word).1 :=
  writeReg_movesOf (hF.up rfl) (hF.up rfl) (fun u nv hu => by
    rw [if_pos (by decide)]
    unfold headerWrite
    exact hu) h

theorem execEvtStatusClear_moves {F : ℕ} {s t : State} {v : View} {b : Blk} {i : ℕ} {bits : W64}
    (hF : Sub 299068236498573 F) (h : Moves F s t) :
    ∃ u, execEvtStatusClear v b i bits t = .next u ∧ Moves F s u := by
  refine ⟨_, rfl, ?_⟩
  unfold viewWrite
  split
  · unfold fmWrite
    exact .ite (fun _ => writeEvtClear_moves (hF.up rfl) (sessionMsg_moves (hF.up rfl) h)) (fun _ => h)
  · exact ioWrite_moves (hF.up rfl) (fun u hu => writeEvtClear_moves (hF.up rfl) hu) h

theorem execEvtForce_moves {F : ℕ} {s t : State} {ses : Session} {b : Blk} {i : ℕ} {bits : W64}
    (hF : Sub 299068236498061 F) (h : Moves F s t) : ∃ u, execEvtForce ses b i bits t = .next u ∧ Moves F s u := by
  refine ⟨_, rfl, ?_⟩
  unfold fmWrite
  refine .ite (fun _ => writeReg_movesOf (hF.up rfl) (hF.up rfl) (fun u nv hu => ?_) (sessionMsg_moves (hF.up rfl) h)) (fun _ => h)
  rw [if_pos (by decide)]
  unfold headerWrite
  exact forceEvents_moves (hF.up rfl) hu

theorem execRetrain_moves {F : ℕ} {s t : State} {a0 : Session} {a1 : Head} (hF : Sub 347422047839967 F) (h :
    Moves F s t) : ∃ u, (execRetrain a0 a1 t) = .next u ∧ Moves F s u := by
  unfold execRetrain
  refine ⟨_, rfl, ?_⟩
  repeat'
    (first | (with_reducible assumption) | ((with_reducible refine hF.up ?_); rfl)
            | (exact pageMoves_port (hF.up rfl)) | (intro) | (with_reducible apply fmField_moves))

theorem execDisable_moves {F : ℕ} {s t : State} {a0 : Session} {a1 : Head} {a2 : Bool} (hF : Sub 347422047839967 F)
    (h : Moves F s t) : ∃ u, (execDisable a0 a1 a2 t) = .next u ∧ Moves F s u := by
  unfold execDisable
  refine ⟨_, rfl, ?_⟩
  repeat'
    (first | (with_reducible assumption) | ((with_reducible refine hF.up ?_); rfl)
            | (exact pageMoves_port (hF.up rfl)) | (intro) | (with_reducible apply fmField_moves))

theorem execTargetWrite_moves {F : ℕ} {s t : State} {a0 : Session} {a1 : Fin 8} (hF : Sub 1125899906842623 F) (h :
    Moves F s t) : ∃ u, (execTargetWrite a0 a1 t) = .next u ∧ Moves F s u := by
  unfold execTargetWrite
  refine ⟨_, rfl, ?_⟩
  repeat'
    (first | (with_reducible assumption) | ((with_reducible refine hF.up ?_); rfl)
            | (exact pageMoves_pwr (hF.up rfl)) | (intro) | (with_reducible apply fmField_moves))

theorem execWarmReset_moves {F : ℕ} {s t : State} {a0 : Session} (hF : Sub 1125899906842623 F) (h : Moves F s t) :
    ∃ u, (execWarmReset a0 t) = .next u ∧ Moves F s u := by
  unfold execWarmReset
  refine ⟨_, rfl, ?_⟩
  repeat'
    (first | (with_reducible assumption) | ((with_reducible refine hF.up ?_); rfl)
            | (exact pageMoves_pwr (hF.up rfl)) | (intro) | (with_reducible apply fmField_moves))

theorem execClusterReset_moves {F : ℕ} {s t : State} {a0 : Session} {a1 : Cluster} (hF : Sub 1125899906842623 F) (h
    : Moves F s t) : ∃ u, (execClusterReset a0 a1 t) = .next u ∧ Moves F s u := by
  unfold execClusterReset
  refine ⟨_, rfl, ?_⟩
  repeat'
    (first | (with_reducible assumption) | ((with_reducible refine hF.up ?_); rfl)
            | (exact pageMoves_pwr (hF.up rfl)) | (intro) | (with_reducible apply fmField_moves))

theorem execMfpFuncWrite_moves {F : ℕ} {s t : State} {a0 : Session} {a1 : Pin} {a2 : Fin 16} (hF
    : Sub 439805724853389 F) (h : Moves F s t) : ∃ u, (execMfpFuncWrite a0 a1 a2 t) = .next u ∧ Moves F s u := by
  unfold execMfpFuncWrite
  refine ⟨_, rfl, ?_⟩
  repeat'
    (first | (with_reducible assumption) | ((with_reducible refine hF.up ?_); rfl)
            | (exact pageMoves_pin (hF.up rfl)) | (intro) | (with_reducible apply fmField_moves))

theorem execLeaseRenew_moves {F : ℕ} {s t : State} {a0 : Head} {a1 : Part} (hF : Sub 299084879500941 F) (h :
    Moves F s t) : ∃ u, (execLeaseRenew a0 a1 t) = .next u ∧ Moves F s u := by
  unfold execLeaseRenew
  refine ⟨_, rfl, ?_⟩
  repeat'
    (first | (with_reducible assumption) | ((with_reducible refine hF.up ?_); rfl)
            | (exact pageMoves_part (hF.up rfl)) | (intro) | (with_reducible apply hostField_moves))

theorem leaseTest_moves {F : ℕ} {s t : State} {a1 : Part} (hF : Sub 329837378008095 F) (h : Moves F s t) : Moves F s
    (leaseTest t a1) := by
  unfold leaseTest
  repeat'
    (first | (with_reducible assumption) | ((with_reducible refine hF.up ?_); rfl) | (intro u hu)
            | (with_reducible apply applyJ_leaseExpire_moves) | (intro) | (with_reducible apply Moves.ite)
            | (with_reducible apply commitJ_moves))

theorem execLeaseExpiry_moves {F : ℕ} {s t : State} {a0 : Part} (hF : Sub 329837378008095 F) (h : Moves F s t) :
    ∃ u, (execLeaseExpiry a0 t) = .next u ∧ Moves F s u := by
  unfold execLeaseExpiry
  refine ⟨_, rfl, ?_⟩
  repeat'
    (first | (with_reducible assumption) | ((with_reducible refine hF.up ?_); rfl) | (intro)
            | (with_reducible apply leaseTest_moves))

theorem snapWrite_moves {F : ℕ} {s t : State} {a1 : Head} {a2 : Part} {a3 : ℕ} {a4 : ℕ} {a5 : ℕ} (hF
    : Sub 898387671459725 F) (h : Moves F s t) : Moves F s (snapWrite t a1 a2 a3 a4 a5) := by
  unfold snapWrite
  repeat'
    (first | (with_reducible assumption) | ((with_reducible refine hF.up ?_); rfl)
            | (exact pageMoves_dir (hF.up rfl)) | (with_reducible apply hostField_moves))

theorem execSnapOpen_moves {F : ℕ} {s t : State} {a0 : Head} {a1 : Part} {a2 : BitVec 21} {a3 : BitVec 32} (hF
    : Sub 898387671459725 F) (h : Moves F s t) : ∃ u, (execSnapOpen a0 a1 a2 a3 t) = .next u ∧ Moves F s u := by
  unfold execSnapOpen
  refine ⟨_, rfl, ?_⟩
  repeat'
    (first | (with_reducible assumption) | ((with_reducible refine hF.up ?_); rfl) | (intro)
            | (with_reducible apply snapWrite_moves))

theorem execSnapClose_moves {F : ℕ} {s t : State} {a0 : Head} {a1 : Part} {a2 : BitVec 21} (hF
    : Sub 898387671459725 F) (h : Moves F s t) : ∃ u, (execSnapClose a0 a1 a2 t) = .next u ∧ Moves F s u := by
  unfold execSnapClose
  refine ⟨_, rfl, ?_⟩
  repeat'
    (first | (with_reducible assumption) | ((with_reducible refine hF.up ?_); rfl) | (intro)
            | (with_reducible apply snapWrite_moves))

theorem execSnapDraft_moves {F : ℕ} {s t : State} {a0 : Head} {a1 : Part} {a2 : BitVec 21} (hF
    : Sub 898387671459725 F) (h : Moves F s t) : ∃ u, (execSnapDraft a0 a1 a2 t) = .next u ∧ Moves F s u := by
  unfold execSnapDraft
  refine ⟨_, rfl, ?_⟩
  repeat'
    (first | (with_reducible assumption) | ((with_reducible refine hF.up ?_); rfl) | (intro)
            | (with_reducible apply snapWrite_moves))

theorem execSnapCommit_moves {F : ℕ} {s t : State} {a0 : Head} {a1 : Part} {a2 : BitVec 21} (hF
    : Sub 898387671459725 F) (h : Moves F s t) : ∃ u, (execSnapCommit a0 a1 a2 t) = .next u ∧ Moves F s u := by
  unfold execSnapCommit
  refine ⟨_, rfl, ?_⟩
  repeat'
    (first | (with_reducible assumption) | ((with_reducible refine hF.up ?_); rfl) | (intro)
            | (with_reducible apply snapWrite_moves))

theorem execSnapAbandon_moves {F : ℕ} {s t : State} {a0 : Head} {a1 : Part} {a2 : BitVec 21} (hF
    : Sub 898387671459725 F) (h : Moves F s t) : ∃ u, (execSnapAbandon a0 a1 a2 t) = .next u ∧ Moves F s u := by
  unfold execSnapAbandon
  refine ⟨_, rfl, ?_⟩
  repeat'
    (first | (with_reducible assumption) | ((with_reducible refine hF.up ?_); rfl) | (intro)
            | (with_reducible apply snapWrite_moves))

theorem execReserveWrite_moves {F : ℕ} {s t : State} {a0 : Session} {a1 : BitVec 21} (hF : Sub 898388745201037 F) (h
    : Moves F s t) : ∃ u, (execReserveWrite a0 a1 t) = .next u ∧ Moves F s u := by
  unfold execReserveWrite
  refine ⟨_, rfl, ?_⟩
  repeat'
    (first | (with_reducible assumption) | ((with_reducible refine hF.up ?_); rfl)
            | (exact pageMoves_dir (hF.up rfl)) | (intro) | (with_reducible apply fmField_moves))

theorem execHintEnable_moves {F : ℕ} {s t : State} {a0 : Head} {a1 : Part} {a2 : Bool} (hF : Sub 909778219927199 F)
    (h : Moves F s t) : ∃ u, (execHintEnable a0 a1 a2 t) = .next u ∧ Moves F s u := by
  unfold execHintEnable
  refine ⟨_, rfl, ?_⟩
  repeat'
    (first | (with_reducible assumption) | ((with_reducible refine hF.up ?_); rfl)
            | (exact pageMoves_tier (hF.up rfl)) | (intro) | (with_reducible apply hostField_moves))

theorem execHintProducer_moves {F : ℕ} {s t : State} {a0 : Head} {a1 : Part} {a2 : BitVec 32} (hF
    : Sub 909778219927199 F) (h : Moves F s t) : ∃ u, (execHintProducer a0 a1 a2 t) = .next u ∧ Moves F s u := by
  unfold execHintProducer
  refine ⟨_, rfl, ?_⟩
  repeat'
    (first | (with_reducible assumption) | ((with_reducible refine hF.up ?_); rfl)
            | (exact pageMoves_tier (hF.up rfl)) | (intro) | (with_reducible apply hostField_moves))

theorem execRingEnable_moves {F : ℕ} {s t : State} {a0 : Head} {a1 : Part} {a2 : Ring} {a3 : Bool} (hF
    : Sub 299617147618959 F) (h : Moves F s t) : ∃ u, (execRingEnable a0 a1 a2 a3 t) = .next u ∧ Moves F s u := by
  unfold execRingEnable
  refine ⟨_, rfl, ?_⟩
  repeat'
    (first | (with_reducible assumption) | ((with_reducible refine hF.up ?_); rfl)
            | (exact pageMoves_job (hF.up rfl)) | (intro) | (with_reducible apply hostField_moves))

theorem execButton_moves {F : ℕ} {s t : State} {a0 : Session} {a1 : Slot} (hF : Sub 909779293668511 F) (h :
    Moves F s t) : ∃ u, (execButton a0 a1 t) = .next u ∧ Moves F s u := by
  unfold execButton
  refine ⟨_, rfl, ?_⟩
  repeat'
    (first | (with_reducible assumption) | ((with_reducible refine hF.up ?_); rfl)
            | (exact pageMoves_tier (hF.up rfl)) | (intro) | (with_reducible apply fmField_moves))

theorem execGuarWrite_moves {F : ℕ} {s t : State} {a0 : Session} {a1 : Part} {a2 : BitVec 15} (hF
    : Sub 300168319599757 F) (h : Moves F s t) : ∃ u, (execGuarWrite a0 a1 a2 t) = .next u ∧ Moves F s u := by
  unfold execGuarWrite
  refine ⟨_, rfl, ?_⟩
  repeat'
    (first | (with_reducible assumption) | ((with_reducible refine hF.up ?_); rfl)
            | (exact pageMoves_qos (hF.up rfl)) | (intro) | (with_reducible apply fmField_moves))

theorem execReclaimStart_moves {F : ℕ} {s t : State} {a0 : Session} {a1 : TaskClass} {a2 : Bool} (hF
    : Sub 300168319599757 F) (h : Moves F s t) : ∃ u, (execReclaimStart a0 a1 a2 t) = .next u ∧ Moves F s u := by
  unfold execReclaimStart
  refine ⟨_, rfl, ?_⟩
  repeat'
    (first | (with_reducible assumption) | ((with_reducible refine hF.up ?_); rfl)
            | (exact pageMoves_qos (hF.up rfl)) | (intro) | (with_reducible apply fmField_moves))

theorem freezeWrite_moves {F : ℕ} {s t : State} {a1 : Actor} {a2 : PcId} {a3 : ℕ} (hF : Sub 346623181259935 F) (h :
    Moves F s t) : Moves F s (freezeWrite t a1 a2 a3) := by
  unfold freezeWrite
  repeat'
    (first | (with_reducible assumption) | ((with_reducible refine hF.up ?_); rfl)
            | ((with_reducible refine Or.inr (hF.up ?_)); rfl) | (with_reducible exact Or.inl rfl)
            | (exact pageMoves_pc (hF.up rfl)) | (split) | (with_reducible apply freezeAct_moves)
            | (with_reducible apply fmField_moves) | (with_reducible apply Moves.upd))

theorem execResume_moves {F : ℕ} {s t : State} {a0 : Actor} {a1 : PcId} (hF : Sub 346623181259935 F) (h :
    Moves F s t) : ∃ u, (execResume a0 a1 t) = .next u ∧ Moves F s u := by
  unfold execResume
  refine ⟨_, rfl, ?_⟩
  repeat'
    (first | (with_reducible assumption) | ((with_reducible refine hF.up ?_); rfl) | (intro)
            | (with_reducible apply freezeWrite_moves))

theorem execRetireRow_moves {F : ℕ} {s t : State} {a0 : Actor} {a1 : PcId} (hF : Sub 346623181259935 F) (h :
    Moves F s t) : ∃ u, (execRetireRow a0 a1 t) = .next u ∧ Moves F s u := by
  unfold execRetireRow
  refine ⟨_, rfl, ?_⟩
  repeat'
    (first | (with_reducible assumption) | ((with_reducible refine hF.up ?_); rfl) | (intro)
            | (with_reducible apply freezeWrite_moves))

theorem execFail_moves {F : ℕ} {s t : State} {a0 : Actor} {a1 : PcId} (hF : Sub 346623181259935 F) (h : Moves F s t)
    : ∃ u, (execFail a0 a1 t) = .next u ∧ Moves F s u := by
  unfold execFail
  refine ⟨_, rfl, ?_⟩
  repeat'
    (first | (with_reducible assumption) | ((with_reducible refine hF.up ?_); rfl) | (intro)
            | (with_reducible apply freezeWrite_moves))

theorem execQuiesce_moves {F : ℕ} {s t : State} {a0 : Session} {a1 : PcId} {a2 : Bool} (hF : Sub 346623181259935 F)
    (h : Moves F s t) : ∃ u, (execQuiesce a0 a1 a2 t) = .next u ∧ Moves F s u := by
  unfold execQuiesce
  refine ⟨_, rfl, ?_⟩
  repeat'
    (first | (with_reducible assumption) | ((with_reducible refine hF.up ?_); rfl)
            | (exact pageMoves_pc (hF.up rfl)) | (intro) | (with_reducible apply fmWrite_moves))

theorem execTrainRun_moves {F : ℕ} {s t : State} {a0 : Session} {a1 : PcId} {a2 : W64} (hF : Sub 346623181259935 F)
    (h : Moves F s t) : ∃ u, (execTrainRun a0 a1 a2 t) = .next u ∧ Moves F s u := by
  unfold execTrainRun
  refine ⟨_, rfl, ?_⟩
  repeat'
    (first | (with_reducible assumption) | ((with_reducible refine hF.up ?_); rfl)
            | (exact pageMoves_pc (hF.up rfl)) | (intro) | (with_reducible apply fmWrite_moves))

theorem retireWrite_moves {F : ℕ} {s t : State} {a1 : Session} {a2 : ℕ} {a3 : ℕ} {a4 : ℕ} {a5 : ℕ} {a6 : ℕ} (hF
    : Sub 346623181259935 F) (h : Moves F s t) : Moves F s (retireWrite t a1 a2 a3 a4 a5 a6) := by
  unfold retireWrite
  repeat'
    (first | (with_reducible assumption) | ((with_reducible refine hF.up ?_); rfl)
            | (exact pageMoves_ras (hF.up rfl)) | (with_reducible apply fmField_moves))

theorem execRetireBlock_moves {F : ℕ} {s t : State} {a0 : Session} {a1 : PcId} {a2 : Fin 2} {a3 : Fin 16} {a4
    : BitVec 16} (hF : Sub 346623181259935 F) (h : Moves F s t) : ∃ u,
    (execRetireBlock a0 a1 a2 a3 a4 t) = .next u ∧ Moves F s u := by
  unfold execRetireBlock
  refine ⟨_, rfl, ?_⟩
  repeat'
    (first | (with_reducible assumption) | ((with_reducible refine hF.up ?_); rfl) | (intro)
            | (with_reducible apply retireWrite_moves))

theorem execRetireRowCmd_moves {F : ℕ} {s t : State} {a0 : Session} {a1 : PcId} {a2 : Fin 2} {a3 : Fin 16} {a4
    : BitVec 16} (hF : Sub 346623181259935 F) (h : Moves F s t) : ∃ u,
    (execRetireRowCmd a0 a1 a2 a3 a4 t) = .next u ∧ Moves F s u := by
  unfold execRetireRowCmd
  refine ⟨_, rfl, ?_⟩
  repeat'
    (first | (with_reducible assumption) | ((with_reducible refine hF.up ?_); rfl) | (intro)
            | (with_reducible apply retireWrite_moves))

theorem execRetireBank_moves {F : ℕ} {s t : State} {a0 : Session} {a1 : PcId} {a2 : Fin 2} {a3 : Fin 16} (hF
    : Sub 346623181259935 F) (h : Moves F s t) : ∃ u, (execRetireBank a0 a1 a2 a3 t) = .next u ∧ Moves F s u := by
  unfold execRetireBank
  refine ⟨_, rfl, ?_⟩
  repeat'
    (first | (with_reducible assumption) | ((with_reducible refine hF.up ?_); rfl) | (intro)
            | (with_reducible apply retireWrite_moves))

theorem execRetirePc_moves {F : ℕ} {s t : State} {a0 : Session} {a1 : PcId} (hF : Sub 346623181259935 F) (h :
    Moves F s t) : ∃ u, (execRetirePc a0 a1 t) = .next u ∧ Moves F s u := by
  unfold execRetirePc
  refine ⟨_, rfl, ?_⟩
  repeat'
    (first | (with_reducible assumption) | ((with_reducible refine hF.up ?_); rfl) | (intro)
            | (with_reducible apply retireWrite_moves))

theorem execReadSeqWrite_moves {F : ℕ} {s t : State} {a0 : Session} {a1 : BitVec 40} (hF : Sub 299068236498061 F) (h
    : Moves F s t) : ∃ u, (execReadSeqWrite a0 a1 t) = .next u ∧ Moves F s u := by
  unfold execReadSeqWrite
  refine ⟨_, rfl, ?_⟩
  repeat'
    (first | (with_reducible assumption) | ((with_reducible refine hF.up ?_); rfl)
            | (exact pageMoves_cairn (hF.up rfl)) | (intro) | (with_reducible apply fmField_moves))

theorem execLeave_moves {F : ℕ} {s t : State} {a0 : Session} (hF : Sub 1125897755164127 F) (h : Moves F s t) : ∃ u,
    (execLeave a0 t) = .next u ∧ Moves F s u := by
  unfold execLeave
  refine ⟨_, rfl, ?_⟩
  repeat'
    (first | (with_reducible assumption) | ((with_reducible refine hF.up ?_); rfl)
            | (exact pageMoves_belay (hF.up rfl)) | (intro) | (with_reducible apply fmField_moves))

theorem execSwap_moves {F : ℕ} {s t : State} {a0 : Session} (hF : Sub 1125897755164127 F) (h : Moves F s t) : ∃ u,
    (execSwap a0 t) = .next u ∧ Moves F s u := by
  unfold execSwap
  refine ⟨_, rfl, ?_⟩
  repeat'
    (first | (with_reducible assumption) | ((with_reducible refine hF.up ?_); rfl)
            | (exact pageMoves_belay (hF.up rfl)) | (intro) | (with_reducible apply fmField_moves))

theorem execApprove_moves {F : ℕ} {s t : State} {a0 : Session} (hF : Sub 1125897755164127 F) (h : Moves F s t) :
    ∃ u, (execApprove a0 t) = .next u ∧ Moves F s u := by
  unfold execApprove
  refine ⟨_, rfl, ?_⟩
  repeat'
    (first | (with_reducible assumption) | ((with_reducible refine hF.up ?_); rfl)
            | (exact pageMoves_belay (hF.up rfl)) | (intro) | (with_reducible apply fmField_moves))

theorem execBelayRetrain_moves {F : ℕ} {s t : State} {a0 : Option Session} (hF : Sub 1125897755164127 F) (h :
    Moves F s t) : ∃ u, (execBelayRetrain a0 t) = .next u ∧ Moves F s u := by
  unfold execBelayRetrain
  refine ⟨_, rfl, ?_⟩
  repeat'
    (first | (with_reducible assumption) | ((with_reducible refine hF.up ?_); rfl)
            | ((with_reducible refine Or.inr (hF.up ?_)); rfl) | (with_reducible exact Or.inl rfl)
            | (exact pageMoves_belay (hF.up rfl)) | (intro) | (split) | (with_reducible apply askRetrainAll_moves)
            | (with_reducible apply fmField_moves) | (with_reducible apply Moves.upd))

theorem execRenew_moves {F : ℕ} {s t : State} {a0 : Session} (hF : Sub 1125897755164127 F) (h : Moves F s t) : ∃ u,
    (execRenew a0 t) = .next u ∧ Moves F s u := by
  unfold execRenew
  refine ⟨_, rfl, ?_⟩
  repeat'
    (first | (with_reducible assumption) | ((with_reducible refine hF.up ?_); rfl)
            | (exact pageMoves_belay (hF.up rfl)) | (intro) | (with_reducible apply fmField_moves))

theorem execAnchorCommit_moves {F : ℕ} {s t : State} {a0 : Session} (hF : Sub 299756197709007 F) (h : Moves F s t) :
    ∃ u, (execAnchorCommit a0 t) = .next u ∧ Moves F s u := by
  unfold execAnchorCommit
  refine ⟨_, rfl, ?_⟩
  repeat'
    (first | (with_reducible assumption) | ((with_reducible refine hF.up ?_); rfl)
            | (exact pageMoves_role (hF.up rfl)) | (intro) | (with_reducible apply fmField_moves))

theorem execAnchorClear_moves {F : ℕ} {s t : State} {a0 : Session} (hF : Sub 299756197709007 F) (h : Moves F s t) :
    ∃ u, (execAnchorClear a0 t) = .next u ∧ Moves F s u := by
  unfold execAnchorClear
  refine ⟨_, rfl, ?_⟩
  repeat'
    (first | (with_reducible assumption) | ((with_reducible refine hF.up ?_); rfl)
            | (exact pageMoves_role (hF.up rfl)) | (intro) | (with_reducible apply fmField_moves))

theorem execFwAccept_moves {F : ℕ} {s t : State} {a0 : Session} (hF : Sub 299756197709007 F) (h : Moves F s t) :
    ∃ u, (execFwAccept a0 t) = .next u ∧ Moves F s u := by
  unfold execFwAccept
  refine ⟨_, rfl, ?_⟩
  repeat'
    (first | (with_reducible assumption) | ((with_reducible refine hF.up ?_); rfl)
            | (exact pageMoves_role (hF.up rfl)) | (intro) | (with_reducible apply fmField_moves))

theorem execFwRevoke_moves {F : ℕ} {s t : State} {a0 : Session} (hF : Sub 299756197709007 F) (h : Moves F s t) :
    ∃ u, (execFwRevoke a0 t) = .next u ∧ Moves F s u := by
  unfold execFwRevoke
  refine ⟨_, rfl, ?_⟩
  repeat'
    (first | (with_reducible assumption) | ((with_reducible refine hF.up ?_); rfl)
            | (exact pageMoves_role (hF.up rfl)) | (intro) | (with_reducible apply fmField_moves))

end Sys2Proof.Machine
end

