-- ==== Sys2Proof/Laws/Admission.lean ====
section
/-! SUPPORT. The admission of a fabric-manager command (03 R58; 14 R309, R312), and of a write of a page register (15 R324 to R330):
a message of a session changes its deadline and the activity of the pitch, an audit record goes to Cairn, and the
command runs on that state. -/

set_option linter.all false

namespace Sys2Proof.Machine

open Sys2Proof

@[simp] theorem sessionMsg_pending (s : State) (k : Nat) : (sessionMsg s k).pending = s.pending := by
  unfold sessionMsg; split <;> rfl
@[simp] theorem sessionMsg_out (s : State) (k : Nat) : (sessionMsg s k).out = s.out := by
  unfold sessionMsg; split <;> rfl
@[simp] theorem sessionMsg_free (s : State) (k : Nat) : (sessionMsg s k).free = s.free := by
  unfold sessionMsg; split <;> rfl
@[simp] theorem sessionMsg_regs (s : State) (k : Nat) : (sessionMsg s k).regs = s.regs := by
  unfold sessionMsg; split <;> rfl
@[simp] theorem sessionMsg_lag (s : State) (k : Nat) : (sessionMsg s k).lag = s.lag := by
  unfold sessionMsg; split <;> rfl
@[simp] theorem sessionMsg_hdr (s : State) (k : Nat) : (sessionMsg s k).hdr = s.hdr := by
  unfold sessionMsg; split <;> rfl
@[simp] theorem sessionMsg_mem (s : State) (k : Nat) : (sessionMsg s k).mem = s.mem := by
  unfold sessionMsg; split <;> rfl
@[simp] theorem sessionMsg_poison (s : State) (k : Nat) : (sessionMsg s k).poison = s.poison := by
  unfold sessionMsg; split <;> rfl
@[simp] theorem sessionMsg_damage (s : State) (k : Nat) : (sessionMsg s k).damage = s.damage := by
  unfold sessionMsg; split <;> rfl
@[simp] theorem sessionMsg_boot (s : State) (k : Nat) : (sessionMsg s k).boot = s.boot := by
  unfold sessionMsg; split <;> rfl
@[simp] theorem sessionMsg_flash (s : State) (k : Nat) : (sessionMsg s k).flash = s.flash := by
  unfold sessionMsg; split <;> rfl
@[simp] theorem sessionMsg_tb (s : State) (k : Nat) : (sessionMsg s k).tb = s.tb := by
  unfold sessionMsg; split <;> rfl
@[simp] theorem sessionMsg_heads (s : State) (k : Nat) : (sessionMsg s k).heads = s.heads := by
  unfold sessionMsg; split <;> rfl
@[simp] theorem sessionMsg_cfgs (s : State) (k : Nat) : (sessionMsg s k).cfgs = s.cfgs := by
  unfold sessionMsg; split <;> rfl
@[simp] theorem sessionMsg_hdms (s : State) (k : Nat) : (sessionMsg s k).hdms = s.hdms := by
  unfold sessionMsg; split <;> rfl
@[simp] theorem sessionMsg_parts (s : State) (k : Nat) : (sessionMsg s k).parts = s.parts := by
  unfold sessionMsg; split <;> rfl
@[simp] theorem sessionMsg_exts (s : State) (k : Nat) : (sessionMsg s k).exts = s.exts := by
  unfold sessionMsg; split <;> rfl
@[simp] theorem sessionMsg_attrDue (s : State) (k : Nat) : (sessionMsg s k).attrDue = s.attrDue := by
  unfold sessionMsg; split <;> rfl
@[simp] theorem sessionMsg_reserve (s : State) (k : Nat) : (sessionMsg s k).reserve = s.reserve := by
  unfold sessionMsg; split <;> rfl
@[simp] theorem sessionMsg_sanReqs (s : State) (k : Nat) : (sessionMsg s k).sanReqs = s.sanReqs := by
  unfold sessionMsg; split <;> rfl
@[simp] theorem sessionMsg_fmLog (s : State) (k : Nat) : (sessionMsg s k).fmLog = s.fmLog := by
  unfold sessionMsg; split <;> rfl
@[simp] theorem sessionMsg_dir (s : State) (k : Nat) : (sessionMsg s k).dir = s.dir := by
  unfold sessionMsg; split <;> rfl
@[simp] theorem sessionMsg_trans (s : State) (k : Nat) : (sessionMsg s k).trans = s.trans := by
  unfold sessionMsg; split <;> rfl
@[simp] theorem sessionMsg_lineq (s : State) (k : Nat) : (sessionMsg s k).lineq = s.lineq := by
  unfold sessionMsg; split <;> rfl
@[simp] theorem sessionMsg_snaps (s : State) (k : Nat) : (sessionMsg s k).snaps = s.snaps := by
  unfold sessionMsg; split <;> rfl
@[simp] theorem sessionMsg_snapCmds (s : State) (k : Nat) : (sessionMsg s k).snapCmds = s.snapCmds := by
  unfold sessionMsg; split <;> rfl
@[simp] theorem sessionMsg_frames (s : State) (k : Nat) : (sessionMsg s k).frames = s.frames := by
  unfold sessionMsg; split <;> rfl
@[simp] theorem sessionMsg_pinMarks (s : State) (k : Nat) : (sessionMsg s k).pinMarks = s.pinMarks := by
  unfold sessionMsg; split <;> rfl
@[simp] theorem sessionMsg_lbaMap (s : State) (k : Nat) : (sessionMsg s k).lbaMap = s.lbaMap := by
  unfold sessionMsg; split <;> rfl
@[simp] theorem sessionMsg_ssd (s : State) (k : Nat) : (sessionMsg s k).ssd = s.ssd := by
  unfold sessionMsg; split <;> rfl
@[simp] theorem sessionMsg_locks (s : State) (k : Nat) : (sessionMsg s k).locks = s.locks := by
  unfold sessionMsg; split <;> rfl
@[simp] theorem sessionMsg_ios (s : State) (k : Nat) : (sessionMsg s k).ios = s.ios := by
  unfold sessionMsg; split <;> rfl
@[simp] theorem sessionMsg_nextIo (s : State) (k : Nat) : (sessionMsg s k).nextIo = s.nextIo := by
  unfold sessionMsg; split <;> rfl
@[simp] theorem sessionMsg_slots (s : State) (k : Nat) : (sessionMsg s k).slots = s.slots := by
  unfold sessionMsg; split <;> rfl
@[simp] theorem sessionMsg_rebuild (s : State) (k : Nat) : (sessionMsg s k).rebuild = s.rebuild := by
  unfold sessionMsg; split <;> rfl
@[simp] theorem sessionMsg_draining (s : State) (k : Nat) : (sessionMsg s k).draining = s.draining := by
  unfold sessionMsg; split <;> rfl
@[simp] theorem sessionMsg_hints (s : State) (k : Nat) : (sessionMsg s k).hints = s.hints := by
  unfold sessionMsg; split <;> rfl
@[simp] theorem sessionMsg_index (s : State) (k : Nat) : (sessionMsg s k).index = s.index := by
  unfold sessionMsg; split <;> rfl
@[simp] theorem sessionMsg_segs (s : State) (k : Nat) : (sessionMsg s k).segs = s.segs := by
  unfold sessionMsg; split <;> rfl
@[simp] theorem sessionMsg_cache (s : State) (k : Nat) : (sessionMsg s k).cache = s.cache := by
  unfold sessionMsg; split <;> rfl
@[simp] theorem sessionMsg_expPitch (s : State) (k : Nat) : (sessionMsg s k).expPitch = s.expPitch := by
  unfold sessionMsg; split <;> rfl
@[simp] theorem sessionMsg_compactQ (s : State) (k : Nat) : (sessionMsg s k).compactQ = s.compactQ := by
  unfold sessionMsg; split <;> rfl
@[simp] theorem sessionMsg_stale (s : State) (k : Nat) : (sessionMsg s k).stale = s.stale := by
  unfold sessionMsg; split <;> rfl
@[simp] theorem sessionMsg_damaged (s : State) (k : Nat) : (sessionMsg s k).damaged = s.damaged := by
  unfold sessionMsg; split <;> rfl
@[simp] theorem sessionMsg_rings (s : State) (k : Nat) : (sessionMsg s k).rings = s.rings := by
  unfold sessionMsg; split <;> rfl
@[simp] theorem sessionMsg_ringMem (s : State) (k : Nat) : (sessionMsg s k).ringMem = s.ringMem := by
  unfold sessionMsg; split <;> rfl
@[simp] theorem sessionMsg_jobs (s : State) (k : Nat) : (sessionMsg s k).jobs = s.jobs := by
  unfold sessionMsg; split <;> rfl
@[simp] theorem sessionMsg_windows (s : State) (k : Nat) : (sessionMsg s k).windows = s.windows := by
  unfold sessionMsg; split <;> rfl
@[simp] theorem sessionMsg_applied (s : State) (k : Nat) : (sessionMsg s k).applied = s.applied := by
  unfold sessionMsg; split <;> rfl
@[simp] theorem sessionMsg_steps (s : State) (k : Nat) : (sessionMsg s k).steps = s.steps := by
  unfold sessionMsg; split <;> rfl
@[simp] theorem sessionMsg_coreTrips (s : State) (k : Nat) : (sessionMsg s k).coreTrips = s.coreTrips := by
  unfold sessionMsg; split <;> rfl
@[simp] theorem sessionMsg_coresOut (s : State) (k : Nat) : (sessionMsg s k).coresOut = s.coresOut := by
  unfold sessionMsg; split <;> rfl
@[simp] theorem sessionMsg_qos (s : State) (k : Nat) : (sessionMsg s k).qos = s.qos := by
  unfold sessionMsg; split <;> rfl
@[simp] theorem sessionMsg_pcs (s : State) (k : Nat) : (sessionMsg s k).pcs = s.pcs := by
  unfold sessionMsg; split <;> rfl
@[simp] theorem sessionMsg_portDiesOut (s : State) (k : Nat) : (sessionMsg s k).portDiesOut = s.portDiesOut := by
  unfold sessionMsg; split <;> rfl
@[simp] theorem sessionMsg_clustersOut (s : State) (k : Nat) : (sessionMsg s k).clustersOut = s.clustersOut := by
  unfold sessionMsg; split <;> rfl
@[simp] theorem sessionMsg_resetting (s : State) (k : Nat) : (sessionMsg s k).resetting = s.resetting := by
  unfold sessionMsg; split <;> rfl
@[simp] theorem sessionMsg_repaired (s : State) (k : Nat) : (sessionMsg s k).repaired = s.repaired := by
  unfold sessionMsg; split <;> rfl
@[simp] theorem sessionMsg_ras (s : State) (k : Nat) : (sessionMsg s k).ras = s.ras := by
  unfold sessionMsg; split <;> rfl
@[simp] theorem sessionMsg_belay (s : State) (k : Nat) : (sessionMsg s k).belay = s.belay := by
  unfold sessionMsg; split <;> rfl
@[simp] theorem sessionMsg_cairn (s : State) (k : Nat) : (sessionMsg s k).cairn = s.cairn := by
  unfold sessionMsg; split <;> rfl
@[simp] theorem sessionMsg_pins (s : State) (k : Nat) : (sessionMsg s k).pins = s.pins := by
  unfold sessionMsg; split <;> rfl

@[simp] theorem fget_sessionMsg (s : State) (k : Nat) (f : Fld) (i j : Nat) :
    fget (sessionMsg s k) f i j = fget s f i j := by unfold fget; rw [sessionMsg_regs]
@[simp] theorem hget_sessionMsg (s : State) (k : Nat) (b : Blk) (i : Nat) :
    hget (sessionMsg s k) b i = hget s b i := by unfold hget; rw [sessionMsg_hdr]
@[simp] theorem headOf_sessionMsg (s : State) (k h : Nat) : headOf (sessionMsg s k) h = headOf s h := by
  unfold headOf; rw [sessionMsg_heads]
@[simp] theorem partOf_sessionMsg (s : State) (k p : Nat) : partOf (sessionMsg s k) p = partOf s p := by
  unfold partOf; rw [sessionMsg_parts]
@[simp] theorem cfgOf_sessionMsg (s : State) (k o : Nat) : cfgOf (sessionMsg s k) o = cfgOf s o := by
  unfold cfgOf; rw [sessionMsg_cfgs]

theorem find_adel_ne {α : Type} (m : Assoc Nat α) {k l : Nat} (h : l ≠ k) :
    (adel m k).find? (fun e => decide (e.1 = l)) = m.find? fun e => decide (e.1 = l) := by
  induction m with
  | nil => rfl
  | cons e r ih =>
    unfold adel at ih ⊢
    by_cases hk : e.1 = k
    · rw [List.filter_cons_of_neg (by simp [hk]), ih, List.find?_cons_of_neg (by simp; omega)]
    · rw [List.filter_cons_of_pos (by simp [hk])]
      by_cases hl : e.1 = l
      · rw [List.find?_cons_of_pos (by simp [hl]), List.find?_cons_of_pos (by simp [hl])]
      · rw [List.find?_cons_of_neg (by simp [hl]), List.find?_cons_of_neg (by simp [hl]), ih]

theorem find_aset_self {α : Type} (m : Assoc Nat α) (k : Nat) (v : α) :
    (aset m k v).find? (fun e => decide (e.1 = k)) = some (k, v) := by
  unfold aset; rw [List.find?_cons_of_pos (by simp)]

theorem find_aset_ne {α : Type} (m : Assoc Nat α) {k l : Nat} (v : α) (h : l ≠ k) :
    (aset m k v).find? (fun e => decide (e.1 = l)) = m.find? fun e => decide (e.1 = l) := by
  unfold aset; rw [List.find?_cons_of_neg (by simp; omega), find_adel_ne m h]

/-- What a session holds after one of its messages: a new deadline (14 R312). -/
theorem sesOf_sessionMsg (s : State) (k : Nat) :
    sesOf (sessionMsg s k) k = (sesOf s k).map fun st => { st with deadline := now s + sessionPeriod } := by
  unfold sessionMsg
  cases h : sesOf s k with
  | none => exact h
  | some st =>
    show ((aset s.sessions k _).find? _).map (·.2) = _
    rw [find_aset_self]; rfl

theorem sesOf_sessionMsg_ne (s : State) {k l : Nat} (h : l ≠ k) : sesOf (sessionMsg s k) l = sesOf s l := by
  unfold sessionMsg
  cases hk : sesOf s k with
  | none => rfl
  | some st =>
    show ((aset s.sessions k _).find? _).map (·.2) = _
    rw [find_aset_ne _ _ h]; rfl

theorem roleOf_eq (s : State) (k : Nat) : roleOf s k = match (sesOf s k).bind (·.role) with
    | some .operator => 1 | some .installer => 2 | some .maker => 3 | none => 0 := by
  unfold roleOf sesOf
  cases s.sessions.find? (fun e => decide (e.1 = k)) with
  | none => rfl
  | some e => cases e with | mk a st => cases h : st.role with
    | none => simp [h]
    | some r => cases r <;> simp [h]

/-- A message leaves the roles. -/
@[simp] theorem roleOf_sessionMsg (s : State) (k l : Nat) : roleOf (sessionMsg s k) l = roleOf s l := by
  rw [roleOf_eq, roleOf_eq]
  by_cases h : l = k
  · subst h; rw [sesOf_sessionMsg]; cases sesOf s l <;> rfl
  · rw [sesOf_sessionMsg_ne s h]

/-- An admitted fabric-manager command runs after its message, and after its audit record where it needs an
installer (14 R309, R314). -/
theorem fmCmd_admitted {s : State} {ses : Session} {need : Nat} (up : sesUp s ses = true) (hr : need ≤ roleOf s ses)
    (head : Nat × List Byte) (f : State → State) : fmCmd s ses need head f =
      f (if need = 2 then auditCmd (sessionMsg s ses) ses head.1 head.2 else sessionMsg s ses) := by
  unfold fmCmd
  rw [if_pos up]
  dsimp only
  rw [if_neg (by rw [roleOf_sessionMsg]; omega)]

theorem fmOp_admitted {s : State} {ses : Session} (up : sesUp s ses = true) (hr : 1 ≤ roleOf s ses)
    (f : State → State) : fmOp s ses f = f (sessionMsg s ses) := by
  unfold fmOp
  rw [fmCmd_admitted up hr, if_neg (by decide)]

/-! ### Header flags under events and audit records -/

/-- What a header holds beside its event fields. -/
def hflags (s : State) (b : Blk) (i : Nat) : Bool × Bool × Bool × Bool × Bool × Bool :=
  let h := hget s b i
  (h.blockReset, h.lock, h.quiesce, h.quiesced, h.frozen, h.degraded)

theorem hflags_hupd {s : State} {b b' : Blk} {i i' : Nat} {n : BitVec 64} :
    hflags (hupd s b i fun h => { h with evtStatus := h.evtStatus ||| n }) b' i' = hflags s b' i' := by
  by_cases e : b' = b ∧ i' = i
  · obtain ⟨rfl, rfl⟩ := e
    simp [hflags, hget_hupd_self]
  · unfold hflags
    rw [hget_hupd_ne]
    grind

/-- What reads neither event bits, MSI-X entries, messages, Cairn nor registers is left by an event bit. -/
theorem eventBit_projH {α : Type} (q : State → α)
    (hc : ∀ s x, q { s with cfgs := x } = q s) (ho : ∀ s x, q { s with out := x } = q s) (s : State) (b : Blk)
    (i bit : Nat) (hh : ∀ s (n : BitVec 64), q (hupd s b i fun h => { h with evtStatus := h.evtStatus ||| n }) = q s) (stage : State → State × Bool) (hs : ∀ s, q (stage s).1 = q s) :
    q (eventBit s b i bit stage).1 = q s := by
  unfold eventBit
  dsimp only
  split
  · exact (signalVec_proj q hc ho _ _ _).trans ((hs _).trans (hh _ _))
  · exact (hs _).trans (hh _ _)

theorem raise_projH {α : Type} (q : State → α)
    (hh : ∀ s (n : BitVec 64), q (hupd s .cairn 0 fun h => { h with evtStatus := h.evtStatus ||| n }) = q s)
    (hc : ∀ s x, q { s with cfgs := x } = q s) (ho : ∀ s x, q { s with out := x } = q s)
    (hk : ∀ s x, q { s with cairn := x } = q s)
    (hf : ∀ s (g : Fld) v i j, g.desc.blk = .cairn → q (fset s g v i j) = q s)
    (s : State) (e : Evt) (i : Nat)
    (he : ∀ s (n : BitVec 64), q (hupd s e.info.1 i fun h => { h with evtStatus := h.evtStatus ||| n }) = q s)
    (part : Option Nat) (pl : List Byte) (src : Option Nat) (sev : Option Sev) :
    q (raise s e i part pl src sev) = q s := by
  have hst : ∀ s r, q (stageRec s r).1 = q s := fun s r => stageRec_proj q hk (fun s n => hf s _ _ _ _ rfl) s r
  have hn : ∀ x : State × Bool, q (noteOverflow x) = q x.1 := by
    intro x
    unfold noteOverflow
    split
    · refine eventBit_projH q hc ho _ _ _ _ hh _ fun s => ?_
      split
      · exact hst _ _
      · rfl
    · rfl
  unfold raise
  dsimp only
  refine (hn _).trans (eventBit_projH q hc ho _ _ _ _ he _ fun s => ?_)
  split
  · exact hst _ _
  · rfl

theorem commitRec_projH {α : Type} (q : State → α)
    (hh : ∀ s (n : BitVec 64), q (hupd s .cairn 0 fun h => { h with evtStatus := h.evtStatus ||| n }) = q s)
    (hc : ∀ s x, q { s with cfgs := x } = q s) (ho : ∀ s x, q { s with out := x } = q s)
    (hk : ∀ s x, q { s with cairn := x } = q s)
    (hf : ∀ s (g : Fld) v i j, g.desc.blk = .cairn → q (fset s g v i j) = q s)
    (s : State) (r : CRec) : q (commitRec s r) = q s := by
  have hr := fun s e i he => raise_projH q hh hc ho hk hf s e i he
  have hl : ∀ s r, q (lastResort s r) = q s := by
    intro s r
    unfold lastResort
    dsimp only
    split
    · rw [hr _ .cairnLrWrap 0 hh]; exact (hf _ _ _ _ _ rfl).trans ((hf _ _ _ _ _ rfl).trans (hk _ _))
    · exact (hf _ _ _ _ _ rfl).trans ((hf _ _ _ _ _ rfl).trans (hk _ _))
  have hsr : ∀ s r, q (streamRec s r) = q s := by
    intro s r
    unfold streamRec
    split
    · rfl
    · split
      · exact (hf _ _ _ _ _ rfl).trans (ho _ _)
      · split
        · exact hk _ _
        · rfl
  have hsp : ∀ s n, q (spillStep s n) = q s := by
    intro s n
    unfold spillStep
    split
    · rfl
    · dsimp only
      repeat' split
      all_goals first | exact (hr _ .cairnSpillWrap 0 hh _ _ _ _).trans (hk _ _) | exact hk _ _
  unfold commitRec
  dsimp only
  have hb : ∀ r : CRec, q (streamRec (fset { spillStep s (fget s .cairnHeadNextSeq) with cairn :=
      { (spillStep s (fget s .cairnHeadNextSeq)).cairn with log := r :: (spillStep s (fget s .cairnHeadNextSeq)).cairn.log } }
      .cairnHeadNextSeq (fget s .cairnHeadNextSeq + 1)) r) = q s := by
    intro r
    rw [hsr]
    exact (hf _ _ _ _ _ rfl).trans ((hk _ _).trans (hsp _ _))
  split
  · split
    · exact (ho _ _).trans ((hl _ _).trans (hb _))
    · exact (hl _ _).trans (hb _)
  · exact hb _

theorem audit_projH {α : Type} (q : State → α)
    (hh : ∀ s (n : BitVec 64), q (hupd s .cairn 0 fun h => { h with evtStatus := h.evtStatus ||| n }) = q s)
    (hc : ∀ s x, q { s with cfgs := x } = q s) (ho : ∀ s x, q { s with out := x } = q s)
    (hk : ∀ s x, q { s with cairn := x } = q s)
    (hf : ∀ s (g : Fld) v i j, g.desc.blk = .cairn → q (fset s g v i j) = q s)
    (ha : ∀ s v, q (fset s .roleAuditsRecords v) = q s)
    (s : State) (ses : Session) (blk inst off value prev : Nat) :
    q (audit s ses blk inst off value prev) = q s := by
  unfold audit
  dsimp only
  split
  · rfl
  · rw [stageRec_proj q hk (fun s n => hf s _ _ _ _ rfl)]
    show q (fset _ _ _ _ _) = _
    refine (ha _ _).trans ?_
    unfold commitSlot
    split
    · exact (commitRec_projH q hh hc ho hk hf _ _).trans (hk _ _)
    · rfl

theorem audit_hflags (s : State) (ses : Session) (blk inst off value prev : Nat) (b : Blk) (i : Nat) :
    hflags (audit s ses blk inst off value prev) b i = hflags s b i :=
  audit_projH (fun s => hflags s b i) (fun _ _ => hflags_hupd) (fun _ _ => rfl) (fun _ _ => rfl) (fun _ _ => rfl)
    (fun _ _ _ _ _ _ => rfl) (fun _ _ => rfl) s ses blk inst off value prev

/-- An audit record sets no event bit outside the CAIRN page. -/
theorem hget_audit (s : State) (ses : Session) (blk inst off value prev : Nat) (b : Blk) (i : Nat) (h : b ≠ .cairn) :
    hget (audit s ses blk inst off value prev) b i = hget s b i :=
  audit_projH (fun s => hget s b i) (fun _ _ => hget_hupd_ne _ _ (.inl h)) (fun _ _ => rfl) (fun _ _ => rfl)
    (fun _ _ => rfl) (fun _ _ _ _ _ _ => rfl) (fun _ _ => rfl) s ses blk inst off value prev

/-- An audit record moves messages, headers, Cairn, MSI-X entries and the CAIRN and ROLE registers, no more. -/
theorem audit_moves' (s : State) (ses : Session) (blk inst off value prev : Nat) :
    Moves 299067162756109 s (audit s ses blk inst off value prev) := audit_moves rfl (.refl _ _)

@[simp] theorem audit_pending (s : State) (k : Session) (b i o v p : Nat) : (audit s k b i o v p).pending = s.pending :=
  audit_projH (·.pending) (fun _ _ => rfl) (fun _ _ => rfl) (fun _ _ => rfl) (fun _ _ => rfl)
    (fun _ _ _ _ _ _ => rfl) (fun _ _ => rfl) _ _ _ _ _ _ _
@[simp] theorem audit_free (s : State) (k : Session) (b i o v p : Nat) : (audit s k b i o v p).free = s.free :=
  audit_projH (·.free) (fun _ _ => rfl) (fun _ _ => rfl) (fun _ _ => rfl) (fun _ _ => rfl)
    (fun _ _ _ _ _ _ => rfl) (fun _ _ => rfl) _ _ _ _ _ _ _
@[simp] theorem audit_lag (s : State) (k : Session) (b i o v p : Nat) : (audit s k b i o v p).lag = s.lag :=
  audit_projH (·.lag) (fun _ _ => rfl) (fun _ _ => rfl) (fun _ _ => rfl) (fun _ _ => rfl)
    (fun _ _ _ _ _ _ => rfl) (fun _ _ => rfl) _ _ _ _ _ _ _
@[simp] theorem audit_mem (s : State) (k : Session) (b i o v p : Nat) : (audit s k b i o v p).mem = s.mem :=
  audit_projH (·.mem) (fun _ _ => rfl) (fun _ _ => rfl) (fun _ _ => rfl) (fun _ _ => rfl)
    (fun _ _ _ _ _ _ => rfl) (fun _ _ => rfl) _ _ _ _ _ _ _
@[simp] theorem audit_poison (s : State) (k : Session) (b i o v p : Nat) : (audit s k b i o v p).poison = s.poison :=
  audit_projH (·.poison) (fun _ _ => rfl) (fun _ _ => rfl) (fun _ _ => rfl) (fun _ _ => rfl)
    (fun _ _ _ _ _ _ => rfl) (fun _ _ => rfl) _ _ _ _ _ _ _
@[simp] theorem audit_damage (s : State) (k : Session) (b i o v p : Nat) : (audit s k b i o v p).damage = s.damage :=
  audit_projH (·.damage) (fun _ _ => rfl) (fun _ _ => rfl) (fun _ _ => rfl) (fun _ _ => rfl)
    (fun _ _ _ _ _ _ => rfl) (fun _ _ => rfl) _ _ _ _ _ _ _
@[simp] theorem audit_boot (s : State) (k : Session) (b i o v p : Nat) : (audit s k b i o v p).boot = s.boot :=
  audit_projH (·.boot) (fun _ _ => rfl) (fun _ _ => rfl) (fun _ _ => rfl) (fun _ _ => rfl)
    (fun _ _ _ _ _ _ => rfl) (fun _ _ => rfl) _ _ _ _ _ _ _
@[simp] theorem audit_flash (s : State) (k : Session) (b i o v p : Nat) : (audit s k b i o v p).flash = s.flash :=
  audit_projH (·.flash) (fun _ _ => rfl) (fun _ _ => rfl) (fun _ _ => rfl) (fun _ _ => rfl)
    (fun _ _ _ _ _ _ => rfl) (fun _ _ => rfl) _ _ _ _ _ _ _
@[simp] theorem audit_tb (s : State) (k : Session) (b i o v p : Nat) : (audit s k b i o v p).tb = s.tb :=
  audit_projH (·.tb) (fun _ _ => rfl) (fun _ _ => rfl) (fun _ _ => rfl) (fun _ _ => rfl)
    (fun _ _ _ _ _ _ => rfl) (fun _ _ => rfl) _ _ _ _ _ _ _
@[simp] theorem audit_heads (s : State) (k : Session) (b i o v p : Nat) : (audit s k b i o v p).heads = s.heads :=
  audit_projH (·.heads) (fun _ _ => rfl) (fun _ _ => rfl) (fun _ _ => rfl) (fun _ _ => rfl)
    (fun _ _ _ _ _ _ => rfl) (fun _ _ => rfl) _ _ _ _ _ _ _
@[simp] theorem audit_hdms (s : State) (k : Session) (b i o v p : Nat) : (audit s k b i o v p).hdms = s.hdms :=
  audit_projH (·.hdms) (fun _ _ => rfl) (fun _ _ => rfl) (fun _ _ => rfl) (fun _ _ => rfl)
    (fun _ _ _ _ _ _ => rfl) (fun _ _ => rfl) _ _ _ _ _ _ _
@[simp] theorem audit_parts (s : State) (k : Session) (b i o v p : Nat) : (audit s k b i o v p).parts = s.parts :=
  audit_projH (·.parts) (fun _ _ => rfl) (fun _ _ => rfl) (fun _ _ => rfl) (fun _ _ => rfl)
    (fun _ _ _ _ _ _ => rfl) (fun _ _ => rfl) _ _ _ _ _ _ _
@[simp] theorem audit_exts (s : State) (k : Session) (b i o v p : Nat) : (audit s k b i o v p).exts = s.exts :=
  audit_projH (·.exts) (fun _ _ => rfl) (fun _ _ => rfl) (fun _ _ => rfl) (fun _ _ => rfl)
    (fun _ _ _ _ _ _ => rfl) (fun _ _ => rfl) _ _ _ _ _ _ _
@[simp] theorem audit_attrDue (s : State) (k : Session) (b i o v p : Nat) : (audit s k b i o v p).attrDue = s.attrDue :=
  audit_projH (·.attrDue) (fun _ _ => rfl) (fun _ _ => rfl) (fun _ _ => rfl) (fun _ _ => rfl)
    (fun _ _ _ _ _ _ => rfl) (fun _ _ => rfl) _ _ _ _ _ _ _
@[simp] theorem audit_reserve (s : State) (k : Session) (b i o v p : Nat) : (audit s k b i o v p).reserve = s.reserve :=
  audit_projH (·.reserve) (fun _ _ => rfl) (fun _ _ => rfl) (fun _ _ => rfl) (fun _ _ => rfl)
    (fun _ _ _ _ _ _ => rfl) (fun _ _ => rfl) _ _ _ _ _ _ _
@[simp] theorem audit_sanReqs (s : State) (k : Session) (b i o v p : Nat) : (audit s k b i o v p).sanReqs = s.sanReqs :=
  audit_projH (·.sanReqs) (fun _ _ => rfl) (fun _ _ => rfl) (fun _ _ => rfl) (fun _ _ => rfl)
    (fun _ _ _ _ _ _ => rfl) (fun _ _ => rfl) _ _ _ _ _ _ _
@[simp] theorem audit_fmLog (s : State) (k : Session) (b i o v p : Nat) : (audit s k b i o v p).fmLog = s.fmLog :=
  audit_projH (·.fmLog) (fun _ _ => rfl) (fun _ _ => rfl) (fun _ _ => rfl) (fun _ _ => rfl)
    (fun _ _ _ _ _ _ => rfl) (fun _ _ => rfl) _ _ _ _ _ _ _
@[simp] theorem audit_dir (s : State) (k : Session) (b i o v p : Nat) : (audit s k b i o v p).dir = s.dir :=
  audit_projH (·.dir) (fun _ _ => rfl) (fun _ _ => rfl) (fun _ _ => rfl) (fun _ _ => rfl)
    (fun _ _ _ _ _ _ => rfl) (fun _ _ => rfl) _ _ _ _ _ _ _
@[simp] theorem audit_trans (s : State) (k : Session) (b i o v p : Nat) : (audit s k b i o v p).trans = s.trans :=
  audit_projH (·.trans) (fun _ _ => rfl) (fun _ _ => rfl) (fun _ _ => rfl) (fun _ _ => rfl)
    (fun _ _ _ _ _ _ => rfl) (fun _ _ => rfl) _ _ _ _ _ _ _
@[simp] theorem audit_lineq (s : State) (k : Session) (b i o v p : Nat) : (audit s k b i o v p).lineq = s.lineq :=
  audit_projH (·.lineq) (fun _ _ => rfl) (fun _ _ => rfl) (fun _ _ => rfl) (fun _ _ => rfl)
    (fun _ _ _ _ _ _ => rfl) (fun _ _ => rfl) _ _ _ _ _ _ _
@[simp] theorem audit_snaps (s : State) (k : Session) (b i o v p : Nat) : (audit s k b i o v p).snaps = s.snaps :=
  audit_projH (·.snaps) (fun _ _ => rfl) (fun _ _ => rfl) (fun _ _ => rfl) (fun _ _ => rfl)
    (fun _ _ _ _ _ _ => rfl) (fun _ _ => rfl) _ _ _ _ _ _ _
@[simp] theorem audit_snapCmds (s : State) (k : Session) (b i o v p : Nat) : (audit s k b i o v p).snapCmds = s.snapCmds :=
  audit_projH (·.snapCmds) (fun _ _ => rfl) (fun _ _ => rfl) (fun _ _ => rfl) (fun _ _ => rfl)
    (fun _ _ _ _ _ _ => rfl) (fun _ _ => rfl) _ _ _ _ _ _ _
@[simp] theorem audit_frames (s : State) (k : Session) (b i o v p : Nat) : (audit s k b i o v p).frames = s.frames :=
  audit_projH (·.frames) (fun _ _ => rfl) (fun _ _ => rfl) (fun _ _ => rfl) (fun _ _ => rfl)
    (fun _ _ _ _ _ _ => rfl) (fun _ _ => rfl) _ _ _ _ _ _ _
@[simp] theorem audit_pinMarks (s : State) (k : Session) (b i o v p : Nat) : (audit s k b i o v p).pinMarks = s.pinMarks :=
  audit_projH (·.pinMarks) (fun _ _ => rfl) (fun _ _ => rfl) (fun _ _ => rfl) (fun _ _ => rfl)
    (fun _ _ _ _ _ _ => rfl) (fun _ _ => rfl) _ _ _ _ _ _ _
@[simp] theorem audit_lbaMap (s : State) (k : Session) (b i o v p : Nat) : (audit s k b i o v p).lbaMap = s.lbaMap :=
  audit_projH (·.lbaMap) (fun _ _ => rfl) (fun _ _ => rfl) (fun _ _ => rfl) (fun _ _ => rfl)
    (fun _ _ _ _ _ _ => rfl) (fun _ _ => rfl) _ _ _ _ _ _ _
@[simp] theorem audit_ssd (s : State) (k : Session) (b i o v p : Nat) : (audit s k b i o v p).ssd = s.ssd :=
  audit_projH (·.ssd) (fun _ _ => rfl) (fun _ _ => rfl) (fun _ _ => rfl) (fun _ _ => rfl)
    (fun _ _ _ _ _ _ => rfl) (fun _ _ => rfl) _ _ _ _ _ _ _
@[simp] theorem audit_locks (s : State) (k : Session) (b i o v p : Nat) : (audit s k b i o v p).locks = s.locks :=
  audit_projH (·.locks) (fun _ _ => rfl) (fun _ _ => rfl) (fun _ _ => rfl) (fun _ _ => rfl)
    (fun _ _ _ _ _ _ => rfl) (fun _ _ => rfl) _ _ _ _ _ _ _
@[simp] theorem audit_ios (s : State) (k : Session) (b i o v p : Nat) : (audit s k b i o v p).ios = s.ios :=
  audit_projH (·.ios) (fun _ _ => rfl) (fun _ _ => rfl) (fun _ _ => rfl) (fun _ _ => rfl)
    (fun _ _ _ _ _ _ => rfl) (fun _ _ => rfl) _ _ _ _ _ _ _
@[simp] theorem audit_nextIo (s : State) (k : Session) (b i o v p : Nat) : (audit s k b i o v p).nextIo = s.nextIo :=
  audit_projH (·.nextIo) (fun _ _ => rfl) (fun _ _ => rfl) (fun _ _ => rfl) (fun _ _ => rfl)
    (fun _ _ _ _ _ _ => rfl) (fun _ _ => rfl) _ _ _ _ _ _ _
@[simp] theorem audit_slots (s : State) (k : Session) (b i o v p : Nat) : (audit s k b i o v p).slots = s.slots :=
  audit_projH (·.slots) (fun _ _ => rfl) (fun _ _ => rfl) (fun _ _ => rfl) (fun _ _ => rfl)
    (fun _ _ _ _ _ _ => rfl) (fun _ _ => rfl) _ _ _ _ _ _ _
@[simp] theorem audit_rebuild (s : State) (k : Session) (b i o v p : Nat) : (audit s k b i o v p).rebuild = s.rebuild :=
  audit_projH (·.rebuild) (fun _ _ => rfl) (fun _ _ => rfl) (fun _ _ => rfl) (fun _ _ => rfl)
    (fun _ _ _ _ _ _ => rfl) (fun _ _ => rfl) _ _ _ _ _ _ _
@[simp] theorem audit_draining (s : State) (k : Session) (b i o v p : Nat) : (audit s k b i o v p).draining = s.draining :=
  audit_projH (·.draining) (fun _ _ => rfl) (fun _ _ => rfl) (fun _ _ => rfl) (fun _ _ => rfl)
    (fun _ _ _ _ _ _ => rfl) (fun _ _ => rfl) _ _ _ _ _ _ _
@[simp] theorem audit_hints (s : State) (k : Session) (b i o v p : Nat) : (audit s k b i o v p).hints = s.hints :=
  audit_projH (·.hints) (fun _ _ => rfl) (fun _ _ => rfl) (fun _ _ => rfl) (fun _ _ => rfl)
    (fun _ _ _ _ _ _ => rfl) (fun _ _ => rfl) _ _ _ _ _ _ _
@[simp] theorem audit_index (s : State) (k : Session) (b i o v p : Nat) : (audit s k b i o v p).index = s.index :=
  audit_projH (·.index) (fun _ _ => rfl) (fun _ _ => rfl) (fun _ _ => rfl) (fun _ _ => rfl)
    (fun _ _ _ _ _ _ => rfl) (fun _ _ => rfl) _ _ _ _ _ _ _
@[simp] theorem audit_segs (s : State) (k : Session) (b i o v p : Nat) : (audit s k b i o v p).segs = s.segs :=
  audit_projH (·.segs) (fun _ _ => rfl) (fun _ _ => rfl) (fun _ _ => rfl) (fun _ _ => rfl)
    (fun _ _ _ _ _ _ => rfl) (fun _ _ => rfl) _ _ _ _ _ _ _
@[simp] theorem audit_cache (s : State) (k : Session) (b i o v p : Nat) : (audit s k b i o v p).cache = s.cache :=
  audit_projH (·.cache) (fun _ _ => rfl) (fun _ _ => rfl) (fun _ _ => rfl) (fun _ _ => rfl)
    (fun _ _ _ _ _ _ => rfl) (fun _ _ => rfl) _ _ _ _ _ _ _
@[simp] theorem audit_expPitch (s : State) (k : Session) (b i o v p : Nat) : (audit s k b i o v p).expPitch = s.expPitch :=
  audit_projH (·.expPitch) (fun _ _ => rfl) (fun _ _ => rfl) (fun _ _ => rfl) (fun _ _ => rfl)
    (fun _ _ _ _ _ _ => rfl) (fun _ _ => rfl) _ _ _ _ _ _ _
@[simp] theorem audit_compactQ (s : State) (k : Session) (b i o v p : Nat) : (audit s k b i o v p).compactQ = s.compactQ :=
  audit_projH (·.compactQ) (fun _ _ => rfl) (fun _ _ => rfl) (fun _ _ => rfl) (fun _ _ => rfl)
    (fun _ _ _ _ _ _ => rfl) (fun _ _ => rfl) _ _ _ _ _ _ _
@[simp] theorem audit_stale (s : State) (k : Session) (b i o v p : Nat) : (audit s k b i o v p).stale = s.stale :=
  audit_projH (·.stale) (fun _ _ => rfl) (fun _ _ => rfl) (fun _ _ => rfl) (fun _ _ => rfl)
    (fun _ _ _ _ _ _ => rfl) (fun _ _ => rfl) _ _ _ _ _ _ _
@[simp] theorem audit_damaged (s : State) (k : Session) (b i o v p : Nat) : (audit s k b i o v p).damaged = s.damaged :=
  audit_projH (·.damaged) (fun _ _ => rfl) (fun _ _ => rfl) (fun _ _ => rfl) (fun _ _ => rfl)
    (fun _ _ _ _ _ _ => rfl) (fun _ _ => rfl) _ _ _ _ _ _ _
@[simp] theorem audit_rings (s : State) (k : Session) (b i o v p : Nat) : (audit s k b i o v p).rings = s.rings :=
  audit_projH (·.rings) (fun _ _ => rfl) (fun _ _ => rfl) (fun _ _ => rfl) (fun _ _ => rfl)
    (fun _ _ _ _ _ _ => rfl) (fun _ _ => rfl) _ _ _ _ _ _ _
@[simp] theorem audit_ringMem (s : State) (k : Session) (b i o v p : Nat) : (audit s k b i o v p).ringMem = s.ringMem :=
  audit_projH (·.ringMem) (fun _ _ => rfl) (fun _ _ => rfl) (fun _ _ => rfl) (fun _ _ => rfl)
    (fun _ _ _ _ _ _ => rfl) (fun _ _ => rfl) _ _ _ _ _ _ _
@[simp] theorem audit_jobs (s : State) (k : Session) (b i o v p : Nat) : (audit s k b i o v p).jobs = s.jobs :=
  audit_projH (·.jobs) (fun _ _ => rfl) (fun _ _ => rfl) (fun _ _ => rfl) (fun _ _ => rfl)
    (fun _ _ _ _ _ _ => rfl) (fun _ _ => rfl) _ _ _ _ _ _ _
@[simp] theorem audit_windows (s : State) (k : Session) (b i o v p : Nat) : (audit s k b i o v p).windows = s.windows :=
  audit_projH (·.windows) (fun _ _ => rfl) (fun _ _ => rfl) (fun _ _ => rfl) (fun _ _ => rfl)
    (fun _ _ _ _ _ _ => rfl) (fun _ _ => rfl) _ _ _ _ _ _ _
@[simp] theorem audit_applied (s : State) (k : Session) (b i o v p : Nat) : (audit s k b i o v p).applied = s.applied :=
  audit_projH (·.applied) (fun _ _ => rfl) (fun _ _ => rfl) (fun _ _ => rfl) (fun _ _ => rfl)
    (fun _ _ _ _ _ _ => rfl) (fun _ _ => rfl) _ _ _ _ _ _ _
@[simp] theorem audit_steps (s : State) (k : Session) (b i o v p : Nat) : (audit s k b i o v p).steps = s.steps :=
  audit_projH (·.steps) (fun _ _ => rfl) (fun _ _ => rfl) (fun _ _ => rfl) (fun _ _ => rfl)
    (fun _ _ _ _ _ _ => rfl) (fun _ _ => rfl) _ _ _ _ _ _ _
@[simp] theorem audit_coreTrips (s : State) (k : Session) (b i o v p : Nat) : (audit s k b i o v p).coreTrips = s.coreTrips :=
  audit_projH (·.coreTrips) (fun _ _ => rfl) (fun _ _ => rfl) (fun _ _ => rfl) (fun _ _ => rfl)
    (fun _ _ _ _ _ _ => rfl) (fun _ _ => rfl) _ _ _ _ _ _ _
@[simp] theorem audit_coresOut (s : State) (k : Session) (b i o v p : Nat) : (audit s k b i o v p).coresOut = s.coresOut :=
  audit_projH (·.coresOut) (fun _ _ => rfl) (fun _ _ => rfl) (fun _ _ => rfl) (fun _ _ => rfl)
    (fun _ _ _ _ _ _ => rfl) (fun _ _ => rfl) _ _ _ _ _ _ _
@[simp] theorem audit_qos (s : State) (k : Session) (b i o v p : Nat) : (audit s k b i o v p).qos = s.qos :=
  audit_projH (·.qos) (fun _ _ => rfl) (fun _ _ => rfl) (fun _ _ => rfl) (fun _ _ => rfl)
    (fun _ _ _ _ _ _ => rfl) (fun _ _ => rfl) _ _ _ _ _ _ _
@[simp] theorem audit_pcs (s : State) (k : Session) (b i o v p : Nat) : (audit s k b i o v p).pcs = s.pcs :=
  audit_projH (·.pcs) (fun _ _ => rfl) (fun _ _ => rfl) (fun _ _ => rfl) (fun _ _ => rfl)
    (fun _ _ _ _ _ _ => rfl) (fun _ _ => rfl) _ _ _ _ _ _ _
@[simp] theorem audit_portDiesOut (s : State) (k : Session) (b i o v p : Nat) : (audit s k b i o v p).portDiesOut = s.portDiesOut :=
  audit_projH (·.portDiesOut) (fun _ _ => rfl) (fun _ _ => rfl) (fun _ _ => rfl) (fun _ _ => rfl)
    (fun _ _ _ _ _ _ => rfl) (fun _ _ => rfl) _ _ _ _ _ _ _
@[simp] theorem audit_clustersOut (s : State) (k : Session) (b i o v p : Nat) : (audit s k b i o v p).clustersOut = s.clustersOut :=
  audit_projH (·.clustersOut) (fun _ _ => rfl) (fun _ _ => rfl) (fun _ _ => rfl) (fun _ _ => rfl)
    (fun _ _ _ _ _ _ => rfl) (fun _ _ => rfl) _ _ _ _ _ _ _
@[simp] theorem audit_resetting (s : State) (k : Session) (b i o v p : Nat) : (audit s k b i o v p).resetting = s.resetting :=
  audit_projH (·.resetting) (fun _ _ => rfl) (fun _ _ => rfl) (fun _ _ => rfl) (fun _ _ => rfl)
    (fun _ _ _ _ _ _ => rfl) (fun _ _ => rfl) _ _ _ _ _ _ _
@[simp] theorem audit_repaired (s : State) (k : Session) (b i o v p : Nat) : (audit s k b i o v p).repaired = s.repaired :=
  audit_projH (·.repaired) (fun _ _ => rfl) (fun _ _ => rfl) (fun _ _ => rfl) (fun _ _ => rfl)
    (fun _ _ _ _ _ _ => rfl) (fun _ _ => rfl) _ _ _ _ _ _ _
@[simp] theorem audit_ras (s : State) (k : Session) (b i o v p : Nat) : (audit s k b i o v p).ras = s.ras :=
  audit_projH (·.ras) (fun _ _ => rfl) (fun _ _ => rfl) (fun _ _ => rfl) (fun _ _ => rfl)
    (fun _ _ _ _ _ _ => rfl) (fun _ _ => rfl) _ _ _ _ _ _ _
@[simp] theorem audit_belay (s : State) (k : Session) (b i o v p : Nat) : (audit s k b i o v p).belay = s.belay :=
  audit_projH (·.belay) (fun _ _ => rfl) (fun _ _ => rfl) (fun _ _ => rfl) (fun _ _ => rfl)
    (fun _ _ _ _ _ _ => rfl) (fun _ _ => rfl) _ _ _ _ _ _ _
@[simp] theorem audit_pins (s : State) (k : Session) (b i o v p : Nat) : (audit s k b i o v p).pins = s.pins :=
  audit_projH (·.pins) (fun _ _ => rfl) (fun _ _ => rfl) (fun _ _ => rfl) (fun _ _ => rfl)
    (fun _ _ _ _ _ _ => rfl) (fun _ _ => rfl) _ _ _ _ _ _ _
@[simp] theorem audit_sessions (s : State) (k : Session) (b i o v p : Nat) : (audit s k b i o v p).sessions = s.sessions :=
  audit_projH (·.sessions) (fun _ _ => rfl) (fun _ _ => rfl) (fun _ _ => rfl) (fun _ _ => rfl)
    (fun _ _ _ _ _ _ => rfl) (fun _ _ => rfl) _ _ _ _ _ _ _
@[simp] theorem audit_power (s : State) (k : Session) (b i o v p : Nat) : (audit s k b i o v p).power = s.power :=
  audit_projH (·.power) (fun _ _ => rfl) (fun _ _ => rfl) (fun _ _ => rfl) (fun _ _ => rfl)
    (fun _ _ _ _ _ _ => rfl) (fun _ _ => rfl) _ _ _ _ _ _ _

/-- A field of a page other than CAIRN reads the same after an audit record, but for the count of audit records. -/
theorem fget_audit (s : State) (k : Session) (b i o v p : Nat) (f : Fld) (x y : Nat) (h : f.desc.blk ≠ .cairn)
    (hf : f ≠ .roleAuditsRecords) : fget (audit s k b i o v p) f x y = fget s f x y :=
  audit_projH (fun s => fget s f x y) (fun _ _ => rfl) (fun _ _ => rfl) (fun _ _ => rfl) (fun _ _ => rfl)
    (fun s g v i j hg => fget_fset_fld _ _ _ _ _ _ (fun e => h (e ▸ hg)))
    (fun s v => fget_fset_fld _ _ _ _ _ _ hf) _ _ _ _ _ _ _

theorem roleOf_audit (s : State) (k : Session) (b i o v p l : Nat) : roleOf (audit s k b i o v p) l = roleOf s l := by
  unfold roleOf; rw [audit_sessions]

/-! ### A page register write that goes through -/

@[simp] theorem dieOut_sessionMsg (s : State) (k d : Nat) : dieOut (sessionMsg s k) d = dieOut s d := by
  unfold dieOut; rw [fget_sessionMsg]

theorem pageSeen_sessionMsg (s : State) (k : Nat) (v : View) (b : Blk) (i : Nat) :
    pageSeen (sessionMsg s k) v b i = pageSeen s v b i := by
  unfold pageSeen hostSees carried
  simp only [fget_sessionMsg]

theorem pageLost_sessionMsg (s : State) (k : Nat) (b : Blk) (i : Nat) :
    pageLost (sessionMsg s k) b i = pageLost s b i := by
  unfold pageLost clusterOut
  simp only [dieOut_sessionMsg, fget_sessionMsg, sessionMsg_clustersOut, sessionMsg_portDiesOut]

theorem pageReady_sessionMsg (s : State) (k : Nat) (b : Blk) (i : Nat) :
    pageReady (sessionMsg s k) b i = pageReady s b i := by
  unfold pageReady
  simp only [hget_sessionMsg, sessionMsg_boot]

theorem viewRole_sessionMsg (s : State) (k : Nat) (v : View) : viewRole (sessionMsg s k) v = viewRole s v := by
  unfold viewRole
  split
  · rfl
  · exact roleOf_sessionMsg _ _ _

theorem mayField_sessionMsg (s : State) (k : Nat) (v : View) (f : Fld) :
    mayField (sessionMsg s k) v f = mayField s v f := by
  unfold mayField
  split
  · rfl
  · rw [roleOf_sessionMsg]

theorem changedFlds_sessionMsg (s : State) (k : Nat) (v : View) (b : Blk) (i off w : Nat) :
    changedFlds (sessionMsg s k) v b i off w = changedFlds s v b i off w := by
  unfold changedFlds hasFld heldFld
  simp only [viewRole_sessionMsg, fget_sessionMsg]

theorem writeDenied_sessionMsg (s : State) (k : Nat) (v : View) (b : Blk) (i off w : Nat) :
    writeDenied (sessionMsg s k) v b i off w = writeDenied s v b i off w := by
  unfold writeDenied headerDenied mayPage
  simp only [viewRole_sessionMsg, mayField_sessionMsg, changedFlds_sessionMsg, hget_sessionMsg, roleOf_sessionMsg]

theorem lockCuts_sessionMsg (s : State) (k : Nat) (v : View) (b : Blk) (i off w : Nat) :
    lockCuts (sessionMsg s k) v b i off w = lockCuts s v b i off w := by
  unfold lockCuts
  simp only [changedFlds_sessionMsg, hget_sessionMsg]

theorem Writes.sessionMsg {s : State} {v : View} {b : Blk} {i off w : Nat} (h : Writes s v b i off w) (k : Nat) :
    Writes (sessionMsg s k) v b i off w := by
  obtain ⟨h1, h2, h3, h4, h5⟩ := h
  exact ⟨by rw [pageSeen_sessionMsg, h1], by rw [pageLost_sessionMsg, h2], by rw [writeDenied_sessionMsg, h3],
    by rw [pageReady_sessionMsg, h4], by rw [lockCuts_sessionMsg, h5]⟩

theorem Writes.ioTouch {s : State} {v : View} {b : Blk} {i off w : Nat} (h : Writes s v b i off w) (k : Nat) :
    Writes (ioTouch s k) v b i off w := h

/-- A write that goes through is audited and takes effect. -/
theorem writeReg_open {s : State} {v : View} {b : Blk} {i off w : Nat} (h : Writes s v b i off w) :
    writeReg s v b i off w = (let u := auditWrite (if off = 0x018 then evtClear s b i w else s) v b i off w (readReg s v b i off)
      if off < 0x040 then headerWrite u v b i off w
      else applyPage u v b i off fun f k => newFld u v b i off w f k, .success) := by
  obtain ⟨h1, h2, h3, h4, h5⟩ := h
  unfold writeReg
  rw [if_neg (by simp [h1, h2]), if_neg (by simp [h3]), if_neg (by simp [h4])]
  simp only [h5, Bool.false_eq_true, if_false]
  split <;> rfl

theorem fmWrite_open {s : State} {ses : Session} {b : Blk} {i off w : Nat} (up : sesUp s ses = true)
    (h : Writes s (.fm ses) b i off w) :
    fmWrite s ses b i off w = (let v := sessionMsg s ses
      let u := auditWrite (if off = 0x018 then evtClear v b i w else v) (.fm ses) b i off w (readReg v (.fm ses) b i off)
      if off < 0x040 then headerWrite u (.fm ses) b i off w
      else applyPage u (.fm ses) b i off fun f k => newFld u (.fm ses) b i off w f k) := by
  unfold fmWrite
  rw [if_pos up, writeReg_open (h.sessionMsg ses)]

/-- A memory write of a host that reaches its partition runs on the touched state. -/
theorem ioWrite_open {s : State} {h : Head} {p : Part} (o : ioOpen s h p = true) (f : State → State) :
    ioWrite s h p f = f (ioTouch s h) := by
  unfold ioWrite; rw [if_pos o]

end Sys2Proof.Machine
end

