-- ==== Sys2Proof/Laws/MovesFmCmds.lean ====
section
/-! SUPPORT. What the functions of Machine/FmCmds.lean keep, and the kinds of state they may change (`Moves`). -/

set_option linter.all false

namespace Sys2Proof.Machine

open Sys2Proof

theorem fmPart_moves {F : ℕ} {s t : State} {a1 : Session} {a2 : ℕ} {a3 : ℕ} {a4 : List Byte} {a5 : ℕ} {a6 : ℕ} {a7
    : State → Part → State} (hF : Sub 299068236498061 F) (k7 : ∀ u0 u1, Moves F s u0 → Moves F s (a7 u0 u1)) (h :
    Moves F s t) : Moves F s (fmPart t a1 a2 a3 a4 a5 a6 a7) := by
  unfold fmPart
  repeat'
    (first | (with_reducible assumption) | (with_reducible apply k7) | ((with_reducible refine hF.up ?_); rfl)
            | ((with_reducible refine Or.inr (hF.up ?_)); rfl) | (with_reducible exact Or.inl rfl) | (intro)
            | (split) | (with_reducible apply fmAnswer_moves) | (with_reducible apply fmCmd_moves)
            | (with_reducible apply Moves.upd))

theorem fmDo_moves {F : ℕ} {s t : State} {a1 : Session} {a2 : RetCode} {a3 : State → State} (hF : Sub 1 F) (k3
    : ∀ u0, Moves F s u0 → Moves F s (a3 u0)) (h : Moves F s t) : Moves F s (fmDo t a1 a2 a3) := by
  unfold fmDo
  repeat'
    (first | (with_reducible assumption) | (with_reducible apply k3) | ((with_reducible refine hF.up ?_); rfl)
            | (intro) | (with_reducible apply Moves.ite) | (with_reducible apply fmAnswer_moves))

theorem bindPart_moves {F : ℕ} {s t : State} {a1 : Session} {a2 : Part} {a3 : BitVec 16} (hF : Sub 4097 F) (h :
    Moves F s t) : Moves F s (bindPart t a1 a2 a3) := by
  unfold bindPart
  repeat'
    (first | (with_reducible assumption) | ((with_reducible refine hF.up ?_); rfl)
            | ((with_reducible refine Or.inr (hF.up ?_)); rfl) | (with_reducible exact Or.inl rfl) | (intro)
            | (with_reducible apply Moves.ite) | (with_reducible apply partUpd_moves)
            | (with_reducible apply fmAnswer_moves) | (with_reducible apply Moves.upd))

theorem bindEffect_moves {F : ℕ} {s t : State} {a1 : Part} (hF : Sub 329837377993759 F) (h : Moves F s t) :
    Moves F s (bindEffect t a1) := by
  unfold bindEffect
  repeat'
    (first | (with_reducible assumption) | ((with_reducible refine hF.up ?_); rfl)
            | ((with_reducible refine Or.inr (hF.up ?_)); rfl) | (with_reducible exact Or.inl rfl) | (intro u hu)
            | (with_reducible apply applyJ_bind_moves) | (intro) | (with_reducible apply Moves.ite) | (split)
            | (with_reducible apply partUpd_moves) | (with_reducible apply commitJ_moves)
            | (with_reducible apply Moves.upd))

theorem addExts_moves {F : ℕ} {s t : State} {a1 : Session} {a2 : Part} {a3 : List GranRange} {a4 : ℕ} {a5 : ℕ} (hF
    : Sub 34896688141 F) (h : Moves F s t) : Moves F s (addExts t a1 a2 a3 a4 a5) := by
  unfold addExts
  repeat'
    (first | (with_reducible assumption) | ((with_reducible refine hF.up ?_); rfl) | (intro u hu)
            | (with_reducible apply applyJ_extAdd_moves) | (intro)
            | (extract_lets +onlyGivenNames x; have hx : Moves F s x := ?_; (on_goal 1 => clear_value x); (on_goal 2 => subst x))
            | (extract_lets +onlyGivenNames x; clear_value x) | (with_reducible apply Moves.ite)
            | (with_reducible apply limitHit_moves) | (with_reducible apply commitJ_moves)
            | (with_reducible apply fmDo_moves))

theorem joinExt_moves {F : ℕ} {s t : State} {a1 : Session} {a2 : Part} {a3 : ℕ} {a4 : List GranRange} (hF
    : Sub 34896688141 F) (h : Moves F s t) : Moves F s (joinExt t a1 a2 a3 a4) := by
  unfold joinExt
  repeat'
    (first | (with_reducible assumption) | ((with_reducible refine hF.up ?_); rfl)
            | ((with_reducible refine Or.inr (hF.up ?_)); rfl) | (with_reducible exact Or.inl rfl) | (intro u hu)
            | (with_reducible apply applyJ_extAdd_moves) | (intro)
            | (extract_lets +onlyGivenNames x; have hx : Moves F s x := ?_; (on_goal 1 => clear_value x); (on_goal 2 => subst x))
            | (extract_lets +onlyGivenNames x; clear_value x) | (with_reducible apply Moves.ite) | (split)
            | (with_reducible apply limitHit_moves) | (with_reducible apply commitJ_moves)
            | (with_reducible apply fmDo_moves) | (with_reducible apply Moves.upd))

theorem releaseExts_moves {F : ℕ} {s t : State} {a1 : Session} {a2 : Part} {a3 : List GranRange} {a4 : Bool} (hF
    : Sub 281578601296909 F) (h : Moves F s t) : Moves F s (releaseExts t a1 a2 a3 a4) := by
  unfold releaseExts
  repeat'
    (first | (with_reducible assumption) | ((with_reducible refine hF.up ?_); rfl) | (intro u hu)
            | (with_reducible apply applyJ_extForce_moves) | (with_reducible apply applyJ_extRequest_moves)
            | (intro)
            | (extract_lets +onlyGivenNames x; have hx : Moves F s x := ?_; (on_goal 1 => clear_value x); (on_goal 2 => subst x))
            | (extract_lets +onlyGivenNames x; clear_value x) | (with_reducible apply Moves.ite) | (split)
            | (with_reducible apply limitHit_moves) | (with_reducible apply commitJ_moves)
            | (with_reducible apply fmDo_moves))

theorem setAttrs_moves {F : ℕ} {s t : State} {a1 : Session} {a2 : List Byte} (hF : Sub 536879105 F) (h :
    Moves F s t) : Moves F s (setAttrs t a1 a2) := by
  unfold setAttrs
  repeat'
    (first | (with_reducible assumption) | ((with_reducible refine hF.up ?_); rfl)
            | ((with_reducible refine Or.inr (hF.up ?_)); rfl) | (with_reducible exact Or.inl rfl) | (intro)
            | (extract_lets +onlyGivenNames x; have hx : Moves F s x := ?_; (on_goal 1 => clear_value x); (on_goal 2 => subst x))
            | (extract_lets +onlyGivenNames x; clear_value x) | (with_reducible apply Moves.ite)
            | (with_reducible apply journalSend_moves) | (with_reducible apply fmAnswer_moves)
            | (with_reducible apply Moves.upd))

theorem renewFm_moves {F : ℕ} {s t : State} {a1 : Session} {a2 : Part} (hF : Sub 17716745229 F) (h : Moves F s t) :
    Moves F s (renewFm t a1 a2) := by
  unfold renewFm
  repeat'
    (first | (with_reducible assumption) | ((with_reducible refine hF.up ?_); rfl) | (intro)
            | (extract_lets +onlyGivenNames x; have hx : Moves F s x := ?_; (on_goal 1 => clear_value x); (on_goal 2 => subst x))
            | (extract_lets +onlyGivenNames x; clear_value x) | (with_reducible apply Moves.ite)
            | (with_reducible apply fmAnswer_moves) | (with_reducible apply renewPage_moves))

theorem reclaimFm_moves {F : ℕ} {s t : State} {a1 : Session} {a2 : Part} (hF : Sub 281595781161997 F) (h :
    Moves F s t) :
    Moves F s (reclaimFm t a1 a2) := by
  unfold reclaimFm
  extract_lets x
  clear_value x
  exact .ite (fun _ => fmAnswer_moves (hF.up rfl) (commitJ_moves (hF.up rfl)
    (fun u hu => applyJ_reclaim_moves (hF.up rfl) hu) h)) (fun _ => fmAnswer_moves (hF.up rfl) h)

theorem reviveFm_moves {F : ℕ} {s t : State} {a1 : Session} {a2 : Part} (hF : Sub 52076491789 F) (h : Moves F s t) :
    Moves F s (reviveFm t a1 a2) := by
  unfold reviveFm
  repeat'
    (first | (with_reducible assumption) | ((with_reducible refine hF.up ?_); rfl) | (intro u hu)
            | (with_reducible apply applyJ_revive_moves) | (intro) | (with_reducible apply Moves.ite)
            | (with_reducible apply fmAnswer_moves) | (with_reducible apply commitJ_moves))

theorem fmList_moves {F : ℕ} {s t : State} {a1 : Session} {a2 : ℕ} {a3 : List ℕ} (hF : Sub 1 F) (h : Moves F s t) :
    Moves F s (fmList t a1 a2 a3) := by
  unfold fmList
  repeat'
    (first | (with_reducible assumption) | ((with_reducible refine hF.up ?_); rfl) | (intro)
            | (with_reducible apply Moves.ite) | (with_reducible apply fmAnswer_moves))

theorem setAllocated_moves {F : ℕ} {s t : State} {a1 : Session} {a2 : ℕ} {a3 : List ℕ} (hF : Sub 1100048499725 F) (h
    : Moves F s t) : Moves F s (setAllocated t a1 a2 a3) := by
  unfold setAllocated
  repeat'
    (first | (with_reducible assumption) | ((with_reducible refine hF.up ?_); rfl) | (intro)
            | (extract_lets +onlyGivenNames x; have hx : Moves F s x := ?_; (on_goal 1 => clear_value x); (on_goal 2 => subst x))
            | (extract_lets +onlyGivenNames x; clear_value x) | (with_reducible apply Moves.ite) | (split)
            | (with_reducible apply fmAnswer_moves) | (with_reducible apply guarSet_moves)
            | (with_reducible apply Moves.foldl))

theorem injectAt_moves {F : ℕ} {s t : State} {a1 : ℕ} (hF : Sub 47692383716383 F) (h : Moves F s t) : Moves F s
    (injectAt t a1) := by
  unfold injectAt
  repeat'
    (first | (with_reducible assumption) | ((with_reducible refine hF.up ?_); rfl)
            | (extract_lets +onlyGivenNames x; have hx : Moves F s x := ?_; (on_goal 1 => clear_value x); (on_goal 2 => subst x))
            | (extract_lets +onlyGivenNames x; clear_value x) | (with_reducible apply putPoison_moves)
            | (with_reducible apply noteWrite_moves) | (with_reducible apply expandBlock_moves)
            | (with_reducible apply residentNow_moves))

theorem mailbox_moves {F : ℕ} {s t : State} {a1 : Head} {a2 : Part} {a3 : State → State} (hF : Sub 1677 F) (k3
    : ∀ u0, Moves F s u0 → Moves F s (a3 u0)) (h : Moves F s t) : Moves F s (mailbox t a1 a2 a3) := by
  unfold mailbox
  repeat'
    (first | (with_reducible assumption) | (with_reducible apply k3) | ((with_reducible refine hF.up ?_); rfl)
            | (with_reducible apply ioWrite_moves))

theorem mbAnswer_moves {F : ℕ} {s t : State} {a1 : Part} {a2 : Head} {a3 : RetCode} {a4 : List ℕ} (hF : Sub 1 F) (h
    : Moves F s t) : Moves F s (mbAnswer t a1 a2 a3 a4) := by
  unfold mbAnswer
  repeat'
    (first | (with_reducible assumption) | ((with_reducible refine hF.up ?_); rfl)
            | (with_reducible apply emit_moves))

theorem acceptMb_moves {F : ℕ} {s t : State} {a1 : Head} {a2 : Part} {a3 : List GranRange} (hF
    : Sub 281509873398797 F) (h : Moves F s t) : Moves F s (acceptMb t a1 a2 a3) := by
  unfold acceptMb
  repeat'
    (first | (with_reducible assumption) | ((with_reducible refine hF.up ?_); rfl)
            | ((with_reducible refine Or.inr (hF.up ?_)); rfl) | (with_reducible exact Or.inl rfl) | (intro u hu)
            | (with_reducible apply applyJ_extAccept_moves) | (intro) | (with_reducible apply Moves.ite) | (split)
            | (with_reducible apply commitJ_moves) | (with_reducible apply mbAnswer_moves)
            | (with_reducible apply Moves.upd))

theorem releaseMb_moves {F : ℕ} {s t : State} {a1 : Head} {a2 : Part} {a3 : List GranRange} (hF
    : Sub 281578601292813 F) (h : Moves F s t) : Moves F s (releaseMb t a1 a2 a3) := by
  unfold releaseMb
  repeat'
    (first | (with_reducible assumption) | ((with_reducible refine hF.up ?_); rfl) | (intro u hu)
            | (with_reducible apply applyJ_extRelease_moves) | (intro)
            | (extract_lets +onlyGivenNames x; have hx : Moves F s x := ?_; (on_goal 1 => clear_value x); (on_goal 2 => subst x))
            | (extract_lets +onlyGivenNames x; clear_value x) | (with_reducible apply Moves.ite) | (split)
            | (with_reducible apply limitHit_moves) | (with_reducible apply commitJ_moves)
            | (with_reducible apply mbAnswer_moves))

theorem clearMb_moves {F : ℕ} {s t : State} {a1 : Head} {a2 : Part} {a3 : ℕ} {a4 : Line} (hF : Sub 47761103225887 F)
    (h : Moves F s t) : Moves F s (clearMb t a1 a2 a3 a4) := by
  unfold clearMb
  repeat'
    (first | (with_reducible assumption) | ((with_reducible refine hF.up ?_); rfl)
            | ((with_reducible refine Or.inr (hF.up ?_)); rfl) | (with_reducible exact Or.inl rfl) | (intro)
            | (extract_lets +onlyGivenNames x; have hx : Moves F s x := ?_; (on_goal 1 => clear_value x); (on_goal 2 => subst x))
            | (extract_lets +onlyGivenNames x; clear_value x) | (with_reducible apply Moves.ite) | (split)
            | (with_reducible apply readerWrite_moves) | (with_reducible apply fencedDrop_moves)
            | (with_reducible apply windowWrite_moves) | (with_reducible apply sendWrite_moves)
            | (with_reducible apply mbAnswer_moves) | (with_reducible apply Moves.upd))

theorem execIdentify_moves {F : ℕ} {s t : State} {a0 : Session} (hF : Sub 299068236498061 F) (h : Moves F s t) :
    ∃ u, (execIdentify a0 t) = .next u ∧ Moves F s u := by
  unfold execIdentify
  refine ⟨_, rfl, ?_⟩
  repeat'
    (first | (with_reducible assumption) | ((with_reducible refine hF.up ?_); rfl) | (intro)
            | (with_reducible apply fmAnswer_moves) | (with_reducible apply fmOp_moves))

theorem execGetLdInfo_moves {F : ℕ} {s t : State} {a0 : Session} (hF : Sub 299068236498061 F) (h : Moves F s t) :
    ∃ u, (execGetLdInfo a0 t) = .next u ∧ Moves F s u := by
  unfold execGetLdInfo
  refine ⟨_, rfl, ?_⟩
  repeat'
    (first | (with_reducible assumption) | ((with_reducible refine hF.up ?_); rfl) | (intro)
            | (with_reducible apply fmAnswer_moves) | (with_reducible apply fmOp_moves))

theorem execGetLdAllocations_moves {F : ℕ} {s t : State} {a0 : Session} {a1 : ℕ} {a2 : ℕ} (hF
    : Sub 299068236498061 F) (h : Moves F s t) : ∃ u, (execGetLdAllocations a0 a1 a2 t) = .next u ∧ Moves F s u
    := by
  unfold execGetLdAllocations
  refine ⟨_, rfl, ?_⟩
  repeat'
    (first | (with_reducible assumption) | ((with_reducible refine hF.up ?_); rfl) | (intro)
            | (with_reducible apply fmOp_moves) | (with_reducible apply fmList_moves))

theorem execSetLdAllocations_moves {F : ℕ} {s t : State} {a0 : Session} (hF : Sub 299068236498061 F) (h :
    Moves F s t) : ∃ u, (execSetLdAllocations a0 t) = .next u ∧ Moves F s u := by
  unfold execSetLdAllocations
  refine ⟨_, rfl, ?_⟩
  repeat'
    (first | (with_reducible assumption) | ((with_reducible refine hF.up ?_); rfl) | (intro)
            | (with_reducible apply fmAnswer_moves) | (with_reducible apply fmCmd_moves))

theorem execGetMultiHeadedInfo_moves {F : ℕ} {s t : State} {a0 : Session} (hF : Sub 299068236498061 F) (h :
    Moves F s t) : ∃ u, (execGetMultiHeadedInfo a0 t) = .next u ∧ Moves F s u := by
  unfold execGetMultiHeadedInfo
  refine ⟨_, rfl, ?_⟩
  repeat'
    (first | (with_reducible assumption) | ((with_reducible refine hF.up ?_); rfl) | (intro)
            | (with_reducible apply fmAnswer_moves) | (with_reducible apply fmOp_moves))

theorem execGetHeadInfo_moves {F : ℕ} {s t : State} {a0 : Session} {a1 : ℕ} {a2 : ℕ} (hF : Sub 299068236498061 F) (h
    : Moves F s t) : ∃ u, (execGetHeadInfo a0 a1 a2 t) = .next u ∧ Moves F s u := by
  unfold execGetHeadInfo
  refine ⟨_, rfl, ?_⟩
  repeat'
    (first | (with_reducible assumption) | ((with_reducible refine hF.up ?_); rfl) | (intro)
            | (with_reducible apply fmOp_moves) | (with_reducible apply fmList_moves))

theorem execGetDcdInfo_moves {F : ℕ} {s t : State} {a0 : Session} (hF : Sub 299068236498061 F) (h : Moves F s t) :
    ∃ u, (execGetDcdInfo a0 t) = .next u ∧ Moves F s u := by
  unfold execGetDcdInfo
  refine ⟨_, rfl, ?_⟩
  repeat'
    (first | (with_reducible assumption) | ((with_reducible refine hF.up ?_); rfl) | (intro)
            | (with_reducible apply fmAnswer_moves) | (with_reducible apply fmOp_moves))

theorem execGetHostDcRegionConfiguration_moves {F : ℕ} {s t : State} {a0 : Session} {a1 : Part} (hF
    : Sub 299068236498061 F) (h : Moves F s t) : ∃ u, (execGetHostDcRegionConfiguration a0 a1 t) = .next u ∧
    Moves F s u := by
  unfold execGetHostDcRegionConfiguration
  refine ⟨_, rfl, ?_⟩
  repeat'
    (first | (with_reducible assumption) | ((with_reducible refine hF.up ?_); rfl) | (intro)
            | (with_reducible apply fmAnswer_moves) | (with_reducible apply fmOp_moves))

theorem execGetDcRegionExtentLists_moves {F : ℕ} {s t : State} {a0 : Session} {a1 : Part} {a2 : ℕ} {a3 : ℕ} (hF
    : Sub 299068236498061 F) (h : Moves F s t) : ∃ u, (execGetDcRegionExtentLists a0 a1 a2 a3 t) = .next u ∧
    Moves F s u := by
  unfold execGetDcRegionExtentLists
  refine ⟨_, rfl, ?_⟩
  repeat'
    (first | (with_reducible assumption) | ((with_reducible refine hF.up ?_); rfl) | (intro)
            | (with_reducible apply fmAnswer_moves) | (with_reducible apply fmOp_moves))

theorem execSetDcRegionConfiguration_moves {F : ℕ} {s t : State} {a0 : Session} {a1 : Part} {a2 : ℕ} {a3 : ℕ} {a4
    : ℕ} {a5 : ℕ} (hF : Sub 299068236498061 F) (h : Moves F s t) : ∃ u,
    (execSetDcRegionConfiguration a0 a1 a2 a3 a4 a5 t) = .next u ∧ Moves F s u := by
  unfold execSetDcRegionConfiguration
  refine ⟨_, rfl, ?_⟩
  repeat'
    (first | (with_reducible assumption) | ((with_reducible refine hF.up ?_); rfl) | (intro)
            | (with_reducible apply Moves.ite) | (split) | (with_reducible apply fmAnswer_moves)
            | (with_reducible apply fmOp_moves))

theorem execGetPartitionState_moves {F : ℕ} {s t : State} {a0 : Session} {a1 : List Byte} (hF
    : Sub 299068236498061 F) (h : Moves F s t) : ∃ u, (execGetPartitionState a0 a1 t) = .next u ∧ Moves F s u := by
  unfold execGetPartitionState
  refine ⟨_, rfl, ?_⟩
  repeat'
    (first | (with_reducible assumption) | ((with_reducible refine hF.up ?_); rfl) | (intro)
            | (with_reducible apply fmAnswer_moves) | (with_reducible apply fmPart_moves))

theorem execInitiateDynamicCapacityAdd_moves {F : ℕ} {s t : State} {a0 : Session} {a1 : Part} {a2 : Bool} {a3 : ℕ}
    {a4 : List GranRange} (hF : Sub 299103133185165 F) (h : Moves F s t) : ∃ u,
    (execInitiateDynamicCapacityAdd a0 a1 a2 a3 a4 t) = .next u ∧ Moves F s u := by
  unfold execInitiateDynamicCapacityAdd
  refine ⟨_, rfl, ?_⟩
  repeat'
    (first | (with_reducible assumption) | ((with_reducible refine hF.up ?_); rfl) | (intro)
            | (with_reducible apply Moves.ite) | (with_reducible apply fmOp_moves)
            | (with_reducible apply addExts_moves) | (with_reducible apply joinExt_moves))

theorem execInitiateDynamicCapacityRelease_moves {F : ℕ} {s t : State} {a0 : Session} {a1 : Part} {a2 : Bool} {a3
    : List GranRange} (hF : Sub 299171861083279 F) (h : Moves F s t) : ∃ u,
    (execInitiateDynamicCapacityRelease a0 a1 a2 a3 t) = .next u ∧ Moves F s u := by
  unfold execInitiateDynamicCapacityRelease
  refine ⟨_, rfl, ?_⟩
  repeat'
    (first | (with_reducible assumption) | ((with_reducible refine hF.up ?_); rfl) | (intro)
            | (with_reducible apply Moves.ite) | (split)
            | (refine draw_movesE (by with_reducible assumption) (hF.up rfl) ?_) | (with_reducible apply draw_moves)
            | (with_reducible apply fmCmd_moves) | (with_reducible apply fmOp_moves)
            | (with_reducible apply releaseExts_moves))

theorem execInitiateExtentAdd_moves {F : ℕ} {s t : State} {a0 : Session} {a1 : List Byte} (hF
    : Sub 299103133185165 F) (h : Moves F s t) : ∃ u, (execInitiateExtentAdd a0 a1 t) = .next u ∧ Moves F s u := by
  unfold execInitiateExtentAdd
  refine ⟨_, rfl, ?_⟩
  repeat'
    (first | (with_reducible assumption) | ((with_reducible refine hF.up ?_); rfl) | (intro)
            | (with_reducible apply fmPart_moves) | (with_reducible apply addExts_moves))

theorem execSetExtentAttributes_moves {F : ℕ} {s t : State} {a0 : Session} {a1 : List Byte} (hF
    : Sub 299068773377165 F) (h : Moves F s t) : ∃ u, (execSetExtentAttributes a0 a1 t) = .next u ∧ Moves F s u
    := by
  unfold execSetExtentAttributes
  refine ⟨_, rfl, ?_⟩
  repeat'
    (first | (with_reducible assumption) | ((with_reducible refine hF.up ?_); rfl) | (intro)
            | (with_reducible apply fmOp_moves) | (with_reducible apply setAttrs_moves))

theorem execForceExtentRelease_moves {F : ℕ} {s t : State} {a0 : Session} {a1 : List Byte} (hF
    : Sub 299171861083277 F) (h : Moves F s t) : ∃ u, (execForceExtentRelease a0 a1 t) = .next u ∧ Moves F s u := by
  unfold execForceExtentRelease
  refine ⟨_, rfl, ?_⟩
  repeat'
    (first | (with_reducible assumption) | ((with_reducible refine hF.up ?_); rfl) | (intro)
            | (with_reducible apply fmPart_moves) | (with_reducible apply releaseExts_moves))

theorem execAddDynamicCapacityResponse_moves {F : ℕ} {s t : State} {a0 : Head} {a1 : Part} {a2 : List GranRange} (hF
    : Sub 281509873399437 F) (h : Moves F s t) : ∃ u, (execAddDynamicCapacityResponse a0 a1 a2 t) = .next u ∧
    Moves F s u := by
  unfold execAddDynamicCapacityResponse
  refine ⟨_, rfl, ?_⟩
  repeat'
    (first | (with_reducible assumption) | ((with_reducible refine hF.up ?_); rfl) | (intro)
            | (with_reducible apply mailbox_moves) | (with_reducible apply acceptMb_moves))

theorem execReleaseDynamicCapacity_moves {F : ℕ} {s t : State} {a0 : Head} {a1 : Part} {a2 : List GranRange} (hF
    : Sub 281578601293453 F) (h : Moves F s t) : ∃ u, (execReleaseDynamicCapacity a0 a1 a2 t) = .next u ∧
    Moves F s u := by
  unfold execReleaseDynamicCapacity
  refine ⟨_, rfl, ?_⟩
  repeat'
    (first | (with_reducible assumption) | ((with_reducible refine hF.up ?_); rfl) | (intro)
            | (with_reducible apply mailbox_moves) | (with_reducible apply releaseMb_moves))

theorem execDcReportMailbox_moves {F : ℕ} {s t : State} {a0 : Head} {a1 : Part} (hF : Sub 1677 F) (h : Moves F s t)
    : ∃ u, (execDcReportMailbox a0 a1 t) = .next u ∧ Moves F s u := by
  unfold execDcReportMailbox
  refine ⟨_, rfl, ?_⟩
  repeat'
    (first | (with_reducible assumption) | ((with_reducible refine hF.up ?_); rfl) | (intro)
            | (with_reducible apply Moves.ite) | (with_reducible apply mailbox_moves)
            | (with_reducible apply mbAnswer_moves))

theorem execSanitiseComplete_moves {F : ℕ} {s t : State} {a0 : ℕ} (hF : Sub 47726743462943 F) (h : Moves F s t) :
    ∃ u, (execSanitiseComplete a0 t) = .next u ∧ Moves F s u := by
  unfold execSanitiseComplete
  refine ⟨_, rfl, ?_⟩
  repeat'
    (first | (with_reducible assumption) | ((with_reducible refine hF.up ?_); rfl) | (intro)
            | (with_reducible apply Moves.ite) | (split) | (with_reducible apply sanitised_moves))

theorem execBindPartition_moves {F : ℕ} {s t : State} {a0 : Session} {a1 : List Byte} (hF : Sub 299068236502157 F)
    (h : Moves F s t) : ∃ u, (execBindPartition a0 a1 t) = .next u ∧ Moves F s u := by
  unfold execBindPartition
  refine ⟨_, rfl, ?_⟩
  repeat'
    (first | (with_reducible assumption) | ((with_reducible refine hF.up ?_); rfl) | (intro)
            | (with_reducible apply fmPart_moves) | (with_reducible apply bindPart_moves))

theorem execBindTakesEffect_moves {F : ℕ} {s t : State} {a0 : Part} (hF : Sub 329837377993759 F) (h : Moves F s t) :
    ∃ u, (execBindTakesEffect a0 t) = .next u ∧ Moves F s u := by
  unfold execBindTakesEffect
  refine ⟨_, rfl, ?_⟩
  repeat'
    (first | (with_reducible assumption) | ((with_reducible refine hF.up ?_); rfl) | (intro)
            | (with_reducible apply bindEffect_moves))

theorem execRenewLease_moves {F : ℕ} {s t : State} {a0 : Session} {a1 : List Byte} (hF : Sub 299085953242253 F) (h :
    Moves F s t) : ∃ u, (execRenewLease a0 a1 t) = .next u ∧ Moves F s u := by
  unfold execRenewLease
  refine ⟨_, rfl, ?_⟩
  repeat'
    (first | (with_reducible assumption) | ((with_reducible refine hF.up ?_); rfl) | (intro)
            | (with_reducible apply fmPart_moves) | (with_reducible apply renewFm_moves))

theorem execReclaimPartition_moves {F : ℕ} {s t : State} {a0 : Session} {a1 : List Byte} (hF
    : Sub 299189040948365 F) (h : Moves F s t) : ∃ u, (execReclaimPartition a0 a1 t) = .next u ∧ Moves F s u := by
  unfold execReclaimPartition
  refine ⟨_, rfl, ?_⟩
  repeat'
    (first | (with_reducible assumption) | ((with_reducible refine hF.up ?_); rfl) | (intro)
            | (with_reducible apply fmPart_moves) | (with_reducible apply reclaimFm_moves))

theorem execRevivePartition_moves {F : ℕ} {s t : State} {a0 : Session} {a1 : List Byte} (hF : Sub 299120312988813 F)
    (h : Moves F s t) : ∃ u, (execRevivePartition a0 a1 t) = .next u ∧ Moves F s u := by
  unfold execRevivePartition
  refine ⟨_, rfl, ?_⟩
  repeat'
    (first | (with_reducible assumption) | ((with_reducible refine hF.up ?_); rfl) | (intro)
            | (with_reducible apply fmPart_moves) | (with_reducible apply reviveFm_moves))

theorem execFmCommandUnsupported_moves {F : ℕ} {s t : State} {a0 : Session} {a1 : ℕ} (hF : Sub 299068236498061 F) (h
    : Moves F s t) : ∃ u, (execFmCommandUnsupported a0 a1 t) = .next u ∧ Moves F s u := by
  unfold execFmCommandUnsupported
  refine ⟨_, rfl, ?_⟩
  repeat'
    (first | (with_reducible assumption) | ((with_reducible refine hF.up ?_); rfl) | (intro)
            | (with_reducible apply fmAnswer_moves) | (with_reducible apply fmCmd_moves))

theorem execSetQosAllocatedBw_moves {F : ℕ} {s t : State} {a0 : Session} {a1 : ℕ} {a2 : List ℕ} (hF
    : Sub 300168284996749 F) (h : Moves F s t) : ∃ u, (execSetQosAllocatedBw a0 a1 a2 t) = .next u ∧ Moves F s u
    := by
  unfold execSetQosAllocatedBw
  refine ⟨_, rfl, ?_⟩
  repeat'
    (first | (with_reducible assumption) | ((with_reducible refine hF.up ?_); rfl) | (intro)
            | (with_reducible apply fmOp_moves) | (with_reducible apply setAllocated_moves))

theorem execGetQosAllocatedBw_moves {F : ℕ} {s t : State} {a0 : Session} {a1 : ℕ} {a2 : ℕ} (hF
    : Sub 299068236498061 F) (h : Moves F s t) : ∃ u, (execGetQosAllocatedBw a0 a1 a2 t) = .next u ∧ Moves F s u
    := by
  unfold execGetQosAllocatedBw
  refine ⟨_, rfl, ?_⟩
  repeat'
    (first | (with_reducible assumption) | ((with_reducible refine hF.up ?_); rfl) | (intro)
            | (with_reducible apply fmOp_moves) | (with_reducible apply fmList_moves))

theorem execGetQosBwLimit_moves {F : ℕ} {s t : State} {a0 : Session} {a1 : ℕ} {a2 : ℕ} (hF : Sub 299068236498061 F)
    (h : Moves F s t) : ∃ u, (execGetQosBwLimit a0 a1 a2 t) = .next u ∧ Moves F s u := by
  unfold execGetQosBwLimit
  refine ⟨_, rfl, ?_⟩
  repeat'
    (first | (with_reducible assumption) | ((with_reducible refine hF.up ?_); rfl) | (intro)
            | (with_reducible apply fmOp_moves) | (with_reducible apply fmList_moves))

theorem execSetQosBwLimit_moves {F : ℕ} {s t : State} {a0 : Session} {a1 : ℕ} {a2 : List ℕ} (hF
    : Sub 299068236498061 F) (h : Moves F s t) : ∃ u, (execSetQosBwLimit a0 a1 a2 t) = .next u ∧ Moves F s u := by
  unfold execSetQosBwLimit
  refine ⟨_, rfl, ?_⟩
  repeat'
    (first | (with_reducible assumption) | ((with_reducible refine hF.up ?_); rfl) | (intro)
            | (with_reducible apply Moves.ite) | (split) | (with_reducible apply fmAnswer_moves)
            | (with_reducible apply fmOp_moves))

theorem execGetQosStatus_moves {F : ℕ} {s t : State} {a0 : Session} (hF : Sub 299068236498061 F) (h : Moves F s t) :
    ∃ u, (execGetQosStatus a0 t) = .next u ∧ Moves F s u := by
  unfold execGetQosStatus
  refine ⟨_, rfl, ?_⟩
  repeat'
    (first | (with_reducible assumption) | ((with_reducible refine hF.up ?_); rfl) | (intro)
            | (with_reducible apply fmAnswer_moves) | (with_reducible apply fmOp_moves))

theorem execGetQosControl_moves {F : ℕ} {s t : State} {a0 : Session} (hF : Sub 299068236498061 F) (h : Moves F s t)
    : ∃ u, (execGetQosControl a0 t) = .next u ∧ Moves F s u := by
  unfold execGetQosControl
  refine ⟨_, rfl, ?_⟩
  repeat'
    (first | (with_reducible assumption) | ((with_reducible refine hF.up ?_); rfl) | (intro)
            | (with_reducible apply fmAnswer_moves) | (with_reducible apply fmOp_moves))

theorem execSetQosControl_moves {F : ℕ} {s t : State} {a0 : Session} {a1 : W64} (hF : Sub 299068270052493 F) (h :
    Moves F s t) : ∃ u, (execSetQosControl a0 a1 t) = .next u ∧ Moves F s u := by
  unfold execSetQosControl
  refine ⟨_, rfl, ?_⟩
  repeat'
    (first | (with_reducible assumption) | ((with_reducible refine hF.up ?_); rfl)
            | ((with_reducible refine Or.inr (hF.up ?_)); rfl) | (with_reducible exact Or.inl rfl) | (intro)
            | (extract_lets +onlyGivenNames x; have hx : Moves F s x := ?_; (on_goal 1 => clear_value x); (on_goal 2 => subst x))
            | (extract_lets +onlyGivenNames x; clear_value x) | (with_reducible apply fmAnswer_moves)
            | (with_reducible apply fmOp_moves) | (with_reducible apply Moves.upd))

theorem execGetPoisonList_moves {F : ℕ} {s t : State} {a0 : Head} {a1 : Part} (hF : Sub 1677 F) (h : Moves F s t) :
    ∃ u, (execGetPoisonList a0 a1 t) = .next u ∧ Moves F s u := by
  unfold execGetPoisonList
  refine ⟨_, rfl, ?_⟩
  repeat'
    (first | (with_reducible assumption) | ((with_reducible refine hF.up ?_); rfl) | (intro)
            | (with_reducible apply mailbox_moves) | (with_reducible apply mbAnswer_moves))

theorem execInjectPoison_moves {F : ℕ} {s t : State} {a0 : Session} {a1 : Part} {a2 : ℕ} (hF
    : Sub 346760620213407 F) (h : Moves F s t) : ∃ u, (execInjectPoison a0 a1 a2 t) = .next u ∧ Moves F s u := by
  unfold execInjectPoison
  refine ⟨_, rfl, ?_⟩
  repeat'
    (first | (with_reducible assumption) | ((with_reducible refine hF.up ?_); rfl) | (intro)
            | (with_reducible apply Moves.ite) | (with_reducible apply fmAnswer_moves)
            | (with_reducible apply fmCmd_moves) | (with_reducible apply injectAt_moves))

theorem execClearPoison_moves {F : ℕ} {s t : State} {a0 : Head} {a1 : Part} {a2 : ℕ} {a3 : Line} (hF
    : Sub 47761103226527 F) (h : Moves F s t) : ∃ u, (execClearPoison a0 a1 a2 a3 t) = .next u ∧ Moves F s u := by
  unfold execClearPoison
  refine ⟨_, rfl, ?_⟩
  repeat'
    (first | (with_reducible assumption) | ((with_reducible refine hF.up ?_); rfl) | (intro)
            | (with_reducible apply mailbox_moves) | (with_reducible apply clearMb_moves))

theorem execMailboxUnsupported_moves {F : ℕ} {s t : State} {a0 : Head} {a1 : Part} {a2 : ℕ} (hF : Sub 1677 F) (h :
    Moves F s t) : ∃ u, (execMailboxUnsupported a0 a1 a2 t) = .next u ∧ Moves F s u := by
  unfold execMailboxUnsupported
  refine ⟨_, rfl, ?_⟩
  repeat'
    (first | (with_reducible assumption) | ((with_reducible refine hF.up ?_); rfl) | (intro)
            | (with_reducible apply mailbox_moves) | (with_reducible apply mbAnswer_moves))

end Sys2Proof.Machine
end

