-- ==== Sys2Proof/Laws/MovesStores.lean ====
section
/-! SUPPORT. What the functions of Machine/Stores.lean keep, and the kinds of state they may change (`Moves`). -/

set_option linter.all false

namespace Sys2Proof.Machine

open Sys2Proof

theorem bankAsks_moves {F : ℕ} {s t : State} {a1 : ℕ} {a2 : Master} (hF : Sub 67108866 F) (h : Moves F s t) :
    Moves F s (bankAsks t a1 a2) := by
  unfold bankAsks
  extract_lets b
  clear_value b
  refine .ite (fun _ => h) (fun _ => ?_)
  split
  · extract_lets x
    clear_value x
    have k : Moves F s { t with stores := aset t.stores a1 x } := by
      repeat'
        (first | (with_reducible assumption)
               | ((with_reducible refine hF.up ?_); rfl)
               | ((with_reducible refine Or.inr (hF.up ?_)); rfl)
               | (with_reducible exact Or.inl rfl)
               | (with_reducible apply Moves.upd))
    exact k.drawTo (hF.up rfl) (Nat.le_succ _)
  · exact h.drawTo (hF.up rfl) (Nat.le_succ _)

theorem bankStep_moves {F : ℕ} {s t : State} {a1 : ℕ} {a2 : ℕ} (hF : Sub 4398113619970 F) (h : Moves F s t) :
    Moves F s (bankStep t a1 a2) := by
  unfold bankStep
  repeat'
    (first | (with_reducible assumption) | ((with_reducible refine hF.up ?_); rfl)
            | ((with_reducible refine Or.inr (hF.up ?_)); rfl) | (with_reducible exact Or.inl rfl) | (intro)
            | (extract_lets +onlyGivenNames x; have hx : Moves F s x := ?_; (on_goal 1 => clear_value x); (on_goal 2 => subst x))
            | (extract_lets +onlyGivenNames x; clear_value x) | (with_reducible apply Moves.ite)
            | (with_reducible apply fadd_moves) | (with_reducible apply finc_moves)
            | (with_reducible apply bankAsks_moves) | (with_reducible apply Moves.foldl)
            | (with_reducible apply Moves.upd))

theorem storeCycles_moves {F : ℕ} {s t : State} (hF : Sub 4398113619970 F) (h : Moves F s t) : Moves F s
    (storeCycles t) := by
  unfold storeCycles
  repeat'
    (first | (with_reducible assumption) | ((with_reducible refine hF.up ?_); rfl) | (intro)
            | (extract_lets +onlyGivenNames x; have hx : Moves F s x := ?_; (on_goal 1 => clear_value x); (on_goal 2 => subst x))
            | (extract_lets +onlyGivenNames x; clear_value x) | (with_reducible apply bankStep_moves)
            | (with_reducible apply Moves.foldl))

end Sys2Proof.Machine
end

