-- ==== Sys2Proof/Laws/MovesPitch.lean ====
section
/-! SUPPORT. What the functions of Machine/Pitch.lean keep, and the kinds of state they may change (`Moves`). -/

set_option linter.all false

namespace Sys2Proof.Machine

open Sys2Proof

theorem timebaseLoss_moves {F : ℕ} {s t : State} (hF : Sub 562949953422349 F) (h : Moves F s t) : Moves F s
    (timebaseLoss t) := by
  unfold timebaseLoss
  repeat'
    (first | (with_reducible assumption) | ((with_reducible refine hF.up ?_); rfl) | (intro)
            | (with_reducible apply Moves.ite) | (with_reducible apply fset_moves)
            | (with_reducible apply raise_moves))

theorem checkTimebase_moves {F : ℕ} {s t : State} {a1 : Bool} {a2 : Bool} (hF : Sub 562949953422605 F) (h :
    Moves F s t) : Moves F s (checkTimebase t a1 a2) := by
  unfold checkTimebase
  repeat'
    (first | (with_reducible assumption) | ((with_reducible refine hF.up ?_); rfl)
            | ((with_reducible refine Or.inr (hF.up ?_)); rfl) | (with_reducible exact Or.inl rfl) | (intro)
            | (extract_lets +onlyGivenNames x; have hx : Moves F s x := ?_; (on_goal 1 => clear_value x); (on_goal 2 => subst x))
            | (extract_lets +onlyGivenNames x; clear_value x) | (with_reducible apply Moves.ite)
            | (with_reducible apply timebaseLoss_moves) | (with_reducible apply Moves.upd))

theorem stopTimebase_moves {F : ℕ} {s t : State} (hF : Sub 562949953422605 F) (h : Moves F s t) : Moves F s
    (stopTimebase t) := by
  unfold stopTimebase
  repeat'
    (first | (with_reducible assumption) | ((with_reducible refine hF.up ?_); rfl)
            | ((with_reducible refine Or.inr (hF.up ?_)); rfl) | (with_reducible exact Or.inl rfl)
            | (extract_lets +onlyGivenNames x; have hx : Moves F s x := ?_; (on_goal 1 => clear_value x); (on_goal 2 => subst x))
            | (extract_lets +onlyGivenNames x; clear_value x) | (with_reducible apply timebaseLoss_moves)
            | (with_reducible apply Moves.upd))

theorem restoreTimebase_moves {F : ℕ} {s t : State} (hF : Sub 562949953422605 F) (h : Moves F s t) : Moves F s
    (restoreTimebase t) := by
  unfold restoreTimebase
  repeat'
    (first | (with_reducible assumption) | ((with_reducible refine hF.up ?_); rfl)
            | ((with_reducible refine Or.inr (hF.up ?_)); rfl) | (with_reducible exact Or.inl rfl) | (intro)
            | (extract_lets +onlyGivenNames x; have hx : Moves F s x := ?_; (on_goal 1 => clear_value x); (on_goal 2 => subst x))
            | (extract_lets +onlyGivenNames x; clear_value x) | (with_reducible apply Moves.ite)
            | (with_reducible apply fset_moves) | (with_reducible apply raise_moves)
            | (with_reducible apply Moves.upd))

theorem nextPitch_moves {F : ℕ} {s t : State} (hF : Sub 256 F) (h : Moves F s t) : Moves F s (nextPitch t) := by
  unfold nextPitch
  repeat'
    (first | (with_reducible assumption) | ((with_reducible refine hF.up ?_); rfl)
            | ((with_reducible refine Or.inr (hF.up ?_)); rfl) | (with_reducible exact Or.inl rfl) | (intro)
            | (extract_lets +onlyGivenNames x; have hx : Moves F s x := ?_; (on_goal 1 => clear_value x); (on_goal 2 => subst x))
            | (extract_lets +onlyGivenNames x; clear_value x) | (with_reducible apply Moves.ite)
            | (with_reducible apply Moves.upd))

theorem settingsInForce_moves {F : ℕ} {s t : State} (hF : Sub 670702629814273 F) (h : Moves F s t) :
    Moves F s (settingsInForce t) := by
  unfold settingsInForce
  extract_lets alone v
  have hv : Moves F s v := by
    refine fcatch_moves (fun f hp => ?_) h
    unfold Fld.kind
    split
    · next e => rw [e] at hp; exact absurd hp (by simp [Fld.desc, FldDesc.mkRo])
    · simp only [Bool.or_eq_true, Bool.and_eq_true, decide_eq_true_eq] at hp
      rcases hp with (e | e | e) | ⟨_, e⟩ <;> (rw [e]; exact hF.bit (by decide))
  exact .ite (fun _ => activatePairMode_moves (hF.up rfl) hv) (fun _ => hv)

theorem attrsInForce_moves {F : ℕ} {s t : State} (hF : Sub 34359878669 F) (h : Moves F s t) : Moves F s
    (attrsInForce t) := by
  unfold attrsInForce
  repeat'
    (first | (with_reducible assumption) | ((with_reducible refine hF.up ?_); rfl)
            | ((with_reducible refine Or.inr (hF.up ?_)); rfl) | (with_reducible exact Or.inl rfl) | (intro)
            | (with_reducible apply setAttrNow_moves) | (with_reducible apply Moves.foldl)
            | (with_reducible apply Moves.upd))

theorem countPitch_moves {F : ℕ} {s t : State} (hF : Sub 70368744178560 F) (h : Moves F s t) : Moves F s
    (countPitch t) := by
  unfold countPitch
  repeat'
    (first | (with_reducible assumption) | ((with_reducible refine hF.up ?_); rfl)
            | ((with_reducible refine Or.inr (hF.up ?_)); rfl) | (with_reducible exact Or.inl rfl) | (intro)
            | (extract_lets +onlyGivenNames x; have hx : Moves F s x := ?_; (on_goal 1 => clear_value x); (on_goal 2 => subst x))
            | (extract_lets +onlyGivenNames x; clear_value x) | (with_reducible apply Moves.ite)
            | (with_reducible apply fadd_moves) | (with_reducible apply Moves.upd))

theorem endCleared_moves {F : ℕ} {s t : State} (hF : Sub 1073742925 F) (h : Moves F s t) : Moves F s (endCleared t)
    := by
  unfold endCleared
  repeat'
    (first | (with_reducible assumption) | ((with_reducible refine hF.up ?_); rfl)
            | (with_reducible apply endSessions_moves))

theorem measured_moves {F : ℕ} {s t : State} {a1 : ℤ} {a2 : ℕ} (hF : Sub 562949953422605 F) (h : Moves F s t) :
    Moves F s (measured t a1 a2) := by
  unfold measured
  repeat'
    (first | (with_reducible assumption) | ((with_reducible refine hF.up ?_); rfl)
            | ((with_reducible refine Or.inr (hF.up ?_)); rfl) | (with_reducible exact Or.inl rfl) | (intro)
            | (extract_lets +onlyGivenNames x; have hx : Moves F s x := ?_; (on_goal 1 => clear_value x); (on_goal 2 => subst x))
            | (extract_lets +onlyGivenNames x; clear_value x) | (with_reducible apply Moves.ite) | (split)
            | (with_reducible apply fset_moves) | (with_reducible apply finc_moves)
            | (with_reducible apply raise_moves) | (with_reducible apply Moves.upd))

theorem markersDue_moves {F : ℕ} {s t : State} (hF : Sub 562949953422605 F) (h : Moves F s t) : Moves F s
    (markersDue t) := by
  unfold markersDue
  repeat'
    (first | (with_reducible assumption) | ((with_reducible refine hF.up ?_); rfl)
            | ((with_reducible refine Or.inr (hF.up ?_)); rfl) | (with_reducible exact Or.inl rfl) | (intro)
            | (extract_lets +onlyGivenNames x; have hx : Moves F s x := ?_; (on_goal 1 => clear_value x); (on_goal 2 => subst x))
            | (extract_lets +onlyGivenNames x; clear_value x) | (with_reducible apply Moves.ite) | (split)
            | (with_reducible apply measured_moves) | (with_reducible apply Moves.foldl)
            | (with_reducible apply Moves.upd))

theorem earlyBeat_moves {F : ℕ} {s t : State} (hF : Sub 35184908959744 F) (h : Moves F s t) : Moves F s
    (earlyBeat t) := by
  unfold earlyBeat
  repeat'
    (first | (with_reducible assumption) | ((with_reducible refine hF.up ?_); rfl)
            | ((with_reducible refine Or.inr (hF.up ?_)); rfl) | (with_reducible exact Or.inl rfl) | (intro)
            | (extract_lets +onlyGivenNames x; have hx : Moves F s x := ?_; (on_goal 1 => clear_value x); (on_goal 2 => subst x))
            | (extract_lets +onlyGivenNames x; clear_value x) | (with_reducible apply Moves.ite)
            | (with_reducible apply heardBeat_moves) | (with_reducible apply Moves.upd))

theorem expanderBoundary_moves {F : ℕ} {s t : State} (hF : Sub 274879218701 F) (h : Moves F s t) :
    Moves F s (expanderBoundary t) := by
  unfold expanderBoundary
  extract_lets means v w x full src y
  have hv : Moves F s v := by
    refine fclear_moves (fun f i j hp => ?_) ?_
    · have e : f = .cmpExpLoadMeanCost ∨ f = .cmpExpLoadQueuePeak := of_decide_eq_true hp
      rcases e with e | e <;> (rw [e]; exact hF.bit (by decide))
    · repeat'
        (first | (with_reducible assumption)
               | ((with_reducible refine hF.up ?_); rfl)
               | ((with_reducible refine Or.inr (hF.up ?_)); rfl)
               | (with_reducible exact Or.inl rfl)
               | (with_reducible apply Moves.upd))
  clear_value v
  have hw : Moves F s w := Moves.foldl (fun u e hu => fset_moves (hF.up rfl) hu) _ hv
  clear_value w
  have hx : Moves F s x := Moves.foldl (fun u e hu => fset_moves (hF.up rfl) hu) _ hw
  clear_value x
  have hy : Moves F s y := by
    repeat'
      (first | (with_reducible assumption)
             | ((with_reducible refine hF.up ?_); rfl)
             | ((with_reducible refine Or.inr (hF.up ?_)); rfl)
             | (with_reducible exact Or.inl rfl)
             | (with_reducible apply Moves.upd))
  clear_value y full src
  exact .ite (fun _ => hy) (fun _ => raise_moves (hF.up rfl) (fadd_moves (hF.up rfl) hy))

theorem sendBeats_moves {F : ℕ} {s t : State} (hF : Sub 35184908959745 F) (h : Moves F s t) : Moves F s
    (sendBeats t) := by
  unfold sendBeats
  repeat'
    (first | (with_reducible assumption) | ((with_reducible refine hF.up ?_); rfl)
            | ((with_reducible refine Or.inr (hF.up ?_)); rfl) | (with_reducible exact Or.inl rfl) | (intro)
            | (extract_lets +onlyGivenNames x; have hx : Moves F s x := ?_; (on_goal 1 => clear_value x); (on_goal 2 => subst x))
            | (extract_lets +onlyGivenNames x; clear_value x) | (with_reducible apply Moves.ite) | (split)
            | (with_reducible apply emit_moves) | (with_reducible apply groupsBoundary_moves)
            | (with_reducible apply earlyBeat_moves) | (with_reducible apply Moves.foldl)
            | (with_reducible apply Moves.upd))

theorem leasesTested_moves {F : ℕ} {s t : State} (hF : Sub 329837378008095 F) (h : Moves F s t) : Moves F s
    (leasesTested t) := by
  unfold leasesTested
  repeat'
    (first | (with_reducible assumption) | ((with_reducible refine hF.up ?_); rfl) | (intro)
            | (with_reducible apply leaseTest_moves) | (with_reducible apply Moves.foldl))

theorem hintsBoundary_moves {F : ℕ} {s t : State} (hF : Sub 47761103750175 F) (h : Moves F s t) : Moves F s
    (hintsBoundary t) := by
  unfold hintsBoundary
  repeat'
    (first | (with_reducible assumption) | ((with_reducible refine hF.up ?_); rfl) | (intro)
            | (with_reducible apply hintGo_moves) | (with_reducible apply Moves.foldl))

theorem scrubBoundary_moves {F : ℕ} {s t : State} (hF : Sub 8796093022208 F) (h : Moves F s t) : Moves F s
    (scrubBoundary t) := by
  unfold scrubBoundary
  repeat'
    (first | (with_reducible assumption) | ((with_reducible refine hF.up ?_); rfl)
            | (with_reducible apply fset_moves))

theorem pulses_moves {F : ℕ} {s t : State} (hF : Sub 1 F) (h : Moves F s t) : Moves F s (pulses t) := by
  unfold pulses
  repeat'
    (first | (with_reducible assumption) | ((with_reducible refine hF.up ?_); rfl) | (intro)
            | (extract_lets +onlyGivenNames x; have hx : Moves F s x := ?_; (on_goal 1 => clear_value x); (on_goal 2 => subst x))
            | (extract_lets +onlyGivenNames x; clear_value x) | (with_reducible apply Moves.ite)
            | (with_reducible apply emit_moves) | (with_reducible apply Moves.foldl))

theorem stepsBoundary_moves {F : ℕ} {s t : State} (hF : Sub 610711056647199 F) (h : Moves F s t) : Moves F s
    (stepsBoundary t) := by
  unfold stepsBoundary
  repeat'
    (first | (with_reducible assumption) | ((with_reducible refine hF.up ?_); rfl)
            | (with_reducible apply placeSteps_moves) | (with_reducible apply endSteps_moves)
            | (with_reducible apply rebalance_moves))

theorem tierBoundary_moves {F : ℕ} {s t : State} (hF : Sub 11030349882397 F) (h : Moves F s t) : Moves F s
    (tierBoundary t) := by
  unfold tierBoundary
  repeat'
    (first | (with_reducible assumption) | ((with_reducible refine hF.up ?_); rfl)
            | (with_reducible apply descentWrites_moves) | (with_reducible apply sanSettle_moves)
            | (with_reducible apply tellDiscards_moves) | (with_reducible apply rebuildTick_moves))

theorem boundaryWork_moves {F : ℕ} {s t : State} (hF : Sub 610711056647199 F) (h : Moves F s t) : Moves F s
    (boundaryWork t) := by
  unfold boundaryWork
  repeat'
    (first | (with_reducible assumption) | ((with_reducible refine hF.up ?_); rfl) | (intro)
            | (with_reducible apply Moves.ite) | (with_reducible apply ageTables_moves)
            | (with_reducible apply releaseHeldBack_moves) | (with_reducible apply qosBoundary_moves)
            | (with_reducible apply expanderBoundary_moves) | (with_reducible apply sendBeats_moves)
            | (with_reducible apply stepsBoundary_moves))

theorem boundaryTests_moves {F : ℕ} {s t : State} (hF : Sub 13194139534349 F) (h : Moves F s t) : Moves F s
    (boundaryTests t) := by
  unfold boundaryTests
  repeat'
    (first | (with_reducible assumption) | ((with_reducible refine hF.up ?_); rfl) | (intro)
            | (with_reducible apply Moves.ite) | (with_reducible apply storeTests_moves)
            | (with_reducible apply scrubBoundary_moves))

theorem pitchBoundary_moves {F : ℕ} {s t : State} {a1 : Bool} {a2 : ℕ} (hF : Sub 985147381905375 F) (h :
    Moves F s t) : Moves F s (pitchBoundary t a1 a2) := by
  unfold pitchBoundary
  repeat'
    (first | (with_reducible assumption) | ((with_reducible refine hF.up ?_); rfl) | (intro)
            | (extract_lets +onlyGivenNames x; have hx : Moves F s x := ?_; (on_goal 1 => clear_value x); (on_goal 2 => subst x))
            | (extract_lets +onlyGivenNames x; clear_value x) | (with_reducible apply Moves.ite)
            | (with_reducible apply finc_moves) | (with_reducible apply raise_moves)
            | (with_reducible apply commitBatch_moves) | (with_reducible apply deferredTarget_moves)
            | (with_reducible apply checkTimebase_moves) | (with_reducible apply nextPitch_moves)
            | (with_reducible apply settingsInForce_moves) | (with_reducible apply attrsInForce_moves)
            | (with_reducible apply countPitch_moves) | (with_reducible apply endCleared_moves)
            | (with_reducible apply markersDue_moves) | (with_reducible apply leasesTested_moves)
            | (with_reducible apply hintsBoundary_moves) | (with_reducible apply pulses_moves)
            | (with_reducible apply tierBoundary_moves) | (with_reducible apply boundaryWork_moves)
            | (with_reducible apply boundaryTests_moves))

theorem idleCycle_moves {F : ℕ} {s t : State} (hF : Sub 4398147174658 F) (h : Moves F s t) : Moves F s (idleCycle t)
    := by
  unfold idleCycle
  repeat'
    (first | (with_reducible assumption) | ((with_reducible refine hF.up ?_); rfl)
            | ((with_reducible refine Or.inr (hF.up ?_)); rfl) | (with_reducible exact Or.inl rfl) | (intro)
            | (with_reducible apply Moves.ite) | (split) | (with_reducible apply storeCycles_moves)
            | (with_reducible apply Moves.foldl) | (with_reducible apply Moves.upd))

theorem execPitchBoundary_moves {F : ℕ} {s t : State} {a0 : Bool} {a1 : ℕ} (hF : Sub 985147381905375 F) (h :
    Moves F s t) : ∃ u, (execPitchBoundary a0 a1 t) = .next u ∧ Moves F s u := by
  unfold execPitchBoundary
  refine ⟨_, rfl, ?_⟩
  repeat'
    (first | (with_reducible assumption) | ((with_reducible refine hF.up ?_); rfl) | (intro)
            | (with_reducible apply Moves.ite) | (split) | (with_reducible apply pitchBoundary_moves))

theorem execTimebaseStop_moves {F : ℕ} {s t : State} (hF : Sub 562949953422605 F) (h : Moves F s t) : ∃ u,
    (execTimebaseStop t) = .next u ∧ Moves F s u := by
  unfold execTimebaseStop
  refine ⟨_, rfl, ?_⟩
  repeat'
    (first | (with_reducible assumption) | ((with_reducible refine hF.up ?_); rfl) | (intro)
            | (with_reducible apply stopTimebase_moves))

theorem execTbRestored_moves {F : ℕ} {s t : State} (hF : Sub 562949953422605 F) (h : Moves F s t) : ∃ u,
    (execTbRestored t) = .next u ∧ Moves F s u := by
  unfold execTbRestored
  refine ⟨_, rfl, ?_⟩
  repeat'
    (first | (with_reducible assumption) | ((with_reducible refine hF.up ?_); rfl) | (intro)
            | (with_reducible apply restoreTimebase_moves))

theorem execTimebaseInReturn_moves {F : ℕ} {s t : State} (hF : Sub 256 F) (h : Moves F s t) : ∃ u,
    (execTimebaseInReturn t) = .next u ∧ Moves F s u := by
  unfold execTimebaseInReturn
  refine ⟨_, rfl, ?_⟩
  repeat'
    (first | (with_reducible assumption) | ((with_reducible refine hF.up ?_); rfl)
            | ((with_reducible refine Or.inr (hF.up ?_)); rfl) | (with_reducible exact Or.inl rfl) | (intro)
            | (extract_lets +onlyGivenNames x; have hx : Moves F s x := ?_; (on_goal 1 => clear_value x); (on_goal 2 => subst x))
            | (extract_lets +onlyGivenNames x; clear_value x) | (with_reducible apply Moves.upd))

theorem execPitchSyncPulse_moves {F : ℕ} {s t : State} {a0 : ℤ} (hF : Sub 562949953422605 F) (h : Moves F s t) :
    ∃ u, (execPitchSyncPulse a0 t) = .next u ∧ Moves F s u := by
  unfold execPitchSyncPulse
  refine ⟨_, rfl, ?_⟩
  repeat'
    (first | (with_reducible assumption) | ((with_reducible refine hF.up ?_); rfl) | (intro)
            | (with_reducible apply Moves.ite) | (split) | (with_reducible apply measured_moves))

theorem execPitchMarkerFlit_moves {F : ℕ} {s t : State} {a0 : ℕ} {a1 : ℤ} (hF : Sub 562949953422605 F) (h :
    Moves F s t) : ∃ u, (execPitchMarkerFlit a0 a1 t) = .next u ∧ Moves F s u := by
  unfold execPitchMarkerFlit
  refine ⟨_, rfl, ?_⟩
  repeat'
    (first | (with_reducible assumption) | ((with_reducible refine hF.up ?_); rfl)
            | ((with_reducible refine Or.inr (hF.up ?_)); rfl) | (with_reducible exact Or.inl rfl) | (intro)
            | (extract_lets +onlyGivenNames x; have hx : Moves F s x := ?_; (on_goal 1 => clear_value x); (on_goal 2 => subst x))
            | (extract_lets +onlyGivenNames x; clear_value x) | (with_reducible apply Moves.ite) | (split)
            | (with_reducible apply measured_moves) | (with_reducible apply Moves.upd))

end Sys2Proof.Machine
end

