-- ==== Sys2Proof/Machine/Views.lean ====
section
/-! DEFINITION. What a host finds in configuration space and reads through the BARs and the ROM window (02 R36 to R43, R50). The
table of commands has no row for such a read: these are the values that one returns. -/

namespace Sys2Proof.Machine

open Sys2Proof

/-! ### The configuration header and the capabilities (R38) -/

/-- What the configuration header reports: Vendor ID, Device ID, Class Code, Revision ID (PAGE_ID layout version [7:0]). -/
def cfgIdentity : Nat × Nat × Nat × Nat := (Config.vendorId.toNat, 0x9240, 0x050210, 0x00)

/-- Completion timeout ranges of PCI Express (Table 2.1). -/
inductive CplRange where
  | a | b | c | d
  deriving DecidableEq, Repr

/-- The endpoint parameters of Table 2.1: sizes in bytes, tag widths in bits, the default completion timeout in µs. -/
structure EndpointParams where
  maxPayload : Nat := 512
  maxReadRequest : Nat := 4096
  tagBits : List Nat := [8, 10, 14]
  cplRanges : List CplRange := [.a, .b, .c, .d]
  cplTimeoutDisable : Bool := true
  cplTimeoutUs : Nat := 40000
  /-- D0 and D3hot; D3cold comes through PERST# -/
  d3hot : Bool := true
  noSoftReset : Bool := true
  functionLevelReset : Bool := true
  extendedSynch : Bool := false
  atomicOpCompleter : Bool := false
  ecrc : Bool := false
  deriving DecidableEq, Repr

/-- The capabilities of Table 2.2. Those of R54 that are not supported are absent. -/
inductive Capability where
  | powerManagement | pciExpress
  | msix (vectors : Nat)
  | advancedErrorReporting (multipleHeader : Bool)
  | dataObjectExchange
  | integrityDataEncryption
  | flitLogging | physicalLayer16 | physicalLayer32 | physicalLayer64
  /-- ID 0x0000 -/
  | cxlDevice (mem cache io : Bool) (hdmCount : Nat) (reset memClr : Bool)
  /-- ID 0x0007 -/
  | flexBusPort
  /-- ID 0x0008 -/
  | registerLocator
  /-- ID 0x0009 -/
  | mld (lds : Nat)
  /-- Luallaune, ID 0x0001 -/
  | caura
  deriving DecidableEq, Repr

/-- The capabilities that each partition presents (Table 2.2). -/
def partCapabilities : List Capability :=
  [.powerManagement, .pciExpress, .msix 256, .advancedErrorReporting false, .dataObjectExchange, .integrityDataEncryption,
   .flitLogging, .physicalLayer16, .physicalLayer32, .physicalLayer64, .cxlDevice true false true 1 true true, .flexBusPort,
   .registerLocator, .mld 16, .caura]

/-- The link registers of the head that is read: Link Control, Link Control 2, the Flex Bus port control; rate and width in
force (R36). -/
def linkRegs (s : State) (h : Head) : Nat × Nat × Nat × Nat × Nat :=
  let x := headOf s h
  (x.linkControl, x.linkControl2, x.flexBus, fget s .portLinkStatusRate h, fget s .portLinkStatusWidth h)

/-! ### The Caura DVSEC (R39) -/

/-- CAURA_STATUS.PART_READY: BAR0 pages and rings accept access. -/
def partReady (s : State) (p : Part) : Bool := s.boot.pagesReady && (cfgOf s p).inReset.isNone && !(cfgOf s p).ioLost

/-- CAURA_STATUS of a partition as a head shows it. -/
def cauraStatus (s : State) (p : Part) (h : Head) : Nat :=
  flag (partReady s p) + 2 * flag (decide (pState s p = pOrphaned)) + 4 * flag (decide (masterHead s p = some h.val)) +
    8 * bRole s + 32 * fget s .pitchCfgLenActive

/-- A 32-bit register of the Caura DVSEC (Table 2.3); the capability version and next pointer of EXT_CAP_HDR are open. -/
def cauraDvsec (s : State) (p : Part) (h : Head) (off : Nat) : Nat :=
  let c := cfgOf s p
  match off with
  | 0x00 => 0x0023 + Config.dvsecHeader.toNat * 2 ^ 16
  | 0x04 => Config.vendorId.toNat + 0x02C * 2 ^ 20
  | 0x08 => 0x0001
  | 0x0C => Config.engineDies + configCode s * 2 ^ 8 + p.val * 2 ^ 12 + fget s .partStateHeads p * 2 ^ 16
  | 0x10 => cauraStatus s p h
  | 0x14 => 0x00100 * 2 ^ 12
  | 0x18 => 2
  | 0x1C => 0xC00000
  | 0x20 => c.tagLimit + tagEffective s p * 2 ^ 16
  | 0x24 => c.errHead + 16 * flag c.hdrLog.isSome
  | _ => 0

/-! ### The BARs and the ROM window (R41, R43) -/

/-- How a host's read of a window completes. -/
inductive WindowRead where
  | data (value : Nat) | unsupported
  deriving DecidableEq, Repr

/-- Sizes of the 64-bit, non-prefetchable BARs and of the ROM window in bytes. -/
def bar0Size : Nat := 2 ^ 28
def bar2Size : Nat := 2 ^ 30
def romSize : Nat := 2 ^ 24

/-- One double word of an MSI-X table entry, as `msixWord` writes it. -/
def msixRead (e : MsixEntry) (i : Nat) : Nat :=
  match i with
  | 0 => e.addr.toNat % 2 ^ 32
  | 1 => e.addr.toNat / 2 ^ 32
  | 2 => e.data.toNat
  | _ => flag e.masked

/-- The pending-bit array: 256 bits at its start (Table 2.4). -/
def pendingBits (s : State) (o : Nat) : Nat := bitMapOf ((List.range 256).filter fun v => (msixOf s o v).pending)

/-- 64 bits of BAR0 (Table 2.4). The layout of the CXL component and device registers is that of CXL 3.2: a free value. -/
def bar0Read (s : State) (p : Part) (h : Head) (off : Nat) : Nat :=
  if off < 0x20000 then Config.cxlRegister off
  else if off < 0x21000 then
    let e := msixOf s p ((off - 0x20000) / 16)
    let i := off % 16 / 4
    msixRead e i + msixRead e (i + 1) * 2 ^ 32
  else if off < 0x22000 then pendingBits s p / 2 ^ (8 * (off - 0x21000)) % 2 ^ 64
  else match bar0Page off with
    | some (b, i, o) => readReg s (.host p h) b i o
    | none => 0

/-- 64 bits of BAR2 (Table 2.5): the consumer index of a ring, device-resident ring memory, else 0. -/
def bar2Read (s : State) (p : Part) (off : Nat) : Nat :=
  let o := off % 0x1000000
  if o = 8 then (ringOf s p (off / 0x1000000 % 64)).consumed
  else if 0x800000 ≤ o then leAt (Memory.read s.ringMem (p.val * 2 ^ 30 + off) 8) 0 8
  else 0

/-- A byte of the driver image of the slot that runs (R43): a PCI expansion ROM image with its signature and a PCI Data
Structure of code type 0x03 and the Indicator bit; where that structure lies, and the rest, are free. Its place of these
fields is PRESUMED (PCI Firmware, log 86). -/
def driverByte (slot : Nat) (off : Nat) : Byte :=
  let pcir := Config.pciData slot
  if off = 0 then 0x55
  else if off = 1 then 0xAA
  else if off = 0x18 then BitVec.ofNat 8 pcir
  else if off = 0x19 then BitVec.ofNat 8 (pcir / 256)
  else if off = pcir + 0x14 then 0x03
  else if off = pcir + 0x15 then 0x80
  else Config.driverImage slot off

/-- A byte of the ROM window: the driver image below 12 MiB, then the Caura Descriptor Table. Both belong to the image slot that
runs, so they change together and at a reset. -/
def romByte (s : State) (off : Nat) : Byte :=
  if off < 0xC00000 then driverByte (fget s .roleFwStatusSlot) off else cdtBytes.getD (off - 0xC00000) 0

/-- A host's memory read of a window of a partition: Unsupported Request while the partition does not accept it (R50), and where
the ROM window does not decode (R43). -/
def windowRead (s : State) (h : Head) (p : Part) (t : RegTarget) : WindowRead :=
  if !ioOpen s h p then .unsupported
  else match t with
    | .bar0 off => .data (bar0Read s p h off)
    | .bar2 off _ => .data (bar2Read s p off)
    | .rom off => if (cfgOf s p).romEn then .data (leAt ((List.range 8).map fun i => romByte s (off + i)) 0 8) else .unsupported

end Sys2Proof.Machine
end

