-- ==== Sys2Proof/WellFormed.lean ====
section
/-! DEFINITION. Well-formed commands: the bounds that an operand has beyond its type. The meanings are total
on every term; these are the terms that a request, a message or a moment of the spec can be. -/

namespace Sys2Proof

/-- Bit errors name one of the 72 symbols of a stored line and change it (11 R245). -/
def upsetWf (u : Upset) : Bool := u.all fun e => decide (e.1 < 72) && decide (e.2 ≠ 0)

/-- A CXL.mem request names a line of 64 bytes (10 Table 10.1). -/
def dpaWf (dpa : Nat) : Bool := decide (dpa % 64 = 0)

/-- A link trains at width x16, x8, x4, x2 or x1 (02 R29). -/
def lanesWf (n : Nat) : Bool := [1, 2, 4, 8, 16].contains n

/-- The fields of the page commands are two bytes wide (15 Table 15.2). -/
def pageWf (inst off : Nat) : Bool := decide (inst < 65536) && decide (off < 65536)

/-- The operands of a command lie within the bounds that the spec gives them. -/
def Instr.wf : Instr → Bool
  | .hostMemRead _ _ dpa _ upset => dpaWf dpa && upsetWf upset
  | .hostMemWrite _ _ dpa _ _ _ => dpaWf dpa
  | .partialWriteMerge dpa upset => dpaWf dpa && upsetWf upset
  | .cleanEviction _ _ dpa => dpaWf dpa
  | .birsp _ _ dpa _ => dpaWf dpa
  | .biconflict _ _ dpa => dpaWf dpa
  | .biTimeout _ _ dpa => dpaWf dpa
  | .scrubLine _ upset => upsetWf upset
  | .clearPoison _ _ dpa _ => dpaWf dpa
  | .injectPoison _ _ dpa => dpaWf dpa
  | .linkTrained _ _ width _ _ _ => lanesWf width
  | .readPageRegister _ _ inst off _ => pageWf inst off
  | .writePageRegister _ _ inst off rsvd _ => pageWf inst off && decide (rsvd < 65536)
  | _ => true

end Sys2Proof
end

