-- ==== Sys2Proof/Tests/Slice0.lean ====
section
/-! SUPPORT. Tests: the well-formedness checks refuse ill-formed commands; single steps whose results the specification
states; states that meet the hypotheses of the statements of Certificates/Slice0/Obligations.lean. -/

namespace Sys2Proof.Tests

open Sys2Proof Sys2Proof.Machine

-- One theorem after the other: checking them all at once takes more threads than the check allows.
set_option Elab.async false

/-! ### Small states -/

/-- A package whose cores are released and whose memory is active. -/
def act : State := { State.reset with boot := { phase := .active, cold := true, pagesReady := true, memActive := true } }

/-- Session 1 with a role, on I3C. -/
def ses (r : Role) (s : State) : State :=
  { s with sessions := [(1, { transport := .i3c 0, root := .hash 0 false, role := some r, anchor := some 0, deadline := 1000000 })] }

/-- Partition 0 enabled on head 0, whose link is up, with memory space and bus mastering enabled. -/
def hosted (s : State) : State :=
  { fset (fset (fset s .partStateState pActive 0) .partStateHeads 1 0) .portLinkStatusUp 1 0 with
    heads := [(0, { ltssm := .l0, perst := false, secure := true })],
    cfgs := [(0, { mse := true, bme := true })],
    parts := [(0, { leaseExpiry := 200000000 })] }

/-- One private extent of partition 0: granule 0. -/
def ext0 : Extent := { base := 0, len := 1, attr := {}, tag := 0, holders := [⟨0, .active⟩] }

def held (s : State) : State := { s with exts := [ext0] }

def op1 : State := ses .operator act
def in1 : State := ses .installer act
def ho : State := hosted act
def hx : State := held ho

/-- `Writes` as a check. -/
def writesB (s : State) (v : View) (b : Blk) (i off word : Nat) : Bool :=
  pageSeen s v b i && !pageLost s b i && !writeDenied s v b i off word && pageReady s b i && !lockCuts s v b i off word

theorem writes_of {s : State} {v : View} {b : Blk} {i off word : Nat} (h : writesB s v b i off word = true) :
    Writes s v b i off word := by
  simp only [writesB, Bool.and_eq_true, Bool.not_eq_true'] at h
  exact ⟨h.1.1.1.1, h.1.1.1.2, h.1.1.2, h.1.2, h.2⟩

theorem admits_of {s : State} {n : Session} {need : Nat} (h : (sesUp s n && decide (need ≤ roleOf s n)) = true) :
    Admits s n need := by
  simp only [Bool.and_eq_true, decide_eq_true_eq] at h
  exact h

theorem test_up : running act = true ∧ sesUp op1 1 = true ∧ ioOpen ho 0 0 = true ∧ headOpen ho 0 = true := by decide
theorem test_w : Writes (ses .operator act) (.fm 1) .part 0 0x040 (wordWith op1 .part 0 0x040 [(.partCfgLeaseMs, 0, 100)]) :=
  writes_of (by decide)
theorem test_fits : hx.fieldsFit = true ∧ hx.memoriesWf = true := by decide

/-! ### Hypotheses of the statements: fabric manager -/

/-- Session 1 of an operator, and partition 0 active on head 0. -/
def ho1 : State := ses .operator ho
def hx1 : State := ses .operator hx
def hi1 : State := ses .installer hx

/-- The lead of a pair that is in sync, its link up. -/
def lead (s : State) : State :=
  fset (fset (fset (fset s .belayStatusRole roleLead) .belayStatusState bsInSync) .belayGroupsUp 1 0 0) .pwrStatusRung 0

def second (s : State) : State := fset (lead s) .belayStatusRole roleSecond

/-- A partition in another state. -/
def inState (n : Nat) (s : State) : State := fset s .partStateState n 0

/-- A shared extent of partition 1, not yet joined by partition 0. -/
def sharedExt1 : Extent :=
  { base := 4, len := 2, attr := { sharing := 1, owner := 1 }, tag := 7, holders := [⟨1, .active⟩] }

def bytesOf (l : List Nat) : List Byte := l.map (BitVec.ofNat 8)

theorem witness_StepsKeepSoundState :
    (∃ t, step State.reset = .next t) ∧ State.reset.memoriesWf = true ∧ State.reset.fieldsFit = true :=
  ⟨⟨_, rfl⟩, by decide⟩
theorem witness_CommandsLeaveTheRest : ∃ t, exec .timebaseStop State.reset = .next t := ⟨_, rfl⟩
theorem witness_StepRunsTheFrontCommand : State.reset.pending = [] := rfl
theorem witness_FabricManagerReadsAnswer : Admits op1 1 1 ∧ 15 < 16 ∧ 0 < 16 := ⟨admits_of (by decide), by decide⟩
theorem witness_FixedCommandsAnswer : sesUp op1 1 = true ∧ Admits op1 1 1 ∧
    (0 = 0 ∧ 0x10000000 = 0x10000000 ∧ 0 = 0 ∧ exportBytes op1 = exportBytes op1) ∧
    ¬(1 = 0 ∧ 0x10000000 = 0x10000000 ∧ 0 = 0 ∧ 0 = exportBytes op1) ∧
    (0 + (List.replicate 16 255).length ≤ 16 ∧ ∀ x ∈ List.replicate 16 255, x = 255) ∧
    ¬(0 + [254].length ≤ 16 ∧ ∀ x ∈ [254], x = 255) ∧ ¬(0 + (List.replicate 17 255).length ≤ 16 ∧ ∀ x ∈ [255], x = 255) ∧
    cmdPage 0x0020 0 0xE00 = some .part ∧ 1 ≤ 64 ∧ 0xE00 + 8 * 64 ≤ 0x1000 ∧ cmdPage 0x0020 15 0x018 = some .part ∧
    pageLost op1 .part 15 = false :=
  ⟨by decide, admits_of (by decide), by decide⟩
theorem witness_MessagesWithoutRoleAreDenied :
    (sesUp act 1 = true ∧ roleOf act 1 < 1) ∧ sesUp op1 1 = true ∧ roleOf op1 1 < 2 := by decide
theorem witness_ExtentAddsAreOffered : Admits ho1 1 1 ∧ twinUp ho1 = false ∧
    addCode ho1 0 [(0, 1), (3, 2)] (attrBits { owner := 0 }) 0 = .success ∧
    joinCode { ho1 with exts := [sharedExt1] } 0 7 [(4, 2)] = .success ∧
    payPart (bytesOf (List.replicate 8 0 ++ [1] ++ List.replicate 23 0)) 32 3 = some 0 ∧
    addCode ho1 0 [(0, 1)] 0 0 = .success :=
  ⟨admits_of (by decide), by decide⟩
theorem witness_ReleasesTellTheHost : twinUp hx1 = false ∧ Admits hx1 1 1 ∧ Admits hi1 1 2 ∧
    releaseCode hx1 0 [.offered, .active, .releasePending] false [(0, 1)] = (.success, [(0, 1)]) ∧
    ([(0, 1)].filter fun x => !(offeredOf hx1 0 [(0, 1)]).contains x) ≠ [] ∧
    releaseCode hi1 0 [.offered, .active, .releasePending, .reclaimable] true [(0, 1)] = (.success, [(0, 1)]) ∧
    payPart (bytesOf (List.replicate 8 0 ++ [1, 0, 0, 0])) 12 3 = some 0 :=
  ⟨by decide, admits_of (by decide), admits_of (by decide), by decide⟩

theorem witness_PartitionCommandsActAlone : Admits hx1 1 1 ∧ twinUp hx1 = false ∧
    payPart (bytesOf [0, 0, 1, 0]) 4 1 = some 0 ∧ ¬(unbinds hx1 0 1 = true ∧ holdsExtents hx1 0 = true) ∧
    (bytesOf [0, 0, 0, 0, 15, 0, 0, 0, 5, 0, 0, 0]).length = 12 ∧ maskOk 15 = true ∧ maskedOk 15 5 = true ∧
    (∃ e ∈ hx1.exts, e.base = 0) ∧ payPart (bytesOf [0, 0]) 2 1 = some 0 ∧ pState hx1 0 = pActive ∧
    leaseOver hx1 0 = false ∧ pState (inState pOrphaned hx1) 0 = pOrphaned ∧
    pState (inState pReclaimed hx1) 0 = pReclaimed :=
  ⟨admits_of (by decide), by decide, by decide, by decide, by decide, by decide, by decide,
    ⟨ext0, by decide, rfl⟩, by decide⟩
/-- Partition 0 with a lease and a binding due. -/
def leased (n : Nat) (heads : Option (BitVec 16)) (s : State) : State :=
  { s with parts := [(0, { leaseExpiry := n, bindDue := heads })] }
theorem witness_PartitionCommandsActAlone_lease : Admits hx1 1 1 ∧ twinUp hx1 = false ∧ Admits (leased 0 none hx1) 1 1 ∧
    (partOf (leased 9 (some 0xFFFF) hx1) 0).bindDue = some 0xFFFF ∧ (0xFFFF : BitVec 16) ≠ 0 ∧
    pState (leased 9 (some 0xFFFF) hx1) 0 ≠ pDisabled ∧ ioOpen hx1 0 0 = true ∧
    Writes hx1 (.host 0 0) .part 0 0x048 (wordWith hx1 .part 0 0x048 [(.partLeaseRenew, 0, 1)]) ∧
    leaseIsLow (leased 1 none hx1) 0 = true ∧ leaseOver (leased 0 none hx1) 0 = true ∧
    expiryDue (leased 0 none hx1) 0 = false :=
  ⟨admits_of (by decide), by decide, admits_of (by decide), by decide, by decide, by decide, by decide,
    writes_of (by decide +kernel), by decide⟩
theorem witness_PairChangesWaitInJournal : Admits (lead hx1) 1 1 ∧ twinUp (lead hx1) = true ∧
    addCode (foresee (sessionMsg (lead hx1) 1)) 0 [(5, 1)] (attrBits { owner := 0 }) 0 = .success ∧
    releaseCode (foresee (sessionMsg (lead hx1) 1)) 0 [.offered, .active, .releasePending] false [(0, 1)] =
      (.success, [(0, 1)]) ∧
    (∃ e ∈ (foresee (sessionMsg (lead hx1) 1)).exts, e.base = 0) ∧
    pState (foresee (sessionMsg (lead (inState pOrphaned hx1)) 1)) 0 = pOrphaned :=
  ⟨admits_of (by decide), by decide, by decide, by decide, ⟨ext0, by decide, rfl⟩, by decide⟩

/-! ### Hypotheses of the statements: sessions, pages, pins -/

/-- A staged image in the inactive slot, and an accepted one. -/
def staged (st : ImageStage) (s : State) : State :=
  { s with flash := { s.flash with slot1 := { present := true, svn := 1, stage := st } } }

/-- A session whose handshake is not finished, from the root of anchor slot 3. -/
def pendingSes : State :=
  { act with flash := { act.flash with anchors := [(3, 5)] },
             sessions := [(2, { transport := .i3c 1, root := .hash 5 false, deadline := 1000000 })] }

theorem witness_SpdmMessagesAnswer : sesUp act 1 = true ∧ sesUp op1 1 = true ∧ (sesOf op1 1).isSome = true := by decide
theorem witness_SessionsOpenAndEnd : mctpUp pendingSes (.i3c 0) = true ∧ sessionsFull pendingSes (.i3c 0) (.hash 6 false) = false ∧
    freeSession pendingSes = some 0 ∧
    sessionsFull { act with sessions := (List.range 8).map fun k => (k, { transport := .i3c 0, root := .hash 6 false }) } (.i3c 0)
      (.hash 6 false) = true ∧
    sesOf pendingSes 2 = some { transport := .i3c 1, root := .hash 5 false, deadline := 1000000 } ∧
    rootRole pendingSes (.i3c 1) (.hash 5 false) = some (.operator, some 3) ∧ sesUp op1 1 = true ∧
    sessionOver { act with sessions := [(7, { transport := .i3c 0, root := .hash 6 false })] } 7 = true := by decide
theorem witness_AnchorsAndImagesChange : sesUp in1 1 = true ∧ in1.fieldsFit = true ∧ fget in1 .roleAnchorCtrlInstaller = 0 ∧
    (imgOf (staged .staged in1).flash (inactiveSlot (staged .staged in1))).stage = .staged ∧
    (imgOf (staged .accepted in1).flash (inactiveSlot (staged .accepted in1))).stage = .accepted ∧ 1 ≤ roleOf in1 1 ∧
    ahas { in1.flash with anchors := [(0, 9)] }.anchors (fget in1 .roleAnchorCtrlSlot) = true ∧
    (true = true ∧ in1.flash.minSvn ≤ 0) ∧ ¬(false = true ∧ in1.flash.minSvn ≤ 0) := by decide
theorem witness_AnchorsAndImagesChange_writes :
    Writes in1 (.fm 1) .role 0 0x048 (wordWith in1 .role 0 0x048 [(.roleAnchorCtrlCommit, 0, 1)]) ∧
    Writes in1 (.fm 1) .role 0 0x048 (wordWith in1 .role 0 0x048 [(.roleAnchorCtrlClear, 0, 1)]) ∧
    Writes in1 (.fm 1) .role 0 0x098 (wordWith in1 .role 0 0x098 [(.roleFwCtrlOp, 0, 1)]) ∧
    Writes in1 (.fm 1) .role 0 0x098 (wordWith in1 .role 0 0x098 [(.roleFwCtrlOp, 0, 2)]) :=
  ⟨writes_of (by decide +kernel), writes_of (by decide +kernel), writes_of (by decide +kernel), writes_of (by decide +kernel)⟩

/-- ANCHOR_CTRL names the installer anchor. -/
def instAnchor : State := fset (fset in1 .roleAnchorCtrlInstaller 1) .roleAnchorCtrlSlot 7

theorem witness_AnchorsAndImagesChange_installer : fget instAnchor .roleAnchorCtrlInstaller = 1 ∧
    fget instAnchor .roleAnchorCtrlSlot = 7 ∧
    Writes instAnchor (.fm 1) .role 0 0x048 (wordWith instAnchor .role 0 0x048 [(.roleAnchorCtrlCommit, 0, 1)]) :=
  ⟨by decide, by decide, writes_of (by decide +kernel)⟩
theorem witness_IdeFollowsKeysAndFailures : linkUp ho 0 = true ∧ running ho = true ∧ (headOf ho 0).secure = true := by decide
theorem witness_PageHeadersFollowWrites : Reaches op1 (.fm 1) ∧ Reaches hx (.host 0 0) ∧
    Writes op1 (.fm 1) .part 15 0x008 2 ∧ Writes hx (.host 0 0) .part 0 0x008 2 ∧
    Writes op1 (.fm 1) .part 15 0x018 (BitVec.allOnes 64).toNat ∧
    (hget (hupd op1 .part 0 fun h => { h with blockReset := true }) .part 0).blockReset = true ∧
    Writes in1 (.fm 1) .part 15 0x008 (4 + 8 * flag (hget in1 .part 15).quiesce) ∧
    Writes in1 (.fm 1) .part 15 0x028 (0x7F#64).toNat ∧ 1 ≤ roleOf op1 1 ∧ viewRole hx (.host 0 0) < 2 ∧
    Writes op1 (.fm 1) .part 15 0x020 (BitVec.allOnes 64).toNat ∧ 0x00900020 % 8 = 0 ∧
    bar0Page 0x00900020 = some (.part, 0, 0x020) ∧ Writes hx (.host 0 0) .part 0 0x020 (BitVec.allOnes 64).toNat :=
  ⟨(by decide : sesUp op1 1 = true), (by decide : ioOpen hx 0 0 = true), writes_of (by decide +kernel), writes_of (by decide +kernel), writes_of (by decide +kernel), by decide,
    writes_of (by decide +kernel), writes_of (by decide +kernel), by decide, by decide, writes_of (by decide +kernel), by decide,
    by decide, writes_of (by decide +kernel)⟩
theorem witness_WindowWritesReachTheirPlace : ioOpen hx 0 0 = true ∧ 0x100000 ≤ 0x100000 ∧ (4 ≠ 8 ∨ 0x100000 % 8 ≠ 0) ∧
    (8 ≠ 8 ∨ 0x100004 % 8 ≠ 0) ∧ hx.memoriesWf = true ∧ 0x800000 ≤ 0x800000 % 0x1000000 ∧ 255 < 256 := by decide
theorem witness_PinsTakeTheirFunction : sesUp in1 1 = true ∧ in1.fieldsFit = true ∧
    Writes in1 (.fm 1) .pin 0 (0x050 + 63 / 8 * 8) (wordWith in1 .pin 0 (0x050 + 63 / 8 * 8) [(.pinMfpCfgFunc, 63, 5)]) ∧
    (hget in1 .pin 0).lock = false ∧ 5 ≤ 5 ∧ 5 ≠ fget in1 .pinMfpCfgFunc 0 63 :=
  ⟨by decide, by decide, writes_of (by decide +kernel), by decide⟩

/-! ### Hypotheses of the statements: reset, power, heat, the pitch -/

/-- A start-up at which both image slots pass. -/
def goodBoot : BootReport :=
  { complex0Ok := true, slot0Ok := true, slot1Ok := true, settingsLost := false, recBad := [], temp := 40, temps := [],
    trainFail := [] }

def inPhase (p : BootPhase) (s : State) : State := { s with boot := { s.boot with phase := p, pkgRstLow := false } }

theorem witness_ResetsRestoreTheirState_extents : twinUp hi1 = false ∧ (hi1.exts.map (·.base)).Nodup ∧
    (∀ e ∈ hi1.exts, ∀ h ∈ e.holders, h.st ≠ .offered) ∧ hi1.exts ≠ [] := by decide
theorem witness_ResetsRestoreTheirState : in1.boot.phase ≠ .auxOnly ∧ in1.boot.phase ≠ .dead ∧ sesUp in1 1 = true ∧
    in1.fieldsFit = true ∧ Writes in1 (.fm 1) .pwr 0 0x050 (wordWith in1 .pwr 0 0x050 [(.pwrCtrlWarmReset, 0, 1)]) :=
  ⟨by decide, by decide, by decide, by decide, writes_of (by decide +kernel)⟩
theorem witness_StartUpReachesMemActive : State.reset.boot.phase = .auxOnly ∧
    bootSlot State.reset { goodBoot with slot0Ok := false, slot1Ok := false } = none ∧
    bootSlot State.reset goodBoot = some false ∧ (inPhase .starting State.reset).boot.cold = true ∧
    (inPhase .released State.reset).boot.phase = .released ∧ bState (inPhase .released State.reset) ≠ bsJoining := by decide
theorem witness_RailsAndHeatActOnTheWholePart : railFld .vinL = some (1, .pinRailsVinLOk) ∧
    railFld .vddIo = some (4, .pinRailsVddIoOk) ∧ (inPhase .active act).boot.pkgRstLow = false ∧
    (inPhase .active act).boot.phase ≠ .dead ∧ State.reset.boot.pkgRstLow = true ∧
    (inPhase .tripped act).boot.phase = .tripped ∧ running act = true ∧ 255 < 256 := by decide

/-- MFP pin 0 is FLOW_OK, at a level. -/
def flowPin (level : Bool) : State :=
  { fset act .pinMfpCfgFunc 5 0 0 with pins := [(0, { level := level })] }

theorem witness_RailsAndHeatActOnTheWholePart_flow : flowLow (flowPin false) = true ∧ flowLow (flowPin true) = false ∧
    fget (flowPin false) .pinThermalFlowThrottle = 0 ∧
    fget (fset (flowPin true) .pinThermalFlowThrottle 1) .pinThermalFlowThrottle = 1 := by decide

/-- TARGET n is pending after an idle pitch. -/
def target (n : Nat) (s : State) : State :=
  { fset (fset s .pwrCtrlTarget n) .pwrStatusPending 1 with power := { idle := 1 } }

theorem witness_LadderMovesByItsRules : sesUp in1 1 = true ∧ moving in1 = false ∧
    moving (fset in1 .pwrStatusEntering 1) = true ∧ entryRung (target 1 act) = (1, true) ∧
    entryRung (target 4 act) = (4, true) ∧ descentRefused (target 4 act) = true ∧
    descentRefused { target 4 act with boot := { act.boot with tiered := true } } = false ∧
    twinUp (target 4 act) = false ∧ moving (target 4 act) = false ∧
    entryReady { fset act .pwrStatusEntering 1 with power := { entering := 4 } } = true ∧
    fget act .pwrStatusExiting ≠ 1 ∧ rung (fset act .pwrStatusRung 4) ≠ 0 ∧
    fget (fset act .pwrStatusEntering 1) .pwrStatusEntering = 1 ∧
    fget (fset act .pwrStatusExiting 1) .pwrStatusExiting = 1 := by decide
theorem witness_LadderMovesByItsRules_writes :
    Writes in1 (.fm 1) .pwr 0 0x050 (wordWith in1 .pwr 0 0x050 [(.pwrCtrlTarget, 0, 4)]) ∧
    Writes in1 (.fm 1) .pwr 0 0x050 (wordWith in1 .pwr 0 0x050 [(.pwrCtrlTarget, 0, 5)]) ∧
    Writes in1 (.fm 1) .pwr 0 0x050 (wordWith in1 .pwr 0 0x050 [(.pwrCtrlTarget, 0, 0)]) ∧
    Writes (fset in1 .pwrStatusEntering 1) (.fm 1) .pwr 0 0x050
      (wordWith (fset in1 .pwrStatusEntering 1) .pwr 0 0x050 [(.pwrCtrlTarget, 0, 1)]) :=
  ⟨writes_of (by decide +kernel), writes_of (by decide +kernel), writes_of (by decide +kernel), writes_of (by decide +kernel)⟩
theorem witness_ClusterResetRunsAndEnds : sesUp in1 1 = true ∧
    Writes in1 (.fm 1) .pwr 0 0x090
      (wordWith in1 .pwr 0 0x090 [(.pwrClusterResetCluster, 0, 255), (.pwrClusterResetGo, 0, 1)]) ∧
    fget in1 .pwrClusterResetBusy = 0 ∧ fget (fset in1 .pwrClusterResetBusy 1) .pwrClusterResetBusy = 1 ∧
    ({ in1 with resetting := [(255, [])] } : State).resetting = (255, []) :: [] ∧ ∀ i, i < 4 → pcSt in1 (255 * 4 + i) ≠ pcFrozen :=
  ⟨by decide, writes_of (by decide +kernel), by decide, by decide, rfl, by decide⟩
theorem witness_PitchCountsAndChecksTheTimebase : act.tb.running = true ∧
    fget (fset act .pitchAlignHoldover 1) .pitchAlignHoldover = 1 ∧
    100 ≤ ({ act with tb := { good := 100 } } : State).tb.good ∧
    (act.boot.phase ≠ .auxOnly ∧ act.boot.phase ≠ .tripped ∧ act.boot.phase ≠ .dead) ∧
    fget act .pitchAlignHoldover ≠ 1 := by decide

/-- The second of a pair that aligns by pulse (1) or marker (2). -/
def aligning (m : Nat) : State := fset (fset (fset (fset (fset act .belayStatusRole roleSecond) .belayStatusState bsInSync)
  .belayGroupsUp 1 0 0) .pwrStatusRung 0) .pitchAlignMode m

theorem witness_TheSecondAligns : aligns (aligning 1) 1 = true ∧ aligns (aligning 2) 2 = true ∧
    1000 < (-1001 : Int).natAbs ∧ (aligning 1).tb.stepDue = false ∧ (aligning 2).tb.count ≤ (aligning 2).tb.count ∧
    (aligning 2).tb.count < 1 := by decide

/-! ### Hypotheses of the statements: memory controllers, RAS -/

def pcWith (f : PcState → PcState) (s : State) : State := { s with pcs := [(3, f {})] }

/-- One read of level 0 for bank queue 2 (rank 0), row 9, line 0. -/
def entry0 : PcEntry := { id := 1, write := false, line := 0, bankq := 2, row := 9, level := 0, cls := none, part := none, hint := 0 }

def queued1 : State := pcWith (fun u => { u with entries := [entry0] }) act
def frozen3 (f : PcState → PcState) : State := pcWith f (fset in1 .pcStateState pcFrozen 3)

/-- A host's read of partition 0 at an unheld address of PC 3. -/
def hostReq : Req := { kind := .read, p := 0, src := .host 0, dpa := 0x6000 }

theorem witness_TagLimitIgnoresBadValues : (0x401#11 : BitVec 11).toNat = 0x401 ∧ cfgOpen ho 0 0 = true ∧
    (cfgOf ho 0).inReset = none ∧ (0x400#11 : BitVec 11).toNat ≤ 0x400 ∧ (0x400#11 : BitVec 11) ≠ 0 := by decide

/-- A snapshot extent that partition 0 holds, with its versions. -/
def snapped (s : State) : State :=
  { s with exts := [{ ext0 with attr := { sharing := 2 } }], snaps := [{ base := 0, newest := 2 }] }

theorem witness_SnapResultsMeanWhatTheySay : (∀ e ∈ (snapped ho).exts, e.attr.sharing = 2 →
      ∃ x, snapOf (snapped ho) e.base = some x) ∧
    snapResult (snapped ho) 0 snOpen 1 0 = snNotHeld ∧ snapResult hx 0 snOpen 0 0 = snNotSnapshot ∧
    snapResult (snapped ho) 0 snOpen 0 7 = snNoVersion ∧ snapResult (snapped ho) 0 snOpen 0 2 ≠ snNoVersion ∧
    (snapped ho).exts.find? (fun e => decide (e.base = 0) && served e 0) =
      some { ext0 with attr := { sharing := 2 } } ∧ snapOf (snapped ho) 0 = some { base := 0, newest := 2 } := by
  refine ⟨?_, by decide⟩
  intro e he _
  simp only [snapped, List.mem_cons, List.not_mem_nil, or_false] at he
  subst he
  exact ⟨_, rfl⟩
theorem witness_TemperatureReadsSetRefreshAndThrottle : running act = true ∧ act.fieldsFit = true ∧ 104 < 105 ∧
    105 ≤ 105 ∧ fcur act .pcCfgRetrainDelta 3 ≤ (if 90 < fget act .pcTempTempTrained 3
          then fget act .pcTempTempTrained 3 - 90 else 90 - fget act .pcTempTempTrained 3) ∧
    (pcOf act 3).retrainDue = false ∧ pcSt act 3 ≠ pcFailed := by decide
theorem witness_TemperatureReadsSetRefreshAndThrottle_queue : running queued1 = true ∧ queued1.fieldsFit = true ∧
    levelZeroWaits queued1 3 1 = false ∧ (pcOf act 3).entries = [] ∧ entry0 ∈ (pcOf queued1 3).entries ∧
    pcSt queued1 3 = pcRun ∧ selfRefreshing queued1 = false ∧ (pcOf queued1 3).held = [] ∧ (pcOf queued1 3).due = [] ∧
    (pcOf queued1 3).trr = [] ∧ pickNext queued1 3 = some (2, entry0) ∧ ahas (pcOf queued1 3).openRows 2 = false ∧
    (pcOf (pcWith (fun u => { u with heldBack := [hostReq] }) act) 3).heldBack = [hostReq] ∧
    hostReq.src = .host 0 ∧ hostReq.kind = .read := by decide +kernel
theorem witness_ControllersScheduleTheirQueues : running queued1 = true ∧ pcSt queued1 3 = pcRun ∧
    (fget queued1 .pcStateRanksPd 3).testBit 0 = false ∧ levelZeroWaits queued1 3 0 = true ∧
    aget (pcOf queued1 3).postponed 0 0 < 4 ∧
    4 ≤ aget (pcOf (pcWith (fun u => { u with entries := [entry0], postponed := [(0, 4)] }) act) 3).postponed 0 0 ∧
    levelZeroWaits queued1 3 1 = false ∧ pcSt queued1 3 ≠ pcFailed ∧ selfRefreshing queued1 = false ∧
    (pcOf queued1 3).held = [] ∧ (pcOf (pcWith (fun u => { u with due := [1] }) act) 3).due = [1] ∧
    (pcOf (pcWith (fun u => { u with trr := [(2, 9)] }) act) 3).trr = [(2, 9)] ∧
    (pcOf queued1 3).due = [] ∧ (pcOf queued1 3).trr = [] ∧ pickNext queued1 3 = some (2, entry0) ∧
    ahas (pcOf queued1 3).openRows 2 = false ∧ ∀ e ∈ (pcOf queued1 3).entries, e.bankq % 2 ≠ 1 := by decide
theorem witness_ControllersScheduleTheirQueues_rows : (∀ row, row = 9 ∨ row = 8 →
      pickNext (pcWith (fun u => { u with entries := [entry0], openRows := [(2, row)] }) act) 3 = some (2, entry0)) ∧
    (pcOf (pcWith (fun u => { u with heldBack := [hostReq] }) act) 3).heldBack = [hostReq] ∧
    heldExt act hostReq.p hostReq.dpa = none := by
  refine ⟨?_, by decide +kernel⟩
  rintro row (rfl | rfl) <;> decide
theorem witness_FreezesHoldAndEnd : running act = true ∧ pcSt act 3 ≠ pcFailed ∧ selfRefreshing act = false ∧
    fget act .pcStateState 3 ≠ pcFrozen ∧ fget (frozen3 id) .pcStateState 3 = pcFrozen ∧
    (pcOf (frozen3 id) 3).repairing = false ∧ (pcOf (frozen3 id) 3).held = [] ∧ sesUp (frozen3 id) 1 = true ∧
    (pcOf (frozen3 fun u => { u with dropped := [96] }) 3).dropped.length ≤ 4096 ∧ (frozen3 id).ras.busy = none ∧
    pprLeft (frozen3 id) 3 (bankqOf (freezeLoc (frozen3 id) 3)) ≠ 0 ∧
    (pcOf (frozen3 fun u => { u with repairing := true }) 3).repairing = true ∧ twinUp (frozen3 id) = false ∧
    (pcOf (frozen3 fun u => { u with held := [hostReq] }) 3).held = [hostReq] ∧ pcOfAddr hostReq.dpa = 3 ∧
    homeSt (frozen3 fun u => { u with held := [hostReq] }) hostReq.dpa = .hold := by decide +kernel
theorem witness_FreezesHoldAndEnd_writes :
    4096 < (pcOf (frozen3 fun u => { u with dropped := List.range 4097 }) 3).dropped.length ∧
    ∀ n, n = 1 ∨ n = 2 ∨ n = 3 →
      Writes (frozen3 id) (.fm 1) .pc 3 0x060 (wordWith (frozen3 id) .pc 3 0x060 [(.pcFreezeActAction, 0, n)]) := by
  refine ⟨by decide +kernel, ?_⟩
  rintro n (rfl | rfl | rfl) <;> exact writes_of (by decide +kernel)

def training3 (own : Bool) : State :=
  fset (hupd in1 .pc 3 fun h => { h with quiesced := true }) .pcTrainAddrRow (if own then 0xFFFF else 5) 3

theorem witness_TrainingAndQuiesceFollowTheirRules :
    (pcOf (pcWith (fun u => { u with retrainDue := true }) act) 3).retrainDue = true ∧
    clusterRetrains (pcWith (fun u => { u with retrainDue := true }) act) 3 = false ∧ pcSt act 3 = pcRun ∧
    (pcOf (pcWith (fun u => { u with retraining := true }) act) 3).retraining = true ∧
    (pcWith (fun u => { u with retraining := true }) act).fieldsFit = true ∧ sesUp (training3 true) 1 = true ∧
    (training3 true).boot.phase ≠ .starting ∧ (hget (training3 true) .pc 3).quiesced = true ∧
    fget (training3 true) .pcTrainAddrRow 3 = 0xFFFF ∧ fget (training3 true) .pcTrainAddrRows 3 ≤ 1 ∧
    ¬(fget (training3 false) .pcTrainAddrRow 3 = 0xFFFF ∧ fget (training3 false) .pcTrainAddrRows 3 ≤ 1) ∧
    roleOf (training3 false) 1 ≠ 3 ∧ (hget in1 .pc 3).quiesced = false ∧ (hget in1 .pc 3).frozen = false ∧
    (pcOf (pcWith (fun u => { u with training := true }) act) 3).training = true ∧
    (hget in1 .pc 3).quiesce ≠ true ∧ (pcOf in1 3).held = [] ∧ fget in1 .pcStateState 3 = pcRun := by decide
theorem witness_TrainingAndQuiesceFollowTheirRules_writes :
    Writes (training3 true) (.fm 1) .pc 3 0x078 ((0#64 : W64) ||| 1#64).toNat ∧
    Writes (training3 false) (.fm 1) .pc 3 0x078 ((0#64 : W64) ||| 1#64).toNat ∧
    Writes in1 (.fm 1) .pc 3 0x078 ((0#64 : W64) ||| 1#64).toNat ∧ Writes in1 (.fm 1) .pc 3 0x008 (8 * flag true) ∧
    Writes (frozen3 id) (.fm 1) .pc 3 0x008 (8 * flag true) :=
  ⟨writes_of (by decide +kernel), writes_of (by decide +kernel), writes_of (by decide +kernel),
    writes_of (by decide +kernel), writes_of (by decide +kernel)⟩

/-- A retirement in progress. -/
def retiring3 (op : Nat) : State := { act with ras := { busy := some ⟨op, 3, 1, 12, 65535, false⟩ } }

/-- A CE_LINE record under the row policy's threshold, and AUTO_RETIRE on. -/
def ceLine : State := { fset (fset act .rasCfgAutoRetire 1) .rasCfgCeRetire 1 with
  ras := { ce := [(96, 4)] },
  cairn := { log := [{ ts := 0, block := blkCode .ras, inst := 0, event := (Evt.rasCeLine).code, severity := 1, seq := 5,
                       payload := leBytes 8 96 }] } }

theorem witness_ScrubbingAndRetirementProceed : running act = true ∧ sesUp in1 1 = true ∧ in1.ras.busy = none ∧
    fget in1 .pcStateState 3 ≠ pcFailed ∧ fget in1 .pcStateState 3 ≠ pcFrozen ∧
    fget (fset in1 .pcStateState pcFailed 3) .pcStateState 3 = pcFailed ∧ (pcOf in1 3).held = [] ∧
    sparesLeft in1 3 ≠ 0 ∧ pprLeft in1 3 31 ≠ 0 ∧ (retiring3 1).ras.busy = some ⟨1, 3, 1, 12, 65535, false⟩ ∧
    (pcOf (retiring3 1) 3).held = [] ∧ fget ceLine .rasCfgAutoRetire = 1 ∧ ceLine.ras.busy = none ∧
    (∃ r, recOfSeq ceLine 5 = some r ∧ r.block = blkCode .ras ∧ r.event = (Evt.rasCeLine).code ∧
      leAt r.payload 0 8 = 96) ∧ fget ceLine .rasCfgCeRetire ≤ aget ceLine.ras.ce 96 0 ∧ ceLine.ras.retired = [] ∧
    fget ceLine .pcStateState (pcOfAddr (96 * 64)) ≠ pcFailed ∧ sparesLeft ceLine (pcOfAddr (96 * 64)) ≠ 0 := by
  refine ⟨by decide, by decide, by decide, by decide, by decide, by decide, by decide, by decide, by decide, by decide,
    by decide, by decide, by decide, ⟨_, rfl, by decide⟩, by decide⟩
theorem witness_ScrubbingAndRetirementProceed_turn :
    scrubTurn (fset (fset { act with tb := { count := 1021 } } .rasCfgScrubEn 1) .rasScrubStatusK 1024) 3 = true := by
  decide
theorem witness_ScrubbingAndRetirementProceed_writes : (∀ op, op = 1 ∨ op = 2 → Writes in1 (.fm 1) .ras 0 0x078
      (wordWith in1 .ras 0 0x078 [(.rasRetireCmdOp, 0, op), (.rasRetireCmdPc, 0, 3), (.rasRetireCmdRank, 0, 1),
        (.rasRetireCmdBank, 0, 12), (.rasRetireCmdRow, 0, 65535)])) ∧
    Writes in1 (.fm 1) .ras 0 0x078 (wordWith in1 .ras 0 0x078 [(.rasRetireCmdOp, 0, 3), (.rasRetireCmdPc, 0, 3),
      (.rasRetireCmdRank, 0, 1), (.rasRetireCmdBank, 0, 15), (.rasRetireCmdRow, 0, 0)]) ∧
    Writes in1 (.fm 1) .ras 0 0x078 (wordWith in1 .ras 0 0x078 [(.rasRetireCmdOp, 0, 4), (.rasRetireCmdPc, 0, 3),
      (.rasRetireCmdRank, 0, 0), (.rasRetireCmdBank, 0, 0), (.rasRetireCmdRow, 0, 0)]) := by
  refine ⟨?_, writes_of (by decide +kernel), writes_of (by decide +kernel)⟩
  rintro op (rfl | rfl) <;> exact writes_of (by decide +kernel)

/-- A region test in progress in cluster 255. -/
def testing (bank region : Nat) : State :=
  fset (fset (fset act .storeBgtestPhase 1 255) .storeBgtestBank bank 255) .storeBgtestRegion region 255

theorem witness_SramErrorsAndStoreTestsAct : twinUp act = false ∧ fget (testing 2 0) .storeBgtestPhase 255 ≠ 0 ∧
    fget (testing 2 0) .storeRetainInRetention 255 = 0 ∧ fget (testing 2 0) .storeBgtestBank 255 < 3 ∧
    3 ≤ fget (testing 3 2047) .storeBgtestBank 255 ∧
    fget (fset (testing 3 0) .storeRepairSparesLeft 0 255) .storeRepairSparesLeft 255 / 4 ^ 3 % 4 = 0 ∧
    fget (testing 2 0) .storeRepairSparesLeft 255 / 4 ^ 2 % 4 ≠ 0 ∧ (testing 3 0).fieldsFit = true ∧
    (∀ i, i < 4 → (pcOf (testing 3 0) (255 * 4 + i)).held = []) ∧ SramSite.blockCache 0 ≠ .corrected := by decide

/-- Two masters write and read one line of a bank; the mover has stalled 16 cycles. -/
def contested : BankState :=
  { waiting := [⟨.groupA, 5, 0, fullMask, 0⟩, ⟨.expander, 5, 0, 0, 0⟩, ⟨.mover, 5, 1, 1, 16⟩] }

theorem witness_SramErrorsAndStoreTestsAct_banks : promoted contested 0 = some .mover ∧
    bankAsk contested .mover = some ⟨.mover, 5, 1, 1, 16⟩ ∧
    granted contested 0 = [⟨.mover, 5, 1, 1, 16⟩, ⟨.groupA, 5, 0, fullMask, 0⟩] ∧
    (⟨.expander, 5, 0, 0, 0⟩ : BankReq) ∈ contested.waiting ∧ (⟨.expander, 5, 0, 0, 0⟩ : BankReq) ∉ granted contested 0 ∧
    granted { contested with waiting := contested.waiting.take 2 } 0 =
      [⟨.groupA, 5, 0, fullMask, 0⟩, ⟨.expander, 5, 0, 0, 0⟩] := by decide +kernel

def expressRec : CRec := { ts := 1, block := blkCode .ras, inst := 0, event := 1, severity := 3 }

theorem witness_CairnCommitsAndReads : expressSev expressRec.severity = true ∧
    ({ act with cairn := { slots := [(srcKey (blkCode .ras) 0, expressRec)] } } : State).cairn.slots.find?
      (fun e => decide (e.1 = srcKey (blkCode .ras) 0)) = some (srcKey (blkCode .ras) 0, expressRec) ∧
    fget act .cairnHeadNextSeq < ringRecords ∧ twinUp (aligning 1) = true ∧ sesUp op1 1 = true ∧ op1.fieldsFit = true ∧
    Writes op1 (.fm 1) .cairn 0 0x060 (wordWith op1 .cairn 0 0x060 [(.cairnReadSeqSeq, 0, 2 ^ 40 - 1)]) :=
  ⟨by decide, by decide, by decide, by decide +kernel, by decide, by decide, writes_of (by decide +kernel)⟩

/-! ### Hypotheses of the statements: hosts and heads -/

def hpois (s : State) : State := { s with poison := [0] }
def hmask : BitVec 64 := 0xFF
def hreq : Req := { kind := .write, p := 0, src := .host 0, dpa := 0, data := 5, mask := hmask }

/-- What HostReadsAndWritesReachMemory asks at line 0 of hx. -/
def readsMemory (s : State) : Bool :=
  s.memoriesWf && decide (s.boot.tiered = false) && !twinUp s && decide (homeSt s 0 = .serve) && !needsExpander s 0 &&
    headOpen s 0 && decide (headStop s 0 0 = none) && decide (bRole s ≠ roleFenced) && !s.belay.deciding &&
    decide (heldExt s 0 0 = some ext0) && decide ((pcOf s 0).held = []) &&
    queueRoom s 0 (levelOf s 0 (some 0) (classOf s 0)) (classOf s 0) && decide (s.damage = []) &&
    !lineUnsynced s 0 && (List.range 64).all fun i => !inWindow s 0 i

theorem witness_HostReadsAndWritesReachMemory : readsMemory hx = true ∧ readsMemory (hpois hx) = true ∧
    hx.poison.contains 0 = false ∧ (hpois hx).poison.contains 0 = true ∧ ext0.attr.sharing = 0 ∧ ext0.unreadable = false ∧
    (pcOf hx 0).partials = [] ∧ hmask ≠ fullMask ∧
    (pcOf { hx with pcs := [(0, { partials := [hreq] })] } 0).partials = [hreq] ∧ hreq.dpa = 0 := by decide +kernel
theorem witness_UnservedHostRequestsAreAnswered : headOpen hx 0 = true ∧ carried hx 1 0 = false ∧
    headStop hx 0 0 = none ∧ hx.belay.deciding = false ∧ heldExt hx 0 (2 ^ 28) = none ∧ forwardsAll hx = false ∧
    bRole hx ≠ roleFenced ∧ bRole (fset hx .belayStatusRole roleFenced) = roleFenced ∧
    headStop (fset hx .belayStatusRole roleFenced) 0 0 = none := by decide +kernel

/-- A coherent shared extent with one sharer of its line 0, or with a snoop of it. -/
def sharedE : Extent := { ext0 with attr := { sharing := 1, owner := 1 }, tag := 7 }
def sharedLine : State :=
  { ho with exts := [sharedE], dir := [{ line := 0, exclusive := false, sharers := [sharerId 0 0] }] }
def snoop0 (owed : List Nat) : DirTrans := { line := 0, owed := owed, kind := .inv, req := none, victim := true }

theorem witness_UnservedHostRequestsAreAnswered_eviction : headOpen sharedLine 0 = true ∧ carried sharedLine 0 0 = true ∧
    forwardsAll sharedLine = false ∧
    heldExt sharedLine 0 0 = some sharedE ∧ biPending sharedLine 0 = false ∧
    dirOf sharedLine 0 = some { line := 0, exclusive := false, sharers := [sharerId 0 0] } := by decide
theorem witness_BackInvalidatesAreAnswered : linkUp ho 0 = true ∧
    ({ ho with trans := [snoop0 [sharerId 0 0, 5]] } : State).trans.reverse.find?
      (fun x => decide (x.line = lineOf 0) && x.owed.contains (sharerId 0 0)) = some (snoop0 [sharerId 0 0, 5]) ∧
    rem (snoop0 [sharerId 0 0, 5]).owed (sharerId 0 0) ≠ [] ∧ (snoop0 [sharerId 0 0]).owed = [sharerId 0 0] := by decide

/-- Head 15 is out of PERST# and trains. -/
def training15 (s : State) : State := { s with heads := [(15, { ltssm := .training, perst := false })] }

theorem witness_LinksTrainAndGoDown : running (training15 act) = true ∧ (headOf (training15 act) 15).perst = false ∧
    fget (training15 act) .portLinkCtrlDisable 15 = 0 ∧ (headOf (training15 act) 15).ltssm ≠ .disabled ∧
    1 ∈ [1, 2, 4, 8, 16] ∧ fget (training15 act) .portLinkStatusCapped64 15 = 0 ∧ linkUp ho 0 = true ∧
    widestWidth (0xFFFE#16 : BitVec 16).toNat 16 ≠ 0 ∧
    widestWidth (0x0000#16 : BitVec 16).toNat (fget ho .portLinkStatusWidth 0) = 0 ∧ carried ho 0 0 = true ∧ (cfgOf ho 0).inReset = none ∧
    (∀ g ∈ boundHeads ho 0, g = 0 ∨ linkUp ho g = false) ∧ sesUp in1 1 = true ∧ in1.fieldsFit = true := by decide
theorem witness_LinksTrainAndGoDown_writes :
    Writes (training15 in1) (.fm 1) .port 15 0x050 (wordWith (training15 in1) .port 15 0x050 [(.portLinkCtrlRetrain, 0, 1)]) ∧
    Writes in1 (.fm 1) .port 15 0x050 (wordWith in1 .port 15 0x050 [(.portLinkCtrlDisable, 0, 1)]) ∧
    (let s : State := { fset in1 .portLinkCtrlDisable 1 15 with heads := [(15, { ltssm := .disabled, perst := false })] };
     Writes s (.fm 1) .port 15 0x050 (wordWith s .port 15 0x050 [(.portLinkCtrlDisable, 0, 0)]) ∧
     fget s .portLinkCtrlDisable 15 = 1 ∧ (headOf s 15).ltssm = .disabled) :=
  ⟨writes_of (by decide +kernel), writes_of (by decide +kernel), writes_of (by decide +kernel), by decide, by decide⟩
theorem witness_LinkErrorsAreLogged : LinkErr.replay ≠ .cxlMemCrc ∧ linkUp ho 0 = true ∧
    aerMasked (cfgOf ho 16) (.linkCorrectable .replay) = false ∧
    TlpErr.malformed ≠ .unsupportedNonPosted := by decide

def inReset (k : ResetKind) (s : State) : State := { s with cfgs := [(0, { mse := true, inReset := some k })] }
def vecPending : State :=
  { ho with cfgs := [(0, { mse := true, bme := true, msix := [(255, { masked := true, pending := true })] })] }

theorem witness_ConfigurationWritesTakeEffect : cfgOpen ho 0 0 = true ∧ (cfgOf ho 0).inReset = none ∧
    cfgOpen (inReset .flr ho) 0 0 = true ∧ (cfgOf (inReset .flr ho) 0).inReset ≠ none ∧ ioOpen ho 0 0 = true ∧
    (msixOf vecPending 0 255).pending = true ∧ canMaster vecPending 0 = true ∧ (cfgOf vecPending 0).funcMask = false := by
  decide
theorem witness_PartitionResetsClearAndRestore : cfgOpen ho 0 0 = true ∧ (cfgOf ho 0).inReset = none ∧
    (cfgOf (inReset .flr ho) 0).inReset = some .flr ∧ (cfgOf (inReset .cxl ho) 0).inReset = some .cxl ∧
    pState (inReset .cxl ho) 0 ≠ pDisabled := by decide

/-! ### Hypotheses of the statements: jobs and steps -/

/-- Tag 1 held for a use. -/
def tagged (u : TagUse) (disc : Bool) (s : State) : State :=
  { s with cfgs := [(0, { mse := true, bme := true, tags := [⟨1, u, 0, disc⟩] })] }

/-- A descriptor of an opcode: operands on lines 0 to 5 of device memory, window 1 where it names one. -/
def desc0 (op : Nat) : Desc :=
  { opcode := op, ops := [0, 64, 128, 192, 256, 320], types := List.replicate 6 0x12, n := 1, m := 1, p0 := 1,
    completion := 0x1000 }
/-- Job 4 of ring 7, with its operands delivered. -/
def job0 (op : Nat) : Job :=
  { p := 0, ring := 7, idx := 4, seq := 4, desc := desc0 op, st := .running, asked := [0, 1, 2, 3, 4, 5, 1024],
    got := [0, 1, 2, 3, 4, 5, 1024].map fun l => (l, 0) }

def withJob (j : Job) (s : State) : State := fset { s with jobs := [j] } .jobRingCtrlEnable 1 0 7

theorem witness_CompletionsServeTheirTags : heldTag ho 0 1 = none ∧
    heldTag (tagged .hint true ho) 0 1 = some ⟨1, .hint, 0, true⟩ ∧
    heldTag (tagged (.staging 7 4 0) false (withJob (job0 2) ho)) 0 1 = some ⟨1, .staging 7 4 0, 0, false⟩ ∧
    jobOf (tagged (.staging 7 4 0) false (withJob (job0 2) ho)) 0 7 4 = some (job0 2) ∧
    (job0 2).status = 0 ∧ heldTag (tagged (.descriptor 7) false ho) 0 1 = some ⟨1, .descriptor 7, 0, false⟩ ∧
    (cfgOf (tagged .hint false ho) 0).tags.find? (fun t => decide (t.use = .hint) && !t.discard) =
      some ⟨1, .hint, 0, false⟩ ∧ hintsOf (tagged .hint false ho) 0 = [] ∧
    hintBad (hintEntryOf [6]) = false ∧ hintBad (hintEntryOf [7]) = true ∧ hintBad (hintEntryOf [0]) = true := by decide +kernel

/-- Ring 7 runs and fetches from host memory. -/
def fetching7 : State := { fset (withJob (job0 2) ho) .jobRingCtrlHost 1 0 7 with rings := [(7, { fetching := true })] }

/-- A FILL of one INT32. -/
def fillDesc : List Byte :=
  bytesOf6 ([0x01, 0, 0, 0, 0, 0, 0, 0, 0x12] ++ List.replicate 55 0 ++ [1] ++ List.replicate 63 0)
where bytesOf6 (l : List Nat) : List Byte := l.map (BitVec.ofNat 8)

theorem witness_RingsFetchAndHalt : ioOpen fetching7 0 0 = true ∧ ringOn fetching7 0 7 = true ∧
    (16 + 2 ^ 32 - (ringOf fetching7 0 7).consumed) % 2 ^ 32 ≤ ringSize fetching7 0 7 ∧
    ringSize fetching7 0 7 < (17 + 2 ^ 32 - (ringOf fetching7 0 7).consumed) % 2 ^ 32 ∧
    (ringOf fetching7 0 7).fetching = true ∧ fget fetching7 .jobRingCtrlHost 0 7 = 1 ∧ bRole fetching7 ≠ roleSecond ∧
    fetching7.fieldsFit = true ∧ fget fetching7 .jobRingCtrlEnable 0 7 = 1 ∧ fget ho .jobRingCtrlEnable 0 7 = 0 := by decide
theorem witness_RingsFetchAndHalt_descriptor : descStatus ((fillDesc ++ List.replicate 128 0).take 128) = stOk := by
  decide +kernel
theorem witness_RingsFetchAndHalt_writes :
    Writes ho (.host 0 0) .job 0 (0x108 + 32 * 7) (wordWith ho .job 0 (0x108 + 32 * 7) [(.jobRingCtrlEnable, 7, flag true)]) ∧
    Writes fetching7 (.host 0 0) .job 0 (0x108 + 32 * 7)
      (wordWith fetching7 .job 0 (0x108 + 32 * 7) [(.jobRingCtrlEnable, 7, flag false)]) :=
  ⟨writes_of (by decide +kernel), writes_of (by decide +kernel)⟩

def fetchedJob : Job := { job0 2 with st := .fetched }
def endedJob : Job := { job0 2 with outcome := some {}, cut := jobWork (job0 2) }

theorem witness_JobsStartAndComplete : jobOf (withJob fetchedJob ho) 0 7 4 = some fetchedJob ∧
    mayStart (withJob fetchedJob ho) fetchedJob = true ∧ writesDevice fetchedJob.desc = true ∧
    mayStart (fset (withJob fetchedJob ho) .belayStatusRole roleFenced) fetchedJob = true ∧
    jobOf (withJob endedJob ho) 0 7 4 = some endedJob ∧ jobEnds (withJob endedJob ho) endedJob = true ∧
    endedJob.desc.completion ≠ 0 ∧ endedJob.foreign = false ∧ endedJob.ending = false ∧
    jobEnds (withJob { endedJob with ending := true } ho) { endedJob with ending := true } = true := by decide +kernel

/-- A step of job 4 on a core. -/
def step0 (core : Nat) (st : StepSt) : Step :=
  { p := 0, ring := 7, idx := 4, num := 0, lo := 0, hi := 1, home := 0, core := core, st := st }

def stepped (j : Job) (l : List Step) : State := { withJob j ho with steps := l }

theorem witness_StepsRunThroughTheirLives : jobOf (stepped (job0 2) []) 0 7 4 = some (job0 2) ∧
    (job0 2).cut < jobWork (job0 2) ∧ (stepped (job0 2) []).steps = [] ∧
    clusterOut (stepped (job0 2) []) (stepHome (stepped (job0 2) []) (job0 2) (job0 2).cut 9) = false ∧
    placeCore (stepped (job0 2) []) (stepHome (stepped (job0 2) []) (job0 2) (job0 2).cut 9) = some 0 ∧ 10239 < 10240 ∧
    coreIdle (stepped (job0 2) [step0 10239 .queued]) 10239 = true ∧ clusterOut ho (coreCluster 10239) = false ∧
    fget ho .pwrStatusRung = 0 ∧ deque (stepped (job0 2) [step0 10239 .queued]) 10239 = [step0 10239 .queued] ∧
    jobOfStep (stepped (job0 2) [step0 10239 .queued]) (step0 10239 .queued) = some (job0 2) ∧
    jobWait (stepped (job0 2) [step0 10239 .queued]) (job0 2) = none ∧
    granUsed (stepped (job0 2) [step0 10239 .queued]) (coreGroup 10239) + min (max 1 1) stepGranules ≤ groupGranules := by
  decide +kernel
theorem witness_StepsRunThroughTheirLives_states : (∀ st : StepSt, st ∈ [StepSt.waiting, .parked, .running] →
      stepAt (stepped (job0 2) [step0 0 st]) 0 7 4 0 = some (step0 0 st) ∧
      (jobOfStep (stepped (job0 2) [step0 0 st]) (step0 0 st)).bind (jobWait (stepped (job0 2) [step0 0 st])) = none ∧
      (deque (stepped (job0 2) [step0 0 st]) 0).length < 64) ∧
    (step0 0 .running).overrun = false ∧ (step0 0 .running).trips = 0 ∧
    jobOf (stepped { job0 2 with status := stCancelled } [step0 0 .running]) 0 7 4 = some { job0 2 with status := stCancelled } ∧
    jobOf (stepped endedJob [step0 0 .running]) 0 7 4 = some endedJob ∧ endedJob.outcome.isSome = true ∧
    (endedJob.twin && twinUp (stepped endedJob [step0 0 .running])) = false ∧
    bRole (stepped endedJob [step0 0 .running]) ≠ roleFenced ∧ (stepped endedJob [step0 0 .running]).belay.deciding = false ∧
    (commitWaits (stepped endedJob [step0 0 .running]) endedJob (step0 0 .running)).isNone = true ∧
    bRole (fset (stepped endedJob [step0 0 .running]) .belayStatusRole roleFenced) = roleFenced ∧
    writesDevice endedJob.desc = true ∧ jobOf (stepped { job0 2 with status := stCancelled } [{ step0 0 .running with trips := 1 }]) 0 7 4 =
      some { job0 2 with status := stCancelled } := by decide +kernel

/-- Cluster 1 has a step queued on core 40, and cores take work of their neighbours only. -/
def lender : State := fset (fset (stepped (job0 2) [step0 40 .queued]) .pitchSchedCfgStealEn 0) .pitchSchedCfgNeighEn 1

theorem witness_StepsRunThroughTheirLives_steal : coreIdle lender 0 = true ∧ deque lender 0 = [] ∧
    clusterOut lender (coreCluster 0) = false ∧ fcur lender .pitchSchedCfgStealEn ≠ 1 ∧
    fcur lender .pitchSchedCfgNeighEn = 1 ∧ neighbourVictim lender 0 = some 40 := by decide +kernel

/-- Window 1 of partition 0. -/
def windowed : State := { hx with windows := [⟨0, 1, 0x10000, 1, 0, none⟩] }

/-- Operands are there for job `j`. -/
def readyB (s : State) (j : Job) : Bool :=
  decide (windowStatus s j = stOk) && (mapStops s j).isNone &&
    !hitsNeighbours j.desc ((neighborRange j).map (·.size)).sum && (neighborRange j ++ inRanges s j).all fun r =>
    decide (r.host = false) && (rangeLines r).all fun l => j.asked.contains l && ahas j.got l

/-- A MAP job whose program, of one mov, has been delivered. -/
def mapJob : Job := { job0 0x50 with got := [(0, 0x0101), (1, 0x60000000), (2, 0), (3, 0), (4, 0), (5, 0), (1024, 0)] }

theorem witness_OperatorsComputeTheirResults : (∀ op ∈ [0x01, 0x02, 0x03, 0x04, 0x10, 0x11, 0x12, 0x13, 0x20, 0x21, 0x22,
      0x23, 0x24, 0x25, 0x30, 0x31, 0x40, 0x41, 0x42], readyB hx (job0 op) = true) ∧ readyB hx mapJob = true ∧
    (∀ op ∈ [0x43, 0x44], readyB windowed (job0 op) = true) ∧
    (∀ op ∈ [0x02, 0x40, 0x50], inRanges hx (job0 op) ≠ []) ∧ jobOf (withJob (job0 2) hx) 0 7 4 = some (job0 2) := by
  decide +kernel

/-- COMPACT and its kin over block 0 of an extent with a tensor descriptor. -/
def codable (op n : Nat) : State × Job :=
  let j := { job0 op with desc := { (job0 op).desc with n := n }, asked := [0] }
  ({ withJob j ho with exts := [{ ext0 with attr := { elem := 1 } }] }, j)

theorem witness_OperatorsComputeTheirResults_blocks :
    blocksFail (codable 0x60 8192).1 (codable 0x60 8192).2 = none ∧ secondUp (codable 0x60 8192).1 = false ∧
    (codable 0x60 8192).2.asked ≠ [] ∧ (∀ b ∈ (codable 0x60 8192).2.asked, b ∉ (codable 0x60 8192).1.compactQ) ∧
    (jobBlocks hx { (codable 0x60 8192).2 with asked := [] }).filter (mayCode hx) = [] ∧
    (let s := { (codable 0x61 8192).1 with index := [(0, idxSeal ⟨1, 0, 0, false, 0, 0⟩ 0)] };
     let j := (codable 0x61 8192).2;
     let bs := blocksOf j ((jobBlocks s j).filter fun b => mayCode s b && isCoded s b);
     bs = [0] ∧ blocksServe s bs = true ∧ ∀ b ∈ bs, isCoded (bs.foldl expandOne (takeBlocks s j bs)) b = false) ∧
    (let s := { (codable 0x62 8192).1 with index := [(0, idxSeal ⟨1, 0, 0, false, 0, 0⟩ 0)] };
     let bs := (jobBlocks s (codable 0x62 8192).2).filter (isCoded s);
     bs = [0] ∧ blocksServe s bs = true ∧ twinUp s = false) := by
  decide +kernel
theorem witness_SetOperatorsAreExact : [1, 3, 7].Pairwise (· < ·) ∧ [3, 9].Pairwise (· < ·) := by decide

/-- A step that waits for the twin's digest. -/
def waiting (own : Option W64) (m : Nat) : Step := { step0 0 .finished with digest := own, mismatches := m }

theorem witness_DigestsDecideTwinSteps : (∀ m, m < 3 →
      stepOfSeq (stepped (job0 2) [waiting (some 5) m]) 4 0 = some (waiting (some 5) m)) ∧
    stepOfSeq (stepped (job0 2) [waiting none 0]) 4 0 = some (waiting none 0) ∧
    fcur { stepped (job0 2) [waiting (some 5) 0] with tb := { count := 2 ^ 40 } } .pitchSchedCfgWatchdog ≤
      count { stepped (job0 2) [waiting (some 5) 0] with tb := { count := 2 ^ 40 } } - (waiting (some 5) 0).waitPitch := by
  decide

/-! ### Hypotheses of the statements: leases, snapshots, hints, the tiers, the slots, the pair -/

/-- The lease of partition 0 ends now; below a quarter; far off. -/
def leaseAt (n : Nat) (s : State) : State := { s with parts := [(0, { leaseExpiry := n })] }
def binding (heads : BitVec 16) (s : State) : State := { s with parts := [(0, { bindDue := some heads })] }

theorem witness_LeasesAndBindingsTakeEffect : ioOpen ho 0 0 = true ∧ pState ho 0 = pActive ∧ leaseOver ho 0 = false ∧
    pState (leaseAt 0 ho) 0 = pActive ∧ leaseOver (leaseAt 0 ho) 0 = true ∧ leaseIsLow (leaseAt 1 ho) 0 = true ∧
    pState (inState pOrphaned ho) 0 = pOrphaned ∧ pState (inState pReclaimed ho) 0 = pReclaimed ∧ twinUp ho = false ∧
    expiryDue (leaseAt 0 ho) 0 = false ∧ twinUp (leaseAt 0 (lead ho)) = true ∧ expiryDue (leaseAt 0 (lead ho)) 0 = false ∧
    leaseOver (leaseAt 0 (lead ho)) 0 = true ∧ bRole (leaseAt 0 (lead ho)) = roleLead ∧
    (partOf (binding 3 ho) 0).bindDue = some 3 ∧ ¬(unbinds (binding 3 ho) 0 3 = true ∧ holdsExtents (binding 3 ho) 0 = true) ∧
    (partOf (binding 0 ho) 0).bindDue = some 0 ∧ ¬(unbinds (binding 0 ho) 0 0 = true ∧ holdsExtents (binding 0 ho) 0 = true) ∧
    aget ho.belay.twinHeads 0 0 = 0 ∧ pState (inState pDisabled ho) 0 = pDisabled := by decide
theorem witness_LeasesAndBindingsTakeEffect_writes : ∀ s : State, s = ho ∨ s = leaseAt 0 ho ∨ s = inState pOrphaned ho ∨
      s = inState pReclaimed ho →
    Writes s (.host 0 0) .part 0 0x048 (wordWith s .part 0 0x048 [(.partLeaseRenew, 0, 1)]) := by
  rintro s (rfl | rfl | rfl | rfl) <;> exact writes_of (by decide +kernel)

/-- Partition 0 has an offer of two extents. -/
def offered : State :=
  { ho with exts := [{ ext0 with holders := [⟨0, .offered⟩] }, { ext0 with base := 4, holders := [⟨0, .offered⟩] }],
            parts := [(0, { leaseExpiry := 200000000, offers := [⟨[(0, 1), (4, 1)]⟩] })] }

theorem witness_MailboxCommandsAnswer : ioOpen offered 0 0 = true ∧ twinUp offered = false ∧ pState offered 0 ≠ pOrphaned ∧
    (partOf offered 0).offers = [⟨[(0, 1), (4, 1)]⟩] ∧ (partOf (foresee offered) 0).offers = [⟨[(0, 1), (4, 1)]⟩] ∧
    (([(0, 1), (4, 1)] : List GranRange).map (·.1)).Nodup ∧ (offered.exts.map (·.base)).Nodup ∧
    leaseOver offered 0 = false ∧ ioOpen hx 0 0 = true ∧ pState hx 0 ≠ pReclaimed ∧ leaseOver hx 0 = false ∧
    pState hx 0 ≠ pOrphaned ∧ twinUp hx = false ∧ (∀ e ∈ hx.exts, 1 ≤ e.len) ∧
    ioOpen (leaseAt 0 ho) 0 0 = true ∧ leaseOver (leaseAt 0 ho) 0 = true ∧
    releaseCode hx 0 [.active, .releasePending] true [(0, 1)] = (.success, [(0, 1)]) ∧
    ioOpen (inState pOrphaned hx) 0 0 = true ∧ pState (inState pOrphaned hx) 0 = pOrphaned ∧
    (heldExt (hpois hx) 0 0).isSome = true ∧ heldExt hx 0 (2 ^ 28) = none := by decide
theorem witness_MailboxCommandsAnswer_poison : Admits hi1 1 2 ∧ ioOpen hi1 0 0 = true ∧ readsMemory hx = true ∧
    ioOpen hx 0 0 = true := ⟨admits_of (by decide), by decide, by decide +kernel, by decide⟩

def reclaiming (s : State) : State := fset s .qosReclaimRunning 1 (qosCls 15)

theorem witness_GuaranteesKeepTheirSum : Admits op1 1 1 ∧ 15 + [255].length ≤ 16 ∧ guarSum op1 ≤ 28000 ∧
    ((List.range 16).map fun p => aget (newGuar 0 [255]) p (fget (fset op1 .qosGuarGbS 0 0) .qosGuarGbS p)).sum ≤ 28000 ∧
    28000 < ((List.range 16).map fun p => aget (newGuar 0 [255, 255]) p (fget op1 .qosGuarGbS p)).sum ∧
    guarSum op1 - fget op1 .qosGuarGbS 0 + 28000 ≤ 28000 ∧ 28000 < guarSum op1 - fget op1 .qosGuarGbS 0 + 28001 ∧
    fget (reclaiming op1) .qosReclaimRunning (qosCls 15) = 1 ∧ reclaimOver (reclaiming op1) 15 = true :=
  ⟨admits_of (by decide), by decide +kernel⟩
theorem witness_GuaranteesKeepTheirSum_writes :
    Writes op1 (.fm 1) .qos 0 0x048 (wordWith op1 .qos 0 0x048 [(.qosGuarGbS, 0, 28000)]) ∧
    Writes op1 (.fm 1) .qos 0 0x048 (wordWith op1 .qos 0 0x048 [(.qosGuarGbS, 0, 28001)]) ∧
    Writes op1 (.fm 1) .qos (qosCls 15) 0x058 (wordWith op1 .qos (qosCls 15) 0x058 [(.qosReclaimStart, 0, flag true)]) ∧
    Writes (reclaiming op1) (.fm 1) .qos (qosCls 15) 0x058
      (wordWith (reclaiming op1) .qos (qosCls 15) 0x058 [(.qosReclaimStart, 0, flag false)]) :=
  ⟨writes_of (by decide +kernel), writes_of (by decide +kernel), writes_of (by decide +kernel), writes_of (by decide +kernel)⟩

theorem witness_MailboxCommandsAnswer_clear : heldExt hx 0 0 = some ext0 ∧ ext0.attr.sharing = 0 ∧ hx.memoriesWf = true ∧
    hx.boot.tiered = false ∧ bRole hx ≠ roleFenced ∧ hx.belay.deciding = false ∧ homeSt hx 0 = .serve ∧
    needsExpander hx (blockOf 0) = false ∧ (pcOf hx (pcOfAddr 0)).held = [] ∧
    queueRoom hx (pcOfAddr 0) (levelOf hx (clusterOf 0) (some 0) (classOf hx 0)) (classOf hx 0) = true ∧
    ∀ i, i < 64 → inWindow hx 0 (0 + i) = false := by decide +kernel

/-- The publisher of a snapshot extent, without or with a draft. -/
def snapper (d : Option (List SavedBlock)) : State :=
  { ho with exts := [{ ext0 with attr := { sharing := 2 } }], snaps := [{ base := 0, newest := 2, draft := d }] }

theorem witness_SnapshotsOpenDraftAndCommit : ioOpen (snapper none) 0 0 = true ∧ fget (snapper none) .dirSnapStatusBusy 0 = 0 ∧
    twinUp (snapper none) = false ∧ snapResult (snapper none) 0 snOpen 0 2 = snOk ∧
    snapResult (snapper none) 0 snOpen 0 9 ≠ snOk ∧ snapResult (snapper none) 0 snClose 0 0 = snOk ∧
    snapResult { snapper none with reserve := [7] } 0 snDraft 0 0 = snOk ∧ snapResult (snapper (some [])) 0 snCommit 0 0 = snOk ∧
    snapResult (snapper (some [])) 0 snAbandon 0 0 = snOk ∧ twinUp (lead (snapper none)) = true ∧
    (snapper (some [])).boot.tiered = false ∧ snapOf (snapper (some [])) 0 = some { base := 0, newest := 2, draft := some [] } ∧
    (let s := { snapper (some []) with snapCmds := [(0, ⟨snCommit, 0, snOk, 0⟩)] };
     s.snapCmds.find? (fun c => decide (c.1 = 0)) = some (0, ⟨snCommit, 0, snOk, 0⟩) ∧
     s.snapCmds.find? (fun c => decide (c.1 = 16 + 0)) = none) := by
  decide
theorem witness_SnapshotsOpenDraftAndCommit_writes :
    (∀ v, v = 0 ∨ v = 2 ^ 32 - 1 → Writes (snapper none) (.host 0 0) .dir 0 0x080
      (wordWith (snapper none) .dir 0 0x080 [(.dirSnapCmdOp, 0, snOpen), (.dirSnapCmdBaseGran, 0, 0), (.dirSnapCmdVersion, 0, v)])) ∧
    ∀ op, op = snClose ∨ op = snDraft ∨ op = snCommit ∨ op = snAbandon → Writes (snapper none) (.host 0 0) .dir 0 0x080
      (wordWith (snapper none) .dir 0 0x080 [(.dirSnapCmdOp, 0, op), (.dirSnapCmdBaseGran, 0, 0), (.dirSnapCmdVersion, 0, 0)]) := by
  constructor
  · rintro v (rfl | rfl) <;> exact writes_of (by decide +kernel)
  · rintro op (rfl | rfl | rfl | rfl) <;> exact writes_of (by decide +kernel)

/-- Capacity is exported, so the reserve can grow; two granules are in it. -/
def reserving (n : Nat) (s : State) : State := fset { s with reserve := List.range n } .dirReserveGranules n 0x10
/-- Granule 0 is in sanitising, asked for by one request. -/
def cleaning : State := { act with exts := [{ ext0 with holders := [], sanitising := true }], sanReqs := [[0]] }

theorem witness_SnapshotsOpenDraftAndCommit_rest : sesUp op1 1 = true ∧ twinUp op1 = false ∧
    (5#21 : BitVec 21).toNat ≠ fget op1 .dirReserveGranules 16 ∧ running cleaning = true ∧
    (∃ e, extOfGran cleaning 0 = some e ∧ e.sanitising = true) ∧ [0] ∈ cleaning.sanReqs ∧
    cleaning.pcs = [] ∧ granBusy cleaning 0 = false ∧ twinUp cleaning = false ∧ cleaning.boot.tiered = false ∧
    twinUp (lead cleaning) = true ∧ (lead cleaning).tier.sanWaits = [] ∧
    (∀ x ∈ (lead cleaning).pcs, pcSt (lead cleaning) x.1 ≠ pcFrozen) ∧ granBusy (lead cleaning) 0 = false ∧
    extOfGran (lead cleaning) 0 = extOfGran cleaning 0 ∧
    (({ ho with snapCmds := [(0, ⟨0, 0, 0, 3⟩)] } : State).snapCmds.find? fun c => decide (c.1 = 0)) = some (0, ⟨0, 0, 0, 3⟩) := by
  refine ⟨by decide, by decide, by decide, by decide, ⟨_, rfl, by decide⟩, by decide +kernel⟩

/-- The hint ring of partition 0 with one fetched entry over its extent. -/
def hinted (op : Nat) (s : State) : State :=
  { fset s .tierHintCtrlEnable 1 0 with hints := [(0, [{ op := BitVec.ofNat 64 op, base := 0, len := 8192, rsvd := 0 }])] }

theorem witness_HintsMarkTheirBlocks : (∀ op ∈ [1, 2, 3, 4, 5, 6], ∃ e, hintsOf (hinted op hx) 0 = [e] ∧ e.phase = 0 ∧
      hintOp e = op ∧ (hintBlocks (hinted op hx) 0 (hintRange (hintOp e) e.base.toNat e.len.toNat).1
        (hintRange (hintOp e) e.base.toNat e.len.toNat).2).map (·.2) = [0]) ∧ twinUp (hinted 1 hx) = false ∧
    twinUp (lead (hinted 1 hx)) = true ∧ discardWaits (hinted 5 hx) 0 0 1 = false ∧ ioOpen hx 0 0 = true ∧
    fget hx .tierHintCtrlEnable 0 = 0 ∧ fget (hinted 1 hx) .tierHintCtrlEnable 0 = 1 ∧
    fget (hinted 1 hx) .tierHintCtrlHalted 0 = 0 ∧ hx.fieldsFit = true := by
  refine ⟨?_, by decide +kernel⟩
  intro op h
  fin_cases h <;> exact ⟨_, rfl, by decide +kernel⟩
theorem witness_HintsMarkTheirBlocks_writes :
    Writes hx (.host 0 0) .tier 0 0x068 (wordWith hx .tier 0 0x068 [(.tierHintCtrlEnable, 0, flag true)]) ∧
    Writes (hinted 1 hx) (.host 0 0) .tier 0 0x068 (wordWith (hinted 1 hx) .tier 0 0x068 [(.tierHintCtrlEnable, 0, flag false)]) ∧
    (∀ v, v = hintSize hx 0 ∨ v = hintSize hx 0 + 1 → Writes (hinted 1 hx) (.host 0 0) .tier 0 0x070
      (wordWith (hinted 1 hx) .tier 0 0x070 [(.tierHintProdProducer, 0, v)])) ∧
    Writes hx (.host 0 0) .tier 0 0x070 (wordWith hx .tier 0 0x070 [(.tierHintProdProducer, 0, 1)]) := by
  refine ⟨writes_of (by decide +kernel), writes_of (by decide +kernel), ?_, writes_of (by decide +kernel)⟩
  rintro v (rfl | rfl) <;> exact writes_of (by decide +kernel)

/-- A tiered package: every slot in service and deallocated; block 0 in a frame, or none. -/
def tier0 (fs : List Frame) : State :=
  let s := (List.range 8).foldl (fun s k => fset s .tierSlotStatusState slInService (slotInst k)) hx
  { s with boot := { s.boot with tiered := true }, frames := fs,
           slots := (List.range 8).map fun k => (k, { deallocated := true, counted := 524288 }), lbaMap := [(0, 2)] }

/-- The partition of a tiered package with a PIN limit. -/
def tierPin (fs : List Frame) (n : Nat) : State := fset (tier0 fs) .tierPinLimitGib n

theorem witness_HintsMarkTheirBlocks_tiered : (∀ op ∈ [1, 2, 5], ∃ e, hintsOf (hinted op (tierPin [] 1)) 0 = [e] ∧ e.phase = 0 ∧
      hintOp e = op ∧ (hintBlocks (hinted op (tierPin [] 1)) 0 (hintRange (hintOp e) e.base.toNat e.len.toNat).1
        (hintRange (hintOp e) e.base.toNat e.len.toNat).2).map (·.2) = [0]) ∧
    lbaOf (hinted 1 (tierPin [] 1)) 0 ≠ 3 ∧
    pinnedBlocks (hinted 2 (tierPin [] 1)) 0 + 1 < pinLimit (hinted 2 (tierPin [] 1)) 0 ∧
    (frameOf (hinted 2 (tierPin [{ block := 0, st := .clean }] 0)) 0).map (·.pins) = some [] ∧
    pinLimit (hinted 2 (tierPin [{ block := 0, st := .clean }] 0)) 0 ≤
      pinnedBlocks (hinted 2 (tierPin [{ block := 0, st := .clean }] 0)) 0 ∧
    discardWaits (hinted 5 (tierPin [{ block := 0, st := .clean }] 1)) 0 0 1 = false ∧
    (hinted 5 (tierPin [{ block := 0, st := .clean }] 1)).tier.exp = [] ∧
    stripeLocked (hinted 5 (tierPin [{ block := 0, st := .clean }] 1)) 0 = false ∧
    lbaOf { hinted 5 (tierPin [{ block := 0, st := .clean }] 1) with lbaMap := [] } 0 = 0 ∧
    (∀ x ∈ hintBlocks (hinted 5 hx) 0 0 1, x.1.attr.sharing = 0) := by
  refine ⟨?_, by decide +kernel⟩
  intro op h
  fin_cases h <;> exact ⟨_, rfl, by decide +kernel⟩

def frame0 (st : FrameSt) : Frame := { block := 0, st := st, issued := true }
def io0 (k : Slot) (kind : IoKind) : Io := { num := 9, slot := k, path := .a, kind := kind, block := 0 }
def withIo (i : Io) (s : State) : State := { s with ios := [i], nextIo := 10 }

theorem witness_TierCommandsMoveTheirBlocks : frameOf (withIo (io0 1 .fillRead) (tier0 [frame0 .filling])) 0 =
      some (frame0 .filling) ∧ ownRead (withIo (io0 1 .fillRead) (tier0 [frame0 .filling])) 0 = true ∧
    (frame0 .filling).waiters = [] ∧ (frame0 .filling).issued = true ∧
    (tier0 [frame0 .filling]).memoriesWf = true ∧ stripeMissing (tier0 [frame0 .filling]) 0 = [] ∧
    ownRead (withIo (io0 2 .fillRead) (tier0 [frame0 .filling])) 0 = false ∧ twinUp (tier0 []) = false ∧
    (∃ i ∈ (withIo (io0 2 .fillRead) (tier0 [frame0 .filling])).ios, i.block = 0 ∧ i.kind = .fillRead) ∧
    ioOf (withIo (io0 7 .deallocateAll) (tier0 [])) 7 9 = some (io0 7 .deallocateAll) ∧
    (∀ i ∈ (withIo (io0 7 .deallocateAll) (tier0 [])).ios, i.num < (withIo (io0 7 .deallocateAll) (tier0 [])).nextIo) ∧
    slotSt (tier0 []) 7 ≠ slRemoving ∧ 1 ≤ (slotOf { tier0 [] with slots := [(7, { timeoutRun := 1 })] } 7).timeoutRun ∧
    frameOf (tier0 [frame0 .evicting]) 0 = some (frame0 .evicting) ∧
    frameOf (tier0 [{ frame0 .evicting with rewritten := true }]) 0 = some { frame0 .evicting with rewritten := true } ∧
    (∀ k, k < 8 → slotSt (tier0 [frame0 .evicting]) k ≠ slRemoving) ∧ (tier0 [frame0 .evicting]).power.entering ≠ 4 ∧
    (tier0 [frame0 .evicting]).locks = [] ∧ expWaits (tier0 [frame0 .evicting]) 0 = false ∧
    (frame0 .evicting).discardDue = false ∧ (tier0 [frame0 .evicting]).memoriesWf = true ∧
    slotWritable (tier0 [frame0 .evicting]) (placeOf 0).slot = true := by decide +kernel

/-- Slot 1 is being rebuilt, the last write of its stripe 0 of cluster 0 under way. -/
def rebuilding1 : State := { fset (fset (fset (tier0 []) .tierSlotStatusState slRebuilding (slotInst 1)) .tierRebuildActive 1 0x10)
  .tierRebuildSlot 1 0x10 with ios := [io0 1 .rebuildWrite], nextIo := 10, tier := { rebuilt := 10 ^ 9 } }

theorem witness_TierCommandsMoveTheirBlocks_rebuild : fget rebuilding1 .tierRebuildActive 0x10 = 1 ∧
    (rebuildsNow rebuilding1).find? (fun x => decide (blockCluster x = 0)) = some 0 ∧ rebuilding rebuilding1 = [1] ∧
    rebuilding1.locks = [] ∧ stripeMissing rebuilding1 0 = [1] ∧
    (stripeBlocks 0).filter (fun x => decide ((placeOf x).slot = 1)) = [0] ∧ rebuilding1.memoriesWf = true ∧
    rebuildBudget rebuilding1 ≤ rebuilding1.tier.rebuilt ∧ frameOf rebuilding1 0 = none := by decide +kernel

/-- Block 0 of an extent with a tensor descriptor is coded as kind `k` with a stored form of `n` bytes, and queued. -/
def coded (k n : Nat) : State :=
  { hx with exts := [{ ext0 with attr := { elem := 1 } }], index := [(0, idxSeal ⟨k, 0, n, false, 0, 0⟩ 0)],
            compactQ := [0] }

def uncoded : State := { coded 0 0 with index := [] }

theorem witness_TierCommandsMoveTheirBlocks_forms : isCoded (coded 1 0) 0 = true ∧ homeSt (coded 1 0) (blockDpa 0) = .serve ∧
    (coded 1 0).cache = [] ∧ needsExpander (coded 1 0) 0 = true ∧ expOf (coded 1 0) (blockCluster 0) = {} ∧
    (decodeBlock (coded 1 1) 0 0).2 = .damaged causeIndex ∧ needsExpander (coded 1 1) 0 = true ∧
    homeSt (coded 1 1) (blockDpa 0) = .serve ∧ expOf (coded 1 1) (blockCluster 0) = {} ∧
    (expOf { coded 1 0 with tier := { exp := [(0, { middle := [⟨0, 0, [hostReq]⟩] })] } } (blockCluster 0)).middle =
      [⟨0, 0, [hostReq]⟩] ∧ mayCompact uncoded 0 = true ∧ twinUp uncoded = false ∧
    mayCompact (lead uncoded) 0 = true ∧ twinUp (lead uncoded) = true ∧ uncoded.stale.contains 0 = false ∧
    ({ uncoded with stale := [0] } : State).stale.contains 0 = true ∧
    mayCompact { coded 1 0 with stale := [0] } 0 = true ∧ (coded 1 0).stale.contains 0 = false ∧
    mayCompact (coded 1 0) 0 = true ∧ (coded 1 0).memoriesWf = true ∧ mayCompact (lead (coded 1 0)) 0 = true ∧
    (List.replicate 8192 (0 : Byte)).length = 8192 ∧ (List.replicate 8192 (1 : Byte)) ≠ List.replicate 8192 0 ∧
    admitted 1 (descOfBlock (coded 1 0) 0).1 0 0 [] (fget (coded 1 0) .cmpCfgCostMax) = true := by decide +kernel
theorem witness_TierCommandsMoveTheirBlocks_candidate :
    (decodeBlock (coded 1 0) 0 0).2 = .ok (List.replicate 8192 0) 0 [] ∧
    (compactSource (coded 1 0) 0).2 = some (List.replicate 8192 0) ∧
    candidateOf (coded 1 0) 0 1 [] = .ok (List.replicate 8192 0) 0 [] := by
  have hi : idxOk (idxOf (coded 1 0) 0) (localOf 0) = true := by decide +kernel
  have he : (idxOf (coded 1 0) 0).kind = 1 ∧ (idxOf (coded 1 0) 0).clen = 0 := by decide +kernel
  have hs : decodeStored (coded 1 0) 0 = .ok (List.replicate 8192 0) 0 [] := by
    have hd : ¬aget (coded 1 0).damaged 0 0 = causeLength := by decide
    simp [-List.reduceReplicate, decodeStored, hi, hd, he.1]
  have hd : ∀ src, (decodeBlock (coded 1 0) 0 src).2 = .ok (List.replicate 8192 0) 0 [] := by
    intro src
    have hr : readForm (coded 1 0) 0 0 src = (coded 1 0, true) := by simp [readForm, ceilDiv]
    simp [-List.reduceReplicate, decodeBlock, hi, he.2, hr, hs]
  refine ⟨hd 0, ?_, by simp [-List.reduceReplicate, candidateOf]⟩
  have h := hd 3
  have h1 : ahas (coded 1 0).damaged 0 = false := by decide
  have h2 : isCoded (coded 1 0) 0 = true := by decide +kernel
  rcases hd : decodeBlock (coded 1 0) 0 3 with ⟨s', d⟩
  rw [hd] at h
  simp only at h
  subst h
  simp [-List.reduceReplicate, compactSource, h1, h2, hd]

/-- Slot 7 in a state, its SSD present and powered. -/
def slot7 (st : Nat) (x : SlotState) : State :=
  let s := fset (fset (fset act .tierSlotStatusState st (slotInst 7)) .tierSlotStatusPresent 1 (slotInst 7)) .tierSlotStatusPwrEn 1
    (slotInst 7)
  { s with slots := [(7, x)] }

/-- The same in a tiered package. -/
def slot7T (st : Nat) (x : SlotState) : State := let s := slot7 st x; { s with boot := { s.boot with tiered := true } }
/-- An SSD that meets Table 5.6 with nothing to spare. -/
def goodSsd : SsdInfo :=
  { e3s := true, multiPort := true, multiController := true, sharedNamespace := true, lanes := 2, rate := 64, nsid1 := true,
    lbaBytes := 4096, metadataBytes := 0, deallocatedZero := true, queuePairs := 16, queueDepth := 256, mdts := some 8192,
    lbas := 2 ^ 28 }

theorem witness_SlotsPowerAdmitAndFail : fget act .tierSlotStatusPresent (slotInst 7) = 0 ∧
    (slotOf (slot7 slOff { debouncing := true }) 7).debouncing = true ∧
    slotsOn (slot7 slOff { debouncing := true }) = false ∧ slotsOn (slot7T slOff { debouncing := true }) = true ∧
    (slotOf (slot7T slOff { debouncing := true }) 7).debouncing = true ∧
    fget (fset (slot7T slOff { debouncing := true }) .tierSlotCtrlAutoPower 1 (slotInst 7)) .tierSlotCtrlAutoPower (slotInst 7) = 1 ∧
    fget (fset (slot7T slOff { debouncing := true }) .tierSlotCtrlAutoPower 0 (slotInst 7)) .tierSlotCtrlAutoPower (slotInst 7) = 0 ∧
    slotSt (slot7 slPowering {}) 7 = slPowering ∧ slotSt (slot7 slAdmitting {}) 7 = slAdmitting ∧
    goodSsd.lbas * 4096 = 2 ^ 40 ∧ goodSsd.lbaBytes = 4096 ∧ ¬(2 ^ 40 ≤ { goodSsd with lbas := 2 ^ 28 - 1 }.lbas * 4096) ∧
    (∀ m, goodSsd.mdts = some m → 8192 ≤ m) ∧
    min (goodSsd.lbas / 512) 33554432 < ({ slot7 slAdmitting {} with tier := { inUse := 524289 } } : State).tier.inUse ∧
    ({ slot7 slAdmitting {} with tier := { inUse := 524288 } } : State).tier.inUse ≤ min (goodSsd.lbas / 512) 33554432 ∧
    (slot7 slAdmitting {}).tier.inUse = 0 ∧
    fget (fset act .tierSlotCtrlLocate 1 (slotInst 7)) .tierSlotCtrlLocate (slotInst 7) = 1 ∧
    (slotOf (slot7 slInService {}) 7).buttonWait = none ∧ slotSt (slot7 slInService {}) 7 = slInService ∧
    othersMissing (slot7 slInService {}) 7 = true ∧ othersMissing (tier0 []) 7 = false ∧
    (slotOf (slot7T slOff {}) 7).buttonWait = none ∧ (slotOf (slot7T slOff {}) 7).debouncing = false ∧
    slotSt (slot7T slOff {}) 7 = slOff ∧ slotsOn (slot7T slOff {}) = true ∧
    fget (slot7T slOff {}) .tierSlotStatusPresent (slotInst 7) = 1 ∧
    (slotOf (slot7T slOff { buttonWait := some true }) 7).buttonWait = some true ∧
    slotsOn (slot7T slOff { buttonWait := some true }) = true ∧
    (slotOf (slot7 slOff { buttonWait := some true }) 7).buttonWait.isSome = true ∧
    (∃ o ∈ (withIo (io0 7 .fillRead) (slot7 slInService { buttonWait := some false })).ios, o.slot = 7) ∧
    isMember (slot7 slRebuilding {}) 7 = true ∧ pathUp (slot7 slInService {}) 7 .a = false ∧
    pathUp (fset (slot7 slInService {}) .tierSlotStatusPathAUp 1 (slotInst 7)) 7 .a = true ∧
    pathDie 7 .b ∉ act.portDiesOut := by decide +kernel
theorem witness_SlotsPowerAdmitAndFail_rest : sesUp in1 1 = true ∧ in1.fieldsFit = true ∧
    Writes in1 (.fm 1) .tier (slotInst 7) 0x0C0 (wordWith in1 .tier (slotInst 7) 0x0C0 [(.tierSlotCtrlButton, 0, 1)]) ∧
    rebuildOver { rebuilding1 with lbaMap := [], ios := [] } = true :=
  ⟨by decide, by decide, writes_of (by decide +kernel), by decide +kernel⟩

/-- A package with pairing enabled whose Belay link is up. -/
def pairable : State := { fset act .belayGroupsUp 1 0 0 with boot := { act.boot with pairEn := true } }
/-- What the lead of PAIR-D hears from a good twin. -/
def goodTwin : TwinInfo :=
  { pairEn := true, tiered := false, pitchLen := fget act .pitchCfgLenActive, rank := true,
    protoLevel := fget act .idFirmwarePairLevel, keysOk := true, fromCold := true, servedAlone := false, syncWired := true,
    count := 0, fencedNoReset := false, capGran := 0, fwAcceptedLevel := none }
def asFenced (s : State) : State :=
  let s := fset (fset s .belayStatusRole roleFenced) .belayStatusState bsFenced
  { s with belay := { s.belay with roleBefore := roleLead } }
def inBelay (st : Nat) (s : State) : State := fset s .belayStatusState st
def witnessed (n : Nat) (s : State) : State :=
  let s := fset s .belayCfgWitnessEn 1
  { s with belay := { s.belay with witnessExpiry := n } }

theorem witness_PairFormsSplitsAndRejoins : (inPhase .released pairable).boot.pairEn = true ∧
    bState (inPhase .released pairable) = bsUnpaired ∧ hearsTwin (lead act) = true ∧
    bState (inBelay bsResync (second act)) = bsResync ∧ bRole (inBelay bsResync (second act)) = roleSecond ∧
    bState (lead act) ≠ bsResync ∧ bState (lead act) ≠ bsJoining ∧ fcur (fset (lead act) .belayCfgWitnessEn 0) .belayCfgWitnessEn = 0 ∧
    (lead act).boot.pairRank = false ∧ fcur (witnessed 1 (lead act)) .belayCfgWitnessEn ≠ 0 ∧
    witnessOver (witnessed 1 (lead act)) = false ∧
    witnessOver { witnessed 1 (lead act) with tb := { clock := 1 } } = true ∧ lapsed (asFenced act) = true ∧
    (lead act).belay.hbSeen = false ∧ rung (lead act) < 2 ∧ fget (lead act) .belayTwinStatsHbMissed < 9 ∧
    9 ≤ fget (fset (lead act) .belayTwinStatsHbMissed 9) .belayTwinStatsHbMissed ∧ groupUp (lead act) 0 = true ∧
    belayUp pairable = true ∧ twinUp pairable = false ∧ lapsed pairable = false ∧ pairOk pairable goodTwin = true ∧
    pairOk pairable { goodTwin with tiered := true } = false ∧ running pairable = true ∧ pairable.boot.pairEn = true ∧
    pairable.belay.leaving = false ∧ pairable.belay.deciding = false ∧
    ¬(bRole pairable = roleFenced ∧ bState pairable = bsIncomplete) ∧
    (let s := inBelay bsIncomplete (fset pairable .belayStatusRole roleFenced);
     bRole s = roleFenced ∧ bState s = bsIncomplete ∧ twinUp s = false ∧ lapsed s = false ∧ belayUp s = true ∧
     pairOk s { goodTwin with tiered := true } = false) ∧ sesUp (lead in1) 1 = true ∧
    bState (inBelay bsIncomplete in1) = bsIncomplete ∧ bState (lead in1) = bsInSync ∧
    (0, true) ∉ (lead in1).belay.retrained ∧
    (0, false) ∈ ({ lead in1 with belay := { retrained := [(0, false)] } } : State).belay.retrained ∧
    paired (witnessed 1 (lead act)) = true := by decide +kernel
theorem witness_PairFormsSplitsAndRejoins_writes :
    (∀ f, f = .belayCtrlLeave ∨ f = .belayCtrlSwap ∨ f = .belayCtrlRetrain →
      Writes (lead in1) (.fm 1) .belay 0 0x050 (wordWith (lead in1) .belay 0 0x050 [(f, 0, 1)])) ∧
    Writes (inBelay bsIncomplete in1) (.fm 1) .belay 0 0x050
      (wordWith (inBelay bsIncomplete in1) .belay 0 0x050 [(.belayCtrlApprove, 0, 1)]) ∧
    Writes in1 (.fm 1) .belay 0 0x050 (wordWith in1 .belay 0 0x050 [(.belayCtrlSwap, 0, 1)]) ∧
    Writes (lead in1) (.fm 1) .belay 0 0x058 (wordWith (lead in1) .belay 0 0x058 [(.belayWitnessRenew, 0, 1)]) := by
  refine ⟨?_, writes_of (by decide +kernel), writes_of (by decide +kernel), writes_of (by decide +kernel)⟩
  rintro f (rfl | rfl | rfl) <;> exact writes_of (by decide +kernel)

/-- A request that waits for the twin. -/
def waits9 : MirrorWait := { id := 9, req := { hostReq with dpa := 0 } }
def journalled (acked : Bool) (s : State) : State := { s with belay := { s.belay with journal := [⟨3, .revive 0, acked⟩] } }

/-- What TwinTrafficIsTaken asks of the home of line 0. -/
def takesWrites (s : State) : Bool :=
  s.memoriesWf && decide (s.boot.tiered = false) && decide (homeSt s 0 = .serve) && !needsExpander s 0 &&
    decide ((pcOf s 0).held = []) && queueRoom s 0 (levelOf s 0 (some 0) (classOf s 0)) (classOf s 0) &&
    decide (heldExt s 0 0 = some ext0) && decide (s.damage = []) && !s.poison.contains 0 &&
    decide ((pcOf s 0).partials = []) && !lineUnsynced s 0

theorem witness_TwinTrafficIsTaken : hearsTwin (lead hx) = true ∧ takesWrites (lead hx) = true ∧
    ({ lead hx with belay := { mirror := [waits9] } } : State).belay.mirror.find? (fun w => decide (w.id = 9)) = some waits9 ∧
    ({ lead hx with belay := { forwarded := [waits9] } } : State).belay.forwarded.find? (fun w => decide (w.id = 9)) =
      some waits9 ∧ waits9.req.src = .host 0 ∧ hearsTwin (second hx) = true ∧ bRole (second hx) ≠ roleLead ∧
    bRole (lead hx) = roleLead ∧ paired (lead hx) = true ∧ (journalled true (lead hx)).belay.journal = [⟨3, .revive 0, true⟩] ∧
    (∀ e ∈ (journalled false (lead hx)).belay.journal, e.acked = false) ∧ twinUp (lead hx) = true ∧
    frameOf (lead hx) 0 = none ∧ ahas (lead hx).tier.twinWaits 0 = false ∧ (pcOf (lead hx) (pcOfAddr (blockDpa 0))).held = [] ∧
    (second hx).frames = [] ∧ (second hx).boot.tiered = false ∧ (second hx).memoriesWf = true ∧
    twinUp (inBelay bsResync (second hx)) = true ∧
    bState (inBelay bsResync (second hx)) = bsResync ∧ copyWaits (inBelay bsResync (second hx)) = false ∧
    copyWaits (inBelay bsResync (lead hx)) = false ∧ pcSt (second hx) (pcOfAddr (blockDpa 0)) ≠ pcFrozen ∧
    segmentOf (blockDpa 8191) = 0 ∧ dieOut (lead hx) 15 = false ∧ 3 ∉ (lead hx).portDiesOut := by decide +kernel

theorem witness_SnapshotsOpenDraftAndCommit_reserve :
    Writes in1 (.fm 1) .dir 0x10 0x0A8 (wordWith in1 .dir 0x10 0x0A8 [(.dirReserveGranules, 0, 5)]) ∧ 5 - 0 ≤ freeCount in1 ∧
    5 ≤ ((List.range (exportGran in1)).filter (freeGran in1)).length ∧
    Writes (reserving 2 in1) (.fm 1) .dir 0x10 0x0A8 (wordWith (reserving 2 in1) .dir 0x10 0x0A8 [(.dirReserveGranules, 0, 1)]) ∧
    (1 < (reserving 2 in1).reserve.length ∧ chargedBlk (reserving 2 in1) ≤ 1 * granBlocks) ∧
    Writes in1 (.fm 1) .dir 0x10 0x0A8 (wordWith in1 .dir 0x10 0x0A8 [(.dirReserveGranules, 0, 2 ^ 21 - 1)]) ∧
    freeCount in1 < 2 ^ 21 - 1 :=
  ⟨writes_of (by decide +kernel), by decide +kernel, by decide +kernel, writes_of (by decide +kernel), by decide,
    writes_of (by decide +kernel), by decide +kernel⟩

/-! ### Ill-formed commands are refused by the checks -/

theorem test_wf_dpa : (Instr.hostMemRead 0 0 63 .invalid []).wf = false ∧ (Instr.hostMemRead 0 0 64 .invalid []).wf = true ∧
    (Instr.hostMemWrite 0 0 1 0 0 .invalid).wf = false ∧ (Instr.cleanEviction 0 0 32).wf = false ∧
    (Instr.birsp 0 0 8 .i).wf = false ∧ (Instr.biconflict 0 0 8).wf = false ∧ (Instr.biTimeout 0 0 8).wf = false ∧
    (Instr.partialWriteMerge 65 []).wf = false ∧ (Instr.clearPoison 0 0 65 0).wf = false ∧
    (Instr.injectPoison 0 0 65).wf = false := by decide
theorem test_wf_upset : (Instr.scrubLine 0 [(72, 1)]).wf = false ∧ (Instr.scrubLine 0 [(71, 0)]).wf = false ∧
    (Instr.scrubLine 0 [(71, 1)]).wf = true ∧ (Instr.hostMemRead 0 0 64 .invalid [(80, 1)]).wf = false := by decide
theorem test_wf_lanes : (Instr.linkTrained 0 5 3 true true true).wf = false ∧ (Instr.linkTrained 0 5 16 true true true).wf = true :=
  by decide
theorem test_wf_page : (Instr.readPageRegister 0 0x20 65536 0 1).wf = false ∧ (Instr.readPageRegister 0 0x20 0 65536 1).wf = false ∧
    (Instr.writePageRegister 0 0x20 0 0 65536 0).wf = false ∧ (Instr.writePageRegister 0 0x20 0 0 65535 0).wf = true := by decide

/-! ### The manual's worked examples -/

/-- 15 R332: CLASS_CFG of task class 9, and the page of PC 31 of E-die 3. -/
theorem test_page_map : bar0Page 0x02119050 = some (.qos, 0x19, 0x050) ∧ bar0Page 0x025DF000 = some (.pc, 0xDF, 0) := by decide
/-- 10 R221: BPA 0x0001_E848_6000. -/
theorem test_address_decode : dieOf 0x1E8486000 = 3 ∧ clusterOf 0x1E8486000 = 55 ∧ pcOfAddr 0x1E8486000 = 3 * 64 + 31 ∧
    locOfBpa 0x1E8486000 = ⟨0, 0, 122, 0⟩ := by decide
/-- 05 R118: the stripe of the same block; its data members lie on slots 6, 7, 0, 1, 2, 3 and 4. -/
theorem test_stripe : localOf (blockOf 0x1E8486000) = 3907 ∧ placeOf (blockOf 0x1E8486000) = ⟨558, 1, 142903, 5, 7⟩ ∧
    (stripeBlocks (blockOf 0x1E8486000)).map (fun b => (placeOf b).slot) = [6, 7, 0, 1, 2, 3, 4] := by decide +kernel
/-- 06 R133: elements (3, 0) and (3, 3) of the reduced tile. -/
theorem test_residuals : orderBits 16 0xBF80 = 0xC07F ∧ addResidual 16 0xBF81 1 = 0xBF80 ∧ addResidual 16 0xC000 40 = 0xBFD8 := by
  decide +kernel
/-- 06 Low-rank reconstruction, element (1, 0): 3 × 1.0078125 is a tie of BF16 and goes to 0x4042. -/
theorem test_tile_tie : (fmtOf fmtBf16 (fvMul (fmtDecode fmtBf16 0x4040) (fmtDecode fmtBf16 0x3F81))).1 = 0x4042 := by decide +kernel
/-- 07 R168: 464 converts to E4M3 as 448 without a flag, the next FP32 value saturates. -/
theorem test_e4m3_overflow : typeConv 1 4 0x43E80000 = (0x7E, false) ∧ typeConv 1 4 0x43E80001 = (0x7E, true) := by decide +kernel
/-- 07 R183: REDUCE SUM of 2^24, 0.75, −2^24 and 0.5 is 1.25 in either order. -/
theorem test_reduce_sum : (longResult ([0x4B800000, 0x3F400000, 0xCB800000, 0x3F000000].foldl
      (fun l b => longAdd l (typeValue 1 b)) {}) 1 false 1).1 = 0x3FA00000 ∧
    (longResult ([0x3F400000, 0x3F000000, 0x4B800000, 0xCB800000].foldl
      (fun l b => longAdd l (typeValue 1 b)) {}) 1 false 1).1 = 0x3FA00000 := by decide +kernel

/-! ### Single steps -/

/-- The state after a command; the state itself where the command stops. -/
def after (c : Instr) (s : State) : State :=
  match exec c s with
  | .next t => t
  | _ => s

/-- 01 R20: the first boundary counts 0, the next one 1. -/
theorem test_pitch_counts : (after (.pitchBoundary false 1000) State.reset).tb.count = 0 ∧
    (after (.pitchBoundary false 1000) { State.reset with tb := { started := true } }).tb.count = 1 := by decide +kernel
/-- 02 R40: 0 is ignored, 0x400 is kept. -/
theorem test_tag_limit : (cfgOf (after (.tagLimitWrite 0 0 0) ho) 0).tagLimit = 256 ∧
    (cfgOf (after (.tagLimitWrite 0 0 0x400) ho) 0).tagLimit = 0x400 := by decide +kernel
/-- 11 R257: PART ORPHANED is event 0x0101 of block 0x0020, bit 1 of EVT_STATUS. -/
theorem test_orphaned_event : (hget (after (.leaseExpiry 0) (leaseAt 0 ho)) .part 0).evtStatus.getLsbD 1 = true ∧
    (after (.leaseExpiry 0) (leaseAt 0 ho)).cairn.slots.any (fun e => decide (e.2.block = 0x0020 ∧ e.2.event = 0x0101)) = true := by
  decide +kernel
/-- 11 R251; 01 R15: a full-line write lands in memory, byte 0 first. -/
theorem test_write_lands : Memory.get (after (.hostMemWrite 0 0 0 0x0201 fullMask .invalid) hx).mem 1 = 2 := by decide +kernel
/-- 03 R64: a write to an address that the partition does not hold changes no memory. -/
theorem test_unheld_write : (after (.hostMemWrite 0 0 0x10000000 0x0201 fullMask .invalid) hx).mem = [] := by decide +kernel
/-- 09 R207: 255 is the whole of 28,000 GB/s, 128 is 14,054. -/
theorem test_guarantee : fget (after (.setQosAllocatedBw 1 3 [128]) op1) .qosGuarGbS 3 = 14054 := by decide +kernel
/-- 10 R229: 105 °C trips, 104 °C does not. -/
theorem test_trip : (after (.tempRead 3 (some 105)) act).boot.phase = .tripped ∧ (after (.tempRead 3 (some 104)) act).boot.phase = .active :=
  by decide +kernel
/-- 12 R269: the tenth missed heartbeat loses the twin. -/
theorem test_heartbeats : (after .heartbeatMiss (fset (lead act) .belayTwinStatsHbMissed 8)).belay.twinLost = false ∧
    (after .heartbeatMiss (fset (lead act) .belayTwinStatsHbMissed 9)).belay.twinLost = true := by decide +kernel
/-- 16 R341: a rail fault stops the part and drives FAULT#. -/
theorem test_rail : (after (.railFault .vinL) (inPhase .active act)).boot.faultLow = true ∧
    (after (.railFault .vinL) (inPhase .active act)).boot.phase = .dead := by decide +kernel
/-- A step takes the command at the front; on an empty queue the block idles (log 1). -/
theorem test_step_front : (match step { ho with pending := [.tagLimitWrite 0 0 7, .timebaseStop] } with
    | .next t => decide ((cfgOf t 0).tagLimit = 7) && decide (t.pending.length = 1)
    | _ => false) = true := by decide +kernel

/-! ### Large states -/

/-- 8,192 extents of three granules each: a cut takes the partition over the limit of R60. -/
def fullPart : State :=
  { hx1 with exts := (List.range Config.extentsPerPart).map fun i => { ext0 with base := 3 * i, len := 3 } }

theorem witness_ReleasesTellTheHost_limit :
    (releaseCode fullPart 0 [.offered, .active, .releasePending] false [(1, 1)]).1 = .resourcesExhausted := by decide +kernel
/-- A cluster whose frames take all but a little of the space under FREE_LOW at 255: one frame may go. -/
def lowCluster (st : FrameSt) : State :=
  fset (fset (tier0 ({ frame0 st with issued := false } :: (List.range 7700).map fun n =>
    { block := blockOfLocal 0 (n + 1), st := .clean, pins := [0] })) .tierCfgFreeLow 255 0x10) .tierCfgFreeHigh 255 0x10

theorem witness_TierCommandsMoveTheirBlocks_low : ∀ st, st = .clean ∨ st = .dirty → (lowCluster st).power.entering ≠ 4 ∧
    belowMark (freeUnits (lowCluster st) 0) (fget (lowCluster st) .tierCfgFreeLow 0x10) = true ∧
    belowMark (freeSoon (lowCluster st) 0) (fget (lowCluster st) .tierCfgFreeHigh 0x10) = true ∧
    (lowCluster st).frames.all (fun g => decide (g.st ≠ .filling ∧ g.waiters = [])) = true ∧
    (lowCluster st).damage = [] ∧ (lowCluster st).poison = [] ∧ (lowCluster st).belay.lostSegs = [] ∧
    victimOf (lowCluster st) 0 (fun g => decide (g.st = .clean) || mayWriteBack (lowCluster st) g.block) =
      some { frame0 st with issued := false } := by
  rintro st (rfl | rfl) <;> decide +kernel

/-- The same with the slot of the parity out and a byte in block 0: no old content is read. -/
def lowCluster1 : State :=
  { fset (lowCluster .dirty) .tierSlotStatusState slFailed (slotInst (placeOf 0).parity) with mem := [(0, 1)] }

theorem witness_TierCommandsMoveTheirBlocks_noReads : oldReads lowCluster1 0 = [] ∧ lbaFor (formBytes lowCluster1 0) ≠ 0 ∧
    slotWritable lowCluster1 (placeOf 0).slot = true ∧ belowMark (freeUnits lowCluster1 0) (fget lowCluster1 .tierCfgFreeLow 0x10) = true ∧
    belowMark (freeSoon lowCluster1 0) (fget lowCluster1 .tierCfgFreeHigh 0x10) = true ∧
    victimOf lowCluster1 0 (fun g => decide (g.st = .clean) || mayWriteBack lowCluster1 g.block) =
      some { frame0 .dirty with issued := false } := by decide +kernel

end Sys2Proof.Tests
end

section
/-! PROOF. A step takes the front command, or one timebase cycle passes (O5); what a boundary and the checks of TIMEBASE_IN
do to the clock (O25); how the second of a pair measures its offset (O26). -/

namespace Sys2Proof.Machine

open Sys2Proof

/-! ### Sets of kinds -/

/-- The set of the kinds in a list, as `Moves` has it. -/
def kindSet (ks : List Kind) : Nat := ks.foldl (fun n k => n ||| 2 ^ k.num) 0

/-- A change within a set of kinds leaves every kind outside a list that covers the set. -/
theorem Moves.sameBut {F : Nat} {ks : List Kind} {s t : State} (h : Moves F s t)
    (hks : ∀ k, k ∉ ks → F.testBit k.num = false) : SameBut ks s t := fun k hk => h.frame k (hks k hk)

/-- Every kind of state but the pitch. -/
def butTimebase : Nat := 2 ^ 50 - 1 - 2 ^ Kind.timebase.num

theorem Moves.tb_eq {s t : State} (h : Moves butTimebase s t) : t.tb = s.tb := h.frame .timebase (by decide)

/-! ### One step (01 R27) -/

/-- The kinds of state that one TIMEBASE_IN cycle may change. -/
def idleKinds : List Kind := [.draws, .timebase, .regulation, .controllers, .page .store]

theorem idleCycle_sameBut (s : State) : SameBut idleKinds s (idleCycle s) := by
  refine (idleCycle_moves (F := kindSet idleKinds) rfl (.refl _ s)).sameBut fun k => ?_
  cases k with
  | page b => cases b <;> decide
  | _ => decide

theorem idleCycle_pending (s : State) : (idleCycle s).pending = s.pending :=
  (idleCycle_moves (F := kindSet idleKinds) rfl (.refl _ s)).keeps.pending

theorem idleCycle_phase (s : State) :
    (idleCycle s).tb.phase = if s.tb.phase + 1 < pitchLength s then s.tb.phase + 1 else s.tb.phase := by
  unfold idleCycle
  rw [(storeCycles_moves (F := butTimebase) rfl (.refl _ _)).tb_eq]

theorem step_cons {c : Instr} {rest : List Instr} (s : State) :
    step { s with pending := c :: rest } = exec c { s with pending := rest } := rfl

theorem step_nil {s : State} (h : s.pending = []) : step s = .next (idleCycle s) := by
  unfold step
  rw [h]

/-- Settles O5: the front command runs on the rest of the queue; an idle cycle moves within the listed kinds. -/
theorem stepRunsTheFrontCommand : Obligations.StepRunsTheFrontCommand :=
  ⟨fun _ _ s => step_cons s, fun s h =>
    ⟨idleCycle s, step_nil h, (idleCycle_pending s).trans h, idleCycle_phase s, idleCycle_sameBut s⟩⟩

/-! ### The clock of the pitch (01 R20, R21) -/

/-- Boundary time, PITCH.COUNT, PITCH.PHASE, and whether the first boundary has come. -/
def pitchClock (s : State) : Nat × Nat × Nat × Bool := (s.tb.clock, s.tb.count, s.tb.phase, s.tb.started)

theorem pitchClock_of_tb {s t : State} (h : t.tb = s.tb) : pitchClock t = pitchClock s := by
  unfold pitchClock
  rw [h]

theorem Moves.pitchClock_eq {s t : State} (h : Moves butTimebase s t) : pitchClock t = pitchClock s :=
  pitchClock_of_tb (h.tb_eq)

@[simp] theorem timebaseLoss_tb (s : State) : (timebaseLoss s).tb = s.tb :=
  (timebaseLoss_moves (F := butTimebase) rfl (.refl _ s)).tb_eq

theorem checkTimebase_pitchClock (s : State) (good ok : Bool) : pitchClock (checkTimebase s good ok) = pitchClock s := by
  unfold checkTimebase
  split
  · rfl
  · split
    · rfl
    · simp [pitchClock]

theorem countPitch_pitchClock (s : State) : pitchClock (countPitch s) = pitchClock s := by
  unfold countPitch
  dsimp only
  split <;> rfl

theorem countPitch_pitchLength (s : State) : pitchLength (countPitch s) = pitchLength s := by
  have hlen : fget (countPitch s) .pitchCfgLenActive = fget s .pitchCfgLenActive := by
    unfold countPitch
    dsimp only
    split
    · rfl
    · exact fget_fadd_fld _ _ _ _ _ _ (by decide)
  have hadj : (countPitch s).tb.adjust = s.tb.adjust := by
    unfold countPitch
    dsimp only
    split <;> rfl
  unfold pitchLength pitchCycles
  rw [hlen, hadj]

/-- The clock of the pitch that begins: moved by the pitch that ends, counted up, at phase 0. -/
def nextClock (s : State) : Nat × Nat × Nat × Bool :=
  (s.tb.clock + pitchLength s, if s.tb.started then (s.tb.count + 1) % 2 ^ 64 else 0, 0, true)

theorem nextPitch_countPitch_pitchClock (s : State) : pitchClock (nextPitch (countPitch s)) = nextClock s := by
  have hc := countPitch_pitchClock s
  simp only [pitchClock, Prod.mk.injEq] at hc
  obtain ⟨hclock, hcount, -, hstarted⟩ := hc
  simp only [pitchClock, nextPitch, nextClock, hclock, hcount, hstarted, countPitch_pitchLength]

/-! ### The measured offset (01 R25) -/

theorem offsetField_lt (ns : Int) : offsetField ns < 2 ^ 16 := by
  unfold offsetField
  dsimp only
  split <;> omega

/-- The second notes its offset and whether it is aligned. -/
def offsetNoted (s : State) (ns : Int) (tol : Nat) : State :=
  fset (fset { s with tb := { s.tb with offset := ns } } .pitchPhaseTwinOffset (offsetField ns)) .pitchAlignAligned
    (if ns.natAbs ≤ tol then 1 else 0)

/-- The alignment is lost: the step phase is due again. -/
def alignLost (s : State) : State :=
  raise (finc { s with tb := { s.tb with stepDue := true } } .pitchAlignLossCountLosses) .pitchAlignLost

theorem measured_eq (s : State) (ns : Int) (tol : Nat) : measured s ns tol =
    if 1000 < ns.natAbs ∧ s.tb.stepDue = false then alignLost (offsetNoted s ns tol) else offsetNoted s ns tol := rfl

@[simp] theorem alignLost_tb (s : State) : (alignLost s).tb = { s.tb with stepDue := true } := raise_tb _ _ _ _ _ _ _

theorem alignLost_signalled (s : State) : Signalled (alignLost s) .pitchAlignLost := raise_signalled _ _ _ _ _ _ _

/-- A lost alignment moves its own counter and Cairn's. -/
theorem fget_alignLost (s : State) {f : Fld} (hl : f ≠ .pitchAlignLossCountLosses) (hc : f ≠ .cairnCoalesceStatsLatched) :
    fget (alignLost s) f = fget s f :=
  (fget_raise _ _ _ _ _ _ _ _ _ hc).trans (fget_finc_fld _ _ _ _ _ hl)

theorem fget_offsetNoted_twinOffset (s : State) (ns : Int) (tol : Nat) :
    fget (offsetNoted s ns tol) .pitchPhaseTwinOffset = offsetField ns :=
  calc fget (offsetNoted s ns tol) .pitchPhaseTwinOffset
      = offsetField ns % 2 ^ 16 := (fget_fset_fld _ _ _ _ _ _ (by decide)).trans (fget_fset_self _ _ _ _ _)
    _ = offsetField ns := Nat.mod_eq_of_lt (offsetField_lt ns)

theorem fget_offsetNoted_aligned (s : State) (ns : Int) (tol : Nat) :
    fget (offsetNoted s ns tol) .pitchAlignAligned = if ns.natAbs ≤ tol then 1 else 0 := by
  refine (fget_fset_self _ _ _ _ _).trans ?_
  split <;> rfl

/-- A measurement moves the offset and the step phase, not the clock. -/
theorem measured_pitchClock (s : State) (ns : Int) (tol : Nat) : pitchClock (measured s ns tol) = pitchClock s := by
  rw [measured_eq]
  split
  · simp [pitchClock, offsetNoted]
  · rfl

/-- A register of the pitch that a lost alignment leaves is the one noted. -/
theorem fget_measured (s : State) (ns : Int) (tol : Nat) {f : Fld} (hl : f ≠ .pitchAlignLossCountLosses)
    (hc : f ≠ .cairnCoalesceStatsLatched) : fget (measured s ns tol) f = fget (offsetNoted s ns tol) f := by
  rw [measured_eq]
  split
  · exact fget_alignLost _ hl hc
  · rfl

theorem measured_of_lost {s : State} {ns : Int} (tol : Nat) (hns : 1000 < ns.natAbs) (hs : s.tb.stepDue = false) :
    measured s ns tol = alignLost (offsetNoted s ns tol) := by
  rw [measured_eq, if_pos ⟨hns, hs⟩]

/-- What the statement asks of one measurement. -/
theorem measured_follows (s : State) (ns : Int) (tol : Nat) :
    fget (measured s ns tol) .pitchPhaseTwinOffset = offsetField ns ∧
    fget (measured s ns tol) .pitchAlignAligned = (if ns.natAbs ≤ tol then 1 else 0) ∧
    (1000 < ns.natAbs → s.tb.stepDue = false →
      (measured s ns tol).tb.stepDue = true ∧ Signalled (measured s ns tol) .pitchAlignLost) := by
  refine ⟨?_, ?_, fun hns hs => ?_⟩
  · rw [fget_measured _ _ _ (by decide) (by decide), fget_offsetNoted_twinOffset]
  · rw [fget_measured _ _ _ (by decide) (by decide), fget_offsetNoted_aligned]
  · rw [measured_of_lost tol hns hs]
    exact ⟨by rw [alignLost_tb], alignLost_signalled _⟩

/-! ### Pulses and markers (01 R25, R26) -/

theorem exec_pitchSyncPulse {s : State} (h : aligns s 1 = true) (ns : Int) :
    exec (.pitchSyncPulse ns) s = .next (measured s ns 20) :=
  congrArg Host.Outcome.next (if_pos h)

theorem exec_pitchMarkerFlit_come {s : State} (h : aligns s 2 = true) {n : Nat} (hn : n ≤ s.tb.count) (ns : Int) :
    exec (.pitchMarkerFlit n ns) s = .next (measured s ns 100) := by
  show execPitchMarkerFlit n ns s = _
  simp [execPitchMarkerFlit, h, hn]

theorem exec_pitchMarkerFlit_later {s : State} (h : aligns s 2 = true) {n : Nat} (hn : s.tb.count < n) (ns : Int) :
    exec (.pitchMarkerFlit n ns) s = .next { s with tb := { s.tb with markers := s.tb.markers ++ [(n, ns)] } } := by
  show execPitchMarkerFlit n ns s = _
  simp [execPitchMarkerFlit, h, Nat.not_le.mpr hn]

/-- Settles O26: a pulse and a marker that has come are one measurement each; a later marker joins the list. -/
theorem theSecondAligns : Obligations.TheSecondAligns := by
  intro s ns
  refine ⟨fun h => ⟨_, exec_pitchSyncPulse h ns, measured_follows s ns 20⟩, fun h => ⟨fun n hn => ?_, fun n hn => ?_⟩⟩
  · exact ⟨_, exec_pitchMarkerFlit_come h hn ns, measured_follows s ns 100⟩
  · exact ⟨_, exec_pitchMarkerFlit_later h hn ns, rfl⟩

/-! ### A boundary (01 R21) -/

theorem markersDue_pitchClock (s : State) : pitchClock (markersDue s) = pitchClock s := by
  unfold markersDue
  refine (foldl_same pitchClock (fun u m => ?_) _ _).trans rfl
  split
  · exact measured_pitchClock _ _ _
  · rfl

/-- Order 1 after the check of TIMEBASE_IN: leases, settings, attributes, sessions and a deferred target leave the clock. -/
theorem settings_pitchClock (s : State) :
    pitchClock (deferredTarget (endCleared (attrsInForce (settingsInForce (leasesTested s))))) = pitchClock s :=
  Moves.pitchClock_eq <| deferredTarget_moves rfl <| endCleared_moves rfl <| attrsInForce_moves rfl <|
    settingsInForce_moves rfl <| leasesTested_moves rfl <| .refl _ s

/-- Orders 2 to 8 leave the clock. -/
theorem boundaryOrders_pitchClock (s : State) (deep : Bool) :
    pitchClock (pulses (hintsBoundary (tierBoundary (boundaryTests (commitBatch (boundaryWork s) deep))))) = pitchClock s :=
  Moves.pitchClock_eq <| pulses_moves rfl <| hintsBoundary_moves rfl <| tierBoundary_moves rfl <| boundaryTests_moves rfl <|
    commitBatch_moves rfl <| boundaryWork_moves rfl <| .refl _ s

/-- A late boundary is counted and recorded. -/
def lateNoted (s : State) : State := raise (finc s .pitchLateCountLate) .pitchBoundaryLate

@[simp] theorem lateNoted_tb (s : State) : (lateNoted s).tb = s.tb := raise_tb _ _ _ _ _ _ _

theorem lateNoted_signalled (s : State) : Signalled (lateNoted s) .pitchBoundaryLate := raise_signalled _ _ _ _ _ _ _

/-- The actions of Table 1.7 of a boundary, before a late one is noted. -/
def boundaryActions (s : State) (cycles : Nat) : State :=
  let u := deferredTarget (endCleared (attrsInForce (settingsInForce (leasesTested
    (checkTimebase (nextPitch (countPitch s)) (goodPitch s cycles) (freqOk s cycles))))))
  let v := boundaryWork (markersDue u)
  pulses (hintsBoundary (tierBoundary (boundaryTests (commitBatch v (decide (2 ≤ rung v))))))

theorem pitchBoundary_eq (s : State) (late : Bool) (cycles : Nat) : pitchBoundary s late cycles =
    if late then lateNoted (boundaryActions s cycles) else boundaryActions s cycles := rfl

theorem boundaryActions_pitchClock (s : State) (cycles : Nat) : pitchClock (boundaryActions s cycles) = nextClock s := by
  unfold boundaryActions
  rw [boundaryOrders_pitchClock, markersDue_pitchClock, settings_pitchClock, checkTimebase_pitchClock,
    nextPitch_countPitch_pitchClock]

theorem pitchBoundary_pitchClock (s : State) (late : Bool) (cycles : Nat) :
    pitchClock (pitchBoundary s late cycles) = nextClock s := by
  rw [pitchBoundary_eq]
  split
  · rw [pitchClock_of_tb (lateNoted_tb _), boundaryActions_pitchClock]
  · exact boundaryActions_pitchClock s cycles

theorem pitchBoundary_late (s : State) (cycles : Nat) : Signalled (pitchBoundary s true cycles) .pitchBoundaryLate :=
  lateNoted_signalled _

theorem exec_pitchBoundary {s : State} (h : s.tb.started = true ∨ s.tb.running = true) (late : Bool) (cycles : Nat) :
    exec (.pitchBoundary late cycles) s = .next (pitchBoundary s late cycles) :=
  congrArg Host.Outcome.next (if_pos (by simpa using h))

/-! ### TIMEBASE_IN (01 R19) -/

theorem timebaseLoss_holdover (s : State) : fget (timebaseLoss s) .pitchAlignHoldover = 1 := by
  unfold timebaseLoss
  split
  · assumption
  · exact (fget_raise _ _ _ _ _ _ _ _ _ (by decide)).trans (fget_fset_self _ _ _ _ _)

theorem timebaseLoss_signalled {s : State} (h : fget s .pitchAlignHoldover ≠ 1) :
    Signalled (timebaseLoss s) .pitchTbLoss := by
  unfold timebaseLoss
  rw [if_neg h]
  exact raise_signalled _ _ _ _ _ _ _

theorem stopTimebase_running (s : State) : (stopTimebase s).tb.running = false := by
  unfold stopTimebase
  rw [timebaseLoss_tb]

/-- The switch back to TIMEBASE_IN after the good pitches. -/
theorem restoreTimebase_restored {s : State} (hh : fget s .pitchAlignHoldover = 1) (hg : goodPitches ≤ s.tb.good) :
    fget (restoreTimebase s) .pitchAlignHoldover = 0 ∧ (restoreTimebase s).tb.good = 0 ∧
      Signalled (restoreTimebase s) .pitchTbRestored := by
  unfold restoreTimebase
  rw [if_pos ⟨hh, hg⟩]
  refine ⟨?_, ?_, raise_signalled _ _ _ _ _ _ _⟩
  · exact (fget_raise _ _ _ _ _ _ _ _ _ (by decide)).trans (fget_fset_self _ _ _ _ _)
  · rw [raise_tb]

/-! ### The management complexes (01 R12) -/

theorem takeover_leader (s : State) : fget (takeover s) .cairnStatusLeader = 1 - fget s .cairnStatusLeader := by
  have h1 : fget (takeover s) .cairnStatusLeader = (1 - fget s .cairnStatusLeader) % 2 :=
    (fget_record _ _ _ _ _ _ _ (by decide)).trans (fget_fset_self _ _ _ _ _)
  omega

/-- The complexes run from power good on, in every phase but the dead ones. -/
theorem exec_complexTakeover {s : State} (ha : s.boot.phase ≠ .auxOnly) (ht : s.boot.phase ≠ .tripped)
    (hd : s.boot.phase ≠ .dead) : exec .complexTakeover s = .next (takeover s) := by
  show execComplexTakeover s = _
  unfold execComplexTakeover
  split
  · exact absurd ‹_› ha
  · exact absurd ‹_› ht
  · exact absurd ‹_› hd
  · rfl

/-- Settles O25: each clause is the rule of its command, a boundary's by the clock that it leaves. -/
theorem pitchCountsAndChecksTheTimebase : Obligations.PitchCountsAndChecksTheTimebase := by
  intro s
  refine ⟨fun late cycles h => ⟨_, exec_pitchBoundary h late cycles, ?_⟩, ⟨stopTimebase s, rfl, stopTimebase_running s,
    timebaseLoss_holdover _, fun h => timebaseLoss_signalled h⟩, ⟨_, rfl, rfl⟩,
    fun hh hg => ⟨restoreTimebase s, rfl, restoreTimebase_restored hh hg⟩,
    fun ha ht hd => ⟨_, exec_complexTakeover ha ht hd, takeover_leader s⟩⟩
  have hclock := pitchBoundary_pitchClock s late cycles
  simp only [pitchClock, nextClock, Prod.mk.injEq] at hclock
  obtain ⟨hc, hn, hp, hs⟩ := hclock
  refine ⟨hn, hp, hc, hs, ?_⟩
  rintro rfl
  exact pitchBoundary_late s cycles

end Sys2Proof.Machine
end

section
/-! PROOF. The bytes of a line, and a read or write of an unshared line at its home in a package alone (O36). -/

namespace Sys2Proof.Machine

open Sys2Proof

/-! ### The bytes of a line -/

@[simp] theorem lineBytesOf_length (d : Line) : (lineBytesOf d).length = 64 := by simp [lineBytesOf]

theorem lineBytesOf_getElem (d : Line) {k : Nat} (hk : k < 64) :
    (lineBytesOf d)[k]'(by simpa using hk) = d.extractLsb' (8 * k) 8 := by simp [lineBytesOf]

/-- The value of a list of bytes, byte 0 lowest, shows byte `k` at place `k`. -/
theorem foldr_bytes_div_mod (bs : List Byte) {k : Nat} (hk : k < bs.length) :
    bs.foldr (fun b acc => acc * 256 + b.toNat) 0 / 2 ^ (8 * k) % 2 ^ 8 = bs[k].toNat := by
  induction bs generalizing k with
  | nil => simp at hk
  | cons b r ih =>
    have hb : b.toNat < 256 := b.isLt
    rw [List.foldr_cons]
    cases k with
    | zero => simp only [List.getElem_cons_zero]; omega
    | succ k =>
      rw [show 8 * (k + 1) = 8 + 8 * k by omega, Nat.pow_add, ← Nat.div_div_eq_div_mul,
        show (r.foldr (fun b acc => acc * 256 + b.toNat) 0 * 256 + b.toNat) / 2 ^ 8 =
          r.foldr (fun b acc => acc * 256 + b.toNat) 0 by omega]
      exact ih (by simpa using hk)

/-- Byte `k` of a line made of bytes. -/
theorem lineOfBytes_byte (bs : List Byte) {k : Nat} (hk : k < bs.length) (h64 : k < 64) :
    (lineOfBytes bs).extractLsb' (8 * k) 8 = bs[k] := by
  apply BitVec.eq_of_toNat_eq
  rw [BitVec.extractLsb'_toNat, lineOfBytes, BitVec.toNat_ofNat, Nat.shiftRight_eq_div_pow,
    ← foldr_bytes_div_mod bs hk, show 512 = 8 * k + (512 - 8 * k) by omega, Nat.pow_add, Nat.mod_mul_right_div_self,
    Nat.mod_mod_of_dvd _ (Nat.pow_dvd_pow 2 (by omega))]

/-- Byte `k` of the stored line is the byte of memory there. -/
theorem lineData_byte (s : State) (line : Nat) {k : Nat} (hk : k < 64) :
    (lineData s line).extractLsb' (8 * k) 8 = Memory.get s.mem (line * 64 + k) := by
  rw [lineData, lineOfBytes_byte _ (by simpa [Memory.read] using hk) hk]
  simp [Memory.read]

/-- Byte `k` of a merged line: the new one where the mask is set. -/
theorem mergeLine_byte (old new : Line) (mask : BitVec 64) {k : Nat} (hk : k < 64) :
    (mergeLine old new mask).extractLsb' (8 * k) 8 =
      if mask.getLsbD k then new.extractLsb' (8 * k) 8 else old.extractLsb' (8 * k) 8 := by
  rw [mergeLine, lineOfBytes_byte _ (by simpa using hk) hk]
  simp

/-! ### A line written with valid check bytes -/

@[simp] theorem heal_mem (s : State) (line : Nat) : (heal s line).mem = s.mem := by unfold heal; split <;> rfl
@[simp] theorem heal_poison (s : State) (line : Nat) : (heal s line).poison = s.poison := by unfold heal; split <;> rfl
@[simp] theorem heal_pcs (s : State) (line : Nat) : (heal s line).pcs = s.pcs := by unfold heal; split <;> rfl

@[simp] theorem heal_twinUp (s : State) (line : Nat) : twinUp (heal s line) = twinUp s := by unfold heal; split <;> rfl

theorem putLine_mem (s : State) (line : Nat) (d : Line) :
    (putLine s line d).mem = Memory.write s.mem (line * 64) (lineBytesOf d) := by
  rw [putLine, heal_mem]

theorem putLine_byte {s : State} (hwf : Memory.wf s.mem = true) (line : Nat) (d : Line) {k : Nat} (hk : k < 64) :
    Memory.get (putLine s line d).mem (line * 64 + k) = d.extractLsb' (8 * k) 8 := by
  rw [putLine_mem, Memory.get_write hwf _ _ _ (by simpa using hk), lineBytesOf_getElem d hk]

/-- A line's write leaves every byte outside the line. -/
theorem putLine_elsewhere {s : State} (hwf : Memory.wf s.mem = true) (line : Nat) (d : Line) {a : Nat}
    (ha : a < line * 64 ∨ line * 64 + 64 ≤ a) : Memory.get (putLine s line d).mem a = Memory.get s.mem a := by
  rw [putLine_mem, Memory.get_write_ne hwf _ _ _ (by simpa using ha)]

theorem putLine_poison (s : State) (line : Nat) (d : Line) : line ∉ (putLine s line d).poison := by
  have h : (putLine s line d).poison = rem s.poison line := by rw [putLine, heal_poison]
  rw [h]
  simp [rem]

@[simp] theorem putLine_pcs (s : State) (line : Nat) (d : Line) : (putLine s line d).pcs = s.pcs := by
  rw [putLine, heal_pcs]

/-! ### A line read without bit errors (11 R247) -/

/-- The poison word is read: counted and recorded. -/
def poisonSeen (s : State) (line : Nat) : State :=
  raise (finc s .rasPoisonPoisonReads) .rasPoisonRead 0 none (lineBytes8 line 0)

@[simp] theorem poisonSeen_mem (s : State) (line : Nat) : (poisonSeen s line).mem = s.mem := raise_mem _ _ _ _ _ _ _
theorem poisonSeen_twinUp (s : State) (line : Nat) : twinUp (poisonSeen s line) = twinUp s := by
  simp [poisonSeen, twinUp, paired]
@[simp] theorem poisonSeen_pcs (s : State) (line : Nat) : (poisonSeen s line).pcs = s.pcs := raise_pcs _ _ _ _ _ _ _

/-- No bit error is on the cells of a line, and its contents are its own. -/
structure CleanLine (s : State) (line : Nat) : Prop where
  undamaged : ∀ x ∈ s.damage, x.1 ≠ line
  synced : lineUnsynced s line = false

/-- What the line code says of cells without bit errors. -/
theorem readCode_nil (poisoned : Bool) (d : Line) : readCode poisoned d [] = if poisoned then .poison else .good d := rfl

/-- A read of a line without bit errors: the poison word, or the stored bytes. -/
theorem readLine_clean {s : State} {line : Nat} (h : CleanLine s line) (src : Nat) :
    readLine s line [] src =
      if s.poison.contains line then (poisonSeen s line, .poison) else (s, .good (lineData s line)) := by
  unfold readLine
  extract_lets u errs pc l r
  have hu : u = s := by
    show { s with damage := s.damage ++ [] } = s
    rw [List.append_nil]
  have herrs : errs = [] := by simpa [errs, hu] using h.undamaged
  have hr : r = if s.poison.contains line then .poison else .good (lineData s line) := by
    show readCode (u.poison.contains line || lineUnsynced u line) (lineData u line) errs = _
    rw [herrs, hu, h.synced, Bool.or_false, readCode_nil]
  clear_value r u
  subst hr hu
  by_cases hp : u.poison.contains line = true
  · simp only [hp, if_true]
    rfl
  · simp only [hp]
    rfl

/-! ### Partial writes that wait on a line (11 R251) -/

/-- The partial writes of a PC that wait on a line. -/
def waitingOn (s : State) (line : Nat) : List Req :=
  (pcOf s (pcOfAddr (line * 64))).partials.filter fun r => decide (lineOf r.dpa = line)

theorem mergeLineAll_none {s : State} {line : Nat} (h : waitingOn s line = []) (upset : Upset) :
    mergeLineAll s line upset = s := by
  unfold waitingOn at h
  unfold mergeLineAll
  dsimp only
  rw [h]

theorem mergeLineAll_one {s : State} {line : Nat} {r : Req} (h : waitingOn s line = [r]) (upset : Upset) :
    mergeLineAll s line upset = mergeOne s r upset := by
  unfold waitingOn at h
  unfold mergeLineAll
  dsimp only
  rw [h]
  rfl

/-- A partial write leaves the list of its PC. -/
def partialTaken (s : State) (r : Req) : State :=
  pcUpd s (pcOfAddr r.dpa) fun st => { st with partials := st.partials.erase r }

/-- The merge of a partial write into a line without bit errors: poison discards it, else its bytes go over the
stored ones. -/
theorem mergeOne_clean {s : State} {r : Req} (h : CleanLine s (lineOf r.dpa)) :
    mergeOne s r [] =
      if s.poison.contains (lineOf r.dpa) then discardPartial (poisonSeen (partialTaken s r) (lineOf r.dpa)) r.p
      else putLine (partialTaken s r) (lineOf r.dpa) (mergeLine (lineData s (lineOf r.dpa)) r.data r.mask) := by
  have hclean : CleanLine (partialTaken s r) (lineOf r.dpa) := ⟨h.undamaged, h.synced⟩
  have hread := readLine_clean hclean 0
  unfold mergeOne
  extract_lets line pc u
  rw [show readLine u line [] 0 = _ from hread]
  by_cases hp : s.poison.contains (lineOf r.dpa) = true
  · rw [if_pos hp, if_pos (show (partialTaken s r).poison.contains (lineOf r.dpa) = true from hp)]
  · rw [if_neg hp, if_neg (show ¬(partialTaken s r).poison.contains (lineOf r.dpa) = true from hp)]
    rfl

@[simp] theorem discardPartial_mem (s : State) (p : Part) : (discardPartial s p).mem = s.mem := record_mem _ _ _ _ _
@[simp] theorem discardPartial_pcs (s : State) (p : Part) : (discardPartial s p).pcs = s.pcs := record_pcs _ _ _ _ _

/-! ### A host's request at the home of an unshared line -/

/-- A request of a host on its way: no version and no saved line of a snapshot. -/
structure FromHost (r : Req) (h : Head) : Prop where
  src : r.src = .host h
  ver : r.ver = none
  fixed : r.fixed = none

/-- A partition holds a DPA in an unshared extent (SHARING 0), its block is stored RAW, and the package is alone. -/
structure SoloLine (s : State) (p : Part) (dpa : Nat) (e : Extent) : Prop where
  alone : twinUp s = false
  raw : needsExpander s (blockOf dpa) = false
  held : heldExt s p dpa = some e
  priv : e.attr.sharing = 0

section
variable {s : State} {p : Part} {dpa : Nat} {e : Extent}

theorem extOf_of_heldExt (h : heldExt s p dpa = some e) : extOf s dpa = some e := (Option.filter_eq_some_iff.mp h).1

theorem snapCopy_unshared (he : e.attr.sharing = 0) (p b : Nat) (ver : Option Nat) : snapCopy s e p b ver = none := by
  unfold snapCopy
  rw [if_neg (by omega)]

theorem forwardsAll_alone (h : twinUp s = false) : forwardsAll s = false := by simp [forwardsAll, h]

theorem mirrors_alone (h : twinUp s = false) : mirrors s = false := by simp [mirrors, h]

end

section
variable {s t : State} {r : Req} {h : Head} {e : Extent}

theorem FromHost.reqJob_none (hr : FromHost r h) : reqJob s r = none := by simp [reqJob, hr.src]

theorem FromHost.reqClass_eq (hr : FromHost r h) : reqClass s r = classOf s r.dpa := by
  simp [reqClass, hr.reqJob_none]

theorem FromHost.reqLevel_eq (hr : FromHost r h) :
    reqLevel s r = levelOf s (clusterOf r.dpa) (some r.p.val) (classOf s r.dpa) := by
  simp [reqLevel, hr.reqClass_eq]

/-- A read of an unshared extent has no version to keep. -/
theorem SoloLine.atHome_eq (l : SoloLine s r.p r.dpa e) (hr : FromHost r h) : atHome s r = r := by
  have hver : reqVer s r = r.ver := by
    simp [reqVer, verAt, hr.ver, extOf_of_heldExt l.held, l.priv]
  rw [atHome, hver]


/-! ### The request at its PC (09 R208, R209; 10 R222) -/

/-- The kinds of state that the count of the bytes moved may change. -/
def countKinds : Nat := kindSet [.messages, .headers, .events, .config, .regulation, .page .qos]

/-- The kinds of state that a queue entry and the count of its bytes may change. -/
def queueKinds : Nat := countKinds ||| kindSet [.controllers, .page .pc]

/-- The kinds of state that an answer may change, and those that an accepted write may. -/
def answerKinds : Nat := kindSet [.messages, .config, .jobs, .steps, .regulation, .page .qos]
def acceptKinds : Nat := answerKinds ||| kindSet [.pair]

/-- The kinds of state that the note of a written block may change. -/
def noteKinds : Nat := kindSet [.frames, .compression]

/-- A host's request has its queue entry, and its bytes are counted. -/
def queued (s : State) (r : Req) : State :=
  moveBytes (enqueue s (pcOfAddr r.dpa) (decide (noService r = .cmp)) r.dpa (reqLevel s r) (some r.p.val) (reqClass s r)
    (hintOf s r).1) r (decide (noService r = .cmp))

theorem queued_moves (s : State) (r : Req) : Moves queueKinds s (queued s r) :=
  moveBytes_moves rfl <| enqueue_moves rfl <| .refl _ s

theorem enqueue_partials (s : State) (pc : Nat) (write : Bool) (dpa level : Nat) (part cls : Option Nat) (hint k : Nat) :
    (pcOf (enqueue s pc write dpa level part cls hint) k).partials = (pcOf s k).partials := by
  have hupd : ∀ g : PcState → PcState, (∀ x, (g x).partials = x.partials) →
      (pcOf (pcUpd s pc g) k).partials = (pcOf s k).partials := by
    intro g hg
    by_cases hk : k = pc
    · rw [hk, pcOf_pcUpd_self, hg]
    · rw [pcOf_pcUpd_ne _ _ hk]
  unfold enqueue wakeRank
  dsimp only
  rw [pcOf_fset]
  split
  · rw [pcOf_finc]
    exact hupd _ fun _ => rfl
  · exact hupd _ fun _ => rfl

/-- The partial writes that wait stay as they are. -/
theorem queued_partials (s : State) (r : Req) (k : Nat) : (pcOf (queued s r) k).partials = (pcOf s k).partials := by
  have hmove : ∀ u write, (moveBytes u r write).pcs = u.pcs := fun u write =>
    ((moveBytes_moves (F := countKinds) rfl (.refl _ u)).frame .controllers (by decide)).1
  unfold queued pcOf
  rw [hmove]
  exact enqueue_partials ..

/-- What a held line's rules rest on stays, where extents, block index, pair and its page stay. -/
theorem soloLine_queued (l : SoloLine s r.p r.dpa e) (q : Req) : SoloLine (queued s q) r.p r.dpa e := by
  have m := queued_moves s q
  obtain ⟨hexts, -⟩ : Same .extents s (queued s q) := m.frame .extents (by decide)
  obtain ⟨hindex, -, -, -, -, -, hdamaged⟩ : Same .compression s (queued s q) := m.frame .compression (by decide)
  have hbelay : (queued s q).belay = s.belay := m.frame .pair (by decide)
  have hrole : fget (queued s q) .belayStatusRole = fget s .belayStatusRole :=
    (m.frame (.page .belay) (by decide) .belayStatusRole 0 0 rfl (by decide)).1
  refine ⟨?_, ?_, ?_, l.priv⟩
  · rw [← l.alone]
    simp only [twinUp, paired, hrole, hbelay]
  · rw [← l.raw]
    unfold needsExpander isCoded idxOf
    rw [hindex, hdamaged]
  · rw [← l.held]
    simp only [heldExt, extOf, extOfGran, hexts]

theorem cleanLine_queued {line : Nat} (c : CleanLine s line) (q : Req) : CleanLine (queued s q) line := by
  have m := queued_moves s q
  obtain ⟨-, -, hdamage⟩ : Same .memory s (queued s q) := m.frame .memory (by decide)
  have hbelay : (queued s q).belay = s.belay := m.frame .pair (by decide)
  refine ⟨by rw [hdamage]; exact c.undamaged, ?_⟩
  rw [← c.synced]
  simp only [lineUnsynced, hbelay]

theorem queued_mem (s : State) (r : Req) : (queued s r).mem = s.mem := ((queued_moves s r).frame .memory (by decide)).1

theorem queued_poison (s : State) (r : Req) : (queued s r).poison = s.poison :=
  ((queued_moves s r).frame .memory (by decide)).2.1

/-! ### Serving (01 R14, R15) -/

/-- The home of a line serves, its PC holds nothing, and a request of a partition finds room in the queue. -/
structure HasRoom (s : State) (p : Part) (dpa : Nat) : Prop where
  serves : homeSt s dpa = .serve
  idle : (pcOf s (pcOfAddr dpa)).held = []
  room : queueRoom s (pcOfAddr dpa) (levelOf s (clusterOf dpa) (some p.val) (classOf s dpa)) (classOf s dpa) = true

/-- The bytes that a request offers at its cluster are counted (09 R210). -/
def offered (s : State) (r : Req) : State := qosOffer s (clusterOf r.dpa) (some r.p.val) 64

/-- A request that its home serves with room in its queue is performed. -/
theorem homeReq_serve (l : SoloLine s r.p r.dpa e) (hr : FromHost r h) (hroom : HasRoom s r.p r.dpa) (upset : Upset) :
    homeReq s r upset = perform (offered s r) r upset := by
  have hfree : (queueRoom (offered s r) (pcOfAddr r.dpa) (levelOf (offered s r) (clusterOf r.dpa) (some r.p.val)
      (classOf (offered s r) r.dpa)) (classOf (offered s r) r.dpa) &&
      (pcOf (offered s r) (pcOfAddr r.dpa)).held.isEmpty) = true :=
    Bool.and_eq_true_iff.mpr ⟨hroom.room, List.isEmpty_iff.mpr hroom.idle⟩
  unfold homeReq
  dsimp only
  rw [l.atHome_eq hr, show homeSt (qosOffer s (clusterOf r.dpa) (some r.p.val) 64) r.dpa = .serve from hroom.serves]
  dsimp only
  rw [hr.reqLevel_eq, hr.reqClass_eq]
  exact if_pos hfree

/-- A host's request leaves the draws of free values as they are: the extent names the page-policy hint. -/
theorem hintOf_fromHost (s : State) (hr : FromHost r h) : (hintOf s r).2 = s := by
  unfold hintOf
  rw [hr.src]

/-- The queue entry and the bytes moved of a performed request are those of `queued`. -/
theorem perform_queued (s : State) (hr : FromHost r h) :
    moveBytes (enqueue (hintOf s r).2 (pcOfAddr r.dpa) (decide (noService r = .cmp)) r.dpa (reqLevel (hintOf s r).2 r)
      (some r.p.val) (reqClass (hintOf s r).2 r) (hintOf s r).1) r (decide (noService r = .cmp)) = queued s r := by
  rw [hintOf_fromHost s hr]
  rfl

/-- A write of a host, queued, is served. -/
theorem perform_write (hr : FromHost r h) (hk : noService r = .cmp) (upset : Upset) :
    perform s r upset = serveWrite (queued s r) r := by
  unfold perform
  dsimp only
  rw [perform_queued s hr, if_pos (by simpa using hk)]

/-- A read of a host of a readable extent, queued, is served. -/
theorem perform_read (l : SoloLine s r.p r.dpa e) (he : e.unreadable = false) (hr : FromHost r h) (hk : noService r = .poison)
    (upset : Upset) : perform s r upset = serveRead (queued s r) r upset := by
  have hext : (extOf (queued s r) r.dpa).map (·.unreadable) = some false := by
    rw [extOf_of_heldExt (soloLine_queued l r).held, Option.map_some, he]
  unfold perform
  dsimp only
  rw [perform_queued s hr, if_neg (by simp [hk]), hr.fixed, hext]

/-- A host's request is answered at its head. -/
theorem answer_sent (hr : FromHost r h) (s : State) (res : MemRes) (gme : Bool) :
    ∃ load, .memRsp r.p h r.dpa res load ∈ (answer s r res gme).out := by
  have hrsp : (hostRsp s r.p h r.dpa res).out = .memRsp r.p h r.dpa res (devLoadOf s r.dpa) :: s.out := rfl
  have sent : .memRsp r.p h r.dpa res (devLoadOf s r.dpa) ∈ (hostRsp s r.p h r.dpa res).out := by simp [hrsp]
  refine ⟨devLoadOf s r.dpa, ?_⟩
  unfold answer
  rw [hr.src]
  dsimp only
  split
  · obtain ⟨l, hl⟩ := (mediaEvent_moves (F := answerKinds) rfl (.refl _ (hostRsp s r.p h r.dpa res))).keeps.out
    rw [hl]
    exact List.mem_append_right l sent
  · exact sent

theorem answer_mem (s : State) (r : Req) (res : MemRes) (gme : Bool) : (answer s r res gme).mem = s.mem :=
  ((answer_moves (F := answerKinds) rfl (.refl _ s)).frame .memory (by decide)).1

section
variable (l : SoloLine s r.p r.dpa e)
include l

theorem SoloLine.snapCopy_none (b : Nat) (ver : Option Nat) :
    ((heldExt s r.p r.dpa).bind fun e => snapCopy s e r.p b ver) = none := by
  rw [l.held]
  exact snapCopy_unshared l.priv _ _ _

theorem SoloLine.isCoded_false : isCoded s (blockOf r.dpa) = false := (Bool.or_eq_false_iff.mp l.raw).1

/-- What a read of an unshared line without bit errors yields: the stored bytes, or poison. -/
theorem readData_clean (hc : CleanLine s (lineOf r.dpa)) (hw : waitingOn s (lineOf r.dpa) = []) (src : Nat)
    (ver : Option Nat) : readData s r.p r.dpa [] src ver =
      if s.poison.contains (lineOf r.dpa) then (poisonSeen s (lineOf r.dpa), .poison true true)
      else (s, .data (lineData s (lineOf r.dpa))) := by
  unfold readData
  dsimp only
  rw [l.snapCopy_none, l.isCoded_false, mergeLineAll_none hw, ite_self, readLine_clean hc]
  by_cases hp : s.poison.contains (lineOf r.dpa) = true
  · rw [if_pos hp, if_pos hp]
    rfl
  · rw [if_neg hp, if_neg hp]
    rfl

/-- A read at the home of an unshared line: answered with the stored bytes, or with poison. -/
theorem serveRead_clean (hc : CleanLine s (lineOf r.dpa)) (hw : waitingOn s (lineOf r.dpa) = []) :
    serveRead s r [] =
      if s.poison.contains (lineOf r.dpa) then answer (poisonSeen s (lineOf r.dpa)) r .poison true
      else answer s r (.data (lineData s (lineOf r.dpa))) := by
  unfold serveRead
  dsimp only
  rw [l.snapCopy_none, l.raw, Bool.and_false, readData_clean l hc hw]
  by_cases hp : s.poison.contains (lineOf r.dpa) = true
  · rw [if_pos hp, if_pos hp]
    dsimp only
    rw [poisonSeen_twinUp, l.alone]
    rfl
  · rw [if_neg hp, if_neg hp]
    rfl

end

/-! ### A write of an unshared line -/

/-- A write of a whole line takes the place of the partial writes that wait on it. -/
def lineTaken (s : State) (r : Req) : State :=
  pcUpd s (pcOfAddr r.dpa) fun st =>
    { st with partials := st.partials.filter (fun q => decide (lineOf q.dpa ≠ lineOf r.dpa)),
              poisonDue := rem st.poisonDue (lineOf r.dpa) }

/-- A partial write waits at its PC. -/
def partialKept (s : State) (r : Req) : State :=
  pcUpd s (pcOfAddr r.dpa) fun st => { st with partials := st.partials ++ [r] }

section
variable (l : SoloLine s r.p r.dpa e)
include l

theorem SoloLine.noSnapshot : ((extOf s r.dpa).bind fun e => if e.attr.sharing = 2 then some e else none) = none := by
  rw [extOf_of_heldExt l.held, Option.bind_some, if_neg (by rw [l.priv]; decide)]

theorem applyWrite_unshared : applyWrite s r =
    noteWrite (if r.mask = fullMask then putLine (lineTaken s r) (lineOf r.dpa) r.data else partialKept s r)
      (blockOf r.dpa) := by
  unfold applyWrite
  dsimp only
  rw [l.noSnapshot]
  rfl

theorem serveWrite_unshared : serveWrite s r = acceptDone (applyWrite s r) r := by
  unfold serveWrite
  dsimp only
  rw [l.noSnapshot, l.raw]
  rfl

end

theorem noteWrite_frame {k : Kind} (s : State) (b : Nat) (hk : noteKinds.testBit k.num = false) :
    Same k s (noteWrite s b) := (noteWrite_moves (F := noteKinds) rfl (.refl _ s)).frame k hk

theorem noteWrite_twinUp (s : State) (b : Nat) : twinUp (noteWrite s b) = twinUp s := by
  have hbelay : (noteWrite s b).belay = s.belay := noteWrite_frame (k := .pair) s b (by decide)
  have hrole : fget (noteWrite s b) .belayStatusRole = fget s .belayStatusRole :=
    (noteWrite_frame (k := .page .belay) s b (by decide) .belayStatusRole 0 0 rfl (by decide)).1
  simp only [twinUp, paired, hbelay, hrole]

theorem putLine_twinUp (s : State) (line : Nat) (d : Line) : twinUp (putLine s line d) = twinUp s := by
  rw [putLine, heal_twinUp]
  unfold twinUp paired fget
  rfl

theorem applyWrite_twinUp (l : SoloLine s r.p r.dpa e) : twinUp (applyWrite s r) = twinUp s := by
  rw [applyWrite_unshared l, noteWrite_twinUp]
  split
  · exact putLine_twinUp _ _ _
  · rfl

theorem acceptDone_frame {k : Kind} (s : State) (r : Req) (hk : acceptKinds.testBit k.num = false) :
    Same k s (acceptDone s r) := (acceptDone_moves (F := acceptKinds) rfl (.refl _ s)).frame k hk

/-- A write accepted in a package alone is completed. -/
theorem acceptDone_alone (hr : FromHost r h) (halone : twinUp s = false) :
    ∃ load, .memRsp r.p h r.dpa .cmp load ∈ (acceptDone s r).out := by
  unfold acceptDone
  extract_lets b u
  have hu : mirrors u = false := by
    refine mirrors_alone ?_
    show twinUp (ite _ _ _) = false
    split
    · exact halone
    · exact halone
  rw [hr.src]
  dsimp only
  rw [hu]
  exact answer_sent hr u .cmp false

/-- A write at the home of an unshared line, when it is done: memory and the waiting partial writes are those of its
PC's rule, and it completes. -/
theorem serveWrite_done (l : SoloLine s r.p r.dpa e) (hr : FromHost r h) :
    Same .memory (if r.mask = fullMask then putLine (lineTaken s r) (lineOf r.dpa) r.data else partialKept s r)
      (serveWrite s r) ∧
    (serveWrite s r).pcs = (if r.mask = fullMask then lineTaken s r else partialKept s r).pcs ∧
    ∃ load, .memRsp r.p h r.dpa .cmp load ∈ (serveWrite s r).out := by
  rw [serveWrite_unshared l]
  refine ⟨?_, ?_, acceptDone_alone hr ((applyWrite_twinUp l).trans l.alone)⟩
  · refine Same.trans ?_ (acceptDone_frame (k := .memory) _ r (by decide))
    rw [applyWrite_unshared l]
    exact noteWrite_frame (k := .memory) _ _ (by decide)
  · refine (acceptDone_frame (k := .controllers) _ r (by decide)).1.trans ?_
    rw [applyWrite_unshared l]
    refine (noteWrite_frame (k := .controllers) _ _ (by decide)).1.trans ?_
    split
    · exact putLine_pcs _ _ _
    · rfl

/-! ### At the head (02 R51; 03 R64; 07 R180) -/

/-- A host's read of a line, and its write. -/
def readReq (h : Head) (p : Part) (dpa : Nat) (mv : Meta) : Req :=
  { kind := .read, p := p, src := .host h, dpa := dpa, mv := mv }
def writeReq (h : Head) (p : Part) (dpa : Nat) (d : Line) (mask : BitVec 64) (mv : Meta) : Req :=
  { kind := .write, p := p, src := .host h, dpa := dpa, data := d, mask := mask, mv := mv }

theorem readReq_fromHost (h : Head) (p : Part) (dpa : Nat) (mv : Meta) : FromHost (readReq h p dpa mv) h := ⟨rfl, rfl, rfl⟩
theorem writeReq_fromHost (h : Head) (p : Part) (dpa : Nat) (d : Line) (mask : BitVec 64) (mv : Meta) :
    FromHost (writeReq h p dpa d mask mv) h := ⟨rfl, rfl, rfl⟩

theorem lineDpa_eq {dpa : Nat} (h : dpa % 64 = 0) : dpa / 64 * 64 = dpa := by omega

/-- In SOLO-D a request of an unshared extent goes to its home. -/
theorem routeReq_unshared (he : e.attr.sharing = 0) (ht : s.boot.tiered = false) (r : Req) (upset : Upset) :
    routeReq s e r upset = homeReq s r upset := by
  unfold routeReq tierReq
  rw [if_neg (by omega), ht]
  rfl

/-- A held unshared line's read that passes the head. -/
theorem doHostRead_unshared {p : Part} {dpa : Nat} (l : SoloLine s p dpa e) (hdpa : dpa % 64 = 0) (ht : s.boot.tiered = false)
    (hstop : headStop s h p = none) (hdec : s.belay.deciding = false) (hsync : lineUnsynced s (lineOf dpa) = false)
    (mv : Meta) (upset : Upset) : doHostRead s h p dpa mv upset = homeReq s (readReq h p dpa mv) upset := by
  have hbi : biStops s p h dpa = false := by
    simp [biStops, l.held, l.priv]
  unfold doHostRead
  dsimp only
  rw [lineDpa_eq hdpa, hstop]
  dsimp only
  rw [hbi, forwardsAll_alone l.alone, hdec, l.held]
  dsimp only
  rw [hsync]
  exact routeReq_unshared l.priv ht _ upset

/-- No byte of the line lies in an open window: the whole mask passes. -/
theorem windowMask_outside {p dpa : Nat} (hw : ∀ i, i < 64 → inWindow s p (dpa / 64 * 64 + i) = false) (mask : BitVec 64) :
    windowMask s p dpa mask = mask := by
  unfold windowMask
  refine List.foldlRecOn (motive := fun m => m = mask) _ _ rfl fun m hm i hi => ?_
  rw [hw i (List.mem_range.mp hi)]
  exact hm

/-- A write of a held unshared line whose whole mask lies outside open windows. -/
theorem checkedWrite_unshared (l : SoloLine s r.p r.dpa e) (ht : s.boot.tiered = false)
    (hmask : windowMask s r.p r.dpa r.mask = r.mask) : checkedWrite s r = homeReq s r [] := by
  have hdraft : draftOk s e r.p = true := by simp [draftOk, l.priv]
  unfold checkedWrite
  rw [l.held]
  dsimp only
  rw [if_pos hdraft]
  unfold windowWrite
  dsimp only
  rw [if_pos hmask]
  unfold sendWrite
  rw [l.alone, Bool.and_false]
  exact routeReq_unshared l.priv ht r []

/-- A held unshared line's write that passes the head and lies outside open windows. -/
theorem doHostWrite_unshared {p : Part} {dpa : Nat} (l : SoloLine s p dpa e) (hdpa : dpa % 64 = 0) (ht : s.boot.tiered = false)
    (hstop : headStop s h p = none) (hrole : bRole s ≠ roleFenced) (hdec : s.belay.deciding = false)
    (hw : ∀ i, i < 64 → inWindow s p (dpa + i) = false) (d : Line) (mask : BitVec 64) (mv : Meta) :
    doHostWrite s h p dpa d mask mv = homeReq s (writeReq h p dpa d mask mv) [] := by
  have hmask : windowMask s p dpa mask = mask := windowMask_outside (by rwa [lineDpa_eq hdpa]) mask
  unfold doHostWrite
  dsimp only
  rw [lineDpa_eq hdpa, hstop]
  dsimp only
  rw [if_neg hrole, hdec]
  exact checkedWrite_unshared (r := writeReq h p dpa d mask mv) l ht hmask

/-! ### The commands (01 R14, R15; 11 R251) -/

/-- A held unshared line's request is performed on the state in which its bytes are offered and the pitch is active. -/
def arrived (s : State) (r : Req) : State := queued (offered (touch s) r) r

theorem soloLine_arrived (l : SoloLine s r.p r.dpa e) : SoloLine (arrived s r) r.p r.dpa e :=
  soloLine_queued (s := offered (touch s) r) ⟨l.alone, l.raw, l.held, l.priv⟩ r

theorem cleanLine_arrived {line : Nat} (c : CleanLine s line) (r : Req) : CleanLine (arrived s r) line :=
  cleanLine_queued (s := offered (touch s) r) ⟨c.undamaged, c.synced⟩ r

theorem arrived_mem (s : State) (r : Req) : (arrived s r).mem = s.mem := queued_mem _ _
theorem arrived_poison (s : State) (r : Req) : (arrived s r).poison = s.poison := queued_poison _ _
theorem arrived_partials (s : State) (r : Req) (k : Nat) : (pcOf (arrived s r) k).partials = (pcOf s k).partials :=
  queued_partials _ _ _

/-- The checks of a host's request at its head and its home, passed. -/
structure Passes (s : State) (h : Head) (p : Part) (dpa : Nat) (e : Extent) : Prop where
  line : dpa % 64 = 0
  untiered : s.boot.tiered = false
  opened : headOpen s h = true
  through : headStop s h p = none
  decided : s.belay.deciding = false
  solo : SoloLine s p dpa e
  room : HasRoom s p dpa

theorem lineData_congr (hm : t.mem = s.mem) (line : Nat) : lineData t line = lineData s line := by
  rw [lineData, hm]
  rfl

/-- The partial writes that wait on a line are those of its PC's list. -/
theorem waitingOn_lineOf {dpa : Nat} (hdpa : dpa % 64 = 0) : waitingOn s (lineOf dpa) =
    (pcOf s (pcOfAddr dpa)).partials.filter fun q => decide (lineOf q.dpa = lineOf dpa) := by
  rw [waitingOn, lineOf, lineDpa_eq hdpa]

theorem waitingOn_arrived (s : State) (r : Req) (line : Nat) : waitingOn (arrived s r) line = waitingOn s line := by
  rw [waitingOn, arrived_partials]
  rfl

section
variable {p : Part} {dpa : Nat} (c : Passes s h p dpa e)
include c

theorem Passes.solo_offered (r : Req) : SoloLine (offered (touch s) r) p dpa e :=
  ⟨c.solo.alone, c.solo.raw, c.solo.held, c.solo.priv⟩

theorem Passes.room_touch : HasRoom (touch s) p dpa := ⟨c.room.serves, c.room.idle, c.room.room⟩

theorem Passes.solo_touch : SoloLine (touch s) p dpa e := ⟨c.solo.alone, c.solo.raw, c.solo.held, c.solo.priv⟩

/-- HOST_MEM_READ of a held unshared line of a readable extent. -/
theorem exec_hostMemRead_unshared (he : e.unreadable = false) (hc : CleanLine s (lineOf dpa))
    (hw : ∀ q ∈ (pcOf s (pcOfAddr dpa)).partials, lineOf q.dpa ≠ lineOf dpa) (mv : Meta) :
    exec (.hostMemRead h p dpa mv []) s = .next (
      if s.poison.contains (lineOf dpa) then
        answer (poisonSeen (arrived s (readReq h p dpa mv)) (lineOf dpa)) (readReq h p dpa mv) .poison true
      else answer (arrived s (readReq h p dpa mv)) (readReq h p dpa mv) (.data (lineData s (lineOf dpa)))) := by
  have hr := readReq_fromHost h p dpa mv
  have hnone : waitingOn (arrived s (readReq h p dpa mv)) (lineOf dpa) = [] := by
    rw [waitingOn_arrived, waitingOn_lineOf c.line]
    simpa using hw
  show Host.Outcome.next (if headOpen s h then doHostRead (touch s) h p dpa mv [] else s) = _
  rw [if_pos c.opened, doHostRead_unshared c.solo_touch c.line c.untiered c.through c.decided hc.synced,
    homeReq_serve (r := readReq h p dpa mv) c.solo_touch hr c.room_touch,
    perform_read (r := readReq h p dpa mv) (c.solo_offered _) he hr rfl]
  have hserve := serveRead_clean (r := readReq h p dpa mv) (soloLine_arrived (r := readReq h p dpa mv) c.solo)
    (cleanLine_arrived hc _) hnone
  rw [arrived_poison, lineData_congr (arrived_mem s _)] at hserve
  exact congrArg Host.Outcome.next hserve

/-- HOST_MEM_WRITE of a held unshared line outside open windows. -/
theorem exec_hostMemWrite_unshared (hrole : bRole s ≠ roleFenced)
    (hw : ∀ i, i < 64 → inWindow s p (dpa + i) = false) (d : Line) (mask : BitVec 64) (mv : Meta) : exec (.hostMemWrite h p dpa d mask mv) s =
      .next (serveWrite (arrived s (writeReq h p dpa d mask mv)) (writeReq h p dpa d mask mv)) := by
  have hr := writeReq_fromHost h p dpa d mask mv
  show Host.Outcome.next (if headOpen s h then doHostWrite (touch s) h p dpa d mask mv else s) = _
  rw [if_pos c.opened, doHostWrite_unshared c.solo_touch c.line c.untiered c.through hrole c.decided hw,
    homeReq_serve (r := writeReq h p dpa d mask mv) c.solo_touch hr c.room_touch, perform_write hr rfl]
  rfl

/-- A read is answered with the line's bytes where the line is not poisoned. -/
theorem hostMemRead_data (he : e.unreadable = false) (hc : CleanLine s (lineOf dpa))
    (hw : ∀ q ∈ (pcOf s (pcOfAddr dpa)).partials, lineOf q.dpa ≠ lineOf dpa) (mv : Meta)
    (hp : s.poison.contains (lineOf dpa) = false) : Gives (.hostMemRead h p dpa mv []) s fun t =>
      (∃ load, .memRsp p h dpa (.data (lineData s (lineOf dpa))) load ∈ t.out) ∧ t.mem = s.mem := by
  refine ⟨_, exec_hostMemRead_unshared c he hc hw mv, ?_⟩
  rw [if_neg (by rw [hp]; decide)]
  exact ⟨answer_sent (readReq_fromHost h p dpa mv) _ _ _, (answer_mem _ _ _ _).trans (arrived_mem s _)⟩

/-- A read of a poisoned line is answered with poison. -/
theorem hostMemRead_poison (he : e.unreadable = false) (hc : CleanLine s (lineOf dpa))
    (hw : ∀ q ∈ (pcOf s (pcOfAddr dpa)).partials, lineOf q.dpa ≠ lineOf dpa) (mv : Meta)
    (hp : s.poison.contains (lineOf dpa) = true) : Gives (.hostMemRead h p dpa mv []) s fun t =>
      (∃ load, .memRsp p h dpa .poison load ∈ t.out) ∧ t.mem = s.mem := by
  refine ⟨_, exec_hostMemRead_unshared c he hc hw mv, ?_⟩
  rw [if_pos hp]
  exact ⟨answer_sent (readReq_fromHost h p dpa mv) _ _ _,
    (answer_mem _ _ _ _).trans ((poisonSeen_mem _ _).trans (arrived_mem s _))⟩

/-- A full-line write stores its 64 bytes and nothing else, ends the line's poison, and completes. -/
theorem hostMemWrite_full (hwf : Memory.wf s.mem = true) (hrole : bRole s ≠ roleFenced)
    (hw : ∀ i, i < 64 → inWindow s p (dpa + i) = false) (d : Line) (mv : Meta) :
    Gives (.hostMemWrite h p dpa d fullMask mv) s fun t =>
      (∀ k, k < 64 → Memory.get t.mem (dpa + k) = d.extractLsb' (8 * k) 8) ∧
      (∀ a, a < dpa ∨ dpa + 64 ≤ a → Memory.get t.mem a = Memory.get s.mem a) ∧
      lineOf dpa ∉ t.poison ∧ ∃ load, .memRsp p h dpa .cmp load ∈ t.out := by
  let r := writeReq h p dpa d fullMask mv
  obtain ⟨⟨hmem, hpoison, -⟩, -, hsent⟩ :=
    serveWrite_done (soloLine_arrived (r := r) c.solo) (writeReq_fromHost h p dpa d fullMask mv)
  rw [if_pos (show r.mask = fullMask from rfl)] at hmem hpoison
  have hm : (lineTaken (arrived s r) r).mem = s.mem := arrived_mem s r
  have hwf' : Memory.wf (lineTaken (arrived s r) r).mem = true := by rw [hm]; exact hwf
  refine ⟨_, exec_hostMemWrite_unshared c hrole hw d fullMask mv, fun k hk => ?_, fun a ha => ?_, ?_, hsent⟩
  · rw [hmem]
    have hput := putLine_byte hwf' (lineOf dpa) d hk
    rwa [lineOf, lineDpa_eq c.line] at hput
  · rw [hmem]
    have hput := putLine_elsewhere hwf' (lineOf dpa) d (a := a) (by rwa [lineOf, lineDpa_eq c.line])
    rwa [hm] at hput
  · rw [hpoison]
    exact putLine_poison _ _ _

/-- A partial write waits at its PC, memory as it was, and completes. -/
theorem hostMemWrite_partial (hrole : bRole s ≠ roleFenced) (hw : ∀ i, i < 64 → inWindow s p (dpa + i) = false) (d : Line)
    (mv : Meta) {mask : BitVec 64} (hmask : mask ≠ fullMask) : Gives (.hostMemWrite h p dpa d mask mv) s fun t =>
      t.mem = s.mem ∧ (∃ r ∈ (pcOf t (pcOfAddr dpa)).partials, r.dpa = dpa ∧ r.data = d ∧ r.mask = mask) ∧
      ∃ load, .memRsp p h dpa .cmp load ∈ t.out := by
  let r := writeReq h p dpa d mask mv
  obtain ⟨⟨hmem, -⟩, hpcs, hsent⟩ :=
    serveWrite_done (soloLine_arrived (r := r) c.solo) (writeReq_fromHost h p dpa d mask mv)
  rw [if_neg (show ¬r.mask = fullMask from hmask)] at hmem hpcs
  refine ⟨_, exec_hostMemWrite_unshared c hrole hw d mask mv, hmem.trans (arrived_mem s r), ⟨r, ?_, rfl, rfl, rfl⟩, hsent⟩
  have hlast : r ∈ (pcOf (partialKept (arrived s r) r) (pcOfAddr dpa)).partials := by
    rw [partialKept, show pcOfAddr r.dpa = pcOfAddr dpa from rfl, pcOf_pcUpd_self]
    simp
  unfold pcOf
  rw [hpcs]
  exact hlast

end

/-! ### The merge of the one partial write that waits (11 R251) -/

section
variable {dpa : Nat} (hdpa : dpa % 64 = 0) (hhome : homeSt s dpa = .serve) (hone : (pcOf s (pcOfAddr dpa)).partials = [r])
  (hr : r.dpa = dpa) (hc : CleanLine s (lineOf dpa))
include hdpa hhome hone hr

theorem exec_partialWriteMerge_one : exec (.partialWriteMerge dpa []) s = .next (mergeOne s r []) := by
  have hwait : waitingOn s (lineOf dpa) = [r] := by
    rw [waitingOn_lineOf hdpa, hone]
    simp [hr]
  show Host.Outcome.next (if homeSt s dpa = .serve then mergeLineAll s (lineOf dpa) [] else s) = _
  rw [if_pos hhome, mergeLineAll_one hwait]

omit hdpa hhome in
theorem partialTaken_partials : (pcOf (partialTaken s r) (pcOfAddr dpa)).partials = [] := by
  rw [partialTaken, hr, pcOf_pcUpd_self, hone]
  simp

include hc

/-- The merge changes exactly the bytes of its line that the mask selects. -/
theorem partialWriteMerge_bytes (hwf : Memory.wf s.mem = true) (hp : s.poison.contains (lineOf dpa) = false) :
    Gives (.partialWriteMerge dpa []) s fun t =>
      (∀ k, k < 64 → Memory.get t.mem (dpa + k) =
        if r.mask.getLsbD k then r.data.extractLsb' (8 * k) 8 else Memory.get s.mem (dpa + k)) ∧
      (∀ a, a < dpa ∨ dpa + 64 ≤ a → Memory.get t.mem a = Memory.get s.mem a) ∧
      (pcOf t (pcOfAddr dpa)).partials = [] := by
  have hmerge := mergeOne_clean (r := r) (hr ▸ hc)
  rw [hr, if_neg (by rw [hp]; decide)] at hmerge
  have hwf' : Memory.wf (partialTaken s r).mem = true := hwf
  have hline : lineOf dpa * 64 = dpa := lineDpa_eq hdpa
  refine ⟨_, (exec_partialWriteMerge_one hdpa hhome hone hr).trans (congrArg _ hmerge), fun k hk => ?_, fun a ha => ?_, ?_⟩
  · have hput := putLine_byte hwf' (lineOf dpa) (mergeLine (lineData s (lineOf dpa)) r.data r.mask) hk
    rwa [mergeLine_byte _ _ _ hk, lineData_byte s _ hk, hline] at hput
  · exact putLine_elsewhere hwf' _ _ (by rwa [hline])
  · unfold pcOf
    rw [putLine_pcs]
    exact partialTaken_partials hone hr

/-- On a poisoned line the partial write is discarded. -/
theorem partialWriteMerge_poison (hp : s.poison.contains (lineOf dpa) = true) :
    Gives (.partialWriteMerge dpa []) s fun t => t.mem = s.mem ∧ (pcOf t (pcOfAddr dpa)).partials = [] := by
  have hmerge := mergeOne_clean (r := r) (hr ▸ hc)
  rw [hr, if_pos hp] at hmerge
  refine ⟨_, (exec_partialWriteMerge_one hdpa hhome hone hr).trans (congrArg _ hmerge), ?_, ?_⟩
  · rw [discardPartial_mem, poisonSeen_mem]
    rfl
  · unfold pcOf
    rw [discardPartial_pcs, poisonSeen_pcs]
    exact partialTaken_partials hone hr

end

end

/-- Settles O36: a held unshared line's request passes to its home, where a read, a write and a merge each have the rule of the
line. -/
theorem hostReadsAndWritesReachMemory : Obligations.HostReadsAndWritesReachMemory := by
  intro s h p dpa e hwf hdpa hsolo halone hhome hraw
  have hmem : Memory.wf s.mem = true := ((memoriesWf_iff s).mp hwf).1
  refine ⟨fun hopen hstop hrole hdec hheld hpriv hidle hroom => ?_, fun r hone hr hund hsync => ?_⟩
  · have c : Passes s h p dpa e :=
      ⟨hdpa, hsolo, hopen, hstop, hdec, ⟨halone, hraw, hheld, hpriv⟩, ⟨hhome, hidle, hroom⟩⟩
    refine ⟨fun mv he hund hwait hsync => ?_, fun d mv hw => ?_⟩
    · have hclean : CleanLine s (lineOf dpa) := ⟨hund, hsync⟩
      exact ⟨hostMemRead_data c he hclean hwait mv, hostMemRead_poison c he hclean hwait mv⟩
    · exact ⟨hostMemWrite_full c hmem hrole hw d mv, fun mask hmask => hostMemWrite_partial c hrole hw d mv hmask⟩
  · have hclean : CleanLine s (lineOf dpa) := ⟨hund, hsync⟩
    exact ⟨partialWriteMerge_bytes hdpa hhome hone hr hclean hmem, partialWriteMerge_poison hdpa hhome hone hr hclean⟩

end Sys2Proof.Machine
end

section
/-! PROOF. What events, messages and requests leave in a configuration space; a write of TAG_LIMIT (O27). -/

namespace Sys2Proof.Machine

open Sys2Proof

/-! ### The settings of a configuration space -/

/-- A configuration space without what events, messages, tags and errors move in it. -/
def setup (c : PartCfg) : PartCfg :=
  { c with msix := [], aer := [], hdrLog := none, errHead := 0, tags := [], logDc := [], logInfo := 0, logWarn := 0,
           logFail := 0, logFatal := 0 }

/-- What names a job, and whether the twin sent it. -/
def jobKey (j : Job) : Part × Ring × Nat × Bool := (j.p, j.ring, j.idx, j.foreign)

/-- Every configuration space keeps its settings. -/
def SetupKept (s t : State) : Prop := ∀ o, setup (cfgOf t o) = setup (cfgOf s o)

/-- Every configuration space keeps its settings, and the package its jobs. -/
structure Calm (s t : State) : Prop where
  setup : SetupKept s t
  jobs : t.jobs.map jobKey = s.jobs.map jobKey

theorem SetupKept.refl (s : State) : SetupKept s s := fun _ => rfl

theorem SetupKept.trans {s t u : State} (h : SetupKept s t) (k : SetupKept t u) : SetupKept s u :=
  fun o => (k o).trans (h o)

theorem Calm.refl (s : State) : Calm s s := ⟨.refl s, rfl⟩

theorem Calm.trans {s t u : State} (h : Calm s t) (k : Calm t u) : Calm s u := ⟨h.setup.trans k.setup, k.jobs.trans h.jobs⟩

/-- A setting reads the same. -/
theorem SetupKept.field {s t : State} (h : SetupKept s t) {α : Type} (f : PartCfg → α) (hf : ∀ c, f (setup c) = f c) (o : Nat) :
    f (cfgOf t o) = f (cfgOf s o) := by
  rw [← hf, h o, hf]

theorem SetupKept.of_cfgs {s t : State} (h : t.cfgs = s.cfgs) : SetupKept s t := fun o => by
  unfold cfgOf
  rw [h]

/-- The kinds of state that hold neither configuration spaces nor jobs. -/
def calmSet : Nat := 2 ^ 50 - 1 - 2 ^ Kind.config.num - 2 ^ Kind.jobs.num

theorem Moves.calm {s t : State} (m : Moves calmSet s t) : Calm s t := by
  have hj : Same .jobs s t := m.frame .jobs (by decide)
  exact ⟨.of_cfgs (m.frame .config (by decide)), congrArg _ hj.1⟩

theorem Moves.setupKept {F : Nat} {s t : State} (m : Moves F s t) (hF : F.testBit Kind.config.num = false) : SetupKept s t :=
  .of_cfgs (m.frame .config hF)

section
variable {s t u : State}

/-- An update of neither configuration spaces nor jobs. -/
theorem Calm.upd (h : Calm s t) (hc : u.cfgs = t.cfgs) (hj : u.jobs = t.jobs) : Calm s u :=
  h.trans ⟨.of_cfgs hc, congrArg _ hj⟩

/-- An operation whose kinds are outside both. -/
theorem Calm.leaf (m : Moves calmSet t t → Moves calmSet t u) (h : Calm s t) : Calm s u := h.trans (m (.refl _ t)).calm

theorem Calm.ite {a b : State} {c : Prop} [Decidable c] (ha : Calm s a) (hb : Calm s b) : Calm s (if c then a else b) := by
  split
  · exact ha
  · exact hb

theorem Calm.foldl {α : Type} {f : State → α → State} (hf : ∀ u x, Calm s u → Calm s (f u x)) (l : List α) (h : Calm s t) :
    Calm s (l.foldl f t) := by
  induction l generalizing t with
  | nil => exact h
  | cons x l ih => exact ih (hf t x h)

theorem cfgUpd_calm {o : Nat} {g : PartCfg → PartCfg} (hg : ∀ c, Machine.setup (g c) = Machine.setup c) (h : Calm s t) :
    Calm s (cfgUpd t o g) := by
  refine h.trans ⟨fun q => ?_, rfl⟩
  by_cases hq : q = o
  · rw [hq, cfgOf_cfgUpd_self, hg]
  · rw [cfgOf_cfgUpd_ne _ _ hq]

theorem emit_calm {m : Msg} (h : Calm s t) : Calm s (emit t m) := h.upd rfl rfl

theorem ioTouch_calm {h' : Nat} (h : Calm s t) : Calm s (ioTouch t h') := h.upd rfl rfl

theorem fset_calm {f : Fld} {v i j : Nat} (h : Calm s t) : Calm s (fset t f v i j) := h.upd rfl rfl

theorem headUpd_calm {n : Nat} {g : HeadState → HeadState} (h : Calm s t) : Calm s (headUpd t n g) := h.upd rfl rfl

theorem ringUpd_calm {p k : Nat} {g : RingState → RingState} (h : Calm s t) : Calm s (ringUpd t p k g) := h.upd rfl rfl

theorem msixSet_calm {o vec : Nat} {e : MsixEntry} (h : Calm s t) : Calm s (msixSet t o vec e) := cfgUpd_calm (fun _ => rfl) h

theorem signalThrough_calm {o hd vec : Nat} (h : Calm s t) : Calm s (signalThrough t o hd vec) := by
  unfold signalThrough
  exact .ite (msixSet_calm h) (emit_calm h)

theorem signalVec_calm {o vec : Nat} (h : Calm s t) : Calm s (signalVec t o vec) := signalThrough_calm h

theorem flushVecs_calm {o : Nat} (h : Calm s t) : Calm s (flushVecs t o) := by
  unfold flushVecs
  exact .ite (.foldl (fun _ _ hu => .ite (emit_calm (msixSet_calm hu)) hu) _ h) h

theorem aerLog_calm {o : Nat} {hd : Head} {e : AerErr} (h : Calm s t) : Calm s (aerLog t o hd e) := by
  unfold aerLog
  exact .ite (emit_calm (emit_calm (cfgUpd_calm (fun _ => rfl) h))) (emit_calm (cfgUpd_calm (fun _ => rfl) h))

theorem aerLink_calm {hd : Head} {e : AerErr} (h : Calm s t) : Calm s (aerLink t hd e) :=
  .foldl (fun _ _ hu => aerLog_calm hu) _ h

/-! ### Events and records -/

theorem stageRec_calm {r : CRec} (h : Calm s t) : Calm s (stageRec t r).1 := .leaf (stageRec_moves rfl) h

theorem eventBit_calm {b : Blk} {i n : Nat} {f : State → State × Bool} (hf : ∀ u, Calm s u → Calm s (f u).1) (h : Calm s t) :
    Calm s (eventBit t b i n f).1 := by
  have hstage := hf _ (show Calm s (hupd t b i fun h => { h with evtStatus := h.evtStatus ||| (1#64 <<< n) }) from h.upd rfl rfl)
  unfold eventBit
  exact .ite (signalVec_calm hstage) hstage

theorem noteOverflow_calm {x : State × Bool} (h : Calm s x.1) : Calm s (noteOverflow x) := by
  unfold noteOverflow
  refine .ite (eventBit_calm (fun u hu => ?_) h) h
  split
  · exact stageRec_calm hu
  · exact hu

theorem raise_calm {e : Evt} {i : Nat} {p : Option Nat} {pl : List Byte} {src : Option Nat} {sev : Option Sev} (h : Calm s t) :
    Calm s (raise t e i p pl src sev) := by
  unfold raise
  dsimp only
  refine noteOverflow_calm (eventBit_calm (fun u hu => ?_) h)
  split
  · exact stageRec_calm hu
  · exact hu

theorem record_calm {r : Rec} {i : Nat} {p : Option Nat} {pl : List Byte} (h : Calm s t) : Calm s (record t r i p pl) := by
  unfold record
  exact .ite (noteOverflow_calm (stageRec_calm h)) h

/-! ### Requests that leave (02 R46) -/

theorem issueRead_calm {p : Part} {u' : TagUse} {addr len : Nat} {v : State} (h : Calm s t)
    (hv : issueRead t p u' addr len = some v) : Calm s v := by
  unfold issueRead at hv
  split at hv
  · split at hv
    · cases hv
      exact emit_calm (cfgUpd_calm (fun _ => rfl) h)
    · cases hv
  · cases hv

theorem pumpRing_calm {p : Part} {k : Ring} (h : Calm s t) : Calm s (pumpRing t p k) := by
  unfold pumpRing
  refine .ite (.ite ?_ (ringUpd_calm h)) h
  split
  · next hv => exact ringUpd_calm (issueRead_calm h hv)
  · exact h

theorem pumpHint_calm {p : Part} (h : Calm s t) : Calm s (pumpHint t p) := by
  unfold pumpHint
  refine .ite ?_ h
  cases hv : issueRead t p _ _ _ with
  | none => exact h
  | some v => exact issueRead_calm h hv

theorem pumpRings_calm {p : Part} (h : Calm s t) : Calm s (pumpRings t p) :=
  pumpHint_calm (.foldl (fun _ _ hu => pumpRing_calm hu) _ h)

theorem notCarriedIo_calm {hd : Head} {p : Part} {posted : Bool} (h : Calm s t) : Calm s (notCarriedIo t hd p posted) := by
  unfold notCarriedIo
  have hrec : ∀ e, Calm s (record (aerLog (ioTouch t hd) 16 hd e) .ldNotCarried hd (some p.val)) := fun _ =>
    record_calm (aerLog_calm (ioTouch_calm h))
  exact .ite (.ite (hrec _) (emit_calm (hrec _))) h

end

/-! ### Configuration requests (02 R36, R50) -/

/-- A configuration request that reaches its partition takes effect on the touched state. -/
theorem cfgWrite_open {s : State} {h : Head} {p : Part} (ho : cfgOpen s h p = true) (hr : (cfgOf s p).inReset = none)
    (f : State → State) : cfgWrite s h p f = f (ioTouch s h) := by
  unfold cfgWrite
  rw [if_neg (by simp [ho]), if_neg (by simp [hr])]

/-- In reset a partition asks to retry. -/
theorem cfgWrite_reset {s : State} {h : Head} {p : Part} (ho : cfgOpen s h p = true) (hr : (cfgOf s p).inReset ≠ none)
    (f : State → State) : cfgWrite s h p f = emit (ioTouch s h) (.ioRetry p h) := by
  unfold cfgWrite
  rw [if_neg (by simp [ho]), if_pos (by simpa [Option.isSome_iff_ne_none] using hr)]

/-- What leaves the settings, leaves them as the effect of a configuration request. -/
theorem cfgWrite_calm {s : State} {h : Head} {p : Part} {f : State → State} (hf : ∀ u, Calm s u → Calm s (f u)) :
    Calm s (cfgWrite s h p f) := by
  unfold cfgWrite
  exact .ite (notCarriedIo_calm (.refl s)) (.ite (emit_calm (ioTouch_calm (.refl s))) (hf _ (ioTouch_calm (.refl s))))

theorem setTagLimit_bad (s : State) (p : Part) {n : Nat} (h : n = 0 ∨ 0x400 < n) : setTagLimit s p n = s := if_pos h

theorem setTagLimit_good (s : State) (p : Part) {n : Nat} (h0 : n ≠ 0) (h : n ≤ 0x400) :
    setTagLimit s p n = pumpRings (cfgUpd s p fun c => { c with tagLimit := n }) p := if_neg (by omega)

/-- Settles O27: a bad value leaves every setting; a good one is the setting of its partition alone. -/
theorem tagLimitIgnoresBadValues : Obligations.TagLimitIgnoresBadValues := by
  intro s h p limit
  refine ⟨fun hbad => ?_, fun h0 hle ho hr => ?_⟩
  · have hbad : limit.toNat = 0 ∨ 0x400 < limit.toNat := hbad.imp (fun h => by simp [h]) id
    have hcalm : Calm s (cfgWrite s h p fun s => setTagLimit s p limit.toNat) :=
      cfgWrite_calm fun u hu => by rwa [setTagLimit_bad u p hbad]
    exact ⟨_, rfl, hcalm.setup.field (·.tagLimit) fun _ => rfl⟩
  · have hpos : limit.toNat ≠ 0 := fun h => h0 (BitVec.eq_of_toNat_eq h)
    have hset := (pumpRings_calm (p := p) (.refl (cfgUpd (ioTouch s h) p fun c => { c with tagLimit := limit.toNat }))).setup
    have hstep : cfgWrite s h p (fun s => setTagLimit s p limit.toNat) = _ :=
      (cfgWrite_open ho hr _).trans (setTagLimit_good (ioTouch s h) p hpos hle)
    refine ⟨_, congrArg Host.Outcome.next hstep, ?_, fun q hq => ?_⟩
    · rw [hset.field (·.tagLimit) (fun _ => rfl) p.val, cfgOf_cfgUpd_self]
    · rw [hset.field (·.tagLimit) (fun _ => rfl) q, cfgOf_cfgUpd_ne _ _ hq, cfgOf_ioTouch]

end Sys2Proof.Machine
end

section
/-! PROOF. Writes of the windows outside the pages (O18), errors of a link (O40), and what a configuration write sets (O41). -/

namespace Sys2Proof.Machine

open Sys2Proof

/-! ### The vectors of an MSI-X table (02 R44) -/

theorem msixOf_msixSet_self (s : State) (o vec : Nat) (e : MsixEntry) : msixOf (msixSet s o vec e) o vec = e := by
  unfold msixOf msixSet
  rw [cfgOf_cfgUpd_self]
  exact aget_aset_self _ _ _ _

theorem msixOf_msixSet_ne (s : State) (o : Nat) {vec v : Nat} (e : MsixEntry) (h : v ≠ vec) :
    msixOf (msixSet s o vec e) o v = msixOf s o v := by
  unfold msixOf msixSet
  rw [cfgOf_cfgUpd_self]
  exact aget_aset_ne _ _ _ h

/-- A vector that was just set is listed once. -/
theorem msix_msixSet_only (s : State) (o vec : Nat) (e : MsixEntry) :
    ∀ x ∈ (cfgOf (msixSet s o vec e) o).msix, x.1 = vec → x.2 = e := by
  unfold msixSet
  rw [cfgOf_cfgUpd_self]
  intro x hx hv
  rcases List.mem_cons.mp hx with rfl | hx
  · rfl
  · exact absurd hv (by simpa using (List.mem_filter.mp hx).2)

/-- One pending vector's message, as `flushVecs` sends it. -/
def flushOne (o : Nat) (s : State) (e : Nat × MsixEntry) : State :=
  if e.2.pending && !e.2.masked then
    emit (msixSet s o e.1 { e.2 with pending := false }) (.msix o ((masterHead s o).getD 0) e.1 e.2.addr e.2.data)
  else s

theorem flushVecs_eq (s : State) (o : Nat) : flushVecs s o =
    if canMaster s o && !(cfgOf s o).funcMask then (cfgOf s o).msix.foldl (flushOne o) s else s := rfl

theorem flushOne_out (o : Nat) (s : State) (e : Nat × MsixEntry) : ∃ l, (flushOne o s e).out = l ++ s.out := by
  unfold flushOne
  split
  · exact ⟨[_], rfl⟩
  · exact ⟨[], rfl⟩

/-- A property that each message keeps holds after all of them. -/
theorem foldl_keeps {α β : Type} {P : β → Prop} {f : β → α → β} (l : List α) (hf : ∀ b, ∀ x ∈ l, P b → P (f b x)) {b : β}
    (h : P b) : P (l.foldl f b) := by
  induction l generalizing b with
  | nil => exact h
  | cons x l ih => exact ih (fun b y hy => hf b y (List.mem_cons_of_mem _ hy)) (hf b x List.mem_cons_self h)

theorem foldl_flushOne_out (o : Nat) (l : List (Nat × MsixEntry)) (s : State) {m : Msg} (h : m ∈ s.out) :
    m ∈ (l.foldl (flushOne o) s).out := by
  refine foldl_keeps (P := fun u : State => m ∈ u.out) l (fun u x _ hu => ?_) h
  obtain ⟨l, hl⟩ := flushOne_out o u x
  rw [hl]
  exact List.mem_append_right _ hu

section
variable {o vec : Nat} {e : MsixEntry} {l : List (Nat × MsixEntry)}

/-- A message moves the pending bit only. -/
theorem flushOne_entry {s : State} {x : Nat × MsixEntry} (hx : x.1 = vec → x.2 = e) {P : MsixEntry → Prop}
    (hP : P { e with pending := false }) (h : P (msixOf s o vec)) : P (msixOf (flushOne o s x) o vec) := by
  unfold flushOne
  split
  · by_cases hv : x.1 = vec
    · rw [← hx hv] at hP
      rw [← hv]
      exact (msixOf_msixSet_self s o x.1 _).symm ▸ hP
    · exact (msixOf_msixSet_ne s o _ (Ne.symm hv)).symm ▸ h
  · exact h

theorem foldl_flushOne_entry {s : State} (hl : ∀ x ∈ l, x.1 = vec → x.2 = e) {P : MsixEntry → Prop}
    (hP : P { e with pending := false }) (h : P (msixOf s o vec)) : P (msixOf (l.foldl (flushOne o) s) o vec) :=
  foldl_keeps (P := fun u => P (msixOf u o vec)) l (fun _ _ hx hu => flushOne_entry (hl _ hx) hP hu) h

/-- What holds of a vector's entry with and without its pending bit holds after the messages of its table. -/
theorem flushVecs_msixSet_entry (s : State) {P : MsixEntry → Prop} (hP : P { e with pending := false }) (h : P e) :
    P (msixOf (flushVecs (msixSet s o vec e) o) o vec) := by
  have hset : P (msixOf (msixSet s o vec e) o vec) := (msixOf_msixSet_self s o vec e).symm ▸ h
  rw [flushVecs_eq]
  split
  · exact foldl_flushOne_entry (msix_msixSet_only s o vec e) hP hset
  · exact hset

end

/-- An unmasked pending vector sends its message where messages may leave. -/
theorem flushVecs_msixSet_sends (s : State) (o vec : Nat) {e : MsixEntry} (hm : e.masked = false) (hp : e.pending = true)
    (hc : canMaster s o = true) (hf : (cfgOf s o).funcMask = false) :
    (msixOf (flushVecs (msixSet s o vec e) o) o vec).pending = false ∧
      ∃ hd, .msix o hd vec e.addr e.data ∈ (flushVecs (msixSet s o vec e) o).out := by
  have hlist : (cfgOf (msixSet s o vec e) o).msix = (vec, e) :: adel (cfgOf s o).msix vec := by
    unfold msixSet
    rw [cfgOf_cfgUpd_self]
    rfl
  have honly := msix_msixSet_only s o vec e
  have hcan : (canMaster (msixSet s o vec e) o && !(cfgOf (msixSet s o vec e) o).funcMask) = true := by
    have hset := (msixSet_calm (o := o) (vec := vec) (e := e) (.refl s)).setup
    unfold canMaster at hc ⊢
    rw [hset.field (·.bme) (fun _ => rfl), hset.field (·.inReset) (fun _ => rfl), hset.field (·.d3hot) (fun _ => rfl),
      hset.field (·.ioLost) (fun _ => rfl), hset.field (·.funcMask) (fun _ => rfl), hf]
    exact (Bool.and_true _).trans hc
  have hfirst : flushOne o (msixSet s o vec e) (vec, e) =
      emit (msixSet (msixSet s o vec e) o vec { e with pending := false })
        (.msix o ((masterHead (msixSet s o vec e) o).getD 0) vec e.addr e.data) := if_pos (by simp [hm, hp])
  rw [flushVecs_eq, if_pos hcan, hlist, List.foldl_cons, hfirst]
  refine ⟨?_, _, foldl_flushOne_out _ _ _ List.mem_cons_self⟩
  refine foldl_flushOne_entry (P := fun x => x.pending = false) (e := e) (fun x hx => honly x (hlist ▸ List.mem_cons_of_mem _ hx))
    rfl ?_
  exact congrArg _ (msixOf_msixSet_self _ o vec _)

/-! ### Writes of the windows -/

/-- A double word of an MSI-X table, written alone, is one word of its vector's entry. -/
theorem bar0Write_msixWord (s : State) (v : View) (p : Part) {vec i : Nat} (value : Nat) (hv : vec < 256) (hi : i < 4) :
    bar0Write s v p (0x20000 + 16 * vec + 4 * i) 4 value = flushVecs (msixSet s p vec (msixWord (msixOf s p vec) i value)) p := by
  have hvec : (0x20000 + 16 * vec + 4 * i - 0x20000) / 16 = vec := by omega
  have hword : (0x20000 + 16 * vec + 4 * i - 0x20000) % 16 / 4 = i := by omega
  unfold bar0Write msixWrite
  rw [if_pos (by omega), if_neg (by omega), hvec, hword]
  rfl

/-- Settles O18, a clause for each window through `ioWrite_open`. -/
theorem windowWritesReachTheirPlace : Obligations.WindowWritesReachTheirPlace := by
  intro s p h ho
  refine ⟨fun off width value hoff hbad => ?_, fun off bytes width value hwf hoff => ?_, fun vec value hvec => ?_,
    fun off width value => ?_⟩
  · have hwin := ioWrite_open ho fun s => bar0Write s (.host p h) p off width value.toNat
    have hstep : bar0Write (ioTouch s h) (.host p h) p off width value.toNat = finc (ioTouch s h) .idBadAccessCount := by
      unfold bar0Write
      rw [if_neg (by omega), if_neg (by omega), if_pos hbad]
    refine ⟨_, congrArg Host.Outcome.next (hwin.trans hstep), ?_, rfl, fun f i j hf => ?_⟩
    · exact fget_finc_self _ _ _ _
    · exact fget_finc_fld _ _ _ _ _ hf
  · have hwf := ((memoriesWf_iff s).mp hwf).2.2
    have hwin := ioWrite_open ho fun s => bar2Write s p off bytes
    have hstep : bar2Write (ioTouch s h) p off bytes =
        { ioTouch s h with ringMem := Memory.write s.ringMem (p.val * 2 ^ 30 + off) bytes } := by
      unfold bar2Write
      dsimp only
      rw [if_neg (by omega), if_pos hoff]
      rfl
    refine ⟨_, congrArg Host.Outcome.next (hwin.trans hstep), fun k hk => ?_, fun a ha => ?_⟩
    · exact Memory.get_write hwf _ _ _ hk
    · exact Memory.get_write_ne hwf _ _ _ ha
  · have hstep := (ioWrite_open ho fun s => bar0Write s (.host p h) p (0x20000 + 16 * vec + 4 * 2) 4 value.toNat).trans
      (bar0Write_msixWord (ioTouch s h) (.host p h) p value.toNat hvec (by decide))
    refine ⟨_, congrArg Host.Outcome.next hstep, ?_⟩
    exact flushVecs_msixSet_entry (ioTouch s h) (P := fun e => e.data = BitVec.ofNat 32 value.toNat ∧
      e.masked = (msixOf s p vec).masked) ⟨rfl, rfl⟩ ⟨rfl, rfl⟩
  · refine ⟨_, congrArg Host.Outcome.next (ioWrite_open ho fun s => s), ?_⟩
    refine (ioTouch_moves (F := 640) rfl (.refl _ s)).sameBut fun k => ?_
    cases k with
    | page b => cases b <;> decide
    | _ => decide

/-! ### Errors of a link (02 R52, R53) -/

theorem aerLog_aer (s : State) (o : Nat) (h : Head) (e : AerErr) : .aer o h e ∈ (aerLog s o h e).out := by
  unfold aerLog
  dsimp only
  split
  · exact List.mem_cons_of_mem _ List.mem_cons_self
  · exact List.mem_cons_self

theorem aerLog_errMsg {s : State} {o : Nat} (h : Head) {e : AerErr} (hm : aerMasked (cfgOf s o) e = false) :
    .errMsg o h (aerSeverity (cfgOf s o) e) ∈ (aerLog s o h e).out := by
  unfold aerLog
  dsimp only
  rw [if_pos (by simp [hm])]
  exact List.mem_cons_self

theorem aerLog_cfg_ne (s : State) {o q : Nat} (h : Head) (e : AerErr) (hq : q ≠ o) : cfgOf (aerLog s o h e) q = cfgOf s q := by
  unfold aerLog
  dsimp only
  split
  · exact (cfgOf_emit _ _ _).trans ((cfgOf_emit _ _ _).trans (cfgOf_cfgUpd_ne _ _ hq))
  · exact (cfgOf_emit _ _ _).trans (cfgOf_cfgUpd_ne _ _ hq)

/-- The partitions that a link error is logged for before the fabric-manager logical device. -/
def aerCarried (s : State) (h : Head) (e : AerErr) : State :=
  ((List.range 16).filter fun p => carried s p h).foldl (fun s o => aerLog s o h e) s

theorem aerLink_eq (s : State) (h : Head) (e : AerErr) : aerLink s h e = aerLog (aerCarried s h e) 16 h e := by
  unfold aerLink
  rw [List.foldl_append]
  rfl

theorem aerCarried_cfg (s : State) (h : Head) (e : AerErr) : cfgOf (aerCarried s h e) 16 = cfgOf s 16 := by
  refine foldl_keeps (P := fun u => cfgOf u 16 = cfgOf s 16) _ (fun u q hq hu => ?_) rfl
  have hlt : q < 16 := List.mem_range.mp (List.mem_filter.mp hq).1
  exact (aerLog_cfg_ne u h e (by omega)).trans hu

theorem aerLink_aer (s : State) (h : Head) (e : AerErr) : .aer 16 h e ∈ (aerLink s h e).out :=
  aerLink_eq s h e ▸ aerLog_aer _ _ _ _

theorem aerLink_errMsg {s : State} (h : Head) {e : AerErr} (hm : aerMasked (cfgOf s 16) e = false) :
    .errMsg 16 h (aerSeverity (cfgOf s 16) e) ∈ (aerLink s h e).out := by
  rw [aerLink_eq, ← aerCarried_cfg s h e] at *
  exact aerLog_errMsg h hm

theorem fget_aerLink (s : State) (h : Head) (e : AerErr) (f : Fld) (i j : Nat) : fget (aerLink s h e) f i j = fget s f i j :=
  foldl_keeps (P := fun u => fget u f i j = fget s f i j) _ (fun u o _ hu => (fget_aerLog u o h e f i j).trans hu) rfl

/-- A retrain leaves what has left, and its own message. -/
theorem retrainNow_out (s : State) (h : Head) : .linkRetrain h ∈ (retrainNow s h).out ∧
    ∀ m ∈ s.out, m ∈ (retrainNow s h).out := by
  obtain ⟨l, hl⟩ := (retrainNow_moves (F := 8589935105) (a1 := h) rfl (.refl _ s)).keeps.out
  exact ⟨List.mem_cons_self, fun m hm => hl ▸ List.mem_append_right _ hm⟩

/-- A correctable link error other than a CRC error, counted. -/
def linkCounted (s : State) (h : Head) : LinkErr → State
  | .receiverError => finc s .portErrCountRxErr h
  | .replay => finc s .portErrCountReplays h
  | _ => s

theorem doLinkError_eq (s : State) (h : Head) {k : LinkErr} (hk : k ≠ .cxlMemCrc) :
    doLinkError s h k = aerLink (linkCounted s h k) h (.linkCorrectable k) := by
  cases k with
  | cxlMemCrc => exact absurd rfl hk
  | _ => rfl

theorem cfgOf_linkCounted (s : State) (h : Head) (k : LinkErr) (o : Nat) : cfgOf (linkCounted s h k) o = cfgOf s o := by
  cases k <;> rfl

theorem linkCounted_rxErr (s : State) (h : Head) (k : LinkErr) : fget (linkCounted s h k) .portErrCountRxErr h =
    if k = .receiverError then min (fget s .portErrCountRxErr h + 1) (2 ^ Fld.portErrCountRxErr.desc.w - 1)
    else fget s .portErrCountRxErr h := by
  cases k with
  | receiverError => exact fget_finc_self _ _ _ _
  | replay => exact fget_finc_fld _ _ _ _ _ (by decide)
  | _ => rfl

theorem linkCounted_replays (s : State) (h : Head) (k : LinkErr) : fget (linkCounted s h k) .portErrCountReplays h =
    if k = .replay then min (fget s .portErrCountReplays h + 1) (2 ^ Fld.portErrCountReplays.desc.w - 1)
    else fget s .portErrCountReplays h := by
  cases k with
  | receiverError => exact fget_finc_fld _ _ _ _ _ (by decide)
  | replay => exact fget_finc_self _ _ _ _
  | _ => rfl

theorem aerSeverity_linkCorrectable (c : PartCfg) (k : LinkErr) : aerSeverity c (.linkCorrectable k) = 0 := by
  cases k <;> rfl

theorem record_out (s : State) (r : Rec) (i : Nat) (q : Option Nat) (pl : List Byte) {m : Msg} (h : m ∈ s.out) :
    m ∈ (record s r i q pl).out := by
  obtain ⟨l, hl⟩ := (record_moves (F := 1037) (r := r) (i := i) (p := q) (pl := pl) rfl (.refl _ s)).keeps.out
  exact hl ▸ List.mem_append_right _ h

/-- An error of the protocol or of a malformed TLP is logged, and the link retrains. -/
theorem doTlpError_fatal (s : State) (h : Head) (p : Part) {k : TlpErr} (h1 : k ≠ .unsupportedNonPosted)
    (h2 : k ≠ .unsupportedPosted) (h3 : k ≠ .unexpectedLd) :
    .linkRetrain h ∈ (doTlpError s h k p).out ∧ ∃ o, .aer o h (.fatal k) ∈ (doTlpError s h k p).out := by
  have hall : ∀ u o, .aer o h (.fatal k) ∈ u.out → doTlpError s h k p = retrainNow u h →
      .linkRetrain h ∈ (doTlpError s h k p).out ∧ ∃ o, .aer o h (.fatal k) ∈ (doTlpError s h k p).out := fun u o hu he =>
    he ▸ ⟨(retrainNow_out u h).1, o, (retrainNow_out u h).2 _ hu⟩
  cases k with
  | unsupportedNonPosted => exact absurd rfl h1
  | unsupportedPosted => exact absurd rfl h2
  | unexpectedLd => exact absurd rfl h3
  | dataLinkProtocol => exact hall _ 16 (aerLink_aer _ _ _) rfl
  | _ => exact hall _ p (aerLog_aer _ _ _ _) rfl

/-- Settles O40: what is logged stays logged through the answer and the retrain. -/
theorem linkErrorsAreLogged : Obligations.LinkErrorsAreLogged := by
  intro s h p
  refine ⟨⟨_, rfl, ?_, rfl⟩, fun k hk => ?_, fun hup => ?_, ⟨_, rfl, rfl, rfl, fget_finc_self _ _ _ _⟩⟩
  · exact congrArg HeadState.cxlRas (headOf_headUpd_self _ _ _)
  · refine ⟨_, congrArg Host.Outcome.next (doLinkError_eq s h hk), aerLink_aer _ _ _, fun hm => ?_, ?_, ?_⟩
    · rw [← cfgOf_linkCounted s h k] at hm
      exact aerSeverity_linkCorrectable _ k ▸ aerLink_errMsg h hm
    · exact (fget_aerLink _ _ _ _ _ _).trans (linkCounted_rxErr s h k)
    · exact (fget_aerLink _ _ _ _ _ _).trans (linkCounted_replays s h k)
  · have hstep : ∀ k, exec (.tlpError h k p) s = .next (doTlpError s h k p) := fun k => congrArg Host.Outcome.next (if_pos hup)
    refine ⟨⟨_, hstep _, ?_, List.mem_cons_self⟩, ⟨_, hstep _, aerLog_aer _ _ _ _⟩, ⟨_, hstep _, ?_, List.mem_cons_self⟩,
      fun k h1 h2 h3 => ⟨_, hstep _, doTlpError_fatal s h p h1 h2 h3⟩⟩
    · exact List.mem_cons_of_mem _ (aerLog_aer _ _ _ _)
    · exact List.mem_cons_of_mem _ (record_out _ _ _ _ _ (aerLog_aer _ _ _ _))

/-! ### Configuration writes (02 R36, R49, R50) -/

/-- A configuration write that reaches its partition has its field's effect. -/
theorem gives_configWrite {s : State} {h : Head} {p : Part} {f : CfgField} {v : Nat} {Q : State → Prop}
    (ho : cfgOpen s h p = true) (hr : (cfgOf s p).inReset = none) (hQ : Q (setCfg (ioTouch s h) h p f v)) :
    Gives (.configWrite h p f v) s Q :=
  ⟨_, congrArg Host.Outcome.next (cfgWrite_open ho hr fun s => setCfg s h p f v), hQ⟩

section
variable {s : State} {o : Nat} {g : PartCfg → PartCfg} {α : Type} {f : PartCfg → α}

/-- A setting that was just stored stays over what leaves the settings. -/
theorem Calm.stored {t : State} (h : Calm (cfgUpd s o g) t) (hf : ∀ c, f (Machine.setup c) = f c) :
    f (cfgOf t o) = f (g (cfgOf s o)) :=
  (h.setup.field f hf o).trans (congrArg f (cfgOf_cfgUpd_self s o g))

end

/-- Status bits written as 1 are gone. -/
theorem aerCleared_aer {c : PartCfg} {hit : AerErr → Bool} {e : AerErr} (he : e ∈ (aerCleared c hit).aer) : hit e = false := by
  simpa using (List.mem_filter.mp he).2

theorem clearBme_bme (s : State) (p : Part) : (cfgOf (clearBme s p) p).bme = false := by
  unfold clearBme
  split
  · rw [cfgOf_cfgUpd_self]
  · next hb => simpa using hb

theorem setBme_bme (s : State) (p : Part) : (cfgOf (setBme s p) p).bme = true :=
  (pumpRings_calm (flushVecs_calm (.refl _))).stored (f := (·.bme)) fun _ => rfl

/-- A window's request in an open window has its effect. -/
theorem gives_ioWrite {s : State} {h : Head} {p : Part} {c : Instr} {f : State → State} {Q : State → Prop}
    (ho : ioOpen s h p = true) (hc : exec c s = .next (ioWrite s h p f)) (hQ : Q (f (ioTouch s h))) : Gives c s Q :=
  ⟨_, hc.trans (congrArg _ (ioWrite_open ho f)), hQ⟩

theorem ahas_adel_self {κ α : Type} [DecidableEq κ] (m : Assoc κ α) (k : κ) : ahas (adel m k) k = false := by
  simp [ahas, adel]

/-- Settles O41: the settings outlast the messages and fetches that a write lets go. -/
theorem configurationWritesTakeEffect : Obligations.ConfigurationWritesTakeEffect := by
  intro s h p
  refine ⟨fun ho hr => ⟨fun v => ?_, ?_, ?_⟩, fun ho hr f v => ?_, fun vec hr => ?_,
    fun ho => ⟨fun base len bi => ?_, fun n => ?_, fun log => ?_⟩⟩
  · have hset : ∀ {f : PartCfg → PartCfg}, cfgOf (cfgUpd (ioTouch s h) p f) p = f (cfgOf s p) := cfgOf_cfgUpd_self _ p _
    have hhead : ∀ {f : HeadState → HeadState}, headOf (headUpd (ioTouch s h) h f) h = f (headOf (ioTouch s h) h) :=
      headOf_headUpd_self _ h _
    have hgives : ∀ {f : CfgField} {Q : State → Prop}, Q (setCfg (ioTouch s h) h p f v) → Gives (.configWrite h p f v) s Q :=
      gives_configWrite ho hr
    refine ⟨hgives (congrArg (·.mse) hset), hgives (congrArg (·.ro) hset), hgives (congrArg (·.romEn) hset),
      hgives ((pumpRings_calm (.refl _)).stored (f := (·.tag10)) fun _ => rfl),
      hgives ((pumpRings_calm (.refl _)).stored (f := (·.tag14)) fun _ => rfl),
      hgives ((flushVecs_calm (.refl _)).stored (f := (·.funcMask)) fun _ => rfl),
      hgives (congrArg (·.memClr) hset), hgives (congrArg (·.cplTimeoutUs) hset),
      hgives (congrArg (·.linkControl) hhead), hgives (congrArg (·.linkControl2) hhead), hgives (congrArg (·.flexBus) hhead),
      hgives ((pumpRings_calm (flushVecs_calm (.refl _))).stored (f := (·.d3hot)) fun _ => rfl),
      hgives (congrArg (·.aerUncMask) hset), hgives (congrArg (·.aerUncSev) hset), hgives (congrArg (·.aerCorMask) hset),
      hgives fun e he b hb => ?_, hgives fun e he hu b hb => ?_, fun off => ?_⟩
    · have hhit := aerCleared_aer (congrArg PartCfg.aer hset ▸ he)
      rwa [hb] at hhit
    · have hhit := aerCleared_aer (congrArg PartCfg.aer hset ▸ he)
      rw [hu, hb] at hhit
      exact (Bool.and_true _).symm.trans hhit
    · exact gives_configWrite ho hr ((congrArg (fun c => aget c.other off 0) hset).trans (aget_aset_self _ _ _ _))
  · exact ⟨_, congrArg Host.Outcome.next (cfgWrite_open ho hr fun s => clearBme s p), clearBme_bme _ p⟩
  · exact ⟨_, congrArg Host.Outcome.next (cfgWrite_open ho hr fun s => setBme s p), setBme_bme _ p⟩
  · exact ⟨_, congrArg Host.Outcome.next (cfgWrite_reset ho hr fun s => setCfg s h p f v), rfl, rfl⟩
  · refine ⟨_, congrArg Host.Outcome.next (if_pos (by simp [hr])), ?_, fun hp hc hf => ?_⟩
    · exact flushVecs_msixSet_entry s (P := fun e => e.masked = false) rfl rfl
    · exact flushVecs_msixSet_sends s p vec rfl hp hc hf
  · refine gives_ioWrite ho rfl ?_
    exact if_pos rfl
  · have hset : ∀ {f : PartCfg → PartCfg}, cfgOf (cfgUpd (ioTouch s h) p f) p = f (cfgOf s p) := cfgOf_cfgUpd_self _ p _
    exact ⟨gives_ioWrite ho rfl (congrArg (·.logDc) hset), gives_ioWrite ho rfl (congrArg (·.logFail) hset),
      gives_ioWrite ho rfl (congrArg (·.logInfo) hset), gives_ioWrite ho rfl (congrArg (·.logWarn) hset),
      gives_ioWrite ho rfl (congrArg (·.logFatal) hset)⟩
  · refine ⟨fun v => gives_ioWrite ho rfl ?_, gives_ioWrite ho rfl ?_⟩
    · simp
    · simp [ahas_adel_self]

end Sys2Proof.Machine
end

section
/-! PROOF. Completions and timeouts of bus-master reads (O43). -/

namespace Sys2Proof.Machine

open Sys2Proof

/-! ### The job of an index -/

theorem jobOf_key {s : State} {p ring idx : Nat} {j : Job} (h : jobOf s p ring idx = some j) :
    j.p.val = p ∧ j.ring.val = ring ∧ j.idx = idx := by
  have hkey := List.find?_some h
  simpa [and_assoc] using hkey

/-- A change of jobs that keeps what names them changes the job of each index. -/
theorem jobOf_map {s t : State} {f : Job → Job} (hf : ∀ j, jobKey (f j) = jobKey j) (ht : t.jobs = s.jobs.map f)
    (p ring idx : Nat) : jobOf t p ring idx = (jobOf s p ring idx).map f := by
  have hkeep : ∀ j, (f j).p = j.p ∧ (f j).ring = j.ring ∧ (f j).idx = j.idx := fun j => by
    have hj := hf j
    simp only [jobKey, Prod.mk.injEq] at hj
    exact ⟨hj.1, hj.2.1, hj.2.2.1⟩
  unfold jobOf
  rw [ht, List.find?_map]
  congr 2
  funext j
  obtain ⟨hp, hr, hi⟩ := hkeep j
  simp [Function.comp_apply, hp, hr, hi]

theorem jobOf_of_jobs {s t : State} (h : t.jobs = s.jobs) (p ring idx : Nat) : jobOf t p ring idx = jobOf s p ring idx := by
  unfold jobOf
  rw [h]

theorem jobOf_failJob {s : State} {p : Part} {ring : Ring} {idx : Nat} {j : Job} (hj : jobOf s p ring idx = some j)
    (h0 : j.status = 0) (status : Nat) : ∃ j', jobOf (failJob s p ring idx status) p ring idx = some j' ∧ j'.status = status := by
  obtain ⟨hp, hr, hi⟩ := jobOf_key hj
  have hsame : j.p = p ∧ j.ring = ring ∧ j.idx = idx ∧ (j.status = 0 ∨ (j.failPitch = some (count s) ∧ status < j.status)) :=
    ⟨Fin.ext hp, Fin.ext hr, hi, .inl h0⟩
  refine ⟨_, (jobOf_map (fun x => ?_) rfl _ _ _).trans (congrArg (Option.map _) hj), congrArg Job.status (if_pos hsame)⟩
  split
  · rfl
  · rfl

/-- Staged bytes are appended. -/
theorem jobOf_stageBytes {s : State} {p ring idx : Nat} {j : Job} (hj : jobOf s p ring idx = some j) (slot : Nat)
    (data : List Byte) : ∃ j', jobOf (stageBytes s j slot data) p ring idx = some j' ∧
      stagedOf j' slot = stagedOf j slot ++ data := by
  have hjobs : (stageBytes s j slot data).jobs =
      (jobMap s j.p j.ring j.idx fun x => { x with staged := aset x.staged slot (stagedOf x slot ++ data) }).jobs := by
    unfold stageBytes
    dsimp only
    split
    · rfl
    · rfl
  refine ⟨_, (jobOf_map (fun x => ?_) hjobs _ _ _).trans (congrArg (Option.map _) hj), ?_⟩
  · split
    · rfl
    · rfl
  · exact (congrArg (stagedOf · slot) (if_pos ⟨rfl, rfl, rfl⟩)).trans (aget_aset_self _ _ _ _)

/-! ### Fetches that a free tag lets go -/

section
variable (s : State) (p : Part)

theorem pumpRings_jobs : (pumpRings s p).jobs = s.jobs :=
  ((pumpRings_moves (F := 2098177) (a1 := p) rfl (.refl _ s)).frame .jobs (by decide)).1

theorem pumpRings_hints : (pumpRings s p).hints = s.hints :=
  (pumpRings_moves (F := 2098177) (a1 := p) rfl (.refl _ s)).frame .hints (by decide)

theorem hintsOf_pumpRings : hintsOf (pumpRings s p) p = hintsOf s p := by
  unfold hintsOf
  rw [pumpRings_hints]

theorem fget_pumpRings_job {f : Fld} (hf : f.desc.blk = .job) (i j : Nat) : fget (pumpRings s p) f i j = fget s f i j :=
  ((pumpRings_moves (F := 2098177) (a1 := p) rfl (.refl _ s)).frame (.page .job) (by decide) f i j hf
    (fun h => absurd (h ▸ hf) (by decide))).1

theorem fget_pumpRings_tier {f : Fld} (hf : f.desc.blk = .tier) (i j : Nat) : fget (pumpRings s p) f i j = fget s f i j :=
  ((pumpRings_moves (F := 2098177) (a1 := p) rfl (.refl _ s)).frame (.page .tier) (by decide) f i j hf
    (fun h => absurd (h ▸ hf) (by decide))).1

end

/-! ### Halts (05 R105; 07 R160) -/

theorem haltRing_status (s : State) (p k : Nat) {cause status : Nat} (hc : cause < 2 ^ Fld.jobRingStatusCause.desc.w)
    (hs : status < 2 ^ Fld.jobRingStatusHaltStatus.desc.w) : fget (haltRing s p k cause status) .jobRingStatusHalted p k = 1 ∧
      fget (haltRing s p k cause status) .jobRingStatusCause p k = cause ∧
      fget (haltRing s p k cause status) .jobRingStatusHaltStatus p k = status := by
  unfold haltRing
  dsimp only
  refine ⟨?_, ?_, ?_⟩
  · rw [fget_raise _ _ _ _ _ _ _ _ _ (by decide), fget_fset_fld _ _ _ _ _ _ (by decide), fget_fset_fld _ _ _ _ _ _ (by decide),
      fget_fset_fld _ _ _ _ _ _ (by decide), fget_fset_self]
    rfl
  · rw [fget_raise _ _ _ _ _ _ _ _ _ (by decide), fget_fset_fld _ _ _ _ _ _ (by decide), fget_fset_fld _ _ _ _ _ _ (by decide),
      fget_fset_self, Nat.mod_eq_of_lt hc]
  · rw [fget_raise _ _ _ _ _ _ _ _ _ (by decide), fget_fset_fld _ _ _ _ _ _ (by decide), fget_fset_self, Nat.mod_eq_of_lt hs]

theorem haltHint_status (s : State) (p : Nat) {cause : Nat} (status : Nat) (hc : cause < 2 ^ Fld.tierHintCtrlCause.desc.w) :
    fget (haltHint s p cause status) .tierHintCtrlHalted p = 1 ∧
      fget (haltHint s p cause status) .tierHintCtrlCause p = cause := by
  unfold haltHint
  dsimp only
  refine ⟨?_, ?_⟩
  · rw [fget_raise _ _ _ _ _ _ _ _ _ (by decide), fget_fset_fld _ _ _ _ _ _ (by decide), fget_fset_fld _ _ _ _ _ _ (by decide),
      fget_fset_self]
    rfl
  · rw [fget_raise _ _ _ _ _ _ _ _ _ (by decide), fget_fset_fld _ _ _ _ _ _ (by decide), fget_fset_self, Nat.mod_eq_of_lt hc]

/-! ### The first entry of a hint ring (05 R106, R107) -/

theorem hintsOf_hints (s : State) (p : Nat) (l : List HintEntry) : hintsOf { s with hints := aset s.hints p l } p = l :=
  aget_aset_self _ _ _ _

theorem hintFetched_eq (s : State) (p : Part) (data : List Byte) (h : hintsOf s p = []) :
    hintFetched s p (.ok data) = hintSkip 1 { s with hints := aset s.hints p [hintEntryOf data] } p := by
  have hone : hintsOf { s with hints := aset s.hints p (hintsOf s p ++ [hintEntryOf data]) } p = [hintEntryOf data] := by
    rw [hintsOf_hints, h]
    rfl
  unfold hintFetched hintSettle
  dsimp only
  rw [hone, h]
  rfl

/-- A good first entry waits to be applied. -/
theorem hintFetched_good {s : State} {p : Part} {data : List Byte} (h : hintsOf s p = [])
    (hb : hintBad (hintEntryOf data) = false) : hintsOf (hintFetched s p (.ok data)) p = [hintEntryOf data] := by
  rw [hintFetched_eq s p data h]
  unfold hintSkip
  rw [hintsOf_hints]
  dsimp only
  rw [if_neg (by simp [hb])]
  exact hintsOf_hints _ _ _

/-- A bad first entry is skipped. -/
theorem hintFetched_bad {s : State} {p : Part} {data : List Byte} (h : hintsOf s p = [])
    (hb : hintBad (hintEntryOf data) = true) : hintsOf (hintFetched s p (.ok data)) p = [] ∧
      fget (hintFetched s p (.ok data)) .tierHintConsConsumer p = (fget s .tierHintConsConsumer p + 1) % 2 ^ 32 := by
  rw [hintFetched_eq s p data h]
  unfold hintSkip
  rw [hintsOf_hints]
  dsimp only
  rw [if_pos hb]
  unfold hintSkip hintPass hintIgnored
  refine ⟨?_, ?_⟩
  · rw [show ∀ u : State, hintsOf (fwrap u .tierHintConsConsumer p) p = hintsOf u p from fun _ => rfl, hintsOf_hints]
    simp [hintsOf]
  · refine (fget_fwrap_self _ _ _ _).trans ?_
    rw [show ∀ (u : State) hs, fget { u with hints := hs } .tierHintConsConsumer p = fget u .tierHintConsConsumer p from
      fun _ _ => rfl, fget_raise _ _ _ _ _ _ _ _ _ (by decide), fget_finc_fld _ _ _ _ _ (by decide)]
    rfl

/-! ### Completions and timeouts -/

/-- What a completion does for the use of its tag. -/
def cplServe (s : State) (p : Part) (use : TagUse) (cpl : Cpl) : State :=
  match use with
  | .descriptor k => descFetched s p k cpl
  | .hint => hintFetched s p cpl
  | .staging ring idx slot => stageDone s p ring idx slot cpl

/-- What a timeout does for the use of its tag. -/
def timeoutServe (s : State) (p : Part) : TagUse → State
  | .descriptor k => haltRing (ringUpd s p k fun r => { r with fetching := false }) p k haltFetch stHostTimeout
  | .hint => haltHint s p haltFetch stHostTimeout
  | .staging ring idx _ => failJob s p ring idx stHostTimeout

section
variable {s : State} {p : Part} {x : Tag}

theorem cplDone_discard (h : x.discard = true) (cpl : Cpl) : cplDone s p x cpl = pumpRings (dropTag s p x.num) p := by
  unfold cplDone
  dsimp only
  rw [if_pos h]

theorem cplDone_serve (h : x.discard = false) {cpl : Cpl} (hc : cpl ≠ .poisoned) :
    cplDone s p x cpl = pumpRings (cplServe (dropTag s p x.num) p x.use cpl) p := by
  unfold cplDone
  dsimp only
  rw [if_neg (by simp [h]), if_neg hc]
  rfl

theorem cplDone_poisoned (h : x.discard = false) : cplDone s p x .poisoned =
    pumpRings (cplServe (aerLog (dropTag s p x.num) p (headNum x.head) .poisonedTlp) p x.use .poisoned) p := by
  unfold cplDone
  dsimp only
  rw [if_neg (by simp [h]), if_pos rfl]
  rfl

theorem cplTimeout_serve (h : x.discard = false) : cplTimeout s p x =
    pumpRings (timeoutServe (aerLog (dropTag s p x.num) p (headNum x.head) .completionTimeout) p x.use) p := by
  unfold cplTimeout
  dsimp only
  rw [if_neg (by simp [h])]
  rfl

theorem exec_completionReceived {tag : Nat} (h : heldTag s p tag = some x) (cpl : Cpl) :
    exec (.completionReceived p tag cpl) s = .next (cplDone s p x cpl) := by
  show execCompletionReceived p tag cpl s = _
  unfold execCompletionReceived
  rw [h]

theorem exec_completionTimeout {tag : Nat} (h : heldTag s p tag = some x) :
    exec (.completionTimeout p tag) s = .next (cplTimeout s p x) := by
  show execCompletionTimeout p tag s = _
  unfold execCompletionTimeout
  rw [h]

theorem exec_hintFetchDone (h : (cfgOf s p).tags.find? (fun t => decide (t.use = .hint) && !t.discard) = some x) (cpl : Cpl) :
    exec (.hintFetchDone p cpl) s = .next (cplDone s p x cpl) := by
  show execHintFetchDone p cpl s = _
  unfold execHintFetchDone
  rw [h]

end

theorem aerLog_tags (s : State) (o : Nat) (h : Head) (e : AerErr) : (cfgOf (aerLog s o h e) o).tags = (cfgOf s o).tags := by
  unfold aerLog
  dsimp only
  split
  · simp only [cfgOf_emit, cfgOf_cfgUpd_self]
  · simp only [cfgOf_emit, cfgOf_cfgUpd_self]

theorem pumpRings_out (s : State) (p : Part) {m : Msg} (h : m ∈ s.out) : m ∈ (pumpRings s p).out := by
  obtain ⟨l, hl⟩ := (pumpRings_moves (F := 2098177) (a1 := p) rfl (.refl _ s)).keeps.out
  exact hl ▸ List.mem_append_right _ h

section
variable {s : State} {p : Part} {x : Tag} {ring : Ring} {idx slot : Nat} {j : Job}

/-- Staged bytes arrive for their job. -/
theorem cplDone_staged (hd : x.discard = false) (hu : x.use = .staging ring idx slot) (hj : jobOf s p ring idx = some j)
    (data : List Byte) : ∃ j', jobOf (cplDone s p x (.ok data)) p ring idx = some j' ∧
      stagedOf j' slot = stagedOf j slot ++ data := by
  have hdrop : jobOf (dropTag s p x.num) p ring idx = some j := hj
  have hserve : cplServe (dropTag s p x.num) p x.use (.ok data) = stageBytes (dropTag s p x.num) j slot data := by
    rw [hu]
    unfold cplServe stageDone
    dsimp only
    rw [hdrop]
  rw [cplDone_serve hd (by simp), hserve, jobOf_of_jobs (pumpRings_jobs _ p)]
  exact jobOf_stageBytes hdrop slot data

/-- A job whose staging read fails has the failure's status after the fetches that go on. -/
theorem failJob_pumpRings {t : State} (ht : t.jobs = s.jobs) (hj : jobOf s p ring idx = some j) (h0 : j.status = 0)
    (status : Nat) : ∃ j', jobOf (pumpRings (failJob t p ring idx status) p) p ring idx = some j' ∧ j'.status = status := by
  rw [jobOf_of_jobs (pumpRings_jobs _ p)]
  exact jobOf_failJob ((jobOf_of_jobs ht _ _ _).trans hj) h0 status

theorem stageDone_unsupported {t : State} (ht : t.jobs = s.jobs) (hj : jobOf s p ring idx = some j) :
    stageDone t p ring idx slot .unsupportedRequest = failJob t p ring idx stHostAbort := by
  unfold stageDone
  rw [jobOf_of_jobs ht, hj]

theorem stageDone_poisoned {t : State} (ht : t.jobs = s.jobs) (hj : jobOf s p ring idx = some j) :
    stageDone t p ring idx slot .poisoned = failJob t p ring idx stHostPoison := by
  unfold stageDone
  rw [jobOf_of_jobs ht, hj]

theorem cplDone_unsupported (hd : x.discard = false) (hu : x.use = .staging ring idx slot) (hj : jobOf s p ring idx = some j)
    (h0 : j.status = 0) : ∃ j', jobOf (cplDone s p x .unsupportedRequest) p ring idx = some j' ∧ j'.status = stHostAbort := by
  have hjobs : (dropTag s p x.num).jobs = s.jobs := rfl
  rw [cplDone_serve hd (by simp), hu]
  unfold cplServe
  dsimp only
  rw [stageDone_unsupported hjobs hj]
  exact failJob_pumpRings hjobs hj h0 stHostAbort

theorem cplDone_poison (hd : x.discard = false) (hu : x.use = .staging ring idx slot) (hj : jobOf s p ring idx = some j)
    (h0 : j.status = 0) : ∃ j', jobOf (cplDone s p x .poisoned) p ring idx = some j' ∧ j'.status = stHostPoison := by
  have hjobs := aerLog_jobs (dropTag s p x.num) p (headNum x.head) .poisonedTlp
  rw [cplDone_poisoned hd, hu]
  unfold cplServe
  dsimp only
  rw [stageDone_poisoned (s := s) hjobs hj]
  exact failJob_pumpRings (s := s) hjobs hj h0 stHostPoison

theorem cplTimeout_staging (hd : x.discard = false) (hu : x.use = .staging ring idx slot) (hj : jobOf s p ring idx = some j)
    (h0 : j.status = 0) : (∃ j', jobOf (cplTimeout s p x) p ring idx = some j' ∧ j'.status = stHostTimeout) ∧
      ∃ h, .aer p h .completionTimeout ∈ (cplTimeout s p x).out := by
  have hjobs := aerLog_jobs (dropTag s p x.num) p (headNum x.head) .completionTimeout
  rw [cplTimeout_serve hd, hu]
  exact ⟨failJob_pumpRings (s := s) hjobs hj h0 stHostTimeout, _, pumpRings_out _ p (aerLog_aer _ _ _ _)⟩

/-- A timeout of a descriptor fetch halts the ring. -/
theorem cplTimeout_descriptor (hd : x.discard = false) (hu : x.use = .descriptor ring) :
    fget (cplTimeout s p x) .jobRingStatusHalted p ring = 1 ∧ fget (cplTimeout s p x) .jobRingStatusCause p ring = haltFetch ∧
      fget (cplTimeout s p x) .jobRingStatusHaltStatus p ring = stHostTimeout := by
  rw [cplTimeout_serve hd, hu, fget_pumpRings_job _ _ rfl, fget_pumpRings_job _ _ rfl, fget_pumpRings_job _ _ rfl]
  exact haltRing_status _ p ring (by decide) (by decide)

theorem cplTimeout_hint (hd : x.discard = false) (hu : x.use = .hint) : fget (cplTimeout s p x) .tierHintCtrlHalted p = 1 ∧
    fget (cplTimeout s p x) .tierHintCtrlCause p = haltFetch := by
  rw [cplTimeout_serve hd, hu, fget_pumpRings_tier _ _ rfl, fget_pumpRings_tier _ _ rfl]
  exact haltHint_status _ p stHostTimeout (by decide)

/-- A failed fetch of a hint halts its ring. -/
theorem cplDone_hint_abort (hd : x.discard = false) (hu : x.use = .hint) :
    fget (cplDone s p x .completerAbort) .tierHintCtrlHalted p = 1 ∧
      fget (cplDone s p x .completerAbort) .tierHintCtrlCause p = haltFetch := by
  rw [cplDone_serve hd (by simp), hu, fget_pumpRings_tier _ _ rfl, fget_pumpRings_tier _ _ rfl]
  exact haltHint_status _ p stHostAbort (by decide)

theorem cplDone_hint (hd : x.discard = false) (hu : x.use = .hint) (data : List Byte) :
    cplDone s p x (.ok data) = pumpRings (hintFetched (dropTag s p x.num) p (.ok data)) p := by
  rw [cplDone_serve hd (by simp), hu]
  rfl

end

/-- Settles O43: each use of a tag has its rule; the fetches that the free tag lets go change neither jobs nor pages. -/
theorem completionsServeTheirTags : Obligations.CompletionsServeTheirTags := by
  intro s p
  refine ⟨fun tag cpl h => ?_, fun tag x h => ⟨fun hd cpl => ?_, fun hd => ⟨fun ring idx slot j hu hj => ⟨fun data => ?_,
    fun h0 _ => ⟨?_, ?_, ?_⟩⟩, fun ring hu => ?_, fun hu => ?_⟩⟩, fun x hx => ⟨fun data hh => ⟨fun hb => ?_, fun hb => ?_⟩, ?_⟩⟩
  · have hstep : exec (.completionReceived p tag cpl) s =
        .next (aerLog s p (headNum ((masterHead s p).getD 0)) .unexpectedCompletion) := by
      show execCompletionReceived p tag cpl s = _
      unfold execCompletionReceived
      rw [h]
    exact ⟨_, hstep, ⟨_, aerLog_aer _ _ _ _⟩, aerLog_tags _ _ _ _, aerLog_jobs _ _ _ _⟩
  · have hdone := (exec_completionReceived h cpl).trans (congrArg Host.Outcome.next (cplDone_discard hd cpl))
    exact ⟨_, hdone, pumpRings_jobs _ p, pumpRings_hints _ p⟩
  · exact ⟨_, exec_completionReceived h _, cplDone_staged hd hu hj data⟩
  · exact ⟨_, exec_completionReceived h _, cplDone_unsupported hd hu hj h0⟩
  · exact ⟨_, exec_completionReceived h _, cplDone_poison hd hu hj h0⟩
  · exact ⟨_, exec_completionTimeout h, cplTimeout_staging hd hu hj h0⟩
  · exact ⟨_, exec_completionTimeout h, cplTimeout_descriptor hd hu⟩
  · exact ⟨_, exec_completionTimeout h, cplTimeout_hint hd hu⟩
  all_goals
    have hfound := List.find?_some hx
    obtain ⟨hu, hd⟩ : x.use = .hint ∧ x.discard = false := by simpa using hfound
  · have hdone := (exec_hintFetchDone hx (.ok data)).trans (congrArg Host.Outcome.next (cplDone_hint hd hu data))
    exact ⟨_, hdone, (hintsOf_pumpRings _ p).trans (hintFetched_good hh hb)⟩
  · have hdone := (exec_hintFetchDone hx (.ok data)).trans (congrArg Host.Outcome.next (cplDone_hint hd hu data))
    obtain ⟨hnone, hcons⟩ := hintFetched_bad (s := dropTag s p x.num) hh hb
    exact ⟨_, hdone, (hintsOf_pumpRings _ p).trans hnone, (fget_pumpRings_tier _ p rfl _ _).trans hcons⟩
  · exact ⟨_, exec_hintFetchDone hx _, cplDone_hint_abort hd hu⟩

end Sys2Proof.Machine
end

section
/-! PROOF. Requests, blocks and the directory leave the settings of configuration spaces and what names the jobs. -/

namespace Sys2Proof.Machine

open Sys2Proof

section
variable {s t : State}

/-- The first part of a result that is taken apart. -/
theorem Calm.pair {α : Type} {x : State × α} (h : Calm s x.1) {u : State} {a : α} (e : x = (u, a)) : Calm s u := by
  rw [e] at h
  exact h

theorem finc_calm {f : Fld} {i j : Nat} (h : Calm s t) : Calm s (finc t f i j) := h.upd rfl rfl

theorem fwrap_calm {f : Fld} {i j : Nat} (h : Calm s t) : Calm s (fwrap t f i j) := h.upd rfl rfl

theorem fwadd_calm {f : Fld} {n i j : Nat} (h : Calm s t) : Calm s (fwadd t f n i j) := h.upd rfl rfl

theorem hupd_calm {b : Blk} {i : Nat} {g : Hdr → Hdr} (h : Calm s t) : Calm s (hupd t b i g) := h.upd rfl rfl

theorem pcUpd_calm {pc : Nat} {g : PcState → PcState} (h : Calm s t) : Calm s (pcUpd t pc g) := h.upd rfl rfl

theorem ras_calm {x : RasState} (h : Calm s t) : Calm s { t with ras := x } := h.upd rfl rfl

theorem belay_calm {x : BelayState} (h : Calm s t) : Calm s { t with belay := x } := h.upd rfl rfl

theorem damaged_calm {x : Assoc Nat Nat} (h : Calm s t) : Calm s { t with damaged := x } := h.upd rfl rfl

theorem frames_calm {x : List Frame} (h : Calm s t) : Calm s { t with frames := x } := h.upd rfl rfl

/-! ### Jobs and events of media -/

theorem jobMap_calm {p ring idx : Nat} {f : Job → Job} (hf : ∀ j, jobKey (f j) = jobKey j) (h : Calm s t) :
    Calm s (jobMap t p ring idx f) := by
  refine h.trans ⟨fun _ => rfl, ?_⟩
  unfold jobMap
  rw [List.map_map]
  refine List.map_congr_left fun j _ => ?_
  rw [Function.comp_apply]
  split
  · exact hf j
  · rfl

theorem failJob_calm {p : Part} {ring : Ring} {idx status : Nat} (h : Calm s t) : Calm s (failJob t p ring idx status) := by
  refine h.trans ⟨fun _ => rfl, ?_⟩
  unfold failJob
  rw [List.map_map]
  refine List.map_congr_left fun j _ => ?_
  rw [Function.comp_apply]
  split
  · rfl
  · rfl

theorem logSignal_calm {p : Part} {log : Nat} (h : Calm s t) : Calm s (logSignal t p log) := by
  unfold logSignal
  split
  · exact signalVec_calm h
  · exact h

theorem mediaEvent_calm {p : Part} {failure : Bool} {dpa : Nat} (h : Calm s t) : Calm s (mediaEvent t p failure dpa) := by
  unfold mediaEvent
  exact .ite (logSignal_calm (emit_calm (cfgUpd_calm (fun _ => rfl) h)))
    (logSignal_calm (emit_calm (cfgUpd_calm (fun _ => rfl) h)))

theorem listChange_calm {ps : List Nat} (h : Calm s t) : Calm s (listChange t ps) :=
  .foldl (fun _ _ hu => raise_calm (fwrap_calm hu)) _ h

theorem finishRemoval_calm {base p : Nat} (h : Calm s t) : Calm s (finishRemoval t base p) := by
  unfold finishRemoval
  split
  · have hmap : ∀ g, Calm s (extMap t base g) := fun g => .leaf (extMap_moves rfl) h
    exact .ite (listChange_calm (.ite (.leaf (toSanitising_moves rfl) (hmap _)) (hmap _))) h
  · exact h

/-! ### Lines and blocks (11 R240; 06 R127) -/

theorem freezePc_calm {pc cause : Nat} {l : Loc} (h : Calm s t) : Calm s (freezePc t pc cause l) := by
  unfold freezePc
  refine .ite h (.ite (.leaf (finc_moves rfl) h) ?_)
  have hretrain : ∀ g, Calm s (if (pcOf t pc).retraining then raise (pcUpd t pc g) .pcTrainAborted pc else t) := fun g =>
    .ite (raise_calm (.leaf (pcUpd_moves rfl) h)) h
  refine .ite (raise_calm ?_) ?_
  all_goals exact raise_calm (pcUpd_calm (hupd_calm (.leaf (setFreezeInfo_moves rfl) (.leaf (setPcSt_moves rfl) (hretrain _)))))

theorem readLine_calm {line src : Nat} {upset : Upset} (h : Calm s t) : Calm s (readLine t line upset src).1 := by
  unfold readLine
  dsimp only
  have hdamage : ∀ d, Calm s { t with damage := d } := fun _ => h.upd rfl rfl
  split <;> dsimp only
  · exact hdamage _
  · exact raise_calm (.leaf (writeBackLine_moves rfl) (ras_calm (finc_calm (.leaf (putLine_moves rfl) (hdamage _)))))
  · exact raise_calm (finc_calm (hdamage _))
  · exact freezePc_calm (raise_calm (.leaf (setLastUe_moves rfl) (finc_calm (hdamage _))))

theorem damageBlock_calm {b cause : Nat} (h : Calm s t) : Calm s (damageBlock t b cause) := by
  unfold damageBlock
  exact raise_calm (damaged_calm (fset_calm (fset_calm (fset_calm (fset_calm (finc_calm h))))))

theorem readForm_calm {b clen src : Nat} (h : Calm s t) : Calm s (readForm t b clen src).1 := by
  unfold readForm
  refine foldl_keeps (P := fun x : State × Bool => Calm s x.1) _ (fun x i _ hx => ?_) h
  dsimp only
  split
  · exact readLine_calm hx
  · exact readLine_calm hx
  · exact readLine_calm hx

theorem decodeBlock_calm {b src : Nat} (h : Calm s t) : Calm s (decodeBlock t b src).1 := by
  unfold decodeBlock
  dsimp only
  have hread : Calm s (if idxOk (idxOf t b) (localOf b) = true then readForm t b (idxOf t b).clen src else (t, true)).1 := by
    split
    · exact readForm_calm h
    · exact h
  split
  · exact .leaf (expanded_moves rfl) hread
  · exact damageBlock_calm hread

theorem codedBytes_calm {b cls src : Nat} (h : Calm s t) : Calm s (codedBytes t b cls src).1 := by
  unfold codedBytes
  split
  · exact .leaf (cacheHit_moves rfl) h
  · dsimp only
    split
    · exact .leaf (cachePut_moves rfl) (decodeBlock_calm h)
    · exact decodeBlock_calm h

theorem discardPartial_calm {p : Part} (h : Calm s t) : Calm s (discardPartial t p) := record_calm h

theorem mergeOne_calm {r : Req} {upset : Upset} (h : Calm s t) : Calm s (mergeOne t r upset) := by
  unfold mergeOne
  dsimp only
  have hread : ∀ g, Calm s (readLine (pcUpd t (pcOfAddr r.dpa) g) (lineOf r.dpa) upset 0).1 := fun _ =>
    readLine_calm (pcUpd_calm h)
  split
  · exact .leaf (putLine_moves rfl) (hread _)
  · exact .leaf (putLine_moves rfl) (hread _)
  · exact discardPartial_calm (hread _)
  · exact .ite (pcUpd_calm (hread _)) (discardPartial_calm (pcUpd_calm (hread _)))

theorem mergeLineAll_calm {line : Nat} {upset : Upset} (h : Calm s t) : Calm s (mergeLineAll t line upset) := by
  unfold mergeLineAll
  dsimp only
  split
  · exact h
  · exact .foldl (fun _ _ hu => mergeOne_calm hu) _ (mergeOne_calm h)

theorem copyBlock_calm {b : Nat} (h : Calm s t) : Calm s (copyBlock t b).1 := by
  unfold copyBlock
  split
  · split
    · next e => exact (decodeBlock_calm h).pair e
    · next e => exact (decodeBlock_calm h).pair e
  · exact h

theorem draftBlock_calm {x : Extent} {b : Nat} (h : Calm s t) : Calm s (draftBlock t x b) := by
  unfold draftBlock
  split
  · split
    · refine .ite h ?_
      exact .leaf (snapMap_moves rfl) (copyBlock_calm h)
    · exact h
  · exact h

theorem draftWrite_calm {e : Extent} {dpa : Nat} {d : Line} {mask : BitVec 64} (h : Calm s t) :
    Calm s (draftWrite t e dpa d mask) := .leaf (snapMap_moves rfl) (draftBlock_calm h)

/-! ### Answers (01 R15) -/

theorem answer_calm {r : Req} {res : MemRes} {gme : Bool} (h : Calm s t) : Calm s (answer t r res gme) := by
  unfold answer
  split
  · have hrsp : ∀ d, Calm s (hostRsp t r.p d r.dpa res) := fun _ => .leaf (hostRsp_moves rfl) h
    exact .ite (mediaEvent_calm (hrsp _)) (hrsp _)
  · exact emit_calm h
  · split
    · exact emit_calm h
    · exact emit_calm h
    · exact emit_calm h
  · split
    · exact jobMap_calm (fun _ => rfl) h
    · exact failJob_calm h
    · exact .leaf (stepAccepted_moves rfl) (jobMap_calm (fun _ => rfl) h)
  · exact emit_calm h
  · exact h

theorem twinAccept_calm {r : Req} {id : Nat} (h : Calm s t) : Calm s (twinAccept t r id) := by
  unfold twinAccept
  split
  · exact answer_calm (answer_calm (h.upd rfl rfl))
  · exact answer_calm h

theorem acceptDone_calm {r : Req} (h : Calm s t) : Calm s (acceptDone t r) := by
  unfold acceptDone
  have hseen : ∀ b, Calm s (if fget t .belayStatusState = 4 ∨ fget t .belayStatusModeActive = 2 ∧ paired t then
      { t with belay := b } else t) := fun _ => .ite (h.upd rfl rfl) h
  dsimp only
  split
  · exact twinAccept_calm (hseen _)
  · exact .ite (emit_calm (hseen _)) (answer_calm (hseen _))
  · exact answer_calm (hseen _)
  · refine .ite ?_ (answer_calm (hseen _))
    exact emit_calm (belay_calm (belay_calm (hseen _)))

/-! ### Reads and writes of lines (08 R186; 04 R93) -/

theorem readData_calm {p : Part} {dpa src : Nat} {upset : Upset} {ver : Option Nat} (h : Calm s t) :
    Calm s (readData t p dpa upset src ver).1 := by
  unfold readData
  dsimp only
  split
  · exact h
  · split
    · split
      · exact codedBytes_calm h
      · exact codedBytes_calm h
    · have hread : ∀ x, Calm s (readLine (mergeLineAll t (lineOf dpa) upset) (lineOf dpa) x src).1 := fun _ =>
        readLine_calm (mergeLineAll_calm h)
      split <;> dsimp only
      · exact hread _
      · exact mediaEvent_calm (hread _)
      · exact hread _
      · exact hread _

theorem applyWrite_calm {r : Req} (h : Calm s t) : Calm s (applyWrite t r) := by
  unfold applyWrite
  dsimp only
  split
  · exact draftWrite_calm h
  · exact .leaf (noteWrite_moves rfl) (.ite (.leaf (putLine_moves rfl) (pcUpd_calm h)) (pcUpd_calm h))

theorem answerLines_calm {rs : List Req} {bs : List Byte} (h : Calm s t) : Calm s (answerLines t rs bs) :=
  .foldl (fun _ _ hu => answer_calm hu) _ h

theorem soloDamaged_calm {r : Req} (h : Calm s t) : Calm s (soloDamaged t r) := by
  unfold soloDamaged
  exact .ite (answer_calm h)
    (acceptDone_calm (applyWrite_calm (.leaf (poisonBlock_moves rfl) (.leaf (rawBlock_moves rfl) h))))

theorem damagedReq_calm {r : Req} (h : Calm s t) : Calm s (damagedReq t r) := by
  unfold damagedReq
  exact .ite (.leaf (awaitTwin_moves rfl) h) (soloDamaged_calm h)

theorem expandedWrite_calm {r : Req} (h : Calm s t) : Calm s (expandedWrite t r) := by
  unfold expandedWrite
  dsimp only
  refine .ite (.leaf (awaitTwin_moves rfl) h) ?_
  have hroom : Calm s (expandRoom t (blockOf r.dpa)).1 := .leaf (expandRoom_moves rfl) h
  split
  next u e => exact .leaf (frameMap_moves rfl) (hroom.pair e)
  next u e =>
    have hread := decodeBlock_calm (b := blockOf r.dpa) (src := 3) (hroom.pair e)
    split
    next v bs x y e' =>
      exact acceptDone_calm (applyWrite_calm (.leaf (rawBlock_moves rfl)
        (answerLines_calm (.leaf (expTake_moves rfl) (hread.pair e')))))
    next v c e' => exact damagedReq_calm (hread.pair e')

theorem readerWrite_calm {p : Nat} (h : Calm s t) : Calm s (readerWrite t p) := raise_calm h

theorem serveWrite_calm {r : Req} (h : Calm s t) : Calm s (serveWrite t r) := by
  unfold serveWrite
  dsimp only
  split
  · have hdenied : Calm s (answer (readerWrite t r.p) r .cmp) := answer_calm (readerWrite_calm h)
    refine .ite (acceptDone_calm (applyWrite_calm h)) ?_
    split
    · exact failJob_calm hdenied
    · exact hdenied
  · exact .ite (expandedWrite_calm h) (acceptDone_calm (applyWrite_calm h))

theorem expandedRead_calm {r : Req} (h : Calm s t) : Calm s (expandedRead t r) := by
  unfold expandedRead
  dsimp only
  refine .ite (.leaf (awaitTwin_moves rfl) h) ?_
  split
  · exact answerLines_calm (.leaf (cacheHit_moves rfl) h)
  · exact .leaf (expUpd_moves rfl) h

theorem serveRead_calm {r : Req} {upset : Upset} (h : Calm s t) : Calm s (serveRead t r upset) := by
  unfold serveRead
  dsimp only
  refine .ite (expandedRead_calm h) ?_
  split
  · exact answer_calm (readData_calm h)
  · exact .ite (.leaf (forwardReq_moves rfl) (readData_calm h)) (answer_calm (readData_calm h))

/-! ### Requests at their home (10 R213; 08 R200) -/

theorem qosMove_calm {c bytes : Nat} {part cls coded : Option Nat} {write : Bool} (h : Calm s t) :
    Calm s (qosMove t c part cls bytes write coded) := by
  unfold qosMove
  extract_lets count src u
  have hcount : ∀ v i, Calm s v → Calm s (count v i) := fun v i hv => by
    have hmoved := fwadd_calm (f := if write then .qosBytesWrBytes else .qosBytesRdBytes) (n := bytes) (i := i) (j := 0) hv
    dsimp only [count]
    split
    · exact fwadd_calm hmoved
    · exact fwadd_calm (fwadd_calm hmoved)
  have hu : Calm s u := by
    dsimp only [u]
    split
    · exact hcount _ _ (h.upd rfl rfl)
    · exact h
  split
  · exact hu
  · exact .ite (raise_calm (hcount _ _ (hu.upd rfl rfl))) (hcount _ _ (hu.upd rfl rfl))

theorem moveBytes_calm {r : Req} {write : Bool} (h : Calm s t) : Calm s (moveBytes t r write) := by
  unfold moveBytes
  exact .ite (qosMove_calm h) (qosMove_calm h)

theorem perform_calm {r : Req} {upset : Upset} (h : Calm s t) : Calm s (perform t r upset) := by
  unfold perform
  dsimp only
  have hmoved : Calm s (moveBytes (enqueue (hintOf t r).2 (pcOfAddr r.dpa) (decide (noService r = .cmp)) r.dpa
      (reqLevel (hintOf t r).2 r) (some r.p.val) (reqClass (hintOf t r).2 r) (hintOf t r).1) r (decide (noService r = .cmp))) :=
    moveBytes_calm (.leaf (enqueue_moves rfl) (.leaf (hintOf_moves rfl) h))
  refine .ite (serveWrite_calm hmoved) ?_
  split
  · exact answer_calm hmoved
  · exact answer_calm hmoved
  · exact answer_calm hmoved
  · exact serveRead_calm hmoved

theorem loseReq_calm {r : Req} {isLost : Bool} (h : Calm s t) : Calm s (loseReq t r isLost) := by
  unfold loseReq
  dsimp only
  have hdrop : ∀ g, Calm s (if (decide (noService r = .cmp) && !isLost) = true then pcUpd t (pcOfAddr r.dpa) g else t) := fun _ =>
    .ite (pcUpd_calm h) h
  split
  · exact .ite (.ite (answer_calm (hdrop _)) (failJob_calm (answer_calm (hdrop _)))) (failJob_calm (hdrop _))
  · exact answer_calm (hdrop _)

theorem coverReq_calm {r : Req} {upset : Upset} {isLost : Bool} (h : Calm s t) : Calm s (coverReq t r upset isLost) := by
  unfold coverReq
  dsimp only
  have hdrop : ∀ g, Calm s (if (decide (noService r = .cmp) && !isLost) = true then pcUpd t (pcOfAddr r.dpa) g else t) := fun _ =>
    .ite (pcUpd_calm h) h
  split
  · exact twinAccept_calm (hdrop _)
  · exact .ite (loseReq_calm (hdrop _)) (.leaf (holdReq_moves rfl) (hdrop _))
  · exact .leaf (forwardReq_moves rfl) (hdrop _)

theorem homeReq_calm {r : Req} {upset : Upset} (h : Calm s t) : Calm s (homeReq t r upset) := by
  unfold homeReq
  dsimp only
  have hoffer : ∀ c p, Calm s (qosOffer t c p 64) := fun _ _ => .leaf (qosOffer_moves rfl) h
  have hhold : ∀ c p q, Calm s (holdReq (qosOffer t c p 64) q) := fun _ _ _ => .leaf (holdReq_moves rfl) (hoffer _ _)
  split
  · exact .ite (perform_calm (hoffer _ _)) (hhold _ _ _)
  · exact .ite (coverReq_calm (hoffer _ _)) (hhold _ _ _)
  · exact loseReq_calm (hoffer _ _)
  · exact .ite (coverReq_calm (hoffer _ _)) (loseReq_calm (hoffer _ _))

theorem rehome_calm {rs : List Req} (h : Calm s t) : Calm s (rehome t rs) := .foldl (fun _ _ hu => homeReq_calm hu) _ h

theorem rerunReads_calm {b : Nat} (h : Calm s t) : Calm s (rerunReads t b) := by
  unfold rerunReads
  exact rehome_calm (.leaf (expTake_moves rfl) h)

/-! ### Frames and fills (05 R101 to R111) -/

theorem pinByPolicy_calm {b : Nat} (h : Calm s t) : Calm s (pinByPolicy t b) := by
  unfold pinByPolicy
  have hmap : ∀ g, Calm s (frameMap t b g) := fun _ => .leaf (frameMap_moves rfl) h
  split
  · exact .ite (hmap _) (.ite (hmap _) (raise_calm h))
  · exact hmap _

theorem startFill_calm {b cls : Nat} {part : Option Nat} {waiters : List Req} (h : Calm s t) :
    Calm s (startFill t b cls part waiters) := by
  cases part with
  | none => exact pinByPolicy_calm (h.upd rfl rfl)
  | some p => exact pinByPolicy_calm ((finc_calm (f := .tierFillStatsFills) (i := p) (j := 0) h).upd rfl rfl)

theorem idxFilled_calm {b : Nat} {bs : List Byte} (h : Calm s t) : Calm s (idxFilled t b bs) := by
  unfold idxFilled
  have hform : ∀ n, Calm s (idxOfHeader (packFrame t b n) b bs) := fun _ =>
    .leaf (idxOfHeader_moves rfl) (.leaf (packFrame_moves rfl) h)
  refine .ite (.ite (damageBlock_calm ?_) ?_) (.ite (damageBlock_calm h) h)
  · exact hform _
  · exact hform _

theorem serveWaiters_calm {b : Nat} {rs : List Req} {fresh : Frame} (h : Calm s t) : Calm s (serveWaiters t b rs fresh) := by
  induction rs generalizing t with
  | nil => exact h
  | cons r rest ih =>
    have hdrop : Calm s (dropBlock t b) := .leaf (dropBlock_moves rfl) h
    unfold serveWaiters
    refine .ite (.ite hdrop (ih ?_)) (ih (homeReq_calm h))
    exact frames_calm hdrop

theorem fillDone_calm {b : Nat} (h : Calm s t) : Calm s (fillDone t b) := by
  unfold fillDone
  split
  · refine .ite (serveWaiters_calm (idxFilled_calm ?_)) h
    exact .leaf (frameMap_moves rfl) (.leaf (putBlock_moves rfl) (.leaf (slowFill_moves rfl) (.leaf (endIos_moves rfl) h)))
  · exact h

theorem advanceFill_calm {b : Nat} (h : Calm s t) : Calm s (advanceFill t b) := by
  unfold advanceFill
  split
  next f _ =>
    refine .ite ?_ h
    split
    next u ok e =>
      have hu : Calm s u := by
        split at e
        · cases e
          exact h
        · have hplace : Calm s (takePlace t b (takerOf t f)).1 := .leaf (takePlace_moves rfl) h
          split at e
          · next e' =>
            cases e
            exact .leaf (frameMap_moves rfl) (hplace.pair e')
          · next e' =>
            cases e
            exact hplace.pair e'
      exact .ite hu (.ite (fillDone_calm hu) (.ite (.leaf (issueFill_moves rfl) hu) hu))
  · exact h

theorem tierReq_calm {r : Req} {upset : Upset} (h : Calm s t) : Calm s (tierReq t r upset) := by
  unfold tierReq
  dsimp only
  refine .ite (homeReq_calm h) ?_
  have hmap : ∀ b g, Calm s (frameMap t b g) := fun _ _ => .leaf (frameMap_moves rfl) h
  split
  · exact .ite (advanceFill_calm (hmap _ _)) (.ite (hmap _ _) (homeReq_calm (hmap _ _)))
  · refine .ite (.ite (.leaf (forwardReq_moves rfl) h) (.ite ?_ (answer_calm h))) (advanceFill_calm (startFill_calm h))
    exact .ite (homeReq_calm (.leaf (poisonedFrame_moves rfl) h)) (answer_calm (record_calm h))

/-! ### The directory (04 R84 to R89) -/

theorem dirServe_calm {r : Req} {upset : Upset} (h : Calm s t) : Calm s (dirServe t r upset) := by
  unfold dirServe
  exact .ite (answer_calm (readerWrite_calm h)) (.ite (tierReq_calm (.leaf (settle_moves rfl) h)) (.leaf (snoop_moves rfl) h))

theorem victimWait_calm (h : Calm s t) : Calm s (victimWait t) := raise_calm (finc_calm h)

theorem drainLine_calm {n line : Nat} (h : Calm s t) : Calm s (drainLine n t line) := by
  induction n generalizing t with
  | zero => exact h
  | succ n ih =>
    unfold drainLine
    refine .ite h ?_
    split
    · exact .ite h (ih (dirServe_calm (h.upd rfl rfl)))
    · exact h

theorem drainSlice_calm {slice : Nat} (h : Calm s t) : Calm s (drainSlice t slice) :=
  .foldl (fun _ _ hu => drainLine_calm hu) _ h

theorem finishTrans_calm {x : DirTrans} (h : Calm s t) : Calm s (finishTrans t x) := by
  unfold finishTrans
  refine .ite h ?_
  have hforgot : ∀ g, Calm s (forgetOn t x.line g) := fun _ => .leaf (forgetOn_moves rfl) h
  dsimp only
  split
  · exact tierReq_calm (.leaf (settle_moves rfl) (hforgot _))
  · exact hforgot _

theorem lineDone_calm {line : Nat} (h : Calm s t) : Calm s (lineDone t line) := by
  unfold lineDone
  refine .ite ?_ h
  have hdrained : ∀ (l x : List DirTrans) n, Calm s (drainLine n (l.foldl finishTrans { t with trans := x }) line) := fun l _ _ =>
    drainLine_calm (.foldl (fun _ _ hu => finishTrans_calm hu) l (h.upd rfl rfl))
  exact .ite (drainSlice_calm (.ite (victimWait_calm (hdrained _ _ _)) (hdrained _ _ _)))
    (.ite (victimWait_calm (hdrained _ _ _)) (hdrained _ _ _))

theorem leaveDone_calm {line sh : Nat} (h : Calm s t) : Calm s (leaveDone t line sh) := by
  unfold leaveDone
  split
  · exact .ite (finishRemoval_calm h) h
  · exact h

theorem biAnswer_calm {line sh : Nat} {resp : BiResp} (h : Calm s t) : Calm s (biAnswer t line sh resp) := by
  unfold biAnswer
  split
  next x _ =>
    have htold : ∀ l, Calm s (if x.forTwin = true then emit { t with trans := l } (.belay 1 (.forward (.snooped line sh resp)))
        else { t with trans := l }) := fun _ => .ite (emit_calm (h.upd rfl rfl)) (h.upd rfl rfl)
    refine lineDone_calm (leaveDone_calm (.ite (.leaf (forgetOn_moves rfl) (htold _)) (.ite ?_ (htold _))))
    split
    · exact .leaf (dirSet_moves rfl) (htold _)
    · exact htold _
  · exact .ite (finc_calm h) h

theorem answerAll_calm {gone : Nat → Bool} (h : Calm s t) : Calm s (answerAll t gone) :=
  .foldl (fun _ _ hu => biAnswer_calm hu) _ h

theorem dropSharers_calm {gone : Nat → Bool} (h : Calm s t) : Calm s (dropSharers t gone) :=
  answerAll_calm (.leaf (forgetSharers_moves rfl) h)

/-! ### What a CXL Reset restores (03 R76) -/

theorem discardBlock_calm {p : Part} {b : Nat} (h : Calm s t) : Calm s (discardBlock t p b) := by
  unfold discardBlock
  refine .ite (rerunReads_calm (.leaf (noteWrite_moves rfl) (.leaf (putBlock_moves rfl) (.leaf (makeRaw_moves rfl) h)))) ?_
  split
  · refine .ite (.leaf (frameMap_moves rfl) h) (.ite (.leaf (frameMap_moves rfl) h) ?_)
    exact .foldl (fun _ _ hu => tierReq_calm hu) _ (.leaf (dropBlock_moves rfl) (.leaf (expTake_moves rfl) h))
  · exact .leaf (dropBlock_moves rfl) h

theorem zeroGranule_calm {p : Part} {g : Nat} (h : Calm s t) : Calm s (zeroGranule t p g) := by
  have hblocks : ∀ l : List Nat, Calm s (if t.boot.tiered = true then l.foldl (fun s b => discardBlock s p b) t
      else l.foldl makeRaw t) := fun l =>
    .ite (.foldl (fun _ _ hu => discardBlock_calm hu) l h) (.foldl (fun _ _ hu => .leaf (makeRaw_moves rfl) hu) l h)
  exact (hblocks _).upd rfl rfl

theorem abandonDraft_calm {base p : Nat} (h : Calm s t) : Calm s (abandonDraft t base p) := by
  unfold abandonDraft
  split
  · exact .ite (raise_calm (.leaf (snapMap_moves rfl) h)) h
  · exact h

theorem snapLeave_calm {e : Extent} {p : Nat} (h : Calm s t) : Calm s (snapLeave t e p) := by
  unfold snapLeave
  exact .ite (.leaf (closeVersion_moves rfl) (.ite (abandonDraft_calm h) h)) h

theorem endOffer_calm {p base : Nat} (h : Calm s t) : Calm s (endOffer t p base) := by
  unfold endOffer
  split
  next e _ =>
    have hdrop : ∀ x, Calm s { extDrop t base with snaps := x } := fun _ =>
      (Calm.leaf (s := s) (extDrop_moves (a1 := base) rfl) h).upd rfl rfl
    exact .ite (listChange_calm (.ite (.ite (.leaf (toSanitising_moves rfl) h) (hdrop _)) (.leaf (extMap_moves rfl) h))) h
  · exact h

theorem partUpd_calm {p : Nat} {g : PartState → PartState} (h : Calm s t) : Calm s (partUpd t p g) := h.upd rfl rfl

theorem endOffers_calm {p : Nat} (h : Calm s t) : Calm s (endOffers t p) :=
  partUpd_calm (.foldl (fun _ _ hu => endOffer_calm hu) _ h)

theorem heldAgain_calm {p : Part} {e : Extent} (h : Calm s t) : Calm s (heldAgain t p e) := by
  unfold heldAgain
  split
  · exact .ite h (listChange_calm (.leaf (extMap_moves rfl) h))
  · exact h

theorem turnHoldings_calm {p : Nat} {old : List ExtState} {new : ExtState} (h : Calm s t) :
    Calm s (turnHoldings t p old new) := by
  refine .foldl (fun u e hu => ?_) _ h
  split
  · exact .ite (listChange_calm (.leaf (extMap_moves rfl) hu)) hu
  · exact hu

theorem dcRecords_calm {p : Part} {add forced : Bool} {l : List GranRange} (h : Calm s t) :
    Calm s (dcRecords t p add forced l) := by
  induction l generalizing t with
  | nil => exact h
  | cons x l ih => exact ih (emit_calm (cfgUpd_calm (fun _ => rfl) h))

theorem dcEvent_calm {p : Part} {add forced : Bool} {l : List GranRange} (h : Calm s t) : Calm s (dcEvent t p add forced l) :=
  logSignal_calm (dcRecords_calm h)

/-- Holdings are restored without a change of settings or jobs. -/
theorem restoreHoldings_calm {p : Part} {memClr : Bool} (h : Calm s t) : Calm s (restoreHoldings t p memClr) := by
  unfold restoreHoldings
  refine .foldl (fun u e hu => .ite (raise_calm (dcEvent_calm hu)) hu) _ ?_
  have hleft : ∀ l m : List Extent, ∀ g, Calm s (m.foldl (fun s e => snapLeave s e p) (partUpd (turnHoldings
      (l.foldl (fun s e => heldAgain s p e) (endOffers t p)) p [.reclaimable] .active) p g)) := fun l m g =>
    .foldl (fun _ _ hu => snapLeave_calm hu) m (partUpd_calm (turnHoldings_calm
      (.foldl (fun _ _ hu => heldAgain_calm hu) l (endOffers_calm h))))
  refine .ite (.leaf (newKey_moves rfl) (.leaf (destroyKey_moves rfl) (.foldl (fun u e hu => ?_) _ (hleft _ _ _)))) (hleft _ _ _)
  exact .ite hu (.foldl (fun _ _ hv => zeroGranule_calm hv) _ hu)

end

end Sys2Proof.Machine
end

section
/-! PROOF. How the link of a head trains, falls and comes back, and what PERST# resets (O39). -/

namespace Sys2Proof.Machine

open Sys2Proof

/-! ### What the links of heads leave alone -/

theorem raise_out (s : State) (e : Evt) (i : Nat) {m : Msg} (h : m ∈ s.out) : m ∈ (raise s e i).out := by
  obtain ⟨l, hl⟩ := (raise_moves (F := 1037) (e := e) (i := i) (p := none) (pl := []) (src := none) (sev := none) rfl
    (.refl _ s)).keeps.out
  exact hl ▸ List.mem_append_right _ h

/-- Every kind of state but the heads, the PORT pages and start-up. -/
def linkSet : Nat := 2 ^ 50 - 1 - 2 ^ Kind.heads.num - 2 ^ (Kind.page .port).num - 2 ^ Kind.boot.num

/-- The heads, their registers and the phase of the part stay. -/
structure LinkKept (s t : State) : Prop where
  heads : t.heads = s.heads
  port : ∀ f i j, f.desc.blk = .port → fget t f i j = fget s f i j
  boot : t.boot = s.boot

theorem LinkKept.refl (s : State) : LinkKept s s := ⟨rfl, fun _ _ _ _ => rfl, rfl⟩

theorem LinkKept.trans {s t u : State} (h : LinkKept s t) (k : LinkKept t u) : LinkKept s u :=
  ⟨k.heads.trans h.heads, fun f i j hf => (k.port f i j hf).trans (h.port f i j hf), k.boot.trans h.boot⟩

theorem Moves.linkKept {s t : State} (m : Moves linkSet s t) : LinkKept s t :=
  ⟨m.frame .heads (by decide), fun f i j hf => (m.frame (.page .port) (by decide) f i j hf
    fun h => absurd (h ▸ hf) (by decide)).1, m.frame .boot (by decide)⟩

section
variable {s t : State}

theorem headOf_of_heads (h : t.heads = s.heads) (a : Nat) : headOf t a = headOf s a := by
  unfold headOf
  rw [h]

theorem LinkKept.headOf (h : LinkKept s t) (a : Nat) : headOf t a = headOf s a := headOf_of_heads h.heads a

theorem linkUp_of_headOf {a : Nat} (h : Machine.headOf t a = Machine.headOf s a) : linkUp t a = linkUp s a := by
  unfold linkUp
  rw [h]

theorem LinkKept.linkUp (h : LinkKept s t) (a : Nat) : linkUp t a = linkUp s a := linkUp_of_headOf (h.headOf a)

theorem LinkKept.running (h : LinkKept s t) : running t = running s := by
  unfold Machine.running
  rw [h.boot]

theorem raise_linkKept (s : State) (e : Evt) (i : Nat) : LinkKept s (raise s e i) :=
  (raise_moves (F := linkSet) rfl (.refl _ s)).linkKept

theorem linkUp_iff {a : Nat} : linkUp s a = true ↔ (Machine.headOf s a).ltssm = .l0 ∨ (Machine.headOf s a).ltssm = .l0p := by
  unfold Machine.linkUp
  cases (Machine.headOf s a).ltssm <;> simp

/-- A head in another state of its LTSSM is not up. -/
theorem linkUp_of_ltssm {a : Nat} {st : Ltssm} (h : (Machine.headOf s a).ltssm = st) (h0 : st ≠ .l0) (hp : st ≠ .l0p) :
    linkUp s a = false := by
  rw [Bool.eq_false_iff, ne_eq, linkUp_iff, h]
  exact fun hor => hor.elim h0 hp

end

/-! ### Sessions end with the head that carries them (14 R312) -/

theorem endSession_sessions (s : State) (k : Nat) : (endSession s k).sessions = adel s.sessions k := by
  unfold endSession
  cases hf : s.sessions.find? fun e => decide (e.1 = k) with
  | none =>
    refine (List.filter_eq_self.mpr fun e he => ?_).symm
    simpa using List.find?_eq_none.mp hf e he
  | some e =>
    dsimp only
    split
    · split
      · rw [record_sessions, raise_sessions]
      · rw [record_sessions]
    · split
      · rw [raise_sessions]
      · rfl

theorem foldl_endSession_sessions (l : List Nat) (s : State) {e : Nat × SessionState} (h : e ∈ (l.foldl endSession s).sessions) :
    e ∈ s.sessions ∧ e.1 ∉ l := by
  induction l generalizing s with
  | nil => exact ⟨h, List.not_mem_nil⟩
  | cons k l ih =>
    obtain ⟨hmem, hl⟩ := ih _ h
    rw [endSession_sessions] at hmem
    obtain ⟨hs, hk⟩ := List.mem_filter.mp hmem
    exact ⟨hs, fun hc => (List.mem_cons.mp hc).elim (by simpa using hk) hl⟩

/-- No session that was selected is left. -/
theorem endSessions_none (s : State) (f : SessionState → Bool) {e : Nat × SessionState} (h : e ∈ (endSessions s f).sessions) :
    f e.2 = false := by
  obtain ⟨hs, hk⟩ := foldl_endSession_sessions _ _ h
  refine Bool.eq_false_iff.mpr fun hf => hk ?_
  exact List.mem_map.mpr ⟨e, List.mem_filter.mpr ⟨hs, hf⟩, rfl⟩

theorem headOut_quiet (s : State) (h : Head) : ∀ x ∈ (headOut s h).sessions, x.2.transport ≠ .head h := fun x hx => by
  simpa using endSessions_none _ _ hx

/-! ### A link is lost (02 R37) -/

/-- The head after its link left L0. -/
def headLost (s : State) (h : Head) (st : Ltssm) (event : Bool) : State :=
  headUpd s h fun x => { x with ltssm := st, secure := x.secure && !event, retraining := false }

/-- The status fields of a link that is lost. -/
def statusLost (s : State) (h : Head) : State :=
  fset (fset (fset (fset s .portLinkStatusUp 0 h) .portLinkStatusWidth 0 h) .portLinkStatusRate 0 h) .portLinkStatusFlit256 0 h

/-- The event of a link that is lost, and its Surprise Down. -/
def lossSeen (s : State) (h : Head) (surprise : Bool) : State :=
  let s := raise s .portLinkDown h
  if surprise then aerLink s h .surpriseDown else s

section
variable {s : State} {h : Head} {st : Ltssm} {surprise unacked : Bool}

theorem linkLost_event (hup : linkUp s h = true) : linkLost s h st true surprise unacked =
    mastersMoved (headGone (headOut (lossSeen (statusLost (headLost s h st true) h) h surprise) h) h unacked) h := by
  have hl := linkUp_iff.mp hup
  have hne : (headOf s h).ltssm ≠ .l1 := fun h1 => hl.elim (fun h0 => by simp [h0] at h1) (fun h0 => by simp [h0] at h1)
  unfold linkLost
  dsimp only
  rw [if_neg hne, if_neg (fun hc => hl.elim hc.1 hc.2)]
  rfl

theorem linkLost_rung (hup : linkUp s h = true) : linkLost s h st false false unacked =
    mastersMoved (headGone (statusLost (headLost s h st false) h) h unacked) h := by
  have hl := linkUp_iff.mp hup
  have hne : (headOf s h).ltssm ≠ .l1 := fun h1 => hl.elim (fun h0 => by simp [h0] at h1) (fun h0 => by simp [h0] at h1)
  unfold linkLost
  dsimp only
  rw [if_neg hne, if_neg (fun hc => hl.elim hc.1 hc.2)]
  rfl

theorem lossSeen_moves {F : Nat} (hF : Sub 1037 F) (s : State) : Moves F s (lossSeen s h surprise) := by
  have hraise : Moves F s (raise s .portLinkDown h) := raise_moves hF (.refl _ s)
  exact .ite (fun _ => aerLink_moves (hF.up rfl) hraise) fun _ => hraise

theorem mastersMoved_linkKept (s : State) : LinkKept s (mastersMoved (headGone s h unacked) h) :=
  (mastersMoved_moves (F := linkSet) rfl (headGone_moves rfl (.refl _ s))).linkKept

theorem headOut_lossSeen_linkKept (s : State) : LinkKept s (headOut (lossSeen s h surprise) h) :=
  (headOut_moves (F := linkSet) rfl (lossSeen_moves (F := linkSet) rfl s)).linkKept

theorem mastersMoved_sessions (s : State) : (mastersMoved (headGone s h unacked) h).sessions = s.sessions :=
  (mastersMoved_moves (F := 687424341005) rfl (headGone_moves rfl (.refl _ s))).frame .sessions (by decide)

/-- A link that was up falls with its status fields. -/
theorem linkLost_linkKept (hup : linkUp s h = true) (event : Bool) (hev : event = false → surprise = false) :
    LinkKept (statusLost (headLost s h st event) h) (linkLost s h st event surprise unacked) := by
  cases event with
  | true =>
    rw [linkLost_event hup]
    exact (headOut_lossSeen_linkKept _).trans (mastersMoved_linkKept _)
  | false =>
    obtain rfl := hev rfl
    rw [linkLost_rung hup]
    exact mastersMoved_linkKept _

/-- A link that was not up changes its state alone. -/
theorem linkLost_idle_linkKept (hup : linkUp s h = false) (event : Bool) :
    LinkKept (headLost s h st event) (linkLost s h st event surprise unacked) := by
  have hne : (headOf s h).ltssm ≠ .l0 ∧ (headOf s h).ltssm ≠ .l0p := by
    rw [← Bool.not_eq_true, linkUp_iff, not_or] at hup
    exact hup
  unfold linkLost
  dsimp only
  rw [if_pos hne]
  split
  · split
    · exact (headOut_moves (F := linkSet) rfl (.refl _ _)).linkKept
    · exact .refl _
  · exact .refl _

/-- However a link is lost, its head has the state that the loss gives it. -/
theorem linkLost_headOf (s : State) (event : Bool) (hev : event = false → surprise = false) :
    headOf (linkLost s h st event surprise unacked) h = headOf (headLost s h st event) h := by
  cases hup : linkUp s h with
  | true => exact (linkLost_linkKept hup event hev).headOf h
  | false => exact (linkLost_idle_linkKept hup event).headOf h

/-- The control fields of a head outlast its link. -/
theorem linkLost_port (s : State) (event : Bool) (hev : event = false → surprise = false) {f : Fld} (hf : f.desc.blk = .port)
    (hst : f ∉ [.portLinkStatusUp, .portLinkStatusWidth, .portLinkStatusRate, .portLinkStatusFlit256]) (i j : Nat) :
    fget (linkLost s h st event surprise unacked) f i j = fget s f i j := by
  simp only [List.mem_cons, List.not_mem_nil, or_false, not_or] at hst
  obtain ⟨hu, hwidth, hrate, hflit⟩ := hst
  have hstatus : ∀ u, fget (statusLost u h) f i j = fget u f i j := fun u => by
    unfold statusLost
    rw [fget_fset_fld _ _ _ _ _ _ hflit, fget_fset_fld _ _ _ _ _ _ hrate, fget_fset_fld _ _ _ _ _ _ hwidth,
      fget_fset_fld _ _ _ _ _ _ hu]
  cases hup : linkUp s h with
  | true => exact ((linkLost_linkKept hup event hev).port _ _ _ hf).trans (hstatus _)
  | false => exact (linkLost_idle_linkKept hup event).port _ _ _ hf

/-- UP falls with the link. -/
theorem statusLost_up (s : State) : fget (statusLost s h) .portLinkStatusUp h = 0 := by
  unfold statusLost
  rw [fget_fset_fld _ _ _ _ _ _ (by decide), fget_fset_fld _ _ _ _ _ _ (by decide), fget_fset_fld _ _ _ _ _ _ (by decide),
    fget_fset_self]
  rfl

/-- A head's link is down: its state, UP, and no request through it. -/
def LinkDown (t : State) (h : Head) (st : Ltssm) : Prop :=
  (headOf t h).ltssm = st ∧ fget t .portLinkStatusUp h = 0 ∧ linkUp t h = false

theorem headLost_ltssm (s : State) (event : Bool) : (headOf (headLost s h st event) h).ltssm = st :=
  congrArg HeadState.ltssm (headOf_headUpd_self _ _ _)

theorem linkLost_down (hup : linkUp s h = true) (event : Bool) (hev : event = false → surprise = false) (h0 : st ≠ .l0)
    (hp : st ≠ .l0p) : LinkDown (linkLost s h st event surprise unacked) h st := by
  have hl : (headOf (linkLost s h st event surprise unacked) h).ltssm = st :=
    (congrArg HeadState.ltssm (linkLost_headOf s event hev)).trans (headLost_ltssm s event)
  exact ⟨hl, ((linkLost_linkKept hup event hev).port _ _ _ rfl).trans (statusLost_up _), linkUp_of_ltssm hl h0 hp⟩

theorem linkLost_quiet (hup : linkUp s h = true) :
    ∀ x ∈ (linkLost s h st true surprise unacked).sessions, x.2.transport ≠ .head h := by
  rw [linkLost_event hup, mastersMoved_sessions]
  exact headOut_quiet _ _

theorem linkLost_sessions (hup : linkUp s h = true) : (linkLost s h st false false unacked).sessions = s.sessions := by
  rw [linkLost_rung hup, mastersMoved_sessions]
  rfl

end

/-! ### Training (02 R29 to R34) -/

section
variable {s : State} {h : Head}

theorem emit_signalled {s : State} {e : Evt} {i : Nat} (m : Msg) (hs : Signalled s e i) : Signalled (emit s m) e i := hs

/-- A training that gives no CXL link disables the head. -/
theorem doTrained_notCxl (s : State) (h : Head) (rate width : Nat) (flit partner : Bool) :
    let t := doTrained s h rate width false flit partner
    linkUp t h = false ∧ (headOf t h).ltssm = .disabled ∧ Signalled t .portNotCxl h ∧ .linkDisabled h ∈ t.out := by
  have hall : ∀ u, let t := emit (raise (linkLost u h .disabled true true false) .portNotCxl h) (.linkDisabled h)
      linkUp t h = false ∧ (headOf t h).ltssm = .disabled ∧ Signalled t .portNotCxl h ∧ .linkDisabled h ∈ t.out := fun u => by
    have hl : (headOf (raise (linkLost u h .disabled true true false) .portNotCxl h) h).ltssm = .disabled := by
      rw [(raise_linkKept _ _ _).headOf, linkLost_headOf u true (by simp)]
      exact headLost_ltssm u true
    exact ⟨linkUp_of_ltssm hl (by simp) (by simp), hl, emit_signalled _ (raise_signalled _ _ _ _ _ _ _), List.mem_cons_self⟩
  unfold doTrained
  exact hall _

/-- A head is up at a width and a rate. -/
structure Trained (t : State) (h : Head) (width rate : Nat) : Prop where
  ltssm : (headOf t h).ltssm = .l0
  up : fget t .portLinkStatusUp h = 1
  width : fget t .portLinkStatusWidth h = width
  rate : fget t .portLinkStatusRate h = rate

section
variable {t u : State} {width rate : Nat}

theorem Trained.of_kept (k : Trained t h width rate) (hk : LinkKept t u) : Trained u h width rate :=
  ⟨(congrArg HeadState.ltssm (hk.headOf h)).trans k.ltssm, (hk.port _ _ _ rfl).trans k.up, (hk.port _ _ _ rfl).trans k.width,
    (hk.port _ _ _ rfl).trans k.rate⟩

theorem Trained.raise_if (k : Trained t h width rate) (c : Prop) [Decidable c] (e : Evt) :
    Trained (if c then raise t e h else t) h width rate := by
  split
  · exact k.of_kept (raise_linkKept _ _ _)
  · exact k

/-- The state and the status fields of a head that trained. -/
def trainedHead (s : State) (h : Head) (r width : Nat) (flit partner : Bool) : State :=
  let s := headUpd s h fun x => { x with ltssm := .l0, retraining := false }
  let s := fset (fset (fset s .portLinkStatusRate r h) .portLinkStatusWidth width h) .portLinkStatusUp 1 h
  fset (fset s .portLinkStatusFlit256 (if flit || decide (5 ≤ r) then 1 else 0) h)
    .portLinkStatusPartner128 (if partner then 1 else 0) h

theorem trainedHead_trained (s : State) (h : Head) {r width : Nat} (flit partner : Bool) (hr : r < 8) (hw : width < 32) :
    Trained (trainedHead s h r width flit partner) h width r := by
  unfold trainedHead
  dsimp only
  refine ⟨by simp only [headOf_fset, headOf_headUpd_self], ?_, ?_, ?_⟩
  · rw [fget_fset_fld _ _ _ _ _ _ (by decide), fget_fset_fld _ _ _ _ _ _ (by decide), fget_fset_self]
    rfl
  · rw [fget_fset_fld _ _ _ _ _ _ (by decide), fget_fset_fld _ _ _ _ _ _ (by decide), fget_fset_fld _ _ _ _ _ _ (by decide),
      fget_fset_self]
    exact Nat.mod_eq_of_lt hw
  · rw [fget_fset_fld _ _ _ _ _ _ (by decide), fget_fset_fld _ _ _ _ _ _ (by decide), fget_fset_fld _ _ _ _ _ _ (by decide),
      fget_fset_fld _ _ _ _ _ _ (by decide), fget_fset_self]
    exact Nat.mod_eq_of_lt hr

theorem Trained.laneFail_if (k : Trained t h width rate) (c : Prop) [Decidable c] :
    Trained (if c then fset t .portLinkStatusLaneFail 0 h else t) h width rate := by
  split
  · exact ⟨k.ltssm, (fget_fset_fld _ _ _ _ _ _ (by decide)).trans k.up, (fget_fset_fld _ _ _ _ _ _ (by decide)).trans k.width,
      (fget_fset_fld _ _ _ _ _ _ (by decide)).trans k.rate⟩
  · exact k

theorem Trained.raise_unless (k : Trained t h width rate) (c : Prop) [Decidable c] (e : Evt) :
    Trained (if c then t else raise t e h) h width rate := by
  split
  · exact k
  · exact k.of_kept (raise_linkKept _ _ _)

end

theorem clearBiFailed_mastersMoved_linkKept (s : State) : LinkKept s (mastersMoved (clearBiFailed s h) h) :=
  (mastersMoved_moves (F := linkSet) rfl (clearBiFailed_moves rfl (.refl _ s))).linkKept

theorem rateOf_le (s : State) (h r : Nat) (flit partner : Bool) : rateOf s h r flit partner ≤ r := Nat.min_le_left _ _

/-- A retrain that counts leaves what bounds the rate. -/
theorem rateOf_counted (s : State) (h : Head) (b : Bool) (r : Nat) (flit partner : Bool) :
    rateOf (if b = true then finc s .portErrCountRetrains h else s) h r flit partner = rateOf s h r flit partner := by
  split
  · unfold rateOf
    rw [fget_finc_fld _ _ _ _ _ (by decide), fget_finc_fld _ _ _ _ _ (by decide)]
  · rfl

/-- A training of a CXL link brings the head up at its width and the rate that it may have. -/
theorem doTrained_cxl (s : State) (h : Head) {rate width : Nat} (flit partner : Bool) (hr : rate < 8) (hw : width < 32) :
    Trained (doTrained s h rate width true flit partner) h width (rateOf s h rate flit partner) := by
  have hstart := trainedHead_trained
    (if (linkUp s h && !(headOf s h).retraining) = true then finc s .portErrCountRetrains h else s) h flit partner (Nat.lt_of_le_of_lt (rateOf_le s h rate flit partner) hr) hw
  unfold doTrained
  dsimp only
  rw [if_neg (by simp), rateOf_counted]
  exact ((((hstart.laneFail_if _).raise_unless _ _).raise_if _ _).raise_if _ _).of_kept (clearBiFailed_mastersMoved_linkKept _)

/-! ### Equalisation and lanes (02 R33, R34) -/

/-- The failures of the last second, this one first. -/
def recentFails (s : State) (h : Head) : List Nat := (headOf s h).eqFails.filter fun a => decide (now s < a + 1000 * msCycles)

/-- The failure is counted and listed. -/
def eqFailSeen (s : State) (h : Head) : State :=
  headUpd (finc s .portErrCountEqFail128 h) h fun x => { x with eqFails := now s :: recentFails s h }

theorem doEqFail_eq (s : State) (h : Head) : doEqFail s h =
    if 2 ≤ (recentFails s h).length ∧ fget s .portLinkStatusCapped64 h = 0 then
      raise (fset (eqFailSeen s h) .portLinkStatusCapped64 1 h) .portCapped64 h
    else eqFailSeen s h := by
  have hl : (now s :: (headOf s h).eqFails).filter (fun t => decide (now s < t + 1000 * msCycles)) = now s :: recentFails s h :=
    List.filter_cons_of_pos (by simp [msCycles])
  have hcap : fget (eqFailSeen s h) .portLinkStatusCapped64 h = fget s .portLinkStatusCapped64 h :=
    fget_finc_fld _ _ _ _ _ (by decide)
  unfold doEqFail
  dsimp only
  rw [show now (finc s .portErrCountEqFail128 h) = now s from rfl, headOf_finc, hl, List.length_cons]
  exact if_congr (and_congr (by omega) (iff_of_eq (congrArg (· = 0) hcap))) rfl rfl

theorem eqFailSeen_fails (s : State) (h : Head) : (headOf (eqFailSeen s h) h).eqFails = now s :: recentFails s h :=
  congrArg HeadState.eqFails (headOf_headUpd_self _ _ _)

/-- The third failure of a second caps the head. -/
theorem doEqFail_caps {s : State} {h : Head} (hc : fget s .portLinkStatusCapped64 h = 0) : let t := doEqFail s h
    fget t .portLinkStatusCapped64 h = (if 2 ≤ (recentFails s h).length then 1 else 0) ∧
      (2 ≤ (recentFails s h).length → Signalled t .portCapped64 h) ∧ (headOf t h).eqFails = now s :: recentFails s h := by
  rw [doEqFail_eq]
  by_cases hl : 2 ≤ (recentFails s h).length
  · rw [if_pos ⟨hl, hc⟩, if_pos hl]
    refine ⟨?_, fun _ => raise_signalled _ _ _ _ _ _ _, ?_⟩
    · rw [(raise_linkKept _ _ _).port _ _ _ rfl, fget_fset_self]
      rfl
    · rw [(raise_linkKept _ _ _).headOf, headOf_fset]
      exact eqFailSeen_fails s h
  · rw [if_neg (fun hk => hl hk.1), if_neg hl]
    exact ⟨(fget_finc_fld _ _ _ _ _ (by decide)).trans hc, fun hk => absurd hk hl, eqFailSeen_fails s h⟩

theorem widestWidth_lt (failed top : Nat) : widestWidth failed top < 32 := by
  unfold widestWidth
  dsimp only
  cases hf : [16, 8, 4, 2, 1].find? _ with
  | none => simp
  | some w =>
    have hw : ∀ w ∈ [16, 8, 4, 2, 1], w < 32 := by decide
    exact hw w (List.mem_of_find?_eq_some hf)

/-- A retrain leaves a head in its state. -/
theorem retrainNow_ltssm (s : State) (h : Head) : (headOf (retrainNow s h) h).ltssm = (headOf s h).ltssm := by
  unfold retrainNow
  rw [headOf_headUpd_self, headOf_emit, headOf_finc]

theorem linkUp_retrainNow (s : State) (h : Head) : linkUp (retrainNow s h) h = linkUp s h := by
  unfold linkUp
  rw [retrainNow_ltssm]

theorem fget_retrainNow (s : State) (h : Head) {f : Fld} (hf : f ≠ .portErrCountRetrains) (i j : Nat) :
    fget (retrainNow s h) f i j = fget s f i j := fget_finc_fld _ _ _ _ _ hf

theorem linkUp_laneFail (s : State) (h : Head) (n : Nat) : linkUp (fset s .portLinkStatusLaneFail n h) h = linkUp s h := rfl

/-- With no width left the link is lost. -/
theorem doLaneFailure_lost {s : State} {h : Head} {lanes : Nat} (hw : widestWidth lanes (fget s .portLinkStatusWidth h) = 0) :
    doLaneFailure s h lanes = linkLost (fset s .portLinkStatusLaneFail lanes h) h .detect true true true := by
  unfold doLaneFailure
  dsimp only
  rw [if_pos hw]

/-- What the retrain to a narrower width leaves. -/
theorem doLaneFailure_retrains {s : State} {h : Head} {lanes : Nat} (hlt : lanes < 2 ^ 16) (hup : linkUp s h = true)
    (hw : widestWidth lanes (fget s .portLinkStatusWidth h) ≠ 0) : let t := doLaneFailure s h lanes
    fget t .portLinkStatusLaneFail h = lanes ∧
      fget t .portLinkStatusWidth h = widestWidth lanes (fget s .portLinkStatusWidth h) ∧ linkUp t h = true ∧
      .linkRetrain h ∈ t.out ∧
      (widestWidth lanes (fget s .portLinkStatusWidth h) < 16 → Signalled t .portWidthDegraded h) := by
  have hkept : ∀ (w : Nat) (u : State), LinkKept u (if w < 16 then raise u .portWidthDegraded h else u) := fun w u => by
    split
    · exact raise_linkKept _ _ _
    · exact .refl _
  have hout : ∀ (w : Nat) (u : State), .linkRetrain h ∈ u.out →
      .linkRetrain h ∈ (if w < 16 then raise u .portWidthDegraded h else u).out := fun w u hm => by
    split
    · exact raise_out _ _ _ hm
    · exact hm
  unfold doLaneFailure
  dsimp only
  rw [if_neg hw]
  refine ⟨?_, ?_, ?_, hout _ _ (retrainNow_out _ h).1, fun hlt => ?_⟩
  · rw [(hkept _ _).port _ _ _ rfl, fget_retrainNow _ _ (by decide), fget_fset_fld _ _ _ _ _ _ (by decide), fget_fset_self]
    exact Nat.mod_eq_of_lt hlt
  · rw [(hkept _ _).port _ _ _ rfl, fget_retrainNow _ _ (by decide), fget_fset_self]
    exact Nat.mod_eq_of_lt (widestWidth_lt _ _)
  · rw [(hkept _ _).linkUp, linkUp_retrainNow]
    exact hup
  · rw [if_pos hlt]
    exact raise_signalled _ _ _ _ _ _ _

end

/-! ### Writes of LINK_CTRL (02 R30, R55) -/

theorem fieldsAt_linkCtrl (h : Head) :
    fieldsAt .port h 0x050 = [⟨.portLinkCtrlRetrain, 0, 0⟩, ⟨.portLinkCtrlDisable, 0, 1⟩] := rfl

theorem wordWith_retrain (s : State) (h : Head) :
    wordWith s .port h 0x050 [(.portLinkCtrlRetrain, 0, 1)] = 1 + 2 * fget s .portLinkCtrlDisable h := by
  unfold wordWith
  rw [fieldsAt_linkCtrl]
  show 0 + 1 % 2 ^ 1 * 2 ^ 0 + fget s .portLinkCtrlDisable h * 2 ^ 1 = _
  omega

theorem wordWith_disable (s : State) (h : Head) (n : Nat) :
    wordWith s .port h 0x050 [(.portLinkCtrlDisable, 0, n)] = 2 * (n % 2) := by
  unfold wordWith
  rw [fieldsAt_linkCtrl]
  show 0 + 0 * 2 ^ 0 + n % 2 ^ 1 * 2 ^ 1 = _
  omega

theorem newFld_disable (u : State) (v : View) (h : Head) (w : Nat) :
    newFld u v .port h 0x050 w .portLinkCtrlDisable 0 = w / 2 % 2 := by
  unfold newFld
  rw [fieldsAt_linkCtrl]
  rfl

theorem newFld_retrain (u : State) (v : View) (h : Head) (w : Nat) :
    newFld u v .port h 0x050 w .portLinkCtrlRetrain 0 = w / 1 % 2 := by
  unfold newFld
  rw [fieldsAt_linkCtrl]
  rfl

/-- The state on which a write through a session takes effect. -/
theorem sessionAudit_linkKept (s : State) (ses : Session) (b : Blk) (i off w old : Nat) :
    LinkKept s (auditWrite (sessionMsg s ses) (.fm ses) b i off w old) :=
  (auditWrite_moves (F := linkSet) rfl (sessionMsg_moves rfl (.refl _ s))).linkKept

theorem headNum_val (h : Head) : headNum h.val = h := Fin.ext (Nat.mod_eq_of_lt h.isLt)

/-- A write of LINK_CTRL: DISABLE where it changes, then RETRAIN. -/
def linkCtrlWrite (u : State) (h : Head) (w : Nat) : State :=
  let t := if w / 2 % 2 = fget u .portLinkCtrlDisable h then u else disableHead u h (decide (w / 2 % 2 = 1))
  if w / 1 % 2 = 1 then retrainHead t h else t

theorem applyPort_linkCtrl {u : State} {h : Head} {w : Nat} {nv : Fld → Nat → Nat}
    (hd : nv .portLinkCtrlDisable 0 = w / 2 % 2) (hr : nv .portLinkCtrlRetrain 0 = w / 1 % 2) :
    applyPort u h 0x050 nv = linkCtrlWrite u h w := by
  unfold applyPort linkCtrlWrite
  rw [if_pos rfl, headNum_val, ← hd, ← hr]

theorem fmWrite_linkCtrl {s : State} {ses : Session} {h : Head} {w : Nat} (hup : sesUp s ses = true)
    (hw : Writes s (.fm ses) .port h 0x050 w) : ∃ u, LinkKept s u ∧ fmWrite s ses .port h 0x050 w = linkCtrlWrite u h w := by
  refine ⟨_, sessionAudit_linkKept s ses .port h 0x050 w (readReg (sessionMsg s ses) (.fm ses) .port h 0x050), ?_⟩
  rw [fmWrite_open hup hw]
  dsimp only
  rw [if_neg (by decide), if_neg (by decide)]
  exact applyPort_linkCtrl (newFld_disable _ _ _ _) (newFld_retrain _ _ _ _)

section
variable {u : State} {h : Head}

theorem linkCtrlWrite_retrain (hlt : fget u .portLinkCtrlDisable h < 2) :
    linkCtrlWrite u h (1 + 2 * fget u .portLinkCtrlDisable h) = retrainHead u h := by
  unfold linkCtrlWrite
  dsimp only
  rw [if_pos (by omega), if_pos (by omega)]

theorem linkCtrlWrite_disable {n : Nat} (hn : n < 2) (hne : n ≠ fget u .portLinkCtrlDisable h) :
    linkCtrlWrite u h (2 * (n % 2)) = disableHead u h (decide (n = 1)) := by
  have hword : 2 * (n % 2) / 2 % 2 = n := by omega
  unfold linkCtrlWrite
  dsimp only
  rw [hword, if_neg hne, if_neg (by omega)]

/-- A retrain of an enabled head. -/
theorem retrainHead_trains (hp : (headOf u h).perst = false) (hd : fget u .portLinkCtrlDisable h = 0)
    (hr : running u = true) : .linkRetrain h ∈ (retrainHead u h).out ∧
      (linkUp u h = false → (headOf (retrainHead u h) h).ltssm = .training) ∧
      (linkUp u h = true → linkUp (retrainHead u h) h = true) := by
  have hopen : ¬((headOf u h).perst || decide (fget u .portLinkCtrlDisable h = 1) || !running u) = true := by simp [hp, hd, hr]
  unfold retrainHead
  rw [if_neg hopen]
  cases hup : linkUp u h with
  | true =>
    rw [if_pos rfl]
    exact ⟨(retrainNow_out u h).1, fun hc => absurd hc (by simp), fun _ => (linkUp_retrainNow u h).trans hup⟩
  | false =>
    rw [if_neg (by simp)]
    exact ⟨List.mem_cons_self, fun _ => congrArg HeadState.ltssm (headOf_headUpd_self _ _ _), fun hc => absurd hc (by simp)⟩

theorem disableHead_on (u : State) (h : Head) : let t := disableHead u h true
    fget t .portLinkCtrlDisable h = 1 ∧ (headOf t h).ltssm = .disabled ∧ .linkDisabled h ∈ t.out := by
  have hall : ∀ v, let t := emit (linkLost v h .disabled true true false) (.linkDisabled h)
      fget t .portLinkCtrlDisable h = fget v .portLinkCtrlDisable h ∧ (headOf t h).ltssm = .disabled ∧
        .linkDisabled h ∈ t.out := fun v =>
    ⟨linkLost_port v true (by simp) rfl (by simp) _ _,
      (congrArg HeadState.ltssm (linkLost_headOf v true (by simp))).trans (headLost_ltssm v true), List.mem_cons_self⟩
  unfold disableHead
  obtain ⟨hd, hl, hm⟩ := hall (fset u .portLinkCtrlDisable 1 h)
  exact ⟨hd.trans (fget_fset_self _ _ _ _ _), hl, hm⟩

theorem disableHead_off (hl : (headOf u h).ltssm = .disabled) (hp : (headOf u h).perst = false) :
    let t := disableHead u h false
    fget t .portLinkCtrlDisable h = 0 ∧ (headOf t h).ltssm = .training := by
  have hopen : (headOf (fset u .portLinkCtrlDisable 0 h) h).ltssm = .disabled ∧
      (!(headOf (fset u .portLinkCtrlDisable 0 h) h).perst) = true := ⟨hl, by rw [headOf_fset, hp]; rfl⟩
  have hstep : disableHead u h false =
      headUpd (fset u .portLinkCtrlDisable 0 h) h fun x => { x with ltssm := .training } := if_pos hopen
  rw [hstep]
  exact ⟨fget_fset_self _ _ _ _ _, congrArg HeadState.ltssm (headOf_headUpd_self _ _ _)⟩

/-- PERST# is released: the cap falls, and the link trains where it may. -/
theorem perstOff_trains (u : State) (h : Head) : let t := perstOff u h
    (headOf t h).perst = false ∧ fget t .portLinkStatusCapped64 h = 0 ∧
      (running u = true → fget u .portLinkCtrlDisable h = 0 → (headOf t h).ltssm = .training) := by
  unfold perstOff
  dsimp only
  refine ⟨congrArg HeadState.perst (headOf_headUpd_self _ _ _), fget_fset_self _ _ _ _ _, fun hr hd => ?_⟩
  have hopen : (running (fset u .portLinkStatusCapped64 0 h) &&
      decide (fget (fset u .portLinkStatusCapped64 0 h) .portLinkCtrlDisable h = 0)) = true := by
    rw [fget_fset_fld _ _ _ _ _ _ (by decide)]
    simp only [hd, decide_true, Bool.and_true]
    exact hr
  exact (congrArg HeadState.ltssm (headOf_headUpd_self _ _ _)).trans (if_pos hopen)

end

/-! ### Settings outlast a lost link (02 R49, R51) -/

section
variable {s t u : State}

theorem SetupKept.foldl {α : Type} {f : State → α → State} (hf : ∀ u x, SetupKept s u → SetupKept s (f u x)) (l : List α)
    (h : SetupKept s t) : SetupKept s (l.foldl f t) := foldl_keeps l (fun u x _ hu => hf u x hu) h

theorem SetupKept.ite {a b : State} {c : Prop} [Decidable c] (ha : SetupKept s a) (hb : SetupKept s b) :
    SetupKept s (if c then a else b) := by
  split
  · exact ha
  · exact hb

theorem haltRing_calm {p k cause status : Nat} (h : Calm s t) : Calm s (haltRing t p k cause status) := by
  unfold haltRing
  exact raise_calm (fset_calm (fset_calm (fset_calm (fset_calm h))))

theorem haltHint_calm {p cause status : Nat} (h : Calm s t) : Calm s (haltHint t p cause status) := by
  unfold haltHint
  have hhints : ∀ x, Calm s { t with hints := x } := fun _ => h.upd rfl rfl
  exact raise_calm (fset_calm (fset_calm (fset_calm (hhints _))))

theorem endJob_setupKept {j : Job} {status : Nat} (h : SetupKept s t) : SetupKept s (endJob t j status) :=
  h.trans ((endJob_moves (F := 226951168) rfl (.refl _ t)).setupKept (by decide))

theorem discardTags_calm {p : Nat} {ok : TagUse → Bool} (h : Calm s t) : Calm s (discardTags t p ok) :=
  cfgUpd_calm (fun _ => rfl) h

/-- The end of a partition's work moves no setting. -/
theorem endWork_setupKept {p : Part} {cause status : Nat} (h : SetupKept s t) : SetupKept s (endWork t p cause status) := by
  unfold endWork
  have hrings : SetupKept s ((List.finRange 64).foldl (fun s (k : Ring) =>
      if fget s .jobRingCtrlEnable p k = 1 ∧ (!ringHalted s p k || !(ringJobs s p k).isEmpty) then
        haltRing (ringUpd s p k fun r => { r with fetching := false }) p k cause status else s) t) :=
    .foldl (fun u k hu => .ite (hu.trans (haltRing_calm (ringUpd_calm (.refl u))).setup) hu) _ h
  have hjobs : ∀ l : List Job, SetupKept s (l.foldl (fun s j => endJob s j status) _) := fun l =>
    .foldl (fun _ _ hu => endJob_setupKept hu) l hrings
  refine SetupKept.trans ?_ (discardTags_calm (.refl _)).setup
  exact .ite ((hjobs _).trans (haltHint_calm (.refl _)).setup) (hjobs _)

theorem masterAgain_setupKept {p : Part} (h : SetupKept s t) : SetupKept s (masterAgain t p) := by
  unfold masterAgain
  exact .ite (.ite (endWork_setupKept h) h) (h.trans (pumpRings_calm (flushVecs_calm (.refl t))).setup)

theorem mastersMoved_setupKept {h' : Head} {unacked : Bool} (h : SetupKept s t) :
    SetupKept s (mastersMoved (headGone t h' unacked) h') := by
  have hgone : SetupKept t (headGone t h' unacked) :=
    (headGone_moves (F := 8388608) rfl (.refl _ t)).setupKept (by decide)
  have hparts := SetupKept.foldl (f := masterAgain) (fun _ _ hu => masterAgain_setupKept hu)
    (partsOn (headGone t h' unacked) h') (h.trans hgone)
  exact hparts.trans (flushVecs_calm (.refl _)).setup

theorem endSession_calm {k : Nat} (h : Calm s t) : Calm s (endSession t k) := by
  unfold endSession
  split
  · exact h
  · refine .ite (record_calm ?_) ?_
    all_goals
      split
      · exact raise_calm (h.upd rfl rfl)
      · exact h.upd rfl rfl

theorem headOut_calm {h' : Head} (h : Calm s t) : Calm s (headOut t h') := by
  unfold headOut endSessions
  exact .foldl (fun _ _ hu => endSession_calm hu) _ (dropSharers_calm h)

theorem lossSeen_calm {h' : Head} {surprise : Bool} (h : Calm s t) : Calm s (lossSeen t h' surprise) := by
  unfold lossSeen
  exact .ite (aerLink_calm (raise_calm h)) (raise_calm h)

theorem statusLost_calm {h' : Head} (h : Calm s t) : Calm s (statusLost t h') :=
  fset_calm (fset_calm (fset_calm (fset_calm h)))

/-- A lost link moves no setting of a partition. -/
theorem linkLost_setupKept {h : Head} {st : Ltssm} {surprise unacked : Bool} (hup : linkUp s h = true) :
    SetupKept s (linkLost s h st true surprise unacked) := by
  rw [linkLost_event hup]
  exact mastersMoved_setupKept (headOut_calm (lossSeen_calm (statusLost_calm (headUpd_calm (.refl s))))).setup

/-! ### PERST# (02 R51) -/

theorem startReset_none {p : Part} {k : ResetKind} (h : (cfgOf t p).inReset = none) :
    (cfgOf (startReset t p k) p).inReset = some k := by
  unfold startReset
  rw [if_neg (by simp [h])]
  exact congrArg PartCfg.inReset (cfgOf_cfgUpd_self _ _ _)

theorem startReset_some {p : Part} {k : ResetKind} (h : (cfgOf t p).inReset.isSome = true) : startReset t p k = t := if_pos h

/-- A reset of another partition leaves this one's settings. -/
theorem startReset_ne {p q : Part} (hq : p ≠ q) (k : ResetKind) :
    (cfgOf (startReset t q k) p).inReset = (cfgOf t p).inReset := by
  unfold startReset
  split
  · rfl
  · have hwork : ∀ g, SetupKept t (endWork (partUpd t q g) q haltMaster stMasterOff) := fun _ =>
      endWork_setupKept (partUpd_calm (.refl t)).setup
    dsimp only
    rw [cfgOf_cfgUpd_ne _ _ (fun h => hq (Fin.ext h))]
    exact (hwork _).field (·.inReset) (fun _ => rfl) p

/-- A partition is not in reset, or in an FLR. -/
def FlrOrNone (t : State) (p : Part) : Prop := (cfgOf t p).inReset = none ∨ (cfgOf t p).inReset = some .flr

theorem startReset_flr {p : Part} (h : FlrOrNone t p) : (cfgOf (startReset t p .flr) p).inReset = some .flr := by
  rcases h with h | h
  · exact startReset_none h
  · rw [startReset_some (by simp [h])]
    exact h

theorem startReset_flrOrNone {p q : Part} (h : FlrOrNone t p) : FlrOrNone (startReset t q .flr) p := by
  by_cases hq : p = q
  · exact .inr (hq ▸ startReset_flr (hq ▸ h))
  · unfold FlrOrNone
    rwa [startReset_ne hq]

/-- Of the partitions that PERST# resets each one ends in an FLR. -/
theorem foldl_startReset_flr {p : Part} (l : List Part) (h : FlrOrNone t p) (hp : p ∈ l ∨ (cfgOf t p).inReset = some .flr) :
    (cfgOf (l.foldl (fun s q => startReset s q .flr) t) p).inReset = some .flr := by
  induction l generalizing t with
  | nil => exact hp.resolve_left List.not_mem_nil
  | cons q l ih =>
    refine ih (startReset_flrOrNone h) ?_
    by_cases hq : p = q
    · exact .inr (hq ▸ startReset_flr (hq ▸ h))
    · refine hp.imp (fun hm => (List.mem_cons.mp hm).resolve_left hq) fun hf => ?_
      rwa [startReset_ne hq]

theorem foldl_startReset_linkKept (l : List Part) (t : State) : LinkKept t (l.foldl (fun s q => startReset s q .flr) t) :=
  foldl_keeps (P := LinkKept t) l (fun u _ _ hu => hu.trans (startReset_moves (F := linkSet) rfl (.refl _ u)).linkKept) (.refl t)

theorem foldl_startReset_sessions (l : List Part) (t : State) :
    (l.foldl (fun s q => startReset s q .flr) t).sessions = t.sessions :=
  foldl_keeps (P := fun u : State => u.sessions = t.sessions) l (fun u q _ hu => by
    have hsame : (startReset u q .flr).sessions = u.sessions :=
      (startReset_moves (F := 687424345101) rfl (.refl _ u)).frame .sessions (by decide)
    exact hsame.trans hu) rfl

/-- The partitions that lose their last link with a head. -/
def lastLinks (s : State) (h : Head) : List Part :=
  (partsOn s h).filter fun (p : Part) => linkUp s h && (boundHeads s p).all fun g => decide (g = h.val) || !linkUp s g

/-- A head held by PERST#. -/
def perstHeld (s : State) (h : Head) : State :=
  headUpd (linkLost s h .detect true false false) h fun x =>
    { x with perst := true, linkControl := 0, linkControl2 := 0, flexBus := 0 }

theorem perstOn_eq (s : State) (h : Head) :
    perstOn s h = (lastLinks s h).foldl (fun s q => startReset s q .flr) (perstHeld s h) := rfl

theorem perstHeld_headOf (s : State) (h : Head) :
    (headOf (perstHeld s h) h).ltssm = .detect ∧ (headOf (perstHeld s h) h).perst = true := by
  unfold perstHeld
  rw [headOf_headUpd_self]
  exact ⟨(congrArg HeadState.ltssm (linkLost_headOf s true (by simp))).trans (headLost_ltssm s true), rfl⟩

theorem perstOn_down {h : Head} (hup : linkUp s h = true) :
    LinkDown (perstOn s h) h .detect ∧ (headOf (perstOn s h) h).perst = true ∧
    ∀ x ∈ (perstOn s h).sessions, x.2.transport ≠ .head h := by
  obtain ⟨hl, hp⟩ := perstHeld_headOf s h
  obtain ⟨-, hzero, -⟩ :=
    linkLost_down (st := .detect) (surprise := false) (unacked := false) hup true (by simp) (by simp) (by simp)
  rw [perstOn_eq]
  have hkept := foldl_startReset_linkKept (lastLinks s h) (perstHeld s h)
  have hlt := (congrArg HeadState.ltssm (hkept.headOf h)).trans hl
  refine ⟨⟨hlt, (hkept.port _ _ _ rfl).trans hzero, linkUp_of_ltssm hlt (by simp) (by simp)⟩,
    (congrArg HeadState.perst (hkept.headOf h)).trans hp, ?_⟩
  rw [foldl_startReset_sessions]
  exact linkLost_quiet hup

theorem perstOn_flr {h : Head} {p : Part} (hup : linkUp s h = true) (hc : carried s p h = true)
    (hr : (cfgOf s p).inReset = none) (hlast : ∀ g ∈ boundHeads s p, g = h.val ∨ linkUp s g = false) :
    (cfgOf (perstOn s h) p).inReset = some .flr := by
  have hset : SetupKept s (perstHeld s h) := (linkLost_setupKept hup).trans (headUpd_calm (.refl _)).setup
  have hmem : p ∈ lastLinks s h := by
    refine List.mem_filter.mpr ⟨List.mem_filter.mpr ⟨List.mem_finRange p, hc⟩, ?_⟩
    simpa [hup] using hlast
  rw [perstOn_eq]
  exact foldl_startReset_flr _ (.inl ((hset.field (·.inReset) (fun _ => rfl) p).trans hr)) (.inl hmem)

end

/-! ### The links of the heads -/

/-- Settles O39, a lemma for each cause; what a link tells its partitions leaves the heads and their registers. -/
theorem linksTrainAndGoDown : Obligations.LinksTrainAndGoDown := by
  intro s h
  refine ⟨fun rate width flit partner hrun hp hdie hdis hw hlt => ?_, fun hp hc => ?_, fun hup => ⟨fun lanes => ⟨fun hw => ?_,
    fun hw => ?_⟩, fun unacked => ⟨?_, ?_⟩, ?_, ?_⟩, ⟨_, rfl, perstOff_trains s h⟩, fun ses hses _ => ⟨fun hwr hp hd hr => ?_,
    fun hwr hd => ?_, fun hwr hd hl hp => ?_⟩⟩
  · have hopen : (running s && !(headOf s h).perst && !s.portDiesOut.contains (h.val / 4) &&
        decide (fget s .portLinkCtrlDisable h = 0) && decide (width ∈ [1, 2, 4, 8, 16]) &&
        decide ((headOf s h).ltssm ≠ .disabled)) = true := by
      rw [hrun, hp, hdie, hdis, decide_eq_true hw, decide_eq_true hlt]
      rfl
    have hwidth : width < 32 := by
      have hall : ∀ w ∈ [1, 2, 4, 8, 16], w < 32 := by decide
      exact hall width hw
    refine ⟨⟨_, congrArg Host.Outcome.next (if_pos hopen), ?_⟩, ⟨_, congrArg Host.Outcome.next (if_pos hopen), ?_⟩⟩
    · obtain ⟨hl, hu, hwd, hrt⟩ := doTrained_cxl s h flit partner (Nat.lt_of_lt_of_le rate.isLt (by decide)) hwidth
      exact ⟨linkUp_iff.mpr (.inl hl), hu, hwd, hrt⟩
    · exact doTrained_notCxl s h rate width flit partner
  · exact ⟨_, congrArg Host.Outcome.next (if_neg (by simp [hp])), doEqFail_caps hc⟩
  · exact ⟨_, congrArg Host.Outcome.next (if_pos hup), doLaneFailure_retrains lanes.isLt hup hw⟩
  · exact ⟨_, congrArg Host.Outcome.next ((if_pos hup).trans (doLaneFailure_lost hw)),
      linkLost_down (linkUp_laneFail s h lanes.toNat ▸ hup) true (by simp) (by simp) (by simp)⟩
  · refine ⟨_, congrArg Host.Outcome.next (if_pos (by simp [hup])), linkLost_down hup true (by simp) (by simp) (by simp),
      linkLost_quiet hup, ?_⟩
    refine (congrArg HeadState.secure (linkLost_headOf s true (by simp))).trans ?_
    exact (congrArg HeadState.secure (headOf_headUpd_self _ _ _)).trans (Bool.and_false _)
  · exact ⟨_, congrArg Host.Outcome.next (if_pos (by simp [hup])), linkLost_down hup false (by simp) (by simp) (by simp),
      linkLost_sessions hup⟩
  · exact ⟨_, congrArg Host.Outcome.next (if_pos hup), linkLost_down hup false (by simp) (by simp) (by simp),
      linkLost_sessions hup⟩
  · obtain ⟨hdown, hp, hq⟩ := perstOn_down hup
    exact ⟨_, rfl, hdown, hq, hp, fun p hc hr hlast => perstOn_flr hup hc hr hlast⟩
  · obtain ⟨u, hk, hstep⟩ := fmWrite_linkCtrl hses hwr
    have hud : fget u .portLinkCtrlDisable h = fget s .portLinkCtrlDisable h := hk.port _ _ _ rfl
    have hctl : linkCtrlWrite u h (wordWith s .port h 0x050 [(.portLinkCtrlRetrain, 0, 1)]) = retrainHead u h := by
      rw [wordWith_retrain, ← hud, linkCtrlWrite_retrain (by omega)]
    obtain ⟨hm, hlow, hhigh⟩ := retrainHead_trains ((congrArg HeadState.perst (hk.headOf h)).trans hp) (hud.trans hd)
      (hk.running.trans hr)
    exact ⟨_, congrArg Host.Outcome.next (hstep.trans hctl), hm, fun hl => hlow ((hk.linkUp h).trans hl),
      fun hl => hhigh ((hk.linkUp h).trans hl)⟩
  · obtain ⟨u, hk, hstep⟩ := fmWrite_linkCtrl hses hwr
    have hud : fget u .portLinkCtrlDisable h = fget s .portLinkCtrlDisable h := hk.port _ _ _ rfl
    have hctl : linkCtrlWrite u h (wordWith s .port h 0x050 [(.portLinkCtrlDisable, 0, 1)]) = disableHead u h true := by
      rw [wordWith_disable]
      exact linkCtrlWrite_disable (by decide) (by omega)
    exact ⟨_, congrArg Host.Outcome.next (hstep.trans hctl), disableHead_on u h⟩
  · obtain ⟨u, hk, hstep⟩ := fmWrite_linkCtrl hses hwr
    have hud : fget u .portLinkCtrlDisable h = fget s .portLinkCtrlDisable h := hk.port _ _ _ rfl
    have hctl : linkCtrlWrite u h (wordWith s .port h 0x050 [(.portLinkCtrlDisable, 0, 0)]) = disableHead u h false := by
      rw [wordWith_disable]
      exact linkCtrlWrite_disable (by decide) (by omega)
    exact ⟨_, congrArg Host.Outcome.next (hstep.trans hctl), disableHead_off ((congrArg HeadState.ltssm (hk.headOf h)).trans hl)
      ((congrArg HeadState.perst (hk.headOf h)).trans hp)⟩

end Sys2Proof.Machine
end

section
/-! PROOF. What FLR and CXL Reset clear and restore (O42). -/

namespace Sys2Proof.Machine

open Sys2Proof

/-! ### Registers that a reset clears -/

/-- A register that is cleared reads its reset value. -/
theorem fget_fclear_hit (s : State) {P : RegKey → Bool} {f : Fld} {i j : Nat} (h : P ⟨f, i, j⟩ = true) :
    fget (fclear s P) f i j = f.desc.rst := by
  unfold fget fclear
  dsimp only
  induction s.regs with
  | nil => rfl
  | cons e l ih =>
    by_cases hP : P e.1 = true
    · rw [List.filter_cons_of_neg (by simp [hP])]
      exact ih
    · rw [List.filter_cons_of_pos (by simpa using hP)]
      exact (if_neg fun he : e.1 = _ => hP (he ▸ h)).trans ih

/-- A clear leaves what already has its reset value. -/
theorem fget_fclear_rst {s : State} {f : Fld} {i j : Nat} (P : RegKey → Bool) (h : fget s f i j = f.desc.rst) :
    fget (fclear s P) f i j = f.desc.rst := by
  by_cases hP : P ⟨f, i, j⟩ = true
  · exact fget_fclear_hit s hP
  · exact (aget_filter_of s.regs _ _ fun _ => by simp [hP]).trans h

/-! ### The jobs of a partition end (02 R50) -/

theorem fixReads_jobs (s : State) (b : Nat) : (fixReads s b).jobs = s.jobs :=
  ((fixReads_moves (F := 201719808) (a1 := b) rfl (.refl _ s)).frame .jobs (by decide)).1

theorem dropJob_jobs (s : State) (j : Job) : (dropJob s j).jobs =
    s.jobs.filter fun x => !(decide (x.p = j.p) && decide (x.ring = j.ring) && decide (x.idx = j.idx)) := by
  have hfix : ((s.snaps.map (·.base)).foldl fixReads s).jobs = s.jobs :=
    foldl_keeps (P := fun u : State => u.jobs = s.jobs) _ (fun u b _ hu => (fixReads_jobs u b).trans hu) rfl
  exact congrArg (List.filter _) hfix

theorem foldl_dropJob_jobs (l : List Job) (s : State) {j : Job} (h : j ∈ (l.foldl dropJob s).jobs) : j ∈ s.jobs ∧ j ∉ l := by
  induction l generalizing s with
  | nil => exact ⟨h, List.not_mem_nil⟩
  | cons x l ih =>
    obtain ⟨hmem, hl⟩ := ih _ h
    rw [dropJob_jobs] at hmem
    obtain ⟨hs, hx⟩ := List.mem_filter.mp hmem
    refine ⟨hs, fun hc => (List.mem_cons.mp hc).elim (fun he => ?_) hl⟩
    simp [he] at hx

/-- A partition has no job of its own. -/
def NoJobs (t : State) (p : Part) : Prop := ∀ j ∈ t.jobs, j.p = p → j.foreign = true

theorem resetJobs_noJobs (s : State) (p : Part) : NoJobs (resetJobs s p) p := fun j hj hp => by
  obtain ⟨hs, hl⟩ := foldl_dropJob_jobs _ s hj
  by_contra hf
  exact hl (List.mem_filter.mpr ⟨hs, by simp [hp, hf]⟩)

theorem NoJobs.of_calm {s t : State} {p : Part} (h : NoJobs s p) (k : Calm s t) : NoJobs t p := fun j hj hp => by
  have hkey : jobKey j ∈ s.jobs.map jobKey := k.jobs ▸ List.mem_map_of_mem hj
  obtain ⟨x, hx, he⟩ := List.mem_map.mp hkey
  simp only [jobKey, Prod.mk.injEq] at he
  obtain ⟨hxp, -, -, hxf⟩ := he
  exact hxf ▸ h x hx (hxp.trans hp)

theorem resetJobs_ring (s : State) (p : Part) (k : Nat) : fget (resetJobs s p) .jobRingCtrlEnable p k = 0 := by
  unfold resetJobs
  exact fget_fclear_hit _ (by simp; rfl)

/-! ### A cleared partition -/

/-- What both resets leave of a partition. -/
structure Cleared (t : State) (p : Part) : Prop where
  inReset : (cfgOf t p).inReset = none
  bme : (cfgOf t p).bme = false
  mse : (cfgOf t p).mse = false
  hints : ahas t.hints p.val = false
  jobs : NoJobs t p
  rings : ∀ k : Ring, fget t .jobRingCtrlEnable p k = 0

theorem clearPartition_cleared (s : State) (p : Part) : Cleared (clearPartition s p) p ∧
    (cfgOf (clearPartition s p) p).msix = [] ∧ (cfgOf (clearPartition s p) p).tagLimit = ({} : PartCfg).tagLimit := by
  have hcfg : ∀ (u : State) (g : PartCfg → PartCfg), cfgOf (cfgUpd u p g) p = g (cfgOf u p) := fun u g => cfgOf_cfgUpd_self u p g
  refine ⟨⟨?_, ?_, ?_, ?_, ?_, fun k => ?_⟩, ?_, ?_⟩
  · exact congrArg PartCfg.inReset (hcfg _ _)
  · exact congrArg PartCfg.bme (hcfg _ _)
  · exact congrArg PartCfg.mse (hcfg _ _)
  · exact ahas_adel_self _ _
  · exact resetJobs_noJobs s p
  · unfold clearPartition
    rw [fget_cfgUpd]
    refine fget_fclear_rst _ ?_
    exact resetJobs_ring s p k
  · exact congrArg PartCfg.msix (hcfg _ _)
  · exact (congrArg PartCfg.tagLimit (hcfg _ _)).trans rfl

/-- What leaves settings, jobs, hints and the JOB page leaves a cleared partition. -/
theorem Cleared.of_calm {s t : State} {p : Part} (h : Cleared s p) (k : Calm s t) (hh : t.hints = s.hints)
    (hj : ∀ f i j, f.desc.blk = .job → fget t f i j = fget s f i j) : Cleared t p :=
  ⟨(k.setup.field (·.inReset) (fun _ => rfl) p).trans h.inReset, (k.setup.field (·.bme) (fun _ => rfl) p).trans h.bme,
    (k.setup.field (·.mse) (fun _ => rfl) p).trans h.mse, hh ▸ h.hints, h.jobs.of_calm k,
    fun r => (hj _ _ _ rfl).trans (h.rings r)⟩

/-! ### Holdings that were reclaimable (03 R76) -/

/-- A partition holds no extent in RECLAIMABLE. -/
def NoReclaimable (t : State) (p : Nat) : Prop := ∀ e ∈ t.exts, holderSt e p ≠ some .reclaimable

theorem holderSt_setHolder (e : Extent) (p : Nat) {st : ExtState} (hst : st ≠ .reclaimable) :
    holderSt (setHolder e p st) p ≠ some .reclaimable := by
  unfold holderSt setHolder
  dsimp only
  rw [List.find?_map]
  intro hc
  obtain ⟨x, hx, he⟩ := Option.map_eq_some_iff.mp hc
  obtain ⟨y, hy, rfl⟩ := Option.map_eq_some_iff.mp hx
  have hp := List.find?_some hy
  rw [Function.comp_apply, decide_eq_true_eq] at hp
  by_cases hyp : y.p.val = p
  · rw [if_pos hyp] at he
    exact hst he
  · rw [if_neg hyp] at hp
    exact hyp hp

theorem listChange_exts (s : State) (ps : List Nat) : (listChange s ps).exts = s.exts :=
  foldl_keeps (P := fun u : State => u.exts = s.exts) _ (fun u i _ hu => by rw [raise_exts]; exact hu) rfl

/-- One holding of those that are turned. -/
def turnOne (p : Nat) (s : State) (e : Extent) : State :=
  match holderSt e p with
  | some st => if st ∈ [ExtState.reclaimable] then listChange (extMap s e.base fun e => setHolder e p .active) [p] else s
  | none => s

theorem turnHoldings_eq (s : State) (p : Nat) :
    turnHoldings s p [.reclaimable] .active = (extsOf s p).foldl (turnOne p) s := rfl

theorem turnOne_exts_hit (s : State) {p : Nat} {e : Extent} (h : holderSt e p = some .reclaimable) :
    (turnOne p s e).exts = s.exts.map fun x => if x.base = e.base then setHolder x p .active else x := by
  unfold turnOne
  rw [h]
  dsimp only
  rw [if_pos (by simp), listChange_exts]
  rfl

theorem turnOne_miss (s : State) {p : Nat} {e : Extent} (h : holderSt e p ≠ some .reclaimable) : turnOne p s e = s := by
  unfold turnOne
  cases hst : holderSt e p with
  | none => rfl
  | some st => exact if_neg fun hm => h (by rw [hst, List.mem_singleton.mp hm])

/-- Each reclaimable holding is that of an extent at the base of one that is listed. -/
theorem foldl_turnOne_noReclaimable (p : Nat) (l : List Extent) (s : State)
    (h : ∀ e ∈ s.exts, holderSt e p = some .reclaimable → ∃ x ∈ l, x.base = e.base ∧ holderSt x p = some .reclaimable) :
    NoReclaimable (l.foldl (turnOne p) s) p := by
  induction l generalizing s with
  | nil => exact fun e he hr => by simpa using h e he hr
  | cons x l ih =>
    refine ih (turnOne p s x) fun e he hr => ?_
    by_cases hx : holderSt x p = some .reclaimable
    · rw [turnOne_exts_hit s hx] at he
      obtain ⟨y, hy, rfl⟩ := List.mem_map.mp he
      by_cases hb : y.base = x.base
      · rw [if_pos hb] at hr
        exact absurd hr (holderSt_setHolder y p (by simp))
      · rw [if_neg hb] at hr ⊢
        obtain ⟨z, hz, hzb, hzr⟩ := h y hy hr
        exact ⟨z, (List.mem_cons.mp hz).resolve_left fun hc => hb (hc ▸ hzb).symm, hzb, hzr⟩
    · rw [turnOne_miss s hx] at he
      obtain ⟨z, hz, hzb, hzr⟩ := h e he hr
      exact ⟨z, (List.mem_cons.mp hz).resolve_left fun hc => hx (hc ▸ hzr), hzb, hzr⟩

theorem turnHoldings_noReclaimable (s : State) (p : Nat) : NoReclaimable (turnHoldings s p [.reclaimable] .active) p := by
  rw [turnHoldings_eq]
  refine foldl_turnOne_noReclaimable p _ s fun e he hr => ⟨e, ?_, rfl, hr⟩
  exact List.mem_filter.mpr ⟨he, by rw [hr]; rfl⟩

/-- A change that leaves the holders of every extent. -/
theorem NoReclaimable.of_holders {s t : State} {p : Nat} (h : NoReclaimable s p)
    (k : t.exts.map (·.holders) = s.exts.map (·.holders)) : NoReclaimable t p := fun e he => by
  have hmem : e.holders ∈ s.exts.map (·.holders) := k ▸ List.mem_map_of_mem he
  obtain ⟨x, hx, hxe⟩ := List.mem_map.mp hmem
  have hst : holderSt e p = holderSt x p := by
    unfold holderSt
    rw [hxe]
  exact hst ▸ h x hx

/-- The extents keep who holds them. -/
def HoldersKept (s t : State) : Prop := t.exts.map (·.holders) = s.exts.map (·.holders)

theorem HoldersKept.trans {s t u : State} (h : HoldersKept s t) (k : HoldersKept t u) : HoldersKept s u := Eq.trans k h

theorem HoldersKept.of_moves {F : Nat} {s t : State} (m : Moves F s t) (hF : F.testBit Kind.extents.num = false) :
    HoldersKept s t :=
  congrArg _ (m.frame .extents hF).1

theorem HoldersKept.foldl {α : Type} {s : State} {f : State → α → State} (hf : ∀ u x, HoldersKept u (f u x)) (l : List α) :
    HoldersKept s (l.foldl f s) := foldl_keeps (P := HoldersKept s) l (fun u x _ hu => hu.trans (hf u x)) rfl

theorem extMap_holdersKept (s : State) (base : Nat) {f : Extent → Extent} (hf : ∀ e, (f e).holders = e.holders) :
    HoldersKept s (extMap s base f) := by
  unfold HoldersKept extMap
  rw [List.map_map]
  refine List.map_congr_left fun e _ => ?_
  rw [Function.comp_apply]
  split
  · exact hf e
  · rfl

theorem destroyKey_holdersKept (s : State) (p : Nat) : HoldersKept s (destroyKey s p) := by
  unfold HoldersKept destroyKey
  dsimp only
  rw [List.map_map]
  refine List.map_congr_left fun e _ => ?_
  rw [Function.comp_apply]
  split
  · rfl
  · rfl

theorem newKey_holdersKept (s : State) (p : Part) : HoldersKept s (newKey s p) := by
  unfold newKey
  dsimp only
  split
  · exact rfl
  · have hkey : ∀ (g : PartState → PartState) v, HoldersKept s (fset (partUpd s p g) .roleKeysMaster v) := fun _ _ => rfl
    refine (hkey _ _).trans (.foldl (fun u e => ?_) _)
    exact extMap_holdersKept u e.base fun _ => rfl

theorem snapLeave_holdersKept (s : State) (e : Extent) (p : Nat) : HoldersKept s (snapLeave s e p) :=
  .of_moves (snapLeave_moves (F := 66573) rfl (.refl _ s)) (by decide)

theorem zeroGranule_holdersKept (s : State) (p : Part) (g : Nat) : HoldersKept s (zeroGranule s p g) :=
  .of_moves (zeroGranule_moves (F := 47692383716383) rfl (.refl _ s)) (by decide)

theorem raise_dcEvent_holdersKept (s : State) (p : Part) (e : Evt) (add forced : Bool) (l : List GranRange) :
    HoldersKept s (raise (dcEvent s p add forced l) e p) :=
  .of_moves (raise_moves (F := 1037) rfl (dcEvent_moves rfl (.refl _ s))) (by decide)

theorem HoldersKept.ite {s a b : State} {c : Prop} [Decidable c] (ha : HoldersKept s a) (hb : HoldersKept s b) :
    HoldersKept s (if c then a else b) := by
  split
  · exact ha
  · exact hb

/-- No holding that was restored is reclaimable. -/
theorem restoreHoldings_noReclaimable (s : State) (p : Part) (memClr : Bool) : NoReclaimable (restoreHoldings s p memClr) p := by
  unfold restoreHoldings
  dsimp only
  refine NoReclaimable.of_holders (turnHoldings_noReclaimable ((extsOf (endOffers s p) p).foldl (fun s e => heldAgain s p e)
    (endOffers s p)) p) ?_
  have hleft : ∀ (u : State) (g : PartState → PartState) (l : List Extent),
      HoldersKept u (l.foldl (fun s e => snapLeave s e p) (partUpd u p g)) := fun u g l =>
    HoldersKept.trans (t := partUpd u p g) rfl (.foldl (fun v e => snapLeave_holdersKept v e p) l)
  refine HoldersKept.trans (.ite (HoldersKept.trans ?_ ((destroyKey_holdersKept _ p).trans (newKey_holdersKept _ p)))
    (hleft _ _ _)) (.foldl (fun u e => .ite (raise_dcEvent_holdersKept u p _ _ _ _) rfl) _)
  exact (hleft _ _ _).trans (.foldl (fun u e => .ite rfl (.foldl (fun v g => zeroGranule_holdersKept v p g) _)) _)

/-! ### The two resets complete -/

section
variable (s : State) (p : Part)

theorem clearPartition_part {f : Fld} (hf : f.desc.blk = .part) (i j : Nat) : fget (clearPartition s p) f i j = fget s f i j :=
  ((clearPartition_moves (F := 687424340996) (a1 := p) rfl (.refl _ s)).frame (.page .part) (by decide) f i j hf
    fun h => absurd (h ▸ hf) (by decide)).1

theorem clearPartition_now : now (clearPartition s p) = now s := by
  have htb : (clearPartition s p).tb = s.tb :=
    (clearPartition_moves (F := 687424340996) (a1 := p) rfl (.refl _ s)).frame .timebase (by decide)
  unfold now
  rw [htb]

variable (memClr : Bool)

theorem restoreHoldings_moved : Moves 329201720177695 s (restoreHoldings s p memClr) := restoreHoldings_moves rfl (.refl _ s)

theorem restoreHoldings_part {f : Fld} (hf : f.desc.blk = .part) (i j : Nat) :
    fget (restoreHoldings s p memClr) f i j = fget s f i j :=
  ((restoreHoldings_moved s p memClr).frame (.page .part) (by decide) f i j hf fun h => absurd (h ▸ hf) (by decide)).1

theorem restoreHoldings_now : now (restoreHoldings s p memClr) = now s := by
  have htb : (restoreHoldings s p memClr).tb = s.tb := (restoreHoldings_moved s p memClr).frame .timebase (by decide)
  unfold now
  rw [htb]

/-- A partition whose holdings were restored stays cleared. -/
theorem restoreHoldings_cleared (h : Cleared s p) : Cleared (restoreHoldings s p memClr) p :=
  h.of_calm (restoreHoldings_calm (.refl s)) ((restoreHoldings_moved s p memClr).frame .hints (by decide)) fun f i j hf =>
    ((restoreHoldings_moved s p memClr).frame (.page .job) (by decide) f i j hf fun h => absurd (h ▸ hf) (by decide)).1

end

/-- An enabled partition is ACTIVE again, with a full lease. -/
def leaseAgain (s : State) (p : Part) : State :=
  if pState s p = pDisabled then s else startLease (fset s .partStateState pActive p) p

/-- The counts and marks of a partition that a CXL Reset ends. -/
def marksEnded (s : State) (p : Part) : State := fset (fset s .partLeaseRenewals 0 p) .dirBiFailedHeads 0 p

theorem endReset_cxl (s : State) (p : Part) : endReset s p .cxl =
    marksEnded (leaseAgain (restoreHoldings (clearPartition s p) p (cfgOf s p).memClr) p) p := rfl

section
variable {s : State} {p : Part}

theorem startLease_calm (s : State) (p : Nat) : Calm s (startLease s p) := .upd (.refl s) rfl rfl

theorem Cleared.again (h : Cleared s p) : Cleared (marksEnded (leaseAgain s p) p) p := by
  have hlease : Cleared (leaseAgain s p) p := by
    unfold leaseAgain
    split
    · exact h
    · refine h.of_calm ((fset_calm (.refl s)).trans (startLease_calm _ p)) rfl fun f i j hf => ?_
      unfold startLease
      rw [fget_fset_fld _ _ _ _ _ _ fun hc => absurd (hc ▸ hf) (by decide)]
      exact fget_fset_fld _ _ _ _ _ _ fun hc => absurd (hc ▸ hf) (by decide)
  refine hlease.of_calm (fset_calm (fset_calm (.refl _))) rfl fun f i j hf => ?_
  unfold marksEnded
  rw [fget_fset_fld _ _ _ _ _ _ fun hc => absurd (hc ▸ hf) (by decide)]
  exact fget_fset_fld _ _ _ _ _ _ fun hc => absurd (hc ▸ hf) (by decide)

theorem marksEnded_marks (s : State) (p : Part) : fget (marksEnded s p) .dirBiFailedHeads p = 0 ∧
    fget (marksEnded s p) .partLeaseRenewals p = 0 := by
  unfold marksEnded
  rw [fget_fset_self, fget_fset_fld _ _ _ _ _ _ (by decide), fget_fset_self]
  exact ⟨rfl, rfl⟩

theorem NoReclaimable.again (h : NoReclaimable s p) : NoReclaimable (marksEnded (leaseAgain s p) p) p := by
  unfold leaseAgain
  split
  · exact h
  · exact h

/-- The lease of an enabled partition is full. -/
theorem leaseAgain_active (h : pState s p ≠ pDisabled) : pState (marksEnded (leaseAgain s p) p) p = pActive ∧
    (partOf (marksEnded (leaseAgain s p) p) p).leaseExpiry = now s + fget s .partCfgLeaseMs p * 100000 := by
  unfold leaseAgain
  rw [if_neg h]
  unfold marksEnded startLease pState
  refine ⟨?_, ?_⟩
  · rw [fget_fset_fld _ _ _ _ _ _ (by decide), fget_fset_fld _ _ _ _ _ _ (by decide), fget_fset_fld _ _ _ _ _ _ (by decide),
      fget_partUpd, fget_fset_self]
    rfl
  · rw [partOf_fset, partOf_fset, partOf_fset, partOf_partUpd_self, fget_fset_fld _ _ _ _ _ _ (by decide)]
    rfl

end

/-- Settles O42: what a reset clears stays clear through what a CXL Reset restores. -/
theorem partitionResetsClearAndRestore : Obligations.PartitionResetsClearAndRestore := by
  intro s h p
  refine ⟨fun ho hr => ⟨?_, ?_⟩, fun hr => ?_, fun hr => ?_⟩
  · exact ⟨_, congrArg Host.Outcome.next (cfgWrite_open ho hr fun s => startReset s p .flr), startReset_none hr⟩
  · exact ⟨_, congrArg Host.Outcome.next (cfgWrite_open ho hr fun s => startReset s p .cxl), startReset_none hr⟩
  · obtain ⟨⟨hres, hbme, hmse, hhints, hjobs, hrings⟩, hmsix, hlimit⟩ := clearPartition_cleared s p
    exact ⟨_, congrArg Host.Outcome.next (if_pos hr), ⟨hres, hbme, hmse, hhints, hjobs, hrings⟩, hmsix, hlimit⟩
  · have hrestored := restoreHoldings_cleared _ p (cfgOf s p).memClr (clearPartition_cleared s p).1
    obtain ⟨hres, hbme, hmse, hhints, hjobs, hrings⟩ := hrestored.again
    obtain ⟨hfailed, hrenewals⟩ := marksEnded_marks
      (leaseAgain (restoreHoldings (clearPartition s p) p (cfgOf s p).memClr) p) p
    refine ⟨_, congrArg Host.Outcome.next ((if_pos hr).trans (endReset_cxl s p)), ⟨hres, hbme, hmse, hhints, hjobs, hrings⟩,
      hfailed, hrenewals, (restoreHoldings_noReclaimable _ p _).again, fun hen => ?_⟩
    have hpart : ∀ {f : Fld}, f.desc.blk = .part →
        fget (restoreHoldings (clearPartition s p) p (cfgOf s p).memClr) f p = fget s f p :=
      fun hf => (restoreHoldings_part _ p _ hf _ _).trans (clearPartition_part s p hf _ _)
    obtain ⟨hact, hexp⟩ := leaseAgain_active (s := restoreHoldings (clearPartition s p) p (cfgOf s p).memClr) (p := p)
      fun hc => hen ((hpart (f := .partStateState) rfl).symm.trans hc)
    rw [restoreHoldings_now, clearPartition_now, hpart rfl] at hexp
    exact ⟨hact, hexp⟩

end Sys2Proof.Machine
end

section
/-! PROOF. What the discovery, query and fixed commands of a fabric-manager session answer (O6, O7). -/

namespace Sys2Proof.Machine

open Sys2Proof

/-! ### A command of an admitted session (03 R58; 14 R309) -/

section
variable {s : State} {ses : Session} {c : Instr} {need : Nat} {head : Nat × List Byte} {f : State → State} {Q : State → Prop}

/-- A command of an operator runs after its message. -/
theorem gives_fmOp (ha : Admits s ses 1) (hc : exec c s = .next (fmOp s ses f)) (hQ : Q (f (sessionMsg s ses))) :
    Gives c s Q :=
  ⟨_, hc, by rw [fmOp_admitted ha.1 ha.2]; exact hQ⟩

/-- A command that any session may send, or an operator. -/
theorem gives_fmCmd (ha : Admits s ses need) (hn : need ≠ 2) (hc : exec c s = .next (fmCmd s ses need head f))
    (hQ : Q (f (sessionMsg s ses))) : Gives c s Q :=
  ⟨_, hc, by rw [fmCmd_admitted ha.1 ha.2, if_neg hn]; exact hQ⟩

/-- A command of an installer runs after its message and its audit record. -/
theorem gives_fmInstaller (ha : Admits s ses 2) (hc : exec c s = .next (fmCmd s ses 2 head f))
    (hQ : Q (f (auditCmd (sessionMsg s ses) ses head.1 head.2))) : Gives c s Q :=
  ⟨_, hc, by rw [fmCmd_admitted ha.1 ha.2, if_pos rfl]; exact hQ⟩

/-- An answer is the one message that a query sends. -/
theorem fmAnswer_out (s : State) (ses : Session) (code : RetCode) (out : List Nat) :
    (fmAnswer s ses code out).out = .fmRsp ses code out :: s.out := rfl

/-- A query answers what its rule reads in the state after its message. -/
theorem answers_fmOp {code : RetCode} {out : State → List Nat} (ha : Admits s ses 1)
    (hc : exec c s = .next (fmOp s ses fun u => fmAnswer u ses code (out u))) :
    Answers c s ses code (out (sessionMsg s ses)) :=
  gives_fmOp ha hc (by rw [fmAnswer_out, sessionMsg_out])

/-- A list query whose first entry exists answers its entries. -/
theorem answers_fmList {start : Nat} {out : State → List Nat} (ha : Admits s ses 1) (hs : start < 16)
    (hc : exec c s = .next (fmOp s ses fun u => fmList u ses start (out u))) :
    Answers c s ses .success (out (sessionMsg s ses)) :=
  gives_fmOp ha hc (by rw [fmList, if_neg (by omega), fmAnswer_out, sessionMsg_out])

end

theorem exportGran_sessionMsg (s : State) (k : Nat) : exportGran (sessionMsg s k) = exportGran s := by
  unfold exportGran
  rw [sessionMsg_boot, fget_sessionMsg]

theorem exportBytes_sessionMsg (s : State) (k : Nat) : exportBytes (sessionMsg s k) = exportBytes s := by
  rw [exportBytes, exportGran_sessionMsg, exportBytes]

theorem extsOf_sessionMsg (s : State) (k p : Nat) : extsOf (sessionMsg s k) p = extsOf s p := by
  rw [extsOf, sessionMsg_exts, extsOf]

@[simp] theorem readRegs_length (s : State) (v : View) (b : Blk) (inst off count : Nat) :
    (readRegs s v b inst off count).length = count := by simp [readRegs]

/-- A report of extents has four words for each. -/
theorem extReport_length (l : List Extent) (p : Nat) : (extReport l p).length = 4 * l.length := by
  induction l with
  | nil => rfl
  | cons e l ih =>
    rw [extReport, List.flatMap_cons, List.length_append]
    have ih' : (l.flatMap fun e => [e.base * Config.granBytes, e.len * Config.granBytes, e.tag, extEntrySt e p]).length = _ := ih
    simp only [ih', List.length_cons, List.length_nil]
    omega

/-! ### Payloads (03 R78) -/

theorem partOfNum_val (p : Part) : partOfNum p.val = some p := dif_pos p.isLt

/-- The bytes of Get Partition State name their partition. -/
theorem payPart_two (p : Part) : payPart [BitVec.ofNat 8 p, 0] 2 1 = some p := by
  have hp : leAt [BitVec.ofNat 8 p.val, 0] 0 1 = p.val := by
    simp [leAt, leNat]
    omega
  unfold payPart
  rw [if_pos ⟨rfl, rfl⟩, hp, partOfNum_val]

section
variable {s : State} {ses : Session} {c : Instr} {opcode : Nat} {bs : List Byte} {len rsvd : Nat} {f : State → Part → State}
  {p : Part} {Q : State → Prop}

/-- A command of an operator whose payload names its partition. -/
theorem gives_fmPart (ha : Admits s ses 1) (hp : payPart bs len rsvd = some p)
    (hc : exec c s = .next (fmPart s ses opcode 1 bs len rsvd f)) (hQ : Q (f (sessionMsg s ses) p)) : Gives c s Q :=
  gives_fmCmd ha (by decide) hc (by rw [hp]; exact hQ)

/-- A command of an installer whose payload names its partition. -/
theorem gives_fmPartInstaller (ha : Admits s ses 2) (hp : payPart bs len rsvd = some p)
    (hc : exec c s = .next (fmPart s ses opcode 2 bs len rsvd f))
    (hQ : Q (f (auditCmd (sessionMsg s ses) ses opcode bs) p)) : Gives c s Q :=
  gives_fmInstaller ha hc (by rw [hp]; exact hQ)

end

/-- Settles O6: each query answers its rule's words, read in the state after its message, which leaves what is read. -/
theorem fabricManagerReadsAnswer : Obligations.FabricManagerReadsAnswer := by
  intro s ses ha
  have hbytes := exportBytes_sessionMsg s ses
  refine ⟨⟨_, answers_fmOp (out := fun u => Config.vendorId.toNat :: readRegs u (.fm ses) .id 0 0x040 4) ha rfl⟩, ?_, fun start count hs => ⟨?_, ?_, ?_, ?_⟩, ?_, ?_, fun p => ⟨?_, fun start count => ?_, ?_⟩, ?_, ?_⟩
  · rw [← hbytes]; exact answers_fmOp (out := fun u => [exportBytes u, 16]) ha rfl
  · exact answers_fmList (out := fun _ => (window16 start count).flatMap fun _ => [0, 0]) ha hs rfl
  · simpa only [fget_sessionMsg, window16] using answers_fmList (out := fun u => (window16 start count).flatMap fun h =>
      [fget u .portLinkStatusRate h, fget u .portLinkStatusWidth h, fget u .portLinkStatusUp h]) ha hs rfl
  · simpa only [fget_sessionMsg, window16] using answers_fmList (out := fun u => (window16 start count).map fun p =>
      fractionOfGbs (fget u .qosGuarGbS p)) ha hs rfl
  · exact answers_fmList (out := fun _ => (window16 start count).map fun _ => 255) ha hs rfl
  · simpa only [fget_sessionMsg] using
      answers_fmOp (out := fun u => 16 :: 16 :: (List.range 16).map fun p => fget u .partStateHeads p) ha rfl
  · rw [← hbytes]; exact answers_fmOp (out := fun u => [16, 1, exportBytes u, Config.granBytes]) ha rfl
  · rw [← hbytes]; exact answers_fmOp (out := fun u => [1, 0, exportBytes u, Config.granBytes]) ha rfl
  · refine ⟨extReport (((extsOf s p).drop start).take count) p, ?_, extReport_length _ _⟩
    simpa only [extsOf_sessionMsg, fget_sessionMsg] using answers_fmOp (out := fun u => (extsOf u p).length ::
      fget u .extStateGen p :: extReport (((extsOf u p).drop start).take count) p) ha rfl
  · exact ⟨readRegs (sessionMsg s ses) (.fm ses) .part p 0x040 6 ++ [readReg (sessionMsg s ses) (.fm ses) .part p 0x018],
      gives_fmPart ha (payPart_two p) rfl (by rw [fmAnswer_out, sessionMsg_out]), by simp⟩
  · simpa only [sessionMsg_qos] using answers_fmOp (out := fun u => [u.qos.lastOver]) ha rfl
  · simpa only [sessionMsg_qos] using answers_fmOp (out := fun u => [u.qos.control.toNat]) ha rfl

/-! ### Commands whose subject is fixed, and page reads (03 R59; 09 R217; 15 R333) -/

/-- EVT_STATUS of a page that is present reads its event bits. -/
theorem readReg_evtStatus {s : State} {ses : Session} {b : Blk} {i : Nat} (hi : blkHasInst b i = true)
    (hl : pageLost s b i = false) : readReg s (.fm ses) b i 0x018 = (hget s b i).evtStatus.toNat := by
  have hseen : pageSeen s (.fm ses) b i = true := by simp [pageSeen, hi]
  unfold readReg
  rw [if_neg (by simp [hseen]), if_neg (by simp [hl]), if_pos (by decide)]
  rfl

/-- A page command names a page that the package has. -/
theorem blkHasInst_of_cmdPage {blk inst off : Nat} {b : Blk} (h : cmdPage blk inst off = some b) :
    blkHasInst b inst = true := by
  unfold cmdPage at h
  split at h
  · split at h
    · next hc => cases h; simp at hc; exact hc.1.1
    · cases h
  · cases h

/-- A page read within the page answers its registers. -/
theorem readPageRegister_answers {s : State} {ses : Session} (ha : Admits s ses 1) {blk inst off count : Nat} {b : Blk}
    (hb : cmdPage blk inst off = some b) (h1 : 1 ≤ count) (h64 : count ≤ 64) (hoff : off + 8 * count ≤ 0x1000) :
    Answers (.readPageRegister ses blk inst off count) s ses .success
      (readRegs (sessionMsg s ses) (.fm ses) b inst off count) :=
  gives_fmOp ha rfl (by
    rw [hb]
    dsimp only
    rw [if_neg (by omega), fmAnswer_out, sessionMsg_out])

/-- The first register of a page read. -/
theorem readRegs_head {s : State} {v : View} {b : Blk} {inst off count : Nat} (h : 1 ≤ count) :
    (readRegs s v b inst off count).head? = some (readReg s v b inst off) := by
  obtain ⟨n, rfl⟩ := Nat.exists_eq_add_of_le' h
  simp [readRegs, List.range_succ_eq_map]

/-- A fixed setting is accepted with its fixed values alone. -/
theorem answers_fixed {s : State} {ses : Session} {c : Instr} {ok : State → Prop} [∀ u, Decidable (ok u)] (ha : Admits s ses 1)
    (hc : exec c s = .next (fmOp s ses fun u => fmAnswer u ses (if ok u then .success else .invalidInput))) :
    (ok (sessionMsg s ses) → Answers c s ses .success []) ∧ (¬ok (sessionMsg s ses) → Answers c s ses .invalidInput []) :=
  ⟨fun h => gives_fmOp ha hc (by rw [if_pos h, fmAnswer_out, sessionMsg_out]),
    fun h => gives_fmOp ha hc (by rw [if_neg h, fmAnswer_out, sessionMsg_out])⟩

/-- A command that no role carries out. -/
theorem answers_unsupported {s : State} {ses : Session} {c : Instr} (up : sesUp s ses = true)
    (hc : exec c s = .next (fmCmd s ses 0 (0, []) fun u => fmAnswer u ses .unsupported)) :
    Answers c s ses .unsupported [] :=
  gives_fmCmd ⟨up, Nat.zero_le _⟩ (by decide) hc (by rw [fmAnswer_out, sessionMsg_out])

/-- Settles O7: the fixed commands compare with their fixed values, and a page read lists the registers asked for. -/
theorem fixedCommandsAnswer : Obligations.FixedCommandsAnswer := by
  intro s ses
  refine ⟨fun up => ⟨answers_unsupported up rfl, fun _ => answers_unsupported up rfl⟩, fun ha => ⟨?_, ?_, fun values => ?_, ?_⟩⟩
  · intro p region blockSize base length
    rw [← exportBytes_sessionMsg s ses]
    exact answers_fixed (ok := fun u => region = 0 ∧ blockSize = Config.granBytes ∧ base = 0 ∧ length = exportBytes u) ha rfl
  · intro start limits
    have h := answers_fixed (ok := fun _ => start + limits.length ≤ 16 ∧ limits.all (fun x => decide (x = 255)) = true)
      (c := .setQosBwLimit ses start limits) ha rfl
    simpa only [List.all_eq_true, decide_eq_true_eq] using h
  · exact gives_fmOp ha rfl ⟨rfl, by rw [fmAnswer_out]; exact congrArg _ (sessionMsg_out s ses)⟩
  · intro blk inst off count b hb h1 h64 hoff
    refine ⟨_, readPageRegister_answers ha hb h1 h64 hoff, readRegs_length _ _ _ _ _ _, ?_⟩
    rintro rfl hl
    rw [readRegs_head h1, readReg_evtStatus (blkHasInst_of_cmdPage hb) (by rw [pageLost_sessionMsg, hl]), hget_sessionMsg]

end Sys2Proof.Machine
end

section
/-! PROOF. The extents that the fabric manager adds and takes back, and what the host is told of it (O9, O10). -/

namespace Sys2Proof.Machine

open Sys2Proof

/-! ### What a change leaves in a register, a partition or the pair -/

section
variable {F : Nat} {s t : State}

theorem Moves.fget_eq (m : Moves F s t) {f : Fld} (hF : F.testBit (Kind.page f.desc.blk).num = false)
    (hf : f ≠ .cairnCoalesceStatsLatched) (i j : Nat) : fget t f i j = fget s f i j :=
  (m.frame (.page f.desc.blk) hF f i j rfl hf).1

theorem Moves.partOf_eq (m : Moves F s t) (hF : F.testBit Kind.partitions.num = false) (p : Nat) : partOf t p = partOf s p := by
  have hparts : t.parts = s.parts := m.frame .partitions hF
  unfold partOf
  rw [hparts]

theorem Moves.exts_eq (m : Moves F s t) (hF : F.testBit Kind.extents.num = false) : t.exts = s.exts := (m.frame .extents hF).1

theorem Moves.now_eq (m : Moves F s t) (hF : F.testBit Kind.timebase.num = false) : now t = now s := by
  have htb : t.tb = s.tb := m.frame .timebase hF
  unfold now
  rw [htb]

theorem Moves.signalled (m : Moves F s t) (hF : F.testBit Kind.headers.num = false) {e : Evt} {i : Nat}
    (h : Signalled s e i) : Signalled t e i := by
  have hhdr : t.hdr = s.hdr := m.frame .headers hF
  unfold Signalled hget
  rw [hhdr]
  exact h

theorem Moves.sent (m : Moves F s t) {x : Msg} (h : x ∈ s.out) : x ∈ t.out := by
  obtain ⟨l, hl⟩ := m.keeps.out
  exact hl ▸ List.mem_append_right l h

/-- Whether the twin answers rests on the role and on the pair's own state. -/
theorem Moves.twinUp_eq (m : Moves F s t) (hF : F.testBit Kind.pair.num = false)
    (hB : F.testBit (Kind.page .belay).num = false) : twinUp t = twinUp s := by
  have hbelay : t.belay = s.belay := m.frame .pair hF
  have hrole := m.fget_eq (f := .belayStatusRole) hB (by decide) 0 0
  unfold twinUp paired
  rw [hrole, hbelay]

end

/-- The message of a session changes its deadline and the use of the package alone. -/
theorem sessionMsg_proj {α : Type} (q : State → α) (hq : ∀ s x y, q { s with sessions := x, power := y } = q s)
    (s : State) (k : Nat) : q (sessionMsg s k) = q s := by
  unfold sessionMsg
  split
  · exact hq s _ _
  · exact hq s s.sessions _

theorem twinUp_sessionMsg (s : State) (k : Nat) : twinUp (sessionMsg s k) = twinUp s :=
  sessionMsg_proj twinUp (fun _ _ _ => rfl) s k

section
variable {s : State} (h : twinUp s = false)
include h

theorem commitJ_alone (b : JBody) : commitJ s b = applyJ s b := if_neg (by simp [h])

theorem foresee_alone : foresee s = s := if_neg (by simp [h])

end

/-! ### The host hears of a change of its extents (03 R65, R66) -/

theorem dcRecords_told (p : Part) (add forced : Bool) (l : List GranRange) (s : State) {i : Nat} {x : GranRange}
    (h : l[i]? = some x) : .dcEvent p add forced (decide (i + 1 < l.length)) x ∈ (dcRecords s p add forced l).out := by
  induction l generalizing s i with
  | nil => cases h
  | cons y l ih =>
    unfold dcRecords
    cases i with
    | zero =>
      obtain rfl : y = x := Option.some.inj h
      refine (dcRecords_moves (F := 1025) rfl (.refl _ _)).sent (List.mem_cons.mpr (.inl ?_))
      cases l <;> simp
    | succ i =>
      have hl := ih (s := emit (cfgUpd s p fun c => { c with logDc := (add, forced, !l.isEmpty, y) :: c.logDc })
        (.dcEvent p add forced (!l.isEmpty) y)) (i := i) h
      simpa using hl

/-- Each range of an event is a record of its own, the last without the More flag. -/
theorem dcEvent_told (p : Part) (add forced : Bool) (l : List GranRange) (s : State) {i : Nat} {x : GranRange}
    (h : l[i]? = some x) : .dcEvent p add forced (decide (i + 1 < l.length)) x ∈ (dcEvent s p add forced l).out :=
  (logSignal_moves (F := 1025) rfl (.refl _ _)).sent (dcRecords_told p add forced l s h)

/-! ### An offer (03 R65) -/

theorem mem_extInsert {e y : Extent} {l : List Extent} : y ∈ extInsert e l ↔ y = e ∨ y ∈ l := by
  induction l with
  | nil => simp [extInsert]
  | cons x l ih =>
    unfold extInsert
    split
    · simp
    · simp [ih, or_left_comm]

/-- A range is an extent that the partition was offered. -/
def OfferedExt (s : State) (p : Part) (x : GranRange) : Prop :=
  ∃ e ∈ s.exts, e.base = x.1 ∧ e.len = x.2 ∧ holderSt e p = some .offered

/-- The extent that a range of a partition's offer becomes. -/
def newExt (s : State) (p : Part) (a : Attr) (tag : Nat) (x : GranRange) : Extent :=
  { base := x.1, len := x.2, attr := a, tag := tag, holders := [⟨p, .offered⟩], epoch := (partOf s p).epoch }

/-- The new extents of an offer, or the partition's place in the extents that it joins. -/
def placeOffer (s : State) (p : Part) (exts : List GranRange) (a : Attr) (tag : Nat) (join : Bool) : State :=
  exts.foldl (fun s x =>
    if join then extMap s x.1 fun e => { e with holders := e.holders ++ [⟨p, .offered⟩] }
    else { s with exts := extInsert (newExt s p a tag x) s.exts }) s

section
variable (s : State) (p : Part) (exts : List GranRange) (a : Attr) (tag : Nat)

theorem placeOffer_parts (join : Bool) : (placeOffer s p exts a tag join).parts = s.parts :=
  foldl_same (·.parts) (fun u x => by split <;> rfl) exts s

theorem placeOffer_keeps {x : GranRange} {l : List GranRange} {u : State} (h : OfferedExt u p x) :
    OfferedExt (placeOffer u p l a tag false) p x := by
  refine foldl_keeps (P := fun v => OfferedExt v p x) l (fun v y _ hv => ?_) h
  obtain ⟨e, he, hx⟩ := hv
  exact ⟨e, mem_extInsert.mpr (.inr he), hx⟩

theorem placeOffer_offered {x : GranRange} (hx : x ∈ exts) : OfferedExt (placeOffer s p exts a tag false) p x := by
  induction exts generalizing s with
  | nil => cases hx
  | cons y l ih =>
    rcases List.mem_cons.mp hx with rfl | hx
    · refine placeOffer_keeps p a tag (u := { s with exts := extInsert (newExt s p a tag x) s.exts }) ?_
      exact ⟨newExt s p a tag x, mem_extInsert.mpr (.inl rfl), rfl, rfl, by simp [newExt, holderSt]⟩
    · exact ih _ hx

/-- The lists of the partitions that hold the extents of an offer change. -/
def tellOffer (s : State) (p : Part) (exts : List GranRange) : State :=
  exts.foldl (fun s x => listChange s (match s.exts.find? fun e => decide (e.base = x.1) with
    | some e => e.holders.map fun h => h.p.val
    | none => [p])) s

theorem tellOffer_moves : Moves 34359739405 s (tellOffer s p exts) :=
  Moves.foldl (fun _ _ h => listChange_moves (F := 34359739405) rfl h) exts (.refl _ s)

/-- The offer is posted: the host is told. -/
def postOffer (s : State) (p : Part) (exts : List GranRange) : State :=
  raise (dcEvent (partUpd s p fun q => { q with offers := q.offers ++ [⟨exts⟩] }) p true false exts) .partAddOffered p

theorem postOffer_exts : (postOffer s p exts).exts = s.exts :=
  (raise_exts ..).trans ((dcEvent_moves (F := 1025) rfl (.refl _ _)).exts_eq (by decide))

theorem postOffer_offers : (partOf (postOffer s p exts) p).offers = (partOf s p).offers ++ [⟨exts⟩] := by
  unfold postOffer
  rw [partOf_raise, (dcEvent_moves (F := 1025) rfl (.refl _ _)).partOf_eq (by decide), partOf_partUpd_self]

/-- The epoch of a partition's protected extents rises with an offer of new ones. -/
def offerEpoch (s : State) (p : Part) (a : Attr) (join : Bool) : State :=
  if a.prot = 1 ∧ !join then partUpd s p fun q => { q with epoch := q.epoch + 1 } else s

/-- A snapshot extent begins with its newest version alone. -/
def offerSnaps (s : State) (exts : List GranRange) (a : Attr) (join : Bool) : State :=
  if a.sharing = 2 ∧ !join then { s with snaps := s.snaps ++ exts.map fun x => { base := x.1 } } else s

theorem doOffer_eq (join : Bool) : doOffer s p exts a tag join =
    postOffer (tellOffer (offerSnaps (placeOffer (offerEpoch s p a join) p exts a tag join) exts a join) p exts) p exts := rfl

theorem offerSnaps_parts (join : Bool) : (offerSnaps s exts a join).parts = s.parts := by
  unfold offerSnaps
  split <;> rfl

theorem offerSnaps_exts (join : Bool) : (offerSnaps s exts a join).exts = s.exts := by
  unfold offerSnaps
  split <;> rfl

theorem offerEpoch_offers (join : Bool) : (partOf (offerEpoch s p a join) p).offers = (partOf s p).offers := by
  unfold offerEpoch
  split
  · rw [partOf_partUpd_self]
  · rfl

theorem doOffer_offers (join : Bool) :
    (partOf (doOffer s p exts a tag join) p).offers = (partOf s p).offers ++ [⟨exts⟩] := by
  have hplace : ∀ u, partOf (offerSnaps (placeOffer u p exts a tag join) exts a join) p = partOf u p := fun u => by
    unfold partOf
    rw [offerSnaps_parts, placeOffer_parts]
  have htold : ∀ u, partOf (tellOffer u p exts) p = partOf u p := fun u =>
    (tellOffer_moves u p exts).partOf_eq (by decide) p
  rw [doOffer_eq, postOffer_offers, htold, hplace, offerEpoch_offers]

theorem postOffer_signalled : Signalled (postOffer s p exts) .partAddOffered p := raise_signalled _ _ _ _ _ _ _

theorem doOffer_signalled (join : Bool) : Signalled (doOffer s p exts a tag join) .partAddOffered p := by
  rw [doOffer_eq]
  exact postOffer_signalled _ p exts

theorem doOffer_offered {x : GranRange} (hx : x ∈ exts) : OfferedExt (doOffer s p exts a tag false) p x := by
  have hplaced := placeOffer_offered (offerEpoch s p a false) p exts a tag hx
  unfold OfferedExt at hplaced ⊢
  rw [doOffer_eq, postOffer_exts, (tellOffer_moves _ p exts).exts_eq (by decide), offerSnaps_exts]
  exact hplaced

end

/-! ### An add or join that its checks allow (03 R60, R79, R80) -/

section
variable {s : State} {p : Part} {exts : List GranRange} {attr tag : Nat}

/-- Ranges below the exported capacity that no extent and no reserve takes are free. -/
theorem offerable_of_free (hr : rangesOk s exts = true) (hg : addGranules s exts = .success) :
    offerable s p exts false = true := by
  simp only [rangesOk, Bool.and_eq_true, decide_eq_true_eq, List.all_eq_true] at hr
  obtain ⟨⟨-, hin⟩, hpair⟩ := hr
  have hfree : ((exts.flatMap fun x => overlapping s x.1 x.2).isEmpty = true) ∧
      (exts.any fun x => s.reserve.any fun g => decide (x.1 ≤ g) && decide (g < x.1 + x.2)) = false := by
    unfold addGranules at hg
    dsimp only at hg
    split at hg
    · next h => simpa using h
    · split at hg <;> cases hg
  obtain ⟨hover, hres⟩ := hfree
  simp only [List.isEmpty_iff, List.flatMap_eq_nil_iff, overlapping, List.filter_eq_nil_iff] at hover
  simp only [List.any_eq_false] at hres
  simp only [offerable, Bool.and_eq_true, decide_eq_true_eq, List.all_eq_true, Bool.false_eq_true, if_false]
  refine ⟨fun x hx => ⟨(hin x hx).1, ?_⟩, hpair⟩
  have hlen := (hin x hx).1
  simp only [rangeFree, Bool.and_eq_true, Bool.or_eq_true, decide_eq_true_eq, List.all_eq_true]
  refine ⟨⟨(hin x hx).2, fun e he => ?_⟩, fun g hg => ?_⟩
  · have := hover x hx e he
    simp only [Bool.and_eq_true, decide_eq_true_eq] at this
    omega
  · have := hres x hx
    simp only [List.any_eq_true, not_exists, not_and, Bool.and_eq_true, decide_eq_true_eq] at this
    have := this g hg
    omega

theorem offerable_of_addCode (h : addCode s p exts attr tag = .success) : offerable s p exts false = true := by
  unfold addCode at h
  dsimp only at h
  split at h
  · contradiction
  · split at h
    · cases h
    · next hok =>
      simp only [Bool.or_eq_true, Bool.not_eq_true', not_or, Bool.not_eq_false] at hok
      split at h
      · contradiction
      · next hg => exact offerable_of_free hok.2 (not_not.mp hg)

/-- An extent that is joined whole is neither left to be sanitised nor held by the partition. -/
theorem offerable_of_joinCode (h : joinCode s p tag exts = .success) : offerable s p exts true = true := by
  unfold joinCode at h
  split at h
  · contradiction
  · split at h
    · cases h
    · next hone =>
      obtain ⟨x, rfl⟩ := List.length_eq_one_iff.mp (not_not.mp hone)
      simp only [offerable, List.all_cons, List.all_nil, List.pairwise_singleton, decide_true, Bool.and_true, if_true]
      simp only [List.head?_cons, Option.bind_some] at h
      cases hw : wholeExt s x.1 x.2 with
      | none => simp [hw] at h
      | some e =>
        simp only [hw] at h
        split at h
        · cases h
        · split at h
          · cases h
          · split at h
            · cases h
            · next hsan hheld => simp [hsan, Option.not_isSome_iff_eq_none.mp hheld]

end

theorem addCode_sessionMsg (s : State) (k : Nat) (p : Part) (exts : List GranRange) (attr tag : Nat) :
    addCode (sessionMsg s k) p exts attr tag = addCode s p exts attr tag :=
  sessionMsg_proj (addCode · p exts attr tag) (fun _ _ _ => rfl) s k

theorem joinCode_sessionMsg (s : State) (k : Nat) (p : Part) (tag : Nat) (exts : List GranRange) :
    joinCode (sessionMsg s k) p tag exts = joinCode s p tag exts :=
  sessionMsg_proj (joinCode · p tag exts) (fun _ _ _ => rfl) s k

section
variable {s : State} {ses : Session} {p : Part} {exts : List GranRange} (halone : twinUp s = false)
include halone

/-- Alone, an add that its checks allow is the offer and its answer. -/
theorem addExts_alone {attr tag : Nat} (h : addCode s p exts attr tag = .success) : addExts s ses p exts attr tag =
    fmAnswer (doOffer s p exts (attrOf (BitVec.ofNat 32 attr).toNat) tag false) ses .success := by
  unfold addExts fmDo
  rw [foresee_alone halone]
  dsimp only
  rw [h, if_pos rfl, if_neg (by decide), commitJ_alone halone]
  exact congrArg (fmAnswer · ses .success) (if_pos (offerable_of_addCode h))

/-- Alone, a join that its checks allow is the offer and its answer. -/
theorem joinExt_alone {tag : Nat} (h : joinCode s p tag exts = .success) :
    ∃ a, joinExt s ses p tag exts = fmAnswer (doOffer s p exts a tag true) ses .success := by
  unfold joinExt fmDo
  rw [foresee_alone halone]
  dsimp only
  rw [h, if_pos rfl, if_neg (by decide), commitJ_alone halone]
  exact ⟨_, congrArg (fmAnswer · ses .success) (if_pos (offerable_of_joinCode h))⟩

end

/-- An answered offer: the partition has it, and ADD_OFFERED is set. -/
theorem answered_offer (s u : State) (ses : Session) (p : Part) (exts : List GranRange) (a : Attr) (tag : Nat) (join : Bool)
    (hu : partOf u p = partOf s p) : let t := fmAnswer (doOffer u p exts a tag join) ses .success
    t.out.head? = some (.fmRsp ses .success []) ∧ (partOf t p).offers = (partOf s p).offers ++ [⟨exts⟩] ∧
      Signalled t .partAddOffered p :=
  ⟨rfl, hu ▸ doOffer_offers u p exts a tag join, doOffer_signalled u p exts a tag join⟩

/-- Settles O9: an add or join that its checks allow may be offered as it stands, and a posted offer is kept. -/
theorem extentAddsAreOffered : Obligations.ExtentAddsAreOffered := by
  intro s ses p ha halone
  have hal : twinUp (sessionMsg s ses) = false := (twinUp_sessionMsg s ses).trans halone
  have hpart := partOf_sessionMsg s ses p
  refine ⟨fun exts tag hc => ?_, fun exts tag hc => ?_, fun payload hp hc => ?_⟩
  · rw [← addCode_sessionMsg s ses] at hc
    refine gives_fmOp ha rfl ?_
    rw [if_neg (by decide), addExts_alone hal hc]
    obtain ⟨hout, hoffers, hset⟩ := answered_offer s (sessionMsg s ses) ses p exts _ tag false hpart
    exact ⟨hout, hoffers, hset, fun x hx => doOffer_offered _ p exts _ tag hx⟩
  · rw [← joinCode_sessionMsg s ses] at hc
    refine gives_fmOp ha rfl ?_
    obtain ⟨a, hj⟩ := joinExt_alone (ses := ses) hal hc
    rw [if_pos rfl, hj]
    exact answered_offer s _ ses p exts a tag true hpart
  · rw [← addCode_sessionMsg s ses] at hc
    refine gives_fmPart ha hp rfl ?_
    rw [addExts_alone hal hc]
    exact answered_offer s _ ses p _ _ _ false hpart

/-! ### A release asked for or forced (03 R66, R67) -/

/-- The host is told of each range, all but the last with the More flag. -/
def Told (t : State) (p : Part) (forced : Bool) (l : List GranRange) : Prop :=
  ∀ i x, l[i]? = some x → .dcEvent p false forced (decide (i + 1 < l.length)) x ∈ t.out

theorem Told.of_moves {F : Nat} {s t : State} {p : Part} {forced : Bool} {l : List GranRange} (h : Told s p forced l)
    (m : Moves F s t) : Told t p forced l := fun i x hx => m.sent (h i x hx)

/-- An event of a release tells the host of its ranges and sets its bit. -/
theorem released_told (s : State) (p : Part) (forced : Bool) (l : List GranRange) (e : Evt) :
    Told (raise (dcEvent s p false forced l) e p) p forced l ∧ Signalled (raise (dcEvent s p false forced l) e p) e p :=
  ⟨fun _ _ hx => raise_out _ _ _ (dcEvent_told p false forced l s hx), raise_signalled _ _ _ _ _ _ _⟩

section
variable (s : State) (p : Part) (ps : List GranRange)

theorem doRequestRelease_told :
    Told (doRequestRelease s p ps) p false ps ∧ Signalled (doRequestRelease s p ps) .partReleaseRequested p := by
  unfold doRequestRelease
  exact released_told _ p false ps _

theorem doForce_told : Told (doForce s p ps) p true ps ∧ Signalled (doForce s p ps) .partForcedRelease p := by
  unfold doForce
  exact released_told _ p true ps _

theorem sweepWindows_doForce_told :
    Told (sweepWindows (doForce s p ps)) p true ps ∧ Signalled (sweepWindows (doForce s p ps)) .partForcedRelease p := by
  have m : Moves 8388608 (doForce s p ps) (sweepWindows (doForce s p ps)) := sweepWindows_moves rfl (.refl _ _)
  obtain ⟨htold, hset⟩ := doForce_told s p ps
  exact ⟨htold.of_moves m, m.signalled (by decide) hset⟩

end

section
variable {s : State} {p : Part} {ps : List GranRange}

/-- Ranges that are held and not merely offered are asked back. -/
theorem askBack_told (h : (ps.filter fun x => !(offeredOf s p ps).contains x) ≠ []) :
    Told (askBack s p ps) p false (ps.filter fun x => !(offeredOf s p ps).contains x) ∧
      Signalled (askBack s p ps) .partReleaseRequested p := by
  unfold askBack
  dsimp only
  rw [if_neg (by rwa [List.isEmpty_iff])]
  exact doRequestRelease_told _ p _

end

/-- The checks of a release read the extents alone. -/
theorem releaseCode_congr {s t : State} (h : t.exts = s.exts) (p : Part) (ok : List ExtState) (all : Bool)
    (exts : List GranRange) : releaseCode t p ok all exts = releaseCode s p ok all exts :=
  show releaseCode { s with exts := t.exts } p ok all exts = _ from h ▸ rfl

theorem offeredOf_congr {s t : State} (h : t.exts = s.exts) (p : Part) (exts : List GranRange) :
    offeredOf t p exts = offeredOf s p exts :=
  show offeredOf { s with exts := t.exts } p exts = _ from h ▸ rfl

theorem limitHit_set (s : State) (p : Nat) : Signalled (limitHit s p) .extLimitHit p ∧ Signalled (limitHit s p) .extLimitHit 16 :=
  ⟨signalled_raise _ _ _ _ _ _ _ _ _ (raise_signalled _ _ _ _ _ _ _), raise_signalled _ _ _ _ _ _ _⟩

section
variable {s : State} {ses : Session} {p : Part} {exts ps : List GranRange} (halone : twinUp s = false) (hne : exts ≠ [])
include halone hne

/-- Alone, a release that its checks allow is carried out and answered. -/
theorem releaseExts_alone {forced : Bool}
    (h : releaseCode s p (if forced then [.offered, .active, .releasePending, .reclaimable]
      else [.offered, .active, .releasePending]) forced exts = (.success, ps)) :
    releaseExts s ses p exts forced = fmAnswer (applyJ s (if forced then .extForce p ps else .extRequest p ps)) ses .success := by
  have hsome : ¬exts.isEmpty = true := by rwa [List.isEmpty_iff]
  unfold releaseExts fmDo
  dsimp only
  rw [foresee_alone halone, if_neg hsome, h, if_pos rfl, if_neg (by simp), commitJ_alone halone]

/-- A release that would pass a limit is refused, and LIMIT_HIT is set. -/
theorem releaseExts_limit
    (h : (releaseCode s p [.offered, .active, .releasePending] false exts).1 = .resourcesExhausted) :
    releaseExts s ses p exts false = fmAnswer (limitHit s p) ses .resourcesExhausted := by
  have hsome : ¬exts.isEmpty = true := by rwa [List.isEmpty_iff]
  have hok : (if (false : Bool) = true then [.offered, .active, .releasePending, .reclaimable]
      else [ExtState.offered, .active, .releasePending]) = [.offered, .active, .releasePending] := rfl
  unfold releaseExts fmDo
  dsimp only
  rw [foresee_alone halone, if_neg hsome, hok, h, if_neg (by decide), if_pos rfl]

/-- A forced release in an installer's session. -/
theorem forced_told
    (h : releaseCode s p [.offered, .active, .releasePending, .reclaimable] true exts = (.success, ps)) :
    let t := releaseExts s ses p exts true
    t.out.head? = some (.fmRsp ses .success []) ∧ Signalled t .partForcedRelease p ∧ Told t p true ps := by
  rw [releaseExts_alone halone hne (forced := true) h]
  obtain ⟨htold, hset⟩ := sweepWindows_doForce_told s p ps
  exact ⟨rfl, hset, fun i x hx => List.mem_cons_of_mem _ (htold i x hx)⟩

end

/-- The state in which an installer's command runs: its message and its audit record leave the extents and the pair. -/
theorem installer_kept (s : State) (ses : Session) (opcode : Nat) (payload : List Byte) :
    (auditCmd (sessionMsg s ses) ses opcode payload).exts = s.exts ∧
      twinUp (auditCmd (sessionMsg s ses) ses opcode payload) = twinUp s := by
  have m : Moves 299067162756109 (sessionMsg s ses) (auditCmd (sessionMsg s ses) ses opcode payload) :=
    auditCmd_moves rfl (.refl _ _)
  exact ⟨(m.exts_eq (by decide)).trans (sessionMsg_exts s ses), (m.twinUp_eq (by decide) (by decide)).trans (twinUp_sessionMsg s ses)⟩

/-- Settles O10: what a release changes comes before its event, and what follows the event unsends nothing. -/
theorem releasesTellTheHost : Obligations.ReleasesTellTheHost := by
  intro s ses p halone
  have hal : twinUp (sessionMsg s ses) = false := (twinUp_sessionMsg s ses).trans halone
  have hcode := releaseCode_congr (sessionMsg_exts s ses) p
  refine ⟨fun exts ps ha hne hc hheld => ?_, fun exts ps ha hne hc => ?_, fun payload ps ha hp hc => ?_,
    fun exts ha hne hc => ?_⟩
  · refine gives_fmOp ha (congrArg Host.Outcome.next (if_neg (by decide))) ?_
    rw [releaseExts_alone hal hne (forced := false) ((hcode _ _ _).trans hc)]
    rw [← offeredOf_congr (sessionMsg_exts s ses)] at hheld ⊢
    obtain ⟨htold, hset⟩ := askBack_told hheld
    exact ⟨rfl, hset, fun i x hx => List.mem_cons_of_mem _ (htold i x hx)⟩
  · obtain ⟨hexts, htwin⟩ := installer_kept (draw s).2 ses 0x5605 (leBytes 8 (draw s).1)
    refine ⟨_, congrArg Host.Outcome.next ((if_pos rfl).trans (fmCmd_admitted (s := (draw s).2) ha.1 ha.2 _ _)), ?_⟩
    rw [if_pos rfl]
    exact forced_told (htwin.trans halone) hne ((releaseCode_congr hexts _ _ _ _).trans hc)
  · obtain ⟨hexts, htwin⟩ := installer_kept s ses 0xC004 payload
    refine gives_fmPartInstaller ha hp rfl ?_
    exact forced_told (htwin.trans halone) (by simp) ((releaseCode_congr hexts _ _ _ _).trans hc)
  · refine gives_fmOp ha (congrArg Host.Outcome.next (if_neg (by decide))) ?_
    rw [releaseExts_limit hal hne ((congrArg Prod.fst (hcode _ _ _)).trans hc)]
    obtain ⟨hpart, hpool⟩ := limitHit_set (sessionMsg s ses) p
    exact ⟨rfl, hpart, hpool, ((limitHit_moves (F := 1037) rfl (.refl _ _)).exts_eq (by decide)).trans (sessionMsg_exts s ses)⟩

end Sys2Proof.Machine
end

section
/-! PROOF. The leases and bindings of partitions, and the commands on them (O11). -/

namespace Sys2Proof.Machine

open Sys2Proof

/-! ### A lease starts and is renewed (03 R70, R71) -/

section
variable (s : State) (p : Nat)

theorem startLease_part {f : Fld} (hf : f ≠ .partLeaseExpired) (i j : Nat) : fget (startLease s p) f i j = fget s f i j := by
  unfold startLease
  rw [fget_fset_fld _ _ _ _ _ _ hf, fget_partUpd]

theorem startLease_expiry : (partOf (startLease s p) p).leaseExpiry = now s + fget s .partCfgLeaseMs p * 100000 := by
  unfold startLease
  rw [partOf_fset, partOf_partUpd_self]
  rfl

/-- A lease that has begun at full length: its expiry, what it leaves of the partition's page, and the count of renewals. -/
structure Renewed (s t : State) (p : Nat) : Prop where
  expiry : (partOf t p).leaseExpiry = now s + fget s .partCfgLeaseMs p * 100000
  count : fget t .partLeaseRenewals p = min (fget s .partLeaseRenewals p + 1) (2 ^ Fld.partLeaseRenewals.desc.w - 1)
  page : ∀ f i j, f ≠ .partLeaseExpired → f ≠ .partLeaseRenewals → fget t f i j = fget s f i j
  time : now t = now s

theorem doRenew_renewed : Renewed s (doRenew s p) p where
  expiry := startLease_expiry s p
  count := by
    unfold doRenew
    rw [fget_finc_self, startLease_part s p (by decide)]
  page f i j he hr := by
    unfold doRenew
    rw [fget_finc_fld _ _ _ _ _ hr, startLease_part s p he]
  time := rfl

end

theorem doRenew_twinUp (s : State) (p : Nat) : twinUp (doRenew s p) = twinUp s := by
  unfold twinUp paired
  rw [(doRenew_renewed s p).page .belayStatusRole 0 0 (by decide) (by decide)]
  rfl

section
variable {s : State} {p : Part}

/-- A renewal in time is a full lease; with a twin it goes into the journal. -/
theorem renewPage_inTime (hact : pState s p = pActive) (hover : leaseOver s p = false) :
    Renewed s (renewPage s p) p ∧ (twinUp s = false → renewPage s p = doRenew s p) := by
  have hlive : (pState s p = pActive && !leaseOver s p) = true := by simp [hact, hover]
  unfold renewPage
  rw [if_pos hlive]
  have h := doRenew_renewed s p
  refine ⟨?_, fun halone => if_neg (by rw [doRenew_twinUp, halone]; decide)⟩
  dsimp only
  split
  · exact ⟨h.expiry, h.count, h.page, h.time⟩
  · exact h

/-- A late renewal is counted and no more. -/
theorem renewPage_late (h : pState s p = pOrphaned ∨ (pState s p = pActive ∧ leaseOver s p = true)) :
    renewPage s p = record (finc s .partLateRenewLate p) .lateRenew p p.val := by
  have hdead : ¬(pState s p = pActive && !leaseOver s p) = true := by
    rcases h with h | ⟨-, h⟩
    · simp [h, pOrphaned, pActive]
    · simp [h]
  unfold renewPage
  rw [if_neg hdead, if_pos (h.imp_right And.left)]

theorem renewPage_reclaimed (h : pState s p = pReclaimed) : renewPage s p = s := by
  unfold renewPage
  rw [h, if_neg (by simp [pReclaimed, pActive]), if_neg (by decide)]

end

/-! ### The host's own RENEW (03 R70; 15 R320) -/

theorem fieldsAt_lease (p : Part) : fieldsAt .part p 0x048 = [⟨.partLeaseRenew, 0, 0⟩, ⟨.partLeaseExpired, 0, 1⟩,
    ⟨.partLeaseRemainingMs, 0, 16⟩, ⟨.partLeaseRenewals, 0, 32⟩] := rfl

theorem wordWith_renew (s : State) (p : Part) : wordWith s .part p 0x048 [(.partLeaseRenew, 0, 1)] = 1 := by
  have hexpired : Fld.partLeaseExpired.desc.acc = .ro := rfl
  have hremaining : Fld.partLeaseRemainingMs.desc.acc = .ro := rfl
  have hrenewals : Fld.partLeaseRenewals.desc.acc = .ro := rfl
  have hrenew : Fld.partLeaseRenew.desc.w = 1 := rfl
  unfold wordWith
  rw [fieldsAt_lease]
  simp [hexpired, hremaining, hrenewals, hrenew]

theorem newFld_renew (s : State) (v : View) (p : Part) : newFld s v .part p 0x048 1 .partLeaseRenew = 1 := by
  unfold newFld
  rw [fieldsAt_lease]
  rfl

theorem partNum_val (p : Part) : partNum p.val = p := Fin.ext (Nat.mod_eq_of_lt p.isLt)

section
variable {s : State} {h : Head} {p : Part} {Q : State → Prop}

/-- A host's RENEW that goes through renews the lease. -/
theorem gives_leaseRenew (ho : ioOpen s h p = true)
    (hw : Writes s (.host p h) .part p 0x048 (wordWith s .part p 0x048 [(.partLeaseRenew, 0, 1)]))
    (hQ : Q (renewPage (ioTouch s h) p)) : Gives (.leaseRenew h p) s Q := by
  refine gives_ioWrite ho rfl ?_
  rw [wordWith_renew] at hw ⊢
  rw [writeReg_open (hw.ioTouch h)]
  dsimp only
  rw [if_neg (by decide), if_neg (by decide)]
  show Q (applyPart (ioTouch s h) p 0x048 _)
  unfold applyPart
  rw [if_pos rfl, newFld_renew, if_pos rfl, partNum_val]
  exact hQ

/-- A renewal through the host in time. -/
theorem leaseRenew_inTime (ho : ioOpen s h p = true)
    (hw : Writes s (.host p h) .part p 0x048 (wordWith s .part p 0x048 [(.partLeaseRenew, 0, 1)]))
    (hact : pState s p = pActive) (hover : leaseOver s p = false) : Gives (.leaseRenew h p) s fun t => Renewed s t p :=
  have hr : Renewed (ioTouch s h) (renewPage (ioTouch s h) p) p := (renewPage_inTime (s := ioTouch s h) hact hover).1
  gives_leaseRenew ho hw ⟨hr.expiry, hr.count, hr.page, hr.time⟩

end

/-! ### Reclaim and revive (03 R72, R73) -/

section
variable (s : State) (p : Part)

theorem doReclaim_reclaimed : pState (sweepWindows (doReclaim s p)) p = pReclaimed := by
  have m : Moves 8388608 (doReclaim s p) (sweepWindows (doReclaim s p)) := sweepWindows_moves rfl (.refl _ _)
  unfold pState
  rw [m.fget_eq (f := .partStateState) (by decide) (by decide)]
  unfold doReclaim
  rw [fget_fset_self]
  rfl

/-- A partition revived is ACTIVE with a full lease. -/
theorem doRevive_active : pState (doRevive s p) p = pActive ∧
    (partOf (doRevive s p) p).leaseExpiry = now s + fget s .partCfgLeaseMs p * 100000 ∧
    Signalled (doRevive s p) .partRevived p := by
  have m : Moves 34359747597 (fset s .partStateState pActive p)
      (turnHoldings (fset s .partStateState pActive p) p [.reclaimable] .active) := turnHoldings_moves rfl (.refl _ _)
  unfold doRevive pState
  refine ⟨?_, ?_, raise_signalled _ _ _ _ _ _ _⟩
  · rw [fget_raise _ _ _ _ _ _ _ _ _ (by decide), startLease_part _ _ (by decide),
      m.fget_eq (f := .partStateState) (by decide) (by decide), fget_fset_self]
    rfl
  · rw [partOf_raise, startLease_expiry, m.now_eq (by decide), m.fget_eq (f := .partCfgLeaseMs) (by decide) (by decide),
      fget_fset_fld _ _ _ _ _ _ (by decide)]
    rfl

end

/-! ### A binding takes effect (03 R57) -/

/-- The sharers of the heads that a binding takes from a partition leave the directory. -/
def headsLeft (s : State) (p : Part) (heads : Nat) : State :=
  ((bitList (fget s .partStateHeads p) 16).filter fun h => !heads.testBit h).foldl (fun s h =>
    { dropSharers s (fun x => decide (x = sharerId p h)) with hdms := adel s.hdms (sharerId p h) }) s

/-- The heads are bound. -/
def headsBound (s : State) (p : Part) (heads : Nat) : State :=
  partUpd (fset (headsLeft s p heads) .partStateHeads heads p) p fun q => { q with bindDue := none }

/-- A disabled partition is enabled with a full lease. -/
def partEnabled (s : State) (p : Part) : State :=
  if pState s p = pDisabled then startLease (fset s .partStateState pActive p) p else s

theorem doBind_eq (s : State) (p : Part) (heads : Nat) : doBind s p heads =
    if heads = 0 ∧ aget (headsBound s p heads).belay.twinHeads p.val 0 = 0 then
      (if pState (headsBound s p heads) p = pDisabled then headsBound s p heads else disablePart (headsBound s p heads) p)
    else masterAgain (partEnabled (headsBound s p heads) p) p := rfl

/-- The partitions, their page and the time stay. -/
structure PartsStay (s t : State) : Prop where
  parts : t.parts = s.parts
  time : t.tb = s.tb
  page : ∀ f i j, f.desc.blk = .part → fget t f i j = fget s f i j

section
variable {s t u : State}

theorem PartsStay.trans (h : PartsStay s t) (k : PartsStay t u) : PartsStay s u :=
  ⟨k.parts.trans h.parts, k.time.trans h.time, fun f i j hf => (k.page f i j hf).trans (h.page f i j hf)⟩

theorem PartsStay.of_moves {F : Nat} (m : Moves F s t) (hp : F.testBit Kind.partitions.num = false)
    (ht : F.testBit Kind.timebase.num = false) (hr : F.testBit (Kind.page .part).num = false) : PartsStay s t :=
  ⟨m.frame .partitions hp, m.frame .timebase ht, fun f i j hf =>
    (m.frame (.page .part) hr f i j hf fun h => absurd (h ▸ hf) (by decide)).1⟩

theorem PartsStay.partOf (h : PartsStay s t) (p : Nat) : partOf t p = partOf s p := by
  unfold Machine.partOf
  rw [h.parts]

theorem PartsStay.now (h : PartsStay s t) : now t = now s := by
  unfold Machine.now
  rw [h.time]

theorem PartsStay.pState (h : PartsStay s t) (p : Nat) : pState t p = pState s p := h.page .partStateState p 0 rfl

end

section
variable (s : State) (p : Part) (heads : Nat)

theorem headsLeft_stay : PartsStay s (headsLeft s p heads) := by
  refine foldl_keeps (P := PartsStay s) _ (fun u h _ hu => hu.trans ?_) ⟨rfl, rfl, fun _ _ _ _ => rfl⟩
  have hdrop : PartsStay u (dropSharers u fun x => decide (x = sharerId p h)) :=
    .of_moves (dropSharers_moves (F := 329270439683103) rfl (.refl _ u)) (by decide) (by decide) (by decide)
  exact hdrop.trans ⟨rfl, rfl, fun _ _ _ _ => rfl⟩

theorem headsBound_pState : pState (headsBound s p heads) p = pState s p := by
  unfold headsBound pState
  rw [fget_partUpd, fget_fset_fld _ _ _ _ _ _ (by decide)]
  exact (headsLeft_stay s p heads).pState p

/-- What the rest of a binding keeps: the heads bound, and that no binding is due. -/
def BoundTo (t : State) (p : Part) (heads : Nat) : Prop :=
  fget t .partStateHeads p = heads ∧ (partOf t p).bindDue = none

theorem headsBound_boundTo {heads : Nat} (h : heads < 2 ^ 16) : BoundTo (headsBound s p heads) p heads := by
  unfold headsBound
  refine ⟨?_, by rw [partOf_partUpd_self]⟩
  rw [fget_partUpd, fget_fset_self]
  exact Nat.mod_eq_of_lt h

theorem headsBound_lease : now (headsBound s p heads) = now s ∧
    fget (headsBound s p heads) .partCfgLeaseMs p = fget s .partCfgLeaseMs p := by
  have hstay := headsLeft_stay s p heads
  refine ⟨hstay.now, ?_⟩
  unfold headsBound
  rw [fget_partUpd, fget_fset_fld _ _ _ _ _ _ (by decide)]
  exact hstay.page _ _ _ rfl

theorem masterAgain_stay : PartsStay s (masterAgain s p) :=
  .of_moves (masterAgain_moves (F := 687424341005) rfl (.refl _ s)) (by decide) (by decide) (by decide)

end

section
variable {s t : State} {p : Part} {heads : Nat}

theorem BoundTo.stay (h : BoundTo s p heads) (k : PartsStay s t) : BoundTo t p heads :=
  ⟨(k.page _ _ _ rfl).trans h.1, k.partOf p ▸ h.2⟩

theorem BoundTo.partEnabled (h : BoundTo s p heads) : BoundTo (partEnabled s p) p heads := by
  unfold Machine.partEnabled
  split
  · refine ⟨?_, ?_⟩
    · rw [startLease_part _ _ (by decide), fget_fset_fld _ _ _ _ _ _ (by decide)]
      exact h.1
    · unfold startLease
      rw [partOf_fset, partOf_partUpd_self]
      exact h.2
  · exact h

theorem partEnabled_pState : pState (partEnabled s p) p = if pState s p = pDisabled then pActive else pState s p := by
  unfold partEnabled
  split
  · unfold pState
    rw [startLease_part _ _ (by decide), fget_fset_self]
    rfl
  · rfl

theorem partEnabled_expiry (h : pState s p = pDisabled) :
    (partOf (partEnabled s p) p).leaseExpiry = now s + fget s .partCfgLeaseMs p * 100000 := by
  unfold partEnabled
  rw [if_pos h, startLease_expiry, fget_fset_fld _ _ _ _ _ _ (by decide)]
  rfl

end

/-- A binding to some head: the partition is bound to it, and enabled with a full lease where it was disabled. -/
theorem doBind_some {s : State} {p : Part} {heads : Nat} (h0 : heads ≠ 0) (hlt : heads < 2 ^ 16) :
    BoundTo (doBind s p heads) p heads ∧ pState (doBind s p heads) p = (if pState s p = pDisabled then pActive else pState s p) ∧
      (pState s p = pDisabled → (partOf (doBind s p heads) p).leaseExpiry = now s + fget s .partCfgLeaseMs p * 100000) := by
  have hstay := masterAgain_stay (partEnabled (headsBound s p heads) p) p
  have hstate := headsBound_pState s p heads
  obtain ⟨hnow, hms⟩ := headsBound_lease s p heads
  rw [doBind_eq, if_neg fun h => h0 h.1]
  refine ⟨(headsBound_boundTo s p hlt).partEnabled.stay hstay, ?_, fun hdis => ?_⟩
  · rw [hstay.pState, partEnabled_pState, hstate]
  · rw [hstay.partOf, partEnabled_expiry (hstate.trans hdis), hnow, hms]

section
variable {s : State} {p : Part} {heads : BitVec 16}

/-- Alone, a binding that may happen happens at its boundary. -/
theorem bindEffect_alone (halone : twinUp s = false) (hdue : (partOf s p).bindDue = some heads)
    (hok : ¬(unbinds s p heads.toNat = true ∧ holdsExtents s p = true)) :
    bindEffect s p = doBind (partUpd s p fun q => { q with bindDue := none }) p heads.toNat := by
  unfold bindEffect
  rw [hdue]
  dsimp only
  have hal : twinUp (partUpd s p fun q => { q with bindDue := none }) = false := halone
  rw [if_neg (by simpa using hok), commitJ_alone hal]
  exact if_pos (decide_eq_true rfl)

end

/-! ### A lease expires (03 R72) -/

/-- The partition's page says that its lease is over. -/
def expiryMarked (s : State) (p : Part) : State :=
  fset (fset (fset s .partStateState pOrphaned p) .partLeaseExpired 1 p) .partOrphanAtPitch (count s) p

/-- What the partition holds waits to be reclaimed, and its open offers end. -/
def holdingsEnded (s : State) (p : Part) : State :=
  turnHoldings (endOffers ((extsOf s p).foldl (fun s e => snapLeave s e p) s) p) p [.active, .releasePending] .reclaimable

/-- The event and the record of an orphaned partition. -/
def orphanTold (s : State) (p : Part) : State :=
  let s := raise s .partOrphaned p
  emit { s with fmLog := .partitionOrphaned p :: s.fmLog } (.notify (.partitionOrphaned p))

/-- The sharers, the work and the windows of an orphaned partition end. -/
def orphanQuiet (s : State) (p : Part) : State :=
  closeWindows (endWork (dropSharers s fun sh => decide (sh / 16 = p.val)) p haltLease stLeaseLost) p

theorem doLeaseExpire_eq (s : State) (p : Part) :
    doLeaseExpire s p = orphanQuiet (orphanTold (holdingsEnded (expiryMarked s p) p) p) p := rfl

section
variable (s : State) (p : Part)

theorem closeWindows_stay (p : Nat) : PartsStay s (closeWindows s p) := ⟨rfl, rfl, fun _ _ _ _ => rfl⟩

theorem orphanQuiet_stay : PartsStay s (orphanQuiet s p) :=
  have hdrop : PartsStay s (dropSharers s fun sh => decide (sh / 16 = p.val)) :=
    .of_moves (dropSharers_moves (F := 329270439683103) rfl (.refl _ s)) (by decide) (by decide) (by decide)
  have hwork : ∀ u, PartsStay u (endWork u p haltLease stLeaseLost) := fun u =>
    .of_moves (endWork_moves (F := 687424341005) rfl (.refl _ u)) (by decide) (by decide) (by decide)
  (hdrop.trans (hwork _)).trans (closeWindows_stay _ p)

theorem orphanTold_stay : PartsStay s (orphanTold s p) :=
  have hraise : PartsStay s (raise s .partOrphaned p) :=
    .of_moves (raise_moves (F := 1037) rfl (.refl _ s)) (by decide) (by decide) (by decide)
  hraise.trans ⟨rfl, rfl, fun _ _ _ _ => rfl⟩

/-- The end of the holdings leaves the partition's page. -/
theorem holdingsEnded_page {f : Fld} (hf : f.desc.blk = .part) (i j : Nat) : fget (holdingsEnded s p) f i j = fget s f i j := by
  have hne : f ≠ .cairnCoalesceStatsLatched := fun h => absurd (h ▸ hf) (by decide)
  have hsnaps : Moves 66573 s ((extsOf s p).foldl (fun s e => snapLeave s e p) s) :=
    .foldl (fun _ _ h => snapLeave_moves (F := 66573) rfl h) _ (.refl _ s)
  have hoffers : ∀ u, Moves 281509336527885 u (endOffers u p) := fun u => endOffers_moves rfl (.refl _ u)
  have hturned : ∀ u, Moves 34359747597 u (turnHoldings u p [.active, .releasePending] .reclaimable) := fun u =>
    turnHoldings_moves rfl (.refl _ u)
  unfold holdingsEnded
  rw [(hturned _).fget_eq (by rw [hf]; decide) hne, (hoffers _).fget_eq (by rw [hf]; decide) hne,
    hsnaps.fget_eq (by rw [hf]; decide) hne]

/-- An expired lease leaves on the partition's page what it marks there. -/
theorem doLeaseExpire_page {f : Fld} (hf : f.desc.blk = .part) (i j : Nat) :
    fget (doLeaseExpire s p) f i j = fget (expiryMarked s p) f i j := by
  rw [doLeaseExpire_eq, (orphanQuiet_stay _ p).page f i j hf, (orphanTold_stay _ p).page f i j hf, holdingsEnded_page _ p hf]

theorem doLeaseExpire_orphaned : pState (doLeaseExpire s p) p = pOrphaned := by
  unfold pState
  rw [doLeaseExpire_page s p rfl]
  unfold expiryMarked
  rw [fget_fset_fld _ _ _ _ _ _ (by decide), fget_fset_fld _ _ _ _ _ _ (by decide), fget_fset_self]
  rfl

theorem doLeaseExpire_expired : fget (doLeaseExpire s p) .partLeaseExpired p = 1 := by
  rw [doLeaseExpire_page s p rfl]
  unfold expiryMarked
  rw [fget_fset_fld _ _ _ _ _ _ (by decide), fget_fset_self]
  rfl

end

/-- Alone, an over lease expires. -/
theorem leaseTest_alone {s : State} {p : Part} (halone : twinUp s = false) (hover : leaseOver s p = true)
    (hdue : expiryDue s p = false) : leaseTest s p = doLeaseExpire s p := by
  unfold leaseTest
  rw [if_pos (by simp [hover, hdue, halone]), commitJ_alone halone]
  rfl

/-! ### Commands of a session -/

theorem leNat_lt (l : List Byte) : leNat l < 2 ^ (8 * l.length) := by
  induction l with
  | nil => decide
  | cons b l ih =>
    have hb := b.isLt
    rw [leNat, List.length_cons, Nat.mul_add, Nat.pow_add]
    omega

theorem leAt_lt (bs : List Byte) (o n : Nat) : leAt bs o n < 2 ^ (8 * n) :=
  (leNat_lt _).trans_le (Nat.pow_le_pow_right (by decide) (Nat.mul_le_mul_left 8 (by simp)))

theorem holdsExtents_sessionMsg (s : State) (k p : Nat) : holdsExtents (sessionMsg s k) p = holdsExtents s p := by
  rw [holdsExtents, extsOf_sessionMsg, holdsExtents]

theorem unbinds_sessionMsg (s : State) (k p heads : Nat) : unbinds (sessionMsg s k) p heads = unbinds s p heads := by
  rw [unbinds, sessionMsg_belay, unbinds]

theorem now_sessionMsg (s : State) (k : Nat) : now (sessionMsg s k) = now s := by
  rw [now, sessionMsg_tb, now]

theorem pState_sessionMsg (s : State) (k p : Nat) : pState (sessionMsg s k) p = pState s p := fget_sessionMsg ..

theorem leaseOver_sessionMsg (s : State) (k : Nat) (p : Part) : leaseOver (sessionMsg s k) p = leaseOver s p := by
  rw [leaseOver, pState_sessionMsg, partOf_sessionMsg, sessionMsg_tb, leaseOver]

section
variable {s : State} {ses : Session} {p : Part}

/-- A binding that may happen falls due at the boundary. -/
theorem bindPart_due {heads : BitVec 16} (hok : ¬(unbinds s p heads.toNat = true ∧ holdsExtents s p = true)) :
    (bindPart s ses p heads).out = .fmRsp ses .success [] :: s.out ∧
      (partOf (bindPart s ses p heads) p).bindDue = some heads := by
  unfold bindPart
  rw [if_neg (by simpa using hok)]
  unfold fmAnswer
  rw [partOf_emit, partOf_partUpd_self]
  exact ⟨rfl, rfl⟩

/-- An attribute change that its checks allow waits for the boundary. -/
theorem setAttrs_due (halone : twinUp s = false) {bs : List Byte} (hlen : bs.length = 12) (hmask : maskOk (leAt bs 4 4) = true)
    (hmasked : maskedOk (leAt bs 4 4) (leAt bs 8 4) = true) (hbase : ∃ e ∈ s.exts, e.base = leAt bs 0 4) :
    setAttrs s ses bs = fmAnswer { s with attrDue := s.attrDue ++
      [(leAt bs 0 4, BitVec.ofNat 32 (leAt bs 4 4), BitVec.ofNat 32 (leAt bs 8 4))] } ses .success := by
  have hok : (decide (bs.length = 12) && maskOk (leAt bs 4 4) && maskedOk (leAt bs 4 4) (leAt bs 8 4) &&
      (foresee s).exts.any fun e => decide (e.base = leAt bs 0 4)) = true := by
    rw [foresee_alone halone]
    simpa [hlen, hmask, hmasked] using hbase
  unfold setAttrs
  dsimp only
  rw [hok, if_neg (by decide), if_neg (by simp [halone])]

/-- A renewal by the fabric manager answers the whole lease. -/
theorem renewFm_inTime (halone : twinUp s = false) (hact : pState s p = pActive) (hover : leaseOver s p = false) :
    (partOf (renewFm s ses p) p).leaseExpiry = now s + fget s .partCfgLeaseMs p * 100000 ∧
      (renewFm s ses p).out = .fmRsp ses .success [fget s .partCfgLeaseMs p] :: s.out := by
  obtain ⟨hr, hnow⟩ := renewPage_inTime hact hover
  have hms : remainingMs (renewPage s p) p = fget s .partCfgLeaseMs p := by
    have hstate : pState (renewPage s p) p = pActive := (hr.page .partStateState p 0 (by decide) (by decide)).trans hact
    unfold remainingMs
    rw [if_pos hstate, hr.expiry, hr.time, Nat.add_sub_cancel_left]
    exact Nat.mul_div_cancel _ (by decide)
  have hout : (renewPage s p).out = s.out := by
    rw [hnow halone]
    rfl
  unfold renewFm
  rw [if_neg (by rw [hact]; decide)]
  dsimp only
  rw [if_pos (by simp [hact, hover]), hms]
  exact ⟨hr.expiry, congrArg _ hout⟩

end

/-- Settles O11: alone each change takes effect at once, and a binding at its boundary. -/
theorem partitionCommandsActAlone : Obligations.PartitionCommandsActAlone := by
  intro s ses p ha halone
  have hal : twinUp (sessionMsg s ses) = false := (twinUp_sessionMsg s ses).trans halone
  refine ⟨fun payload hp hok => ?_, fun payload hlen hmask hmasked hbase => ?_, fun payload hp => ⟨fun hact hover => ?_,
    fun horph => ?_, fun hstate => ?_⟩, fun heads hdue h0 hen => ?_, fun h ho hw hact hover => ?_, fun hlow => ?_, fun hover hdue => ?_⟩
  · have hheads : (BitVec.ofNat 16 (leAt payload 2 2)).toNat = leAt payload 2 2 := by
      rw [BitVec.toNat_ofNat]
      exact Nat.mod_eq_of_lt (leAt_lt payload 2 2)
    refine gives_fmPart ha hp rfl ?_
    rw [← unbinds_sessionMsg s ses, ← holdsExtents_sessionMsg s ses, ← hheads] at hok
    obtain ⟨hout, hbind⟩ := bindPart_due (ses := ses) hok
    exact ⟨hout.trans (congrArg _ (sessionMsg_out s ses)), hbind⟩
  · refine gives_fmOp ha rfl ?_
    rw [← sessionMsg_exts s ses] at hbase
    rw [setAttrs_due hal hlen hmask hmasked hbase]
    exact ⟨congrArg _ (sessionMsg_out s ses), congrArg (· ++ _) (sessionMsg_attrDue s ses)⟩
  · refine gives_fmPart ha hp rfl ?_
    obtain ⟨hexp, hout⟩ := renewFm_inTime (ses := ses) hal ((pState_sessionMsg s ses p).trans hact)
      ((leaseOver_sessionMsg s ses p).trans hover)
    rw [now_sessionMsg, fget_sessionMsg] at hexp
    rw [fget_sessionMsg, sessionMsg_out] at hout
    exact ⟨hexp, hout⟩
  · refine gives_fmPart ha hp rfl ?_
    unfold reclaimFm
    dsimp only
    rw [foresee_alone hal, if_pos ((pState_sessionMsg s ses p).trans horph), commitJ_alone hal]
    exact ⟨doReclaim_reclaimed _ p, _, rfl⟩
  · refine gives_fmPart ha hp rfl ?_
    unfold reviveFm
    rw [foresee_alone hal, if_pos (by rwa [pState_sessionMsg]), commitJ_alone hal]
    obtain ⟨hact, hexp, hset⟩ := doRevive_active (sessionMsg s ses) p
    rw [now_sessionMsg, fget_sessionMsg] at hexp
    exact ⟨hact, hexp, hset, rfl⟩
  · have h0' : heads.toNat ≠ 0 := fun h => h0 (BitVec.eq_of_toNat_eq h)
    have hok : ¬(unbinds s p heads.toNat = true ∧ holdsExtents s p = true) := fun h => by simp [unbinds, h0'] at h
    refine ⟨_, congrArg Host.Outcome.next (bindEffect_alone halone hdue hok), ?_⟩
    obtain ⟨⟨hbound, -⟩, hstate, -⟩ := doBind_some (s := partUpd s p fun q => { q with bindDue := none }) (p := p) h0' heads.isLt
    exact ⟨hbound, hstate.trans (if_neg hen)⟩
  · obtain ⟨t, ht, hr⟩ := leaseRenew_inTime ho hw hact hover
    exact ⟨t, ht, hr.expiry⟩
  · exact ⟨_, congrArg Host.Outcome.next (if_pos hlow), raise_signalled _ _ _ _ _ _ _⟩
  · exact ⟨_, congrArg Host.Outcome.next (leaseTest_alone halone hover hdue), doLeaseExpire_orphaned s p⟩

end Sys2Proof.Machine
end

section
/-! PROOF. Event bits stay set, and the heads of the twin's half of each partition stay, through requests, blocks and the
directory. -/

namespace Sys2Proof.Machine

open Sys2Proof

/-- No event bit falls, and the heads that partitions have on the twin stay. -/
structure Steady (s t : State) : Prop where
  bits : ∀ b i n, (hget s b i).evtStatus.getLsbD n = true → (hget t b i).evtStatus.getLsbD n = true
  twinHeads : t.belay.twinHeads = s.belay.twinHeads

theorem Steady.refl (s : State) : Steady s s := ⟨fun _ _ _ h => h, rfl⟩

theorem Steady.trans {s t u : State} (h : Steady s t) (k : Steady t u) : Steady s u :=
  ⟨fun b i n hb => k.bits b i n (h.bits b i n hb), k.twinHeads.trans h.twinHeads⟩

theorem Steady.signalled {s t : State} (h : Steady s t) {e : Evt} {i : Nat} (hs : Signalled s e i) : Signalled t e i :=
  h.bits _ _ _ hs

/-- The kinds of state that hold neither event bits nor the pair's own state. -/
def steadySet : Nat := 2 ^ 50 - 1 - 2 ^ Kind.headers.num - 2 ^ Kind.pair.num

theorem Moves.steady {s t : State} (m : Moves steadySet s t) : Steady s t := by
  have hhdr : t.hdr = s.hdr := m.frame .headers (by decide)
  have hbelay : t.belay = s.belay := m.frame .pair (by decide)
  refine ⟨fun b i n h => ?_, congrArg _ hbelay⟩
  unfold hget at h ⊢
  rw [hhdr]
  exact h

section
variable {s t u : State}

/-- An update of neither headers nor the heads of the twin. -/
theorem Steady.upd (h : Steady s t) (hh : u.hdr = t.hdr) (hb : u.belay.twinHeads = t.belay.twinHeads) : Steady s u := by
  refine h.trans ⟨fun b i n hn => ?_, hb⟩
  unfold hget at hn ⊢
  rw [hh]
  exact hn

/-- An operation whose kinds are outside both. -/
theorem Steady.leaf (m : Moves steadySet t t → Moves steadySet t u) (h : Steady s t) : Steady s u := h.trans (m (.refl _ t)).steady

theorem Steady.ite {a b : State} {c : Prop} [Decidable c] (ha : Steady s a) (hb : Steady s b) : Steady s (if c then a else b) := by
  split
  · exact ha
  · exact hb

theorem Steady.foldl {α : Type} {f : State → α → State} (hf : ∀ u x, Steady s u → Steady s (f u x)) (l : List α)
    (h : Steady s t) : Steady s (l.foldl f t) := foldl_keeps (P := Steady s) l (fun u x _ hu => hf u x hu) h

/-- The first part of a result that is taken apart. -/
theorem Steady.pair {α : Type} {x : State × α} (h : Steady s x.1) {u : State} {a : α} (e : x = (u, a)) : Steady s u := by
  rw [e] at h
  exact h

theorem emit_steady {m : Msg} (h : Steady s t) : Steady s (emit t m) := h.upd rfl rfl

theorem fset_steady {f : Fld} {v i j : Nat} (h : Steady s t) : Steady s (fset t f v i j) := h.upd rfl rfl

theorem finc_steady {f : Fld} {i j : Nat} (h : Steady s t) : Steady s (finc t f i j) := h.upd rfl rfl

theorem fwrap_steady {f : Fld} {i j : Nat} (h : Steady s t) : Steady s (fwrap t f i j) := h.upd rfl rfl

theorem pcUpd_steady {pc : Nat} {g : PcState → PcState} (h : Steady s t) : Steady s (pcUpd t pc g) := h.upd rfl rfl

theorem ringUpd_steady {p k : Nat} {g : RingState → RingState} (h : Steady s t) : Steady s (ringUpd t p k g) := h.upd rfl rfl

theorem partUpd_steady {p : Nat} {g : PartState → PartState} (h : Steady s t) : Steady s (partUpd t p g) := h.upd rfl rfl

/-- A header keeps its event bits where its other fields change. -/
theorem hupd_steady {b : Blk} {i : Nat} {g : Hdr → Hdr} (hg : ∀ x, (g x).evtStatus = x.evtStatus) (h : Steady s t) :
    Steady s (hupd t b i g) := by
  refine h.trans ⟨fun c k n hn => ?_, rfl⟩
  by_cases hc : c = b ∧ k = i
  · obtain ⟨rfl, rfl⟩ := hc
    rw [hget_hupd_self, hg]
    exact hn
  · rw [hget_hupd_ne _ _ (by tauto)]
    exact hn

theorem ras_steady (x : RasState) (h : Steady s t) : Steady s { t with ras := x } := h.upd rfl rfl

theorem damaged_steady (x : Assoc Nat Nat) (h : Steady s t) : Steady s { t with damaged := x } := h.upd rfl rfl

theorem frames_steady (x : List Frame) (h : Steady s t) : Steady s { t with frames := x } := h.upd rfl rfl

theorem hints_steady (x : Assoc Nat (List HintEntry)) (h : Steady s t) : Steady s { t with hints := x } := h.upd rfl rfl

theorem fmLog_steady (x : List Notify) (h : Steady s t) : Steady s { t with fmLog := x } := h.upd rfl rfl

theorem hdms_steady (x : Assoc Nat Hdm) (h : Steady s t) : Steady s { t with hdms := x } := h.upd rfl rfl

/-! ### Events and records -/

theorem raise_steady {e : Evt} {i : Nat} {p : Option Nat} {pl : List Byte} {src : Option Nat} {sev : Option Sev}
    (h : Steady s t) : Steady s (raise t e i p pl src sev) := by
  have hbelay : (raise t e i p pl src sev).belay = t.belay := (raise_moves (F := 1037) rfl (.refl _ t)).frame .pair (by decide)
  exact h.trans ⟨fun b k n hn => raise_mono _ _ _ _ _ _ _ _ _ _ hn, congrArg _ hbelay⟩

theorem record_steady {r : Rec} {i : Nat} {p : Option Nat} {pl : List Byte} (h : Steady s t) : Steady s (record t r i p pl) := by
  have hbelay : (record t r i p pl).belay = t.belay := (record_moves (F := 1037) rfl (.refl _ t)).frame .pair (by decide)
  have hstage : ∀ (c : CRec) b k n, (hget t b k).evtStatus.getLsbD n = true →
      (hget (stageRec t c).1 b k).evtStatus.getLsbD n = true := fun c b k n hn => by
    unfold hget at hn ⊢
    rw [stageRec_hdr]
    exact hn
  refine h.trans ⟨fun b k n hn => ?_, congrArg _ hbelay⟩
  unfold record
  dsimp only
  split
  · exact noteOverflow_mono (stageRec t _) b k n (hstage _ b k n hn)
  · exact hn

theorem listChange_steady {ps : List Nat} (h : Steady s t) : Steady s (listChange t ps) :=
  .foldl (fun _ _ hu => raise_steady (fwrap_steady hu)) _ h

/-! ### The journal and the directory (12 R274; 04 R84) -/

theorem journalSend_steady {b : JBody} (h : Steady s t) : Steady s (journalSend t b) := h.upd rfl rfl

theorem dirTell_steady {v : State} {line : Nat} (h : Steady s t) : Steady s (dirTell v t line) := .ite (journalSend_steady h) h

theorem dirDrop_steady {line : Nat} (h : Steady s t) : Steady s (dirDrop t line) := dirTell_steady (h.upd rfl rfl)

theorem dirPut_steady {d : DirEntry} (h : Steady s t) : Steady s (dirPut t d) := dirTell_steady (h.upd rfl rfl)

theorem dirSet_steady {d : DirEntry} (h : Steady s t) : Steady s (dirSet t d) := dirTell_steady (h.upd rfl rfl)

theorem forgetOn_steady {line : Nat} {gone : Nat → Bool} (h : Steady s t) : Steady s (forgetOn t line gone) := by
  unfold forgetOn
  split
  · split
    · exact .ite h (dirSet_steady h)
    · exact dirDrop_steady h
  · exact h

theorem forgetSharers_steady {gone : Nat → Bool} (h : Steady s t) : Steady s (forgetSharers t gone) :=
  .foldl (fun _ _ hu => forgetOn_steady hu) _ h

theorem snoop_steady {x : DirTrans} (h : Steady s t) : Steady s (snoop t x) := .leaf (snoop_moves rfl) h

theorem makeEntryRoom_steady {line : Nat} (h : Steady s t) : Steady s (makeEntryRoom t line) := by
  unfold makeEntryRoom
  refine .ite h ?_
  split
  · exact snoop_steady (finc_steady (dirDrop_steady h))
  · exact h

theorem install_steady {line : Nat} {exclusive : Bool} {shs : List Nat} (h : Steady s t) :
    Steady s (install t line exclusive shs) := dirPut_steady (makeEntryRoom_steady h)

theorem shareLine_steady {line sh : Nat} (h : Steady s t) : Steady s (shareLine t line sh) := by
  unfold shareLine
  split
  · exact dirPut_steady h
  · exact install_steady h

theorem useEntry_steady {line : Nat} (h : Steady s t) : Steady s (useEntry t line) := by
  unfold useEntry
  split
  · exact dirPut_steady h
  · exact h

theorem settle_steady {r : Req} {pub snooped : Bool} {kS kE : List Nat} (h : Steady s t) :
    Steady s (settle t r pub snooped kS kE) := by
  unfold settle
  dsimp only
  split
  · split
    · refine .ite (install_steady h) (.ite (install_steady h) ?_)
      split
      · exact .ite (useEntry_steady h) (shareLine_steady h)
      · exact shareLine_steady h
    · refine .ite ?_ (useEntry_steady h)
      split
      · exact install_steady h
      · exact install_steady h
      · exact dirDrop_steady h
  · split
    · exact .ite (install_steady h) (dirDrop_steady h)
    · exact dirDrop_steady h

/-! ### Extents (03 R67, R68) -/

theorem finishRemoval_steady {base p : Nat} (h : Steady s t) : Steady s (finishRemoval t base p) := by
  unfold finishRemoval
  split
  · have hmap : ∀ g, Steady s (extMap t base g) := fun g => .leaf (extMap_moves rfl) h
    exact .ite (listChange_steady (.ite (.leaf (toSanitising_moves rfl) (hmap _)) (hmap _))) h
  · exact h

/-! ### Lines and blocks (11 R240; 06 R127) -/

theorem heal_steady {line : Nat} (h : Steady s t) : Steady s (heal t line) := .ite (h.upd rfl rfl) h

theorem putLine_steady {line : Nat} {d : Line} (h : Steady s t) : Steady s (putLine t line d) := heal_steady (h.upd rfl rfl)

theorem cells_steady (m : List Host.Cell) (po : List Nat) (da : List (Nat × Nat × Byte)) (h : Steady s t) :
    Steady s { t with mem := m, poison := po, damage := da } := h.upd rfl rfl

theorem putBlock_steady {b : Nat} {bs : List Byte} (h : Steady s t) : Steady s (putBlock t b bs) := by
  unfold putBlock
  exact cells_steady _ _ _ (.foldl (fun _ _ hu => heal_steady hu) _ h)

theorem blocks_steady (fr : List Frame) (ix : Assoc Nat IdxEntry) (cq st : List Nat) (da : Assoc Nat Nat) (h : Steady s t) :
    Steady s { t with frames := fr, index := ix, compactQ := cq, stale := st, damaged := da } := h.upd rfl rfl

theorem freeFrame_steady {b : Nat} (h : Steady s t) : Steady s (freeFrame t b) := by
  unfold freeFrame
  exact blocks_steady _ _ _ _ _ (.leaf (uncache_moves rfl) (putBlock_steady h))

theorem makeRoom_steady {n b : Nat} (h : Steady s t) : Steady s (makeRoom n t b) := by
  induction n generalizing t with
  | zero => exact h
  | succ n ih =>
    unfold makeRoom
    refine .ite h ?_
    split
    · exact ih (freeFrame_steady h)
    · exact h

theorem takePlace_steady {b taker : Nat} (h : Steady s t) : Steady s (takePlace t b taker).1 := by
  unfold takePlace
  split
  · exact makeRoom_steady h
  · exact h

theorem poisonBlock_steady {b : Nat} (h : Steady s t) : Steady s (poisonBlock t b) := by
  unfold poisonBlock
  exact cells_steady _ _ _ (putBlock_steady h)

theorem expandRoom_steady {b : Nat} (h : Steady s t) : Steady s (expandRoom t b).1 := by
  unfold expandRoom
  split
  · split
    · exact h
    · have hplace := takePlace_steady (b := b) (taker := 0) h
      split
      · next e => exact .leaf (frameMap_moves rfl) (hplace.pair e)
      · next e => exact hplace.pair e
  · exact h

theorem rawBlock_steady {b : Nat} {bs : List Byte} (h : Steady s t) : Steady s (rawBlock t b bs) :=
  .leaf (dirtied_moves rfl) (putBlock_steady (.leaf (makeRaw_moves rfl) h))

theorem dropBlock_steady {b : Nat} (h : Steady s t) : Steady s (dropBlock t b) := by
  have hfree : Steady s (freeFrame (leaveSegment t b) b) := freeFrame_steady (.leaf (leaveSegment_moves rfl) h)
  unfold dropBlock
  exact .ite (.leaf (lockMap_moves rfl) hfree) (.leaf (deallocateBlock_moves rfl) hfree)

theorem poisonedFrame_steady {b cls : Nat} (h : Steady s t) : Steady s (poisonedFrame t b cls) := by
  have hplace := takePlace_steady (b := b) (taker := 0) h
  unfold poisonedFrame
  exact .leaf (setLba_moves rfl) (poisonBlock_steady (hplace.upd rfl rfl))

theorem freezePc_steady {pc cause : Nat} {l : Loc} (h : Steady s t) : Steady s (freezePc t pc cause l) := by
  unfold freezePc
  refine .ite h (.ite (finc_steady h) ?_)
  have hretrain : ∀ g, Steady s (if (pcOf t pc).retraining then raise (pcUpd t pc g) .pcTrainAborted pc else t) := fun g =>
    .ite (raise_steady (pcUpd_steady h)) h
  have hfrozen : ∀ g, Steady s (pcUpd (hupd (setFreezeInfo (setPcSt (if (pcOf t pc).retraining then
      raise (pcUpd t pc fun st => { st with retraining := false, retrainDue := true }) .pcTrainAborted pc else t) pc pcFrozen)
        pc cause l) .pc pc fun h => { h with frozen := true }) pc g) := fun g =>
    pcUpd_steady (hupd_steady (fun _ => rfl) (.leaf (setFreezeInfo_moves rfl) (.leaf (setPcSt_moves rfl) (hretrain _))))
  exact .ite (raise_steady (raise_steady (hfrozen _))) (raise_steady (hfrozen _))

theorem readLine_steady {line src : Nat} {upset : Upset} (h : Steady s t) : Steady s (readLine t line upset src).1 := by
  unfold readLine
  dsimp only
  have hdamage : ∀ d, Steady s { t with damage := d } := fun _ => h.upd rfl rfl
  split <;> dsimp only
  · exact hdamage _
  · exact raise_steady (.leaf (writeBackLine_moves rfl) (ras_steady _ (finc_steady (putLine_steady (hdamage _)))))
  · exact raise_steady (finc_steady (hdamage _))
  · exact freezePc_steady (raise_steady (.leaf (setLastUe_moves rfl) (finc_steady (hdamage _))))

theorem damageBlock_steady {b cause : Nat} (h : Steady s t) : Steady s (damageBlock t b cause) := by
  unfold damageBlock
  exact raise_steady (damaged_steady _ (fset_steady (fset_steady (fset_steady (fset_steady (finc_steady h))))))

theorem readForm_steady {b clen src : Nat} (h : Steady s t) : Steady s (readForm t b clen src).1 := by
  unfold readForm
  refine foldl_keeps (P := fun x : State × Bool => Steady s x.1) _ (fun x i _ hx => ?_) h
  dsimp only
  split
  · exact readLine_steady hx
  · exact readLine_steady hx
  · exact readLine_steady hx

theorem decodeBlock_steady {b src : Nat} (h : Steady s t) : Steady s (decodeBlock t b src).1 := by
  unfold decodeBlock
  dsimp only
  have hread : Steady s (if idxOk (idxOf t b) (localOf b) = true then readForm t b (idxOf t b).clen src else (t, true)).1 := by
    split
    · exact readForm_steady h
    · exact h
  split
  · exact .leaf (expanded_moves rfl) hread
  · exact damageBlock_steady hread

theorem codedBytes_steady {b cls src : Nat} (h : Steady s t) : Steady s (codedBytes t b cls src).1 := by
  unfold codedBytes
  split
  · exact .leaf (cacheHit_moves rfl) h
  · dsimp only
    split
    · exact .leaf (cachePut_moves rfl) (decodeBlock_steady h)
    · exact decodeBlock_steady h

theorem discardPartial_steady {p : Part} (h : Steady s t) : Steady s (discardPartial t p) := record_steady h

theorem mergeOne_steady {r : Req} {upset : Upset} (h : Steady s t) : Steady s (mergeOne t r upset) := by
  unfold mergeOne
  dsimp only
  have hread : ∀ g, Steady s (readLine (pcUpd t (pcOfAddr r.dpa) g) (lineOf r.dpa) upset 0).1 := fun _ =>
    readLine_steady (pcUpd_steady h)
  split
  · exact putLine_steady (hread _)
  · exact putLine_steady (hread _)
  · exact discardPartial_steady (hread _)
  · exact .ite (pcUpd_steady (hread _)) (discardPartial_steady (pcUpd_steady (hread _)))

theorem mergeLineAll_steady {line : Nat} {upset : Upset} (h : Steady s t) : Steady s (mergeLineAll t line upset) := by
  unfold mergeLineAll
  dsimp only
  split
  · exact h
  · exact .foldl (fun _ _ hu => mergeOne_steady hu) _ (mergeOne_steady h)

theorem copyBlock_steady {b : Nat} (h : Steady s t) : Steady s (copyBlock t b).1 := by
  unfold copyBlock
  split
  · split
    · next e => exact (decodeBlock_steady h).pair e
    · next e => exact (decodeBlock_steady h).pair e
  · exact h

theorem draftBlock_steady {x : Extent} {b : Nat} (h : Steady s t) : Steady s (draftBlock t x b) := by
  unfold draftBlock
  split
  · split
    · exact .ite h (.leaf (snapMap_moves rfl) (copyBlock_steady h))
    · exact h
  · exact h

theorem draftWrite_steady {e : Extent} {dpa : Nat} {d : Line} {mask : BitVec 64} (h : Steady s t) :
    Steady s (draftWrite t e dpa d mask) := .leaf (snapMap_moves rfl) (draftBlock_steady h)

/-! ### Answers (01 R15) -/

theorem answer_steady {r : Req} {res : MemRes} {gme : Bool} (h : Steady s t) : Steady s (answer t r res gme) :=
  .leaf (answer_moves rfl) h

theorem twinAccept_steady {r : Req} {id : Nat} (h : Steady s t) : Steady s (twinAccept t r id) := by
  unfold twinAccept
  split
  · exact answer_steady (answer_steady (h.upd rfl rfl))
  · exact answer_steady h

theorem acceptDone_steady {r : Req} (h : Steady s t) : Steady s (acceptDone t r) := by
  unfold acceptDone
  have hseen : Steady s (if fget t .belayStatusState = 4 ∨ fget t .belayStatusModeActive = 2 ∧ paired t then
      { t with belay := { t.belay with changed := ins t.belay.changed (segmentOf r.dpa) } } else t) :=
    .ite (h.upd rfl rfl) h
  dsimp only
  split
  · exact twinAccept_steady hseen
  · exact .ite (emit_steady hseen) (answer_steady hseen)
  · exact answer_steady hseen
  · exact .ite (emit_steady (hseen.upd rfl rfl)) (answer_steady hseen)

theorem forwardReq_steady {r : Req} {upset : Upset} (h : Steady s t) : Steady s (forwardReq t r upset) := by
  unfold forwardReq
  dsimp only
  split
  · exact h.upd rfl rfl
  · exact h.upd rfl rfl
  · exact h.upd rfl rfl

/-! ### Reads and writes of lines (08 R186; 04 R93) -/

theorem readData_steady {p : Part} {dpa src : Nat} {upset : Upset} {ver : Option Nat} (h : Steady s t) :
    Steady s (readData t p dpa upset src ver).1 := by
  unfold readData
  dsimp only
  split
  · exact h
  · split
    · split
      · exact codedBytes_steady h
      · exact codedBytes_steady h
    · have hread : ∀ x, Steady s (readLine (mergeLineAll t (lineOf dpa) upset) (lineOf dpa) x src).1 := fun _ =>
        readLine_steady (mergeLineAll_steady h)
      split <;> dsimp only
      · exact hread _
      · exact .leaf (mediaEvent_moves rfl) (hread _)
      · exact hread _
      · exact hread _

theorem applyWrite_steady {r : Req} (h : Steady s t) : Steady s (applyWrite t r) := by
  unfold applyWrite
  dsimp only
  split
  · exact draftWrite_steady h
  · exact .leaf (noteWrite_moves rfl) (.ite (putLine_steady (pcUpd_steady h)) (pcUpd_steady h))

theorem answerLines_steady {rs : List Req} {bs : List Byte} (h : Steady s t) : Steady s (answerLines t rs bs) :=
  .foldl (fun _ _ hu => answer_steady hu) _ h

theorem soloDamaged_steady {r : Req} (h : Steady s t) : Steady s (soloDamaged t r) := by
  unfold soloDamaged
  exact .ite (answer_steady h) (acceptDone_steady (applyWrite_steady (poisonBlock_steady (rawBlock_steady h))))

theorem damagedReq_steady {r : Req} (h : Steady s t) : Steady s (damagedReq t r) := by
  unfold damagedReq
  exact .ite (.leaf (awaitTwin_moves rfl) h) (soloDamaged_steady h)

theorem expandedWrite_steady {r : Req} (h : Steady s t) : Steady s (expandedWrite t r) := by
  unfold expandedWrite
  dsimp only
  refine .ite (.leaf (awaitTwin_moves rfl) h) ?_
  have hroom := expandRoom_steady (b := blockOf r.dpa) h
  split
  next u e => exact .leaf (frameMap_moves rfl) (hroom.pair e)
  next u e =>
    have hread := decodeBlock_steady (b := blockOf r.dpa) (src := 3) (hroom.pair e)
    split
    next v bs x y e' =>
      exact acceptDone_steady (applyWrite_steady (rawBlock_steady
        (answerLines_steady (.leaf (expTake_moves rfl) (hread.pair e')))))
    next v c e' => exact damagedReq_steady (hread.pair e')

theorem readerWrite_steady {p : Nat} (h : Steady s t) : Steady s (readerWrite t p) := raise_steady h

theorem serveWrite_steady {r : Req} (h : Steady s t) : Steady s (serveWrite t r) := by
  unfold serveWrite
  dsimp only
  split
  · have hdenied : Steady s (answer (readerWrite t r.p) r .cmp) := answer_steady (readerWrite_steady h)
    refine .ite (acceptDone_steady (applyWrite_steady h)) ?_
    split
    · exact .leaf (failJob_moves rfl) hdenied
    · exact hdenied
  · exact .ite (expandedWrite_steady h) (acceptDone_steady (applyWrite_steady h))

theorem expandedRead_steady {r : Req} (h : Steady s t) : Steady s (expandedRead t r) := by
  unfold expandedRead
  dsimp only
  refine .ite (.leaf (awaitTwin_moves rfl) h) ?_
  split
  · exact answerLines_steady (.leaf (cacheHit_moves rfl) h)
  · exact .leaf (expUpd_moves rfl) h

theorem serveRead_steady {r : Req} {upset : Upset} (h : Steady s t) : Steady s (serveRead t r upset) := by
  unfold serveRead
  dsimp only
  refine .ite (expandedRead_steady h) ?_
  split
  · exact answer_steady (readData_steady h)
  · exact .ite (forwardReq_steady (readData_steady h)) (answer_steady (readData_steady h))

/-! ### Requests at their home (10 R213; 08 R200) -/

theorem qosMove_steady {c bytes : Nat} {part cls coded : Option Nat} {write : Bool} (h : Steady s t) :
    Steady s (qosMove t c part cls bytes write coded) := by
  unfold qosMove
  extract_lets count src u
  have hcount : ∀ v i, Steady s v → Steady s (count v i) := fun v i hv => by
    dsimp only [count]
    split
    · exact hv.upd rfl rfl
    · exact hv.upd rfl rfl
  have hu : Steady s u := by
    dsimp only [u]
    split
    · exact hcount _ _ (h.upd rfl rfl)
    · exact h
  split
  · exact hu
  · exact .ite (raise_steady (hcount _ _ (hu.upd rfl rfl))) (hcount _ _ (hu.upd rfl rfl))

theorem moveBytes_steady {r : Req} {write : Bool} (h : Steady s t) : Steady s (moveBytes t r write) := by
  unfold moveBytes
  exact .ite (qosMove_steady h) (qosMove_steady h)

theorem perform_steady {r : Req} {upset : Upset} (h : Steady s t) : Steady s (perform t r upset) := by
  unfold perform
  dsimp only
  have hmoved : Steady s (moveBytes (enqueue (hintOf t r).2 (pcOfAddr r.dpa) (decide (noService r = .cmp)) r.dpa
      (reqLevel (hintOf t r).2 r) (some r.p.val) (reqClass (hintOf t r).2 r) (hintOf t r).1) r (decide (noService r = .cmp))) :=
    moveBytes_steady (.leaf (enqueue_moves rfl) (.leaf (hintOf_moves rfl) h))
  refine .ite (serveWrite_steady hmoved) ?_
  split
  · exact answer_steady hmoved
  · exact answer_steady hmoved
  · exact answer_steady hmoved
  · exact serveRead_steady hmoved

theorem loseReq_steady {r : Req} {isLost : Bool} (h : Steady s t) : Steady s (loseReq t r isLost) := .leaf (loseReq_moves rfl) h

theorem coverReq_steady {r : Req} {upset : Upset} {isLost : Bool} (h : Steady s t) : Steady s (coverReq t r upset isLost) := by
  unfold coverReq
  dsimp only
  have hdrop : ∀ g, Steady s (if (decide (noService r = .cmp) && !isLost) = true then pcUpd t (pcOfAddr r.dpa) g else t) :=
    fun _ => .ite (pcUpd_steady h) h
  split
  · exact twinAccept_steady (hdrop _)
  · exact .ite (loseReq_steady (hdrop _)) (.leaf (holdReq_moves rfl) (hdrop _))
  · exact forwardReq_steady (hdrop _)

theorem homeReq_steady {r : Req} {upset : Upset} (h : Steady s t) : Steady s (homeReq t r upset) := by
  unfold homeReq
  dsimp only
  have hoffer : ∀ c p, Steady s (qosOffer t c p 64) := fun _ _ => .leaf (qosOffer_moves rfl) h
  have hhold : ∀ c p q, Steady s (holdReq (qosOffer t c p 64) q) := fun _ _ _ => .leaf (holdReq_moves rfl) (hoffer _ _)
  split
  · exact .ite (perform_steady (hoffer _ _)) (hhold _ _ _)
  · exact .ite (coverReq_steady (hoffer _ _)) (hhold _ _ _)
  · exact loseReq_steady (hoffer _ _)
  · exact .ite (coverReq_steady (hoffer _ _)) (loseReq_steady (hoffer _ _))

/-! ### Frames and fills (05 R101 to R111) -/

theorem pinByPolicy_steady {b : Nat} (h : Steady s t) : Steady s (pinByPolicy t b) := by
  unfold pinByPolicy
  have hmap : ∀ g, Steady s (frameMap t b g) := fun _ => .leaf (frameMap_moves rfl) h
  split
  · exact .ite (hmap _) (.ite (hmap _) (raise_steady h))
  · exact hmap _

theorem startFill_steady {b cls : Nat} {part : Option Nat} {waiters : List Req} (h : Steady s t) :
    Steady s (startFill t b cls part waiters) := by
  cases part with
  | none => exact pinByPolicy_steady (h.upd rfl rfl)
  | some p => exact pinByPolicy_steady (h.upd rfl rfl)

theorem idxFilled_steady {b : Nat} {bs : List Byte} (h : Steady s t) : Steady s (idxFilled t b bs) := by
  unfold idxFilled
  have hform : ∀ n, Steady s (idxOfHeader (packFrame t b n) b bs) := fun _ =>
    .leaf (idxOfHeader_moves rfl) (.leaf (packFrame_moves rfl) h)
  exact .ite (.ite (damageBlock_steady (hform _)) (hform _)) (.ite (damageBlock_steady h) h)

theorem serveWaiters_steady {b : Nat} {rs : List Req} {fresh : Frame} (h : Steady s t) :
    Steady s (serveWaiters t b rs fresh) := by
  induction rs generalizing t with
  | nil => exact h
  | cons r rest ih =>
    have hdrop := dropBlock_steady (b := b) h
    unfold serveWaiters
    exact .ite (.ite hdrop (ih (frames_steady _ hdrop))) (ih (homeReq_steady h))

theorem fillDone_steady {b : Nat} (h : Steady s t) : Steady s (fillDone t b) := by
  unfold fillDone
  split
  · refine .ite (serveWaiters_steady (idxFilled_steady ?_)) h
    exact .leaf (frameMap_moves rfl) (putBlock_steady (.leaf (slowFill_moves rfl) (.leaf (endIos_moves rfl) h)))
  · exact h

theorem advanceFill_steady {b : Nat} (h : Steady s t) : Steady s (advanceFill t b) := by
  unfold advanceFill
  split
  next f _ =>
    refine .ite ?_ h
    split
    next u ok e =>
      have hu : Steady s u := by
        split at e
        · cases e
          exact h
        · have hplace := takePlace_steady (b := b) (taker := takerOf t f) h
          split at e
          · next e' =>
            cases e
            exact .leaf (frameMap_moves rfl) (hplace.pair e')
          · next e' =>
            cases e
            exact hplace.pair e'
      exact .ite hu (.ite (fillDone_steady hu) (.ite (.leaf (issueFill_moves rfl) hu) hu))
  · exact h

theorem tierReq_steady {r : Req} {upset : Upset} (h : Steady s t) : Steady s (tierReq t r upset) := by
  unfold tierReq
  dsimp only
  refine .ite (homeReq_steady h) ?_
  have hmap : ∀ b g, Steady s (frameMap t b g) := fun _ _ => .leaf (frameMap_moves rfl) h
  split
  · exact .ite (advanceFill_steady (hmap _ _)) (.ite (hmap _ _) (homeReq_steady (hmap _ _)))
  · refine .ite (.ite (forwardReq_steady h) (.ite ?_ (answer_steady h))) (advanceFill_steady (startFill_steady h))
    exact .ite (homeReq_steady (poisonedFrame_steady h)) (answer_steady (record_steady h))

/-! ### The end of sharers (04 R84 to R89) -/

theorem dirServe_steady {r : Req} {upset : Upset} (h : Steady s t) : Steady s (dirServe t r upset) := by
  unfold dirServe
  exact .ite (answer_steady (readerWrite_steady h)) (.ite (tierReq_steady (settle_steady h)) (snoop_steady h))

theorem victimWait_steady (h : Steady s t) : Steady s (victimWait t) := raise_steady (finc_steady h)

theorem drainLine_steady {n line : Nat} (h : Steady s t) : Steady s (drainLine n t line) := by
  induction n generalizing t with
  | zero => exact h
  | succ n ih =>
    unfold drainLine
    refine .ite h ?_
    split
    · exact .ite h (ih (dirServe_steady (h.upd rfl rfl)))
    · exact h

theorem drainSlice_steady {slice : Nat} (h : Steady s t) : Steady s (drainSlice t slice) :=
  .foldl (fun _ _ hu => drainLine_steady hu) _ h

theorem finishTrans_steady {x : DirTrans} (h : Steady s t) : Steady s (finishTrans t x) := by
  unfold finishTrans
  refine .ite h ?_
  dsimp only
  split
  · exact tierReq_steady (settle_steady (forgetOn_steady h))
  · exact forgetOn_steady h

theorem lineDone_steady {line : Nat} (h : Steady s t) : Steady s (lineDone t line) := by
  unfold lineDone
  refine .ite ?_ h
  have hdrained : ∀ (l x : List DirTrans) n, Steady s (drainLine n (l.foldl finishTrans { t with trans := x }) line) :=
    fun l _ _ => drainLine_steady (.foldl (fun _ _ hu => finishTrans_steady hu) l (h.upd rfl rfl))
  exact .ite (drainSlice_steady (.ite (victimWait_steady (hdrained _ _ _)) (hdrained _ _ _)))
    (.ite (victimWait_steady (hdrained _ _ _)) (hdrained _ _ _))

theorem leaveDone_steady {line sh : Nat} (h : Steady s t) : Steady s (leaveDone t line sh) := by
  unfold leaveDone
  split
  · exact .ite (finishRemoval_steady h) h
  · exact h

theorem biAnswer_steady {line sh : Nat} {resp : BiResp} (h : Steady s t) : Steady s (biAnswer t line sh resp) := by
  unfold biAnswer
  split
  next x _ =>
    have htold : ∀ l, Steady s (if x.forTwin = true then emit { t with trans := l } (.belay 1 (.forward (.snooped line sh resp)))
        else { t with trans := l }) := fun _ => .ite (emit_steady (h.upd rfl rfl)) (h.upd rfl rfl)
    refine lineDone_steady (leaveDone_steady (.ite (forgetOn_steady (htold _)) (.ite ?_ (htold _))))
    split
    · exact dirSet_steady (htold _)
    · exact htold _
  · exact .ite (finc_steady h) h

theorem answerAll_steady {gone : Nat → Bool} (h : Steady s t) : Steady s (answerAll t gone) :=
  .foldl (fun _ _ hu => biAnswer_steady hu) _ h

theorem dropSharers_steady {gone : Nat → Bool} (h : Steady s t) : Steady s (dropSharers t gone) :=
  answerAll_steady (forgetSharers_steady h)

/-! ### The end of work (07 R168) -/

theorem haltRing_steady {p k cause status : Nat} (h : Steady s t) : Steady s (haltRing t p k cause status) := by
  unfold haltRing
  exact raise_steady (fset_steady (fset_steady (fset_steady (fset_steady h))))

theorem haltHint_steady {p cause status : Nat} (h : Steady s t) : Steady s (haltHint t p cause status) := by
  unfold haltHint
  exact raise_steady (fset_steady (fset_steady (fset_steady (hints_steady _ h))))

theorem endWork_steady {p : Part} {cause status : Nat} (h : Steady s t) : Steady s (endWork t p cause status) := by
  unfold endWork
  have hrings : ∀ l : List Ring, Steady s (l.foldl (fun s (k : Ring) =>
      if fget s .jobRingCtrlEnable p k = 1 ∧ (!ringHalted s p k || !(ringJobs s p k).isEmpty) then
        haltRing (ringUpd s p k fun r => { r with fetching := false }) p k cause status
      else s) t) := fun l => .foldl (fun _ _ hu => .ite (haltRing_steady (ringUpd_steady hu)) hu) l h
  have hjobs : ∀ (l : List Job) u, Steady s u → Steady s (l.foldl (fun s j => endJob s j status) u) := fun l u hu =>
    .foldl (fun _ _ hv => .leaf (endJob_moves rfl) hv) l hu
  refine .leaf (discardTags_moves rfl) (.ite (haltHint_steady ?_) ?_)
  · exact hjobs _ _ (hrings _)
  · exact hjobs _ _ (hrings _)

end

end Sys2Proof.Machine
end

section
/-! PROOF. What a renewal, an expired lease and a binding do to a partition (O52). -/

namespace Sys2Proof.Machine

open Sys2Proof

/-! ### Holdings that are not served (03 R64, R72) -/

theorem holderSt_setHolder_self (e : Extent) (p : Nat) (st : ExtState) :
    holderSt (setHolder e p st) p = (holderSt e p).map fun _ => st := by
  unfold holderSt setHolder
  dsimp only
  rw [List.find?_map, Option.map_map, Option.map_map]
  have hfind : ((fun h : Holder => decide (h.p.val = p)) ∘ fun h => if h.p.val = p then { h with st := st } else h) =
      fun h => decide (h.p.val = p) := funext fun h => by
    rw [Function.comp_apply]
    split <;> rfl
  rw [hfind]
  refine Option.map_congr fun h hh => ?_
  have hp : h.p.val = p := by simpa using List.find?_some hh
  simp [hp]

theorem holderSt_dropHolder (e : Extent) (p q : Nat) :
    holderSt (dropHolder e q) p = if p = q then none else holderSt e p := by
  unfold holderSt dropHolder
  dsimp only
  rw [List.find?_filter]
  split
  · next h =>
    subst h
    simp
  · next h =>
    refine congrArg _ (congrArg (List.find? · e.holders) (funext fun x => ?_))
    by_cases hx : x.p.val = p
    · simp [hx, h]
    · simp [hx]

/-- An extent is served only where its state says so. -/
theorem served_iff (e : Extent) (p : Nat) :
    served e p = true ↔ e.sanitising = false ∧ (holderSt e p = some .active ∨ holderSt e p = some .releasePending) := by
  unfold served
  rw [Bool.and_eq_true, Bool.not_eq_true']
  refine and_congr_right fun _ => ?_
  split <;> simp_all

/-- None of a partition's holdings is served. -/
def Unserved (t : State) (p : Nat) : Prop := ∀ e ∈ t.exts, served e p = false

/-- One holding of those that an expired lease turns. -/
def reclaimOne (p : Nat) (s : State) (e : Extent) : State :=
  match holderSt e p with
  | some st => if st ∈ [ExtState.active, .releasePending] then
      listChange (extMap s e.base fun e => setHolder e p .reclaimable) [p] else s
  | none => s

theorem turnHoldings_reclaim (s : State) (p : Nat) :
    turnHoldings s p [.active, .releasePending] .reclaimable = (extsOf s p).foldl (reclaimOne p) s := rfl

section
variable {s t : State} {p : Nat} {e : Extent}

theorem Unserved.of_exts (h : Unserved s p) (k : t.exts = s.exts) : Unserved t p := fun e he => h e (k ▸ he)

theorem Unserved.of_moves {F : Nat} (m : Moves F s t) (hF : F.testBit Kind.extents.num = false) (h : Unserved s p) :
    Unserved t p := h.of_exts (m.exts_eq hF)

theorem reclaimOne_exts_hit (s : State) (h : served e p = true) :
    (reclaimOne p s e).exts = s.exts.map fun x => if x.base = e.base then setHolder x p .reclaimable else x := by
  obtain ⟨-, h | h⟩ := (served_iff e p).mp h <;>
  · unfold reclaimOne
    rw [h]
    dsimp only
    rw [if_pos (by simp), listChange_exts]
    rfl

theorem setHolder_reclaimable_unserved (e : Extent) (p : Nat) : served (setHolder e p .reclaimable) p = false := by
  rw [← Bool.not_eq_true, served_iff, holderSt_setHolder_self]
  cases holderSt e p <;> simp

/-- The holding of an extent that is not listed as served is as it was, or reclaimable. -/
theorem reclaimOne_exts (s : State) (p : Nat) (e : Extent) : ∀ x ∈ (reclaimOne p s e).exts, served x p = true → x ∈ s.exts := by
  intro x hx hs
  unfold reclaimOne at hx
  split at hx
  · split at hx
    · rw [listChange_exts] at hx
      obtain ⟨y, hy, rfl⟩ := List.mem_map.mp hx
      dsimp only at hs ⊢
      split at hs
      · rw [setHolder_reclaimable_unserved] at hs
        cases hs
      · next hb =>
        rw [if_neg hb]
        exact hy
    · exact hx
  · exact hx

end

/-- Each holding that is served is that of an extent at the base of one that is listed. -/
theorem foldl_reclaimOne_unserved (p : Nat) (l : List Extent) (s : State)
    (h : ∀ e ∈ s.exts, served e p = true → e ∈ l) : Unserved (l.foldl (reclaimOne p) s) p := by
  induction l generalizing s with
  | nil => exact fun e he => Bool.eq_false_iff.mpr fun hs => absurd (h e he hs) (by simp)
  | cons x l ih =>
    refine ih (reclaimOne p s x) fun e he hs => ?_
    have hold := reclaimOne_exts s p x e he hs
    rcases List.mem_cons.mp (h e hold hs) with rfl | hl
    · rw [reclaimOne_exts_hit s hs] at he
      obtain ⟨y, -, hy⟩ := List.mem_map.mp he
      by_cases hb : y.base = e.base
      · rw [if_pos hb] at hy
        rw [← hy, setHolder_reclaimable_unserved] at hs
        cases hs
      · rw [if_neg hb] at hy
        exact absurd (congrArg Extent.base hy) hb
    · exact hl

theorem turnHoldings_unserved (s : State) (p : Nat) :
    Unserved (turnHoldings s p [.active, .releasePending] .reclaimable) p := by
  rw [turnHoldings_reclaim]
  refine foldl_reclaimOne_unserved p _ s fun e he hs => List.mem_filter.mpr ⟨he, ?_⟩
  obtain ⟨-, h | h⟩ := (served_iff e p).mp hs <;> rw [h] <;> rfl

/-! ### The end of sharers serves nothing (04 R89) -/

theorem dropHolder_unserved {e : Extent} {p : Nat} (q : Nat) (h : served e p = false) : served (dropHolder e q) p = false := by
  rw [← Bool.not_eq_true, served_iff] at h ⊢
  rw [holderSt_dropHolder]
  split
  · simp
  · exact h

section
variable {s : State} {p : Nat}

theorem extMap_unserved {base : Nat} {f : Extent → Extent} (hf : ∀ e, served e p = false → served (f e) p = false)
    (h : Unserved s p) : Unserved (extMap s base f) p := fun e he => by
  obtain ⟨y, hy, rfl⟩ := List.mem_map.mp he
  split
  · exact hf y (h y hy)
  · exact h y hy

theorem toSanitising_unserved {base : Nat} (h : Unserved s p) : Unserved (toSanitising s base) p := by
  unfold toSanitising
  split
  · have hmap := extMap_unserved (base := base) (f := fun e => { e with sanitising := true, holders := [] }) (fun _ _ => rfl) h
    dsimp only
    split
    · exact hmap
    · exact hmap
  · exact h

theorem finishRemoval_unserved {base q : Nat} (h : Unserved s p) : Unserved (finishRemoval s base q) p := by
  have hmap := extMap_unserved (base := base) (f := fun e => dropHolder e q) (fun _ => dropHolder_unserved q) h
  unfold finishRemoval
  split
  · split
    · refine Unserved.of_exts ?_ (listChange_exts _ _)
      split
      · exact toSanitising_unserved hmap
      · exact hmap
    · exact h
  · exact h

theorem biAnswer_unserved {line sh : Nat} {resp : BiResp} (h : Unserved s p) : Unserved (biAnswer s line sh resp) p := by
  have hdone : ∀ u, Unserved u p → Unserved (lineDone (leaveDone u line sh) line) p := fun u hu => by
    refine .of_moves (lineDone_moves (F := 47761103225887) rfl (.refl _ _)) (by decide) ?_
    unfold leaveDone
    split
    · split
      · exact finishRemoval_unserved hu
      · exact hu
    · exact hu
  have hforgot : ∀ u g, Unserved u p → Unserved (forgetOn u line g) p := fun u g hu =>
    hu.of_moves (forgetOn_moves (F := 536903681) rfl (.refl _ u)) (by decide)
  unfold biAnswer
  split
  next x _ =>
    have htold : ∀ l, Unserved (if x.forTwin = true then emit { s with trans := l } (.belay 1 (.forward (.snooped line sh resp)))
        else { s with trans := l }) p := fun l => by
      split
      · exact h
      · exact h
    refine hdone _ ?_
    split
    · exact hforgot _ _ (htold _)
    · split
      · split
        · exact (htold _).of_moves (dirSet_moves (F := 536903681) rfl (.refl _ _)) (by decide)
        · exact htold _
      · exact htold _
  · split
    · exact h
    · exact h

theorem dropSharers_unserved {gone : Nat → Bool} (h : Unserved s p) : Unserved (dropSharers s gone) p := by
  have hforgot : Unserved (forgetSharers s gone) p :=
    h.of_moves (forgetSharers_moves (F := 536903681) rfl (.refl _ s)) (by decide)
  exact foldl_keeps (P := fun u => Unserved u p) _ (fun u x _ hu => biAnswer_unserved hu) hforgot

end

/-! ### An expired lease (03 R72) -/

section
variable (s : State) (p : Part)

theorem orphanQuiet_signalled {e : Evt} {i : Nat} (h : Signalled s e i) : Signalled (orphanQuiet s p) e i := by
  have hsteady : Steady s (endWork (dropSharers s fun sh => decide (sh / 16 = p.val)) p haltLease stLeaseLost) :=
    endWork_steady (dropSharers_steady (.refl s))
  have m : ∀ u, Moves 8388608 u (closeWindows u p) := fun u => closeWindows_moves rfl (.refl _ u)
  exact (m _).signalled (by decide) (hsteady.signalled h)

theorem orphanQuiet_unserved {q : Nat} (h : Unserved s q) : Unserved (orphanQuiet s p) q :=
  .of_moves (s := dropSharers s fun sh => decide (sh / 16 = p.val)) (closeWindows_moves (F := 687424341005) rfl
    (endWork_moves rfl (.refl _ _))) (by decide) (dropSharers_unserved h)

theorem orphanQuiet_fmLog : (orphanQuiet s p).fmLog = s.fmLog :=
  (closeWindows_moves (F := 329820198118431) rfl (endWork_moves rfl (dropSharers_moves rfl (.refl _ s)))).frame .fmLog (by decide)

theorem orphanTold_signalled : Signalled (orphanTold s p) .partOrphaned p := by
  have hset : Signalled (raise s .partOrphaned p) .partOrphaned p := raise_signalled _ _ _ _ _ _ _
  unfold orphanTold
  exact (emit_steady (fmLog_steady _ (.refl _))).signalled hset

theorem orphanTold_exts : (orphanTold s p).exts = s.exts := by
  show (raise s .partOrphaned p).exts = s.exts
  rw [raise_exts]

theorem orphanTold_fmLog : (orphanTold s p).fmLog = .partitionOrphaned p :: s.fmLog := by
  have hlog : (raise s .partOrphaned p).fmLog = s.fmLog := (raise_moves (F := 1037) rfl (.refl _ s)).frame .fmLog (by decide)
  unfold orphanTold
  exact congrArg (_ :: ·) hlog

theorem holdingsEnded_offers : (partOf (holdingsEnded s p) p).offers = [] := by
  unfold holdingsEnded
  rw [(turnHoldings_moves (F := 34359747597) rfl (.refl _ _)).partOf_eq (by decide)]
  unfold endOffers
  rw [partOf_partUpd_self]

theorem holdingsEnded_fmLog : (holdingsEnded s p).fmLog = s.fmLog := by
  have hsnaps : Moves 281509336527885 s ((extsOf s p).foldl (fun s e => snapLeave s e p) s) :=
    .foldl (fun _ _ h => snapLeave_moves (F := 281509336527885) rfl h) _ (.refl _ s)
  exact (turnHoldings_moves (F := 281509336527885) rfl (endOffers_moves rfl hsnaps)).frame .fmLog (by decide)

theorem holdingsEnded_unserved : Unserved (holdingsEnded s p) p := turnHoldings_unserved _ p

end

/-- What an expired lease leaves: a partition orphaned and told of, without offers and with nothing served. -/
theorem doLeaseExpire_over (s : State) (p : Part) : pState (doLeaseExpire s p) p = pOrphaned ∧
    fget (doLeaseExpire s p) .partLeaseExpired p = 1 ∧ Signalled (doLeaseExpire s p) .partOrphaned p ∧
    (partOf (doLeaseExpire s p) p).offers = [] ∧ Unserved (doLeaseExpire s p) p ∧
    (doLeaseExpire s p).fmLog = .partitionOrphaned p :: s.fmLog := by
  refine ⟨doLeaseExpire_orphaned s p, doLeaseExpire_expired s p, ?_, ?_, ?_, ?_⟩
  · rw [doLeaseExpire_eq]
    exact orphanQuiet_signalled _ p (orphanTold_signalled _ p)
  · rw [doLeaseExpire_eq, (orphanQuiet_stay _ p).partOf, (orphanTold_stay _ p).partOf, holdingsEnded_offers]
  · rw [doLeaseExpire_eq]
    exact orphanQuiet_unserved _ p ((holdingsEnded_unserved _ p).of_exts (orphanTold_exts _ p))
  · rw [doLeaseExpire_eq, orphanQuiet_fmLog, orphanTold_fmLog, holdingsEnded_fmLog]
    rfl

/-- In a pair the lead journals the end of a lease. -/
theorem leaseTest_lead {s : State} {p : Part} (hup : twinUp s = true) (hover : leaseOver s p = true)
    (hdue : expiryDue s p = false) (hlead : bRole s = roleLead) : leaseTest s p = journalSend s (.leaseExpire p) := by
  have hrole : (leaseOver s p && !expiryDue s p && !(twinUp s && decide (bRole s = roleSecond))) = true := by
    rw [hover, hdue, hup, hlead]
    decide
  unfold leaseTest commitJ
  rw [if_pos hrole, if_pos hup]

/-! ### A binding that leaves no head (03 R57) -/

section
variable (s : State) (p : Part)

theorem headsBound_twinHeads (heads : Nat) : (headsBound s p heads).belay.twinHeads = s.belay.twinHeads := by
  have hleft : Steady s (headsLeft s p heads) :=
    .foldl (fun _ _ hu => hdms_steady _ (dropSharers_steady hu)) _ (.refl s)
  exact hleft.twinHeads

theorem endOffers_bindDue : (partOf (endOffers s p) p).bindDue = (partOf s p).bindDue := by
  have hoffers : Moves 281509336523789 s (((partOf s p).offers.flatMap (·.exts)).foldl (fun s x => endOffer s p x.1) s) :=
    .foldl (fun _ _ h => endOffer_moves (F := 281509336523789) rfl h) _ (.refl _ s)
  unfold endOffers
  rw [partOf_partUpd_self, hoffers.partOf_eq (by decide)]

/-- The partition's work, its windows and what was set for it end with its last head. -/
def lastHeadGone (s : State) (p : Part) : State :=
  destroyKey (clearPartition (closeWindows (endWork (endOffers s p) p haltMaster stMasterOff) p) p) p

/-- A disabled partition's page and lease. -/
def disabledMarked (s : State) (p : Part) : State :=
  fset (partUpd s p fun q => { q with leaseExpiry := 0 }) .partStateState pDisabled p

theorem disablePart_eq : disablePart s p =
    { disabledMarked (lastHeadGone s p) p with cfgs := adel (lastHeadGone s p).cfgs p.val } := rfl

theorem lastHeadGone_page {f : Fld} (hf : f.desc.blk = .part) (i j : Nat) : fget (lastHeadGone s p) f i j = fget s f i j := by
  have hne : f ≠ .cairnCoalesceStatsLatched := fun h => absurd (h ▸ hf) (by decide)
  exact (destroyKey_moves (F := 282196760802317) rfl (clearPartition_moves rfl (closeWindows_moves rfl
    (endWork_moves rfl (endOffers_moves rfl (.refl _ s)))))).fget_eq (by rw [hf]; decide) hne i j

theorem lastHeadGone_bindDue : (partOf (lastHeadGone s p) p).bindDue = (partOf s p).bindDue := by
  have m : Moves 282162401059853 (endOffers s p) (lastHeadGone s p) :=
    destroyKey_moves rfl (clearPartition_moves rfl (closeWindows_moves rfl (endWork_moves rfl (.refl _ _))))
  rw [m.partOf_eq (by decide), endOffers_bindDue]

theorem disablePart_stay : PartsStay (disabledMarked (lastHeadGone s p) p) (disablePart s p) := by
  rw [disablePart_eq]
  generalize disabledMarked (lastHeadGone s p) p = u
  exact ⟨rfl, rfl, fun _ _ _ _ => rfl⟩

theorem disablePart_disabled : pState (disablePart s p) p = pDisabled := by
  rw [(disablePart_stay s p).pState]
  unfold disabledMarked
  exact fget_fset_self _ _ _ _ _

theorem disabledMarked_boundTo {heads : Nat} (h : BoundTo s p heads) : BoundTo (disabledMarked s p) p heads := by
  unfold disabledMarked
  refine ⟨?_, ?_⟩
  · rw [fget_fset_fld _ _ _ _ _ _ (by decide), fget_partUpd]
    exact h.1
  · rw [partOf_fset, partOf_partUpd_self]
    exact h.2

theorem disablePart_boundTo {heads : Nat} (h : BoundTo s p heads) : BoundTo (disablePart s p) p heads := by
  have hgone : BoundTo (lastHeadGone s p) p heads :=
    ⟨(lastHeadGone_page s p rfl _ _).trans h.1, (lastHeadGone_bindDue s p).trans h.2⟩
  exact (disabledMarked_boundTo _ p hgone).stay (disablePart_stay s p)

/-- A binding to no head: without one on the twin the partition is disabled. -/
theorem doBind_none : BoundTo (doBind s p 0) p 0 ∧ (aget s.belay.twinHeads p.val 0 = 0 → pState (doBind s p 0) p = pDisabled) := by
  have hbound := headsBound_boundTo s p (heads := 0) (by decide)
  have htwin := headsBound_twinHeads s p 0
  rw [doBind_eq, htwin]
  split
  · split
    · next hdis => exact ⟨hbound, fun _ => hdis⟩
    · exact ⟨disablePart_boundTo _ p hbound, fun _ => disablePart_disabled _ p⟩
  · next h => exact ⟨hbound.partEnabled.stay (masterAgain_stay _ p), fun h0 => absurd ⟨rfl, h0⟩ h⟩

end

/-- Settles O52: what a change marks on the partition's page, and the event that tells of it, outlast the end of its work. -/
theorem leasesAndBindingsTakeEffect : Obligations.LeasesAndBindingsTakeEffect := by
  intro s p
  refine ⟨fun h ho hw => ⟨fun hact hover => ?_, fun hlate => ?_, fun hrec => ?_⟩, fun hlow => ?_,
    fun hover halone hdue => ?_, fun hover hup hdue hlead => ?_, fun heads hdue halone hok => ?_⟩
  · obtain ⟨t, ht, hr⟩ := leaseRenew_inTime ho hw hact hover
    exact ⟨t, ht, hr.expiry, hr.count⟩
  · refine gives_leaseRenew ho hw ?_
    rw [renewPage_late (s := ioTouch s h) hlate]
    refine ⟨?_, ?_, ?_⟩
    · rw [partOf_record]
      rfl
    · unfold pState
      rw [fget_record _ _ _ _ _ _ _ (by decide), fget_finc_fld _ _ _ _ _ (by decide)]
      rfl
    · rw [fget_record _ _ _ _ _ _ _ (by decide), fget_finc_self]
      rfl
  · refine gives_leaseRenew ho hw ?_
    rw [renewPage_reclaimed (s := ioTouch s h) hrec]
    exact ⟨fun _ _ _ _ _ => ⟨rfl, rfl⟩, rfl⟩
  · exact ⟨_, congrArg Host.Outcome.next (if_pos hlow), raise_signalled _ _ _ _ _ _ _⟩
  · exact ⟨_, congrArg Host.Outcome.next (leaseTest_alone halone hover hdue), doLeaseExpire_over s p⟩
  · refine ⟨_, congrArg Host.Outcome.next (leaseTest_lead hup hover hdue hlead), ?_, rfl⟩
    simp only [leaseOver, Bool.and_eq_true, decide_eq_true_eq] at hover
    exact hover.1
  · refine ⟨_, congrArg Host.Outcome.next (bindEffect_alone halone hdue hok), ?_⟩
    by_cases h0 : heads = 0
    · subst h0
      obtain ⟨⟨hbound, hnone⟩, hdis⟩ := doBind_none (partUpd s p fun q => { q with bindDue := none }) p
      exact ⟨hbound, hnone, fun h => absurd rfl h, fun _ htwin => hdis htwin⟩
    · have h0' : heads.toNat ≠ 0 := fun h => h0 (BitVec.eq_of_toNat_eq h)
      obtain ⟨⟨hbound, hnone⟩, hstate, hexp⟩ :=
        doBind_some (s := partUpd s p fun q => { q with bindDue := none }) (p := p) h0' heads.isLt
      exact ⟨hbound, hnone, fun _ => ⟨hstate, hexp⟩, fun h => absurd h h0⟩

end Sys2Proof.Machine
end

section
/-! PROOF. Host requests that are answered without service, and clean evictions (O37). -/

namespace Sys2Proof.Machine

open Sys2Proof

section
variable {s t u : State} {h : Head} {p : Part} {dpa : Nat} {r : Req} {res : MemRes}

/-- A host's request has its answer, and memory is as before. -/
def HostAnswered (s t : State) (h : Head) (p : Part) (dpa : Nat) (res : MemRes) : Prop :=
  t.mem = s.mem ∧ ∃ load, .memRsp p h dpa res load ∈ t.out

theorem HostAnswered.of_moves {F : Nat} (k : HostAnswered s t h p dpa res) (m : Moves F t u)
    (hF : F.testBit Kind.memory.num = false) : HostAnswered s u h p dpa res :=
  ⟨(m.frame .memory hF).1.trans k.1, k.2.imp fun _ hl => m.sent hl⟩

theorem hostRsp_answered (s : State) (h : Head) (p : Part) (dpa : Nat) (res : MemRes) :
    HostAnswered s (hostRsp s p h dpa res) h p dpa res := ⟨rfl, _, List.mem_cons_self⟩

/-- An answer after what leaves memory. -/
theorem answer_answered (hr : FromHost r h) (hm : t.mem = s.mem) : HostAnswered s (answer t r res) h r.p r.dpa res :=
  ⟨(answer_mem t r res false).trans hm, answer_sent hr t res false⟩

/-- An answer keeps every register but those of the QOS page. -/
theorem answer_fget {f : Fld} (hb : f.desc.blk ≠ .qos) (hf : f ≠ .cairnCoalesceStatsLatched) (s : State) (r : Req) (i j : Nat) :
    fget (answer s r res) f i j = fget s f i j := by
  refine (answer_moves (F := 1099570349057) rfl (.refl _ s)).fget_eq ?_ hf i j
  revert hb
  cases f.desc.blk <;> decide

theorem answer_signalled {e : Evt} {i : Nat} (hs : Signalled s e i) : Signalled (answer s r res) e i :=
  (answer_moves (F := 1099570349057) rfl (.refl _ s)).signalled (by decide) hs

/-! ### Requests that are not served (03 R57, R64) -/

theorem notCarried_mem (s : State) (h : Head) (p : Part) : (notCarried s h p).mem = s.mem :=
  ((record_moves (F := 1037) rfl (.refl _ s)).frame .memory (by decide)).1

/-- A request of an address that the partition does not hold. -/
theorem goneReq_answered (hr : FromHost r h) (s : State) : HostAnswered s (goneReq s r) h r.p r.dpa (noService r) ∧
    Signalled (goneReq s r) .partUnheldAccess r.p := by
  have hmem : (unheld s r.p r.dpa).mem = s.mem := ((raise_moves (F := 1037) rfl (.refl _ s)).frame .memory (by decide)).1
  unfold goneReq
  rw [hr.src]
  exact ⟨answer_answered hr hmem, answer_signalled (raise_signalled _ _ _ _ _ _ _)⟩

/-- What a fenced package records of a write that it drops. -/
def fencedNoted (s : State) (p : Part) : State :=
  if s.belay.fencedRec.contains p.val then s
  else
    let s := emit (cfgUpd s p fun c => { c with logFail := c.logFail + 1 }) (.cxlFailure p)
    logSignal { s with belay := { s.belay with fencedRec := p.val :: s.belay.fencedRec } } p 3

theorem fencedDrop_eq (s : State) (r : Req) :
    fencedDrop s r = answer (fencedNoted (finc s .belayForwardStatsFencedWrites) r.p) r .cmp := rfl

theorem fencedNoted_kept (s : State) (p : Part) : (fencedNoted s p).mem = s.mem ∧
    fget (fencedNoted s p) .belayForwardStatsFencedWrites = fget s .belayForwardStatsFencedWrites := by
  have m : ∀ u : State, Moves 1025 u (logSignal u p 3) := fun u => logSignal_moves rfl (.refl _ u)
  unfold fencedNoted
  split
  · exact ⟨rfl, rfl⟩
  · exact ⟨((m _).frame .memory (by decide)).1, (m _).fget_eq (by decide) (by decide) 0 0⟩

/-- A fenced package completes a write, drops it and counts it. -/
theorem fencedDrop_answered (hr : FromHost r h) (s : State) : HostAnswered s (fencedDrop s r) h r.p r.dpa .cmp ∧
    fget (fencedDrop s r) .belayForwardStatsFencedWrites = min (fget s .belayForwardStatsFencedWrites + 1) (2 ^ 32 - 1) := by
  obtain ⟨hmem, hcount⟩ := fencedNoted_kept (finc s .belayForwardStatsFencedWrites) r.p
  rw [fencedDrop_eq]
  refine ⟨answer_answered hr hmem, ?_⟩
  rw [answer_fget (by decide) (by decide), hcount, fget_finc_self]
  rfl

section
variable (hdpa : dpa % 64 = 0)
include hdpa

theorem doHostRead_notCarried (hc : headStop s h p = some .notCarried) (mv : Meta) (upset : Upset) :
    HostAnswered s (doHostRead s h p dpa mv upset) h p dpa .poison := by
  unfold doHostRead
  dsimp only
  rw [hc, lineDpa_eq hdpa]
  exact answer_answered (readReq_fromHost h p dpa mv) (notCarried_mem s h p)

theorem doHostWrite_notCarried (hc : headStop s h p = some .notCarried) (d : Line) (mask : BitVec 64) (mv : Meta) :
    HostAnswered s (doHostWrite s h p dpa d mask mv) h p dpa .cmp := by
  unfold doHostWrite
  dsimp only
  rw [hc, lineDpa_eq hdpa]
  exact answer_answered (writeReq_fromHost h p dpa d mask mv) (notCarried_mem s h p)

theorem doHostRead_gone (hs : headStop s h p = none) (hd : s.belay.deciding = false) (hheld : heldExt s p dpa = none)
    (hf : forwardsAll s = false) (mv : Meta) (upset : Upset) :
    HostAnswered s (doHostRead s h p dpa mv upset) h p dpa .poison ∧
      Signalled (doHostRead s h p dpa mv upset) .partUnheldAccess p := by
  have hbi : biStops s p h dpa = false := by
    unfold biStops
    rw [hheld]
  unfold doHostRead
  dsimp only
  rw [hs]
  dsimp only
  rw [hbi, if_neg (by decide), hf, if_neg (by decide), hd, if_neg (by simp), hheld, lineDpa_eq hdpa]
  exact goneReq_answered (readReq_fromHost h p dpa mv) s

theorem doHostWrite_gone (hs : headStop s h p = none) (hd : s.belay.deciding = false) (hheld : heldExt s p dpa = none)
    (hf : bRole s ≠ roleFenced) (d : Line) (mask : BitVec 64) (mv : Meta) :
    HostAnswered s (doHostWrite s h p dpa d mask mv) h p dpa .cmp ∧
      Signalled (doHostWrite s h p dpa d mask mv) .partUnheldAccess p := by
  unfold doHostWrite checkedWrite
  dsimp only
  rw [hs]
  dsimp only
  rw [if_neg hf, hd, if_neg (by decide), lineDpa_eq hdpa, hheld]
  exact goneReq_answered (writeReq_fromHost h p dpa d mask mv) s

theorem doHostWrite_fenced (hs : headStop s h p = none) (hf : bRole s = roleFenced) (d : Line) (mask : BitVec 64) (mv : Meta) :
    HostAnswered s (doHostWrite s h p dpa d mask mv) h p dpa .cmp ∧
      fget (doHostWrite s h p dpa d mask mv) .belayForwardStatsFencedWrites =
        min (fget s .belayForwardStatsFencedWrites + 1) (2 ^ 32 - 1) := by
  unfold doHostWrite
  dsimp only
  rw [hs]
  dsimp only
  rw [if_pos hf, lineDpa_eq hdpa]
  exact fencedDrop_answered (writeReq_fromHost h p dpa d mask mv) s

/-! ### Clean evictions (04 R84) -/

theorem doCleanEviction_answered : HostAnswered s (doCleanEviction s h p dpa) h p dpa .cmp ∧
    (doCleanEviction s h p dpa).exts = s.exts := by
  have hrsp := hostRsp_answered s h p dpa .cmp
  have hexts : (hostRsp s p h dpa .cmp).exts = s.exts := rfl
  have hall : ∀ {u F}, Moves F (hostRsp s p h dpa .cmp) u → F.testBit Kind.memory.num = false →
      F.testBit Kind.extents.num = false → HostAnswered s u h p dpa .cmp ∧ u.exts = s.exts := fun m hm he =>
    ⟨hrsp.of_moves m hm, (m.exts_eq he).trans hexts⟩
  unfold doCleanEviction
  dsimp only
  rw [lineDpa_eq hdpa]
  split
  · exact hall (record_moves (F := 1037) rfl (.refl _ _)) (by decide) (by decide)
  · split
    · exact ⟨hrsp, hexts⟩
    · split
      · exact ⟨hrsp, hexts⟩
      · split
        · exact hall (emit_moves (F := 1) rfl (.refl _ _)) (by decide) (by decide)
        · exact hall (evictClean_moves (F := 69256380417) rfl (.refl _ _)) (by decide) (by decide)

end

/-- The entry of a line whose one sharer leaves goes. -/
theorem removeSharers_last {d : DirEntry} {sh : Nat} (hc : d.coarse = none) (hs : d.sharers = [sh]) (ht : d.twin = []) :
    removeSharers s d (fun x => decide (x = sh)) = none := by
  unfold removeSharers entryLeft
  simp [hc, hs, ht]

theorem dirDrop_dirOf (s : State) (line : Nat) : dirOf (dirDrop s line) line = none := by
  have hdir : (dirDrop s line).dir = s.dir.filter fun d => decide (d.line ≠ line) := by
    unfold dirDrop dirTell
    split <;> rfl
  unfold dirOf
  rw [hdir, List.find?_eq_none]
  intro d hd
  simpa using (List.mem_filter.mp hd).2

/-- The last sharer's clean eviction takes the entry away. -/
theorem evictClean_last {line sh : Nat} {d : DirEntry} (hp : biPending s line = false) (hd : dirOf s line = some d)
    (hc : d.coarse = none) (hs : d.sharers = [sh]) (ht : d.twin = []) : dirOf (evictClean s line sh) line = none := by
  have howes : owes s line sh = false := by
    simp only [biPending, List.any_eq_false, decide_eq_true_eq] at hp
    simp only [owes, List.any_eq_false, Bool.and_eq_true, decide_eq_true_eq, not_and]
    exact fun x hx hl => absurd hl (hp x hx)
  unfold evictClean
  dsimp only
  rw [hp, if_neg Bool.false_ne_true, howes, if_neg Bool.false_ne_true]
  unfold forgetOn
  rw [hd]
  dsimp only
  rw [removeSharers_last hc hs ht]
  exact dirDrop_dirOf s line

/-- A clean eviction of a line in the directory of a shared extent that the head carries. -/
theorem doCleanEviction_shared {e : Extent} (hc : carried s p h = true) (hf : forwardsAll s = false)
    (hheld : heldExt s p dpa = some e) (hshared : e.attr.sharing = 1) : doCleanEviction s h p dpa =
      evictClean (hostRsp s p h (dpa / 64 * 64) .cmp) (lineOf dpa) (sharerId p h) := by
  unfold doCleanEviction
  dsimp only
  rw [if_neg (by simp [hc]), hheld]
  dsimp only
  rw [if_neg (by simp [hshared]), if_neg (by simp [hf])]

end

/-- Settles O37: the answers leave memory, and what they follow leaves it too. -/
theorem unservedHostRequestsAreAnswered : Obligations.UnservedHostRequestsAreAnswered := by
  intro s h p dpa ho hdpa
  refine ⟨fun hc => ?_, fun hs hd hheld => ⟨fun hf mv upset => ?_, fun hf d mask mv => ?_⟩, fun hs hf d mask mv => ?_, ?_,
    fun e d hc hf hheld hshared hp hdir hcoarse hsharers htwin => ?_⟩
  · have hstop : headStop (touch s) h p = some .notCarried := if_pos (by rw [show carried (touch s) p h = false from hc]; rfl)
    exact ⟨fun mv upset => ⟨_, congrArg Host.Outcome.next (if_pos ho), doHostRead_notCarried hdpa hstop mv upset⟩,
      fun d mask mv => ⟨_, congrArg Host.Outcome.next (if_pos ho), doHostWrite_notCarried hdpa hstop d mask mv⟩⟩
  · exact ⟨_, congrArg Host.Outcome.next (if_pos ho), doHostRead_gone (s := touch s) hdpa hs hd hheld hf mv upset⟩
  · exact ⟨_, congrArg Host.Outcome.next (if_pos ho), doHostWrite_gone (s := touch s) hdpa hs hd hheld hf d mask mv⟩
  · exact ⟨_, congrArg Host.Outcome.next (if_pos ho), doHostWrite_fenced (s := touch s) hdpa hs hf d mask mv⟩
  · exact ⟨_, congrArg Host.Outcome.next (if_pos ho), doCleanEviction_answered (s := touch s) hdpa⟩
  · refine ⟨_, congrArg Host.Outcome.next (if_pos ho), ?_⟩
    rw [doCleanEviction_shared (s := touch s) hc hf hheld hshared]
    exact evictClean_last (s := hostRsp (touch s) p h (dpa / 64 * 64) .cmp) (line := dpa / 64) hp hdir hcoarse hsharers htwin

end Sys2Proof.Machine
end

section
/-! PROOF. The mailbox: an offer is answered, held pieces are released (03 R65, R66; for O53). -/

namespace Sys2Proof.Machine

open Sys2Proof

/-! ### An offer is answered (03 R65) -/

/-- One range of an offer that is answered: accepted, or free again. -/
def answerOne (p : Part) (exts : List GranRange) (s : State) (x : GranRange) : State :=
  if exts.contains x then
    let s := match wholeExt s x.1 x.2 with
      | some e => if e.attr.prot = 1 then
          fset s .roleKeysMaster (bitOn (fget s .roleKeysMaster) e.attr.owner) else s
      | none => s
    listChange (extMap s x.1 fun e => setHolder e p .active) [p]
  else endOffer s p x.1

theorem doAccept_cons {s : State} {p : Part} {o : Offer} {rest : List Offer} (h : (partOf s p).offers = o :: rest)
    (exts : List GranRange) : doAccept s p exts =
      o.exts.foldl (answerOne p exts) (partUpd s p fun q => { q with offers := rest }) := by
  unfold doAccept
  rw [h]
  rfl

/-- The extents of a state change at one base alone, and no new base comes. -/
structure AtBase (b : Nat) (s t : State) : Prop where
  other : ∀ e : Extent, e.base ≠ b → (e ∈ t.exts ↔ e ∈ s.exts)
  bases : (t.exts.map (·.base)).Sublist (s.exts.map (·.base))

theorem AtBase.refl (b : Nat) (s : State) : AtBase b s s := ⟨fun _ _ => .rfl, .refl _⟩

section
variable {s t u : State} {b : Nat} {p : Part} {exts : List GranRange} {x : GranRange}

theorem AtBase.of_exts (h : AtBase b s t) (k : u.exts = t.exts) : AtBase b s u := ⟨fun e he => k ▸ h.other e he, k ▸ h.bases⟩

theorem extMap_atBase (s : State) (b : Nat) {f : Extent → Extent} (hf : ∀ e, (f e).base = e.base) :
    AtBase b s (extMap s b f) := by
  have hbase : ∀ e : Extent, (if e.base = b then f e else e).base = e.base := fun e => by
    split
    · exact hf e
    · rfl
  refine ⟨fun e he => ?_, ?_⟩
  · unfold extMap
    rw [List.mem_map]
    refine ⟨fun ⟨y, hy, hye⟩ => ?_, fun h => ⟨e, h, if_neg he⟩⟩
    have hyb : y.base ≠ b := fun hb => he (by rw [← hye, hbase, hb])
    rw [if_neg hyb] at hye
    exact hye ▸ hy
  · unfold extMap
    rw [List.map_map]
    exact (List.map_congr_left fun e _ => hbase e) ▸ .refl _

theorem extDrop_atBase (s : State) (b : Nat) : AtBase b s (extDrop s b) :=
  ⟨fun e he => by
    unfold extDrop
    simp [he], List.filter_sublist.map _⟩

/-- An extent whose granules are SANITISING: nobody holds it. -/
def leftExt (e : Extent) : Extent := { e with sanitising := true, holders := [] }

theorem toSanitising_exts (s : State) (b : Nat) : (toSanitising s b).exts = (extMap s b leftExt).exts := by
  unfold toSanitising
  split
  · dsimp only
    split <;> rfl
  · next hnone =>
    have hall : ∀ e ∈ s.exts, e.base ≠ b := fun e he => by simpa using List.find?_eq_none.mp hnone e he
    unfold extMap
    refine (List.map_id _).symm.trans (List.map_congr_left fun e he => ?_)
    rw [if_neg (hall e he)]
    rfl

/-- The offer of no extent at a base is open to the partition. -/
def NotOffered (b p : Nat) (t : State) : Prop := ∀ e ∈ t.exts, e.base = b → holderSt e p ≠ some .offered

/-- Extents at a base that take the same holders offer nothing, where those offer nothing. -/
theorem extMap_notOffered (s : State) {b p : Nat} {f : Extent → Extent} (hf : ∀ e, holderSt (f e) p ≠ some .offered) : NotOffered b p (extMap s b f) := fun e he heb => by
  obtain ⟨y, -, rfl⟩ := List.mem_map.mp he
  by_cases hy : y.base = b
  · rw [if_pos hy]
    exact hf y
  · rw [if_neg hy] at heb
    exact absurd heb hy

theorem toSanitising_notOffered (s : State) (b p : Nat) : NotOffered b p (toSanitising s b) := fun e he =>
  extMap_notOffered s (f := leftExt) (fun _ => by simp [holderSt, leftExt]) e (toSanitising_exts s b ▸ he)

/-- The end of an offer changes the extent at its base alone. -/
theorem endOffer_atBase (s : State) (p b : Nat) : AtBase b s (endOffer s p b) := by
  unfold endOffer
  split
  next e _ =>
    dsimp only
    split
    · refine AtBase.of_exts ?_ (listChange_exts _ _)
      split
      · split
        · exact (extMap_atBase s b (f := leftExt) fun _ => rfl).of_exts (toSanitising_exts s b)
        · exact (extDrop_atBase s b).of_exts rfl
      · exact extMap_atBase s b fun _ => rfl
    · exact .refl b s
  · exact .refl b s

/-- Bases being distinct, the end of an offer leaves none at its base. -/
theorem endOffer_notOffered {s : State} (hs : (s.exts.map (·.base)).Nodup) (p b : Nat) : NotOffered b p (endOffer s p b) := by
  unfold endOffer
  split
  next e he =>
    obtain rfl : e.base = b := by simpa using List.find?_some he
    dsimp only
    split
    · have hkeep : ∀ u l, NotOffered e.base p u → NotOffered e.base p (listChange u l) := fun u l h x hx =>
        h x (listChange_exts u l ▸ hx)
      refine hkeep _ _ ?_
      split
      · split
        · exact toSanitising_notOffered s e.base p
        · exact fun x hx hb => absurd hb (by simpa using (List.mem_filter.mp hx).2)
      · refine extMap_notOffered s fun x hx => ?_
        obtain ⟨y, hy, -⟩ := Option.map_eq_some_iff.mp hx
        have hyp : y.p.val = p := by simpa using List.find?_some hy
        exact absurd hyp (by simpa using (List.mem_filter.mp (List.mem_of_find?_eq_some hy)).2)
    · next hno =>
      intro x hx hb
      rwa [List.inj_on_of_nodup_map hs hx (List.mem_of_find?_eq_some he) hb]
  next hnone => exact fun x hx hb => absurd hb (by simpa using List.find?_eq_none.mp hnone x hx)

/-! ### Each range of the offer -/

/-- The key mark of an accepted protected extent leaves the extents. -/
theorem answerOne_accept (s : State) (hx : x ∈ exts) :
    (answerOne p exts s x).exts = (extMap s x.1 fun e => setHolder e p .active).exts := by
  unfold answerOne
  rw [if_pos (by simpa using hx), listChange_exts]
  split
  · split <;> rfl
  · rfl

theorem answerOne_reject (s : State) (hx : x ∉ exts) : answerOne p exts s x = endOffer s p x.1 := by
  unfold answerOne
  rw [if_neg (by simpa using hx)]

theorem answerOne_atBase (s : State) (p : Part) (exts : List GranRange) (x : GranRange) :
    AtBase x.1 s (answerOne p exts s x) := by
  by_cases hx : x ∈ exts
  · exact (extMap_atBase s x.1 (f := fun e => setHolder e p .active) fun _ => rfl).of_exts (answerOne_accept s hx)
  · exact answerOne_reject s hx ▸ endOffer_atBase s p x.1

/-- Answers for other bases leave the extents at a base, and no new base comes. -/
theorem foldl_answerOne_other (p : Part) (exts l : List GranRange) (s : State) {b : Nat} (h : ∀ x ∈ l, x.1 ≠ b) :
    (∀ e : Extent, e.base = b → (e ∈ (l.foldl (answerOne p exts) s).exts ↔ e ∈ s.exts)) ∧
      ((l.foldl (answerOne p exts) s).exts.map (·.base)).Sublist (s.exts.map (·.base)) := by
  induction l generalizing s with
  | nil => exact ⟨fun _ _ => .rfl, .refl _⟩
  | cons y l ih =>
    obtain ⟨hother, hbases⟩ := ih (answerOne p exts s y) fun x hx => h x (List.mem_cons_of_mem _ hx)
    have hone := answerOne_atBase s p exts y
    exact ⟨fun e he => (hother e he).trans (hone.other e fun hc => h y List.mem_cons_self (hc ▸ he)),
      hbases.trans hone.bases⟩

/-- An accepted range of an offer with distinct bases is ACTIVE when the offer has been answered. -/
theorem foldl_answerOne_active {l : List GranRange} (s : State) (hl : (l.map (·.1)).Nodup) (hx : x ∈ l) (hxe : x ∈ exts)
    (h : ∃ e ∈ s.exts, e.base = x.1 ∧ (holderSt e p).isSome = true) :
    ∃ e ∈ (l.foldl (answerOne p exts) s).exts, e.base = x.1 ∧ holderSt e p = some .active := by
  induction l generalizing s with
  | nil => cases hx
  | cons y l ih =>
    rw [List.map_cons, List.nodup_cons] at hl
    obtain ⟨e, he, heb, hst⟩ := h
    have hone := answerOne_atBase s p exts y
    rcases List.mem_cons.mp hx with rfl | hx'
    · have hrest : ∀ z ∈ l, z.1 ≠ x.1 := fun z hz hc => hl.1 (hc ▸ List.mem_map_of_mem hz)
      refine ⟨setHolder e p .active, ((foldl_answerOne_other p exts l (answerOne p exts s x) hrest).1
        (setHolder e p .active) heb).mpr ?_, heb, ?_⟩
      · rw [answerOne_accept s hxe]
        exact List.mem_map.mpr ⟨e, he, if_pos heb⟩
      · rw [holderSt_setHolder_self]
        obtain ⟨st, hst⟩ := Option.isSome_iff_exists.mp hst
        rw [hst, Option.map_some]
    · have hne : e.base ≠ y.1 := fun hc => hl.1 (hc ▸ heb ▸ List.mem_map_of_mem hx')
      exact ih _ hl.2 hx' ⟨e, (hone.other e hne).mpr he, heb, hst⟩

/-- A range of an offer that is not accepted is offered no more. -/
theorem foldl_answerOne_notOffered {l : List GranRange} (s : State) (hs : (s.exts.map (·.base)).Nodup)
    (hl : (l.map (·.1)).Nodup) (hx : x ∈ l) (hxe : x ∉ exts) : NotOffered x.1 p (l.foldl (answerOne p exts) s) := by
  induction l generalizing s with
  | nil => cases hx
  | cons y l ih =>
    rw [List.map_cons, List.nodup_cons] at hl
    rcases List.mem_cons.mp hx with rfl | hx'
    · have hrest : ∀ z ∈ l, z.1 ≠ x.1 := fun z hz hc => hl.1 (hc ▸ List.mem_map_of_mem hz)
      intro e he heb
      refine endOffer_notOffered hs p x.1 e ?_ heb
      rw [← answerOne_reject s hxe]
      exact ((foldl_answerOne_other p exts l _ hrest).1 e heb).mp he
    · exact ih _ ((answerOne_atBase s p exts y).bases.nodup hs) hl.2 hx'

theorem answerOne_moves (s : State) (p : Part) (exts : List GranRange) (x : GranRange) :
    Moves 281509336523789 s (answerOne p exts s x) := by
  unfold answerOne
  refine .ite (fun _ => listChange_moves rfl (extMap_moves rfl ?_)) fun _ => endOffer_moves rfl (.refl _ s)
  split
  · exact .ite (fun _ => fset_moves rfl (.refl _ s)) fun _ => .refl _ s
  · exact .refl _ s

end

/-- An answer takes the oldest offer from the list: what it accepts is ACTIVE, and the rest is offered no more. -/
theorem doAccept_answered {s : State} {p : Part} {o : Offer} {rest : List Offer} {exts : List GranRange}
    (h : (partOf s p).offers = o :: rest) (ho : (o.exts.map (·.1)).Nodup) (hs : (s.exts.map (·.base)).Nodup)
    (hin : ∀ x ∈ exts, x ∈ o.exts) : (partOf (doAccept s p exts) p).offers = rest ∧
      (∀ x ∈ exts, (∃ e ∈ s.exts, e.base = x.1 ∧ (holderSt e p).isSome = true) →
        ∃ e ∈ (doAccept s p exts).exts, e.base = x.1 ∧ holderSt e p = some .active) ∧
      ∀ x ∈ o.exts, x ∉ exts → NotOffered x.1 p (doAccept s p exts) := by
  rw [doAccept_cons h]
  refine ⟨?_, fun x hx he => foldl_answerOne_active _ ho (hin x hx) hx he, fun x hx hxe =>
    foldl_answerOne_notOffered _ hs ho hx hxe⟩
  have m : ∀ u, Moves 281509336523789 u (o.exts.foldl (answerOne p exts) u) := fun u =>
    .foldl (fun v x hv => hv.trans (answerOne_moves v p exts x)) _ (.refl _ u)
  rw [(m _).partOf_eq (by decide), partOf_partUpd_self]

end Sys2Proof.Machine
end

section
/-! PROOF. The mailbox: held pieces are released (03 R66, R68; for O53). -/

namespace Sys2Proof.Machine

open Sys2Proof

/-! ### Extents that lie apart -/

/-- Two ranges share no granule. -/
def Apart (a b : GranRange) : Prop := a.1 + a.2 ≤ b.1 ∨ b.1 + b.2 ≤ a.1

theorem Apart.symm {a b : GranRange} (h : Apart a b) : Apart b a := Or.symm h

/-- The granules of an extent. -/
def Extent.rng (e : Extent) : GranRange := (e.base, e.len)

/-- A granule lies in a range. -/
def GranIn (g : Nat) (x : GranRange) : Prop := x.1 ≤ g ∧ g < x.1 + x.2

/-- A range lies in another. -/
def Within (x y : GranRange) : Prop := y.1 ≤ x.1 ∧ x.1 + x.2 ≤ y.1 + y.2

theorem GranIn.within {g : Nat} {x y : GranRange} (h : GranIn g x) (k : Within x y) : GranIn g y :=
  ⟨k.1.trans h.1, h.2.trans_le k.2⟩

theorem GranIn.not_apart {g : Nat} {x y : GranRange} (hx : GranIn g x) (hy : GranIn g y) : ¬Apart x y := by
  obtain ⟨h1, h2⟩ := hx
  obtain ⟨h3, h4⟩ := hy
  unfold Apart
  omega

/-- No extent is empty, and each lies apart from the others. -/
structure Tidy (l : List Extent) : Prop where
  some : ∀ e ∈ l, 1 ≤ e.len
  apart : l.Pairwise fun a b => Apart a.rng b.rng

section
variable {l : List Extent} {a b : Extent} {g : Nat}

theorem Tidy.eq_of_granIn (h : Tidy l) (ha : a ∈ l) (hb : b ∈ l) (hga : GranIn g a.rng) (hgb : GranIn g b.rng) : a = b := by
  by_contra hne
  have hsymm : Std.Symm fun a b : Extent => Apart a.rng b.rng := ⟨fun _ _ => Apart.symm⟩
  exact hga.not_apart hgb (h.apart.forall ha hb hne)

theorem Tidy.base_granIn (h : Tidy l) (ha : a ∈ l) : GranIn a.base a.rng :=
  ⟨Nat.le_refl _, Nat.lt_add_of_pos_right (h.some a ha)⟩

theorem Tidy.eq_of_base (h : Tidy l) (ha : a ∈ l) (hb : b ∈ l) (hab : a.base = b.base) : a = b :=
  h.eq_of_granIn ha hb (h.base_granIn ha) (hab ▸ h.base_granIn hb)

end

/-- The served extents of a state lie in served extents of an earlier one. -/
def Thins (p : Nat) (s t : State) : Prop :=
  ∀ e ∈ t.exts, ∃ y ∈ s.exts, Within e.rng y.rng ∧ (served e p = true → served y p = true)

/-- No extent that is served has the granule. -/
def UnservedAt (t : State) (p g : Nat) : Prop := ∀ e ∈ t.exts, GranIn g e.rng → served e p = false

section
variable {p : Nat} {s t u : State} {g : Nat}

theorem Thins.refl (p : Nat) (s : State) : Thins p s s := fun e he => ⟨e, he, ⟨Nat.le_refl _, Nat.le_refl _⟩, id⟩

theorem Thins.trans (h : Thins p s t) (k : Thins p t u) : Thins p s u := fun e he => by
  obtain ⟨y, hy, hey, hsy⟩ := k e he
  obtain ⟨z, hz, hyz, hsz⟩ := h y hy
  exact ⟨z, hz, ⟨hyz.1.trans hey.1, hey.2.trans hyz.2⟩, hsz ∘ hsy⟩

theorem Thins.unservedAt (h : Thins p s t) (k : UnservedAt s p g) : UnservedAt t p g := fun e he hg => by
  obtain ⟨y, hy, hey, hsy⟩ := h e he
  rw [← Bool.not_eq_true]
  exact fun hs => by simpa [k y hy (hg.within hey)] using hsy hs

end

/-! ### A holder leaves an extent (03 R68) -/

/-- Extents that keep their place one by one: none is served that was not. -/
structure Kin (p : Nat) (s t : State) : Prop where
  ranges : t.exts.map Extent.rng = s.exts.map Extent.rng
  served : ∀ e ∈ t.exts, ∃ y ∈ s.exts, y.rng = e.rng ∧ (served e p = true → served y p = true)

/-- No extent at a base is served. -/
def UnservedBase (b p : Nat) (t : State) : Prop := ∀ e ∈ t.exts, e.base = b → served e p = false

section
variable {p : Nat} {s t u : State} {b : Nat}

theorem Kin.refl (p : Nat) (s : State) : Kin p s s := ⟨rfl, fun e he => ⟨e, he, rfl, id⟩⟩

theorem Kin.trans (h : Kin p s t) (k : Kin p t u) : Kin p s u :=
  ⟨k.ranges.trans h.ranges, fun e he => by
    obtain ⟨y, hy, hey, hsy⟩ := k.served e he
    obtain ⟨z, hz, hyz, hsz⟩ := h.served y hy
    exact ⟨z, hz, hyz.trans hey, hsz ∘ hsy⟩⟩

theorem Kin.of_exts (h : t.exts = s.exts) : Kin p s t := ⟨congrArg _ h, fun e he => ⟨e, h ▸ he, rfl, id⟩⟩

theorem Kin.thins (h : Kin p s t) : Thins p s t := fun e he => by
  obtain ⟨y, hy, hey, hsy⟩ := h.served e he
  exact ⟨y, hy, hey ▸ ⟨Nat.le_refl _, Nat.le_refl _⟩, hsy⟩

theorem Kin.unservedBase (h : Kin p s t) (k : UnservedBase b p s) : UnservedBase b p t := fun e he heb => by
  obtain ⟨y, hy, hey, hsy⟩ := h.served e he
  have hyb : y.base = b := (congrArg Prod.fst hey).trans heb
  rw [← Bool.not_eq_true]
  exact fun hs => by simpa [k y hy hyb] using hsy hs

theorem Kin.tidy (h : Kin p s t) (k : Tidy s.exts) : Tidy t.exts := by
  refine ⟨fun e he => ?_, ?_⟩
  · obtain ⟨y, hy, hey, -⟩ := h.served e he
    have hlen : y.len = e.len := congrArg Prod.snd hey
    exact hlen ▸ k.some y hy
  · have hs := k.apart
    rw [← List.pairwise_map (f := Extent.rng) (R := Apart)] at hs ⊢
    rwa [h.ranges]

theorem extMap_kin (s : State) (b : Nat) {f : Extent → Extent} (hf : ∀ e, (f e).rng = e.rng)
    (hs : ∀ e, served (f e) p = true → served e p = true) : Kin p s (extMap s b f) := by
  refine ⟨?_, fun e he => ?_⟩
  · unfold extMap
    rw [List.map_map]
    refine List.map_congr_left fun e _ => ?_
    rw [Function.comp_apply]
    split
    · exact hf e
    · rfl
  · obtain ⟨y, hy, rfl⟩ := List.mem_map.mp he
    refine ⟨y, hy, ?_⟩
    split
    · exact ⟨(hf y).symm, hs y⟩
    · exact ⟨rfl, id⟩

theorem extMap_unservedBase (s : State) {b : Nat} {f : Extent → Extent} (hf : ∀ e, served (f e) p = false) :
    UnservedBase b p (extMap s b f) := fun e he heb => by
  obtain ⟨y, -, rfl⟩ := List.mem_map.mp he
  by_cases hy : y.base = b
  · rw [if_pos hy]
    exact hf y
  · rw [if_neg hy] at heb
    exact absurd heb hy

theorem leftExt_unserved (e : Extent) (p : Nat) : served (leftExt e) p = false := rfl

theorem setHolder_sanitising_unserved (e : Extent) (p : Nat) : served (setHolder e p .sanitising) p = false := by
  rw [← Bool.not_eq_true, served_iff, holderSt_setHolder_self]
  cases holderSt e p <;> simp

theorem dropHolder_unserved_self (e : Extent) (p : Nat) : served (dropHolder e p) p = false := by
  rw [← Bool.not_eq_true, served_iff, holderSt_dropHolder, if_pos rfl]
  simp

theorem toSanitising_kin (s : State) (b p : Nat) : Kin p s (toSanitising s b) :=
  (extMap_kin s b (f := leftExt) (fun _ => rfl) fun e h => by simp [leftExt_unserved] at h).trans
    (.of_exts (toSanitising_exts s b))

theorem toSanitising_unservedBase (s : State) (b p : Nat) : UnservedBase b p (toSanitising s b) := fun e he =>
  extMap_unservedBase s (f := leftExt) (fun x => leftExt_unserved x p) e (toSanitising_exts s b ▸ he)

theorem finishRemoval_kin (s : State) (b p : Nat) : Kin p s (finishRemoval s b p) := by
  have hdrop : Kin p s (extMap s b fun e => dropHolder e p) :=
    extMap_kin s b (fun _ => rfl) fun e h => by simp [dropHolder_unserved_self] at h
  unfold finishRemoval
  split
  · dsimp only
    split
    · refine Kin.trans ?_ (.of_exts (listChange_exts _ _))
      split
      · exact hdrop.trans (toSanitising_kin _ b p)
      · exact hdrop
    · exact .refl p s
  · exact .refl p s

/-- The removal of a holder begins: the extents at its base serve it no more. -/
theorem startRemoval_kin (s : State) (b p : Nat) :
    Kin p s (startRemoval s b p) ∧ ((∃ e ∈ s.exts, e.base = b) → UnservedBase b p (startRemoval s b p)) := by
  unfold startRemoval
  split
  next e he =>
    dsimp only
    have hsnap : (snapLeave s e p).exts = s.exts := (snapLeave_moves (F := 66573) rfl (.refl _ s)).exts_eq (by decide)
    have hset : Kin p s (extMap (snapLeave s e p) b fun e => setHolder e p .sanitising) :=
      Kin.trans (.of_exts hsnap) (extMap_kin _ b (fun _ => rfl) fun e h => by simp [setHolder_sanitising_unserved] at h)
    have hunserved : UnservedBase b p (extMap (snapLeave s e p) b fun e => setHolder e p .sanitising) :=
      extMap_unservedBase _ fun e => setHolder_sanitising_unserved e p
    have hrecall : ∀ u : State, Kin p u (finishRemoval (if e.attr.sharing = 1 then recallHolder (listChange u [p]) e p
        else listChange u [p]) b p) := fun u => by
      refine Kin.trans (Kin.of_exts ?_) (finishRemoval_kin _ b p)
      split
      · exact ((recallHolder_moves (F := 68719509505) rfl (.refl _ _)).exts_eq (by decide)).trans (listChange_exts u [p])
      · exact listChange_exts u [p]
    exact ⟨hset.trans (hrecall _), fun _ => (hrecall _).unservedBase hunserved⟩
  next hnone => exact ⟨.refl p s, fun ⟨e, he, heb⟩ => absurd heb (by simpa using List.find?_eq_none.mp hnone e he)⟩

theorem leaveExt_kin (s : State) (b p : Nat) :
    Kin p s (leaveExt s b p) ∧ ((∃ e ∈ s.exts, e.base = b) → UnservedBase b p (leaveExt s b p)) := by
  unfold leaveExt
  split
  · split
    · exact startRemoval_kin s b p
    · have hlist : ∀ u, Kin p u (listChange u [p]) := fun u => .of_exts (listChange_exts u [p])
      exact ⟨(toSanitising_kin s b p).trans (hlist _), fun _ => (hlist _).unservedBase (toSanitising_unservedBase s b p)⟩
  next hnone => exact ⟨.refl p s, fun ⟨e, he, heb⟩ => absurd heb (by simpa using List.find?_eq_none.mp hnone e he)⟩

end

/-! ### A piece is cut out of an extent of one holder (03 R60) -/

theorem extInsert_perm (e : Extent) (l : List Extent) : (extInsert e l).Perm (e :: l) := by
  induction l with
  | nil => exact .refl _
  | cons x l ih =>
    unfold extInsert
    split
    · exact .refl _
    · exact (ih.cons x).trans (.swap e x l)

/-- A part of an extent. -/
def partExt (e : Extent) (x : GranRange) : Extent := { e with base := x.1, len := x.2 }

/-- A part that is not empty joins the extents. -/
def insertPart (e : Extent) (l : List Extent) (x : GranRange) : List Extent :=
  if x.2 = 0 then l else extInsert (partExt e x) l

/-- The parts of an extent before, in and after a range. -/
def partsOf (e : Extent) (x : GranRange) : List GranRange :=
  [(e.base, x.1 - e.base), x, (x.1 + x.2, e.base + e.len - (x.1 + x.2))]

theorem carve_exts (s : State) (e : Extent) (x : GranRange) :
    (carve s e x.1 x.2).exts = (partsOf e x).foldl (insertPart e) (extDrop s e.base).exts := by
  unfold carve partsOf insertPart
  dsimp only [List.foldl]
  split <;> split <;> split <;> rfl

theorem mem_insertPart {e y : Extent} {l : List Extent} {x : GranRange} :
    y ∈ insertPart e l x ↔ (x.2 ≠ 0 ∧ y = partExt e x) ∨ y ∈ l := by
  unfold insertPart
  split
  · next h => simp [h]
  · next h => simp [h, mem_extInsert]

theorem mem_foldl_insertPart {e y : Extent} (xs : List GranRange) (l : List Extent) :
    y ∈ xs.foldl (insertPart e) l ↔ (∃ x ∈ xs, x.2 ≠ 0 ∧ y = partExt e x) ∨ y ∈ l := by
  induction xs generalizing l with
  | nil => simp
  | cons x xs ih =>
    rw [List.foldl_cons, ih, mem_insertPart, List.exists_mem_cons_iff]
    exact or_assoc.symm.trans (or_congr_left Or.comm)

/-- Parts of an extent that lie apart, put among extents that lie apart from them. -/
theorem foldl_insertPart_tidy {e : Extent} (xs : List GranRange) {l : List Extent} (hl : Tidy l) (hxs : xs.Pairwise Apart)
    (h : ∀ x ∈ xs, ∀ y ∈ l, Apart x y.rng) : Tidy (xs.foldl (insertPart e) l) := by
  induction xs generalizing l with
  | nil => exact hl
  | cons x xs ih =>
    obtain ⟨hx, hxs⟩ := List.pairwise_cons.mp hxs
    have hrest : ∀ z ∈ xs, ∀ y ∈ insertPart e l x, Apart z y.rng := fun z hz y hy => by
      rcases mem_insertPart.mp hy with ⟨-, rfl⟩ | hy
      · exact (hx z hz).symm
      · exact h z (List.mem_cons_of_mem _ hz) y hy
    refine ih ⟨fun y hy => ?_, ?_⟩ hxs hrest
    · rcases mem_insertPart.mp hy with ⟨h0, rfl⟩ | hy
      · exact Nat.pos_of_ne_zero h0
      · exact hl.some y hy
    · unfold insertPart
      split
      · exact hl.apart
      · refine ((extInsert_perm (partExt e x) l).pairwise_iff fun h => Apart.symm h).mpr (List.pairwise_cons.mpr ⟨?_, hl.apart⟩)
        exact fun y hy => h x List.mem_cons_self y hy

section
variable {s : State} {e : Extent} {x y : GranRange} {p : Nat}

/-- A range lies in one extent. -/
def Whole (s : State) (x : GranRange) : Prop := ∃ e ∈ s.exts, Within x e.rng

theorem partsOf_within (hx : Within x e.rng) : ∀ z ∈ partsOf e x, Within z e.rng := by
  obtain ⟨h1, h2⟩ := hx
  unfold partsOf Within Extent.rng at *
  simp only [List.mem_cons, List.not_mem_nil, or_false, forall_eq_or_imp, forall_eq]
  dsimp only at *
  omega

theorem partsOf_apart (hx : Within x e.rng) : (partsOf e x).Pairwise Apart := by
  obtain ⟨h1, h2⟩ := hx
  unfold Extent.rng at h1 h2
  unfold partsOf Apart
  dsimp only at h1 h2
  simp only [List.pairwise_cons, List.mem_cons, List.not_mem_nil, or_false, forall_eq_or_imp, forall_eq, false_imp_iff,
    implies_true, List.Pairwise.nil, and_true]
  omega

theorem carve_mem {z : Extent} : z ∈ (carve s e x.1 x.2).exts ↔
    (∃ r ∈ partsOf e x, r.2 ≠ 0 ∧ z = partExt e r) ∨ (z ∈ s.exts ∧ z.base ≠ e.base) := by
  rw [carve_exts, mem_foldl_insertPart]
  unfold extDrop
  rw [List.mem_filter, decide_eq_true_eq]

theorem carve_tidy (hs : Tidy s.exts) (he : e ∈ s.exts) (hx : Within x e.rng) : Tidy (carve s e x.1 x.2).exts := by
  rw [carve_exts]
  refine foldl_insertPart_tidy _ ⟨fun y hy => hs.some y (List.mem_filter.mp hy).1, hs.apart.sublist List.filter_sublist⟩
    (partsOf_apart hx) fun z hz y hy => ?_
  obtain ⟨hy, hyb⟩ := List.mem_filter.mp hy
  have hsymm : Std.Symm fun a b : Extent => Apart a.rng b.rng := ⟨fun _ _ => Apart.symm⟩
  have hey : Apart e.rng y.rng := hs.apart.forall he hy fun h => by simp [h] at hyb
  obtain ⟨h1, h2⟩ := partsOf_within hx z hz
  unfold Apart at *
  omega

theorem carve_thins (he : e ∈ s.exts) (hx : Within x e.rng) (p : Nat) : Thins p s (carve s e x.1 x.2) := fun z hz => by
  rcases carve_mem.mp hz with ⟨r, hr, -, rfl⟩ | ⟨hz, -⟩
  · exact ⟨e, he, partsOf_within hx r hr, id⟩
  · exact ⟨z, hz, ⟨Nat.le_refl _, Nat.le_refl _⟩, id⟩

/-- A range in one extent, apart from the piece that is cut out, is in one extent still. -/
theorem carve_whole (hs : Tidy s.exts) (he : e ∈ s.exts) (hx : Within x e.rng) (hxy : Apart x y) (hy : 1 ≤ y.2)
    (h : Whole s y) : Whole (carve s e x.1 x.2) y := by
  obtain ⟨z, hz, hyz⟩ := h
  by_cases hb : z.base = e.base
  · obtain rfl := hs.eq_of_base hz he hb
    have hpart : ∃ r ∈ partsOf z x, r.2 ≠ 0 ∧ Within y r := by
      unfold partsOf Within Apart Extent.rng at *
      dsimp only at *
      simp only [List.exists_mem_cons_iff, List.not_mem_nil, false_and, exists_false, or_false]
      omega
    obtain ⟨r, hr, h0, hyr⟩ := hpart
    exact ⟨partExt z r, carve_mem.mpr (.inl ⟨r, hr, h0, rfl⟩), hyr⟩
  · exact ⟨z, carve_mem.mpr (.inr ⟨hz, hb⟩), hyz⟩

end

/-! ### One piece is released (03 R66) -/

/-- One piece of a release. -/
def releaseOne (p : Part) (s : State) (x : GranRange) : State :=
  match extOfGran s x.1 with
  | some e =>
    if !rangeIn e p x then s
    else if sharedExt e then leaveExt s e.base p
    else leaveExt (carve s e x.1 x.2) x.1 p
  | none => s

theorem doRelease_eq (s : State) (p : Part) (l : List GranRange) : doRelease s p l = l.foldl (releaseOne p) s := rfl

theorem Kin.whole {p : Nat} {s t : State} {x : GranRange} (h : Kin p s t) (hx : Whole s x) : Whole t x := by
  obtain ⟨e, he, hxe⟩ := hx
  have hmem : e.rng ∈ t.exts.map Extent.rng := h.ranges ▸ List.mem_map_of_mem he
  obtain ⟨y, hy, hye⟩ := List.mem_map.mp hmem
  exact ⟨y, hy, hye ▸ hxe⟩

theorem extOfGran_of_mem {s : State} {e : Extent} {g : Nat} (hs : Tidy s.exts) (he : e ∈ s.exts) (hg : GranIn g e.rng) :
    extOfGran s g = some e := by
  have hsome : (extOfGran s g).isSome = true := by
    unfold extOfGran
    rw [List.find?_isSome]
    exact ⟨e, he, by simpa [GranIn, Extent.rng] using hg⟩
  obtain ⟨y, hy⟩ := Option.isSome_iff_exists.mp hsome
  have hyg : GranIn g y.rng := by simpa [GranIn, Extent.rng] using List.find?_some hy
  rw [hy, hs.eq_of_granIn (List.mem_of_find?_eq_some hy) he hyg hg]

/-- What the release of a piece does to extents that lie apart: its granules are served no more, and other pieces stay whole. -/
theorem releaseOne_step {s : State} {p : Part} {x : GranRange} (hs : Tidy s.exts) (hx : 1 ≤ x.2) (hw : Whole s x) :
    Tidy (releaseOne p s x).exts ∧ Thins p s (releaseOne p s x) ∧ (∀ g, GranIn g x → UnservedAt (releaseOne p s x) p g) ∧
      ∀ y, 1 ≤ y.2 → Apart x y → Whole s y → Whole (releaseOne p s x) y := by
  obtain ⟨e, he, hxe⟩ := hw
  have hfirst : GranIn x.1 x := ⟨Nat.le_refl _, Nat.lt_add_of_pos_right hx⟩
  unfold releaseOne
  rw [extOfGran_of_mem hs he (hfirst.within hxe)]
  dsimp only
  split
  · next hnot =>
    have hout : served e p = false := by
      have hnone : holderSt e p = none := by
        unfold Within Extent.rng at hxe
        simpa [rangeIn, hx, hxe.1, hxe.2] using hnot
      rw [← Bool.not_eq_true, served_iff, hnone]
      simp
    refine ⟨hs, .refl p s, fun g hg z hz hgz => ?_, fun _ _ _ h => h⟩
    rwa [hs.eq_of_granIn hz he hgz (hg.within hxe)]
  · split
    · obtain ⟨hkin, hbase⟩ := leaveExt_kin s e.base p
      refine ⟨hkin.tidy hs, hkin.thins, fun g hg z hz hgz => ?_, fun y _ _ h => hkin.whole h⟩
      obtain ⟨y, hy, hyz, -⟩ := hkin.served z hz
      have hye := hs.eq_of_granIn hy he (hyz ▸ hgz) (hg.within hxe)
      exact hbase ⟨e, he, rfl⟩ z hz ((congrArg Prod.fst hyz).symm.trans (congrArg Extent.base hye))
    · have ht := carve_tidy hs he hxe
      obtain ⟨hkin, hbase⟩ := leaveExt_kin (carve s e x.1 x.2) x.1 p
      have hmid : partExt e x ∈ (carve s e x.1 x.2).exts :=
        carve_mem.mpr (.inl ⟨x, by simp [partsOf], by omega, rfl⟩)
      refine ⟨hkin.tidy ht, (carve_thins he hxe p).trans hkin.thins, fun g hg z hz hgz => ?_, fun y hy hxy h =>
        hkin.whole (carve_whole hs he hxe hxy hy h)⟩
      obtain ⟨y, hy, hyz, -⟩ := hkin.served z hz
      have hye := ht.eq_of_granIn hy hmid (hyz ▸ hgz) hg
      exact hbase ⟨_, hmid, rfl⟩ z hz ((congrArg Prod.fst hyz).symm.trans (congrArg Extent.base hye))

/-- Released pieces that lie apart, each in one extent, have no granule that is served. -/
theorem doRelease_unserved {p : Part} (l : List GranRange) {s : State} (hs : Tidy s.exts) (hl : l.Pairwise Apart)
    (h : ∀ x ∈ l, 1 ≤ x.2 ∧ Whole s x) :
    Thins p s (doRelease s p l) ∧ ∀ x ∈ l, ∀ g, GranIn g x → UnservedAt (doRelease s p l) p g := by
  rw [doRelease_eq]
  induction l generalizing s with
  | nil => exact ⟨.refl p s, fun x hx => absurd hx (List.not_mem_nil)⟩
  | cons x l ih =>
    obtain ⟨hxl, hl⟩ := List.pairwise_cons.mp hl
    obtain ⟨hlen, hwhole⟩ := h x List.mem_cons_self
    obtain ⟨htidy, hthins, hout, hrest⟩ := releaseOne_step (p := p) hs hlen hwhole
    obtain ⟨hthins', hout'⟩ := ih htidy hl fun y hy => by
      obtain ⟨hy1, hyw⟩ := h y (List.mem_cons_of_mem _ hy)
      exact ⟨hy1, hrest y hy1 (hxl y hy) hyw⟩
    refine ⟨hthins.trans hthins', fun y hy g hg => ?_⟩
    rcases List.mem_cons.mp hy with rfl | hy
    · exact hthins'.unservedAt (hout g hg)
    · exact hout' y hy g hg

/-! ### The pieces of a release (03 R60) -/

/-- Pieces of ranges: not empty, apart, each in one extent, and they have every granule of the ranges that an extent has. -/
structure Pieces (s : State) (xs ps : List GranRange) : Prop where
  whole : ∀ y ∈ ps, 1 ≤ y.2 ∧ Whole s y
  inside : ∀ y ∈ ps, ∃ x ∈ xs, Within y x
  apart : ps.Pairwise Apart
  all : ∀ x ∈ xs, ∀ g, GranIn g x → ∀ e ∈ s.exts, GranIn g e.rng → ∃ y ∈ ps, GranIn g y

/-- The piece of a range in an extent. -/
def pieceIn (x : GranRange) (e : Extent) : GranRange :=
  (max x.1 e.base, min (x.1 + x.2) (e.base + e.len) - max x.1 e.base)

theorem piecesOf_eq {s : State} {p : Part} {ok : List ExtState} {x : GranRange} {l : List GranRange}
    (h : piecesOf s p ok x = some l) : 1 ≤ x.2 ∧ l = (overlapping s x.1 x.2).map (pieceIn x) := by
  unfold piecesOf at h
  dsimp only at h
  split at h
  · next hc =>
    rw [← Option.some.inj h, List.map_map]
    simp only [Bool.and_eq_true, decide_eq_true_eq] at hc
    exact ⟨hc.1.1, rfl⟩
  · cases h

theorem mem_overlapping {s : State} {x : GranRange} {e : Extent} :
    e ∈ overlapping s x.1 x.2 ↔ e ∈ s.exts ∧ e.base < x.1 + x.2 ∧ x.1 < e.base + e.len := by
  unfold overlapping
  simp [List.mem_filter]

theorem piecesOf_pieces {s : State} {p : Part} {ok : List ExtState} {x : GranRange} {l : List GranRange}
    (hs : Tidy s.exts) (h : piecesOf s p ok x = some l) : Pieces s [x] l := by
  obtain ⟨hx, rfl⟩ := piecesOf_eq h
  refine ⟨fun y hy => ?_, fun y hy => ⟨x, List.mem_cons_self, ?_⟩, ?_, fun z hz g hg e he hge => ?_⟩
  · obtain ⟨e, he, rfl⟩ := List.mem_map.mp hy
    obtain ⟨he, h1, h2⟩ := mem_overlapping.mp he
    have := hs.some e he
    exact ⟨by unfold pieceIn; dsimp only; omega, e, he, by unfold pieceIn Within Extent.rng; dsimp only; omega⟩
  · obtain ⟨e, he, rfl⟩ := List.mem_map.mp hy
    obtain ⟨he, h1, h2⟩ := mem_overlapping.mp he
    have := hs.some e he
    unfold pieceIn Within
    dsimp only
    omega
  · refine List.pairwise_map.mpr ((hs.apart.sublist List.filter_sublist).imp fun {a b} hab => ?_)
    unfold Apart pieceIn Extent.rng at *
    dsimp only at *
    omega
  · obtain rfl := List.mem_singleton.mp hz
    unfold GranIn Extent.rng at *
    dsimp only at *
    refine ⟨pieceIn z e, List.mem_map_of_mem (mem_overlapping.mpr ⟨he, by omega, by omega⟩), ?_⟩
    unfold pieceIn
    dsimp only
    omega

theorem Within.apart {a b x y : GranRange} (ha : Within a x) (hb : Within b y) (h : Apart x y) : Apart a b := by
  obtain ⟨h1, h2⟩ := ha
  obtain ⟨h3, h4⟩ := hb
  unfold Apart at *
  omega

theorem Pieces.append {s : State} {x : GranRange} {xs l r : List GranRange} (hl : Pieces s [x] l) (hr : Pieces s xs r)
    (hx : ∀ y ∈ xs, Apart x y) : Pieces s (x :: xs) (l ++ r) := by
  refine ⟨fun y hy => (List.mem_append.mp hy).elim (hl.whole y) (hr.whole y), fun y hy => ?_, ?_, fun z hz g hg e he hge => ?_⟩
  · rcases List.mem_append.mp hy with hy | hy
    · obtain ⟨z, hz, hyz⟩ := hl.inside y hy
      exact ⟨z, List.mem_cons.mpr (.inl (List.mem_singleton.mp hz)), hyz⟩
    · obtain ⟨z, hz, hyz⟩ := hr.inside y hy
      exact ⟨z, List.mem_cons_of_mem _ hz, hyz⟩
  · refine List.pairwise_append.mpr ⟨hl.apart, hr.apart, fun a ha b hb => ?_⟩
    obtain ⟨y, hy, hay⟩ := hl.inside a ha
    obtain ⟨z, hz, hbz⟩ := hr.inside b hb
    exact hay.apart hbz (List.mem_singleton.mp hy ▸ hx z hz)
  · rcases List.mem_cons.mp hz with rfl | hz
    · obtain ⟨y, hy, hgy⟩ := hl.all z List.mem_cons_self g hg e he hge
      exact ⟨y, List.mem_append_left _ hy, hgy⟩
    · obtain ⟨y, hy, hgy⟩ := hr.all z hz g hg e he hge
      exact ⟨y, List.mem_append_right _ hy, hgy⟩

theorem allPieces_pieces {s : State} {p : Part} {ok : List ExtState} {xs ps : List GranRange} (hs : Tidy s.exts)
    (hx : xs.Pairwise Apart) (h : allPieces s p ok xs = some ps) : Pieces s xs ps := by
  induction xs generalizing ps with
  | nil =>
    obtain rfl : [] = ps := Option.some.inj h
    exact ⟨by simp, by simp, .nil, by simp⟩
  | cons x xs ih =>
    obtain ⟨hxs, hx⟩ := List.pairwise_cons.mp hx
    unfold allPieces at h
    rw [List.foldr_cons] at h
    split at h
    next l r hl hr =>
      obtain rfl := Option.some.inj h
      exact (piecesOf_pieces hs hl).append (ih hx hr) hxs
    · cases h

/-- The ranges of a release that its checks allow lie apart, and its pieces are theirs. -/
theorem pieces_of_releaseCode {s : State} {p : Part} {ok : List ExtState} {all : Bool} {xs ps : List GranRange}
    (hs : Tidy s.exts) (h : releaseCode s p ok all xs = (.success, ps)) : Pieces s xs ps := by
  unfold releaseCode at h
  split at h
  · cases h
  · next hc =>
    have hx : xs.Pairwise fun a b => a.1 + a.2 ≤ b.1 ∨ b.1 + b.2 ≤ a.1 := by simpa using hc
    split at h
    · cases h
    · next qs hq =>
      split at h
      · cases h
      · cases h
        exact allPieces_pieces hs hx hq

/-- No granule of the ranges of an admitted release is served after it. -/
theorem doRelease_ranges {s : State} {p : Part} {ok : List ExtState} {all : Bool} {xs ps : List GranRange}
    (hs : Tidy s.exts) (h : releaseCode s p ok all xs = (.success, ps)) :
    ∀ x ∈ xs, ∀ g, GranIn g x → UnservedAt (doRelease s p ps) p g := fun x hx g hg e he hge => by
  have hpieces := pieces_of_releaseCode hs h
  obtain ⟨hthins, hout⟩ := doRelease_unserved (p := p) ps hs hpieces.apart hpieces.whole
  obtain ⟨y, hy, hey, -⟩ := hthins e he
  obtain ⟨z, hz, hgz⟩ := hpieces.all x hx g hg y hy (hge.within hey)
  exact hout z hz g hgz e he hge

/-- Extents in the order of their bases, none empty, lie apart. -/
theorem tidy_of_ordered {l : List Extent} (hlen : ∀ e ∈ l, 1 ≤ e.len) (h : l.Pairwise fun a b => a.base + a.len ≤ b.base) :
    Tidy l := ⟨hlen, h.imp Or.inl⟩

end Sys2Proof.Machine
end

section
/-! PROOF. The mailbox: reports and poison (02 R54; 03 R75; for O53). -/

namespace Sys2Proof.Machine

open Sys2Proof

/-! ### The poison list (03 R75) -/

theorem mem_linesOf {base len l : Nat} : l ∈ linesOf base len ↔ base / 64 ≤ l ∧ l < base / 64 + len / 64 := by
  unfold linesOf
  rw [List.mem_map]
  refine ⟨fun ⟨i, hi, h⟩ => ?_, fun h => ⟨l - base / 64, List.mem_range.mpr (by omega), by omega⟩⟩
  have := List.mem_range.mp hi
  omega

/-- A poisoned line of an extent is listed. -/
theorem mem_poisonedLines {s : State} {e : Extent} {line : Nat} (hp : line ∈ s.poison) (hg : GranIn (granOf (line * 64)) e.rng) :
    line ∈ poisonedLines s e := by
  have hgran : Config.granBytes = 268435456 := rfl
  unfold GranIn granOf Extent.rng at hg
  rw [hgran] at hg
  dsimp only at hg
  have hin : e.base * 268435456 ≤ line * 64 ∧ line * 64 < e.base * 268435456 + e.len * 268435456 := by omega
  unfold poisonedLines
  rw [hgran]
  dsimp only
  split
  · exact mem_linesOf.mpr (by omega)
  · refine List.mem_append_left _ (List.mem_append_left _ (List.mem_filter.mpr ⟨List.mem_append_left _ hp, ?_⟩))
    simpa using hin

/-- The poison list has every poisoned line that the partition holds. -/
theorem mem_poisonList {s : State} {p : Part} {line : Nat} (hp : line ∈ s.poison) (hh : (heldExt s p (line * 64)).isSome = true) :
    line * 64 ∈ poisonList s p := by
  obtain ⟨e, he⟩ := Option.isSome_iff_exists.mp hh
  obtain ⟨hext, hserved⟩ := Option.filter_eq_some_iff.mp he
  have hmem : e ∈ s.exts := List.mem_of_find?_eq_some hext
  have hg : GranIn (granOf (line * 64)) e.rng := by simpa [GranIn, Extent.rng] using List.find?_some hext
  unfold poisonList
  refine List.mem_map_of_mem (List.mem_eraseDups.mpr (List.mem_flatMap.mpr ⟨e, ?_, mem_poisonedLines hp hg⟩))
  exact List.mem_filter.mpr ⟨hmem, hserved⟩

/-! ### Injected poison (02 R54) -/

theorem mem_ins (l : List Nat) (x : Nat) : x ∈ ins l x := by
  unfold ins
  split
  · next h => simpa using h
  · exact List.mem_cons_self

/-- An injection poisons its line at once. -/
theorem injectAt_poison (s : State) (dpa : Nat) : lineOf dpa ∈ (injectAt s dpa).poison := by
  have hnote : ∀ u b, (noteWrite u b).poison = u.poison := fun u b => (noteWrite_frame (k := .memory) u b (by decide)).2.1
  unfold injectAt
  dsimp only
  rw [hnote]
  exact mem_ins _ _

/-! ### Poison cleared through the mailbox (02 R54) -/

/-- Clear Poison writes a whole line for the mailbox. -/
def clearReq (h : Head) (p : Part) (dpa : Nat) (d : Line) : Req :=
  { kind := .write, p := p, src := .mailbox h, dpa := dpa, data := d, mask := fullMask }

section
variable {s : State} {h : Head} {p : Part} {dpa : Nat} {d : Line} {e : Extent}

theorem clearReq_atHome (l : SoloLine s p dpa e) : atHome s (clearReq h p dpa d) = clearReq h p dpa d := by
  have hver : reqVer s (clearReq h p dpa d) = none := by
    simp [reqVer, verAt, clearReq, extOf_of_heldExt l.held, l.priv]
  rw [atHome, hver]
  rfl

/-- A line written for the mailbox is performed at its home. -/
theorem clearReq_homeReq (l : SoloLine s p dpa e) (hroom : HasRoom s p dpa) :
    homeReq s (clearReq h p dpa d) [] = perform (offered s (clearReq h p dpa d)) (clearReq h p dpa d) [] := by
  have hfree : (queueRoom (offered s (clearReq h p dpa d)) (pcOfAddr dpa) (levelOf (offered s (clearReq h p dpa d)) (clusterOf dpa)
      (some p.val) (classOf (offered s (clearReq h p dpa d)) dpa)) (classOf (offered s (clearReq h p dpa d)) dpa) &&
      (pcOf (offered s (clearReq h p dpa d)) (pcOfAddr dpa)).held.isEmpty) = true :=
    Bool.and_eq_true_iff.mpr ⟨hroom.room, List.isEmpty_iff.mpr hroom.idle⟩
  unfold homeReq
  dsimp only
  rw [clearReq_atHome l, show homeSt (qosOffer s (clusterOf (clearReq h p dpa d).dpa) (some (clearReq h p dpa d).p.val) 64)
    (clearReq h p dpa d).dpa = .serve from hroom.serves]
  exact if_pos hfree

theorem clearReq_perform (s : State) :
    perform s (clearReq h p dpa d) [] = serveWrite (queued s (clearReq h p dpa d)) (clearReq h p dpa d) := rfl

/-- The mailbox is answered when the write is accepted. -/
theorem clearReq_accepted (halone : twinUp s = false) : .mbRsp p h .success [] ∈ (acceptDone s (clearReq h p dpa d)).out := by
  unfold acceptDone
  extract_lets b u
  have hu : mirrors u = false := by
    refine mirrors_alone ?_
    show twinUp (ite _ _ _) = false
    split
    · exact halone
    · exact halone
  dsimp only [clearReq]
  rw [hu]
  exact List.mem_cons_self

/-- A line of the mailbox that is held unshared, outside open windows, goes to its home. -/
theorem clearMb_unshared (l : SoloLine s p dpa e) (hdpa : dpa % 64 = 0) (ht : s.boot.tiered = false)
    (hrole : bRole s ≠ roleFenced) (hdec : s.belay.deciding = false) (hw : ∀ i, i < 64 → inWindow s p (dpa + i) = false) :
    clearMb s h p dpa d = homeReq s (clearReq h p dpa d) [] := by
  have hmask : windowMask s p dpa fullMask = fullMask := windowMask_outside (by rwa [lineDpa_eq hdpa]) _
  have hmay : (mayWrite e p && decide (e.attr.sharing ≠ 2)) = true := by simp [mayWrite, sharedExt, l.priv]
  unfold clearMb
  rw [l.held]
  dsimp only
  rw [if_neg hrole, hdec, hmay, lineDpa_eq hdpa, if_neg Bool.false_ne_true, if_pos rfl]
  show windowWrite s (clearReq h p dpa d) _ = _
  unfold windowWrite
  dsimp only
  rw [show windowMask s (clearReq h p dpa d).p (clearReq h p dpa d).dpa (clearReq h p dpa d).mask = (clearReq h p dpa d).mask
    from hmask, if_pos rfl]
  unfold sendWrite
  rw [l.alone, Bool.and_false]
  exact routeReq_unshared l.priv ht _ []

/-- The mailbox's write, served: the line is stored as it came, its poison goes, and the mailbox is answered. -/
theorem clearReq_served (l : SoloLine s p dpa e) (hwf : Memory.wf s.mem = true) (hdpa : dpa % 64 = 0) :
    dpa / 64 ∉ (serveWrite s (clearReq h p dpa d)).poison ∧
      .mbRsp p h .success [] ∈ (serveWrite s (clearReq h p dpa d)).out ∧
      ∀ k, k < 64 → Memory.get (serveWrite s (clearReq h p dpa d)).mem (dpa + k) = d.extractLsb' (8 * k) 8 := by
  have hput : Same .memory (putLine (lineTaken s (clearReq h p dpa d)) (lineOf dpa) d) (applyWrite s (clearReq h p dpa d)) := by
    rw [applyWrite_unshared (r := clearReq h p dpa d) l]
    exact noteWrite_frame (k := .memory) _ _ (by decide)
  have hdone : Same .memory (applyWrite s (clearReq h p dpa d)) (acceptDone (applyWrite s (clearReq h p dpa d)) (clearReq h p dpa d)) :=
    acceptDone_frame (k := .memory) _ _ (by decide)
  have hmem := hdone.1.trans hput.1
  have hpoison := hdone.2.1.trans hput.2.1
  rw [serveWrite_unshared (r := clearReq h p dpa d) l]
  refine ⟨?_, clearReq_accepted ((applyWrite_twinUp (r := clearReq h p dpa d) l).trans l.alone), fun k hk => ?_⟩
  · rw [hpoison]
    exact putLine_poison _ _ _
  · have hline : dpa + k = lineOf dpa * 64 + k := by rw [lineOf, lineDpa_eq hdpa]
    rw [hmem, hline]
    exact putLine_byte (s := lineTaken s (clearReq h p dpa d)) hwf _ d hk

end

end Sys2Proof.Machine
end

section
/-! PROOF. A configuration request touches nothing that the journal's entries read (for O53): the pitch's activity and
a head's traffic mark are read by the power ladder and the pins alone. So what reads the state reads the same after the
touch, and every update that an entry runs commutes with it: `simp` moves the touch outwards through an update's body. -/

namespace Sys2Proof.Machine

open Sys2Proof

/-- A value of the touched run is the touched value of the other. -/
abbrev Lifts {α : Type} (τ : α → α) (x y : α) : Prop := y = τ x

/-- The touched state, and the touched state of a pair. -/
abbrev Touched (h : Nat) (s t : State) : Prop := Lifts (fun u => ioTouch u h) s t
abbrev TouchedFst {β : Type} (h : Nat) (x y : State × β) : Prop := Lifts (fun x => (ioTouch x.1 h, x.2)) x y

theorem Lifts.ite {α : Type} {τ : α → α} {c : Prop} [Decidable c] {a b a' b' : α} (ha : c → Lifts τ a a')
    (hb : ¬c → Lifts τ b b') : Lifts τ (if c then a else b) (if c then a' else b') := by
  split
  · next hc => exact ha hc
  · next hc => exact hb hc

theorem Lifts.mkFst {β : Type} {h : Nat} {a b : State} {x : β} (k : Touched h a b) : TouchedFst h (a, x) (b, x) :=
  congrArg (·, x) k

section
variable (s : State) (h : Nat)

/-! ### The touch moves outwards -/

/-- An update of a touched state that leaves the power state and the heads is the touched update. -/
@[simp] theorem mk_ioTouch x_pending x_out x_free x_regs x_lag x_hdr x_mem x_poison x_damage x_boot x_flash x_tb x_cfgs
    x_hdms x_parts x_exts x_attrDue x_reserve x_sanReqs x_sanHalf x_fmLog x_dir x_trans x_lineq x_snaps x_snapCmds x_frames
    x_pinMarks x_lbaMap x_ssd x_locks x_ios x_nextIo x_slots x_rebuild x_tier x_draining x_hints x_index x_segs x_cache
    x_expPitch x_compactQ x_stale x_damaged x_rings x_ringMem x_jobs x_windows x_applied x_steps x_coreTrips x_coresOut x_qos
    x_pcs x_portDiesOut x_clustersOut x_resetting x_stores x_repaired x_ras x_cairn x_belay x_sessions x_pins :
      State.mk x_pending x_out x_free x_regs x_lag x_hdr x_mem x_poison x_damage x_boot x_flash (ioTouch s h).power x_tb
        (ioTouch s h).heads x_cfgs x_hdms x_parts x_exts x_attrDue x_reserve x_sanReqs x_sanHalf x_fmLog x_dir x_trans
        x_lineq x_snaps x_snapCmds x_frames x_pinMarks x_lbaMap x_ssd x_locks x_ios x_nextIo x_slots x_rebuild x_tier
        x_draining x_hints x_index x_segs x_cache x_expPitch x_compactQ x_stale x_damaged x_rings x_ringMem x_jobs
        x_windows x_applied x_steps x_coreTrips x_coresOut x_qos x_pcs x_portDiesOut x_clustersOut x_resetting x_stores
        x_repaired x_ras x_cairn x_belay x_sessions x_pins =
      ioTouch (State.mk x_pending x_out x_free x_regs x_lag x_hdr x_mem x_poison x_damage x_boot x_flash s.power x_tb
        s.heads x_cfgs x_hdms x_parts x_exts x_attrDue x_reserve x_sanReqs x_sanHalf x_fmLog x_dir x_trans x_lineq x_snaps
        x_snapCmds x_frames x_pinMarks x_lbaMap x_ssd x_locks x_ios x_nextIo x_slots x_rebuild x_tier x_draining x_hints
        x_index x_segs x_cache x_expPitch x_compactQ x_stale x_damaged x_rings x_ringMem x_jobs x_windows x_applied
        x_steps x_coreTrips x_coresOut x_qos x_pcs x_portDiesOut x_clustersOut x_resetting x_stores x_repaired x_ras
        x_cairn x_belay x_sessions x_pins) h := rfl

@[simp] theorem ite_ioTouch {c : Prop} {_ : Decidable c} (a b : State) :
    (if c then ioTouch a h else ioTouch b h) = ioTouch (if c then a else b) h := (apply_ite (ioTouch · h) c a b).symm

@[simp] theorem foldl_ioTouch {β : Type} {f : State → β → State} (H : ∀ u x, f (ioTouch u h) x = ioTouch (f u x) h)
    (l : List β) : l.foldl f (ioTouch s h) = ioTouch (l.foldl f s) h := by
  induction l generalizing s with
  | nil => rfl
  | cons x l ih => rw [List.foldl_cons, List.foldl_cons, H, ih]

/-! ### What the heads' readers read stays -/

theorem headOf_ioTouch (k : Nat) :
    (headOf (ioTouch s h) k).ltssm = (headOf s k).ltssm ∧ (headOf (ioTouch s h) k).secure = (headOf s k).secure := by
  by_cases hk : k = h
  · subst hk
    have hself : headOf (ioTouch s k) k = { headOf s k with tlpNow := true } := aget_aset_self ..
    rw [hself]
    exact ⟨rfl, rfl⟩
  · have hother : headOf (ioTouch s h) k = headOf s k := aget_aset_ne _ _ _ hk
    rw [hother]
    exact ⟨rfl, rfl⟩

@[simp] theorem linkUp_ioTouch (k : Nat) : linkUp (ioTouch s h) k = linkUp s k := by
  unfold linkUp
  rw [(headOf_ioTouch s h k).1]

@[simp] theorem ideBlocks_ioTouch (k : Nat) : ideBlocks (ioTouch s h) k = ideBlocks s k := by
  unfold ideBlocks
  rw [(headOf_ioTouch s h k).2]
  rfl

@[simp] theorem sharerDown_ioTouch (sh : Nat) : sharerDown (ioTouch s h) sh = sharerDown s sh := by
  unfold sharerDown
  rw [(headOf_ioTouch s h _).1]

@[simp] theorem masterHead_ioTouch (o : Nat) : masterHead (ioTouch s h) o = masterHead s o := by
  unfold masterHead
  simp only [linkUp_ioTouch, ideBlocks_ioTouch]
  rfl

@[simp] theorem canMaster_ioTouch (o : Nat) : canMaster (ioTouch s h) o = canMaster s o := by
  unfold canMaster
  rw [masterHead_ioTouch]
  rfl

@[simp] theorem freeTag_ioTouch (o : Nat) : freeTag (ioTouch s h) o = freeTag s o := by
  unfold freeTag tagRange tagEffective tagCeiling
  rw [masterHead_ioTouch]
  rfl

@[simp] theorem ownSharers_ioTouch (d : DirEntry) : ownSharers (ioTouch s h) d = ownSharers s d := by
  unfold ownSharers
  simp only [sharerDown_ioTouch]
  rfl

@[simp] theorem entrySharers_ioTouch (d : DirEntry) : entrySharers (ioTouch s h) d = entrySharers s d := by
  unfold entrySharers
  rw [ownSharers_ioTouch]

@[simp] theorem dirShown_ioTouch (line : Nat) : dirShown (ioTouch s h) line = dirShown s line := by
  unfold dirShown
  simp only [ownSharers_ioTouch]
  rfl

@[simp] theorem dirVictim_ioTouch (line : Nat) : dirVictim (ioTouch s h) line = dirVictim s line := by
  have hle : dirVictimLe (ioTouch s h) = dirVictimLe s := by
    funext a b
    unfold dirVictimLe
    rw [entrySharers_ioTouch, entrySharers_ioTouch]
  unfold dirVictim
  rw [hle]
  rfl

@[simp] theorem linesOfHolder_ioTouch (e : Extent) (p : Nat) : linesOfHolder (ioTouch s h) e p = linesOfHolder s e p := by
  unfold linesOfHolder
  simp only [entrySharers_ioTouch]
  rfl

@[simp] theorem snoopFor_ioTouch (r : Req) (pub : Bool) : snoopFor (ioTouch s h) r pub = snoopFor s r pub := by
  unfold snoopFor
  simp only [entrySharers_ioTouch]
  rfl

@[simp] theorem needsVictim_ioTouch (r : Req) : needsVictim (ioTouch s h) r = needsVictim s r := by
  unfold needsVictim entryRoom
  rw [snoopFor_ioTouch, dirVictim_ioTouch]
  rfl

end

end Sys2Proof.Machine
end

section
/-! PROOF. The touch moves outwards through extents, events and the directory's entries (for O53). -/

namespace Sys2Proof.Machine

open Sys2Proof

section
variable (s : State) (h : Nat)

@[simp] theorem fset_ioTouch (f : Fld) (v i j : Nat) : fset (ioTouch s h) f v i j = ioTouch (fset s f v i j) h := rfl

@[simp] theorem finc_ioTouch (f : Fld) (i j : Nat) : finc (ioTouch s h) f i j = ioTouch (finc s f i j) h := rfl

@[simp] theorem fwrap_ioTouch (f : Fld) (i j : Nat) : fwrap (ioTouch s h) f i j = ioTouch (fwrap s f i j) h := rfl

@[simp] theorem fclear_ioTouch (p : RegKey → Bool) : fclear (ioTouch s h) p = ioTouch (fclear s p) h := rfl

@[simp] theorem hupd_ioTouch (b : Blk) (i : Nat) (f : Hdr → Hdr) : hupd (ioTouch s h) b i f = ioTouch (hupd s b i f) h := rfl

@[simp] theorem draw_ioTouch : draw (ioTouch s h) = ((draw s).1, ioTouch (draw s).2 h) := rfl

@[simp] theorem emit_ioTouch (m : Msg) : emit (ioTouch s h) m = ioTouch (emit s m) h := rfl

@[simp] theorem now_ioTouch : now (ioTouch s h) = now s := rfl

@[simp] theorem count_ioTouch : count (ioTouch s h) = count s := rfl

@[simp] theorem cfgUpd_ioTouch (o : Nat) (f : PartCfg → PartCfg) : cfgUpd (ioTouch s h) o f = ioTouch (cfgUpd s o f) h := rfl

@[simp] theorem partUpd_ioTouch (p : Nat) (f : PartState → PartState) :
    partUpd (ioTouch s h) p f = ioTouch (partUpd s p f) h := rfl

@[simp] theorem pcUpd_ioTouch (pc : Nat) (f : PcState → PcState) : pcUpd (ioTouch s h) pc f = ioTouch (pcUpd s pc f) h := rfl

@[simp] theorem ringUpd_ioTouch (p r : Nat) (f : RingState → RingState) :
    ringUpd (ioTouch s h) p r f = ioTouch (ringUpd s p r f) h := rfl

@[simp] theorem twinUp_ioTouch : twinUp (ioTouch s h) = twinUp s := rfl

@[simp] theorem exportGran_ioTouch : exportGran (ioTouch s h) = exportGran s := rfl

@[simp] theorem pState_ioTouch (p : Nat) : pState (ioTouch s h) p = pState s p := rfl

@[simp] theorem msixOf_ioTouch (o vec : Nat) : msixOf (ioTouch s h) o vec = msixOf s o vec := rfl

@[simp] theorem msixSet_ioTouch (o vec : Nat) (e : MsixEntry) :
    msixSet (ioTouch s h) o vec e = ioTouch (msixSet s o vec e) h := rfl

@[simp] theorem signalThrough_ioTouch (o head vec : Nat) :
    signalThrough (ioTouch s h) o head vec = ioTouch (signalThrough s o head vec) h := by
  simp [signalThrough]

@[simp] theorem signalVec_ioTouch (o vec : Nat) : signalVec (ioTouch s h) o vec = ioTouch (signalVec s o vec) h := by
  simp [signalVec]

@[simp] theorem flushVecs_ioTouch (o : Nat) : flushVecs (ioTouch s h) o = ioTouch (flushVecs s o) h := by
  simp [flushVecs]

@[simp] theorem logSignal_ioTouch (p : Part) (log : Nat) :
    logSignal (ioTouch s h) p log = ioTouch (logSignal s p log) h := by
  simp only [logSignal, cfgOf_ioTouch]
  split <;> simp only [signalVec_ioTouch]

@[simp] theorem dcRecords_ioTouch (p : Part) (add forced : Bool) (exts : List GranRange) :
    dcRecords (ioTouch s h) p add forced exts = ioTouch (dcRecords s p add forced exts) h := by
  induction exts generalizing s with
  | nil => rfl
  | cons x rest ih => simp only [dcRecords, cfgUpd_ioTouch, emit_ioTouch, ih]

@[simp] theorem dcEvent_ioTouch (p : Part) (add forced : Bool) (exts : List GranRange) :
    dcEvent (ioTouch s h) p add forced exts = ioTouch (dcEvent s p add forced exts) h := by
  simp [dcEvent]

@[simp] theorem mediaEvent_ioTouch (p : Part) (failure : Bool) (dpa : Nat) :
    mediaEvent (ioTouch s h) p failure dpa = ioTouch (mediaEvent s p failure dpa) h := by
  simp [mediaEvent]

@[simp] theorem stageRec_ioTouch (r : CRec) : stageRec (ioTouch s h) r = (ioTouch (stageRec s r).1 h, (stageRec s r).2) := by
  unfold stageRec
  dsimp only [ioTouch_cairn]
  split <;> rfl

/-- A stage that commutes with the touch is raised as before it. -/
theorem eventBit_ioTouch {b : Blk} {i bit : Nat} {stage : State → State × Bool}
    (H : ∀ u, stage (ioTouch u h) = (ioTouch (stage u).1 h, (stage u).2)) :
    eventBit (ioTouch s h) b i bit stage = (ioTouch (eventBit s b i bit stage).1 h, (eventBit s b i bit stage).2) := by
  unfold eventBit
  simp only [hupd_ioTouch, H, signalVec_ioTouch, ite_ioTouch]
  rfl

/-- A record that is staged where it is enabled. -/
theorem stagedIf_ioTouch (c : State → Bool) (r : State → CRec) (hc : ∀ u, c (ioTouch u h) = c u) (hr : ∀ u, r (ioTouch u h)
    = r u) :
    
    (if c (ioTouch s h) then stageRec (ioTouch s h) (r (ioTouch s h)) else (ioTouch s h, false)) =
      (ioTouch (if c s then stageRec s (r s) else (s, false)).1 h, (if c s then stageRec s (r s) else (s, false)).2) := by
  rw [hc, hr, stageRec_ioTouch]
  split <;> rfl

theorem noteOverflow_ioTouch (x : State × Bool) : noteOverflow (ioTouch x.1 h, x.2) = ioTouch (noteOverflow x) h := by
  unfold noteOverflow
  dsimp only
  rw [eventBit_ioTouch]
  · exact ite_ioTouch ..
  · exact fun u => stagedIf_ioTouch u h (recorded · .cairn 0 .warning)
      (recOf · .cairn 0 (Evt.cairnOverflow).code .warning none []) (fun _ => rfl) fun _ => rfl

@[simp] theorem raise_ioTouch (e : Evt) (i : Nat) (part : Option Nat) (pl : List Byte) (src : Option Nat) (sev : Option
    Sev) :
    
    raise (ioTouch s h) e i part pl src sev = ioTouch (raise s e i part pl src sev) h := by
  unfold raise
  dsimp only
  rw [eventBit_ioTouch]
  · exact noteOverflow_ioTouch ..
  · exact fun u => stagedIf_ioTouch u h (recorded · e.info.1 (src.getD i) (sev.getD e.info.2.2))
      (recOf · e.info.1 (src.getD i) e.code (sev.getD e.info.2.2)
        (if msixOwner e.info.1 i < 16 then some (msixOwner e.info.1 i) else part) pl) (fun _ => rfl) fun _ => rfl

@[simp] theorem record_ioTouch (r : Rec) (src : Nat) (part : Option Nat) (pl : List Byte) :
    record (ioTouch s h) r src part pl = ioTouch (record s r src part pl) h := by
  unfold record
  dsimp only
  rw [stageRec_ioTouch, noteOverflow_ioTouch]
  exact ite_ioTouch ..

@[simp] theorem extOfGran_ioTouch (g : Nat) : extOfGran (ioTouch s h) g = extOfGran s g := rfl

@[simp] theorem extOf_ioTouch (dpa : Nat) : extOf (ioTouch s h) dpa = extOf s dpa := rfl

@[simp] theorem extsOf_ioTouch (p : Nat) : extsOf (ioTouch s h) p = extsOf s p := rfl

@[simp] theorem freeCount_ioTouch : freeCount (ioTouch s h) = freeCount s := rfl

@[simp] theorem journalSend_ioTouch (b : JBody) : journalSend (ioTouch s h) b = ioTouch (journalSend s b) h := rfl

@[simp] theorem listChange_ioTouch (ps : List Nat) : listChange (ioTouch s h) ps = ioTouch (listChange s ps) h := by
  simp [listChange]

@[simp] theorem extMap_ioTouch (base : Nat) (f : Extent → Extent) :
    extMap (ioTouch s h) base f = ioTouch (extMap s base f) h := rfl

@[simp] theorem extDrop_ioTouch (base : Nat) : extDrop (ioTouch s h) base = ioTouch (extDrop s base) h := rfl

@[simp] theorem snapOf_ioTouch (base : Nat) : snapOf (ioTouch s h) base = snapOf s base := rfl

@[simp] theorem snapMap_ioTouch (base : Nat) (f : Snap → Snap) :
    snapMap (ioTouch s h) base f = ioTouch (snapMap s base f) h := rfl

@[simp] theorem chargedBlk_ioTouch : chargedBlk (ioTouch s h) = chargedBlk s := rfl

theorem reserveLow_ioTouch (t : State) : reserveLow (ioTouch t h) (ioTouch s h) = ioTouch (reserveLow t s) h := by
  simp only [reserveLow, raise_ioTouch, ite_ioTouch]
  rfl

@[simp] theorem abandonDraft_ioTouch (base p : Nat) :
    abandonDraft (ioTouch s h) base p = ioTouch (abandonDraft s base p) h := by
  simp only [abandonDraft, snapOf_ioTouch]
  split <;> simp only [raise_ioTouch, snapMap_ioTouch, ite_ioTouch]

@[simp] theorem closeVersion_ioTouch (base p : Nat) :
    closeVersion (ioTouch s h) base p = ioTouch (closeVersion s base p) h := rfl

@[simp] theorem snapLeave_ioTouch (e : Extent) (p : Nat) : snapLeave (ioTouch s h) e p = ioTouch (snapLeave s e p) h := by
  simp [snapLeave]

@[simp] theorem dirOf_ioTouch (line : Nat) : dirOf (ioTouch s h) line = dirOf s line := rfl

@[simp] theorem extOfLine_ioTouch (line : Nat) : extOfLine (ioTouch s h) line = extOfLine s line := rfl

theorem dirTell_ioTouch (t : State) (line : Nat) :
    dirTell (ioTouch t h) (ioTouch s h) line = ioTouch (dirTell t s line) h := by
  simp only [dirTell, dirShown_ioTouch, journalSend_ioTouch, ite_ioTouch]
  rfl

@[simp] theorem dirDrop_ioTouch (line : Nat) : dirDrop (ioTouch s h) line = ioTouch (dirDrop s line) h :=
  dirTell_ioTouch { s with dir := _ } h s line

@[simp] theorem dirPut_ioTouch (d : DirEntry) : dirPut (ioTouch s h) d = ioTouch (dirPut s d) h :=
  dirTell_ioTouch { s with dir := _ } h s d.line

@[simp] theorem dirSet_ioTouch (d : DirEntry) : dirSet (ioTouch s h) d = ioTouch (dirSet s d) h :=
  dirTell_ioTouch { s with dir := _ } h s d.line

@[simp] theorem removeSharers_ioTouch (d : DirEntry) (gone : Nat → Bool) :
    removeSharers (ioTouch s h) d gone = removeSharers s d gone := rfl

@[simp] theorem forgetOn_ioTouch (line : Nat) (gone : Nat → Bool) :
    forgetOn (ioTouch s h) line gone = ioTouch (forgetOn s line gone) h := by
  unfold forgetOn
  simp only [dirOf_ioTouch, removeSharers_ioTouch]
  split
  · split <;> simp [dirDrop_ioTouch, dirSet_ioTouch, ite_ioTouch]
  · simp

@[simp] theorem snoopOne_ioTouch (line : Nat) (kind : Snp) (sh : Nat) :
    snoopOne (ioTouch s h) line kind sh = ioTouch (snoopOne s line kind sh) h := by
  simp [snoopOne]

@[simp] theorem snoop_ioTouch (t : DirTrans) : snoop (ioTouch s h) t = ioTouch (snoop s t) h := by
  simp [snoop]

@[simp] theorem biPending_ioTouch (line : Nat) : biPending (ioTouch s h) line = biPending s line := rfl

@[simp] theorem recallHolder_ioTouch (e : Extent) (p : Nat) :
    recallHolder (ioTouch s h) e p = ioTouch (recallHolder s e p) h := by
  simp [recallHolder]

@[simp] theorem holderOwes_ioTouch (e : Extent) (p : Nat) : holderOwes (ioTouch s h) e p = holderOwes s e p := rfl

@[simp] theorem forgetSharers_ioTouch (gone : Nat → Bool) :
    forgetSharers (ioTouch s h) gone = ioTouch (forgetSharers s gone) h := by
  simp [forgetSharers]

@[simp] theorem doOffer_ioTouch (p : Part) (exts : List GranRange) (a : Attr) (tag : Nat) (join : Bool) :
    doOffer (ioTouch s h) p exts a tag join = ioTouch (doOffer s p exts a tag join) h := by
  simp [doOffer]

@[simp] theorem toSanitising_ioTouch (base : Nat) : toSanitising (ioTouch s h) base = ioTouch (toSanitising s base) h := by
  unfold toSanitising
  simp only [ioTouch_exts]
  split <;> simp [ioTouch_exts, ioTouch_sanReqs, ioTouch_snaps, extMap_ioTouch, finc_ioTouch, mk_ioTouch, ite_ioTouch]

@[simp] theorem endOffer_ioTouch (p base : Nat) : endOffer (ioTouch s h) p base = ioTouch (endOffer s p base) h := by
  unfold endOffer
  simp only [ioTouch_exts, ioTouch_snaps]
  split <;> simp [ioTouch_exts, extDrop_ioTouch, extMap_ioTouch, listChange_ioTouch, toSanitising_ioTouch, mk_ioTouch,
    ite_ioTouch]

@[simp] theorem endOffers_ioTouch (p : Nat) : endOffers (ioTouch s h) p = ioTouch (endOffers s p) h := by
  simp [endOffers]

@[simp] theorem doAccept_ioTouch (p : Part) (exts : List GranRange) :
    doAccept (ioTouch s h) p exts = ioTouch (doAccept s p exts) h := by
  unfold doAccept
  rw [partOf_ioTouch]
  split
  · rfl
  · rw [partUpd_ioTouch]
    refine foldl_ioTouch _ h (fun u x => ?_) _
    rw [show wholeExt (ioTouch u h) x.1 x.2 = wholeExt u x.1 x.2 from rfl]
    split
    · split <;> simp
    · simp

@[simp] theorem carve_ioTouch (e : Extent) (base len : Nat) :
    carve (ioTouch s h) e base len = ioTouch (carve s e base len) h := by
  simp [carve]

@[simp] theorem finishRemoval_ioTouch (base p : Nat) :
    finishRemoval (ioTouch s h) base p = ioTouch (finishRemoval s base p) h := by
  simp only [finishRemoval, holderOwes_ioTouch, ioTouch_exts]
  split <;> simp only [extMap_ioTouch, listChange_ioTouch, toSanitising_ioTouch, ite_ioTouch]

@[simp] theorem startRemoval_ioTouch (base p : Nat) :
    startRemoval (ioTouch s h) base p = ioTouch (startRemoval s base p) h := by
  simp only [startRemoval, ioTouch_exts]
  split <;> simp only [extMap_ioTouch, finishRemoval_ioTouch, listChange_ioTouch, recallHolder_ioTouch, snapLeave_ioTouch,
    ite_ioTouch]

@[simp] theorem leaveExt_ioTouch (base p : Nat) : leaveExt (ioTouch s h) base p = ioTouch (leaveExt s base p) h := by
  simp only [leaveExt, ioTouch_exts]
  split <;> simp only [listChange_ioTouch, startRemoval_ioTouch, toSanitising_ioTouch, ite_ioTouch]

@[simp] theorem doRelease_ioTouch (p : Part) (exts : List GranRange) :
    doRelease (ioTouch s h) p exts = ioTouch (doRelease s p exts) h := by
  refine foldl_ioTouch s h (fun u x => ?_) exts
  rw [show extOfGran (ioTouch u h) x.1 = extOfGran u x.1 from rfl]
  split <;> simp

@[simp] theorem doRequestRelease_ioTouch (p : Part) (exts : List GranRange) :
    doRequestRelease (ioTouch s h) p exts = ioTouch (doRequestRelease s p exts) h := by
  unfold doRequestRelease
  dsimp only
  rw [foldl_ioTouch s h (fun u x => ?_), dcEvent_ioTouch, raise_ioTouch]
  rw [show extOfGran (ioTouch u h) x.1 = extOfGran u x.1 from rfl]
  split <;> simp

@[simp] theorem doWithdraw_ioTouch (p : Part) (exts : List GranRange) :
    doWithdraw (ioTouch s h) p exts = ioTouch (doWithdraw s p exts) h := by
  simp [doWithdraw]

@[simp] theorem offeredOf_ioTouch (p : Part) (exts : List GranRange) :
    offeredOf (ioTouch s h) p exts = offeredOf s p exts := rfl

@[simp] theorem doForce_ioTouch (p : Part) (exts : List GranRange) :
    doForce (ioTouch s h) p exts = ioTouch (doForce s p exts) h := by
  simp [doForce]

@[simp] theorem doSetAttr_ioTouch (base mask attr : Nat) :
    doSetAttr (ioTouch s h) base mask attr = ioTouch (doSetAttr s base mask attr) h := by
  simp only [doSetAttr, ioTouch_exts]
  split <;> simp only [extMap_ioTouch, listChange_ioTouch]

@[simp] theorem startLease_ioTouch (p : Nat) : startLease (ioTouch s h) p = ioTouch (startLease s p) h := rfl

@[simp] theorem doRenew_ioTouch (p : Nat) : doRenew (ioTouch s h) p = ioTouch (doRenew s p) h := rfl

@[simp] theorem turnHoldings_ioTouch (p : Nat) (old : List ExtState) (new : ExtState) :
    turnHoldings (ioTouch s h) p old new = ioTouch (turnHoldings s p old new) h := by
  refine foldl_ioTouch s h (fun u e => ?_) _
  split <;> simp

@[simp] theorem doRevive_ioTouch (p : Nat) : doRevive (ioTouch s h) p = ioTouch (doRevive s p) h := by
  simp [doRevive]

@[simp] theorem destroyKey_ioTouch (p : Nat) : destroyKey (ioTouch s h) p = ioTouch (destroyKey s p) h := rfl

@[simp] theorem doReclaim_ioTouch (p : Nat) : doReclaim (ioTouch s h) p = ioTouch (doReclaim s p) h := by
  simp [doReclaim]

@[simp] theorem pcSt_ioTouch (pc : Nat) : pcSt (ioTouch s h) pc = pcSt s pc := rfl

@[simp] theorem setPcSt_ioTouch (pc st : Nat) : setPcSt (ioTouch s h) pc st = ioTouch (setPcSt s pc st) h := rfl

end

end Sys2Proof.Machine
end

section
/-! PROOF. The touch moves outwards through lines, blocks and their requests (for O53). -/

namespace Sys2Proof.Machine

open Sys2Proof

section
variable (s : State) (h : Nat)

@[simp] theorem classOver_ioTouch (c cls : Nat) : classOver (ioTouch s h) c cls = classOver s c cls := rfl

@[simp] theorem fwadd_ioTouch (f : Fld) (n i j : Nat) : fwadd (ioTouch s h) f n i j = ioTouch (fwadd s f n i j) h := rfl

@[simp] theorem qosMove_ioTouch (c : Nat) (part cls : Option Nat) (bytes : Nat) (write : Bool) (coded : Option Nat) :
    qosMove (ioTouch s h) c part cls bytes write coded = ioTouch (qosMove s c part cls bytes write coded) h := by
  unfold qosMove
  cases part <;> cases cls <;> cases coded <;> simp only [mk_ioTouch, fwadd_ioTouch, classOver_ioTouch, raise_ioTouch,
    ite_ioTouch] <;> rfl

@[simp] theorem qosOffer_ioTouch (c : Nat) (part : Option Nat) (bytes : Nat) :
    qosOffer (ioTouch s h) c part bytes = ioTouch (qosOffer s c part bytes) h := by
  unfold qosOffer
  split <;> simp

@[simp] theorem queueRoom_ioTouch (pc level : Nat) (cls : Option Nat) :
    queueRoom (ioTouch s h) pc level cls = queueRoom s pc level cls := rfl

@[simp] theorem wakeRank_ioTouch (pc rank : Nat) : wakeRank (ioTouch s h) pc rank = ioTouch (wakeRank s pc rank) h := rfl

@[simp] theorem enqueue_ioTouch (pc : Nat) (write : Bool) (dpa level : Nat) (part cls : Option Nat) (hint : Nat) :
    enqueue (ioTouch s h) pc write dpa level part cls hint = ioTouch (enqueue s pc write dpa level part cls hint) h := by
  simp only [enqueue, pcUpd_ioTouch, finc_ioTouch, ite_ioTouch, wakeRank_ioTouch]
  rfl

@[simp] theorem setFreezeInfo_ioTouch (pc cause : Nat) (l : Loc) :
    setFreezeInfo (ioTouch s h) pc cause l = ioTouch (setFreezeInfo s pc cause l) h := rfl

@[simp] theorem freezePc_ioTouch (pc cause : Nat) (l : Loc) :
    freezePc (ioTouch s h) pc cause l = ioTouch (freezePc s pc cause l) h := by
  simp [freezePc]

@[simp] theorem heal_ioTouch (line : Nat) : heal (ioTouch s h) line = ioTouch (heal s line) h := by
  simp [heal]

@[simp] theorem putLine_ioTouch (line : Nat) (d : Line) : putLine (ioTouch s h) line d = ioTouch (putLine s line d) h := by
  simp [putLine]

@[simp] theorem putBlock_ioTouch (b : Nat) (bs : List Byte) : putBlock (ioTouch s h) b bs = ioTouch (putBlock s b bs) h := by
  simp [putBlock]

@[simp] theorem setLastUe_ioTouch (pc : Nat) (l : Loc) (src : Nat) :
    setLastUe (ioTouch s h) pc l src = ioTouch (setLastUe s pc l src) h := rfl

@[simp] theorem writeBackLine_ioTouch (line : Nat) :
    writeBackLine (ioTouch s h) line = ioTouch (writeBackLine s line) h := by
  simp [writeBackLine]

/-- What a line's read does once the line code has answered. -/
def lineAct (s : State) (line src : Nat) (l : Loc) (r : LineRead) : State × LineRead :=
  match r with
  | .good _ => (s, r)
  | .corrected d n =>
    let s := finc (putLine s line d) .rasLineErrsCeLines
    let s := { s with ras := { s.ras with ce := aupd s.ras.ce line 0 fun c => c + (if 3 ≤ n then 255 else 1) } }
    (raise (writeBackLine s line) .rasCeLine 0 none (lineBytes8 line n), r)
  | .poison => (raise (finc s .rasPoisonPoisonReads) .rasPoisonRead 0 none (lineBytes8 line 0), r)
  | .bad =>
    let s := setLastUe (finc s .rasLineErrsUeLines) (pcOfAddr (line * 64)) l src
    let s := raise s .rasUeLine 0 none (lineBytes8 line 0) none (if twinUp s then some .corrected else none)
    (freezePc s (pcOfAddr (line * 64)) 1 l, r)

theorem lineAct_ioTouch (line src : Nat) (l : Loc) (r : LineRead) :
    TouchedFst h (lineAct s line src l r) (lineAct (ioTouch s h) line src l r) := by
  unfold lineAct
  cases r with
  | good => rfl
  | corrected d n =>
    simp only [putLine_ioTouch, finc_ioTouch, mk_ioTouch, writeBackLine_ioTouch, raise_ioTouch]
    rfl
  | poison => simp only [finc_ioTouch, raise_ioTouch]
  | bad =>
    dsimp only
    rw [finc_ioTouch, setLastUe_ioTouch, twinUp_ioTouch, raise_ioTouch, freezePc_ioTouch]

@[simp] theorem readLine_ioTouch (line : Nat) (upset : Upset) (src : Nat) :
    readLine (ioTouch s h) line upset src = (ioTouch (readLine s line upset src).1 h, (readLine s line upset src).2) :=
  lineAct_ioTouch { s with damage := _ } h line src _ _

@[simp] theorem frameOf_ioTouch (b : Nat) : frameOf (ioTouch s h) b = frameOf s b := rfl

@[simp] theorem frameMap_ioTouch (b : Nat) (f : Frame → Frame) :
    frameMap (ioTouch s h) b f = ioTouch (frameMap s b f) h := rfl

@[simp] theorem victimOf_ioTouch (c : Nat) (ok : Frame → Bool) : victimOf (ioTouch s h) c ok = victimOf s c ok := rfl

@[simp] theorem uncache_ioTouch (b : Nat) : uncache (ioTouch s h) b = ioTouch (uncache s b) h := rfl

@[simp] theorem freeFrame_ioTouch (b : Nat) : freeFrame (ioTouch s h) b = ioTouch (freeFrame s b) h := by
  simp [freeFrame]

@[simp] theorem findPlace_ioTouch (b n align : Nat) : findPlace (ioTouch s h) b n align = findPlace s b n align := rfl

@[simp] theorem makeRoom_ioTouch (n b : Nat) : makeRoom n (ioTouch s h) b = ioTouch (makeRoom n s b) h := by
  induction n generalizing s with
  | zero => rfl
  | succ n ih =>
    unfold makeRoom
    rw [findPlace_ioTouch, victimOf_ioTouch]
    split
    · rfl
    · split
      · rw [freeFrame_ioTouch, ih]
      · rfl

@[simp] theorem mayTake_ioTouch (c taker : Nat) : mayTake (ioTouch s h) c taker = mayTake s c taker := rfl

@[simp] theorem takePlace_ioTouch (b taker : Nat) :
    takePlace (ioTouch s h) b taker = (ioTouch (takePlace s b taker).1 h, (takePlace s b taker).2) := by
  unfold takePlace
  rw [mayTake_ioTouch]
  split
  · dsimp only
    rw [ioTouch_frames, makeRoom_ioTouch, findPlace_ioTouch]
  · rfl

@[simp] theorem fixedPlace_ioTouch : fixedPlace (ioTouch s h) = fixedPlace s := rfl

@[simp] theorem idxOf_ioTouch (b : Nat) : idxOf (ioTouch s h) b = idxOf s b := rfl

@[simp] theorem isCoded_ioTouch (b : Nat) : isCoded (ioTouch s h) b = isCoded s b := rfl

@[simp] theorem descOfBlock_ioTouch (b : Nat) : descOfBlock (ioTouch s h) b = descOfBlock s b := rfl

@[simp] theorem mayCode_ioTouch (b : Nat) : mayCode (ioTouch s h) b = mayCode s b := rfl

@[simp] theorem segHdr_ioTouch (b : Nat) : segHdr (ioTouch s h) b = segHdr s b := rfl

@[simp] theorem segNamed_ioTouch (b : Nat) (g : SegHeader) : segNamed (ioTouch s h) b g = segNamed s b g := rfl

@[simp] theorem codedBit_ioTouch (b : Nat) : codedBit (ioTouch s h) b = codedBit s b := rfl

@[simp] theorem segMark_ioTouch (b : Nat) (slot on : Bool) :
    segMark (ioTouch s h) b slot on = ioTouch (segMark s b slot on) h := rfl

@[simp] theorem formSlot_ioTouch (b : Nat) : formSlot (ioTouch s h) b = formSlot s b := rfl

/-- The block's compressed form gives its segment up. -/
def formLeft (s : State) (b : Nat) : State := if 2 ≤ (idxOf s b).kind then segMark s b (formSlot s b) false else s

theorem formLeft_ioTouch (b : Nat) : formLeft (ioTouch s h) b = ioTouch (formLeft s b) h := by
  unfold formLeft
  rw [idxOf_ioTouch, formSlot_ioTouch, segMark_ioTouch, ite_ioTouch]

theorem makeRaw_eq (b : Nat) : makeRaw s b = uncache { formLeft s b with
    index := adel (formLeft s b).index b, damaged := adel (formLeft s b).damaged b } b := rfl

@[simp] theorem makeRaw_ioTouch (b : Nat) : makeRaw (ioTouch s h) b = ioTouch (makeRaw s b) h := by
  rw [makeRaw_eq, makeRaw_eq, formLeft_ioTouch, mk_ioTouch, uncache_ioTouch]
  rfl

@[simp] theorem poisonBlock_ioTouch (b : Nat) : poisonBlock (ioTouch s h) b = ioTouch (poisonBlock s b) h := by
  simp [poisonBlock]

@[simp] theorem packFrame_ioTouch (b n : Nat) : packFrame (ioTouch s h) b n = ioTouch (packFrame s b n) h := by
  simp [packFrame]

@[simp] theorem setIdx_ioTouch (b kind rank clen : Nat) (tslot : Bool) :
    setIdx (ioTouch s h) b kind rank clen tslot = ioTouch (setIdx s b kind rank clen tslot) h := rfl

@[simp] theorem damageBlock_ioTouch (b cause : Nat) :
    damageBlock (ioTouch s h) b cause = ioTouch (damageBlock s b cause) h := by
  simp only [damageBlock, count_ioTouch, twinUp_ioTouch, ioTouch_damaged, finc_ioTouch, fset_ioTouch, raise_ioTouch,
    mk_ioTouch]
  rfl

@[simp] theorem readForm_ioTouch (b clen src : Nat) :
    readForm (ioTouch s h) b clen src = (ioTouch (readForm s b clen src).1 h, (readForm s b clen src).2) := by
  unfold readForm
  generalize hl : List.range (ceilDiv clen 64) = l
  clear hl
  generalize true = ok
  induction l generalizing s ok with
  | nil => rfl
  | cons i l ih =>
    simp only [List.foldl_cons, readLine_ioTouch]
    obtain ⟨u, r⟩ := readLine s (b * 128 + i) [] src
    cases r <;> exact ih ..

@[simp] theorem decodeStored_ioTouch (b : Nat) : decodeStored (ioTouch s h) b = decodeStored s b := rfl

@[simp] theorem expanded_ioTouch (b kind elem rank : Nat) (esc : List Nat) :
    expanded (ioTouch s h) b kind elem rank esc = ioTouch (expanded s b kind elem rank esc) h := rfl

@[simp] theorem decodeBlock_ioTouch (b src : Nat) :
    decodeBlock (ioTouch s h) b src = (ioTouch (decodeBlock s b src).1 h, (decodeBlock s b src).2) := by
  have hform : TouchedFst h (if idxOk (idxOf s b) (localOf b) then readForm s b (idxOf s b).clen src else (s, true))
      (if idxOk (idxOf s b) (localOf b) then readForm (ioTouch s h) b (idxOf s b).clen src else (ioTouch s h, true)) :=
    .ite (fun _ => readForm_ioTouch ..) fun _ => rfl
  show TouchedFst h (decodeBlock s b src) (decodeBlock (ioTouch s h) b src)
  unfold decodeBlock
  dsimp only
  rw [idxOf_ioTouch, hform]
  obtain ⟨u, ok⟩ := if idxOk (idxOf s b) (localOf b) then readForm s b (idxOf s b).clen src else (s, true)
  dsimp only
  rw [decodeStored_ioTouch]
  generalize (if ok = true then decodeStored u b else .damaged causeMedia) = d
  cases d
  · exact .mkFst (expanded_ioTouch ..)
  · exact .mkFst (damageBlock_ioTouch ..)

@[simp] theorem cachePut_ioTouch (b cls : Nat) (bytes : List Byte) :
    cachePut (ioTouch s h) b cls bytes = ioTouch (cachePut s b cls bytes) h := by
  show Touched h (cachePut s b cls bytes) (cachePut (ioTouch s h) b cls bytes)
  unfold cachePut
  extract_lets rest set u rest' set' u'
  refine .ite (fun _ => rfl) fun _ => ?_
  rw [show cacheVictim u' set' = cacheVictim u set from rfl]
  split <;> rfl

@[simp] theorem cached_ioTouch (b : Nat) : cached (ioTouch s h) b = cached s b := rfl

@[simp] theorem cacheHit_ioTouch (b cls : Nat) (bytes : List Byte) :
    cacheHit (ioTouch s h) b cls bytes = ioTouch (cacheHit s b cls bytes) h := by
  simp [cacheHit]

@[simp] theorem codedBytes_ioTouch (b cls src : Nat) :
    codedBytes (ioTouch s h) b cls src = (ioTouch (codedBytes s b cls src).1 h, (codedBytes s b cls src).2) := by
  show TouchedFst h (codedBytes s b cls src) (codedBytes (ioTouch s h) b cls src)
  unfold codedBytes
  rw [cached_ioTouch]
  split
  · exact .mkFst (cacheHit_ioTouch ..)
  · rw [decodeBlock_ioTouch]
    obtain ⟨u, d⟩ := decodeBlock s b src
    cases d
    · exact .mkFst (cachePut_ioTouch ..)
    · rfl

@[simp] theorem expandRoom_ioTouch (b : Nat) :
    expandRoom (ioTouch s h) b = (ioTouch (expandRoom s b).1 h, (expandRoom s b).2) := by
  show TouchedFst h (expandRoom s b) (expandRoom (ioTouch s h) b)
  unfold expandRoom
  rw [ioTouch_boot, frameOf_ioTouch]
  split
  · refine .ite (fun _ => rfl) fun _ => ?_
    rw [takePlace_ioTouch]
    obtain ⟨u, o⟩ := takePlace s b 0
    cases o
    · rfl
    · exact .mkFst (frameMap_ioTouch ..)
  · rfl

@[simp] theorem dirtied_ioTouch (b : Nat) : dirtied (ioTouch s h) b = ioTouch (dirtied s b) h := rfl

@[simp] theorem rawBlock_ioTouch (b : Nat) (bs : List Byte) : rawBlock (ioTouch s h) b bs = ioTouch (rawBlock s b bs) h := by
  simp [rawBlock]

@[simp] theorem discardPartial_ioTouch (p : Part) : discardPartial (ioTouch s h) p = ioTouch (discardPartial s p) h := by
  simp [discardPartial]

@[simp] theorem mergeOne_ioTouch (r : Req) (upset : Upset) :
    mergeOne (ioTouch s h) r upset = ioTouch (mergeOne s r upset) h := by
  unfold mergeOne
  dsimp only
  rw [pcUpd_ioTouch, readLine_ioTouch]
  generalize readLine _ _ upset 0 = x
  obtain ⟨u, x⟩ := x
  cases x <;> simp

@[simp] theorem mergeLineAll_ioTouch (line : Nat) (upset : Upset) :
    mergeLineAll (ioTouch s h) line upset = ioTouch (mergeLineAll s line upset) h := by
  unfold mergeLineAll
  simp only [pcOf_ioTouch]
  split <;> simp [mergeOne_ioTouch, foldl_ioTouch]

@[simp] theorem copyBlock_ioTouch (b : Nat) :
    copyBlock (ioTouch s h) b = (ioTouch (copyBlock s b).1 h, (copyBlock s b).2) := by
  show TouchedFst h (copyBlock s b) (copyBlock (ioTouch s h) b)
  unfold copyBlock
  rw [decodeBlock_ioTouch]
  refine .ite (fun _ => ?_) fun _ => rfl
  obtain ⟨u, d⟩ := decodeBlock s b 3
  cases d <;> rfl

@[simp] theorem draftBlock_ioTouch (e : Extent) (b : Nat) : draftBlock (ioTouch s h) e b = ioTouch (draftBlock s e b) h := by
  unfold draftBlock
  simp only [snapOf_ioTouch]
  split
  · split <;> simp [copyBlock_ioTouch, snapMap_ioTouch, ite_ioTouch]
  · simp

@[simp] theorem draftWrite_ioTouch (e : Extent) (dpa : Nat) (d : Line) (mask : BitVec 64) :
    draftWrite (ioTouch s h) e dpa d mask = ioTouch (draftWrite s e dpa d mask) h := by
  simp [draftWrite]

@[simp] theorem homeSt_ioTouch (dpa : Nat) : homeSt (ioTouch s h) dpa = homeSt s dpa := rfl

@[simp] theorem jobMap_ioTouch (p ring idx : Nat) (f : Job → Job) :
    jobMap (ioTouch s h) p ring idx f = ioTouch (jobMap s p ring idx f) h := rfl

@[simp] theorem reqJob_ioTouch (r : Req) : reqJob (ioTouch s h) r = reqJob s r := rfl

@[simp] theorem failJob_ioTouch (p : Part) (ring : Ring) (idx status : Nat) :
    failJob (ioTouch s h) p ring idx status = ioTouch (failJob s p ring idx status) h := rfl

@[simp] theorem stepAccepted_ioTouch (r : Req) : stepAccepted (ioTouch s h) r = ioTouch (stepAccepted s r) h := rfl

@[simp] theorem reqVer_ioTouch (r : Req) : reqVer (ioTouch s h) r = reqVer s r := rfl

@[simp] theorem atHome_ioTouch (r : Req) : atHome (ioTouch s h) r = atHome s r := rfl

@[simp] theorem mapHeld_ioTouch (f : Req → Req) : mapHeld (ioTouch s h) f = ioTouch (mapHeld s f) h := rfl

@[simp] theorem fixReads_ioTouch (base : Nat) : fixReads (ioTouch s h) base = ioTouch (fixReads s base) h := by
  simp only [fixReads, extOf_ioTouch, snapOf_ioTouch]
  split <;> simp only [mapHeld_ioTouch]

@[simp] theorem classOf_ioTouch (dpa : Nat) : classOf (ioTouch s h) dpa = classOf s dpa := rfl

@[simp] theorem reqClass_ioTouch (r : Req) : reqClass (ioTouch s h) r = reqClass s r := rfl

@[simp] theorem hostRsp_ioTouch (p : Part) (h' : Head) (dpa : Nat) (res : MemRes) :
    hostRsp (ioTouch s h) p h' dpa res = ioTouch (hostRsp s p h' dpa res) h := rfl

@[simp] theorem answer_ioTouch (r : Req) (res : MemRes) (gme : Bool) :
    answer (ioTouch s h) r res gme = ioTouch (answer s r res gme) h := by
  unfold answer
  split
  · simp only [hostRsp_ioTouch, mediaEvent_ioTouch, ite_ioTouch]
  · rfl
  · split <;> rfl
  · split
    · rfl
    · exact failJob_ioTouch ..
    · rw [jobMap_ioTouch, stepAccepted_ioTouch]
  · rfl
  · rfl

@[simp] theorem newId_ioTouch : newId (ioTouch s h) = ((newId s).1, ioTouch (newId s).2 h) := rfl

@[simp] theorem forwardReq_ioTouch (r : Req) (upset : Upset) :
    forwardReq (ioTouch s h) r upset = ioTouch (forwardReq s r upset) h := by
  unfold forwardReq
  rw [newId_ioTouch]
  obtain ⟨id, u⟩ := newId s
  dsimp only
  split <;> rfl

@[simp] theorem twinAccept_ioTouch (r : Req) (id : Nat) : twinAccept (ioTouch s h) r id = ioTouch (twinAccept s r id) h := by
  unfold twinAccept
  simp only [ioTouch_belay]
  split <;> simp [answer_ioTouch, mk_ioTouch]

/-- What an accepted write sends. -/
def acceptSend (s : State) (r : Req) : State :=
  match r.src with
  | .twin id => twinAccept s r id
  | .fwd id =>
    if mirrors s && !notCopied s r.dpa then emit s (.belay 1 (.mirror (.write id r.p r.dpa r.data r.mask)))
    else answer s r .cmp
  | .device => answer s r .cmp
  | _ =>
    let twinJob := match reqJob s r with
      | some j => j.twin
      | none => false
    if mirrors s && !twinJob && !notCopied s r.dpa then
      let (id, s) := newId s
      let s := { s with belay := { s.belay with mirror := s.belay.mirror ++ [⟨id, r⟩] } }
      emit s (.belay 1 (.mirror (.write id r.p r.dpa r.data r.mask)))
    else answer s r .cmp

theorem acceptSend_ioTouch (r : Req) : acceptSend (ioTouch s h) r = ioTouch (acceptSend s r) h := by
  unfold acceptSend
  split <;> simp only [twinAccept_ioTouch, answer_ioTouch, emit_ioTouch, newId_ioTouch, mk_ioTouch, ite_ioTouch] <;> rfl

/-- The line an accepted write changes is noted for the twin that is away. -/
def changeNoted (s : State) (dpa : Nat) : State :=
  if fget s .belayStatusState = 4 ∨ fget s .belayStatusModeActive = 2 ∧ paired s then
    { s with belay := { s.belay with changed := ins s.belay.changed (segmentOf dpa) } } else s

theorem changeNoted_ioTouch (dpa : Nat) : changeNoted (ioTouch s h) dpa = ioTouch (changeNoted s dpa) h := by
  show Touched h (changeNoted s dpa) (changeNoted (ioTouch s h) dpa)
  exact .ite (fun _ => rfl) fun _ => rfl

theorem acceptDone_eq (r : Req) : acceptDone s r = acceptSend (changeNoted s r.dpa) r := rfl

@[simp] theorem acceptDone_ioTouch (r : Req) : acceptDone (ioTouch s h) r = ioTouch (acceptDone s r) h := by
  rw [acceptDone_eq, acceptDone_eq, changeNoted_ioTouch, acceptSend_ioTouch]

@[simp] theorem readData_ioTouch (p : Part) (dpa : Nat) (upset : Upset) (src : Nat) (ver : Option Nat) :
    readData (ioTouch s h) p dpa upset src ver =
      (ioTouch (readData s p dpa upset src ver).1 h, (readData s p dpa upset src ver).2) := by
  show TouchedFst h (readData s p dpa upset src ver) (readData (ioTouch s h) p dpa upset src ver)
  unfold readData
  dsimp only
  rw [show ((heldExt (ioTouch s h) p dpa).bind fun e => snapCopy (ioTouch s h) e p (blockOf dpa) ver) =
    (heldExt s p dpa).bind fun e => snapCopy s e p (blockOf dpa) ver from rfl]
  split
  · rfl
  · refine .ite (fun _ => ?_) fun _ => ?_
    · rw [classOf_ioTouch, codedBytes_ioTouch]
      obtain ⟨u, d⟩ := codedBytes s (blockOf dpa) _ src
      cases d <;> rfl
    · rw [pcOf_ioTouch, mergeLineAll_ioTouch, readLine_ioTouch]
      obtain ⟨u, r⟩ := readLine (mergeLineAll s (lineOf dpa) upset) (lineOf dpa) _ src
      cases r with
      | corrected d n => exact .mkFst (mediaEvent_ioTouch ..)
      | good => rfl
      | poison => rfl
      | bad => rfl

@[simp] theorem moveBytes_ioTouch (r : Req) (write : Bool) :
    moveBytes (ioTouch s h) r write = ioTouch (moveBytes s r write) h := by
  simp [moveBytes]

@[simp] theorem noteWrite_ioTouch (b : Nat) : noteWrite (ioTouch s h) b = ioTouch (noteWrite s b) h := by
  simp [noteWrite]

@[simp] theorem applyWrite_ioTouch (r : Req) : applyWrite (ioTouch s h) r = ioTouch (applyWrite s r) h := by
  simp only [applyWrite, extOf_ioTouch]
  split <;> simp only [draftWrite_ioTouch, noteWrite_ioTouch, pcUpd_ioTouch, putLine_ioTouch, ite_ioTouch]

@[simp] theorem reqLevel_ioTouch (r : Req) : reqLevel (ioTouch s h) r = reqLevel s r := rfl

@[simp] theorem hintOf_ioTouch (r : Req) : hintOf (ioTouch s h) r = ((hintOf s r).1, ioTouch (hintOf s r).2 h) := by
  unfold hintOf
  split <;> simp

@[simp] theorem expTake_ioTouch (b : Nat) : expTake (ioTouch s h) b = (ioTouch (expTake s b).1 h, (expTake s b).2) := by
  show TouchedFst h (expTake s b) (expTake (ioTouch s h) b)
  exact .ite (fun _ => rfl) fun _ => rfl

@[simp] theorem answerLines_ioTouch (rs : List Req) (bs : List Byte) :
    answerLines (ioTouch s h) rs bs = ioTouch (answerLines s rs bs) h := by
  simp [answerLines]

@[simp] theorem askTwin_ioTouch (b : Nat) (rs : List Req) : askTwin (ioTouch s h) b rs = ioTouch (askTwin s b rs) h := by
  simp only [askTwin, emit_ioTouch, ite_ioTouch, mk_ioTouch]
  rfl

@[simp] theorem awaitTwin_ioTouch (r : Req) : awaitTwin (ioTouch s h) r = ioTouch (awaitTwin s r) h := by
  simp [awaitTwin]

@[simp] theorem soloDamaged_ioTouch (r : Req) : soloDamaged (ioTouch s h) r = ioTouch (soloDamaged s r) h := by
  simp [soloDamaged]

@[simp] theorem expandBlock_ioTouch (b : Nat) : expandBlock (ioTouch s h) b = ioTouch (expandBlock s b) h := by
  show Touched h (expandBlock s b) (expandBlock (ioTouch s h) b)
  unfold expandBlock
  refine .ite (fun _ => ?_) fun _ => rfl
  rw [expandRoom_ioTouch]
  obtain ⟨u, ok⟩ := expandRoom s b
  cases ok
  · rfl
  · dsimp only
    rw [decodeBlock_ioTouch]
    obtain ⟨v, d⟩ := decodeBlock u b 1
    cases d
    · exact rawBlock_ioTouch ..
    · exact .ite (fun _ => askTwin_ioTouch ..) fun _ => rfl

@[simp] theorem damagedReq_ioTouch (r : Req) : damagedReq (ioTouch s h) r = ioTouch (damagedReq s r) h := by
  simp [damagedReq]

@[simp] theorem expandedWrite_ioTouch (r : Req) : expandedWrite (ioTouch s h) r = ioTouch (expandedWrite s r) h := by
  show Touched h (expandedWrite s r) (expandedWrite (ioTouch s h) r)
  unfold expandedWrite
  refine .ite (fun _ => awaitTwin_ioTouch ..) fun _ => ?_
  rw [expandRoom_ioTouch]
  obtain ⟨u, ok⟩ := expandRoom s (blockOf r.dpa)
  cases ok
  · exact frameMap_ioTouch ..
  · dsimp only
    rw [decodeBlock_ioTouch]
    obtain ⟨v, d⟩ := decodeBlock u (blockOf r.dpa) 3
    cases d
    · dsimp only
      rw [expTake_ioTouch, answerLines_ioTouch, rawBlock_ioTouch, applyWrite_ioTouch, acceptDone_ioTouch]
    · exact damagedReq_ioTouch ..

@[simp] theorem readerWrite_ioTouch (p : Nat) : readerWrite (ioTouch s h) p = ioTouch (readerWrite s p) h := by
  simp [readerWrite]

@[simp] theorem serveWrite_ioTouch (r : Req) : serveWrite (ioTouch s h) r = ioTouch (serveWrite s r) h := by
  show Touched h (serveWrite s r) (serveWrite (ioTouch s h) r)
  unfold serveWrite
  rw [extOf_ioTouch]
  dsimp only
  split
  · rw [snapOf_ioTouch, applyWrite_ioTouch, acceptDone_ioTouch, readerWrite_ioTouch, answer_ioTouch]
    refine .ite (fun _ => rfl) fun _ => ?_
    split
    · exact failJob_ioTouch ..
    · rfl
  · exact .ite (fun _ => expandedWrite_ioTouch ..) fun _ => by rw [applyWrite_ioTouch, acceptDone_ioTouch]

@[simp] theorem expandedRead_ioTouch (r : Req) : expandedRead (ioTouch s h) r = ioTouch (expandedRead s r) h := by
  show Touched h (expandedRead s r) (expandedRead (ioTouch s h) r)
  unfold expandedRead
  refine .ite (fun _ => awaitTwin_ioTouch ..) fun _ => ?_
  rw [cached_ioTouch]
  split
  · rw [classOf_ioTouch, cacheHit_ioTouch, answerLines_ioTouch]
  · rfl

@[simp] theorem serveRead_ioTouch (r : Req) (upset : Upset) :
    serveRead (ioTouch s h) r upset = ioTouch (serveRead s r upset) h := by
  show Touched h (serveRead s r upset) (serveRead (ioTouch s h) r upset)
  unfold serveRead
  refine .ite (fun _ => expandedRead_ioTouch ..) fun _ => ?_
  rw [reqJob_ioTouch, reqVer_ioTouch, readData_ioTouch]
  obtain ⟨u, x⟩ := readData s r.p r.dpa upset _ _
  cases x
  · exact answer_ioTouch ..
  · exact .ite (fun _ => forwardReq_ioTouch ..) fun _ => answer_ioTouch ..

@[simp] theorem perform_ioTouch (r : Req) (upset : Upset) :
    perform (ioTouch s h) r upset = ioTouch (perform s r upset) h := by
  show Touched h (perform s r upset) (perform (ioTouch s h) r upset)
  unfold perform
  rw [hintOf_ioTouch]
  obtain ⟨hint, u⟩ := hintOf s r
  dsimp only
  rw [reqLevel_ioTouch, reqClass_ioTouch, enqueue_ioTouch, moveBytes_ioTouch]
  generalize moveBytes _ r (decide (noService r = .cmp)) = v
  refine .ite (fun _ => serveWrite_ioTouch ..) fun _ => ?_
  rw [extOf_ioTouch]
  split
  · exact answer_ioTouch ..
  · exact answer_ioTouch ..
  · exact answer_ioTouch ..
  · exact serveRead_ioTouch ..

@[simp] theorem holdReq_ioTouch (r : Req) : holdReq (ioTouch s h) r = ioTouch (holdReq s r) h := by
  show Touched h (holdReq s r) (holdReq (ioTouch s h) r)
  exact .ite (fun _ => rfl) fun _ => rfl

@[simp] theorem loseReq_ioTouch (r : Req) (isLost : Bool) :
    loseReq (ioTouch s h) r isLost = ioTouch (loseReq s r isLost) h := by
  unfold loseReq
  split <;> simp

@[simp] theorem coverReq_ioTouch (r : Req) (upset : Upset) (isLost : Bool) :
    coverReq (ioTouch s h) r upset isLost = ioTouch (coverReq s r upset isLost) h := by
  simp only [coverReq]
  split <;> simp only [forwardReq_ioTouch, holdReq_ioTouch, loseReq_ioTouch, pcUpd_ioTouch, twinAccept_ioTouch, ite_ioTouch]

@[simp] theorem homeReq_ioTouch (r : Req) (upset : Upset) :
    homeReq (ioTouch s h) r upset = ioTouch (homeReq s r upset) h := by
  show Touched h (homeReq s r upset) (homeReq (ioTouch s h) r upset)
  unfold homeReq
  dsimp only
  rw [atHome_ioTouch, qosOffer_ioTouch]
  generalize qosOffer s _ _ 64 = u
  rw [homeSt_ioTouch]
  split
  · exact .ite (fun _ => perform_ioTouch ..) fun _ => holdReq_ioTouch ..
  · exact .ite (fun _ => coverReq_ioTouch ..) fun _ => holdReq_ioTouch ..
  · exact loseReq_ioTouch ..
  · exact .ite (fun _ => coverReq_ioTouch ..) fun _ => loseReq_ioTouch ..

@[simp] theorem rehome_ioTouch (rs : List Req) : rehome (ioTouch s h) rs = ioTouch (rehome s rs) h := by
  simp [rehome]

@[simp] theorem rerunReads_ioTouch (b : Nat) : rerunReads (ioTouch s h) b = ioTouch (rerunReads s b) h := by
  simp [rerunReads]

end

end Sys2Proof.Machine
end

section
/-! PROOF. The touch moves outwards through the SSD tier (for O53). -/

namespace Sys2Proof.Machine

open Sys2Proof

section
variable (s : State) (h : Nat)

@[simp] theorem slotWritable_ioTouch (k : Nat) : slotWritable (ioTouch s h) k = slotWritable s k := rfl

@[simp] theorem choosePath_ioTouch (k : Slot) (die : Nat) : choosePath (ioTouch s h) k die = choosePath s k die := rfl

@[simp] theorem creditFree_ioTouch (k : Slot) (kind : IoKind) : creditFree (ioTouch s h) k kind = creditFree s k kind := rfl

@[simp] theorem issueIo_ioTouch (k : Nat) (kind : IoKind) (b : Nat) (op : NvmeOp) :
    issueIo (ioTouch s h) k kind b op = ioTouch (issueIo s k kind b op) h := by
  simp [issueIo]

@[simp] theorem pumpCredits_ioTouch (k : Slot) : pumpCredits (ioTouch s h) k = ioTouch (pumpCredits s k) h := by
  refine foldl_ioTouch s h (fun u i => ?_) _
  exact ite_ioTouch h (emit { u with ios := _ } (.nvme k i.path i.op)) u

@[simp] theorem endIosIf_ioTouch (p : Io → Bool) : endIosIf (ioTouch s h) p = ioTouch (endIosIf s p) h := by
  simp [endIosIf]

@[simp] theorem endIos_ioTouch (b : Nat) (kind : IoKind) : endIos (ioTouch s h) b kind = ioTouch (endIos s b kind) h := by
  simp [endIos]

@[simp] theorem placeBytes_ioTouch (k u : Nat) : placeBytes (ioTouch s h) k u = placeBytes s k u := rfl

@[simp] theorem placeWrite_ioTouch (k u : Nat) (bs : List Byte) :
    placeWrite (ioTouch s h) k u bs = ioTouch (placeWrite s k u bs) h := rfl

@[simp] theorem lbaOf_ioTouch (b : Nat) : lbaOf (ioTouch s h) b = lbaOf s b := rfl

@[simp] theorem setLba_ioTouch (b v : Nat) : setLba (ioTouch s h) b v = ioTouch (setLba s b v) h := rfl

@[simp] theorem policyOwner_ioTouch (b : Nat) : policyOwner (ioTouch s h) b = policyOwner s b := rfl

@[simp] theorem pinnedBlocks_ioTouch (p : Nat) : pinnedBlocks (ioTouch s h) p = pinnedBlocks s p := rfl

@[simp] theorem pinLimit_ioTouch (p : Nat) : pinLimit (ioTouch s h) p = pinLimit s p := rfl

@[simp] theorem pinByPolicy_ioTouch (b : Nat) : pinByPolicy (ioTouch s h) b = ioTouch (pinByPolicy s b) h := by
  simp only [pinByPolicy, frameOf_ioTouch, pinLimit_ioTouch, pinnedBlocks_ioTouch, policyOwner_ioTouch]
  split <;> simp only [frameMap_ioTouch, raise_ioTouch, ite_ioTouch]

@[simp] theorem repin_ioTouch (base : Nat) : repin (ioTouch s h) base = ioTouch (repin s base) h := by
  unfold repin
  simp only [ioTouch_exts, ioTouch_frames]
  split <;> simp [pinByPolicy_ioTouch, foldl_ioTouch]

@[simp] theorem setAttrNow_ioTouch (base : Nat) (mask attr : BitVec 32) :
    setAttrNow (ioTouch s h) base mask attr = ioTouch (setAttrNow s base mask attr) h := by
  simp [setAttrNow]

@[simp] theorem stripeLocked_ioTouch (b : Nat) : stripeLocked (ioTouch s h) b = stripeLocked s b := rfl

@[simp] theorem lockStripe_ioTouch (b : Nat) : lockStripe (ioTouch s h) b = ioTouch (lockStripe s b) h := rfl

@[simp] theorem lockMap_ioTouch (b : Nat) (f : StripeLock → StripeLock) :
    lockMap (ioTouch s h) b f = ioTouch (lockMap s b f) h := rfl

@[simp] theorem issueFill_ioTouch (b : Nat) : issueFill (ioTouch s h) b = ioTouch (issueFill s b) h := by
  show Touched h (issueFill s b) (issueFill (ioTouch s h) b)
  unfold issueFill
  rw [frameMap_ioTouch]
  generalize frameMap s b _ = u
  dsimp only
  refine .ite (fun _ => ?_) fun _ => foldl_ioTouch u h (fun v k => issueIo_ioTouch ..) _
  rw [lbaOf_ioTouch, issueIo_ioTouch]

@[simp] theorem takerOf_ioTouch (f : Frame) : takerOf (ioTouch s h) f = takerOf s f := rfl

@[simp] theorem startFill_ioTouch (b cls : Nat) (part : Option Nat) (waiters : List Req) :
    startFill (ioTouch s h) b cls part waiters = ioTouch (startFill s b cls part waiters) h := by
  unfold startFill
  simp only [extOf_ioTouch]
  split <;> simp [count_ioTouch, now_ioTouch, ioTouch_frames, ioTouch_pinMarks, finc_ioTouch, pinByPolicy_ioTouch,
    mk_ioTouch]

@[simp] theorem screeBytes_ioTouch (b : Nat) : screeBytes (ioTouch s h) b = screeBytes s b := rfl

@[simp] theorem idxOfHeader_ioTouch (b : Nat) (bs : List Byte) :
    idxOfHeader (ioTouch s h) b bs = ioTouch (idxOfHeader s b bs) h := rfl

@[simp] theorem idxFilled_ioTouch (b : Nat) (bs : List Byte) :
    idxFilled (ioTouch s h) b bs = ioTouch (idxFilled s b bs) h := by
  simp [idxFilled]

@[simp] theorem leaveSegment_ioTouch (b : Nat) : leaveSegment (ioTouch s h) b = ioTouch (leaveSegment s b) h := by
  show Touched h (leaveSegment s b) (leaveSegment (ioTouch s h) b)
  unfold leaveSegment
  refine .ite (fun _ => ?_) fun _ => rfl
  rw [frameOf_ioTouch, formSlot_ioTouch, screeBytes_ioTouch, segMark_ioTouch]

/-- The parity of a deallocated block's place, set right. -/
def parityFixed (s : State) (b : Nat) : State :=
  let pl := placeOf b
  let two := decide (2 ≤ ((List.range 8).filter fun k => !slotReadable s k (blockCluster b) pl.t).length)
  if slotWritable s pl.parity && !two then
    issueIo (placeWrite s pl.parity pl.u (xorBytes (placeBytes s pl.parity pl.u) (screeBytes s b))) pl.parity .parityFix b
      (.write (2 * pl.u) 2) else s

/-- The place itself, once its parity is right: the SSD is told. -/
def placeDropped (s : State) (b n : Nat) : State :=
  let pl := placeOf b
  if slotWritable s pl.slot then
    issueIo (placeWrite s pl.slot pl.u []) pl.slot .deallocate b (.deallocate (2 * pl.u) n) else s

theorem parityFixed_ioTouch (b : Nat) : parityFixed (ioTouch s h) b = ioTouch (parityFixed s b) h := by
  show Touched h (parityFixed s b) (parityFixed (ioTouch s h) b)
  unfold parityFixed
  dsimp only
  refine .ite (fun _ => ?_) fun _ => rfl
  rw [placeBytes_ioTouch, screeBytes_ioTouch, placeWrite_ioTouch, issueIo_ioTouch]

theorem placeDropped_ioTouch (b n : Nat) : placeDropped (ioTouch s h) b n = ioTouch (placeDropped s b n) h := by
  show Touched h (placeDropped s b n) (placeDropped (ioTouch s h) b n)
  unfold placeDropped
  dsimp only
  refine .ite (fun _ => ?_) fun _ => rfl
  rw [placeWrite_ioTouch, issueIo_ioTouch]

theorem deallocateBlock_eq (b : Nat) : deallocateBlock s b =
    let t := if lbaOf s b = 1 ∨ lbaOf s b = 2 then placeDropped (parityFixed s b) b (lbaOf s b) else s
    { setLba t b 0 with pinMarks := adel t.pinMarks b } := rfl

@[simp] theorem deallocateBlock_ioTouch (b : Nat) : deallocateBlock (ioTouch s h) b = ioTouch (deallocateBlock s b) h := by
  rw [deallocateBlock_eq, deallocateBlock_eq, lbaOf_ioTouch, parityFixed_ioTouch, placeDropped_ioTouch, ite_ioTouch]
  rfl

@[simp] theorem dropBlock_ioTouch (b : Nat) : dropBlock (ioTouch s h) b = ioTouch (dropBlock s b) h := by
  simp [dropBlock]

@[simp] theorem serveWaiters_ioTouch (b : Nat) (rs : List Req) (fresh : Frame) :
    serveWaiters (ioTouch s h) b rs fresh = ioTouch (serveWaiters s b rs fresh) h := by
  induction rs generalizing s with
  | nil => rfl
  | cons r rest ih =>
    show Touched h (serveWaiters s b (r :: rest) fresh) (serveWaiters (ioTouch s h) b (r :: rest) fresh)
    unfold serveWaiters
    rw [dropBlock_ioTouch, homeReq_ioTouch]
    generalize dropBlock s b = u
    exact .ite (fun _ => .ite (fun _ => rfl) fun _ => ih { u with frames := fresh :: u.frames }) fun _ => ih _

@[simp] theorem slowFill_ioTouch (f : Frame) : slowFill (ioTouch s h) f = ioTouch (slowFill s f) h := by
  show Touched h (slowFill s f) (slowFill (ioTouch s h) f)
  unfold slowFill
  split
  · exact .ite (fun _ => rfl) fun _ => rfl
  · rfl

@[simp] theorem fillDone_ioTouch (b : Nat) : fillDone (ioTouch s h) b = ioTouch (fillDone s b) h := by
  show Touched h (fillDone s b) (fillDone (ioTouch s h) b)
  unfold fillDone
  rw [frameOf_ioTouch]
  split
  · refine .ite (fun _ => ?_) fun _ => rfl
    dsimp only
    rw [screeBytes_ioTouch, endIos_ioTouch, slowFill_ioTouch, putBlock_ioTouch, frameMap_ioTouch, idxFilled_ioTouch,
      serveWaiters_ioTouch]
  · rfl

/-- A fill that has no place in the store yet takes one. -/
def fillPlaced (s : State) (b : Nat) (f : Frame) : State × Bool :=
  if f.placed then (s, true)
  else match takePlace s b (takerOf s f) with
    | (s, some o) => (frameMap s b fun f => { f with placed := true, off := o, units := 128 }, true)
    | (s, none) => (s, false)

theorem fillPlaced_ioTouch (b : Nat) (f : Frame) : TouchedFst h (fillPlaced s b f) (fillPlaced (ioTouch s h) b f) := by
  unfold fillPlaced
  refine .ite (fun _ => rfl) fun _ => ?_
  rw [takerOf_ioTouch, takePlace_ioTouch]
  obtain ⟨u, o⟩ := takePlace s b (takerOf s f)
  cases o <;> rfl

/-- What a fill with its place does next. -/
def fillOn (s : State) (b : Nat) (ok : Bool) : State :=
  if !ok then s else if lbaOf s b = 0 then fillDone s b
  else if fillBuffer s (blockCluster b) then issueFill s b else s

theorem fillOn_ioTouch (b : Nat) (ok : Bool) : fillOn (ioTouch s h) b ok = ioTouch (fillOn s b ok) h := by
  show Touched h (fillOn s b ok) (fillOn (ioTouch s h) b ok)
  exact .ite (fun _ => rfl) fun _ => .ite (fun _ => fillDone_ioTouch ..) fun _ =>
    .ite (fun _ => issueFill_ioTouch ..) fun _ => rfl

theorem advanceFill_eq (b : Nat) : advanceFill s b = match frameOf s b with
    | some f => if f.st = .filling ∧ f.issued = false then fillOn (fillPlaced s b f).1 b (fillPlaced s b f).2 else s
    | none => s := rfl

@[simp] theorem advanceFill_ioTouch (b : Nat) : advanceFill (ioTouch s h) b = ioTouch (advanceFill s b) h := by
  rw [advanceFill_eq, advanceFill_eq, frameOf_ioTouch]
  split
  · rw [fillPlaced_ioTouch, fillOn_ioTouch]
    exact ite_ioTouch ..
  · rfl

@[simp] theorem poisonedFrame_ioTouch (b cls : Nat) :
    poisonedFrame (ioTouch s h) b cls = ioTouch (poisonedFrame s b cls) h := by
  simp [poisonedFrame]

@[simp] theorem tierReq_ioTouch (r : Req) (upset : Upset) :
    tierReq (ioTouch s h) r upset = ioTouch (tierReq s r upset) h := by
  show Touched h (tierReq s r upset) (tierReq (ioTouch s h) r upset)
  unfold tierReq
  refine .ite (fun _ => homeReq_ioTouch ..) fun _ => ?_
  dsimp only
  rw [atHome_ioTouch, frameOf_ioTouch]
  split
  · rw [frameMap_ioTouch, advanceFill_ioTouch]
    refine .ite (fun _ => rfl) fun _ => .ite (fun _ => rfl) fun _ => ?_
    rw [count_ioTouch, frameMap_ioTouch, homeReq_ioTouch]
  · rw [classOf_ioTouch, poisonedFrame_ioTouch, record_ioTouch, startFill_ioTouch, advanceFill_ioTouch, homeReq_ioTouch]
    exact .ite (fun _ => .ite (fun _ => forwardReq_ioTouch ..) fun _ => .ite (fun _ => .ite (fun _ => rfl) fun _ =>
      answer_ioTouch ..) fun _ => answer_ioTouch ..) fun _ => rfl

@[simp] theorem formBytes_ioTouch (b : Nat) : formBytes (ioTouch s h) b = formBytes s b := rfl

@[simp] theorem twoMissing_ioTouch (b : Nat) : twoMissing (ioTouch s h) b = twoMissing s b := rfl

@[simp] theorem newParity_ioTouch (b : Nat) (new : List Byte) : newParity (ioTouch s h) b new = newParity s b new := rfl

@[simp] theorem writePlace_ioTouch (k : Nat) (kind : IoKind) (b : Nat) (bs : List Byte) :
    writePlace (ioTouch s h) k kind b bs = ioTouch (writePlace s k kind b bs) h := by
  unfold writePlace
  split <;> simp

@[simp] theorem writesGo_ioTouch (b : Nat) : writesGo (ioTouch s h) b = ioTouch (writesGo s b) h := by
  unfold writesGo
  simp only [frameOf_ioTouch, lbaOf_ioTouch]
  split <;> simp only [newParity_ioTouch, slotWritable_ioTouch, twoMissing_ioTouch, endIos_ioTouch, issueIo_ioTouch,
    writePlace_ioTouch, ite_ioTouch]

@[simp] theorem oldReads_ioTouch (b : Nat) : oldReads (ioTouch s h) b = oldReads s b := rfl

@[simp] theorem startWriteBack_ioTouch (b : Nat) : startWriteBack (ioTouch s h) b = ioTouch (startWriteBack s b) h := by
  show Touched h (startWriteBack s b) (startWriteBack (ioTouch s h) b)
  unfold startWriteBack
  dsimp only
  rw [isCoded_ioTouch, idxOf_ioTouch, readForm_ioTouch]
  obtain ⟨u, ok⟩ := readForm s b _ 3
  refine .ite (fun _ => rfl) fun _ => .ite (fun _ => rfl) fun _ => ?_
  rw [lockStripe_ioTouch, formBytes_ioTouch, frameMap_ioTouch]
  generalize frameMap _ b _ = v
  rw [oldReads_ioTouch]
  refine .ite (fun _ => writesGo_ioTouch ..) fun _ => foldl_ioTouch v h (fun w k => ?_) _
  rw [lbaOf_ioTouch, issueIo_ioTouch]

@[simp] theorem mayWriteBack_ioTouch (b : Nat) : mayWriteBack (ioTouch s h) b = mayWriteBack s b := rfl

@[simp] theorem prefetchBlock_ioTouch (p b : Nat) : prefetchBlock (ioTouch s h) p b = ioTouch (prefetchBlock s p b) h := by
  simp only [prefetchBlock, classOf_ioTouch, frameOf_ioTouch, lbaOf_ioTouch, ioTouch_boot, advanceFill_ioTouch,
    startFill_ioTouch, ite_ioTouch]
  rfl

@[simp] theorem pinBlock_ioTouch (p b : Nat) : pinBlock (ioTouch s h) p b = ioTouch (pinBlock s p b) h := by
  show Touched h (pinBlock s p b) (pinBlock (ioTouch s h) p b)
  unfold pinBlock
  refine .ite (fun _ => rfl) fun _ => ?_
  rw [prefetchBlock_ioTouch]
  generalize prefetchBlock s p b = u
  dsimp only
  rw [frameOf_ioTouch]
  split
  · exact .ite (fun _ => rfl) fun _ => .ite (fun _ => rfl) fun _ => raise_ioTouch ..
  · rfl

@[simp] theorem unpinBlock_ioTouch (p b : Nat) : unpinBlock (ioTouch s h) p b = ioTouch (unpinBlock s p b) h := rfl

@[simp] theorem coldBlock_ioTouch (b : Nat) : coldBlock (ioTouch s h) b = ioTouch (coldBlock s b) h := rfl

@[simp] theorem zeroBlock_ioTouch (b : Nat) : zeroBlock (ioTouch s h) b = ioTouch (zeroBlock s b) h := by
  simp [zeroBlock]

@[simp] theorem discardBlock_ioTouch (p : Part) (b : Nat) :
    discardBlock (ioTouch s h) p b = ioTouch (discardBlock s p b) h := by
  show Touched h (discardBlock s p b) (discardBlock (ioTouch s h) p b)
  unfold discardBlock
  refine .ite (fun _ => zeroBlock_ioTouch ..) fun _ => ?_
  rw [frameOf_ioTouch]
  split
  · refine .ite (fun _ => rfl) fun _ => .ite (fun _ => rfl) fun _ => ?_
    rw [expTake_ioTouch]
    obtain ⟨u, rs⟩ := expTake s b
    dsimp only
    rw [dropBlock_ioTouch]
    exact foldl_ioTouch _ h (fun v r => tierReq_ioTouch ..) _
  · exact dropBlock_ioTouch ..

@[simp] theorem compactBlock_ioTouch (b : Nat) : compactBlock (ioTouch s h) b = ioTouch (compactBlock s b) h := by
  simp [compactBlock]

end

end Sys2Proof.Machine
end

section
/-! PROOF. The touch moves outwards through snoops and the line queues (for O53). -/

namespace Sys2Proof.Machine

open Sys2Proof

section
variable (s : State) (h : Nat)

@[simp] theorem reqSharer_ioTouch (r : Req) : reqSharer (ioTouch s h) r = reqSharer s r := rfl

@[simp] theorem wayFree_ioTouch (line : Nat) : wayFree (ioTouch s h) line = wayFree s line := rfl

@[simp] theorem makeEntryRoom_ioTouch (line : Nat) :
    makeEntryRoom (ioTouch s h) line = ioTouch (makeEntryRoom s line) h := by
  unfold makeEntryRoom
  simp only [dirVictim_ioTouch, entrySharers_ioTouch, wayFree_ioTouch]
  split
  · simp
  · split <;> simp [dirDrop_ioTouch, finc_ioTouch, snoop_ioTouch]

@[simp] theorem install_ioTouch (line : Nat) (exclusive : Bool) (sharers : List Nat) :
    install (ioTouch s h) line exclusive sharers = ioTouch (install s line exclusive sharers) h := by
  simp [install]

@[simp] theorem shareLine_ioTouch (line sh : Nat) : shareLine (ioTouch s h) line sh = ioTouch (shareLine s line sh) h := by
  simp only [shareLine, count_ioTouch, dirOf_ioTouch]
  split <;> simp only [dirPut_ioTouch, install_ioTouch]

@[simp] theorem useEntry_ioTouch (line : Nat) : useEntry (ioTouch s h) line = ioTouch (useEntry s line) h := by
  simp only [useEntry, count_ioTouch, dirOf_ioTouch]
  split <;> simp only [dirPut_ioTouch]

@[simp] theorem caching_ioTouch (r : Req) : caching (ioTouch s h) r = caching s r := rfl

@[simp] theorem settle_ioTouch (r : Req) (pub snooped : Bool) (kS kE : List Nat) :
    settle (ioTouch s h) r pub snooped kS kE = ioTouch (settle s r pub snooped kS kE) h := by
  show Touched h (settle s r pub snooped kS kE) (settle (ioTouch s h) r pub snooped kS kE)
  unfold settle
  dsimp only
  rw [caching_ioTouch, reqSharer_ioTouch, dirOf_ioTouch]
  split
  · split
    · refine .ite (fun _ => install_ioTouch ..) fun _ => .ite (fun _ => install_ioTouch ..) fun _ => ?_
      split
      · rw [entrySharers_ioTouch]
        exact .ite (fun _ => useEntry_ioTouch ..) fun _ => shareLine_ioTouch ..
      · exact shareLine_ioTouch ..
    · refine .ite (fun _ => ?_) fun _ => useEntry_ioTouch ..
      split
      · exact install_ioTouch ..
      · exact install_ioTouch ..
      · exact dirDrop_ioTouch ..
  · split
    · rw [entrySharers_ioTouch]
      exact .ite (fun _ => install_ioTouch ..) fun _ => dirDrop_ioTouch ..
    · exact dirDrop_ioTouch ..

@[simp] theorem byPublisher_ioTouch (r : Req) : byPublisher (ioTouch s h) r = byPublisher s r := rfl

@[simp] theorem dirServe_ioTouch (r : Req) (upset : Upset) :
    dirServe (ioTouch s h) r upset = ioTouch (dirServe s r upset) h := by
  simp [dirServe]

@[simp] theorem writesBack_ioTouch (r : Req) : writesBack (ioTouch s h) r = writesBack s r := rfl

@[simp] theorem victimWait_ioTouch : victimWait (ioTouch s h) = ioTouch (victimWait s) h := by
  simp [victimWait]

@[simp] theorem dirReq_ioTouch (r : Req) (upset : Upset) : dirReq (ioTouch s h) r upset = ioTouch (dirReq s r upset) h := by
  simp [dirReq]

@[simp] theorem lineHead_ioTouch (line : Nat) : lineHead (ioTouch s h) line = lineHead s line := rfl

@[simp] theorem drainLine_ioTouch (n line : Nat) : drainLine n (ioTouch s h) line = ioTouch (drainLine n s line) h := by
  induction n generalizing s with
  | zero => rfl
  | succ n ih =>
    show Touched h (drainLine (n + 1) s line) (drainLine (n + 1) (ioTouch s h) line)
    unfold drainLine
    refine .ite (fun _ => rfl) fun _ => ?_
    rw [lineHead_ioTouch]
    split
    · rw [needsVictim_ioTouch]
      refine .ite (fun _ => rfl) fun _ => ?_
      rw [ioTouch_lineq, mk_ioTouch, dirServe_ioTouch]
      exact ih _
    · rfl

@[simp] theorem drainSlice_ioTouch (slice : Nat) : drainSlice (ioTouch s h) slice = ioTouch (drainSlice s slice) h := by
  simp [drainSlice]

@[simp] theorem finishTrans_ioTouch (t : DirTrans) : finishTrans (ioTouch s h) t = ioTouch (finishTrans s t) h := by
  unfold finishTrans
  dsimp only
  split
  · simp
  · split <;> simp [byPublisher_ioTouch, forgetOn_ioTouch, settle_ioTouch, tierReq_ioTouch]

/-- The line's queue, once its transactions are done. -/
def queueMoved (s : State) (line : Nat) (slice : Bool) : State :=
  let s := drainLine s.lineq.length s line
  let s := if !biPending s line && (lineHead s line).isSome then victimWait s else s
  if slice then drainSlice s (sliceOf line) else s

theorem queueMoved_ioTouch (line : Nat) (slice : Bool) :
    queueMoved (ioTouch s h) line slice = ioTouch (queueMoved s line slice) h := by
  show Touched h (queueMoved s line slice) (queueMoved (ioTouch s h) line slice)
  unfold queueMoved
  dsimp only
  rw [ioTouch_lineq, drainLine_ioTouch]
  generalize drainLine _ s line = u
  have hwait : Touched h (if !biPending u line && (lineHead u line).isSome then victimWait u else u)
      (if !biPending (ioTouch u h) line && (lineHead (ioTouch u h) line).isSome then victimWait (ioTouch u h)
        else ioTouch u h) := .ite (fun _ => victimWait_ioTouch ..) fun _ => rfl
  rw [hwait, drainSlice_ioTouch, ite_ioTouch]

theorem lineDone_eq (line : Nat) : lineDone s line =
    let ts := (s.trans.filter fun t => decide (t.line = line)).reverse
    if ts.all fun t => t.owed.isEmpty then
      queueMoved (ts.foldl finishTrans { s with trans := s.trans.filter fun t => decide (t.line ≠ line) }) line
        (ts.any (·.victim))
    else s := rfl

@[simp] theorem lineDone_ioTouch (line : Nat) : lineDone (ioTouch s h) line = ioTouch (lineDone s line) h := by
  rw [lineDone_eq, lineDone_eq]
  dsimp only
  rw [ioTouch_trans, mk_ioTouch, foldl_ioTouch _ h (fun _ _ => finishTrans_ioTouch ..), queueMoved_ioTouch]
  exact ite_ioTouch ..

@[simp] theorem leaveDone_ioTouch (line sh : Nat) : leaveDone (ioTouch s h) line sh = ioTouch (leaveDone s line sh) h := by
  simp only [leaveDone, extOfLine_ioTouch]
  split <;> simp only [finishRemoval_ioTouch, ite_ioTouch]

/-- The line's entry, once a sharer has answered. -/
def entryAnswered (s : State) (line sh : Nat) (resp : BiResp) (t : DirTrans) : State :=
  if t.recalled || (!t.victim && decide (resp = .i)) then forgetOn s line fun x => decide (x = sh)
  else if t.forTwin && decide (resp = .s) then
    (match dirOf s line with
      | some d => dirSet s { d with exclusive := false }
      | none => s)
  else s

theorem entryAnswered_ioTouch (line sh : Nat) (resp : BiResp) (t : DirTrans) :
    entryAnswered (ioTouch s h) line sh resp t = ioTouch (entryAnswered s line sh resp t) h := by
  show Touched h (entryAnswered s line sh resp t) (entryAnswered (ioTouch s h) line sh resp t)
  unfold entryAnswered
  rw [dirOf_ioTouch]
  refine .ite (fun _ => forgetOn_ioTouch ..) fun _ => .ite (fun _ => ?_) fun _ => rfl
  split
  · exact dirSet_ioTouch ..
  · rfl


/-- The transaction a sharer has answered, with its answer counted; a line of the twin's is told there. -/
def answerCounted (s : State) (line sh : Nat) (resp : BiResp) (t : DirTrans) : State :=
  let t' := { t with owed := rem t.owed sh,
                     keptS := if resp = .s then sh :: t.keptS else t.keptS,
                     keptE := if resp = .e then sh :: t.keptE else t.keptE }
  let s := { s with trans := s.trans.map fun x => if x = t then t' else x }
  if t.forTwin then emit s (.belay 1 (.forward (.snooped line sh resp))) else s

theorem answerCounted_ioTouch (line sh : Nat) (resp : BiResp) (t : DirTrans) :
    answerCounted (ioTouch s h) line sh resp t = ioTouch (answerCounted s line sh resp t) h := by
  show Touched h (answerCounted s line sh resp t) (answerCounted (ioTouch s h) line sh resp t)
  exact .ite (fun _ => rfl) fun _ => rfl

theorem biAnswer_eq (line sh : Nat) (resp : BiResp) : biAnswer s line sh resp =
    match s.trans.reverse.find? fun t => decide (t.line = line) && t.owed.contains sh with
    | some t => lineDone (leaveDone (entryAnswered (answerCounted s line sh resp t) line sh resp t) line sh) line
    | none => if biPending s line then finc s .dirCrossingsCleanCross 16 else s := rfl

@[simp] theorem biAnswer_ioTouch (line sh : Nat) (resp : BiResp) :
    biAnswer (ioTouch s h) line sh resp = ioTouch (biAnswer s line sh resp) h := by
  rw [biAnswer_eq, biAnswer_eq, ioTouch_trans]
  split
  · rw [answerCounted_ioTouch, entryAnswered_ioTouch, leaveDone_ioTouch, lineDone_ioTouch]
  · rw [biPending_ioTouch, finc_ioTouch]
    exact ite_ioTouch ..

@[simp] theorem answerAll_ioTouch (gone : Nat → Bool) : answerAll (ioTouch s h) gone = ioTouch (answerAll s gone) h := by
  simp [answerAll]

@[simp] theorem dropSharers_ioTouch (gone : Nat → Bool) :
    dropSharers (ioTouch s h) gone = ioTouch (dropSharers s gone) h := by
  simp [dropSharers]

@[simp] theorem tellTwinPart_ioTouch (line : Nat) (ex : Bool) (shs : List Nat) :
    tellTwinPart (ioTouch s h) line ex shs = ioTouch (tellTwinPart s line ex shs) h := by
  unfold tellTwinPart
  simp only [dirOf_ioTouch]
  split <;> split <;> simp [dirDrop_ioTouch, dirSet_ioTouch, install_ioTouch]

@[simp] theorem takeOwnPart_ioTouch (line : Nat) (ex : Bool) (shs : List Nat) :
    takeOwnPart (ioTouch s h) line ex shs = ioTouch (takeOwnPart s line ex shs) h := by
  simp only [takeOwnPart, dirOf_ioTouch]
  split <;> simp only [dirPut_ioTouch, install_ioTouch, ite_ioTouch]

@[simp] theorem passDirectory_ioTouch : passDirectory (ioTouch s h) = ioTouch (passDirectory s) h := by
  simp [passDirectory]

end

end Sys2Proof.Machine
end

section
/-! PROOF. The touch moves outwards through rings, hints, power and the pair (for O53). -/

namespace Sys2Proof.Machine

open Sys2Proof

section
variable (s : State) (h : Nat)

@[simp] theorem bState_ioTouch : bState (ioTouch s h) = bState s := rfl

@[simp] theorem bRole_ioTouch : bRole (ioTouch s h) = bRole s := rfl

@[simp] theorem setRole_ioTouch (role : Nat) : setRole (ioTouch s h) role = ioTouch (setRole s role) h := by
  simp [setRole]

@[simp] theorem ringHalted_ioTouch (p k : Nat) : ringHalted (ioTouch s h) p k = ringHalted s p k := rfl

@[simp] theorem ringSize_ioTouch (p k : Nat) : ringSize (ioTouch s h) p k = ringSize s p k := rfl

@[simp] theorem ringJobs_ioTouch (p k : Nat) : ringJobs (ioTouch s h) p k = ringJobs s p k := rfl

@[simp] theorem firstUndone_ioTouch (p k : Nat) : firstUndone (ioTouch s h) p k = firstUndone s p k := rfl

@[simp] theorem haltRing_ioTouch (p k cause status : Nat) :
    haltRing (ioTouch s h) p k cause status = ioTouch (haltRing s p k cause status) h := by
  simp [haltRing]

@[simp] theorem issueRead_ioTouch (p : Part) (tagUse : TagUse) (addr len : Nat) :
    issueRead (ioTouch s h) p tagUse addr len = (issueRead s p tagUse addr len).map (ioTouch · h) := by
  unfold issueRead
  simp only [canMaster_ioTouch, freeTag_ioTouch, masterHead_ioTouch]
  split
  · split <;> simp [cfgUpd_ioTouch, emit_ioTouch]
  · simp

@[simp] theorem discardTags_ioTouch (p : Nat) (ok : TagUse → Bool) :
    discardTags (ioTouch s h) p ok = ioTouch (discardTags s p ok) h := rfl

@[simp] theorem tagFor_ioTouch (p : Nat) (u : TagUse) : tagFor (ioTouch s h) p u = tagFor s p u := rfl

@[simp] theorem pumpRing_ioTouch (p : Part) (k : Ring) : pumpRing (ioTouch s h) p k = ioTouch (pumpRing s p k) h := by
  show Touched h (pumpRing s p k) (pumpRing (ioTouch s h) p k)
  unfold pumpRing
  dsimp only
  rw [ringOf_ioTouch, fget_ioTouch, fget_ioTouch, ringSize_ioTouch, issueRead_ioTouch]
  generalize issueRead s p _ _ 128 = x
  refine .ite (fun _ => .ite (fun _ => ?_) fun _ => rfl) fun _ => rfl
  cases x <;> rfl

@[simp] theorem hintSize_ioTouch (p : Nat) : hintSize (ioTouch s h) p = hintSize s p := rfl

@[simp] theorem hintsOf_ioTouch (p : Nat) : hintsOf (ioTouch s h) p = hintsOf s p := rfl

@[simp] theorem pumpHint_ioTouch (p : Part) : pumpHint (ioTouch s h) p = ioTouch (pumpHint s p) h := by
  simp [pumpHint]

@[simp] theorem haltHint_ioTouch (p cause status : Nat) :
    haltHint (ioTouch s h) p cause status = ioTouch (haltHint s p cause status) h := by
  simp [haltHint]

@[simp] theorem pumpRings_ioTouch (p : Part) : pumpRings (ioTouch s h) p = ioTouch (pumpRings s p) h := by
  simp [pumpRings]

@[simp] theorem sweepWindows_ioTouch : sweepWindows (ioTouch s h) = ioTouch (sweepWindows s) h := rfl

@[simp] theorem closeWindows_ioTouch (p : Nat) : closeWindows (ioTouch s h) p = ioTouch (closeWindows s p) h := rfl

@[simp] theorem dropJob_ioTouch (j : Job) : dropJob (ioTouch s h) j = ioTouch (dropJob s j) h := by
  simp [dropJob]

@[simp] theorem cancelJob_ioTouch (j : Job) (status : Nat) :
    cancelJob (ioTouch s h) j status = ioTouch (cancelJob s j status) h := rfl

@[simp] theorem endJob_ioTouch (j : Job) (status : Nat) : endJob (ioTouch s h) j status = ioTouch (endJob s j status) h := by
  simp [endJob]

@[simp] theorem endWork_ioTouch (p : Part) (cause status : Nat) :
    endWork (ioTouch s h) p cause status = ioTouch (endWork s p cause status) h := by
  simp [endWork]

@[simp] theorem resetJobs_ioTouch (p : Part) : resetJobs (ioTouch s h) p = ioTouch (resetJobs s p) h := by
  simp [resetJobs]

@[simp] theorem secondUp_ioTouch : secondUp (ioTouch s h) = secondUp s := rfl

@[simp] theorem snapResult_ioTouch (p op base ver : Nat) :
    snapResult (ioTouch s h) p op base ver = snapResult s p op base ver := rfl

@[simp] theorem snapEffect_ioTouch (p op base ver : Nat) :
    snapEffect (ioTouch s h) p op base ver = ioTouch (snapEffect s p op base ver) h := by
  show Touched h (snapEffect s p op base ver) (snapEffect (ioTouch s h) p op base ver)
  unfold snapEffect
  dsimp only
  rw [fixReads_ioTouch]
  generalize fixReads s base = u
  exact .ite (fun _ => rfl) fun _ => .ite (fun _ => closeVersion_ioTouch ..) fun _ => .ite (fun _ => by
    rw [snapMap_ioTouch, reserveLow_ioTouch]) fun _ => .ite (fun _ => rfl) fun _ => rfl

@[simp] theorem snapVersion_ioTouch (p base : Nat) : snapVersion (ioTouch s h) p base = snapVersion s p base := rfl

@[simp] theorem applySnap_ioTouch (own : Bool) (p : Part) (op base ver : Nat) :
    applySnap (ioTouch s h) own p op base ver = ioTouch (applySnap s own p op base ver) h := by
  simp [applySnap]

@[simp] theorem setReserve_ioTouch (n : Nat) : setReserve (ioTouch s h) n = ioTouch (setReserve s n) h := by
  have hkept : ∀ r, fset (reserveLow (ioTouch s h) { ioTouch s h with reserve := r }) .dirReserveGranules n 16 =
      ioTouch (fset (reserveLow s { s with reserve := r }) .dirReserveGranules n 16) h := fun r => by
    rw [mk_ioTouch, reserveLow_ioTouch, fset_ioTouch]
    rfl
  show Touched h (setReserve s n) (setReserve (ioTouch s h) n)
  unfold setReserve
  dsimp only
  rw [freeCount_ioTouch, exportGran_ioTouch, chargedBlk_ioTouch, show freeGran (ioTouch s h) = freeGran s from rfl]
  exact .ite (fun _ => .ite (fun _ => rfl) fun _ => hkept _) fun _ => .ite (fun _ => rfl) fun _ => hkept _

@[simp] theorem rung_ioTouch : rung (ioTouch s h) = rung s := rfl

@[simp] theorem descentWrites_ioTouch : descentWrites (ioTouch s h) = ioTouch (descentWrites s) h := by
  show Touched h (descentWrites s) (descentWrites (ioTouch s h))
  unfold descentWrites
  refine .ite (fun _ => foldl_ioTouch s h (fun u f => ?_) _) fun _ => rfl
  rw [mayWriteBack_ioTouch, startWriteBack_ioTouch, ite_ioTouch]

/-- The directory's lines are called back on the way to the lowest rung. -/
def recallAll (s : State) : State :=
  s.dir.foldl (fun s d =>
    snoop s { line := d.line, owed := entrySharers s d, kind := .inv, req := none, recalled := true }) s

theorem recallAll_ioTouch : recallAll (ioTouch s h) = ioTouch (recallAll s) h :=
  foldl_ioTouch s h (fun u d => by rw [entrySharers_ioTouch, snoop_ioTouch]) _

/-- The rung the ladder enters is noted. -/
def entryNoted (s : State) (n : Nat) (commanded : Bool) : State :=
  let s := { s with power := { s.power with entering := n, commanded := commanded } }
  fset (fset s .pwrStatusEntering 1) .pwrStatusPending 0

theorem entryNoted_ioTouch (n : Nat) (commanded : Bool) :
    entryNoted (ioTouch s h) n commanded = ioTouch (entryNoted s n commanded) h := rfl

theorem startEntry_eq (n : Nat) (commanded : Bool) : startEntry s n commanded =
    if n = 4 then descentWrites (recallAll (entryNoted s n commanded)) else entryNoted s n commanded := rfl

@[simp] theorem startEntry_ioTouch (n : Nat) (commanded : Bool) :
    startEntry (ioTouch s h) n commanded = ioTouch (startEntry s n commanded) h := by
  rw [startEntry_eq, startEntry_eq, entryNoted_ioTouch, recallAll_ioTouch, descentWrites_ioTouch, ite_ioTouch]

/-- The entry in progress is given up. -/
def entryDropped (s : State) : State :=
  if fget s .pwrStatusEntering = 1 then
    raise (finc (fset s .pwrStatusEntering 0) .pwrTransitionsAborted) .pwrEntryAborted else s

theorem entryDropped_ioTouch : entryDropped (ioTouch s h) = ioTouch (entryDropped s) h := by
  show Touched h (entryDropped s) (entryDropped (ioTouch s h))
  unfold entryDropped
  rw [fset_ioTouch, finc_ioTouch, raise_ioTouch]
  exact .ite (fun _ => rfl) fun _ => rfl

/-- The way up begins: a command's target is cleared, the ladder's own state left, and a twin told. -/
def targetCleared (s : State) : State := if s.power.commanded then fset s .pwrCtrlTarget 0 else s

def ladderLeft (s : State) : State :=
  { s with power := { s.power with entering := 0, commanded := false, idle := 0, exitFrom := rung s } }

def exitTold (s : State) (c : WakeCause) : State :=
  let s := if twinUp s && decide (c ≠ .belay) then emit s (.belay 0 .wake) else s
  if rung s = 0 then s else fset s .pwrStatusExiting 1

theorem targetCleared_ioTouch : targetCleared (ioTouch s h) = ioTouch (targetCleared s) h := by
  show Touched h (targetCleared s) (targetCleared (ioTouch s h))
  exact .ite (fun _ => rfl) fun _ => rfl

theorem ladderLeft_ioTouch : ladderLeft (ioTouch s h) = ioTouch (ladderLeft s) h := rfl

theorem exitTold_ioTouch (c : WakeCause) : exitTold (ioTouch s h) c = ioTouch (exitTold s c) h := by
  unfold exitTold
  dsimp only
  rw [twinUp_ioTouch, emit_ioTouch, ite_ioTouch, rung_ioTouch, fset_ioTouch, ite_ioTouch]

theorem doWake_eq (c : WakeCause) : doWake s c =
    if fget s .pwrStatusExiting = 1 ∨ (rung s = 0 ∧ fget s .pwrStatusEntering = 0) then s
    else exitTold (ladderLeft (targetCleared (entryDropped (fset s .pwrStatusLastWake (wakeCode c))))) c := rfl

@[simp] theorem doWake_ioTouch (c : WakeCause) : doWake (ioTouch s h) c = ioTouch (doWake s c) h := by
  rw [doWake_eq, doWake_eq, fset_ioTouch, entryDropped_ioTouch, targetCleared_ioTouch, ladderLeft_ioTouch, exitTold_ioTouch]
  exact ite_ioTouch ..

@[simp] theorem fwMatch_ioTouch : fwMatch (ioTouch s h) = ioTouch (fwMatch s) h := rfl

@[simp] theorem masterAgain_ioTouch (p : Part) : masterAgain (ioTouch s h) p = ioTouch (masterAgain s p) h := by
  simp [masterAgain]

@[simp] theorem clearPartition_ioTouch (p : Part) : clearPartition (ioTouch s h) p = ioTouch (clearPartition s p) h := by
  simp [clearPartition]

@[simp] theorem freeOf_ioTouch (e : Extent) (g : Nat) : freeOf (ioTouch s h) e g = ioTouch (freeOf s e g) h := by
  simp [freeOf]

@[simp] theorem clearSegs_ioTouch (g : Nat) : clearSegs (ioTouch s h) g = ioTouch (clearSegs s g) h := rfl

@[simp] theorem granFree_ioTouch (g : Nat) : granFree (ioTouch s h) g = ioTouch (granFree s g) h := by
  unfold granFree
  simp only [extOfGran_ioTouch]
  split <;> simp [ioTouch_sanHalf, ioTouch_sanReqs, clearSegs_ioTouch, freeOf_ioTouch, listChange_ioTouch, raise_ioTouch,
    mk_ioTouch, ite_ioTouch]

@[simp] theorem granMark_ioTouch (fromLead : Bool) (g : Nat) :
    granMark (ioTouch s h) fromLead g = ioTouch (granMark s fromLead g) h := by
  simp [granMark]

@[simp] theorem doLeaseExpire_ioTouch (p : Part) : doLeaseExpire (ioTouch s h) p = ioTouch (doLeaseExpire s p) h := by
  simp [doLeaseExpire]

@[simp] theorem hintIgnored_ioTouch (p : Nat) : hintIgnored (ioTouch s h) p = ioTouch (hintIgnored s p) h := by
  simp [hintIgnored]

@[simp] theorem hintPass_ioTouch (p : Nat) : hintPass (ioTouch s h) p = ioTouch (hintPass s p) h := rfl

@[simp] theorem hintSkip_ioTouch (n p : Nat) : hintSkip n (ioTouch s h) p = ioTouch (hintSkip n s p) h := by
  induction n generalizing s with
  | zero => rfl
  | succ n ih =>
    show Touched h (hintSkip (n + 1) s p) (hintSkip (n + 1) (ioTouch s h) p)
    unfold hintSkip
    rw [hintsOf_ioTouch]
    split
    · rw [hintIgnored_ioTouch, hintPass_ioTouch, ih]
      exact .ite (fun _ => rfl) fun _ => rfl
    · rfl

@[simp] theorem hintSettle_ioTouch (p : Nat) : hintSettle (ioTouch s h) p = ioTouch (hintSettle s p) h := by
  simp [hintSettle]

@[simp] theorem hintBlocks_ioTouch (p lo hi : Nat) : hintBlocks (ioTouch s h) p lo hi = hintBlocks s p lo hi := rfl

@[simp] theorem hintDiscard_ioTouch (p : Part) (e : Extent) (b : Nat) :
    hintDiscard (ioTouch s h) p e b = ioTouch (hintDiscard s p e b) h := by
  show Touched h (hintDiscard s p e b) (hintDiscard (ioTouch s h) p e b)
  exact .ite (fun _ => rfl) fun _ => .ite
    (fun _ => .ite (fun _ => foldl_ioTouch s h (fun u i => dirReq_ioTouch ..) _) fun _ => rfl) fun _ =>
      discardBlock_ioTouch ..

@[simp] theorem hintCompact_ioTouch (b : Nat) : hintCompact (ioTouch s h) b = ioTouch (hintCompact s b) h := by
  simp [hintCompact]

@[simp] theorem hintEffect_ioTouch (p : Part) (op base len : Nat) :
    hintEffect (ioTouch s h) p op base len = ioTouch (hintEffect s p op base len) h := by
  refine foldl_ioTouch s h (fun u x => ?_) _
  split
  · exact prefetchBlock_ioTouch ..
  · exact pinBlock_ioTouch ..
  · exact unpinBlock_ioTouch ..
  · exact coldBlock_ioTouch ..
  · exact hintDiscard_ioTouch ..
  · exact hintCompact_ioTouch ..
  · rfl

@[simp] theorem hintShort_ioTouch (p : Part) (e : HintEntry) :
    hintShort (ioTouch s h) p e = ioTouch (hintShort s p e) h := by
  simp [hintShort]

@[simp] theorem hintWaits_ioTouch (p : Part) (e : HintEntry) : hintWaits (ioTouch s h) p e = hintWaits s p e := rfl

@[simp] theorem hintRun_ioTouch (p : Part) (e : HintEntry) : hintRun (ioTouch s h) p e = ioTouch (hintRun s p e) h := by
  simp [hintRun]

@[simp] theorem hintJournal_ioTouch (fromLead : Bool) (p : Part) (op base len : Nat) :
    hintJournal (ioTouch s h) fromLead p op base len = ioTouch (hintJournal s fromLead p op base len) h := by
  show Touched h (hintJournal s fromLead p op base len) (hintJournal (ioTouch s h) fromLead p op base len)
  unfold hintJournal
  rw [hintsOf_ioTouch, hintEffect_ioTouch]
  refine .ite (fun _ => ?_) fun _ => .ite (fun _ => rfl) fun _ => rfl
  split
  · exact .ite (fun _ => hintRun_ioTouch ..) fun _ => rfl
  · rfl

@[simp] theorem compactEnd_ioTouch (b : Nat) : compactEnd (ioTouch s h) b = ioTouch (compactEnd s b) h := rfl

@[simp] theorem putTable_ioTouch (b : Nat) (table : Option (Bool × List Nat)) :
    putTable (ioTouch s h) b table = ioTouch (putTable s b table) h := by
  unfold putTable
  simp only [segHdr_ioTouch, segNamed_ioTouch, ioTouch_segs]
  split
  · simp
  · split <;> simp [mk_ioTouch, ite_ioTouch]

@[simp] theorem compactSource_ioTouch (b : Nat) :
    compactSource (ioTouch s h) b = (ioTouch (compactSource s b).1 h, (compactSource s b).2) := by
  show TouchedFst h (compactSource s b) (compactSource (ioTouch s h) b)
  unfold compactSource
  rw [decodeBlock_ioTouch, readForm_ioTouch]
  refine .ite (fun _ => rfl) fun _ => .ite (fun _ => ?_) fun _ => ?_
  · obtain ⟨u, d⟩ := decodeBlock s b 3
    cases d <;> rfl
  · obtain ⟨u, ok⟩ := readForm s b 8192 3
    cases ok <;> rfl

@[simp] theorem candidateOf_ioTouch (b kind : Nat) (form : List Byte) :
    candidateOf (ioTouch s h) b kind form = candidateOf s b kind form := rfl

@[simp] theorem verdictOf_ioTouch (b : Nat) (source : List Byte) (kind : Nat) (form : List Byte) :
    verdictOf (ioTouch s h) b source kind form =
      (ioTouch (verdictOf s b source kind form).1 h, (verdictOf s b source kind form).2) := by
  unfold verdictOf
  simp only [candidateOf_ioTouch, descOfBlock_ioTouch]
  split
  · simp
  · split <;> simp [fget_ioTouch, expanded_ioTouch]

@[simp] theorem verifyFailed_ioTouch (b : Nat) : verifyFailed (ioTouch s h) b = ioTouch (verifyFailed s b) h := by
  simp [verifyFailed]

@[simp] theorem storeForm_ioTouch (b kind : Nat) (form : List Byte) :
    storeForm (ioTouch s h) b kind form = ioTouch (storeForm s b kind form) h := by
  simp [storeForm]

@[simp] theorem storeRaw_ioTouch (b : Nat) : storeRaw (ioTouch s h) b = ioTouch (storeRaw s b) h := by
  simp [storeRaw]

@[simp] theorem commitForm_ioTouch (b : Nat) (source : List Byte) (kind : Nat) (form : List Byte) (table : Option (Bool ×
    List Nat)) :
    
    commitForm (ioTouch s h) b source kind form table = ioTouch (commitForm s b source kind form table) h := by
  show Touched h (commitForm s b source kind form table) (commitForm (ioTouch s h) b source kind form table)
  unfold commitForm
  refine .ite (fun _ => expandBlock_ioTouch ..) fun _ => .ite (fun _ => rfl) fun _ => ?_
  rw [putTable_ioTouch, verdictOf_ioTouch]
  obtain ⟨u, v⟩ := verdictOf (putTable s b table) b source kind form
  cases v with
  | none =>
    dsimp only
    rw [verifyFailed_ioTouch, compactEnd_ioTouch]
  | some coded =>
    dsimp only
    rw [compactSource_ioTouch]
    refine .ite (fun _ => rfl) fun _ => ?_
    obtain ⟨w, bs⟩ := compactSource u b
    cases bs with
    | none => rfl
    | some bs =>
      dsimp only
      rw [finc_ioTouch, storeForm_ioTouch, storeRaw_ioTouch, ite_ioTouch, ite_ioTouch, compactEnd_ioTouch]

@[simp] theorem activateGuar_ioTouch (p : Nat) : activateGuar (ioTouch s h) p = ioTouch (activateGuar s p) h := rfl

@[simp] theorem activateBudget_ioTouch (cls : Nat) :
    activateBudget (ioTouch s h) cls = ioTouch (activateBudget s cls) h := rfl

@[simp] theorem activateMode_ioTouch : activateMode (ioTouch s h) = ioTouch (activateMode s) h := rfl

@[simp] theorem storeReg_ioTouch (b : Blk) (i off v : Nat) (ok : Fld → Bool) :
    storeReg (ioTouch s h) b i off v ok = ioTouch (storeReg s b i off v ok) h := by
  refine foldl_ioTouch s h (fun u x => ?_) _
  split
  · exact ite_ioTouch h (fsetNow u x.fld (wordFld x v) i x.copy) u
  · exact ite_ioTouch h (fsetNow u x.fld (wordFld x v) i x.copy) u
  · rfl

@[simp] theorem disablePart_ioTouch (p : Part) : disablePart (ioTouch s h) p = ioTouch (disablePart s p) h := by
  simp [disablePart]

@[simp] theorem doBind_ioTouch (p : Part) (heads : Nat) : doBind (ioTouch s h) p heads = ioTouch (doBind s p heads) h := by
  simp [doBind]

/-- The binding, once the twin's heads are set. -/
def twinBound (s : State) (p : Part) (heads : Nat) : State :=
  if heads = 0 ∧ fget s .partStateHeads p = 0 then
    (if pState s p = pDisabled then s else disablePart s p)
  else if pState s p = pDisabled then startLease (fset s .partStateState pActive p) p else s

theorem twinBound_ioTouch (p : Part) (heads : Nat) : twinBound (ioTouch s h) p heads = ioTouch (twinBound s p heads) h := by
  unfold twinBound
  rw [fget_ioTouch, fset_ioTouch, startLease_ioTouch, show pState (ioTouch s h) p = pState s p from rfl, disablePart_ioTouch,
    ite_ioTouch, ite_ioTouch, ite_ioTouch]

theorem twinBind_eq (p : Part) (heads : Nat) : twinBind s p heads =
    twinBound { s with belay := { s.belay with twinHeads := aset s.belay.twinHeads p.val heads } } p heads := rfl

@[simp] theorem twinBind_ioTouch (p : Part) (heads : Nat) :
    twinBind (ioTouch s h) p heads = ioTouch (twinBind s p heads) h := by
  rw [twinBind_eq, twinBind_eq, ioTouch_belay, mk_ioTouch, twinBound_ioTouch]
  rfl

@[simp] theorem takePart_ioTouch (c : CfgPart) : takePart (ioTouch s h) c = ioTouch (takePart s c) h := rfl

@[simp] theorem takeBelayCfg_ioTouch (v : Nat) : takeBelayCfg (ioTouch s h) v = ioTouch (takeBelayCfg s v) h := by
  simp [takeBelayCfg]

@[simp] theorem takeReg_ioTouch (r : CfgReg) : takeReg (ioTouch s h) r = ioTouch (takeReg s r) h := by
  unfold takeReg
  split <;> simp

@[simp] theorem tellSharers_ioTouch : tellSharers (ioTouch s h) = ioTouch (tellSharers s) h := by
  refine foldl_ioTouch s h (fun u d => ?_) _
  rw [ownSharers_ioTouch, bRole_ioTouch, journalSend_ioTouch, ite_ioTouch]

/-- A resync's configuration is taken in stages: the tables, then partitions and registers, then the resync itself. -/
def tablesTaken (s : State) (c : PairConfig) : State :=
  { s with
    exts := c.exts.map fun e =>
      { base := e.base, len := e.len, attr := attrOf e.attr, tag := e.tag,
        holders := e.holders.filterMap fun h =>
          if hp : h.1 < 16 then some ⟨⟨h.1, hp⟩, extOfCode h.2⟩ else none,
        sanitising := e.sanitising, publisherGone := e.publisherGone, epoch := e.epoch, unreadable := e.unreadable },
    snaps := c.snaps.map fun x =>
      { base := x.base, newest := x.newest, old := x.old.map fun o => ⟨o.1, o.2.map savedOf⟩,
        draft := x.draft.map fun d => d.map savedOf, opens := x.opens },
    pinMarks := c.pins, index := c.index.map takeIdx, segs := c.headers.map takeSeg,
    cache := [], reserve := [], attrDue := [], sanHalf := [],
    sanReqs := (c.exts.filter (·.sanitising)).map fun e => granules e.base e.len }

def regsTaken (s : State) (c : PairConfig) : State :=
  let s := c.parts.foldl takePart s
  activateMode ((List.range 16).foldl (fun s k => activateBudget (activateGuar s k) k) (c.regs.foldl takeReg s))

def resyncBegun (s : State) (c : PairConfig) : State :=
  let s := { fset s .roleKeysMaster c.keys with
    belay := { s.belay with unsync := c.segs, changed := [], nextSeq := c.nextSeq } }
  let s := fset (fset s .belayResyncInfoActive 1) .belayResyncInfoFull (if c.full then 1 else 0)
  let s := fset (fset s .belayResyncProgDoneSeg 0) .belayResyncProgTotalSeg c.segs.length
  fset (fset s .belayStatusState bsResync) .belayStatusModeActive (fget s .belayCfgMode)

theorem takeConfig_eq (c : PairConfig) :
    takeConfig s c = listChange (tellSharers (resyncBegun (regsTaken (tablesTaken s c) c) c)) (List.range 16) := rfl

theorem tablesTaken_ioTouch (c : PairConfig) : tablesTaken (ioTouch s h) c = ioTouch (tablesTaken s c) h := rfl

theorem regsTaken_ioTouch (c : PairConfig) : regsTaken (ioTouch s h) c = ioTouch (regsTaken s c) h := by
  unfold regsTaken
  dsimp only
  rw [foldl_ioTouch _ h (fun _ _ => takePart_ioTouch ..), foldl_ioTouch _ h (fun _ _ => takeReg_ioTouch ..),
    foldl_ioTouch _ h (fun u k => by rw [activateGuar_ioTouch, activateBudget_ioTouch]), activateMode_ioTouch]

theorem resyncBegun_ioTouch (c : PairConfig) : resyncBegun (ioTouch s h) c = ioTouch (resyncBegun s c) h := rfl

@[simp] theorem takeConfig_ioTouch (c : PairConfig) : takeConfig (ioTouch s h) c = ioTouch (takeConfig s c) h := by
  rw [takeConfig_eq, takeConfig_eq, tablesTaken_ioTouch, regsTaken_ioTouch, resyncBegun_ioTouch, tellSharers_ioTouch,
    listChange_ioTouch]

@[simp] theorem startResync_ioTouch (full : Bool) : startResync (ioTouch s h) full = ioTouch (startResync s full) h := rfl

@[simp] theorem activatePairMode_ioTouch : activatePairMode (ioTouch s h) = ioTouch (activatePairMode s) h := by
  show Touched h (activatePairMode s) (activatePairMode (ioTouch s h))
  unfold activatePairMode
  dsimp only
  rw [fget_ioTouch, fget_ioTouch, fset_ioTouch]
  refine .ite (fun _ => rfl) fun _ => ?_
  generalize fset s _ _ = u
  exact .ite (fun _ => .ite (fun _ => startResync_ioTouch ..) fun _ => rfl) fun _ =>
    .ite (fun _ => passDirectory_ioTouch ..) fun _ => rfl

@[simp] theorem swapRoles_ioTouch : swapRoles (ioTouch s h) = ioTouch (swapRoles s) h := by
  simp only [swapRoles, bRole_ioTouch, bState_ioTouch, twinUp_ioTouch, ioTouch_tb, fset_ioTouch, setRole_ioTouch,
    mk_ioTouch, ite_ioTouch]
  rfl

@[simp] theorem takeJob_ioTouch (fromLead : Bool) (p : Part) (k : Ring) (idx seq : Nat) (bs : List Byte) :
    takeJob (ioTouch s h) fromLead p k idx seq bs = ioTouch (takeJob s fromLead p k idx seq bs) h := by
  show Touched h (takeJob s fromLead p k idx seq bs) (takeJob (ioTouch s h) fromLead p k idx seq bs)
  exact .ite (fun _ => rfl) fun _ => .ite (fun _ => rfl) fun _ => rfl

@[simp] theorem askBack_ioTouch (p : Part) (exts : List GranRange) :
    askBack (ioTouch s h) p exts = ioTouch (askBack s p exts) h := by
  simp only [askBack, offeredOf_ioTouch, doRequestRelease_ioTouch, doWithdraw_ioTouch, ite_ioTouch]

@[simp] theorem applyReg_ioTouch (b : Blk) (inst off v : Nat) :
    applyReg (ioTouch s h) b inst off v = ioTouch (applyReg s b inst off v) h := by
  unfold applyReg
  split <;> simp

@[simp] theorem applyJ_ioTouch (b : JBody) : applyJ (ioTouch s h) b = ioTouch (applyJ s b) h := by
  show Touched h (applyJ s b) (applyJ (ioTouch s h) b)
  unfold applyJ
  cases b with
  | reg => exact applyReg_ioTouch ..
  | bind => exact .ite (fun _ => doBind_ioTouch ..) fun _ => twinBind_ioTouch ..
  | extAdd => exact .ite (fun _ => doOffer_ioTouch ..) fun _ => rfl
  | extAccept => exact doAccept_ioTouch ..
  | extRequest => exact askBack_ioTouch ..
  | extRelease => simp only [doRelease_ioTouch, sweepWindows_ioTouch]
  | extForce => simp only [doForce_ioTouch, sweepWindows_ioTouch]
  | setAttr => exact setAttrNow_ioTouch ..
  | reclaim => simp only [doReclaim_ioTouch, sweepWindows_ioTouch]
  | revive => exact doRevive_ioTouch ..
  | leaseRenew => exact .ite (fun _ => rfl) fun _ => doRenew_ioTouch ..
  | leaseExpire => exact doLeaseExpire_ioTouch ..
  | sanitised => exact granMark_ioTouch ..
  | hint => exact hintJournal_ioTouch ..
  | dirLine =>
    exact .ite (fun _ => tellTwinPart_ioTouch ..) fun _ => .ite (fun _ => takeOwnPart_ioTouch ..) fun _ => rfl
  | blockForm => exact commitForm_ioTouch ..
  | snap => exact applySnap_ioTouch ..
  | jobDesc => exact takeJob_ioTouch ..
  | rung => exact .ite (fun _ => rfl) fun _ => startEntry_ioTouch ..
  | wake => exact doWake_ioTouch ..
  | fwLevel => exact .ite (fun _ => rfl) fun _ => fwMatch_ioTouch { s with belay := _ } h
  | config => exact .ite (fun _ => takeConfig_ioTouch ..) fun _ => rfl

/-- What the journal's open entries will make of the state. -/
@[simp] theorem foresee_ioTouch : foresee (ioTouch s h) = ioTouch (foresee s) h := by
  show Touched h (foresee s) (foresee (ioTouch s h))
  exact .ite (fun _ =>
    foldl_ioTouch s h (f := fun u (e : JEntry) => applyJ u e.body) (fun u e => applyJ_ioTouch ..) _) fun _ => rfl

theorem openOffers_ioTouch (p : Part) : openOffers (ioTouch s h) p = openOffers s p := by
  unfold openOffers
  rw [foresee_ioTouch, partOf_ioTouch]

end

end Sys2Proof.Machine
end

section
/-! PROOF. The mailbox commands (O53). -/

namespace Sys2Proof.Machine

open Sys2Proof


section
variable {s : State} {h : Head} {p : Part}

/-- An ORPHANED partition, or one whose lease is over, hears Busy. -/
theorem acceptMb_busy (hb : pState s p = pOrphaned ∨ leaseOver s p = true) (exts : List GranRange) :
    acceptMb s h p exts = mbAnswer s p h .busy := if_pos hb

theorem releaseMb_busy (hb : pState s p = pOrphaned ∨ leaseOver s p = true) (exts : List GranRange) :
    releaseMb s h p exts = mbAnswer s p h .busy := if_pos hb

theorem notBusy (hp : pState s p ≠ pOrphaned) (hl : leaseOver s p = false) :
    ¬(pState s p = pOrphaned ∨ leaseOver s p = true) := by simp [hp, hl]

/-- A response that names extents of the oldest offer alone is committed. -/
theorem acceptMb_success {o : Offer} {rest : List Offer} {exts : List GranRange} (hp : pState s p ≠ pOrphaned)
    (hl : leaseOver s p = false) (hal : twinUp s = false) (ho : (partOf s p).offers = o :: rest) (hin : ∀ x ∈ exts, x ∈ o.exts) :
    acceptMb s h p exts = mbAnswer (doAccept s p exts) p h .success := by
  have hopen : openOffers s p = o :: rest := by rw [openOffers, foresee_alone hal, ho]
  have hall : (exts.all fun x => o.exts.contains x) = true := by simpa using hin
  unfold acceptMb
  rw [if_neg (notBusy hp hl), hopen]
  dsimp only
  rw [if_pos hall, commitJ_alone hal]
  rfl

/-- A response that names something else is refused. -/
theorem acceptMb_invalid {o : Offer} {rest : List Offer} {exts : List GranRange} (hp : pState s p ≠ pOrphaned)
    (hl : leaseOver s p = false) (ho : openOffers s p = o :: rest) (hout : ∃ x ∈ exts, x ∉ o.exts) :
    acceptMb s h p exts = mbAnswer s p h .invalidInput := by
  have hall : ¬(exts.all fun x => o.exts.contains x) = true := by simpa using hout
  unfold acceptMb
  rw [if_neg (notBusy hp hl), ho]
  exact if_neg hall

/-- A release that its checks allow is committed. -/
theorem releaseMb_success {exts ps : List GranRange} (hp : pState s p ≠ pOrphaned) (hl : leaseOver s p = false)
    (hr : pState s p ≠ pReclaimed) (hal : twinUp s = false)
    (hc : releaseCode s p [.active, .releasePending] true exts = (.success, ps)) :
    releaseMb s h p exts = mbAnswer (sweepWindows (doRelease s p ps)) p h .success := by
  unfold releaseMb
  rw [if_neg (notBusy hp hl), if_neg hr, foresee_alone hal]
  dsimp only
  rw [hc, if_pos rfl, commitJ_alone hal]
  rfl

theorem clearMb_none {dpa : Nat} (hn : heldExt s p dpa = none) (d : Line) :
    (clearMb s h p dpa d).out = .mbRsp p h .invalidInput [] :: s.out ∧ Same .memory s (clearMb s h p dpa d) := by
  unfold clearMb
  rw [hn]
  exact ⟨rfl, rfl, rfl, rfl⟩

/-- The mailbox's write, once it has its queue entry. -/
theorem clearReq_stored {dpa : Nat} {d : Line} {e : Extent} (l : SoloLine s p dpa e) (hwf : Memory.wf s.mem = true)
    (hdpa : dpa % 64 = 0) :
    let t := serveWrite (queued (offered s (clearReq h p dpa d)) (clearReq h p dpa d)) (clearReq h p dpa d)
    dpa / 64 ∉ t.poison ∧ .mbRsp p h .success [] ∈ t.out ∧
      ∀ k, k < 64 → Memory.get t.mem (dpa + k) = d.extractLsb' (8 * k) 8 := by
  have hl : SoloLine (offered s (clearReq h p dpa d)) p dpa e := ⟨l.alone, l.raw, l.held, l.priv⟩
  refine clearReq_served (soloLine_queued (r := clearReq h p dpa d) hl _) ?_ hdpa
  rw [queued_mem]
  exact hwf

/-- The answer to an injection leaves the line poisoned. -/
theorem injectAt_answered (s : State) (ses : Session) (dpa : Nat) :
    dpa / 64 ∈ (fmAnswer (injectAt s dpa) ses .success).poison ∧
      (fmAnswer (injectAt s dpa) ses .success).out.head? = some (.fmRsp ses .success []) := by
  have hpoison := injectAt_poison s dpa
  generalize injectAt s dpa = t at hpoison ⊢
  exact ⟨hpoison, rfl⟩

end

/-- Settles O53: each command's rule is read in the state in which its head is touched; what a response, a release
or a cleared line changes comes before its answer. -/
theorem mailboxCommandsAnswer : Obligations.MailboxCommandsAnswer := by
  intro s h p ho
  refine ⟨fun hal hp hl o rest exts hoff hin hnd hbase => gives_ioWrite ho rfl ?_,
    fun hp hl o rest exts hoff hout => gives_ioWrite ho rfl ?_,
    fun hal hp hl hr exts ps hlen hpw hc => gives_ioWrite ho rfl ?_,
    fun hb exts => ⟨gives_ioWrite ho rfl ?_, gives_ioWrite ho rfl ?_, gives_ioWrite ho rfl ?_⟩,
    fun hp hl => gives_ioWrite ho rfl ?_,
    gives_ioWrite ho rfl ⟨_, rfl, fun _ hline hheld => mem_poisonList hline hheld⟩,
    fun _ => gives_ioWrite ho rfl rfl,
    fun ses dpa ha hheld => gives_fmInstaller ha rfl ?_,
    fun dpa d hdpa => ⟨fun hnone => gives_ioWrite ho rfl ?_,
      fun e hheld hpriv hwf ht hal hrole hdec hhome hexp hidle hroom hw => gives_ioWrite ho rfl ?_⟩⟩
  · rw [acceptMb_success (s := ioTouch s h) hp hl hal hoff hin]
    obtain ⟨hrest, hactive, hothers⟩ := doAccept_answered (s := ioTouch s h) hoff hnd hbase hin
    exact ⟨⟨_, rfl⟩, hrest, hactive, hothers⟩
  · rw [acceptMb_invalid (s := ioTouch s h) hp hl ((openOffers_ioTouch s h p).trans hoff) hout]
    exact ⟨rfl, rfl, rfl⟩
  · rw [releaseMb_success (s := ioTouch s h) hp hl hr hal hc]
    exact ⟨⟨_, rfl⟩, fun x hx g hg hg' e he h1 h2 =>
      doRelease_ranges (s := ioTouch s h) (tidy_of_ordered hlen hpw) hc x hx g ⟨hg, hg'⟩ e he ⟨h1, h2⟩⟩
  · rw [acceptMb_busy (s := ioTouch s h) hb]
    rfl
  · rw [releaseMb_busy (s := ioTouch s h) hb]
    rfl
  · exact congrArg State.out (if_pos hb)
  · exact congrArg State.out (if_neg (notBusy (s := ioTouch s h) hp hl))
  · have hext : heldExt (auditCmd (sessionMsg s ses) ses 0x4301 (leBytes 8 dpa)) p dpa = heldExt s p dpa := by
      unfold heldExt extOf extOfGran
      rw [(installer_kept s ses _ _).1]
    dsimp only
    rw [hext, if_pos hheld]
    exact injectAt_answered _ ses dpa
  · exact clearMb_none (s := ioTouch s h) hnone d
  · rw [clearMb_unshared (s := ioTouch s h) ⟨hal, hexp, hheld, hpriv⟩ hdpa ht hrole hdec hw,
      clearReq_homeReq (s := ioTouch s h) ⟨hal, hexp, hheld, hpriv⟩ ⟨hhome, hidle, hroom⟩, clearReq_perform]
    exact clearReq_stored ⟨hal, hexp, hheld, hpriv⟩ ((memoriesWf_iff s).mp hwf).1 hdpa

end Sys2Proof.Machine
end

section
/-! PROOF. What each result of a snapshot command means (O28). -/

namespace Sys2Proof.Machine

open Sys2Proof

section
variable {s : State} {p base : Nat} {e : Extent} {x : Snap}

theorem versionLive_iff (x : Snap) (v : Nat) : versionLive x v = true ↔ v = x.newest ∨ ∃ o ∈ x.old, o.num = v := by
  simp [versionLive]

/-- The extent that a snapshot command finds begins at the base named, and the partition's accesses to it are served. -/
theorem servedAt_of_find (h : s.exts.find? (fun e => decide (e.base = base) && served e p) = some e) :
    e ∈ s.exts ∧ e.base = base := by
  have hfound := List.find?_some h
  simp only [Bool.and_eq_true, decide_eq_true_eq] at hfound
  exact ⟨List.mem_of_find?_eq_some h, hfound.1⟩

theorem snapResult_notHeld (h : s.exts.find? (fun e => decide (e.base = base) && served e p) = none) (op ver : Nat) :
    snapResult s p op base ver = snNotHeld := by
  unfold snapResult
  rw [h]

theorem snapResult_notSnapshot (h : s.exts.find? (fun e => decide (e.base = base) && served e p) = some e)
    (hs : e.attr.sharing ≠ 2) (op ver : Nat) : snapResult s p op base ver = snNotSnapshot := by
  unfold snapResult
  rw [h]
  exact if_pos hs

/-- What a command on a held snapshot extent answers, the version record at hand. -/
def recordResult (s : State) (e : Extent) (x : Snap) (p op ver : Nat) : Nat :=
  if op = snOpen then (if versionLive x (namedVersion x ver) then snOk else snNoVersion)
  else if op = snClose then snOk
  else if !isPublisher e p then snNotPublisher
  else if op = snDraft then
    if x.draft.isSome then snDraftState
    else if Config.liveVersions ≤ snapLive x then snVersionsFull
    else if unreserved s < e.len * granBlocks then snReserveShort
    else snOk
  else if x.draft.isSome then snOk else snDraftState

theorem snapResult_record (h : s.exts.find? (fun e => decide (e.base = base) && served e p) = some e)
    (hs : e.attr.sharing = 2) (hx : snapOf s base = some x) (op ver : Nat) :
    snapResult s p op base ver = recordResult s e x p op ver := by
  unfold snapResult
  rw [h]
  dsimp only
  rw [if_neg (not_not_intro hs), hx]
  rfl

/-- A command other than OPEN on a held snapshot extent has one of the results that do not speak of versions. -/
theorem recordResult_of_not_open {op : Nat} (ho : op ≠ snOpen) (ver : Nat) :
    recordResult s e x p op ver ∈ [snOk, snNotPublisher, snDraftState, snVersionsFull, snReserveShort] := by
  unfold recordResult
  rw [if_neg ho]
  split
  · decide
  · split
    · decide
    · split
      · split
        · decide
        · split
          · decide
          · split <;> decide
      · split <;> decide

theorem recordResult_open (ver : Nat) : recordResult s e x p snOpen ver =
    if versionLive x (namedVersion x ver) then snOk else snNoVersion := if_pos rfl

theorem recordResult_noVersion_iff (op ver : Nat) : recordResult s e x p op ver = snNoVersion ↔
    op = snOpen ∧ ¬(namedVersion x ver = x.newest ∨ ∃ o ∈ x.old, o.num = namedVersion x ver) := by
  rw [← versionLive_iff]
  by_cases ho : op = snOpen
  · subst ho
    rw [recordResult_open]
    split
    next hl => simp [hl, snOk, snNoVersion]
    next hl => simp [hl]
  · have hmem := recordResult_of_not_open (s := s) (e := e) (x := x) (p := p) ho ver
    refine iff_of_false (fun hr => ?_) fun h => ho h.1
    rw [hr] at hmem
    exact absurd hmem (by decide)

/-- With its version record at hand the extent is no stranger: the result is neither NOT_HELD nor NOT_SNAPSHOT. -/
theorem recordResult_held (op ver : Nat) : recordResult s e x p op ver ≠ snNotHeld ∧
    recordResult s e x p op ver ≠ snNotSnapshot := by
  by_cases ho : op = snOpen
  · subst ho
    rw [recordResult_open]
    split <;> decide
  · have hmem := recordResult_of_not_open (s := s) (e := e) (x := x) (p := p) ho ver
    refine ⟨fun hr => ?_, fun hr => ?_⟩
    · rw [hr] at hmem
      exact absurd hmem (by decide)
    · rw [hr] at hmem
      exact absurd hmem (by decide)

end

/-- Settles O28: the extent that the command finds, its SHARING and its version record each decide one of the three results. -/
theorem snapResultsMeanWhatTheySay : Obligations.SnapResultsMeanWhatTheySay := by
  intro s p op base ver hrecords
  have hrecord : ∀ e, s.exts.find? (fun e => decide (e.base = base) && served e p) = some e → e.attr.sharing = 2 →
      ∃ x, snapOf s base = some x := fun e he hs => by
    obtain ⟨hmem, rfl⟩ := servedAt_of_find he
    exact hrecords e hmem hs
  have hheld : ∀ e, s.exts.find? (fun e => decide (e.base = base) && served e p) = some e →
      snapResult s p op base ver ≠ snNotHeld := fun e he => by
    by_cases hs : e.attr.sharing = 2
    · obtain ⟨x, hx⟩ := hrecord e he hs
      rw [snapResult_record he hs hx]
      exact (recordResult_held op ver).1
    · rw [snapResult_notSnapshot he hs]
      decide
  refine ⟨?_, fun e he => ⟨⟨fun hr hs => ?_, fun hs => snapResult_notSnapshot he hs op ver⟩, fun x hs hx => ?_⟩⟩
  · cases hfind : s.exts.find? fun e => decide (e.base = base) && served e p with
    | none =>
      refine iff_of_true (snapResult_notHeld hfind op ver) fun e he hb => ?_
      simpa [hb] using List.find?_eq_none.mp hfind e he
    | some e =>
      refine iff_of_false (hheld e hfind) fun hall => ?_
      have hserved := List.find?_some hfind
      obtain ⟨hmem, hb⟩ := servedAt_of_find hfind
      simp [hall e hmem hb] at hserved
  · obtain ⟨x, hx⟩ := hrecord e he hs
    rw [snapResult_record he hs hx] at hr
    exact (recordResult_held op ver).2 hr
  · rw [snapResult_record he hs hx]
    exact recordResult_noVersion_iff op ver

end Sys2Proof.Machine
end

section
/-! PROOF. A sharer's answer to a back-invalidate snoop, and its timeout (O38). -/

namespace Sys2Proof.Machine

open Sys2Proof

section
variable {s t : State} {line sh : Nat} {resp : BiResp} {x : DirTrans}

/-! ### What leaves the transitions and the waiting requests -/

/-- The transitions and the requests that wait on lines are the same. -/
def QueuesKept (s t : State) : Prop := t.trans = s.trans ∧ t.lineq = s.lineq

theorem dirTell_queues (s t : State) (line : Nat) : QueuesKept t (dirTell s t line) := by
  unfold dirTell
  split <;> exact ⟨rfl, rfl⟩

theorem dirSet_queues (s : State) (d : DirEntry) : QueuesKept s (dirSet s d) := dirTell_queues _ _ _

theorem dirDrop_queues (s : State) (line : Nat) : QueuesKept s (dirDrop s line) := dirTell_queues _ _ _

theorem forgetOn_queues (s : State) (line : Nat) (gone : Nat → Bool) : QueuesKept s (forgetOn s line gone) := by
  unfold forgetOn
  split
  · split
    · split
      · exact ⟨rfl, rfl⟩
      · exact dirSet_queues _ _
    · exact dirDrop_queues _ _
  · exact ⟨rfl, rfl⟩

theorem entryAnswered_queues (s : State) (line sh : Nat) (resp : BiResp) (x : DirTrans) :
    QueuesKept s (entryAnswered s line sh resp x) := by
  unfold entryAnswered
  split
  · exact forgetOn_queues _ _ _
  · split
    · split
      · exact dirSet_queues _ _
      · exact ⟨rfl, rfl⟩
    · exact ⟨rfl, rfl⟩

theorem leaveDone_queues (s : State) (line sh : Nat) : QueuesKept s (leaveDone s line sh) :=
  ((leaveDone_moves (F := 281509336523789) rfl (.refl _ s)).frame .directory (by decide)).2

/-! ### The answer to a snoop (04 R85) -/

/-- A transition that a sharer has answered. -/
def answeredTrans (sh : Nat) (resp : BiResp) (x : DirTrans) : DirTrans :=
  { x with owed := rem x.owed sh,
           keptS := if resp = .s then sh :: x.keptS else x.keptS,
           keptE := if resp = .e then sh :: x.keptE else x.keptE }

/-- A sharer's answer to a transition is noted: in the transition, in the line's entry, and with a holder that leaves. -/
def answerNoted (s : State) (line sh : Nat) (resp : BiResp) (x : DirTrans) : State :=
  leaveDone (entryAnswered (answerCounted s line sh resp x) line sh resp x) line sh

theorem biAnswer_owed (h : s.trans.reverse.find? (fun x => decide (x.line = line) && x.owed.contains sh) = some x) :
    biAnswer s line sh resp = lineDone (answerNoted s line sh resp x) line := by
  rw [biAnswer_eq, h]
  rfl

theorem answerNoted_trans (s : State) (line sh : Nat) (resp : BiResp) (x : DirTrans) :
    (answerNoted s line sh resp x).trans = s.trans.map fun y => if y = x then answeredTrans sh resp x else y := by
  have hcounted : (answerCounted s line sh resp x).trans =
      s.trans.map fun y => if y = x then answeredTrans sh resp x else y := by
    unfold answerCounted
    dsimp only
    split <;> rfl
  exact ((leaveDone_queues _ _ _).1.trans (entryAnswered_queues _ _ _ _ _).1).trans hcounted

theorem answerNoted_lineq (s : State) (line sh : Nat) (resp : BiResp) (x : DirTrans) :
    (answerNoted s line sh resp x).lineq = s.lineq := by
  have hcounted : (answerCounted s line sh resp x).lineq = s.lineq := by
    unfold answerCounted
    dsimp only
    split <;> rfl
  exact ((leaveDone_queues _ _ _).2.trans (entryAnswered_queues _ _ _ _ _).2).trans hcounted

theorem answerNoted_fget {f : Fld} (hf : f.desc.blk = .dir) (s : State) (line sh : Nat) (resp : BiResp) (x : DirTrans)
    (i j : Nat) : fget (answerNoted s line sh resp x) f i j = fget s f i j := by
  have hlatched : f ≠ .cairnCoalesceStatsLatched := fun h => by
    rw [h] at hf
    exact absurd hf (by decide)
  have hentry : ∀ u : State, Moves 536903681 u (entryAnswered u line sh resp x) := fun u => by
    unfold entryAnswered
    refine .ite (fun _ => forgetOn_moves rfl (.refl _ u)) fun _ => .ite (fun _ => ?_) fun _ => .refl _ u
    split
    · exact dirSet_moves rfl (.refl _ u)
    · exact .refl _ u
  have hcounted : fget (answerCounted s line sh resp x) f i j = fget s f i j := by
    unfold answerCounted
    dsimp only
    split <;> rfl
  unfold answerNoted
  rw [(leaveDone_moves (F := 281509336523789) rfl (.refl _ _)).fget_eq (by rw [hf]; decide) hlatched,
    (hentry _).fget_eq (by rw [hf]; decide) hlatched, hcounted]

/-- A line stays in BI_PENDING while one of its transitions is owed an answer. -/
theorem lineDone_waits {y : DirTrans} (hy : y ∈ s.trans) (hl : y.line = line) (ho : y.owed ≠ []) : lineDone s line = s := by
  rw [lineDone_eq]
  refine if_neg fun hall => ho ?_
  rw [List.all_eq_true] at hall
  exact List.isEmpty_iff.mp (hall y (List.mem_reverse.mpr (List.mem_filter.mpr ⟨hy, decide_eq_true hl⟩)))

/-- The transition found is one of the line's that the sharer owes. -/
theorem mem_of_findOwed (h : s.trans.reverse.find? (fun x => decide (x.line = line) && x.owed.contains sh) = some x) :
    x ∈ s.trans ∧ x.line = line ∧ x.owed.contains sh = true := by
  have hfound := List.find?_some h
  simp only [Bool.and_eq_true, decide_eq_true_eq] at hfound
  exact ⟨List.mem_reverse.mp (List.mem_of_find?_eq_some h), hfound⟩

/-- An answer that leaves the transition with others to wait for ends with its note. -/
theorem biAnswer_waits (h : s.trans.reverse.find? (fun x => decide (x.line = line) && x.owed.contains sh) = some x)
    (hrest : rem x.owed sh ≠ []) : biAnswer s line sh resp = answerNoted s line sh resp x := by
  obtain ⟨hx, hl, -⟩ := mem_of_findOwed h
  rw [biAnswer_owed h]
  refine lineDone_waits (y := answeredTrans sh resp x) ?_ hl hrest
  rw [answerNoted_trans]
  exact List.mem_map.mpr ⟨x, hx, if_pos rfl⟩

/-- With no request waiting, the queues have nothing to move. -/
theorem queueMoved_idle (hq : s.lineq = []) (line : Nat) (slice : Bool) : queueMoved s line slice = s := by
  have hhead : lineHead s line = none := by
    unfold lineHead
    rw [hq]
    rfl
  have hdrain : drainSlice s (sliceOf line) = s := by
    unfold drainSlice
    rw [hq]
    rfl
  unfold queueMoved
  rw [hq]
  dsimp only [List.length_nil, drainLine]
  rw [hhead]
  simp [hdrain]

/-- The last answer to the one transition of a victim's line frees its buffer. -/
theorem lineDone_victim (ht : s.trans = [x]) (hl : x.line = line) (ho : x.owed = []) (hv : x.victim = true)
    (hq : s.lineq = []) : lineDone s line = { s with trans := [] } := by
  have hfinish : ∀ u, finishTrans u x = u := fun u => by
    unfold finishTrans
    rw [hv]
    rfl
  rw [lineDone_eq, ht]
  simp only [hl, ho, decide_true, List.filter_cons_of_pos, List.filter_nil, List.reverse_singleton, List.all_cons,
    List.isEmpty_nil, List.all_nil, Bool.and_self, if_true, List.foldl_cons, List.foldl_nil, hfinish]
  simp [hl, queueMoved_idle, hq]

theorem biAnswer_victim (ht : s.trans = [x]) (hl : x.line = line) (ho : x.owed = [sh]) (hv : x.victim = true)
    (hq : s.lineq = []) : (biAnswer s line sh resp).trans = [] := by
  have hfind : s.trans.reverse.find? (fun x => decide (x.line = line) && x.owed.contains sh) = some x := by
    simp [ht, hl, ho]
  have hnoted : (answerNoted s line sh resp x).trans = [answeredTrans sh resp x] := by
    rw [answerNoted_trans, ht]
    simp
  have howed : (answeredTrans sh resp x).owed = [] := by simp [answeredTrans, ho, rem]
  rw [biAnswer_owed hfind, lineDone_victim hnoted hl howed hv ((answerNoted_lineq _ _ _ _ _).trans hq)]

/-! ### The timeout (04 R89) -/

/-- What BI_TIMEOUT counts, marks and tells before it answers for the sharer. -/
def timeoutNoted (s : State) (h : Head) (p : Part) (dpa : Nat) : State :=
  let s := finc (finc s .dirBiStatsBiTimeouts p) .dirBiStatsBiTimeouts 16
  let s := fset s .dirBiFailedHeads (bitOn (fget s .dirBiFailedHeads p) h) p
  let s := raise (raise s .dirBiTimeout p none (leBytes 8 (lineOf dpa))) .dirBiTimeout 16 (some p.val) (leBytes 8 (lineOf dpa))
  mediaEvent s p true dpa

theorem doBiTimeout_eq (s : State) (h : Head) (p : Part) (dpa : Nat) :
    doBiTimeout s h p dpa = biAnswer (timeoutNoted s h p dpa) (lineOf dpa) (sharerId p h) .i := rfl

theorem testBit_bitOn (n i : Nat) : (bitOn n i).testBit i = true := by
  unfold bitOn
  split
  · assumption
  next hn => rw [Nat.add_comm, Nat.testBit_two_pow_add_eq, Bool.eq_false_iff.mpr hn]; rfl

/-- A timeout marks the head, sets both events, and leaves the transitions. -/
theorem timeoutNoted_told (s : State) (h : Head) (p : Part) (dpa : Nat) : (timeoutNoted s h p dpa).trans = s.trans ∧
    (fget (timeoutNoted s h p dpa) .dirBiFailedHeads p).testBit h = true ∧
    Signalled (timeoutNoted s h p dpa) .dirBiTimeout p ∧ Signalled (timeoutNoted s h p dpa) .dirBiTimeout 16 := by
  have hmedia : ∀ u : State, Moves 1025 u (mediaEvent u p true dpa) := fun u => mediaEvent_moves rfl (.refl _ u)
  unfold timeoutNoted
  refine ⟨?_, ?_, ?_, ?_⟩
  · rw [((hmedia _).frame .directory (by decide)).2.1]
    simp
  · rw [(hmedia _).fget_eq (by decide) (by decide), fget_raise _ _ _ _ _ _ _ _ _ (by decide),
      fget_raise _ _ _ _ _ _ _ _ _ (by decide), fget_fset_self, Nat.testBit_mod_two_pow, testBit_bitOn]
    exact (Bool.and_true _).trans (decide_eq_true h.isLt)
  · exact (hmedia _).signalled (by decide) (raise_mono _ _ _ _ _ _ _ _ _ _ (raise_signalled _ _ _ _ _ _ _))
  · exact (hmedia _).signalled (by decide) (raise_signalled _ _ _ _ _ _ _)

end

/-- Settles O38: what an answer notes leaves the other transitions, and the line waits on while one of them is owed. -/
theorem backInvalidatesAreAnswered : Obligations.BackInvalidatesAreAnswered := by
  intro s h p dpa x sh owed
  refine ⟨fun hup => ⟨_, congrArg Host.Outcome.next (if_pos hup), rfl⟩, fun hfind hrest =>
    ⟨fun resp hup => ⟨_, congrArg Host.Outcome.next (if_pos hup), ?_⟩, ?_⟩, fun ht hl ho hv hq hup resp =>
    ⟨_, congrArg Host.Outcome.next (if_pos hup), biAnswer_victim ht hl ho hv hq⟩⟩
  · rw [biAnswer_waits hfind hrest]
    exact answerNoted_trans _ _ _ _ _
  · obtain ⟨hx, hline, howes⟩ := mem_of_findOwed hfind
    have howed : owes s (lineOf dpa) sh = true :=
      List.any_eq_true.mpr ⟨x, hx, by rw [hline, howes, decide_eq_true rfl]; rfl⟩
    obtain ⟨htrans, hmark, hpart, hdevice⟩ := timeoutNoted_told s h p dpa
    have hanswer : doBiTimeout s h p dpa = answerNoted (timeoutNoted s h p dpa) (lineOf dpa) sh .i x := by
      rw [doBiTimeout_eq, biAnswer_waits (by rw [htrans]; exact hfind) hrest]
    have hsteady : Steady (timeoutNoted s h p dpa) (doBiTimeout s h p dpa) := by
      rw [doBiTimeout_eq]
      exact biAnswer_steady (.refl _)
    refine ⟨_, congrArg Host.Outcome.next (if_pos howed), ?_, hsteady.signalled hpart, hsteady.signalled hdevice, ?_⟩
    · rw [hanswer, answerNoted_fget (by decide)]
      exact hmark
    · rw [hanswer, answerNoted_trans, htrans]
      rfl

end Sys2Proof.Machine
end

section
/-! PROOF. A commit writes each copy of its draft at the copy's block, however long the copy is (O55). -/

namespace Sys2Proof.Machine

open Sys2Proof

section
variable {s : State} {p : Part} {base : Nat} {x : Snap}

/-! ### The bytes of a block -/

theorem putBlock_mem (s : State) (b : Nat) (bs : List Byte) : (putBlock s b bs).mem =
    Memory.write (Memory.zero s.mem (blockDpa b) (blockDpa b + 8192)) (blockDpa b) bs := by
  have hheal : ∀ l : List Nat, (l.foldl (fun s i => heal s (b * 128 + i)) s).mem = s.mem := fun l =>
    foldl_keeps (P := fun u => u.mem = s.mem) l (fun u i _ hu => (heal_mem u _).trans hu) rfl
  unfold putBlock
  dsimp only
  rw [hheal]

/-- Every byte given lands, also those beyond the end of the block. -/
theorem putBlock_byte (hwf : Memory.wf s.mem = true) (b : Nat) (bs : List Byte) {i : Nat} (hi : i < bs.length) :
    Memory.get (putBlock s b bs).mem (blockDpa b + i) = bs[i] := by
  rw [putBlock_mem]
  exact Memory.get_write (Memory.wf_zero hwf _ _) _ _ _ hi

theorem getElem?_of_read {m : List Host.Cell} {a n : Nat} {bs : List Byte} (h : Memory.read m a n = bs) {i : Nat} (hi : i < n) :
    bs[i]? = some (Memory.get m (a + i)) := by
  rw [← h, Memory.read, List.getElem?_map, List.getElem?_range hi]
  rfl

/-! ### A commit -/

/-- What a block's old contents leave in the state and as a saved copy, before the draft's copy takes their place. -/
def oldSaved (s : State) (k : SavedBlock) : State × SavedBlock :=
  let s := residentNow s k.block
  let (s, old) := copyBlock s k.block
  (fixReplaced (fixReads s ((extOf s (blockDpa k.block)).elim 0 (·.base))) old, old)

/-- The draft's copy of a block takes its place, with the poison that it holds. -/
def copyPut (s : State) (k : SavedBlock) : State :=
  let s := putBlock s k.block k.bytes
  { s with poison := k.bad.map (k.block * 128 + ·) ++ s.poison }

theorem replaceBlock_eq (s : State) (k : SavedBlock) :
    (replaceBlock s k).1 = noteWrite (copyPut (oldSaved s k).1 k) k.block := rfl

theorem oldSaved_moves (s : State) (k : SavedBlock) : Moves 47692383716383 s (oldSaved s k).1 :=
  fixReplaced_moves rfl (fixReads_moves rfl (copyBlock_moves rfl (residentNow_moves rfl (.refl _ s))))

theorem copyPut_mem (s : State) (k : SavedBlock) : (copyPut s k).mem = (putBlock s k.block k.bytes).mem := by
  unfold copyPut
  dsimp only

/-- The copy's bytes stand in memory from its block on. -/
theorem replaceBlock_byte (hwf : s.memoriesWf = true) (k : SavedBlock) {i : Nat} (hi : i < k.bytes.length) :
    Memory.get (replaceBlock s k).1.mem (blockDpa k.block + i) = k.bytes[i] := by
  have hold := (memoriesWf_iff _).mp ((oldSaved_moves s k).keeps.memories hwf)
  have hnote : (noteWrite (copyPut (oldSaved s k).1 k) k.block).mem = (copyPut (oldSaved s k).1 k).mem :=
    (noteWrite_frame (k := .memory) _ _ (by decide)).1
  rw [replaceBlock_eq, hnote, copyPut_mem]
  exact putBlock_byte hold.1 _ _ hi

/-- What a commit's blocks leave in a package without SSDs: how it started, and the snapshot commands in progress. -/
def CommandsKept (s t : State) : Prop := t.boot = s.boot ∧ t.snapCmds = s.snapCmds

theorem CommandsKept.trans {s t u : State} (h : CommandsKept s t) (k : CommandsKept t u) : CommandsKept s u :=
  ⟨k.1.trans h.1, k.2.trans h.2⟩

theorem Moves.commandsKept {F : Nat} {s t : State} (m : Moves F s t) (hb : F.testBit Kind.boot.num = false)
    (hs : F.testBit Kind.snapshots.num = false) : CommandsKept s t := ⟨m.frame .boot hb, (m.frame .snapshots hs).2⟩

theorem copyPut_commandsKept (s : State) (k : SavedBlock) : CommandsKept s (copyPut s k) := by
  have hput : CommandsKept s (putBlock s k.block k.bytes) :=
    (putBlock_moves (F := 536870928) rfl (.refl _ s)).commandsKept (by decide) (by decide)
  unfold CommandsKept copyPut
  dsimp only
  exact hput

theorem replaceBlock_commandsKept (ht : s.boot.tiered = false) (k : SavedBlock) : CommandsKept s (replaceBlock s k).1 := by
  have hresident : residentNow s k.block = s := if_pos (by rw [ht]; rfl)
  have hcopy : CommandsKept s (copyBlock s k.block).1 :=
    (copyBlock_moves (F := 11270867649565) rfl (.refl _ s)).commandsKept (by decide) (by decide)
  have hfixed : ∀ (u : State) base old, CommandsKept u (fixReplaced (fixReads u base) old) := fun u base old =>
    (fixReplaced_moves (F := 201719808) rfl (fixReads_moves rfl (.refl _ u))).commandsKept (by decide) (by decide)
  have hold : CommandsKept s (oldSaved s k).1 := by
    unfold oldSaved
    rw [hresident]
    exact hcopy.trans (hfixed _ _ _)
  have hnote : ∀ u : State, CommandsKept u (noteWrite u k.block) := fun u =>
    (noteWrite_moves (F := noteKinds) rfl (.refl _ u)).commandsKept (by decide) (by decide)
  rw [replaceBlock_eq]
  exact (hold.trans (copyPut_commandsKept _ _)).trans (hnote _)

/-- One block of a draft takes its place; what it replaces is saved. -/
def replaceNext (a : State × List SavedBlock) (k : SavedBlock) : State × List SavedBlock :=
  ((replaceBlock a.1 k).1, a.2 ++ [(replaceBlock a.1 k).2])

/-- The blocks of a draft take their places, one after the other. -/
def replaceAll (s : State) (d : List SavedBlock) : State × List SavedBlock := d.foldl replaceNext (s, [])

theorem replaceAll_concat (s : State) (d : List SavedBlock) (k : SavedBlock) :
    replaceAll s (d ++ [k]) = replaceNext (replaceAll s d) k := List.foldl_concat ..

theorem replaceAll_memoriesWf (hwf : s.memoriesWf = true) (d : List SavedBlock) : (replaceAll s d).1.memoriesWf = true := by
  have hnext : ∀ (a : State × List SavedBlock) k, a.1.memoriesWf = true → (replaceNext a k).1.memoriesWf = true :=
    fun a k ha => (replaceBlock_moves (F := 47692383716383) rfl (.refl _ a.1)).keeps.memories ha
  unfold replaceAll
  exact foldl_keeps (P := fun a : State × List SavedBlock => a.1.memoriesWf = true) d (fun a k _ => hnext a k) hwf

theorem replaceAll_commandsKept (ht : s.boot.tiered = false) (d : List SavedBlock) : CommandsKept s (replaceAll s d).1 := by
  have hnext : ∀ (a : State × List SavedBlock) k, CommandsKept s a.1 → CommandsKept s (replaceNext a k).1 :=
    fun a k ha => ha.trans (replaceBlock_commandsKept (by rw [ha.1]; exact ht) k)
  unfold replaceAll
  exact foldl_keeps (P := fun a : State × List SavedBlock => CommandsKept s a.1) d (fun a k _ => hnext a k) ⟨rfl, rfl⟩

theorem commitDraft_eq {d : List SavedBlock} (hx : snapOf s base = some x) (hd : x.draft = some d) (p : Part) :
    commitDraft s p base = raise (snapMap (replaceAll s d).1 base fun x =>
      snapRetire { x with newest := x.newest + 1, draft := none, old := x.old ++ [⟨x.newest, (replaceAll s d).2⟩] })
        .dirCommitted p := by
  unfold commitDraft
  rw [hx]
  dsimp only
  rw [hd]
  rfl

theorem snapCommitted_none {own : Bool} (h : s.snapCmds.find? (fun c => decide (c.1 = snapKey own p)) = none) :
    snapCommitted s own p = s := by
  unfold snapCommitted
  rw [h]

/-- A COMMIT of this package makes its version and keeps a finished command. -/
theorem snapCommitted_commit {c : SnapCmd} (h : s.snapCmds.find? (fun c => decide (c.1 = p.val)) = some (p.val, c))
    (ho : c.op = snCommit) : ∃ done, snapCommitted s true p =
      { commitDraft s p c.base with snapCmds := aset (commitDraft s p c.base).snapCmds p.val done } := by
  have hfind : s.snapCmds.find? (fun c => decide (c.1 = snapKey true p)) = some (p.val, c) := h
  unfold snapCommitted
  rw [hfind]
  dsimp only
  rw [if_pos ho]
  exact ⟨_, rfl⟩

/-- At the boundary of a COMMIT, where no command of the twin waits, memory holds what the draft's blocks leave. -/
theorem snapAtBoundary_mem {c : SnapCmd} {d : List SavedBlock} (hc : s.snapCmds = [(p.val, c)]) (ho : c.op = snCommit)
    (hx : snapOf s c.base = some x) (hd : x.draft = some d) (ht : s.boot.tiered = false) :
    (snapAtBoundary s p).mem = (replaceAll s d).1.mem := by
  have hcmds : (commitDraft s p c.base).snapCmds = [(p.val, c)] := by
    rw [commitDraft_eq hx hd, raise_snapCmds]
    exact (replaceAll_commandsKept ht d).2.trans hc
  have hmem : (commitDraft s p c.base).mem = (replaceAll s d).1.mem := by
    rw [commitDraft_eq hx hd, raise_mem]
    rfl
  obtain ⟨done, hown⟩ := snapCommitted_commit (s := s) (p := p) (c := c) (by simp [hc]) ho
  unfold snapAtBoundary
  rw [hown, snapCommitted_none (by simp [hcmds, aset, adel, snapKey])]
  exact hmem

/-- The copy that a commit writes last stands whole in memory, whatever block its bytes reach into. -/
theorem snapAtBoundary_lastCopy {c : SnapCmd} {d : List SavedBlock} {k : SavedBlock} (hc : s.snapCmds = [(p.val, c)])
    (ho : c.op = snCommit) (hx : snapOf s c.base = some x) (hd : x.draft = some (d ++ [k])) (ht : s.boot.tiered = false)
    (hwf : s.memoriesWf = true) {i : Nat} (hi : i < k.bytes.length) :
    Memory.get (snapAtBoundary s p).mem (blockDpa k.block + i) = k.bytes[i] := by
  rw [snapAtBoundary_mem hc ho hx hd ht, replaceAll_concat]
  exact replaceBlock_byte (replaceAll_memoriesWf hwf d) k hi

end

/-- A draft whose second copy, of block 0, is one byte longer than a block; the first is of block 1. Copies that the package
makes itself are as long as what they copy; one that comes with the twin's configuration may have any length (`takeConfig`). -/
def overlongDraft : List SavedBlock := [⟨1, List.replicate 8192 0, []⟩] ++ [⟨0, List.replicate 8193 1, []⟩]

/-- The package as it is reset, with that draft and its COMMIT waiting for the boundary. -/
def overlongCommit : State :=
  { State.reset with snaps := [{ base := 0, draft := some overlongDraft }], snapCmds := [(0, ⟨snCommit, 0, 0, 0⟩)] }

theorem overlongCommit_memoriesWf : overlongCommit.memoriesWf = true := rfl

/-- The commit leaves the last byte of block 0's copy at the first byte of block 1. -/
theorem overlongCommit_block1 : Memory.get (snapAtBoundary overlongCommit 0).mem (blockDpa 1) = 1 := by
  have hbyte := snapAtBoundary_lastCopy (s := overlongCommit) (p := 0) rfl rfl rfl rfl rfl overlongCommit_memoriesWf
    (i := 8192) (by rw [List.length_replicate]; decide)
  rw [List.getElem_replicate] at hbyte
  exact hbyte

/-- Refutes O55: a draft's copy that is longer than its block overwrites the next block, whose own copy was written before. -/
theorem not_snapshotsOpenDraftAndCommit : ¬ Obligations.SnapshotsOpenDraftAndCommit := by
  intro hall
  obtain ⟨-, hcommands, -⟩ := hall overlongCommit
  obtain ⟨t, ht, -, -, hcopies⟩ := (hcommands 0 ⟨snCommit, 0, 0, 0⟩ rfl).1 _ overlongDraft rfl rfl rfl (.inl rfl) rfl
  obtain rfl : snapAtBoundary overlongCommit 0 = t := Host.Outcome.next.inj ht
  have hread := hcopies overlongCommit_memoriesWf (by decide) ⟨1, List.replicate 8192 0, []⟩ List.mem_cons_self
    List.length_replicate
  have hbyte := getElem?_of_read hread (i := 0) (by decide)
  rw [Nat.add_zero, overlongCommit_block1, List.getElem?_replicate_of_lt (by decide)] at hbyte
  exact absurd (Option.some.inj hbyte) (by decide)

end Sys2Proof.Machine
end

section
/-! PROOF. What a rebuild writes to the missing member of a stripe (O57). -/

namespace Sys2Proof.Machine

open Sys2Proof

/-! ### The bytes of a place (05 R118, R119) -/

@[simp] theorem placeBytes_length (s : State) (k u : Nat) : (placeBytes s k u).length = 8192 := by
  simp [placeBytes, Memory.read]

theorem placeBytes_getElem? (s : State) (k u : Nat) {i : Nat} (hi : i < 8192) :
    (placeBytes s k u)[i]? = some (Memory.get s.ssd (ssdKey k (u * 8192) + i)) := getElem?_of_read rfl hi

theorem xorBytes_getElem? {a b : List Byte} {i : Nat} {x y : Byte} (ha : a[i]? = some x) (hb : b[i]? = some y) :
    (xorBytes a b)[i]? = some (x ^^^ y) := by
  rw [xorBytes, List.getElem?_zipWith, ha, hb]

theorem xorPlaces_getElem? (s : State) (u : Nat) (ks : List Nat) {i : Nat} (hi : i < 8192) :
    (xorPlaces s u ks)[i]? = some (ks.foldl (fun x k => x ^^^ Memory.get s.ssd (ssdKey k (u * 8192) + i)) 0) := by
  suffices h : ∀ (acc : List Byte) (x : Byte), acc[i]? = some x →
      (ks.foldl (fun acc k => xorBytes acc (placeBytes s k u)) acc)[i]? =
        some (ks.foldl (fun x k => x ^^^ Memory.get s.ssd (ssdKey k (u * 8192) + i)) x) from
    h _ 0 (List.getElem?_replicate_of_lt hi)
  induction ks with
  | nil => exact fun _ _ h => h
  | cons k ks ih => exact fun acc x h => ih _ _ (xorBytes_getElem? h (placeBytes_getElem? s k u hi))

/-- A place that reads as an XOR of places does so byte for byte. -/
theorem byte_of_placeBytes_eq {s t : State} {k u v : Nat} {ks : List Nat} (h : placeBytes t k u = xorPlaces s v ks) {i : Nat}
    (hi : i < 8192) : Memory.get t.ssd (ssdKey k (u * 8192) + i) =
      ks.foldl (fun x k => x ^^^ Memory.get s.ssd (ssdKey k (v * 8192) + i)) 0 := by
  have hbyte := placeBytes_getElem? t k u hi
  rw [h, xorPlaces_getElem? s v ks hi] at hbyte
  exact (Option.some.inj hbyte).symm

theorem placeWrite_ssd (s : State) (k u : Nat) (bs : List Byte) : (placeWrite s k u bs).ssd =
    Memory.write (Memory.zero s.ssd (ssdKey k (u * 8192)) (ssdKey k (u * 8192) + 8192)) (ssdKey k (u * 8192)) bs := rfl

/-- Each byte given lands in the place. -/
theorem placeWrite_byte {s : State} (hwf : Memory.wf s.ssd = true) (k u : Nat) {bs : List Byte} {i : Nat} (hi : i < bs.length) :
    Memory.get (placeWrite s k u bs).ssd (ssdKey k (u * 8192) + i) = bs[i] := by
  rw [placeWrite_ssd]
  exact Memory.get_write (Memory.wf_zero hwf _ _) _ _ _ hi

/-! ### The write of a rebuilt stripe (05 R122) -/

section
variable {s : State} {b0 b k : Nat}

/-- One missing data member, whose block has no frame: the rebuild writes the XOR of the other seven at the place of that
block, which `stripeBlocks` gives. -/
theorem rebuildPlaces_one (hm : stripeMissing s b0 = [k])
    (hb : (stripeBlocks b0).filter (fun x => decide ((placeOf x).slot = k)) = [b])
    (hp : (placeOf b0).parity ≠ k) (hf : frameOf s b = none) : rebuildPlaces s b0 =
      [(k, xorPlaces s (placeOf b).u ((List.range 8).filter fun i => decide (i ≠ k)))] := by
  have hmem : b ∈ (stripeBlocks b0).filter fun x => decide ((placeOf x).slot = k) := hb ▸ List.mem_singleton_self b
  have hslot : (placeOf b).slot = k := of_decide_eq_true (List.mem_filter.mp hmem).2
  have hdata : ((stripeBlocks b0).map fun x => (x, placeFor s x [k])).filter (fun x => [k].contains (placeOf x.1).slot) =
      [(b, placeFor s b [k])] := by
    rw [List.filter_map]
    have hsame : ((fun x : Nat × List Byte => [k].contains (placeOf x.1).slot) ∘ fun x => (x, placeFor s x [k])) =
        fun x => decide ((placeOf x).slot = k) := by
      funext x
      simp
    rw [hsame, hb]
    rfl
  have hplace : placeFor s b [k] = xorPlaces s (placeOf b).u ((List.range 8).filter fun i => decide (i ≠ k)) := by
    simp [placeFor, frameGives, hf, hslot]
  have hparity : ([k].contains (placeOf b0).parity || decide (2 ≤ [k].length)) = false := by simp [hp]
  unfold rebuildPlaces stripeImage
  simp only [hm, hdata, hparity, List.map_cons, List.map_nil, hslot, hplace]
  rfl

end

section
variable {α : Type} (q : State → α) (hios : ∀ s x, q { s with ios := x } = q s)
  (hout : ∀ s x, q { s with out := x } = q s)
include hios hout

theorem pumpCredits_proj (s : State) (k : Slot) : q (pumpCredits s k) = q s := by
  unfold pumpCredits
  refine foldl_keeps (P := fun t => q t = q s) _ (fun t i _ ht => ?_) rfl
  split
  · exact (hout _ _).trans ((hios _ _).trans ht)
  · exact ht

/-- The end of commands leaves whatever reads neither commands nor messages. -/
theorem endIosIf_proj (s : State) (ok : Io → Bool) : q (endIosIf s ok) = q s :=
  foldl_keeps (P := fun t => q t = q s) _ (fun t k _ ht => (pumpCredits_proj q hios hout t k).trans ht) (hios _ _)

/-- Where no stripe is locked, a finished stripe leaves what its writes leave, but for its frames, its cursors and its commands. -/
theorem stripeDone_proj (hframes : ∀ s x, q { s with frames := x } = q s) (hcursors : ∀ s x, q { s with rebuild := x } = q s)
    (hlocks : ∀ s x, q { s with locks := x } = q s) {s : State} (h : s.locks = []) (b0 : Nat) : q (stripeDone s b0) =
      q ((rebuildPlaces s b0).foldl (fun s x => placeWrite s x.1 (placeOf b0).u x.2) s) := by
  have hunlocked : ∀ t : State, t.locks = [] → q (unlockStripe t b0) = q t := fun t ht => by
    have hnone : unlockStripe t b0 = { t with locks := [] } := by simp [unlockStripe, ht]
    rw [hnone, hlocks]
  have hput : ∀ l : List (Nat × List Byte), (l.foldl (fun s x => placeWrite s x.1 (placeOf b0).u x.2) s).locks = s.locks :=
    fun l => by
      refine foldl_keeps (P := fun t : State => t.locks = s.locks) l (fun t x _ ht => ?_) rfl
      exact ht
  have hmarks : ∀ (l : List Nat) (t : State), q (l.foldl (fun s b => frameMap s b fun f => { f with stuck := false }) t) = q t ∧
      (l.foldl (fun s b => frameMap s b fun f => { f with stuck := false }) t).locks = t.locks := fun l t => by
    refine foldl_keeps (P := fun u => q u = q t ∧ u.locks = t.locks) l (fun u b _ hu => ?_) ⟨rfl, rfl⟩
    exact ⟨(hframes u _).trans hu.1, hu.2⟩
  unfold stripeDone
  dsimp only
  have hwrites := hput (rebuildPlaces s b0)
  generalize (rebuildPlaces s b0).foldl (fun s x => placeWrite s x.1 (placeOf b0).u x.2) s = t at hwrites ⊢
  obtain ⟨hq, hl⟩ := hmarks (stripeBlocks b0) t
  generalize (stripeBlocks b0).foldl (fun s b => frameMap s b fun f => { f with stuck := false }) t = v at hq hl ⊢
  rw [hunlocked, endIosIf_proj q hios hout, hcursors, hq]
  rw [endIosIf_proj (·.locks) (fun _ _ => rfl) fun _ _ => rfl]
  exact hl.trans (hwrites.trans h)

end

/-- What RATE allows in this pitch is used up: no stripe begins. -/
theorem rebuildBegin_spent {s : State} (h : rebuildBudget s ≤ s.tier.rebuilt) (c : Nat) : rebuildBegin s c = s :=
  if_neg (by simp [Nat.not_lt.mpr h])

section
variable {s : State} {b0 b k c : Nat}

theorem ioGood_proj {α : Type} (q : State → α) (hslots : ∀ s x, q { s with slots := x } = q s) (s : State) (ks : List Nat) :
    q (ks.foldl (fun s k => ioGood s k) s) = q s :=
  foldl_keeps (P := fun t => q t = q s) ks (fun _ _ _ ht => (hslots _ _).trans ht) rfl

theorem rebuildStep_eq (hnow : (rebuildsNow s).find? (fun x => decide (blockCluster x = c)) = some b0) :
    ∃ ks : List Nat, rebuildStep s c = rebuildBegin (stripeDone (ks.foldl (fun s k => ioGood s k) s) b0) c := by
  unfold rebuildStep
  rw [hnow]
  exact ⟨_, rfl⟩

/-- The last write of a stripe that lacks one data member puts the XOR of the other seven at the place of that member's
block into the place of the stripe. -/
theorem rebuildStep_byte (hnow : (rebuildsNow s).find? (fun x => decide (blockCluster x = c)) = some b0)
    (hm : stripeMissing s b0 = [k]) (hb : (stripeBlocks b0).filter (fun x => decide ((placeOf x).slot = k)) = [b])
    (hp : (placeOf b0).parity ≠ k) (hf : frameOf s b = none) (hl : s.locks = []) (hspent : rebuildBudget s ≤ s.tier.rebuilt)
    (hwf : Memory.wf s.ssd = true) {i : Nat} (hi : i < 8192) :
    Memory.get (rebuildStep s c).ssd (ssdKey k ((placeOf b0).u * 8192) + i) =
      ((List.range 8).filter fun j => decide (j ≠ k)).foldl
        (fun x j => x ^^^ Memory.get s.ssd (ssdKey j ((placeOf b).u * 8192) + i)) 0 := by
  obtain ⟨ks, hstep⟩ := rebuildStep_eq hnow
  have hgood {α : Type} (q : State → α) (hslots : ∀ s x, q { s with slots := x } = q s) := ioGood_proj q hslots s ks
  generalize ks.foldl (fun s k => ioGood s k) s = u at hgood hstep
  rw [hstep]
  have hplaces := rebuildPlaces_one (s := u) (b0 := b0) (b := b) (k := k)
    ((hgood (stripeMissing · b0) fun _ _ => rfl).trans hm) hb hp ((hgood (frameOf · b) fun _ _ => rfl).trans hf)
  have hxor := hgood (xorPlaces · (placeOf b).u ((List.range 8).filter fun i => decide (i ≠ k))) fun _ _ => rfl
  have hlocks : u.locks = [] := (hgood (·.locks) fun _ _ => rfl).trans hl
  have hssd := stripeDone_proj (·.ssd) (fun _ _ => rfl) (fun _ _ => rfl) (fun _ _ => rfl) (fun _ _ => rfl) (fun _ _ => rfl)
    hlocks b0
  have hbudget := stripeDone_proj (fun t => (rebuildBudget t, t.tier.rebuilt)) (fun _ _ => rfl) (fun _ _ => rfl)
    (fun _ _ => rfl) (fun _ _ => rfl) (fun _ _ => rfl) hlocks b0
  rw [hplaces, hxor] at hssd hbudget
  have hrate := hbudget.trans (hgood (fun t => (rebuildBudget t, t.tier.rebuilt)) fun _ _ => rfl)
  obtain ⟨hb1, hb2⟩ := Prod.mk.inj hrate
  rw [rebuildBegin_spent (by rw [hb1, hb2]; exact hspent), hssd]
  obtain ⟨hlen, hbyte⟩ := List.getElem?_eq_some_iff.mp
    (xorPlaces_getElem? s (placeOf b).u ((List.range 8).filter fun j => decide (j ≠ k)) hi)
  exact (placeWrite_byte ((hgood (·.ssd) fun _ _ => rfl) ▸ hwf) k _ hlen).trans hbyte

end

theorem exec_rebuildWriteComplete {s : State} (h : fget s .tierRebuildActive 0x10 = 1) (c : Cluster) :
    exec (.rebuildWriteComplete c) s = .next (rebuildStep s c) := congrArg Host.Outcome.next (if_pos h)

theorem nextState {c : Instr} {s t u : State} (ht : exec c s = .next t) (hu : exec c s = .next u) : t = u :=
  Host.Outcome.next.inj (ht.symm.trans hu)

/-! ### The last stripe of a cluster -/

/-- The block of cluster 0 whose number there is 7 × 38,347,922: its stripe is the last that 28 bits of number reach, and only two
of its seven data places have a number of their own. The others wrap to stripe 0. -/
def lastStripe : Nat := 2 ^ 36 - 2

/-- Slot 1 is being rebuilt, the last write of that stripe under way; the others are in service, and the parity of stripe 0
begins with a 1. -/
def wrappedRebuild : State :=
  { State.reset with
    regs := (⟨.tierRebuildActive, 0x10, 0⟩, 1) :: (List.range 8).map fun k =>
      (⟨.tierSlotStatusState, slotInst k, 0⟩, if k = 1 then slRebuilding else slInService)
    ssd := [(ssdKey 0 0, 1)]
    ios := [{ num := 0, slot := 1, path := .a, kind := .rebuildWrite, block := lastStripe }]
    tier := { rebuilt := 10 ^ 9 } }

theorem wrappedRebuild_active : fget wrappedRebuild .tierRebuildActive 0x10 = 1 := by decide +kernel

theorem wrappedRebuild_now :
    (rebuildsNow wrappedRebuild).find? (fun x => decide (blockCluster x = (0 : Cluster))) = some lastStripe := by
  decide +kernel

theorem wrappedRebuild_missing : stripeMissing wrappedRebuild lastStripe = [1] := by decide +kernel

theorem wrappedRebuild_block : (stripeBlocks lastStripe).filter (fun x => decide ((placeOf x).slot = 1)) = [2 ^ 36] := by
  decide +kernel

theorem wrappedRebuild_frame : frameOf wrappedRebuild (2 ^ 36) = none := by decide +kernel
theorem wrappedRebuild_spent : rebuildBudget wrappedRebuild ≤ wrappedRebuild.tier.rebuilt := by decide +kernel
theorem wrappedRebuild_wf : wrappedRebuild.memoriesWf = true := by decide +kernel

/-- The rebuild writes the parity of stripe 0, … -/
theorem wrappedRebuild_wrote :
    Memory.get (rebuildStep wrappedRebuild (0 : Cluster)).ssd (ssdKey 1 ((placeOf lastStripe).u * 8192) + 0) = 1 := by
  rw [rebuildStep_byte wrappedRebuild_now wrappedRebuild_missing wrappedRebuild_block (by decide +kernel)
    wrappedRebuild_frame rfl wrappedRebuild_spent (by decide +kernel) (by decide)]
  decide +kernel

/-- … and not that of the stripe it stands in, which is zero. -/
theorem wrappedRebuild_claim : ((List.range 8).filter fun i => decide (i ≠ 1)).foldl
    (fun x k => x ^^^ Memory.get wrappedRebuild.ssd (ssdKey k ((placeOf lastStripe).u * 8192) + 0)) 0 = 0 := by
  decide +kernel

/-- Refutes O57: in the last stripe that 28 bits of block number reach, `stripeBlocks` wraps to a block of stripe 0, and the
rebuild writes the XOR of the places of that block, not of the stripe's own. -/
theorem not_tierCommandsMoveTheirBlocks : ¬ Obligations.TierCommandsMoveTheirBlocks := by
  intro hall
  obtain ⟨-, -, -, -, -, hrebuild, -⟩ := hall wrappedRebuild (2 ^ 36)
  obtain ⟨t, ht, -, hplaces⟩ := hrebuild 0 lastStripe wrappedRebuild_active wrappedRebuild_now
  have hread := hplaces 1 wrappedRebuild_missing wrappedRebuild_block wrappedRebuild_frame wrappedRebuild_wf
    (fun _ hl => absurd hl List.not_mem_nil) wrappedRebuild_spent
  rw [← nextState (exec_rebuildWriteComplete wrappedRebuild_active 0) ht] at hread
  have hclaimed := byte_of_placeBytes_eq hread (i := 0) (by decide)
  rw [wrappedRebuild_wrote, wrappedRebuild_claim] at hclaimed
  exact absurd hclaimed (by decide)

end Sys2Proof.Machine
end

section
/-! PROOF. A DISCARD and a write that its block's expander gives back (O56). -/

namespace Sys2Proof.Machine

open Sys2Proof

/-! ### The requests of an expander go to their home after the zeroes -/

/-- A host's write of the value 1 to line 0. -/
def lineZeroWrite : Req := writeReq 0 0 0 1 fullMask .any

/-- A DISCARD entry for block 0. -/
def discardEntry : HintEntry := { op := 5, base := 0, len := 8192, rsvd := 0 }

/-- Partition 0 holds granule 0, unshared, in a package alone. Its ring has one fetched DISCARD of block 0, and the
write waits for that block in the expander. -/
def undecodedWrite : State :=
  { State.reset with
    boot := { phase := .active, cold := true, pagesReady := true, memActive := true }
    exts := [{ base := 0, len := 1, attr := {}, tag := 0, holders := [⟨0, .active⟩] }]
    hints := [(0, [discardEntry])]
    tier := { exp := [(0, { input := [⟨0, 0, [lineZeroWrite]⟩] })] } }

theorem undecodedWrite_hints : hintsOf undecodedWrite 0 = [discardEntry] := rfl

theorem exec_discard (s : State) (p : Part) : exec (.discard p) s = .next (hintGo s p 5) := rfl

/-- `rerunReads` sends the waiting write home once the block is zero, and it lands. -/
theorem undecodedWrite_lands : Memory.get (hintGo undecodedWrite 0 5).mem 0 = 1 := by decide +kernel

/-- Refutes O56: in the untiered clause of DISCARD nothing excludes a write that waits in the block's expander, and such a write
lands on the zeroes. -/
theorem not_hintsMarkTheirBlocks : ¬ Obligations.HintsMarkTheirBlocks := by
  intro hall
  obtain ⟨-, hhints⟩ := hall undecodedWrite 0
  obtain ⟨-, -, -, -, -, hdiscard⟩ := hhints discardEntry undecodedWrite_hints rfl
  obtain ⟨huntiered, -⟩ := hdiscard (by decide +kernel) (by decide +kernel)
  obtain ⟨halone, -⟩ := huntiered rfl (by decide)
  obtain ⟨t, ht, -, hzero⟩ := halone (by decide +kernel)
  have hfirst := hzero 0 (by decide +kernel) 0 (by decide) (by decide)
  rw [← nextState (exec_discard undecodedWrite 0) ht, undecodedWrite_lands] at hfirst
  exact absurd hfirst (by decide)

end Sys2Proof.Machine
end

section
/-! PROOF. What the loss of a member leaves of the slots: their fields, their events and the mark of the device (O58). -/

namespace Sys2Proof.Machine

open Sys2Proof

/-- Every field of the tier's page but the count of slow fills reads the same, no event bit falls, and no page's degraded mark
changes. -/
structure SlotKept (s t : State) : Prop where
  tier : ∀ (f : Fld) (i j : Nat), f.desc.blk = .tier → f ≠ .tierFillStatsSlowFills → fget t f i j = fget s f i j
  bits : ∀ (e : Evt) (i : Nat), Signalled s e i → Signalled t e i
  degraded : ∀ b i, (hget t b i).degraded = (hget s b i).degraded

theorem SlotKept.refl (s : State) : SlotKept s s := ⟨fun _ _ _ _ _ => rfl, fun _ _ h => h, fun _ _ => rfl⟩

theorem SlotKept.trans {s t u : State} (h : SlotKept s t) (k : SlotKept t u) : SlotKept s u :=
  ⟨fun f i j hb hf => (k.tier f i j hb hf).trans (h.tier f i j hb hf), fun e i hs => k.bits e i (h.bits e i hs),
    fun b i => (k.degraded b i).trans (h.degraded b i)⟩

/-- The kinds of state that hold neither headers nor fields of the tier's page. -/
def offSlots : Nat := 2 ^ 50 - 1 - 2 ^ Kind.headers.num - 2 ^ (Kind.page .tier).num

theorem tier_ne_latched {f : Fld} (hb : f.desc.blk = .tier) : f ≠ .cairnCoalesceStatsLatched := by
  rintro rfl
  exact absurd hb (by decide)

theorem Moves.slotKept {s t : State} (m : Moves offSlots s t) : SlotKept s t := by
  have hhdr : t.hdr = s.hdr := m.frame .headers (by decide)
  refine ⟨fun f i j hb _ => m.fget_eq (by rw [hb]; decide) (tier_ne_latched hb) i j, fun _ _ => m.signalled (by decide),
    fun b i => ?_⟩
  unfold hget
  rw [hhdr]

/-- An event leaves every page's degraded mark. -/
theorem raise_degraded (s : State) (e : Evt) (i : Nat) (p : Option Nat) (pl : List Byte) (src : Option Nat) (sev : Option Sev)
    (b : Blk) (k : Nat) : (hget (raise s e i p pl src sev) b k).degraded = (hget s b k).degraded := by
  have hbit : ∀ (c : Blk) (j : Nat) (u : State) (n : BitVec 64),
      (hget (hupd u c j fun h => { h with evtStatus := h.evtStatus ||| n }) b k).degraded = (hget u b k).degraded := by
    intro c j u n
    by_cases hc : b = c ∧ k = j
    · obtain ⟨rfl, rfl⟩ := hc
      rw [hget_hupd_self]
    · rw [hget_hupd_ne _ _ (by tauto)]
  exact raise_projH (fun u => (hget u b k).degraded) (hbit _ _) (fun _ _ => rfl) (fun _ _ => rfl) (fun _ _ => rfl)
    (fun _ _ _ _ _ _ => rfl) s e i (hbit _ _) p pl src sev

theorem raise_slotKept (s : State) (e : Evt) (i : Nat) (p : Option Nat) (pl : List Byte) (src : Option Nat) (sev : Option Sev) :
    SlotKept s (raise s e i p pl src sev) :=
  ⟨fun _ _ _ hb _ => fget_raise _ _ _ _ _ _ _ _ _ (tier_ne_latched hb), fun _ _ => signalled_raise _ _ _ _ _ _ _ _ _,
    raise_degraded s e i p pl src sev⟩

/-! ### Fills that fail (05 R112) -/

theorem slowFill_slotKept (s : State) (f : Frame) : SlotKept s (slowFill s f) := by
  unfold slowFill
  split
  · split
    · exact ⟨fun _ _ _ _ hf => fget_finc_fld _ _ _ _ _ hf, fun _ _ h => h, fun _ _ => rfl⟩
    · exact .refl s
  · exact .refl s

theorem fillLost_slotKept (s : State) (b : Nat) : SlotKept s (fillLost s b) := by
  unfold fillLost
  split
  next f _ =>
    have hslow : SlotKept s (slowFill (endIos s b .fillRead) f) :=
      (endIos_moves (F := offSlots) rfl (.refl _ s)).slotKept.trans (slowFill_slotKept _ _)
    refine foldl_keeps (P := SlotKept s) _ (fun u r _ hu => hu.trans ?_)
      (hslow.trans (freeFrame_moves (F := offSlots) rfl (.refl _ _)).slotKept)
    split
    · exact (dropBlock_moves (F := offSlots) rfl (.refl _ u)).slotKept
    · exact (answer_moves (F := offSlots) rfl (.refl _ u)).slotKept
  · exact .refl s

theorem fillFailed_slotKept (s : State) (b : Nat) : SlotKept s (fillFailed s b) := by
  unfold fillFailed
  split
  · split
    · split
      · exact (emit_moves (F := offSlots) rfl <| frameMap_moves rfl <| endIos_moves rfl <| .refl _ s).slotKept
      · exact fillLost_slotKept s b
    · exact .refl s
  · exact .refl s

/-! ### A member that is gone (05 R121, R123) -/

theorem ioLost_slotKept (s : State) (kind : IoKind) (b : Nat) : SlotKept s (ioLost s kind b) := by
  have hredo : SlotKept s (redoEvictions s [b]) := (redoEvictions_moves (F := offSlots) rfl (.refl _ s)).slotKept
  have hstop : SlotKept s (stopStripe s b) := (stopStripe_moves (F := offSlots) rfl (.refl _ s)).slotKept
  cases kind with
  | fillRead =>
    unfold ioLost
    dsimp only
    split
    · split
      · exact .refl s
      · split
        · exact (issueFill_moves (F := offSlots) rfl <| endIos_moves rfl <| .refl _ s).slotKept
        · exact fillFailed_slotKept s b
    · exact .refl s
  | oldRead => exact hredo
  | writeData => exact hredo
  | writeParity => exact hredo
  | repair => exact (unlockStripe_moves (F := offSlots) rfl (.refl _ s)).slotKept
  | rebuildRead => exact hstop
  | rebuildWrite => exact hstop
  | deallocate => exact .refl s
  | parityFix => exact .refl s
  | deallocateAll => exact .refl s

theorem dropSlotIos_slotKept (s : State) (k : Slot) : SlotKept s (dropSlotIos s k) := by
  unfold dropSlotIos
  exact foldl_keeps (P := SlotKept s) _ (fun u x _ hu => hu.trans (ioLost_slotKept u x.1 x.2))
    (endIosIf_moves (F := offSlots) rfl (.refl _ s)).slotKept

theorem markLost_slotKept (s : State) : SlotKept s (markLost s) := by
  unfold markLost
  refine foldl_keeps (P := SlotKept s) _ (fun u b _ hu => hu.trans ?_) (.refl s)
  have hmark : SlotKept u (raise (setLba u b 3) .tierBlockLost 0x10 none (leBytes 8 b)) :=
    (setLba_moves (F := offSlots) rfl (.refl _ u)).slotKept.trans (raise_slotKept _ _ _ _ _ _ _)
  dsimp only
  split
  · split
    · exact hmark.trans (fillFailed_slotKept _ b)
    · refine hmark.trans (frameMap_moves (F := offSlots) rfl ?_).slotKept
      split
      · exact unlockStripe_moves rfl <| stopWriteBack_moves rfl <| .refl _ _
      · exact .refl _ _
  · exact hmark

end Sys2Proof.Machine
end

section
/-! PROOF. The fields of a slot through its operations (O58). -/

namespace Sys2Proof.Machine

open Sys2Proof

/-! ### State, fault and power of a slot (05 R115, R121, R125) -/

section
variable (s : State)

@[simp] theorem fget_slotChange (k : Nat) {f : Fld} (i j : Nat) (hf : f ≠ .cairnCoalesceStatsLatched) :
    fget (slotChange s k) f i j = fget s f i j := fget_raise _ _ _ _ _ _ _ _ _ hf

@[simp] theorem slotOf_slotChange (k n : Nat) : slotOf (slotChange s k) n = slotOf s n := slotOf_raise _ _ _ _ _ _ _ _

@[simp] theorem fget_setSlot (k st : Nat) {f : Fld} (i j : Nat) (hc : f ≠ .cairnCoalesceStatsLatched)
    (hf : f ≠ .tierSlotStatusState) : fget (setSlot s k st) f i j = fget s f i j := by
  unfold setSlot
  split
  · rfl
  · rw [fget_slotChange _ _ _ _ hc, fget_fset_fld _ _ _ _ _ _ hf]

@[simp] theorem slotOf_setSlot (k st n : Nat) : slotOf (setSlot s k st) n = slotOf s n := by
  unfold setSlot
  split
  · rfl
  · rw [slotOf_slotChange, slotOf_fset]

theorem slotSt_setSlot (k : Nat) {st : Nat} (h : st < 8) : slotSt (setSlot s k st) k = st := by
  unfold setSlot
  split
  · assumption
  · unfold slotSt
    rw [fget_slotChange _ _ _ _ (by decide), fget_fset_self]
    exact Nat.mod_eq_of_lt h

theorem slotSt_setSlot_ne (st : Nat) {k n : Nat} (h : n ≠ k) : slotSt (setSlot s k st) n = slotSt s n := by
  unfold setSlot
  split
  · rfl
  · unfold slotSt
    rw [fget_slotChange _ _ _ _ (by decide), fget_fset_idx _ _ (.inl (by unfold slotInst; omega))]

/-- The attention indicator of a slot with a fault. -/
def faultInd (k : Nat) : Nat := if fget s .tierSlotCtrlLocate (slotInst k) = 1 then indBlink else indOn

@[simp] theorem fget_setFault (k code : Nat) {f : Fld} (i j : Nat) (hf : f ≠ .tierSlotStatusFault)
    (ha : f ≠ .tierSlotStatusAttnInd) : fget (setFault s k code) f i j = fget s f i j := by
  unfold setFault showAttn
  rw [fget_fset_fld _ _ _ _ _ _ ha, fget_fset_fld _ _ _ _ _ _ hf]

@[simp] theorem slotOf_setFault (k code n : Nat) : slotOf (setFault s k code) n = slotOf s n := rfl

theorem fault_setFault (k : Nat) {code : Nat} (h : code < 256) :
    fget (setFault s k code) .tierSlotStatusFault (slotInst k) = code := by
  unfold setFault showAttn
  rw [fget_fset_fld _ _ _ _ _ _ (by decide), fget_fset_self]
  exact Nat.mod_eq_of_lt h

theorem attnInd_setFault (k : Nat) {code : Nat} (h : code < 256) (h0 : code ≠ 0) :
    fget (setFault s k code) .tierSlotStatusAttnInd (slotInst k) = faultInd s k := by
  have hcode : code % 2 ^ Fld.tierSlotStatusFault.desc.w ≠ 0 := by
    rw [show code % 2 ^ Fld.tierSlotStatusFault.desc.w = code from Nat.mod_eq_of_lt h]
    exact h0
  have hind : attnInd (fset s .tierSlotStatusFault code (slotInst k)) k = faultInd s k := by
    unfold attnInd faultInd
    rw [fget_fset_fld _ _ _ _ _ _ (by decide), fget_fset_self, if_neg hcode]
  unfold setFault showAttn
  rw [fget_fset_self, hind]
  unfold faultInd
  split <;> rfl

@[simp] theorem fget_setPwrInd (k v : Nat) {f : Fld} (i j : Nat) (hf : f ≠ .tierSlotStatusPwrInd) :
    fget (setPwrInd s k v) f i j = fget s f i j := fget_fset_fld _ _ _ _ _ _ hf

@[simp] theorem slotOf_setPwrInd (k v n : Nat) : slotOf (setPwrInd s k v) n = slotOf s n := rfl

theorem pwrInd_setPwrInd (k : Nat) {v : Nat} (h : v < 4) :
    fget (setPwrInd s k v) .tierSlotStatusPwrInd (slotInst k) = v := by
  unfold setPwrInd
  rw [fget_fset_self]
  exact Nat.mod_eq_of_lt h

@[simp] theorem fget_unpowerSlot (k : Slot) {f : Fld} (i j : Nat) (hen : f ≠ .tierSlotStatusPwrEn) (hgd : f ≠ .tierSlotStatusPwrgd)
    (ha : f ≠ .tierSlotStatusPathAUp) (hb : f ≠ .tierSlotStatusPathBUp) (hi : f ≠ .tierSlotStatusPwrInd) :
    fget (unpowerSlot s k) f i j = fget s f i j := by
  unfold unpowerSlot
  simp [hen, hgd, ha, hb, hi]

theorem pwrEn_unpowerSlot (k : Slot) : fget (unpowerSlot s k) .tierSlotStatusPwrEn (slotInst k) = 0 := by
  unfold unpowerSlot
  simp

/-- A powered slot: PWR_EN asserted and told, and the SSD powers up. -/
theorem powerSlot_powering (k : Slot) : fget (powerSlot s k) .tierSlotStatusPwrEn (slotInst k) = 1 ∧
    slotSt (powerSlot s k) k = slPowering ∧ .pin (.slotPower k true) ∈ (powerSlot s k).out ∧
    (slotOf (powerSlot s k) k).buttonWait = none := by
  have hst : slotSt (powerSlot s k) k = slotSt (setSlot (fset s .tierSlotStatusPwrEn 1 (slotInst k)) k slPowering) k := by
    unfold powerSlot slotSt
    simp
  refine ⟨?_, hst.trans (slotSt_setSlot _ _ (by decide)), List.mem_cons_self, ?_⟩
  · unfold powerSlot
    simp [show Fld.tierSlotStatusPwrEn.desc.w = 1 from rfl]
  · unfold powerSlot
    simp

end

end Sys2Proof.Machine
end

section
/-! PROOF. A slot that leaves the stripe set, and an SSD that fails (O58). -/

namespace Sys2Proof.Machine

open Sys2Proof

section
variable (s : State) (k : Slot)

/-! ### Leaving the set (05 R121, R126) -/

/-- A rebuild stops: its stripes are unlocked. -/
theorem fget_stopRebuild {f : Fld} (hb : f.desc.blk = .tier) (hf : f ≠ .tierRebuildActive) (i j : Nat) :
    fget (if fget s .tierRebuildActive 0x10 = 1 then (rebuildsNow s).foldl stopStripe (fset s .tierRebuildActive 0 0x10) else s)
      f i j = fget s f i j := by
  split
  · refine foldl_keeps (P := fun u => fget u f i j = fget s f i j) _ (fun u b _ hu => ?_) (fget_fset_fld _ _ _ _ _ _ hf)
    exact ((stopStripe_moves (F := 538312721) rfl (.refl _ u)).fget_eq (by rw [hb]; decide) (tier_ne_latched hb) i j).trans hu
  · rfl

/-- But for the end of a rebuild, the fields of a slot that leaves the set are those of one that loses its power. -/
theorem fget_leaveSet (st : Nat) {f : Fld} (hb : f.desc.blk = .tier) (hf : f ≠ .tierRebuildActive) (i j : Nat) :
    fget (leaveSet s k st) f i j = fget (setSlot (unpowerSlot s k) k st) f i j := by
  have hcursors : ∀ (u : State) (x : Assoc Nat Nat), fget { u with rebuild := x } f i j = fget u f i j := fun _ _ => rfl
  unfold leaveSet setDegraded
  rw [fget_raise _ _ _ _ _ _ _ _ _ (tier_ne_latched hb), fget_hupd, hcursors, fget_stopRebuild _ hb hf]

theorem slotSt_leaveSet {st : Nat} (h : st < 8) : slotSt (leaveSet s k st) k = st :=
  (fget_leaveSet s k st rfl (by decide) _ _).trans (slotSt_setSlot _ _ h)

theorem pwrEn_leaveSet (st : Nat) : fget (leaveSet s k st) .tierSlotStatusPwrEn (slotInst k) = 0 := by
  rw [fget_leaveSet s k st rfl (by decide), fget_setSlot _ _ _ _ _ (by decide) (by decide), pwrEn_unpowerSlot]

/-- The device is degraded, and told so. -/
theorem leaveSet_degrades (st : Nat) : Signalled (leaveSet s k st) .tierDegraded 0x10 ∧
    (hget (leaveSet s k st) .tier 0x10).degraded = true := by
  unfold leaveSet
  refine ⟨raise_signalled _ _ _ _ _ _ _, (raise_degraded _ _ _ _ _ _ _ _ _).trans ?_⟩
  unfold setDegraded
  rw [hget_hupd_self]

/-! ### A failed SSD (05 R121) -/

/-- The slot of a failed SSD: without power, its fault shown, the device degraded where it lost a member. -/
structure FailedSlot (code : Nat) (t : State) : Prop where
  state : slotSt t k = slFailed
  power : fget t .tierSlotStatusPwrEn (slotInst k) = 0
  attention : fget t .tierSlotStatusAttnInd (slotInst k) = faultInd s k
  fault : fget t .tierSlotStatusFault (slotInst k) = code
  degraded : isMember s k = true → Signalled t .tierDegraded 0x10 ∧ (hget t .tier 0x10).degraded = true

variable {s k} in
theorem SlotKept.failed {code : Nat} {t u : State} (h : SlotKept t u) (ht : FailedSlot s k code t) : FailedSlot s k code u :=
  ⟨(h.tier _ _ _ rfl (by decide)).trans ht.state, (h.tier _ _ _ rfl (by decide)).trans ht.power,
    (h.tier _ _ _ rfl (by decide)).trans ht.attention, (h.tier _ _ _ rfl (by decide)).trans ht.fault, fun hm =>
    ⟨h.bits _ _ (ht.degraded hm).1, (h.degraded _ _).trans (ht.degraded hm).2⟩⟩

variable {s k} in
/-- A slot whose fault is set and whose power is gone. -/
theorem failedSlot_of {code : Nat} {t : State} (h : code < 256) (h0 : code ≠ 0)
    (hfields : ∀ f : Fld, f.desc.blk = .tier → f ≠ .tierRebuildActive → fget t f (slotInst k) =
      fget (setSlot (unpowerSlot (setFault s k code) k) k slFailed) f (slotInst k))
    (hset : isMember s k = true → Signalled t .tierDegraded 0x10 ∧ (hget t .tier 0x10).degraded = true) :
    FailedSlot s k code t := by
  refine ⟨(hfields _ rfl (by decide)).trans (slotSt_setSlot _ _ (by decide)), ?_, ?_, ?_, hset⟩
  · rw [hfields _ rfl (by decide)]
    simp [pwrEn_unpowerSlot]
  · rw [hfields _ rfl (by decide)]
    simp [attnInd_setFault s k h h0]
  · rw [hfields _ rfl (by decide)]
    simp [fault_setFault s k h]

theorem failSsd_failed {code : Nat} (h : code < 256) (h0 : code ≠ 0) : FailedSlot s k code (failSsd s k code) := by
  unfold failSsd
  dsimp only
  refine (dropSlotIos_slotKept _ k).failed ?_
  by_cases hm : isMember s k = true
  · rw [if_pos hm, if_pos hm]
    exact (markLost_slotKept _).failed
      (failedSlot_of h h0 (fun f hb hf => fget_leaveSet _ k _ hb hf _ _) fun _ => leaveSet_degrades _ k _)
  · rw [if_neg hm, if_neg hm]
    exact failedSlot_of h h0 (fun _ _ _ => rfl) fun hc => absurd hc hm

end

end Sys2Proof.Machine
end

section
/-! PROOF. A slot from the insertion of its SSD to the SSD's admission (O58). -/

namespace Sys2Proof.Machine

open Sys2Proof

section
variable {s : State} {k : Slot}

/-! ### Presence and power (05 R125) -/

theorem insertSsd_present (h : fget s .tierSlotStatusPresent (slotInst k) = 0) :
    fget (insertSsd s k) .tierSlotStatusPresent (slotInst k) = 1 ∧ slotSt (insertSsd s k) k = slOff ∧
      (slotOf (insertSsd s k) k).debouncing = true ∧ Signalled (insertSsd s k) .tierSlotChange (slotInst k) := by
  unfold insertSsd
  rw [if_neg (by rw [h]; decide)]
  refine ⟨?_, ?_, ?_, raise_signalled _ _ _ _ _ _ _⟩
  · simp [show Fld.tierSlotStatusPresent.desc.w = 1 from rfl]
  · simp only [slotSt, fget_slotChange _ _ _ _ (show Fld.tierSlotStatusState ≠ .cairnCoalesceStatsLatched by decide),
      fget_slotUpd, fget_fset_self]
    rfl
  · simp

theorem debounceEnd_powered (h : (slotOf s k).debouncing = true) (hon : slotsOn s = true)
    (hauto : fget s .tierSlotCtrlAutoPower (slotInst k) = 1) :
    debounceEnd s k = powerSlot (slotUpd s k fun x => { x with debouncing := false }) k := by
  unfold debounceEnd
  rw [if_pos h]
  exact if_pos (Bool.and_eq_true_iff.mpr ⟨hon, decide_eq_true hauto⟩)

theorem debounceEnd_unpowered (h : (slotOf s k).debouncing = true)
    (hoff : slotsOn s = false ∨ fget s .tierSlotCtrlAutoPower (slotInst k) = 0) :
    debounceEnd s k = slotUpd s k fun x => { x with debouncing := false } := by
  have hno : ¬(slotsOn s && decide (fget s .tierSlotCtrlAutoPower (slotInst k) = 1)) = true := by
    rcases hoff with hoff | hoff <;> simp [hoff]
  unfold debounceEnd
  rw [if_pos h]
  exact if_neg hno

theorem pwrgd_admitting : let t := setSlot (fset s .tierSlotStatusPwrgd 1 (slotInst k)) k slAdmitting
    fget t .tierSlotStatusPwrgd (slotInst k) = 1 ∧ slotSt t k = slAdmitting := by
  refine ⟨?_, slotSt_setSlot _ _ (by decide)⟩
  rw [fget_setSlot _ _ _ _ _ (by decide) (by decide), fget_fset_self]
  rfl

/-- A slot unpowered with a fault code. -/
theorem faultOff (u : State) (k : Slot) {code : Nat} (h : code < 256) (h0 : code ≠ 0) :
    let t := setSlot (setFault (unpowerSlot u k) k code) k slOff
    fget t .tierSlotStatusPwrEn (slotInst k) = 0 ∧ slotSt t k = slOff ∧ fget t .tierSlotStatusFault (slotInst k) = code ∧
      fget t .tierSlotStatusAttnInd (slotInst k) = faultInd u k := by
  refine ⟨?_, slotSt_setSlot _ _ (by decide), ?_, ?_⟩
  · simp [pwrEn_unpowerSlot]
  · simp [fault_setFault _ k h]
  · simp [attnInd_setFault _ k h h0, faultInd]

/-! ### Admission (05 R115 to R117, R122) -/

/-- The requirements of Table 5.6. -/
def MeetsTable (i : SsdInfo) : Prop :=
  i.e3s = true ∧ i.multiPort = true ∧ i.multiController = true ∧ i.sharedNamespace = true ∧ i.lanes = 2 ∧
    (0 < i.rate ∧ i.rate ≤ 64) ∧ i.nsid1 = true ∧ i.lbaBytes = 4096 ∧ i.metadataBytes = 0 ∧ i.deallocatedZero = true ∧
    16 ≤ i.queuePairs ∧ 256 ≤ i.queueDepth ∧ (∀ m, i.mdts = some m → 8192 ≤ m) ∧ 2 ^ 40 ≤ i.lbas * 4096

theorem ssdMeets_iff (i : SsdInfo) : ssdMeets i = true ↔ MeetsTable i := by
  unfold ssdMeets MeetsTable
  cases i.mdts <;> simp [and_assoc]

theorem pathUp_congr {s t : State} {k : Nat} {p : Path} (h : fget t (pathFld p) (slotInst k) = fget s (pathFld p) (slotInst k)) :
    pathUp t k p = pathUp s k p := by
  unfold pathUp
  rw [h]

/-- A path is up unless its port die is lost (01 R11). -/
def pathBit (s : State) (k : Slot) (p : Path) : Nat := if s.portDiesOut.contains (pathDie k p) then 0 else 1

/-- The paths of an SSD whose reset is released. -/
def pathsSet (s : State) (k : Slot) : State :=
  fset (fset (emit s (.pin (.slotResetRelease k))) .tierSlotStatusPathAUp (pathBit s k .a) (slotInst k))
    .tierSlotStatusPathBUp (pathBit s k .b) (slotInst k)

/-- The SSD has been asked for what Table 5.6 needs. -/
def askedSsd (s : State) (k : Slot) : State := identify (identify (pathsSet s k) k .a) k .b

theorem checkSsd_eq (s : State) (k : Slot) (i : SsdInfo) : checkSsd s k i =
    if ssdMeets i = false then refuseSsd (askedSsd s k) k 2
    else if countedOf i < (askedSsd s k).tier.inUse then refuseSsd (askedSsd s k) k 3
    else admitSsd (askedSsd s k) k (countedOf i) := by
  have hdies : (emit s (.pin (.slotResetRelease k))).portDiesOut = s.portDiesOut := emit_portDiesOut _ _
  unfold checkSsd askedSsd pathsSet pathBit
  simp only [Bool.not_eq_true', hdies]

/-- What only tells the SSDs leaves their slots and the fields of the tier's page. -/
theorem Moves.told {s t : State} (m : Moves 1 s t) :
    (∀ (f : Fld) (i j : Nat), f.desc.blk = .tier → fget t f i j = fget s f i j) ∧ t.tier = s.tier ∧ t.slots = s.slots := by
  obtain ⟨-, -, -, -, -, hslots, -, htier⟩ : Same .scree s t := m.frame .scree (by decide)
  exact ⟨fun f i j hb => m.fget_eq (by rw [hb]; decide) (tier_ne_latched hb) i j, htier, hslots⟩

theorem askedSsd_moves (s : State) (k : Slot) : Moves 1 (pathsSet s k) (askedSsd s k) :=
  identify_moves rfl <| identify_moves rfl <| .refl 1 _

theorem askedSsd_inUse (s : State) (k : Slot) : (askedSsd s k).tier.inUse = s.tier.inUse := by
  obtain ⟨-, htier, -⟩ := (askedSsd_moves s k).told
  rw [htier]
  rfl

theorem askedSsd_pathUp (s : State) (k : Slot) (p : Path) :
    pathUp (askedSsd s k) k p = decide (pathDie k p ∉ s.portDiesOut) := by
  have hbit : ∀ q : Path, pathBit s k q % 2 ^ 1 = 1 ↔ pathDie k q ∉ s.portDiesOut := fun q => by
    unfold pathBit
    by_cases hq : pathDie k q ∈ s.portDiesOut <;> simp [hq]
  obtain ⟨hfld, -, -⟩ := (askedSsd_moves s k).told
  have hset : fget (askedSsd s k) (pathFld p) (slotInst k) = pathBit s k p % 2 ^ 1 := by
    cases p with
    | a =>
      rw [hfld _ _ _ rfl]
      exact (fget_fset_fld _ _ _ _ _ _ (by decide)).trans (fget_fset_self _ _ _ _ _)
    | b =>
      rw [hfld _ _ _ rfl]
      exact fget_fset_self _ _ _ _ _
  unfold pathUp
  rw [hset, decide_eq_decide, hbit]

theorem refuseSsd_refused (u : State) (k : Slot) {code : Nat} (h : code < 256) (h0 : code ≠ 0) :
    slotSt (refuseSsd u k code) k = slOff ∧ fget (refuseSsd u k code) .tierSlotStatusPwrEn (slotInst k) = 0 ∧
      fget (refuseSsd u k code) .tierSlotStatusFault (slotInst k) = code ∧
      Signalled (refuseSsd u k code) .tierNotAdmitted (slotInst k) := by
  obtain ⟨hen, hst, hfault, -⟩ := faultOff u k h h0
  unfold refuseSsd
  refine ⟨?_, ?_, ?_, raise_signalled _ _ _ _ _ _ _⟩
  · exact (fget_raise _ _ _ _ _ _ _ _ _ (by decide)).trans hst
  · rw [fget_raise _ _ _ _ _ _ _ _ _ (by decide), hen]
  · rw [fget_raise _ _ _ _ _ _ _ _ _ (by decide), hfault]

/-! ### An admitted SSD (05 R116, R122) -/

/-- The SSD of an admitted slot is counted, its controllers initialised and its namespace deallocated. -/
def begunSsd (s : State) (k : Slot) (n : Nat) : State :=
  setFault (issueIo (initController (initController
    (slotUpd { s with ssd := Memory.zero s.ssd (ssdKey k 0) (ssdKey k 0 + 2 ^ 46) } k fun x =>
      { x with counted := n, deallocated := false }) k .a) k .b) k .deallocateAll (k * 32768) .deallocateAll) k 0

theorem admitSsd_eq (s : State) (k : Slot) (n : Nat) : admitSsd s k n = if (begunSsd s k n).tier.inUse ≠ 0 then
    startRebuild (setPwrInd (setSlot (begunSsd s k n) k slRebuilding) k indBlink)
    else setPwrInd (setSlot (begunSsd s k n) k slInService) k indOn := rfl

/-- The command leaves whatever reads neither commands nor messages. -/
theorem issueIo_proj {α : Type} (q : State → α) (hios : ∀ s x n, q { s with ios := x, nextIo := n } = q s)
    (hout : ∀ s x, q { s with out := x } = q s) (s : State) (k : Nat) (kind : IoKind) (b : Nat) (op : NvmeOp) :
    q (issueIo s k kind b op) = q s := by
  unfold issueIo
  dsimp only
  split
  · exact hios _ _ _
  · exact (hout _ _).trans (hios _ _ _)

/-- The begin of an admission leaves the capacity in use and the paths, and counts the SSD. -/
theorem begunSsd_counted (s : State) (k : Slot) (n : Nat) : (begunSsd s k n).tier.inUse = s.tier.inUse ∧
    (slotOf (begunSsd s k n) k).counted = n ∧ ∀ p, pathUp (begunSsd s k n) k p = pathUp s k p := by
  unfold begunSsd
  generalize hu : slotUpd { s with ssd := Memory.zero s.ssd (ssdKey k 0) (ssdKey k 0 + 2 ^ 46) } k _ = u
  have htier : u.tier = s.tier := hu ▸ rfl
  have hcount : (slotOf u k).counted = n := by rw [← hu, slotOf_slotUpd_self]
  have hfld : ∀ (f : Fld) (i j : Nat), fget u f i j = fget s f i j := fun _ _ _ => hu ▸ rfl
  have m : Moves 1 u (initController (initController u k .a) k .b) :=
    initController_moves rfl <| initController_moves rfl <| .refl 1 u
  obtain ⟨htold, htier', hslots⟩ := m.told
  generalize initController (initController u k .a) k .b = v at htold htier' hslots ⊢
  have hissue {α : Type} (q : State → α) (hios : ∀ s x n, q { s with ios := x, nextIo := n } = q s)
      (hout : ∀ s x, q { s with out := x } = q s) := issueIo_proj q hios hout v k .deallocateAll (k * 32768) .deallocateAll
  generalize issueIo v k .deallocateAll (k * 32768) .deallocateAll = w at hissue ⊢
  refine ⟨?_, ?_, fun p => ?_⟩
  · have hkept := hissue (·.tier) (fun _ _ _ => rfl) (fun _ _ => rfl)
    show w.tier.inUse = _
    rw [hkept, htier', htier]
  · have hkept := hissue (slotOf · k) (fun _ _ _ => rfl) (fun _ _ => rfl)
    have hslot : slotOf v k = slotOf u k := by
      unfold slotOf
      rw [hslots]
    rw [slotOf_setFault, hkept, hslot, hcount]
  · have hkept := hissue (fun t => fget t (pathFld p) (slotInst k)) (fun _ _ _ => rfl) (fun _ _ => rfl)
    have hpath : fget (setFault w k 0) (pathFld p) (slotInst k) = fget s (pathFld p) (slotInst k) := by
      rw [fget_setFault _ _ _ _ _ (by cases p <;> decide) (by cases p <;> decide), hkept,
        htold _ _ _ (by cases p <;> rfl), hfld]
    exact pathUp_congr hpath

theorem fget_startRebuild (s : State) {f : Fld} (i j : Nat) (hs : f ≠ .tierRebuildSlot) (ha : f ≠ .tierRebuildActive) :
    fget (startRebuild s) f i j = fget s f i j := by
  unfold startRebuild
  split
  · rfl
  · split
    · rw [fget_fset_fld _ _ _ _ _ _ ha, fget_fset_fld _ _ _ _ _ _ hs]
    · rfl

theorem slotOf_startRebuild (s : State) (k : Nat) : slotOf (startRebuild s) k = slotOf s k := by
  unfold startRebuild
  split
  · rfl
  · split <;> rfl

/-- A slot that changes its state and its power indicator. -/
theorem indicated (u : State) (k : Slot) {st : Nat} (h : st < 8) (ind : Nat) :
    slotSt (setPwrInd (setSlot u k st) k ind) k = st ∧ slotOf (setPwrInd (setSlot u k st) k ind) k = slotOf u k ∧
      ∀ p, pathUp (setPwrInd (setSlot u k st) k ind) k p = pathUp u k p := by
  refine ⟨?_, by simp, fun p => ?_⟩
  · exact (fget_setPwrInd _ k ind _ _ (by decide)).trans (slotSt_setSlot u k h)
  · refine pathUp_congr ?_
    rw [fget_setPwrInd _ _ _ _ _ (by cases p <;> decide), fget_setSlot _ _ _ _ _ (by cases p <;> decide) (by cases p <;> decide)]

/-- The state of an admitted slot, its count and its paths. -/
theorem admitSsd_admitted (s : State) (k : Slot) (n : Nat) :
    slotSt (admitSsd s k n) k = (if s.tier.inUse ≠ 0 then slRebuilding else slInService) ∧
      (slotOf (admitSsd s k n) k).counted = n ∧ ∀ p, pathUp (admitSsd s k n) k p = pathUp s k p := by
  obtain ⟨huse, hcount, hpath⟩ := begunSsd_counted s k n
  rw [admitSsd_eq, huse]
  generalize begunSsd s k n = u at hcount hpath ⊢
  split
  · obtain ⟨hst, hslot, hup⟩ := indicated u k (st := slRebuilding) (by decide) indBlink
    refine ⟨(fget_startRebuild _ _ _ (by decide) (by decide)).trans hst, ?_, fun p => ?_⟩
    · rw [slotOf_startRebuild, hslot, hcount]
    · have hfld := fget_startRebuild (setPwrInd (setSlot u k slRebuilding) k indBlink) (f := pathFld p) (slotInst k) 0
        (by cases p <;> decide) (by cases p <;> decide)
      exact (pathUp_congr hfld).trans ((hup p).trans (hpath p))
  · obtain ⟨hst, hslot, hup⟩ := indicated u k (st := slInService) (by decide) indOn
    exact ⟨hst, by rw [hslot, hcount], fun p => (hup p).trans (hpath p)⟩

end

/-! ### The commands -/

section
variable {s : State} {k : Slot}

theorem exec_pwrgdAsserted (h : slotSt s k = slPowering) : exec (.pwrgdAsserted k) s =
    .next (setSlot (fset s .tierSlotStatusPwrgd 1 (slotInst k)) k slAdmitting) := congrArg Host.Outcome.next (if_pos h)

theorem exec_powerFault (h : slotSt s k = slPowering) : exec (.powerFault k) s =
    .next (raise (setSlot (setFault (unpowerSlot s k) k 1) k slOff) .tierPowerFault (slotInst k)) :=
  congrArg Host.Outcome.next (if_pos h)

theorem exec_ssdAdmit (h : slotSt s k = slAdmitting) (i : SsdInfo) : exec (.ssdAdmit k i) s = .next (checkSsd s k i) :=
  congrArg Host.Outcome.next (if_pos h)

theorem slotDebounceEnd_ends (h : (slotOf s k).debouncing = true) :
    (slotsOn s = true → fget s .tierSlotCtrlAutoPower (slotInst k) = 1 → Gives (.slotDebounceEnd k) s fun t =>
      fget t .tierSlotStatusPwrEn (slotInst k) = 1 ∧ slotSt t k = slPowering ∧ .pin (.slotPower k true) ∈ t.out) ∧
    (slotsOn s = false ∨ fget s .tierSlotCtrlAutoPower (slotInst k) = 0 → Gives (.slotDebounceEnd k) s fun t =>
      Same (.page .tier) s t ∧ (slotOf t k).debouncing = false) := by
  refine ⟨fun hon hauto => ?_, fun hoff => ?_⟩
  · obtain ⟨hen, hst, hout, -⟩ := powerSlot_powering (slotUpd s k fun x => { x with debouncing := false }) k
    exact ⟨_, congrArg Host.Outcome.next (debounceEnd_powered h hon hauto), hen, hst, hout⟩
  · refine ⟨_, congrArg Host.Outcome.next (debounceEnd_unpowered h hoff), fun f i j _ _ => ⟨rfl, rfl⟩, ?_⟩
    rw [slotOf_slotUpd_self]

theorem powering_ends (h : slotSt s k = slPowering) :
    (Gives (.pwrgdAsserted k) s fun t => fget t .tierSlotStatusPwrgd (slotInst k) = 1 ∧ slotSt t k = slAdmitting) ∧
    Gives (.powerFault k) s fun t => fget t .tierSlotStatusPwrEn (slotInst k) = 0 ∧ slotSt t k = slOff ∧
      fget t .tierSlotStatusFault (slotInst k) = 1 ∧ fget t .tierSlotStatusAttnInd (slotInst k) = faultInd s k ∧
      Signalled t .tierPowerFault (slotInst k) := by
  obtain ⟨hen, hst, hfault, hattn⟩ := faultOff s k (code := 1) (by decide) (by decide)
  have hraise : ∀ f, f ≠ .cairnCoalesceStatsLatched → fget (raise (setSlot (setFault (unpowerSlot s k) k 1) k slOff)
      .tierPowerFault (slotInst k)) f (slotInst k) = fget (setSlot (setFault (unpowerSlot s k) k 1) k slOff) f (slotInst k) :=
    fun _ => fget_raise _ _ _ _ _ _ _ _ _
  exact ⟨⟨_, exec_pwrgdAsserted h, pwrgd_admitting⟩, _, exec_powerFault h, (hraise _ (by decide)).trans hen,
    (hraise _ (by decide)).trans hst, (hraise _ (by decide)).trans hfault, (hraise _ (by decide)).trans hattn,
    raise_signalled _ _ _ _ _ _ _⟩

/-- Admission refuses an SSD that does not meet Table 5.6, and one that is smaller than the capacity in use. -/
theorem ssdAdmit_ends (h : slotSt s k = slAdmitting) (info : SsdInfo) :
    let refused := fun (code : Nat) => Gives (.ssdAdmit k info) s fun t => slotSt t k = slOff ∧
      fget t .tierSlotStatusPwrEn (slotInst k) = 0 ∧ fget t .tierSlotStatusFault (slotInst k) = code ∧
      Signalled t .tierNotAdmitted (slotInst k)
    (¬MeetsTable info → refused 2) ∧ (MeetsTable info → countedOf info < s.tier.inUse → refused 3) ∧
    (MeetsTable info → s.tier.inUse ≤ countedOf info → Gives (.ssdAdmit k info) s fun t =>
      slotSt t k = (if s.tier.inUse ≠ 0 then slRebuilding else slInService) ∧ (slotOf t k).counted = countedOf info ∧
      ∀ p : Path, pathUp t k p = decide (pathDie k p ∉ s.portDiesOut)) := by
  have hexec := exec_ssdAdmit h info
  rw [checkSsd_eq, askedSsd_inUse] at hexec
  refine ⟨fun hbad => ⟨_, hexec.trans (congrArg _ (if_pos ?_)), refuseSsd_refused _ k (by decide) (by decide)⟩,
    fun hgood hsmall => ?_, fun hgood hfits => ?_⟩
  · exact Bool.eq_false_iff.mpr fun hc => hbad ((ssdMeets_iff info).mp hc)
  · have hmeets : ¬ssdMeets info = false := by simp [(ssdMeets_iff info).mpr hgood]
    rw [if_neg hmeets, if_pos hsmall] at hexec
    exact ⟨_, hexec, refuseSsd_refused _ k (by decide) (by decide)⟩
  · have hmeets : ¬ssdMeets info = false := by simp [(ssdMeets_iff info).mpr hgood]
    rw [if_neg hmeets, if_neg (Nat.not_lt.mpr hfits)] at hexec
    obtain ⟨hst, hcount, hpath⟩ := admitSsd_admitted (askedSsd s k) k (countedOf info)
    rw [askedSsd_inUse] at hst
    exact ⟨_, hexec, hst, hcount, fun p => (hpath p).trans (askedSsd_pathUp s k p)⟩

end

end Sys2Proof.Machine
end

section
/-! PROOF. A press of a slot's attention button, by hand or through SLOT_CTRL, and the end of its 5 s (O58). -/

namespace Sys2Proof.Machine

open Sys2Proof

section
variable {s t u : State} {k : Slot}

/-! ### A press (05 R126) -/

/-- What a press rests on is the same. -/
structure PressSame (s t : State) (k : Slot) : Prop where
  slot : slotOf t k = slotOf s k
  states : ∀ n, slotSt t n = slotSt s n
  power : slotsOn t = slotsOn s
  present : fget t .tierSlotStatusPresent (slotInst k) = fget s .tierSlotStatusPresent (slotInst k)

theorem PressSame.othersMissing (h : PressSame s t k) : othersMissing t k = othersMissing s k := by
  unfold Machine.othersMissing
  simp only [h.states]

theorem raise_pressSame (s : State) (k : Slot) (e : Evt) (i : Nat) : PressSame s (raise s e i) k :=
  ⟨slotOf_raise _ _ _ _ _ _ _ _, fun _ => fget_raise _ _ _ _ _ _ _ _ _ (by decide),
    raise_proj slotsOn (fun _ _ => rfl) (fun _ _ => rfl) (fun _ _ => rfl) (fun _ _ => rfl) (fun _ _ => rfl) _ _ _ _ _ _ _,
    fget_raise _ _ _ _ _ _ _ _ _ (by decide)⟩

/-- What a press of the button leaves: the event, and the 5 s begun, refused or ended. -/
structure Pressed (s : State) (k : Slot) (t : State) : Prop where
  told : Signalled t .tierButton (slotInst k)
  refused : (slotOf s k).buttonWait = none → slotSt s k = slInService → othersMissing s k = true →
    Signalled t .tierRemoveRefused (slotInst k) ∧ (slotOf t k).buttonWait = none
  removal : (slotOf s k).buttonWait = none → slotSt s k = slInService → othersMissing s k = false →
    (slotOf t k).buttonWait = some false ∧ fget t .tierSlotStatusPwrInd (slotInst k) = indBlink
  insertion : (slotOf s k).buttonWait = none → slotsOn s = true → slotSt s k = slOff →
    fget s .tierSlotStatusPresent (slotInst k) = 1 → (slotOf s k).debouncing = false → (slotOf t k).buttonWait = some true
  ended : (slotOf s k).buttonWait.isSome = true → (slotOf t k).buttonWait = none

theorem Pressed.of_same (h : PressSame s u k) (hp : Pressed u k t) : Pressed s k t := by
  obtain ⟨htold, hrefused, hremoval, hinsertion, hended⟩ := hp
  rw [h.slot, h.states, h.othersMissing] at hrefused hremoval
  rw [h.slot, h.power, h.states, h.present] at hinsertion
  rw [h.slot] at hended
  exact ⟨htold, hrefused, hremoval, hinsertion, hended⟩

/-- A press once its event is told. -/
def pressEffect (s : State) (k : Slot) : State :=
  match (slotOf s k).buttonWait with
  | some on => setPwrInd (slotUpd s k fun x => { x with buttonWait := none }) k (if on then indOff else indOn)
  | none =>
    if slotSt s k = slInService then
      if othersMissing s k then raise s .tierRemoveRefused (slotInst k)
      else setPwrInd (slotUpd s k fun x => { x with buttonWait := some false }) k indBlink
    else if slotsOn s ∧ slotSt s k = slOff ∧ fget s .tierSlotStatusPresent (slotInst k) = 1 ∧ !(slotOf s k).debouncing then
      setPwrInd (slotUpd s k fun x => { x with buttonWait := some true }) k indBlink
    else s

theorem pressButton_eq (s : State) (k : Slot) : pressButton s k = pressEffect (raise s .tierButton (slotInst k)) k := rfl

theorem pressEffect_pressed (h : Signalled s .tierButton (slotInst k)) : Pressed s k (pressEffect s k) := by
  unfold pressEffect
  cases hw : (slotOf s k).buttonWait with
  | some on =>
    refine ⟨h, fun hc => ?_, fun hc => ?_, fun hc => ?_, fun _ => by simp⟩ <;> simp [hw] at hc
  | none =>
    have hended : ¬(slotOf s k).buttonWait.isSome = true := by simp [hw]
    dsimp only
    by_cases hin : slotSt s k = slInService
    · have hoff : ¬slotSt s k = slOff := by rw [hin]; decide
      rw [if_pos hin]
      by_cases hm : othersMissing s k = true
      · rw [if_pos hm]
        exact ⟨signalled_raise _ _ _ _ _ _ _ _ _ h, fun _ _ _ => ⟨raise_signalled _ _ _ _ _ _ _, by simp [hw]⟩,
          fun _ _ hc => absurd hm (by simp [hc]), fun _ _ hc => absurd hc hoff, fun hc => absurd hc hended⟩
      · rw [if_neg hm]
        exact ⟨h, fun _ _ hc => absurd hc hm, fun _ _ _ => ⟨by simp, pwrInd_setPwrInd _ _ (by decide)⟩,
          fun _ _ hc => absurd hc hoff, fun hc => absurd hc hended⟩
    · rw [if_neg hin]
      split
      · exact ⟨h, fun _ hc => absurd hc hin, fun _ hc => absurd hc hin, fun _ _ _ _ _ => by simp, fun hc => absurd hc hended⟩
      next hno =>
        exact ⟨h, fun _ hc => absurd hc hin, fun _ hc => absurd hc hin,
          fun _ hon hoff hp hd => absurd ⟨hon, hoff, hp, by simp [hd]⟩ hno, fun hc => absurd hc hended⟩

theorem pressButton_pressed (s : State) (k : Slot) : Pressed s k (pressButton s k) := by
  rw [pressButton_eq]
  exact .of_same (raise_pressSame s k _ _) (pressEffect_pressed (raise_signalled _ _ _ _ _ _ _))

/-- A command that presses the button. -/
theorem gives_pressed {c : Instr} (hc : exec c s = .next t) (h : Pressed s k t) :
    (Gives c s fun t => Signalled t .tierButton (slotInst k)) ∧
    ((slotOf s k).buttonWait = none → slotSt s k = slInService →
      (othersMissing s k = true → Gives c s fun t => Signalled t .tierRemoveRefused (slotInst k) ∧
        (slotOf t k).buttonWait = none) ∧
      (othersMissing s k = false → Gives c s fun t => (slotOf t k).buttonWait = some false ∧
        fget t .tierSlotStatusPwrInd (slotInst k) = indBlink)) ∧
    ((slotOf s k).buttonWait = none → slotsOn s = true → slotSt s k = slOff →
      fget s .tierSlotStatusPresent (slotInst k) = 1 → (slotOf s k).debouncing = false →
      Gives c s fun t => (slotOf t k).buttonWait = some true) ∧
    ((slotOf s k).buttonWait.isSome = true → Gives c s fun t => (slotOf t k).buttonWait = none) :=
  ⟨⟨t, hc, h.told⟩, fun hw hin => ⟨fun hm => ⟨t, hc, h.refused hw hin hm⟩, fun hm => ⟨t, hc, h.removal hw hin hm⟩⟩,
    fun hw hon hoff hp hd => ⟨t, hc, h.insertion hw hon hoff hp hd⟩, fun hw => ⟨t, hc, h.ended hw⟩⟩

/-! ### A write of SLOT_CTRL.BUTTON (05 R126) -/

theorem fieldsAt_slotCtrl (k : Slot) : fieldsAt .tier (slotInst k) 0x0C0 =
    [⟨.tierSlotCtrlLocate, 0, 0⟩, ⟨.tierSlotCtrlAutoPower, 0, 1⟩, ⟨.tierSlotCtrlButton, 0, 2⟩] := by
  revert k
  decide

theorem wordWith_button (s : State) (k : Slot) : wordWith s .tier (slotInst k) 0x0C0 [(.tierSlotCtrlButton, 0, 1)] =
    fget s .tierSlotCtrlLocate (slotInst k) + 2 * fget s .tierSlotCtrlAutoPower (slotInst k) + 4 := by
  unfold wordWith
  rw [fieldsAt_slotCtrl]
  show 0 + fget s .tierSlotCtrlLocate (slotInst k) * 2 ^ 0 + fget s .tierSlotCtrlAutoPower (slotInst k) * 2 ^ 1 +
    1 % 2 ^ 1 * 2 ^ 2 = _
  omega

theorem newFld_button (u : State) (v : View) (k : Slot) (w : Nat) :
    newFld u v .tier (slotInst k) 0x0C0 w .tierSlotCtrlButton 0 = w / 4 % 2 := by
  have hw : writable (slotInst k) .tierSlotCtrlButton = true := by
    revert k
    decide
  have hhas : hasFld u v (slotInst k) .tierSlotCtrlButton = true := by
    unfold hasFld
    rw [hw]
    rfl
  unfold newFld
  rw [fieldsAt_slotCtrl]
  show (if (!hasFld u v (slotInst k) .tierSlotCtrlButton || false || false) = true then _ else w / 4 % 2) = _
  rw [hhas]
  rfl

theorem storeFlds_slotCtrl (u : State) (k : Slot) (nv : Fld → Nat → Nat) : storeFlds u .tier (slotInst k) 0x0C0 nv =
    fset (fset u .tierSlotCtrlLocate (nv .tierSlotCtrlLocate 0) (slotInst k)) .tierSlotCtrlAutoPower
      (nv .tierSlotCtrlAutoPower 0) (slotInst k) := by
  have hlocate : writable (slotInst k) .tierSlotCtrlLocate = true := by
    revert k
    decide
  have hauto : writable (slotInst k) .tierSlotCtrlAutoPower = true := by
    revert k
    decide
  unfold storeFlds
  rw [fieldsAt_slotCtrl]
  show (if writable (slotInst k) .tierSlotCtrlAutoPower = true then
    fset (if writable (slotInst k) .tierSlotCtrlLocate = true then
      fset u .tierSlotCtrlLocate (nv .tierSlotCtrlLocate 0) (slotInst k) else u)
      .tierSlotCtrlAutoPower (nv .tierSlotCtrlAutoPower 0) (slotInst k) else _) = _
  rw [if_pos hauto, if_pos hlocate]

/-- The fields of SLOT_CTRL and the indicator that follows them are none that a press rests on. -/
theorem slotCtrl_pressSame (u : State) (k : Slot) (nv : Fld → Nat → Nat) :
    PressSame u (showAttn (storeFlds u .tier (slotInst k) 0x0C0 nv) k) k := by
  rw [storeFlds_slotCtrl]
  have hfld : ∀ (a b c : Nat) (f : Fld) (i : Nat), f ≠ .tierSlotCtrlLocate → f ≠ .tierSlotCtrlAutoPower →
      f ≠ .tierSlotStatusAttnInd → fget (fset (fset (fset u .tierSlotCtrlLocate a (slotInst k)) .tierSlotCtrlAutoPower b
        (slotInst k)) .tierSlotStatusAttnInd c (slotInst k)) f i = fget u f i := fun a b c f i h1 h2 h3 => by
    rw [fget_fset_fld _ _ _ _ _ _ h3, fget_fset_fld _ _ _ _ _ _ h2, fget_fset_fld _ _ _ _ _ _ h1]
  exact ⟨rfl, fun n => hfld _ _ _ _ _ (by decide) (by decide) (by decide), rfl,
    hfld _ _ _ _ _ (by decide) (by decide) (by decide)⟩

/-- The kinds of state that the audit of a session's write may change. -/
def auditKinds : Nat := 1073741952 ||| 299067162756109

theorem sessionAudit_pressSame (s : State) (ses : Session) (k : Slot) (b : Blk) (i off w old : Nat) :
    PressSame s (auditWrite (sessionMsg s ses) (.fm ses) b i off w old) k := by
  have m : Moves auditKinds s (auditWrite (sessionMsg s ses) (.fm ses) b i off w old) :=
    auditWrite_moves rfl <| sessionMsg_moves rfl <| .refl _ s
  obtain ⟨-, -, -, -, -, hslots, -⟩ : Same .scree s _ := m.frame .scree (by decide)
  have hboot := m.frame .boot (by decide)
  refine ⟨?_, fun n => m.fget_eq (by decide) (by decide) _ _, ?_, m.fget_eq (by decide) (by decide) _ _⟩
  · unfold slotOf
    rw [hslots]
  · unfold slotsOn
    rw [show (auditWrite (sessionMsg s ses) (.fm ses) b i off w old).boot = s.boot from hboot]

theorem PressSame.trans {v : State} (h : PressSame s t k) (g : PressSame t v k) : PressSame s v k :=
  ⟨g.slot.trans h.slot, fun n => (g.states n).trans (h.states n), g.power.trans h.power, g.present.trans h.present⟩

theorem slotNum_inst (k : Slot) : slotNum (slotInst k - 0x20) = k := by
  refine Fin.ext ?_
  show (0x20 + k.val - 0x20) % 8 = k.val
  omega

theorem applyTier_button {nv : Fld → Nat → Nat} (h : nv .tierSlotCtrlButton 0 = 1) (u : State) (k : Slot) :
    applyTier u (slotInst k) 0x0C0 nv = pressButton (showAttn (storeFlds u .tier (slotInst k) 0x0C0 nv) k) k := by
  have hk : slotInst k - 0x20 = k.val := by
    unfold slotInst
    omega
  unfold applyTier
  dsimp only
  rw [if_neg (by decide), if_neg (by decide), if_neg (by decide), if_neg (by decide), if_neg (by decide), if_pos rfl, if_pos h,
    slotNum_inst, hk]

/-- A write of SLOT_CTRL with BUTTON set presses it on a state that a press takes for the same. -/
theorem fmWrite_slotCtrl {ses : Session} {w : Nat} (hup : sesUp s ses = true)
    (hw : Writes s (.fm ses) .tier (slotInst k) 0x0C0 w) (hbit : w / 4 % 2 = 1) :
    ∃ u, PressSame s u k ∧ fmWrite s ses .tier (slotInst k) 0x0C0 w = pressButton u k := by
  have hstep := fmWrite_open hup hw
  dsimp only at hstep
  rw [if_neg (by decide), if_neg (by decide)] at hstep
  refine ⟨_, ?_, hstep.trans (applyTier_button ((newFld_button _ _ k w).trans hbit) _ k)⟩
  exact (sessionAudit_pressSame s ses k _ _ _ _ _).trans (slotCtrl_pressSame _ k _)

/-- A session that writes 1 to BUTTON presses it. -/
theorem exec_button_pressed {ses : Session} (hup : sesUp s ses = true) (hfit : s.fieldsFit = true)
    (hw : Writes s (.fm ses) .tier (slotInst k) 0x0C0 (wordWith s .tier (slotInst k) 0x0C0 [(.tierSlotCtrlButton, 0, 1)])) :
    ∃ t, exec (.button ses k) s = .next t ∧ Pressed s k t := by
  have hlocate : fget s .tierSlotCtrlLocate (slotInst k) < 2 ^ 1 := fget_lt hfit .tierSlotCtrlLocate (slotInst k) 0
  have hauto : fget s .tierSlotCtrlAutoPower (slotInst k) < 2 ^ 1 := fget_lt hfit .tierSlotCtrlAutoPower (slotInst k) 0
  obtain ⟨u, hsame, hwrite⟩ := fmWrite_slotCtrl hup hw (by rw [wordWith_button]; omega)
  exact ⟨_, congrArg Host.Outcome.next hwrite, .of_same hsame (pressButton_pressed u k)⟩

/-! ### The end of the 5 s (05 R126) -/

theorem removalGoesOn_busy (h : ∃ o ∈ s.ios, o.slot = k) : removalGoesOn s k = s := by
  have hbusy : s.ios.any (fun i => decide (i.slot = k)) = true := by simpa using h
  unfold removalGoesOn
  rw [if_neg (by simp [hbusy])]

theorem removalGoesOn_done (hst : slotSt s k = slRemoving) (h : ∀ o ∈ s.ios, o.slot ≠ k) :
    removalGoesOn s k = markLost (leaveSet (nvmeOn (nvmeOn s k .a .deleteQueues) k .b .deleteQueues) k slOff) := by
  have hidle : s.ios.any (fun i => decide (i.slot = k)) = false := by simpa using h
  unfold removalGoesOn
  rw [if_pos ⟨hst, by rw [hidle]; rfl⟩]

/-- The removal that a press began. -/
def removing (s : State) (k : Slot) : State := setSlot (slotUpd s k fun x => { x with buttonWait := none }) k slRemoving

theorem removing_ios (s : State) (k : Slot) : (removing s k).ios = s.ios := by
  unfold removing setSlot
  split
  · rfl
  · exact raise_ios _ _ _ _ _ _ _

theorem buttonWaitEnd_removal (h : (slotOf s k).buttonWait = some false) :
    ((∃ o ∈ s.ios, o.slot = k) → Gives (.buttonWaitEnd k) s fun t => slotSt t k = slRemoving) ∧
    ((∀ o ∈ s.ios, o.slot ≠ k) → Gives (.buttonWaitEnd k) s fun t => slotSt t k = slOff ∧
      fget t .tierSlotStatusPwrEn (slotInst k) = 0 ∧ Signalled t .tierDegraded 0x10) := by
  have hend : buttonEnd s k = removalGoesOn (removing s k) k := by
    unfold buttonEnd
    rw [h]
    rfl
  have hst : slotSt (removing s k) k = slRemoving := slotSt_setSlot _ _ (by decide)
  refine ⟨fun hbusy => ⟨_, congrArg Host.Outcome.next hend, ?_⟩, fun hidle => ⟨_, congrArg Host.Outcome.next hend, ?_⟩⟩
  · rw [removalGoesOn_busy (by rwa [removing_ios])]
    exact hst
  · rw [removalGoesOn_done hst (by rwa [removing_ios])]
    generalize nvmeOn (nvmeOn (removing s k) k .a .deleteQueues) k .b .deleteQueues = u
    have hkept := markLost_slotKept (leaveSet u k slOff)
    exact ⟨(hkept.tier _ _ _ rfl (by decide)).trans (slotSt_leaveSet u k (by decide)),
      (hkept.tier _ _ _ rfl (by decide)).trans (pwrEn_leaveSet u k _), hkept.bits _ _ (leaveSet_degrades u k _).1⟩

theorem buttonWaitEnd_insertion (h : (slotOf s k).buttonWait = some true) :
    Gives (.buttonWaitEnd k) s fun t => (slotOf t k).buttonWait = none ∧
      (slotsOn s = true → fget t .tierSlotStatusPwrEn (slotInst k) = 1 ∧ slotSt t k = slPowering) := by
  have hend : buttonEnd s k = if slotsOn s then powerSlot s k
      else setPwrInd (slotUpd s k fun x => { x with buttonWait := none }) k indOff := by
    unfold buttonEnd
    rw [h]
  refine ⟨_, congrArg Host.Outcome.next hend, ?_⟩
  split
  · obtain ⟨hen, hst, -, hwait⟩ := powerSlot_powering s k
    exact ⟨hwait, fun _ => ⟨hen, hst⟩⟩
  next hoff => exact ⟨by simp, fun hon => absurd hon hoff⟩

end

end Sys2Proof.Machine
end

section
/-! PROOF. Failures of an SSD, its paths, and the end of a rebuild (O58). -/

namespace Sys2Proof.Machine

open Sys2Proof

section
variable {s t : State} {k : Slot}

/-! ### Failures (05 R120, R121) -/

theorem exec_ssdFail_member (hm : isMember s k = true) :
    exec (.ssdFail k .timeouts) s = .next (failSsd s k 0x04) ∧ exec (.ssdFail k .critical) s = .next (failSsd s k 0x05) ∧
      exec (.ssdFail k .paths) s = .next (failSsd s k 0x06) :=
  ⟨congrArg Host.Outcome.next (if_pos hm), congrArg Host.Outcome.next (if_pos hm), congrArg Host.Outcome.next (if_pos hm)⟩

theorem exec_pathsDownTimeout (hm : isMember s k = true) (ha : pathUp s k .a = false) (hb : pathUp s k .b = false) :
    exec (.pathsDownTimeout k) s = .next (failSsd s k 0x06) :=
  congrArg Host.Outcome.next (if_pos (by rw [hm, ha, hb]; rfl))

/-- The health log is read, and the next event is asked for. -/
def healthRead (s : State) (k : Slot) : State :=
  nvmeOn (nvmeOn s k (if pathUp s k .a then .a else .b) .getSmartLog) k (if pathUp s k .a then .a else .b) .asyncEventRequest

theorem healthRead_moves (s : State) (k : Slot) : Moves 1 s (healthRead s k) := nvmeOn_moves rfl <| nvmeOn_moves rfl <| .refl 1 s

theorem exec_ssdAsyncEvent (hm : isMember s k = true) (reliability readOnly : Bool) :
    exec (.ssdAsyncEvent k reliability readOnly) s =
      .next (if reliability || readOnly then failSsd (healthRead s k) k 0x05 else healthRead s k) :=
  congrArg Host.Outcome.next (if_pos hm)

/-- A state with the same tier page has the same failed slot. -/
theorem FailedSlot.of_told {u : State} {code : Nat} (m : Moves 1 s u) (h : FailedSlot u k code t) : FailedSlot s k code t := by
  obtain ⟨hfld, -, -⟩ := m.told
  have hind : faultInd u k = faultInd s k := by
    unfold faultInd
    rw [hfld _ _ _ rfl]
  have hmember : isMember u k = isMember s k := by
    unfold isMember slotSt
    rw [hfld _ _ _ rfl]
  exact ⟨h.state, h.power, hind ▸ h.attention, h.fault, hmember ▸ h.degraded⟩

/-- A removed SSD's slot before the failure or the change of state. -/
def absent (s : State) (k : Slot) : State :=
  slotUpd (fset s .tierSlotStatusPresent 0 (slotInst k)) k fun x => { x with debouncing := false }

theorem fget_absent (s : State) (k : Slot) {f : Fld} (h : f ≠ .tierSlotStatusPresent) (i j : Nat) :
    fget (absent s k) f i j = fget s f i j := by
  unfold absent
  rw [fget_slotUpd, fget_fset_fld _ _ _ _ _ _ h]

theorem absent_present (s : State) (k : Slot) : fget (absent s k) .tierSlotStatusPresent (slotInst k) = 0 := by
  unfold absent
  rw [fget_slotUpd, fget_fset_self]
  rfl

theorem FailedSlot.of_absent {code : Nat} (h : FailedSlot (absent s k) k code t) : FailedSlot s k code t := by
  have hind : faultInd (absent s k) k = faultInd s k := by
    unfold faultInd
    rw [fget_absent _ _ (by decide)]
  have hmember : isMember (absent s k) k = isMember s k := by
    unfold isMember slotSt
    rw [fget_absent _ _ (by decide)]
  exact ⟨h.state, h.power, hind ▸ h.attention, h.fault, hmember ▸ h.degraded⟩

theorem exec_ssdFail_removal (hp : fget s .tierSlotStatusPresent (slotInst k) = 1) : exec (.ssdFail k .removal) s =
    .next (if fget (absent s k) .tierSlotStatusPwrEn (slotInst k) = 1 then slotChange (failSsd (absent s k) k 0x07) k
      else slotChange (fset (absent s k) .tierSlotStatusState slEmpty (slotInst k)) k) :=
  congrArg Host.Outcome.next (if_pos hp)

/-- A failure leaves whether an SSD is present. -/
theorem failSsd_present (s : State) (k : Slot) (code : Nat) :
    fget (failSsd s k code) .tierSlotStatusPresent (slotInst k) = fget s .tierSlotStatusPresent (slotInst k) := by
  have hbare : fget (setSlot (unpowerSlot (setFault s k code) k) k slFailed) .tierSlotStatusPresent (slotInst k) =
      fget s .tierSlotStatusPresent (slotInst k) := by simp
  unfold failSsd
  dsimp only
  rw [(dropSlotIos_slotKept _ k).tier _ _ _ rfl (by decide)]
  by_cases hm : isMember s k = true
  · rw [if_pos hm, if_pos hm, (markLost_slotKept _).tier _ _ _ rfl (by decide), fget_leaveSet _ k _ rfl (by decide), hbare]
  · rw [if_neg hm, if_neg hm, hbare]

theorem ssdRemoved (hp : fget s .tierSlotStatusPresent (slotInst k) = 1) :
    (fget s .tierSlotStatusPwrEn (slotInst k) = 1 → Gives (.ssdFail k .removal) s fun t =>
      FailedSlot s k 7 t ∧ fget t .tierSlotStatusPresent (slotInst k) = 0) ∧
    (fget s .tierSlotStatusPwrEn (slotInst k) ≠ 1 → Gives (.ssdFail k .removal) s fun t => slotSt t k = slEmpty ∧
      fget t .tierSlotStatusPresent (slotInst k) = 0) := by
  have hexec := exec_ssdFail_removal hp
  rw [fget_absent _ _ (by decide)] at hexec
  refine ⟨fun hon => ?_, fun hoff => ?_⟩
  · rw [if_pos hon] at hexec
    have hchange : SlotKept (failSsd (absent s k) k 7) (slotChange (failSsd (absent s k) k 7) k) :=
      raise_slotKept _ _ _ _ _ _ _
    refine ⟨_, hexec, (hchange.failed (failSsd_failed _ k (by decide) (by decide))).of_absent, ?_⟩
    rw [hchange.tier _ _ _ rfl (by decide), failSsd_present, absent_present]
  · rw [if_neg hoff] at hexec
    refine ⟨_, hexec, ?_, ?_⟩
    · unfold slotSt
      rw [fget_slotChange _ _ _ _ (by decide), fget_fset_self]
      rfl
    · rw [fget_slotChange _ _ _ _ (by decide), fget_fset_fld _ _ _ _ _ _ (by decide), absent_present]

end

end Sys2Proof.Machine
end

section
/-! PROOF. Paths that are lost and return, and the end of a rebuild (O58). -/

namespace Sys2Proof.Machine

open Sys2Proof

section
variable {s t u : State} {k : Slot} {p : Path}

/-! ### Commands that change their path (05 R120) -/

theorem reissue_proj {α : Type} (q : State → α) (hios : ∀ s x, q { s with ios := x } = q s)
    (hout : ∀ s x, q { s with out := x } = q s) (s : State) (k : Slot) (ok : Io → Bool) (path : Path) :
    q (reissue s k ok path) = q s := by
  unfold reissue
  refine foldl_keeps (P := fun t => q t = q s) _ (fun t i _ ht => ?_) (hios _ _)
  split
  · exact ht
  · exact (hout _ _).trans ht

theorem reissue_ios (s : State) (k : Slot) (ok : Io → Bool) (path : Path) :
    (reissue s k ok path).ios = s.ios.map fun i => if i.slot = k ∧ ok i then { i with path := path } else i := by
  unfold reissue
  refine foldl_keeps (P := fun t : State =>
    t.ios = s.ios.map fun i => if i.slot = k ∧ ok i then { i with path := path } else i) _ (fun t i _ ht => ?_) rfl
  split
  · exact ht
  · exact ht

/-- Once every command of the slot off the path is issued again on it, all of them are on it. -/
theorem reissue_onPath {ok : Io → Bool} {path : Path} (hok : ∀ i : Io, i.path = path ∨ ok i = true) :
    ∀ o ∈ (reissue s k ok path).ios, o.slot = k → o.path = path := by
  intro o ho hk
  rw [reissue_ios] at ho
  obtain ⟨i, -, rfl⟩ := List.mem_map.mp ho
  by_cases hit : i.slot = k ∧ ok i = true
  · rw [if_pos hit]
  · rw [if_neg hit] at hk ⊢
    exact (hok i).resolve_right fun h => hit ⟨hk, h⟩

theorem pathUp_reissue (s : State) (k : Slot) (ok : Io → Bool) (path p : Path) :
    pathUp (reissue s k ok path) k p = pathUp s k p :=
  reissue_proj (pathUp · k p) (fun _ _ => rfl) (fun _ _ => rfl) s k ok path

theorem signalled_reissue (ok : Io → Bool) (path : Path) {e : Evt} {i : Nat} (h : Signalled s e i) :
    Signalled (reissue s k ok path) e i := by
  unfold Signalled
  rw [reissue_proj (hget · e.info.1 i) (fun _ _ => rfl) (fun _ _ => rfl)]
  exact h

/-! ### A lost path -/

theorem lockLate_proj {α : Type} (q : State → α) (hlocks : ∀ s x, q { s with locks := x } = q s) (s : State) (b : Nat) :
    q (lockLate s b) = q s := by
  unfold lockLate lockMap
  refine (hlocks _ _).trans ?_
  split
  · rfl
  · exact hlocks _ _

/-- A path is down and told so; the other one is as it was. -/
structure PathDown (s : State) (k : Slot) (p : Path) (u : State) : Prop where
  down : pathUp u k p = false
  other : pathUp u k (otherPath p) = pathUp s k (otherPath p)
  told : Signalled u .tierPathLost (slotInst k)

theorem pathFld_other (p : Path) : pathFld (otherPath p) ≠ pathFld p := by cases p <;> decide

theorem pathFld_ne_latched (p : Path) : pathFld p ≠ .cairnCoalesceStatsLatched := by cases p <;> decide

theorem fget_set_path (s : State) (k : Slot) (p : Path) {v : Nat} (h : v < 2) :
    fget (fset s (pathFld p) v (slotInst k)) (pathFld p) (slotInst k) = v := by
  rw [fget_fset_self]
  cases p <;> exact Nat.mod_eq_of_lt h

theorem PathDown.of_lost (s : State) (k : Slot) (p : Path) (pl : List Byte) (l : List Io) :
    PathDown s k p (l.foldl (fun s i => lockLate s i.block)
      (raise (fset s (pathFld p) 0 (slotInst k)) .tierPathLost (slotInst k) none pl)) := by
  have hlate {α : Type} (q : State → α) (hlocks : ∀ s x, q { s with locks := x } = q s) (v : State) :
      q (l.foldl (fun s i => lockLate s i.block) v) = q v :=
    foldl_keeps (P := fun t => q t = q v) l (fun t i _ ht => (lockLate_proj q hlocks t i.block).trans ht) rfl
  have hraise : ∀ r : Path, fget (raise (fset s (pathFld p) 0 (slotInst k)) .tierPathLost (slotInst k) none pl) (pathFld r)
      (slotInst k) = fget (fset s (pathFld p) 0 (slotInst k)) (pathFld r) (slotInst k) := fun r =>
    fget_raise _ _ _ _ _ _ _ _ _ (pathFld_ne_latched r)
  refine ⟨(hlate (pathUp · k p) (fun _ _ => rfl) _).trans ?_, (hlate (pathUp · k (otherPath p)) (fun _ _ => rfl) _).trans ?_, ?_⟩
  · unfold pathUp
    rw [hraise, fget_set_path _ _ _ (by decide)]
    rfl
  · exact pathUp_congr ((hraise _).trans (fget_fset_fld _ _ _ _ _ _ (pathFld_other p)))
  · unfold Signalled
    rw [hlate (hget · (Evt.tierPathLost).info.1 (slotInst k)) (fun _ _ => rfl)]
    exact raise_signalled _ _ _ _ _ _ _

theorem losePath_down (h : pathUp s k p = true) : ∃ u, PathDown s k p u ∧ losePath s k p =
    if pathUp u k (otherPath p) then reissue u k (fun i => decide (i.path = p)) (otherPath p) else u := by
  unfold losePath
  rw [if_pos h]
  exact ⟨_, .of_lost s k p _ _, rfl⟩

theorem pathLost_ends (h : pathUp s k p = true) : Gives (.pathLost k p) s fun t => pathUp t k p = false ∧
    Signalled t .tierPathLost (slotInst k) ∧
    (pathUp s k (otherPath p) = true → ∀ o ∈ t.ios, o.slot = k → o.path = otherPath p) := by
  obtain ⟨u, hdown, hlose⟩ := losePath_down h
  refine ⟨_, congrArg Host.Outcome.next hlose, ?_⟩
  rw [hdown.other]
  split
  · have hpaths : ∀ i : Io, i.path = otherPath p ∨ decide (i.path = p) = true := fun i => by
      cases i.path <;> cases p <;> simp [otherPath]
    exact ⟨(pathUp_reissue _ _ _ _ _).trans hdown.down, signalled_reissue _ _ hdown.told, fun _ => reissue_onPath hpaths⟩
  next hoff => exact ⟨hdown.down, hdown.told, fun hon => absurd hon hoff⟩

/-! ### A path that returns -/

/-- The controller of a path that is up again is initialised. -/
def pathReady (s : State) (k : Slot) (p : Path) : State :=
  initController (nvmeOn (fset s (pathFld p) 1 (slotInst k)) k p .identifyController) k p

theorem pathReady_up (s : State) (k : Slot) (p : Path) : pathUp (pathReady s k p) k p = true := by
  have m : Moves 1 (fset s (pathFld p) 1 (slotInst k)) (pathReady s k p) := initController_moves rfl <| nvmeOn_moves rfl <| .refl 1 _
  obtain ⟨hfld, -, -⟩ := m.told
  unfold pathUp
  rw [hfld _ _ _ (by cases p <;> rfl), fget_set_path _ _ _ (by decide)]
  rfl

theorem returnPath_eq (s : State) (k : Slot) (p : Path) : returnPath s k p =
    if !pathUp s k .a && !pathUp s k .b then reissue (pathReady s k p) k (fun _ => true) p else pathReady s k p := rfl

theorem pathReturn_ends (hp : fget s .tierSlotStatusPwrgd (slotInst k) = 1) (hm : isMember s k = true)
    (hd : pathDie k p ∉ s.portDiesOut) : Gives (.pathReturn k p) s fun t => pathUp t k p = true ∧
      (pathUp s k .a = false → pathUp s k .b = false → ∀ o ∈ t.ios, o.slot = k → o.path = p) := by
  have hopen : fget s .tierSlotStatusPwrgd (slotInst k) = 1 ∧ isMember s k ∧ s.portDiesOut.contains (pathDie k p) = false :=
    ⟨hp, hm, by simpa using hd⟩
  refine ⟨_, (congrArg Host.Outcome.next (if_pos hopen)).trans (congrArg _ (returnPath_eq s k p)), ?_⟩
  split
  · exact ⟨(pathUp_reissue _ _ _ _ _).trans (pathReady_up s k p), fun _ _ => reissue_onPath fun _ => .inr rfl⟩
  next hone => exact ⟨pathReady_up s k p, fun ha hb => absurd (by rw [ha, hb]; rfl) hone⟩

/-! ### The end of a rebuild (05 R122) -/

/-- A rebuilt slot is in service. -/
def backInService (s : State) (k : Nat) : State := setPwrInd (setSlot s k slInService) k indOn

theorem slotSt_backInService (s : State) (k : Nat) : slotSt (backInService s k) k = slInService :=
  (fget_setPwrInd _ k _ _ _ (by decide)).trans (slotSt_setSlot s k (by decide))

theorem slotSt_backInService_ne (s : State) {j n : Nat} (h : n ≠ j) : slotSt (backInService s j) n = slotSt s n :=
  (fget_setPwrInd _ j _ _ _ (by decide)).trans (slotSt_setSlot_ne s _ h)

/-- Each slot of a list is in service once all of it is. -/
theorem slotSt_foldl_backInService {l : List Nat} {j : Nat} (h : j ∈ l ∨ slotSt s j = slInService) :
    slotSt (l.foldl backInService s) j = slInService := by
  induction l generalizing s with
  | nil => exact h.resolve_left List.not_mem_nil
  | cons x l ih =>
    refine ih ?_
    by_cases hx : j = x
    · exact .inr (hx ▸ slotSt_backInService s j)
    · rw [slotSt_backInService_ne s hx]
      exact h.imp_left fun hm => (List.mem_cons.mp hm).resolve_left hx

/-- The slots of a rebuild that is over are in service, and their cursors are gone. -/
def rebuilt (s : State) : State := { fset ((rebuilding s).foldl backInService s) .tierRebuildActive 0 0x10 with rebuild := [] }

theorem endRebuild_eq (s : State) : endRebuild s = raise (setDegraded (rebuilt s) false) .tierRebuildDone 0x10 := rfl

theorem slotSt_rebuilt (s : State) (j : Nat) : slotSt (rebuilt s) j = slotSt ((rebuilding s).foldl backInService s) j :=
  fget_fset_fld _ _ _ _ _ _ (by decide)

theorem endRebuild_ends (s : State) (k : Slot) : fget (endRebuild s) .tierRebuildActive 0x10 = 0 ∧
    Signalled (endRebuild s) .tierRebuildDone 0x10 ∧ (hget (endRebuild s) .tier 0x10).degraded = false ∧
    (slotSt s k = slRebuilding → slotSt (endRebuild s) k = slInService) := by
  rw [endRebuild_eq]
  refine ⟨?_, raise_signalled _ _ _ _ _ _ _, ?_, fun hst => ?_⟩
  · rw [fget_raise _ _ _ _ _ _ _ _ _ (by decide)]
    exact (fget_fset_self _ _ _ _ _).trans rfl
  · rw [raise_degraded]
    unfold setDegraded
    rw [hget_hupd_self]
  · have hmem : k.val ∈ rebuilding s := List.mem_filter.mpr ⟨List.mem_range.mpr k.isLt, decide_eq_true hst⟩
    have hkept : slotSt (raise (setDegraded (rebuilt s) false) .tierRebuildDone 0x10) k = slotSt (rebuilt s) k :=
      (fget_raise _ _ _ _ _ _ _ _ _ (by decide)).trans (fget_hupd _ _ _ _ _ _ _)
    rw [hkept, slotSt_rebuilt]
    exact slotSt_foldl_backInService (.inl hmem)

theorem exec_rebuildDone (h : rebuildOver s = true) : exec .rebuildDone s = .next (endRebuild s) :=
  congrArg Host.Outcome.next (if_pos h)

end

/-! ### The statement -/

/-- A command that fails the SSD. -/
theorem gives_failed {s u : State} {k : Slot} {c : Instr} {code : Nat} (hc : exec c s = .next u) (h : FailedSlot s k code u) :
    Gives c s fun t => slotSt t k = slFailed ∧ fget t .tierSlotStatusPwrEn (slotInst k) = 0 ∧
      fget t .tierSlotStatusAttnInd (slotInst k) = faultInd s k ∧ fget t .tierSlotStatusFault (slotInst k) = code ∧
      (isMember s k = true → Signalled t .tierDegraded 0x10 ∧ (hget t .tier 0x10).degraded = true) :=
  ⟨u, hc, h.state, h.power, h.attention, h.fault, h.degraded⟩

/-- Settles O58: each command of a slot by the rule of its own step. -/
theorem slotsPowerAdmitAndFail : Obligations.SlotsPowerAdmitAndFail := by
  intro s k
  refine ⟨fun hp => ⟨_, rfl, insertSsd_present hp⟩, slotDebounceEnd_ends, powering_ends, ssdAdmit_ends, ⟨?_, ?_⟩,
    buttonWaitEnd_insertion, buttonWaitEnd_removal, fun hp => ?_, fun hm => ?_, fun p => ⟨pathLost_ends, pathReturn_ends⟩,
    fun hover => ⟨_, exec_rebuildDone hover, endRebuild_ends s k⟩⟩
  · exact gives_pressed (t := pressButton s k) rfl (pressButton_pressed s k)
  · intro ses hup hfit hw
    obtain ⟨t, ht, hpressed⟩ := exec_button_pressed hup hfit hw
    exact gives_pressed ht hpressed
  · obtain ⟨hon, hoff⟩ := ssdRemoved hp
    refine ⟨fun hen => ?_, hoff⟩
    obtain ⟨t, ht, hfailed, hpresent⟩ := hon hen
    exact ⟨gives_failed ht hfailed, t, ht, hpresent⟩
  · obtain ⟨htimeouts, hcritical, hpaths⟩ := exec_ssdFail_member hm
    have hasync : ∀ a b, (a || b) = true → exec (.ssdAsyncEvent k a b) s = .next (failSsd (healthRead s k) k 5) :=
      fun a b hab => (exec_ssdAsyncEvent hm a b).trans (congrArg _ (if_pos hab))
    have hread : FailedSlot s k 5 (failSsd (healthRead s k) k 5) :=
      .of_told (healthRead_moves s k) (failSsd_failed _ k (by decide) (by decide))
    refine ⟨gives_failed htimeouts (failSsd_failed s k (by decide) (by decide)),
      gives_failed hcritical (failSsd_failed s k (by decide) (by decide)),
      gives_failed hpaths (failSsd_failed s k (by decide) (by decide)), gives_failed (hasync _ _ rfl) hread,
      gives_failed (hasync _ _ rfl) hread, ⟨_, exec_ssdAsyncEvent hm false false, ?_⟩,
      fun ha hb => gives_failed (exec_pathsDownTimeout hm ha hb) (failSsd_failed s k (by decide) (by decide))⟩
    obtain ⟨hfld, -, -⟩ := (healthRead_moves s k).told
    exact hfld _ _ _ rfl

end Sys2Proof.Machine
end

section
/-! PROOF. The set operators, SORT and the long form of sums (O48 to O50). -/

namespace Sys2Proof.Machine

open Sys2Proof

/-! ### Set operators on ascending lists (07 R174, R175) -/

theorem sortedPrefix_cons_cons (a b : Nat) (r : List Nat) :
    sortedPrefix true (a :: b :: r) = if a < b then 1 + sortedPrefix true (b :: r) else 1 := by simp [sortedPrefix]

/-- The prefix in order is the whole list where each id is below the next. -/
theorem sortedPrefix_eq_length_iff (l : List Nat) : sortedPrefix true l = l.length ↔ l.Pairwise (· < ·) := by
  rw [← List.isChain_iff_pairwise]
  induction l with
  | nil => simp [sortedPrefix]
  | cons a r ih =>
    cases r with
    | nil => simp [sortedPrefix]
    | cons b r =>
      rw [List.isChain_cons_cons, ← ih, sortedPrefix_cons_cons]
      by_cases hab : a < b
      · simp only [hab, if_true, List.length_cons, true_and]
        omega
      · simp [hab]

/-- One insertion of `orderBy` is the library's ordered insertion. -/
theorem span_insert_eq_orderedInsert (key : Nat → Nat) (x : Nat) (acc : List Nat) :
    (acc.span fun y => decide (key y < key x)).1 ++ x :: (acc.span fun y => decide (key y < key x)).2 =
      acc.orderedInsert (key · ≤ key ·) x := by
  rw [List.span_eq_takeWhile_dropWhile, List.orderedInsert_eq_take_drop]
  simp only [not_le]

theorem orderBy_eq_insertionSort (key : Nat → Nat) (l : List Nat) :
    orderBy key l = l.insertionSort (key · ≤ key ·) :=
  congrArg (List.foldr · [] l) (funext₂ fun x acc => span_insert_eq_orderedInsert key x acc)

theorem orderBy_perm (key : Nat → Nat) (l : List Nat) : (orderBy key l).Perm l :=
  orderBy_eq_insertionSort key l ▸ List.perm_insertionSort _ l

/-- Different numbers put in order of their values are strictly ascending. -/
theorem orderBy_id_pairwise {l : List Nat} (h : l.Nodup) : (orderBy id l).Pairwise (· < ·) := by
  have hle : (orderBy id l).Pairwise (· ≤ ·) := by
    rw [orderBy_eq_insertionSort]
    exact List.pairwise_insertionSort (r := fun a b : Nat => a ≤ b) l
  have hne : (orderBy id l).Pairwise (· ≠ ·) := (orderBy_perm id l).nodup_iff.mpr h
  exact (hle.and hne).imp fun hab => lt_of_le_of_ne hab.1 hab.2

section
variable {a b : List Nat}

/-- The ids of a union before they are put in order are all different. -/
theorem nodup_union (ha : a.Nodup) (hb : b.Nodup) : (a ++ b.filter fun v => !a.contains v).Nodup :=
  List.nodup_append.mpr ⟨ha, hb.filter _, fun v hv w hw hvw => by simp [← hvw, hv] at hw⟩

theorem setOp_pairwise (ha : a.Pairwise (· < ·)) (hb : b.Pairwise (· < ·)) (k : Nat) : (setOp k a b).Pairwise (· < ·) := by
  unfold setOp
  split
  · exact ha.filter _
  · split
    · exact ha.filter _
    · exact orderBy_id_pairwise (nodup_union (ha.imp Nat.ne_of_lt) (hb.imp Nat.ne_of_lt))

theorem mem_setOp_intersect (v : Nat) : v ∈ setOp 0 a b ↔ v ∈ a ∧ v ∈ b := by simp [setOp]

theorem mem_setOp_union (v : Nat) : v ∈ setOp 1 a b ↔ v ∈ a ∨ v ∈ b := by
  have hsame : v ∈ setOp 1 a b ↔ v ∈ a ++ b.filter fun v => !a.contains v := (orderBy_perm id _).mem_iff
  rw [hsame]
  by_cases hv : v ∈ a
  · simp [hv]
  · simp [hv]

theorem mem_setOp_difference (v : Nat) : v ∈ setOp 2 a b ↔ v ∈ a ∧ v ∉ b := by simp [setOp]

end

/-- Settles O48: a union is its ids sorted, and the two others keep ids of the first list. -/
theorem setOperatorsAreExact : Obligations.SetOperatorsAreExact :=
  ⟨sortedPrefix_eq_length_iff, fun _ _ ha hb =>
    ⟨setOp_pairwise ha hb, fun v => ⟨mem_setOp_intersect v, mem_setOp_union v, mem_setOp_difference v⟩⟩⟩

/-! ### SORT (07 R174) -/

theorem stableInsert_perm (le : Nat → Nat → Bool) (x : Nat) (l : List Nat) : (stableInsert le x l).Perm (x :: l) := by
  induction l with
  | nil => exact .refl _
  | cons y r ih =>
    unfold stableInsert
    split
    · exact .refl _
    · exact (ih.cons y).trans (.swap x y r)

theorem foldr_stableInsert_perm (le : Nat → Nat → Bool) (l : List Nat) : (l.foldr (stableInsert le) []).Perm l := by
  induction l with
  | nil => exact .refl _
  | cons x l ih => exact (stableInsert_perm le x _).trans (ih.cons x)

/-- Position `i` may stand before position `j` in a stable order: its element does not follow, and of elements that may
stand either way the lower position comes first. -/
def StablePair (le : Nat → Nat → Bool) (i j : Nat) : Prop := le i j = true ∧ (le j i = true → i < j)

section
variable {le : Nat → Nat → Bool} (htrans : ∀ i j k, le i j = true → le j k = true → le i k = true)
  (htotal : ∀ i j, le i j = false → le j i = true)
include htrans htotal

/-- An insertion of a position below all others keeps the order stable. -/
theorem stableInsert_pairwise {x : Nat} {l : List Nat} (hx : ∀ y ∈ l, x < y) (h : l.Pairwise (StablePair le)) :
    (stableInsert le x l).Pairwise (StablePair le) := by
  induction l with
  | nil => exact List.pairwise_singleton _ _
  | cons y r ih =>
    obtain ⟨hy, hr⟩ := List.pairwise_cons.mp h
    obtain ⟨hxy, hxr⟩ := List.forall_mem_cons.mp hx
    unfold stableInsert
    split
    · next hle =>
      refine List.pairwise_cons.mpr ⟨List.forall_mem_cons.mpr ⟨⟨hle, fun _ => hxy⟩, fun z hz => ?_⟩, h⟩
      exact ⟨htrans x y z hle (hy z hz).1, fun _ => hxr z hz⟩
    · next hle =>
      refine List.pairwise_cons.mpr ⟨fun z hz => ?_, ih hxr hr⟩
      rcases List.mem_cons.mp ((stableInsert_perm le x r).mem_iff.mp hz) with rfl | hz
      · exact ⟨htotal z y (by simpa using hle), fun hc => absurd hc hle⟩
      · exact hy z hz

theorem foldr_stableInsert_pairwise {l : List Nat} (hl : l.Pairwise (· < ·)) :
    (l.foldr (stableInsert le) []).Pairwise (StablePair le) := by
  induction l with
  | nil => exact .nil
  | cons x l ih =>
    obtain ⟨hx, hl⟩ := List.pairwise_cons.mp hl
    exact stableInsert_pairwise htrans htotal (fun y hy => hx y ((foldr_stableInsert_perm le l).mem_iff.mp hy)) (ih hl)

end

/-- Settles O49: the order of the keys, ascending or descending, is transitive and total, and every insertion is of a
position below those already placed. -/
theorem sortIsStable : Obligations.SortIsStable := by
  intro key desc n le order
  refine ⟨foldr_stableInsert_perm le _, ?_⟩
  have hle : ∀ i j, le i j = true ↔ if desc then key j ≤ key i else key i ≤ key j := fun i j => by
    cases desc <;> exact decide_eq_true_iff
  have htrans : ∀ i j k, le i j = true → le j k = true → le i k = true := fun i j k => by
    simp only [hle]
    split <;> omega
  have htotal : ∀ i j, le i j = false → le j i = true := fun i j h => by
    have hn : ¬ le i j = true := by simp [h]
    rw [hle] at hn ⊢
    split_ifs at hn ⊢ <;> omega
  refine (foldr_stableInsert_pairwise htrans htotal List.pairwise_lt_range).imp fun {i j} h => ?_
  obtain ⟨hij, hlt⟩ := h
  refine ⟨(hle i j).mp hij, fun heq => hlt ((hle j i).mpr ?_)⟩
  simp [heq]

/-! ### Sums (07 R177, R178) -/

/-- The long form of one addend. -/
def longOf (v : FV) : LongForm := longAdd {} v

theorem longJoin_empty (l : LongForm) : longJoin l {} = l := by simp [longJoin]

theorem empty_longJoin (l : LongForm) : longJoin {} l = l := by simp [longJoin]

theorem longJoin_assoc (a b c : LongForm) : longJoin (longJoin a b) c = longJoin a (longJoin b c) := by
  simp [longJoin, Int.add_assoc, Nat.add_assoc, Bool.or_assoc]

theorem longJoin_comm (a b : LongForm) : longJoin a b = longJoin b a := by
  simp [longJoin, Int.add_comm, Nat.add_comm, Bool.or_comm]

/-- Adding a value is joining its long form. -/
theorem longAdd_eq_longJoin (l : LongForm) (v : FV) : longAdd l v = longJoin l (longOf v) := by
  rcases v with _ | neg | ⟨neg, m, e⟩
  · simp [longAdd, longJoin, longOf]
  · cases neg <;> simp [longAdd, longJoin, longOf]
  · simp [longAdd, longJoin, longOf]

theorem longAdd_right_comm (l : LongForm) (v w : FV) : longAdd (longAdd l v) w = longAdd (longAdd l w) v := by
  simp only [longAdd_eq_longJoin, longJoin_assoc, longJoin_comm (longOf v)]

theorem foldl_longAdd_from (l : LongForm) (a : List FV) : a.foldl longAdd l = longJoin l (a.foldl longAdd {}) := by
  induction a generalizing l with
  | nil => exact (longJoin_empty l).symm
  | cons v a ih =>
    rw [List.foldl_cons, List.foldl_cons, ih, ih (longAdd {} v), longAdd_eq_longJoin l, longJoin_assoc]
    rfl

/-- Settles O50: adding a value joins its long form, and joining is commutative and associative. -/
theorem sumsDoNotDependOnOrder : Obligations.SumsDoNotDependOnOrder := by
  refine ⟨fun a b h => ?_, fun a b => ?_⟩
  · exact h.foldl_eq' (fun v _ w _ l => longAdd_right_comm l v w) {}
  · rw [List.foldl_append, foldl_longAdd_from]

end Sys2Proof.Machine
end

section
/-! PROOF. The operators: what a job whose operands are there gets, and the counts of compression control (O47). -/

namespace Sys2Proof.Machine

open Sys2Proof

/-! ### The job that a change reaches -/

section
variable {s t : State} {p ring idx : Nat} {j : Job}

theorem jobOf_jobMap {f : Job → Job} (hj : jobOf s p ring idx = some j) (hf : ∀ x, jobKey (f x) = jobKey x) :
    jobOf (jobMap s p ring idx f) p ring idx = some (f j) := by
  have hkey : ∀ x, jobKey (if x.p.val = p ∧ x.ring.val = ring ∧ x.idx = idx then f x else x) = jobKey x := fun x => by
    split
    · exact hf x
    · rfl
  rw [jobOf_map hkey rfl, hj]
  exact congrArg some (if_pos (jobOf_key hj))

/-- A job that is there has the outcome given to it. -/
theorem jobOf_outcome {f : Job → Job} {o : Outcome} (hj : jobOf s p ring idx = some j) (ht : t.jobs = s.jobs)
    (hf : ∀ x, jobKey (f x) = jobKey x) (ho : ∀ x, (f x).outcome = some o) :
    ∃ j', jobOf (jobMap t p ring idx f) p ring idx = some j' ∧ j'.outcome = some o :=
  ⟨f j, jobOf_jobMap ((jobOf_of_jobs ht _ _ _).trans hj) hf, ho j⟩

end

/-! ### Operands that are there (07 R163) -/

/-- Every byte of a range has been asked for and delivered. -/
def Delivered (j : Job) (r : InRange) : Prop := (r.host = true → r.size ≤ (stagedOf j r.slot).length) ∧
  (r.host = false → ∀ l ∈ rangeLines r, l ∈ j.asked ∧ ahas j.got l = true)

section
variable {s : State} {j : Job} {r : InRange}

theorem haveRange_of_delivered (h : Delivered j r) : haveRange j r = true := by
  obtain ⟨hhost, hdev⟩ := h
  unfold haveRange
  cases hr : r.host with
  | true => simpa using hhost hr
  | false => simpa using fun l hl => (hdev hr l hl).2

theorem askLine_asked {p : Part} {k : Ring} {idx line : Nat} (hj : jobOf s p k idx = some j) (hl : line ∈ j.asked) :
    askLine s p k idx line = s := by
  unfold askLine
  simp [hj, hl]

/-- Nothing more is asked for of a range that is there. -/
theorem askRange_of_delivered (hj : jobOf s j.p j.ring j.idx = some j) (h : Delivered j r) : askRange s j r = s := by
  obtain ⟨hhost, hdev⟩ := h
  unfold askRange
  cases hr : r.host with
  | true =>
    simp only [if_true, hj]
    unfold stageNext
    simp [hhost hr]
  | false =>
    exact foldl_keeps (P := (· = s)) _ (fun _ l hl hu => hu ▸ askLine_asked (hu ▸ hj) (hdev hr l hl).1) rfl

theorem foldl_askRange_of_delivered {rs : List InRange} (hj : jobOf s j.p j.ring j.idx = some j)
    (h : ∀ r ∈ rs, Delivered j r) : rs.foldl (fun s r => askRange s j r) s = s :=
  foldl_keeps (P := (· = s)) _ (fun _ r hr hu => hu ▸ askRange_of_delivered (hu ▸ hj) (h r hr)) rfl

end

/-! ### The kernel's result -/

/-- What a kernel is given: the bytes of a list of ranges, the job's window, and the next free values. -/
def kernelInput (s : State) (j : Job) (rs : List InRange) : KIn :=
  let rd := fun k => match rs.find? fun r => decide (r.slot = k) with
    | some r => rangeBytes j r
    | none => []
  { rd := rd, fr := fun i => Config.freeValue (s.free + i),
    win := (windowOf s j.p (bitsAt j.desc.p0 0 8)).map fun w => ⟨w.n, w.e, rd 7⟩ }

/-- The outcome that a kernel's answer leaves to the job's steps. -/
def kernelOutcome (s : State) (j : Job) (o : KOut) : Outcome :=
  { writes := outWrites j.desc (windowOf s j.p (bitsAt j.desc.p0 0 8)) o, result0 := o.r0, result1 := o.r1,
    status := o.status, flags := o.flags, adds := o.adds }

/-- An opcode's kernel is the one that its row in the table of kernels names. -/
theorem kernel_of_opcode {d : Desc} {op : Nat} {k : Desc → KIn → KOut}
    (hk : ∀ (d : Desc) x, kernel { d with opcode := op } x = k { d with opcode := op } x) (h : d.opcode = op) : kernel d = k d := by
  subst h
  exact funext (hk d)

section
variable {s : State} {j : Job}

theorem openWindow_jobs (s : State) (j : Job) : (openWindow s j).jobs = s.jobs := by
  unfold openWindow
  dsimp only
  split <;> rfl

theorem runKernel_outcome {x : Job} (hx : jobOf s j.p j.ring j.idx = some x) (rs : List InRange) :
    ∃ j', jobOf (runKernel s j rs) j.p j.ring j.idx = some j' ∧
      j'.outcome = some (kernelOutcome s j (kernel j.desc (kernelInput s j rs))) :=
  jobOf_outcome hx (openWindow_jobs _ _) (fun _ => rfl) fun _ => rfl

/-- A job may run: its window checks are passed, MAP's program is accepted, and its operands are there. -/
structure Ready (s : State) (j : Job) : Prop where
  window : windowStatus s j = stOk
  program : mapStops s j = none
  apart : hitsNeighbours j.desc ((neighborRange j).map (·.size)).sum = false
  operands : ∀ r ∈ neighborRange j ++ inRanges s j, Delivered j r

/-- A job that may run gets its kernel's result; the length of a neighbour list, noted before, is no part of it. -/
theorem runOperator_outcome (hj : jobOf s j.p j.ring j.idx = some j) (h0 : j.status = 0) (h : Ready s j) :
    ∃ j', jobOf (runOperator s j) j.p j.ring j.idx = some j' ∧
      j'.outcome = some (kernelOutcome s j (kernel j.desc (kernelInput s j (neighborRange j ++ inRanges s j)))) := by
  have hin : ∀ r ∈ inRanges s j, Delivered j r := fun r hr => h.operands r (List.mem_append_right _ hr)
  have hmore : ∀ r ∈ neighborRange j, Delivered j r := fun r hr => h.operands r (List.mem_append_left _ hr)
  have hall : ∀ l : List InRange, (∀ r ∈ l, Delivered j r) → l.all (haveRange j) = true := fun l hl =>
    List.all_eq_true.mpr fun r hr => haveRange_of_delivered (hl r hr)
  have hrun : runOperator s j = runKernel (if (neighborRange j).isEmpty then s else jobMap s j.p j.ring j.idx fun j' =>
      { j' with extra := some ((neighborRange j).map (·.size)).sum }) j (neighborRange j ++ inRanges s j) := by
    unfold runOperator
    simp [h.window, h.program, foldl_askRange_of_delivered hj hin, foldl_askRange_of_delivered hj hmore, hj, h0, hall _ hin,
      hall _ hmore, h.apart]
  rw [hrun]
  split
  · exact runKernel_outcome hj _
  · exact runKernel_outcome (jobOf_jobMap hj (by exact fun _ => rfl)) _

end

/-! ### Compression control (07 R176) -/

section
variable {s : State} {p : Part} {ring : Ring} {idx : Nat} {j : Job}

/-- The command of an operator works on a running job of its opcode that has no result. -/
theorem runJob_running {op : Nat} (go : State → Job → State) (hj : jobOf s p ring idx = some j) (hst : j.st = .running)
    (hno : j.outcome = none) (h0 : j.status = 0) (hop : j.desc.opcode = op) : runJob s p ring idx op go = go s j := by
  unfold runJob
  rw [hj]
  exact if_pos ⟨hst, hop, hno, h0⟩

/-- A count in an outcome that no step failed. -/
def Counted (t : State) (j : Job) (a b : Nat) : Prop :=
  ∃ j', jobOf t j.p j.ring j.idx = some j' ∧ j'.outcome = some { result0 := a, result1 := b }

theorem setOutcome_counted {t : State} {x : Job} (hj : jobOf s j.p j.ring j.idx = some x) (ht : t.jobs = s.jobs) (a b : Nat) :
    Counted (setOutcome t j a b) j a b := jobOf_outcome hj ht (fun _ => rfl) fun _ => rfl

theorem jobOf_takeBlocks (hj : jobOf s j.p j.ring j.idx = some j) (bs : List Nat) :
    jobOf (takeBlocks s j bs) j.p j.ring j.idx = some { j with asked := bs } := jobOf_jobMap hj fun _ => rfl

theorem runCompact_taken (hj : jobOf s j.p j.ring j.idx = some j) (hup : secondUp s = false) (hb : blocksFail s j = none)
    (ha : j.asked ≠ []) (hq : ∀ b ∈ j.asked, b ∉ s.compactQ) : Counted (runCompact s j) j
      (j.asked.filter (isCoded s)).length (j.asked.filter fun b => !isCoded s b).length := by
  have hdone : (j.asked.any fun b => s.compactQ.contains b) = false := by simpa using hq
  unfold runCompact
  simp only [hup, hb, blocksOf, List.isEmpty_iff, ha, hdone, Bool.false_eq_true, if_false]
  exact setOutcome_counted hj rfl _ _

theorem runCompact_nothing (hj : jobOf s j.p j.ring j.idx = some j) (hup : secondUp s = false) (hb : blocksFail s j = none)
    (ha : j.asked = []) (hn : (jobBlocks s j).filter (mayCode s) = []) : Counted (runCompact s j) j 0 0 := by
  unfold runCompact
  simp only [hup, hb, blocksOf, ha, hn, List.isEmpty_nil, List.foldl_nil, List.any_nil, List.filter_nil, Bool.false_eq_true,
    if_false, if_true]
  exact setOutcome_counted (jobOf_takeBlocks hj []) rfl _ _

theorem foldl_expandOne_jobs (bs : List Nat) (s : State) : (bs.foldl expandOne s).jobs = s.jobs :=
  foldl_same (·.jobs) (fun u b => ((expandOne_moves (F := 11270868042781) (a1 := b) rfl (.refl _ u)).frame .jobs (by decide)).1) _ _

/-- EXPAND is done when no block that it took is coded any more. -/
theorem runExpand_done (hj : jobOf s j.p j.ring j.idx = some j) (hup : secondUp s = false) (hb : blocksFail s j = none)
    {bs : List Nat} (hbs : blocksOf j ((jobBlocks s j).filter fun b => mayCode s b && isCoded s b) = bs)
    (hserve : blocksServe s bs = true) (hraw : ∀ b ∈ bs, isCoded (bs.foldl expandOne (takeBlocks s j bs)) b = false) :
    Counted (runExpand s j) j bs.length 0 := by
  have hleft : bs.filter (isCoded (bs.foldl expandOne (takeBlocks s j bs))) = [] := by simpa using hraw
  unfold runExpand
  simp only [hup, hb, hbs, hserve, hleft, List.any_nil, List.isEmpty_nil, Bool.not_true, Bool.false_eq_true, if_false, if_true]
  exact setOutcome_counted (jobOf_takeBlocks hj bs) (foldl_expandOne_jobs _ _) _ _
end

/-- The kinds of state that do not tell whether the twin answers. -/
def besidePair : Nat := 2 ^ 50 - 1 - 2 ^ Kind.pair.num - 2 ^ (Kind.page .belay).num

theorem Moves.besidePair {s t : State} (m : Moves besidePair s t) : twinUp t = twinUp s := m.twinUp_eq (by decide) (by decide)

theorem twinUp_ras (s : State) (x : RasState) : twinUp { s with ras := x } = twinUp s := rfl

theorem lineAct_twinUp (s : State) (line src : Nat) (l : Loc) (r : LineRead) :
    twinUp (lineAct s line src l r).1 = twinUp s := by
  have hcount : ∀ u, twinUp (finc u .rasLineErrsCeLines) = twinUp u := fun u => Moves.besidePair (finc_moves rfl (.refl _ u))
  unfold lineAct
  cases r with
  | good => rfl
  | corrected d n =>
    dsimp only
    rw [Moves.besidePair (raise_moves rfl (writeBackLine_moves rfl (.refl _ _))), twinUp_ras, hcount, putLine_twinUp]
  | poison =>
    dsimp only
    exact Moves.besidePair (raise_moves rfl (finc_moves rfl (.refl _ _)))
  | bad =>
    dsimp only
    exact Moves.besidePair (freezePc_moves rfl (raise_moves rfl (setLastUe_moves rfl (finc_moves rfl (.refl _ _)))))

theorem readLine_twinUp (s : State) (line : Nat) (upset : Upset) (src : Nat) :
    twinUp (readLine s line upset src).1 = twinUp s :=
  lineAct_twinUp { s with damage := _ } line src _ _

theorem readForm_twinUp (s : State) (b clen src : Nat) : twinUp (readForm s b clen src).1 = twinUp s := by
  unfold readForm
  refine foldl_keeps (P := fun x : State × Bool => twinUp x.1 = twinUp s) _ (fun x i _ hx => ?_) rfl
  dsimp only
  split <;> exact (readLine_twinUp _ _ _ _).trans hx

theorem decodeBlock_twinUp (s : State) (b src : Nat) : twinUp (decodeBlock s b src).1 = twinUp s := by
  have hread : twinUp (if idxOk (idxOf s b) (localOf b) = true then readForm s b (idxOf s b).clen src else (s, true)).1 =
      twinUp s := by
    split
    · exact readForm_twinUp _ _ _ _
    · rfl
  unfold decodeBlock
  dsimp only
  split
  · exact (Moves.besidePair (expanded_moves rfl (.refl _ _))).trans hread
  · exact (Moves.besidePair (damageBlock_moves rfl (.refl _ _))).trans hread

theorem verifyOne_twinUp {s : State} (h : twinUp s = false) (l : List Nat) (b : Nat) :
    twinUp (verifyOne (s, l) b).1 = false := by
  have hdecode := (decodeBlock_twinUp s b 1).trans h
  unfold verifyOne
  dsimp only
  split
  · next u _ _ _ he => exact congrArg (twinUp ·.1) he ▸ hdecode
  · next u _ he =>
    have hu : twinUp u = false := congrArg (twinUp ·.1) he ▸ hdecode
    rw [hu]
    exact hu

/-- Blocks that a package without a twin verifies leave it so, with its jobs. -/
theorem foldl_verifyOne_alone {s : State} (h : twinUp s = false) (bs : List Nat) :
    twinUp (bs.foldl verifyOne (s, [])).1 = false ∧ (bs.foldl verifyOne (s, [])).1.jobs = s.jobs := by
  refine foldl_keeps (P := fun x : State × List Nat => twinUp x.1 = false ∧ x.1.jobs = s.jobs) _ (fun x b _ hx => ?_) ⟨h, rfl⟩
  obtain ⟨hup, hjobs⟩ := hx
  exact ⟨verifyOne_twinUp hup x.2 b,
    (((verifyOne_moves (F := 11270867911709) (l := x.2) (b := b) rfl (.refl _ x.1)).frame .jobs (by decide)).1).trans hjobs⟩

theorem runVerify_alone {s : State} {j : Job} (hj : jobOf s j.p j.ring j.idx = some j) (hb : blocksFail s j = none)
    (ha : j.asked = []) (hup : twinUp s = false) (hserve : blocksServe s ((jobBlocks s j).filter (isCoded s)) = true) :
    Counted (runVerify s j) j (((jobBlocks s j).filter (isCoded s)).foldl verifyOne (s, [])).2.length 0 := by
  obtain ⟨hdone, hjobs⟩ := foldl_verifyOne_alone hup ((jobBlocks s j).filter (isCoded s))
  unfold runVerify
  simp only [hb, ha, List.isEmpty_nil, if_true, hserve, Bool.not_true, Bool.false_eq_true, if_false, hdone, Bool.not_false,
    Bool.or_true]
  exact setOutcome_counted hj hjobs _ _

/-- Settles O47: an operator whose operands are there runs its opcode's kernel on them; compression control counts the
blocks it has been through. -/
theorem operatorsComputeTheirResults : Obligations.OperatorsComputeTheirResults := by
  intro s p ring idx j hj hst hno h0 hp hr hi rs w rd x ready gives
  subst hp hr hi
  have hready : ready → Ready s j := fun ⟨hw, hm, hn, ho⟩ => ⟨hw, hm, hn, ho⟩
  have run : ∀ {c : Instr} {op : Nat} {k : Desc → KIn → KOut},
      exec c s = .next (runJob s j.p j.ring j.idx op runOperator) →
      (∀ (d : Desc) x, kernel { d with opcode := op } x = k { d with opcode := op } x) → gives c op k := fun hc hk hop h => by
    refine ⟨_, hc.trans (congrArg _ (runJob_running runOperator hj hst hno h0 hop)), ?_⟩
    rw [← kernel_of_opcode hk hop]
    exact runOperator_outcome hj h0 (hready h)
  refine ⟨run rfl fun _ _ => rfl, run rfl fun _ _ => rfl, run rfl fun _ _ => rfl, run rfl fun _ _ => rfl,
    run rfl fun _ _ => rfl, run rfl fun _ _ => rfl, run rfl fun _ _ => rfl, run rfl fun _ _ => rfl,
    run rfl fun _ _ => rfl, run rfl fun _ _ => rfl, run rfl fun _ _ => rfl, run rfl fun _ _ => rfl,
    run rfl fun _ _ => rfl, run rfl fun _ _ => rfl, run rfl fun _ _ => rfl, run rfl fun _ _ => rfl,
    run rfl fun _ _ => rfl, run rfl fun _ _ => rfl, run rfl fun _ _ => rfl, run rfl fun _ _ => rfl,
    run rfl fun _ _ => rfl, run rfl fun _ _ => rfl, fun hb => ?_⟩
  intro count
  have counts : ∀ {c : Instr} {op a b : Nat} {go : State → Job → State},
      exec c s = .next (runJob s j.p j.ring j.idx op go) → j.desc.opcode = op → Counted (go s j) j a b → count c a b :=
    fun hc hop hcount => ⟨_, hc.trans (congrArg _ (runJob_running _ hj hst hno h0 hop)), hcount⟩
  exact ⟨fun hop hup => ⟨fun ha hq => counts rfl hop (runCompact_taken hj hup hb ha hq),
      fun ha hn => counts rfl hop (runCompact_nothing hj hup hb ha hn)⟩,
    fun hop hup hserve hraw => counts rfl hop (runExpand_done hj hup hb rfl hserve hraw),
    fun hop ha hup hserve => counts rfl hop (runVerify_alone hj hb ha hup hserve)⟩

end Sys2Proof.Machine
end

section
/-! PROOF. Jobs start, and leave with their counters and records (O45). -/

namespace Sys2Proof.Machine

open Sys2Proof

/-! ### A job starts (07 R158; 12 R285) -/

/-- A started job runs, and only a fenced package fails it. -/
theorem startJob_running {s : State} {j : Job} (hj : jobOf s j.p j.ring j.idx = some j) :
    ∃ j', jobOf (startJob s j) j.p j.ring j.idx = some j' ∧ j'.st = .running ∧ j'.desc = j.desc ∧
      j'.status = (if bRole s = roleFenced ∧ writesDevice j.desc = true then stFenced else 0) := by
  refine ⟨_, jobOf_jobMap (s := pinVersions s j) hj fun _ => rfl, rfl, rfl, ?_⟩
  have hrole : bRole (pinVersions s j) = bRole s := rfl
  dsimp only
  rw [hrole]
  by_cases hf : bRole s = roleFenced ∧ writesDevice j.desc = true
  · simp [hf]
  · rw [if_neg hf, if_neg (by simpa using hf)]

/-! ### A job leaves (07 R164) -/

section
variable {s t : State} {j : Job}

/-- A job and its steps are gone. -/
def Left (t : State) (j : Job) : Prop := jobOf t j.p j.ring j.idx = none ∧
  ∀ x ∈ t.steps, ¬(x.p = j.p ∧ x.ring = j.ring ∧ x.idx = j.idx)

theorem dropJob_steps (s : State) (j : Job) : (dropJob s j).steps =
    s.steps.filter fun x => !(decide (x.p = j.p) && decide (x.ring = j.ring) && decide (x.idx = j.idx)) := by
  have hfix : ((s.snaps.map (·.base)).foldl fixReads s).steps = s.steps :=
    foldl_same (·.steps) (fun u b => ((fixReads_moves (F := 201719808) (a1 := b) rfl (.refl _ u)).frame .steps (by decide)).1) _ _
  exact congrArg (List.filter _) hfix

theorem dropJob_left (s : State) (j : Job) : Left (dropJob s j) j := by
  refine ⟨?_, fun x hx => ?_⟩
  · unfold jobOf
    rw [dropJob_jobs]
    refine List.find?_eq_none.mpr fun x hx => ?_
    have hne := (List.mem_filter.mp hx).2
    simp only [Fin.ext_iff] at hne
    simpa [or_iff_not_imp_left] using hne
  · rw [dropJob_steps] at hx
    have hne := (List.mem_filter.mp hx).2
    simpa [or_iff_not_imp_left] using hne

theorem dropJob_moved (s : State) (j : Job) : Moves 226951168 s (dropJob s j) := dropJob_moves rfl (.refl _ s)

theorem haltRing_moved (s : State) (p k cause status : Nat) : Moves 549755814925 s (haltRing s p k cause status) :=
  haltRing_moves rfl (.refl _ s)

theorem Left.haltRing (h : Left s j) (p k cause status : Nat) : Left (haltRing s p k cause status) j := by
  have hjobs : (Machine.haltRing s p k cause status).jobs = s.jobs := ((haltRing_moved s p k cause status).frame .jobs (by decide)).1
  have hsteps : (Machine.haltRing s p k cause status).steps = s.steps :=
    ((haltRing_moved s p k cause status).frame .steps (by decide)).1
  obtain ⟨hjob, hgone⟩ := h
  exact ⟨(jobOf_of_jobs hjobs _ _ _).trans hjob, fun x hx => hgone x (hsteps ▸ hx)⟩

/-- The status that a completed job has. -/
def endStatus (j : Job) : Nat := if j.status ≠ 0 then j.status else (j.outcome.getD {}).status

/-- The flags that a completed job has. -/
def endFlags (j : Job) : Nat := j.flags ||| (j.outcome.getD {}).flags

/-- A value that the spec leaves open where a step failed the job. -/
def openedValue (s : State) (j : Job) (v : Nat) : Nat × State :=
  if decide (j.status ≠ 0) && j.outcome.isSome then draw s else (v, s)

/-- RESULT0, RESULT1 and the state after their draws. -/
def resultsOf (s : State) (j : Job) : Nat × Nat × State :=
  let x := openedValue s j (j.outcome.getD {}).result0
  let y := openedValue x.2 j (j.outcome.getD {}).result1
  (x.1, y.1, y.2)

/-- A completed COMMIT closes its window, and a completed WINDOW-OPEN has opened its own. -/
def windowsDone (s : State) (j : Job) : State :=
  let close := decide (j.desc.opcode = opWinCommit) && decide (j.desc.subop = 2) && decide (endStatus j = stOk)
  let s := if close then closeWindow s j.p (bitsAt j.desc.p0 0 8) else s
  if endStatus j = stOk then
    { s with windows := s.windows.map fun w => if w.opening = some j.seq then { w with opening := none } else w } else s

/-- A job of its own ring has its record and its counters, and leaves. -/
def jobRecorded (s : State) (j : Job) (r0 r1 : Nat) : State :=
  dropJob (countJob (writeRecord s j (endStatus j) (endFlags j) (r0 % 2 ^ 64) (r1 % 2 ^ 64)) j (endStatus j) (endFlags j)) j

/-- What is left to do before a job leaves: the draws of its results, and its window. -/
def finishReady (s : State) (j : Job) : State := windowsDone (resultsOf s j).2.2 j

theorem finishJob_eq (s : State) (j : Job) : finishJob s j =
    if j.foreign then dropJob (finishReady s j) j
    else
      let t := jobRecorded (finishReady s j) j (resultsOf s j).1 (resultsOf s j).2.1
      if endStatus j ≠ stOk ∧ fget t .jobRingCtrlStopOnError j.p j.ring = 1 ∧ ringOn t j.p j.ring then
        haltRing t j.p j.ring haltStop 0
      else t := rfl

/-- Registers and time are the same. -/
def ClockAndRegs (s t : State) : Prop := t.regs = s.regs ∧ t.tb = s.tb

theorem openedValue_kept (s : State) (j : Job) (v : Nat) : ClockAndRegs s (openedValue s j v).2 := by
  unfold openedValue
  split <;> exact ⟨rfl, rfl⟩

theorem windowsDone_kept (s : State) (j : Job) : ClockAndRegs s (windowsDone s j) := by
  unfold windowsDone closeWindow
  dsimp only
  split <;> split <;> exact ⟨rfl, rfl⟩

theorem finishReady_kept (s : State) (j : Job) : ClockAndRegs s (finishReady s j) := by
  obtain ⟨hregs0, htb0⟩ := openedValue_kept s j (j.outcome.getD {}).result0
  obtain ⟨hregs1, htb1⟩ := openedValue_kept (openedValue s j (j.outcome.getD {}).result0).2 j (j.outcome.getD {}).result1
  obtain ⟨hregs, htb⟩ := windowsDone_kept (resultsOf s j).2.2 j
  exact ⟨hregs.trans (hregs1.trans hregs0), htb.trans (htb1.trans htb0)⟩

theorem finishReady_fget (s : State) (j : Job) (f : Fld) (i k : Nat) : fget (finishReady s j) f i k = fget s f i k := by
  unfold fget
  rw [(finishReady_kept s j).1]

theorem finishReady_count (s : State) (j : Job) : count (finishReady s j) = count s := by
  unfold count
  rw [(finishReady_kept s j).2]

/-- A completed job counts. -/
theorem countJob_completed (s : State) (j : Job) (status flags : Nat) :
    fget (countJob s j status flags) .jobStatsCompleted j.p = min (fget s .jobStatsCompleted j.p + 1) (2 ^ 32 - 1) := by
  have hcount : fget (fwrap (finc s .jobStatsCompleted j.p) .jobRingCountDone j.p j.ring) .jobStatsCompleted j.p =
      min (fget s .jobStatsCompleted j.p + 1) (2 ^ 32 - 1) := by
    rw [fget_fwrap_fld _ _ _ _ _ (by decide), fget_finc_self]
    rfl
  unfold countJob
  dsimp only
  split <;> split <;> simpa using hcount

/-- The status word of a completion record leaves to its address (07 Table 7.2). -/
theorem writeRecord_sends (s : State) {j : Job} (status flags r0 r1 : Nat) (hc : j.desc.completion ≠ 0) :
    .busWrite j.p (jobHead s j) (j.desc.completion + 24) (leBytes 8 (statusWord s j status flags)) false ∈
      (writeRecord s j status flags r0 r1).out := by
  unfold writeRecord
  dsimp only
  rw [if_neg hc]
  split
  · exact (signalThrough_moves (F := 1025) rfl (.refl _ _)).sent List.mem_cons_self
  · exact List.mem_cons_self

theorem jobRecorded_completed (s : State) (j : Job) (r0 r1 : Nat) :
    fget (jobRecorded s j r0 r1) .jobStatsCompleted j.p = min (fget s .jobStatsCompleted j.p + 1) (2 ^ 32 - 1) := by
  unfold jobRecorded
  rw [(dropJob_moved _ j).fget_eq (by decide) (by decide), countJob_completed,
    (writeRecord_moves (F := 1025) rfl (.refl _ s)).fget_eq (by decide) (by decide)]

theorem jobRecorded_sent (s : State) (j : Job) (r0 r1 : Nat) {m : Msg}
    (h : m ∈ (writeRecord s j (endStatus j) (endFlags j) (r0 % 2 ^ 64) (r1 % 2 ^ 64)).out) : m ∈ (jobRecorded s j r0 r1).out :=
  (dropJob_moved _ j).sent ((countJob_moves (F := 549755814925) rfl (.refl _ _)).sent h)

theorem haltRing_completed (s : State) (p k cause status : Nat) (q : Nat) :
    fget (haltRing s p k cause status) .jobStatsCompleted q = fget s .jobStatsCompleted q := by
  unfold haltRing
  simp

/-- A completed job leaves in any case. -/
theorem finishJob_left (s : State) (j : Job) : Left (finishJob s j) j := by
  rw [finishJob_eq]
  split
  · exact dropJob_left _ j
  · dsimp only
    split
    · exact (dropJob_left _ j).haltRing _ _ _ _
    · exact dropJob_left _ j

/-- A completed job of its own ring counts, and its record is written. -/
theorem finishJob_recorded (s : State) {j : Job} (hf : j.foreign = false) :
    fget (finishJob s j) .jobStatsCompleted j.p = min (fget s .jobStatsCompleted j.p + 1) (2 ^ 32 - 1) ∧
      (j.desc.completion ≠ 0 → ∃ h, .busWrite j.p h (j.desc.completion + 24)
        (leBytes 8 (statusWord s j (endStatus j) (endFlags j))) false ∈ (finishJob s j).out) := by
  have hcount := (jobRecorded_completed (finishReady s j) j (resultsOf s j).1 (resultsOf s j).2.1).trans
    (congrArg (fun n => min (n + 1) (2 ^ 32 - 1)) (finishReady_fget s j .jobStatsCompleted j.p 0))
  have hword : statusWord (finishReady s j) j (endStatus j) (endFlags j) = statusWord s j (endStatus j) (endFlags j) := by
    unfold statusWord
    rw [finishReady_count]
  have hsent : j.desc.completion ≠ 0 → .busWrite j.p (jobHead (finishReady s j) j) (j.desc.completion + 24)
      (leBytes 8 (statusWord s j (endStatus j) (endFlags j))) false ∈
        (jobRecorded (finishReady s j) j (resultsOf s j).1 (resultsOf s j).2.1).out := fun hc =>
    jobRecorded_sent _ j _ _ (hword ▸ writeRecord_sends (finishReady s j) _ _ _ _ hc)
  rw [finishJob_eq, hf, if_neg Bool.false_ne_true]
  dsimp only
  split
  · exact ⟨(haltRing_completed _ _ _ _ _ _).trans hcount, fun hc => ⟨_, (haltRing_moved _ _ _ _ _).sent (hsent hc)⟩⟩
  · exact ⟨hcount, fun hc => ⟨_, hsent hc⟩⟩

end

/-- Settles O45: a start changes the one job, and each way out of its ring drops it. -/
theorem jobsStartAndComplete : Obligations.JobsStartAndComplete := by
  intro s p ring idx j hj
  obtain ⟨hp, hr, hi⟩ := jobOf_key hj
  obtain rfl : j.p = p := Fin.ext hp
  obtain rfl : j.ring = ring := Fin.ext hr
  subst hi
  refine ⟨fun hmay => ⟨startJob s j, ?_, startJob_running hj⟩, fun hends => ?_⟩
  · show Host.Outcome.next _ = _
    rw [hj]
    exact congrArg _ (if_pos hmay)
  · refine ⟨if j.ending then dropJob s j else finishJob s j, ?_, ?_⟩
    · show Host.Outcome.next _ = _
      rw [hj]
      exact congrArg _ (if_pos hends)
    · cases he : j.ending with
      | true =>
        obtain ⟨hjob, hsteps⟩ := dropJob_left s j
        exact ⟨hjob, hsteps, fun _ => (dropJob_moved s j).frame .messages (by decide), fun _ h => absurd h (by decide)⟩
      | false =>
        obtain ⟨hjob, hsteps⟩ := finishJob_left s j
        exact ⟨hjob, hsteps, fun h => absurd h (by decide), fun hf _ => finishJob_recorded s hf⟩

end Sys2Proof.Machine
end

section
/-! PROOF. Doorbells, descriptor fetches and RING_ENABLE (O44). -/

namespace Sys2Proof.Machine

open Sys2Proof

/-! ### What a fetch that starts leaves of a ring -/

/-- A ring but for the fetch that it has outstanding. -/
def ringIdle (r : RingState) : RingState := { r with fetching := false }

section
variable (s : State) (p : Part)

theorem ringIdle_ringUpd {f : RingState → RingState} (hf : ∀ r, ringIdle (f r) = ringIdle r) (q k q' k' : Nat) :
    ringIdle (ringOf (ringUpd s q k f) q' k') = ringIdle (ringOf s q' k') := by
  by_cases hkey : ringKey q' k' = ringKey q k
  · have hself : ringOf (ringUpd s q k f) q' k' = f (ringOf s q' k') := by
      unfold ringOf
      rw [hkey]
      exact aget_aset_self _ _ _ _
    rw [hself, hf]
  · exact congrArg ringIdle (aget_aset_ne _ _ _ hkey)

theorem issueRead_rings {u : TagUse} {addr len : Nat} {t : State} (h : issueRead s p u addr len = some t) :
    t.rings = s.rings :=
  (issueRead_moves (F := 1025) rfl h (.refl _ s)).frame .rings (by decide)

theorem pumpRing_ringIdle (k : Ring) (q k' : Nat) : ringIdle (ringOf (pumpRing s p k) q k') = ringIdle (ringOf s q k') := by
  have hstart : ∀ u : State, ringIdle (ringOf (ringUpd u p k fun r => { r with fetching := true }) q k') =
      ringIdle (ringOf u q k') := fun u =>
      ringIdle_ringUpd u (by exact fun _ => rfl) p k q k'
  unfold pumpRing
  dsimp only
  split
  · split
    · split
      · next t ht =>
        rw [hstart]
        unfold ringOf
        rw [issueRead_rings s p ht]
      · rfl
    · exact hstart s
  · rfl

theorem pumpHint_rings : (pumpHint s p).rings = s.rings := (pumpHint_moves (F := 1025) rfl (.refl _ s)).frame .rings (by decide)

theorem pumpRings_ringIdle (q k : Nat) : ringIdle (ringOf (pumpRings s p) q k) = ringIdle (ringOf s q k) := by
  have hrings : ringIdle (ringOf ((List.finRange 64).foldl (fun s k => pumpRing s p k) s) q k) = ringIdle (ringOf s q k) :=
    foldl_same (fun u => ringIdle (ringOf u q k)) (fun u k' => pumpRing_ringIdle u p k' q k) _ _
  refine Eq.trans ?_ hrings
  unfold pumpRings ringOf
  rw [pumpHint_rings]

theorem pumpRing_moved (k : Ring) : Moves 2098177 s (pumpRing s p k) := pumpRing_moves rfl (.refl _ s)

theorem pumpRings_moved : Moves 2098177 s (pumpRings s p) := pumpRings_moves rfl (.refl _ s)

end

/-! ### Doorbells (07 R157) -/

section
variable {s : State} {h : Head} {p : Part} {ring : Ring}

theorem haltRing_signalled (s : State) (p k cause status : Nat) : Signalled (haltRing s p k cause status) .jobRingHalted p := by
  unfold haltRing
  dsimp only
  exact raise_signalled _ _ _ _ _ _ _

theorem doDoorbell_rings {n : Nat} (hon : ringOn s p ring = true)
    (hgap : (n + 2 ^ 32 - (ringOf s p ring).consumed) % 2 ^ 32 ≤ ringSize s p ring) :
    (ringOf (doDoorbell s p ring n) p ring).producer = n := by
  unfold doDoorbell
  rw [if_pos hon, if_neg (not_lt_of_ge hgap)]
  have hidle := pumpRing_ringIdle (ringUpd s p ring fun r => { r with producer := n }) p ring p ring
  rw [ringOf_ringUpd_self] at hidle
  exact congrArg RingState.producer hidle

theorem doDoorbell_overrun {n : Nat} (hon : ringOn s p ring = true)
    (hgap : ringSize s p ring < (n + 2 ^ 32 - (ringOf s p ring).consumed) % 2 ^ 32) :
    doDoorbell s p ring n = haltRing s p ring haltOverrun 0 := by
  unfold doDoorbell
  rw [if_pos hon, if_pos hgap]

/-! ### Descriptor fetches (07 R159) -/

/-- What a fetch serves lets go the fetches that waited for its tag. -/
theorem gives_descriptorFetch {cpl : Cpl} {Q : State → Prop} (hf : (ringOf s p ring).fetching = true)
    (hon : ringOn s p ring = true) (hc : cpl ≠ .poisoned) (hpump : ∀ u, Q u → Q (pumpRings u p))
    (hQ : ∀ u, u = s ∨ (∃ n, u = dropTag s p n) → Q (descFetched u p ring cpl)) : Gives (.descriptorFetch p ring cpl) s Q := by
  refine ⟨_, rfl, ?_⟩
  rw [if_pos (by simp [hf, hon])]
  split
  · next t _ =>
    dsimp only
    rw [if_neg hc]
    exact hpump _ (hQ _ (.inr ⟨_, rfl⟩))
  · exact hQ _ (.inl rfl)

/-- A good descriptor has become a job of its ring's next index. -/
def Fetched (s t : State) (p : Part) (ring : Ring) (bs : List Byte) : Prop :=
  (ringOf t p ring).fetched = ((ringOf s p ring).fetched + 1) % 2 ^ 32 ∧
    ∃ j ∈ t.jobs, j.p = p ∧ j.ring = ring ∧ j.idx = (ringOf s p ring).fetched ∧ j.desc = descOf bs ∧ j.st = .fetched ∧
      j.status = 0

theorem Fetched.of_idle {t u : State} {bs : List Byte} (h : Fetched s t p ring bs)
    (hr : ringIdle (ringOf u p ring) = ringIdle (ringOf t p ring)) (hj : u.jobs = t.jobs) : Fetched s u p ring bs := by
  obtain ⟨hnext, hjob⟩ := h
  exact ⟨(congrArg RingState.fetched hr).trans hnext, hj ▸ hjob⟩

/-- A ring has its next descriptor. -/
def ringTook (s : State) (p : Part) (k : Ring) : State :=
  let i := (ringOf s p k).fetched
  ringUpd s p k fun r => { r with fetched := (i + 1) % 2 ^ 32, consumed := (i + 1) % 2 ^ 32, fetching := false }

/-- The number of a job that no twin numbers later. -/
def seqNow (s : State) : Nat × State := if decide (bRole s = roleSecond) && twinUp s then (0, s) else nextSeq s

/-- The job of a descriptor. -/
def jobTaken (s : State) (p : Part) (k : Ring) (bs : List Byte) : Job :=
  let st := descStatus bs
  { p := p, ring := k, idx := (ringOf s p k).fetched, seq := (seqNow (ringTook s p k)).1, desc := descOf bs, status := st,
    st := if st = stOk then .fetched else .running,
    seqDue := decide (bRole (ringTook s p k) = roleSecond) && twinUp (ringTook s p k) && decide (st = stOk) }

/-- A descriptor's job enters its ring. -/
def jobEntered (s : State) (p : Part) (k : Ring) (bs : List Byte) : State :=
  let u := (seqNow (ringTook s p k)).2
  { u with jobs := u.jobs ++ [jobTaken s p k bs] }

theorem takeDesc_entered {bs : List Byte} (h : descStatus bs = stOk) : takeDesc s p ring bs =
    if paired (jobEntered s p ring bs) && twinUp (jobEntered s p ring bs) then
      journalSend (jobEntered s p ring bs) (.jobDesc (decide (bRole (jobEntered s p ring bs) = roleLead)) p ring
        (ringOf s p ring).fetched (seqNow (ringTook s p ring)).1 bs)
    else jobEntered s p ring bs := if_pos h

theorem seqNow_kept (s : State) : (seqNow s).2.jobs = s.jobs ∧ (seqNow s).2.rings = s.rings := by
  unfold seqNow
  split <;> exact ⟨rfl, rfl⟩

theorem jobEntered_fetched {bs : List Byte} (h : descStatus bs = stOk) : Fetched s (jobEntered s p ring bs) p ring bs := by
  obtain ⟨-, hrings⟩ := seqNow_kept (ringTook s p ring)
  have hring : ringOf (jobEntered s p ring bs) p ring = ringOf (ringTook s p ring) p ring := congrArg (aget · _ _) hrings
  refine ⟨?_, jobTaken s p ring bs, List.mem_append_right _ List.mem_cons_self, rfl, rfl, rfl, rfl, if_pos h, h⟩
  rw [hring]
  exact congrArg RingState.fetched (ringOf_ringUpd_self _ _ _ _)

/-- A good descriptor becomes a job; that the twin is told leaves jobs and rings. -/
theorem takeDesc_good {bs : List Byte} (h : descStatus bs = stOk) : Fetched s (takeDesc s p ring bs) p ring bs := by
  rw [takeDesc_entered h]
  split
  · exact (jobEntered_fetched h).of_idle rfl rfl
  · exact jobEntered_fetched h

/-- The fetch of a good descriptor from the host's ring. -/
theorem descFetched_good {data : List Byte} (hhost : fget s .jobRingCtrlHost p ring = 1)
    (h : descStatus ((data ++ List.replicate 128 0).take 128) = stOk) :
    Fetched s (descFetched s p ring (.ok data)) p ring ((data ++ List.replicate 128 0).take 128) := by
  unfold descFetched
  simp only [hhost, decide_true, Bool.not_true, Bool.false_eq_true, if_false]
  exact (takeDesc_good h).of_idle (pumpRing_ringIdle _ _ _ _ _) ((pumpRing_moved _ _ _).frame .jobs (by decide)).1

/-- A fetch that fails halts the host's ring. -/
theorem descFetched_unsupported (hhost : fget s .jobRingCtrlHost p ring = 1) : descFetched s p ring .unsupportedRequest =
    haltRing (ringUpd s p ring fun r => { r with fetching := false }) p ring haltFetch stHostAbort := by
  unfold descFetched
  simp [hhost]

end

/-! ### RING_CTRL.ENABLE (07 R160) -/

section
variable {s : State} {h : Head} {p : Part} {ring : Ring}

theorem ringNum_val (k : Ring) : ringNum k.val = k := Fin.ext (Nat.mod_eq_of_lt k.isLt)

/-- RING_CTRL's fields lie in one word for each ring. -/
theorem fieldsAt_ringCtrl (p : Part) (k : Ring) : fieldsAt .job p (0x108 + 32 * k.val) = [⟨.jobRingCtrlEnable, k, 0⟩,
    ⟨.jobRingCtrlHost, k, 1⟩, ⟨.jobRingCtrlSize, k, 2⟩, ⟨.jobRingCtrlStopOnError, k, 6⟩, ⟨.jobRingCtrlInflight, k, 8⟩] := by
  revert k
  show ∀ k : Ring, fieldsAt .job 0 (0x108 + 32 * k.val) = _
  decide +kernel

/-- ENABLE is bit 0 of the word that changes it alone. -/
theorem wordWith_ringEnable (s : State) (p : Part) (k : Ring) (on : Bool) :
    wordWith s .job p (0x108 + 32 * k.val) [(.jobRingCtrlEnable, k.val, flag on)] % 2 = flag on := by
  have hword : wordWith s .job p (0x108 + 32 * k.val) [(.jobRingCtrlEnable, k.val, flag on)] =
      flag on % 2 + fget s .jobRingCtrlHost p k * 2 ^ 1 + fget s .jobRingCtrlSize p k * 2 ^ 2 +
        fget s .jobRingCtrlStopOnError p k * 2 ^ 6 + fget s .jobRingCtrlInflight p k * 2 ^ 8 := by
    have henable : Fld.jobRingCtrlEnable.desc.w = 1 := rfl
    have hhost : Fld.jobRingCtrlHost.desc.acc = .rw := rfl
    have hsize : Fld.jobRingCtrlSize.desc.acc = .rw := rfl
    have hstop : Fld.jobRingCtrlStopOnError.desc.acc = .rw := rfl
    have hinflight : Fld.jobRingCtrlInflight.desc.acc = .rw := rfl
    unfold wordWith
    rw [fieldsAt_ringCtrl]
    simp [henable, hhost, hsize, hstop, hinflight]
  have hbit : flag on < 2 := by cases on <;> decide
  omega

theorem newFld_ringEnable (u : State) (v : View) (p : Part) (k : Ring) (w : Nat) :
    newFld u v .job p (0x108 + 32 * k.val) w .jobRingCtrlEnable k = w % 2 := by
  have hfind : (fieldsAt .job p (0x108 + 32 * k.val)).find? (fun x => decide (x.fld = .jobRingCtrlEnable) &&
      decide (x.copy = k.val)) = some ⟨.jobRingCtrlEnable, k, 0⟩ := by
    rw [fieldsAt_ringCtrl]
    simp
  unfold newFld
  rw [hfind]
  show w / 2 ^ 0 % 2 ^ 1 = w % 2
  rw [Nat.pow_zero, Nat.div_one, Nat.pow_one]

/-- A write past the header of a JOB page is audited and takes effect. -/
theorem writeReg_job {v : View} {i off w : Nat} (hw : Writes s v .job i off w) (hoff : 0x040 ≤ off) :
    (writeReg s v .job i off w).1 = applyJob (auditWrite s v .job i off w (readReg s v .job i off)) i off
      fun f k => newFld (auditWrite s v .job i off w (readReg s v .job i off)) v .job i off w f k := by
  rw [writeReg_open hw]
  dsimp only
  rw [if_neg (by omega), if_neg (by omega)]
  rfl

theorem applyJob_ringCtrl (s : State) (p : Part) (k : Ring) (nv : Fld → Nat → Nat) :
    applyJob s p (0x108 + 32 * k.val) nv = ringCtrl s p k nv := by
  have hnum : (0x108 + 32 * k.val - 0x100) / 32 = k.val := by omega
  unfold applyJob
  rw [if_neg (by omega), if_pos (by omega), hnum, ringNum_val, partNum_val]

/-- RING_CTRL stores its other fields before it turns its ring on or off. -/
theorem ringCtrl_enable (s : State) (p : Part) (k : Ring) (nv : Fld → Nat → Nat) :
    ∃ u, fget u .jobRingCtrlEnable p k = fget s .jobRingCtrlEnable p k ∧
      ringCtrl s p k nv = setRingEnable u p k (decide (nv .jobRingCtrlEnable k = 1)) := by
  refine ⟨_, ?_, rfl⟩
  rw [fget_fset_fld _ _ _ _ _ _ (by decide), fget_fset_fld _ _ _ _ _ _ (by decide)]
  split
  · rfl
  · rw [fget_fset_fld _ _ _ _ _ _ (by decide), fget_fset_fld _ _ _ _ _ _ (by decide)]

/-- A host's write of ENABLE that goes through turns its ring on or off. -/
theorem gives_ringEnable {on : Bool} {Q : State → Prop} (ho : ioOpen s h p = true)
    (hw : Writes s (.host p h) .job p (0x108 + 32 * ring.val)
      (wordWith s .job p (0x108 + 32 * ring.val) [(.jobRingCtrlEnable, ring.val, flag on)]))
    (hQ : ∀ u, fget u .jobRingCtrlEnable p ring = fget s .jobRingCtrlEnable p ring → Q (setRingEnable u p ring on)) :
    Gives (.ringEnable h p ring on) s Q := by
  have hon : decide (flag on = 1) = on := by cases on <;> rfl
  obtain ⟨w, hword⟩ : ∃ w, w = wordWith s .job p (0x108 + 32 * ring.val) [(.jobRingCtrlEnable, ring.val, flag on)] := ⟨_, rfl⟩
  have hbit : w % 2 = flag on := hword ▸ wordWith_ringEnable s p ring on
  refine gives_ioWrite ho rfl ?_
  change Q (writeReg (ioTouch s h) (.host p h) .job p _ (wordWith s .job p _ _)).1
  rw [← hword] at hw ⊢
  rw [writeReg_job (hw.ioTouch h) (by omega), applyJob_ringCtrl]
  obtain ⟨u, hu, hset⟩ := ringCtrl_enable (auditWrite (ioTouch s h) (.host p h) .job p (0x108 + 32 * ring.val) w
    (readReg (ioTouch s h) (.host p h) .job p (0x108 + 32 * ring.val))) p ring _
  rw [hset, newFld_ringEnable, hbit, hon]
  exact hQ u hu

/-- A ring that is turned on starts anew. -/
theorem setRingEnable_on (h0 : fget s .jobRingCtrlEnable p ring = 0) :
    let t := setRingEnable s p ring true
    fget t .jobRingCtrlEnable p ring = 1 ∧ fget t .jobRingStatusHalted p ring = 0 ∧ fget t .jobRingStatusCause p ring = 0 ∧
      ringOf t p ring = {} := by
  unfold setRingEnable
  rw [h0]
  dsimp only
  rw [if_pos (by decide)]
  refine ⟨?_, ?_, ?_, aget_aset_self _ _ _ _⟩
  · rw [fget_fset_self]
    rfl
  · simp
  · simp

/-- What a ring that is turned off does with one of its jobs. -/
def jobStopped (s : State) (j : Job) : State := if j.st = .fetched then dropJob s j else cancelJob s j stCancelled

/-- Two jobs have one index of one ring. -/
def SameIndex (j x : Job) : Prop := x.p = j.p ∧ x.ring = j.ring ∧ x.idx = j.idx

/-- A job `x` that is left of `y` once the ring has stopped the job `j`: the same job, failed and running if it is `j`. -/
structure Stopped (j y x : Job) : Prop where
  key : jobKey x = jobKey y
  st : x.st = y.st
  failed : y.status ≠ 0 → x.status ≠ 0
  cancelled : SameIndex j y → j.st = .running ∧ x.status ≠ 0

theorem jobStopped_jobs (s : State) (j : Job) : ∀ x ∈ (jobStopped s j).jobs, ∃ y ∈ s.jobs, Stopped j y x := fun x hx => by
  unfold jobStopped at hx
  split at hx
  · next hst =>
    rw [dropJob_jobs] at hx
    obtain ⟨hmem, hne⟩ := List.mem_filter.mp hx
    refine ⟨x, hmem, rfl, rfl, id, fun ⟨hp, hr, hi⟩ => ?_⟩
    simp [hp, hr, hi] at hne
  · next hst =>
    have hrun : j.st = .running := by
      cases hj : j.st with
      | fetched => exact absurd hj hst
      | running => rfl
    obtain ⟨y, hy, rfl⟩ := List.mem_map.mp hx
    refine ⟨y, hy, ?_⟩
    split
    · have hcancelled : stCancelled ≠ 0 := by decide
      exact ⟨rfl, rfl, fun _ => hcancelled, fun _ => ⟨hrun, hcancelled⟩⟩
    · next hkeep =>
      refine ⟨rfl, rfl, id, fun ⟨hp, hr, hi⟩ => ⟨hrun, fun h0 => hkeep ⟨hp, hr, hi, .inl h0⟩⟩⟩

/-- Every job that is left of a list of stopped jobs runs and is failed. -/
theorem foldl_jobStopped_jobs (l : List Job) (s : State) : ∀ x ∈ (l.foldl jobStopped s).jobs, ∃ y ∈ s.jobs,
    jobKey x = jobKey y ∧ x.st = y.st ∧ (y.status ≠ 0 → x.status ≠ 0) ∧
      ∀ j ∈ l, SameIndex j y → j.st = .running ∧ x.status ≠ 0 := by
  induction l generalizing s with
  | nil => exact fun x hx => ⟨x, hx, rfl, rfl, id, fun j hj => absurd hj List.not_mem_nil⟩
  | cons j l ih =>
    intro x hx
    obtain ⟨z, hz, hkey, hst, hfail, hl⟩ := ih _ x hx
    obtain ⟨y, hy, h⟩ := jobStopped_jobs s j z hz
    have hsame : ∀ i, SameIndex i y → SameIndex i z := fun i hi => by
      have hk := h.key
      simp only [jobKey, Prod.mk.injEq] at hk
      obtain ⟨hp, hr, hx, -⟩ := hk
      obtain ⟨hp', hr', hi'⟩ := hi
      exact ⟨hp.trans hp', hr.trans hr', hx.trans hi'⟩
    refine ⟨y, hy, hkey.trans h.key, hst.trans h.st, fun hy0 => hfail (h.failed hy0), fun i hi hiy => ?_⟩
    rcases List.mem_cons.mp hi with rfl | hi
    · obtain ⟨hrun, hz0⟩ := h.cancelled hiy
      exact ⟨hrun, hfail hz0⟩
    · exact hl i hi (hsame i hiy)

theorem mem_ringJobs {x : Job} {p k : Nat} : x ∈ ringJobs s p k ↔ x ∈ s.jobs ∧ x.p.val = p ∧ x.ring.val = k ∧ x.foreign = false := by
  simp [ringJobs, and_assoc]

theorem foldl_jobStopped_ringJobs (s : State) (p : Part) (k : Ring) :
    ∀ x ∈ ringJobs ((ringJobs s p k).foldl jobStopped s) p k, x.st = .running ∧ x.status ≠ 0 := fun x hx => by
  obtain ⟨hmem, hp, hr, hf⟩ := mem_ringJobs.mp hx
  obtain ⟨y, hy, hkey, hst, -, hstop⟩ := foldl_jobStopped_jobs _ s x hmem
  simp only [jobKey, Prod.mk.injEq] at hkey
  obtain ⟨kp, kr, -, kf⟩ := hkey
  have hring : y ∈ ringJobs s p k := mem_ringJobs.mpr ⟨hy, kp ▸ hp, kr ▸ hr, kf ▸ hf⟩
  obtain ⟨hrun, h0⟩ := hstop y hring ⟨rfl, rfl, rfl⟩
  exact ⟨hst.trans hrun, h0⟩

theorem jobStopped_moved (s : State) (j : Job) : Moves 226951168 s (jobStopped s j) := by
  unfold jobStopped
  split
  · exact dropJob_moved s j
  · exact cancelJob_moves rfl (.refl _ s)

/-- A ring as it is turned off, before its jobs are stopped. -/
def ringClosed (s : State) (p : Part) (k : Ring) : State :=
  discardTags (ringUpd (fset s .jobRingCtrlEnable 0 p k) p k fun r => { r with fetching := false }) p
    fun u => decide (u = .descriptor k)

theorem setRingEnable_off (h1 : fget s .jobRingCtrlEnable p ring = 1) : setRingEnable s p ring false =
    (ringJobs (ringClosed s p ring) p ring).foldl jobStopped (ringClosed s p ring) := by
  unfold setRingEnable
  rw [h1]
  rfl

theorem setRingEnable_off_stops (h1 : fget s .jobRingCtrlEnable p ring = 1) :
    let t := setRingEnable s p ring false
    fget t .jobRingCtrlEnable p ring = 0 ∧ ∀ j ∈ ringJobs t p ring, j.st = .running ∧ j.status ≠ 0 := by
  rw [setRingEnable_off h1]
  refine ⟨?_, foldl_jobStopped_ringJobs _ p ring⟩
  have hstop : ∀ u j, fget (jobStopped u j) .jobRingCtrlEnable p ring = fget u .jobRingCtrlEnable p ring := fun u j =>
    (jobStopped_moved u j).fget_eq (by decide) (by decide) _ _
  refine (foldl_same (fun u => fget u .jobRingCtrlEnable p ring) hstop _ _).trans ?_
  exact fget_fset_self s .jobRingCtrlEnable 0 p ring

end

/-- Settles O44: a doorbell and a fetch change their own ring, a halt shows in its status, and ENABLE starts or stops it. -/
theorem ringsFetchAndHalt : Obligations.RingsFetchAndHalt := by
  intro s h p ring
  refine ⟨fun ho hon n relaxed => ⟨fun hgap => ?_, fun hgap => ?_⟩, fun hf hon => ⟨fun hhost data _ => ?_, fun hhost => ?_⟩,
    fun ho _ on hw => ⟨?_, ?_⟩⟩
  · exact gives_ioWrite ho rfl (doDoorbell_rings (s := ioTouch s h) hon hgap)
  · refine gives_ioWrite ho rfl ?_
    rw [doDoorbell_overrun (s := ioTouch s h) hon hgap]
    obtain ⟨hhalted, hcause, -⟩ := haltRing_status (ioTouch s h) p ring (cause := haltOverrun) (status := 0) (by decide) (by decide)
    exact ⟨hhalted, hcause, haltRing_signalled _ _ _ _ _⟩
  · intro bs hgood
    refine gives_descriptorFetch (cpl := .ok data) hf hon (by simp) (fun u hu => ?_) fun u hu => ?_
    · exact Fetched.of_idle (s := s) hu (pumpRings_ringIdle u p p ring) (pumpRings_jobs u p)
    · rcases hu with rfl | ⟨n, rfl⟩
      · exact descFetched_good hhost hgood
      · exact descFetched_good (s := dropTag s p n) hhost hgood
  · refine gives_descriptorFetch (cpl := .unsupportedRequest) hf hon (by simp) (fun u hu => ?_) fun u hu => ?_
    · rw [fget_pumpRings_job u p (f := .jobRingStatusHalted) rfl, fget_pumpRings_job u p (f := .jobRingStatusCause) rfl,
        fget_pumpRings_job u p (f := .jobRingStatusHaltStatus) rfl]
      exact hu
    · have hu' : fget u .jobRingCtrlHost p ring = 1 := by
        rcases hu with rfl | ⟨n, rfl⟩
        · exact hhost
        · exact hhost
      rw [descFetched_unsupported hu']
      exact haltRing_status _ p ring (by decide) (by decide)
  · rintro rfl h0
    exact gives_ringEnable ho hw fun u hu => setRingEnable_on (hu.trans h0)
  · rintro rfl h1
    exact gives_ringEnable ho hw fun u hu => setRingEnable_off_stops (hu.trans h1)

end Sys2Proof.Machine
end
